-- ==== Sys2Proof/Word.lean ====
section
/-! DEFINITION. The word types of the device: bytes, 32-bit registers, 64-bit quantities (R6, R7, R8). -/
namespace Sys2Proof

/-- One byte of a buffer, message or record. -/
abbrev Byte := BitVec 8

/-- A register (R8: every register is 32 bits wide). -/
abbrev W32 := BitVec 32

/-- A 64-bit quantity: two consecutive registers (R8). -/
abbrev W64 := BitVec 64

/-- A string of bytes, lowest offset first. -/
abbrev Bytes := List Byte

end Sys2Proof
end

