-- ==== Sys2Proof/Syntax/Operand.lean ====
section
/-! DEFINITION. The operands of the commands: requesters, messages, records and reports the chapters define. -/
namespace Sys2Proof

/-- A requester (R8): one PCIe function (port and function number), the NVMe-MI endpoint, or one Prompter pair. -/
inductive Requester where
  | function (port fn : Nat)
  | mi
  | prompter (pair : Nat)
  deriving DecidableEq, Repr

/-- A register window: the house window, or the tenant window that a function's BAR2 shows (R8, R525). -/
inductive Window where
  | house
  | tenant (tag : Nat)
  deriving DecidableEq, Repr

/-- A Ground transaction as it reaches a unit boundary (R15-R20): its visible fields, the source and destination
units, and the owner tag of the region, context or slot it would act on. -/
structure GroundTx where
  src : Nat
  dst : Nat
  tag : Nat
  owner : Nat
  route : Nat
  cls : Nat
  seq : Nat
  /-- The originating task, where a task made the transaction. -/
  task : Option Nat
  deriving DecidableEq, Repr

/-- A Pricking image: its bytes, and what the published signature and digest standards say of its signature block (R34,
R35): whether both signatures of each set verify, the SHA-384 digests of the owner set's public keys, and whether the
second set's keys are the enabled key of the boot ROM's list that KEY_ID names. -/
structure PrkImage where
  bytes : Bytes
  ownerVerifies : Bool
  vendorVerifies : Bool
  ownerMl : Nat
  ownerEc : Nat
  vendorInRom : Bool
  deriving DecidableEq, Repr

/-- A status code: type, code and Do Not Retry (R132, R521). -/
structure Status where
  sct : Nat
  sc : Nat
  dnr : Bool
  deriving DecidableEq, Repr

/-- An event as a unit raises it (R457). -/
structure Event where
  source : Nat
  code : Nat
  arg0 : Nat
  arg1 : Nat
  tag : Nat
  deriving DecidableEq, Repr

/-- What the clock supervision of R52 reports as a clock alarm. -/
inductive ClockAlarm where
  | refclkAbsent | refclkFar | rootUnlock | secGlitch | cueGlitch
  deriving DecidableEq, Repr

/-- What the PTP or PTM firmware servo finds from one exchange (R62, R63): the source's time less the cue in ns,
whether the servo is locked, and the rate it writes, in 0.01 ppm. -/
structure ServoReport where
  offset : Int
  locked : Bool
  rate : Int
  deriving DecidableEq, Repr

/-- A unit that posts cues, with the channel or actuator whose part of the share it uses (R66). -/
inductive Poster where
  | stage
  | flash (channel : Nat)
  | read (act : Nat)
  | prompters
  | hoop
  | hfe
  deriving DecidableEq, Repr

/-- What a cue does at its target when it fires. The spec numbers no action codes; `raw` is a code a house post names. -/
inductive CueAction where
  | raw (code arg : Nat)
  /-- The Pricking apply cue (R41). -/
  | prkApply
  /-- A read gate on a lane, for a sector that starts at an angle (R239). -/
  | readGate (act lane startAngle : Nat)
  /-- A decoder reservation and its Ground write slot for the codeword of a lane (R22, R213). -/
  | reserve (act lane : Nat)
  /-- The start of a write run on an actuator at an angle (R245). -/
  | writeRun (act startAngle sectors : Nat)
  /-- A program or an erase that starts at a power grid point (R216). -/
  | program (lun : Nat)
  | erase (lun : Nat)
  /-- A sealed window's start on an engine: 0 Scrim, 1 Smock, 2 Tally, 3 ASU (R301). -/
  | window (engine : Nat)
  /-- A quantum boundary at which held completions are posted (R410). -/
  | posting
  /-- A TIMED task of the Stage Manager (R298). -/
  | task (handle : Nat)
  /-- The delivery of an actuator's position sample to Hoop (R232). -/
  | servoSample (act : Nat)
  /-- A loop slot's bank swap (R264). -/
  | bankSwap (slot : Nat) (bank : Bool)
  /-- The enable of a loop slot (R269). -/
  | loopEnable (slot : Nat)
  deriving DecidableEq, Repr

/-- A cue as its poster asks for it (R66, R67). -/
structure CueReq where
  fire : Nat
  target : Nat
  action : CueAction
  tag : Nat
  deriving DecidableEq, Repr

/-- What a PCIe transaction asks for: a memory read or write by BAR (none: outside every BAR), or a completion. -/
inductive TlpKind where
  | read (bar : Option Nat) (off size : Nat)
  | write (bar : Option Nat) (off size val : Nat)
  | completion (rid : Nat)
  deriving DecidableEq, Repr

/-- A TLP as the port receives it (R102): malformed, poisoned, or failing the IDE check of a stream. -/
structure Tlp where
  malformed : Bool
  poisoned : Bool
  ideFailed : Option Nat
  kind : TlpKind
  deriving DecidableEq, Repr

/-- How a completer answers a device read or write (EV002, EV005). -/
inductive CplStatus where
  | ok | poisoned | ur | ca
  deriving DecidableEq, Repr

/-- The content of a DOE object (R83): IDE_KM binds a stream to functions, re-keys it or stops it. -/
inductive DoeBody where
  | spdm
  | securedSpdm
  | ideKmProgram (stream : Nat) (fns : List Nat)
  | ideKmStop (stream : Nat)
  deriving DecidableEq, Repr

/-- A DOE object written to a PF's mailbox: whether its length is right, and its content (R83, EV010). -/
structure DoeObject where
  lenOk : Bool
  body : DoeBody
  deriving DecidableEq, Repr

/-- An Ethernet frame as a MAC receives it (R85, R86, R102): check sequence and length, the receive buffer's fill after it,
the queue pair of an ECN-marked RoCEv2 packet, and its ICRC. -/
structure EthFrame where
  fcsOk : Bool
  len : Nat
  fill : Nat
  qp : Option Nat
  ecn : Bool
  icrcOk : Bool
  deriving DecidableEq, Repr

/-- The PHY types of R84. -/
inductive EthPhyType where
  | cr2 | kr2 | cr1 | kr1
  deriving DecidableEq, Repr

/-- A trained Ethernet link: its PHY type, FEC lock and lanes at 100 Gb/s. -/
structure EthPhy where
  phy : EthPhyType
  fecLocked : Bool
  lanes : Nat
  deriving DecidableEq, Repr

/-- An NVMe/TCP ICReq (R91). -/
structure IcReq where
  /-- The logical port and the address entry the connection came to. -/
  lport : Nat
  net : Nat
  pfv : Nat
  hpda : Nat
  lenOk : Bool
  hdgst : Bool
  ddgst : Bool
  maxr2t : Nat
  deriving DecidableEq, Repr

/-- A command capsule on a connection or queue pair (R91, R93, EV019-EV025, EV036): its length, its digests, the command's
data length and the data it carries in the capsule. -/
structure Capsule where
  len : Nat
  hdgstOk : Bool
  ddgstOk : Bool
  cid : Nat
  cmdLen : Nat
  inCapsule : Nat
  bytes : Bytes
  deriving DecidableEq, Repr

/-- An H2CData PDU: the request it answers, its offset, length and data, its digests (EV019-EV022). -/
structure H2cPdu where
  rid : Nat
  off : Nat
  len : Nat
  bytes : Bytes
  hdgstOk : Bool
  ddgstOk : Bool
  deriving DecidableEq, Repr

/-- A TLS 1.3 handshake as firmware sees it (R88, R92): a supported suite, a key exchange mode with a supported group, the
tenant the offered PSK is bound to, and any other violation. -/
structure TlsMsg where
  /-- The logical port and the address entry the connection came to. -/
  lport : Nat
  net : Nat
  suite : Bool
  group : Bool
  pskTag : Option Nat
  violation : Bool
  deriving DecidableEq, Repr

/-- A fabrics Connect (R87-R90, R97): its connection or queue pair, the controller and queue named, the host's names, its
KATO in ms, and the tenant that in-band authentication proved. -/
structure ConnectReq where
  rdma : Bool
  /-- The logical port and the address entry a queue pair came to. -/
  lport : Nat
  net : Nat
  conn : Nat
  cntlid : Nat
  qid : Nat
  size : Nat
  hostNqn : Nat
  hostId : Nat
  kato : Nat
  authTag : Option Nat
  deriving DecidableEq, Repr

/-- The fields every NVMe command carries: controller, submission queue (0 admin), command identifier, namespace
identifier, and whether a reserved or unsupported field is set where the device checks it. -/
structure CmdHdr where
  ctrl : Nat
  sq : Nat
  cid : Nat
  nsid : Nat
  badField : Bool
  deriving DecidableEq, Repr

/-- The supply conditions of R480 at the moment PERST_N rises. -/
structure PowerConditions where
  refclkStable : Bool
  railsStable : Bool
  lossHigh : Bool
  deriving DecidableEq, Repr

/-- The options of a KV Store (R107). -/
structure KvOpts where
  mustExist : Bool
  mustNotExist : Bool
  noCompress : Bool
  deriving DecidableEq, Repr

/-- The creation structure of Namespace Management (R106, R140): the command set, capacity in LBAs, LBA format, owner tag and
the archive attributes of bytes 3842-3855; whether the reserved bytes are zero. -/
structure NsAttrs where
  kv : Bool
  nsze : Nat
  lbaf : Nat
  owner : Nat
  services : Nat
  compFormat : Nat
  compLevel : Nat
  cipher : Nat
  fixityAlg : Nat
  tierPolicy : Nat
  demoteDays : Nat
  promoteReads : Nat
  sweepDays : Nat
  reservedZero : Bool
  deriving DecidableEq, Repr

/-- What one file boundary of an archive job finds (R158-R161). Export: the bytes and whether the version passed the checks of
R145 and the manifest digest. Import: the payload file as the bag names it. -/
structure ArcFile where
  /-- The file's name: the characters before the last step of its path. -/
  name : Bytes
  value : Bytes
  /-- Length in bytes (a file longer than the limit is not carried in `value`). -/
  len : Nat
  /-- Listed in a manifest; every listed digest matches. -/
  listed : Bool
  digestsMatch : Bool
  /-- Creation time in pq-provenance.txt, zero where none. -/
  origTai : Nat
  /-- Export: the checks pass; the computed manifest digest equals DIGEST. -/
  checksPass : Bool
  /-- Export: bytes of the tar members written for it; the bag namespace's end was reached. -/
  tarBytes : Bytes
  endReached : Bool
  /-- This was the last file, and what the end of the bag found: Payload-Oxum disagrees; the tag-manifest digest. -/
  last : Bool
  oxumBad : Bool
  tagDigest : Nat
  deriving DecidableEq, Repr

/-- What the first pass of an import reads (R160): bagit.txt present with version 1.0 and UTF-8, a manifest present. -/
structure BagScan where
  bagitOk : Bool
  hasManifest : Bool
  deriving DecidableEq, Repr

/-- A Memory Copy (R331): a source and a destination, each the tenant's SLM or LBAs of a namespace. -/
structure MemCopy where
  /-- The source's and the destination's namespace; none: SLM. Offsets are bytes of SLM or of a value, or LBAs. -/
  srcNs : Option Nat
  dstNs : Option Nat
  /-- The key, where the namespace named is a key-value namespace. -/
  key : Bytes
  srcOff : Nat
  dstOff : Nat
  len : Nat
  deriving DecidableEq, Repr

/-- A piece of a firmware image, with what the image's signatures and header say (R484, R485). -/
structure FwImage where
  len : Nat
  last : Bool
  verifies : Bool
  svn : Nat
  version : Nat
  safetyImage : Nat
  deriving DecidableEq, Repr

/-- What the loader computes at start-up from the parameter pages of the dies present and the platter records (R170, R190): the mappable
units of both tiers, the stripe blocks, the platter bands. -/
structure MediaFacts where
  flashUnits : Nat
  platUnits : Nat
  stripeBlocks : Nat
  bands : Nat
  deriving DecidableEq, Repr

/-- A flash group's dies as bring-up finds them (R202, R203, R208, R221): whether their values agree with the other groups' and the
FLASH_GROUP record; the rate multiplier trained at; data rows of a member, slots per page set, member erase blocks of a LUN, retry
levels, rated endurance; a BRICK_ID found in a valid header; the LUNs that answer with their unique IDs; channels that fail at N = 1. -/
structure DieFacts where
  geometryOk : Bool
  n : Nat
  rows : Nat
  setSlots : Nat
  members : Nat
  levels : Nat
  endurance : Nat
  brick : Option Nat
  luns : List (Nat × Nat)
  dead : List Nat
  deriving DecidableEq, Repr, Inhabited

/-- What a Rehearsal step finds as it ends (R431, R309, R201-R203, R469, R478): the DRAM channels that trained in both sets, two ranks, the
RFM thresholds (0: none required); each tap's compensation; the cores that pass; each group's dies, and the BRICK_ID a first format draws;
whether a hole was found; whether the newest checkpoint or the one before it can be read. -/
inductive StepFacts where
  | plain
  | dram (trained : List Nat) (ranks2 : Bool) (rfmInitial rfmMax : Nat)
  | taps (comp : List (Nat × Int))
  | cores (passed : List Nat)
  | flash (dies : List (Nat × DieFacts)) (brick : Nat)
  | sampler (hole : Bool)
  | map (readable : Bool)
  deriving DecidableEq, Repr

/-- An angle field as the clock lane detects it (R227, R228): its 32 bits, and a phase error beyond 1/8 cycle for 64 cycles. -/
structure AngleField where
  word : BitVec 32
  phaseLong : Bool
  deriving DecidableEq, Repr

/-- A servo field demodulated (R231, R232): missing, or the primary head's track and position error in 1/65,536 of the pitch, and the
companion head's position error while a companion read is in progress. -/
structure ServoField where
  missing : Bool
  track : Nat
  pes : Int
  companion : Option Int
  deriving DecidableEq, Repr

/-- A sector's search windows (R240): the Hamming distance from the sync mark at each of the 33 positions from the earliest, the same
for the resync mark of a split sector, and whether a signal above the lane's floor was there (R253). -/
structure SyncWindow where
  mark : List Nat
  resync : Option (List Nat)
  signal : Bool
  deriving DecidableEq, Repr


/-- What an invocation leaves as it returns (R319, R320, R332): register 0, its output and state regions, its stores to the SLM window by
offset, and the issue cycles of its translated code. -/
structure InvResult where
  ret : BitVec 64
  output : Bytes
  state : Bytes
  stores : List (Nat × Bytes)
  cycles : Nat
  deriving DecidableEq, Repr

/-- A bank entry that has been upset since it was written (R368, R369): its index, and what the bank holds there now (none: not
valid). -/
structure AsuUpset where
  index : Nat
  entry : Option (BitVec 128 × BitVec 64)
  deriving DecidableEq, Repr

/-- What a job is a check of (R24, R150-R153): a version of a key-value namespace, or an extent of an NVM one; and whether, should the
check fail, the re-read through the whole ladder passes. -/
structure FixCheck where
  nsid : Nat
  obj : Nat
  recovers : Bool
  deriving DecidableEq, Repr

/-- What a DRAM or SRAM word that turns out poisoned belongs to (R434): data of a scene (staging, a task buffer or SLM it reads), a task's
engine context, a helper's invocation, a granule of a committed Wings slot, an ASU shadow entry, a Bobbin's memory, the partial parity of a
stripe block or band; tables are rebuilt without trace. -/
inductive DramUse where
  | none
  | scene (o : Nat)
  | task (h : Nat)
  | inv (h : Nat)
  | wings (slot granule : Nat)
  | shadow (table index : Nat)
  | bobbin (b : Nat)
  | stripe (sb : Nat)
  | band (k : Nat)
  deriving DecidableEq, Repr

/-- A derivation request (R386, R388): the requesting task's tag, and the label's purpose, tenant, namespace, epoch and index. -/
structure DeriveReq where
  tag : Nat
  purpose : Nat
  tenant : Nat
  nsid : Nat
  epoch : Nat
  index : Nat
  deriving DecidableEq, Repr

/-- A Security Send (R389, R396): an injection or a clearing of a Key Per I/O tag, or of a host secret or PSK of a tenant under protocol
0xEA; whether the transport is one that R396 accepts; a well-formed payload. -/
inductive SecSend where
  | inject (tag : Nat) (key : BitVec 512) (bits : Nat) (secure : Bool)
  | clear (tag : Nat)
  | secret (tenant slot : Nat) (key : Option (BitVec 512))
  | other
  deriving DecidableEq, Repr

/-- An SPDM request (R418, R420). -/
inductive SpdmKind where
  | version | capabilities | digests | certificate | challenge
  | measurements (index : Nat) (signed : Bool)
  | keyExchange | finish | endSession | setCertificate (slot : Nat)
  deriving DecidableEq, Repr

/-- An SPDM request, with the requester it came from. -/
structure SpdmReq where
  req : Requester
  kind : SpdmKind
  deriving DecidableEq, Repr

/-- A TD_RESPONSE (R421, R422): the SHA-384 of its public key, and whether its signature verifies over a nonce, a serial and a power-cycle
count that it names. -/
structure TdResponse where
  keyDigest : Nat
  nonce : BitVec 256
  serial : Nat
  powerCycles : Nat
  verifies : Bool
  deriving DecidableEq, Repr

/-- What a management message asks for (R94, R418, R486). -/
inductive MiBody where
  /-- A tunnelled admin command for a controller; Firmware Image Download and Firmware Commit with what they carry. -/
  | tunnelled (ctrl opcode : Nat)
  | fwDownload (ctrl offset : Nat) (img : FwImage)
  | fwCommit (ctrl action slot : Nat)
  | readWindow (off size : Nat)
  | writeWindow (off size val : Nat)
  | setAddress (addr : Nat)
  | spdm (kind : SpdmKind)
  | basic
  deriving DecidableEq, Repr

/-- An NVMe-MI message (R94, EV048-EV050): packet checks, message integrity check, length. -/
structure MiMsg where
  packetOk : Bool
  micOk : Bool
  len : Nat
  body : MiBody
  deriving DecidableEq, Repr

end Sys2Proof
end

