-- ==== Sys2Proof/Syntax.lean ====
section
/-! DEFINITION. The commands of the block: one constructor per row of spec/opcode_table.json, in the table's order. -/
namespace Sys2Proof

/-- The commands the block takes (opcode_table.json). Operands: which register, controller, slot or object the command
names, what it carries, and, where the row is a happening of the device's surroundings, what happened. -/
inductive Instr where
  /-- A write to a register that has no row of its own; a write narrower than 32 bits, wider than 64 bits or misaligned is discarded and completes normally, otherwise the field is set as its access code states. (R9) -/
  | registerWrite (req : Requester) (win : Window) (off size : Nat) (val : BitVec 64)
  /-- A write of the low word of a 64-bit quantity is held as that requester's pending low word and changes nothing in effect. (R8) -/
  | lowWordWrite (req : Requester) (win : Window) (off : Nat) (val : BitVec 32)
  /-- A write of the high word makes the 64-bit quantity take effect at once with the requester's pending low word, which is then used up. (R8) -/
  | highWordWrite (req : Requester) (win : Window) (off : Nat) (val : BitVec 32)
  /-- A read of the low word of a 64-bit quantity returns the low half and latches the high half for that requester. (R8) -/
  | lowWordRead (req : Requester) (win : Window) (off : Nat)
  /-- A read of the high word returns the latched half and uses up the latch if the same requester read the low word since, otherwise the high half in effect. (R8) -/
  | highWordRead (req : Requester) (win : Window) (off : Nat)
  /-- A read of an RC field returns its value and clears it to its reset value, keeping any hardware update made in the same cycle. (R12) -/
  | readClear (req : Requester) (win : Window) (off size : Nat) (hwUpdate : Nat)
  /-- A transaction reaching a unit boundary is checked against the owner tag and route and acted on or refused without effect. (R18) -/
  | groundTransaction (t : GroundTx)
  /-- The VERIFY command makes every loader check on the supplied image without applying it. (R37) -/
  | prkVerify (aperture : Bool) (img : PrkImage)
  /-- The APPLY command checks a partial or full image and, on success, puts the touched units into Intermission to drain. (R41) -/
  | prkApply (aperture : Bool) (img : PrkImage)
  /-- The STORE command checks a full image and writes it to the inactive boot slot. (R44) -/
  | prkStore (aperture : Bool) (img : PrkImage)
  /-- The ABORT command abandons an APPLY or STORE not yet past its point of no return, or sets DONE_BEFORE_ABORT. (R43) -/
  | prkAbort
  /-- The image fetch by DMA from PF0 completes and the loader begins its checks. (R37) -/
  | prkImageFetched (img : PrkImage)
  /-- A write into the 64 KiB aperture is taken word by word into the image buffer at PRK_APT_OFFSET. (R45) -/
  | prkApertureWrite (off : Nat) (words : List (BitVec 32))
  /-- The last touched unit reports drained, and the change takes effect if the apply cue has passed. (R41) -/
  | intermissionDrained (unit : Nat)
  /-- The drain has not ended PRK_DRAIN_LIMIT ms after Intermission began, so the load is abandoned with ERR 0x20. (R42) -/
  | drainLimitExpiry
  /-- The image written to the inactive slot is read back and verified, the active-slot pointer switched and the rollback floor raised. (R44) -/
  | storeSlotWritten (readBackOk : Bool)
  /-- After the firmware is verified, the loader checks and applies the active boot slot image, falling back to the other slot, and enters House Lights. (R38) -/
  | prickingBootLoad (m : MediaFacts)
  /-- A write to CLK_GATE_REQ requests a stop of domains with software stop rights, or cancels a pending stop. (R51) -/
  | clkGateReqWrite (val : BitVec 32)
  /-- A requested domain whose unit meets its stop condition stops at an alignment edge. (R51) -/
  | clockDomainStop (dom : Nat)
  /-- A stopped domain whose request is cleared starts at the second alignment edge after the clear. (R51) -/
  | clockDomainStart (dom : Nat)
  /-- At the end of each 10 ms averaging interval the REFCLK offset is judged and REF_PPM set or a clock alarm raised. (R52) -/
  | refclkMeterInterval (tenthPpm : Int)
  /-- REFCLK absence, root PLL loss of lock or a glitch on CK_SEC or CK_CUE raises a clock alarm, a tamper alarm. (R52) -/
  | clockAlarm (cause : ClockAlarm)
  /-- A write of CUE_STEP_HI in House Lights requests a forward step of the cue counter, and is discarded otherwise. (R55) -/
  | cueStepWrite (req : Requester) (hi : BitVec 32)
  /-- Every 64 ticks the master sends the counter value and adjustment code to every tap. (R57) -/
  | cueBroadcast (drift : List (Nat × Int))
  /-- Every 24 hours, or after a 10 °C change, a tap's skew compensation is re-measured while it keeps counting. (R59) -/
  | tapSkewMeasure (tap : Nat) (comp : Int) (dieTemp : Int)
  /-- A write to CUE_CAL_CTRL starts the re-measurement of one tap or of all taps. (R59) -/
  | cueCalCtrl (val : BitVec 32)
  /-- A write to CUE_CTRL selects the discipline source, and a source not enabled in CLK_PLAN is not taken. (R61) -/
  | cueCtrlWrite (val : BitVec 32)
  /-- A write to CUE_RATE_ADJ is clamped to the maximum slew and acts from the period the next broadcast opens. (R64) -/
  | cueRateAdjWrite (val : BitVec 32)
  /-- A PTP event message crossing an Ethernet MAC is stamped with the tap cue for the firmware servo. (R62) -/
  | ptpEventMessage (port : Nat) (ingress : Bool) (servo : ServoReport)
  /-- A PTM request or response is stamped with the tap cue for the firmware servo. (R62) -/
  | ptmResponse (servo : ServoReport)
  /-- No Sync for 8 announced intervals, or PTM lost, sets HOLDOVER and keeps the last rate. (R65) -/
  | disciplineSourceLost
  /-- A unit posts a cue into its slot share; a full share refuses it with NO_SLOT, and a post under the horizon is late. (R66) -/
  | cuePost (poster : Poster) (c : CueReq)
  /-- A posted cue arrives and is armed at its target tap, firing at once if its fire time has passed. (R67) -/
  | cueArm (slot : Nat)
  /-- A cue fires when its target tap first reads a value at or above its fire time, its action is applied and its slot freed. (R67) -/
  | cueFire (slot : Nat)
  /-- The posting unit cancels a cue; the cancel travels to the target tap. (R70) -/
  | cueCancel (poster : Poster) (slot : Nat)
  /-- The cancel reaches the target tap, which decides CANCELLED or ALREADY_FIRED. (R70) -/
  | cancelArrival (slot : Nat)
  /-- A write to CUE_POST_CMD posts a house cue from the Prompters' share, discarded while the last result is PENDING. (R75) -/
  | cuePostCmd (val : BitVec 32)
  /-- A write to CUE_CANCEL cancels a house-posted cue, or returns status 0x2 for a slot without one. (R75) -/
  | cueCancelWrite (val : BitVec 32)
  /-- At each beat boundary the delay lists release their due entries. (R72) -/
  | beatBoundary
  /-- A TLP received on a PCIe port is handled, or discarded with an AER report if it is malformed, poisoned, unexpected or fails IDE. (R102) -/
  | pcieTlp (port fn : Nat) (tlp : Tlp)
  /-- A doorbell write updates a queue tail or head, or is ignored with an asynchronous event when invalid. (R102) -/
  | doorbellWrite (ctrl : Nat) (cq : Bool) (qid val : Nat)
  /-- A completion for a device memory read delivers host data into staging. (R101) -/
  | pcieCompletion (rid : Nat) (status : CplStatus) (data : Bytes)
  /-- A device memory read has no completion within the completion timeout, so its command fails with Data Transfer Error under EV003. (R101) -/
  | completionTimeout (rid : Nat)
  /-- A DOE data object for SPDM or IDE_KM is taken, or discarded with DOE Error on a bad length or busy mailbox. (R83) -/
  | doeObject (port : Nat) (obj : DoeObject)
  /-- A PCIe link trains to L0 at a supported rate and width. (R78) -/
  | pcieLinkUp (port rate width : Nat) (flit l0p : Bool)
  /-- Link down on a PCIe port resets every controller of that port. (R96) -/
  | pcieLinkDown (port : Nat)
  /-- A function level reset resets the VF's controller, or for a PF clears VF Enable and resets its VFs. (R96) -/
  | flr (port fn : Nat)
  /-- Clearing VF Enable or changing NumVFs resets every VF controller of the PF. (R96) -/
  | vfEnableChange (port : Nat) (enable : Bool) (numVfs : Nat)
  /-- A write of CC.EN = 1 readies the controller, or sets CSTS.CFS for a vacant VF or a bad admin queue size. (R81) -/
  | controllerEnable (ctrl : Nat) (aqa : BitVec 32)
  /-- Clearing CC.EN resets the controller: fetch stops and roll-backs go to every unretired scene. (R129) -/
  | controllerDisable (ctrl : Nat)
  /-- An Ethernet frame is received on a logical port, or dropped on FCS error, runt or oversize. (R85) -/
  | ethFrame (port : Nat) (f : EthFrame)
  /-- A received PAUSE or PFC frame stops transmission on that port or priority. (R86) -/
  | pauseFrame (port : Nat) (prio : Option Nat) (on : Bool)
  /-- A received CNP halves that queue pair's send rate. (R86) -/
  | cnpReceived (qp : Nat)
  /-- Every 55 µs a throttled queue pair's rate recovers by 5% of line rate. (R86) -/
  | rateRecoveryStep (qp : Nat)
  /-- Auto-negotiation and link training bring a logical port up at a supported PHY type. (R84) -/
  | ethLinkUp (port : Nat) (phy : EthPhy)
  /-- A logical port goes down, ending associations whose admin connection runs on it. (R96) -/
  | logicalPortDown (port : Nat)
  /-- An NVMe/TCP ICReq is accepted with its digest and alignment options or answered with C2HTermReq. (R91) -/
  | tcpIcreq (conn : Nat) (ic : IcReq)
  /-- A command capsule arrives on an NVMe/TCP connection and is queued, or held when in-capsule data has no room. (R100) -/
  | tcpCapsule (conn : Nat) (cap : Capsule)
  /-- An H2CData PDU delivers data for an outstanding R2T, or causes termination when out of range or too long. (R102) -/
  | h2cData (conn : Nat) (pdu : H2cPdu)
  /-- Loss of a TCP connection deletes its queue and rolls back its unretired commands, or ends the association for the admin queue. (R96) -/
  | tcpConnectionLoss (conn : Nat)
  /-- A TLS 1.3 handshake message is processed by Prompter firmware, or answered with an alert on violation. (R92) -/
  | tlsHandshake (conn : Nat) (msg : TlsMsg)
  /-- A TLS record is authenticated and decrypted, or closes the connection with bad_record_mac. (R92) -/
  | tlsRecord (conn : Nat) (authentic : Bool)
  /-- After 2^24 records under one key in one direction the device sends KeyUpdate. (R92) -/
  | tlsKeyUpdateDue (conn : Nat)
  /-- A fabric Connect is admitted after authentication or refused with Connect status. (R87) -/
  | connect (c : ConnectReq)
  /-- A Connect held while the previous association's work rolls back is admitted once the roll-back ends. (R98) -/
  | connectAdmitted (conn : Nat)
  /-- One second after a Connect fails with Invalid Host the connection is closed. (R88) -/
  | invalidHostClose (conn : Nat)
  /-- A Disconnect deletes an I/O queue with its commands aborted, or ends the association for the admin queue. (R96) -/
  | disconnect (conn : Nat)
  /-- The keep-alive timeout expires and the association ends with a controller reset. (R97) -/
  | keepAliveExpiry (ctrl : Nat)
  /-- A Send carrying a capsule arrives on an RDMA queue pair, or an RNR NAK follows when no receive buffer exists. (R93) -/
  | rdmaSend (qp : Nat) (cap : Capsule) (noBuffer : Bool)
  /-- The response to a device RDMA Read delivers host data into staging. (R93) -/
  | rdmaReadResponse (rid : Nat) (data : Bytes)
  /-- A Remote Access Error NAK to a device RDMA operation fails the command and errors the queue pair. (R102) -/
  | rdmaNak (rid : Nat)
  /-- A host-initiated RDMA Read or Write is answered with a Remote Access Error NAK and closes the queue pair. (R93) -/
  | rdmaInboundAccess (qp : Nat)
  /-- Loss of a queue pair deletes its queue and rolls back its unretired commands. (R96) -/
  | rdmaQpLoss (qp : Nat)
  /-- With transfer-area space free the HFE issues a memory read, R2T or RDMA Read for a command's data. (R99) -/
  | dataRequestIssue (scene len : Nat)
  /-- An R2T or RDMA Read left unanswered for HFE_DATA_TIMEOUT fails its command with Data Transfer Error. (R101) -/
  | dataTimeout (rid : Nat)
  /-- An NVMe-MI message arrives over SMBus or I3C and is served for the house tenant, or discarded on an integrity failure. (R94) -/
  | miMessage (m : MiMsg)
  /-- A write to HFE_NET_CTRL applies the selected address entry, closing connections when EN is cleared or refusing duplicates with EV030. (R105) -/
  | hfeNetCtrlWrite (val : BitVec 32)
  /-- Create I/O Submission Queue, failing with Invalid Queue Size outside the limits. (R95) -/
  | createIoSq (h : CmdHdr) (qid size cqid prio : Nat)
  /-- Create I/O Completion Queue, failing with Invalid Queue Size outside the limits. (R95) -/
  | createIoCq (h : CmdHdr) (qid size vector : Nat)
  /-- Delete I/O Submission Queue, whose unretired commands complete as aborted by SQ deletion. (R96) -/
  | deleteIoSq (h : CmdHdr) (qid : Nat)
  /-- Delete I/O Completion Queue. (R106) -/
  | deleteIoCq (h : CmdHdr) (qid : Nat)
  /-- Get Log Page returns a supported standard log page. (R110) -/
  | getLogPage (h : CmdHdr) (lid offset len : Nat) (rae : Bool)
  /-- Get Log Page 0xC0 returns the Gloex Error page of a queue, and reading byte 0 sets LOG_READ. (R136) -/
  | getLogGloexError (h : CmdHdr) (lsi offset len : Nat)
  /-- Get Log Page 0xC1 returns the outcome of the controller's last reset. (R130) -/
  | getLogResetOutcome (h : CmdHdr) (offset len : Nat)
  /-- Get Log Page 0xC2 returns the last 256 retired commands of a queue with their commit cues. (R124) -/
  | getLogCommitCue (h : CmdHdr) (lsi offset len : Nat)
  /-- Get Log Page 0xC3 returns the event log, and a read without RAE clears the outstanding asynchronous event. (R461) -/
  | getLogEventLog (h : CmdHdr) (offset len : Nat) (rae : Bool)
  /-- Identify returns the controller and namespace data. (R108) -/
  | identify (h : CmdHdr) (cns : Nat)
  /-- Get Features returns a supported feature, failing Invalid Field for others. (R109) -/
  | getFeatures (h : CmdHdr) (fid : Nat)
  /-- Set Features sets a supported standard feature, refusing SV = 1. (R109) -/
  | setFeatures (h : CmdHdr) (fid : Nat) (sv : Bool) (cdw11 : BitVec 32) (data : Bytes)
  /-- Set Features 0xC0 sets or clears STRICT ordering on a submission queue of the controller. (R118) -/
  | setQueueOrdering (h : CmdHdr) (sv : Bool) (cdw11 : BitVec 32)
  /-- Get Features 0xC0 returns STRICT of the named queue. (R118) -/
  | getQueueOrdering (h : CmdHdr) (cdw11 : BitVec 32)
  /-- Set Features 0xC1 sets the self-test step length from 100 to 2,000 µs. (R137) -/
  | setSelfTestStep (h : CmdHdr) (sv : Bool) (cdw11 : BitVec 32)
  /-- Abort asks the target scene's commit gate to roll back, or holds for 10 ms when the target is not yet fetched. (R128) -/
  | abort (h : CmdHdr) (sqid target : Nat)
  /-- An Abort held 10 ms for an unfetched command completes with not aborted. (R128) -/
  | abortHoldExpiry (ctrl cid : Nat)
  /-- Asynchronous Event Request waits outstanding for a notification. (R460) -/
  | asyncEventRequest (h : CmdHdr)
  /-- Keep Alive restarts the keep-alive timer of a fabric controller. (R97) -/
  | keepAlive (h : CmdHdr)
  /-- Device Self-test starts a short or extended test that runs in yielding steps. (R137) -/
  | deviceSelfTest (h : CmdHdr) (code : Nat)
  /-- Device Self-test code Fh aborts the running test. (R137) -/
  | selfTestAbort (h : CmdHdr)
  /-- A self-test step starts once no host task is ready for the units it needs. (R137) -/
  | selfTestStep (ctrl : Nat) (passed last : Bool)
  /-- Format NVM orders against every earlier command on its namespaces and performs a cryptographic erase under a new epoch. (R115) -/
  | formatNvm (h : CmdHdr) (lbaf ses : Nat)
  /-- Security Send injects or clears Key Per I/O keys, or host secrets and PSKs under protocol 0xEA. (R396) -/
  | securitySend (h : CmdHdr) (m : SecSend)
  /-- Security Receive returns TCG Key Per I/O data. (R106) -/
  | securityReceive (h : CmdHdr) (proto : Nat)
  /-- Load Program takes an image piece, and with the last byte starts verification and translation into the staged image. (R315) -/
  | loadProgram (h : CmdHdr) (pidx ptype offset total : Nat) (piece : Bytes)
  /-- Verification and translation end and Load Program completes, or fails with 0x87 giving the rule and slot. (R315) -/
  | programTranslated (tenant pidx : Nat) (reject : Option (Nat × Nat))
  /-- Program Activation Management Activate makes the staged image active. (R315) -/
  | programActivate (h : CmdHdr) (pidx : Nat)
  /-- Program Activation Management Deactivate empties the active image. (R315) -/
  | programDeactivate (h : CmdHdr) (pidx : Nat)
  /-- Memory Range Set Management creates or deletes memory range sets within the tenant's SLM. (R331) -/
  | memoryRangeSetManagement (h : CmdHdr) (create : Bool) (setId : Nat) (ranges : List (Nat × Nat))
  /-- Namespace Management creates a namespace with owner tag and archive attributes, charging NVM capacity, or deletes one. (R140) -/
  | namespaceManagement (h : CmdHdr) (create : Bool) (a : NsAttrs)
  /-- Namespace Attachment attaches a namespace only to controllers of its owner. (R106) -/
  | namespaceAttachment (h : CmdHdr) (attach : Bool) (ctrls : List Nat)
  /-- Firmware Image Download takes a piece of a firmware image. (R106) -/
  | firmwareImageDownload (h : CmdHdr) (offset : Nat) (img : FwImage)
  /-- Firmware Commit with actions 000b–010b writes the image to a slot and or sets FW_NEXT. (R485) -/
  | firmwareCommit (h : CmdHdr) (action slot : Nat)
  /-- Firmware Commit 011b posts the activation notice, stops fetch everywhere and drains scenes for a live switch. (R131) -/
  | firmwareActivate (h : CmdHdr) (slot : Nat)
  /-- The drain ends, the new image takes over, fetch resumes and Firmware Commit completes. (R131) -/
  | firmwareActivationSwitch
  /-- The drain has not ended 2.0 s after the fetch, so the activation is abandoned and the commit fails. (R131) -/
  | activationTimeout
  /-- Sanitize performs a subsystem-wide cryptographic erase. (R387) -/
  | sanitize (h : CmdHdr) (action : Nat)
  /-- NVMe-MI Send carries a management message over the house controller. (R94) -/
  | nvmeMiSend (h : CmdHdr) (m : MiMsg)
  /-- NVMe-MI Receive returns a management response. (R94) -/
  | nvmeMiReceive (h : CmdHdr)
  /-- Restart Queue resumes a frozen Gloex queue, continuing or discarding its held commands. (R135) -/
  | restartQueue (h : CmdHdr) (sqid : Nat) (discard : Bool)
  /-- An absent, house-only or disallowed opcode fails with Invalid Command Opcode. (R106) -/
  | invalidOpcode (h : CmdHdr) (admin : Bool) (opcode : Nat)
  /-- Read of LBAs, taking one read point per 256 KiB piece. (R116) -/
  | nvmRead (h : CmdHdr) (slba nlb : Nat) (keyTag : Option Nat)
  /-- Write of LBAs, atomic per 256 KiB piece. (R127) -/
  | nvmWrite (h : CmdHdr) (slba nlb : Nat) (fua : Bool) (keyTag : Option Nat)
  /-- Flush covers writes completed before its fetch and retires when their data left Wings and the journal is on flash. (R125) -/
  | flush (h : CmdHdr)
  /-- Compare reads LBAs and fails with Compare Failure on a miscompare. (R114) -/
  | compare (h : CmdHdr) (slba nlb : Nat)
  /-- Write Zeroes writes zeroes over an LBA range. (R114) -/
  | writeZeroes (h : CmdHdr) (slba nlb : Nat)
  /-- Write Uncorrectable maps units as kind 6 so reads fail. (R165) -/
  | writeUncorrectable (h : CmdHdr) (slba nlb : Nat)
  /-- Dataset Management honours Deallocate only. (R107) -/
  | datasetManagement (h : CmdHdr) (deallocate : Bool) (ranges : List (Nat × Nat))
  /-- Verify checks LBAs, and on a fixity namespace compares extent digests. (R152) -/
  | verify (h : CmdHdr) (slba nlb : Nat)
  /-- Copy copies source ranges to a destination within the limits. (R107) -/
  | copy (h : CmdHdr) (dst format : Nat) (ranges : List (Nat × Nat))
  /-- KV Store makes a new object version, reserving media on one tier and committing by one map switch. (R142) -/
  | kvStore (h : CmdHdr) (key : Bytes) (len : Nat) (opts : KvOpts)
  /-- KV Retrieve reads the newest version at one read point. (R116) -/
  | kvRetrieve (h : CmdHdr) (key : Bytes) (bufLen : Nat)
  /-- KV Delete removes the key, committing atomically. (R143) -/
  | kvDelete (h : CmdHdr) (key : Bytes)
  /-- KV Exist reports whether the key exists at one read point. (R116) -/
  | kvExist (h : CmdHdr) (key : Bytes)
  /-- KV List lists keys at one read point. (R114) -/
  | kvList (h : CmdHdr) (key : Bytes) (bufLen : Nat)
  /-- Execute Program binds the active image and runs it over the source named by the invocation block. (R324) -/
  | executeProgram (h : CmdHdr) (pidx setId blockOff hostLen : Nat)
  /-- Memory Read reads the tenant's SLM. (R331) -/
  | memoryRead (h : CmdHdr) (off len : Nat)
  /-- Memory Write writes the tenant's SLM. (R331) -/
  | memoryWrite (h : CmdHdr) (off len : Nat)
  /-- Memory Copy moves data between SLM and the tenant's namespaces. (R331) -/
  | memoryCopy (h : CmdHdr) (c : MemCopy)
  /-- Fence holds later commands in scope until every earlier unretired command in scope has retired. (R120) -/
  | fence (h : CmdHdr) (cdw10 : BitVec 32)
  /-- A scene's commit request reaches its commit gate, which admits it unless the scene has rolled back. (R112) -/
  | commitRequest (scene : Nat)
  /-- A roll-back request reaches a scene's commit gate, which rolls the scene back unless it already committed. (R112) -/
  | rollBackRequest (scene : Nat) (st : Status)
  /-- A read-kind command takes a read point once every earlier overlapping write has committed and no fence holds it. (R116) -/
  | readPoint (scene : Nat)
  /-- TW_ARC_CTRL EXPORT starts writing a BagIt bag of a key range into an NVM namespace. (R158) -/
  | arcExport (tag : Nat)
  /-- TW_ARC_CTRL IMPORT reads a bag and stores its payload files in two passes. (R160) -/
  | arcImport (tag : Nat) (bag : BagScan)
  /-- TW_ARC_CTRL ABORT stops the archive job at the next file boundary. (R161) -/
  | arcAbort (tag : Nat)
  /-- TW_ARC_CTRL PROVENANCE copies the newest version's provenance record into TW_ARC_PROV. (R163) -/
  | arcProvenance (tag : Nat)
  /-- An archive job finishes one file or version and moves to the next, or stops on abort or error. (R161) -/
  | arcFileDone (tag : Nat) (f : ArcFile)
  /-- The daily background pass demotes or promotes versions that meet their policy and have room. (R149) -/
  | tierMovePass (nsid : Nat)
  /-- At each sweep day boundary the Prompters set the day's quota, starting a new cycle when one ends. (R151) -/
  | sweepDayBoundary (nsid : Nat)
  /-- A Call Board entry older than its retention is removed. (R155) -/
  | callBoardExpiry
  /-- A write of CBD_CURSOR_HI selects the Call Board entry shown in the window. (R156) -/
  | cbdCursorWrite (req : Requester) (hi : BitVec 32)
  /-- A write of TW_CB_CURSOR_HI selects the Call Board entry of the tenant's cursor. (R156) -/
  | twCbCursorWrite (req : Requester) (tag : Nat) (hi : BitVec 32)
  /-- A write of TW_TLY_PR_CURSOR_HI selects the private result entry shown. (R356) -/
  | twTlyPrCursorWrite (req : Requester) (tag : Nat) (hi : BitVec 32)
  /-- The journal buffer is written to the META stream once 64 KiB gather or 1 ms after its oldest record. (R182) -/
  | journalWrite
  /-- A journal write is on flash, retiring Flushes that waited for it and releasing protected predecessors. (R125) -/
  | journalProgrammed
  /-- A committed Wings unit is placed onto media in its stream, keeping its predecessor until the journal is on flash. (R183) -/
  | destage (slot : Nat)
  /-- A waiting host Place task is admitted once credits suffice. (R176) -/
  | placeAdmit
  /-- A checkpoint starts 10 minutes after the last or when the journal reaches 4 GiB. (R184) -/
  | checkpointStart
  /-- A write to TRL_CKPT_CTRL starts a checkpoint now. (R184) -/
  | trlCkptCtrl (val : BitVec 32)
  /-- The checkpoint's closing record is on flash and the checkpoint becomes valid. (R184) -/
  | checkpointClosed
  /-- With no host task ready for the channels and space low, background reclamation copies the victim's valid slots. (R175) -/
  | reclaimBackground
  /-- With the free fraction below the threshold, foreground reclamation runs and host placement needs credits. (R176) -/
  | reclaimForeground
  /-- Platter reclamation empties the band with the fewest valid slots on an actuator with few free bands. (R178) -/
  | platterReclaim (act : Nat)
  /-- A stripe block reaching TRL_RETENTION days since close is queued for refresh. (R180) -/
  | retentionExpiry (sb : Nat)
  /-- A flash page read completes and its codewords go to decoding. (R215) -/
  | flashReadDone (rid lun : Nat)
  /-- A program completes, or on FAIL restarts the row's copies and retires the member. (R179) -/
  | flashProgramDone (lun : Nat) (ok : Bool)
  /-- An erase completes and the block joins the free list, or on FAIL is retired. (R191) -/
  | flashEraseDone (lun : Nat) (ok : Bool)
  /-- A LUN still busy after its timeout is reset and escalated to target reset and retirement. (R218) -/
  | lunTimeout (lun : Nat)
  /-- Every FLC_RETRAIN hours or after 10 °C a channel is re-trained, becoming unusable after three failures. (R203) -/
  | channelRetrain (ch : Nat) (ok : Bool) (dieTemp : Int)
  /-- An LDPC decode ends by meeting every check or at its iteration limit, and a failure climbs the retry ladder. (R214) -/
  | decodeDone (rid : Nat) (ok : Bool) (iters : Nat) (check : Option FixCheck)
  /-- FLC_HR_CTRL EVACUATE starts moving a group's data to the other groups, if room allows. (R220) -/
  | flcEvacuate (g : Nat)
  /-- FLC_HR_LEFT reaches 0 and the group is evacuated. (R220) -/
  | evacuationDone
  /-- FLC_HR_CTRL REMOVE stops CK_FIOg and floats the group's outputs. (R220) -/
  | flcRemove (g : Nat)
  /-- FLC_HR_CTRL INSERT starts the clock, brings up and checks the new group. (R221) -/
  | flcInsert (g : Nat) (force : Bool) (dies : DieFacts)
  /-- Every member of the inserted group is erased and the group returns to normal. (R220) -/
  | insertionDone
  /-- FLC_HR_CTRL CANCEL returns an evacuating or evacuated group to normal. (R222) -/
  | flcCancel (g : Nat)
  /-- FLC_HR_CTRL RESUME brings a faulted group up again. (R219) -/
  | flcResume (g : Nat) (answers : Bool)
  /-- The clock lane decodes an angle field, stamping the cue and locking or counting bad fields toward unlock. (R228) -/
  | angleField (act : Nat) (f : AngleField)
  /-- A clock lane not relocked after 100 ms is handled as a preamplifier fault. (R228) -/
  | relockTimeout (act : Nat)
  /-- A servo field is demodulated into a position sample delivered to Hoop 1,200 ticks later. (R232) -/
  | servoField (act : Nat) (f : ServoField)
  /-- The sync-mark search window closes with a mark accepted or the sector missed for a later revolution. (R240) -/
  | sectorSync (act lane : Nat) (w : SyncWindow)
  /-- A detected platter codeword completes in the lane buffer and goes to its reserved decoder or the general pool. (R242) -/
  | codewordComplete (act lane : Nat)
  /-- A reserved decoder is released when its codeword has not arrived 2,048 ticks after the reservation cue. (R242) -/
  | reservationRelease (dec : Nat)
  /-- A shock input above its threshold drops the write gates of every actuator and marks sectors suspect. (R246) -/
  | shockCrossing (input : Nat) (mv : Nat)
  /-- PAn_FLT_N low for 200 ns drops the write gates, parks the actuator and resets the preamplifier. (R253) -/
  | preampFault (act ns : Nat)
  /-- A preamplifier serial frame completes and a readable frame is read back, re-sent on mismatch. (R251) -/
  | preampFrameDone (act : Nat) (data : BitVec 16) (mismatch : Bool)
  /-- RCH_An_CTRL calibrate L0 starts a full calibration of lane 0. (R252) -/
  | rchCalibrateL0 (act : Nat)
  /-- RCH_An_CTRL calibrate L1 starts a full calibration of lane 1. (R252) -/
  | rchCalibrateL1 (act : Nat)
  /-- RCH_An_CTRL park starts an emergency park of the actuator. (R279) -/
  | rchPark (act : Nat)
  /-- RCH_An_CTRL RESUME brings a parked or offline actuator back by LOAD. (R254) -/
  | rchResume (act : Nat)
  /-- RCH_An_CTRL OFFLINE takes the actuator offline. (R254) -/
  | rchOffline (act : Nat)
  /-- Every RCH_CAL_HOURS hours or after 10 °C a data lane starts a full calibration. (R252) -/
  | laneCalibrationDue (act lane : Nat) (dieTemp : Int)
  /-- A lane calibration ends and its new coefficients take effect at a sector boundary, or the old set is kept. (R252) -/
  | laneCalibrationDone (act lane : Nat) (ok : Bool)
  /-- A read waiting on a parked or offline actuator for RCH_OFFLINE_WAIT fails with Unrecovered Read Error. (R254) -/
  | offlineWaitExpiry (rid : Nat)
  /-- A write to RCH_An_PA_CMD sends a diagnostic preamplifier frame, refused unless the actuator is parked or offline. (R256) -/
  | rchPaCmd (act : Nat) (val : BitVec 32)
  /-- At a slot's sample boundary the ramp advances and the compensator computes the limited output. (R260) -/
  | sampleBoundary (slot : Nat) (m : Option Int)
  /-- Setting EN in HOP_Sn_CTRL enables the slot with a soft start from the measured value. (R269) -/
  | hopSlotEnable (slot : Nat)
  /-- Clearing EN disables the slot, parking the actuator for a VCM or microactuator slot. (R279) -/
  | hopSlotDisable (slot : Nat)
  /-- Writing BANK requests or cancels a swap, optionally at HOP_Sn_SWAP_CUE. (R264) -/
  | hopBankRequest (slot : Nat) (bank atCue : Bool)
  /-- A coefficient write is taken into the inactive bank, discarded for the active bank. (R265) -/
  | hopCoeffWrite (slot : Nat) (bank : Bool) (idx : Nat) (val : BitVec 32) (becoming : Bool)
  /-- A write of HOP_Sn_SETPOINT_HI makes the set-point take effect at the next boundary, logging large steps. (R266) -/
  | hopSetpointWrite (req : Requester) (slot : Nat) (hi : BitVec 32)
  /-- HOP_An_PROF_CTRL START makes the VCM slot stream profile entries from HOP_An_PROF_CUE. (R270) -/
  | hopProfileStart (act first : Nat)
  /-- HOP_An_PROF_CTRL STOP ends the stream at the next boundary. (R270) -/
  | hopProfileStop (act : Nat)
  /-- A motor-link frame ends, the driver acts on it and the reply to the previous frame is checked. (R276) -/
  | motorLinkFrame (reply : BitVec 32)
  /-- When no frame is due within 10 µs of the last, Hoop sends a NOP. (R278) -/
  | nopIdleTimer
  /-- PARKED not set within HOP_PARK_TIMEOUT resends PARK once and takes the actuator offline. (R280) -/
  | parkTimeout (act : Nat)
  /-- After LOAD, with PARKED clear, the clock locked and four valid samples, the slots are enabled with soft starts. (R281) -/
  | actuatorLoaded (act : Nat) (m : Int)
  /-- MLK_FLT_N low for 200 ns parks all actuators and reads the driver fault register. (R282) -/
  | driverFault (ns : Nat)
  /-- A heater output is sent as a preamplifier frame once a gate-free span of 3 µs arrives. (R272) -/
  | heaterFrameSend (act head : Nat)
  /-- A write to MLK_CMD sends a diagnostic REG_WRITE or REG_READ frame, refusing writes unless parked. (R285) -/
  | mlkCmd (val : BitVec 32)
  /-- A write to MLK_RESYNC restarts a silent motor link. (R282) -/
  | mlkResync (val : BitVec 32)
  /-- A write to SMG_RINGr_TAIL submits the batches before it, or is discarded when too far ahead. (R307) -/
  | ringTailWrite (ring val : Nat)
  /-- A write to a ring's control or base is refused while the ring is enabled and not empty. (R307) -/
  | smgRingCtrlWrite (req : Requester) (ring reg : Nat) (val : BitVec 32)
  /-- A submitted batch is created whole once the pool has room, or refused whole when malformed. (R289) -/
  | batchCreate (ring : Nat)
  /-- A unit completes a task, decrementing its successors and marking them failed on non-zero status. (R290) -/
  | taskComplete (handle : Nat) (status : Nat)
  /-- A unit with a free place takes the oldest ready task from the highest-priority list. (R293) -/
  | taskDispatch (unit place : Nat)
  /-- A task that cannot finish within a sealed window is saved at its last block boundary that leaves room for the save. (R301) -/
  | sealedWindowSave (handle : Nat)
  /-- BOB_RETIRE_CTRL RETIRE retires a logical Bobbin to an Understudy. (R311) -/
  | bobRetire (val : BitVec 32)
  /-- A Bobbin holding a task with no heartbeat for BOB_WATCHDOG_US is retired. (R310) -/
  | bobbinWatchdog (bob : Nat)
  /-- Every BOB_SELFTEST_HOURS a core runs its known-answer test and is retired on failure. (R310) -/
  | bobbinSelftest (core : Nat) (ok : Bool)
  /-- A running task of a Bobbin retired by command is stopped 100 ms after the command. (R311) -/
  | retireGraceExpiry
  /-- An Understudy loaded with firmware takes the logical number and the old core is fenced off. (R311) -/
  | understudyLoaded
  /-- A program invocation returns and its output or state is kept or the command fails. (R322) -/
  | invocationComplete (inv : Nat) (r : InvResult)
  /-- An invocation reaching its cycle budget stops and the command fails with 0x88. (R333) -/
  | budgetExhausted (inv : Nat) (stores : List (Nat × Bytes))
  /-- Helper 1 searches an ASU table and returns the first match and count. (R364) -/
  | pqAsuSearch (inv table : Nat) (key mask : BitVec 128) (upsets : List AsuUpset)
  /-- Helper 2 inserts an entry at a position, keeping order. (R372) -/
  | pqAsuInsert (inv table : Nat) (entry : Bytes) (pos : Nat)
  /-- Helper 3 deletes an entry by index. (R373) -/
  | pqAsuDelete (inv table index : Nat)
  /-- Helper 4 stream-scans a buffer against a table's patterns and writes hit records. (R377) -/
  | pqAsuScan (inv table : Nat) (src : Bytes) (cap : Nat) (upsets : List AsuUpset)
  /-- Helper 5 computes a one-shot Tally digest. (R327) -/
  | pqDigest (inv alg : Nat) (src : Bytes)
  /-- Helper 6 continues a digest held in a context. (R327) -/
  | pqDigestPart (inv alg ctx : Nat) (src : Bytes) (first last : Bool)
  /-- Helper 7 compresses a buffer with Smock. (R327) -/
  | pqCompress (inv fmt level : Nat) (src : Bytes) (cap : Nat)
  /-- Helper 8 decompresses a buffer with its trailing check verified. (R327) -/
  | pqDecompress (inv fmt : Nat) (src : Bytes) (cap : Nat)
  /-- Helper 9 computes a CRC-64 continued from a previous value. (R327) -/
  | pqCrc64 (inv : Nat) (src : Bytes) (prev : BitVec 64)
  /-- Helper 10 copies between regions. (R327) -/
  | pqMemCopy (inv : Nat) (dst : Option Nat) (src : Bytes)
  /-- Helper 11 compares two regions. (R327) -/
  | pqMemCmp (inv : Nat) (a b : Bytes)
  /-- Helper 12 orders the invocation's memory accesses. (R329) -/
  | pqFence (inv kind : Nat)
  /-- Helper 13 raises a user event, at most 64 per invocation. (R328) -/
  | pqRaiseEvent (inv index : Nat) (arg0 arg1 : BitVec 64)
  /-- Helper 14 returns the cue, rounded for a sealed tenant. (R327) -/
  | pqCueNow (inv : Nat)
  /-- A helper waiting longer than 100 ms for an engine returns −4. (R327) -/
  | helperTimeout (inv : Nat)
  /-- A waiting insert or delete starts on its table against the count at that moment. (R371) -/
  | asuUpdateStart (table : Nat)
  /-- The background walk compares an entry with its shadow and repairs mismatches. (R370) -/
  | asuWalk (upset : Option AsuUpset)
  /-- A Smock compress job writes one frame or stream, failing with 0x81 on overflow. (R338) -/
  | smockCompress (task : Nat)
  /-- A Smock decompress job decodes one frame or member and verifies its check values. (R343) -/
  | smockDecompress (task : Nat) (check : Option FixCheck)
  /-- A Tally job digests one part of a message, finishing, comparing and posting on LAST. (R352) -/
  | tallyJob (task : Nat) (flip0 flip1 : Bool) (check : Option FixCheck)
  /-- TW_TLY_Jj_CTRL START opens a stream or digests an SLM range in a slot. (R354) -/
  | twTlyStart (tag slot : Nat) (val : BitVec 32)
  /-- TW_TLY_Jj_CTRL ABORT ends the slot's message with status 0x05. (R355) -/
  | twTlyAbort (tag slot : Nat)
  /-- A write of TW_TLY_Jj_DATA_HI appends a word to the stream, failing on FIFO overrun. (R354) -/
  | twTlyDataHi (req : Requester) (tag slot : Nat) (hi : BitVec 32)
  /-- A write of TW_TLY_Jj_LAST_VB appends the last word and finishes the message. (R354) -/
  | twTlyLastVb (tag slot vb : Nat)
  /-- A stream with no write for TLY_IDLE_MS fails with status 0x03. (R355) -/
  | tallyStreamIdle (tag slot : Nat)
  /-- A Scrim XTS encrypt job. (R384) -/
  | xtsEncrypt (task : Nat)
  /-- A Scrim XTS decrypt job. (R384) -/
  | xtsDecrypt (task : Nat)
  /-- A Scrim GCM encrypt job, writing the seal with the next invocation counter. (R385) -/
  | gcmEncrypt (task : Nat)
  /-- A Scrim GCM decrypt job, checking the tag before releasing output. (R385) -/
  | gcmDecrypt (task : Nat)
  /-- A Scrim CMAC generate job. (R383) -/
  | cmacGenerate (task : Nat)
  /-- A Scrim CMAC verify job. (R383) -/
  | cmacVerify (task : Nat)
  /-- A derivation request computes a key by the SP 800-108 KDF into a slot, or is refused. (R386) -/
  | keyDerivation (r : DeriveReq)
  /-- A reserved block of invocation counter values is journalled on flash and waiting encryptions proceed. (R394) -/
  | counterBlockOnFlash (slot : Nat)
  /-- SCR_SLOT_CMD ERASE erases a slot, aborting every message latched to it. (R392) -/
  | scrSlotErase
  /-- TW_KEY_CMD DERIVE_MAC writes a tenant MAC key into the selected slot. (R404) -/
  | twKeyDeriveMac (tag index : Nat)
  /-- TW_KEY_CMD DERIVE_CMAC writes a tenant CMAC key into the selected slot. (R404) -/
  | twKeyDeriveCmac (tag index : Nat)
  /-- TW_KEY_CMD ERASE erases the selected slot, refused for kinds 6 and 7. (R404) -/
  | twKeyErase (tag : Nat)
  /-- A failed entropy health test halts the DRBG and counts EV295. (R399) -/
  | entropyHealthFail
  /-- A random-bit request waiting 100 ms for the source restart fails. (R399) -/
  | entropyRestartTimeout
  /-- A tamper alarm erases keys, parks actuators, rolls back scenes, dumps to the harbour and enters Curtain Down. (R415) -/
  | tamperAlarm (kind sensor : Nat)
  /-- Every 1 µs each tamper-mesh loop is checked, and two consecutive mismatches raise an alarm. (R414) -/
  | meshCheck (loop : Nat) (sent received : BitVec 32)
  /-- An SPDM request is answered with version, capabilities, measurements, certificates or a session, or with ERROR. (R418) -/
  | spdmRequest (r : SpdmReq)
  /-- Trapdoor IDCODE selects the identification register. (R421) -/
  | tdIdcode
  /-- Trapdoor BYPASS selects the one-bit bypass register. (R421) -/
  | tdBypass (code : Nat)
  /-- Trapdoor TD_NONCE captures a new nonce from the DRBG. (R422) -/
  | tdNonce
  /-- Trapdoor TD_RESPONSE checks the challenge and on success erases keys and starts the opening record. (R422) -/
  | tdResponse (r : TdResponse)
  /-- Trapdoor TD_STATUS returns the Trapdoor state. (R421) -/
  | tdStatus
  /-- Trapdoor EXTEST boundary scan, open only. (R421) -/
  | tdExtest
  /-- Trapdoor SAMPLE/PRELOAD boundary scan, open only. (R421) -/
  | tdSamplePreload
  /-- Trapdoor DEBUG device debug access, open only. (R421) -/
  | tdDebug
  /-- A Trapdoor nonce older than 60 s is no longer valid. (R422) -/
  | nonceExpiry
  /-- The EV363 record reaches flash, the device enters Curtain Down and the Trapdoor opens. (R422) -/
  | trapdoorRecordWritten
  /-- The opening record not written within 1 s leaves the Trapdoor closed with ERR 0x04. (R423) -/
  | trapdoorRecordTimeout
  /-- The active Safety Curtain core misses its watchdog for 500 µs and the standby takes over, or Curtain Down follows. (R424) -/
  | safetyCurtainFailover
  /-- A Safety Curtain switchover completes and waiting derivations proceed. (R424) -/
  | switchoverDone (selfTestOk : Bool)
  /-- A DRAM read request decodes its words, correcting or poisoning them. (R434) -/
  | dramRead (unit addr : Nat) (flips : List (Nat × BitVec 80)) (use : DramUse)
  /-- A DRAM write request of a whole line. (R438) -/
  | dramWrite (unit addr : Nat) (line : Bytes)
  /-- A narrow write merges into its line, refused when a partly covered word is uncorrectable. (R435) -/
  | mergeWrite (unit addr : Nat) (bytes : Bytes) (flips : List (Nat × BitVec 80)) (use : DramUse)
  /-- A same-bank refresh or RFM falls due and is issued. (R441) -/
  | refreshDue (ch rank bank : Nat) (rfm : Bool)
  /-- Every 32 ms each rank's refresh-rate indication and temperature are read, requesting a thermal change above HI. (R441) -/
  | rankRateRead (ch rank : Nat) (celsius : Nat) (rate : Nat)
  /-- Every rank below LO for 1 s requests the change back to set A. (R442) -/
  | thermalReturnTimer
  /-- DMC_FREQ_CTRL 0b01 requests a change to timing set A. (R442) -/
  | dmcFreqToA
  /-- DMC_FREQ_CTRL 0b10 requests a change to timing set B. (R442) -/
  | dmcFreqToB
  /-- All four channels have issued SRE and the second PLL re-locks at the new rate. (R443) -/
  | selfRefreshCommitted
  /-- The second PLL locks and the channels exit self-refresh under the new set. (R443) -/
  | pllRelocked
  /-- tXS after exit passes and DRAM requests resume. (R443) -/
  | txsElapsed
  /-- Once every queue is empty an abandoned frequency change is tried again. (R444) -/
  | freqChangeRetry
  /-- A channel with no request for DMC_SR_IDLE µs enters self-refresh. (R445) -/
  | idleSelfRefresh (ch : Nat)
  /-- Loss of second-PLL lock outside a change stops the channels for restart and re-initialisation. (R446) -/
  | dramPllUnlock (recovered : Bool)
  /-- The scrubber reads one line, correcting or poisoning words and ending passes. (R447) -/
  | scrubLine (flips : List (Nat × BitVec 80)) (sramEnd : Option Bool)
  /-- An SRAM word read is corrected in place or found uncorrectable. (R448) -/
  | sramRead (mem unit addr : Nat) (flip : BitVec 80) (use : DramUse)
  /-- DMC_RETIRE_CTRL RETIRE starts retiring a DRAM channel, or is refused. (R449) -/
  | dmcRetire (ch : Nat)
  /-- A 1 MiB block of a retiring channel is copied and remapped, and the channel stops after the last. (R450) -/
  | blockCopyDone
  /-- A unit raises an event, which is counted, routed, recorded or merged by the Sampler and notified. (R457) -/
  | eventRaise (e : Event)
  /-- One second after the oldest open record of a page, its open records are written to flash. (R466) -/
  | samplerPageTimer
  /-- A Sampler page write to a copy completes and its records close. (R468) -/
  | samplerPageProgrammed (copy page : Nat)
  /-- A write of SMP_CURSOR_HI selects the record or Footside entry shown. (R470) -/
  | smpCursorWrite (req : Requester) (hi : BitVec 32)
  /-- A write of TW_SMP_CURSOR_HI selects the tenant log record shown. (R471) -/
  | twSmpCursorWrite (req : Requester) (tag : Nat) (hi : BitVec 32)
  /-- A write of TW_EVT_CTRL sets notification control, binding MSI-X to the function written. (R460) -/
  | twEvtCtrlWrite (fn tag : Nat) (val : BitVec 32)
  /-- PERST_N rises with the power-up conditions met and the boot ROM starts. (R480) -/
  | resetRelease (c : PowerConditions)
  /-- The last power-up condition is met after PERST_N rose and the device leaves Dark. (R480) -/
  | supplyConditionsMet
  /-- A firmware slot is read and verified, booting it or trying the next, or entering recovery. (R485) -/
  | firmwareSlotRead (readOk verified : Bool)
  /-- DEV_CTRL GO lets House Lights held by HOLD proceed to Rehearsal. (R501) -/
  | devGo
  /-- DEV_CTRL SET_HOLD sets the boot-record HOLD flag. (R501) -/
  | devSetHold
  /-- DEV_CTRL CLEAR_HOLD clears the boot-record HOLD flag. (R501) -/
  | devClearHold
  /-- With the Pricking sealed, the cue stepped, HOLD clear and temperature allowed, the device enters Rehearsal. (R476) -/
  | rehearsalStart
  /-- A Rehearsal step starts once the steps it needs are done. (R487) -/
  | rehearsalStepStart (bit : Nat)
  /-- A Rehearsal step completes or fails, entering Performance or Final Curtain after the last, or House Lights on a fatal failure. (R487) -/
  | rehearsalStepDone (bit : Nat) (f : StepFacts)
  /-- An actuator not normal 40 s after Rehearsal began goes offline. (R488) -/
  | actuatorLoadDeadline (act : Nat)
  /-- PWR_LOSS_N low for 2 µs starts the harbour sequence, or a plain halt before map restore. (R186) -/
  | powerLoss (ns : Nat)
  /-- PERST_N low for 2 µs runs the harbour sequence and enters Dark at its seal. (R489) -/
  | perstAssert (ns : Nat)
  /-- The harbour seal record is written and the device halts with PWR_SEALED high. (R186) -/
  | harbourSeal
  /-- The composite temperature is compared with the warning, throttle and shutdown thresholds. (R494) -/
  | temperatureSample (temps : List Int)
  /-- Every 100 ms while throttling the issue rate is lowered or raised by 10%. (R495) -/
  | throttleStep
  /-- Every 168 operating hours the aging monitors are measured and PWR_VCORE_REQ raised when margin is low. (R498) -/
  | agingMeasure (margin : Nat)
  /-- Every 1 ms PWR_POWER is updated with the estimated draw. (R493) -/
  | powerEstimateUpdate (mw : Nat)
  /-- A rail outside its tolerance for 1 ms records EV396. (R507) -/
  | railOutOfTolerance (rail mv : Nat)
  /-- The board removes the supply rails and the device goes to Dark from any state, with recovery under R189 at the next start-up if the harbour had not sealed. (R476) -/
  | suppliesRemoved (held : Nat)
  /-- A platter write run ends when the write gate drops after the gap of its last sector, and the slots written without suspicion are placed and their map switches made. (R245) -/
  | writeRunEnd (act : Nat)
  /-- An NVMe/TCP PDU of a type not allowed from a host is answered with C2HTermReq FES 0x02 PDU Sequence Error and the connection is closed (EV018). (R102) -/
  | pduTypeNotAllowed (conn : Nat)
  deriving DecidableEq, Repr

end Sys2Proof
end

