-- ==== Sys2Proof/Machine/Bits.lean ====
section
/-! DEFINITION. Bit fields, byte order and check values: the fields of R6, the byte order of R7, the CRCs the chapters name. -/
namespace Sys2Proof.Machine

/-- Bits [hi:lo] of a number (R6). -/
def bits (v hi lo : Nat) : Nat := (v >>> lo) % 2 ^ (hi + 1 - lo)

/-- Bit `i` of a number. -/
def bit (v i : Nat) : Bool := v.testBit i

/-- A field value placed at bit `lo`, cut to `w` bits. -/
def field (v w lo : Nat) : Nat := (v % 2 ^ w) <<< lo

/-- A flag placed at bit `lo`. -/
def flag (b : Bool) (lo : Nat) : Nat := if b then 1 <<< lo else 0

/-- A number that is 1 for true. -/
def b2n (b : Bool) : Nat := if b then 1 else 0

/-- A signed number in `w` bits, two's complement. -/
def ofInt (w : Nat) (i : Int) : Nat := (BitVec.ofInt w i).toNat

/-- The signed number that `w` bits spell. -/
def toSigned (w v : Nat) : Int := (BitVec.ofNat w v).toInt

/-- The number that a little-endian byte string spells (R7). -/
def leNat : Bytes → Nat
  | [] => 0
  | b :: t => b.toNat + 256 * leNat t

/-- The number that a big-endian byte string spells. -/
def beNat (l : Bytes) : Nat := l.foldl (fun n b => n * 256 + b.toNat) 0

/-- `n` little-endian bytes of a number. -/
def leBytes : Nat → Nat → Bytes
  | 0, _ => []
  | n + 1, v => BitVec.ofNat 8 v :: leBytes n (v / 256)

/-- `n` bytes of `l` from offset `o`. -/
def slice (l : Bytes) (o n : Nat) : Bytes := (l.drop o).take n

/-- A little-endian field of a byte string. -/
def leAt (l : Bytes) (o n : Nat) : Nat := leNat (slice l o n)

/-- `l` cut or zero-padded to `n` bytes. -/
def padTo (l : Bytes) (n : Nat) : Bytes := (l ++ List.replicate (n - l.length) 0).take n

/-- All bytes zero. -/
def allZero (l : Bytes) : Bool := l.all (fun b => b == 0)

/-- The little-endian 32-bit words of a byte string, `n` of them. -/
def leWords : Nat → Bytes → List W32
  | 0, _ => []
  | n + 1, l => BitVec.ofNat 32 (leNat (l.take 4)) :: leWords n (l.drop 4)

/-- One bit of a reflected CRC. -/
def crcBitR (poly c : Nat) : Nat := if c.testBit 0 then (c >>> 1) ^^^ poly else c >>> 1

/-- One byte of a reflected CRC. -/
def crcByteR (poly c : Nat) (b : Byte) : Nat :=
  (List.range 8).foldl (fun c _ => crcBitR poly c) (c ^^^ b.toNat)

/-- A reflected CRC of `w` bits with all ones in and out. -/
def crcR (poly w : Nat) (l : Bytes) : Nat :=
  (l.foldl (crcByteR poly) (2 ^ w - 1)) ^^^ (2 ^ w - 1)

/-- CRC-32 of IEEE 802.3 (R28, R483). -/
def crc32 (l : Bytes) : Nat := crcR 0xEDB88320 32 l

/-- CRC-32C (Castagnoli). -/
def crc32c (l : Bytes) : Nat := crcR 0x82F63B78 32 l

/-- CRC-64 of NVMe (the NVMe 64-bit Guard polynomial, R21). [DESIGN CHOICE: log entry 132] -/
def crc64 (l : Bytes) : Nat := crcR 0x9A6C9329AC4BC9B5 64 l

/-- CRC-64 of NVMe continued from a previous value. -/
def crc64From (prev : Nat) (l : Bytes) : Nat :=
  (l.foldl (crcByteR 0x9A6C9329AC4BC9B5) (prev ^^^ (2 ^ 64 - 1))) ^^^ (2 ^ 64 - 1)

/-- A most-significant-bit-first CRC of `w` bits with polynomial `poly` over the bits of a list, from `init`. -/
def crcMsb (poly w init : Nat) (bs : List Bool) : Nat :=
  bs.foldl (fun c b =>
    let top := c.testBit (w - 1) != b
    let c' := (c <<< 1) % 2 ^ w
    if top then c' ^^^ poly else c') init

/-- The bits of a number, most significant first, `n` of them. -/
def bitsMsb (n v : Nat) : List Bool := (List.range n).map (fun i => v.testBit (n - 1 - i))

/-- A number clamped to a range. -/
def clampNat (lo hi v : Nat) : Nat := if v < lo then lo else if hi < v then hi else v

/-- A number clamped to a range of integers. -/
def clampInt (lo hi v : Int) : Int := if v < lo then lo else if hi < v then hi else v

/-- Bytes of a digest number, most significant first, cut to a length. -/
def digestBytes (d : Nat) : Bytes := (leBytes 64 d).reverse

/-- The result bytes of an ALG (R140, R346); zero for a code that is none. -/
def digestLen (alg : Nat) : Nat :=
  [32, 64, 32, 64, 28, 48, 32, 28, 48, 32, 64, 0, 0, 0, 0, 0, 32, 48, 64, 32, 32, 64].getD alg 0

/-- Division rounding up. -/
def ceilDiv (a b : Nat) : Nat := (a + b - 1) / b

/-- The next multiple of `m` above `v`. -/
def nextMultiple (v m : Nat) : Nat := (v / m + 1) * m

end Sys2Proof.Machine
end

