-- ==== Sys2Proof/Config.lean ====
section
/-! DEFINITION. The constants the spec leaves to the device, and the free values: no bodies, so nothing rests on them. -/
namespace Sys2Proof

/-- The free value number `n`: what stands wherever the spec leaves a value open. -/
opaque Config.freeValue : Nat → BitVec 64

/-- CUE_TAP_INFO [31:24], the unit of a tap: the spec gives no assignment of the 80 taps to units (R57, R74). -/
opaque Config.tapUnit : Nat → BitVec 8

/-- Bytes of a journal record that carries so many changes: the record's layout is internal to the device (R182). -/
opaque Config.journalRecord : Nat → BitVec 32

/-- Which of EV256-EV319 records a late sweep cycle: the spec names no source (R151). -/
opaque Config.lateSweepSource : BitVec 6

/-- A digest of a published standard over a byte string, by ALG (R346): the standards' arithmetic is not the spec's. -/
opaque Config.digest : Nat → Bytes → BitVec 512

/-- A keyed digest of a published standard, by ALG 16-21 (R346). -/
opaque Config.mac : Nat → BitVec 512 → Bytes → BitVec 512

/-- The blocks that the compressor writes for an input, by format (1 Zstandard, 2 DEFLATE), level and window log: the spec fixes
their frame (R338, R339), not their choice of matches. -/
opaque Config.packed : Nat → Nat → Nat → Bytes → Bytes

/-- What the blocks at the start of a byte string decode to under RFC 8878 (1) or RFC 1951 (2), and how many bytes they take where they
are well formed. -/
opaque Config.unpacked : Nat → Bytes → Bytes × Option Nat

/-- One AES-256 block forward and inverse (FIPS 197), as big-endian numbers: the modes over it are the spec's (R383). -/
opaque Config.aes : BitVec 256 → BitVec 128 → BitVec 128
opaque Config.aesInverse : BitVec 256 → BitVec 128 → BitVec 128

/-- The root key that the PUF gives this device (R386). -/
opaque Config.rootKey : BitVec 256

/-- The TCG Key Per I/O data of a protocol (R106, R396): its layout is the TCG's. -/
opaque Config.tcgData : Nat → Bytes

/-- The driver's fault register, named by the driver profile of the signed firmware image (R271, R282). -/
opaque Config.driverFaultReg : BitVec 5

/-- The driver register that holds the tachometer of a fan 0-3 (R258): the driver profile names it, and is not in the spec. -/
opaque Config.tachReg : Nat → BitVec 5

/-- Yelerari's manufacturer field of the Trapdoor's IDCODE: the spec gives no number (R421). -/
opaque Config.manufacturer : BitVec 11

/-- The SHA-384 measurement of an image: block 1 the boot ROM, 2 and 3 the firmware of a security version, 4 and 5 a Safety Curtain
image (R419). -/
opaque Config.measurement : Nat → Nat → BitVec 384

/-- Measured frequency in kHz of a domain that no rule ties to the root PLL: 16-18 the PHYs', 23 CK_AON, 24 CK_TCK (R48, R74). -/
opaque Config.asyncKhz : Nat → BitVec 32

/-- What the published signature standards say of a Pricking image's bytes, where a register write starts a check of the image in the
aperture (R34, R35): whether the two sets verify, the digests of the owner keys, whether the second set's keys are in the boot ROM. -/
opaque Config.ownerSigns : Bytes → Bool
opaque Config.vendorSigns : Bytes → Bool
opaque Config.ownerKeys : Bytes → Nat × Nat
opaque Config.vendorInRom : Bytes → Bool

/-- What bring-up finds in a group inserted through FLC_HR_CTRL, by number of free value (R220, R221). -/
opaque Config.dieFacts : Nat → DieFacts

end Sys2Proof
end

