-- ==== Sys2Proof/Machine/Tab.lean ====
section
/-! DEFINITION. Finite maps as association lists in ONE canonical form: keys strictly rising.
Every numbered set of things in the state (slots, queues, tenants, blocks) is such a map. -/
namespace Sys2Proof.Machine

/-- A finite map from numbers, as pairs whose keys rise strictly. -/
abbrev Tab (α : Type) := List (Nat × α)

/-- What key `k` holds. -/
def Tab.find {α : Type} : Tab α → Nat → Option α
  | [], _ => none
  | (j, a) :: t, k => if j = k then some a else Tab.find t k

/-- What key `k` holds, or `d`. -/
def Tab.at {α : Type} (t : Tab α) (k : Nat) (d : α) : α := (Tab.find t k).getD d

/-- `t` with key `k` holding `a`, keys still rising. -/
def Tab.put {α : Type} : Tab α → Nat → α → Tab α
  | [], k, a => [(k, a)]
  | (j, b) :: t, k, a =>
    if k < j then (k, a) :: (j, b) :: t
    else if j = k then (k, a) :: t
    else (j, b) :: Tab.put t k a

/-- `t` without key `k`. -/
def Tab.del {α : Type} (t : Tab α) (k : Nat) : Tab α := t.filter (fun p => p.1 != k)

/-- `t` with `f` applied to what key `k` holds, unchanged where it holds nothing. -/
def Tab.modify {α : Type} (t : Tab α) (k : Nat) (f : α → α) : Tab α :=
  match Tab.find t k with
  | some a => Tab.put t k (f a)
  | none => t

/-- `t` with `f` applied to what key `k` holds, `d` where it holds nothing. -/
def Tab.update {α : Type} (t : Tab α) (k : Nat) (d : α) (f : α → α) : Tab α :=
  Tab.put t k (f (Tab.at t k d))

/-- `f` applied to every entry. -/
def Tab.mapVals {α β : Type} (t : Tab α) (f : Nat → α → β) : Tab β := t.map (fun p => (p.1, f p.1 p.2))

/-- The entries that `p` accepts. -/
def Tab.keep {α : Type} (t : Tab α) (p : Nat → α → Bool) : Tab α := t.filter (fun e => p e.1 e.2)

/-- How many entries `p` accepts. -/
def Tab.count {α : Type} (t : Tab α) (p : Nat → α → Bool) : Nat := (Tab.keep t p).length

/-- Is key `k` present? -/
def Tab.has {α : Type} (t : Tab α) (k : Nat) : Bool := (Tab.find t k).isSome

/-- The lowest key below `n` that holds nothing, looked for from `k` for `fuel` keys. -/
def Tab.freeKey {α : Type} (t : Tab α) : Nat → Nat → Option Nat
  | 0, _ => none
  | fuel + 1, k => if Tab.has t k then Tab.freeKey t fuel (k + 1) else some k

/-- The canonical form: keys strictly rising. -/
def Tab.wf {α : Type} : Tab α → Bool
  | [] => true
  | [_] => true
  | (j, _) :: (k, b) :: t => decide (j < k) && Tab.wf ((k, b) :: t)

/-- Members of a set held as a list of numbers, with no repeats. -/
def setAdd (l : List Nat) (k : Nat) : List Nat := if l.contains k then l else l ++ [k]

/-- `l` without `k`. -/
def setDel (l : List Nat) (k : Nat) : List Nat := l.filter (fun x => x != k)

end Sys2Proof.Machine
end

