-- ==== Sys2Proof/Machine/State/Bus.lean ====
section
/-! DEFINITION. The register windows' state (00_scope.md, R8-R14): stored register values, counters, each requester's latches. -/
namespace Sys2Proof.Machine

/-- The pending low word and the latched high half of one requester for one 64-bit quantity (R8). -/
structure Half where
  requester : Nat
  key : Nat
  value : W32
  deriving DecidableEq, Repr

/-- The register windows. Registers are keyed by house-window offset, or 2^32 + tag * 2^16 + offset. -/
structure BusState where
  /-- RW registers as last written; one that is not listed holds its reset value. -/
  regs : Tab W32 := []
  /-- RC counters since their last read; one that is not listed holds its reset value. -/
  rc : Tab Nat := []
  /-- Pending low words and latched high halves (R8). -/
  pendingLow : List Half := []
  latchedHigh : List Half := []
  /-- What the last register read returned, and its width in bytes. -/
  readData : Nat := 0
  readSize : Nat := 0
  deriving DecidableEq, Repr

end Sys2Proof.Machine
end

