-- ==== Sys2Proof/Machine/State/Clock.lean ====
section
/-! DEFINITION. The clock plan, the cue counter and the cue slots (03_cue_clock.md, R48-R76). -/
namespace Sys2Proof.Machine

/-- Clocks and their supervision (R48-R53). Domains are numbered as R48 numbers them. -/
structure ClkState where
  /-- Domains stopped now (CLK_RUN shows the others running). -/
  stopped : List Nat := []
  /-- Domains whose start has been asked for and not yet happened. -/
  starting : List Nat := []
  /-- CLK_WARN: REF_PPM, DRAM_UNLOCK, TAP_FAULT (RW1C). -/
  warn : Nat := 0
  rootLock : Bool := false
  dramLock : Bool := false
  dramRelock : Bool := false
  /-- REFCLK offset in 0.1 ppm (CLK_REFCLK_PPM). -/
  refPpm : Int := 0
  /-- DDR5 transfer rate in effect (CLK_DRAM_MTS). -/
  dramMts : Nat := 0
  /-- N of CK_FIO0-CK_FIO3 (CLK_FIO_N), by group. -/
  fioN : Tab Nat := []
  /-- Measured frequency in kHz, by domain (CLK_FREQ0-24). -/
  freq : Tab Nat := []
  deriving DecidableEq, Repr

/-- The adjustment code of a broadcast period (R57, R58). -/
inductive PeriodCode where
  | none | hold | skip
  deriving DecidableEq, Repr

/-- One cue tap, where it differs from its reset value. -/
structure CueTap where
  /-- Last difference from the broadcast in ticks (CUE_TAP_INFO [23:16]). -/
  diff : Int := 0
  /-- Compensation in 1/16 tick (R59). -/
  comp : Int := 0
  /-- Ticks the tap is still to hold, one per period (R60). -/
  holdOwed : Nat := 0
  faulty : Bool := false
  measuring : Bool := false
  /-- Wall time and die temperature of the last measurement (R59). -/
  measuredAt : Nat := 0
  measuredTemp : Int := 0
  deriving DecidableEq, Repr

/-- Where a cue stands between its post and its end. -/
inductive CuePhase where
  | posted | armed | held
  deriving DecidableEq, Repr

/-- One cue slot in use (R66-R71). -/
structure CueSlot where
  poster : Poster
  fire : Nat
  target : Nat
  action : CueAction
  tag : Nat
  phase : CuePhase
  /-- Posted with less than the horizon (R67). -/
  late : Bool
  /-- Armed at or after its fire time, or held while its domain was stopped: the action carries the late flag. -/
  lateFlag : Bool
  postedAt : Nat
  /-- A cancel is on its way to the target tap (R70). -/
  cancelling : Bool
  /-- The cue value when the cancel was given. -/
  cancelAt : Nat := 0
  deriving DecidableEq, Repr

/-- The outcome that CUE_CANCEL_RESULT or CUE_POST_RESULT reports. -/
structure CueResult where
  status : Nat := 0
  slot : Nat := 0
  deriving DecidableEq, Repr

/-- The cue clock. -/
structure CueState where
  /-- The master counter: the lifetime cue in ticks (R54-R56). -/
  now : Nat := 0
  /-- The current period's code, and whether its hold or skip has been taken (R58). -/
  period : PeriodCode := .none
  periodDone : Bool := true
  /-- The phase accumulator, in 10^-8 tick (R64). -/
  accum : Nat := 0
  /-- CUE_CTRL as stored, CUE_RATE_ADJ as clamped (R61, R64). -/
  ctrl : Nat := 0
  rateAdj : Int := 0
  /-- Skips less holds since PERST_N release (CUE_NET_ADJ). -/
  netAdj : Int := 0
  locked : Bool := false
  holdover : Bool := false
  /-- A requested forward step and its target (R55). -/
  step : Option Nat := none
  stepped : Bool := false
  /-- The cue floor (R54). -/
  floor : Nat := 0
  /-- The PTP or PTM offset in ns and whether it has been fixed in this power cycle (R63). -/
  ptpOffset : Int := 0
  offsetFixed : Bool := false
  /-- The cue that a MAC or the PTM requester stamped on the last event message (R62). -/
  stamp : Nat := 0
  /-- Taps that differ from their reset value, of the 80 (R57-R60). -/
  taps : Tab CueTap := []
  calDone : Bool := false
  /-- Cue slots in use, of the 4,096 (R66). -/
  slots : Tab CueSlot := []
  /-- Result of the last house post and of the last house cancel (R75). -/
  postResult : CueResult := {}
  cancelResult : CueResult := {}
  deriving DecidableEq, Repr

end Sys2Proof.Machine
end

