-- ==== Sys2Proof/Machine/State/Device.lean ====
section
/-! DEFINITION. Device states, boot records, rehearsal, power and temperature (19_states_power_life.md, R476-R502). -/
namespace Sys2Proof.Machine

/-- The device states of R4 and R476 (Intermission is per region and no device state, R5). -/
inductive DevPhase where
  | dark | houseLights | rehearsal | performance | curtainDown | finalCurtain
  deriving DecidableEq, Repr

/-- A firmware image in a slot of the boot flash (R484): its header fields, and whether its signature sets verify. -/
structure FwSlot where
  /-- The image was written whole and reads without error. -/
  readable : Bool := true
  verifies : Bool := true
  svn : Nat := 0
  version : Nat := 0
  safetyImage : Nat := 0
  deriving DecidableEq, Repr

/-- The boot record in force (R483). -/
structure BootRecord where
  seq : Nat := 0
  hold : Bool := false
  fwNext : Nat := 1
  fwGood : Nat := 1
  dramRetired : Nat := 0
  /-- Which of the two copies holds the newer record. -/
  copyB : Bool := false
  deriving DecidableEq, Repr

/-- States, start-up and boot flash. -/
structure DevState where
  phase : DevPhase := .dark
  /-- Cue of the last transition (DEV_STATE_CUE). -/
  stateCue : Nat := 0
  /-- DEV_STATUS flags. -/
  halted : Bool := false
  recovery : Bool := false
  rehearsalFail : Bool := false
  fwFallback : Bool := false
  formatted : Bool := false
  coldSpin : Bool := false
  waitTemp : Bool := false
  /-- HOLD as this start-up found it (SET_HOLD and CLEAR_HOLD act at the next start-up, R501). -/
  holdAtBoot : Bool := false
  /-- GO was written in this start-up (R476). -/
  go : Bool := false
  /-- Levels of PERST_N and PWR_LOSS_N. -/
  perstHigh : Bool := false
  lossHigh : Bool := false
  /-- PERST_N is high and a condition of R480 is still missing. -/
  waitSupplies : Bool := false
  /-- Rehearsal steps started, done and failed (R487), and the wall time at which Rehearsal began. -/
  rehStarted : List Nat := []
  rehDone : List Nat := []
  rehFailed : List Nat := []
  rehStart : Nat := 0
  rehErrStep : Nat := 0
  rehErrCode : Nat := 0
  /-- DEV_PERF_MS. -/
  perfMs : Nat := 0
  /-- The boot ROM runs: PERST_N has risen with the conditions of R480 met, and no slot has booted. -/
  booting : Bool := false
  /-- Firmware slot booted, 0 before a slot has booted; slots the boot ROM has tried in this start-up. -/
  booted : Nat := 0
  tried : List Nat := []
  bootedSvn : Nat := 0
  /-- PERSISTENT: boot record, firmware slots, firmware floor, serial number and base MAC address. -/
  boot : BootRecord := {}
  fwSlots : Tab FwSlot := [(1, {})]
  fwFloor : Nat := 0
  serial : Nat := 0
  mac : Nat := 0
  deriving DecidableEq, Repr

/-- A harbour sequence in progress (R186, R489, R496): its cause (0 power loss, 1 PERST_N, 2 thermal) and its start. -/
structure Harbour where
  cause : Nat
  start : Nat
  deriving DecidableEq, Repr

/-- Supplies, temperatures and the harbour sequence. -/
structure PwrState where
  /-- Rails in tolerance (PWR_STATUS.RAIL_GOOD) and measured mV by rail. -/
  railGood : Nat := 0
  railMv : Tab Nat := []
  /-- The eight die sensors in 1/256 degree C (PWR_TEMP). -/
  temps : List Int := [0, 0, 0, 0, 0, 0, 0, 0]
  tempWarn : Bool := false
  throttling : Bool := false
  throttlePct : Nat := 100
  /-- Wall time of the last change of the issue rate (R495). -/
  throttleAt : Nat := 0
  powerMw : Nat := 0
  /-- Core voltage requested in mV, 0 until House Lights (PERSISTENT, R508); slowest aging margin in 0.1%; operating seconds at which the
  next measurement is due (PERSISTENT, R498). -/
  vcoreReq : Nat := 0
  ageMargin : Nat := 0
  ageAt : Nat := 0
  harbour : Option Harbour := none
  /-- PERST_N fell during the harbour sequence and waits for its seal (R492). -/
  perstDeferred : Bool := false
  /-- Level of PWR_SEALED; high in Dark (R481). -/
  sealedPin : Bool := true
  /-- PERSISTENT: harbour sequences since manufacture; time of the last one in microseconds. -/
  lossCount : Nat := 0
  holdupLast : Nat := 0
  deriving DecidableEq, Repr

end Sys2Proof.Machine
end

