-- ==== Sys2Proof/Machine/State/Dram.lean ====
section
/-! DEFINITION. The DRAM controller, the word code and the scrubber (17_memory_and_ecc.md, R428-R455). -/
namespace Sys2Proof.Machine

/-- Where a frequency change stands (R443, R444). -/
inductive FreqPhase where
  | idle
  /-- Activates stop, banks precharge; the channels have not yet committed. -/
  | entering
  /-- Abandoned: tried again once every queue is empty. -/
  | retry
  /-- All channels committed: the second PLL re-locks. -/
  | relock
  /-- Locked, the channels have exited: tXS passes. -/
  | exiting
  deriving DecidableEq, Repr

/-- An entry of ECC_LOG (R455). -/
structure EccRec where
  uncorr : Bool
  source : Nat
  memory : Nat
  bit1 : Nat
  bit0 : Nat
  unit : Nat
  addr : Nat
  cue : Nat
  deriving DecidableEq, Repr

/-- A bank (R440, R441): its open row, the row of its last request, its history H, the wall time of its last request, its rolling
activation counter. -/
structure DramBank where
  row : Option Nat := none
  last : Option Nat := none
  hist : Nat := 0
  at' : Nat := 0
  acts : Nat := 0
  deriving DecidableEq, Repr

/-- A request that waits at the controller: a read, a whole line, a narrow write; with the flips its words have suffered. -/
inductive DramReq where
  | read (unit addr : Nat) (flips : List (Nat × BitVec 80)) (use : DramUse)
  | write (unit addr : Nat) (line : Bytes)
  | merge (unit addr : Nat) (bytes : Bytes) (flips : List (Nat × BitVec 80)) (use : DramUse)
  deriving DecidableEq, Repr

/-- DRAM and SRAM, beside the DRAM's bytes. -/
structure DmcState where
  /-- Words whose stored code word is not the clean one of their data: the 80 bits, by device address / 8. -/
  words : Tab (BitVec 80) := []
  /-- SRAM words that hold errors or poison: the error pattern, by memory * 2^32 + word address. -/
  sram : Tab (BitVec 80) := []
  /-- Channels of the interleave (R430, R451), a mask; two ranks a channel; RFM thresholds, 0 where none is required (R441): initial and
  maximum. -/
  mask : Nat := 0
  ranks2 : Bool := false
  rfmInitial : Nat := 0
  rfmMax : Nat := 0
  /-- Channel states (DMC_CH_STATE): 0 absent, 1 active, 2 self-refresh, 3 retiring, 4 retired, 5 training. -/
  ch : Tab Nat := []
  /-- Channels leaving idle self-refresh: their requests wait for tXS. -/
  exits : List Nat := []
  /-- Wall time of each channel's last request. -/
  lastReq : Tab Nat := []
  /-- Banks, by channel * 64 + rank * 32 + bank number. -/
  banks : Tab DramBank := []
  /-- The set in effect: false A, true B. DMC_MTS_LOW as of the last Rehearsal (R442). -/
  setB : Bool := false
  mtsLow : Nat := 4800
  freq : FreqPhase := .idle
  toB : Bool := false
  attempts : Nat := 0
  abandons : Nat := 0
  /-- Last change in 0.1 us; the cue at which the present one was requested. -/
  lastTook : Nat := 0
  freqStart : Nat := 0
  /-- A change requested while another was under way or a block was being copied. -/
  freqWaits : Option Bool := none
  /-- Requests that wait, in arrival order. -/
  waiting : List DramReq := []
  /-- Temperature and refresh-rate indication of each rank: channel * 2 + rank. -/
  temp : Tab Nat := []
  rates : Tab Nat := []
  /-- The wall time since which every rank has stayed below LO. -/
  coolSince : Option Nat := none
  /-- Failed restarts of the second PLL. -/
  unlockTries : Nat := 0
  /-- The scrubber: device address, SRAM words of its pass, passes, the start of the DRAM pass, EV330 recorded in it. -/
  pos : Nat := 0
  sramPos : Nat := 0
  dramPasses : Nat := 0
  sramPasses : Nat := 0
  passStart : Nat := 0
  behind : Bool := false
  /-- ECC_LOG, newest first. -/
  log : List EccRec := []
  /-- Corrected bits by device position with their wall times (R448); events EV341 and uncorrectable words by channel (R449). -/
  ce : List (Nat × Nat) := []
  concentrated : List (Nat × Nat) := []
  ue : List (Nat × Nat) := []
  slabsLost : Nat := 0
  /-- The retirement: channel, state 0 idle 1 copying 2 done, ERR; blocks to copy and copied; remapped blocks to channel and block. -/
  retCh : Nat := 0
  retState : Nat := 0
  retErr : Nat := 0
  toCopy : Nat := 0
  copied : Nat := 0
  remap : Tab (Nat × Nat) := []
  retiredThisCycle : Bool := false
  deriving DecidableEq, Repr

end Sys2Proof.Machine
end

