-- ==== Sys2Proof/Machine/State/Engines.lean ====
section
/-! DEFINITION. Tally, the ASU, Scrim and the Safety Curtain (13_smock_and_tally.md, 14_associative_search.md, 15_scrim_and_keys.md,
16_isolation_and_access.md). -/
namespace Sys2Proof.Machine

/-- A Tally message between its parts (R348-R350): for a keyed algorithm the device slot, the key generation and the key it latched. -/
structure TlyCtx where
  tag : Nat
  alg : Nat
  key : Option (Nat × Nat × BitVec 512)
  data : Bytes
  /-- Its key slot was erased (R350). -/
  aborted : Bool := false
  deriving DecidableEq, Repr

/-- A Tally job slot of a tenant window (R354, R357). -/
structure TlySlot where
  /-- 0 idle, 1 stream open, 2 running, 3 done, 4 failed. -/
  state : Nat := 0
  err : Nat := 0
  alg : Nat := 0
  key : Option (Nat × Nat × BitVec 512) := none
  aborted : Bool := false
  compare : Bool := false
  post : Bool := false
  pub : Bool := false
  expect : Bytes := []
  /-- Bytes in the FIFO, and whether the last word is among them. -/
  fifo : Bytes := []
  last : Bool := false
  /-- The message as far as lanes have taken it. -/
  msg : Bytes := []
  /-- SOURCE = 1: offset and length in SLM. -/
  range : Option (Nat × Nat) := none
  ctx : Option Nat := none
  /-- The handle of its task. -/
  task : Option Nat := none
  lastWrite : Nat := 0
  digest : Bytes := []
  cmp0 : Nat := 0
  cmp1 : Nat := 0
  posted : Bool := false
  notPublic : Bool := false
  deriving DecidableEq, Repr

/-- Tally, and Smock's byte totals. -/
structure TlyState where
  ctxs : Tab TlyCtx := []
  /-- Job slots: tag * 4 + slot. -/
  slots : Tab TlySlot := []
  /-- Lanes out of service, and compare faults as lane and time (R351). -/
  dead : List Nat := []
  faults : List (Nat × Nat) := []
  /-- First parts found waiting for a context (EV277), by task handle. -/
  waits : List Nat := []
  /-- Bytes below a whole MB of compress input and output (R358). -/
  smkIn : Nat := 0
  smkOut : Nat := 0
  deriving DecidableEq, Repr

/-- An ASU entry: key and associated data (R362). -/
structure AsuEntry where
  key : BitVec 128
  data : BitVec 64
  deriving DecidableEq, Repr

/-- A waiting insert (its entry and position) or delete (its index), and the invocation that waits for it (R371). -/
structure AsuUpdate where
  inv : Nat
  insert : Option AsuEntry
  pos : Nat
  deriving DecidableEq, Repr

/-- An insert or delete that is moving (R372, R373): its update, the copies left, and the position whose moving bit is set. -/
structure AsuMove where
  upd : AsuUpdate
  left : Nat
  hole : Option Nat
  deriving DecidableEq, Repr

/-- A table of the ASU: the valid entries of its banks and of the shadows, by index, its count, its running move (R362, R368, R371). -/
structure AsuTable where
  bank : Tab AsuEntry := []
  shadow : Tab AsuEntry := []
  count : Nat := 0
  queue : List AsuUpdate := []
  move : Option AsuMove := none
  deriving DecidableEq, Repr

/-- The ASU. -/
structure AsuState where
  tables : Tab AsuTable := []
  walkBank : Nat := 0
  walkRow : Nat := 0
  passes : Nat := 0
  /-- Repairs by bank with their cues (R370). -/
  repairs : List (Nat × Nat) := []
  deriving DecidableEq, Repr

/-- A key slot (R389). -/
structure KeySlot where
  kind : Nat := 0
  owner : Nat := 0
  epoch : Nat := 0
  gen : Nat := 0
  counter : Nat := 0
  key : BitVec 512 := 0
  nsid : Nat := 0
  index : Nat := 0
  /-- Reserved counter values end before this one; a block asked for and not yet on flash (R394). -/
  blockEnd : Nat := 0
  requested : Bool := false
  /-- Values of the next epoch's first block that are on flash. -/
  nextBlock : Nat := 0
  /-- Encryptions that wait for the block: task handles. -/
  waiting : List Nat := []
  /-- The cue of the last latch (R390). -/
  latchedAt : Nat := 0
  deriving DecidableEq, Repr

/-- A saved context of Scrim (R391, R397): what its message latched, and the message so far. -/
structure ScrCtx where
  tag : Nat
  op : Nat
  /-- The device slot. -/
  slot : Nat
  key : BitVec 512
  gen : Nat
  /-- XTS: the data unit's bytes and the tweak of the next one. -/
  unit : Nat := 0
  tweak : Nat := 0
  iv : Bytes := []
  aad : Bytes := []
  /-- GCM: ciphertext so far; CMAC: message so far. -/
  data : Bytes := []
  /-- The invocation counter value, where a seal took one; the seal's address; the tag a seal names. -/
  inv : Nat := 0
  sealAt : Option Nat := none
  expect : Bytes := []
  deriving DecidableEq, Repr

/-- Scrim, the derivation engine and the DRBG. -/
structure ScrState where
  slots : Tab KeySlot := []
  ctxs : Tab ScrCtx := []
  /-- Contexts freed by a slot erase, with the tenant tag of the message aborted: its later parts fail with 0x84 (R392). -/
  gone : Tab Nat := []
  waits : List Nat := []
  rootReady : Bool := false
  blocked : Bool := false
  /-- Derivations that wait for a switchover, in arrival order, with the device slot of a TW_KEY_CMD (R388). -/
  queue : List (DeriveReq × Option Nat) := []
  rngOk : Bool := false
  halted : Bool := false
  rngFails : Nat := 0
  /-- TW_KEY_RESULT by tenant. -/
  results : Tab Nat := []
  /-- PERSISTENT: the store secret, the namespace and tenant secrets (R387). -/
  store : BitVec 256 := 0
  nsSecrets : Tab (BitVec 256) := []
  tenantSecrets : Tab (BitVec 256) := []
  /-- PERSISTENT: the first counter value not yet reserved, by namespace * 2^32 + epoch (R394). -/
  reserved : Tab Nat := []
  deriving DecidableEq, Repr

/-- Where the Trapdoor's opening stands (R422). -/
inductive TdPhase where
  | closed | recording | open'
  deriving DecidableEq, Repr

/-- The Safety Curtain and the Trapdoor. -/
structure SafState where
  /-- The first alarm: kind and sensor (SAF_ALARM). -/
  alarm : Option (Nat × Nat) := none
  alarms : Nat := 0
  /-- Mesh loops whose last check differed (R414). -/
  meshBad : List Nat := []
  rootErased : Bool := false
  imageActive : Nat := 0
  imageStandby : Nat := 0
  standbyReady : Bool := false
  /-- A switchover in progress; true for a failover. -/
  switching : Option Bool := none
  switches : Nat := 0
  failovers : Nat := 0
  refusals : Nat := 0
  /-- SPDM sessions open; slot 1 provisioned. -/
  sessions : Nat := 0
  slot1 : Bool := false
  /-- The Trapdoor: nonce and the wall time of its capture, failures, error, a response held during a switchover. -/
  nonce : Option (BitVec 256 × Nat) := none
  fails : Nat := 0
  tdErr : Nat := 0
  td : TdPhase := .closed
  /-- Wall time at which step 3 was reached (R423). -/
  tdStart : Nat := 0
  held : Option TdResponse := none
  /-- The device register that the Trapdoor last selected: instruction code and its captured value. -/
  tdCode : Nat := 0
  tdData : Nat := 0
  /-- Boundary-scan cells as last preloaded. -/
  scan : Nat := 0
  deriving DecidableEq, Repr

end Sys2Proof.Machine
end

