-- ==== Sys2Proof/Machine/State/Events.lean ====
section
/-! DEFINITION. The event fabric and the Sampler's state (18_events_and_sampler.md, R456-R475). -/
namespace Sys2Proof.Machine

/-- One Sampler record (R463). `gen` is the slot generation, `seqStamp` the STAMP bit, `stamp` bytes 0x0C-0x13. -/
structure EvRec where
  gen : Nat
  seqStamp : Bool
  footside : Bool
  pinned : Bool
  repeatSat : Bool
  source : Nat
  tenant : Nat
  severity : Nat
  repeats : Nat
  code : Nat
  stamp : Nat
  cue : Nat
  lastCue : Nat
  arg0 : Nat
  arg1 : Nat
  recno : Nat
  /-- Not yet written to flash with its page (R466). -/
  isOpen : Bool
  /-- The EVENT routes' change count when the record was written, or when its source's route last stayed the same (R465, last condition). -/
  routeAge : Nat
  deriving DecidableEq, Repr

/-- A tenant's own log: its newest 256 records and the next record number (R471). -/
structure TenantLog where
  next : Nat := 0
  recs : List EvRec := []
  deriving DecidableEq, Repr

/-- A raised event waiting for intake (R462). -/
structure RaisedEvent where
  source : Nat
  code : Nat
  arg0 : Nat
  arg1 : Nat
  tag : Nat
  cue : Nat
  seq : Nat
  deriving DecidableEq, Repr

/-- What a Sampler window shows (R470): FOOTSIDE selects the Footside region. -/
structure SmpCursor where
  foot : Bool := false
  number : Nat := 0
  deriving DecidableEq, Repr

/-- The event fabric and the Sampler. -/
structure EvtState where
  /-- Running region, by slot r mod 65,536 (R466). -/
  running : Tab EvRec := []
  /-- Footside region, by entry 0-16,383 (R467). -/
  foot : Tab EvRec := []
  /-- Footside reserve entries used (R467). -/
  reserveUsed : Nat := 0
  /-- Next record number (R466). -/
  next : Nat := 0
  /-- Wall time at which the oldest open record of a page was accepted, by page (R466). -/
  pageTimer : Tab Nat := []
  /-- Records of closed pages waiting in SRAM for copy 1 and copy 2, by page (R468). -/
  wait1 : Tab Nat := []
  wait2 : Tab Nat := []
  /-- Record numbers lost in a hole (R469). -/
  hole : Bool := false
  /-- Copies moving to new groups (R468) and restore complete (R469). -/
  moving : Bool := false
  /-- The groups in use for copy 1 and copy 2 while a live APPLY that changed them moves the copies (R468). -/
  oldCopies : Option (Nat × Nat) := none
  restored : Bool := false
  pinFull : Bool := false
  /-- Security events waiting for intake while the SRAM has no room (R462), oldest first. -/
  secWait : List RaisedEvent := []
  /-- The Safety Curtain's next security sequence number, 48 bits (R464, SAF_SEQ). -/
  secSeq : Nat := 0
  /-- Operating seconds at the last PERST_N release, and the power-cycle count (R464). -/
  opSecBase : Nat := 0
  powerCycles : Nat := 0
  /-- How often the EVENT region has taken effect: a record's route changed when this moved (R465). -/
  routeAge : Nat := 0
  /-- Each tenant's log, the house tenant's at 0 (R471). -/
  logs : Tab TenantLog := []
  /-- The selected slot of the SMP_ window and of each tenant's view (R470, R471). -/
  cursor : SmpCursor := {}
  tenantCursor : Tab Nat := []
  /-- The function through which each tenant last wrote TW_EVT_CTRL with MSIX = 1 (R460). -/
  boundFn : Tab Nat := []
  /-- Asynchronous Event Requests that an event has answered, by scene number: the DW0 they complete with (R102, R460). -/
  aenDue : Tab Nat := []
  /-- Controllers holding an outstanding vendor asynchronous event (R460). -/
  aenHeld : List Nat := []
  deriving DecidableEq, Repr

end Sys2Proof.Machine
end

