-- ==== Sys2Proof/Machine/State/Trl.lean ====
section
/-! DEFINITION. The translation layer: map, Wings, streams, journal, harbour (07_translation_layer.md, R164-R198). -/
namespace Sys2Proof.Machine

/-- A map entry (R165), by unit; a unit that is not listed is unmapped. -/
inductive MapEntry where
  | flash (sb slot : Nat)
  | platter (band slot : Nat)
  | wings (slot : Nat)
  | harbour (slot : Nat)
  | fine (group : Nat)
  | uncorrectable
  deriving DecidableEq, Repr

/-- A fine entry (R165). -/
inductive FineEntry where
  | unmapped
  | flash (sb granule : Nat)
  | wings (granule : Nat)
  | harbour (granule : Nat)
  | uncorrectable
  deriving DecidableEq, Repr

/-- A Wings slot: the unit it holds, the granules written, its owner, its write sequence, and whether its write's completion
has been posted (R125, R183). -/
structure WingSlot where
  unit : Nat
  granules : List Nat
  tag : Nat
  nsid : Nat
  seq : Nat
  /-- The commit order, and the cue of the commit. -/
  cue : Nat
  posted : Bool
  /-- The unit's media copy before this write, protected until the placement is journalled on flash (R183). -/
  pred : Option MapEntry
  hot : Bool
  deriving DecidableEq, Repr

/-- The streams of R172. -/
inductive Stream where
  | hot | cold | reloc | metadata | harbour | bandHost | bandMove
  deriving DecidableEq, Repr

/-- An erase block by channel, chip enable, LUN and block. -/
structure EraseBlk where
  ch : Nat
  ce : Nat
  lun : Nat
  blk : Nat
  deriving DecidableEq, Repr

/-- An erase block of a list with its program/erase count (R173). -/
structure FreeBlk where
  blk : EraseBlk
  pe : Nat
  /-- The data slots it adds to a stripe block. -/
  slots : Nat
  deriving DecidableEq, Repr

/-- A stripe block (R171-R181). -/
structure StripeBlk where
  stream : Stream
  members : List FreeBlk
  slots : Nat
  written : Nat
  openCue : Nat
  /-- Cue of the close; none while open. -/
  closed : Option Nat
  reads : Nat
  /-- Its width (R209), and each member's read-retry start level (R215). -/
  width : Nat
  levels : Tab Nat
  /-- Page reads of each member since its erase (R180), and decode-margin triggers with their wall time (R181). -/
  pageReads : Tab Nat
  margins : List (Nat × Nat)
  /-- Positions whose member is retired: it is not freed when the stripe block is erased (R179, R191). -/
  bad : List Nat
  /-- Waiting for refresh; being erased; members still to erase. -/
  refresh : Bool
  erasing : List EraseBlk
  deriving DecidableEq, Repr

/-- A platter band (R174, R178, R197). -/
structure Band where
  act : Nat
  surface : Nat
  stream : Stream
  slots : Nat
  written : Nat
  closed : Bool
  spare : Bool
  retired : Bool
  /-- Edge-track writes of its neighbours since it was written (R180), and their count when it was opened. -/
  adj : Nat
  refresh : Bool
  /-- Its zone and first track, and the next physical sector to write, its append point (R236-R238). -/
  zone : Nat
  firstTrack : Nat
  append : Nat
  /-- Its code-rate index (R233). -/
  codeRate : Nat
  /-- The first suspect sector of the last trips, and how many in succession tripped there (R248). -/
  trips : Nat × Nat
  deriving DecidableEq, Repr

/-- A copy on its way: reclamation or refresh of one unit, or of a fine unit's granules in one slot, from its source to its
target (R177). -/
structure Copy where
  unit : Nat
  src : MapEntry
  dst : MapEntry
  refresh : Bool
  /-- Its sectors were written again after a write-guard trip (R247). -/
  suspect : Bool
  deriving DecidableEq, Repr

/-- A placement whose journal record is not yet on flash (R125, R183): the Wings write and the journal sequence. -/
structure Unflushed where
  seq : Nat
  jseq : Nat
  nsid : Nat
  posted : Bool
  pred : Option MapEntry
  deriving DecidableEq, Repr

/-- A tier's figures (R190-R193): usable slots, mappable and charged units. Mapped units are counted from the map. -/
structure Tier where
  slots : Nat := 0
  units : Nat := 0
  charged : Nat := 0
  deriving DecidableEq, Repr

/-- The translation layer. -/
structure TrlState where
  flash : Tier := {}
  plat : Tier := {}
  /-- Runs of units in use: first unit and count, both pools. -/
  runs : Tab Nat := []
  /-- Each tenant's charge in bytes, flash and platters (R147). -/
  quota : Tab (Nat × Nat) := []
  map : Tab MapEntry := []
  fine : Tab (List FineEntry) := []
  wings : Tab WingSlot := []
  unflushed : List Unflushed := []
  /-- The next WRITE_SEQ (R195). -/
  writeSeq : Nat := 0
  sbs : Tab StripeBlk := []
  bands : Tab Band := []
  freeBlks : List FreeBlk := []
  retiredBlks : Nat := 0
  retiredBands : Nat := 0
  /-- The flash victim being reclaimed and the refresh queue's turn (R175, R181). -/
  victim : Option Nat := none
  /-- Stripe blocks waiting for refresh, first to be taken first (R181). -/
  refreshQ : List Nat := []
  greedy : Nat := 0
  copies : List Copy := []
  /-- Reclamation credit in 1/256 unit (R176), and host places waiting for it: scene and units. -/
  credit : Nat := 0
  waiting : List (Nat × Nat) := []
  /-- Journal: next sequence, first sequence not yet written, first not yet on flash; bytes buffered, their oldest record's wall
  time, bytes since the last checkpoint (R182, R184). -/
  jnext : Nat := 0
  jwritten : Nat := 0
  jflash : Nat := 0
  jbytes : Nat := 0
  joldest : Nat := 0
  jsince : Nat := 0
  /-- Checkpoint in progress and its cue; the last valid one's cue and wall time (R184). -/
  ckptBusy : Bool := false
  ckptStart : Nat := 0
  ckptCue : Nat := 0
  ckptAt : Nat := 0
  /-- Harbour: armed MiB, last dump time in ms, last recovery short, commits lost (R185-R189). -/
  armedMib : Nat := 0
  dumpMs : Nat := 0
  harbourShort : Bool := false
  plLost : Nat := 0
  /-- The harbour cue, once taken (R186). -/
  harbourCue : Nat := 0
  /-- The map has been restored in this start-up (R188). -/
  restored : Bool := false
  /-- PERSISTENT: the harbour holds a valid seal; or what it holds without one, as the number of commits not on media that it does hold
  (R189, R446). -/
  sealed : Bool := false
  short : Option Nat := none
  /-- PERSISTENT: the random brick identifier chosen at the first format. -/
  brickId : Nat := 0
  /-- PERSISTENT: the newest valid checkpoint records Final Curtain (R193, R476). -/
  final : Bool := false
  deriving DecidableEq, Repr

end Sys2Proof.Machine
end

