-- ==== Sys2Proof/Machine/State/Flash.lean ====
section
/-! DEFINITION. Flash channels, the LDPC pool and media reads (08_flash_channels.md, R199-R224). -/
namespace Sys2Proof.Machine

/-- A LUN that answers (R199, R218), by LUN index. -/
structure LunState where
  /-- ONFI unique ID (R221). -/
  uid : Nat := 0
  retired : Bool := false
  /-- Start level set last (FLC_LUN_INFO; the levels themselves are each member's, R215). -/
  level : Nat := 0
  /-- EV064 events, wall time of the last, resets tried against the present one: 1 LUN, 2 target (R218). -/
  stuck : Nat := 0
  lastStuck : Option Nat := none
  resets : Nat := 0
  membersRetired : Nat := 0
  /-- Reads waiting, oldest first, and the read in progress. -/
  readQ : List Nat := []
  reading : Option Nat := none
  /-- Reads that passed the first queued program (R200). -/
  passed : Nat := 0
  deriving DecidableEq, Repr

/-- Programs and erases. -/
inductive DieOp where
  | program | erase
  deriving DecidableEq, Repr

/-- A program or erase of one member (R216): what it works on, its grid point and cue slot once given, and whether it runs. -/
structure FlashOp where
  op : DieOp
  lun : Nat
  blk : EraseBlk
  /-- The stripe block, and the member's position in it; none for the erases of an inserted group (R220). -/
  sb : Option Nat
  pos : Nat
  /-- The row that a program writes last (R210); row 0 is the block headers. -/
  row : Nat
  point : Option Nat
  cue : Option Nat
  running : Bool
  deriving DecidableEq, Repr

/-- A flash group as bring-up found its dies (R202, R203, R208). -/
structure FlashGroup where
  /-- CK_FIO multiplier. -/
  n : Nat := 0
  /-- Data rows of a member (slots less the header), slots per page set, member erase blocks of a LUN, read-retry levels, rated
  endurance. -/
  rows : Nat := 0
  setSlots : Nat := 1
  members : Nat := 0
  levels : Nat := 0
  endurance : Nat := 0
  /-- A BRICK_ID found on its blocks; none where they carry no header (R221). -/
  brick : Option Nat := none
  faulted : Bool := false
  deriving DecidableEq, Repr

/-- The steps of a replacement (FLC_HR_STATUS.STATE). -/
inductive HrPhase where
  | idle | evacuating | evacuated | removed | inserting
  deriving DecidableEq, Repr

/-- A read of one granule from media (R215, R243): its scene, the slot, the ladder. -/
structure MediaRd where
  scene : Nat
  src : MapEntry
  gran : Nat
  step : Nat := 1
  /-- Read-retry level of the present read, and levels (flash step 3) or slip alignments (platter step 4) tried. -/
  level : Nat := 0
  tried : Nat := 0
  best : Nat := 0
  /-- LUNs whose page read of the present attempt is still to come (flash). -/
  todo : List Nat := []
  /-- Sectors still to gather for a reconstruction (platter step 6). -/
  left : Nat := 0
  soft : Bool := false
  /-- A read-back of a sector that a trip may have trimmed (R247). -/
  back : Bool := false
  /-- Wall time at which it was asked for. -/
  since : Nat := 0
  deriving DecidableEq, Repr

/-- Flash channels and the LDPC pool. -/
structure FlcState where
  groups : Tab FlashGroup := []
  luns : Tab LunState := []
  /-- Channels made unusable (R203), and failed live trainings in succession by channel. -/
  deadCh : List Nat := []
  trainFails : Tab Nat := []
  /-- Wall time and die temperature of each channel's last training. -/
  trainedAt : Tab Nat := []
  trainedTemp : Tab Int := []
  ops : List FlashOp := []
  rds : Tab MediaRd := []
  nextRd : Nat := 0
  /-- Group replacement: the group, the step, ERR, and the stripe blocks to move when it began. -/
  hrGroup : Nat := 0
  hr : HrPhase := .idle
  hrErr : Nat := 0
  hrTotal : Nat := 0
  /-- PERSISTENT: program/erase counts by block number of dies this device has held, keyed by unique ID (R221). -/
  kept : Tab (List FreeBlk) := []
  /-- LDPC decoders busy with a read, reads waiting for decoders 0-55 (R213). -/
  decs : Tab Nat := []
  decQ : List Nat := []
  /-- Decoders 56-63 reserved: actuator, lane, cue of the reservation (R242). -/
  resv : Tab (Nat × Nat × Nat) := []
  /-- Hard decodes of the last 1 ms: wall time and iterations (LDP_ITER_AVG). -/
  iters : List (Nat × Nat) := []
  deriving DecidableEq, Repr

end Sys2Proof.Machine
end

