-- ==== Sys2Proof/Machine/State/Hoop.lean ====
section
/-! DEFINITION. The read channel, Hoop and the motor link (09_read_channel.md, R225-R256; 10_hoop_and_motors.md, R257-R285). -/
namespace Sys2Proof.Machine

/-- A data lane (R225, R240-R242, R252). -/
structure Lane where
  head : Nat := 0
  /-- The read whose gate is asserted, and its sync mark accepted. -/
  rid : Option Nat := none
  synced : Bool := false
  /-- Detected codewords waiting in the lane buffer, oldest first. -/
  buf : List Nat := []
  /-- Sectors in succession without a signal (R253). -/
  noSignal : Nat := 0
  calibrating : Bool := false
  calAt : Nat := 0
  calTemp : Int := 0
  deriving DecidableEq, Repr

/-- A write run (R245): its band, its physical sectors, and the cue of its first preamble. -/
structure WriteRun where
  band : Nat
  first : Nat
  count : Nat
  start : Nat
  deriving DecidableEq, Repr

/-- What a preamplifier frame carries (R250, R251, R256, R272): a heater output, or a diagnostic frame's 24 bits. -/
inductive PaKind where
  | heater (head : Nat) (u : Int)
  | diag (word : Nat)
  deriving DecidableEq, Repr

/-- A frame queued for a preamplifier, and how often its read-back has differed (R253). -/
structure PaFrame where
  kind : PaKind
  tries : Nat
  deriving DecidableEq, Repr

/-- An actuator of the read channel (R225-R256). -/
structure RchAct where
  /-- The clock lane: lock, fields good and bad in succession, the wedge of the last field, the newest stamp, interval durations. -/
  locked : Bool := false
  everLocked : Bool := false
  good : Nat := 0
  bad : Nat := 0
  wedge : Nat := 0
  stampCue : Nat := 0
  stampAngle : Nat := 0
  intervals : List Nat := []
  unlockedAt : Option Nat := none
  /-- Park states (R254, R280, R281). -/
  parking : Bool := false
  parkAt : Nat := 0
  parked : Bool := false
  offline : Bool := false
  resuming : Bool := false
  /-- A RESUME that takes effect once PARKED is reported, or the automatic one of R253. -/
  resumeAsked : Bool := false
  track : Nat := 0
  primary : Nat := 0
  lane0 : Lane := {}
  lane1 : Lane := {}
  /-- The write gate, the run, the guard: tripped, wedges passed in succession since, cue of the last wedge that passed (R245-R248). -/
  writing : Bool := false
  run : Option WriteRun := none
  tripped : Bool := false
  passes : Nat := 0
  passCue : Nat := 0
  /-- The last sample, samples missing and valid in succession, the sample delivered to Hoop (R232). -/
  sample : Option Int := none
  missing : Nat := 0
  valid : Nat := 0
  delivered : Option Int := none
  /-- Wall times of emergency parks under EV139-EV141 (R254). -/
  faultParks : List Nat := []
  /-- Preamplifier frames queued, the first one being sent; the last diagnostic frame. -/
  frames : List PaFrame := []
  paDone : Bool := false
  paRefused : Bool := false
  paData : Nat := 0
  paBusy : Bool := false
  calCount : Nat := 0
  calLane : Nat := 0
  /-- Parks since power-up and the last cause (HOP_An_PARK_CAUSE). -/
  parks : Nat := 0
  cause : Nat := 0
  deriving DecidableEq, Repr

/-- The read channel: its actuators, and the shock inputs above threshold. -/
structure RchState where
  acts : Tab RchAct := []
  shock : List Nat := []
  deriving DecidableEq, Repr

/-- A loop slot (R257-R269). -/
structure LoopSlot where
  en : Bool := false
  /-- The active bank, a swap requested and whether it waits for its cue (R264). -/
  bankB : Bool := false
  want : Option Bool := none
  atCue : Bool := false
  sp : Int := 0
  /-- A set-point written and not yet in effect (R266). -/
  newSp : Option Int := none
  ramp : Int := 0
  /-- Input and output histories. -/
  x1 : Int := 0
  x2 : Int := 0
  x3 : Int := 0
  y1 : Int := 0
  y2 : Int := 0
  y3 : Int := 0
  err : Int := 0
  u : Int := 0
  /-- The soft start is still to come (R269). -/
  soft : Bool := false
  atLimit : Bool := false
  skipped : Bool := false
  wrLost : Bool := false
  /-- Samples in succession at a limit and off track (R279). -/
  limits : Nat := 0
  offTrack : Nat := 0
  /-- Coefficients written since the banks were loaded: bank B from 8 (R265). -/
  coef : Tab Int := []
  deriving DecidableEq, Repr

/-- An actuator's profile stream (R270). -/
structure Stream270 where
  pending : Option Nat := none
  running : Bool := false
  next : Nat := 0
  stop : Bool := false
  noLast : Bool := false
  deriving DecidableEq, Repr

/-- A motor-link command frame (R275) before its SEQ and CRC. -/
structure LinkFrame where
  ty : Nat
  ch : Nat
  data : Nat
  tries : Nat
  diag : Bool
  deriving DecidableEq, Repr

/-- The motor link (R273-R282). -/
structure LinkState where
  up : Bool := false
  silent : Bool := false
  fault : Bool := false
  fltHigh : Bool := true
  queue : List LinkFrame := []
  /-- Frame k - 1 and the SEQ it carried. -/
  prev : Option (LinkFrame × Nat) := none
  seq : Nat := 0
  /-- Wall times of failed frames, good replies in succession, wall time of the last link fault. -/
  fails : List Nat := []
  good : Nat := 0
  faultAt : Option Nat := none
  parked : Nat := 0
  /-- The last diagnostic frame. -/
  diagBusy : Bool := false
  done : Bool := false
  nack : Bool := false
  refused : Bool := false
  data : Nat := 0
  /-- The spindle is being spun up (R271). -/
  spinUp : Bool := false
  deriving DecidableEq, Repr

/-- Hoop and the motor link. -/
structure HopState where
  slots : Tab LoopSlot := []
  prof : Tab Stream270 := []
  /-- Heater outputs not yet sent, by slot (R272). -/
  heat : Tab Int := []
  phaseMin : Nat := 0
  phaseClash : Bool := false
  link : LinkState := {}
  deriving DecidableEq, Repr

end Sys2Proof.Machine
end

