-- ==== Sys2Proof/Machine/State/Host.lean ====
section
/-! DEFINITION. The host front end's transports (04_host_attachment.md, R77-R105). -/
namespace Sys2Proof.Machine

/-- A fabric association (R90, R96, R97): its host, keep-alive timeout in ms, and the wall time of its last keep-alive. -/
structure Assoc where
  hostNqn : Nat
  hostId : Nat
  kato : Nat
  lastAlive : Nat
  adminConn : Nat
  adminRdma : Bool
  deriving DecidableEq, Repr

/-- An NVMe controller as it runs now (R81, R82): the CONTROLLER record it was last enabled or associated under. House
controllers are numbered 0 (P0) and 8,193 (P1), the others by their record's INSTANCE. -/
structure Ctrl where
  tag : Nat
  /-- 0 PCIe, 1 TCP, 2 RDMA. -/
  transport : Nat
  gloex : Bool
  ioQueues : Nat
  queueEntries : Nat
  vectors : Nat
  port : Nat
  fn : Nat
  enabled : Bool
  ready : Bool
  cfs : Bool
  /-- A controller reset is in progress: scenes opened before it have not all ended (R129). -/
  resetting : Bool
  aqa : Nat
  assoc : Option Assoc
  /-- Association ended and the keep-alive of that association in ms, for a held Connect (R98). -/
  endedKato : Nat
  endedAt : Nat
  deriving DecidableEq, Repr

/-- A PCIe link (HFE_PCIE_LINKn). -/
structure PcieLink where
  up : Bool := false
  flit : Bool := false
  l0p : Bool := false
  width : Nat := 0
  rate : Nat := 0
  deriving DecidableEq, Repr

/-- An Ethernet logical port (R84-R86). -/
structure EthPort where
  up : Bool := false
  fec : Bool := false
  lanes : Nat := 0
  fill : Nat := 0
  xoffSent : Bool := false
  /-- Link pause, and priorities paused by received PFC frames (R86). -/
  paused : Bool := false
  pausedPrios : List Nat := []
  /-- Frames dropped for FCS, length or ICRC (EV016, EV034). -/
  drops : Nat := 0
  deriving DecidableEq, Repr

/-- An IDE stream: the functions bound to it, and whether it is Insecure (R83, EV009). -/
structure IdeStream where
  fns : List Nat
  insecure : Bool
  deriving DecidableEq, Repr

/-- TLS on a connection (R92): the tenant its PSK is bound to, and records under each direction's key. -/
structure TlsSession where
  tag : Nat
  rxRecords : Nat
  txRecords : Nat
  deriving DecidableEq, Repr

/-- An NVMe/TCP connection (R91). -/
structure TcpConn where
  lport : Nat
  netEntry : Nat
  icDone : Bool
  hdgst : Bool
  ddgst : Bool
  hpda : Nat
  maxr2t : Nat
  tls : Option TlsSession
  /-- The tenant the host's secret bound, once proved (R88). -/
  tag : Option Nat
  ctrl : Option Nat
  qid : Nat
  /-- Capsules waiting in the receive buffer for transfer-area space (R100). -/
  waiting : List Capsule
  /-- Wall time at which an Invalid Host Connect closes it (R88). -/
  closeAt : Option Nat
  deriving DecidableEq, Repr

/-- An RDMA queue pair (R86, R93). -/
structure RdmaQp where
  lport : Nat
  netEntry : Nat
  inError : Bool
  tag : Option Nat
  ctrl : Option Nat
  qid : Nat
  /-- Send rate in 1/100,000 of line rate, and wall times of the last CNP sent, received and the last recovery (R86). -/
  rate : Nat
  lastCnpTx : Option Nat
  lastStep : Nat
  waiting : List Capsule
  closeAt : Option Nat
  deriving DecidableEq, Repr

/-- How the host is asked for data (R99). -/
inductive ReqKind where
  | pcieRead | r2t | rdmaRead
  deriving DecidableEq, Repr

/-- A data request outstanding (R99-R101). -/
structure DataReq where
  scene : Nat
  kind : ReqKind
  conn : Nat
  tag : Nat
  off : Nat
  len : Nat
  got : Nat
  issued : Nat
  /-- Its command has failed: what still arrives is excess data (R101). -/
  failed : Bool
  /-- Its completion timeout has expired: what still arrives is an unexpected completion (R101, EV003). -/
  expired : Bool := false
  deriving DecidableEq, Repr

/-- A tenant's staging in bytes used (R99). -/
structure Staging where
  transfer : Nat := 0
  output : Nat := 0
  deriving DecidableEq, Repr

/-- An address entry (R85, R105): HFE_NET_CTRL and HFE_NET_ADDR0-3 as applied. -/
structure NetEntry where
  ctrl : W32
  addr : List W32
  deriving DecidableEq, Repr

/-- A Connect held until the previous association's work has been rolled back (R98). -/
structure HeldConnect where
  req : ConnectReq
  since : Nat
  deriving DecidableEq, Repr

/-- The transports. -/
structure HfeState where
  ctrls : Tab Ctrl := []
  link0 : PcieLink := {}
  link1 : PcieLink := {}
  /-- E0.0, E0.1, E1.0, E1.1 as 0-3. -/
  eth : Tab EthPort := []
  /-- NumVFs enabled on P0 and P1, 0 while VF Enable is clear. -/
  numVfs0 : Nat := 0
  numVfs1 : Nat := 0
  ide : Tab IdeStream := []
  /-- DOE mailbox busy and DOE Error, by port (EV010). -/
  doeBusy : List Nat := []
  doeError : List Nat := []
  conns : Tab TcpConn := []
  qps : Tab RdmaQp := []
  reqs : Tab DataReq := []
  /-- The next data request number. -/
  nextReq : Nat := 0
  staging : Tab Staging := []
  /-- In-capsule data of commands not yet fetched, by queue key * 65,536 + CID (R100). -/
  capsules : Tab Bytes := []
  net : Tab NetEntry := []
  held : Tab HeldConnect := []
  /-- MCTP over SMBus 7-bit address (R94). -/
  mctpAddr : Nat := 0x1D
  /-- CC, AQA, ASQ, ACQ and the MSI-X tables as written through BAR0, by function * 2^17 + offset (R80). -/
  bar0 : Tab W32 := []
  deriving DecidableEq, Repr

end Sys2Proof.Machine
end

