-- ==== Sys2Proof/Machine/State/Objects.lean ====
section
/-! DEFINITION. Namespaces, objects, results and archive jobs (06_archive_objects.md, R140-R163). -/
namespace Sys2Proof.Machine

/-- The content of one LBA: its 4,096 bytes, its 16 bytes of protection information (format 1), uncorrectable (R165). -/
structure LbaData where
  bytes : Bytes
  pi : Bytes
  bad : Bool
  deriving DecidableEq, Repr

/-- A stored chunk (R144): payload length, format and level. -/
structure Chunk where
  origLen : Nat
  storedLen : Nat
  format : Nat
  level : Nat
  crc : Nat
  deriving DecidableEq, Repr

/-- An object version with the fields of its provenance record (R142, R143, R146). -/
structure Version where
  key : Bytes
  value : Bytes
  chunks : List Chunk
  compFormat : Nat
  compLevel : Nat
  cipher : Nat
  fixityAlg : Nat
  epoch : Nat
  storedUnits : Nat
  commitCue : Nat
  commitTai : Nat
  fixityCue : Nat
  fixityResult : Nat
  origin : Nat
  origTai : Nat
  crc : Nat
  digest : Nat
  damaged : Bool
  imported : Bool
  repaired : Bool
  platters : Bool
  rawChunk : Bool
  /-- Its run of units (R164). -/
  first : Nat
  units : Nat
  /-- No longer the newest of its key; mapped until its readers end (R143). -/
  superseded : Bool
  readers : Nat
  /-- Cue of the last read, and the cues of reads of the last 30 days (R149). -/
  lastRead : Nat
  reads : List Nat
  deriving DecidableEq, Repr

/-- A fixity sweep's cycle (R150, R151). -/
structure Sweep where
  start : Nat
  topId : Nat
  /-- Object IDs (extents of an NVM namespace) of the cycle not yet checked. -/
  unchecked : List Nat
  /-- The day's quota in bytes and the day of the cycle. -/
  quota : Nat
  day : Nat
  deriving DecidableEq, Repr

/-- A namespace (R106, R140, R141). -/
structure Namespace where
  owner : Nat
  kv : Bool
  nsze : Nat
  lbaf : Nat
  services : Nat
  compFormat : Nat
  compLevel : Nat
  cipher : Nat
  fixityAlg : Nat
  tierPolicy : Nat
  demoteDays : Nat
  promoteReads : Nat
  sweepDays : Nat
  /-- The units of an NVM namespace. -/
  first : Nat
  units : Nat
  attached : List Nat
  nextObj : Nat
  /-- The key epoch in effect (R387). -/
  epoch : Nat
  lbas : Tab LbaData
  vers : Tab Version
  /-- Extent digests of a fixity NVM namespace, by 256 KiB extent (R152). -/
  extents : Tab Nat
  sweep : Option Sweep
  deriving DecidableEq, Repr

/-- A result entry (R155). -/
structure ResultEntry where
  seq : Nat
  gen : Nat
  kind : Nat
  result : Nat
  alg : Nat
  tag : Nat
  digestLen : Nat
  nsid : Nat
  key : Bytes
  objId : Nat
  cue : Nat
  digest : Nat
  /-- Operating seconds at the post. -/
  posted : Nat
  deriving DecidableEq, Repr

/-- A tenant's private results (R154, R356). -/
structure PrivateArea where
  next : Nat := 0
  recs : List ResultEntry := []
  cursor : Nat := 0
  deriving DecidableEq, Repr

/-- What an archive job is doing (TW_ARC_STATUS.STATE). -/
inductive ArcPhase where
  | idle | exporting | importFirst | importSecond | lookup
  deriving DecidableEq, Repr

/-- A tenant's archive job and its registers (R158-R163). -/
structure ArcJob where
  phase : ArcPhase := .idle
  err : Nat := 0
  oxum : Bool := false
  abort : Bool := false
  objects : Nat := 0
  failed : Nat := 0
  bytes : Nat := 0
  /-- Export: object IDs still to write, in key order; the starting cue. -/
  todo : List Nat := []
  start : Nat := 0
  kvNs : Nat := 0
  bagNs : Nat := 0
  /-- Provenance record found by the last PROVENANCE. -/
  prov : Bytes := []
  deriving DecidableEq, Repr

/-- What a commit changed, as it was before: kept until the commit is on media, for a harbour that does not hold it (R183, R189, R446). -/
structure UndoRec where
  seq : Nat
  jseq : Nat
  nsid : Nat
  ns : Namespace
  map : Tab MapEntry
  fine : Tab (List FineEntry)
  wings : Tab WingSlot
  runs : Tab Nat
  quota : Tab (Nat × Nat)
  flashCharged : Nat
  platCharged : Nat
  /-- The latest commit cue before it. -/
  latest : Nat
  deriving DecidableEq, Repr

/-- What a checkpoint saves beside the map (R155, R356, R471): the Call Board, the private areas, the tenants' logs. -/
structure SavedLogs where
  board : List ResultEntry := []
  boardNext : Nat := 0
  slotGen : Tab Nat := []
  privates : Tab PrivateArea := []
  logs : Tab TenantLog := []
  deriving DecidableEq, Repr

/-- Namespaces, the Call Board, private results, archive jobs. -/
structure ObjState where
  ns : Tab Namespace := []
  /-- PERSISTENT: object counters of namespaces by number, so that IDs are never reused (R143). -/
  counters : Tab Nat := []
  /-- The Call Board's entries, oldest first, and the next board sequence number (R155). -/
  board : List ResultEntry := []
  boardNext : Nat := 0
  /-- Generations of the board's slots. -/
  slotGen : Tab Nat := []
  cursor : Nat := 0
  tenantCursor : Tab Nat := []
  privates : Tab PrivateArea := []
  jobs : Tab ArcJob := []
  /-- PERSISTENT: commits not yet on media, in commit order. -/
  undo : List UndoRec := []
  /-- PERSISTENT: what the newest valid checkpoint saved. -/
  saved : SavedLogs := {}
  deriving DecidableEq, Repr

end Sys2Proof.Machine
end

