-- ==== Sys2Proof/Machine/State/Output.lean ====
section
/-! DEFINITION. What the block sends out: completions, interrupts, protocol answers, pin levels. Newest first in the state. -/
namespace Sys2Proof.Machine

/-- The AER errors that R102 reports. -/
inductive AerError where
  | malformed | unsupported | poisoned | completionTimeout | unexpectedCompletion | ideCheck
  deriving DecidableEq, Repr

/-- What an SPDM request is answered with (R418-R420). -/
inductive SpdmReply where
  | version | capabilities | digests | certificate | challengeAuth
  | measurements (blocks : List (Nat × Bytes)) (signed : Bool)
  | keyExchange | finish | endSession | setCertificate
  | error (code : Nat)
  deriving DecidableEq, Repr

/-- One thing the block sends to its surroundings. -/
inductive Output where
  /-- A completion queue entry (R122): its controller, submission queue, CID, status, DW0 and DW1. -/
  | completion (ctrl sq cid : Nat) (st : Status) (dw0 dw1 : Nat)
  /-- Data returned to the host for a command. -/
  | data (ctrl cid : Nat) (bytes : Bytes)
  /-- An MSI-X message: port, function, vector. -/
  | msix (port fn vector : Nat)
  /-- An Unsupported Request completion, and AER reports, by port and function. -/
  | unsupportedRequest (port fn : Nat)
  | aer (port fn : Nat) (e : AerError)
  /-- Read completion data to a PCIe requester. -/
  | readCompletion (port fn value : Nat)
  /-- NVMe/TCP: ICResp, R2T (offset, length), C2HTermReq with its FES, closure. -/
  | icResp (conn : Nat)
  | r2t (conn rid off len : Nat)
  | termReq (conn fes : Nat)
  | closed (conn : Nat)
  /-- TLS alerts and KeyUpdate. -/
  | tlsAlert (conn : Nat) (code : Nat)
  | tlsEstablished (conn : Nat)
  | tlsKeyUpdate (conn : Nat)
  /-- Fabrics Connect and Disconnect responses. -/
  | connectResp (rdma : Bool) (conn : Nat) (st : Status)
  | disconnectResp (rdma : Bool) (conn : Nat)
  /-- RDMA: a Read, a Remote Access Error NAK, an RNR NAK, a closed queue pair, a CNP, by queue pair. -/
  | rdmaRead (qp rid off len : Nat)
  | rdmaNakAccess (qp : Nat)
  | rdmaNakRnr (qp : Nat)
  | qpClosed (qp : Nat)
  | cnp (qp : Nat)
  /-- PCIe memory read for host data. -/
  | memRead (rid off len : Nat)
  /-- PFC XOFF and XON for a priority of a logical port. -/
  | xoff (port prio : Nat)
  | xon (port prio : Nat)
  /-- DOE: an answer, or the error flag, by port. -/
  | doeAnswer (port : Nat)
  | doeError (port : Nat)
  /-- NVMe-MI: a response, or an error response Invalid Parameter. -/
  | miResponse (value : Nat)
  | miInvalidParameter
  | miBasic
  /-- An SPDM response to a requester (R418). -/
  | spdm (req : Requester) (r : SpdmReply)
  /-- A Ground transaction is acted on, or answered with an error to its originating unit: source, destination, sequence (R17-R20). -/
  | groundDone (src dst seq : Nat)
  | groundError (src dst seq : Nat)
  /-- A DRAM read's data with the words that are poisoned, and a merge's refusal, to a unit (R434, R437). -/
  | dramData (unit addr : Nat) (line : Bytes) (poisoned : List Nat)
  | dramError (unit addr : Nat)
  /-- What the Trapdoor shifts out of its selected data register (R421). -/
  | tdOut (code value : Nat)
  /-- A motor-link command frame (R275). -/
  | linkFrame (word : Nat)
  deriving DecidableEq, Repr

end Sys2Proof.Machine
end

