-- ==== Sys2Proof/Machine/State/Pricking.lean ====
section
/-! DEFINITION. The Pricking loader's state and the configuration in effect (02_pricking.md, R27-R47). -/
namespace Sys2Proof.Machine

/-- A configuration: for each region ID its VERSION and its records, and the SERIAL it came with.
Records are keyed TYPE * 65,536 + INSTANCE and hold their body bytes (R31, R32). -/
structure PrkConfig where
  serial : Nat := 0
  versions : Tab Nat := []
  recs : Tab Bytes := []
  deriving DecidableEq, Repr

/-- The loader's commands (PRK_CTRL.CMD). -/
inductive PrkCmd where
  | verify | apply | store
  deriving DecidableEq, Repr

/-- The loader's STATE (PRK_STATUS [3:0]). -/
inductive PrkPhase where
  | idle | fetching | checking | draining | waiting | storing
  deriving DecidableEq, Repr

/-- One owner key of the Safety Curtain's owner store (R35, R417): the digests of its two public keys, and its flags. -/
structure OwnerKey where
  ml : Nat
  ec : Nat
  enabled : Bool
  waiver : Bool
  deriving DecidableEq, Repr

/-- The loader and the configuration in effect. -/
structure PrkState where
  /-- The configuration in effect; none before a start-up image is applied, or with PRK_BOOT.NONE (R38). -/
  active : Option PrkConfig := none
  /-- Regions sealed in this power cycle (R13). -/
  sealedRegions : List Nat := []
  phase : PrkPhase := .idle
  err : Nat := 0
  late : Bool := false
  passed : Bool := false
  doneBeforeAbort : Bool := false
  errLoc : Nat := 0
  errInst : Nat := 0
  touch : Nat := 0
  appliedCue : Nat := 0
  /-- The apply cue in effect: what was written, raised to the write time plus the horizon (R41). -/
  applyCue : Nat := 0
  /-- The command in progress, the configuration it would bring, the regions its image carries. -/
  cmd : Option PrkCmd := none
  pendingCfg : Option PrkConfig := none
  pendingRegions : List Nat := []
  pendingTouch : Nat := 0
  /-- Units in Intermission for the load, and those of them not yet drained (R41). -/
  intermission : List Nat := []
  undrained : List Nat := []
  /-- Wall time at which Intermission began (R42). -/
  drainStart : Nat := 0
  /-- The image buffer behind the aperture, by 32-bit word (R45). -/
  aperture : Tab W32 := []
  /-- The image of a STORE in progress (R44). -/
  storeImage : Option PrkImage := none
  storeSerial : Nat := 0
  bootNone : Bool := false
  bootFallback : Bool := false
  /-- The last command accepted took effect (PRK_STATUS.DONE_BEFORE_ABORT). -/
  took : Bool := false
  /-- The geometry that check 0x12 and check 0x11 use (R170): what start-up computed. -/
  media : MediaFacts := { flashUnits := 0, platUnits := 0, stripeBlocks := 0, bands := 0 }
  /-- PERSISTENT: the FLASH_GROUP, SURFACE and ZONE records last in effect, which the headers of formatted media agree with (check 0x18). -/
  lastRecs : Tab Bytes := []
  /-- PERSISTENT: the boot flash's two Pricking slots (none: no valid image) and the active-slot pointer (R38, R44). -/
  slot0 : Option PrkImage := none
  slot1 : Option PrkImage := none
  activeSlot : Nat := 0
  /-- PERSISTENT, held by the Safety Curtain: the rollback floor and the owner store (R35, R36, R417). -/
  floor : Nat := 0
  ownerStore : Tab OwnerKey := []
  deriving DecidableEq, Repr

end Sys2Proof.Machine
end

