-- ==== Sys2Proof/Machine/State/Stage.lean ====
section
/-! DEFINITION. The Stage Manager and the Bobbins (11_stage_manager.md, R286-R307; 12_bobbins_programs.md, R308-R335). -/
namespace Sys2Proof.Machine

/-- Where a task stands (R290-R298). -/
inductive TaskPhase where
  /-- Its dependence counter is not zero. -/
  | waiting
  /-- On its ready list. -/
  | ready
  /-- On its delay list, or waiting for an entry of a full one. -/
  | delayed
  | delayWait
  /-- A TIMED task whose post was refused NO_SLOT. -/
  | retry
  /-- A TIMED task's cue is armed in this slot. -/
  | posted (slot : Nat)
  /-- On a place of its unit; of unit 2, in the queue of this logical Bobbin. -/
  | running (place : Nat)
  /-- Saved before or at the end of a sealed window (R301). -/
  | saved
  deriving DecidableEq, Repr

/-- A task (R287). -/
structure Task where
  unit : Nat
  list : Nat
  dep : Nat
  release : Bool := false
  last : Bool := false
  affine : Bool := false
  delay : Bool := false
  timed : Bool := false
  tag : Nat
  cls : Nat
  dlist : Nat := 0
  seq : Nat := 0
  /-- The scene number of SCENE; none for work that belongs to no scene. -/
  scene : Option Nat
  /-- Handles of its live successors. -/
  succs : List Nat := []
  due : Nat := 0
  job : Nat := 0
  route : Nat := 0
  rep : Nat := 0
  flow : Option Nat := none
  /-- The status of its first failed predecessor (R291); zero for none. -/
  failed : Nat := 0
  /-- Its scene was rolled back while it ran: its completion is discarded (R292). -/
  stopping : Bool := false
  phase : TaskPhase := .waiting
  deriving DecidableEq, Repr

/-- An open ordered flow (R296). -/
structure Flow where
  next : Nat
  tag : Nat
  /-- The Bobbin that last took an AFFINE task of the flow (R295). -/
  bob : Option Nat := none
  /-- Void releases that wait for their turn: sequence and LAST (R292). -/
  voids : List (Nat × Bool) := []
  deriving DecidableEq, Repr

/-- A submission ring (R288, R306): what of it is not a plain register. -/
structure Ring where
  head : Nat := 0
  tail : Nat := 0
  stall : Nat := 0
  deriving DecidableEq, Repr

/-- A sealed window of an engine (R301): its number, its owner, its start and end, the slot of its start cue. -/
structure SealWin where
  k : Nat
  tag : Nat
  start : Nat
  stop : Nat
  open' : Bool
  deriving DecidableEq, Repr

/-- The Stage Manager. -/
structure SmgState where
  /-- Tasks by table index; generations of indexes freed so far (R286). -/
  tasks : Tab Task := []
  gens : Tab Nat := []
  /-- Ready tasks of each ready list, in the order in which they became ready (R293). -/
  queues : Tab (List Nat) := []
  /-- The list that took the last turn, by unit * 256 + priority (R293). -/
  turns : Tab Nat := []
  /-- Delay lists: due beat and task, sorted; tasks that wait for an entry, in arrival order (R297). -/
  delays : Tab (List (Nat × Nat)) := []
  delayWaits : Tab (List Nat) := []
  /-- TIMED tasks to post again at the next beat boundary (R298). -/
  retries : List Nat := []
  flows : Tab Flow := []
  rings : Tab Ring := []
  /-- The last window and the next one of each engine: 0 Scrim, 1 Smock, 2 Tally, 3 ASU (R300, R301). -/
  now : Tab SealWin := []
  next : Tab SealWin := []
  /-- The first failed task of a scene: its unit and its status (R523). -/
  fails : Tab (Nat × Nat) := []
  deriving DecidableEq, Repr

/-- A physical core (R309-R311): 0 mapped, 1 Understudy, 2 retired, 3 failed at Rehearsal. -/
structure Core where
  role : Nat := 1
  cause : Nat := 0
  corrected : List Nat := []
  deriving DecidableEq, Repr

/-- A retirement in progress (R311). -/
structure Retiring where
  logical : Nat
  cause : Nat
  /-- The handle of the task that may still run on. -/
  run : Option Nat
  /-- Loading the Understudy: its core; none while the running task may still run on. -/
  loading : Option Nat
  deriving DecidableEq, Repr

/-- A program image (R314, R315): what its header says; its number tells images apart. -/
structure ProgImage where
  id : Nat
  ty : Nat
  slots : Nat
  recMode : Nat
  delim : Nat
  recLen : Nat
  stateLen : Nat
  outMax : Nat
  deriving DecidableEq, Repr

/-- A program index of a tenant (R315). -/
structure Program where
  staged : Option ProgImage := none
  active : Option ProgImage := none
  /-- The pieces of a load so far. -/
  loaded : Bytes := []
  deriving DecidableEq, Repr

/-- What an invocation covers (R320, R321): its place in the command's order, chunk, offset and length in the source, record
number. -/
structure InvPlan where
  chunk : Nat
  off : Nat
  len : Nat
  record : Nat
  final : Bool
  deriving DecidableEq, Repr

/-- An Execute Program in progress (R320-R326), by scene. -/
structure Exec where
  image : ProgImage
  /-- The invocation block's parameters (R324). -/
  param : Bytes
  setId : Nat
  objectId : Nat
  /-- The invocations planned, and how many have been submitted. -/
  plan : List InvPlan
  submitted : Nat
  /-- Results that wait for their turn, by place in the order. -/
  outs : Tab Bytes
  /-- The next result to deliver; what has been delivered. -/
  nextOut : Nat
  output : Bytes
  kept : Nat
  /-- Reduce: the state that the last completed invocation left. -/
  state : Bytes
  /-- Filter: the place of the record that returned 2. -/
  stopAt : Option Nat
  finished : Bool
  deriving DecidableEq, Repr

/-- One invocation, by task handle. -/
structure Inv where
  scene : Nat
  ix : Nat
  plan : InvPlan
  restarted : Bool := false
  events : Nat := 0
  /-- The cue of its dispatch. -/
  cue : Nat := 0
  /-- What its last helper returned: register 0, and bytes written to its regions. -/
  result : Int := 0
  bytes : Bytes := []
  /-- Helper charges so far (R332). -/
  charge : Nat := 0
  deriving DecidableEq, Repr

/-- The Bobbins. -/
structure BobState where
  cores : Tab Core := []
  /-- Logical Bobbins in service: their physical cores (R309). -/
  map : Tab Nat := []
  /-- Tasks each logical Bobbin holds, in the order it received them (R293). -/
  queues : Tab (List Nat) := []
  retiring : Option Retiring := none
  /-- Bobbins whose retirement waits for the one in progress: logical number and cause. -/
  retireNext : List (Nat × Nat) := []
  retireErr : Nat := 0
  retireState : Nat := 0
  /-- User-program Bobbins moved to data-path work (R311). -/
  moved : List Nat := []
  /-- Program indexes: tag * 64 + index. Verification waits on the scenes of Load Program. -/
  progs : Tab Program := []
  nextImage : Nat := 0
  /-- TW_PRG_REJECT by tenant. -/
  rejects : Tab Nat := []
  /-- Memory range sets: tag * 65,536 + set, ranges of offset and length in SLM (R331). -/
  sets : Tab (List (Nat × Nat)) := []
  /-- Digests in progress in 512-byte contexts (helper 6): tag * 2^64 + context; algorithm and the bytes so far. -/
  parts : Tab (Nat × Bytes) := []
  execs : Tab Exec := []
  invs : Tab Inv := []
  deriving DecidableEq, Repr

end Sys2Proof.Machine
end

