-- ==== Sys2Proof/Machine/State/Scenes.lean ====
section
/-! DEFINITION. Scenes, queues, features and activation (05_command_execution.md, R106-R139). -/
namespace Sys2Proof.Machine

/-- What an Execute Program asks for (R324): its index, range set and host buffer length, the image it binds at its fetch (R316), and
the invocation block. SRC_KIND 3 stands for a source that has been read. -/
structure ExecReq where
  pidx : Nat
  setId : Nat
  hostLen : Nat
  budget : Nat
  image : ProgImage
  srcKind : Nat
  dstKind : Nat
  nsid : Nat
  key : Bytes
  slba : Nat
  nlb : Nat
  srcOff : Nat
  srcLen : Nat
  dstOff : Nat
  dstCap : Nat
  param : Bytes
  deriving DecidableEq, Repr

/-- The work of a scene: the commands that do not retire in the cycle of their fetch, and `admin` for all that do. -/
inductive SceneKind where
  | nvmRead (slba nlb : Nat) (keyTag : Option Nat)
  | nvmWrite (slba nlb : Nat) (fua : Bool) (keyTag : Option Nat)
  | compare (slba nlb : Nat)
  | writeZeroes (slba nlb : Nat)
  | writeUncorrectable (slba nlb : Nat)
  | deallocate (ranges : List (Nat × Nat))
  | verify (slba nlb : Nat)
  | copy (dst : Nat) (ranges : List (Nat × Nat))
  | kvStore (key : Bytes) (len : Nat) (opts : KvOpts)
  | kvRetrieve (key : Bytes) (bufLen : Nat)
  | kvDelete (key : Bytes)
  | kvExist (key : Bytes)
  | kvList (key : Bytes) (bufLen : Nat)
  | execute (x : ExecReq)
  | memRead (off len : Nat)
  | memWrite (off len : Nat)
  | memCopy (c : MemCopy)
  | flush (nsids : List Nat)
  | fence (scope : Nat)
  | format (nsids : List Nat) (lbaf ses : Nat)
  | nsDelete (nsids : List Nat)
  /-- A creation that waits for random bits (R399). -/
  | nsCreate
  | deleteSq (qid : Nat)
  | abort (sqid target since : Nat)
  | selfTest (code : Nat)
  | loadProgram (pidx : Nat)
  | fwCommit (slot : Nat)
  /-- An Asynchronous Event Request, outstanding until an event answers it (R460). -/
  | aer
  | admin
  deriving DecidableEq, Repr

/-- A reservation of media space (R147): tier 0 flash, 1 platters; its run of units and its bytes against the quota. -/
structure Reserve where
  tier : Nat
  first : Nat
  units : Nat
  bytes : Nat
  spilled : Bool
  deriving DecidableEq, Repr

/-- One scene (R111, R112). Its number in the Scene table is its place in the fetch order (R120). -/
structure Scene where
  ctrl : Nat
  sq : Nat
  cid : Nat
  nsid : Nat
  tag : Nat
  opcode : Nat
  kind : SceneKind
  fetched : Nat
  retired : Bool
  rolledBack : Bool
  /-- Bytes the host has still to deliver, and the data staged or read so far. -/
  need : Nat
  data : Bytes
  /-- Bytes asked of the host so far; bytes held in the tenant's transfer area (R99). -/
  asked : Nat
  staged : Nat
  /-- Read points taken (R116). -/
  points : Nat
  /-- A read point or the commit gate has been asked for and is held (R115, R120, R134). -/
  wantPoint : Bool
  wantCommit : Bool
  /-- Scenes this one waits for: the fence set (R120), the commands before a format (R115). -/
  waits : List Nat
  /-- Wings writes that must be on media before the completion is posted: FUA and Flush (R125, R126). -/
  media : List Nat
  st : Status
  dw0 : Nat
  dw1 : Nat
  commitCue : Nat
  /-- The posting boundary of a sealed tenant's completion that is ready (R410). -/
  boundary : Option Nat
  reserve : Option Reserve
  /-- The version a KV read takes its data from (R116, R143). -/
  version : Option Nat
  /-- Not yet decided at its gate although the queue is gone: no completion is posted (R96, R129). -/
  noPost : Bool
  /-- Its queue was strict when it was fetched (R118). -/
  strict : Bool := false
  deriving DecidableEq, Repr

/-- The Gloex Error page's fields (R136). -/
structure GloexPage where
  cid : Nat := 0
  status : Nat := 0
  heldCount : Nat := 0
  cue : Nat := 0
  nsid : Nat := 0
  opcode : Nat := 0
  start : Nat := 0
  count : Nat := 0
  deriving DecidableEq, Repr

/-- An entry of the Commit Cue log (R124). -/
structure CommitEntry where
  cid : Nat
  opcode : Nat
  flags : Nat
  cue : Nat
  deriving DecidableEq, Repr

/-- Who waits for a queue's deletion: a Delete I/O SQ's scene, or a Disconnect (R96). -/
inductive Deleter where
  | scene (o : Nat)
  | disconnect (rdma : Bool) (conn : Nat)
  deriving DecidableEq, Repr

/-- A submission queue, keyed controller * 65,536 + queue ID; queue 0 is the admin queue. -/
structure SubQueue where
  size : Nat
  cqid : Nat
  prio : Nat := 0
  tail : Nat := 0
  head : Nat := 0
  strict : Bool := false
  deleting : Option Deleter := none
  frozen : Bool := false
  logRead : Bool := false
  freezes : Nat := 0
  page : GloexPage := {}
  /-- Retired commands so far, and the last 256 of them, oldest first. -/
  retired : Nat := 0
  log : List CommitEntry := []
  deriving DecidableEq, Repr

/-- A completion queue. -/
structure CompQueue where
  size : Nat
  vector : Nat
  head : Nat := 0
  tail : Nat := 0
  deriving DecidableEq, Repr

/-- An entry of the Reset Outcome page (R130). -/
structure ResetEntry where
  sq : Nat
  cid : Nat
  status : Nat
  flags : Nat
  cue : Nat
  deriving DecidableEq, Repr

/-- An entry of the Error Information log (R132). -/
structure ErrorEntry where
  sq : Nat
  cid : Nat
  status : Nat
  nsid : Nat
  deriving DecidableEq, Repr

/-- A self-test in progress (R137). -/
structure SelfTest where
  code : Nat
  nsids : List Nat
  deriving DecidableEq, Repr

/-- What the command side keeps of a controller: features (R109), logs (R110), its self-test (R137). -/
structure CtrlSide where
  wce : Bool := true
  /-- CDW11 of each feature as last set, by FID. -/
  features : Tab Nat := []
  /-- Data of the features that carry data (Timestamp, Host Identifier, Host Behavior Support). -/
  featureData : Tab Bytes := []
  /-- Cue of the last Timestamp Set. -/
  stampSet : Nat := 0
  stepUs : Nat := 500
  selfTest : Option SelfTest := none
  /-- Results of self-tests, newest first: code and result. -/
  testResults : List (Nat × Nat) := []
  resetCue : Nat := 0
  resetLog : List ResetEntry := []
  /-- Scenes of a reset not yet decided (R129). -/
  resetOpen : List Nat := []
  errors : List ErrorEntry := []
  errorCount : Nat := 0
  changedNs : List Nat := []
  /-- Counters of the SMART page: reads, writes, data units read and written. -/
  reads : Nat := 0
  writes : Nat := 0
  deriving DecidableEq, Repr

/-- A live firmware activation (R131). -/
structure Activation where
  /-- The Firmware Commit's scene; none for one tunnelled over NVMe-MI. -/
  scene : Option Nat
  slot : Nat
  start : Nat
  deriving DecidableEq, Repr

/-- Scenes, queues and what the commands keep. -/
structure ScnState where
  /-- Scenes open, by place in the fetch order. -/
  scenes : Tab Scene := []
  nextOrder : Nat := 0
  sqs : Tab SubQueue := []
  cqs : Tab CompQueue := []
  ctl : Tab CtrlSide := []
  /-- Latest commit cue of the device and of each tenant. -/
  latest : Nat := 0
  tenantLatest : Tab Nat := []
  /-- Fences fetched and retired by each tenant, wrapping at 32 bits (R139). -/
  fences : Tab (Nat × Nat) := []
  /-- Tenants whose fetch the Stage Manager's back-pressure stops (R25, R100). -/
  pressed : List Nat := []
  act : Option Activation := none
  /-- The last activation exceeded MTFA (HFE_FETCH_STATUS [5]), and its pause in microseconds (HFE_ACT_TIME). -/
  abandoned : Bool := false
  actMicros : Nat := 0
  /-- A firmware image being downloaded: bytes so far and what its last piece said. -/
  download : Option FwImage := none
  downloadLen : Nat := 0
  /-- NVMe-MI requests held during an activation, and the response NVMe-MI Receive returns. -/
  miHeld : List MiMsg := []
  miReply : Option Output := none
  deriving DecidableEq, Repr

end Sys2Proof.Machine
end

