-- ==== Sys2Proof/Machine/State.lean ====
section
/-! DEFINITION. The state of the block, the reasons a step can stop, and the state at reset. -/
namespace Sys2Proof.Machine

/-- Why the machine stops with a fault. -/
inductive Fault where
  /-- Raised by a DRAM command that names an address outside the device addresses R451 defines. Safe: the machine stops. -/
  | outsideDram (addr : Nat)
  deriving DecidableEq, Repr

/-- Why a command has no meaning here. -/
inductive Refusal where
  /-- Raised by an arm of `exec` whose command has no meaning yet. Safe: the machine stops. -/
  | notModelled (mnemonic : String)
  deriving DecidableEq, Repr

/-- The block: the queue of waiting commands, and every piece of state the spec gives the device, by unit. -/
structure State where
  /-- Commands waiting, first in, first out. -/
  pending : List Instr
  /-- CK_CUE cycles (ns) since PERST_N release. -/
  wall : Nat
  /-- How many free values have been taken (the model's own field). -/
  free : Nat
  /-- What the block has sent, newest first. -/
  out : List Output
  bus : BusState
  evt : EvtState
  prk : PrkState
  clk : ClkState
  cue : CueState
  dev : DevState
  pwr : PwrState
  hfe : HfeState
  scn : ScnState
  obj : ObjState
  trl : TrlState
  flc : FlcState
  rch : RchState
  hop : HopState
  smg : SmgState
  bob : BobState
  dmc : DmcState
  tly : TlyState
  asu : AsuState
  scr : ScrState
  saf : SafState
  /-- DRAM by device address; an unlisted byte reads as zero. -/
  dram : List Host.Cell
  /-- Subsystem Local Memory: a tenant's bytes from tag * 2^40; an unlisted byte reads as zero (R331). -/
  slm : List Host.Cell
  deriving DecidableEq, Repr

/-- The state at reset: the device held in Dark, PERST_N low, every register at its reset value, nothing queued. -/
def State.reset : State where
  pending := []
  wall := 0
  free := 0
  out := []
  bus := {}
  evt := {}
  prk := {}
  clk := {}
  cue := {}
  dev := {}
  pwr := {}
  hfe := {}
  scn := {}
  obj := {}
  trl := {}
  flc := {}
  rch := {}
  hop := {}
  smg := {}
  bob := {}
  dmc := {}
  tly := {}
  asu := {}
  scr := {}
  saf := {}
  dram := []
  slm := []

end Sys2Proof.Machine
end

