-- ==== Sys2Proof/Machine/Cfg.lean ====
section
/-! DEFINITION. The records of a configuration, read field by field as R32 lays them out. -/
namespace Sys2Proof.Machine

/-- The key of a record: its TYPE and INSTANCE (R31). -/
def recKey (ty ix : Nat) : Nat := ty * 65536 + ix

/-- A record's body in a configuration. -/
def PrkConfig.body (c : PrkConfig) (ty ix : Nat) : Option Bytes := Tab.find c.recs (recKey ty ix)

/-- The instances of one record type, with their bodies. -/
def PrkConfig.ofType (c : PrkConfig) (ty : Nat) : Tab Bytes :=
  (c.recs.filter (fun p => p.1 / 65536 == ty)).map (fun p => (p.1 % 65536, p.2))

/-- A TENANT record (0x0201). -/
structure TenantRec where
  flags : Nat
  flashQuota : Nat
  platQuota : Nat
  wingsKib : Nat
  stagingKib : Nat
  slmMib : Nat
  deriving DecidableEq, Repr

/-- The fields of a TENANT body. -/
def tenantOf (b : Bytes) : TenantRec :=
  { flags := leAt b 0 4, flashQuota := leAt b 4 8, platQuota := leAt b 12 8, wingsKib := leAt b 20 4,
    stagingKib := leAt b 24 4, slmMib := leAt b 28 4 }

/-- A CONTROLLER record (0x0302). -/
structure ControllerRec where
  tag : Nat
  transport : Nat
  gloex : Bool
  ioQueues : Nat
  queueEntries : Nat
  vectors : Nat
  fn : Nat
  deriving DecidableEq, Repr

/-- The fields of a CONTROLLER body. -/
def controllerOf (b : Bytes) : ControllerRec :=
  { tag := leAt b 0 2, transport := leAt b 2 1, gloex := leAt b 3 1 == 1, ioQueues := leAt b 4 2,
    queueEntries := leAt b 6 2, vectors := leAt b 8 2, fn := leAt b 10 2 }

/-- A ROUTE record (0x0101): its source unit, class, sealed-only flag and hops (unit, lane). -/
structure RouteRec where
  source : Nat
  cls : Nat
  sealedOnly : Bool
  hops : List (Nat × Nat)
  deriving DecidableEq, Repr

/-- The fields of a ROUTE body. -/
def routeOf (b : Bytes) : RouteRec :=
  { source := leAt b 0 1, cls := leAt b 2 1, sealedOnly := (leAt b 3 1).testBit 0,
    hops := (List.range (leAt b 1 1)).map (fun i => (leAt b (4 + 2 * i) 1, leAt b (5 + 2 * i) 1)) }

/-- An EVENT_ROUTE record (0x0E01), or the route of a source without one (R458). -/
structure EventRoute where
  targets : Nat
  owner : Nat
  severity : Nat
  deriving DecidableEq, Repr

/-- The fields of an EVENT_ROUTE body. -/
def eventRouteOf (b : Bytes) : EventRoute :=
  { targets := leAt b 0 1, owner := leAt b 1 2, severity := leAt b 3 1 }

/-- The default route of R458: Prompters and Sampler, owner 0x000, severity 1. -/
def defaultRoute : EventRoute := { targets := 3, owner := 0, severity := 1 }

/-- A KEY_PARTITION record (0x0701). -/
structure KeyPartition where
  first : Nat
  count : Nat
  modes : Nat
  perIo : Bool
  deriving DecidableEq, Repr

/-- The fields of a KEY_PARTITION body. -/
def keyPartitionOf (b : Bytes) : KeyPartition :=
  { first := leAt b 0 2, count := leAt b 2 2, modes := leAt b 4 1, perIo := leAt b 5 1 != 0 }

/-- A PROGRAM_LIMITS record (0x0502). -/
structure ProgramLimits where
  slots : Nat
  budget : Nat
  programs : Nat
  deriving DecidableEq, Repr

/-- The fields of a PROGRAM_LIMITS body. -/
def programLimitsOf (b : Bytes) : ProgramLimits :=
  { slots := leAt b 0 4, budget := leAt b 4 4, programs := leAt b 8 2 }

/-- A BOBBIN_SET record (0x0501). -/
structure BobbinSet where
  mask : Nat
  owner : Nat
  userPrograms : Bool
  deriving DecidableEq, Repr

/-- The fields of a BOBBIN_SET body. -/
def bobbinSetOf (b : Bytes) : BobbinSet :=
  { mask := leAt b 0 16, owner := leAt b 16 2, userPrograms := leAt b 18 1 == 1 }

/-- An ASU_TABLE record (0x0601). -/
structure AsuTableRec where
  first : Nat
  banks : Nat
  owner : Nat
  limit : Nat
  deriving DecidableEq, Repr

/-- The fields of an ASU_TABLE body. -/
def asuTableOf (b : Bytes) : AsuTableRec :=
  { first := leAt b 0 1, banks := leAt b 1 1, owner := leAt b 2 2, limit := leAt b 4 4 }

/-- A READY_LIST record (0x0401). -/
structure ReadyListRec where
  priority : Nat
  classes : Nat
  affinity : Nat
  deriving DecidableEq, Repr

/-- The fields of a READY_LIST body. -/
def readyListOf (b : Bytes) : ReadyListRec :=
  { priority := leAt b 0 1, classes := leAt b 1 1, affinity := leAt b 2 2 }

/-- A FLASH_GROUP record (0x0A01). -/
structure FlashGroupRec where
  channels : Nat
  chipEnables : Nat
  lunsPerTarget : Nat
  codeRate : Nat
  readRefresh : Nat
  deriving DecidableEq, Repr

/-- The fields of a FLASH_GROUP body. -/
def flashGroupOf (b : Bytes) : FlashGroupRec :=
  { channels := leAt b 0 1, chipEnables := leAt b 1 1, lunsPerTarget := leAt b 2 1, codeRate := leAt b 3 1,
    readRefresh := leAt b 4 4 }

/-- A SURFACE record (0x0B01). -/
structure SurfaceRec where
  actuator : Nat
  head : Nat
  role : Nat
  refresh : Nat
  deriving DecidableEq, Repr

/-- The fields of a SURFACE body. -/
def surfaceOf (b : Bytes) : SurfaceRec :=
  { actuator := leAt b 0 1, head := leAt b 1 1, role := leAt b 2 1, refresh := leAt b 4 4 }

/-- A ZONE record (0x0B02). -/
structure ZoneRec where
  firstTrack : Nat
  lastTrack : Nat
  rate : Nat
  sectors : Nat
  wedges : Nat
  deriving DecidableEq, Repr

/-- The fields of a ZONE body. -/
def zoneOf (b : Bytes) : ZoneRec :=
  { firstTrack := leAt b 0 4, lastTrack := leAt b 4 4, rate := leAt b 8 2, sectors := leAt b 10 2, wedges := leAt b 12 2 }

/-- A LOOP_SLOT record (0x0C01). -/
structure LoopSlotRec where
  kind : Nat
  order : Nat
  source : Nat
  shift : Nat
  outMin : Int
  outMax : Int
  rate : Nat
  maxStep : Nat
  bankA : List Int
  bankB : List Int
  deriving DecidableEq, Repr

/-- The fields of a LOOP_SLOT body; coefficients in the order b0-b3, a1-a3. -/
def loopSlotOf (b : Bytes) : LoopSlotRec :=
  { kind := leAt b 0 1, order := leAt b 1 1, source := leAt b 2 1, shift := leAt b 3 1,
    outMin := toSigned 16 (leAt b 4 2), outMax := toSigned 16 (leAt b 6 2),
    rate := leAt b 8 2, maxStep := leAt b 10 2,
    bankA := (List.range 7).map (fun i => toSigned 16 (leAt b (12 + 2 * i) 2)),
    bankB := (List.range 7).map (fun i => toSigned 16 (leAt b (26 + 2 * i) 2)) }

/-- The configuration in effect, empty where none is. -/
def State.cfg (s : State) : PrkConfig := s.prk.active.getD {}

/-- The TENANT record in effect of a tag. -/
def State.tenantRec (s : State) (tag : Nat) : Option TenantRec := (s.cfg.body 0x0201 tag).map tenantOf

/-- Is the tenant sealed (TENANT flags [0])? -/
def State.isSealed (s : State) (tag : Nat) : Bool :=
  match s.tenantRec tag with
  | some r => r.flags.testBit 0
  | none => false

/-- The tags the configuration in effect marks sealed, rising. -/
def State.sealedTags (s : State) : List Nat :=
  ((s.cfg.ofType 0x0201).filter (fun p => (tenantOf p.2).flags.testBit 0)).map (fun p => p.1)

/-- The CONTROLLER record in effect of a controller. -/
def State.controllerRec (s : State) (c : Nat) : Option ControllerRec := (s.cfg.body 0x0302 c).map controllerOf

/-- The route that a configuration gives an event source (R458). [DEDUCED: log entry 215] -/
def routeIn (c : PrkConfig) (src : Nat) : EventRoute :=
  match c.body 0x0E01 src with
  | some b => eventRouteOf b
  | none => defaultRoute

/-- The route of an event source (R458). -/
def State.eventRoute (s : State) (src : Nat) : EventRoute := routeIn s.cfg src

/-- The KEY_PARTITION record in effect of a tenant. -/
def State.keyPartition (s : State) (tag : Nat) : Option KeyPartition := (s.cfg.body 0x0701 tag).map keyPartitionOf

/-- The PROGRAM_LIMITS record in effect of a tenant. -/
def State.programLimits (s : State) (tag : Nat) : Option ProgramLimits := (s.cfg.body 0x0502 tag).map programLimitsOf

/-- SEAL_PLAN: quantum, slot period and the four engines' shares in 1/256 (R32, R409): Scrim, Smock, Tally, ASU. -/
def State.sealPlan (s : State) : Nat × Nat × List Nat :=
  match s.cfg.body 0x0202 0 with
  | some b => (leAt b 0 4, leAt b 4 4, [leAt b 8 1, leAt b 9 1, leAt b 10 1, leAt b 11 1])
  | none => (16000, 0, [0, 0, 0, 0])

/-- CLK_PLAN: DRAM speed, gate-allowed mask, PTP enable, PTM enable, maximum slew. -/
def State.clkPlan (s : State) : Nat × Nat × Bool × Bool × Nat :=
  match s.cfg.body 0x0001 0 with
  | some b => (leAt b 0 2, leAt b 2 4, leAt b 6 1 != 0, leAt b 7 1 != 0, leAt b 8 2)
  | none => (0, 0, false, false, 0)

/-- PORT: mode, maximum rate code and TotalVFs of an instance. -/
def State.portRec (s : State) (ix : Nat) : Nat × Nat × Nat :=
  match s.cfg.body 0x0301 ix with
  | some b => (leAt b 0 1, leAt b 1 1, leAt b 2 2)
  | none => (0, 0, 0)

/-- FABRIC: TCP connections, RDMA queue pairs, TLS required. -/
def State.fabricRec (s : State) : Nat × Nat × Bool :=
  match s.cfg.body 0x0303 0 with
  | some b => (leAt b 0 2, leAt b 2 2, (leAt b 4 2).testBit 0)
  | none => (0, 0, false)

/-- CALL_BOARD: entries and retention in days. -/
def State.callBoardRec (s : State) : Nat × Nat :=
  match s.cfg.body 0x0802 0 with
  | some b => (leAt b 0 4, leAt b 4 4)
  | none => (0, 0)

/-- TALLY_LANES: lanes reserved for maintenance and for sealed slots. -/
def State.tallyLanes (s : State) : Nat × Nat :=
  match s.cfg.body 0x0801 0 with
  | some b => (leAt b 0 1, leAt b 1 1)
  | none => (0, 0)

/-- SMOCK_LANES: compress and decompress lanes for maintenance, default level, maximum window log, raw-on-overflow. -/
def State.smockLanes (s : State) : Nat × Nat × Nat × Nat × Bool :=
  match s.cfg.body 0x0901 0 with
  | some b => (leAt b 0 1, leAt b 1 1, leAt b 2 1, leAt b 3 1, leAt b 4 1 != 0)
  | none => (0, 0, 0, 0, false)

/-- FLASH_POLICY: fine-map TB, foreground threshold in thousandths, harbour reserve in MiB, Filet width. -/
def State.flashPolicy (s : State) : Nat × Nat × Nat × Nat :=
  match s.cfg.body 0x0A02 0 with
  | some b => (leAt b 0 2, leAt b 2 2, leAt b 4 4, leAt b 8 1)
  | none => (0, 0, 0, 32)

/-- DRAM_MAP: channel mask, GiB per channel, interleave granule log2. -/
def State.dramMap (s : State) : Nat × Nat × Nat :=
  match s.cfg.body 0x0D01 0 with
  | some b => (leAt b 0 1, leAt b 1 1, leAt b 2 1)
  | none => (0, 0, 0)

/-- SCRUB: DRAM and SRAM full pass in hours. -/
def State.scrubRec (s : State) : Nat × Nat :=
  match s.cfg.body 0x0D02 0 with
  | some b => (leAt b 0 2, leAt b 2 2)
  | none => (24, 24)

/-- SAMPLER: the flash groups of copy 1 and copy 2. [DEDUCED: log entry 214] -/
def samplerIn (c : PrkConfig) : Nat × Nat :=
  match c.body 0x0E02 0 with
  | some b => (leAt b 0 1, leAt b 1 1)
  | none => (0, 1)

/-- The flash groups in use for copy 1 and copy 2: the old ones while a move runs (R468). [DEDUCED: log entry 214] -/
def State.samplerGroups (s : State) : Nat × Nat := s.evt.oldCopies.getD (samplerIn s.cfg)

/-- TRAPDOOR_POLICY: the policy and the digest of the challenge key. -/
def State.trapdoorPolicy (s : State) : Nat × Nat :=
  match s.cfg.body 0x0F02 0 with
  | some b => (leAt b 0 1, leAt b 4 48)
  | none => (0, 0)

/-- FLOW_POOL: ordered flows and the size of delay list `l`. -/
def State.flowPool (s : State) : Nat :=
  match s.cfg.body 0x0402 0 with
  | some b => leAt b 0 4
  | none => 0

/-- The configured entries of a delay list (FLOW_POOL). -/
def State.delaySize (s : State) (l : Nat) : Nat :=
  match s.cfg.body 0x0402 0 with
  | some b => if l < 8 then leAt b (4 + 4 * l) 4 else 0
  | none => 0

/-- A ROUTE record in effect. -/
def State.route (s : State) (r : Nat) : Option RouteRec := (s.cfg.body 0x0101 r).map routeOf

/-- A FLASH_GROUP record in effect. -/
def State.flashGroup (s : State) (g : Nat) : Option FlashGroupRec := (s.cfg.body 0x0A01 g).map flashGroupOf

/-- An ASU_TABLE record in effect. -/
def State.asuTable (s : State) (t : Nat) : Option AsuTableRec := (s.cfg.body 0x0601 t).map asuTableOf

/-- A LOOP_SLOT record in effect. -/
def State.loopSlot (s : State) (n : Nat) : Option LoopSlotRec := (s.cfg.body 0x0C01 n).map loopSlotOf

/-- A READY_LIST record in effect. -/
def State.readyList (s : State) (n : Nat) : Option ReadyListRec := (s.cfg.body 0x0401 n).map readyListOf

end Sys2Proof.Machine
end

