-- ==== Sys2Proof/Machine/Ops.lean ====
section
/-! DEFINITION. Operations every family shares: outputs, counters, raising an event (R457-R471). -/
namespace Sys2Proof.Machine

/-- One more thing sent. -/
def emit (o : Output) (s : State) : State := { s with out := o :: s.out }

/-- Several things sent, in order. -/
def emitAll (os : List Output) (s : State) : State := { s with out := os.reverse ++ s.out }

/-- The device is powered and out of reset. [DESIGN CHOICE: log entry 50] -/
def State.powered (s : State) : Bool := s.dev.phase != .dark

/-- Neither halted nor in the harbour sequence, which stops the host side and every engine (R186, R187). -/
def State.runs (s : State) : Bool := s.powered && !s.dev.halted && s.pwr.harbour.isNone

/-- The units work: in Curtain Down they are stopped (R416, R524). -/
def State.unitsRun (s : State) : Bool := s.runs && s.dev.phase != .curtainDown

/-- The key of a house register or of a tenant-window register in the stored registers. -/
def houseKey (off : Nat) : Nat := off

/-- The key of a register of tenant `tag`'s window. -/
def tenantKey (tag off : Nat) : Nat := 2 ^ 32 + tag * 65536 + off

/-- The key of one of several counts that a selector shows at one offset. -/
def selKey (key sel : Nat) : Nat := key + (sel + 1) * 2 ^ 48

/-- An RC counter counts up by `n`, saturating at 32 bits. [DESIGN CHOICE: log entry 14] -/
def countUp (key n : Nat) (s : State) : State :=
  { s with bus := { s.bus with rc := Tab.update s.bus.rc key 0 (fun v => min (v + n) (2 ^ 32 - 1)) } }

/-- One more on an RC counter. -/
def count1 (key : Nat) (s : State) : State := countUp key 1 s

/-- An RC register that keeps the lowest value seen since its last read. -/
def countLow (key reset v : Nat) (s : State) : State :=
  { s with bus := { s.bus with rc := Tab.update s.bus.rc key reset (fun o => min o v) } }

/-- An RC register that keeps the highest value seen since its last read. -/
def countHigh (key v : Nat) (s : State) : State :=
  { s with bus := { s.bus with rc := Tab.update s.bus.rc key 0 (fun o => max o v) } }

/-- An RW register as it reads: the value stored, or its reset value. -/
def State.reg (s : State) (key reset : Nat) : Nat :=
  match Tab.find s.bus.regs key with
  | some v => v.toNat
  | none => reset

/-- An RW register takes a value. -/
def setReg (key v : Nat) (s : State) : State :=
  { s with bus := { s.bus with regs := Tab.put s.bus.regs key (BitVec.ofNat 32 v) } }

/-- A 64-bit RW quantity in effect, by the key of its low word (R8). -/
def State.reg64 (s : State) (key : Nat) : Nat := s.reg key 0 + s.reg (key + 4) 0 * 2 ^ 32

/-- A 64-bit RW quantity takes a value. -/
def setReg64 (key v : Nat) (s : State) : State := setReg (key + 4) (v / 2 ^ 32) (setReg key (v % 2 ^ 32) s)

/-- A fresh free value: the next one, and the counter moved on. [DESIGN CHOICE: log entry 5] -/
def takeFree (s : State) : Nat × State := (s.free, { s with free := s.free + 1 })

/-- Operating seconds (R464). -/
def State.opSeconds (s : State) : Nat := s.evt.opSecBase + s.wall / 1000000000

/-- The tenant of a controller (R79, R82). -/
def State.ctrlTag (s : State) (c : Nat) : Option Nat := (Tab.find s.hfe.ctrls c).map (fun k => k.tag)

/-- A cue as a tenant sees it: rounded down to the quantum for a sealed tenant (R411). -/
def State.tenantCue (s : State) (tag cue : Nat) : Nat := if s.isSealed tag then cue / 16000 * 16000 else cue

/-! ### Events -/

/-- The security sources of R456. -/
def isSecurity (src : Nat) : Bool := decide (352 ≤ src ∧ src ≤ 383)

/-- Offset of EVT_SRC_COUNT in the house window. -/
def evtSrcCount : Nat := 0x0120000C

/-- Every raise counts on its source (R459), and, for EV000-EV063 other than EV030, on the violation counters (R103, R105). -/
def countRaise (src tag : Nat) (s : State) : State :=
  let s := count1 (selKey evtSrcCount src) s
  if src < 64 ∧ src ≠ 30 then
    count1 (selKey (tenantKey tag 0x3020) src) (count1 (selKey 0x00300034 src) s)
  else s

/-- GEN moves on: 0x01 to 0xFF and back to 0x01 (R470). -/
def nextGen (g : Nat) : Nat := if g = 0xFF then 1 else g + 1

/-- Records waiting in SRAM for a copy (R468): the pages of both copies, each once. -/
def EvtState.waiting (e : EvtState) : Nat :=
  (e.wait1.map (fun p => p.2)).sum + ((e.wait2.filter (fun p => !Tab.has e.wait1 p.1)).map (fun p => p.2)).sum

/-- The newest record of a source in the Running region, by slot (R465). -/
def EvtState.newestOf (e : EvtState) (src : Nat) : Option (Nat × EvRec) :=
  e.running.foldl (fun acc p =>
    if p.2.source = src then
      match acc with
      | none => some p
      | some q => if q.2.recno < p.2.recno then some p else some q
    else acc) none

/-- May the event merge into record `r` (R465)? -/
def mergeable (e : EvtState) (r : EvRec) (ev : RaisedEvent) (sev : Nat) : Bool :=
  !isSecurity ev.source && r.tenant == ev.tag && r.code == ev.code && r.arg0 == ev.arg0 && r.arg1 == ev.arg1
    && r.severity == sev && r.isOpen && r.routeAge == e.routeAge

/-- One more occurrence merged into a record (R465). -/
def mergeRec (ev : RaisedEvent) (r : EvRec) : EvRec :=
  { r with
    repeats := min (r.repeats + 1) 65535
    repeatSat := r.repeatSat || decide (r.repeats = 65535)
    lastCue := ev.cue
    gen := nextGen r.gen }

/-- A merge into a tenant's log: the log's record of the same Running record merges too (R471). -/
def mergeLog (recno : Nat) (ev : RaisedEvent) (l : TenantLog) : TenantLog :=
  { l with recs := l.recs.map (fun r => if r.recno = recno then mergeRec ev r else r) }

/-- A new record in a tenant's log, its newest 256 kept (R471). -/
def pushLog (r : EvRec) (l : TenantLog) : TenantLog :=
  { next := l.next + 1
    recs := (l.recs ++ [{ r with gen := nextGen (if l.recs.length < 256 then 0 else (l.recs.headD r).gen) }]).drop
      (l.recs.length + 1 - 256) }

/-- The sources whose records are pinned in the Footside reserve (R467). -/
def isPinned (src : Nat) : Bool := decide ((355 ≤ src ∧ src ≤ 363) ∨ src = 368)

/-- A page's part accepted so far is written: its records close and wait for both copies (R466, R468). -/
def closePage (page : Nat) (e : EvtState) : EvtState :=
  let opens := (e.running.filter (fun p => p.2.isOpen && p.2.recno / 64 == page)).length
  if opens = 0 then { e with pageTimer := Tab.del e.pageTimer page }
  else
    { e with
      running := Tab.mapVals e.running (fun _ r => if r.recno / 64 = page then { r with isOpen := false } else r)
      pageTimer := Tab.del e.pageTimer page
      wait1 := Tab.update e.wait1 page 0 (fun n => n + opens)
      wait2 := Tab.update e.wait2 page 0 (fun n => n + opens) }

/-- Every open page is written: at a checkpoint and in the harbour (R466). -/
def closeAllPages (e : EvtState) : EvtState := e.pageTimer.foldl (fun e p => closePage p.1 e) e

/-- A new record is accepted (R463-R467). -/
def acceptNew (ev : RaisedEvent) (sev opSec wall : Nat) (e : EvtState) : EvtState :=
  let sec := isSecurity ev.source
  let slot := e.next % 65536
  let oldGen := match Tab.find e.running slot with | some r => r.gen | none => 0
  let life := decide (e.next ≤ 15359)
  let pin := !life && isPinned ev.source && decide (e.reserveUsed < 1024)
  let r : EvRec :=
    { gen := nextGen oldGen, seqStamp := sec, footside := life || pin, pinned := pin, repeatSat := false,
      source := ev.source, tenant := ev.tag, severity := sev, repeats := 0, code := ev.code,
      stamp := if sec then ev.seq % 2 ^ 48 else opSec % 2 ^ 32 + e.powerCycles % 2 ^ 24 * 2 ^ 32,
      cue := if sec then 0 else ev.cue, lastCue := if sec then 0 else ev.cue,
      arg0 := ev.arg0, arg1 := ev.arg1, recno := e.next, isOpen := true, routeAge := e.routeAge }
  let page := e.next / 64
  let e1 : EvtState :=
    { e with
      running := Tab.put e.running slot r
      foot := if life then Tab.put e.foot e.next { r with gen := 1 }
              else if pin then Tab.put e.foot (15360 + e.reserveUsed) { r with gen := 1 } else e.foot
      reserveUsed := if pin then e.reserveUsed + 1 else e.reserveUsed
      pinFull := e.pinFull || (!life && isPinned ev.source && decide (1024 ≤ e.reserveUsed))
      next := e.next + 1
      pageTimer := if Tab.has e.pageTimer page then e.pageTimer else Tab.put e.pageTimer page wall
      logs := if sec then e.logs else Tab.update e.logs ev.tag {} (pushLog r) }
  if e.next % 64 = 63 then closePage page e1 else e1

/-- An event merges into the record in a slot, and into its Footside and log copies (R465). -/
def acceptMerge (slot : Nat) (r : EvRec) (ev : RaisedEvent) (e : EvtState) : EvtState :=
  { e with
    running := Tab.put e.running slot (mergeRec ev r)
    foot := if r.footside ∧ r.recno ≤ 15359 then Tab.modify e.foot r.recno (mergeRec ev) else e.foot
    logs := Tab.modify e.logs ev.tag (mergeLog r.recno ev) }

/-- The Sampler takes an event: merged, recorded, left waiting (security) or dropped (R462, R465, R468). -/
def acceptEvent (ev : RaisedEvent) (sev : Nat) (s : State) : State :=
  let e := s.evt
  let full := decide (4096 ≤ e.waiting)
  if isSecurity ev.source then
    if 4096 + 1024 ≤ e.waiting ∨ e.secWait ≠ [] then
      count1 0x01200018 { s with evt := { e with secWait := e.secWait ++ [ev] } }
    else { s with evt := acceptNew ev sev s.opSeconds s.wall e }
  else
    match e.newestOf ev.source with
    | some (slot, r) =>
      if mergeable e r ev sev then
        count1 0x01280028 { s with evt := acceptMerge slot r ev e }
      else if full then count1 0x01280024 s
      else { s with evt := acceptNew ev sev s.opSeconds s.wall e }
    | none =>
      if full then count1 0x01280024 s
      else { s with evt := acceptNew ev sev s.opSeconds s.wall e }

/-- Does a scene hold an Asynchronous Event Request of a controller that no event has answered yet? -/
def State.isOpenAer (s : State) (ctrl : Nat) (p : Nat × Scene) : Bool :=
  p.2.kind == .aer && p.2.ctrl == ctrl && !p.2.retired && !p.2.rolledBack && !Tab.has s.evt.aenDue p.1

/-- The oldest Asynchronous Event Request of a controller that no event has answered yet. -/
def State.openAer (s : State) (ctrl : Nat) : Option Nat := (s.scn.scenes.find? (s.isOpenAer ctrl)).map (fun p => p.1)

/-- The controllers of a tenant that hold an Asynchronous Event Request and no vendor event outstanding (R460), with the request. -/
def State.aenTargets (s : State) (tag : Nat) : List (Nat × Nat) :=
  s.hfe.ctrls.filterMap (fun p =>
    if s.ctrlTag p.1 = some tag ∧ ¬ s.evt.aenHeld.contains p.1 then (s.openAer p.1).map (fun o => (p.1, o)) else none)

/-- The posting boundary of what is fixed at a cue (R410): the first quantum boundary at least 1,024 ticks after it. -/
def State.boundaryOf (s : State) (cue : Nat) : Nat :=
  let q := max 1 s.sealPlan.1
  ceilDiv (cue + 1024) q * q

/-- An asynchronous event answers a request: its type, information and log page are the completion's DW0; the scene retires when scenes
next go on. [DESIGN CHOICE: log entry 197] -/
def answerAer (o ty info page : Nat) (s : State) : State :=
  { s with evt := { s.evt with aenDue := Tab.put s.evt.aenDue o (field page 8 16 + field info 8 8 + field ty 3 0) } }

/-- The vendor asynchronous event goes to one controller (R460). -/
def sendAen (p : Nat × Nat) (s : State) : State :=
  answerAer p.2 7 0 0xC3 { s with evt := { s.evt with aenHeld := setAdd s.evt.aenHeld p.1 } }

/-- A standard asynchronous event goes to a controller that has a request outstanding. -/
def standardAen (ctrl ty info page : Nat) (s : State) : State :=
  match s.openAer ctrl with
  | some o => answerAer o ty info page s
  | none => s

/-- A notification counts in EVT_NOTIFIED, and in TW_EVT_SENT of a user tenant. -/
def countNotify (tag : Nat) (s : State) : State :=
  let s := count1 0x01200014 s
  if tag = 0 then s else count1 (tenantKey tag 0x6044) s

/-- The asynchronous events of one event, to every controller of a tenant that takes one (R460). -/
def sendAens (tag : Nat) (s : State) : State :=
  (s.aenTargets tag).foldl (fun s p => countNotify tag (sendAen p s)) s

/-- TW_EVT_CTRL of a tenant. -/
def State.evtCtrl (s : State) (tag : Nat) : Nat := s.reg (tenantKey tag 0x6040) 0

/-- Is the source's bit set in a tenant's TW_EVT_EN words? -/
def State.evtEnabled (s : State) (tag src : Nat) : Bool := (s.reg (tenantKey tag (0x6000 + 4 * (src / 32))) 0).testBit (src % 32)

/-- The MSI-X and asynchronous-event targets of R460. -/
def notifyEvent (r : EventRoute) (src tag : Nat) (s : State) : State :=
  if r.owner = 0 then
    let s := if r.targets.testBit 3 then sendAens 0 s else s
    if r.targets.testBit 2 then countNotify 0 (emit (.msix 0 0 (s.reg 0x01200010 0 % 2 ^ 11)) s) else s
  else if r.owner = tag ∧ s.evtEnabled tag src ∧ bits (s.evtCtrl tag) 18 16 ≤ r.severity then
    let c := s.evtCtrl tag
    let s := if r.targets.testBit 3 ∧ c.testBit 30 then sendAens tag s else s
    match Tab.find s.evt.boundFn tag with
    | some fn =>
      if r.targets.testBit 2 ∧ c.testBit 31 then
        countNotify tag (emit (.msix (fn / 2 ^ 15) (fn % 2 ^ 11) (bits c 10 0)) s)
      else s
    | none => s
  else s

/-- A unit raises an event (R457-R462): counted, recorded where routed to the Sampler, notified. [DESIGN CHOICE: log entry 50; DEDUCED: log entry 213] -/
def raise (src code arg0 arg1 tag : Nat) (s : State) : State :=
  let r := s.eventRoute src
  let s := countRaise src tag s
  let ev : RaisedEvent :=
    { source := src, code := code % 65536, arg0 := arg0 % 2 ^ 64, arg1 := arg1 % 2 ^ 64, tag := tag,
      cue := s.cue.now, seq := s.evt.secSeq }
  let s := if isSecurity src then { s with evt := { s.evt with secSeq := (s.evt.secSeq + 1) % 2 ^ 48 } } else s
  let s := if r.targets.testBit 1 then acceptEvent ev r.severity s else s
  notifyEvent r src tag s

/-- An event whose chapter gives no code or arguments: ARG0 names the object concerned (R457). [DEDUCED: log entry 213] -/
def raiseObj (src obj tag : Nat) (s : State) : State := raise src 0 obj 0 tag s

/-- A refusal at a boundary under EV352-EV354 is recorded and counted in SAF_REFUSALS (R17-R19, R427). -/
def refuseAt (src obj tag : Nat) (s : State) : State :=
  raiseObj src obj tag { s with saf := { s.saf with refusals := min (s.saf.refusals + 1) (2 ^ 32 - 1) } }

/-- 32 bytes drawn from the DRBG (R399): four free values. [DEDUCED: log entry 154] -/
def drawSecret (s : State) : BitVec 256 × State :=
  let w := fun (i : Nat) => (Config.freeValue (s.free + i)).setWidth 256
  (w 0 ||| (w 1 <<< 64) ||| (w 2 <<< 128) ||| (w 3 <<< 192), { s with free := s.free + 4 })

/-- `f` where the condition holds, else the state as it was. -/
def onlyIf (c : Bool) (f : State → State) (s : State) : State := if c then f s else s

/-- The device moves to another state (R477): EV392, and the cue of the transition. [DEDUCED: log entry 180] -/
def devCode : DevPhase → Nat
  | .dark => 0
  | .houseLights => 1
  | .rehearsal => 2
  | .performance => 3
  | .curtainDown => 5
  | .finalCurtain => 6

/-- The device's state becomes `p` (R476, R477). -/
def transition (p : DevPhase) (s : State) : State :=
  let old := s.dev.phase
  raise 392 0 (devCode old) (devCode p) 0 { s with dev := { s.dev with phase := p, stateCue := s.cue.now } }

end Sys2Proof.Machine
end

