-- ==== Sys2Proof/Machine/RegTable.lean ====
section
/-! DEFINITION. The register map of the house window and of the tenant windows, row by row from the chapters' register
tables (R45, R74, R104, R138, R139, R157, R162, R198, R223, R224, R255, R284, R285, R306, R334, R335, R357, R358, R382,
R403, R404, R427, R454, R455, R474, R475, R501, R502, R526) at the bases of R524 and R525. -/
namespace Sys2Proof.Machine

/-- The access codes of R12 that the register tables use. -/
inductive RegAccess where
  | ro | rw | wo | rc | rw1c
  deriving DecidableEq, Repr

/-- One row of a register table: first offset in its window, consecutive words, stride and number of repetitions, access,
reset value, whether it is the low word of a 64-bit quantity (R8), whether Curtain Down still takes its writes (R524). -/
structure RegRow where
  off : Nat
  words : Nat
  stride : Nat
  count : Nat
  access : RegAccess
  reset : Nat
  low : Bool
  selector : Bool
  deriving DecidableEq, Repr

/-- A row of one register. -/
def reg1 (off : Nat) (a : RegAccess) (reset : Nat) : RegRow := ⟨off, 1, 0, 1, a, reset, false, false⟩

/-- A row that is the low word of a 64-bit quantity. -/
def regLow (off : Nat) (a : RegAccess) (reset : Nat) : RegRow := ⟨off, 1, 0, 1, a, reset, true, false⟩

/-- A selector row. -/
def regSel (off : Nat) (reset : Nat) : RegRow := ⟨off, 1, 0, 1, .rw, reset, false, true⟩

/-- R45. -/
def rowsPrkR45 : List RegRow :=
  [reg1 0x100000 .ro 0x20001 /- PRK_ID -/,
   reg1 0x100004 .wo 0x0 /- PRK_CTRL -/,
   reg1 0x100008 .ro 0x0 /- PRK_STATUS -/,
   reg1 0x10000c .ro 0x0 /- PRK_ERR_LOC -/,
   reg1 0x100010 .ro 0x0 /- PRK_ERR_INST -/,
   reg1 0x100014 .rw 0x0 /- PRK_IMG_LEN -/,
   regLow 0x100018 .rw 0x0 /- PRK_DMA_ADDR_LO -/,
   reg1 0x10001c .rw 0x0 /- PRK_DMA_ADDR_HI -/,
   regLow 0x100020 .rw 0x0 /- PRK_APPLY_CUE_LO -/,
   reg1 0x100024 .rw 0x0 /- PRK_APPLY_CUE_HI -/,
   regLow 0x100028 .ro 0x0 /- PRK_APPLIED_CUE_LO -/,
   reg1 0x10002c .ro 0x0 /- PRK_APPLIED_CUE_HI -/,
   reg1 0x100030 .rw 0x7d0 /- PRK_DRAIN_LIMIT -/,
   reg1 0x100034 .ro 0x0 /- PRK_TOUCH -/,
   reg1 0x100038 .ro 0x0 /- PRK_SEALED -/,
   reg1 0x10003c .ro 0x0 /- PRK_BOOT -/,
   regLow 0x100040 .ro 0x0 /- PRK_SERIAL_LO -/,
   reg1 0x100044 .ro 0x0 /- PRK_SERIAL_HI -/,
   regLow 0x100048 .ro 0x0 /- PRK_FLOOR_LO -/,
   reg1 0x10004c .ro 0x0 /- PRK_FLOOR_HI -/,
   reg1 0x100050 .rw 0x0 /- PRK_APT_OFFSET -/,
   ⟨0x100080, 16, 0x0, 1, .ro, 0x0, false, false⟩ /- PRK_REGION_VER0–15 -/,
   ⟨0x110000, 16384, 0x0, 1, .wo, 0x0, false, false⟩ /- PRK_APERTURE -/]

/-- R74. -/
def rowsCueR74 : List RegRow :=
  [reg1 0x200000 .ro 0x10050 /- CUE_ID -/,
   reg1 0x200004 .rw 0x0 /- CUE_CTRL -/,
   reg1 0x200008 .ro 0x0 /- CUE_STATUS -/,
   regLow 0x200010 .ro 0x0 /- CUE_NOW_LO -/,
   reg1 0x200014 .ro 0x0 /- CUE_NOW_HI -/,
   regLow 0x200018 .rw 0x0 /- CUE_STEP_LO -/,
   reg1 0x20001c .rw 0x0 /- CUE_STEP_HI -/,
   regLow 0x200020 .ro 0x0 /- CUE_FLOOR_LO -/,
   reg1 0x200024 .ro 0x0 /- CUE_FLOOR_HI -/,
   reg1 0x200028 .rw 0x0 /- CUE_RATE_ADJ -/,
   reg1 0x20002c .ro 0x0 /- CUE_MAX_SLEW -/,
   regLow 0x200030 .ro 0x0 /- CUE_PTP_OFFSET_LO -/,
   reg1 0x200034 .ro 0x0 /- CUE_PTP_OFFSET_HI -/,
   reg1 0x200038 .ro 0x0 /- CUE_NET_ADJ -/,
   reg1 0x20003c .rc 0x0 /- CUE_LATE_COUNT -/,
   reg1 0x200040 .ro 0x1000 /- CUE_SLOTS_FREE -/,
   reg1 0x200044 .rc 0x1000 /- CUE_SLOTS_LOW -/,
   reg1 0x200050 .wo 0x0 /- CUE_CAL_CTRL -/,
   reg1 0x200054 .ro 0x0 /- CUE_CAL_STATUS -/,
   regSel 0x200058 0x0 /- CUE_TAP_SEL -/,
   reg1 0x20005c .ro 0x0 /- CUE_TAP_INFO -/,
   reg1 0x200060 .rc 0x0 /- CUE_RESYNC_COUNT -/,
   ⟨0x200100, 6, 0x0, 1, .ro, 0x0, false, false⟩ /- CUE_QUOTA0–5 -/,
   regLow 0x200200 .rw 0x0 /- CUE_POST_TIME_LO -/,
   reg1 0x200204 .rw 0x0 /- CUE_POST_TIME_HI -/,
   reg1 0x200208 .wo 0x0 /- CUE_POST_CMD -/,
   reg1 0x20020c .ro 0x0 /- CUE_POST_RESULT -/,
   reg1 0x200210 .wo 0x0 /- CUE_CANCEL -/,
   reg1 0x200214 .ro 0x0 /- CUE_CANCEL_RESULT -/]

/-- R74. -/
def rowsClkR74 : List RegRow :=
  [reg1 0x208000 .ro 0x0 /- CLK_PLL_STATUS -/,
   reg1 0x208004 .ro 0x0 /- CLK_REFCLK_PPM -/,
   reg1 0x208008 .ro 0x0 /- CLK_GATE_ALLOWED -/,
   reg1 0x20800c .rw 0x0 /- CLK_GATE_REQ -/,
   reg1 0x208010 .ro 0x1ffffff /- CLK_RUN -/,
   reg1 0x208014 .rw1c 0x0 /- CLK_WARN -/,
   reg1 0x208018 .ro 0x0 /- CLK_DRAM_MTS -/,
   reg1 0x20801c .ro 0x0 /- CLK_FIO_N -/,
   ⟨0x208100, 25, 0x0, 1, .ro, 0x0, false, false⟩ /- CLK_FREQ0–24 -/]

/-- R104. -/
def rowsHfeR104 : List RegRow :=
  [reg1 0x300000 .ro 0x10004 /- HFE_ID -/,
   reg1 0x300004 .ro 0x0 /- HFE_PORT_MODE -/,
   reg1 0x300008 .ro 0x0 /- HFE_PCIE_LINK0 -/,
   reg1 0x30000c .ro 0x0 /- HFE_PCIE_LINK1 -/,
   reg1 0x300010 .ro 0x0 /- HFE_ETH_LINK -/,
   reg1 0x300014 .ro 0x0 /- HFE_TCP_CONN -/,
   reg1 0x300018 .ro 0x0 /- HFE_RDMA_QP -/,
   reg1 0x30001c .ro 0x0 /- HFE_ASSOC -/,
   reg1 0x300020 .ro 0x0 /- HFE_IDE_STREAMS -/,
   reg1 0x300024 .ro 0x0 /- HFE_VF_ENABLED -/,
   regSel 0x300030 0x0 /- HFE_VIOL_SEL -/,
   reg1 0x300034 .rc 0x0 /- HFE_VIOL_COUNT -/,
   reg1 0x300038 .rw 0xfa0 /- HFE_DATA_TIMEOUT -/,
   reg1 0x30003c .rw 0x300 /- HFE_PFC_CTRL -/,
   reg1 0x300040 .rc 0x0 /- HFE_CNP_TX -/,
   reg1 0x300044 .rc 0x0 /- HFE_CNP_RX -/,
   reg1 0x300048 .ro 0x0 /- HFE_TLS_SESSIONS -/,
   reg1 0x30004c .rc 0x0 /- HFE_TLS_FAIL -/,
   regSel 0x300100 0x0 /- HFE_NET_SEL -/,
   reg1 0x300104 .rw 0x0 /- HFE_NET_CTRL -/,
   ⟨0x300110, 4, 0x0, 1, .rw, 0x0, false, false⟩ /- HFE_NET_ADDR0–3 -/]

/-- R138. -/
def rowsHfeR138 : List RegRow :=
  [reg1 0x301000 .ro 0x20000 /- HFE_SCN_CAP -/,
   reg1 0x301004 .ro 0x0 /- HFE_SCN_INUSE -/,
   reg1 0x301008 .rc 0x0 /- HFE_SCN_PEAK -/,
   reg1 0x30100c .ro 0x10 /- HFE_SCN_RESERVE -/,
   reg1 0x301010 .ro 0x0 /- HFE_FETCH_STATUS -/,
   reg1 0x301014 .ro 0x0 /- HFE_ACT_TIME -/,
   reg1 0x301018 .rc 0x0 /- HFE_OVL_HELD -/,
   reg1 0x30101c .rc 0x0 /- HFE_FENCE_HELD -/,
   reg1 0x301020 .rc 0x0 /- HFE_ABORT_LATE -/,
   reg1 0x301024 .rc 0x0 /- HFE_ROLLBACK -/,
   reg1 0x301028 .ro 0x0 /- HFE_FROZEN -/,
   regLow 0x301030 .ro 0x0 /- HFE_COMMIT_CUE_LO -/,
   reg1 0x301034 .ro 0x0 /- HFE_COMMIT_CUE_HI -/,
   reg1 0x301040 .ro 0x0 /- HFE_ST_ACTIVE -/]

/-- R139. -/
def rowsTwR139 : List RegRow :=
  [reg1 0x5000 .ro 0x0 /- TW_FENCE_ISSUED -/,
   reg1 0x5004 .ro 0x0 /- TW_FENCE_DONE -/,
   regLow 0x5008 .ro 0x0 /- TW_COMMIT_CUE_LO -/,
   reg1 0x500c .ro 0x0 /- TW_COMMIT_CUE_HI -/,
   reg1 0x5010 .rc 0x0 /- TW_OVL_HELD -/,
   reg1 0x5014 .rc 0x0 /- TW_ROLLBACK -/,
   reg1 0x5018 .ro 0x0 /- TW_SCN_INUSE -/,
   reg1 0x501c .ro 0x0 /- TW_FROZEN -/]

/-- R157. -/
def rowsCbdR157 : List RegRow :=
  [regLow 0x780000 .ro 0x0 /- CBD_FIRST_LO -/,
   reg1 0x780004 .ro 0x0 /- CBD_FIRST_HI -/,
   regLow 0x780008 .ro 0x0 /- CBD_NEXT_LO -/,
   reg1 0x78000c .ro 0x0 /- CBD_NEXT_HI -/,
   ⟨0x780010, 1, 0, 1, .rw, 0x0, true, true⟩ /- CBD_CURSOR_LO -/,
   ⟨0x780014, 1, 0, 1, .rw, 0x0, false, true⟩ /- CBD_CURSOR_HI -/,
   reg1 0x780018 .ro 0x0 /- CBD_STATUS -/,
   reg1 0x780020 .ro 0x0 /- CBD_ENTRIES -/,
   reg1 0x780024 .ro 0x0 /- CBD_RETENTION -/,
   reg1 0x780028 .rc 0x0 /- CBD_POSTED -/,
   reg1 0x78002c .rc 0x0 /- CBD_DISPLACED -/,
   ⟨0x780100, 32, 0x0, 1, .ro, 0x0, false, false⟩ /- CBD_ENTRY0–31 -/]

/-- R157. -/
def rowsTwR157 : List RegRow :=
  [regLow 0x2000 .ro 0x0 /- TW_CB_FIRST_LO -/,
   reg1 0x2004 .ro 0x0 /- TW_CB_FIRST_HI -/,
   regLow 0x2008 .ro 0x0 /- TW_CB_NEXT_LO -/,
   reg1 0x200c .ro 0x0 /- TW_CB_NEXT_HI -/,
   ⟨0x2010, 1, 0, 1, .rw, 0x0, true, true⟩ /- TW_CB_CURSOR_LO -/,
   ⟨0x2014, 1, 0, 1, .rw, 0x0, false, true⟩ /- TW_CB_CURSOR_HI -/,
   reg1 0x2018 .ro 0x0 /- TW_CB_STATUS -/,
   ⟨0x2100, 32, 0x0, 1, .ro, 0x0, false, false⟩ /- TW_CB_ENTRY0–31 -/]

/-- R162. -/
def rowsTwR162 : List RegRow :=
  [reg1 0x7000 .wo 0x0 /- TW_ARC_CTRL -/,
   reg1 0x7004 .ro 0x0 /- TW_ARC_STATUS -/,
   reg1 0x7008 .rw 0x0 /- TW_ARC_KV_NSID -/,
   reg1 0x700c .rw 0x0 /- TW_ARC_BAG_NSID -/,
   regLow 0x7010 .rw 0x0 /- TW_ARC_LBA_LO -/,
   reg1 0x7014 .rw 0x0 /- TW_ARC_LBA_HI -/,
   reg1 0x7018 .rw 0x2 /- TW_ARC_OPTS -/,
   ⟨0x7020, 4, 0x0, 1, .rw, 0x0, false, false⟩ /- TW_ARC_KEY_FIRST0–3 -/,
   ⟨0x7030, 4, 0x0, 1, .rw, 0xffffffff, false, false⟩ /- TW_ARC_KEY_LAST0–3 -/,
   reg1 0x7040 .rw 0x1000 /- TW_ARC_KEY_LEN -/,
   reg1 0x7050 .ro 0x0 /- TW_ARC_OBJECTS -/,
   reg1 0x7054 .ro 0x0 /- TW_ARC_FAILED -/,
   regLow 0x7058 .ro 0x0 /- TW_ARC_BYTES_LO -/,
   reg1 0x705c .ro 0x0 /- TW_ARC_BYTES_HI -/,
   reg1 0x7060 .rc 0x0 /- TW_ARC_SPILLS -/,
   ⟨0x7100, 64, 0x0, 1, .ro, 0x0, false, false⟩ /- TW_ARC_PROV0–63 -/]

/-- R198. -/
def rowsTrlR198 : List RegRow :=
  [reg1 0xa00000 .ro 0x10016 /- TRL_ID -/,
   reg1 0xa00004 .ro 0x0 /- TRL_STATUS -/,
   reg1 0xa00008 .ro 0x0 /- TRL_FREE_FRAC -/,
   reg1 0xa0000c .ro 0x0 /- TRL_THROTTLE -/,
   reg1 0xa00010 .ro 0x0 /- TRL_VICTIM_VALID -/,
   regLow 0xa00018 .ro 0x0 /- TRL_FLASH_UNITS_LO -/,
   reg1 0xa0001c .ro 0x0 /- TRL_FLASH_UNITS_HI -/,
   regLow 0xa00020 .ro 0x0 /- TRL_FLASH_CHARGED_LO -/,
   reg1 0xa00024 .ro 0x0 /- TRL_FLASH_CHARGED_HI -/,
   regLow 0xa00028 .ro 0x0 /- TRL_FLASH_MAPPED_LO -/,
   reg1 0xa0002c .ro 0x0 /- TRL_FLASH_MAPPED_HI -/,
   regLow 0xa00030 .ro 0x0 /- TRL_FLASH_SLOTS_LO -/,
   reg1 0xa00034 .ro 0x0 /- TRL_FLASH_SLOTS_HI -/,
   regLow 0xa00038 .ro 0x0 /- TRL_PLAT_UNITS_LO -/,
   reg1 0xa0003c .ro 0x0 /- TRL_PLAT_UNITS_HI -/,
   regLow 0xa00040 .ro 0x0 /- TRL_PLAT_CHARGED_LO -/,
   reg1 0xa00044 .ro 0x0 /- TRL_PLAT_CHARGED_HI -/,
   regLow 0xa00048 .ro 0x0 /- TRL_PLAT_MAPPED_LO -/,
   reg1 0xa0004c .ro 0x0 /- TRL_PLAT_MAPPED_HI -/,
   reg1 0xa00050 .ro 0x0 /- TRL_RETIRED_BLOCKS -/,
   reg1 0xa00054 .ro 0x0 /- TRL_RETIRED_BANDS -/,
   reg1 0xa00058 .ro 0x0 /- TRL_FINE_GROUPS -/,
   reg1 0xa00060 .rw 0x7 /- TRL_HOT_AGE -/,
   reg1 0xa00064 .rw 0x16d /- TRL_RETENTION -/,
   reg1 0xa00068 .rc 0x0 /- TRL_COPIED -/,
   reg1 0xa0006c .rc 0x0 /- TRL_REFRESHED -/,
   reg1 0xa00070 .rc 0x0 /- TRL_GC_RESTART -/,
   reg1 0xa00074 .ro 0x0 /- TRL_PL_LOST -/,
   regLow 0xa00078 .ro 0x0 /- TRL_CKPT_CUE_LO -/,
   reg1 0xa0007c .ro 0x0 /- TRL_CKPT_CUE_HI -/,
   reg1 0xa00080 .wo 0x0 /- TRL_CKPT_CTRL -/,
   reg1 0xa00084 .ro 0x0 /- TRL_JOURNAL -/,
   reg1 0xa00088 .ro 0x0 /- TRL_HARBOUR -/]

/-- R223. -/
def rowsFlcR223 : List RegRow :=
  [reg1 0xb00000 .ro 0x10020 /- FLC_ID -/,
   reg1 0xb00004 .ro 0x0 /- FLC_GROUP_STATE -/,
   reg1 0xb00008 .ro 0x0 /- FLC_CH_USABLE -/,
   reg1 0xb0000c .ro 0x0 /- FLC_WIDTH -/,
   reg1 0xb00010 .rw 0x20 /- FLC_PWR_GRID -/,
   reg1 0xb00014 .rw 0x2 /- FLC_PWR_BUDGET -/,
   reg1 0xb00018 .rc 0x0 /- FLC_PWR_DEFER -/,
   reg1 0xb0001c .rw 0x4 /- FLC_TIMEOUT_MULT -/,
   regSel 0xb00020 0x0 /- FLC_LUN_SEL -/,
   reg1 0xb00024 .ro 0x0 /- FLC_LUN_INFO -/,
   reg1 0xb00028 .ro 0x0 /- FLC_LUN_RETIRED -/,
   reg1 0xb0002c .rc 0x0 /- FLC_STUCK -/,
   reg1 0xb00030 .rc 0x0 /- FLC_RECON -/,
   reg1 0xb00034 .rc 0x0 /- FLC_UNCORR -/,
   reg1 0xb00038 .wo 0x0 /- FLC_HR_CTRL -/,
   reg1 0xb0003c .ro 0x0 /- FLC_HR_STATUS -/,
   reg1 0xb00040 .ro 0x0 /- FLC_HR_LEFT -/,
   reg1 0xb00044 .rw 0x18 /- FLC_RETRAIN -/]

/-- R224. -/
def rowsLdpR224 : List RegRow :=
  [reg1 0xc00000 .ro 0x10040 /- LDP_ID -/,
   reg1 0xc00004 .ro 0x0 /- LDP_BUSY -/,
   reg1 0xc00008 .rw 0x14 /- LDP_HARD_ITER -/,
   reg1 0xc0000c .rw 0x28 /- LDP_SOFT_ITER -/,
   reg1 0xc00010 .rc 0x0 /- LDP_DECODED -/,
   reg1 0xc00014 .rc 0x0 /- LDP_HARD_FAIL -/,
   reg1 0xc00018 .rc 0x0 /- LDP_SOFT_FAIL -/,
   reg1 0xc0001c .ro 0x0 /- LDP_ITER_AVG -/]

/-- R255. -/
def rowsRchR255 : List RegRow :=
  [reg1 0xd00000 .ro 0x10804 /- RCH_ID -/,
   reg1 0xd00004 .ro 0x4444 /- RCH_STATUS -/,
   reg1 0xd00008 .rw 0x78 /- RCH_WG_PES -/,
   reg1 0xd0000c .rw 0x50 /- RCH_PAIR_PES -/,
   reg1 0xd00010 .rw 0x1900190 /- RCH_SHOCK_THR -/,
   reg1 0xd00014 .rw 0x704 /- RCH_SYNC_TOL -/,
   reg1 0xd00018 .rw 0x3c /- RCH_GATE_LEAD -/,
   reg1 0xd0001c .rw 0xa8 /- RCH_CAL_HOURS -/,
   reg1 0xd00020 .rw 0x7530 /- RCH_OFFLINE_WAIT -/,
   reg1 0xd00024 .rw 0x4 /- RCH_PA_DIV -/,
   reg1 0xd00030 .rc 0x0 /- RCH_SUSPECT -/,
   reg1 0xd00034 .rc 0x0 /- RCH_TRIP_PES -/,
   reg1 0xd00038 .rc 0x0 /- RCH_TRIP_SHOCK -/,
   reg1 0xd0003c .rc 0x0 /- RCH_MISSED_MARK -/,
   reg1 0xd00040 .rc 0x0 /- RCH_SLIP_OK -/,
   reg1 0xd00044 .rc 0x0 /- RCH_RECON -/,
   reg1 0xd00048 .rc 0x0 /- RCH_UNCORR -/,
   reg1 0xd0004c .rc 0x0 /- RCH_PAIR_ABANDON -/,
   reg1 0xd00050 .rc 0x0 /- RCH_LATE_GATE -/,
   ⟨0xd00100, 1, 0x40, 4, .wo, 0x0, false, false⟩ /- RCH_An_CTRL -/,
   ⟨0xd00104, 1, 0x40, 4, .ro, 0x0, false, false⟩ /- RCH_An_STATE -/,
   ⟨0xd00108, 1, 0x40, 4, .ro, 0x0, false, false⟩ /- RCH_An_ANGLE -/,
   ⟨0xd0010c, 1, 0x40, 4, .ro, 0x0, false, false⟩ /- RCH_An_PERIOD -/,
   ⟨0xd00110, 1, 0x40, 4, .ro, 0x0, false, false⟩ /- RCH_An_HEADS -/,
   ⟨0xd00114, 1, 0x40, 4, .rc, 0x0, false, false⟩ /- RCH_An_PARKS -/,
   ⟨0xd00118, 1, 0x40, 4, .wo, 0x0, false, false⟩ /- RCH_An_PA_CMD -/,
   ⟨0xd0011c, 1, 0x40, 4, .ro, 0x0, false, false⟩ /- RCH_An_PA_RESULT -/,
   ⟨0xd00120, 1, 0x40, 4, .ro, 0x0, false, false⟩ /- RCH_An_CAL -/]

/-- R284. -/
def rowsHopR284 : List RegRow :=
  [reg1 0xe00000 .ro 0x10040 /- HOP_ID -/,
   reg1 0xe00004 .ro 0x0 /- HOP_STATUS -/,
   regLow 0xe00008 .ro 0x0 /- HOP_ENABLED_LO -/,
   reg1 0xe0000c .ro 0x0 /- HOP_ENABLED_HI -/,
   reg1 0xe00010 .rw 0x32 /- HOP_PARK_TIMEOUT -/,
   reg1 0xe00014 .rw 0x100 /- HOP_SAT_RUN -/,
   reg1 0xe00018 .rw 0x4 /- HOP_OFFTRACK -/,
   reg1 0xe0001c .rc 0x0 /- HOP_STEP_LOG -/,
   reg1 0xe00020 .rc 0x0 /- HOP_FH_REPLACED -/,
   reg1 0xe00024 .rc 0x0 /- HOP_MISSING -/,
   reg1 0xe00028 .ro 0x0 /- HOP_PHASE_MIN -/,
   ⟨0xe00100, 1, 0x20, 4, .wo, 0x0, false, false⟩ /- HOP_An_PROF_CTRL -/,
   ⟨0xe00104, 1, 0x20, 4, .ro, 0x0, false, false⟩ /- HOP_An_PROF_STATUS -/,
   ⟨0xe00108, 1, 0x20, 4, .rw, 0x0, true, false⟩ /- HOP_An_PROF_CUE_LO -/,
   ⟨0xe0010c, 1, 0x20, 4, .rw, 0x0, false, false⟩ /- HOP_An_PROF_CUE_HI -/,
   ⟨0xe00110, 1, 0x20, 4, .ro, 0x0, false, false⟩ /- HOP_An_PARK_CAUSE -/,
   ⟨0xe00800, 1, 0x40, 64, .rw, 0x0, false, false⟩ /- HOP_Sn_CTRL -/,
   ⟨0xe00804, 1, 0x40, 64, .ro, 0x0, false, false⟩ /- HOP_Sn_STATUS -/,
   ⟨0xe00808, 1, 0x40, 64, .rw, 0x0, true, false⟩ /- HOP_Sn_SETPOINT_LO -/,
   ⟨0xe0080c, 1, 0x40, 64, .rw, 0x0, false, false⟩ /- HOP_Sn_SETPOINT_HI -/,
   ⟨0xe00810, 1, 0x40, 64, .ro, 0x0, true, false⟩ /- HOP_Sn_RAMP_LO -/,
   ⟨0xe00814, 1, 0x40, 64, .ro, 0x0, false, false⟩ /- HOP_Sn_RAMP_HI -/,
   ⟨0xe00818, 1, 0x40, 64, .ro, 0x0, false, false⟩ /- HOP_Sn_ERROR -/,
   ⟨0xe0081c, 1, 0x40, 64, .ro, 0x0, false, false⟩ /- HOP_Sn_OUTPUT -/,
   ⟨0xe00820, 1, 0x40, 64, .rw, 0x0, true, false⟩ /- HOP_Sn_SWAP_CUE_LO -/,
   ⟨0xe00824, 1, 0x40, 64, .rw, 0x0, false, false⟩ /- HOP_Sn_SWAP_CUE_HI -/,
   ⟨0xe00828, 1, 0x40, 64, .rc, 0x0, false, false⟩ /- HOP_Sn_SAT -/,
   ⟨0xe02000, 7, 0x20, 128, .rw, 0x0, false, false⟩ /- coefficients of slot s, bank A and bank B -/,
   ⟨0xe04000, 1, 8, 8192, .rw, 0x0, true, false⟩ /- profile entry e of An, low word -/,
   ⟨0xe04004, 1, 8, 8192, .rw, 0x0, false, false⟩ /- profile entry e of An, high word -/]

/-- R285. -/
def rowsMlkR285 : List RegRow :=
  [reg1 0xf00000 .ro 0x10032 /- MLK_ID -/,
   reg1 0xf00004 .ro 0x0 /- MLK_STATUS -/,
   reg1 0xf00008 .rc 0x0 /- MLK_FRAMES -/,
   reg1 0xf0000c .rc 0x0 /- MLK_CRC_ERR -/,
   reg1 0xf00010 .rc 0x0 /- MLK_NACK -/,
   reg1 0xf00014 .rc 0x0 /- MLK_ECHO_ERR -/,
   reg1 0xf00018 .wo 0x0 /- MLK_CMD -/,
   reg1 0xf0001c .ro 0x0 /- MLK_RESULT -/,
   reg1 0xf00020 .wo 0x0 /- MLK_RESYNC -/]

/-- R306. -/
def rowsSmgR306 : List RegRow :=
  [reg1 0x400000 .ro 0x10040 /- SMG_ID -/,
   reg1 0x400004 .ro 0x0 /- SMG_STATUS -/,
   reg1 0x400008 .ro 0x40000 /- SMG_TASKS_FREE -/,
   reg1 0x40000c .rc 0x40000 /- SMG_TASKS_LOW -/,
   reg1 0x400010 .ro 0x10000 /- SMG_FLOWS_FREE -/,
   reg1 0x400014 .rw 0x40 /- SMG_TASK_CAP -/,
   reg1 0x400018 .rw 0x400 /- SMG_BP_READY -/,
   reg1 0x40001c .ro 0x0 /- SMG_BP_TENANTS -/,
   reg1 0x400020 .rc 0x0 /- SMG_UNDERFLOW -/,
   reg1 0x400024 .rc 0x0 /- SMG_LATE_TIMED -/,
   reg1 0x400028 .rc 0x0 /- SMG_NO_SLOT -/,
   reg1 0x40002c .rc 0x0 /- SMG_AFF_HIT -/,
   reg1 0x400030 .rc 0x0 /- SMG_AFF_MISS -/,
   reg1 0x400034 .rc 0x0 /- SMG_VOID_RELEASE -/,
   reg1 0x400038 .rc 0x0 /- SMG_SEAL_IDLE -/,
   reg1 0x40003c .ro 0x0 /- SMG_SEAL_INFO -/,
   regSel 0x400040 0x0 /- SMG_RL_SEL -/,
   reg1 0x400044 .ro 0x0 /- SMG_RL_INFO -/,
   reg1 0x400048 .rc 0x0 /- SMG_RL_DISPATCHED -/,
   regSel 0x400050 0x0 /- SMG_DLY_SEL -/,
   reg1 0x400054 .ro 0x0 /- SMG_DLY_INFO -/,
   reg1 0x400058 .ro 0x0 /- SMG_DLY_SIZE -/,
   reg1 0x40005c .rc 0x0 /- SMG_DLY_FULL -/,
   regLow 0x400060 .ro 0x0 /- SMG_DLY_NEXT_LO -/,
   reg1 0x400064 .ro 0x0 /- SMG_DLY_NEXT_HI -/,
   regSel 0x400070 0x0 /- SMG_TEN_SEL -/,
   reg1 0x400074 .ro 0x0 /- SMG_TEN_INFO -/,
   ⟨0x400100, 1, 0x20, 16, .rw, 0x0, true, false⟩ /- SMG_RINGr_BASE_LO -/,
   ⟨0x400104, 1, 0x20, 16, .rw, 0x0, false, false⟩ /- SMG_RINGr_BASE_HI -/,
   ⟨0x400108, 1, 0x20, 16, .rw, 0x0, false, false⟩ /- SMG_RINGr_CTRL -/,
   ⟨0x40010c, 1, 0x20, 16, .rw, 0x0, false, false⟩ /- SMG_RINGr_TAIL -/,
   ⟨0x400110, 1, 0x20, 16, .ro, 0x0, false, false⟩ /- SMG_RINGr_HEAD -/,
   ⟨0x400114, 1, 0x20, 16, .ro, 0x0, false, false⟩ /- SMG_RINGr_STALL -/]

/-- R334. -/
def rowsBobR334 : List RegRow :=
  [reg1 0x500000 .ro 0x10068 /- BOB_ID -/,
   reg1 0x500004 .ro 0x0 /- BOB_STATUS -/,
   ⟨0x500010, 3, 0x0, 1, .ro, 0x0, false, false⟩ /- BOB_INSERVICE0–2 -/,
   regSel 0x500020 0x0 /- BOB_SEL -/,
   reg1 0x500024 .ro 0x0 /- BOB_INFO -/,
   regSel 0x500028 0x0 /- BOB_PHYS_SEL -/,
   reg1 0x50002c .ro 0x0 /- BOB_PHYS_INFO -/,
   reg1 0x500030 .wo 0x0 /- BOB_RETIRE_CTRL -/,
   reg1 0x500034 .ro 0x0 /- BOB_RETIRE_STATUS -/,
   reg1 0x500038 .rw 0x3e8 /- BOB_WATCHDOG_US -/,
   reg1 0x50003c .rw 0x18 /- BOB_SELFTEST_HOURS -/,
   reg1 0x500040 .rc 0x0 /- BOB_RESTARTS -/,
   reg1 0x500044 .rc 0x0 /- BOB_BUDGET_FAIL -/,
   reg1 0x500048 .rc 0x0 /- BOB_VERIFY_REJECT -/,
   reg1 0x50004c .rc 0x0 /- BOB_HELPER_TIMEOUT -/,
   reg1 0x500050 .ro 0x0 /- BOB_VERIFY_STATUS -/]

/-- R335. -/
def rowsTwR335 : List RegRow :=
  [regSel 0x4000 0x0 /- TW_PRG_SEL -/,
   reg1 0x4004 .ro 0x0 /- TW_PRG_INFO -/,
   reg1 0x4008 .ro 0x0 /- TW_PRG_REJECT -/,
   reg1 0x400c .ro 0x0 /- TW_PRG_LIMITS -/,
   reg1 0x4010 .ro 0x0 /- TW_PRG_BUDGET -/,
   reg1 0x4014 .rc 0x0 /- TW_PRG_INVOKED -/,
   reg1 0x4018 .rc 0x0 /- TW_PRG_OVER -/,
   reg1 0x401c .rc 0x0 /- TW_PRG_RESTARTED -/,
   reg1 0x4020 .rc 0x0 /- TW_PRG_EVT_DROP -/,
   reg1 0x4024 .ro 0x0 /- TW_SLM_SIZE -/,
   reg1 0x4028 .ro 0x0 /- TW_SLM_SETS -/]

/-- R357. -/
def rowsTwR357 : List RegRow :=
  [⟨0x1000, 1, 0x40, 4, .wo, 0x0, false, false⟩ /- TW_TLY_Jj_CTRL -/,
   ⟨0x1004, 1, 0x40, 4, .ro, 0x0, false, false⟩ /- TW_TLY_Jj_STATUS -/,
   ⟨0x1008, 1, 0x40, 4, .rw, 0x0, false, false⟩ /- TW_TLY_Jj_KEY_SLOT -/,
   ⟨0x1010, 1, 0x40, 4, .rw, 0x0, true, false⟩ /- TW_TLY_Jj_SLM_OFF_LO -/,
   ⟨0x1014, 1, 0x40, 4, .rw, 0x0, false, false⟩ /- TW_TLY_Jj_SLM_OFF_HI -/,
   ⟨0x1018, 1, 0x40, 4, .rw, 0x0, true, false⟩ /- TW_TLY_Jj_SLM_LEN_LO -/,
   ⟨0x101c, 1, 0x40, 4, .rw, 0x0, false, false⟩ /- TW_TLY_Jj_SLM_LEN_HI -/,
   ⟨0x1020, 1, 0x40, 4, .wo, 0x0, true, false⟩ /- TW_TLY_Jj_DATA_LO -/,
   ⟨0x1024, 1, 0x40, 4, .wo, 0x0, false, false⟩ /- TW_TLY_Jj_DATA_HI -/,
   ⟨0x1028, 1, 0x40, 4, .rw, 0x0, true, false⟩ /- TW_TLY_Jj_LAST_LO -/,
   ⟨0x102c, 1, 0x40, 4, .rw, 0x0, false, false⟩ /- TW_TLY_Jj_LAST_HI -/,
   ⟨0x1030, 1, 0x40, 4, .wo, 0x0, false, false⟩ /- TW_TLY_Jj_LAST_VB -/,
   ⟨0x1034, 1, 0x40, 4, .ro, 0x0, false, false⟩ /- TW_TLY_Jj_CMP0 -/,
   ⟨0x1038, 1, 0x40, 4, .ro, 0x0, false, false⟩ /- TW_TLY_Jj_CMP1 -/,
   ⟨0x1400, 16, 0x80, 4, .rw, 0x0, false, false⟩ /- TW_TLY_Jj_EXPECT0–15 -/,
   ⟨0x1440, 16, 0x80, 4, .ro, 0x0, false, false⟩ /- TW_TLY_Jj_DIGEST0–15 -/,
   regLow 0x1800 .ro 0x0 /- TW_TLY_PR_FIRST_LO -/,
   reg1 0x1804 .ro 0x0 /- TW_TLY_PR_FIRST_HI -/,
   regLow 0x1808 .ro 0x0 /- TW_TLY_PR_NEXT_LO -/,
   reg1 0x180c .ro 0x0 /- TW_TLY_PR_NEXT_HI -/,
   ⟨0x1810, 1, 0, 1, .rw, 0x0, true, true⟩ /- TW_TLY_PR_CURSOR_LO -/,
   ⟨0x1814, 1, 0, 1, .rw, 0x0, false, true⟩ /- TW_TLY_PR_CURSOR_HI -/,
   reg1 0x1818 .ro 0x0 /- TW_TLY_PR_STATUS -/,
   reg1 0x1820 .rc 0x0 /- TW_TLY_DROPPED -/,
   ⟨0x1900, 32, 0x0, 1, .ro, 0x0, false, false⟩ /- TW_TLY_PR_ENTRY0–31 -/]

/-- R358. -/
def rowsSmkR358 : List RegRow :=
  [reg1 0x800000 .ro 0x10808 /- SMK_ID -/,
   reg1 0x800004 .ro 0x0 /- SMK_BUSY -/,
   reg1 0x800008 .ro 0x100 /- SMK_CTX_FREE -/,
   reg1 0x80000c .ro 0x0 /- SMK_PRESS -/,
   reg1 0x800010 .rc 0x0 /- SMK_OVERFLOW -/,
   reg1 0x800014 .rc 0x0 /- SMK_RAW_STORED -/,
   reg1 0x800018 .rc 0x0 /- SMK_CHECK_FAIL -/,
   reg1 0x80001c .rc 0x0 /- SMK_CRC_FAIL -/,
   reg1 0x800020 .rc 0x0 /- SMK_MALFORMED -/,
   reg1 0x800024 .rc 0x0 /- SMK_SAVES -/,
   reg1 0x800028 .rc 0x0 /- SMK_IN_MB -/,
   reg1 0x80002c .rc 0x0 /- SMK_OUT_MB -/]

/-- R358. -/
def rowsTlyR358 : List RegRow :=
  [reg1 0x700000 .ro 0x10010 /- TLY_ID -/,
   reg1 0x700004 .ro 0x0 /- TLY_BUSY -/,
   reg1 0x700008 .ro 0xffff /- TLY_IN_SERVICE -/,
   reg1 0x70000c .ro 0x0 /- TLY_LANES -/,
   reg1 0x700010 .ro 0x100 /- TLY_CTX_FREE -/,
   reg1 0x700014 .rw 0x20 /- TLY_CTX_CAP -/,
   reg1 0x700018 .rw 0x2710 /- TLY_IDLE_MS -/,
   reg1 0x70001c .rc 0x0 /- TLY_LEN_INVALID -/,
   reg1 0x700020 .rc 0x0 /- TLY_CMP_MISMATCH -/,
   reg1 0x700024 .rc 0x0 /- TLY_CMP_FAULT -/,
   reg1 0x700028 .rc 0x0 /- TLY_KEY_ABORT -/,
   reg1 0x70002c .rc 0x0 /- TLY_CTX_WAIT -/,
   reg1 0x700030 .rc 0x0 /- TLY_POSTED -/]

/-- R382. -/
def rowsAsuR382 : List RegRow :=
  [reg1 0x600000 .ro 0x10020 /- ASU_ID -/,
   reg1 0x600004 .ro 0x0 /- ASU_STATUS -/,
   regSel 0x600008 0x0 /- ASU_TBL_SEL -/,
   reg1 0x60000c .ro 0x0 /- ASU_TBL_INFO -/,
   reg1 0x600010 .ro 0x0 /- ASU_TBL_COUNT -/,
   reg1 0x600014 .ro 0x0 /- ASU_TBL_LIMIT -/,
   reg1 0x600018 .ro 0x0 /- ASU_TBL_LENSET -/,
   reg1 0x60001c .ro 0x0 /- ASU_TBL_PENDING -/,
   reg1 0x600020 .rc 0x0 /- ASU_SEARCHES -/,
   reg1 0x600024 .rc 0x0 /- ASU_HITS -/,
   reg1 0x600028 .rc 0x0 /- ASU_MULTI -/,
   reg1 0x60002c .rc 0x0 /- ASU_REPAIR_HIT -/,
   reg1 0x600030 .rc 0x0 /- ASU_REPAIR_WALK -/,
   reg1 0x600034 .rc 0x0 /- ASU_FAULT -/,
   reg1 0x600038 .rc 0x0 /- ASU_MOVED -/,
   reg1 0x60003c .rc 0x0 /- ASU_SCAN_TRUNC -/,
   reg1 0x600040 .rw 0x3c /- ASU_WALK_MIN -/,
   reg1 0x600044 .ro 0x0 /- ASU_WALK_POS -/,
   reg1 0x600048 .ro 0x0 /- ASU_WALK_PASSES -/,
   regSel 0x60004c 0x0 /- ASU_BANK_SEL -/,
   reg1 0x600050 .ro 0x0 /- ASU_BANK_INFO -/]

/-- R403. -/
def rowsScrR403 : List RegRow :=
  [reg1 0x900000 .ro 0x10006 /- SCR_ID -/,
   reg1 0x900004 .ro 0x0 /- SCR_STATUS -/,
   reg1 0x900008 .ro 0x100 /- SCR_CTX_FREE -/,
   reg1 0x90000c .ro 0x0 /- SCR_SLOTS_USED -/,
   reg1 0x900010 .rw 0x0 /- SCR_SCA_CTRL -/,
   reg1 0x900014 .rw 0x1000 /- SCR_QUANTUM -/,
   reg1 0x900018 .rc 0x0 /- SCR_DRV_COUNT -/,
   reg1 0x90001c .rc 0x0 /- SCR_DRV_STALL -/,
   reg1 0x900020 .rc 0x0 /- SCR_AUTH_FAIL -/,
   reg1 0x900024 .rc 0x0 /- SCR_ERASE_ABORT -/,
   reg1 0x900028 .rc 0x0 /- SCR_EPOCH_ROLL -/,
   reg1 0x90002c .rc 0x0 /- SCR_CTX_WAIT -/,
   reg1 0x900030 .rc 0x0 /- SCR_RESERVE_WAIT -/,
   reg1 0x900034 .ro 0x0 /- SCR_RNG_STATUS -/,
   regSel 0x900038 0x0 /- SCR_SLOT_SEL -/,
   reg1 0x90003c .ro 0x0 /- SCR_SLOT_INFO -/,
   reg1 0x900040 .ro 0x0 /- SCR_SLOT_EPOCH -/,
   reg1 0x900044 .ro 0x0 /- SCR_SLOT_COUNTER -/,
   reg1 0x900048 .wo 0x0 /- SCR_SLOT_CMD -/]

/-- R404. -/
def rowsTwR404 : List RegRow :=
  [reg1 0x8000 .ro 0x0 /- TW_KEY_PART -/,
   regSel 0x8004 0x0 /- TW_KEY_SEL -/,
   reg1 0x8008 .ro 0x0 /- TW_KEY_INFO -/,
   reg1 0x800c .wo 0x0 /- TW_KEY_CMD -/,
   reg1 0x8010 .ro 0x0 /- TW_KEY_RESULT -/]

/-- R427. -/
def rowsSafR427 : List RegRow :=
  [reg1 0x1300000 .ro 0x10002 /- SAF_ID -/,
   reg1 0x1300004 .ro 0x0 /- SAF_STATUS -/,
   reg1 0x1300008 .ro 0x0 /- SAF_ALARM -/,
   reg1 0x130000c .ro 0x0 /- SAF_ALARM_COUNT -/,
   regLow 0x1300010 .ro 0x0 /- SAF_SEQ_LO -/,
   reg1 0x1300014 .ro 0x0 /- SAF_SEQ_HI -/,
   reg1 0x1300018 .ro 0x0 /- SAF_IMAGE_ACTIVE -/,
   reg1 0x130001c .ro 0x0 /- SAF_IMAGE_STANDBY -/,
   reg1 0x1300020 .ro 0x0 /- SAF_SWITCHES -/,
   reg1 0x1300024 .ro 0x0 /- SAF_TD_STATUS -/,
   reg1 0x1300028 .ro 0x0 /- SAF_REFUSALS -/,
   reg1 0x130002c .ro 0x0 /- SAF_SPDM -/,
   reg1 0x1300030 .ro 0x0 /- SAF_SEALED -/]

/-- R454. -/
def rowsDmcR454 : List RegRow :=
  [reg1 0x1000000 .ro 0x10004 /- DMC_ID -/,
   reg1 0x1000004 .ro 0x0 /- DMC_CH_STATE -/,
   reg1 0x1000008 .ro 0x0 /- DMC_MTS_HIGH -/,
   reg1 0x100000c .rw 0x12c0 /- DMC_MTS_LOW -/,
   reg1 0x1000010 .wo 0x0 /- DMC_FREQ_CTRL -/,
   reg1 0x1000014 .ro 0x0 /- DMC_FREQ_STATUS -/,
   reg1 0x1000018 .rw 0x5a0050 /- DMC_THERM -/,
   reg1 0x100001c .rw 0xc8 /- DMC_SR_IDLE -/,
   reg1 0x1000020 .rw 0xc802 /- DMC_PAGE_CTRL -/,
   reg1 0x1000024 .ro 0x0 /- DMC_ALLOC_SLABS -/,
   reg1 0x1000028 .ro 0x0 /- DMC_TOTAL_SLABS -/,
   reg1 0x100002c .wo 0x0 /- DMC_RETIRE_CTRL -/,
   reg1 0x1000030 .ro 0x0 /- DMC_RETIRE_STATUS -/,
   reg1 0x1000034 .rw 0x0 /- DMC_AUTO_RETIRE -/,
   ⟨0x1000100, 1, 0x20, 4, .rc, 0x0, false, false⟩ /- DMC_CHn_ACT -/,
   ⟨0x1000104, 1, 0x20, 4, .rc, 0x0, false, false⟩ /- DMC_CHn_HIT -/,
   ⟨0x1000108, 1, 0x20, 4, .rc, 0x0, false, false⟩ /- DMC_CHn_CONFLICT -/,
   ⟨0x100010c, 1, 0x20, 4, .rc, 0x0, false, false⟩ /- DMC_CHn_RFM -/,
   ⟨0x1000110, 1, 0x20, 4, .ro, 0x0, false, false⟩ /- DMC_CHn_TEMP -/,
   ⟨0x1000114, 1, 0x20, 4, .rc, 0x0, false, false⟩ /- DMC_CHn_QPEAK -/]

/-- R455. -/
def rowsEccR455 : List RegRow :=
  [reg1 0x1100000 .ro 0x10050 /- ECC_ID -/,
   reg1 0x1100004 .ro 0x180018 /- ECC_SCRUB -/,
   regLow 0x1100008 .ro 0x0 /- ECC_DRAM_POS_LO -/,
   reg1 0x110000c .ro 0x0 /- ECC_DRAM_POS_HI -/,
   reg1 0x1100010 .ro 0x0 /- ECC_PASSES -/,
   reg1 0x1100014 .rc 0x0 /- ECC_CE_DRAM -/,
   reg1 0x1100018 .rc 0x0 /- ECC_UE_DRAM -/,
   reg1 0x110001c .rc 0x0 /- ECC_CE_SRAM -/,
   reg1 0x1100020 .rc 0x0 /- ECC_UE_SRAM -/,
   reg1 0x1100024 .ro 0x0 /- ECC_POISONED -/,
   reg1 0x1100028 .rc 0x0 /- ECC_MERGE_REFUSED -/,
   regSel 0x110002c 0x0 /- ECC_LOG_SEL -/,
   regLow 0x1100030 .ro 0x0 /- ECC_LOG_ADDR_LO -/,
   reg1 0x1100034 .ro 0x0 /- ECC_LOG_ADDR_HI -/,
   reg1 0x1100038 .ro 0x0 /- ECC_LOG_INFO -/,
   regLow 0x110003c .ro 0x0 /- ECC_LOG_CUE_LO -/,
   reg1 0x1100040 .ro 0x0 /- ECC_LOG_CUE_HI -/,
   regSel 0x1100044 0x0 /- ECC_DEV_SEL -/,
   reg1 0x1100048 .ro 0x0 /- ECC_DEV_CE -/]

/-- R474. -/
def rowsEvtR474 : List RegRow :=
  [reg1 0x1200000 .ro 0x10200 /- EVT_ID -/,
   regSel 0x1200004 0x0 /- EVT_SRC_SEL -/,
   reg1 0x1200008 .ro 0x0 /- EVT_SRC_INFO -/,
   reg1 0x120000c .rc 0x0 /- EVT_SRC_COUNT -/,
   reg1 0x1200010 .rw 0x0 /- EVT_HOUSE_VEC -/,
   reg1 0x1200014 .rc 0x0 /- EVT_NOTIFIED -/,
   reg1 0x1200018 .rc 0x0 /- EVT_SEC_WAIT -/]

/-- R474. -/
def rowsSmpR474 : List RegRow :=
  [reg1 0x1280000 .ro 0x10040 /- SMP_ID -/,
   reg1 0x1280004 .ro 0x0 /- SMP_STATUS -/,
   regLow 0x1280008 .ro 0x0 /- SMP_FIRST_LO -/,
   reg1 0x128000c .ro 0x0 /- SMP_FIRST_HI -/,
   regLow 0x1280010 .ro 0x0 /- SMP_NEXT_LO -/,
   reg1 0x1280014 .ro 0x0 /- SMP_NEXT_HI -/,
   reg1 0x1280018 .ro 0x0 /- SMP_FOOT_USED -/,
   reg1 0x128001c .ro 0x0 /- SMP_OP_SECONDS -/,
   reg1 0x1280020 .ro 0x0 /- SMP_POWER_CYCLES -/,
   reg1 0x1280024 .rc 0x0 /- SMP_LOST -/,
   reg1 0x1280028 .rc 0x0 /- SMP_MERGED -/,
   reg1 0x128002c .ro 0x0 /- SMP_PENDING -/,
   reg1 0x1280030 .ro 0x0 /- SMP_COPIES -/,
   ⟨0x1280038, 1, 0, 1, .rw, 0x0, true, true⟩ /- SMP_CURSOR_LO -/,
   ⟨0x128003c, 1, 0, 1, .rw, 0x0, false, true⟩ /- SMP_CURSOR_HI -/,
   reg1 0x1280040 .ro 0x0 /- SMP_WIN_STATUS -/,
   ⟨0x1280100, 16, 0x0, 1, .ro, 0x0, false, false⟩ /- SMP_WINDOW0–15 -/]

/-- R475. -/
def rowsTwR475 : List RegRow :=
  [regLow 0x3000 .ro 0x0 /- TW_SMP_FIRST_LO -/,
   reg1 0x3004 .ro 0x0 /- TW_SMP_FIRST_HI -/,
   regLow 0x3008 .ro 0x0 /- TW_SMP_NEXT_LO -/,
   reg1 0x300c .ro 0x0 /- TW_SMP_NEXT_HI -/,
   ⟨0x3010, 1, 0, 1, .rw, 0x0, true, true⟩ /- TW_SMP_CURSOR_LO -/,
   ⟨0x3014, 1, 0, 1, .rw, 0x0, false, true⟩ /- TW_SMP_CURSOR_HI -/,
   reg1 0x3018 .ro 0x0 /- TW_SMP_STATUS -/,
   regSel 0x301c 0x0 /- TW_SMP_VIOL_SEL -/,
   reg1 0x3020 .rc 0x0 /- TW_SMP_VIOL_COUNT -/,
   ⟨0x3100, 16, 0x0, 1, .ro, 0x0, false, false⟩ /- TW_SMP_ENTRY0–15 -/,
   ⟨0x6000, 16, 0x0, 1, .rw, 0x0, false, false⟩ /- TW_EVT_EN0–15 -/,
   reg1 0x6040 .rw 0x0 /- TW_EVT_CTRL -/,
   reg1 0x6044 .rc 0x0 /- TW_EVT_SENT -/]

/-- R501. -/
def rowsDevR501 : List RegRow :=
  [reg1 0x0 .ro 0x740000b0 /- DEV_ID -/,
   reg1 0x4 .ro 0x1 /- DEV_STATE -/,
   reg1 0x8 .ro 0x0 /- DEV_STATUS -/,
   reg1 0xc .wo 0x0 /- DEV_CTRL -/,
   regLow 0x10 .ro 0x0 /- DEV_SERIAL_LO -/,
   reg1 0x14 .ro 0x0 /- DEV_SERIAL_HI -/,
   regLow 0x18 .ro 0x0 /- DEV_MAC_LO -/,
   reg1 0x1c .ro 0x0 /- DEV_MAC_HI -/,
   reg1 0x20 .ro 0x0 /- DEV_REH_STEPS -/,
   reg1 0x24 .ro 0x0 /- DEV_REH_ERR -/,
   regLow 0x28 .ro 0x0 /- DEV_STATE_CUE_LO -/,
   reg1 0x2c .ro 0x0 /- DEV_STATE_CUE_HI -/,
   reg1 0x30 .ro 0x0 /- DEV_PERF_MS -/,
   reg1 0x34 .ro 0x0 /- DEV_FW_SLOT -/,
   reg1 0x38 .ro 0x0 /- DEV_FW_SVN -/,
   reg1 0x3c .ro 0x0 /- DEV_FW_FLOOR -/]

/-- R502. -/
def rowsPwrR502 : List RegRow :=
  [reg1 0x1400000 .ro 0x1000b /- PWR_ID -/,
   reg1 0x1400004 .ro 0x0 /- PWR_STATUS -/,
   regSel 0x1400008 0x0 /- PWR_RAIL_SEL -/,
   reg1 0x140000c .ro 0x0 /- PWR_RAIL_MV -/,
   regSel 0x1400010 0x0 /- PWR_TEMP_SEL -/,
   reg1 0x1400014 .ro 0x0 /- PWR_TEMP -/,
   reg1 0x1400018 .ro 0x0 /- PWR_POWER -/,
   reg1 0x140001c .rw 0x64 /- PWR_TEMP_WARN -/,
   reg1 0x1400020 .rw 0x69 /- PWR_TEMP_THROTTLE -/,
   reg1 0x1400024 .rw 0x78 /- PWR_TEMP_SHUTDOWN -/,
   reg1 0x1400028 .ro 0x64 /- PWR_THROTTLE_PCT -/,
   reg1 0x140002c .ro 0x0 /- PWR_VCORE_REQ -/,
   reg1 0x1400030 .ro 0x0 /- PWR_AGE_MARGIN -/,
   reg1 0x1400034 .ro 0x0 /- PWR_LOSS_COUNT -/,
   reg1 0x1400038 .ro 0x0 /- PWR_HOLDUP_LAST -/]

/-- R526. -/
def rowsTwR526 : List RegRow :=
  [reg1 0x0 .ro 0x10001 /- TW_ID -/,
   reg1 0x4 .ro 0x0 /- TW_TAG -/,
   reg1 0x8 .ro 0x0 /- TW_FLAGS -/,
   reg1 0xc .ro 0x1 /- TW_STATE -/,
   regLow 0x10 .ro 0x0 /- TW_QUOTA_FLASH_LO -/,
   reg1 0x14 .ro 0x0 /- TW_QUOTA_FLASH_HI -/,
   regLow 0x18 .ro 0x0 /- TW_QUOTA_PLAT_LO -/,
   reg1 0x1c .ro 0x0 /- TW_QUOTA_PLAT_HI -/,
   regLow 0x20 .ro 0x0 /- TW_CHARGED_FLASH_LO -/,
   reg1 0x24 .ro 0x0 /- TW_CHARGED_FLASH_HI -/,
   regLow 0x28 .ro 0x0 /- TW_CHARGED_PLAT_LO -/,
   reg1 0x2c .ro 0x0 /- TW_CHARGED_PLAT_HI -/,
   reg1 0x30 .ro 0x0 /- TW_WINGS_KIB -/,
   reg1 0x34 .ro 0x0 /- TW_STAGING_KIB -/]

/-- The house window's rows. -/
def houseRows : List RegRow :=
  rowsPrkR45 ++
  rowsCueR74 ++
  rowsClkR74 ++
  rowsHfeR104 ++
  rowsHfeR138 ++
  rowsCbdR157 ++
  rowsTrlR198 ++
  rowsFlcR223 ++
  rowsLdpR224 ++
  rowsRchR255 ++
  rowsHopR284 ++
  rowsMlkR285 ++
  rowsSmgR306 ++
  rowsBobR334 ++
  rowsSmkR358 ++
  rowsTlyR358 ++
  rowsAsuR382 ++
  rowsScrR403 ++
  rowsSafR427 ++
  rowsDmcR454 ++
  rowsEccR455 ++
  rowsEvtR474 ++
  rowsSmpR474 ++
  rowsDevR501 ++
  rowsPwrR502

/-- A tenant window's rows. -/
def tenantRows : List RegRow :=
  rowsTwR139 ++
  rowsTwR157 ++
  rowsTwR162 ++
  rowsTwR335 ++
  rowsTwR357 ++
  rowsTwR404 ++
  rowsTwR475 ++
  rowsTwR526

end Sys2Proof.Machine
end

