-- ==== Sys2Proof/Machine/Operands.lean ====
section
/-! DEFINITION. Register accesses as R8-R14 take them: rows found by offset, halves of 64-bit quantities per requester,
ranges and reserved bits of RW registers, counters that a read clears. -/
namespace Sys2Proof.Machine

/-- A requester as a number: functions by port and index, the NVMe-MI endpoint, Prompter pairs. [DESIGN CHOICE: log entry 11] -/
def reqId : Requester → Nat
  | .function p f => p * 2 ^ 15 + f
  | .mi => 2 ^ 16
  | .prompter k => 2 ^ 16 + 1 + k

/-- Does a table row hold offset `o`? -/
def rowHolds (r : RegRow) (o : Nat) : Bool :=
  let d := o - r.off
  decide (r.off ≤ o) && d % 4 == 0 &&
    (if r.stride = 0 then decide (d < 4 * r.words) else decide (d / r.stride < r.count ∧ d % r.stride < 4 * r.words))

/-- The row of an offset in a list of rows. -/
def findRow (rows : List RegRow) (o : Nat) : Option RegRow := rows.find? (fun r => rowHolds r o)

/-- The row of a register in its window (none: the offset holds no register, R11). -/
def regRow (w : Window) (o : Nat) : Option RegRow :=
  match w with
  | .house => findRow houseRows o
  | .tenant _ => findRow tenantRows o

/-- The key of a register in the stored registers. -/
def regKey (w : Window) (o : Nat) : Nat :=
  match w with
  | .house => houseKey o
  | .tenant t => tenantKey t o

/-- The offset of a 64-bit quantity's low word, where `o` is either of its words (R8). -/
def lowOf (w : Window) (o : Nat) : Option Nat :=
  match regRow w o with
  | some r => if r.low then some o else
      match regRow w (o - 4) with
      | some q => if q.low ∧ 4 ≤ o then some (o - 4) else none
      | none => none
  | none => none

/-- The PCIe controller that runs on a function, with its number: enabled, in reset or failed (R82). -/
def State.fnCtrl (s : State) (port fn : Nat) : Option (Nat × Ctrl) :=
  s.hfe.ctrls.find? (fun k => k.2.transport == 0 && k.2.port == port && k.2.fn == fn && (k.2.enabled || k.2.resetting))

/-- The CONTROLLER record that names a function, with its instance (R79). -/
def State.fnRecord (s : State) (port fn : Nat) : Option (Nat × ControllerRec) :=
  (s.cfg.recs.find? (fun r => r.1 / 65536 == 0x0302 && (controllerOf r.2).transport == 0 &&
    (controllerOf r.2).fn == port * 2 ^ 15 + fn)).map (fun r => (r.1 % 65536, controllerOf r.2))

/-- The tenant whose window a function's BAR2 shows: the house tenant's on a PF, on a VF the tenant of the controller that runs or of
the function's record; a vacant VF shows none (R79, R80, R82, R525). [DESIGN CHOICE: log entry 21] -/
def windowTag (s : State) (port fn : Nat) : Option Nat :=
  if fn = 0 then some 0
  else match s.fnCtrl port fn with
    | some k => some k.2.tag
    | none => (s.fnRecord port fn).map (fun r => r.2.tag)

/-- A tenant window is reached only through its own functions, the house tenant's on a PF, the house window only by the house
tenant: PF0, NVMe-MI and the Prompters (00_scope.md, R525). [DESIGN CHOICE: log entry 21] -/
def mayReach (s : State) (q : Requester) (w : Window) : Bool :=
  match q, w with
  | .function p f, .house => decide (p = 0 ∧ f = 0)
  | .function p f, .tenant t =>
    windowTag s p f == some t
  | .mi, .house => true
  | .mi, .tenant _ => false
  | .prompter _, _ => true

/-- In recovery only DEV_, PWR_ and SAF_ are readable (R486, R524). -/
def recoveryReadable (w : Window) (o : Nat) : Bool :=
  match w with
  | .house => decide (o < 0x100000 ∨ (0x1300000 ≤ o ∧ o < 0x1500000))
  | .tenant _ => false

/-- May a write reach a register now? Not in Dark; in recovery none; in Curtain Down only to selectors and cursors (R486, R524). -/
def writable (s : State) (selector : Bool) : Bool :=
  match s.dev.phase with
  | .dark => false
  | .curtainDown => selector
  | _ => !s.dev.recovery

/-- A requester's pending low word (R8). -/
def pendingLow (s : State) (q : Requester) (key : Nat) : Option W32 :=
  (s.bus.pendingLow.find? (fun h => h.requester == reqId q && h.key == key)).map (fun h => h.value)

/-- The latches of one requester for one quantity removed. -/
def dropHalf (l : List Half) (q key : Nat) : List Half := l.filter (fun h => !(h.requester == q && h.key == key))

/-- A write of the low word is held as that requester's pending low word (R8). -/
def holdLow (q : Requester) (key : Nat) (v : W32) (s : State) : State :=
  { s with bus := { s.bus with
      pendingLow := dropHalf s.bus.pendingLow (reqId q) key ++ [⟨reqId q, key, v⟩] } }

/-- The quantity that a write of the high word forms: that word, and the pending low word or the low half in effect (R8). -/
def formed (s : State) (q : Requester) (key : Nat) (lowNow : Nat) (hi : W32) : Nat :=
  (match pendingLow s q key with | some v => v.toNat | none => lowNow) + hi.toNat * 2 ^ 32

/-- The pending low word is used up (R8). -/
def useLow (q : Requester) (key : Nat) (s : State) : State :=
  { s with bus := { s.bus with pendingLow := dropHalf s.bus.pendingLow (reqId q) key } }

/-- The latches and pending words of the requesters that `p` accepts go: their functions were reset (R8). -/
def dropRequesters (p : Nat → Bool) (s : State) : State :=
  { s with bus := { s.bus with
      pendingLow := s.bus.pendingLow.filter (fun h => !p h.requester)
      latchedHigh := s.bus.latchedHigh.filter (fun h => !p h.requester) } }

/-- A 64-bit RW quantity takes effect from the write of its high word (R8). -/
def takeHigh (q : Requester) (key : Nat) (hi : W32) (s : State) : State :=
  useLow q key (setReg64 key (formed s q key (s.reg key 0) hi) s)

/-! ### Ranges and reserved bits of RW registers -/

/-- What an RW register takes: the bits it has, and fields with the range the table states for each. -/
structure RwRule where
  off : Nat
  stride : Nat
  count : Nat
  mask : Nat
  fields : List (Nat × Nat × Nat × Nat)
  deriving DecidableEq, Repr

/-- A rule of one register with one range over the bits [hi:0]. -/
def rw1 (off hi lo up : Nat) : RwRule := ⟨off, 0, 1, 2 ^ (hi + 1) - 1, [(31, 0, lo, up)]⟩

/-- A rule of one register that has the bits [hi:0] and no range. -/
def rwBits (off hi : Nat) : RwRule := ⟨off, 0, 1, 2 ^ (hi + 1) - 1, []⟩

/-- The house window's RW registers (R45, R74, R104, R198, R223, R224, R255). -/
def rwRulesA : List RwRule :=
  [rw1 0x100030 31 1 60000, rw1 0x100050 31 0 0x03FF0000,
   ⟨0x200004, 0, 1, 0x103, []⟩, rwBits 0x200058 6, rwBits 0x20800C 24,
   rwBits 0x300030 5, rw1 0x300038 31 100 60000, rwBits 0x30003C 10, rwBits 0x300100 5, ⟨0x300104, 0, 1, 0xC0FF0FFF, []⟩,
   rw1 0xA00060 31 1 365, rw1 0xA00064 31 30 3650,
   rw1 0xB00010 31 8 1024, rw1 0xB00014 31 2 16, rw1 0xB0001C 31 2 16, rwBits 0xB00020 9, rw1 0xB00044 31 1 168,
   rw1 0xC00008 31 4 32, rw1 0xC0000C 31 8 64,
   rw1 0xD00008 31 20 300, rw1 0xD0000C 31 10 300, ⟨0xD00010, 0, 1, 0x0FFF0FFF, [(27, 16, 50, 2000), (11, 0, 50, 2000)]⟩,
   ⟨0xD00014, 0, 1, 0xF0F, [(11, 8, 0, 12), (3, 0, 0, 8)]⟩, rw1 0xD00018 31 32 512, rw1 0xD0001C 31 1 720,
   rw1 0xD00020 31 1000 600000, rw1 0xD00024 31 1 49]

/-- The house window's RW registers (R284, R306, R334, R358, R382, R403, R454, R455, R474, R502). -/
def rwRulesB : List RwRule :=
  [rw1 0xE00010 31 5 500, rw1 0xE00014 31 16 4096, rw1 0xE00018 31 1 64, ⟨0xE00800, 0x40, 64, 0x111, []⟩,
   rw1 0x400014 31 1 256, rw1 0x400018 31 64 65536, rwBits 0x400040 5, rwBits 0x400050 2, rwBits 0x400070 12,
   ⟨0x400100, 0x20, 16, 0xFFFFFFC0, []⟩, ⟨0x400108, 0x20, 16, 0x8000001F, [(4, 0, 6, 16)]⟩,
   ⟨0x40010C, 0x20, 16, 0xFFFF, []⟩,
   rwBits 0x500020 6, rwBits 0x500028 6, rw1 0x500038 31 100 100000, rw1 0x50003C 31 1 720,
   rw1 0x700014 31 4 256, rw1 0x700018 31 100 600000,
   rwBits 0x600008 4, rw1 0x600040 31 1 1440, rwBits 0x60004C 4,
   rwBits 0x900010 0, rw1 0x900014 31 256 65536, rwBits 0x900038 12,
   rw1 0x100000C 31 4800 8000, ⟨0x1000018, 0, 1, 0xFF00FF, [(23, 16, 60, 105), (7, 0, 50, 100)]⟩,
   rw1 0x100001C 31 0 10000, ⟨0x1000020, 0, 1, 0xFFF07, [(19, 8, 20, 2000), (2, 0, 0, 4)]⟩, rwBits 0x1000034 0,
   rwBits 0x110002C 4, rwBits 0x1100044 5,
   rwBits 0x1200004 8, rwBits 0x1200010 10, ⟨0x128003C, 0, 1, 0x8000FFFF, []⟩,
   rw1 0x1400008 31 0 10, rwBits 0x1400010 2, rw1 0x140001C 31 70 115, rw1 0x1400020 31 70 118, rw1 0x1400024 31 72 125]

/-- The tenant windows' RW registers (R162, R335, R357, R404, R475). -/
def rwRulesT : List RwRule :=
  [rwBits 0x4000 5, ⟨0x1008, 0x40, 4, 0x1FFF, []⟩, rwBits 0x8004 12, rwBits 0x301C 5,
   ⟨0x7018, 0, 1, 0x303, []⟩, ⟨0x7040, 0, 1, 0x1F1F, [(12, 8, 0, 16), (4, 0, 0, 16)]⟩,
   ⟨0x602C, 0, 1, 0, []⟩, ⟨0x6040, 0, 1, 0xC00707FF, [(18, 16, 0, 4)]⟩]

/-- The rule of an RW register. -/
def rwRule (w : Window) (o : Nat) : Option RwRule :=
  (match w with | .house => rwRulesA ++ rwRulesB | .tenant _ => rwRulesT).find? (fun r =>
    let d := o - r.off
    decide (r.off ≤ o) && (if r.stride = 0 then d == 0 else d % r.stride == 0 && decide (d / r.stride < r.count)))

/-- Conditions that name a second register or a multiple: PRK_APT_OFFSET (R45), RCH_SYNC_TOL (R255), DMC_MTS_LOW, DMC_THERM
and DMC_SR_IDLE (R442, R454), the temperature thresholds (R502), TW_ARC_OPTS (R162), the house window's event enables (R460). -/
def rwExtra (s : State) (w : Window) (o v : Nat) : Bool :=
  match w with
  | .house =>
    if o = 0x100050 then v % 65536 == 0
    else if o = 0xD00014 then decide (bits v 3 0 ≤ bits v 11 8)
    else if o = 0x100000C then v % 400 == 0 && decide (v ≤ (s.clkPlan).1)
    else if o = 0x1000018 then decide (bits v 7 0 + 5 ≤ bits v 23 16)
    else if o = 0x100001C then decide (v = 0 ∨ 10 ≤ v)
    else if o = 0x140001C then decide (v ≤ s.reg 0x1400020 0x69)
    else if o = 0x1400020 then decide (s.reg 0x140001C 0x64 ≤ v ∧ v + 2 ≤ s.reg 0x1400024 0x78)
    else if o = 0x1400024 then decide (s.reg 0x1400020 0x69 + 2 ≤ v)
    else true
  | .tenant t =>
    if o = 0x7018 then decide (bits v 1 0 ≠ 0)
    else !(t == 0 && decide (0x6000 ≤ o ∧ o ≤ 0x6040))

/-- What an RW register stores for a written value, or nothing where the write is discarded: reserved bits stay zero (R10),
a field outside its range discards the write. -/
def rwValue (s : State) (w : Window) (o v : Nat) : Option Nat :=
  if rwExtra s w o v then
    match rwRule w o with
    | some r => if r.fields.all (fun f => decide (f.2.2.1 ≤ bits v f.1 f.2.1 ∧ bits v f.1 f.2.1 ≤ f.2.2.2))
        then some (v &&& r.mask) else none
    | none => some v
  else none

/-- An RW register is written where its rule takes the value. -/
def storeRw (w : Window) (o v : Nat) (s : State) : State :=
  match rwValue s w o v with
  | some x => setReg (regKey w o) x s
  | none => s

/-! ### Counters that a read clears -/

/-- The key under which an RC register's value is kept: selected counts are kept per selection. -/
def rcKey (s : State) (w : Window) (o : Nat) : Nat :=
  match w with
  | .house =>
    if o = 0x300034 then selKey o (s.reg 0x300030 0)
    else if o = 0x120000C then selKey o (s.reg 0x1200004 0)
    else if o = 0x400048 then selKey o (s.reg 0x400040 0)
    else if o = 0x40005C then selKey o (s.reg 0x400050 0)
    else o
  | .tenant t => if o = 0x3020 then selKey (tenantKey t o) (s.reg (tenantKey t 0x301C) 0) else tenantKey t o

/-- An RC register is read: its value and its reset value in its place (R12); an update that falls in the same cycle is
kept (R14). -/
def clearRc (key reset upd : Nat) (s : State) : State :=
  { s with bus := { s.bus with
      rc := if upd = 0 ∧ reset = 0 then Tab.del s.bus.rc key else Tab.put s.bus.rc key (min (reset + upd) (2 ^ 32 - 1)) } }

/-- What the last read returned. -/
def returnRead (v size : Nat) (s : State) : State :=
  { s with bus := { s.bus with readData := v % 2 ^ (8 * size), readSize := size } }

end Sys2Proof.Machine
end

