-- ==== Sys2Proof/Machine/Events.lean ====
section
/-! DEFINITION. The event fabric and the Sampler (18_events_and_sampler.md): raising, pages and copies, cursors, enables,
and what the EVT_, SMP_ and tenant-window Sampler registers and log page 0xC3 show. -/
namespace Sys2Proof.Machine

/-- A unit raises an event (R457); nothing is raised in Dark. -/
def doEventRaise (e : Event) (s : State) : State :=
  onlyIf s.powered (raise e.source e.code e.arg0 e.arg1 e.tag) s

/-- Pages whose oldest open record has been open for 1 s are written (R466). -/
def doSamplerPageTimer (s : State) : State :=
  let due := fun (e : EvtState) (p : Nat × Nat) => if p.2 + 1000000000 ≤ s.wall then closePage p.1 e else e
  { s with evt := s.evt.pageTimer.foldl due s.evt }

/-- Waiting security events are accepted, in order, while the SRAM has room (R462); `n` bounds how many. -/
def admitSecurity : Nat → State → State
  | 0, s => s
  | n + 1, s =>
    match s.evt.secWait with
    | [] => s
    | ev :: t =>
      if s.evt.waiting < 4096 + 1024 then
        admitSecurity n
          { s with evt := acceptNew ev (s.eventRoute ev.source).severity s.opSeconds s.wall { s.evt with secWait := t } }
      else s

/-- A page of records is programmed to a copy (R468); with the last one a move of the copies ends; waiting security events take the room
it leaves (R462). -/
def doSamplerPageProgrammed (copy page : Nat) (s : State) : State :=
  let e := s.evt
  let e := if copy = 1 then { e with wait1 := Tab.del e.wait1 page } else { e with wait2 := Tab.del e.wait2 page }
  admitSecurity s.evt.secWait.length { s with evt := { e with
    oldCopies := if e.wait1.isEmpty && e.wait2.isEmpty then none else e.oldCopies } }

/-- A write of SMP_CURSOR_HI selects the record or Footside entry the SMP_ window shows (R470). -/
def doSmpCursorWrite (q : Requester) (hi : W32) (s : State) : State :=
  if mayReach s q .house ∧ writable s true then
    let v := formed s q 0x1280038 (s.reg 0x1280038 0) hi
    let n := v % 2 ^ 48
    let f := v.testBit 63
    useLow q 0x1280038 (setReg64 0x1280038 (n + (if f then 2 ^ 63 else 0))
      { s with evt := { s.evt with cursor := { foot := f, number := n } } })
  else s

/-- A write of TW_SMP_CURSOR_HI selects the record the tenant's Sampler view shows (R471). -/
def doTwSmpCursorWrite (q : Requester) (tag : Nat) (hi : W32) (s : State) : State :=
  if mayReach s q (.tenant tag) ∧ writable s true then
    let k := tenantKey tag 0x3010
    let v := formed s q k (s.reg k 0) hi
    takeHigh q k hi { s with evt := { s.evt with tenantCursor := Tab.put s.evt.tenantCursor tag v } }
  else s

/-- A tenant writes its notification control through function `fn` (port in bit 15), which MSIX = 1 binds (R460, R475). [DESIGN CHOICE: log entry 20] -/
def doTwEvtCtrlWrite (fn tag : Nat) (val : W32) (s : State) : State :=
  if mayReach s (.function (fn / 2 ^ 15) (fn % 2 ^ 15)) (.tenant tag) ∧ writable s false ∧ tag ≠ 0 then
    match rwValue s (.tenant tag) 0x6040 val.toNat with
    | some v =>
      setReg (tenantKey tag 0x6040) v
        (if v.testBit 31 then { s with evt := { s.evt with boundFn := Tab.put s.evt.boundFn tag fn } } else s)
    | none => s
  else s

/-! ### What the registers show -/

/-- The 64 bytes of a record (R463). -/
def recordBytes (r : EvRec) (recno : Nat) : Bytes :=
  leBytes 1 r.gen ++ leBytes 1 (flag r.seqStamp 0 + flag r.footside 1 + flag r.pinned 2 + flag r.repeatSat 3) ++
  leBytes 2 r.source ++ leBytes 2 r.tenant ++ leBytes 1 r.severity ++ leBytes 1 0 ++ leBytes 2 r.repeats ++
  leBytes 2 r.code ++ leBytes 8 r.stamp ++ leBytes 4 0 ++ leBytes 8 r.cue ++ leBytes 8 r.lastCue ++
  leBytes 8 r.arg0 ++ leBytes 8 r.arg1 ++ leBytes 6 recno ++ leBytes 2 0

/-- Oldest record number in the Running region. -/
def EvtState.firstNo (e : EvtState) : Nat := e.running.foldl (fun m p => min m p.2.recno) e.next

/-- The record the SMP_ window shows, and GONE (R470). -/
def EvtState.shown (e : EvtState) : Option EvRec × Bool :=
  if e.cursor.foot then (Tab.find e.foot e.cursor.number, false)
  else
    match Tab.find e.running (e.cursor.number % 65536) with
    | some r => if r.recno = e.cursor.number then (some r, false) else (none, decide (e.cursor.number < e.next))
    | none => (none, decide (e.cursor.number < e.next))

/-- A tenant's log. -/
def EvtState.log (e : EvtState) (tag : Nat) : TenantLog := Tab.at e.logs tag {}

/-- The record a tenant's view shows with the tenant's own number, and GONE (R471). -/
def EvtState.tenantShown (e : EvtState) (tag : Nat) : Option (EvRec × Nat) × Bool :=
  let l := e.log tag
  let c := Tab.at e.tenantCursor tag 0
  let first := l.next - l.recs.length
  if c < first then (none, true)
  else ((l.recs[c - first]?).map (fun r => (r, c)), false)

/-- A record as a tenant sees it. -/
def State.tenantRecord (s : State) (tag : Nat) (r : EvRec) (no : Nat) : Bytes :=
  recordBytes { r with cue := s.tenantCue tag r.cue, lastCue := s.tenantCue tag r.lastCue } no

/-- A word of 64 record bytes. -/
def recWord (b : Bytes) (i : Nat) : Nat := leAt b (4 * i) 4

/-- Only one copy is written: a copy's flash group is out of use. Given as pages waiting for one copy alone (R468). [DESIGN CHOICE: log entry 70] -/
def EvtState.single (e : EvtState) : Bool := e.wait1.isEmpty != e.wait2.isEmpty

/-- EVT_ and SMP_ registers (R474). -/
def evtView (s : State) (o : Nat) : Option Nat :=
  let e := s.evt
  if o = 0x1200008 then
    let r := s.eventRoute (s.reg 0x1200004 0)
    some (field r.targets 4 28 + field r.severity 3 24 + field r.owner 13 0)
  else if o = 0x1280004 then
    some (flag (e.moving || e.oldCopies.isSome) 5 + flag e.restored 4 + flag e.hole 3 + flag (decide (4096 ≤ e.waiting)) 2 + flag e.pinFull 1 +
      flag e.single 0)
  else if o = 0x1280008 then some (e.firstNo % 2 ^ 32)
  else if o = 0x128000C then some (e.firstNo / 2 ^ 32 % 65536)
  else if o = 0x1280010 then some (e.next % 2 ^ 32)
  else if o = 0x1280014 then some (e.next / 2 ^ 32 % 65536)
  else if o = 0x1280018 then some (field e.reserveUsed 11 16 + min e.next 15360)
  else if o = 0x128001C then some (s.opSeconds % 2 ^ 32)
  else if o = 0x1280020 then some (e.powerCycles % 2 ^ 24)
  else if o = 0x128002C then
    some (field ((e.wait2.map (fun p => p.2)).sum) 13 16 + field ((e.wait1.map (fun p => p.2)).sum) 13 0)
  else if o = 0x1280030 then some (field (s.samplerGroups).2 2 8 + field (s.samplerGroups).1 2 0)
  else if o = 0x1280040 then some (flag e.shown.2 1 + flag e.shown.1.isSome 0)
  else if 0x1280100 ≤ o ∧ o < 0x1280140 then
    match e.shown.1 with
    | some r => some (recWord (recordBytes r r.recno) ((o - 0x1280100) / 4))
    | none => some 0
  else none

/-- The tenant window's Sampler view and event enables (R475). -/
def twEvtView (s : State) (tag o : Nat) : Option Nat :=
  let l := s.evt.log tag
  let first := l.next - l.recs.length
  if o = 0x3000 then some (first % 2 ^ 32)
  else if o = 0x3004 then some (first / 2 ^ 32)
  else if o = 0x3008 then some (l.next % 2 ^ 32)
  else if o = 0x300C then some (l.next / 2 ^ 32)
  else if o = 0x3018 then some (flag (s.evt.tenantShown tag).2 1 + flag (s.evt.tenantShown tag).1.isSome 0)
  else if 0x3100 ≤ o ∧ o < 0x3140 then
    match (s.evt.tenantShown tag).1 with
    | some (r, no) => some (recWord (s.tenantRecord tag r no) ((o - 0x3100) / 4))
    | none => some 0
  else none

/-- Log page 0xC3 of a controller of tenant `tag` (R461): the tenant's log, or the newest 256 Running records for the house. -/
def eventLogPage (s : State) (tag : Nat) : Bytes :=
  let recs : List Bytes × Nat :=
    if tag = 0 then
      let first := max s.evt.firstNo (s.evt.next - 256)
      let rs := (List.range (s.evt.next - first)).filterMap (fun i =>
        match Tab.find s.evt.running ((first + i) % 65536) with
        | some r => if r.recno = first + i then some (recordBytes r r.recno) else none
        | none => none)
      (rs, s.evt.next - 1)
    else
      let l := s.evt.log tag
      let first := l.next - l.recs.length
      ((l.recs.zip (List.range l.recs.length)).map (fun p => s.tenantRecord tag p.1 (first + p.2)), l.next - 1)
  padTo (leBytes 8 recs.2 ++ leBytes 4 recs.1.length ++ leBytes 4 0 ++ recs.1.flatten) 16400

end Sys2Proof.Machine
end

