-- ==== Sys2Proof/Machine/Cue.lean ====
section
/-! DEFINITION. The cue clock (03_cue_clock.md, R54-R76): the counter and its discipline, posting, arming and cancelling
cues. What a cue does when it fires is in Machine/CueFire.lean. -/
namespace Sys2Proof.Machine

/-- The cue horizon in ticks (R67). -/
def horizon : Nat := 2048

/-- A cue tick's unit of the phase accumulator: 10^8 (R64). -/
def accumTick : Nat := 100000000

/-! ### Posting (R66, R67) -/

/-- Index of a poster's share in the order of R66: Stage Manager, flash, read channel, Prompters, Hoop, HFE. -/
def shareIx : Poster → Nat
  | .stage => 0
  | .flash _ => 1
  | .read _ => 2
  | .prompters => 3
  | .hoop => 4
  | .hfe => 5

/-- The slots of each share (R66). -/
def shareSize : Nat → Nat
  | 0 => 2048
  | 1 => 1024
  | 2 => 512
  | 3 => 256
  | 4 => 128
  | _ => 128

/-- Slots in use of a share. -/
def CueState.inUse (c : CueState) (ix : Nat) : Nat := (c.slots.filter (fun p => shareIx p.2.poster == ix)).length

/-- Does the poster's share have room: the share itself, and 32 slots a flash channel, 128 an actuator (R66)? -/
def shareRoom (c : CueState) (p : Poster) : Bool :=
  decide (c.inUse (shareIx p) < shareSize (shareIx p)) &&
  match p with
  | .flash _ => decide ((c.slots.filter (fun q => q.2.poster == p)).length < 32)
  | .read _ => decide ((c.slots.filter (fun q => q.2.poster == p)).length < 128)
  | _ => true

/-- What a post answers (CUE_POST_RESULT). -/
inductive PostStatus where
  | armed | late | noSlot
  deriving DecidableEq, Repr

/-- A unit posts a cue (R66, R67): refused with NO_SLOT when its share is full, otherwise a slot holds it, late when the fire
time is nearer than the horizon. Answers the status and the slot. -/
def postCue (p : Poster) (c : CueReq) (s : State) : (PostStatus × Nat) × State :=
  if shareRoom s.cue p then
    match Tab.freeKey s.cue.slots 4096 0 with
    | some k =>
      let late := decide (c.fire < s.cue.now + horizon)
      let slot : CueSlot :=
        { poster := p, fire := c.fire, target := c.target, action := c.action, tag := c.tag, phase := .posted,
          late := late, lateFlag := false, postedAt := s.cue.now, cancelling := false }
      let s := { s with cue := { s.cue with slots := Tab.put s.cue.slots k slot } }
      let s := countLow 0x200044 0x1000 (4096 - s.cue.slots.length) s
      ((if late then .late else .armed, k), if late then count1 0x20003C s else s)
    | none => ((.noSlot, 0), s)
  else ((.noSlot, 0), s)

/-- A post whose answer the poster does not use. -/
def post (p : Poster) (c : CueReq) (s : State) : State := (postCue p c s).2

/-- A unit posts a cue. -/
def doCuePost (p : Poster) (c : CueReq) (s : State) : State := onlyIf s.powered (post p c) s

/-- A house-posted cue: one posted through CUE_POST_CMD (R75). -/
def housePosted (k : CueSlot) : Bool :=
  k.poster == .prompters && match k.action with | .raw _ _ => true | _ => false

/-- A posted cue is armed at its target tap; a tap already at or past the fire time makes its action late (R67). The house
post's result is decided then (R75). -/
def doCueArm (slot : Nat) (s : State) : State :=
  match Tab.find s.cue.slots slot with
  | some k =>
    if k.phase = .posted then
      let k' := { k with phase := .armed, lateFlag := decide (k.fire ≤ s.cue.now) }
      let r := s.cue.postResult
      let r' : CueResult := if housePosted k ∧ r.status = 0xF ∧ r.slot = slot then ⟨if k.late then 1 else 0, slot⟩ else r
      { s with cue := { s.cue with slots := Tab.put s.cue.slots slot k', postResult := r' } }
    else s
  | none => s

/-- A house post (CUE_POST_CMD): discarded while the last one is pending; BAD_TARGET for a unit outside 0-19 (R75). [DESIGN CHOICE: log entry 43] -/
def doCuePostCmd (val : W32) (s : State) : State :=
  if s.cue.postResult.status = 0xF ∨ writable s false = false then s
  else
    let v := val.toNat
    let target := bits v 28 24
    if 19 < target then { s with cue := { s.cue with postResult := ⟨3, 0⟩ } }
    else
      let (r, s) := postCue .prompters
        { fire := s.reg64 0x200200, target := target, action := .raw (bits v 23 16) (bits v 15 0), tag := 0 } s
      match r.1 with
      | .noSlot => { s with cue := { s.cue with postResult := ⟨2, 0⟩ } }
      | _ => { s with cue := { s.cue with postResult := ⟨0xF, r.2⟩ } }

/-! ### Cancelling (R70, R75) -/

/-- A cancel sets out for the target tap; only the unit that posted the cue can cancel it (R70). -/
def cancelCue (p : Poster) (slot : Nat) (s : State) : State :=
  match Tab.find s.cue.slots slot with
  | some k =>
    if k.poster = p then { s with cue := { s.cue with slots := Tab.put s.cue.slots slot { k with cancelling := true, cancelAt := if k.cancelling then k.cancelAt else s.cue.now } } }
    else s
  | none => s

/-- A unit cancels a cue it posted. -/
def doCueCancel (p : Poster) (slot : Nat) (s : State) : State := cancelCue p slot s

/-- A cue is cancelled: its slot returns to its share, and a house cancel of it reads CANCELLED (R70). -/
def dropCue (slot : Nat) (s : State) : State :=
  let r := s.cue.cancelResult
  { s with cue := { s.cue with
      slots := Tab.del s.cue.slots slot
      cancelResult := if r.status = 0xF ∧ r.slot = slot then ⟨0, slot⟩ else r } }

/-- A cancel given at least the horizon before the fire time is at the tap before it (R70). [DEDUCED: log entry 211] -/
def inTime (k : CueSlot) : Bool := k.cancelling && decide (k.cancelAt + horizon ≤ k.fire)

/-- A cancel reaches the target tap before the fire cycle: the cue never fires and its slot returns (R70). Where the cue has
fired already, the action stands and a house cancel reads ALREADY_FIRED. -/
def doCancelArrival (slot : Nat) (s : State) : State :=
  let r := s.cue.cancelResult
  let mine := r.status = 0xF ∧ r.slot = slot
  match Tab.find s.cue.slots slot with
  | some k =>
    if k.cancelling then dropCue slot s
    else if mine then { s with cue := { s.cue with cancelResult := ⟨1, slot⟩ } } else s
  | none => if mine then { s with cue := { s.cue with cancelResult := ⟨1, slot⟩ } } else s

/-- A write to CUE_CANCEL (R75): discarded while the result is pending, 0x2 for a slot that holds no house-posted cue. -/
def doCueCancelWrite (val : W32) (s : State) : State :=
  if s.cue.cancelResult.status = 0xF ∨ writable s false = false then s
  else
    let slot := bits val.toNat 11 0
    match Tab.find s.cue.slots slot with
    | some k =>
      if housePosted k then
        cancelCue .prompters slot { s with cue := { s.cue with cancelResult := ⟨0xF, slot⟩ } }
      else { s with cue := { s.cue with cancelResult := ⟨2, slot⟩ } }
    | none => { s with cue := { s.cue with cancelResult := ⟨2, slot⟩ } }

/-! ### The counter (R54-R64) -/

/-- One CK_CUE cycle of the counter: a hold repeats the opening value once, a skip omits the value after it (R58). [DESIGN CHOICE: log entry 2] -/
def cueCycle (c : CueState) : CueState :=
  if c.periodDone then { c with now := c.now + 1 }
  else
    match c.period with
    | .none => { c with now := c.now + 1, periodDone := true }
    | .hold => { c with periodDone := true }
    | .skip => { c with now := c.now + 2, periodDone := true }

/-- CK_CUE cycles from now to the next multiple of 64. -/
def cyclesToBroadcast (c : CueState) : Nat :=
  let n := nextMultiple c.now 64 - c.now
  if c.periodDone then n
  else
    match c.period with
    | .none => n
    | .hold => n + 1
    | .skip => n - 1

/-- The code of the period that opens, from the phase accumulator (R64). -/
def openPeriod (c : CueState) : CueState :=
  let a := c.accum + c.rateAdj.natAbs * 64
  if accumTick ≤ a then
    { c with
      accum := a - accumTick
      period := if 0 < c.rateAdj then .skip else .hold
      periodDone := false
      netAdj := if 0 < c.rateAdj then c.netAdj + 1 else c.netAdj - 1 }
  else { c with accum := a, period := .none, periodDone := true }

/-- One tap compared with the broadcast (R60): ahead it holds, behind it jumps; beyond 64 ticks it is faulty. -/
def correctTap (p : Nat × Int) (s : State) : State :=
  if p.2 = 0 then s
  else
    let t := Tab.at s.cue.taps p.1 {}
    let bad := decide (64 < p.2.natAbs)
    let t' := { t with
      diff := p.2
      holdOwed := if 0 < p.2 then t.holdOwed + p.2.natAbs else t.holdOwed
      faulty := t.faulty || bad }
    let s := { s with
      cue := { s.cue with taps := Tab.put s.cue.taps p.1 t' }
      clk := { s.clk with warn := if bad then s.clk.warn ||| 4 else s.clk.warn } }
    raiseObj 386 p.1 0 (count1 0x200060 s)

/-- A tap that is to hold holds one tick in each period (R60). -/
def settleTaps (c : CueState) : CueState :=
  { c with taps := Tab.mapVals c.taps (fun _ t => { t with holdOwed := t.holdOwed - 1 }) }

/-- The broadcast at a multiple of 64 without its forward step: taps corrected, the next period opened (R57, R58, R60). [DESIGN CHOICE: log entry 44] -/
def broadcast (drift : List (Nat × Int)) (s : State) : State :=
  let s := { s with cue := openPeriod (settleTaps s.cue) }
  drift.foldl (fun s p => if p.1 < 80 then correctTap p s else s) s

/-- A write of CUE_STEP_HI requests a forward step: only in House Lights and only to a value above the current cue (R55). -/
def doCueStepWrite (q : Requester) (hi : W32) (s : State) : State :=
  if mayReach s q .house ∧ writable s false then
    let v := formed s q 0x200018 (s.reg 0x200018 0) hi
    if s.dev.phase = .houseLights ∧ s.cue.now < v then
      let s := takeHigh q 0x200018 hi s
      { s with cue := { s.cue with step := some (ceilDiv v 64 * 64) } }
    else raise 385 0 0 0 0 (useLow q 0x200018 s)
  else s

/-! ### Skew and discipline (R59, R61-R65) -/

/-- A tap's compensation is measured (R59). -/
def doTapSkewMeasure (tap : Nat) (comp : Int) (dieTemp : Int) (s : State) : State :=
  if tap < 80 ∧ s.powered then
    { s with cue := { s.cue with
        taps := Tab.update s.cue.taps tap {} (fun t =>
          { t with comp := comp, measuring := false, measuredAt := s.wall, measuredTemp := dieTemp }) } }
  else s

/-- A write to CUE_CAL_CTRL starts a re-measurement of one tap or of all (R59, R74). -/
def doCueCalCtrl (val : W32) (s : State) : State :=
  if writable s false then
    let v := val.toNat
    let which := if v.testBit 8 then List.range 80 else if bits v 6 0 < 80 then [bits v 6 0] else []
    { s with cue := { s.cue with
        taps := which.foldl (fun t k => Tab.update t k {} (fun x => { x with measuring := true })) s.cue.taps } }
  else s

/-- CUE_CTRL is written: a disabled or reserved source leaves SRC unchanged (R61). [DEDUCED: log entry 45] -/
def doCueCtrlWrite (val : W32) (s : State) : State :=
  if writable s false then
    let v := val.toNat
    let plan := s.clkPlan
    let src := bits v 1 0
    let allowed := src == 0 || (src == 1 && plan.2.2.1) || (src == 2 && plan.2.2.2.1)
    let src' := if allowed then src else bits s.cue.ctrl 1 0
    let changed := src' ≠ bits s.cue.ctrl 1 0
    { s with cue := { s.cue with
        ctrl := src' + field (bits v 8 8) 1 8
        locked := if changed then false else s.cue.locked
        holdover := if changed then false else s.cue.holdover } }
  else s

/-- A rate clamped to the maximum slew in effect (R64). -/
def clampRate (s : State) (r : Int) : Int :=
  clampInt (-(s.clkPlan.2.2.2.2 : Int)) (s.clkPlan.2.2.2.2 : Int) r

/-- CUE_RATE_ADJ is written, clamped as it is stored; it acts from the next broadcast (R64). -/
def doCueRateAdjWrite (val : W32) (s : State) : State :=
  if writable s false then { s with cue := { s.cue with rateAdj := clampRate s val.toInt } } else s

/-- The firmware servo's step on one exchange (R63): the first lock of a power cycle fixes the offset, every later one moves
only the rate; a source that returns ends holdover (R65). [DESIGN CHOICE: log entry 46] -/
def servoStep (v : ServoReport) (s : State) : State :=
  let first := v.locked && !s.cue.offsetFixed
  let newly := v.locked && !s.cue.locked
  let s := { s with cue := { s.cue with
      ptpOffset := if first then v.offset else s.cue.ptpOffset
      offsetFixed := s.cue.offsetFixed || v.locked
      locked := v.locked
      holdover := false
      rateAdj := if s.cue.offsetFixed then clampRate s v.rate else s.cue.rateAdj
      stamp := s.cue.now } }
  if newly then raise 388 0 0 0 0 s else s

/-- A PTP event message crosses a MAC: stamped, and given to the servo when PTP on that port is the source (R62, R63). -/
def doPtpEventMessage (port : Nat) (_ingress : Bool) (v : ServoReport) (s : State) : State :=
  if s.powered then
    if bits s.cue.ctrl 1 0 = 1 ∧ bits s.cue.ctrl 8 8 = port then servoStep v s
    else { s with cue := { s.cue with stamp := s.cue.now } }
  else s

/-- A PTM response arrives (R62, R63). -/
def doPtmResponse (v : ServoReport) (s : State) : State :=
  if s.powered then
    if bits s.cue.ctrl 1 0 = 2 then servoStep v s else { s with cue := { s.cue with stamp := s.cue.now } }
  else s

/-- The selected source is lost: holdover, the rate kept, EV387 (R65). -/
def doDisciplineSourceLost (s : State) : State :=
  if s.powered ∧ bits s.cue.ctrl 1 0 ≠ 0 then
    raise 387 0 0 0 0 { s with cue := { s.cue with holdover := true, locked := false } }
  else s

/-! ### What the CUE_ registers show (R74) -/

/-- The CUE_ registers. [DESIGN CHOICE: log entry 47] -/
def cueView (s : State) (o : Nat) : Option Nat :=
  let c := s.cue
  if o = 0x200004 then some c.ctrl
  else if o = 0x200008 then
    some (flag c.calDone 6 + flag (decide (s.dev.phase = .houseLights)) 5 + flag c.stepped 4 + field (bits c.ctrl 1 0) 2 2 +
      flag c.holdover 1 + flag c.locked 0)
  else if o = 0x200010 then some (c.now % 2 ^ 32)
  else if o = 0x200014 then some (c.now / 2 ^ 32 % 2 ^ 32)
  else if o = 0x200020 then some (c.floor % 2 ^ 32)
  else if o = 0x200024 then some (c.floor / 2 ^ 32 % 2 ^ 32)
  else if o = 0x200028 then some (ofInt 32 c.rateAdj)
  else if o = 0x20002C then some s.clkPlan.2.2.2.2
  else if o = 0x200030 then some (ofInt 64 c.ptpOffset % 2 ^ 32)
  else if o = 0x200034 then some (ofInt 64 c.ptpOffset / 2 ^ 32)
  else if o = 0x200038 then some (ofInt 32 c.netAdj)
  else if o = 0x200040 then some (4096 - c.slots.length)
  else if o = 0x200054 then
    let n := Tab.count c.taps (fun _ t => t.faulty)
    some (flag (c.taps.any (fun t => t.2.measuring)) 31 + flag (decide (0 < n)) 7 + n % 128)
  else if o = 0x20005C then
    let k := s.reg 0x200058 0
    let t := Tab.at c.taps k {}
    some ((Config.tapUnit k).toNat * 2 ^ 24 + field (ofInt 8 t.diff) 8 16 + ofInt 16 t.comp)
  else if 0x200100 ≤ o ∧ o < 0x200118 then
    let i := (o - 0x200100) / 4
    some (field (c.inUse i) 13 16 + shareSize i)
  else if o = 0x20020C then some (field c.postResult.status 4 28 + field c.postResult.slot 12 0)
  else if o = 0x200214 then some (field c.cancelResult.status 4 28 + field c.cancelResult.slot 12 0)
  else none

end Sys2Proof.Machine
end

