-- ==== Sys2Proof/Machine/Map.lean ====
section
/-! DEFINITION. The map, Wings, quotas and rooms: what placing and freeing a unit does (R164-R167, R182-R185, R190-R193). -/
namespace Sys2Proof.Machine

/-- Bytes of a unit (R164). -/
def unitBytes : Nat := 32768

/-- The first unit of a pool: flash 0, platters 2^39 (R164). -/
def poolBase (tier : Nat) : Nat := if tier = 0 then 0 else 2 ^ 39

/-- The pool of a unit. -/
def tierOf (unit : Nat) : Nat := if unit.testBit 39 then 1 else 0

/-- A tier's figures. [DEDUCED: log entry 91] -/
def TrlState.tier (t : TrlState) (k : Nat) : Tier := if k = 0 then t.flash else t.plat

/-- A tier's charged units changed. -/
def setCharged (k c : Nat) (t : TrlState) : TrlState :=
  if k = 0 then { t with flash := { t.flash with charged := c } } else { t with plat := { t.plat with charged := c } }

/-- Mapped units of a tier. -/
def TrlState.mapped (t : TrlState) (k : Nat) : Nat := (t.map.filter (fun p => tierOf p.1 == k)).length

/-- Slots of a tier that host writes may fill: D less the maintenance floor of 2%, or the platter slots (R190, R193). [DEDUCED: log entry 91] -/
def Tier.fillable (t : Tier) (k : Nat) : Nat := if k = 0 then t.slots - t.slots * 2 / 100 else t.slots

/-- Has a tier room for a reservation of `n` units (R193)? -/
def hasRoom (t : TrlState) (k n : Nat) : Bool :=
  decide ((t.tier k).charged + n ≤ (t.tier k).units ∧ t.mapped k + n ≤ (t.tier k).fillable k)

/-- Platter bands free on each actuator, beyond which a band is spare (R192). -/
def TrlState.freeBands (t : TrlState) (act : Nat) : Nat :=
  Tab.count t.bands (fun _ b => b.act == act && b.spare && !b.retired)

/-- Is the flash tier worn (R192)? -/
def flashWorn (t : TrlState) : Bool :=
  decide (100 * (t.flash.slots - t.flash.units) < 5 * t.flash.slots ∧ t.flash.units = t.flash.charged)

/-- Is the platter tier worn (R192)? -/
def platWorn (t : TrlState) : Bool :=
  (List.range 4).all (fun a => decide (t.freeBands a ≤ 4)) && decide (t.plat.units = t.plat.charged)

/-- Every tier is worn and without room for `n` units: the condition of Final Curtain (R193). -/
def finalDue (t : TrlState) (n : Nat) : Bool := flashWorn t && platWorn t && !hasRoom t 0 n && !hasRoom t 1 n

/-- A tenant's charge in bytes on a tier. -/
def TrlState.charge (t : TrlState) (tag k : Nat) : Nat :=
  let q := Tab.at t.quota tag (0, 0)
  if k = 0 then q.1 else q.2

/-- A tenant's charge changed. -/
def addCharge (tag k : Nat) (f : Nat → Nat) (t : TrlState) : TrlState :=
  { t with quota := Tab.update t.quota tag (0, 0) (fun q => if k = 0 then (f q.1, q.2) else (q.1, f q.2)) }

/-- A tenant's quota in bytes on a tier. -/
def State.quotaOf (s : State) (tag k : Nat) : Nat :=
  match s.tenantRec tag with
  | some r => if k = 0 then r.flashQuota else r.platQuota
  | none => 0

/-- Has the tenant's quota room for `bytes` more? -/
def quotaRoom (s : State) (tag k bytes : Nat) : Bool := decide (s.trl.charge tag k + bytes ≤ s.quotaOf tag k)

/-- The lowest unit at or above `start` from which `n` units are in no run. [DEDUCED: log entry 82] -/
def gapFrom : Tab Nat → Nat → Nat → Nat
  | [], start, _ => start
  | (f, c) :: t, start, n =>
    if f + c ≤ start then gapFrom t start n
    else if start + n ≤ f then start
    else gapFrom t (f + c) n

/-- A run of `n` units of a pool is taken and charged (R147, R164). Answers its first unit. [DEDUCED: log entry 82] -/
def takeRun (tag k n bytes : Nat) (t : TrlState) : Nat × TrlState :=
  let first := gapFrom t.runs (poolBase k) n
  let t := if n = 0 then t else { t with runs := Tab.put t.runs first n }
  (first, addCharge tag k (fun b => b + bytes) (setCharged k ((t.tier k).charged + n) t))

/-- The fine groups the policy gives (R165, R170). -/
def State.fineCapacity (s : State) : Nat := s.flashPolicy.1 * 10 ^ 12 / 32768

/-- The Wings slot whose granules a fine entry or a map entry names. -/
def FineEntry.slot : FineEntry → Option Nat
  | .wings g => some (g / 8)
  | _ => none

/-- Is a Wings slot still named by its unit's entry? -/
def slotNamed (t : TrlState) (slot : Nat) (w : WingSlot) : Bool :=
  match Tab.find t.map w.unit with
  | some (.wings k) => k == slot
  | some (.fine g) => (Tab.at t.fine g []).any (fun e => e.slot == some slot)
  | _ => false

/-- Wings slots of a unit that its entry no longer names are freed. -/
def sweepSlots (unit : Nat) (t : TrlState) : TrlState :=
  { t with wings := t.wings.filter (fun p => p.2.unit != unit || slotNamed t p.1 p.2) }

/-- A unit's entry changes; a fine group it leaves is freed (R166). -/
def setEntry (unit : Nat) (e : Option MapEntry) (t : TrlState) : TrlState :=
  let fine := match Tab.find t.map unit, e with
    | some (.fine g), some (.fine g') => if g = g' then t.fine else Tab.del t.fine g
    | some (.fine g), _ => Tab.del t.fine g
    | _, _ => t.fine
  let map := match e with | some x => Tab.put t.map unit x | none => Tab.del t.map unit
  sweepSlots unit { t with map := map, fine := fine }

/-- The eight fine entries that say what a coarse entry says. -/
def spread : Option MapEntry → List FineEntry
  | some (.flash sb slot) => (List.range 8).map (fun g => .flash sb (slot * 8 + g))
  | some (.wings k) => (List.range 8).map (fun g => .wings (k * 8 + g))
  | some (.harbour k) => (List.range 8).map (fun g => .harbour (k * 8 + g))
  | some .uncorrectable => List.replicate 8 .uncorrectable
  | _ => List.replicate 8 .unmapped

/-- Bytes of a journal record of one commit: the record layout is internal to the device (R182). [DESIGN CHOICE: log entry 89] -/
def journalBytes (changes : Nat) : Nat := (Config.journalRecord changes).toNat

/-- A journal record enters the DRAM buffer (R182). Answers its sequence number. -/
def journal (changes wall : Nat) (t : TrlState) : Nat × TrlState :=
  (t.jnext, { t with
    jnext := t.jnext + 1
    jbytes := t.jbytes + journalBytes changes
    joldest := if t.jwritten = t.jnext then wall else t.joldest
    jsince := t.jsince + journalBytes changes })

/-- The sum of the tenants' Wings shares, in KiB (TENANT offset 20). -/
def State.wingsShares (s : State) : Nat := ((s.cfg.ofType 0x0201).map (fun p => (tenantOf p.2).wingsKib)).sum

/-- The effective harbour size in MiB: the larger of the FLASH_POLICY reserve and the sum of Wings shares plus 64 MiB
(chapter 7, "The power-loss harbour"). -/
def State.harbourMib (s : State) : Nat := max s.flashPolicy.2.2.1 ((s.wingsShares + 1023) / 1024 + 64)

/-- Is the armed harbour enough for the full Wings share sum (TRL_STATUS bit 3)? -/
def State.harbourArmed (s : State) : Bool := decide (s.trl.armedMib ≠ 0 ∧ s.wingsShares ≤ s.trl.armedMib * 1024)

/-- The harbour is armed again once every member of its stripe blocks is erased (R185, R188). [DEDUCED: log entry 206] -/
def armHarbour (s : State) : State :=
  if s.trl.sbs.any (fun p => p.2.stream == .harbour && !p.2.erasing.isEmpty) then s
  else { s with trl := { s.trl with armedMib := s.harbourMib } }

/-- Wings slots a tenant uses. -/
def TrlState.wingsOf (t : TrlState) (tag : Nat) : Nat := Tab.count t.wings (fun _ w => w.tag == tag)

/-- May a tenant place `n` more slots into Wings: its share (TENANT record) and the armed harbour (R185)? -/
def wingsRoom (s : State) (tag n : Nat) : Bool :=
  match s.tenantRec tag with
  | some r => decide ((s.trl.wingsOf tag + n) * 32 ≤ r.wingsKib ∧ (s.trl.wings.length + n) * 32 ≤ s.trl.armedMib * 1024)
  | none => false

/-- The media copy that stays protected while the unit is in Wings (R183): that of the entry, or that which the Wings slot it
replaces protects. -/
def protectedOf (t : TrlState) (unit : Nat) : Option MapEntry :=
  match Tab.find t.map unit with
  | some (.wings k) => (Tab.find t.wings k).bind (fun w => w.pred)
  | some (.harbour k) => some (.harbour k)
  | e => e

/-- Was the unit's previous copy put into a stripe block opened less than TRL_HOT_AGE days ago (R172)? -/
def isHot (s : State) (unit : Nat) : Bool :=
  match protectedOf s.trl unit with
  | some (.flash sb _) =>
    match Tab.find s.trl.sbs sb with
    | some b => decide (s.cue.now < b.openCue + s.reg 0xA00060 7 * 86400000000000)
    | none => false
  | _ => false

/-- One unit is placed into Wings by a map switch: whole, or the granules written, in a fine group where the flash pool has one
free, else merged whole (R166). -/
def placeUnit (tag nsid unit : Nat) (granules : List Nat) (seq : Nat) (s : State) : State :=
  match Tab.freeKey s.trl.wings 32768 0 with
  | none => s
  | some k =>
    let t := s.trl
    let isFine := match Tab.find t.map unit with | some (.fine _) => true | _ => false
    let fineOk := decide (granules.length < 8 ∧ tierOf unit = 0 ∧ (isFine = true ∨ t.fine.length < s.fineCapacity))
    let gs := if fineOk then granules else List.range 8
    let w : WingSlot := { unit := unit, granules := gs, tag := tag, nsid := nsid, seq := seq, cue := s.cue.now,
                          posted := false, pred := protectedOf t unit, hot := isHot s unit }
    let t := { t with wings := Tab.put t.wings k w }
    let t :=
      if fineOk then
        let g := match Tab.find t.map unit with
          | some (.fine g) => g
          | _ => (Tab.freeKey t.fine (t.fine.length + 1) 0).getD t.fine.length
        let old := match Tab.find t.map unit with
          | some (.fine g) => Tab.at t.fine g (spread none)
          | e => spread e
        let new := (List.range 8).map (fun i => if granules.contains i then FineEntry.wings (k * 8 + i)
          else (old[i]?).getD .unmapped)
        sweepSlots unit { t with map := Tab.put t.map unit (.fine g), fine := Tab.put t.fine g new }
      else setEntry unit (some (.wings k)) t
    { s with trl := t }

/-- A run's units are unmapped and given back, its charge returned. -/
def freeRun (tag first n bytes : Nat) (t : TrlState) : TrlState :=
  if n = 0 then addCharge tag (tierOf first) (fun b => b - bytes) t
  else
    let k := tierOf first
    let t := { t with
      runs := Tab.del t.runs first
      fine := t.fine.filter (fun p => !(t.map.any (fun m => decide (first ≤ m.1 ∧ m.1 < first + n) &&
        (match m.2 with | .fine g => g == p.1 | _ => false))))
      wings := t.wings.filter (fun p => !decide (first ≤ p.2.unit ∧ p.2.unit < first + n))
      map := t.map.filter (fun m => !decide (first ≤ m.1 ∧ m.1 < first + n)) }
    addCharge tag k (fun b => b - bytes) (setCharged k ((t.tier k).charged - n) t)

/-- A run keeps only its first `n` units, the rest returned (R147, R164). -/
def shrinkRun (tag first had n bytesBack : Nat) (t : TrlState) : TrlState :=
  let k := tierOf first
  let t := { t with runs := if n = 0 then Tab.del t.runs first else Tab.put t.runs first n }
  addCharge tag k (fun b => b - bytesBack) (setCharged k ((t.tier k).charged - (had - n)) t)

/-- Free fraction in thousandths (R174 ff.): data slots of free erase blocks and unwritten slots of open stripe blocks over D. -/
def TrlState.freeFrac (t : TrlState) : Nat :=
  let free := (t.freeBlks.map (fun b => b.slots)).sum +
    (t.sbs.map (fun p => if p.2.closed.isNone then p.2.slots - p.2.written else 0)).sum
  if t.flash.slots = 0 then 0 else free * 1000 / t.flash.slots

/-- The foreground threshold (FLASH_POLICY). -/
def State.fgThreshold (s : State) : Nat := s.flashPolicy.2.1

/-- Does an entry name a slot of a stripe block? -/
def namesSb (sb : Nat) : MapEntry → Bool
  | .flash b _ => b == sb
  | _ => false

/-- Slots of a stripe block that the map points to. -/
def TrlState.validSlots (t : TrlState) (sb : Nat) : Nat :=
  let coarse := (t.map.filterMap (fun p => match p.2 with | .flash b k => if b = sb then some k else none | _ => none))
  let fine := ((t.fine.map (fun p => p.2)).flatten.filterMap (fun e =>
    match e with | .flash b g => if b = sb then some (g / 8) else none | _ => none))
  (coarse ++ fine).eraseDups.length

/-- Slots of a band that the map points to. -/
def TrlState.validBand (t : TrlState) (band : Nat) : Nat :=
  (t.map.filter (fun p => match p.2 with | .platter b _ => b == band | _ => false)).length

/-- Does the stripe block hold a protected old copy of a unit still in Wings (R175, R183)? -/
def TrlState.holdsProtected (t : TrlState) (sb : Nat) : Bool :=
  t.wings.any (fun p => match p.2.pred with | some e => namesSb sb e | none => false) ||
    t.unflushed.any (fun u => match u.pred with | some e => namesSb sb e | none => false)

/-- The victim of greedy reclamation (R175): the closed stripe block with the fewest valid slots, ties to the earliest close. -/
def TrlState.greedyVictim (t : TrlState) : Option Nat :=
  (t.sbs.foldl (fun (acc : Option (Nat × Nat × Nat)) p =>
    match p.2.closed with
    | some c =>
      if p.2.reads = 0 ∧ !t.holdsProtected p.1 ∧ p.2.erasing = [] then
        let v := t.validSlots p.1
        match acc with
        | none => some (p.1, v, c)
        | some a => if v < a.2.1 ∨ (v = a.2.1 ∧ c < a.2.2) then some (p.1, v, c) else acc
      else acc
    | none => acc) none).map (fun a => a.1)

/-- The stripe block whose valid fraction the throttle takes: the victim being reclaimed, or the next one. -/
def TrlState.currentVictim (t : TrlState) : Option Nat :=
  match t.victim with
  | some v => some v
  | none => t.greedyVictim

/-- The copy ratio in 1/256, rounded up; none: host placement is stopped (R176). -/
def State.copyRatio (s : State) : Option Nat :=
  let f := s.trl.freeFrac
  let t := s.fgThreshold
  if t ≤ f then some 0
  else if 4 * f ≤ t then none
  else
    match s.trl.currentVictim with
    | some sb =>
      let v := s.trl.validSlots sb
      let d := ((Tab.find s.trl.sbs sb).map (fun b => b.slots)).getD 0
      if d ≤ v then none else some (ceilDiv (256 * v * (t + 4 * (t - f))) ((d - v) * t))
    | none => some 0

end Sys2Proof.Machine
end

