-- ==== Sys2Proof/Machine/Media.lean ====
section
/-! DEFINITION. What the flash and the platters do for a unit (08_flash_channels.md, 09_read_channel.md): stripe geometry, the queues of
a LUN, the power grid, the decoder pool, and the reads of a read point. -/
namespace Sys2Proof.Machine

/-! ### Channels and stripe geometry (R199, R209, R210) -/

/-- The number of a LUN: 32 x channel + 4 x CE + LUN (R199). -/
def lunNo (b : EraseBlk) : Nat := b.ch * 32 + b.ce * 4 + b.lun

/-- The channel of a LUN. -/
def lunCh (l : Nat) : Nat := l / 32

/-- The group of a channel. -/
def chGroup (c : Nat) : Nat := c / 8

/-- A flash group as bring-up found it. -/
def State.fgroup (s : State) (g : Nat) : FlashGroup := Tab.at s.flc.groups g {}

/-- A group's clock runs and its dies answer: it is neither faulted, removed nor being inserted (R219, R220). -/
def State.groupRuns (s : State) (g : Nat) : Bool :=
  !(s.fgroup g).faulted && !(s.flc.hrGroup == g && (s.flc.hr == .removed || s.flc.hr == .inserting)) && !s.clk.stopped.contains (12 + g)

/-- Is a LUN in use? -/
def State.lunUsed (s : State) (l : Nat) : Bool := ((Tab.find s.flc.luns l).map (fun x => !x.retired)).getD false

/-- Is a channel usable for new stripe blocks: trained, with a LUN in use, in a group that is normal (R203, R209, R218-R220)? -/
def State.chUsable (s : State) (c : Nat) : Bool :=
  !s.flc.deadCh.contains c && s.flc.luns.any (fun p => lunCh p.1 == c && !p.2.retired) &&
  s.groupRuns (chGroup c) && !(s.flc.hrGroup == chGroup c && s.flc.hr != .idle)

/-- The usable channels, rising: the positions of a stripe block opened now (R209). -/
def State.usable (s : State) : List Nat := (List.range 32).filter (fun c => s.chUsable c)

/-- The row of a data slot (R210). -/
def slotRow (w slot : Nat) : Nat := slot / (w - 1) + 1

/-- The parity position of a row (R210). -/
def parityPos (sb w row : Nat) : Nat := (sb + row) % w

/-- The position that holds a data slot (R210): the row's positions rising, the parity one left out. -/
def slotPos (sb w slot : Nat) : Nat :=
  let k := slot % (w - 1)
  if k < parityPos sb w (slotRow w slot) then k else k + 1

/-- The member of a stripe block that holds a data slot. -/
def slotMember (sb : Nat) (b : StripeBlk) (slot : Nat) : Option FreeBlk := b.members[slotPos sb b.width slot]?

/-! ### The queues of a LUN and the power grid (R200, R216, R217) -/

/-- A LUN changed. -/
def onLun (l : Nat) (f : LunState → LunState) (s : State) : State :=
  { s with flc := { s.flc with luns := Tab.modify s.flc.luns l f } }

/-- A program or erase of a LUN that has its cue or runs: the LUN is taken. -/
def lunTaken (s : State) (l : Nat) : Bool := s.flc.ops.any (fun o => o.lun == l && (o.running || o.cue.isSome))

/-- The weight of a start (R216). -/
def DieOp.weight : DieOp → Nat
  | .program => 1
  | .erase => 2

/-- The weight of the starts that hold a grid point. -/
def weightAt (ops : List FlashOp) (p : Nat) : Nat := ((ops.filter (fun o => o.point == some p)).map (fun o => o.op.weight)).sum

/-- The earliest grid point with budget left, looked for from `p` over `fuel` points (R216). -/
def gridPoint (ops : List FlashOp) (grid budget w : Nat) : Nat → Nat → Nat
  | 0, p => p
  | f + 1, p => if weightAt ops p + w ≤ budget then p else gridPoint ops grid budget w f (p + grid)

/-- A ready program or erase takes its grid point and posts its cue from the channel's share (R216); with the share full it waits. -/
def startOp (i : Nat) (o : FlashOp) (s : State) : State :=
  let grid := s.reg 0xB00010 0x20
  let budget := s.reg 0xB00014 2
  let first := ceilDiv (s.cue.now + horizon) grid * grid
  let p := gridPoint s.flc.ops grid budget o.op.weight (s.flc.ops.length + 1) first
  let act : CueAction := match o.op with | .program => .program o.lun | .erase => .erase o.lun
  let (r, s') := postCue (.flash (lunCh o.lun)) { fire := p, target := 11, action := act, tag := 0 } s
  match r.1 with
  | .noSlot => s
  | _ =>
    let s' := { s' with flc := { s'.flc with ops := s'.flc.ops.set i { o with point := some p, cue := some r.2 } } }
    if first < p then count1 0xB00018 s' else s'

/-- The place in the list of a LUN's first waiting program or erase. -/
def firstOp (ops : List FlashOp) (l : Nat) : Option (Nat × FlashOp) :=
  ((List.range ops.length).zip ops).find? (fun p => p.2.lun == l)

/-- An idle LUN takes its next operation: reads ahead of programs and erases, except a program that 16 reads passed (R200). -/
def pump (l : Nat) (s : State) : State :=
  match Tab.find s.flc.luns l with
  | none => s
  | some x =>
    if x.retired || x.reading.isSome || lunTaken s l || !s.groupRuns (chGroup (lunCh l)) then s
    else
      let op := firstOp s.flc.ops l
      let isProg : Bool := match op with | some (_, o) => o.op == .program | none => false
      match x.readQ, op with
      | r :: rest, _ =>
        if isProg ∧ 16 ≤ x.passed then
          match op with
          | some (i, o) => startOp i o (onLun l (fun x => { x with passed := 0 }) s)
          | none => s
        else onLun l (fun x => { x with readQ := rest, reading := some r, passed := if isProg then x.passed + 1 else 0 }) s
      | [], some (i, o) => startOp i o (onLun l (fun x => { x with passed := 0 }) s)
      | [], none => s

/-- Every idle LUN that has work takes it. -/
def pumpAll (s : State) : State := s.flc.luns.foldl (fun s p => pump p.1 s) s

/-- A program or erase waits for its LUN. -/
def queueOp (o : FlashOp) (s : State) : State := pump o.lun { s with flc := { s.flc with ops := s.flc.ops ++ [o] } }

/-- A waiting operation of a member of a stripe block. -/
def memberOp (op : DieOp) (sb pos row : Nat) (m : FreeBlk) : FlashOp :=
  { op := op, lun := lunNo m.blk, blk := m.blk, sb := some sb, pos := pos, row := row, point := none, cue := none, running := false }

/-- Does row `r` end a page set of `z` slots, or the member (R208)? -/
def endsSet (z rows r : Nat) : Bool := r % z == z - 1 || r == rows

/-- The programs that the filling of a data slot makes ready: its member's page set, and after the row's last slot the parity
member's (R210, R211). -/
def programSlot (sb slot : Nat) (s : State) : State :=
  match Tab.find s.trl.sbs sb with
  | none => s
  | some b =>
    let row := slotRow b.width slot
    let rows := b.slots / (b.width - 1)
    let go := fun (pos : Nat) (s : State) =>
      match b.members[pos]? with
      | some m =>
        if endsSet (s.fgroup (chGroup m.blk.ch)).setSlots rows row then queueOp (memberOp .program sb pos row m) s else s
      | none => s
    let s := go (slotPos sb b.width slot) s
    if slot % (b.width - 1) = b.width - 2 then go (parityPos sb b.width row) s else s

/-- The block headers of a stripe block that opens: row 0 of every member (R196, R210). -/
def programHeaders (sb : Nat) (b : StripeBlk) (s : State) : State :=
  ((List.range b.members.length).zip b.members).foldl (fun s p => queueOp (memberOp .program sb p.1 0 p.2) s) s

/-- The erases of a stripe block's members. -/
def eraseMembers (sb : Nat) (b : StripeBlk) (s : State) : State :=
  ((List.range b.members.length).zip b.members).foldl (fun s p => queueOp (memberOp .erase sb p.1 0 p.2) s) s

/-- A start that has not fired is cancelled (R217). -/
def cancelOp (o : FlashOp) (s : State) : State :=
  match o.cue with
  | some k => if o.running then s else cancelCue (.flash (lunCh o.lun)) k s
  | none => s

/-- The operations that `p` names leave their queues; those not fired are cancelled. -/
def dropOps (p : FlashOp → Bool) (s : State) : State :=
  let gone := s.flc.ops.filter p
  gone.foldl (fun s o => cancelOp o s) { s with flc := { s.flc with ops := s.flc.ops.filter (fun o => !p o) } }

/-! ### The decoder pool (R213) -/

/-- The lowest of decoders `lo` to `hi` that is neither busy nor reserved. -/
def freeDecoder (f : FlcState) (lo hi : Nat) : Option Nat :=
  ((List.range (hi + 1 - lo)).map (fun i => lo + i)).find? (fun d => !Tab.has f.decs d && !Tab.has f.resv d)

/-- Codewords waiting for decoders 0-55 take them in arrival order; `fuel` bounds how many. -/
def feedDecoders : Nat → FlcState → FlcState
  | 0, f => f
  | n + 1, f =>
    match f.decQ, freeDecoder f 0 55 with
    | r :: rest, some d => feedDecoders n { f with decs := Tab.put f.decs d r, decQ := rest }
    | _, _ => f

/-- A codeword arrives at the general pool. -/
def decodeGeneral (rid : Nat) (s : State) : State :=
  let f := { s.flc with decQ := s.flc.decQ ++ [rid] }
  { s with flc := feedDecoders f.decQ.length f }

/-- The decoder that holds a read. -/
def decoderOf (f : FlcState) (rid : Nat) : Option Nat := (f.decs.find? (fun p => p.2 == rid)).map (fun p => p.1)

/-- A decoder is free again. -/
def releaseDecoder (d : Nat) (s : State) : State :=
  let f := { s.flc with decs := Tab.del s.flc.decs d }
  { s with flc := feedDecoders f.decQ.length f }

/-! ### Reads -/

/-- A read changed. -/
def onRd (rid : Nat) (f : MediaRd → MediaRd) (s : State) : State :=
  { s with flc := { s.flc with rds := Tab.modify s.flc.rds rid f } }

/-- A read of a LUN's page waits in the LUN's queue. -/
def queueRead (rid l : Nat) (s : State) : State := pump l (onLun l (fun x => { x with readQ := x.readQ ++ [rid] }) s)

/-- A stripe block counts the reads outstanding on it (R177). -/
def sbReads (e : MapEntry) (f : Nat → Nat) (s : State) : State :=
  match e with
  | .flash sb _ => { s with trl := { s.trl with sbs := Tab.modify s.trl.sbs sb (fun b => { b with reads := f b.reads }) } }
  | _ => s

/-- Can a LUN's page be read: in use, its group running? -/
def State.lunReads (s : State) (l : Nat) : Bool := s.lunUsed l && s.groupRuns (chGroup (lunCh l))

/-- The LUNs of the other members of a slot's row (R212). -/
def rowLuns (sb : Nat) (b : StripeBlk) (slot : Nat) : List Nat :=
  (b.members.map (fun m => lunNo m.blk)).eraseIdx (slotPos sb b.width slot)

/-- The read of a granule begins its present ladder step: its pages are queued on their LUNs (R212, R215). Answers whether it could. -/
def beginAttempt (rid : Nat) (s : State) : Bool × State :=
  match Tab.find s.flc.rds rid with
  | some r =>
    match r.src with
    | .flash sb slot =>
      match Tab.find s.trl.sbs sb with
      | some b =>
        let luns : List Nat :=
          if 5 ≤ r.step then rowLuns sb b slot
          else match slotMember sb b slot with
            | some m => List.replicate (if r.step = 4 then 3 else 1) (lunNo m.blk)
            | none => []
        if luns = [] ∨ luns.any (fun l => !s.lunReads l) then (false, s)
        else
          let s := onRd rid (fun r => { r with todo := luns, soft := r.step == 4 || r.step == 6 }) s
          (true, luns.foldl (fun s l => queueRead rid l s) s)
      | none => (false, s)
    | _ => (true, s)
  | none => (false, s)

/-- A granule of media is read for a scene. Where its own LUN cannot be read it is reconstructed (R219). A reconstruction that cannot
be read is not begun: the read waits in the table with nothing to come, and `failed` tells its caller. -/
def startRead (scene : Nat) (src : MapEntry) (gran : Nat) (s : State) : Bool × State :=
  let rid := s.flc.nextRd
  let start : Nat := match src with
    | .flash sb slot => match Tab.find s.trl.sbs sb with
      | some b => Tab.at b.levels (slotPos sb b.width slot) 0
      | none => 0
    | _ => 0
  let r : MediaRd := { scene := scene, src := src, gran := gran, level := start, best := start, since := s.wall }
  let s1 := sbReads src (fun n => n + 1) { s with flc := { s.flc with rds := Tab.put s.flc.rds rid r, nextRd := rid + 1 } }
  match beginAttempt rid s1 with
  | (true, s2) => (true, s2)
  | (false, _) =>
    match beginAttempt rid (onRd rid (fun r => { r with step := 5 }) s1) with
    | (true, s2) => (true, count1 0xB00030 (raiseObj 71 (match src with | .flash sb _ => sb | _ => 0) 0 s2))
    | (false, _) => (false, s)

/-- The media slot and granule that hold a granule of a unit; none for unmapped units and for Wings, which need no media read. -/
def mediaOf (t : TrlState) (unit g : Nat) : Option (MapEntry × Nat) :=
  match Tab.find t.map unit with
  | some (.flash sb slot) => some (.flash sb slot, g)
  | some (.platter b slot) => some (.platter b slot, g)
  | some (.fine k) =>
    match (Tab.at t.fine k [])[g]? with
    | some (.flash sb x) => some (.flash sb (x / 8), x % 8)
    | _ => none
  | _ => none

/-- A scene's read point reads the granules named, by unit (R116). Answers whether every one of them can be read. -/
def readUnits (scene : Nat) (us : List (Nat × List Nat)) (s : State) : Bool × State :=
  let l := (us.map (fun u => u.2.filterMap (fun g => mediaOf s.trl u.1 g))).flatten
  l.foldl (fun acc m =>
    let r := startRead scene m.1 m.2 acc.2
    (acc.1 && r.1, r.2)) (true, s)

/-- Has a scene media reads outstanding? -/
def State.readsOf (s : State) (scene : Nat) : Bool := s.flc.rds.any (fun p => p.2.scene == scene && !p.2.back)

end Sys2Proof.Machine
end

