-- ==== Sys2Proof/Machine/Mem.lean ====
section
/-! DEFINITION. Byte memories in one canonical form: cells at strictly rising addresses, none equal to zero, which is what an
unlisted address reads as. -/
namespace Sys2Proof.Machine

/-- One byte read. [DESIGN CHOICE: log entry 9] -/
def memGet : List Host.Cell → Nat → Byte
  | [], _ => 0
  | (b, v) :: t, a => if b = a then v else memGet t a

/-- One byte written: zero removes its cell. -/
def memSet : List Host.Cell → Nat → Byte → List Host.Cell
  | [], a, v => if v = 0 then [] else [(a, v)]
  | (b, w) :: t, a, v =>
    if a < b then (if v = 0 then (b, w) :: t else (a, v) :: (b, w) :: t)
    else if b = a then (if v = 0 then t else (a, v) :: t)
    else (b, w) :: memSet t a v

/-- `n` bytes read from address `a`. -/
def memRead (m : List Host.Cell) (a n : Nat) : Bytes := (List.range n).map (fun i => memGet m (a + i))

/-- Bytes written from address `a`. -/
def memWrite : List Host.Cell → Nat → Bytes → List Host.Cell
  | m, _, [] => m
  | m, a, b :: t => memWrite (memSet m a b) (a + 1) t

/-- The cells of an address range erased: they read as zero. -/
def memErase (m : List Host.Cell) (a n : Nat) : List Host.Cell := m.filter (fun c => !decide (a ≤ c.1 ∧ c.1 < a + n))

/-- The canonical form: addresses strictly rising from above `lo`, no zero byte. -/
def memOk : Nat → List Host.Cell → Bool
  | _, [] => true
  | lo, (a, v) :: t => decide (lo ≤ a) && v != 0 && memOk (a + 1) t

/-- A memory in canonical form. -/
def memWf (m : List Host.Cell) : Bool := memOk 0 m

end Sys2Proof.Machine
end

