-- ==== Sys2Proof/Machine/Press.lean ====
section
/-! DEFINITION. What Smock writes and accepts (13_smock_and_tally.md, R336-R344): frames, members, bounds and check values. -/
namespace Sys2Proof.Machine

/-! ### XXH64 with seed 0 (R338, R344) -/

def xxP1 : Nat := 0x9E3779B185EBCA87
def xxP2 : Nat := 0xC2B2AE3D27D4EB4F
def xxP3 : Nat := 0x165667B19E3779F9
def xxP4 : Nat := 0x85EBCA77C2B2AE63
def xxP5 : Nat := 0x27D4EB2F165667C5

/-- A number cut to 64 bits. -/
def cut64 (n : Nat) : Nat := n % 2 ^ 64

/-- A 64-bit number turned left. -/
def rotl64 (n k : Nat) : Nat := cut64 (n <<< k) ||| (n >>> (64 - k))

/-- One lane's round. -/
def xxRound (acc w : Nat) : Nat := cut64 (rotl64 (cut64 (acc + w * xxP2)) 31 * xxP1)

/-- A lane merged into the hash. -/
def xxMerge (h v : Nat) : Nat := cut64 ((h ^^^ xxRound 0 v) * xxP1 + xxP4)

/-- The stripes of 32 bytes, `n` of them. -/
def xxStripes : Nat → Nat × Nat × Nat × Nat → Bytes → Nat × Nat × Nat × Nat
  | 0, v, _ => v
  | n + 1, (a, b, c, d), l =>
    xxStripes n (xxRound a (leAt l 0 8), xxRound b (leAt l 8 8), xxRound c (leAt l 16 8), xxRound d (leAt l 24 8)) (l.drop 32)

/-- The bytes after the last stripe: words of 8, one of 4, single ones; `fuel` bounds them. -/
def xxTail : Nat → Nat → Bytes → Nat
  | 0, h, _ => h
  | f + 1, h, l =>
    if l = [] then h
    else if 8 ≤ l.length then xxTail f (cut64 (rotl64 (h ^^^ xxRound 0 (leAt l 0 8)) 27 * xxP1 + xxP4)) (l.drop 8)
    else if 4 ≤ l.length then xxTail f (cut64 (rotl64 (h ^^^ cut64 (leAt l 0 4 * xxP1)) 23 * xxP2 + xxP3)) (l.drop 4)
    else xxTail f (cut64 (rotl64 (h ^^^ cut64 (leAt l 0 1 * xxP5)) 11 * xxP1)) (l.drop 1)

/-- XXH64 of a byte string with seed 0. [DESIGN CHOICE: log entry 132] -/
def xxh64 (l : Bytes) : Nat :=
  let n := l.length / 32
  let h0 :=
    if n = 0 then xxP5
    else
      let (a, b, c, d) := xxStripes n (cut64 (xxP1 + xxP2), xxP2, 0, 2 ^ 64 - xxP1) l
      xxMerge (xxMerge (xxMerge (xxMerge (cut64 (rotl64 a 1 + rotl64 b 7 + rotl64 c 12 + rotl64 d 18)) a) b) c) d
  let h := xxTail 40 (cut64 (h0 + l.length)) (l.drop (32 * n))
  let h := cut64 ((h ^^^ (h >>> 33)) * xxP2)
  let h := cut64 ((h ^^^ (h >>> 29)) * xxP3)
  h ^^^ (h >>> 32)

/-- Content_Checksum: the low word of XXH64 (R338). [DEDUCED: log entry 134] -/
def contentCheck (l : Bytes) : Nat := xxh64 l % 2 ^ 32

/-! ### What the compressor writes (R338-R341) -/

/-- The magic number of a Zstandard frame. -/
def zstdMagic : Nat := 0xFD2FB528

/-- Frame header descriptor and Frame_Content_Size in the smallest field that holds a length (R338). -/
def zstdSize (n : Nat) : Bytes :=
  if n < 256 then leBytes 1 0x24 ++ leBytes 1 n
  else if n < 65792 then leBytes 1 0x64 ++ leBytes 2 (n - 256)
  else leBytes 1 0xA4 ++ leBytes 4 n

/-- The most an output of the compressor can take (R340); none where the spec gives no bound. -/
def smockBound (fmt level n : Nat) : Option Nat :=
  if fmt = 1 then some (n + 7 * ceilDiv n 131072 + 13)
  else if 2 ≤ level then some (n + 384 * ceilDiv n 65536 + 18)
  else none

/-- Bytes cut to a bound. -/
def cutTo (m : Option Nat) (l : Bytes) : Bytes := match m with | some k => l.take k | none => l

/-- The frame, stream or member that a compress job writes for an input (R338, R339), within its bound (R340). [DESIGN CHOICE: log entry 85; DEDUCED: log entry 210] -/
def smockOut (fmt level wlog : Nat) (src : Bytes) : Bytes :=
  let m := smockBound fmt level src.length
  if fmt = 1 then
    let head := leBytes 4 zstdMagic ++ zstdSize src.length
    head ++ cutTo (m.map (fun k => k - (head.length + 4))) (Config.packed 1 level wlog src) ++ leBytes 4 (contentCheck src)
  else if fmt = 2 then cutTo m (Config.packed 2 level 15 src)
  else
    let head := leBytes 3 0x088B1F ++ leBytes 1 0 ++ leBytes 4 0 ++ leBytes 1 (if level = 1 then 4 else if level = 9 then 2 else 0) ++
      leBytes 1 255
    head ++ cutTo (m.map (fun k => k - 18)) (Config.packed 2 level 15 src) ++ leBytes 4 (crc32 src) ++ leBytes 4 src.length

/-- What a Smock job ends with: its status and the bytes it wrote. -/
structure SmockEnd where
  status : Nat
  out : Bytes
  deriving DecidableEq, Repr

/-- A compress job over its input: done, or 0x81 where the output does not fit (R341). -/
def compressEnd (fmt level wlog cap : Nat) (src : Bytes) : SmockEnd :=
  let z := smockOut fmt level wlog src
  if cap < z.length then ⟨0x81, []⟩ else ⟨0, z⟩

/-! ### What the decompressor accepts (R343, R344) -/

/-- Skippable frames at the start of a byte string are skipped; `fuel` bounds their number. -/
def skipFrames : Nat → Bytes → Bytes
  | 0, l => l
  | f + 1, l =>
    if 8 ≤ l.length ∧ leAt l 0 4 / 16 = 0x184D2A5 ∧ 8 + leAt l 4 4 ≤ l.length then skipFrames f (l.drop (8 + leAt l 4 4)) else l

/-- What the blocks of a stream give under a capacity: content and what follows it, or the job's end (R341, R343). -/
def decodeBlocks (fmt cap : Nat) (l : Bytes) : SmockEnd ⊕ (Bytes × Bytes) :=
  let (b, used) := Config.unpacked fmt l
  if cap < b.length then .inl ⟨0x81, []⟩
  else
    match used with
    | some n => if n ≤ l.length then .inr (b, l.drop n) else .inl ⟨0x10, []⟩
    | none => .inl ⟨0x10, []⟩

/-- Is a magic number one of the legacy Zstandard formats? -/
def legacyMagic (m : Nat) : Bool := decide (0xFD2FB522 ≤ m ∧ m ≤ 0xFD2FB527) || m == 0x1EB52FFD

/-- A Zstandard decompress job (R343, R344). [DEDUCED: log entry 133] -/
def unzstd (cap : Nat) (src : Bytes) : SmockEnd :=
  let l := skipFrames src.length src
  if l.length < 5 then ⟨0x10, []⟩
  else if legacyMagic (leAt l 0 4) then ⟨0x13, []⟩
  else if leAt l 0 4 ≠ zstdMagic then ⟨0x10, []⟩
  else
    let d := leAt l 4 1
    let single := bit d 5
    let didLen := [0, 1, 2, 4].getD (bits d 1 0) 0
    let fcsLen := [if single then 1 else 0, 2, 4, 8].getD (bits d 7 6) 0
    let winLen := if single then 0 else 1
    let hl := 5 + winLen + didLen + fcsLen
    let w := leAt l 5 1
    let base := 2 ^ (10 + w / 8)
    let window := base + base / 8 * (w % 8)
    let fcs := leAt l (5 + winLen + didLen) fcsLen + (if fcsLen = 2 then 256 else 0)
    if l.length < hl ∨ bit d 3 then ⟨0x10, []⟩
    else if leAt l (5 + winLen) didLen ≠ 0 ∨ !bit d 2 ∨ 8388608 < (if single then fcs else window) then ⟨0x13, []⟩
    else if 0 < fcsLen ∧ cap < fcs then ⟨0x81, []⟩
    else
      match decodeBlocks 1 cap (l.drop hl) with
      | .inl e => e
      | .inr (b, rest) =>
        if (0 < fcsLen ∧ b.length ≠ fcs) ∨ rest.length < 4 then ⟨0x10, []⟩
        else if leAt rest 0 4 ≠ contentCheck b then ⟨0x11, b⟩
        else if skipFrames rest.length (rest.drop 4) ≠ [] then ⟨0x14, []⟩
        else ⟨0, b⟩

/-- A raw DEFLATE decompress job: it carries no check value (R344). -/
def undeflate (cap : Nat) (src : Bytes) : SmockEnd :=
  match decodeBlocks 2 cap src with
  | .inl e => e
  | .inr (b, rest) => if rest ≠ [] then ⟨0x14, []⟩ else ⟨0, b⟩

/-- Bytes after a zero-terminated string; none where it does not end. -/
def afterZero (l : Bytes) : Option Bytes := (l.findIdx? (fun b => b == 0)).map (fun i => l.drop (i + 1))

/-- What follows a gzip header, with FEXTRA, FNAME, FCOMMENT and FHCRC skipped and the header CRC checked (R343). [DEDUCED: log entry 133] -/
def gzipBody (src : Bytes) : Option Bytes :=
  let f := leAt src 3 1
  let extra : Option Bytes := if bit f 2 then
      (if 12 ≤ src.length ∧ 12 + leAt src 10 2 ≤ src.length then some (src.drop (12 + leAt src 10 2)) else none)
    else some (src.drop 10)
  let name := extra.bind (fun l => if bit f 3 then afterZero l else some l)
  let comment := name.bind (fun l => if bit f 4 then afterZero l else some l)
  comment.bind (fun l =>
    if bit f 1 then
      if 2 ≤ l.length ∧ leAt l 0 2 = crc32 (src.take (src.length - l.length)) % 65536 then some (l.drop 2) else none
    else some l)

/-- A gzip decompress job (R343, R344). [DEDUCED: log entry 133] -/
def ungzip (cap : Nat) (src : Bytes) : SmockEnd :=
  if src.length < 10 ∨ leAt src 0 2 ≠ 0x8B1F then ⟨0x10, []⟩
  else if leAt src 2 1 ≠ 8 then ⟨0x13, []⟩
  else if 32 ≤ leAt src 3 1 then ⟨0x10, []⟩
  else
    match gzipBody src with
    | none => ⟨0x10, []⟩
    | some l =>
      match decodeBlocks 2 cap l with
      | .inl e => e
      | .inr (b, rest) =>
        if rest.length < 8 then ⟨0x10, []⟩
        else if leAt rest 0 4 ≠ crc32 b ∨ leAt rest 4 4 ≠ b.length % 2 ^ 32 then ⟨0x11, b⟩
        else if rest.length ≠ 8 then ⟨0x14, []⟩
        else ⟨0, b⟩

/-- A decompress job over its input, with the CRC-64 compare of CHECK (R343, R344). [DEDUCED: log entry 133] -/
def decompressEnd (fmt cap : Nat) (check : Option Nat) (src : Bytes) : SmockEnd :=
  let e := if fmt = 1 then unzstd cap src else if fmt = 2 then undeflate cap src else ungzip cap src
  if e.status = 0 ∧ check.any (fun c => c != crc64 e.out) then ⟨0x12, e.out⟩ else e

end Sys2Proof.Machine
end

