-- ==== Sys2Proof/Machine/Pool.lean ====
section
/-! DEFINITION. The Stage Manager's task pool (11_stage_manager.md, R286-R304): creation, dependence, delay and timed tasks, ordered
flows, cancellation, back-pressure. Dispatch and the rings are in Machine/Stage.lean. -/
namespace Sys2Proof.Machine

/-- The Stage Manager changed. -/
def onSmg (f : SmgState → SmgState) (s : State) : State := { s with smg := f s.smg }

/-! ### Handles (R286) -/

/-- The field value that names no successor, no scene. -/
def noneField : Nat := 2 ^ 32 - 1

/-- The handle of a table index in its present generation. -/
def SmgState.handle (g : SmgState) (i : Nat) : Nat := i + Tab.at g.gens i 0 * 2 ^ 18

/-- The live task that a handle names. -/
def SmgState.resolve (g : SmgState) (h : Nat) : Option (Nat × Task) :=
  let i := h % 2 ^ 18
  match Tab.find g.tasks i with
  | some t => if g.handle i = h then some (i, t) else none
  | none => none

/-- Free tasks of the 262,144. -/
def SmgState.free (g : SmgState) : Nat := 262144 - g.tasks.length

/-- The open scene whose number in a SCENE field is `n`. [DEDUCED: log entry 66] -/
def State.sceneNo (s : State) (n : Nat) : Option (Nat × Scene) := s.scn.scenes.find? (fun p => p.1 % 2 ^ 17 == n)

/-- A task changed. -/
def onTask (i : Nat) (f : Task → Task) (s : State) : State := onSmg (fun g => { g with tasks := Tab.modify g.tasks i f }) s

/-- A number taken out of every list of a table. -/
def dropFrom (i : Nat) (t : Tab (List Nat)) : Tab (List Nat) := Tab.mapVals t (fun _ l => setDel l i)

/-- A task leaves every list; its index is freed and its generation moves on (R286). -/
def freeTask (i : Nat) (s : State) : State :=
  { s with
    bob := { s.bob with queues := dropFrom i s.bob.queues }
    smg := { s.smg with
      tasks := Tab.del s.smg.tasks i
      gens := Tab.update s.smg.gens i 0 (fun n => (n + 1) % 8192)
      queues := dropFrom i s.smg.queues
      delays := Tab.mapVals s.smg.delays (fun _ l => l.filter (fun e => e.2 != i))
      delayWaits := dropFrom i s.smg.delayWaits
      retries := setDel s.smg.retries i } }

/-- A new task takes the lowest free index. -/
def addTask (t : Task) (s : State) : Nat × State :=
  let i := (Tab.freeKey s.smg.tasks 262144 0).getD 0
  let s := onSmg (fun g => { g with tasks := Tab.put g.tasks i t }) s
  (i, countLow 0x40000C 0x40000 s.smg.free s)

/-! ### Reserves and back-pressure (R302, R303) -/

/-- A controller that holds a tenant's reserve: enabled, or with an association (R111, R302). [DEDUCED: log entry 59] -/
def Ctrl.live (k : Ctrl) : Bool := k.enabled || k.assoc.isSome

/-- Tenants that hold a reserve. -/
def State.reserveTags (s : State) : List Nat :=
  ((s.hfe.ctrls.filter (fun p => p.2.live)).map (fun p => p.2.tag)).eraseDups

/-- Tasks a tenant holds. -/
def State.tasksOf (s : State) (tag : Nat) : Nat := Tab.count s.smg.tasks (fun _ t => t.tag == tag)

/-- A tenant's reserve of tasks. -/
def State.taskReserve (s : State) (tag : Nat) : Nat :=
  if tag = 0 then 4096 else if s.reserveTags.contains tag then 16 else 0

/-- Tasks of the pool that no reserve keeps and nobody holds beyond a reserve. -/
def State.sharedTasks (s : State) : Nat :=
  let tags := (0 :: s.reserveTags).eraseDups
  let kept := (tags.map (fun t => s.taskReserve t - s.tasksOf t)).sum
  s.smg.free - kept

/-- Has the pool room for `n` more tasks of a tenant? One that holds fewer than its reserve never waits for the shared pool (R302). -/
def taskRoom (s : State) (tag n : Nat) : Bool :=
  decide (n ≤ s.smg.free) && (decide (s.tasksOf tag < s.taskReserve tag) || decide (n ≤ s.sharedTasks))

/-- SMG_TASK_CAP as tasks. -/
def State.taskCap (s : State) : Nat := s.reg 0x400014 0x40 * 1024

/-- The most ready tasks a tenant has for one unit. -/
def State.readyMost (s : State) (tag : Nat) : Nat :=
  (List.range 20).foldl (fun m u => max m (Tab.count s.smg.tasks (fun _ t => t.tag == tag && t.unit == u && t.phase == .ready))) 0

/-- Does a condition of back-pressure hold on a tenant (R302)? -/
def pressDue (s : State) (tag : Nat) : Bool :=
  tag != 0 && (decide (s.taskCap < s.tasksOf tag) ||
    decide (s.smg.free < 8192 ∧ s.taskReserve tag < s.tasksOf tag) || decide (s.reg 0x400018 0x400 < s.readyMost tag))

/-- May back-pressure be withdrawn? -/
def pressOver (s : State) (tag : Nat) : Bool :=
  !pressDue s tag && decide (8 * s.tasksOf tag ≤ 7 * s.taskCap ∧ 16384 ≤ s.smg.free)

/-- Back-pressure asserted and withdrawn where it is due (R302). -/
def pressure (s : State) : State :=
  let tags := ((s.smg.tasks.map (fun p => p.2.tag)) ++ s.scn.pressed).eraseDups
  tags.foldl (fun s t =>
    if s.scn.pressed.contains t then
      if pressOver s t then raise 230 0 t 0 t { s with scn := { s.scn with pressed := setDel s.scn.pressed t } } else s
    else if pressDue s t then raise 229 0 t 0 t { s with scn := { s.scn with pressed := setAdd s.scn.pressed t } }
    else s) s

/-! ### Ready, delayed and timed tasks (R290, R293, R297, R298) -/

/-- A task goes to the end of its ready list. -/
def enqueue (i : Nat) (s : State) : State :=
  match Tab.find s.smg.tasks i with
  | some t =>
    onSmg (fun g => { g with
      tasks := Tab.put g.tasks i { t with phase := .ready }
      queues := Tab.update g.queues t.list [] (fun l => l ++ [i]) }) s
  | none => s

/-- The due beat of a delay-list entry: DUE, or for a TIMED task the beat from which it can be posted (R297, R298). -/
def dueBeat (t : Task) : Nat := if t.timed then ceilDiv (t.due - 7168) 1024 else t.due

/-- An entry put into a list sorted by due beat, behind those of the same beat. -/
def insertDue (e : Nat × Nat) : List (Nat × Nat) → List (Nat × Nat)
  | [] => [e]
  | x :: l => if e.1 < x.1 then e :: x :: l else x :: insertDue e l

/-- A task waits on its delay list, or for a free entry of a full one: EV231 (R297). -/
def delayTask (i : Nat) (t : Task) (s : State) : State :=
  let l := Tab.at s.smg.delays t.dlist []
  if l.length < s.delaySize t.dlist then
    onSmg (fun g => { g with
      tasks := Tab.put g.tasks i { t with phase := .delayed }
      delays := Tab.put g.delays t.dlist (insertDue (dueBeat t, i) l) }) s
  else
    raise 231 0 t.dlist 0 t.tag (count1 (selKey 0x40005C t.dlist) (onSmg (fun g => { g with
      tasks := Tab.put g.tasks i { t with phase := .delayWait }
      delayWaits := Tab.update g.delayWaits t.dlist [] (fun l => l ++ [i]) }) s))

/-- A ready DELAY task: to its ready list where its beat has come, else to its delay list (R297). -/
def enterDelay (i : Nat) (t : Task) (s : State) : State :=
  if t.due * 1024 ≤ s.cue.now then enqueue i s else delayTask i t s

/-- Is a TIMED task late (R298)? [DEDUCED: log entry 118] -/
def isLate (s : State) (t : Task) : Bool := decide (t.due < s.cue.now + 2048)

/-- A TIMED task in time is posted, or waits for its beat (R298). -/
def postTimed (i : Nat) (t : Task) (s : State) : State :=
  if s.cue.now + 7168 < t.due then delayTask i t s
  else
    let (r, s) := postCue .stage { fire := t.due, target := t.unit, action := .task (s.smg.handle i), tag := t.tag } s
    match r.1 with
    | .noSlot =>
      raise 228 0 i 0 t.tag (count1 0x400028 (onSmg (fun g => { g with
        tasks := Tab.put g.tasks i { t with phase := .retry }, retries := setAdd g.retries i }) s))
    | _ => onTask i (fun t => { t with phase := .posted r.2 }) s

/-- How many times REPEAT is added until the fire cue is no longer late (R298). -/
def roundsFor (s : State) (t : Task) : Nat :=
  if isLate s t ∧ t.rep ≠ 0 then ceilDiv (s.cue.now + 2048 - t.due) t.rep else 0

/-- EV227 and SMG_LATE_TIMED for one task found late `n` times. [DEDUCED: log entry 118] -/
def countLate (i n : Nat) (t : Task) (s : State) : State :=
  Nat.repeat (fun s => raise 227 0 i 0 t.tag (count1 0x400024 s)) n s

/-- TIMED tasks judged together at one cue value (R298, R299): while any with REPEAT is late, every one with REPEAT moves on by its own.
Answers the tasks that complete late. [DEDUCED: log entry 118] -/
def judgeTimed (l : List Nat) (s : State) : List (Nat × Nat) × State :=
  let ts := l.filterMap (fun i => (Tab.find s.smg.tasks i).map (fun t => (i, t)))
  let n := ts.foldl (fun n p => max n (roundsFor s p.2)) 0
  ts.foldl (fun acc p =>
    let (i, t) := p
    let (done, s) := acc
    if t.rep = 0 then
      if isLate s t then (done ++ [(i, 0x32)], countLate i 1 t s) else (done, postTimed i t s)
    else
      let t' := { t with due := t.due + n * t.rep }
      (done, postTimed i t' (countLate i (roundsFor s t) t (onTask i (fun _ => t') s)))) ([], s)

/-! ### Ordered flows (R296) -/

/-- What a ready RELEASE task meets at its flow. -/
inductive Turn where
  | go | hold | behind
  deriving DecidableEq, Repr

/-- The turn of a task: RELEASE tasks wait for NEXT; a flow that has closed has passed them. -/
def turnOf (g : SmgState) (t : Task) : Turn :=
  if t.release then
    match t.flow.bind (fun f => Tab.find g.flows f) with
    | some w => if w.next = t.seq then .go else if 2 ^ 31 ≤ (t.seq + 2 ^ 32 - w.next) % 2 ^ 32 then .behind else .hold
    | none => .behind
  else .go

/-- Void releases whose turn has come pass, with no dispatch (R292); `fuel` bounds their number. -/
def passVoids : Nat → Nat → State → State
  | 0, _, s => s
  | n + 1, f, s =>
    match Tab.find s.smg.flows f with
    | some w =>
      match w.voids.find? (fun v => v.1 == w.next) with
      | some v =>
        let w' := { w with next := (w.next + 1) % 2 ^ 32, voids := w.voids.erase v }
        passVoids n f (count1 0x400034 (onSmg (fun g => { g with
          flows := if v.2 then Tab.del g.flows f else Tab.put g.flows f w' }) s))
      | none => s
    | none => s

/-- A release passes: NEXT moves on, the flow closes after LAST (R296). -/
def release (f : Nat) (last : Bool) (s : State) : State :=
  if last then onSmg (fun g => { g with flows := Tab.del g.flows f }) s
  else
    let s := onSmg (fun g => { g with flows := Tab.modify g.flows f (fun w => { w with next := (w.next + 1) % 2 ^ 32 }) }) s
    passVoids (((Tab.find s.smg.flows f).map (fun w => w.voids.length)).getD 0) f s

/-- A cancelled RELEASE task that was not dispatched is released void (R292). -/
def voidRelease (t : Task) (s : State) : State :=
  match t.flow with
  | some f =>
    if t.release then
      let s := onSmg (fun g => { g with flows := Tab.modify g.flows f (fun w => { w with voids := w.voids ++ [(t.seq, t.last)] }) }) s
      passVoids (((Tab.find s.smg.flows f).map (fun w => w.voids.length)).getD 0) f s
    else s
  | none => s

/-! ### Completions (R290, R291, R299, R523) -/

/-- What is left to do of one happening: tasks that complete, with their statuses; TIMED tasks made ready. -/
structure Work where
  done : List (Nat × Nat)
  timed : List Nat
  deriving DecidableEq, Repr

/-- A task whose counter is zero: a join completes, a TIMED task is judged, a DELAY task waits, the others are ready (R290). -/
def makeReady (i : Nat) (t : Task) (w : Work) (s : State) : Work × State :=
  if t.unit = 0xFF then ({ w with done := w.done ++ [(i, t.failed)] }, s)
  else if t.timed then ({ w with timed := w.timed ++ [i] }, s)
  else if t.delay then (w, enterDelay i t s)
  else (w, enqueue i s)

/-- One successor loses a predecessor; a non-zero status marks it FAILED_PRED (R290, R291). -/
def losePred (st : Nat) (acc : Work × State) (h : Nat) : Work × State :=
  let (w, s) := acc
  match s.smg.resolve h with
  | some (i, t) =>
    if t.dep = 0 then (w, raise 224 0 h 0 t.tag (count1 0x400020 s))
    else
      let t' := { t with dep := t.dep - 1, failed := if t.failed = 0 then st else t.failed }
      let s := onTask i (fun _ => t') s
      if t'.dep = 0 then makeReady i t' w s else (w, s)
  | none => (w, s)

/-- The first failed task of a scene gives the scene its status; one marked FAILED_PRED does not replace it (R523). -/
def noteFailure (t : Task) (st : Nat) (s : State) : State :=
  match t.scene with
  | some n => if st ≠ 0 ∧ !Tab.has s.smg.fails n then onSmg (fun g => { g with fails := Tab.put g.fails n (t.unit, st) }) s else s
  | none => s

/-- Does the scene's namespace compress (R140)? -/
def State.compresses (s : State) (c : Scene) : Bool :=
  ((Tab.find s.obj.ns c.nsid).map (fun n => n.services.testBit 0)).getD false

/-- Staging given back by a chunk's task (R99): its transfer area when its Compress task has consumed it, or its Place task ends with
compression off; the output area when its Place task ends. -/
def releaseChunk (t : Task) (s : State) : State :=
  match t.scene.bind s.sceneNo with
  | some (o, c) =>
    let compress := s.compresses c
    let n := if (t.unit = 8 ∧ compress) ∨ (t.unit = 10 ∧ !compress) then min c.staged 262144 else 0
    let out := fun (x : Nat) => if t.unit = 8 then x + 270336 else if t.unit = 10 ∧ compress then x - 270336 else x
    { s with
      scn := { s.scn with scenes := Tab.put s.scn.scenes o { c with staged := c.staged - n } }
      hfe := { s.hfe with
        staging := Tab.modify s.hfe.staging c.tag (fun g => { transfer := g.transfer - n, output := out g.output }) } }
  | none => s

/-- A task completes with a status: its successors lose it, and its index is free (R286, R290, R291). -/
def finishTask (i st : Nat) (w : Work) (s : State) : Work × State :=
  match Tab.find s.smg.tasks i with
  | some t =>
    if t.stopping then (w, freeTask i s)
    else
      t.succs.foldl (losePred st) (w, freeTask i (releaseChunk t (noteFailure t st s)))
  | none => (w, s)

/-- The next ready task that completes without a place: one of unit 1, which completes at its dispatch, or a RELEASE task behind its
flow's NEXT (R296). -/
def stageTask (s : State) : Option (Nat × Task) :=
  ((s.smg.queues.map (fun p => p.2)).flatten.filterMap (fun i => (Tab.find s.smg.tasks i).map (fun t => (i, t)))).find?
    (fun p => (p.2.unit == 1 && turnOf s.smg p.2 == .go) || turnOf s.smg p.2 == .behind)

/-- Such a task completes: dispatched in its turn with its flow moved on, or with 0x31 Sequence Behind and EV225. -/
def stageDone (i : Nat) (t : Task) (w : Work) (s : State) : Work × State :=
  let s := onSmg (fun g => { g with queues := dropFrom i g.queues }) s
  match turnOf s.smg t with
  | .behind => ({ w with done := w.done ++ [(i, 0x31)] }, raiseObj 225 i t.tag s)
  | _ =>
    let s := count1 (selKey 0x400048 t.list) s
    ({ w with done := w.done ++ [(i, t.failed)] },
      match t.flow with | some f => if t.release then release f t.last s else s | none => s)

/-- All that follows from what is done: completions down the graph, releases, and the TIMED tasks of one happening judged together. -/
def runWork : Nat → Work → State → State
  | 0, _, s => s
  | f + 1, w, s =>
    match w.done with
    | (i, st) :: rest =>
      let (w', s') := finishTask i st { w with done := rest } s
      runWork f w' s'
    | [] =>
      match stageTask s with
      | some (i, t) =>
        let (w', s') := stageDone i t w s
        runWork f w' s'
      | none =>
        if w.timed = [] then s
        else
          let (late, s') := judgeTimed w.timed s
          if late = [] then s' else runWork f { done := late, timed := [] } s'

/-- Work carried to its end: each task completes once, is released once and is judged once. -/
def settleTasks (w : Work) (s : State) : State := pressure (runWork (4 * s.smg.tasks.length + w.done.length + 4) w s)

/-- A task completes with a status. -/
def completeTask (i st : Nat) (s : State) : State := settleTasks { done := [(i, st)], timed := [] } s

/-- A task of the device's own, made ready at once (R288, R530). -/
def createOwn (t : Task) (s : State) : Nat × State :=
  let (i, s) := addTask t s
  let (w, s) := makeReady i t { done := [], timed := [] } s
  (i, settleTasks w s)

/-- The scene task that the HFE creates for data-path firmware when it opens a scene (R288, R530): list 0, class 0, or 3 for a house
controller's command. -/
def sceneTask (o tag : Nat) : Task :=
  { unit := 2, list := 0, dep := 0, tag := tag, cls := if tag = 0 then 3 else 0, scene := some (o % 2 ^ 17) }

/-! ### Cancellation (R292, R304) -/

/-- A field of a task's job descriptor (R287). -/
def State.jobField (s : State) (t : Task) (off n : Nat) : Nat := leNat (memRead s.dram (t.job + off) n)

/-- The saved context that a Tally or Scrim job names is freed, where it is the tenant's (R349, R352, R401). -/
def freeJobCtx (t : Task) (s : State) : State :=
  let k := s.jobField t 2 2
  if 2 ^ 64 ≤ t.job then s
  else if t.unit = 7 then
    if (Tab.find s.tly.ctxs k).any (fun c => c.tag == t.tag) then { s with tly := { s.tly with ctxs := Tab.del s.tly.ctxs k } } else s
  else if t.unit = 6 then
    if (Tab.find s.scr.ctxs k).any (fun c => c.tag == t.tag) then { s with scr := { s.scr with ctxs := Tab.del s.scr.ctxs k } } else s
  else s

/-- One task of a rolled-back scene: freed, its cue cancelled, or told to stop where it runs. -/
def cancelTask (i : Nat) (t : Task) (s : State) : State :=
  match t.phase with
  | .running _ => onTask i (fun t => { t with stopping := true }) s
  | .posted k => voidRelease t (freeTask i (cancelCue .stage k s))
  | _ => voidRelease t (freeTask i (freeJobCtx t s))

/-- A scene rolls back: every task that names it and has not completed is cancelled (R292). [DEDUCED: log entry 120] -/
def cancelTasks (o : Nat) (s : State) : State :=
  let n := o % 2 ^ 17
  let s := s.smg.tasks.foldl (fun s p => if p.2.scene = some n then cancelTask p.1 p.2 s else s) s
  settleTasks { done := [], timed := [] } (onSmg (fun g => { g with fails := Tab.del g.fails n }) s)

/-! ### Delay lists at a beat boundary (R72, R297) -/

/-- A task whose beat has come: a DELAY task to its ready list, a TIMED one judged again. -/
def beatOut (w : Work) (i : Nat) (s : State) : Work × State :=
  match Tab.find s.smg.tasks i with
  | some t =>
    if t.timed then
      let (late, s) := judgeTimed [i] s
      ({ w with done := w.done ++ late }, s)
    else (w, enqueue i s)
  | none => (w, s)

/-- Tasks that waited for an entry of a delay list take the free ones in arrival order; `fuel` bounds their number. -/
def fillDelay : Nat → Nat → Work → State → Work × State
  | 0, _, w, s => (w, s)
  | n + 1, l, w, s =>
    match Tab.at s.smg.delayWaits l [] with
    | i :: rest =>
      if (Tab.at s.smg.delays l []).length < s.delaySize l then
        let s := onSmg (fun g => { g with delayWaits := Tab.put g.delayWaits l rest }) s
        match Tab.find s.smg.tasks i with
        | some t =>
          let (w, s) := if t.timed then beatOut w i s else (w, enterDelay i t s)
          fillDelay n l w s
        | none => fillDelay n l w s
      else (w, s)
    | [] => (w, s)

/-- The entries of every delay list due at beats up to `b`, in beat order. -/
def dueEntries (g : SmgState) (b : Nat) : List (Nat × Nat) :=
  (g.delays.map (fun p => p.2.filter (fun e => decide (e.1 ≤ b)))).foldl (fun acc l => l.foldl (fun a e => insertDue e a) acc) []

/-- A beat boundary, or the boundaries that a forward step passed: entries released in beat order, refused posts tried again
(R72, R297, R298). -/
def beatBoundary (s : State) : State :=
  let b := s.cue.now / 1024
  let due := dueEntries s.smg b
  let again := s.smg.retries
  let s := onSmg (fun g => { g with
    delays := Tab.mapVals g.delays (fun _ l => l.filter (fun e => !decide (e.1 ≤ b))), retries := [] }) s
  let (w, s) := due.foldl (fun acc e => beatOut acc.1 e.2 acc.2) (({ done := [], timed := [] } : Work), s)
  let (w, s) := again.foldl (fun acc i => beatOut acc.1 i acc.2) (w, s)
  let (w, s) := (List.range 8).foldl (fun acc l => fillDelay (Tab.at acc.2.smg.delayWaits l []).length l acc.1 acc.2) (w, s)
  settleTasks w s

end Sys2Proof.Machine
end

