-- ==== Sys2Proof/Machine/Scene.lean ====
section
/-! DEFINITION. Scenes (R111-R136): fetching, the overlap and fence rules, commit gates, completions, resets. -/
namespace Sys2Proof.Machine

/-! ### Statuses (R132, R521) -/

/-- A status with its Do Not Retry bit. -/
def status (sct sc : Nat) (dnr : Bool) : Status := ⟨sct, sc, dnr⟩

def stOk : Status := ⟨0, 0, false⟩
def stInvalidOpcode : Status := ⟨0, 0x01, true⟩
def stInvalidField : Status := ⟨0, 0x02, true⟩
def stTransfer : Status := ⟨0, 0x04, false⟩
def stInternal : Status := ⟨0, 0x06, false⟩
def stAborted : Status := ⟨0, 0x07, false⟩
def stSqDeleted : Status := ⟨0, 0x08, false⟩
def stNamespace : Status := ⟨0, 0x0B, true⟩
def stSequence : Status := ⟨0, 0x0C, true⟩
def stTransient : Status := ⟨0, 0x22, false⟩
def stLbaRange : Status := ⟨0, 0x80, true⟩
def stNotReady : Status := ⟨0, 0x82, true⟩
def stUnrecovered : Status := ⟨2, 0x81, true⟩
def stGuard : Status := ⟨2, 0x82, true⟩
def stMiscompare : Status := ⟨2, 0x85, true⟩
def stFinal : Status := ⟨7, 0x80, true⟩
def stOverflow : Status := ⟨7, 0x81, true⟩
def stFixity : Status := ⟨7, 0x82, true⟩
def stEpoch : Status := ⟨7, 0x83, true⟩
def stErased : Status := ⟨7, 0x84, false⟩
def stFenceScope : Status := ⟨7, 0x85, true⟩
def stQuota : Status := ⟨7, 0x86, true⟩
def stSpill : Status := ⟨7, 0x8A, false⟩
def stFrozen : Status := ⟨7, 0x8C, false⟩

/-- Is it success? -/
def isOk (st : Status) : Bool := st.sct == 0 && st.sc == 0

/-- The completion DW3 [31:17] layout in [14:0] (R130, R136). -/
def statusBits (st : Status) : Nat := field st.sc 8 0 + field st.sct 3 8 + flag st.dnr 14

/-! ### Queues and controllers -/

/-- The key of a queue. -/
def qKey (ctrl q : Nat) : Nat := ctrl * 65536 + q

/-- A controller as it runs. [DESIGN CHOICE: log entry 41] -/
def State.ctrlOf (s : State) (c : Nat) : Option Ctrl := Tab.find s.hfe.ctrls c

/-- A submission queue. -/
def State.sqOf (s : State) (c q : Nat) : Option SubQueue := Tab.find s.scn.sqs (qKey c q)

/-- Is the controller a Gloex controller? -/
def State.isGloex (s : State) (c : Nat) : Bool := ((s.ctrlOf c).map (fun k => k.gloex)).getD false

/-- Is it a house controller (tag 0)? -/
def State.isHouse (s : State) (c : Nat) : Bool := ((s.ctrlOf c).map (fun k => k.tag == 0)).getD false

/-- What the command side keeps of a controller. -/
def State.side (s : State) (c : Nat) : CtrlSide := Tab.at s.scn.ctl c {}

/-- A controller's command side changed. -/
def onSide (c : Nat) (f : CtrlSide → CtrlSide) (s : State) : State :=
  { s with scn := { s.scn with ctl := Tab.update s.scn.ctl c {} f } }

/-- A submission queue changed. -/
def onSq (c q : Nat) (f : SubQueue → SubQueue) (s : State) : State :=
  { s with scn := { s.scn with sqs := Tab.modify s.scn.sqs (qKey c q) f } }

/-- A scene changed. -/
def onScene (o : Nat) (f : Scene → Scene) (s : State) : State :=
  { s with scn := { s.scn with scenes := Tab.modify s.scn.scenes o f } }

/-- Scenes a tenant has open. -/
def State.scenesOf (s : State) (tag : Nat) : Nat := Tab.count s.scn.scenes (fun _ c => c.tag == tag)

/-- Is there a scene for a command of the tenant: of its reserve of 16, or a shared one (R111)? -/
def sceneRoom (s : State) (tag : Nat) : Bool :=
  let tags := s.reserveTags
  let shared := 131072 - 16 * tags.length
  let tagsAll := (tags ++ s.scn.scenes.map (fun p => p.2.tag)).eraseDups
  let used := (tagsAll.map (fun t => s.scenesOf t - (if tags.contains t then 16 else 0))).sum
  decide (s.scenesOf tag < (if tags.contains tag then 16 else 0)) || decide (used < shared)

/-! ### Overlap, fences, frozen queues (R113-R121, R134) -/

/-- Is the work write-kind (R114)? -/
def SceneKind.isWrite : SceneKind → Bool
  | .nvmWrite .. | .writeZeroes .. | .writeUncorrectable .. | .deallocate _ | .copy .. | .kvStore .. | .kvDelete _
  | .memWrite .. | .memCopy _ | .format .. | .nsDelete _ => true
  | _ => false

/-- Is the work read-kind, taking read points (R114, R116)? A Copy also reads its sources. -/
def SceneKind.isRead : SceneKind → Bool
  | .nvmRead .. | .compare .. | .verify .. | .kvRetrieve .. | .kvExist _ | .kvList .. | .memRead .. => true
  | _ => false

/-- Units of 256 KiB in `n` LBAs. [DESIGN CHOICE: log entry 72] -/
def pieces (n : Nat) : Nat := max 1 (ceilDiv n 64)

/-- The read points the work takes (R116). -/
def SceneKind.readPoints : SceneKind → Nat
  | .nvmRead _ n _ | .compare _ n | .verify _ n => pieces n
  | .memRead _ len => max 1 (ceilDiv len 262144)
  | .execute x => match x.srcKind with | 0 => 1 | 1 => pieces x.nlb | _ => max 1 (ceilDiv x.srcLen 262144)
  | .kvRetrieve .. | .kvExist _ | .kvList .. => 1
  | _ => 0

/-- The LBA ranges it names, each with whether it is written. -/
def SceneKind.lbas : SceneKind → List (Nat × Nat × Bool)
  | .nvmRead a n _ | .compare a n | .verify a n => [(a, n, false)]
  | .nvmWrite a n _ _ | .writeZeroes a n | .writeUncorrectable a n => [(a, n, true)]
  | .deallocate l => l.map (fun p => (p.1, p.2, true))
  | .copy d l => (d, (l.map (fun p => p.2)).sum, true) :: l.map (fun p => (p.1, p.2, false))
  | .execute x => if x.srcKind = 1 then [(x.slba, x.nlb, false)] else []
  | _ => []

/-- The SLM byte ranges it names. -/
def SceneKind.slm : SceneKind → List (Nat × Nat × Bool)
  | .memRead a n => [(a, n, false)]
  | .memWrite a n => [(a, n, true)]
  | .memCopy c =>
    (if c.srcNs.isNone then [(c.srcOff, c.len, false)] else []) ++ (if c.dstNs.isNone then [(c.dstOff, c.len, true)] else [])
  | .execute x =>
    (if x.srcKind = 2 then [(x.srcOff, x.srcLen, false)] else []) ++ (if x.dstKind = 1 then [(x.dstOff, x.dstCap, true)] else [])
  | _ => []

/-- Two lists of ranges meet where one of the two is written. -/
def rangesMeet (a b : List (Nat × Nat × Bool)) : Bool :=
  a.any (fun x => b.any (fun y => (x.2.2 || y.2.2) && decide (x.1 < y.1 + y.2.1 ∧ y.1 < x.1 + x.2.1)))

/-- The key it names, and whether it is a List. -/
def SceneKind.key : SceneKind → Option Bytes
  | .kvStore k _ _ | .kvRetrieve k _ | .kvDelete k | .kvExist k => some k
  | .execute x => if x.srcKind = 0 then some x.key else none
  | _ => none

/-- Is it a List? -/
def SceneKind.isList : SceneKind → Bool
  | .kvList .. => true
  | _ => false

/-- Two key-value commands meet (R114). -/
def keysMeet (a b : SceneKind) : Bool :=
  (a.isWrite || b.isWrite) &&
  match a.key, b.key with
  | some x, some y => x == y
  | some _, none => b.isList
  | none, some _ => a.isList
  | none, none => false

/-- The namespaces a Format NVM or a namespace deletion acts on, for the tenant at once (R115). -/
def Scene.wide (c : Scene) : List Nat :=
  match c.kind with
  | .format l _ _ => l
  | .nsDelete l => l
  | _ => []

/-- The namespaces a command is on. -/
def Scene.spaces (c : Scene) : List Nat :=
  match c.kind with
  | .memCopy m => c.nsid :: m.srcNs.toList ++ m.dstNs.toList
  | .aer => []
  | _ => [c.nsid]

/-- The work that others may still meet: an Execute Program whose source has been read counts by its destination alone (R115, R325). -/
def Scene.live (c : Scene) : SceneKind :=
  match c.kind with
  | .execute x => if c.kind.readPoints ≤ c.points then .execute { x with srcKind := 3 } else c.kind
  | k => k

/-- Does a scene overlap with one fetched after it (R114, R115, R118)? -/
def overlaps (a b : Scene) : Bool :=
  let sameQ := a.ctrl == b.ctrl && a.sq == b.sq
  let strict := sameQ && b.strict
  let wide := b.spaces.any a.wide.contains || a.spaces.any b.wide.contains || a.wide.any (fun n => b.wide.contains n)
  let meet := a.nsid == b.nsid && (rangesMeet a.live.lbas b.live.lbas || keysMeet a.live b.live) ||
    (a.tag == b.tag && rangesMeet a.live.slm b.live.slm)
  strict || wide || (sameQ && meet)

/-- Is the scene decided: retired or rolled back? -/
def Scene.decided (c : Scene) : Bool := c.retired || c.rolledBack

/-- Has an earlier scene done what a later overlapping one waits for (R115): committed, or, for a read, taken its read points? -/
def Scene.passed (c : Scene) : Bool :=
  c.decided || (c.kind.isRead && decide (c.kind.readPoints ≤ c.points))

/-- A scene held by an earlier overlapping one. -/
def heldByOverlap (s : State) (o : Nat) (c : Scene) : Bool :=
  s.scn.scenes.any (fun p => decide (p.1 < o) && !p.2.passed && overlaps p.2 c)

/-- Is a scene in a fence's scope (R119)? -/
def inScope (f : Scene) (scope : Nat) (c : Scene) : Bool :=
  match scope with
  | 0 => c.ctrl == f.ctrl && c.sq == f.sq
  | 1 => c.ctrl == f.ctrl
  | 2 => c.tag == f.tag
  | _ => true

/-- A scene held by an undecided fence that precedes it (R120). -/
def heldByFence (s : State) (o : Nat) (c : Scene) : Bool :=
  s.scn.scenes.any (fun p => decide (p.1 < o) && !p.2.decided &&
    match p.2.kind with
    | .fence scope => inScope p.2 scope c
    | _ => false)

/-- A scene of a frozen queue is held (R134). -/
def heldByFreeze (s : State) (c : Scene) : Bool := ((s.sqOf c.ctrl c.sq).map (fun q => q.frozen)).getD false

/-- Is a scene held before its read point and its commit gate? -/
def held (s : State) (o : Nat) (c : Scene) : Bool := heldByFreeze s c || heldByFence s o c || heldByOverlap s o c

/-- Holds are counted (R138, R139). -/
def countHold (o : Nat) (c : Scene) (s : State) : State :=
  let s' := if heldByOverlap s o c then count1 0x301018 (count1 (tenantKey c.tag 0x5010) s) else s
  if heldByFence s o c then count1 0x30101C s' else s'

/-! ### Fetching (R107, R111, R119, R131, R132) -/

/-- A new scene of a command. -/
def newScene (s : State) (h : CmdHdr) (opcode : Nat) (kind : SceneKind) (need : Nat) : Scene :=
  { ctrl := h.ctrl, sq := h.sq, cid := h.cid, nsid := h.nsid, tag := (s.ctrlTag h.ctrl).getD 0, opcode := opcode,
    kind := kind, fetched := s.cue.now, retired := false, rolledBack := false, need := need, data := [], asked := 0, staged := 0,
    points := 0, wantPoint := false, wantCommit := false, waits := [], media := [], st := stOk, dw0 := 0, dw1 := 0, commitCue := 0,
    boundary := none, reserve := none, version := none, noPost := false,
    strict := ((s.sqOf h.ctrl h.sq).map (fun q => q.strict)).getD false }

/-- Can the HFE fetch this command now: the queue exists and holds it, the controller is ready, nothing stops the fetch? -/
def fetchable (s : State) (h : CmdHdr) : Bool :=
  match s.ctrlOf h.ctrl, s.sqOf h.ctrl h.sq with
  | some k, some q =>
    s.runs && k.enabled && k.ready && !k.resetting && q.head != q.tail && !q.frozen && q.deleting.isNone && s.scn.act.isNone &&
    !s.scn.pressed.contains k.tag && sceneRoom s k.tag && taskRoom s k.tag 1 &&
    !(k.gloex && h.sq != 0 && decide (32 ≤ Tab.count s.scn.scenes (fun _ c => c.ctrl == h.ctrl && c.sq == h.sq)))
  | _, _ => false

/-- A scene is opened: the queue's head moves on, the fetch order advances (R120). Answers its number. [DEDUCED: log entries 66, 196] -/
def openScene (h : CmdHdr) (opcode : Nat) (kind : SceneKind) (need : Nat) (s : State) : Nat × State :=
  let o := s.scn.nextOrder
  let s := { s with
    scn := { s.scn with
      scenes := Tab.put s.scn.scenes o (newScene s h opcode kind need)
      nextOrder := o + 1
      sqs := Tab.modify s.scn.sqs (qKey h.ctrl h.sq) (fun q => { q with head := (q.head + 1) % (max 1 q.size) }) }
    smg := { s.smg with fails := Tab.del s.smg.fails (o % 2 ^ 17) } }
  let (_, s) := createOwn (sceneTask o ((s.ctrlTag h.ctrl).getD 0)) s
  (o, countHigh 0x301008 s.scn.scenes.length s)

/-! ### The end of a scene -/

/-- Staging a scene holds is given back (R99). -/
def releaseStaging (c : Scene) (s : State) : State :=
  { s with hfe := { s.hfe with
      staging := Tab.modify s.hfe.staging c.tag (fun g => { g with transfer := g.transfer - c.staged }) } }

/-- What a reservation took is returned whole (R147). -/
def returnReserve (c : Scene) (s : State) : State :=
  match c.reserve with
  | some r => { s with trl := freeRun c.tag r.first r.units r.bytes s.trl }
  | none => s

/-- A superseded version with no reader left is freed (R143). -/
def freeVersion (tag : Nat) (v : Version) (t : TrlState) : TrlState :=
  freeRun tag v.first v.units (v.storedUnits * 4096) t

/-- A reader of a version ends; the last one of a superseded version frees it (R143). -/
def endRead (nsid obj : Nat) (s : State) : State :=
  match Tab.find s.obj.ns nsid with
  | some n =>
    match Tab.find n.vers obj with
    | some v =>
      if v.superseded ∧ v.readers ≤ 1 then
        { s with
          obj := { s.obj with ns := Tab.put s.obj.ns nsid { n with vers := Tab.del n.vers obj } }
          trl := freeVersion n.owner v s.trl }
      else
        let n' := { n with vers := Tab.put n.vers obj { v with readers := v.readers - 1 } }
        { s with obj := { s.obj with ns := Tab.put s.obj.ns nsid n' } }
    | none => s
  | none => s

/-- A scene's hold on a version ends. -/
def dropVersion (c : Scene) (s : State) : State :=
  match c.version with
  | some v => endRead c.nsid v s
  | none => s

/-- A scene decided during a controller reset is recorded in page 0xC1; the last one lets CSTS.RDY read 0 (R129, R130). -/
def noteReset (o : Nat) (c : Scene) (s : State) : State :=
  let d := s.side c.ctrl
  if d.resetOpen.contains o then
    let e : ResetEntry :=
      { sq := c.sq, cid := c.cid, status := statusBits (if c.rolledBack then stSqDeleted else c.st)
        flags := if c.rolledBack then 2 else 1
        cue := if c.rolledBack then 0 else s.tenantCue c.tag c.commitCue }
    let left := setDel d.resetOpen o
    let s := onSide c.ctrl (fun d => { d with resetOpen := left, resetLog := d.resetLog ++ [e] }) s
    if left = [] then
      { s with hfe := { s.hfe with
          ctrls := Tab.modify s.hfe.ctrls c.ctrl (fun k => { k with ready := false, resetting := false }) } }
    else s
  else s

/-- A vector of a controller's function, for a PCIe controller. -/
def interrupt (k : Ctrl) (vector : Nat) (s : State) : State :=
  if k.transport = 0 then emit (.msix k.port k.fn vector) s else s

/-- A Gloex I/O queue freezes at a completion with non-zero status; an already frozen one keeps its page (R134, R136). -/
def freeze (o : Nat) (c : Scene) (s : State) : State :=
  match s.sqOf c.ctrl c.sq with
  | some q =>
    if s.isGloex c.ctrl ∧ c.sq ≠ 0 ∧ !isOk c.st ∧ !q.frozen then
      let heldNow := Tab.count s.scn.scenes (fun i x => i != o && x.ctrl == c.ctrl && x.sq == c.sq && !x.decided)
      let start := match c.kind.lbas, c.kind.key with
        | r :: _, _ => (r.1, r.2.1 - 1)
        | [], some k => (leNat (k.take 8), k.length)
        | [], none => (0, 0)
      onSq c.ctrl c.sq (fun q => { q with
        frozen := true
        logRead := false
        freezes := q.freezes + 1
        page := { cid := c.cid, status := statusBits c.st, heldCount := heldNow, cue := s.tenantCue c.tag s.cue.now,
                  nsid := c.nsid, opcode := c.opcode, start := start.1, count := start.2 } }) s
    else s
  | none => s

/-- The completion is posted (R122): the queue entry, the interrupt, the Error Information entry of a failure (R132), the
freeze of a Gloex queue; the scene is freed. Wings data of a posted write are then what a Flush covers (R125). -/
def postCompletion (o : Nat) (c : Scene) (s : State) : State :=
  let s := { s with scn := { s.scn with scenes := Tab.del s.scn.scenes o } }
  if c.noPost then s
  else
    match s.ctrlOf c.ctrl, s.sqOf c.ctrl c.sq with
    | some k, some q =>
      let cq := qKey c.ctrl q.cqid
      let s := emit (.completion c.ctrl c.sq c.cid c.st c.dw0 c.dw1) s
      let s := { s with
        scn := { s.scn with cqs := Tab.modify s.scn.cqs cq (fun x => { x with tail := (x.tail + 1) % (max 1 x.size) }) }
        trl := { s.trl with
          wings := Tab.mapVals s.trl.wings (fun _ w => if w.seq = o then { w with posted := true } else w)
          unflushed := s.trl.unflushed.map (fun u => if u.seq = o then { u with posted := true } else u) } }
      let s := interrupt k (((Tab.find s.scn.cqs cq).map (fun x => x.vector)).getD 0) s
      let s := if isOk c.st then s else
        onSide c.ctrl (fun d => { d with
          errorCount := d.errorCount + 1
          errors := (⟨c.sq, c.cid, statusBits c.st, c.nsid⟩ :: d.errors).take 64 }) s
      freeze o c s
    | _, _ => s

/-- Are the Wings writes a completion waits for on media, their journal record on flash (R125, R126)? -/
def mediaDone (t : TrlState) (l : List Nat) : Bool :=
  l.all (fun q => !t.wings.any (fun p => p.2.seq == q) && !t.unflushed.any (fun u => u.seq == q))

/-- Has a scene's completion queue room for another entry? A PCIe queue is full when its tail would meet the head. -/
def State.cqRoom (s : State) (ctrl sq : Nat) : Bool :=
  match s.ctrlOf ctrl, s.sqOf ctrl sq with
  | some k, some q => k.transport != 0 || ((Tab.find s.scn.cqs (qKey ctrl q.cqid)).map (fun x => (x.tail + 1) % (max 1 x.size) != x.head)).getD true
  | _, _ => true

/-- A decided scene posts its completion as soon as it may: FUA data on media (R126), a sealed tenant's at its boundary
(R410), the others at once. -/
def tryPost (o : Nat) (s : State) : State :=
  match Tab.find s.scn.scenes o with
  | some c =>
    if c.decided ∧ mediaDone s.trl c.media then
      if s.isSealed c.tag ∧ !c.noPost then
        match c.boundary with
        | some _ => s
        | none => onScene o (fun c => { c with boundary := some (s.boundaryOf (if c.media = [] then c.commitCue else s.cue.now)) }) s
      else if c.noPost || s.cqRoom c.ctrl c.sq then postCompletion o c s
      else s
    else s
  | none => s

/-- The latest commit cue of the device and of the tenant (R138, R139), and the queue's Commit Cue log (R124). -/
def noteCommit (c : Scene) (s : State) : State :=
  let now := s.cue.now
  let e : CommitEntry :=
    { cid := c.cid, opcode := c.opcode, flags := flag c.kind.isWrite 0 + flag (isOk c.st) 1, cue := s.tenantCue c.tag now }
  let s := { s with scn := { s.scn with latest := now, tenantLatest := Tab.put s.scn.tenantLatest c.tag now } }
  onSq c.ctrl c.sq (fun q => { q with
    retired := q.retired + 1
    log := (q.log ++ [e]).drop (q.log.length + 1 - 256) }) s

/-- The address of a tenant's SLM byte in the memory that holds every tenant's SLM. -/
def slmAddr (tag off : Nat) : Nat := tag * 2 ^ 40 + off

/-- Bytes of a tenant's SLM. [DEDUCED: log entry 10] -/
def State.slmRead (s : State) (tag off n : Nat) : Bytes := memRead s.slm (slmAddr tag off) n

/-- Bytes of a tenant's SLM written. -/
def slmWrite (tag off : Nat) (b : Bytes) (s : State) : State := { s with slm := memWrite s.slm (slmAddr tag off) b }

/-- Bytes with no defined value: free values. -/
def freeBytes (n : Nat) (s : State) : Bytes × State :=
  ((List.range n).map (fun i => (Config.freeValue (s.free + i)).setWidth 8), { s with free := s.free + n })

/-- An Execute Program ends: its invocations are forgotten. -/
def forgetExec (o : Nat) (s : State) : State :=
  { s with bob := { s.bob with
      execs := Tab.del s.bob.execs o
      invs := s.bob.invs.filter (fun p => p.2.scene != o) } }

/-- An Execute Program fails: the destination bytes it wrote are undefined (R326). -/
def undoExec (o : Nat) (c : Scene) (s : State) : State :=
  match c.kind, Tab.find s.bob.execs o with
  | .execute x, some e =>
    if x.dstKind = 1 then
      let (b, s) := freeBytes e.output.length s
      forgetExec o (slmWrite c.tag x.dstOff b s)
    else forgetExec o s
  | _, _ => s

/-- A scene retires: its commit point, its status and DW0 fixed (R112, R122). [DEDUCED: log entry 120] -/
def retire (o : Nat) (st : Status) (dw0 : Nat) (s : State) : State :=
  match Tab.find s.scn.scenes o with
  | some c =>
    let c' := { c with retired := true, st := st, dw0 := dw0, commitCue := s.cue.now, staged := 0, wantCommit := false,
                       wantPoint := false }
    let s := { s with scn := { s.scn with scenes := Tab.put s.scn.scenes o c' } }
    tryPost o (noteReset o c' (dropVersion c (releaseStaging c (forgetExec o (noteCommit c' s)))))
  | none => s

/-- A scene rolls back: no commit point, no effect on stored data, its tasks and space given back (R112, R292). -/
def rollBack (o : Nat) (st : Status) (s : State) : State :=
  match Tab.find s.scn.scenes o with
  | some c =>
    if c.decided then s
    else
      let keep : Bool := match c.kind with | .execute _ | .loadProgram _ => true | _ => false
      let c' := { c with rolledBack := true, st := st, dw0 := if keep then c.dw0 else 0, commitCue := s.cue.now, staged := 0, reserve := none, media := [],
                         wantCommit := false, wantPoint := false }
      let s := { s with scn := { s.scn with scenes := Tab.put s.scn.scenes o c' } }
      let s := { s with hfe := { s.hfe with reqs := Tab.mapVals s.hfe.reqs (fun _ r => if r.scene = o then { r with failed := true } else r) } }
      let s := count1 0x301024 (count1 (tenantKey c.tag 0x5014) s)
      tryPost o (noteReset o c' (dropVersion c (returnReserve c (releaseStaging c (cancelTasks o (undoExec o c s))))))
  | none => s

/-- A command that fails or ends in the cycle of its fetch. -/
def endAtOnce (h : CmdHdr) (opcode : Nat) (st : Status) (dw0 : Nat) (s : State) : State :=
  let (o, s) := openScene h opcode .admin 0 s
  retire o st dw0 s

/-- A command that fails: it has no effect. -/
def failCmd (h : CmdHdr) (opcode : Nat) (st : Status) (s : State) : State := endAtOnce h opcode st 0 s

/-! ### What a fetched command meets before its own work -/

/-- The sets a controller serves, by kind of command. -/
inductive CmdSet where
  | admin | houseAdmin | identify | nvm | kv | programs | slm | anyIo | gloexAdmin | pcieAdmin | fabricAdmin
  deriving DecidableEq, Repr

/-- May this controller's queue issue commands of the set (R106, R107, R133)? -/
def accepts (s : State) (h : CmdHdr) (set : CmdSet) : Bool :=
  match s.ctrlOf h.ctrl with
  | some k =>
    match set with
    | .admin => h.sq == 0
    | .identify => h.sq == 0 || s.dev.phase == .curtainDown
    | .houseAdmin => h.sq == 0 && k.tag == 0
    | .pcieAdmin => h.sq == 0 && k.transport == 0
    | .fabricAdmin => h.sq == 0 && k.transport != 0
    | .gloexAdmin => h.sq == 0 && k.gloex
    | .nvm | .kv | .anyIo => h.sq != 0
    | .programs => if h.sq = 0 then ((s.tenantRec k.tag).map (fun r => r.flags.testBit 2)).getD false
        else !k.gloex && ((s.tenantRec k.tag).map (fun r => r.flags.testBit 2)).getD false
    | .slm => h.sq != 0 && !k.gloex
  | none => false

/-- The status a command meets before its own checks: an absent opcode, Curtain Down, a Gloex CID, a bad field (R132, R133). -/
def earlyStatus (s : State) (h : CmdHdr) (set : CmdSet) : Option Status :=
  if s.isGloex h.ctrl ∧ h.sq ≠ 0 ∧ 32 ≤ h.cid then some stInvalidField
  else if !accepts s h set then some stInvalidOpcode
  else if s.dev.phase = .curtainDown ∧ set ≠ .identify then some stNotReady
  else if h.badField then some stInvalidField
  else none

/-- An Abort that was held for this command not yet fetched (R128): its scene. [DEDUCED: log entry 73] -/
def heldAbort (s : State) (h : CmdHdr) : Option Nat :=
  (s.scn.scenes.find? (fun p => p.2.ctrl == h.ctrl && !p.2.decided &&
    match p.2.kind with
    | .abort q t _ => q == h.sq && t == h.cid
    | _ => false)).map (fun p => p.1)

/-! ### Settling what waited -/

/-- May a scene go through its gate now: asked, not held, its data all there? -/
def gateOpen (s : State) (o : Nat) (c : Scene) : Bool := !c.decided && !held s o c

/-- Does an Asynchronous Event Request that an event has answered go through its gate (R112, R460)? -/
def aerReady (s : State) (o : Nat) (c : Scene) : Bool := c.kind == .aer && Tab.has s.evt.aenDue o && gateOpen s o c

/-- It retires with the event as its DW0. -/
def retireAer (o : Nat) (s : State) : State :=
  retire o stOk (Tab.at s.evt.aenDue o 0) { s with evt := { s.evt with aenDue := Tab.del s.evt.aenDue o } }

/-- Do scenes still drain before an activation's switch (R131)? An Asynchronous Event Request has no work in flight. [DEDUCED: log entry 79] -/
def State.inFlight (s : State) (a : Activation) : Bool := s.scn.scenes.any (fun p => a.scene != some p.1 && p.2.kind != .aer)

/-- A waiting scene whose set has all ended: a Fence, a Flush, a Format (R115, R120, R125). -/
def setEnded (s : State) (c : Scene) : Bool :=
  c.waits.all (fun w => match Tab.find s.scn.scenes w with | some x => x.decided | none => true)

/-- A Fence retires once its set has (R120): DW0 was fixed at its fetch. -/
def fenceReady (s : State) (o : Nat) (c : Scene) : Bool :=
  match c.kind with
  | .fence _ => gateOpen s o c && setEnded s c
  | _ => false

/-- One fence retires. -/
def retireFence (o : Nat) (s : State) : State :=
  match Tab.find s.scn.scenes o with
  | some c =>
    let s := { s with scn := { s.scn with
        fences := Tab.update s.scn.fences c.tag (0, 0) (fun f => (f.1, (f.2 + 1) % 2 ^ 32)) } }
    retire o stOk c.dw0 s
  | none => s

/-- Is a Flush complete: the data of every covered write on media and journalled (R125)? -/
def flushReady (s : State) (o : Nat) (c : Scene) : Bool :=
  match c.kind with
  | .flush _ => gateOpen s o c && mediaDone s.trl c.waits
  | _ => false

end Sys2Proof.Machine
end

