-- ==== Sys2Proof/Machine/Commit.lean ====
section
/-! DEFINITION. Read points and commits: what each kind of command reads and what its map switch changes (R112, R116, R122,
R142-R148, R164-R167). -/
namespace Sys2Proof.Machine

/-! ### LBAs -/

/-- Bytes of an LBA as the host sees it: format 0, or format 1 with 16 bytes of protection information (R107). -/
def Namespace.lbaSize (n : Namespace) : Nat := if n.lbaf = 1 then 4112 else 4096

/-- What an LBA holds; one never written or deallocated holds zeroes. -/
def Namespace.lba (n : Namespace) (a : Nat) : LbaData :=
  Tab.at n.lbas a { bytes := List.replicate 4096 0, pi := List.replicate 16 0, bad := false }

/-- Do the protection bytes of an LBA carry the Guard of its data (R145)? An LBA never written carries none. -/
def guardOk (n : Namespace) (a : Nat) : Bool :=
  match Tab.find n.lbas a with
  | some d => n.lbaf != 1 || beNat (d.pi.take 8) == crc64 d.bytes
  | none => true

/-- The data of a range of LBAs as of now, or the status that reading it meets (R116, R132, R145, R165). -/
def readLbas (n : Namespace) (slba nlb : Nat) : Status × Bytes :=
  let l := List.range nlb
  if l.any (fun i => (n.lba (slba + i)).bad) then (stUnrecovered, [])
  else if l.any (fun i => !guardOk n (slba + i)) then (stGuard, [])
  else (stOk, (l.map (fun i =>
    let d := n.lba (slba + i)
    if n.lbaf = 1 then d.bytes ++ d.pi else d.bytes)).flatten)

/-- The units of a range of LBAs, each with the granules the range covers (R164). -/
def unitsOf (n : Namespace) (slba nlb : Nat) : List (Nat × List Nat) :=
  if nlb = 0 then []
  else
    let u0 := slba / 8
    let u1 := (slba + nlb - 1) / 8
    (List.range (u1 + 1 - u0)).map (fun i =>
      (n.first + u0 + i, (List.range 8).filter (fun g => decide (slba ≤ (u0 + i) * 8 + g ∧ (u0 + i) * 8 + g < slba + nlb))))

/-- A namespace changed. -/
def onNs (nsid : Nat) (f : Namespace → Namespace) (s : State) : State :=
  { s with obj := { s.obj with ns := Tab.modify s.obj.ns nsid f } }

/-- The digest of a 256 KiB extent of an NVM namespace, as its bytes are now (R152). -/
def extentDigest (n : Namespace) (e : Nat) : Nat :=
  (Config.digest n.fixityAlg ((List.range 64).map (fun i => (n.lba (e * 64 + i)).bytes)).flatten).toNat

/-- The extents a range of LBAs touches take their digests, on a fixity namespace (R152). -/
def updateExtents (slba nlb : Nat) (n : Namespace) : Namespace :=
  if n.services.testBit 2 ∧ !n.kv then
    let put := fun (t : Tab Nat) (i : Nat) => Tab.put t (slba / 64 + i) (extentDigest n (slba / 64 + i))
    { n with extents := (List.range ((slba + nlb - 1) / 64 + 1 - slba / 64)).foldl put n.extents }
  else n

/-- LBAs take host data: 4,096 bytes each, and 16 bytes of protection information on format 1. -/
def putLbas (slba : Nat) (data : Bytes) (nlb : Nat) (n : Namespace) : Namespace :=
  let z := n.lbaSize
  updateExtents slba nlb { n with lbas := (List.range nlb).foldl (fun t i =>
    let d := slice data (i * z) z
    Tab.put t (slba + i) { bytes := padTo d 4096, pi := padTo (d.drop 4096) 16, bad := false }) n.lbas }

/-- LBAs that hold nothing: they read as zeroes. -/
def zeroLbas (slba nlb : Nat) (n : Namespace) : Namespace :=
  updateExtents slba nlb { n with lbas := n.lbas.filter (fun p => !decide (slba ≤ p.1 ∧ p.1 < slba + nlb)) }

/-- LBAs that read as uncorrectable (R165). -/
def badLbas (slba nlb : Nat) (n : Namespace) : Namespace :=
  { n with lbas := (List.range nlb).foldl (fun t i => Tab.put t (slba + i) { n.lba (slba + i) with bad := true }) n.lbas }

/-- The units of a write are placed into Wings by one map switch each piece, under one write sequence (R122, R182). -/
def placeAll (tag nsid seq : Nat) (us : List (Nat × List Nat)) (s : State) : State :=
  let s := us.foldl (fun s u => placeUnit tag nsid u.1 u.2 seq s) s
  let (_, t) := journal us.length s.wall s.trl
  { s with trl := { t with writeSeq := t.writeSeq + 1 } }

/-- Units that a Deallocate, Write Zeroes or Write Uncorrectable covers: whole ones become unmapped or kind 6, the others change
their granules in a fine group where one can be had (R165, R166). -/
def clearUnits (e : Option MapEntry) (us : List (Nat × List Nat)) (s : State) : State :=
  let fe : FineEntry := if e.isSome then .uncorrectable else .unmapped
  let s := us.foldl (fun s u =>
    let t := s.trl
    if u.2.length = 8 then { s with trl := setEntry u.1 e t }
    else
      match Tab.find t.map u.1 with
      | none => if e.isNone then s else { s with trl := setEntry u.1 e t }
      | some (.fine g) =>
        let l := (Tab.at t.fine g (spread none)).zip (List.range 8)
        { s with trl := sweepSlots u.1 { t with fine := Tab.put t.fine g (l.map (fun p => if u.2.contains p.2 then fe else p.1)) } }
      | some m =>
        if tierOf u.1 = 0 ∧ t.fine.length < s.fineCapacity then
          let g := (Tab.freeKey t.fine (t.fine.length + 1) 0).getD t.fine.length
          let l := (spread (some m)).zip (List.range 8)
          { s with trl := sweepSlots u.1 { t with
              map := Tab.put t.map u.1 (.fine g), fine := Tab.put t.fine g (l.map (fun p => if u.2.contains p.2 then fe else p.1)) } }
        else s) s
  let (_, t) := journal us.length s.wall s.trl
  { s with trl := t }

/-! ### Objects -/

/-- Byte strings in ascending order. -/
def bytesLt : Bytes → Bytes → Bool
  | [], [] => false
  | [], _ :: _ => true
  | _ :: _, [] => false
  | a :: x, b :: y => if a = b then bytesLt x y else decide (a.toNat < b.toNat)

/-- The newest committed version of a key: its object ID and the version (R143, R168). -/
def Namespace.newest (n : Namespace) (key : Bytes) : Option (Nat × Version) :=
  n.vers.find? (fun p => !p.2.superseded && p.2.key == key)

/-- The keys of a namespace in ascending order. -/
def Namespace.keys (n : Namespace) : List Bytes :=
  ((n.vers.filter (fun p => !p.2.superseded)).map (fun p => p.2.key)).mergeSort (fun a b => !bytesLt b a)

/-- The chunks' bytes of a value: 262,144 each, the last the remainder (R142); `fuel` bounds their number. -/
def chunksOf : Nat → Bytes → List Bytes
  | 0, _ => []
  | f + 1, l => if l = [] then [] else l.take 262144 :: chunksOf f (l.drop 262144)

/-- The level in effect: the namespace's, or the default of the PRESS region (R140). [DEDUCED: log entry 203] -/
def State.levelOf (s : State) (n : Namespace) : Nat := if n.compLevel = 0 then s.smockLanes.2.2.1 else n.compLevel

/-- Output capacity of a store-path compress job: 264 KiB less the chunk header (R340), and less the seal of a GCM namespace (R398). -/
def storeCap (n : Namespace) : Nat := if n.services.testBit 1 ∧ n.cipher = 1 then 270240 else 270272

/-- A chunk as stored: compressed where the namespace compresses and the output fits, else raw (R144, R342). [DESIGN CHOICE: log entry 85] -/
def chunkOf (n : Namespace) (level wlog : Nat) (compress : Bool) (l : Bytes) : Chunk :=
  let e := compressEnd n.compFormat level wlog (storeCap n) l
  if compress && e.status == 0 then
    { origLen := l.length, storedLen := e.out.length, format := n.compFormat, level := level, crc := crc64 l }
  else { origLen := l.length, storedLen := l.length, format := 0, level := 0, crc := crc64 l }

/-- A value's chunks as stored. -/
def State.chunksFor (s : State) (n : Namespace) (compress : Bool) (value : Bytes) : List Chunk :=
  (chunksOf (value.length + 1) value).map (chunkOf n (s.levelOf n) s.smockLanes.2.2.2.1 compress)

/-- Media space of chunks in 4 KiB units, each with its header and, on a GCM namespace, its seal (R144, R146, R385). -/
def chunkUnits (n : Namespace) (l : List Chunk) : Nat :=
  (l.map (fun c => ceilDiv ((if n.services.testBit 1 ∧ n.cipher = 1 then 96 else 64) + c.storedLen) 4096)).sum

/-- The reservation of a Store of `len` bytes: 264 KiB a chunk (R147), and its units (R164). -/
def storeBytes (len : Nat) : Nat := ceilDiv len 262144 * 270336

/-- A chunk whose compressed form overflowed where raw storage is not allowed (R132, R144). [DEDUCED: log entry 201] -/
def overflowed (s : State) (compress : Bool) (l : List Chunk) : Bool :=
  compress && !s.smockLanes.2.2.2.2 && l.any (fun c => c.format == 0)

/-- A version leaves: at once where nothing reads it, else when its last reader ends (R143). -/
def supersede (nsid obj : Nat) (s : State) : State :=
  match Tab.find s.obj.ns nsid with
  | some n =>
    match Tab.find n.vers obj with
    | some v =>
      if v.readers = 0 then
        { s with
          obj := { s.obj with ns := Tab.put s.obj.ns nsid { n with vers := Tab.del n.vers obj } }
          trl := freeVersion n.owner v s.trl }
      else
        let n' := { n with vers := Tab.put n.vers obj { v with superseded := true } }
        { s with obj := { s.obj with ns := Tab.put s.obj.ns nsid n' } }
    | none => s
  | none => s

/-- A version commits (R143, R146-R148): a new object ID, its record, its charge; the version it replaces leaves. [DEDUCED: log entries 203, 210] -/
def commitVersion (nsid seq : Nat) (key value : Bytes) (noCompress imported : Bool) (origTai : Nat) (r : Reserve) (s : State) :
    State :=
  match Tab.find s.obj.ns nsid with
  | none => s
  | some n =>
    let compress := n.services.testBit 0 && !noCompress
    let cs := s.chunksFor n compress value
    let su := chunkUnits n cs
    let keep := ceilDiv su 8
    let v : Version :=
      { key := key, value := value, chunks := cs, compFormat := n.compFormat, compLevel := if n.services.testBit 0 then s.levelOf n else 0,
        cipher := if n.services.testBit 1 then n.cipher else 0xFF
        fixityAlg := if n.services.testBit 2 then n.fixityAlg else 0xFF
        epoch := n.epoch, storedUnits := su, commitCue := s.cue.now
        commitTai := if s.cue.offsetFixed then ofInt 64 (s.cue.now + s.cue.ptpOffset) else 0
        fixityCue := 0, fixityResult := 0, origin := b2n imported, origTai := origTai, crc := crc64 value
        digest := if n.services.testBit 2 then (Config.digest n.fixityAlg value).toNat else 0
        damaged := false, imported := imported, repaired := false, platters := r.tier == 1
        rawChunk := cs.any (fun c => c.format == 0), first := r.first, units := keep, superseded := false, readers := 0
        lastRead := s.cue.now, reads := [] }
    let old := n.newest key
    let n' := { n with nextObj := n.nextObj + 1, vers := Tab.put n.vers n.nextObj v }
    let s := { s with
      obj := { s.obj with ns := Tab.put s.obj.ns nsid n', counters := Tab.put s.obj.counters nsid (n.nextObj + 1) }
      trl := shrinkRun n.owner r.first r.units keep (r.bytes - su * 4096) s.trl }
    let s := placeAll n.owner nsid seq ((List.range keep).map (fun i => (r.first + i, List.range 8))) s
    let recent := match old with
      | some (_, w) => decide (s.cue.now < w.commitCue + s.reg 0xA00060 7 * 86400000000000)
      | none => false
    let s := { s with trl := { s.trl with
        wings := Tab.mapVals s.trl.wings (fun _ w => if w.seq = seq then { w with hot := recent } else w) } }
    let s := if r.spilled then count1 (tenantKey n.owner 0x7060) s else s
    match old with
    | some (o, _) => supersede nsid o s
    | none => s

/-- What a commit will change in a namespace is kept until it is on media (R183, R189). -/
def noteUndo (seq nsid : Nat) (s : State) : State :=
  match Tab.find s.obj.ns nsid with
  | none => s
  | some n =>
    let t := s.trl
    let u : UndoRec :=
      { seq := seq, jseq := t.jnext, nsid := nsid, ns := n, map := t.map, fine := t.fine, wings := t.wings, runs := t.runs,
        quota := t.quota, flashCharged := t.flash.charged, platCharged := t.plat.charged, latest := s.scn.latest }
    { s with obj := { s.obj with undo := s.obj.undo ++ [u] } }

/-- Commits whose journal record and data are on media need no undoing. -/
def trimUndo (s : State) : State :=
  { s with obj := { s.obj with undo := s.obj.undo.filter (fun u =>
      decide (s.trl.jflash ≤ u.jseq) || s.trl.wings.any (fun w => w.2.seq == u.seq) ||
      s.trl.unflushed.any (fun f => f.seq == u.seq)) } }

/-- The commits beyond the first `keep` that were not on media are rolled back to their predecessors (R189). [DEDUCED: log entry 94] -/
def undoCommits (keep : Nat) (s : State) : State :=
  let seqs := s.obj.undo.foldl (fun l u => if l.contains u.seq then l else l ++ [u.seq]) []
  let lost := s.obj.undo.filter (fun u => (seqs.drop keep).contains u.seq)
  match lost with
  | [] => s
  | r :: _ =>
    let t := s.trl
    let gone := fun (e : MapEntry) => match e with
      | .wings k => (Tab.find t.wings k).any (fun w => decide (r.seq ≤ w.seq))
      | .fine g => (Tab.at t.fine g []).any (fun f => match f.slot with
        | some k => (Tab.find t.wings k).any (fun w => decide (r.seq ≤ w.seq))
        | none => false)
      | _ => false
    let kept := t.map.filter (fun p => !gone p.2)
    let back := r.map.filter (fun p => !Tab.has kept p.1)
    let groups := back.filterMap (fun p => match p.2 with | .fine g => some (g, Tab.at r.fine g []) | _ => none)
    let slots := back.filterMap (fun p => match p.2 with | .wings k => (Tab.find r.wings k).map (fun w => (k, w)) | _ => none)
    let t' := { t with
      map := back.foldl (fun m p => Tab.put m p.1 p.2) kept
      fine := groups.foldl (fun m p => Tab.put m p.1 p.2) t.fine
      wings := slots.foldl (fun m p => Tab.put m p.1 p.2) (t.wings.filter (fun p => decide (p.2.seq < r.seq)))
      unflushed := t.unflushed.filter (fun f => decide (f.seq < r.seq))
      runs := r.runs, quota := r.quota
      flash := { t.flash with charged := r.flashCharged }
      plat := { t.plat with charged := r.platCharged } }
    let ns := lost.reverse.foldl (fun m u => Tab.modify m u.nsid (fun n => { n with
      lbas := u.ns.lbas, vers := u.ns.vers, extents := u.ns.extents })) s.obj.ns
    { s with trl := t', obj := { s.obj with ns := ns } }

/-- How many commits a rollback that keeps the first `keep` undoes (TRL_PL_LOST). -/
def State.lostCommits (s : State) (keep : Nat) : Nat :=
  (s.obj.undo.foldl (fun l u => if l.contains u.seq then l else l ++ [u.seq]) ([] : List Nat)).length - keep

/-- Which tier takes a reservation, and whether it spilled, or the status of R148. [DEDUCED: log entry 91] -/
def chooseTier (s : State) (n : Namespace) (bytes units : Nat) : Status × Nat × Bool :=
  let can := fun k => quotaRoom s n.owner k bytes && hasRoom s.trl k units
  let refused := fun (tiers : List Nat) =>
    if tiers.any (fun k => !quotaRoom s n.owner k bytes && hasRoom s.trl k units) then (stQuota, 0, false)
    else if finalDue s.trl units then (stFinal, 0, false)
    else (stSpill, 0, false)
  match n.tierPolicy with
  | 0 => if can 0 then (stOk, 0, false) else refused [0]
  | 3 => if can 1 then (stOk, 1, false) else refused [1]
  | p => if can 0 then (stOk, 0, false) else if p ≤ 2 ∧ can 1 then (stOk, 1, true) else refused [0, 1]

/-- The device enters Final Curtain from Performance, and the entry is written into a checkpoint at once (R193, R476). -/
def enterFinal (s : State) : State :=
  if s.dev.phase ≠ .performance then s
  else
    let s := transition .finalCurtain s
    { s with trl := { s.trl with ckptBusy := true, ckptStart := s.cue.now } }

/-! ### Read points (R116) -/

/-- A KV read takes its version: the newest at this cue, which stays mapped until it has been read. -/
def readVersion (o : Nat) (c : Scene) (key : Bytes) (s : State) : State :=
  match Tab.find s.obj.ns c.nsid with
  | none => onScene o (fun c => { c with points := 1, st := stNamespace }) s
  | some n =>
    match n.newest key with
    | none => onScene o (fun c => { c with points := 1, st := ⟨0, 0x87, true⟩ }) s
    | some (id, v) =>
      let whole : Bool := match c.kind with | .kvRetrieve .. | .execute _ => true | _ => false
      let v' := if whole then { v with readers := v.readers + 1, lastRead := s.cue.now, reads := v.reads ++ [s.cue.now] } else v
      let s := onNs c.nsid (fun n => { n with vers := Tab.put n.vers id v' }) s
      let (can, s) := if whole then readUnits o ((List.range v.units).map (fun i => (v.first + i, List.range 8))) s else (true, s)
      let cap := match c.kind with | .kvRetrieve _ b => b | _ => v.value.length
      let st := if (whole && v.damaged) || !can then stUnrecovered else stOk
      onScene o (fun c => { c with
        points := 1, st := st, dw0 := if c.kind.isRead && whole then v.value.length else 0
        data := if whole && !v.damaged && can then v.value.take cap else []
        version := if whole then some id else none }) s

/-- The bytes a List returns (KV command set): a count, then each key's length and bytes, padded to 4. [DESIGN CHOICE: log entry 69] -/
def listBytes (ks : List Bytes) (cap : Nat) : Bytes :=
  let one := fun (k : Bytes) => leBytes 2 k.length ++ padTo k (nextMultiple (k.length + 1) 4 - 2)
  let fit := ks.foldl (fun (acc : Nat × Bytes) k =>
    if acc.2.length + (one k).length + 4 ≤ cap then (acc.1 + 1, acc.2 ++ one k) else acc) (0, [])
  leBytes 4 fit.1 ++ fit.2

/-- One read point of a scene is taken. SLM reads are in the memory given. -/
def takePoint (o : Nat) (slm : Nat → Nat → Bytes) (s : State) : State :=
  match Tab.find s.scn.scenes o with
  | none => s
  | some c =>
    let s := onScene o (fun c => { c with wantPoint := false }) s
    let lbas := fun (a nlb : Nat) (compareOnly : Bool) =>
      match Tab.find s.obj.ns c.nsid with
      | some n =>
        let at0 := c.points * 64
        let r0 := readLbas n (a + at0) (min 64 (nlb - at0))
        let (can, s) := readUnits o (unitsOf n (a + at0) (min 64 (nlb - at0))) s
        let r := if can then r0 else (stUnrecovered, [])
        onScene o (fun c => { c with
          points := c.points + 1
          st := if isOk c.st then
              (if compareOnly ∧ isOk r.1 ∧ r.2 ≠ slice c.data (at0 * n.lbaSize) r.2.length then stMiscompare else r.1)
            else c.st
          data := if compareOnly then c.data else c.data ++ r.2 }) s
      | none => onScene o (fun c => { c with points := c.points + 1, st := stNamespace }) s
    match c.kind with
    | .nvmRead a n _ => lbas a n false
    | .compare a n => lbas a n true
    | .verify a n =>
      match Tab.find s.obj.ns c.nsid with
      | some ns =>
        let at0 := c.points * 64
        let len := min 64 (n - at0)
        let r0 := readLbas ns (a + at0) len
        let (can, s) := readUnits o (unitsOf ns (a + at0) len) s
        let r := if can then r0 else (stUnrecovered, [])
        let bad := ns.services.testBit 2 && (List.range ((a + at0 + len - 1) / 64 + 1 - (a + at0) / 64)).any (fun i =>
          match Tab.find ns.extents ((a + at0) / 64 + i) with
          | some d => d != extentDigest ns ((a + at0) / 64 + i)
          | none => false)
        onScene o (fun c => { c with
          points := c.points + 1
          st := if isOk c.st then (if isOk r.1 ∧ bad then stFixity else r.1) else c.st }) s
      | none => onScene o (fun c => { c with points := c.points + 1, st := stNamespace }) s
    | .memRead a n =>
      let at0 := c.points * 262144
      onScene o (fun c => { c with
        points := c.points + 1, data := c.data ++ slm (a + at0) (min 262144 (n - at0)) }) s
    | .kvRetrieve k _ => readVersion o c k s
    | .execute x =>
      match x.srcKind with
      | 0 => readVersion o c x.key s
      | 1 => lbas x.slba x.nlb false
      | _ =>
        let at0 := c.points * 262144
        onScene o (fun c => { c with
          points := c.points + 1, data := c.data ++ slm (x.srcOff + at0) (min 262144 (x.srcLen - at0)) }) s
    | .kvExist k => readVersion o c k s
    | .kvList k cap =>
      match Tab.find s.obj.ns c.nsid with
      | some n => onScene o (fun c => { c with
          points := 1, data := listBytes (n.keys.filter (fun x => !bytesLt x k)) cap }) s
      | none => onScene o (fun c => { c with points := 1, st := stNamespace }) s
    | _ => s

end Sys2Proof.Machine
end

