-- ==== Sys2Proof/Machine/Exec.lean ====
section
/-! DEFINITION. Execute Program as it runs (12_bobbins_programs.md, R316, R320-R326): the invocations planned over a source, their
results in order, its failures. -/
namespace Sys2Proof.Machine

/-- The Bobbins changed. -/
def onBob (f : BobState → BobState) (s : State) : State := { s with bob := f s.bob }

/-! ### The invocations of a command (R320, R321) -/

/-- The chunks of a source of `n` bytes. -/
def chunkPlan (n : Nat) : List InvPlan :=
  (List.range (ceilDiv n 262144)).map (fun i =>
    { chunk := i, off := i * 262144, len := min 262144 (n - i * 262144), record := 0, final := false })

/-- The length of the record that begins a byte string: REC_LEN bytes, or up to and with DELIM (R321). -/
def recordLen (m : ProgImage) (l : Bytes) : Nat :=
  if m.recMode = 0 then min (max 1 m.recLen) l.length
  else
    match l.findIdx? (fun b => b.toNat == m.delim) with
    | some i => i + 1
    | none => l.length

/-- The records of a source in order; the plan ends with a delimited record that is too long, marked final; `fuel` bounds them. [DEDUCED: log entry 130] -/
def recordPlan (m : ProgImage) : Nat → Nat → Nat → Bytes → List InvPlan
  | 0, _, _, _ => []
  | f + 1, k, off, l =>
    if l = [] then []
    else
      let n := recordLen m l
      let bad := m.recMode == 1 && decide (m.recLen < n)
      let p : InvPlan := { chunk := off / 262144, off := off, len := n, record := k, final := bad }
      if bad then [p] else p :: recordPlan m f (k + 1) (off + n) (l.drop n)

/-- The invocations of a command over its source (R320). -/
def execPlan (m : ProgImage) (src : Bytes) : List InvPlan :=
  match m.ty with
  | 0 => recordPlan m (src.length + 1) 0 0 src
  | 1 => chunkPlan src.length
  | _ =>
    let l := chunkPlan src.length
    l ++ [{ chunk := l.length, off := src.length, len := 0, record := 0, final := true }]

/-- The source bytes as read: of LBA format 1 the data without protection information. [DEDUCED: log entry 131] -/
def sourceBytes (s : State) (c : Scene) (x : ExecReq) : Bytes :=
  match Tab.find s.obj.ns c.nsid with
  | some n =>
    if x.srcKind = 1 ∧ n.lbaf = 1 then ((List.range x.nlb).map (fun i => slice c.data (i * 4112) 4096)).flatten else c.data
  | none => c.data

/-! ### Starting and submitting -/

/-- May a command submit another invocation: of a reduce one at a time, of the others while the scan goes on; none while the tenant is
back-pressured (R303, R322)? -/
def canSubmit (s : State) (c : Scene) (e : Exec) : Bool :=
  !e.finished && !s.scn.pressed.contains c.tag && taskRoom s c.tag 1 && e.stopAt.isNone &&
  decide (e.submitted < e.plan.length) && (e.image.ty != 2 || e.submitted == e.nextOut)

/-- Has a command's program work to do: its source is read and it has not started, or it can submit? [DEDUCED: log entry 130] -/
def execReady (s : State) (o : Nat) (c : Scene) : Bool :=
  match c.kind with
  | .execute _ =>
    !c.decided && !c.wantCommit && decide (c.kind.readPoints ≤ c.points) && !s.readsOf o &&
    match Tab.find s.bob.execs o with
    | none => true
    | some e => canSubmit s c e
  | _ => false

/-- The command fails: what stops at its failure stops, DW0 and DW1 hold what R326 names. -/
def execFail (o : Nat) (st : Status) (dw0 dw1 : Nat) (s : State) : State :=
  rollBack o st (onScene o (fun c => { c with dw0 := dw0, dw1 := dw1 }) s)

/-- One invocation is submitted: a task on list 1 with class 1 (R530). -/
def submitOne (o : Nat) (c : Scene) (e : Exec) (p : InvPlan) (s : State) : State :=
  let t : Task := { unit := 2, list := 1, dep := 0, tag := c.tag, cls := 1, scene := some (o % 2 ^ 17) }
  let (i, s) := createOwn t s
  onBob (fun b => { b with
    invs := Tab.put b.invs (s.smg.handle i) { scene := o, ix := e.submitted, plan := p }
    execs := Tab.modify b.execs o (fun e => { e with submitted := e.submitted + 1 }) }) s

/-- A command's next invocations are submitted while they can be; `fuel` bounds their number. -/
def submitAll : Nat → Nat → Scene → State → State
  | 0, _, _, s => s
  | f + 1, o, c, s =>
    match Tab.find s.bob.execs o with
    | some e =>
      if canSubmit s c e then
        match e.plan[e.submitted]? with
        | some p =>
          if p.final ∧ e.image.ty = 0 then
            if e.nextOut = e.submitted then execFail o ⟨0, 0x06, true⟩ p.chunk 0 s
            else onBob (fun b => { b with execs := Tab.put b.execs o { e with submitted := e.submitted + 1 } }) s
          else submitAll f o c (submitOne o c e p s)
        | none => s
      else s
    | none => s

/-- A command whose results are all delivered asks for its gate: its commit point is the delivery of the last byte (R325). -/
def checkDone (o : Nat) (s : State) : State :=
  match Tab.find s.bob.execs o with
  | some e =>
    if e.plan.length ≤ e.nextOut then
      onScene o (fun c => { c with wantCommit := true, dw0 := e.output.length, dw1 := if e.image.ty = 0 then e.kept else 0 })
        (onBob (fun b => { b with execs := Tab.put b.execs o { e with finished := true } }) s)
    else s
  | none => s

/-- A command starts or goes on with its program. -/
def runExec (o : Nat) (c : Scene) (s : State) : State :=
  match c.kind with
  | .execute x =>
    match Tab.find s.bob.execs o with
    | none =>
      if !isOk c.st then execFail o c.st 0 0 s
      else
        let src := sourceBytes s c x
        let e : Exec :=
          { image := x.image, param := x.param, setId := x.setId, objectId := c.version.getD 0, plan := execPlan x.image src,
            submitted := 0, outs := [], nextOut := 0, output := [], kept := 0, state := List.replicate x.image.stateLen 0,
            stopAt := none, finished := false }
        let s := onScene o (fun c => { c with data := src }) (onBob (fun b => { b with execs := Tab.put b.execs o e }) s)
        checkDone o (submitAll (e.plan.length + 1) o { c with data := src } s)
    | some e => checkDone o (submitAll (e.plan.length + 1) o c s)
  | _ => s

/-! ### Results (R320, R322, R326) -/

/-- Where a command's output may go on to: the host buffer's length, or DST_CAP. -/
def ExecReq.room (x : ExecReq) : Nat := if x.dstKind = 0 then x.hostLen else x.dstCap

/-- Results are delivered in their order, into the destination; too long they fail the command with 0x81; `fuel` bounds them. -/
def deliverOuts : Nat → Nat → ExecReq → State → State
  | 0, _, _, s => s
  | f + 1, o, x, s =>
    match Tab.find s.bob.execs o, Tab.find s.scn.scenes o with
    | some e, some c =>
      match Tab.find e.outs e.nextOut with
      | some b =>
        if x.room < e.output.length + b.length then execFail o stOverflow 0 0 s
        else
          let s := if x.dstKind = 1 then slmWrite c.tag (x.dstOff + e.output.length) b s else s
          let stop := e.stopAt == some e.nextOut
          let e' := { e with
            outs := Tab.del e.outs e.nextOut, output := e.output ++ b, kept := e.kept + (if b = [] then 0 else 1)
            nextOut := if stop then e.plan.length else e.nextOut + 1 }
          let s := onBob (fun z => { z with execs := Tab.put z.execs o e' }) s
          match e'.plan[e'.nextOut]? with
          | some p =>
            if p.final ∧ e.image.ty = 0 then execFail o ⟨0, 0x06, true⟩ p.chunk 0 s else deliverOuts f o x s
          | none => s
      | none => s
    | _, _ => s

/-- What an invocation returned (R320): its output, or nothing where the value is an error; whether the scan ends. -/
def resultOf (m : ProgImage) (p : InvPlan) (src : Bytes) (ret : Nat) (out state : Bytes) : Option (Bytes × Bool) :=
  match m.ty with
  | 0 =>
    if ret = 0 then some ([], false)
    else if ret = 1 then some (slice src p.off p.len, false)
    else if ret = 2 then some (slice src p.off p.len, true)
    else none
  | 1 => if ret ≤ m.outMax then some (padTo out ret, false) else none
  | _ =>
    if p.final then if ret ≤ m.stateLen then some (state.take ret, false) else none
    else if ret = 0 then some ([], false) else none

/-- A byte of the SLM window: the set's ranges laid end to end (R323); none beyond them. -/
def windowByte : List (Nat × Nat) → Nat → Option Nat
  | [], _ => none
  | (a, n) :: t, off => if off < n then some (a + off) else windowByte t (off - n)

/-- A store of an invocation into its SLM window (R329). -/
def windowStore (tag setId off : Nat) (b : Bytes) (s : State) : State :=
  let ranges := Tab.at s.bob.sets (tag * 65536 + setId) []
  ((List.range b.length).zip b).foldl (fun s p =>
    match windowByte ranges (off + p.1) with
    | some a => slmWrite tag a [p.2] s
    | none => s) s

/-- A completed invocation's result is kept (R322): its state, its output for its turn. -/
def keepResult (v : Inv) (m : ProgImage) (out : Bytes) (stop : Bool) (state : Bytes) (s : State) : State :=
  onBob (fun b => { b with execs := Tab.modify b.execs v.scene (fun e => { e with
    outs := Tab.put e.outs v.ix out
    state := if m.ty = 2 then padTo state m.stateLen else e.state
    stopAt := if stop then some (match e.stopAt with | some k => min k v.ix | none => v.ix) else e.stopAt }) }) s

end Sys2Proof.Machine
end

