-- ==== Sys2Proof/Machine/Gate.lean ====
section
/-! DEFINITION. Commit gates (R112, R115, R120): what a commit request, a roll-back request and a read point do, and what the end
of one scene lets the next ones do. -/
namespace Sys2Proof.Machine

/-- The namespace a command writes to. -/
def Scene.target (c : Scene) : Nat :=
  match c.kind with
  | .memCopy m => m.dstNs.getD c.nsid
  | _ => c.nsid

/-- The units a media write places, for its credits and its Wings room. -/
def State.placeUnits (s : State) (c : Scene) : Nat :=
  match Tab.find s.obj.ns c.target with
  | some n =>
    match c.kind with
    | .nvmWrite a k _ _ => (unitsOf n a k).length
    | .copy d l => (unitsOf n d (l.map (fun p => p.2)).sum).length
    | .kvStore .. => ((c.reserve.map (fun r => r.units)).getD 0)
    | .memCopy m =>
      if m.dstNs.isNone then 0
      else if n.kv then ((c.reserve.map (fun r => r.units)).getD 0) else (unitsOf n m.dstOff (ceilDiv m.len n.lbaSize)).length
    | _ => 0
  | none => 0

/-- Does the write land in the flash pool? -/
def State.toFlash (s : State) (c : Scene) : Bool :=
  match c.reserve with
  | some r => r.tier == 0
  | none => ((Tab.find s.obj.ns c.target).map (fun n => n.tierPolicy != 3)).getD false

/-- Must a host placement of this scene wait for reclamation credit (R176)? -/
def needsCredit (s : State) (c : Scene) : Bool :=
  let n := s.placeUnits c
  decide (n ≠ 0) && s.toFlash c &&
  match s.copyRatio with
  | none => true
  | some r => decide (s.trl.credit < n * r)

/-- Has a scene all that its commit takes: host data, read points of its sources, their media reads, Wings room
(R99, R116, R185, R215)? -/
def commitReady (s : State) (o : Nat) (c : Scene) : Bool :=
  let n := s.placeUnits c
  !s.readsOf o &&
  match c.kind with
  | .nvmWrite .. | .kvStore .. | .memWrite .. | .copy .. | .memCopy _ =>
    c.need == 0 && (n == 0 || wingsRoom s c.tag n)
  | .writeZeroes .. | .writeUncorrectable .. | .deallocate _ | .kvDelete _ => true
  | .nvmRead .. | .compare .. | .verify .. | .kvRetrieve .. | .kvExist _ | .kvList .. | .memRead .. =>
    decide (c.kind.readPoints ≤ c.points) && c.need == 0
  | .format .. | .nsDelete _ => setEnded s c
  | .execute _ => ((Tab.find s.bob.execs o).map (fun e => e.finished)).getD false
  | _ => false

/-- A write is treated as FUA: its bit, or WCE = 0 for its controller (R126). -/
def State.fua (s : State) (c : Scene) : Bool :=
  match c.kind with
  | .nvmWrite _ _ f _ => f || !(s.side c.ctrl).wce
  | k => k.isWrite && !(s.side c.ctrl).wce

/-- Credit taken by a placement (R176). -/
def payCredit (s : State) (c : Scene) : State :=
  if s.toFlash c then
    match s.copyRatio with
    | some r => { s with trl := { s.trl with credit := s.trl.credit - s.placeUnits c * r } }
    | none => s
  else s

/-- A namespace's data leave the map: nothing of them is readable any more. -/
def dropData (nsid : Nat) (s : State) : State :=
  match Tab.find s.obj.ns nsid with
  | none => s
  | some n =>
    let t := n.vers.foldl (fun t p => freeVersion n.owner p.2 t) s.trl
    let own := fun (u : Nat) => decide (n.first ≤ u ∧ u < n.first + n.units ∧ !n.kv)
    let t := { t with
      fine := t.fine.filter (fun p => !t.map.any (fun m => own m.1 && (match m.2 with | .fine g => g == p.1 | _ => false)))
      map := t.map.filter (fun m => !own m.1)
      wings := t.wings.filter (fun w => w.2.nsid != nsid) }
    { s with
      trl := t
      obj := { s.obj with
        ns := Tab.put s.obj.ns nsid { n with lbas := [], vers := [], extents := [] }
        undo := s.obj.undo.filter (fun u => u.nsid != nsid) } }

/-- The highest key epoch (R395). [DEDUCED: log entry 149] -/
def topEpoch : Nat := 0x7FFFFFFF

/-- Would a cryptographic erase of a namespace need an epoch beyond the highest (R395)? -/
def epochSpent (s : State) (nsid : Nat) : Bool := (Tab.find s.obj.ns nsid).any (fun n => decide (topEpoch ≤ n.epoch))

/-- A fresh store secret: every surviving secret is rewrapped, the old one overwritten (R387). -/
def rewrap (s : State) : State :=
  let (k, s) := drawSecret s
  { s with scr := { s.scr with store := k } }

/-- A namespace's data are cryptographically erased (R387): dropped, a new secret, the epoch raised by one. -/
def cryptErase (nsid : Nat) (s : State) : State :=
  let (k, s) := drawSecret (dropData nsid s)
  { s with
    obj := { s.obj with ns := Tab.modify s.obj.ns nsid (fun n => { n with epoch := n.epoch + 1 }) }
    scr := { s.scr with nsSecrets := if Tab.has s.scr.nsSecrets nsid then Tab.put s.scr.nsSecrets nsid k else s.scr.nsSecrets } }

/-- A running self-test ends with a result code (R137). [PRESUMED: log entry 68] -/
def endSelfTest (code : Nat) (d : CtrlSide) : CtrlSide :=
  match d.selfTest with
  | some x => { d with selfTest := none, testResults := ((x.code, code) :: d.testResults).take 20 }
  | none => d

/-- A scene retires, its completion waiting for the media where it is FUA (R126). -/
def retireWrite (o : Nat) (c : Scene) (s : State) : State :=
  retire o stOk 0 (if s.fua c then onScene o (fun c => { c with media := [o] }) s else s)

/-- The commit of a scene at its gate: the effect of its command, all at once (R112, R122). [DESIGN CHOICE: log entries 72, 81] -/
def applyCommit (o : Nat) (c : Scene) (s : State) : State :=
  match c.kind with
  | .nvmRead .. | .memRead .. =>
    let s := if isOk c.st then emit (.data c.ctrl c.cid c.data) s else s
    retire o c.st 0 s
  | .kvRetrieve .. =>
    let s := if isOk c.st then emit (.data c.ctrl c.cid c.data) s else s
    retire o c.st (if isOk c.st then c.dw0 else 0) s
  | .kvList .. => retire o c.st 0 (if isOk c.st then emit (.data c.ctrl c.cid c.data) s else s)
  | .compare .. | .verify .. | .kvExist _ => retire o c.st 0 s
  | .execute x =>
    let out := ((Tab.find s.bob.execs o).map (fun e => e.output)).getD []
    retire o stOk c.dw0 (cancelTasks o (if x.dstKind = 0 then emit (.data c.ctrl c.cid out) s else s))
  | .nvmWrite a k _ _ =>
    match Tab.find s.obj.ns c.nsid with
    | some n =>
      let s := payCredit s c
      retireWrite o c (onNs c.nsid (putLbas a c.data k) (placeAll c.tag c.nsid o (unitsOf n a k) s))
    | none => rollBack o stNamespace s
  | .writeZeroes a k =>
    match Tab.find s.obj.ns c.nsid with
    | some n => retireWrite o c (onNs c.nsid (zeroLbas a k) (clearUnits none (unitsOf n a k) s))
    | none => rollBack o stNamespace s
  | .writeUncorrectable a k =>
    match Tab.find s.obj.ns c.nsid with
    | some n => retireWrite o c (onNs c.nsid (badLbas a k) (clearUnits (some .uncorrectable) (unitsOf n a k) s))
    | none => rollBack o stNamespace s
  | .deallocate l =>
    match Tab.find s.obj.ns c.nsid with
    | some n =>
      retireWrite o c (l.foldl (fun s r => onNs c.nsid (zeroLbas r.1 r.2) (clearUnits none (unitsOf n r.1 r.2) s)) s)
    | none => rollBack o stNamespace s
  | .copy d l =>
    match Tab.find s.obj.ns c.nsid with
    | some n =>
      let rs := l.map (fun r => readLbas n r.1 r.2)
      match rs.find? (fun r => !isOk r.1) with
      | some r => rollBack o r.1 s
      | none =>
        let data := (rs.map (fun r => r.2)).flatten
        let k := (l.map (fun p => p.2)).sum
        retireWrite o c (onNs c.nsid (putLbas d data k) (placeAll c.tag c.nsid o (unitsOf n d k) (payCredit s c)))
    | none => rollBack o stNamespace s
  | .kvStore key _ opts =>
    match Tab.find s.obj.ns c.nsid, c.reserve with
    | some n, some r =>
      let there := (n.newest key).isSome
      if opts.mustExist ∧ !there then rollBack o ⟨0, 0x87, true⟩ s
      else if opts.mustNotExist ∧ there then rollBack o ⟨0, 0x89, true⟩ s
      else
        let compress := n.services.testBit 0 && !opts.noCompress
        let cs := s.chunksFor n compress c.data
        if overflowed s compress cs then rollBack o stOverflow s
        else
          retireWrite o c (commitVersion c.nsid o key c.data opts.noCompress false 0 r (payCredit s c))
    | _, _ => rollBack o stNamespace s
  | .kvDelete key =>
    match (Tab.find s.obj.ns c.nsid).bind (fun n => n.newest key) with
    | some (id, _) =>
      let (_, t) := journal 1 s.wall s.trl
      retireWrite o c (supersede c.nsid id { s with trl := t })
    | none => rollBack o ⟨0, 0x87, true⟩ s
  | .memWrite off _ => retire o stOk 0 (slmWrite c.tag off c.data s)
  | .memCopy m =>
    let src : Status × Bytes :=
      match m.srcNs with
      | none => (stOk, s.slmRead c.tag m.srcOff m.len)
      | some ns =>
        match Tab.find s.obj.ns ns with
        | some n =>
          if n.kv then
            match n.newest m.key with
            | some (_, v) => if v.damaged then (stUnrecovered, []) else (stOk, slice v.value m.srcOff m.len)
            | none => (⟨0, 0x87, true⟩, [])
          else
            let r := readLbas n m.srcOff (ceilDiv m.len n.lbaSize)
            (r.1, r.2.take m.len)
        | none => (stNamespace, [])
    if !isOk src.1 then rollBack o src.1 s
    else
      match m.dstNs with
      | none => retire o stOk 0 (slmWrite c.tag m.dstOff src.2 s)
      | some ns =>
        match Tab.find s.obj.ns ns, c.reserve with
        | some n, r =>
          if n.kv then
            match r with
            | some r =>
              let compress := n.services.testBit 0
              if overflowed s compress (s.chunksFor n compress src.2) then rollBack o stOverflow s
              else retireWrite o c (commitVersion ns o m.key src.2 false false 0 r (payCredit s c))
            | none => rollBack o stNamespace s
          else
            let k := ceilDiv m.len n.lbaSize
            retireWrite o c (onNs ns (putLbas m.dstOff (padTo src.2 (k * n.lbaSize)) k)
              (placeAll c.tag ns o (unitsOf n m.dstOff k) (payCredit s c)))
        | none, _ => rollBack o stNamespace s
  | .format nsids lbaf ses =>
    if ses ≠ 0 ∧ nsids.any (epochSpent s) then rollBack o stEpoch (raise 292 0 c.nsid 0 c.tag s)
    else
      let s := nsids.foldl (fun s n =>
        onNs n (fun x => { x with lbaf := lbaf }) (if ses = 0 then dropData n s else cryptErase n s)) s
      retire o stOk 0 (onSide c.ctrl (endSelfTest 4) (if ses = 0 then s else rewrap s))
  | .nsDelete nsids =>
    let s := nsids.foldl (fun s k =>
      match Tab.find s.obj.ns k with
      | some n =>
        let s := dropData k s
        let s := n.attached.foldl (fun s c => onSide c (fun d => { d with changedNs := setAdd d.changedNs k }) s) s
        { s with
          trl := if n.kv then s.trl else freeRun n.owner n.first n.units (n.nsze * 4096) s.trl
          scr := { s.scr with
            nsSecrets := Tab.del s.scr.nsSecrets k, reserved := s.scr.reserved.filter (fun p => p.1 / 2 ^ 32 != k) }
          obj := { s.obj with ns := Tab.del s.obj.ns k, counters := Tab.put s.obj.counters k n.nextObj } }
      | none => s) s
    retire o stOk 0 s
  | _ => s

/-- The namespaces that a commit writes. -/
def SceneKind.writes (c : Scene) : List Nat :=
  match c.kind with
  | .nvmWrite .. | .writeZeroes .. | .writeUncorrectable .. | .deallocate _ | .copy .. | .kvStore .. | .kvDelete _ => [c.nsid]
  | .memCopy m => m.dstNs.toList
  | _ => []

/-- What a scene that asked for its gate can do now: nothing, a read point, a commit, a fence's or a flush's retirement. -/
inductive Ready where
  | no | point | commit | fence | flush | program | aer
  deriving DecidableEq, Repr

/-- What a scene is ready for (R115, R120, R125). -/
def readyFor (s : State) (o : Nat) (c : Scene) : Ready :=
  if c.decided then .no
  else if fenceReady s o c then .fence
  else if flushReady s o c then .flush
  else if execReady s o c then .program
  else if aerReady s o c then .aer
  else if c.wantPoint ∧ !held s o c then .point
  else if c.wantCommit ∧ !held s o c ∧ commitReady s o c ∧ !needsCredit s c then .commit
  else .no

/-- One scene's turn. -/
def takeTurn (o : Nat) (c : Scene) (r : Ready) (s : State) : State :=
  match r with
  | .point => takePoint o (fun a n => s.slmRead c.tag a n) s
  | .commit => applyCommit o c ((SceneKind.writes c).foldl (fun s n => noteUndo o n s) s)
  | .fence => retireFence o s
  | .flush => retire o stOk 0 s
  | .program => runExec o c s
  | .aer => retireAer o s
  | .no => s

/-- Scenes that waited go on, the earliest fetched first, while any can. [DEDUCED: log entry 192] -/
def settle : Nat → State → State
  | 0, s => s
  | f + 1, s =>
    match s.scn.scenes.find? (fun p => readyFor s p.1 p.2 != .no) with
    | some (o, c) => settle f (takeTurn o c (readyFor s o c) s)
    | none => s

/-- Settling to the end: a scene has at most its read points and its commit to take. [DEDUCED: log entry 192] -/
def settleAll (s : State) : State := settle ((s.scn.scenes.map (fun p => p.2.kind.readPoints + 4)).sum) s

/-- The completions that may now be posted are posted. -/
def postAll (s : State) : State := s.scn.scenes.foldl (fun s p => tryPost p.1 s) s

/-- A queue whose commands have all ended is deleted; what asked for it completes (R96). -/
def finishDelete (key : Nat) (by' : Deleter) (s : State) : State :=
  let c := key / 65536
  let q := key % 65536
  if s.scn.scenes.any (fun p => p.2.ctrl == c && p.2.sq == q) then s
  else
    let s := { s with scn := { s.scn with sqs := Tab.del s.scn.sqs key } }
    match by' with
    | .scene o => retire o stOk 0 s
    | .disconnect rdma conn => emit (.disconnectResp rdma conn) s

/-- Queues being deleted whose commands have ended. -/
def finishDeletes (s : State) : State :=
  s.scn.sqs.foldl (fun s p => match p.2.deleting with | some d => finishDelete p.1 d s | none => s) s

/-- Free bytes of a tenant's transfer area: its staging less 264 KiB, less what is held (R99). -/
def State.transferFree (s : State) (tag : Nat) : Nat :=
  ((s.tenantRec tag).map (fun r => r.stagingKib * 1024 - 270336)).getD 0 - (Tab.at s.hfe.staging tag {}).transfer

/-- Bytes taken in a tenant's transfer area. -/
def takeStaging (tag n : Nat) (s : State) : State :=
  { s with hfe := { s.hfe with
      staging := Tab.update s.hfe.staging tag {} (fun g => { g with transfer := g.transfer + n }) } }

/-- A capsule is queued: its command waits for its fetch, its data are staged (R100). -/
def queueCapsule (ctrl q : Nat) (cap : Capsule) (s : State) : State :=
  let s := onSq ctrl q (fun x => { x with tail := (x.tail + 1) % (max 1 x.size) }) s
  if cap.inCapsule = 0 then s
  else
    takeStaging ((s.ctrlTag ctrl).getD 0) cap.inCapsule
      { s with hfe := { s.hfe with capsules := Tab.put s.hfe.capsules (qKey ctrl q * 65536 + cap.cid) cap.bytes } }

/-- May a capsule's data be accepted now: transfer-area space, no back-pressure (R100)? -/
def capsuleRoom (s : State) (ctrl : Nat) (cap : Capsule) : Bool :=
  let tag := (s.ctrlTag ctrl).getD 0
  decide (cap.inCapsule ≤ s.transferFree tag) && !s.scn.pressed.contains tag

/-- Capsules that waited in receive buffers are queued while they may be (R100). -/
def admitCapsules (s : State) : State :=
  let s := s.hfe.conns.foldl (fun s p =>
    match p.2.waiting, p.2.ctrl with
    | cap :: rest, some c =>
      if capsuleRoom s c cap then
        queueCapsule c p.2.qid cap { s with hfe := { s.hfe with conns := Tab.put s.hfe.conns p.1 { p.2 with waiting := rest } } }
      else s
    | _, _ => s) s
  s.hfe.qps.foldl (fun s p =>
    match p.2.waiting, p.2.ctrl with
    | cap :: rest, some c =>
      if capsuleRoom s c cap then
        queueCapsule c p.2.qid cap { s with hfe := { s.hfe with qps := Tab.put s.hfe.qps p.1 { p.2 with waiting := rest } } }
      else s
    | _, _ => s) s

/-- Everything that the end of something lets go on. -/
def goOn (s : State) : State := admitCapsules (finishDeletes (settleAll (postAll s)))

/-- The status a scene takes from its first failed task (R132, R344, R350, R392, R523): the unit and its status. -/
def failStatus (c : Scene) (f : Nat × Nat) : Status :=
  let (u, st) := f
  if u = 8 then
    if c.kind.isRead then stUnrecovered else if st = 0x81 then stOverflow else stInternal
  else if u = 6 then
    if st = 0x84 then stErased else if st = 0x83 then stEpoch else if st = 0x03 ∧ c.kind.isRead then stUnrecovered else stInternal
  else if u = 7 then
    if st = 0x84 then stErased else if st = 0x82 then stFixity else stInternal
  else stInternal

/-- Is a PCIe controller's function bound to a stream in the Insecure state (R83, EV009)? [DEDUCED: log entry 199] -/
def State.dmaStopped (s : State) (ctrl : Nat) : Bool :=
  match s.ctrlOf ctrl with
  | some k => k.transport == 0 && s.hfe.ide.any (fun p => p.2.insecure && p.2.fns.contains (k.port * 2 ^ 15 + k.fn))
  | none => false

/-- Does a scene hand data to the host? -/
def SceneKind.toHost : SceneKind → Bool
  | .nvmRead .. | .memRead .. | .kvRetrieve .. | .kvList .. => true
  | _ => false

/-- A scene's commit request (R112): admitted at its gate, or held; a rolled-back scene's is not admitted. A host placement that
credits do not cover waits for admission (R176). [DEDUCED: log entry 199] -/
def commitRequest (o : Nat) (s : State) : State :=
  match Tab.find s.scn.scenes o with
  | some c =>
    if c.decided then s
    else if c.kind.toHost ∧ s.dmaStopped c.ctrl then goOn (rollBack o stTransfer s)
    else
      let s := if held s o c ∧ !c.wantCommit then countHold o c s else s
      let s := if needsCredit s c ∧ !s.trl.waiting.any (fun w => w.1 == o) then
          { s with trl := { s.trl with waiting := s.trl.waiting ++ [(o, s.placeUnits c)] } } else s
      match Tab.find s.smg.fails (o % 2 ^ 17) with
      | some f => goOn (rollBack o (failStatus c f) s)
      | none => goOn (onScene o (fun c => { c with wantCommit := true }) s)
  | none => s

/-- A scene's read point is asked for (R116). -/
def readPoint (o : Nat) (s : State) : State :=
  match Tab.find s.scn.scenes o with
  | some c =>
    if c.decided ∨ c.kind.readPoints ≤ c.points then s
    else
      let s := if held s o c ∧ !c.wantPoint then countHold o c s else s
      goOn (onScene o (fun c => { c with wantPoint := true }) s)
  | none => s

/-- A roll-back request at a scene's gate (R112): refused where the commit was admitted. -/
def rollBackRequest (o : Nat) (st : Status) (s : State) : State := goOn (rollBack o st s)

end Sys2Proof.Machine
end

