-- ==== Sys2Proof/Machine/Admin.lean ====
section
/-! DEFINITION. Admin commands (R106, R108-R110, R118, R124, R128, R130, R135-R137, R140, R141, R460, R461): queues, logs,
Identify, features, Abort, self-tests, namespaces, Restart Queue. -/
namespace Sys2Proof.Machine

/-- A command that the HFE fetches: an Abort held for it makes it complete without executing (R128); a status it meets early
ends it; else its own work. -/
def fetched (h : CmdHdr) (opcode : Nat) (set : CmdSet) (work : State → State) (s : State) : State :=
  if fetchable s h then
    match heldAbort s h with
    | some a =>
      let (o, s) := openScene h opcode .admin 0 s
      goOn (retire a stOk 0 (rollBack o stAborted s))
    | none =>
      match earlyStatus s h set with
      | some st => goOn (failCmd h opcode st s)
      | none => goOn (work s)
  else s

/-- A namespace the controller may use: its tenant's own, attached to it (R132). -/
def State.nsFor (s : State) (h : CmdHdr) : Option Namespace :=
  (Tab.find s.obj.ns h.nsid).filter (fun n => some n.owner == s.ctrlTag h.ctrl && n.attached.contains h.ctrl)

/-- Namespaces attached to a controller. -/
def State.nsAttached (s : State) (c : Nat) : List Nat :=
  (s.obj.ns.filter (fun p => some p.2.owner == s.ctrlTag c && p.2.attached.contains c)).map (fun p => p.1)

/-! ### Queues (R95, R106) -/

/-- CAP.MQES + 1 of a controller (R108). -/
def State.maxEntries (s : State) (c : Nat) : Nat := if s.isGloex c then 1024 else 16384

/-- Is a new I/O queue's number within the controller's record? -/
def queueIdOk (s : State) (c qid : Nat) : Bool := decide (0 < qid ∧ qid ≤ ((s.ctrlOf c).map (fun k => k.ioQueues)).getD 0)

/-- Create I/O Completion Queue. -/
def doCreateIoCq (h : CmdHdr) (qid size vector : Nat) (s : State) : State :=
  fetched h 0x05 .pcieAdmin (fun s =>
    if !queueIdOk s h.ctrl qid ∨ Tab.has s.scn.cqs (qKey h.ctrl qid) then failCmd h 0x05 ⟨1, 0x01, true⟩ s
    else if size < 2 ∨ 16384 < size ∨ s.maxEntries h.ctrl < size then failCmd h 0x05 ⟨1, 0x02, true⟩ s
    else if ((s.ctrlOf h.ctrl).map (fun k => k.vectors)).getD 0 ≤ vector then failCmd h 0x05 ⟨1, 0x08, true⟩ s
    else
      endAtOnce h 0x05 stOk 0
        { s with scn := { s.scn with cqs := Tab.put s.scn.cqs (qKey h.ctrl qid) { size := size, vector := vector } } }) s

/-- Create I/O Submission Queue; STRICT is clear (R118). -/
def doCreateIoSq (h : CmdHdr) (qid size cqid prio : Nat) (s : State) : State :=
  fetched h 0x01 .pcieAdmin (fun s =>
    if !queueIdOk s h.ctrl qid ∨ Tab.has s.scn.sqs (qKey h.ctrl qid) then failCmd h 0x01 ⟨1, 0x01, true⟩ s
    else if size < 2 ∨ 16384 < size ∨ s.maxEntries h.ctrl < size then failCmd h 0x01 ⟨1, 0x02, true⟩ s
    else if !Tab.has s.scn.cqs (qKey h.ctrl cqid) ∨ cqid = 0 then failCmd h 0x01 ⟨1, 0x00, true⟩ s
    else
      endAtOnce h 0x01 stOk 0
        { s with scn := { s.scn with
            sqs := Tab.put s.scn.sqs (qKey h.ctrl qid) { size := size, cqid := cqid, prio := prio % 4 } } }) s

/-- Every undecided scene of a queue rolls back with a status. -/
def rollQueue (c q : Nat) (st : Status) (s : State) : State :=
  s.scn.scenes.foldl (fun s p => if p.2.ctrl = c ∧ p.2.sq = q ∧ !p.2.decided then rollBack p.1 st s else s) s

/-- Delete I/O Submission Queue: its unretired commands complete as aborted by SQ deletion, then it does (R96). -/
def doDeleteIoSq (h : CmdHdr) (qid : Nat) (s : State) : State :=
  fetched h 0x00 .pcieAdmin (fun s =>
    if qid = 0 ∨ !Tab.has s.scn.sqs (qKey h.ctrl qid) then failCmd h 0x00 ⟨1, 0x01, true⟩ s
    else
      let (o, s) := openScene h 0x00 (.deleteSq qid) 0 s
      rollQueue h.ctrl qid stSqDeleted (onSq h.ctrl qid (fun q => { q with deleting := some (.scene o) }) s)) s

/-- Delete I/O Completion Queue: refused while a submission queue uses it. -/
def doDeleteIoCq (h : CmdHdr) (qid : Nat) (s : State) : State :=
  fetched h 0x04 .pcieAdmin (fun s =>
    if qid = 0 ∨ !Tab.has s.scn.cqs (qKey h.ctrl qid) then failCmd h 0x04 ⟨1, 0x01, true⟩ s
    else if s.scn.sqs.any (fun p => p.1 / 65536 == h.ctrl && p.2.cqid == qid) then failCmd h 0x04 ⟨1, 0x0C, true⟩ s
    else endAtOnce h 0x04 stOk 0 { s with scn := { s.scn with cqs := Tab.del s.scn.cqs (qKey h.ctrl qid) } }) s

/-! ### Logs (R110, R124, R130, R136, R461) -/

/-- A log read: part of a page is returned. -/
def returnLog (h : CmdHdr) (page : Bytes) (offset len : Nat) (s : State) : State :=
  endAtOnce h 0x02 stOk 0 (emit (.data h.ctrl h.cid (slice page offset len)) s)

/-- The composite temperature (R494) in 1/256 degree C: the highest die sensor. -/
def State.composite (s : State) : Int := s.pwr.temps.foldl (fun m t => if m < t then t else m) (s.pwr.temps.headD 0)

/-- The temperature, tested against the warning threshold, in the SMART page (R110). [DESIGN CHOICE: log entry 69] -/
def smartPage (s : State) (c : Nat) : Bytes :=
  let d := s.side c
  leBytes 1 (flag s.pwr.tempWarn 1 + flag (decide (s.dev.phase = .finalCurtain)) 3) ++
  leBytes 2 (ofInt 16 (s.composite / 256 + 273)) ++ List.replicate 61 0 ++
  leBytes 16 d.reads ++ leBytes 16 d.writes ++ List.replicate 416 0

/-- A standard log page of a controller (R110): Error Information, SMART, Firmware Slot, Changed Namespaces, Commands Supported,
Self-test. What the NVMe standard adds beyond the spec's text is free. [DESIGN CHOICE: log entry 69] -/
def standardPage (s : State) (c lid : Nat) : Bytes :=
  let d := s.side c
  if lid = 0x01 then
    (d.errors.map (fun e => leBytes 8 d.errorCount ++ leBytes 2 e.sq ++ leBytes 2 e.cid ++ leBytes 2 (e.status * 2) ++
      List.replicate 10 0 ++ leBytes 4 e.nsid ++ List.replicate 36 0)).flatten
  else if lid = 0x02 then smartPage s c
  else if lid = 0x03 then
    leBytes 1 (field s.dev.booted 3 0 + field s.dev.boot.fwNext 3 4) ++ List.replicate 7 0 ++
      ((List.range 3).map (fun i => leBytes 8 (((Tab.find s.dev.fwSlots (i + 1)).map (fun x => x.version)).getD 0))).flatten ++
      List.replicate 480 0
  else if lid = 0x04 then padTo (d.changedNs.map (fun n => leBytes 4 n)).flatten 4096
  else if lid = 0x06 then
    leBytes 1 ((d.selfTest.map (fun x => x.code)).getD 0) ++ List.replicate 3 0 ++
      (d.testResults.map (fun r => leBytes 1 (field r.1 4 4 + field r.2 4 0) ++ List.replicate 27 0)).flatten
  else (List.range 512).map (fun i => (Config.freeValue (s.free + i)).setWidth 8)

/-- Get Log Page of a standard page: 0x0D on house controllers, 0x70 on discovery controllers only, which are no controllers of
the CONTROLLER records (R110). Reading the changed-namespace list without RAE clears it. -/
def doGetLogPage (h : CmdHdr) (lid offset len : Nat) (rae : Bool) (s : State) : State :=
  fetched h 0x02 .identify (fun s =>
    if [0x01, 0x02, 0x03, 0x04, 0x05, 0x06].contains lid ∨ (lid = 0x0D ∧ s.isHouse h.ctrl) then
      let s' := returnLog h (standardPage s h.ctrl lid) offset len s
      let s' := if lid = 0x05 ∨ lid = 0x0D then { s' with free := s'.free + 512 } else s'
      if lid = 0x04 ∧ !rae then onSide h.ctrl (fun d => { d with changedNs := [] }) s' else s'
    else failCmd h 0x02 ⟨1, 0x09, true⟩ s) s

/-- The Gloex Error page (R136). -/
def gloexPage (sqid : Nat) (q : SubQueue) : Bytes :=
  let p := q.page
  leBytes 2 sqid ++ leBytes 2 p.cid ++ leBytes 2 p.status ++ leBytes 1 (flag q.frozen 0 + flag q.logRead 1) ++
  leBytes 1 p.heldCount ++ leBytes 8 p.cue ++ leBytes 4 p.nsid ++ leBytes 1 p.opcode ++ List.replicate 3 0 ++
  leBytes 8 p.start ++ leBytes 4 p.count ++ List.replicate 12 0 ++ leBytes 4 q.freezes ++ List.replicate 12 0

/-- Log page 0xC0: a Gloex I/O queue's; reading byte 0 sets LOG_READ (R136). -/
def doGetLogGloexError (h : CmdHdr) (lsi offset len : Nat) (s : State) : State :=
  fetched h 0x02 .identify (fun s =>
    match s.sqOf h.ctrl lsi with
    | some q =>
      if s.isGloex h.ctrl ∧ lsi ≠ 0 then
        let s := returnLog h (gloexPage lsi q) offset len s
        if offset = 0 ∧ 0 < len then onSq h.ctrl lsi (fun q => { q with logRead := true }) s else s
      else failCmd h 0x02 ⟨1, 0x09, true⟩ s
    | none => failCmd h 0x02 ⟨1, 0x09, true⟩ s) s

/-- Log page 0xC1: the controller's last reset (R130). [DESIGN CHOICE: log entry 70] -/
def resetPage (s : State) (c : Nat) : Bytes :=
  let d := s.side c
  leBytes 4 d.resetLog.length ++ leBytes 8 (s.tenantCue ((s.ctrlTag c).getD 0) d.resetCue) ++ leBytes 4 0 ++
  (d.resetLog.map (fun e => leBytes 2 e.sq ++ leBytes 2 e.cid ++ leBytes 2 e.status ++ leBytes 2 e.flags ++ leBytes 8 e.cue)).flatten

/-- Get Log Page 0xC1. -/
def doGetLogResetOutcome (h : CmdHdr) (offset len : Nat) (s : State) : State :=
  fetched h 0x02 .identify (fun s => returnLog h (resetPage s h.ctrl) offset len s) s

/-- Log page 0xC2: a queue's last 256 retired commands in circular order (R124). [DESIGN CHOICE: log entry 70] -/
def commitPage (q : SubQueue) : Bytes :=
  let n := q.log.length
  let entry := fun (i : Nat) =>
    -- slot i holds the newest retired command whose number is i mod 256
    let first := q.retired - n
    let k := (i + 256 - first % 256) % 256
    match q.log[k]? with
    | some e => leBytes 2 e.cid ++ leBytes 1 e.opcode ++ leBytes 1 e.flags ++ leBytes 4 0 ++ leBytes 8 e.cue
    | none => List.replicate 16 0
  leBytes 4 n ++ leBytes 4 ((q.retired - 1) % 256) ++ leBytes 8 0 ++ ((List.range 256).map entry).flatten

/-- Get Log Page 0xC2: an unknown queue fails with Invalid Log Page. -/
def doGetLogCommitCue (h : CmdHdr) (lsi offset len : Nat) (s : State) : State :=
  fetched h 0x02 .identify (fun s =>
    match s.sqOf h.ctrl lsi with
    | some q => returnLog h (commitPage q) offset len s
    | none => failCmd h 0x02 ⟨1, 0x09, true⟩ s) s

/-- Get Log Page 0xC3: LPO in multiples of 4; a read without RAE clears the controller's outstanding vendor event (R461). -/
def doGetLogEventLog (h : CmdHdr) (offset len : Nat) (rae : Bool) (s : State) : State :=
  fetched h 0x02 .identify (fun s =>
    if offset % 4 ≠ 0 then failCmd h 0x02 stInvalidField s
    else
      let s := returnLog h (eventLogPage s ((s.ctrlTag h.ctrl).getD 0)) offset len s
      if rae then s else { s with evt := { s.evt with aenHeld := setDel s.evt.aenHeld h.ctrl } }) s

/-! ### Identify and features (R108, R109, R118, R137) -/

/-- The subsystem's NQN before the serial number: nqn.2029-04.com.yelerari:pq7400: (04_host_attachment.md). -/
def nqnPrefix : Bytes :=
  ([110, 113, 110, 46, 50, 48, 50, 57, 45, 48, 52, 46, 99, 111, 109, 46] ++ [121, 101, 108, 101, 114, 97, 114, 105, 58] ++
    [112, 113, 55, 52, 48, 48, 58]).map (BitVec.ofNat 8)

/-- A number in `n` lower-case hexadecimal digits. -/
def hexDigits (n v : Nat) : Bytes :=
  (List.range n).map (fun i => let d := v / 16 ^ (n - 1 - i) % 16; BitVec.ofNat 8 (if d < 10 then 48 + d else 87 + d))

/-- The Identify Controller data: the values of R106 and R108 at the places the NVMe standard gives them. [DESIGN CHOICE: log entry 69; PRESUMED: log entry 198] -/
def identifyController (s : State) (c : Nat) : Bytes :=
  let put := fun (l : Bytes) (o : Nat) (b : Bytes) => l.take o ++ b ++ l.drop (o + b.length)
  let fields : List (Nat × Bytes) :=
    [(76, leBytes 1 2), (77, leBytes 1 0), (78, leBytes 2 c), (256, leBytes 2 (if s.isHouse c then 0x5F else 0x13)),
     (258, leBytes 1 7), (259, leBytes 1 15), (260, leBytes 1 0x16), (261, leBytes 1 (if s.isHouse c then 0x16 else 0x06)),
     (270, leBytes 2 20), (316, leBytes 2 180), (320, leBytes 2 1), (328, leBytes 4 1), (516, leBytes 4 8192),
     (520, leBytes 2 0x1CF), (525, leBytes 1 7), (526, leBytes 2 63), (528, leBytes 2 63), (768, nqnPrefix ++ hexDigits 16 s.dev.serial),
     (2048, leBytes 2 8800)]
  fields.foldl (fun l f => put l f.1 f.2) (List.replicate 4096 0)

/-- The Identify Namespace data. [DESIGN CHOICE: log entry 69; PRESUMED: log entry 198] -/
def identifyNamespace (n : Namespace) : Bytes :=
  let lbads := 12
  leBytes 8 n.nsze ++ leBytes 8 n.nsze ++ leBytes 8 n.lbas.length ++ leBytes 2 (2 + 256) ++ leBytes 1 n.lbaf ++ leBytes 7 0 ++
  leBytes 2 63 ++ leBytes 2 63 ++ leBytes 2 63 ++ List.replicate 88 0 ++
  leBytes 4 (lbads * 65536) ++ leBytes 4 (16 + lbads * 65536) ++ List.replicate 3960 0

/-- Identify: the controller (CNS 1), a namespace (CNS 0), the attached namespaces (CNS 2); other structures hold what the NVMe
standard fixes beyond the spec's text. [PRESUMED: log entry 198] -/
def doIdentify (h : CmdHdr) (cns : Nat) (s : State) : State :=
  fetched h 0x06 .identify (fun s =>
    if cns = 1 then endAtOnce h 0x06 stOk 0 (emit (.data h.ctrl h.cid (identifyController s h.ctrl)) s)
    else if cns = 2 then
      let l := (s.nsAttached h.ctrl).filter (fun n => decide (h.nsid < n))
      endAtOnce h 0x06 stOk 0 (emit (.data h.ctrl h.cid (padTo (l.map (fun n => leBytes 4 n)).flatten 4096)) s)
    else if cns = 0 then
      match s.nsFor h with
      | some n => endAtOnce h 0x06 stOk 0 (emit (.data h.ctrl h.cid (identifyNamespace n)) s)
      | none => failCmd h 0x06 stNamespace s
    else
      let bs := (List.range 4096).map (fun i => (Config.freeValue (s.free + i)).setWidth 8)
      endAtOnce h 0x06 stOk 0 (emit (.data h.ctrl h.cid bs) { s with free := s.free + 4096 })) s

/-- Does the controller have the standard feature (R109)? -/
def featureOk (s : State) (c fid : Nat) : Bool :=
  match s.ctrlOf c with
  | some k =>
    [0x01, 0x02, 0x04, 0x06, 0x07, 0x0A, 0x0B, 0x0E, 0x16, 0x81].contains fid ||
    ((fid == 0x08 || fid == 0x09) && k.transport == 0) || (fid == 0x0F && k.transport != 0)
  | none => false

/-- The queues a controller's record gives, in the layout of feature 0x07. -/
def queueCount (s : State) (c : Nat) : Nat :=
  let n := ((s.ctrlOf c).map (fun k => k.ioQueues)).getD 0 - 1
  n + n * 65536

/-- The value a feature shows: WCE, the queue count, keep-alive, else as last set. -/
def featureValue (s : State) (c fid : Nat) : Nat :=
  let d := s.side c
  if fid = 0x06 then b2n d.wce
  else if fid = 0x07 then queueCount s c
  else if fid = 0x0F then (((s.ctrlOf c).bind (fun k => k.assoc)).map (fun a => a.kato)).getD 0
  else Tab.at d.features fid 0

/-- Get Features: Timestamp, Host Behavior Support and Host Identifier return data. -/
def doGetFeatures (h : CmdHdr) (fid : Nat) (s : State) : State :=
  fetched h 0x0A .admin (fun s =>
    if featureOk s h.ctrl fid then
      let d := s.side h.ctrl
      let s :=
        if fid = 0x0E then
          let ms := leNat (Tab.at d.featureData fid []) + s.tenantCue ((s.ctrlTag h.ctrl).getD 0) (s.cue.now - d.stampSet) / 1000000
          emit (.data h.ctrl h.cid (leBytes 6 ms ++ leBytes 2 0)) s
        else if fid = 0x16 ∨ fid = 0x81 then emit (.data h.ctrl h.cid (Tab.at d.featureData fid [])) s
        else s
      endAtOnce h 0x0A stOk (featureValue s h.ctrl fid) s
    else failCmd h 0x0A stInvalidField s) s

/-- Set Features: SV = 1 fails (SCT 1h, 0x0D); a Timestamp Set never alters the cue clock (R109). -/
def doSetFeatures (h : CmdHdr) (fid : Nat) (sv : Bool) (cdw11 : W32) (data : Bytes) (s : State) : State :=
  fetched h 0x09 .admin (fun s =>
    if !featureOk s h.ctrl fid then failCmd h 0x09 stInvalidField s
    else if sv then failCmd h 0x09 ⟨1, 0x0D, true⟩ s
    else if fid = 0x02 ∧ cdw11.toNat % 32 ≠ 0 then failCmd h 0x09 stInvalidField s
    else
      let v := cdw11.toNat
      let s := onSide h.ctrl (fun d =>
        if fid = 0x06 then { d with wce := v.testBit 0 }
        else if fid = 0x0E then { d with featureData := Tab.put d.featureData fid (data.take 6), stampSet := s.cue.now }
        else if fid = 0x16 ∨ fid = 0x81 then { d with featureData := Tab.put d.featureData fid data }
        else { d with features := Tab.put d.features fid v }) s
      let s := if fid = 0x0F then
          { s with hfe := { s.hfe with ctrls := Tab.modify s.hfe.ctrls h.ctrl (fun k =>
            { k with assoc := k.assoc.map (fun a => { a with kato := if v = 0 then 120000 else ceilDiv v 100 * 100 }) }) } }
        else s
      endAtOnce h 0x09 stOk (if fid = 0x07 then queueCount s h.ctrl else 0) s) s

/-- Set Features 0xC0: STRICT of a queue of its own controller (R118). -/
def doSetQueueOrdering (h : CmdHdr) (sv : Bool) (cdw11 : W32) (s : State) : State :=
  fetched h 0x09 .admin (fun s =>
    let q := bits cdw11.toNat 15 0
    if sv then failCmd h 0x09 ⟨1, 0x0D, true⟩ s
    else if (s.sqOf h.ctrl q).isNone ∨ bits cdw11.toNat 31 17 ≠ 0 then failCmd h 0x09 stInvalidField s
    else endAtOnce h 0x09 stOk 0 (onSq h.ctrl q (fun x => { x with strict := cdw11.toNat.testBit 16 }) s)) s

/-- Get Features 0xC0: STRICT in DW0 [0] (R118). -/
def doGetQueueOrdering (h : CmdHdr) (cdw11 : W32) (s : State) : State :=
  fetched h 0x0A .admin (fun s =>
    match s.sqOf h.ctrl (bits cdw11.toNat 15 0) with
    | some q => endAtOnce h 0x0A stOk (b2n q.strict) s
    | none => failCmd h 0x0A stInvalidField s) s

/-- Set Features 0xC1: the self-test step length, 100-2,000 microseconds (R137). -/
def doSetSelfTestStep (h : CmdHdr) (sv : Bool) (cdw11 : W32) (s : State) : State :=
  fetched h 0x09 .admin (fun s =>
    let v := bits cdw11.toNat 15 0
    if sv then failCmd h 0x09 ⟨1, 0x0D, true⟩ s
    else if v < 100 ∨ 2000 < v then failCmd h 0x09 stInvalidField s
    else endAtOnce h 0x09 stOk 0 (onSide h.ctrl (fun d => { d with stepUs := v }) s)) s

/-! ### Abort, asynchronous events, keep-alive, self-tests (R97, R128, R137, R460) -/

/-- An Abort ends not aborted (R128). -/
def notAborted (o : Nat) (s : State) : State := count1 0x301020 (retire o stOk 1 s)

/-- The Aborts of a controller that still wait (R128). -/
def State.openAborts (s : State) (ctrl : Nat) : Nat :=
  Tab.count s.scn.scenes (fun _ c => c.ctrl == ctrl && !c.decided && match c.kind with | .abort .. => true | _ => false)

/-- The scene that an Abort names by its queue and its CID, with its number (R128). -/
def State.targetOf (s : State) (ctrl sqid cid : Nat) : Option (Nat × Scene) :=
  s.scn.scenes.find? (fun p => p.2.ctrl == ctrl && p.2.sq == sqid && p.2.cid == cid)

/-- Abort (R128): a retired target stands; another rolls back and completes with Command Abort Requested; a command not yet
fetched is waited for. A ninth concurrent Abort fails. [DEDUCED: log entry 73] -/
def doAbort (h : CmdHdr) (sqid target : Nat) (s : State) : State :=
  fetched h 0x08 .admin (fun s =>
    if 8 ≤ s.openAborts h.ctrl then failCmd h 0x08 ⟨1, 0x03, true⟩ s
    else
      let found := s.targetOf h.ctrl sqid target
      let (o, s) := openScene h 0x08 (.abort sqid target s.wall) 0 s
      match found with
      | some (t, c) => if c.decided ∨ Tab.has s.evt.aenDue t then notAborted o s else retire o stOk 0 (rollBack t stAborted s)
      | none => s) s

/-- An Abort held 10 ms for a command that was not fetched completes with not aborted (R128). -/
def doAbortHoldExpiry (ctrl cid : Nat) (s : State) : State :=
  match s.scn.scenes.find? (fun p => p.2.ctrl == ctrl && p.2.sq == 0 && p.2.cid == cid && !p.2.decided &&
      match p.2.kind with | .abort _ _ since => decide (since + 10000000 ≤ s.wall) | _ => false) with
  | some (o, _) => goOn (notAborted o s)
  | none => s

/-- Asynchronous Event Request: at most AERL + 1 = 16 outstanding (R106, R460). [DEDUCED: log entry 67] -/
def doAsyncEventRequest (h : CmdHdr) (s : State) : State :=
  fetched h 0x0C .admin (fun s =>
    if 16 ≤ (s.scn.scenes.filter (s.isOpenAer h.ctrl)).length then failCmd h 0x0C ⟨1, 0x05, true⟩ s
    else (openScene h 0x0C .aer 0 s).2) s

/-- Keep Alive restarts the timer of a fabric controller (R97). -/
def doKeepAlive (h : CmdHdr) (s : State) : State :=
  fetched h 0x18 .fabricAdmin (fun s =>
    endAtOnce h 0x18 stOk 0 { s with hfe := { s.hfe with ctrls := Tab.modify s.hfe.ctrls h.ctrl (fun k =>
      { k with assoc := k.assoc.map (fun a => { a with lastAlive := s.wall }) }) } }) s

/-- Device Self-test, short or extended (R137). -/
def doDeviceSelfTest (h : CmdHdr) (code : Nat) (s : State) : State :=
  fetched h 0x14 .admin (fun s =>
    let all := h.nsid = 0xFFFFFFFF
    if code ≠ 1 ∧ code ≠ 2 then failCmd h 0x14 stInvalidField s
    else if (s.side h.ctrl).selfTest.isSome then failCmd h 0x14 ⟨1, 0x1D, true⟩ s
    else if !s.isHouse h.ctrl ∧ !all ∧ (s.nsFor h).isNone then failCmd h 0x14 stNamespace s
    else
      let l := if s.isHouse h.ctrl then [] else if all then s.nsAttached h.ctrl else [h.nsid]
      endAtOnce h 0x14 stOk 0 (onSide h.ctrl (fun d => { d with selfTest := some ⟨code, l⟩ }) s)) s

/-- Device Self-test code Fh ends the running test. -/
def doSelfTestAbort (h : CmdHdr) (s : State) : State :=
  fetched h 0x14 .admin (fun s => endAtOnce h 0x14 stOk 0 (onSide h.ctrl (endSelfTest 1) s)) s

/-- A step of a self-test ends; a failed one or the last one ends the test (R137). [PRESUMED: log entry 68] -/
def doSelfTestStep (ctrl : Nat) (passed last : Bool) (s : State) : State :=
  if (s.side ctrl).selfTest.isSome then
    if !passed then onSide ctrl (endSelfTest 7) s
    else if last then onSide ctrl (endSelfTest 0) s
    else s
  else s

/-! ### Namespaces (R106, R115, R140, R141) -/

/-- The namespaces a Format NVM names: one, or every one attached to its controller. -/
def State.formatTargets (s : State) (h : CmdHdr) : List Nat :=
  if h.nsid = 0xFFFFFFFF then s.nsAttached h.ctrl else [h.nsid]

/-- Scenes a wide command waits for: every open one on its namespaces (R115). -/
def State.scenesOn (s : State) (ns : List Nat) : List Nat :=
  (s.scn.scenes.filter (fun p => !p.2.decided && p.2.spaces.any ns.contains)).map (fun p => p.1)

/-- Format NVM (R106, R115): a wide command, SES 000b, 001b or 010b. [DEDUCED: log entry 71] -/
def doFormatNvm (h : CmdHdr) (lbaf ses : Nat) (s : State) : State :=
  fetched h 0x80 .admin (fun s =>
    let l := s.formatTargets h
    let bad := l.any (fun n => match Tab.find s.obj.ns n with
      | some x => decide (1 < lbaf ∨ (x.kv = true ∧ lbaf ≠ 0))
      | none => false)
    if h.nsid ≠ 0xFFFFFFFF ∧ (s.nsFor h).isNone then failCmd h 0x80 stNamespace s
    else if 2 < ses then failCmd h 0x80 stInvalidField s
    else if bad then failCmd h 0x80 ⟨1, 0x0A, true⟩ s
    else
      let waits := s.scenesOn l
      let (o, s) := openScene h 0x80 (.format l lbaf ses) 0 s
      onScene o (fun c => { c with waits := waits, wantCommit := true }) s) s

/-- Do the archive attributes keep the table of R140? -/
def attrsOk (a : NsAttrs) : Bool :=
  let compress := a.services.testBit 0
  decide (a.services < 16) && (a.kv || !compress) &&
  (if compress then decide (1 ≤ a.compFormat ∧ a.compFormat ≤ 3) else a.compFormat == 0) && decide (a.compLevel ≤ 9) &&
  decide (a.cipher ≤ 1) && (a.kv || a.cipher == 0) && decide (a.fixityAlg ≤ 3) && decide (a.tierPolicy ≤ 3) &&
  (a.kv || a.tierPolicy == 0 || a.tierPolicy == 3) &&
  (a.tierPolicy != 2 || decide (1 ≤ a.demoteDays ∧ a.demoteDays ≤ 65535)) && decide (a.promoteReads ≤ 65535) &&
  (a.sweepDays == 0 || decide (30 ≤ a.sweepDays ∧ a.sweepDays ≤ 3650)) && a.reservedZero &&
  decide (a.lbaf ≤ 1) && (!a.kv || a.lbaf == 0)

/-- Units of an NVM namespace (R164). [DEDUCED: log entry 193] -/
def nsUnits (a : NsAttrs) : Nat := if a.kv then 0 else ceilDiv a.nsze 8

/-- The tier of an NVM namespace (R164). -/
def nsTier (a : NsAttrs) : Nat := if a.tierPolicy = 3 then 1 else 0

/-- Namespace Management: a namespace is created for a user tenant that the TENANT region defines, its NVM capacity charged
whole (R106, R140, R141), or deleted (R115). [DEDUCED: log entry 193] -/
def doNamespaceManagement (h : CmdHdr) (create : Bool) (a : NsAttrs) (s : State) : State :=
  fetched h 0x0D .houseAdmin (fun s =>
    if create then
      if a.owner = 0 ∨ (s.tenantRec a.owner).isNone ∨ !attrsOk a ∨ (!a.kv ∧ a.nsze = 0) then failCmd h 0x0D stInvalidField s
      else
        match Tab.freeKey s.obj.ns 8192 1 with
        | none => failCmd h 0x0D ⟨1, 0x16, true⟩ s
        | some nsid =>
          let k := nsTier a
          let bytes := if a.kv then 0 else a.nsze * 4096
          let secret := a.services.testBit 1
          if !a.kv ∧ (!quotaRoom s a.owner k bytes ∨ !hasRoom s.trl k (nsUnits a)) then failCmd h 0x0D ⟨1, 0x15, true⟩ s
          else if secret ∧ s.scr.halted then (openScene h 0x0D .nsCreate 0 s).2
          else
            let (ns, s) := if secret then drawSecret s else (0, s)
            let (first, t) := if a.kv then (0, s.trl) else takeRun a.owner k (nsUnits a) bytes s.trl
            let n : Namespace :=
              { owner := a.owner, kv := a.kv, nsze := a.nsze, lbaf := a.lbaf, services := a.services,
                compFormat := a.compFormat, compLevel := a.compLevel, cipher := a.cipher, fixityAlg := a.fixityAlg,
                tierPolicy := a.tierPolicy, demoteDays := a.demoteDays, promoteReads := a.promoteReads,
                sweepDays := if a.sweepDays = 0 then 365 else a.sweepDays, first := first, units := nsUnits a, attached := [],
                nextObj := Tab.at s.obj.counters nsid 0, epoch := 0, lbas := [], vers := [], extents := [], sweep := none }
            endAtOnce h 0x0D stOk nsid { s with
              trl := t
              scr := { s.scr with nsSecrets := if secret then Tab.put s.scr.nsSecrets nsid ns else s.scr.nsSecrets }
              obj := { s.obj with ns := Tab.put s.obj.ns nsid n } }
    else
      let l := if h.nsid = 0xFFFFFFFF then s.obj.ns.map (fun p => p.1) else [h.nsid]
      if l.any (fun n => !Tab.has s.obj.ns n) then failCmd h 0x0D stNamespace s
      else
        let waits := s.scenesOn l
        let (o, s) := openScene h 0x0D (.nsDelete l) 0 s
        onScene o (fun c => { c with waits := waits, wantCommit := true }) s) s

/-- Namespace Attachment: only controllers of the namespace's owner (R106). -/
def doNamespaceAttachment (h : CmdHdr) (attach : Bool) (ctrls : List Nat) (s : State) : State :=
  fetched h 0x15 .houseAdmin (fun s =>
    match Tab.find s.obj.ns h.nsid with
    | none => failCmd h 0x15 stNamespace s
    | some n =>
      if ctrls.any (fun c => (s.controllerRec c).map (fun r => r.tag) != some n.owner) then failCmd h 0x15 ⟨1, 0x1C, true⟩ s
      else if attach ∧ ctrls.any (fun c => n.attached.contains c) then failCmd h 0x15 ⟨1, 0x18, true⟩ s
      else if !attach ∧ ctrls.any (fun c => !n.attached.contains c) then failCmd h 0x15 ⟨1, 0x1A, true⟩ s
      else
        let l := if attach then ctrls.foldl setAdd n.attached else ctrls.foldl setDel n.attached
        let s := ctrls.foldl (fun s c => onSide c (fun d => { d with changedNs := setAdd d.changedNs h.nsid }) s) s
        endAtOnce h 0x15 stOk 0 (onNs h.nsid (fun n => { n with attached := l }) s)) s

/-- Sanitize: Crypto Erase only (action 4), of the whole subsystem (R106, R387). -/
def doSanitize (h : CmdHdr) (action : Nat) (s : State) : State :=
  fetched h 0x84 .houseAdmin (fun s =>
    if action ≠ 4 then failCmd h 0x84 stInvalidField s
    else if s.obj.ns.any (fun p => epochSpent s p.1) then failCmd h 0x84 stEpoch (raise 292 0 0 0 0 s)
    else endAtOnce h 0x84 stOk 0 (rewrap (s.obj.ns.foldl (fun s p => cryptErase p.1 s) s))) s

/-- Restart Queue (R135): the held commands continue, or each completes with 0x8C; fetching resumes. -/
def doRestartQueue (h : CmdHdr) (sqid : Nat) (discard : Bool) (s : State) : State :=
  fetched h 0xC0 .gloexAdmin (fun s =>
    match s.sqOf h.ctrl sqid with
    | none => failCmd h 0xC0 ⟨1, 0x01, true⟩ s
    | some q =>
      if sqid = 0 then failCmd h 0xC0 ⟨1, 0x01, true⟩ s
      else if !q.frozen ∨ !q.logRead then failCmd h 0xC0 stSequence s
      else
        let s := if discard then rollQueue h.ctrl sqid stFrozen s else s
        endAtOnce h 0xC0 stOk 0 (onSq h.ctrl sqid (fun q => { q with frozen := false }) s)) s

/-- An absent, house-only or disallowed opcode fails with Invalid Command Opcode (R106, R107). [PRESUMED: log entry 13] -/
def doInvalidOpcode (h : CmdHdr) (_admin : Bool) (opcode : Nat) (s : State) : State :=
  if fetchable s h then goOn (failCmd h opcode stInvalidOpcode s) else s

end Sys2Proof.Machine
end

