-- ==== Sys2Proof/Machine/Io.lean ====
section
/-! DEFINITION. I/O commands (R107, R114-R127, R142-R148, R331): what a fetched Read, Write, Flush, Store and the rest check and
open; commit, roll-back and read-point requests. -/
namespace Sys2Proof.Machine

/-- May the command use this key tag: the tenant's partition allows Key Per I/O, and the tag's slot holds an injected key (R396)? -/
def keyTagOk (s : State) (tag : Nat) (kt : Option Nat) : Bool :=
  match kt with
  | none => true
  | some t =>
    (s.keyPartition tag).any (fun k => k.perIo && decide (t < k.count) && (Tab.at s.scr.slots (k.first + t) {}).kind == 6)

/-- An NVM command on LBAs: its namespace and range are checked, then its work begins (R132). -/
def onLbas (h : CmdHdr) (opcode : Nat) (ranges : List (Nat × Nat)) (work : Namespace → State → State) (s : State) : State :=
  fetched h opcode .nvm (fun s =>
    match s.nsFor h with
    | none => failCmd h opcode stNamespace s
    | some n =>
      if n.kv then failCmd h opcode stNamespace s
      else if ranges.any (fun r => decide (n.nsze < r.1 + r.2)) then failCmd h opcode stLbaRange s
      else work n s) s

/-- A write-kind command meets Final Curtain, or the want of room (R148, R193). -/
def roomStatus (s : State) (tier newUnits : Nat) : Option Status :=
  if s.dev.phase = .finalCurtain then some stFinal
  else if newUnits = 0 then none
  else if decide (s.trl.mapped tier + newUnits ≤ (s.trl.tier tier).fillable tier) then none
  else if finalDue s.trl newUnits then some stFinal
  else some stSpill

/-- A command fails; a Final Curtain status is the device's entry into it (R193). -/
def failRoom (h : CmdHdr) (opcode : Nat) (st : Status) (s : State) : State :=
  failCmd h opcode st (if st = stFinal then enterFinal s else s)

/-- In-capsule data that came with the command (R100). -/
def capsuleData (s : State) (h : CmdHdr) : Bytes := Tab.at s.hfe.capsules (qKey h.ctrl h.sq * 65536 + h.cid) []

/-- A scene that takes host data: what came in the capsule is there already. -/
def openWithData (h : CmdHdr) (opcode : Nat) (kind : SceneKind) (len : Nat) (s : State) : Nat × State :=
  let d := (capsuleData s h).take len
  let (o, s) := openScene h opcode kind (len - d.length) s
  let s := onScene o (fun c => { c with data := d, asked := d.length, staged := d.length }) s
  (o, { s with hfe := { s.hfe with capsules := Tab.del s.hfe.capsules (qKey h.ctrl h.sq * 65536 + h.cid) } })

/-- Units of a range that are not yet mapped. -/
def newUnits (s : State) (n : Namespace) (slba nlb : Nat) : Nat :=
  ((unitsOf n slba nlb).filter (fun u => !Tab.has s.trl.map u.1)).length

/-- The tier of an NVM namespace. -/
def Namespace.tier (n : Namespace) : Nat := if n.tierPolicy = 3 then 1 else 0

/-- Read (R116). -/
def doNvmRead (h : CmdHdr) (slba nlb : Nat) (kt : Option Nat) (s : State) : State :=
  onLbas h 0x02 [(slba, nlb)] (fun n s =>
    if !keyTagOk s n.owner kt then failCmd h 0x02 stInvalidField s
    else (openScene h 0x02 (.nvmRead slba nlb kt) 0 (onSide h.ctrl (fun d => { d with reads := d.reads + 1 }) s)).2) s

/-- Write (R127). -/
def doNvmWrite (h : CmdHdr) (slba nlb : Nat) (fua : Bool) (kt : Option Nat) (s : State) : State :=
  onLbas h 0x01 [(slba, nlb)] (fun n s =>
    if !keyTagOk s n.owner kt then failCmd h 0x01 stInvalidField s
    else
      match roomStatus s n.tier (newUnits s n slba nlb) with
      | some st => failRoom h 0x01 st s
      | none =>
        (openWithData h 0x01 (.nvmWrite slba nlb fua kt) (nlb * n.lbaSize)
          (onSide h.ctrl (fun d => { d with writes := d.writes + 1 }) s)).2) s

/-- Compare (R114): host data against the LBAs at its read points. -/
def doCompare (h : CmdHdr) (slba nlb : Nat) (s : State) : State :=
  onLbas h 0x05 [(slba, nlb)] (fun n s => (openWithData h 0x05 (.compare slba nlb) (nlb * n.lbaSize) s).2) s

/-- Write Zeroes. -/
def doWriteZeroes (h : CmdHdr) (slba nlb : Nat) (s : State) : State :=
  onLbas h 0x08 [(slba, nlb)] (fun _ s =>
    match roomStatus s 0 0 with
    | some st => failRoom h 0x08 st s
    | none => (openScene h 0x08 (.writeZeroes slba nlb) 0 s).2) s

/-- Write Uncorrectable (R165). -/
def doWriteUncorrectable (h : CmdHdr) (slba nlb : Nat) (s : State) : State :=
  onLbas h 0x04 [(slba, nlb)] (fun _ s =>
    match roomStatus s 0 0 with
    | some st => failRoom h 0x04 st s
    | none => (openScene h 0x04 (.writeUncorrectable slba nlb) 0 s).2) s

/-- Dataset Management: Deallocate is honoured, the rest has no effect (R107). -/
def doDatasetManagement (h : CmdHdr) (deallocate : Bool) (ranges : List (Nat × Nat)) (s : State) : State :=
  onLbas h 0x09 ranges (fun _ s =>
    if !deallocate then endAtOnce h 0x09 stOk 0 s
    else
      match roomStatus s 0 0 with
      | some st => failRoom h 0x09 st s
      | none => (openScene h 0x09 (.deallocate ranges) 0 s).2) s

/-- Verify (R152). -/
def doVerify (h : CmdHdr) (slba nlb : Nat) (s : State) : State :=
  onLbas h 0x0C [(slba, nlb)] (fun _ s => (openScene h 0x0C (.verify slba nlb) 0 s).2) s

/-- Copy: source format 0, up to 128 ranges of 65,536 LBAs, 1,048,576 in all (R107). -/
def doCopy (h : CmdHdr) (dst format : Nat) (ranges : List (Nat × Nat)) (s : State) : State :=
  let total := (ranges.map (fun r => r.2)).sum
  onLbas h 0x19 ((dst, total) :: ranges) (fun n s =>
    if format ≠ 0 ∨ 128 < ranges.length ∨ ranges.any (fun r => decide (65536 < r.2)) ∨ 1048576 < total then
      failCmd h 0x19 stInvalidField s
    else
      match roomStatus s n.tier (newUnits s n dst total) with
      | some st => failRoom h 0x19 st s
      | none => (openScene h 0x19 (.copy dst ranges) 0 s).2) s

/-- The namespaces a Flush covers (R125). -/
def State.flushTargets (s : State) (h : CmdHdr) : Option (List Nat) :=
  if h.nsid = 0xFFFFFFFF then some (s.nsAttached h.ctrl) else (s.nsFor h).map (fun _ => [h.nsid])

/-- The write sequences a Flush waits for: writes to its namespaces whose completion was posted, their data not yet on media with
the journal on flash (R125). -/
def State.flushCover (s : State) (l : List Nat) : List Nat :=
  ((s.trl.wings.filter (fun p => p.2.posted && l.contains p.2.nsid)).map (fun p => p.2.seq) ++
    (s.trl.unflushed.filter (fun u => u.posted && l.contains u.nsid)).map (fun u => u.seq)).eraseDups

/-- Flush (R125). -/
def doFlush (h : CmdHdr) (s : State) : State :=
  fetched h 0x00 .anyIo (fun s =>
    match s.flushTargets h with
    | none => failCmd h 0x00 stNamespace s
    | some l =>
      let cover := s.flushCover l
      let (o, s) := openScene h 0x00 (.flush l) 0 s
      onScene o (fun c => { c with waits := cover }) s) s

/-- A Key Value command: its namespace and key length are checked (R107). -/
def onKey (h : CmdHdr) (opcode : Nat) (key : Bytes) (work : Namespace → State → State) (s : State) : State :=
  fetched h opcode .kv (fun s =>
    match s.nsFor h with
    | none => failCmd h opcode stNamespace s
    | some n =>
      if !n.kv then failCmd h opcode stNamespace s
      else if key = [] ∨ 16 < key.length then failCmd h opcode ⟨0, 0x86, true⟩ s
      else work n s) s

/-- A reservation for a Store of `len` bytes (R147, R148), or the status it meets. -/
def reserveStore (n : Namespace) (len : Nat) (s : State) : Status × Option Reserve × State :=
  let bytes := storeBytes len
  let units := ceilDiv bytes unitBytes
  let (st, tier, spilled) := chooseTier s n bytes units
  if isOk st then
    let (first, t) := takeRun n.owner tier units bytes s.trl
    (stOk, some { tier := tier, first := first, units := units, bytes := bytes, spilled := spilled }, { s with trl := t })
  else (st, none, s)

/-- KV Store (R142, R147, R148): a value of up to 4,294,967,295 bytes, its media space reserved on one tier. [DEDUCED: log entry 86] -/
def doKvStore (h : CmdHdr) (key : Bytes) (len : Nat) (opts : KvOpts) (s : State) : State :=
  onKey h 0x01 key (fun n s =>
    if 4294967295 < len then failCmd h 0x01 ⟨0, 0x85, true⟩ s
    else if opts.mustExist ∧ opts.mustNotExist then failCmd h 0x01 stInvalidField s
    else if s.dev.phase = .finalCurtain then failCmd h 0x01 stFinal s
    else
      let (st, r, s) := reserveStore n len s
      match r with
      | none => failRoom h 0x01 st s
      | some r =>
        let (o, s) := openWithData h 0x01 (.kvStore key len opts) len s
        onScene o (fun c => { c with reserve := some r }) s) s

/-- KV Retrieve. [DEDUCED: log entry 86] -/
def doKvRetrieve (h : CmdHdr) (key : Bytes) (bufLen : Nat) (s : State) : State :=
  onKey h 0x02 key (fun _ s => (openScene h 0x02 (.kvRetrieve key bufLen) 0 s).2) s

/-- KV Delete (R143, R193). [DEDUCED: log entry 86] -/
def doKvDelete (h : CmdHdr) (key : Bytes) (s : State) : State :=
  onKey h 0x10 key (fun _ s =>
    if s.dev.phase = .finalCurtain then failCmd h 0x10 stFinal s
    else (openScene h 0x10 (.kvDelete key) 0 s).2) s

/-- KV Exist. [DEDUCED: log entry 86] -/
def doKvExist (h : CmdHdr) (key : Bytes) (s : State) : State :=
  onKey h 0x14 key (fun _ s => (openScene h 0x14 (.kvExist key) 0 s).2) s

/-- KV List: from a key on; an empty key starts at the first. [DEDUCED: log entry 86] -/
def doKvList (h : CmdHdr) (key : Bytes) (bufLen : Nat) (s : State) : State :=
  fetched h 0x06 .kv (fun s =>
    match s.nsFor h with
    | none => failCmd h 0x06 stNamespace s
    | some n =>
      if !n.kv then failCmd h 0x06 stNamespace s
      else if 16 < key.length then failCmd h 0x06 ⟨0, 0x86, true⟩ s
      else (openScene h 0x06 (.kvList key bufLen) 0 s).2) s

/-- Bytes of a tenant's SLM (TENANT record). -/
def State.slmSize (s : State) (tag : Nat) : Nat := ((s.tenantRec tag).map (fun r => r.slmMib * 2 ^ 20)).getD 0

/-- An SLM command: its range lies within the tenant's SLM (R331). -/
def onSlm (h : CmdHdr) (opcode off len : Nat) (work : State → State) (s : State) : State :=
  fetched h opcode .slm (fun s =>
    if s.slmSize ((s.ctrlTag h.ctrl).getD 0) < off + len then failCmd h opcode stLbaRange s else work s) s

/-- Memory Read (R331). -/
def doMemoryRead (h : CmdHdr) (off len : Nat) (s : State) : State :=
  onSlm h 0x02 off len (fun s => (openScene h 0x02 (.memRead off len) 0 s).2) s

/-- Memory Write (R331). -/
def doMemoryWrite (h : CmdHdr) (off len : Nat) (s : State) : State :=
  onSlm h 0x01 off len (fun s => (openWithData h 0x01 (.memWrite off len) len s).2) s

/-- One side of a Memory Copy lies within SLM or within a namespace the controller may use (R331). -/
def sideOk (s : State) (h : CmdHdr) (ns : Option Nat) (off len : Nat) : Status :=
  match ns with
  | none => if s.slmSize ((s.ctrlTag h.ctrl).getD 0) < off + len then stLbaRange else stOk
  | some k =>
    match s.nsFor { h with nsid := k } with
    | some n => if n.kv then stOk else if n.nsze < off + ceilDiv len n.lbaSize then stLbaRange else stOk
    | none => stNamespace

/-- Memory Copy between SLM and the tenant's namespaces (R331). -/
def doMemoryCopy (h : CmdHdr) (m : MemCopy) (s : State) : State :=
  fetched h 0x05 .slm (fun s =>
    let a := sideOk s h m.srcNs m.srcOff m.len
    let b := sideOk s h m.dstNs m.dstOff m.len
    if !isOk a then failCmd h 0x05 a s
    else if !isOk b then failCmd h 0x05 b s
    else if m.srcNs.isSome ∧ m.dstNs.isSome then failCmd h 0x05 stInvalidField s
    else if m.dstNs.isSome ∧ s.dev.phase = .finalCurtain then failCmd h 0x05 stFinal s
    else
      match (m.dstNs.bind (fun k => Tab.find s.obj.ns k)).filter (fun n => n.kv) with
      | some n =>
        let (st, r, s) := reserveStore n m.len s
        match r with
        | none => failRoom h 0x05 st s
        | some r =>
          let (o, s) := openScene h 0x05 (.memCopy m) 0 s
          onScene o (fun c => { c with reserve := some r, wantCommit := true }) s
      | none =>
        let (o, s) := openScene h 0x05 (.memCopy m) 0 s
        onScene o (fun c => { c with wantCommit := true }) s) s

/-- A Fence is fetched, and one that fails retires with its status (R139). [DEDUCED: log entry 195] -/
def countFence (tag : Nat) (failed : Bool) (s : State) : State :=
  { s with scn := { s.scn with
      fences := Tab.update s.scn.fences tag (0, 0) (fun f => ((f.1 + 1) % 2 ^ 32, (f.2 + b2n failed) % 2 ^ 32)) } }

/-- Fence (R119-R121): it retires when every earlier unretired command in its scope has. [DEDUCED: log entry 195] -/
def doFence (h : CmdHdr) (cdw10 : W32) (s : State) : State :=
  let scope := bits cdw10.toNat 1 0
  let tag := (s.ctrlTag h.ctrl).getD 0
  let bad := bits cdw10.toNat 31 2 != 0
  let refused := scope == 3 && tag != 0
  fetched h 0x80 .anyIo (fun s =>
    if bad then failCmd h 0x80 stInvalidField s
    else if refused then failCmd h 0x80 stFenceScope s
    else
      let f := newScene s h 0x80 (.fence scope) 0
      let set := (s.scn.scenes.filter (fun p => !p.2.decided && inScope f scope p.2)).map (fun p => p.1)
      let (o, s) := openScene h 0x80 (.fence scope) 0 s
      onScene o (fun c => { c with waits := set, dw0 := min set.length (2 ^ 32 - 1) }) s)
    (if fetchable s h ∧ h.sq ≠ 0 then
        countFence tag ((heldAbort s h).isNone && (bad || refused || (earlyStatus s h .anyIo).isSome)) s else s)

/-- A scene's commit request reaches its gate. -/
def doCommitRequest (scene : Nat) (s : State) : State := commitRequest scene s

/-- A scene's roll-back request reaches its gate. -/
def doRollBackRequest (scene : Nat) (st : Status) (s : State) : State := rollBackRequest scene st s

/-- A read-kind command's read point. -/
def doReadPoint (scene : Nat) (s : State) : State := readPoint scene s

end Sys2Proof.Machine
end

