-- ==== Sys2Proof/Machine/Trl.lean ====
section
/-! DEFINITION. The translation layer's work (07_translation_layer.md, R171-R193): streams, destaging, reclamation, refresh,
journal and checkpoints. -/
namespace Sys2Proof.Machine

/-- A cue day in ticks (R151). -/
def dayTicks : Nat := 86400000000000

/-! ### Opening and filling stripe blocks and bands (R171-R174) -/

/-- Open stripe blocks a stream may have (R172). -/
def streamLimit : Stream → Nat
  | .hot | .cold => 8
  | .reloc => 4
  | .metadata => 2
  | _ => 0

/-- LUNs that hold a member of an open stripe block. -/
def TrlState.busyLuns (t : TrlState) : List Nat :=
  ((t.sbs.filter (fun p => p.2.closed.isNone)).map (fun p => p.2.members.map (fun m => lunNo m.blk))).flatten

/-- Is block `a` taken before `b`: lower count, then lower chip enable, LUN, block (R173)? -/
def blkBefore (a b : FreeBlk) : Bool :=
  if a.pe ≠ b.pe then decide (a.pe < b.pe)
  else if a.blk.ce ≠ b.blk.ce then decide (a.blk.ce < b.blk.ce)
  else if a.blk.lun ≠ b.blk.lun then decide (a.blk.lun < b.blk.lun)
  else decide (a.blk.blk < b.blk.blk)

/-- The free erase block a member position takes: on its channel, on a LUN no open or opening stripe block uses (R173). -/
def pickMember (free : List FreeBlk) (busy : List Nat) (ch : Nat) : Option FreeBlk :=
  free.foldl (fun (acc : Option FreeBlk) b =>
    if b.blk.ch = ch ∧ !busy.contains (lunNo b.blk) then
      match acc with
      | none => some b
      | some a => if blkBefore b a then some b else acc
    else acc) none

/-- Members for the positions of a new stripe block, one on each usable channel in turn (R173, R209). -/
def pickMembers (t : TrlState) (channels : List Nat) : Option (List FreeBlk) :=
  channels.foldl (fun (acc : Option (List FreeBlk)) ch =>
    match acc with
    | none => none
    | some l =>
      match pickMember (t.freeBlks.filter (fun b => !l.contains b)) (t.busyLuns ++ l.map (fun m => lunNo m.blk)) ch with
      | some b => some (l ++ [b])
      | none => none) (some [])

/-- A stream opens a stripe block where it may, where members are free, at a width of at least 16 (R172, R173, R209). Its headers
are programmed (R196). -/
def openSb (st : Stream) (s : State) : Option (Nat × State) :=
  let t := s.trl
  let w := s.usable.length
  if Tab.count t.sbs (fun _ b => b.stream == st && b.closed.isNone) < streamLimit st ∧ 16 ≤ w then
    match pickMembers t s.usable, Tab.freeKey t.sbs 262144 0 with
    | some l, some k =>
      let slots := (w - 1) * (l.foldl (fun m b => min m b.slots) 2048)
      let b : StripeBlk :=
        { stream := st, members := l, slots := slots, written := 0, openCue := s.cue.now, closed := none, reads := 0, width := w,
          levels := [], pageReads := [], margins := [], bad := [], refresh := false, erasing := [] }
      let t := { t with sbs := Tab.put t.sbs k b, freeBlks := t.freeBlks.filter (fun x => !l.contains x) }
      some (k, programHeaders k b { s with trl := t })
    | _, _ => none
  else none

/-- The next slot of a stripe block, its programs made ready; a full block closes. -/
def fillSlot (k : Nat) (s : State) : MapEntry × State :=
  match Tab.find s.trl.sbs k with
  | some b =>
    let w := b.written + 1
    let b' := { b with written := w, closed := if w = b.slots then some s.cue.now else none }
    (MapEntry.flash k b.written, programSlot k b.written { s with trl := { s.trl with sbs := Tab.put s.trl.sbs k b' } })
  | none => (MapEntry.flash k 0, s)

/-- The next slot of a stream's open stripe block, a new block opened where none has room. -/
def takeSlot (st : Stream) (s : State) : Option (MapEntry × State) :=
  match s.trl.sbs.find? (fun p => p.2.stream == st && p.2.closed.isNone && decide (p.2.written < p.2.slots)) with
  | some (k, _) => some (fillSlot k s)
  | none =>
    match openSb st s with
    | some (k, s) => some (fillSlot k s)
    | none => none

/-- A band that a platter stream takes on an actuator (R174): BAND-HOST the free band nearest the outer diameter, BAND-MOVE the one
nearest the inner diameter, ties to the lowest surface. [DEDUCED: log entry 90] -/
def pickBand (st : Stream) (act : Nat) (t : TrlState) : Option Nat :=
  let l := t.bands.filter (fun p => p.2.act == act && p.2.spare && !p.2.retired)
  let nearer := fun (a b : Band) =>
    if a.firstTrack = b.firstTrack then decide (a.surface < b.surface)
    else if st = .bandMove then decide (b.firstTrack < a.firstTrack) else decide (a.firstTrack < b.firstTrack)
  (l.foldl (fun (acc : Option (Nat × Band)) p =>
    match acc with
    | none => some p
    | some q => if nearer p.2 q.2 then some p else some q) none).map (fun p => p.1)

/-- The next data slot of an actuator's open band, 1 to 8,191 (R197); a free band is opened where none is. [DEDUCED: log entry 90] -/
def takeBandSlot (st : Stream) (act : Nat) (t : TrlState) : Option (MapEntry × TrlState) :=
  let go := fun (k : Nat) (b : Band) (t : TrlState) =>
    let w := b.written + 1
    (MapEntry.platter k w, { t with bands := Tab.put t.bands k { b with written := w, closed := decide (b.slots ≤ w) } })
  match t.bands.find? (fun p => p.2.act == act && p.2.stream == st && !p.2.spare && !p.2.closed && !p.2.retired) with
  | some (k, b) => some (go k b t)
  | none =>
    match pickBand st act t with
    | some k =>
      (Tab.find t.bands k).map (fun b => go k { b with stream := st, spare := false, closed := false, written := 0, adj := 0, refresh := false, append := 0, trips := (0, 0) } t)
    | none => none

/-- The first actuator that can take a slot of a platter stream. -/
def anyBandSlot (st : Stream) (t : TrlState) : Option (MapEntry × TrlState) :=
  [0, 1, 2, 3].findSome? (fun a => takeBandSlot st a t)

/-- A media slot for a unit: its pool decides the tier. -/
def mediaSlot (unit : Nat) (flash plat : Stream) (s : State) : Option (MapEntry × State) :=
  if tierOf unit = 0 then takeSlot flash s
  else (anyBandSlot plat s.trl).map (fun r => (r.1, { s with trl := r.2 }))

/-- The fine entry of a granule of a flash slot. -/
def fineAt (e : MapEntry) (i : Nat) : FineEntry :=
  match e with
  | .flash sb slot => .flash sb (slot * 8 + i)
  | _ => .unmapped

/-- The entries that name a Wings slot come to name a media slot. -/
def renameWings (slot : Nat) (w : WingSlot) (e : MapEntry) (t : TrlState) : TrlState :=
  match Tab.find t.map w.unit with
  | some (.wings k) => if k = slot then { t with map := Tab.put t.map w.unit e } else t
  | some (.fine g) =>
    let l := (Tab.at t.fine g []).zip (List.range 8)
    { t with fine := Tab.put t.fine g (l.map (fun p => if p.1.slot = some slot then fineAt e p.2 else p.1)) }
  | _ => t

/-- Destaging (R172, R183): a committed Wings unit is on its way to its stream; its placement commits when its slot is written. -/
def doDestage (slot : Nat) (s : State) : State :=
  match Tab.find s.trl.wings slot with
  | none => s
  | some w =>
    if s.trl.copies.any (fun c => c.src == .wings slot) then s
    else
      match mediaSlot w.unit (if w.hot then .hot else .cold) .bandHost s with
      | none => s
      | some (e, s) =>
        { s with trl := { s.trl with
            copies := s.trl.copies ++ [{ unit := w.unit, src := .wings slot, dst := e, refresh := false, suspect := false }] } }

/-! ### Journal and checkpoints (R182, R184) -/

/-- The journal buffer is written: 64 KiB gathered, or 1 ms since its oldest record (R182). -/
def doJournalWrite (s : State) : State :=
  let t := s.trl
  if t.jwritten < t.jnext ∧ (t.joldest + 1000000 ≤ s.wall ∨ 65536 ≤ t.jbytes) then
    { s with trl := { t with jwritten := t.jnext, jbytes := 0 } }
  else s

/-- A journal write is on flash (R125, R183): Flushes and FUA writes that waited for it go on, predecessors are released. -/
def doJournalProgrammed (s : State) : State :=
  let t := s.trl
  goOn (trimUndo { s with trl := { t with
    jflash := t.jwritten
    unflushed := t.unflushed.filter (fun u => decide (t.jwritten ≤ u.jseq)) } })

/-- A checkpoint starts: the Sampler's open pages are written too (R184, R466). -/
def startCheckpoint (s : State) : State :=
  if s.trl.ckptBusy ∨ !s.trl.restored then s
  else { s with
    trl := { s.trl with ckptBusy := true, ckptStart := s.cue.now }
    evt := closeAllPages s.evt }

/-- A checkpoint is due: 10 minutes, or 4 GiB of journal (R184). -/
def doCheckpointStart (s : State) : State :=
  onlyIf (decide (s.trl.ckptAt + 600000000000 ≤ s.wall ∨ 2 ^ 32 ≤ s.trl.jsince)) startCheckpoint s

/-- TRL_CKPT_CTRL [0] starts a checkpoint now. -/
def doTrlCkptCtrl (val : W32) (s : State) : State := onlyIf (writable s false && val.toNat.testBit 0) startCheckpoint s

/-- The closing record is on flash: the checkpoint is valid (R184). -/
def doCheckpointClosed (s : State) : State :=
  if s.trl.ckptBusy then
    let o := s.obj
    { s with
      trl := { s.trl with
        ckptBusy := false, ckptCue := s.trl.ckptStart, ckptAt := s.wall, jsince := 0, final := s.trl.final || s.dev.phase == .finalCurtain }
      obj := { o with saved := { board := o.board, boardNext := o.boardNext, slotGen := o.slotGen, privates := o.privates, logs := s.evt.logs } } }
  else s

/-! ### Reclamation and refresh (R175-R181) -/

/-- The units whose entries name a slot of a stripe block, with the entry a copy of them starts from. -/
def TrlState.unitsOn (t : TrlState) (sb : Nat) : List (Nat × MapEntry) :=
  t.map.filterMap (fun p =>
    match p.2 with
    | .flash b k => if b = sb then some (p.1, .flash b k) else none
    | .fine g => if (Tab.at t.fine g []).any (fun e => match e with | .flash b _ => b == sb | _ => false) then some (p.1, .fine g) else none
    | _ => none)

/-- Copies of a victim's valid slots start into the RELOC stream. -/
def startCopies (sb : Nat) (refresh : Bool) (s : State) : State :=
  let s := (s.trl.unitsOn sb).foldl (fun s u =>
    match takeSlot .reloc s with
    | some (e, s) =>
      { s with trl := { s.trl with
          copies := s.trl.copies ++ [{ unit := u.1, src := u.2, dst := e, refresh := refresh, suspect := false }] } }
    | none => s) s
  { s with trl := { s.trl with victim := some sb } }

/-- The fine entries of a group after its granules in one stripe block were copied together into one slot. -/
def movedFine (sb : Nat) (dst : MapEntry) (l : List FineEntry) : List FineEntry :=
  (l.zip (List.range 8)).map (fun p => match p.1 with
    | .flash b _ => if b = sb then fineAt dst p.2 else p.1
    | e => e)

/-- Are all eight granules in the one slot copied to? Then the unit is coarse again (R166). -/
def allIn (dst : MapEntry) (l : List FineEntry) : Bool := l == (List.range 8).map (fineAt dst)

/-- A destaged unit commits: its entry comes to name the media slot where it still names the Wings slot, its predecessor stays
protected until the journal record of the placement is on flash (R177, R183). -/
def commitDestage (slot : Nat) (e : MapEntry) (suspect : Bool) (s : State) : State :=
  match Tab.find s.trl.wings slot with
  | some w =>
    if slotNamed s.trl slot w then
      let (j, t) := journal 1 s.wall (renameWings slot w e s.trl)
      let u : Unflushed := { seq := w.seq, jseq := j, nsid := w.nsid, posted := w.posted, pred := w.pred }
      let s := { s with trl := { t with wings := Tab.del t.wings slot, unflushed := t.unflushed ++ [u] } }
      let waits : Bool := match Tab.find s.scn.scenes w.seq with | some c => c.media != [] | none => false
      if suspect ∧ waits then raiseObj 136 w.unit w.tag (onScene w.seq (fun c => { c with st := ⟨7, 0x8B, true⟩ }) s) else s
    else s
  | none => s

/-- A copy commits only where the map still names its source; else it is discarded (R177). Reclamation earns credit (R176). -/
def commitCopy (sb : Nat) (c : Copy) (s : State) : State :=
  match c.src with
  | .wings slot => commitDestage slot c.dst c.suspect s
  | _ =>
    let t := s.trl
    if Tab.find t.map c.unit = some c.src then
      let t := match c.src with
        | .fine g =>
          let l := movedFine sb c.dst (Tab.at t.fine g [])
          if allIn c.dst l then setEntry c.unit (some c.dst) t else { t with fine := Tab.put t.fine g l }
        | _ => { t with map := Tab.put t.map c.unit c.dst }
      let (_, t) := journal 1 s.wall t
      let t := if c.refresh then t else { t with credit := min (t.credit + 256) 16384 }
      let s := { s with trl := t }
      if c.refresh then s else count1 0xA00068 s
    else s

/-- A reclaimed stripe block with nothing valid, no reads and no protected copy has its members erased (R177). -/
def eraseVictim (sb : Nat) (s : State) : State :=
  match Tab.find s.trl.sbs sb with
  | some b =>
    if s.trl.validSlots sb = 0 ∧ b.reads = 0 ∧ !s.trl.holdsProtected sb ∧ b.erasing = [] then
      let s := if b.refresh then countUp 0xA0006C 1 s else s
      let t := s.trl
      let t := { t with
        sbs := Tab.put t.sbs sb { b with erasing := b.members.map (fun m => m.blk) }
        victim := if t.victim = some sb then none else t.victim
        refreshQ := setDel t.refreshQ sb }
      eraseMembers sb b { s with trl := t }
    else s
  | none => s

/-- A stripe block is queued for refresh, at the head of the queue or at its end (R179-R181). -/
def queueRefresh (front : Bool) (sb : Nat) (t : TrlState) : TrlState :=
  match Tab.find t.sbs sb with
  | some b =>
    { t with
      sbs := Tab.put t.sbs sb { b with refresh := true }
      refreshQ := if front then sb :: setDel t.refreshQ sb else setAdd t.refreshQ sb }
  | none => t

/-- The first stripe block of the refresh queue that is closed. -/
def TrlState.refreshVictim (t : TrlState) : Option Nat :=
  t.refreshQ.find? (fun k => match Tab.find t.sbs k with | some b => b.closed.isSome && b.erasing.isEmpty | none => false)

/-- Some closed stripe block has v of at most 1/4 (R175). -/
def TrlState.quarter (t : TrlState) : Bool :=
  t.sbs.any (fun p => p.2.closed.isSome && p.2.erasing.isEmpty && decide (t.validSlots p.1 * 4 ≤ p.2.slots))

/-- Reclamation takes a victim: refresh ahead of greedy in the background; in the foreground at most one refresh for three
greedy (R175, R181). Greedy reclamation stops in Final Curtain (R194). -/
def reclaim (foreground : Bool) (s : State) : State :=
  if s.trl.victim.isSome then s
  else
    let greedy := if s.dev.phase = .finalCurtain then none else s.trl.greedyVictim
    let useRefresh := !foreground || decide (3 ≤ s.trl.greedy)
    match (if useRefresh then s.trl.refreshVictim else none), greedy with
    | some sb, _ => eraseVictim sb (startCopies sb true { s with trl := { s.trl with greedy := 0 } })
    | none, some sb => eraseVictim sb (startCopies sb false { s with trl := { s.trl with greedy := s.trl.greedy + 1 } })
    | none, none => s

/-- Background reclamation (R175). -/
def doReclaimBackground (s : State) : State :=
  onlyIf (s.trl.restored && (decide (s.trl.freeFrac < 2 * s.fgThreshold) || s.trl.quarter || s.trl.refreshVictim.isSome)) (reclaim false) s

/-- Foreground reclamation (R176). -/
def doReclaimForeground (s : State) : State :=
  onlyIf (s.trl.restored && decide (s.trl.freeFrac < s.fgThreshold)) (reclaim true) s

/-- A waiting host place is admitted once credits suffice, in order (R176). -/
def doPlaceAdmit (s : State) : State :=
  match s.trl.waiting, s.copyRatio with
  | (o, n) :: rest, some r =>
    if n * r ≤ s.trl.credit ∨ !Tab.has s.scn.scenes o then goOn { s with trl := { s.trl with waiting := rest } } else s
  | _, _ => s

/-- Platter reclamation empties the band with the fewest valid slots on an actuator with fewer than 4 free bands (R178): its
copies are on their way into BAND-MOVE. -/
def doPlatterReclaim (act : Nat) (s : State) : State :=
  if !s.trl.restored ∨ 4 ≤ s.trl.freeBands act then s
  else
    let cand := s.trl.bands.filter (fun p => p.2.act == act && p.2.closed && !p.2.spare && !p.2.retired)
    match cand.foldl (fun (acc : Option (Nat × Nat)) p =>
        let v := s.trl.validBand p.1
        match acc with
        | none => some (p.1, v)
        | some a => if v < a.2 then some (p.1, v) else acc) none with
    | none => s
    | some (band, v) =>
      if v = 0 then
        { s with trl := { s.trl with bands := Tab.modify s.trl.bands band (fun b => { b with spare := true, closed := false, written := 0 }) } }
      else
        let units := s.trl.map.filter (fun p => match p.2 with | .platter b _ => b == band | _ => false)
        let t := units.foldl (fun t u =>
          match takeBandSlot .bandMove act t with
          | some (e, t) => { t with copies := t.copies ++ [{ unit := u.1, src := u.2, dst := e, refresh := false, suspect := false }] }
          | none => t) s.trl
        { s with trl := t }

/-- The physical sector of a data sector of a band (R236). -/
def physOf (d : Nat) : Nat := 8192 * (d / 7936) + 256 * (d % 7936 / 256) + d % 7936 % 256

/-- Are all sectors of a band's slot below its append point? -/
def slotWritten (b : Band) (slot : Nat) : Bool := decide (physOf (8 * slot + 7) < b.append)

/-- Platter copies whose slots are written whole commit (R177, R247); a band left without valid slots is free (R178). -/
def commitPlatterCopies (act : Nat) (s : State) : State :=
  let mine := fun (c : Copy) => match c.dst with
    | .platter b k => ((Tab.find s.trl.bands b).map (fun x => x.act == act && slotWritten x k)).getD false
    | _ => false
  let l := s.trl.copies.filter mine
  let s := l.foldl (fun s c => commitCopy 0 c s) { s with trl := { s.trl with copies := s.trl.copies.filter (fun c => !mine c) } }
  let emptied := (s.trl.bands.filter (fun p => p.2.act == act && p.2.closed && !p.2.spare && !p.2.retired && s.trl.validBand p.1 == 0)).map (fun p => p.1)
  emptied.foldl (fun s b =>
    let r := ((Tab.find s.trl.bands b).map (fun x => x.refresh)).getD false
    let s := if r then countUp 0xA0006C 65536 s else s
    { s with trl := { s.trl with bands := Tab.modify s.trl.bands b (fun x => { x with spare := true, closed := false, written := 0, refresh := false }) } }) s

/-- A stripe block reaching TRL_RETENTION days since its close is queued for refresh (R180). -/
def doRetentionExpiry (sb : Nat) (s : State) : State :=
  match Tab.find s.trl.sbs sb with
  | some b =>
    match b.closed with
    | some c =>
      if c + s.reg 0xA00064 365 * dayTicks ≤ s.cue.now then
        { s with trl := queueRefresh false sb s.trl }
      else s
    | none => s
  | none => s

/-- The flash tier after a retirement: D falls, and M with it toward 95% where the spare is below 5% (R191, R192). [DEDUCED: log entry 93] -/
def lowerTier (slots : Nat) (t : Tier) : Tier :=
  let d := t.slots - slots
  let m := if 100 * (d - t.units) < 5 * d then max (min t.units (95 * d / 100)) t.charged else t.units
  { t with slots := d, units := m }

/-- A member erase block is retired: never allocated again (R179, R191). -/
def retireBlock (slots : Nat) (t : TrlState) : TrlState := { t with retiredBlks := t.retiredBlks + 1, flash := lowerTier slots t.flash }

/-! ### What the TRL_ registers show (R198) -/

/-- The TRL_ registers. -/
def trlView (s : State) (o : Nat) : Option Nat :=
  let t := s.trl
  let lo := fun (v : Nat) => some (v % 2 ^ 32)
  let hi := fun (v : Nat) => some (v / 2 ^ 32)
  if o = 0xA00004 then
    some (flag (decide (s.dev.phase = .finalCurtain)) 7 + flag (t.restored && platWorn t) 6 + flag (t.restored && flashWorn t) 5 +
      flag t.harbourShort 4 + flag s.harbourArmed 3 + flag t.ckptBusy 2 +
      flag (t.restored && decide (4 * t.freeFrac ≤ s.fgThreshold)) 1 + flag (t.restored && decide (t.freeFrac < s.fgThreshold)) 0)
  else if o = 0xA00008 then some (field s.fgThreshold 10 16 + field t.freeFrac 10 0)
  else if o = 0xA0000C then some (match s.copyRatio with | none => 0xFFFF | some r => min r 0xFFFF)
  else if o = 0xA00010 then
    some (match t.currentVictim with
      | some sb => match Tab.find t.sbs sb with
        | some b => if b.slots = 0 then 0 else t.validSlots sb * 1000 / b.slots
        | none => 0
      | none => 0)
  else if o = 0xA00018 then lo t.flash.units else if o = 0xA0001C then hi t.flash.units
  else if o = 0xA00020 then lo t.flash.charged else if o = 0xA00024 then hi t.flash.charged
  else if o = 0xA00028 then lo (t.mapped 0) else if o = 0xA0002C then hi (t.mapped 0)
  else if o = 0xA00030 then lo t.flash.slots else if o = 0xA00034 then hi t.flash.slots
  else if o = 0xA00038 then lo t.plat.units else if o = 0xA0003C then hi t.plat.units
  else if o = 0xA00040 then lo t.plat.charged else if o = 0xA00044 then hi t.plat.charged
  else if o = 0xA00048 then lo (t.mapped 1) else if o = 0xA0004C then hi (t.mapped 1)
  else if o = 0xA00050 then some t.retiredBlks else if o = 0xA00054 then some t.retiredBands
  else if o = 0xA00058 then some t.fine.length
  else if o = 0xA00074 then some t.plLost
  else if o = 0xA00078 then lo t.ckptCue else if o = 0xA0007C then hi t.ckptCue
  else if o = 0xA00084 then some (t.jsince / 2 ^ 20)
  else if o = 0xA00088 then some (field t.dumpMs 16 16 + field t.armedMib 16 0)
  else none

end Sys2Proof.Machine
end

