-- ==== Sys2Proof/Machine/Archive.lean ====
section
/-! DEFINITION. Results, the Call Board, tier moves, fixity sweeps and archive jobs (06_archive_objects.md, R146-R163, R356). -/
namespace Sys2Proof.Machine

/-! ### Provenance records (R146) -/

/-- FLAGS of a provenance record. -/
def provFlags (v : Version) : Nat :=
  flag v.damaged 0 + flag v.imported 1 + flag v.repaired 2 + flag v.platters 3 + flag v.rawChunk 4


/-- The 256 bytes of a version's provenance record. -/
def provBytes (nsid : Nat) (n : Namespace) (id : Nat) (v : Version) : Bytes :=
  let body :=
    leBytes 4 0x31565250 ++ leBytes 2 256 ++ leBytes 2 1 ++ leBytes 2 n.owner ++ leBytes 1 v.key.length ++ leBytes 1 (provFlags v) ++
    leBytes 4 nsid ++ padTo v.key 16 ++ leBytes 8 id ++ leBytes 8 v.value.length ++ leBytes 4 v.chunks.length ++
    leBytes 1 v.compFormat ++ leBytes 1 v.compLevel ++ leBytes 1 v.cipher ++ leBytes 1 v.fixityAlg ++ leBytes 4 v.epoch ++
    leBytes 4 v.storedUnits ++ leBytes 8 v.commitCue ++ leBytes 8 v.commitTai ++ leBytes 8 v.fixityCue ++ leBytes 1 v.fixityResult ++
    leBytes 1 v.origin ++ leBytes 6 0 ++ leBytes 8 v.crc ++ leBytes 8 v.origTai ++ leBytes 16 0 ++
    padTo (if v.fixityAlg = 0xFF then [] else (digestBytes v.digest).take (digestLen v.fixityAlg)) 64 ++ leBytes 60 0
  body ++ leBytes 4 (crc32 body)

/-! ### Results and the Call Board (R154-R156, R356) -/

/-- What a result is about. -/
structure ResultReq where
  kind : Nat
  result : Nat
  alg : Nat
  tag : Nat
  nsid : Nat
  key : Bytes
  objId : Nat
  digest : Nat
  pub : Bool

/-- May the tenant's results be public: its TENANT record allows it; the house tenant needs no consent (R154). -/
def State.mayPublish (s : State) (tag : Nat) : Bool :=
  tag == 0 || ((s.tenantRec tag).map (fun r => r.flags.testBit 1)).getD false

/-- A result entry as posted. -/
def resultEntry (s : State) (r : ResultReq) (seq gen cue : Nat) : ResultEntry :=
  { seq := seq, gen := gen, kind := r.kind, result := r.result, alg := r.alg, tag := r.tag, digestLen := digestLen r.alg,
    nsid := r.nsid, key := r.key, objId := r.objId, cue := cue, digest := r.digest, posted := s.opSeconds }

/-- The oldest entries beyond a count leave the board, counted in CBD_DISPLACED (R155). -/
def trimBoard (n : Nat) (s : State) : State :=
  let extra := s.obj.board.length - n
  if extra = 0 then s else countUp 0x78002C extra { s with obj := { s.obj with board := s.obj.board.drop extra } }

/-- A result is posted to the tenant's private area, and to the Call Board where it may be (R154, R155, R356). -/
def postResult (r : ResultReq) (s : State) : State :=
  let a := Tab.at s.obj.privates r.tag {}
  let cue := s.tenantCue r.tag s.cue.now
  let gen := nextGen (if a.recs.length < 256 then 0 else ((a.recs.head?).map (fun e => e.gen)).getD 0)
  let e := resultEntry s r a.next gen cue
  let a' := { a with next := a.next + 1, recs := (a.recs ++ [e]).drop (a.recs.length + 1 - 256) }
  let s := { s with obj := { s.obj with privates := Tab.put s.obj.privates r.tag a' } }
  let n := s.callBoardRec.1
  if r.pub ∧ s.mayPublish r.tag ∧ 0 < n then
    let slot := s.obj.boardNext % n
    let g := nextGen (Tab.at s.obj.slotGen slot 0)
    let b := resultEntry s r s.obj.boardNext g cue
    let s := trimBoard (n - 1) s
    count1 0x780028 { s with obj := { s.obj with
      board := s.obj.board ++ [b], boardNext := s.obj.boardNext + 1, slotGen := Tab.put s.obj.slotGen slot g } }
  else s

/-- Entries older than the retention leave (R155). -/
def doCallBoardExpiry (s : State) : State :=
  { s with obj := { s.obj with board := s.obj.board.filter (fun e => decide (s.opSeconds < e.posted + s.callBoardRec.2 * 86400)) } }

/-- A write of CBD_CURSOR_HI selects the entry shown (R156). -/
def doCbdCursorWrite (q : Requester) (hi : W32) (s : State) : State :=
  if mayReach s q .house ∧ writable s true then
    let v := formed s q 0x780010 (s.reg 0x780010 0) hi
    takeHigh q 0x780010 hi { s with obj := { s.obj with cursor := v } }
  else s

/-- A write of TW_CB_CURSOR_HI moves the tenant's own cursor (R156, R157). -/
def doTwCbCursorWrite (q : Requester) (tag : Nat) (hi : W32) (s : State) : State :=
  if mayReach s q (.tenant tag) ∧ writable s true then
    let k := tenantKey tag 0x2010
    let v := formed s q k (s.reg k 0) hi
    takeHigh q k hi { s with obj := { s.obj with tenantCursor := Tab.put s.obj.tenantCursor tag v } }
  else s

/-- A write of TW_TLY_PR_CURSOR_HI selects the private result shown (R356). -/
def doTwTlyPrCursorWrite (q : Requester) (tag : Nat) (hi : W32) (s : State) : State :=
  if mayReach s q (.tenant tag) ∧ writable s true then
    let k := tenantKey tag 0x1810
    let v := formed s q k (s.reg k 0) hi
    takeHigh q k hi { s with obj := { s.obj with privates := Tab.update s.obj.privates tag {} (fun a => { a with cursor := v }) } }
  else s

/-! ### Fixity (R150-R153) -/

/-- Stored bytes of the unchecked versions of a cycle (R151): an NVM namespace counts 256 KiB an extent. -/
def sweepBytes (n : Namespace) (w : Sweep) : Nat :=
  (w.unchecked.map (fun k => if n.kv then ((Tab.find n.vers k).map (fun v => v.storedUnits * 4096)).getD 0 else 262144)).sum

/-- The members a cycle covers: versions in ascending ID order, unchecked ones of the last cycle first; or extents (R150-R152). -/
def sweepMembers (n : Namespace) (late : List Nat) : List Nat :=
  if n.kv then
    let all := n.vers.map (fun p => p.1)
    late.filter (fun k => all.contains k) ++ all.filter (fun k => !late.contains k)
  else n.extents.map (fun p => p.1)

/-- A sweep day begins (R151): a new cycle where there is none or the last one has ended, a Sampler record where it ended late;
the day's quota is ceil(B / D). [DESIGN CHOICE: log entry 83] -/
def doSweepDayBoundary (nsid : Nat) (s : State) : State :=
  match Tab.find s.obj.ns nsid with
  | none => s
  | some n =>
    if !n.services.testBit 2 ∨ n.sweepDays = 0 then s
    else
      let fresh := fun (late : List Nat) =>
        ({ start := s.cue.now, topId := n.nextObj - 1, unchecked := sweepMembers n late, quota := 0, day := 0 } : Sweep)
      let old := n.sweep.map (fun w => { w with
        unchecked := w.unchecked.filter (fun k => !n.kv || Tab.has n.vers k), day := (s.cue.now - w.start) / dayTicks })
      let due : Bool := match old with | some w => decide (n.sweepDays ≤ w.day) | none => true
      let late : Bool := match old with | some w => due && !w.unchecked.isEmpty | none => false
      let w : Sweep := match old with
        | some w => if due = true then fresh w.unchecked else w
        | none => fresh []
      let w := { w with quota := ceilDiv (sweepBytes n w) (max 1 (n.sweepDays - w.day)) }
      let s := onNs nsid (fun n => { n with sweep := some w }) s
      if late = true then raiseObj (256 + Config.lateSweepSource.toNat) nsid n.owner s else s

/-! ### Tier moves (R149, R176, R194) -/

/-- Is a version due for demotion or promotion, and can the other tier take it? Answers the new tier. -/
def moveTarget (s : State) (n : Namespace) (v : Version) : Option Nat :=
  let bytes := v.storedUnits * 4096
  let can := fun k => quotaRoom s n.owner k bytes && hasRoom s.trl k v.units
  let recent := (v.reads.filter (fun c => decide (s.cue.now < c + 30 * dayTicks))).length
  if v.superseded ∨ v.damaged ∨ v.units = 0 then none
  else if !v.platters ∧ n.tierPolicy = 2 ∧ v.lastRead + n.demoteDays * dayTicks ≤ s.cue.now ∧ can 1 then some 1
  else if v.platters ∧ (n.tierPolicy = 1 ∨ n.tierPolicy = 2) ∧ n.promoteReads ≠ 0 ∧ n.promoteReads ≤ recent ∧
      s.fgThreshold ≤ s.trl.freeFrac ∧ can 0 then some 0
  else none

/-- Units placed straight onto media, in the order given; none where the media have no slot for one of them. -/
def placeMedia (us : List Nat) (s : State) : Option State :=
  us.foldl (fun (acc : Option State) u =>
    match acc with
    | none => none
    | some s =>
      match mediaSlot u .reloc .bandMove s with
      | some (e, s) => some { s with trl := { s.trl with map := Tab.put s.trl.map u e } }
      | none => none) (some s)

/-- The outcome of a fixity check of a version (R153, R154), by the RESULT codes of R155: 0 passed, 1 or 3 damaged, 2 repaired and
rewritten to new placement. -/
def fixityVersion (nsid obj result digest : Nat) (n : Namespace) (v : Version) (s : State) : State :=
  let v' := { v with
    fixityCue := s.cue.now
    fixityResult := if result = 0 then 1 else if result = 2 then 3 else 2
    repaired := v.repaired || result == 2
    damaged := v.damaged || (result == 1 || result == 3) }
  let s := { s with obj := { s.obj with ns := Tab.put s.obj.ns nsid { n with vers := Tab.put n.vers obj v' } } }
  let s := if result = 2 then
      (match placeMedia ((List.range v.units).map (fun i => v.first + i)) s with
      | some s => { s with trl := (journal v.units s.wall s.trl).2 }
      | none => s)
    else s
  postResult { kind := 0, result := result, alg := n.fixityAlg, tag := n.owner, nsid := nsid, key := v.key, objId := obj,
               digest := if result = 2 then v.digest else digest, pub := n.services.testBit 3 } s

/-- The outcome of a fixity check, of a version or of an extent of an NVM namespace (R150-R154): posted, recorded, off the sweep. -/
def fixityDone (nsid obj result digest : Nat) (s : State) : State :=
  match Tab.find s.obj.ns nsid with
  | none => s
  | some n =>
    let n := { n with sweep := n.sweep.map (fun w => { w with unchecked := setDel w.unchecked obj }) }
    let note := fun (s : State) =>
      if result = 2 then raiseObj 279 obj n.owner s else if result = 1 ∨ result = 3 then raiseObj 280 obj n.owner s else s
    let s := { s with obj := { s.obj with ns := Tab.put s.obj.ns nsid n } }
    if n.kv then
      match Tab.find n.vers obj with
      | some v => note (fixityVersion nsid obj result digest n v s)
      | none => s
    else
      note (postResult { kind := 0, result := result, alg := n.fixityAlg, tag := n.owner, nsid := nsid, key := [], objId := obj,
                         digest := digest, pub := n.services.testBit 3 } s)

/-- A check that failed before its digest: repaired where the re-read passes, else unreadable (R153). -/
def fixityFail (c : Option FixCheck) (result : Nat) (s : State) : State :=
  match c with
  | some c => fixityDone c.nsid c.obj (if c.recovers then 2 else result) 0 s
  | none => s

/-- One version moves to the other tier by one map switch (R149, R164): a new run, the old one freed, the CRC-64 checked. [DESIGN CHOICE: log entry 84] -/
def moveVersion (nsid id : Nat) (s : State) : State :=
  match Tab.find s.obj.ns nsid with
  | none => s
  | some n =>
    match Tab.find n.vers id with
    | none => s
    | some v =>
      match moveTarget s n v with
      | none => s
      | some k =>
        let bytes := v.storedUnits * 4096
        let (first, t) := takeRun n.owner k v.units bytes s.trl
        match placeMedia ((List.range v.units).map (fun i => first + i)) { s with trl := t } with
        | none => s
        | some s =>
          let (_, t) := journal v.units s.wall s.trl
          let t := freeRun n.owner v.first v.units bytes t
          let v' := { v with first := first, platters := k == 1, reads := [] }
          { s with trl := t, obj := { s.obj with ns := Tab.put s.obj.ns nsid { n with vers := Tab.put n.vers id v' } } }

/-- The daily pass over a namespace (R149); moves stop in Final Curtain (R194). [DESIGN CHOICE: log entry 84] -/
def doTierMovePass (nsid : Nat) (s : State) : State :=
  if s.dev.phase = .performance ∧ s.trl.restored then
    match Tab.find s.obj.ns nsid with
    | some n => if n.kv then n.vers.foldl (fun s p => moveVersion nsid p.1 s) s else s
    | none => s
  else s

/-! ### Archive jobs (R158-R163) -/

/-- A tenant's archive job. -/
def State.job (s : State) (tag : Nat) : ArcJob := Tab.at s.obj.jobs tag {}

/-- A tenant's archive job changed. -/
def onJob (tag : Nat) (f : ArcJob → ArcJob) (s : State) : State :=
  { s with obj := { s.obj with jobs := Tab.update s.obj.jobs tag {} f } }

/-- A register of a tenant's window. -/
def State.tw (s : State) (tag off reset : Nat) : Nat := s.reg (tenantKey tag off) reset

/-- A key register's bytes, `n` of them, from its four words (R162). -/
def keyBytes (s : State) (tag off reset n : Nat) : Bytes :=
  ((List.range 4).map (fun i => leBytes 4 (s.tw tag (off + 4 * i) reset))).flatten.take n

/-- May an archive command be taken: the device serves work, the tenant exists, no job runs (R161, R162)? -/
def arcIdle (s : State) (tag : Nat) : Bool := (s.job tag).phase == .idle && writable s false && (s.tenantRec tag).isSome

/-- The two namespaces of a job: both the tenant's, a KV and a format-0 NVM one (R161). -/
def arcNamespaces (s : State) (tag : Nat) : Option (Namespace × Namespace) :=
  match Tab.find s.obj.ns (s.tw tag 0x7008 0), Tab.find s.obj.ns (s.tw tag 0x700C 0) with
  | some a, some b => if a.owner = tag ∧ b.owner = tag ∧ a.kv ∧ !b.kv ∧ b.lbaf = 0 then some (a, b) else none
  | _, _ => none

/-- EXPORT (R158, R161): the versions of the key range, in ascending key order. -/
def doArcExport (tag : Nat) (s : State) : State :=
  if !arcIdle s tag then s
  else
    match arcNamespaces s tag with
    | none => onJob tag (fun j => { j with err := 2, objects := 0, failed := 0, bytes := 0 }) s
    | some (kv, _) =>
      let len := s.tw tag 0x7040 0x1000
      let lo := keyBytes s tag 0x7020 0 (min 16 (bits len 4 0))
      let hi := keyBytes s tag 0x7030 0xFFFFFFFF (min 16 (bits len 12 8))
      let inRange := fun (k : Bytes) => (lo.isEmpty || !bytesLt k lo) && (hi.isEmpty || !bytesLt hi k)
      let todo := (kv.keys.filter inRange).filterMap (fun k => (kv.newest k).map (fun p => p.1))
      onJob tag (fun j => { j with
        phase := .exporting, err := 0, abort := false, objects := 0, failed := 0, bytes := 0, todo := todo, start := s.cue.now
        kvNs := s.tw tag 0x7008 0, bagNs := s.tw tag 0x700C 0 }) s

/-- IMPORT (R160, R161): the first pass reads the bag; ERR 0x04 for a malformed one, 0x05 without a manifest. Imports stop in
Final Curtain (R194). [DESIGN CHOICE: log entry 88] -/
def doArcImport (tag : Nat) (bag : BagScan) (s : State) : State :=
  if !arcIdle s tag then s
  else if s.dev.phase = .finalCurtain then onJob tag (fun j => { j with err := 1 }) s
  else
    match arcNamespaces s tag with
    | none => onJob tag (fun j => { j with err := 2, objects := 0, failed := 0, bytes := 0 }) s
    | some _ =>
      let err := if !bag.bagitOk then 4 else if !bag.hasManifest then 5 else 0
      onJob tag (fun j => { j with
        phase := if err = 0 then .importSecond else .idle, err := err, oxum := false, abort := false, objects := 0, failed := 0
        bytes := 0, start := s.cue.now, kvNs := s.tw tag 0x7008 0, bagNs := s.tw tag 0x700C 0 }) s

/-- ABORT stops the job at the next file boundary (R161). -/
def doArcAbort (tag : Nat) (s : State) : State :=
  if (s.job tag).phase ≠ .idle ∧ writable s false then onJob tag (fun j => { j with abort := true }) s else s

/-- PROVENANCE copies the newest version's record into TW_ARC_PROV (R163). -/
def doArcProvenance (tag : Nat) (s : State) : State :=
  if !arcIdle s tag then s
  else
    let n := bits (s.tw tag 0x7040 0x1000) 4 0
    if n = 0 ∨ 16 < n then onJob tag (fun j => { j with err := 1 }) s
    else
      match Tab.find s.obj.ns (s.tw tag 0x7008 0) with
      | some ns =>
        if ns.owner ≠ tag ∨ !ns.kv then onJob tag (fun j => { j with err := 2 }) s
        else
          match ns.newest (keyBytes s tag 0x7020 0 n) with
          | some (id, v) => onJob tag (fun j => { j with err := 0, prov := provBytes (s.tw tag 0x7008 0) ns id v }) s
          | none => onJob tag (fun j => { j with err := 7, prov := [] }) s
      | none => onJob tag (fun j => { j with err := 2 }) s

/-- A lower-case hexadecimal digit's value. [DEDUCED: log entry 87] -/
def hexDigit (b : Byte) : Option Nat :=
  let n := b.toNat
  if 48 ≤ n ∧ n ≤ 57 then some (n - 48) else if 97 ≤ n ∧ n ≤ 102 then some (n - 87) else none

/-- The key a payload file's name spells: 2-32 lower-case hexadecimal digits of even count (R160). -/
def keyOfName : Bytes → Option Bytes
  | [] => some []
  | [_] => none
  | a :: b :: t =>
    match hexDigit a, hexDigit b, keyOfName t with
    | some x, some y, some k => some (BitVec.ofNat 8 (x * 16 + y) :: k)
    | _, _, _ => none

/-- Bytes written to a format-0 NVM namespace from a byte offset, as a job's media writes. [DEDUCED: log entry 87] -/
def writeBag (nsid off : Nat) (b : Bytes) (seq : Nat) (s : State) : State :=
  match Tab.find s.obj.ns nsid with
  | some n =>
    if b = [] then s
    else
      let a := off / 4096
      let k := (off + b.length - 1) / 4096 + 1 - a
      let old := ((List.range k).map (fun i => (n.lba (a + i)).bytes)).flatten
      let data := old.take (off - a * 4096) ++ b ++ old.drop (off - a * 4096 + b.length)
      onNs nsid (putLbas a data k) (placeAll n.owner nsid seq (unitsOf n a k) s)
  | none => s

/-- One payload file of an import is stored as a KV Store (R160): skipped for its name, its length, its digests or its Store. [DEDUCED: log entry 201] -/
def importFile (tag : Nat) (j : ArcJob) (f : ArcFile) (s : State) : State :=
  let skip := onJob tag (fun j => { j with failed := j.failed + 1, bytes := j.bytes + f.len }) s
  match Tab.find s.obj.ns j.kvNs, keyOfName f.name with
  | some n, some key =>
    let overwrite := (s.tw tag 0x7018 2).testBit 9
    let lost := overflowed s (n.services.testBit 0) (s.chunksFor n (n.services.testBit 0) f.value)
    if s.dev.phase = .finalCurtain ∨ lost ∨ key = [] ∨ 16 < key.length ∨ !f.listed ∨ 4294967295 < f.len ∨ !f.digestsMatch ∨ (!overwrite ∧ (n.newest key).isSome) then skip
    else
      let (_, r, s') := reserveStore n f.len s
      match r with
      | none => skip
      | some r =>
        let s' := commitVersion j.kvNs s.scn.nextOrder key f.value false true f.origTai r (noteUndo s.scn.nextOrder j.kvNs s')
        let s' := { s' with scn := { s'.scn with nextOrder := s'.scn.nextOrder + 1 } }
        onJob tag (fun j => { j with objects := j.objects + 1, bytes := j.bytes + f.len }) s'
  | _, _ => skip

/-- One version of an export is written, or left out (R158, R159): damaged ones only with OPTS.DAMAGED. [DEDUCED: log entry 87] -/
def exportFile (tag : Nat) (j : ArcJob) (f : ArcFile) (s : State) : State :=
  let damagedToo := (s.tw tag 0x7018 2).testBit 8
  let id := j.todo.headD 0
  let v := (Tab.find s.obj.ns j.kvNs).bind (fun n => Tab.find n.vers id)
  let ok := f.checksPass && !((v.map (fun v => v.damaged)).getD true)
  let start := (s.reg64 (tenantKey tag 0x7010)) * 4096
  if ok ∨ (damagedToo ∧ v.isSome) then
    let s := writeBag j.bagNs (start + j.bytes) f.tarBytes s.scn.nextOrder (noteUndo s.scn.nextOrder j.bagNs s)
    let s := { s with scn := { s.scn with nextOrder := s.scn.nextOrder + 1 } }
    onJob tag (fun j => { j with objects := j.objects + 1, bytes := j.bytes + f.tarBytes.length, todo := j.todo.tail }) s
  else onJob tag (fun j => { j with failed := j.failed + 1, todo := j.todo.tail }) s

/-- Is an import's next file held back, because its Store would spill while foreground reclamation runs (R176)? [DEDUCED: log entry 202] -/
def spillDeferred (j : ArcJob) (f : ArcFile) (s : State) : Bool :=
  match Tab.find s.obj.ns j.kvNs with
  | some n =>
    let (_, r, _) := reserveStore n f.len s
    decide (s.trl.freeFrac < s.fgThreshold) && (r.map (fun r => r.spilled)).getD false
  | none => false

/-- Would the next bytes of an export lie beyond the bag's namespace (R161)? [DEDUCED: log entry 200] -/
def beyondBag (tag : Nat) (j : ArcJob) (f : ArcFile) (s : State) : Bool :=
  match Tab.find s.obj.ns j.bagNs with
  | some n => decide (n.nsze * 4096 < s.reg64 (tenantKey tag 0x7010) * 4096 + j.bytes + f.tarBytes.length)
  | none => true

/-- A job's file boundary (R158-R161): a version exported or a file imported; the job stops on ABORT, at the end of the bag
namespace, or at its last file, when an export posts the tag manifest's digest (R159). [DEDUCED: log entry 200] -/
def doArcFileDone (tag : Nat) (f : ArcFile) (s : State) : State :=
  let j := s.job tag
  match j.phase with
  | .exporting =>
    if f.endReached ∨ beyondBag tag j f s then onJob tag (fun j => { j with phase := .idle, err := 3, todo := [] }) s
    else
      let s := exportFile tag j f s
      if j.abort then onJob tag (fun j => { j with phase := .idle, err := 6, todo := [] }) s
      else if f.last then
        let sha512 := (s.tw tag 0x7018 2).testBit 1
        let pub := ((Tab.find s.obj.ns j.kvNs).map (fun n => n.services.testBit 3)).getD false
        let s := postResult { kind := 2, result := 0, alg := if sha512 then 1 else 0, tag := tag, nsid := j.kvNs, key := [],
                              objId := 0, digest := f.tagDigest, pub := pub } s
        onJob tag (fun j => { j with phase := .idle, todo := [] }) s
      else s
  | .importSecond =>
    if spillDeferred j f s then s else
    let s := importFile tag j f s
    if j.abort then onJob tag (fun j => { j with phase := .idle, err := 6 }) s
    else if f.last then onJob tag (fun j => { j with phase := .idle, oxum := f.oxumBad }) s
    else s
  | _ => s

/-! ### What the CBD_, TW_CB, TW_ARC and TW_TLY_PR registers show (R157, R162, R357) -/

/-- The 128 bytes of a result entry (R155). -/
def resultBytes (e : ResultEntry) : Bytes :=
  leBytes 8 e.seq ++ leBytes 1 e.gen ++ leBytes 1 e.kind ++ leBytes 1 e.result ++ leBytes 1 e.alg ++ leBytes 2 e.tag ++
  leBytes 1 e.digestLen ++ leBytes 1 0 ++ leBytes 4 e.nsid ++ leBytes 1 e.key.length ++ leBytes 3 0 ++ padTo e.key 16 ++
  leBytes 8 e.objId ++ leBytes 8 e.cue ++ leBytes 8 0 ++ padTo ((digestBytes e.digest).take e.digestLen) 64

/-- The entry with a sequence number, and GONE: it has been removed (R156). -/
def findResult (l : List ResultEntry) (next seq : Nat) : Option ResultEntry × Bool :=
  match l.find? (fun e => e.seq == seq) with
  | some e => (some e, false)
  | none => (none, decide (seq < next))

/-- The oldest number present. -/
def firstResult (l : List ResultEntry) (next : Nat) : Nat := ((l.head?).map (fun e => e.seq)).getD next

/-- Registers that show a list of results: first, next, status, and the entry at `entry`. -/
def boardView (l : List ResultEntry) (next cursor base entry o : Nat) : Option Nat :=
  let r := findResult l next cursor
  if o = base then some (firstResult l next % 2 ^ 32)
  else if o = base + 4 then some (firstResult l next / 2 ^ 32)
  else if o = base + 8 then some (next % 2 ^ 32)
  else if o = base + 12 then some (next / 2 ^ 32)
  else if o = base + 0x18 then some (flag r.2 1 + flag r.1.isSome 0)
  else if entry ≤ o ∧ o < entry + 128 then some ((r.1.map (fun e => leAt (resultBytes e) (o - entry) 4)).getD 0)
  else none

/-- The CBD_ registers. -/
def cbdView (s : State) (o : Nat) : Option Nat :=
  if o = 0x780020 then some s.callBoardRec.1
  else if o = 0x780024 then some s.callBoardRec.2
  else boardView s.obj.board s.obj.boardNext s.obj.cursor 0x780000 0x780100 o

/-- The Call Board, private results and archive registers of a tenant window. -/
def twObjView (s : State) (tag o : Nat) : Option Nat :=
  let j := s.job tag
  let a := Tab.at s.obj.privates tag {}
  let st := match j.phase with | .idle => 0 | .exporting => 1 | .importFirst => 2 | .importSecond => 3 | .lookup => 4
  if 0x2000 ≤ o ∧ o < 0x2200 then
    let mine := s.obj.board.map (fun e => if s.isSealed tag then { e with cue := s.tenantCue tag e.cue } else e)
    boardView mine s.obj.boardNext (Tab.at s.obj.tenantCursor tag 0) 0x2000 0x2100 o
  else if 0x1800 ≤ o ∧ o < 0x1A00 then boardView a.recs a.next a.cursor 0x1800 0x1900 o
  else if o = 0x7004 then some (flag j.oxum 16 + field j.err 8 8 + st)
  else if o = 0x7050 then some j.objects
  else if o = 0x7054 then some j.failed
  else if o = 0x7058 then some (j.bytes % 2 ^ 32)
  else if o = 0x705C then some (j.bytes / 2 ^ 32)
  else if 0x7100 ≤ o ∧ o < 0x7200 then some (leAt (padTo j.prov 256) (o - 0x7100) 4)
  else none

end Sys2Proof.Machine
end

