-- ==== Sys2Proof/Machine/Cipher.lean ====
section
/-! DEFINITION. The modes of Scrim over one AES block (15_scrim_and_keys.md, R383, R384, R386): XTS with ciphertext stealing, GCM with
its lengths, CMAC with its subkeys, and the counter-mode KDF. -/
namespace Sys2Proof.Machine

/-- `n` big-endian bytes of a number. -/
def beBytes (n v : Nat) : Bytes := (leBytes n v).reverse

/-- Two byte strings combined bit by bit. -/
def xorBytes (a b : Bytes) : Bytes := List.zipWith (fun x y => x ^^^ y) a b

/-- One block enciphered. -/
def aesBlock (k : BitVec 256) (b : Bytes) : Bytes := beBytes 16 (Config.aes k (BitVec.ofNat 128 (beNat b))).toNat

/-- One block deciphered. -/
def aesBlockInv (k : BitVec 256) (b : Bytes) : Bytes := beBytes 16 (Config.aesInverse k (BitVec.ofNat 128 (beNat b))).toNat

/-! ### XTS (IEEE 1619) -/

/-- The next block's tweak: doubled in GF(2^128), as a little-endian number. -/
def xtsNext (t : Nat) : Nat := (2 * t) % 2 ^ 128 ^^^ (if bit t 127 then 0x87 else 0)

/-- One block between its tweaks. -/
def xtsBlock (f : Bytes → Bytes) (t : Nat) (b : Bytes) : Bytes := xorBytes (f (xorBytes b (leBytes 16 t))) (leBytes 16 t)

/-- The last two blocks of a data unit whose length is no multiple of 16: ciphertext stealing, the tweaks in turn when deciphering. -/
def xtsSteal (f : Bytes → Bytes) (dec : Bool) (t : Nat) (l : Bytes) : Bytes :=
  let t2 := xtsNext t
  let cc := xtsBlock f (if dec then t2 else t) (l.take 16)
  let tail := l.drop 16
  let r := tail.length
  xtsBlock f (if dec then t else t2) (tail ++ cc.drop r) ++ cc.take r

/-- The blocks of a data unit; `fuel` bounds them. -/
def xtsBlocks (f : Bytes → Bytes) (dec : Bool) : Nat → Nat → Bytes → Bytes
  | 0, _, _ => []
  | n + 1, t, l =>
    if l.length < 16 then []
    else if 16 < l.length ∧ l.length < 32 then xtsSteal f dec t l
    else xtsBlock f t (l.take 16) ++ xtsBlocks f dec n (xtsNext t) (l.drop 16)

/-- One data unit under a 512-bit key, data key first. -/
def xtsUnit (dec : Bool) (key : BitVec 512) (tweak : Nat) (l : Bytes) : Bytes :=
  let k1 := (key >>> 256).setWidth 256
  let k2 := key.setWidth 256
  let t := leNat (aesBlock k2 (leBytes 16 tweak))
  xtsBlocks (if dec then aesBlockInv k1 else aesBlock k1) dec (l.length / 16 + 1) t l

/-- The tweak of the data unit `n` after one: bits [42:0] incremented (R384). -/
def tweakAfter (n t : Nat) : Nat := t / 2 ^ 43 * 2 ^ 43 + (t + n) % 2 ^ 43

/-- `n` data units of `du` bytes in order. -/
def xtsUnits (dec : Bool) (key : BitVec 512) (du : Nat) : Nat → Nat → Bytes → Bytes
  | 0, _, _ => []
  | n + 1, t, l => xtsUnit dec key t (l.take du) ++ xtsUnits dec key du n (tweakAfter 1 t) (l.drop du)

/-! ### GCM (SP 800-38D) -/

/-- One step of the product in GF(2^128). -/
def gmulStep (x : Nat) (p : Nat × Nat) (i : Nat) : Nat × Nat :=
  (if bit x (127 - i) then p.1 ^^^ p.2 else p.1, if bit p.2 0 then (p.2 / 2) ^^^ (0xE1 * 2 ^ 120) else p.2 / 2)

/-- The product in GF(2^128), bits in GCM's order. -/
def gmul (x y : Nat) : Nat := ((List.range 128).foldl (gmulStep x) (0, y)).1

/-- A byte string padded with zeroes to whole blocks. -/
def padBlocks (l : Bytes) : Bytes := padTo l (16 * ceilDiv l.length 16)

/-- GHASH over whole blocks, `n` of them. -/
def ghash (h : Nat) : Nat → Nat → Bytes → Nat
  | 0, y, _ => y
  | n + 1, y, l => ghash h n (gmul (y ^^^ beNat (l.take 16)) h) (l.drop 16)

/-- A counter block of a 96-bit IV. -/
def ctrBlock (iv : Bytes) (i : Nat) : Bytes := padTo iv 12 ++ beBytes 4 i

/-- The counter stream applied from byte `off` of the message, a multiple of 16. -/
def gcmStream (k : BitVec 256) (iv : Bytes) (off : Nat) (l : Bytes) : Bytes :=
  xorBytes l (((List.range (ceilDiv l.length 16)).map (fun i => aesBlock k (ctrBlock iv (2 + off / 16 + i)))).flatten)

/-- The tag of a message by its ciphertext: the hardware appends the lengths (R383). -/
def gcmTag (k : BitVec 256) (iv aad ct : Bytes) : Bytes :=
  let h := beNat (aesBlock k (List.replicate 16 0))
  let m := padBlocks aad ++ padBlocks ct ++ beBytes 8 (8 * aad.length) ++ beBytes 8 (8 * ct.length)
  xorBytes (beBytes 16 (ghash h (m.length / 16) 0 m)) (aesBlock k (ctrBlock iv 1))

/-! ### CMAC (SP 800-38B) and the KDF (SP 800-108r1) -/

/-- Doubling for the subkeys. -/
def cmacDouble (v : Nat) : Nat := (2 * v) % 2 ^ 128 ^^^ (if bit v 127 then 0x87 else 0)

/-- Chained blocks, `n` of them. -/
def cbcChain (k : BitVec 256) : Nat → Bytes → Bytes → Bytes
  | 0, c, _ => c
  | n + 1, c, l => cbcChain k n (aesBlock k (xorBytes c (l.take 16))) (l.drop 16)

/-- CMAC-AES-256: a complete final block masked with K1, else 10* padding and K2 (R383). -/
def cmac (k : BitVec 256) (l : Bytes) : Bytes :=
  let k1 := cmacDouble (beNat (aesBlock k (List.replicate 16 0)))
  let n := max 1 (ceilDiv l.length 16)
  let last := l.drop (16 * (n - 1))
  let fin := if last.length = 16 then xorBytes last (beBytes 16 k1)
    else xorBytes (padTo (last ++ [0x80]) 16) (beBytes 16 (cmacDouble k1))
  cbcChain k n (List.replicate 16 0) (l.take (16 * (n - 1)) ++ fin)

/-- The 32-byte context label of a request (R386). -/
def contextLabel (r : DeriveReq) : Bytes :=
  let tenantKey := r.purpose == 3 || r.purpose == 4
  leBytes 1 1 ++ leBytes 1 r.purpose ++ leBytes 2 0 ++ leBytes 2 r.tenant ++ leBytes 2 0 ++
  leBytes 4 (if r.purpose ≤ 2 then r.nsid else 0) ++ leBytes 4 r.epoch ++ leBytes 4 (if tenantKey then r.index else 0) ++
  List.replicate 12 0

/-- Bits of the key of a purpose: 512 for XTS, else 256 (R386). -/
def keyBits (purpose : Nat) : Nat := if purpose = 0 ∨ purpose = 2 then 512 else 256

/-- A key by the counter-mode KDF with CMAC-AES-256 (R386); a 256-bit key is in the low bits. -/
def kdf (root : BitVec 256) (label context : Bytes) (bitsOut : Nat) : BitVec 512 :=
  BitVec.ofNat 512 (beNat ((List.range (bitsOut / 128)).map (fun i =>
    cmac root (beBytes 4 (i + 1) ++ label ++ [0] ++ context ++ beBytes 4 bitsOut))).flatten)

end Sys2Proof.Machine
end

