-- ==== Sys2Proof/Machine/Stage.lean ====
section
/-! DEFINITION. The Stage Manager's commands (11_stage_manager.md, R288-R307): rings and batches, dispatch to places, sealed windows. -/
namespace Sys2Proof.Machine

/-! ### DRAM bytes that device units read and write -/

/-- Bytes of DRAM by device address. -/
def State.dramRead (s : State) (a n : Nat) : Bytes := memRead s.dram a n

/-- Bytes of DRAM written; a word that they cover whole is clean again (R433). -/
def dramStore (a : Nat) (b : Bytes) (s : State) : State :=
  { s with
    dram := memWrite s.dram a b
    dmc := { s.dmc with words := s.dmc.words.filter (fun w => !decide (a ≤ 8 * w.1 ∧ 8 * w.1 + 8 ≤ a + b.length)) } }

/-! ### Rings (R306, R307) -/

/-- Keys of a ring's registers. -/
def ringBase (r : Nat) : Nat := 0x400100 + 0x20 * r
def ringCtrl (r : Nat) : Nat := 0x400108 + 0x20 * r

/-- A ring's entries (SIZE) and whether it is enabled. -/
def State.ringSize (s : State) (r : Nat) : Nat := 2 ^ bits (s.reg (ringCtrl r) 0) 4 0
def State.ringOn (s : State) (r : Nat) : Bool := (s.reg (ringCtrl r) 0).testBit 31

/-- A submission ring. -/
def State.ring (s : State) (r : Nat) : Ring := Tab.at s.smg.rings r {}

/-- Entries from one index to another, indexes counting on modulo 2^16. [DEDUCED: log entry 116] -/
def ahead (h t : Nat) : Nat := (t + 65536 - h) % 65536

/-- A ring changed. -/
def onRing (r : Nat) (f : Ring → Ring) (s : State) : State :=
  onSmg (fun g => { g with rings := Tab.update g.rings r {} f }) s

/-- TAIL is written (R307): too far ahead it is discarded with EV226; on an enabled ring that is not empty it may only advance. [DEDUCED: log entry 116] -/
def doRingTailWrite (ring val : Nat) (s : State) : State :=
  if ring < 16 ∧ writable s false then
    let v := val % 65536
    let g := s.ring ring
    if s.ringSize ring < ahead g.head v then raiseObj 226 ring 0 s
    else if s.ringOn ring ∧ g.head ≠ g.tail ∧ ahead g.head v < ahead g.head g.tail then s
    else onRing ring (fun g => { g with tail := v }) s
  else s

/-- BASE or CTRL of a ring is written (R306, R307): register 0 BASE_LO, 1 BASE_HI, 2 CTRL. BASE and SIZE of an enabled ring that is not
empty stay as they are. -/
def doSmgRingCtrlWrite (q : Requester) (ring reg : Nat) (val : W32) (s : State) : State :=
  if ring < 16 ∧ mayReach s q .house ∧ writable s false then
    let g := s.ring ring
    let busy := s.ringOn ring && g.head != g.tail
    if reg = 0 then holdLow q (ringBase ring) (val &&& 0xFFFFFFC0) s
    else if reg = 1 then if busy then useLow q (ringBase ring) s else takeHigh q (ringBase ring) val s
    else if reg = 2 then
      let same := bits val.toNat 4 0 == bits (s.reg (ringCtrl ring) 0) 4 0
      if busy && !same then s else storeRw .house (ringCtrl ring) val.toNat s
    else s
  else s

/-! ### Batches (R287-R289) -/

/-- A task descriptor's fields (R287). [DEDUCED: log entry 115] -/
def taskOf (b : Bytes) : Task :=
  let f := leAt b 3 1
  { unit := leAt b 0 1, list := leAt b 1 1 % 64, dep := leAt b 2 1, release := f.testBit 0, last := f.testBit 1,
    affine := f.testBit 2, delay := f.testBit 3, timed := f.testBit 4, tag := leAt b 4 2 % 2 ^ 13, cls := leAt b 6 1 % 4,
    dlist := leAt b 7 1 % 8, seq := leAt b 8 4
    scene := if leAt b 0xC 4 = noneField then none else some (leAt b 0xC 4 % 2 ^ 17)
    succs := (List.range 6).map (fun i => leAt b (0x10 + 4 * i) 4)
    due := leAt b 0x28 8, job := leAt b 0x30 8, route := leAt b 0x38 2 % 2 ^ 12, rep := leAt b 0x3C 4 }

/-- A local reference: bit 31 set, and not the value for none (R287). -/
def isLocal (h : Nat) : Bool := h.testBit 31 && h != noneField

/-- Is a descriptor malformed (R289): `n` the batch's COUNT, `k` its place, `tag` the header's tag, `flow` whether there is one? [DEDUCED: log entry 114] -/
def badDesc (s : State) (n k tag : Nat) (flow : Bool) (b : Bytes) : Bool :=
  let t := taskOf b
  let reserved := decide (64 ≤ leAt b 1 1) || decide (32 ≤ leAt b 3 1) || decide (2 ^ 13 ≤ leAt b 4 2) || decide (4 ≤ leAt b 6 1) ||
    decide (8 ≤ leAt b 7 1) || decide (2 ^ 12 ≤ leAt b 0x38 2) || leAt b 0x3A 2 != 0 ||
    (leAt b 0xC 4 != noneField && decide (2 ^ 17 ≤ leAt b 0xC 4))
  let mask := ((s.readyList t.list).map (fun r => r.classes)).getD 0
  reserved || t.succs.any (fun h => isLocal h && (decide (n ≤ h % 256) || h % 256 == k)) ||
    (decide (20 ≤ t.unit) && t.unit != 0xFF) || !mask.testBit t.cls || (t.delay && t.timed) || (t.release && !flow) || t.tag != tag

/-- The batch result (R288): 16 bytes, then the handles. -/
def writeResult (a st flow : Nat) (handles : List Nat) (s : State) : State :=
  dramStore a (leBytes 1 st ++ List.replicate 3 0 ++ leBytes 4 flow ++ List.replicate 8 0 ++
    (handles.map (fun h => leBytes 4 h)).flatten) s

/-- A batch leaves its ring: HEAD moves past it. -/
def passBatch (ring n : Nat) (s : State) : State :=
  onRing ring (fun g => { g with head := (g.head + 1 + n) % 65536, stall := 0 }) s

/-- A refused batch: its result and EV226, and nothing of it exists (R289). [DEDUCED: log entry 114] -/
def refuseBatch (ring n result st flow tag : Nat) (s : State) : State :=
  raiseObj 226 ring tag (writeResult result st flow [] (passBatch ring n s))

/-- The successors of a descriptor as handles: local references resolved, none dropped; a stale handle is dropped and counts EV224
with CODE 1 (R289). -/
def linkTask (handles : List Nat) (tag : Nat) (t : Task) (s : State) : Task × State :=
  t.succs.foldl (fun acc h =>
    let (t, s) := acc
    if h = noneField then (t, s)
    else if isLocal h then ({ t with succs := t.succs ++ [handles.getD (h % 256) 0] }, s)
    else
      match s.smg.resolve h with
      | some _ => ({ t with succs := t.succs ++ [h] }, s)
      | none => (t, raise 224 1 h 0 tag s)) ({ t with succs := [] }, s)

/-- A batch is created whole (R289): its tasks, their links at once, then those with no dependence made ready. [DEDUCED: log entries 114, 115] -/
def createBatch (ds : List Bytes) (tag : Nat) (flow : Option Nat) (s : State) : List Nat × State :=
  let (ixs, s) := ds.foldl (fun acc b =>
    let t := { taskOf b with flow := flow }
    let (i, s) := addTask t acc.2
    (acc.1 ++ [i], s)) (([] : List Nat), s)
  let handles := ixs.map (fun i => s.smg.handle i)
  let s := ixs.foldl (fun s i =>
    match Tab.find s.smg.tasks i with
    | some t =>
      let (t, s) := linkTask handles tag t s
      onTask i (fun _ => t) s
    | none => s) s
  let (w, s) := ixs.foldl (fun acc i =>
    match Tab.find acc.2.smg.tasks i with
    | some t =>
      if t.dep ≠ 0 then acc
      else if t.timed then
        let (late, s) := judgeTimed [i] acc.2
        ({ acc.1 with done := acc.1.done ++ late }, s)
      else makeReady i t acc.1 acc.2
    | none => acc) (({ done := [], timed := [] } : Work), s)
  (handles, settleTasks w s)

/-- Why a batch waits at the head of its ring. -/
def stallRing (ring why : Nat) (s : State) : State := onRing ring (fun g => { g with stall := why }) s

/-- The batch at HEAD of a ring is created or refused, or waits: for Intermission, a flow ID or room in the pool (R289, R306, R307). -/
def doBatchCreate (ring : Nat) (s : State) : State :=
  let g := s.ring ring
  let n := s.ringSize ring
  let entry := fun (i : Nat) => s.dramRead (s.reg64 (ringBase ring) + 64 * ((g.head + i) % n)) 64
  let h := entry 0
  let count := leAt h 0 2
  let tag := leAt h 4 2 % 2 ^ 13
  let flow := leAt h 0x10 4
  let result := leAt h 8 8
  let inRange := decide (1 ≤ count ∧ count ≤ 256)
  let need := if inRange then 1 + count else 1
  if !s.ringOn ring || decide (16 ≤ ring) || g.head == g.tail || decide (ahead g.head g.tail < need) || !s.unitsRun then s
  else if s.prk.intermission.contains 1 then stallRing ring 3 s
  else
    let ds := (List.range count).map (fun i => entry (1 + i))
    let badHeader := leAt h 2 2 != 0 || leAt h 6 2 != 0 || !allZero (slice h 0x18 40) || decide (2 ^ 13 ≤ leAt h 4 2)
    if !inRange then refuseBatch ring 0 result 1 flow tag s
    else if badHeader || ((List.range count).zip ds).any (fun p => badDesc s count p.1 tag (flow != 0xFFFFFFFE) p.2) then
      refuseBatch ring count result 1 flow tag s
    else if tag ≠ 0 ∧ (s.tenantRec tag).isNone then refuseBatch ring count result 3 flow tag s
    else
      let known := ((Tab.find s.smg.flows flow).map (fun w => w.tag == tag)).getD false
      if flow ≠ noneField ∧ flow ≠ 0xFFFFFFFE ∧ !known then refuseBatch ring count result 2 flow tag s
      else
        let fresh := Tab.freeKey s.smg.flows (min 65536 s.flowPool) 0
        if flow = noneField ∧ fresh.isNone then stallRing ring 2 s
        else if !taskRoom s tag count then stallRing ring 1 s
        else
          let f : Option Nat := if flow = noneField then fresh else if flow = 0xFFFFFFFE then none else some flow
          let s := match flow == noneField, f with
            | true, some k => onSmg (fun g => { g with flows := Tab.put g.flows k { next := leAt h 0x14 4, tag := tag } }) s
            | _, _ => s
          let (hs, s) := createBatch ds tag f (passBatch ring count s)
          goOn (writeResult result 0 (f.getD 0xFFFFFFFE) hs s)

/-! ### Places, Bobbins and dispatch (R293-R295, R312) -/

/-- Places of a unit: lanes, pipelines, contexts or decoders (R293); of the Bobbins, 16 queue entries each. [DESIGN CHOICE: log entry 113] -/
def unitPlaces : Nat → Nat
  | 0 => 4
  | 1 => 1
  | 2 => 1536
  | 3 => 2
  | 6 => 6
  | 7 => 16
  | 8 => 16
  | 9 => 1
  | 11 => 32
  | 12 => 64
  | 13 => 8
  | 14 => 64
  | 16 => 4
  | _ => 1

/-- Is a place of a unit taken? -/
def placeTaken (s : State) (unit place : Nat) : Bool :=
  s.smg.tasks.any (fun p => p.2.unit == unit && p.2.phase == .running place)

/-- The domain that carries a unit's work is stopped (R48, R51, R294). -/
def State.unitStopped (s : State) (u : Nat) : Bool :=
  (u == 9 && s.clk.stopped.contains 6) || (u == 14 && s.clk.stopped.contains 7) || (u == 16 && s.clk.stopped.contains 11)

/-- The sets of a purpose that serve a tenant: owned by it, or shared (R295). -/
def State.setsFor (s : State) (user : Bool) (tag : Nat) : List BobbinSet :=
  ((s.cfg.ofType 0x0501).map (fun p => bobbinSetOf p.2)).filter (fun b =>
    b.userPrograms == user && (!user || b.owner == 0 || b.owner == tag))

/-- Does a BOBBIN_SET name the Bobbin? -/
def State.inAnySet (s : State) (b : Nat) : Bool := (s.cfg.ofType 0x0501).any (fun p => (bobbinSetOf p.2).mask.testBit b)

/-- Is a logical Bobbin in service and not retiring (R311)? [DEDUCED: log entry 121] -/
def State.bobServes (s : State) (b : Nat) : Bool :=
  Tab.has s.bob.map b && !(s.bob.retiring.any (fun r => r.logical == b)) && !s.bob.retireNext.any (fun p => p.1 == b)

/-- The eligible set of a Bobbin task (R295): purpose 1 for class 1; else purpose 0, with the Bobbins of no set and those moved to
data-path work (R311). -/
def State.eligible (s : State) (t : Task) : List Nat :=
  (List.range 96).filter (fun b => s.bobServes b &&
    if t.cls = 1 then (s.setsFor true t.tag).any (fun x => x.mask.testBit b) && !s.bob.moved.contains b
    else (s.setsFor false t.tag).any (fun x => x.mask.testBit b) || !s.inAnySet b || s.bob.moved.contains b)

/-- Tasks a Bobbin holds. -/
def State.bobHeld (s : State) (b : Nat) : List Nat := Tab.at s.bob.queues b []

/-- The Bobbin that takes a task: the flow's remembered one while it holds fewer than the list's threshold, else the one that holds the
fewest, the lowest of equals (R295); none where no queue entry is free. Answers whether it was the remembered one. -/
def pickBobbin (s : State) (t : Task) : Option (Nat × Bool) :=
  let el := (s.eligible t).filter (fun b => decide ((s.bobHeld b).length < 16))
  let th := ((s.readyList t.list).map (fun r => r.affinity)).getD 0
  let kept : Option Nat := if t.affine then (t.flow.bind (fun f => Tab.find s.smg.flows f)).bind (fun w => w.bob) else none
  match kept.filter (fun b => el.contains b && decide ((s.bobHeld b).length < th)) with
  | some b => some (b, true)
  | none =>
    (el.foldl (fun best b =>
      match best with
      | some c => if (s.bobHeld b).length < (s.bobHeld c).length then some b else some c
      | none => some b) none).map (fun b => (b, false))

/-- The engine of a unit with sealed windows: 0 Scrim, 1 Smock, 2 Tally, 3 ASU (R300). -/
def engineOf : Nat → Option Nat
  | 6 => some 0
  | 8 => some 1
  | 7 => some 2
  | 9 => some 3
  | _ => none

/-- The unit of an engine. -/
def engineUnit : Nat → Nat
  | 0 => 6
  | 1 => 8
  | 2 => 7
  | _ => 9

/-- Is a place of an engine subject to windows: every one, but of Tally only the lanes reserved for sealed slots, from lane 0 (R301,
R358)? -/
def sealPlace (s : State) (e place : Nat) : Bool := e != 2 || decide (place < s.tallyLanes.2)

/-- Is a window of the engine open? -/
def State.windowOpen (s : State) (e : Nat) : Bool :=
  (Tab.find s.smg.now e).any (fun w => w.open' && decide (w.start ≤ s.cue.now ∧ s.cue.now < w.stop))

/-- JOB of the tasks of tenant-window slots: no DRAM address, but this and the slot (R354). -/
def slotJob : Nat := 2 ^ 64

/-- Is a task the first part of a Tally or Scrim message that takes a context (R352, R354, R401)? -/
def takesCtx (s : State) (t : Task) : Bool :=
  if slotJob ≤ t.job then (Tab.at s.tly.slots (t.job - slotJob) {}).ctx.isNone
  else (t.unit == 7 || t.unit == 6) && bit (s.jobField t 1 1) 0 && s.jobField t 2 2 == 0xFFFF

/-- Is a task on a place of its unit, or saved from one? [DESIGN CHOICE: log entry 138] -/
def Task.onPlace (t : Task) : Bool := match t.phase with | .running _ => true | .saved => true | _ => false

/-- Tags of the tenants that hold the saved contexts of an engine (R349, R397, R409): messages between parts, and started tasks that take
one; of Smock every started task. -/
def State.ctxTags (s : State) (unit : Nat) : List Nat :=
  let started := (s.smg.tasks.filter (fun p => p.2.unit == unit && p.2.onPlace && (unit == 8 || takesCtx s p.2))).map (fun p => p.2.tag)
  if unit = 7 then s.tly.ctxs.map (fun p => p.2.tag) ++ started
  else if unit = 6 then s.scr.ctxs.map (fun p => p.2.tag) ++ started
  else started

/-- Has the pool of a tenant a free context: its share of the 128 set aside, or the rest; of Tally at most TLY_CTX_CAP for a tenant that
is not sealed (R349, R409)? [DESIGN CHOICE: log entry 138] -/
def ctxRoom (s : State) (unit tag : Nat) : Bool :=
  let l := s.ctxTags unit
  let mine := (l.filter (fun t => t == tag)).length
  let n := s.sealedTags.length
  if s.isSealed tag then decide (mine < 128 / max 1 n)
  else decide ((l.filter (fun t => !s.isSealed t)).length < (if n = 0 then 256 else 128)) &&
    (unit != 7 || decide (mine < s.reg 0x700014 0x20))

/-- Does a task fit a place of its unit: Smock's compress lanes are places 0-7 and its decompress lanes 8-15, maintenance of a tenant that
is not sealed runs on the highest-numbered lanes only, and a Tally lane out of service takes none (R337, R351, R359)? [DEDUCED: log entry 117] -/
def placeFits (s : State) (place : Nat) (t : Task) : Bool :=
  let upkeep := t.cls == 2 && !s.isSealed t.tag
  if t.unit = 8 then
    let m := s.smockLanes
    let dec := s.jobField t 0 1 == 1
    (dec == decide (8 ≤ place)) && (!upkeep || decide (if dec then 16 ≤ place + m.2.1 else 8 ≤ place + m.1))
  else if t.unit = 7 then !s.tly.dead.contains place && (!upkeep || decide (16 ≤ place + s.tallyLanes.1))
  else true

/-- May a ready task start on a place of its unit now: the unit serves, its flow's turn has come; a sealed tenant's task starts only at
its window's start, and while a window is open no other tenant's starts on a place of it; an engine's context is there (R294, R296, R301,
R349, R397, R409). -/
def mayStart (s : State) (place : Nat) (t : Task) : Bool :=
  !s.prk.intermission.contains t.unit && !s.unitStopped t.unit && turnOf s.smg t == .go &&
  (match engineOf t.unit with
   | some e => !s.isSealed t.tag && !(sealPlace s e place && s.windowOpen e)
   | none => true) &&
  placeFits s place t && (!takesCtx s t || ctxRoom s t.unit t.tag) && (t.unit != 8 || ctxRoom s 8 t.tag) &&
  (t.unit != 2 || (pickBobbin s t).isSome)

/-- The oldest task of a ready list that may start on a place of a unit (R293, R294). -/
def oldestFor (s : State) (unit place l : Nat) : Option (Nat × Task) :=
  ((Tab.at s.smg.queues l []).filterMap (fun i => (Tab.find s.smg.tasks i).map (fun t => (i, t)))).find? (fun p =>
    p.2.unit == unit && mayStart s place p.2)

/-- The priority of a ready list. -/
def State.listPriority (s : State) (l : Nat) : Nat := ((s.readyList l).map (fun r => r.priority)).getD 0

/-- The task a free place takes (R293): of the lists of the highest priority that hold one, the next in turn. -/
def pickTask (s : State) (unit place : Nat) : Option (Nat × Nat × Task) :=
  let have' := (List.range 64).filterMap (fun l => (oldestFor s unit place l).map (fun p => (l, p)))
  let top := have'.foldl (fun m x => max m (s.listPriority x.1)) 0
  let l := have'.filter (fun x => s.listPriority x.1 == top)
  let lastTurn := Tab.find s.smg.turns (unit * 256 + top)
  match l.find? (fun x => match lastTurn with | some k => decide (k < x.1) | none => true) with
  | some x => some x
  | none => l.head?

/-- An invocation's dispatch: its cue as pq_cue_now gives it (R327). -/
def startInv (i tag : Nat) (s : State) : State :=
  { s with bob := { s.bob with invs := Tab.modify s.bob.invs (s.smg.handle i) (fun v => { v with cue := s.tenantCue tag s.cue.now }) } }

/-- Where an engine's descriptor names its completion record, and the record's bytes (R345, R352, R401). -/
def recordAt (unit : Nat) : Nat × Nat := if unit = 6 then (0x38, 32) else if unit = 7 then (0x20, 96) else (0x28, 16)

/-- An engine's completion record is written. -/
def writeRecord (t : Task) (b : Bytes) (s : State) : State :=
  let r := recordAt t.unit
  if slotJob ≤ t.job then s else dramStore (s.jobField t r.1 8) (padTo b r.2) s

/-- An engine's job ends without its work: its record carries the status, its context is freed (R345, R352, R401). -/
def emptyRecord (t : Task) (st : Nat) (s : State) : State :=
  writeRecord t (leBytes 1 st ++ [0] ++ (if t.unit = 8 then [0, 0] else leBytes 2 (s.jobField t 2 2))) (freeJobCtx t s)

/-- A failed-predecessor task ends at once: an engine's job with 0x20 in its record, of any other unit with the status passed on
(R291). -/
def failedPred (t : Task) (s : State) : Nat × State :=
  if t.unit = 6 ∨ t.unit = 7 ∨ t.unit = 8 then (0x20, emptyRecord t 0x20 s) else (t.failed, s)

/-- A task takes its place (R293, R295, R296): its list is counted, its flow released, its Bobbin chosen and remembered; a
FAILED_PRED task completes at once with that status (R291). -/
def startTask (i place : Nat) (t : Task) (s : State) : State :=
  let s := count1 (selKey 0x400048 t.list) (onSmg (fun g => { g with queues := dropFrom i g.queues }) s)
  let s :=
    if t.unit = 2 then
      match pickBobbin s t with
      | some (b, hit) =>
        let s := if t.affine then count1 (if hit then 0x40002C else 0x400030) s else s
        let s := { s with
          bob := { s.bob with queues := Tab.update s.bob.queues b [] (fun l => l ++ [i]) }
          smg := { s.smg with flows := match t.flow with
            | some f => if t.affine then Tab.modify s.smg.flows f (fun w => { w with bob := some b }) else s.smg.flows
            | none => s.smg.flows } }
        startInv i t.tag (onTask i (fun t => { t with phase := .running b }) s)
      | none => s
    else onTask i (fun t => { t with phase := .running place }) s
  let s := match t.flow with | some f => if t.release then release f t.last s else s | none => s
  if t.failed = 0 then settleTasks { done := [], timed := [] } s
  else
    let (st, s) := failedPred t s
    settleTasks { done := [(i, st)], timed := [] } s

/-- A running task is saved at a block boundary; a save of Smock's is counted (R301, R358, EV260). -/
def saveTask (i : Nat) (t : Task) (s : State) : State :=
  let s := onTask i (fun t => { t with phase := .saved }) s
  if t.unit = 8 then raise 260 0 (s.smg.handle i) 0 t.tag (count1 0x800024 s) else s

/-- The running tasks of an engine that `p` names, by place, are saved. -/
def saveAll (unit : Nat) (p : Nat → Task → Bool) (s : State) : State :=
  s.smg.tasks.foldl (fun s x =>
    match x.2.phase with
    | .running k => if x.2.unit = unit ∧ p k x.2 then saveTask x.1 x.2 s else s
    | _ => s) s

/-- Windows that have ended: what still runs in them was saved at its last block boundary (R301). -/
def closeWindows (s : State) : State :=
  s.smg.now.foldl (fun s p =>
    if p.2.open' ∧ p.2.stop ≤ s.cue.now then
      saveAll (engineUnit p.1) (fun _ t => s.isSealed t.tag)
        (onSmg (fun g => { g with now := Tab.put g.now p.1 { p.2 with open' := false } }) s)
    else s) s

/-- A saved task of an ordinary tenant that resumes on a free place outside windows (R301, R413). -/
def pickSaved (s : State) (unit place : Nat) : Option Nat :=
  (s.smg.tasks.find? (fun p => p.2.unit == unit && p.2.phase == .saved && !s.isSealed p.2.tag && placeFits s place p.2 &&
    match engineOf unit with
    | some e => !(sealPlace s e place && s.windowOpen e)
    | none => true)).map (fun p => p.1)

/-- First parts that find no context of their pool wait on their ready list, each counted once: EV277, EV294 (R349, R397). -/
def noteCtxWaits (unit : Nat) (s : State) : State :=
  if unit ≠ 6 ∧ unit ≠ 7 then s
  else
    let seen := fun (s : State) => if unit = 7 then s.tly.waits else s.scr.waits
    let ready := ((s.smg.queues.map (fun p => p.2)).flatten.filterMap (fun i => (Tab.find s.smg.tasks i).map (fun t => (i, t)))).filter
      (fun p => p.2.unit == unit && p.2.failed == 0 && takesCtx s p.2 && !ctxRoom s unit p.2.tag)
    ready.foldl (fun s p =>
      let h := s.smg.handle p.1
      if (seen s).contains h then s
      else
        let old := (seen s).filter (fun k => (s.smg.resolve k).isSome)
        if unit = 7 then raise 277 0 h 0 p.2.tag (count1 0x70002C { s with tly := { s.tly with waits := old ++ [h] } })
        else raise 294 0 h 0 p.2.tag (count1 0x90002C { s with scr := { s.scr with waits := old ++ [h] } })) s

/-- A unit with a free place takes its task (R293). Of the Bobbins the place is the queue entry of the Bobbin that R295 chooses. [DESIGN CHOICE: log entry 113; DEDUCED: log entry 210] -/
def doTaskDispatch (unit place : Nat) (s : State) : State :=
  let s := noteCtxWaits unit (closeWindows s)
  if (unit ≠ 2 ∧ (unitPlaces unit ≤ place ∨ placeTaken s unit place)) ∨ 20 ≤ unit ∨ !s.unitsRun then s
  else
    match pickSaved s unit place with
    | some i => onTask i (fun t => { t with phase := .running place }) s
    | none =>
      match pickTask s unit place with
      | some (l, i, t) =>
        let s := onSmg (fun g => { g with turns := Tab.put g.turns (unit * 256 + s.listPriority l) l }) s
        startTask i place t s
      | none => s

/-- Is a running Bobbin task the one its Bobbin runs (R293)? -/
def State.runsNow (s : State) (i : Nat) (t : Task) : Bool :=
  match t.phase with
  | .running b => t.unit != 2 || (s.bobHeld b).head? == some i
  | _ => false

/-- A task is saved at its last block boundary before its window's end, or before another tenant's window (R301). -/
def doSealedWindowSave (h : Nat) (s : State) : State :=
  match s.smg.resolve h with
  | some (i, t) =>
    match t.phase, engineOf t.unit with
    | .running p, some e =>
      if s.sealedTags ≠ [] ∧ sealPlace s e p then saveTask i t s else s
    | _, _ => s
  | none => s

/-! ### Sealed windows (R300, R301, R413) -/

/-- W_E of an engine: its share of the slot period, in whole 1,024 ticks (R300). -/
def State.winLen (s : State) (e : Nat) : Nat := s.sealPlan.2.2.getD e 0 * s.sealPlan.2.1 / 256 / 1024 * 1024

/-- Window k of an engine under the plan in effect (R300, R301). -/
def State.winAt (s : State) (e k : Nat) : SealWin :=
  let l := s.sealedTags
  { k := k, tag := l.getD (k % (max 1 l.length)) 0, start := k * s.sealPlan.2.1, stop := k * s.sealPlan.2.1 + s.winLen e, open' := false }

/-- A window's start cue is posted from the Stage Manager's share; refused, the window stays idle and EV369 is recorded (R301). -/
def postWindow (e : Nat) (w : SealWin) (s : State) : State :=
  let (r, s') := postCue .stage { fire := w.start, target := engineUnit e, action := .window e, tag := w.tag } s
  match r.1 with
  | .noSlot => raiseObj 369 e w.tag (count1 0x400038 s)
  | _ => onSmg (fun g => { g with next := Tab.put g.next e w }) s'

/-- The start cues of windows that will not open under the plan in effect are given back (R413). -/
def dropWindowCues (s : State) : State :=
  { s with cue := { s.cue with slots := s.cue.slots.filter (fun q => match q.2.action with | .window _ => false | _ => true) } }

/-- The first windows after a change of the sealed set: at the first multiple of P at least the horizon ahead (R413). -/
def startWindows (s : State) : State :=
  let p := s.sealPlan.2.1
  let s := dropWindowCues (onSmg (fun g => { g with next := [] }) s)
  if s.sealedTags = [] ∨ p = 0 then s
  else
    let k := ceilDiv (s.cue.now + horizon) p
    (List.range 4).foldl (fun s e => if s.winLen e = 0 then s else postWindow e (s.winAt e k) s) s

/-- The owner's tasks that start or resume at a window's start: saved ones, then ready ones in the order of their lists, one a place. -/
def windowTasks (s : State) (e tag : Nat) : List (Nat × Task) :=
  let saved := s.smg.tasks.filter (fun p => p.2.unit == engineUnit e && p.2.tag == tag && p.2.phase == .saved)
  let ready := ((s.smg.queues.map (fun p => p.2)).flatten.filterMap (fun i => (Tab.find s.smg.tasks i).map (fun t => (i, t)))).filter
    (fun p => p.2.unit == engineUnit e && p.2.tag == tag && turnOf s.smg p.2 == .go &&
      !s.prk.intermission.contains p.2.unit && !s.unitStopped p.2.unit)
  saved ++ ready

/-- A window's places take its owner's tasks, each the first that fits it and has its context. [DEDUCED: log entry 117] -/
def seatWindow : List Nat → List (Nat × Task) → State → State
  | [], _, s => s
  | p :: ps, ts, s =>
    let fits := fun (x : Nat × Task) => placeFits s p x.2 &&
      (x.2.phase == .saved || ((!takesCtx s x.2 || ctxRoom s x.2.unit x.2.tag) && (x.2.unit != 8 || ctxRoom s 8 x.2.tag)))
    match ts.find? fits with
    | some x =>
      let s := if x.2.phase = .saved then onTask x.1 (fun t => { t with phase := .running p }) s else startTask x.1 p x.2 s
      seatWindow ps (ts.filter (fun y => y.1 != x.1)) s
    | none => seatWindow ps ts s

/-- A sealed window opens at its start cue (R301): every place of it is free, its owner's tasks take them, the next window's start cue is
posted; a window with none of them stays idle. [DEDUCED: log entry 117] -/
def fireWindow (e : Nat) (s : State) : State :=
  match Tab.find s.smg.next e with
  | none => s
  | some w =>
    let s := closeWindows s
    let s := onSmg (fun g => { g with
      now := Tab.put g.now e { w with open' := true }
      next := Tab.del g.next e }) (saveAll (engineUnit e) (fun p _ => sealPlace s e p) s)
    let places := (List.range (unitPlaces (engineUnit e))).filter (fun p => sealPlace s e p)
    let ts := windowTasks s e w.tag
    let s := if ts = [] then count1 0x400038 s else s
    let s := seatWindow places ts s
    if s.sealedTags = [] ∨ s.sealPlan.2.1 = 0 then s else postWindow e (s.winAt e (w.k + 1)) s

/-! ### What the SMG_ registers show (R306) -/

/-- The SMG_ registers. -/
def smgView (s : State) (o : Nat) : Option Nat :=
  let g := s.smg
  let l := s.reg 0x400040 0
  let d := s.reg 0x400050 0
  let tag := s.reg 0x400070 0
  let nextDue := ((Tab.at g.delays d []).head?.map (fun e => e.1)).getD 0
  if o = 0x400004 then
    some (flag (!s.sealedTags.isEmpty) 3 + flag (decide (g.free < 8192)) 2 +
      flag (s.prk.intermission.contains 1 && !s.prk.undrained.contains 1) 1 + flag (s.prk.intermission.contains 1) 0)
  else if o = 0x400008 then some g.free
  else if o = 0x400010 then some ((if s.prk.active.isNone then 65536 else min 65536 s.flowPool) - g.flows.length)
  else if o = 0x40001C then some s.scn.pressed.length
  else if o = 0x40003C then some (field s.sealedTags.length 13 16 + field (s.sealPlan.2.1 / 16000) 7 0)
  else if o = 0x400044 then
    some (field (s.listPriority l) 8 24 + field (((s.readyList l).map (fun r => r.classes)).getD 0) 4 20 +
      field (Tab.at g.queues l []).length 18 0)
  else if o = 0x400054 then some (Tab.at g.delays d []).length
  else if o = 0x400058 then some (s.delaySize d)
  else if o = 0x400060 then some (nextDue % 2 ^ 32)
  else if o = 0x400064 then some (nextDue / 2 ^ 32 % 2 ^ 32)
  else if o = 0x400074 then some (flag (s.scn.pressed.contains tag) 31 + flag (s.isSealed tag) 30 + field (s.tasksOf tag) 18 0)
  else if 0x400100 ≤ o ∧ o < 0x400300 then
    let r := (o - 0x400100) / 0x20
    let k := (o - 0x400100) % 0x20
    if k = 0xC then some (s.ring r).tail
    else if k = 0x10 then some (s.ring r).head
    else if k = 0x14 then some (s.ring r).stall
    else none
  else none

end Sys2Proof.Machine
end

