-- ==== Sys2Proof/Machine/Bobbin.lean ====
section
/-! DEFINITION. Bobbins and user programs (12_bobbins_programs.md, R308-R335): retirement, programs, Execute Program, helpers. -/
namespace Sys2Proof.Machine

/-! ### Retirement (R309-R312) -/

/-- A physical core. -/
def State.core (s : State) (k : Nat) : Core := Tab.at s.bob.cores k {}

/-- A core changed. -/
def onCore (k : Nat) (f : Core → Core) (s : State) : State := onBob (fun b => { b with cores := Tab.update b.cores k {} f }) s

/-- Is a logical Bobbin of data-path work: of a purpose 0 set, of no set, or moved (R311)? [DEDUCED: log entry 121] -/
def State.dataPath (s : State) (b : Nat) : Bool :=
  s.bob.moved.contains b || !((s.cfg.ofType 0x0501).any (fun p => (bobbinSetOf p.2).mask.testBit b && (bobbinSetOf p.2).userPrograms))

/-- The invocation that ran on a returned task of Bobbin `b` runs again from its start (R312, R528). -/
def restartInv (b i tag : Nat) (s : State) : State :=
  let h := s.smg.handle i
  if Tab.has s.bob.invs h then
    raise 442 0 b (((Tab.find s.bob.invs h).map (fun v => v.scene % 2 ^ 17)).getD 0xFFFFFFFF) tag (count1 0x500040 (count1 (tenantKey tag 0x401C)
      (onBob (fun b => { b with invs := Tab.modify b.invs h (fun v => { v with restarted := true, events := 0, charge := 0 }) }) s)))
  else s

/-- One task of a retired Bobbin returns to the front of its ready list; a released one keeps its release (R304). -/
def returnTask (i : Nat) (s : State) : State :=
  match Tab.find s.smg.tasks i with
  | some t =>
    if t.stopping then freeTask i s
    else onSmg (fun g => { g with
      tasks := Tab.put g.tasks i { t with phase := .ready, release := false }
      queues := Tab.update g.queues t.list [] (fun l => i :: l) }) s
  | none => s

/-- The tasks of a Bobbin return in their original order, the running one to start again; flows forget the Bobbin (R304, EV232). [DEDUCED: log entry 123] -/
def returnTasks (b : Nat) (s : State) : State :=
  let q := s.bobHeld b
  let s := match q with
    | i :: _ => match Tab.find s.smg.tasks i with
      | some t => if t.stopping then s else restartInv b i t.tag s
      | none => s
    | [] => s
  let s := onBob (fun z => { z with queues := Tab.del z.queues b }) s
  let s := q.reverse.foldl (fun s i => returnTask i s) s
  let s := onSmg (fun g => { g with flows := Tab.mapVals g.flows (fun _ w => if w.bob = some b then { w with bob := none } else w) }) s
  if q = [] then s else raise 232 0 b 0 0 s

/-- Logical Bobbins of data-path work in service. -/
def State.dataBobbins (s : State) : Nat := ((List.range 96).filter (fun b => Tab.has s.bob.map b && s.dataPath b)).length

/-- User-program Bobbins move to data-path work, the highest number first, until 8 serve; `fuel` bounds their number (R311). -/
def moveUser : Nat → State → State
  | 0, s => s
  | f + 1, s =>
    if 8 ≤ s.dataBobbins then s
    else
      match ((List.range 96).reverse).find? (fun b => Tab.has s.bob.map b && !s.dataPath b) with
      | some b => moveUser f (onBob (fun z => { z with moved := setAdd z.moved b }) s)
      | none => s

/-- The old core is retired with its cause (R310, R311). -/
def retireCore (k cause : Nat) (s : State) : State := onCore k (fun c => { c with role := 2, cause := cause }) s

/-- EV440 (R311, R528): a Bobbin's core `old` is retired, `new` took its place. [DEDUCED: log entry 122] -/
def noteRetired (r : Retiring) (old new : Nat) (s : State) : State := raise 440 r.cause r.logical (old % 256 + new * 256) 0 s

/-- With fewer than 8 Bobbins of data-path work in service, user-program Bobbins move: EV441 with their number (R311, R528). [DEDUCED: log entry 122] -/
def restoreData (s : State) : State :=
  let s' := moveUser 96 s
  let n := s'.dataBobbins - s.dataBobbins
  if n = 0 then s' else raise 441 0 n s'.dataBobbins 0 s'

/-- Steps 3 and 4 of a retirement: tasks returned, the lowest free Understudy loaded; with none free the number leaves service (R311). [DEDUCED: log entry 122] -/
def loadUnderstudy (r : Retiring) (s : State) : State :=
  let s := returnTasks r.logical s
  match (List.range 104).find? (fun k => (Tab.find s.bob.cores k).any (fun c => c.role == 1)) with
  | some k => onBob (fun b => { b with retiring := some { r with run := none, loading := some k }, retireState := 2 }) s
  | none =>
    let old := Tab.at s.bob.map r.logical 0
    let s := match Tab.find s.bob.map r.logical with | some k => retireCore k r.cause s | none => s
    let s := onBob (fun b => { b with map := Tab.del b.map r.logical, retiring := none, retireState := 4 }) s
    restoreData (noteRetired r old 0xFF s)

/-- A retirement begins: at once where nothing may run on, else when the running task has ended (R311). -/
def beginRetire (b cause : Nat) (s : State) : State :=
  let run : Option Nat := if cause = 5 then (s.bobHeld b).head?.map (fun i => s.smg.handle i) else none
  let r : Retiring := { logical := b, cause := cause, run := run, loading := none }
  let s := onBob (fun z => { z with retiring := some r, retireState := 1 }) s
  if run.isNone then loadUnderstudy r s else s

/-- A core fails while its Bobbin is in service: retired now, or when the retirement in progress has ended; its tasks return at once. -/
def failBobbin (b cause : Nat) (s : State) : State :=
  if !s.bobServes b then s
  else if s.bob.retiring.isSome then
    onBob (fun z => { z with retireNext := z.retireNext ++ [(b, cause)] }) (returnTasks b s)
  else beginRetire b cause s

/-- The next retirement that waited. -/
def nextRetire (s : State) : State :=
  match s.bob.retiring, s.bob.retireNext with
  | none, (b, cause) :: rest => beginRetire b cause (onBob (fun z => { z with retireNext := rest }) s)
  | _, _ => s

/-- The running task of a Bobbin retired by command has ended: its retirement goes on (R311). [DEDUCED: log entry 123] -/
def retireAdvance (s : State) : State :=
  match s.bob.retiring with
  | some r =>
    match r.run with
    | some h => if (s.smg.resolve h).isNone then nextRetire (loadUnderstudy { r with run := none } s) else s
    | none => s
  | none => s

/-- BOB_RETIRE_CTRL is written (R310, R311, R334). -/
def doBobRetire (val : W32) (s : State) : State :=
  if writable s false ∧ bits val.toNat 31 28 = 1 then
    let b := bits val.toNat 6 0
    if !Tab.has s.bob.map b then onBob (fun z => { z with retireErr := 1 }) s
    else if s.bob.retiring.isSome then onBob (fun z => { z with retireErr := 2 }) s
    else nextRetire (beginRetire b 5 (onBob (fun z => { z with retireErr := 0 }) s))
  else s

/-- A Bobbin that holds a task gives no heartbeat for BOB_WATCHDOG_US (R310). -/
def doBobbinWatchdog (b : Nat) (s : State) : State :=
  if s.bobHeld b ≠ [] then nextRetire (failBobbin b 3 s) else s

/-- A core's known-answer test ends (R310): a failed one is retired. -/
def doBobbinSelftest (core : Nat) (ok : Bool) (s : State) : State :=
  if ok ∨ 104 ≤ core ∨ s.powered = false then s
  else
    match (s.bob.map.find? (fun p => p.2 == core)).map (fun p => p.1) with
    | some b => nextRetire (failBobbin b 4 s)
    | none => if Tab.has s.bob.cores core ∧ (s.core core).role = 1 then retireCore core 4 s else s

/-- 100 ms after a RETIRE command its running task is stopped (R311). -/
def doRetireGraceExpiry (s : State) : State :=
  match s.bob.retiring with
  | some r => if r.run.isSome then nextRetire (loadUnderstudy { r with run := none } s) else s
  | none => s

/-- The Understudy is loaded and takes the logical number; the old core is fenced off: EV440 (R311). -/
def doUnderstudyLoaded (s : State) : State :=
  match s.bob.retiring with
  | some r =>
    match r.loading with
    | some k =>
      let old := Tab.at s.bob.map r.logical 0
      let s := match Tab.find s.bob.map r.logical with | some old => retireCore old r.cause s | none => s
      let s := onCore k (fun c => { c with role := 0 }) s
      let s := onBob (fun b => { b with map := Tab.put b.map r.logical k, retiring := none, retireState := 3 }) s
      nextRetire (noteRetired r old k s)
    | none => s
  | none => s

/-- A unit completes a task with a status (R290, R291); an invocation completes by its own return. -/
def doTaskComplete (h st : Nat) (s : State) : State :=
  let s := closeWindows s
  match s.smg.resolve h with
  | some (i, t) => if s.runsNow i t ∧ !Tab.has s.bob.invs h then retireAdvance (goOn (completeTask i st s)) else s
  | none => s

/-! ### Programs and range sets (R313-R317, R331) -/

/-- The key of a program index of a tenant. -/
def progKey (tag ix : Nat) : Nat := tag * 64 + ix

/-- An index's program. -/
def State.prog (s : State) (tag ix : Nat) : Program := Tab.at s.bob.progs (progKey tag ix) {}

/-- A program changed. -/
def onProg (tag ix : Nat) (f : Program → Program) (s : State) : State :=
  onBob (fun b => { b with progs := Tab.update b.progs (progKey tag ix) {} f }) s

/-- Program count of a tenant. -/
def State.progCount (s : State) (tag : Nat) : Nat := ((s.programLimits tag).map (fun l => l.programs)).getD 0

/-- The image a header describes (R314). -/
def imageOf (id : Nat) (b : Bytes) : ProgImage :=
  { id := id, ty := leAt b 6 1, slots := leAt b 8 4, recMode := leAt b 0xC 1, delim := leAt b 0xD 1, recLen := leAt b 0xE 2,
    stateLen := leAt b 0x10 2, outMax := leAt b 0x14 4 }

/-- Does a header keep R314, with IMAGE_CRC over the instruction slots (rule 0x01 of R317)? [DEDUCED: log entry 126] -/
def progHeaderOk (b : Bytes) : Bool :=
  let m := imageOf 0 b
  leAt b 0 4 == 0x31585150 && leAt b 4 2 == 1 && decide (m.ty ≤ 2) && leAt b 7 1 == 0 && decide (1 ≤ m.slots) &&
  b.length == 64 + 8 * m.slots && leAt b 0x12 2 == 0 && leAt b 0x18 8 == 0 && allZero (slice b 0x24 28) &&
  leAt b 0x20 4 == crc32 (b.drop 64) &&
  (if m.ty = 0 then decide (m.recMode ≤ 1) && decide (1 ≤ m.recLen) && (m.recMode == 1 || m.delim == 0)
   else m.recMode == 0 && m.delim == 0 && m.recLen == 0) &&
  (if m.ty = 2 then decide (8 ≤ m.stateLen ∧ m.stateLen ≤ 4096) && m.stateLen % 8 == 0 else m.stateLen == 0) &&
  (if m.ty = 1 then decide (1 ≤ m.outMax ∧ m.outMax ≤ 270336) else m.outMax == 0)

/-- Load Program (R313, R315): pieces in ascending order without gaps; the last one starts verification. [DEDUCED: log entry 126] -/
def doLoadProgram (h : CmdHdr) (pidx ptype offset total : Nat) (piece : Bytes) (s : State) : State :=
  fetched h 0x22 .programs (fun s =>
    let tag := (s.ctrlTag h.ctrl).getD 0
    let had := if offset = 0 then [] else (s.prog tag pidx).loaded
    if ptype ≠ 0xC0 ∨ s.progCount tag ≤ pidx ∨ offset ≠ had.length ∨ 64 + 8 * 1048576 < total ∨ total < offset + piece.length then
      failCmd h 0x22 stInvalidField s
    else
      let s := onProg tag pidx (fun p => { p with loaded := had ++ piece }) s
      if offset + piece.length < total then endAtOnce h 0x22 stOk 0 s
      else (openScene h 0x22 (.loadProgram pidx) 0 s).2) s

/-- A Load's scene. -/
def loadScene (s : State) (tag pidx : Nat) : Option Nat :=
  (s.scn.scenes.find? (fun p => p.2.tag == tag && !p.2.decided && p.2.kind == .loadProgram pidx)).map (fun p => p.1)

/-- A Load is rejected by a rule at a slot (R315). -/
def rejectLoad (o tag pidx rule slot : Nat) (s : State) : State :=
  let v := field rule 8 24 + field slot 20 0
  let s := onProg tag pidx (fun p => { p with staged := none, loaded := [] }) s
  let s := count1 0x500048 (onBob (fun b => { b with rejects := Tab.put b.rejects tag v }) s)
  goOn (rollBack o ⟨7, 0x87, true⟩ (onScene o (fun c => { c with dw0 := v }) s))

/-- Verification and translation end (R315, R317): the header and the slot count are judged from the image; `reject` is what the rest of
the verifier finds, a rule from 0x03 and its slot. The slot of a header failure is free. [DESIGN CHOICE: log entry 127] -/
def doProgramTranslated (tenant pidx : Nat) (reject : Option (Nat × Nat)) (s : State) : State :=
  match loadScene s tenant pidx with
  | none => s
  | some o =>
    let b := (s.prog tenant pidx).loaded
    let limit := ((s.programLimits tenant).map (fun l => l.slots)).getD 0
    let early : Option Nat := if !progHeaderOk b then some 1 else if limit < leAt b 8 4 then some 2 else none
    match early, reject with
    | some r, _ =>
      let (k, s) := takeFree s
      rejectLoad o tenant pidx r ((Config.freeValue k).toNat % 2 ^ 20) s
    | none, some (r, slot) => rejectLoad o tenant pidx r slot s
    | none, none =>
      let s := onProg tenant pidx (fun p => { p with staged := some (imageOf s.bob.nextImage b), loaded := [] }) s
      goOn (retire o stOk 0 (onBob (fun z => { z with nextImage := z.nextImage + 1 }) s))

/-- Activate: the staged image becomes active (R315, R316). [DEDUCED: log entry 124] -/
def doProgramActivate (h : CmdHdr) (pidx : Nat) (s : State) : State :=
  fetched h 0x23 .programs (fun s =>
    let tag := (s.ctrlTag h.ctrl).getD 0
    if s.progCount tag ≤ pidx then failCmd h 0x23 stInvalidField s
    else
      match (s.prog tag pidx).staged with
      | none => failCmd h 0x23 stSequence s
      | some m => endAtOnce h 0x23 stOk 0 (onProg tag pidx (fun p => { p with active := some m, staged := none }) s)) s

/-- Deactivate empties the active image (R315). -/
def doProgramDeactivate (h : CmdHdr) (pidx : Nat) (s : State) : State :=
  fetched h 0x23 .programs (fun s =>
    let tag := (s.ctrlTag h.ctrl).getD 0
    if s.progCount tag ≤ pidx then failCmd h 0x23 stInvalidField s
    else endAtOnce h 0x23 stOk 0 (onProg tag pidx (fun p => { p with active := none }) s)) s

/-- Are ranges fit for a set: 1 to 16, each 4 KiB aligned and a multiple of 4 KiB, within the tenant's SLM (R331)? -/
def rangesOk (size : Nat) (l : List (Nat × Nat)) : Bool :=
  decide (1 ≤ l.length ∧ l.length ≤ 16) &&
  l.all (fun r => r.1 % 4096 == 0 && r.2 % 4096 == 0 && r.2 != 0 && decide (r.1 + r.2 ≤ size))

/-- Range sets of a tenant. -/
def State.setsOf (s : State) (tag : Nat) : Nat := (s.bob.sets.filter (fun p => p.1 / 65536 == tag)).length

/-- Memory Range Set Management (R331): a set created takes the lowest free number, in DW0; a set deleted is gone. [DEDUCED: log entry 125] -/
def doMemoryRangeSetManagement (h : CmdHdr) (create : Bool) (setId : Nat) (ranges : List (Nat × Nat)) (s : State) : State :=
  fetched h 0x21 .programs (fun s =>
    let tag := (s.ctrlTag h.ctrl).getD 0
    if create then
      if !rangesOk (s.slmSize tag) ranges ∨ 256 ≤ s.setsOf tag then failCmd h 0x21 stInvalidField s
      else
        let k := ((List.range 256).find? (fun i => !Tab.has s.bob.sets (tag * 65536 + i))).getD 0
        endAtOnce h 0x21 stOk k (onBob (fun b => { b with sets := Tab.put b.sets (tag * 65536 + k) ranges }) s)
    else if setId < 256 ∧ Tab.has s.bob.sets (tag * 65536 + setId) then
      endAtOnce h 0x21 stOk 0 (onBob (fun b => { b with sets := Tab.del b.sets (tag * 65536 + setId) }) s)
    else failCmd h 0x21 stInvalidField s) s

/-! ### Execute Program (R316, R324, R325) -/

/-- Does a range lie in a memory range set? -/
def inSet (l : List (Nat × Nat)) (off len : Nat) : Bool := l.any (fun r => decide (r.1 ≤ off ∧ off + len ≤ r.1 + r.2))

/-- The invocation block's request (R324), or nothing where a field is outside its values. -/
def execReqOf (pidx setId hostLen budget : Nat) (m : ProgImage) (ranges : List (Nat × Nat)) (b : Bytes) : Option ExecReq :=
  let sk := leAt b 4 1
  let dk := leAt b 5 1
  let kl := leAt b 0xC 1
  let ok := leAt b 0 4 == 0x31495150 && decide (sk ≤ 2) && decide (dk ≤ 1) && leAt b 6 2 == 0 && allZero (slice b 0xD 3) &&
    allZero (slice b 0x140 192) &&
    (sk != 0 || (decide (1 ≤ kl ∧ kl ≤ 16) && allZero (slice b (0x10 + kl) (16 - kl)))) && (sk != 1 || leAt b 0x1C 4 == 0) &&
    (sk != 2 || inSet ranges (leAt b 0x20 8) (leAt b 0x28 8)) && (dk != 1 || inSet ranges (leAt b 0x30 8) (leAt b 0x38 8))
  if ok then
    some { pidx := pidx, setId := setId, hostLen := hostLen, budget := budget, image := m, srcKind := sk, dstKind := dk
           nsid := leAt b 8 4, key := slice b 0x10 kl, slba := leAt b 0x10 8, nlb := leAt b 0x18 4
           srcOff := leAt b 0x20 8, srcLen := leAt b 0x28 8, dstOff := leAt b 0x30 8, dstCap := leAt b 0x38 8
           param := slice b 0x40 256 }
  else none

/-- Is the source there: a namespace of the kind named that the controller may use, LBAs within it (R132)? -/
def sourceStatus (s : State) (h : CmdHdr) (x : ExecReq) : Status :=
  if x.srcKind = 2 then stOk
  else
    match s.nsFor { h with nsid := x.nsid } with
    | none => stNamespace
    | some n =>
      if (x.srcKind = 0) ≠ n.kv then stNamespace
      else if x.srcKind = 1 ∧ n.nsze < x.slba + x.nlb then stLbaRange
      else stOk

/-- Execute Program (R316, R324): it binds the active image of its index and takes its request from the invocation block. -/
def doExecuteProgram (h : CmdHdr) (pidx setId blockOff hostLen : Nat) (s : State) : State :=
  fetched h 0x01 .programs (fun s =>
    let tag := (s.ctrlTag h.ctrl).getD 0
    let ranges := Tab.at s.bob.sets (tag * 65536 + setId) []
    match (s.prog tag pidx).active with
    | none => failCmd h 0x01 stInvalidField s
    | some m =>
      if s.progCount tag ≤ pidx ∨ blockOff % 512 ≠ 0 ∨ 256 ≤ setId ∨ inSet ranges blockOff 512 = false then
        failCmd h 0x01 stInvalidField s
      else
        let budget := ((s.programLimits tag).map (fun l => l.budget)).getD 0
        match execReqOf pidx setId hostLen budget m ranges (s.slmRead tag blockOff 512) with
        | none => failCmd h 0x01 stInvalidField s
        | some x =>
          let st := sourceStatus s h x
          if !isOk st then failCmd h 0x01 st s
          else
            let (o, s) := openScene h 0x01 (.execute x) 0 s
            onScene o (fun c => { c with nsid := if x.srcKind = 2 then c.nsid else x.nsid }) s) s

/-! ### Invocations (R320-R322, R326, R332, R333) -/

/-- A running invocation: its task, itself, its command's request. -/
def State.inv (s : State) (h : Nat) : Option (Nat × Task × Inv × ExecReq) :=
  match s.smg.resolve h, Tab.find s.bob.invs h with
  | some (i, t), some v =>
    match (Tab.find s.scn.scenes v.scene).map (fun c => c.kind) with
    | some (SceneKind.execute x) => if s.unitsRun ∧ s.runsNow i t ∧ !t.stopping then some (i, t, v, x) else none
    | _ => none
  | _, _ => none

/-- The stores an invocation made to its SLM window. [DESIGN CHOICE: log entry 119] -/
def invStores (tag : Nat) (x : ExecReq) (l : List (Nat × Bytes)) (s : State) : State :=
  l.foldl (fun s w => windowStore tag x.setId w.1 w.2 s) s

/-- An invocation over its budget stops, and its command fails with 0x88 (R326, R333). [DEDUCED: log entry 128] -/
def overBudget (i tag : Nat) (v : Inv) (s : State) : State :=
  let s := count1 0x500044 (count1 (tenantKey tag 0x4018) (completeTask i 0 s))
  retireAdvance (goOn (execFail v.scene ⟨7, 0x88, true⟩ v.plan.chunk 0 s))

/-- A program invocation returns (R320, R322, R326): its stores stand, its result is kept for its turn, or its command fails. [DESIGN CHOICE: log entry 119] -/
def doInvocationComplete (h : Nat) (r : InvResult) (s : State) : State :=
  match s.inv h with
  | none => s
  | some (i, t, v, x) =>
    let s := invStores t.tag x r.stores s
    if x.budget < v.charge + r.cycles then overBudget i t.tag v s
    else
      let src := ((Tab.find s.scn.scenes v.scene).map (fun c => c.data)).getD []
      let s := count1 (tenantKey t.tag 0x4014) (completeTask i 0 s)
      let s := onBob (fun b => { b with invs := Tab.del b.invs h }) s
      match resultOf x.image v.plan src r.ret.toNat r.output r.state with
      | none => retireAdvance (goOn (execFail v.scene ⟨0, 0x06, true⟩ v.plan.chunk (r.ret.toNat % 2 ^ 32) s))
      | some (out, stop) =>
        let s := keepResult v x.image out stop r.state s
        let n := ((Tab.find s.bob.execs v.scene).map (fun e => e.outs.length)).getD 0
        retireAdvance (goOn (checkDone v.scene (deliverOuts (n + 1) v.scene x s)))

/-- An invocation reaches its budget (R333): the stores it made stand. [DESIGN CHOICE: log entry 119] -/
def doBudgetExhausted (h : Nat) (stores : List (Nat × Bytes)) (s : State) : State :=
  match s.inv h with
  | some (i, t, v, x) => overBudget i t.tag v (invStores t.tag x stores s)
  | none => s

/-! ### Helpers (R327-R329, R332) -/

/-- A helper call of a running invocation: it works, is charged, and an invocation that crosses its budget by it stops. [DEDUCED: log entry 128] -/
def helper (h charge : Nat) (work : Task → Inv → ExecReq → State → (Int × Bytes) × State) (s : State) : State :=
  match s.inv h with
  | none => s
  | some (i, t, v, x) =>
    if x.budget < v.charge + charge then overBudget i t.tag v s
    else
      let ((r, b), s) := work t v x s
      onBob (fun z => { z with invs := Tab.modify z.invs h (fun v => { v with result := r, bytes := b, charge := v.charge + charge }) }) s

/-- A helper that an engine serves: a sealed tenant's waits until its own window of that engine is open (R301, R327). -/
def helperOn (e h charge : Nat) (work : Task → Inv → ExecReq → State → (Int × Bytes) × State) (s : State) : State :=
  match s.inv h with
  | some (_, t, _, _) =>
    if s.isSealed t.tag ∧ !(s.windowOpen e && (Tab.find s.smg.now e).any (fun w => w.tag == t.tag)) then s
    else helper h charge work s
  | none => s

/-- A return value that the spec does not state: some value that is not negative. [DESIGN CHOICE: log entry 129] -/
def freeReturn (s : State) : Int × State :=
  let (k, s) := takeFree s
  (((Config.freeValue k).toNat % 2 ^ 63 : Nat), s)

/-- A helper that returns an unstated value. [DESIGN CHOICE: log entry 129] -/
def returnFree (b : Bytes) (s : State) : (Int × Bytes) × State :=
  let (r, s) := freeReturn s
  ((r, b), s)

/-- The bytes of a digest. -/
def digestOf (alg : Nat) (b : Bytes) : Bytes := (digestBytes (Config.digest alg b).toNat).take (digestLen alg)

/-- Helper 5: a one-shot digest of up to 262,144 bytes. -/
def doPqDigest (h alg : Nat) (src : Bytes) (s : State) : State :=
  helperOn 2 h (50 + src.length / 64) (fun _ _ _ s =>
    if 3 < alg ∨ 262144 < src.length then ((-1, []), s) else ((digestLen alg, digestOf alg src), s)) s

/-- Helper 6: a digest continued in a 512-byte context of the state or SLM region. -/
def doPqDigestPart (h alg ctx : Nat) (src : Bytes) (first last : Bool) (s : State) : State :=
  helperOn 2 h (50 + src.length / 64) (fun t _ _ s =>
    let key := t.tag * 2 ^ 64 + ctx
    let old : Option (Nat × Bytes) := if first then some (alg, []) else Tab.find s.bob.parts key
    match old with
    | some (a, b) =>
      if 3 < alg ∨ a ≠ alg then ((-1, []), s)
      else if last then returnFree (digestOf alg (b ++ src)) (onBob (fun z => { z with parts := Tab.del z.parts key }) s)
      else returnFree [] (onBob (fun z => { z with parts := Tab.put z.parts key (alg, b ++ src) }) s)
    | none => ((-1, []), s)) s

/-- The events and counts of a job's status (R341, R344, R358, R360). -/
def smockEvents (st obj tag : Nat) (s : State) : State :=
  if st = 0x81 then raise 256 0 obj 0 tag (count1 0x800010 s)
  else if st = 0x11 then raise 257 0 obj 0 tag (count1 0x800018 s)
  else if st = 0x12 then raise 258 0 obj 0 tag (count1 0x80001C s)
  else if st = 0x10 then raise 259 0 obj 0 tag (count1 0x800020 s)
  else if st = 0x13 ∨ st = 0x14 then count1 0x800020 s
  else s

/-- Compress input and output are counted in whole MB (R358). [DEDUCED: log entry 137] -/
def smockTotals (inLen outLen : Nat) (s : State) : State :=
  let a := s.tly.smkIn + inLen
  let b := s.tly.smkOut + outLen
  let s := { s with tly := { s.tly with smkIn := a % 1000000, smkOut := b % 1000000 } }
  countUp 0x80002C (b / 1000000) (countUp 0x800028 (a / 1000000) s)

/-- A helper's return for a Smock job's status (R345). -/
def smockReturn (e : SmockEnd) : Int × Bytes :=
  if e.status = 0 then (e.out.length, e.out)
  else if e.status = 0x81 then (-3, [])
  else if e.status = 0x11 ∨ e.status = 0x12 then (-5, [])
  else (-1, [])

/-- Helper 7: Smock compression of up to 262,144 bytes. -/
def doPqCompress (h fmt level : Nat) (src : Bytes) (cap : Nat) (s : State) : State :=
  helperOn 1 h (50 + src.length / 64) (fun t _ _ s =>
    if fmt = 0 ∨ 3 < fmt ∨ 9 < level ∨ 262144 < src.length then ((-1, []), s)
    else
      let m := s.smockLanes
      let e := compressEnd fmt (if level = 0 then m.2.2.1 else level) m.2.2.2.1 cap src
      let s := if e.status = 0 then smockTotals src.length e.out.length s else s
      (smockReturn e, smockEvents e.status h t.tag s)) s

/-- Helper 8: Smock decompression, the trailing check verified. -/
def doPqDecompress (h fmt : Nat) (src : Bytes) (cap : Nat) (s : State) : State :=
  helperOn 1 h (50 + src.length / 64) (fun t _ _ s =>
    if fmt = 0 ∨ 3 < fmt then ((-1, []), s)
    else
      let e := decompressEnd fmt cap none src
      (smockReturn e, smockEvents e.status h t.tag s)) s

/-- Helper 9: the CRC-64 continued from a previous value. -/
def doPqCrc64 (h : Nat) (src : Bytes) (prev : BitVec 64) (s : State) : State :=
  helper h 50 (fun _ _ _ s => ((crc64From prev.toNat src, []), s)) s

/-- Helper 10: a copy between regions; to the SLM window it lands there, outside it the argument is bad. -/
def doPqMemCopy (h : Nat) (dst : Option Nat) (src : Bytes) (s : State) : State :=
  helper h (20 + src.length / 64) (fun t _ x s =>
    match dst with
    | none => returnFree src s
    | some off =>
      let ranges := Tab.at s.bob.sets (t.tag * 65536 + x.setId) []
      if (ranges.map (fun r => r.2)).sum < off + src.length then ((-1, []), s)
      else returnFree [] (windowStore t.tag x.setId off src s)) s

/-- Two byte strings compared: -1, 0 or 1. -/
def cmpBytes : Bytes → Bytes → Int
  | a :: x, b :: y => if a = b then cmpBytes x y else if a.toNat < b.toNat then -1 else 1
  | _, _ => 0

/-- Helper 11: two regions compared. -/
def doPqMemCmp (h : Nat) (a b : Bytes) (s : State) : State := helper h 50 (fun _ _ _ s => ((cmpBytes a b, []), s)) s

/-- Helper 12: a memory fence (R329); the accesses of a run are in order already. -/
def doPqFence (h kind : Nat) (s : State) : State :=
  helper h 50 (fun _ _ _ s => if 2 < kind then ((-1, []), s) else returnFree [] s) s

/-- Helper 13: at most 64 events an invocation (R328). -/
def doPqRaiseEvent (h index : Nat) (a0 a1 : BitVec 64) (s : State) : State :=
  helper h 50 (fun t v _ s =>
    if 63 < index then ((-1, []), s)
    else if 64 ≤ v.events then ((0, []), count1 (tenantKey t.tag 0x4020) s)
    else
      let s := raise (448 + index) 0 a0.toNat a1.toNat t.tag s
      returnFree [] (onBob (fun z => { z with invs := Tab.modify z.invs h (fun v => { v with events := v.events + 1 }) }) s)) s

/-- Helper 14: the cue; for a sealed tenant its invocation's dispatch cue, rounded down. -/
def doPqCueNow (h : Nat) (s : State) : State :=
  helper h 50 (fun t v _ s => ((if s.isSealed t.tag then v.cue else s.cue.now, []), s)) s

/-- A helper that waited longer than 100 ms for an engine returns -4 (R327). -/
def doHelperTimeout (h : Nat) (s : State) : State :=
  helper h 0 (fun _ _ _ s => ((-4, []), count1 0x50004C s)) s

/-! ### What the BOB_ registers and the tenant windows show (R334, R335) -/

/-- Cores of a role. -/
def State.roleCount (s : State) (k : Nat) : Nat := Tab.count s.bob.cores (fun _ c => c.role == k)

/-- The set that names a Bobbin. -/
def State.setOfBob (s : State) (b : Nat) : Nat :=
  (((s.cfg.ofType 0x0501).find? (fun p => (bobbinSetOf p.2).mask.testBit b)).map (fun p => p.1)).getD 0

/-- The BOB_ registers. -/
def bobView (s : State) (o : Nat) : Option Nat :=
  let b := s.bob
  if o = 0x500004 then some (field (s.roleCount 1) 8 16 + field (s.roleCount 2) 8 8 + field b.map.length 8 0)
  else if 0x500010 ≤ o ∧ o ≤ 0x500018 then
    some (((List.range 32).map (fun i => flag (Tab.has b.map ((o - 0x500010) * 8 + i)) i)).sum)
  else if o = 0x500024 then
    let n := s.reg 0x500020 0
    let st := if !Tab.has b.map n then 2 else if s.bobServes n then 0 else 1
    some (field (Tab.at b.map n 0) 7 24 + field st 4 16 + field (s.setOfBob n) 4 8 + field (s.bobHeld n).length 5 0)
  else if o = 0x50002C then
    let c := s.core (s.reg 0x500028 0)
    some (field c.role 2 30 + field c.cause 4 24 + field (c.corrected.filter (fun t => decide (s.wall < t + 86400000000000))).length 16 0)
  else if o = 0x500034 then some (field b.retireErr 8 8 + field b.retireState 4 0)
  else if o = 0x500050 then
    let n := Tab.count s.scn.scenes (fun _ c => !c.decided && (match c.kind with | .loadProgram _ => true | _ => false))
    some (flag (decide (0 < n)) 31 + field (n - 1) 16 0)
  else none

/-- The program and SLM registers of a tenant window. -/
def twPrgView (s : State) (tag o : Nat) : Option Nat :=
  let p := s.prog tag (s.reg (tenantKey tag 0x4000) 0)
  let l := s.programLimits tag
  if o = 0x4004 then
    let n := match p.active with
      | some m => Tab.count s.scn.scenes (fun _ c => !c.decided && (match c.kind with | .execute x => x.image.id == m.id | _ => false))
      | none => 0
    some (flag p.staged.isSome 31 + flag p.active.isSome 30 + field ((p.active.map (fun m => m.ty)).getD 0) 2 28 + field n 16 0)
  else if o = 0x4008 then some (Tab.at s.bob.rejects tag 0)
  else if o = 0x400C then some (field (s.progCount tag) 7 16 + field (((l.map (fun x => x.slots)).getD 0) / 1024) 11 0)
  else if o = 0x4010 then some ((l.map (fun x => x.budget)).getD 0)
  else if o = 0x4024 then some (s.slmSize tag / 2 ^ 20)
  else if o = 0x4028 then some (s.setsOf tag)
  else none

end Sys2Proof.Machine
end

