-- ==== Sys2Proof/Machine/Flash.lean ====
section
/-! DEFINITION. Flash channels, the decoder pool and group replacement (08_flash_channels.md, R199-R224), with the read-retry ladders
of both media. -/
namespace Sys2Proof.Machine

/-! ### Retirement (R191, R192, R218) -/

/-- Is a LUN in the group? -/
def inGroup (g l : Nat) : Bool := chGroup (lunCh l) == g

/-- Data slots of the members that count toward D: free ones and those of stripe blocks, outside `skip`, at the width `w` (R190, R220). -/
def dataSlots (s : State) (skip : Option Nat) : Nat :=
  let use := fun (m : FreeBlk) => some (chGroup m.blk.ch) != skip && s.lunUsed (lunNo m.blk)
  let free := ((s.trl.freeBlks.filter use).map (fun m => m.slots)).sum
  let held := (s.trl.sbs.map (fun p =>
    (((List.range p.2.members.length).zip p.2.members).filter (fun q => use q.2 && !p.2.bad.contains q.1)).map (fun q => q.2.slots))).flatten.sum
  let w := ((List.range 32).filter (fun c => !s.flc.deadCh.contains c && some (chGroup c) != skip &&
    s.flc.luns.any (fun p => lunCh p.1 == c && !p.2.retired))).length
  (free + held) * (w - 1) / max 1 w

/-- The flash tier takes a new D; M follows it under R192. -/
def setSlots (d : Nat) (s : State) : State :=
  let t := s.trl.flash
  { s with trl := { s.trl with flash := if d < t.slots then lowerTier (t.slots - d) t else { t with slots := d } } }

/-- One member erase block is retired (R191). [DEDUCED: log entry 93] -/
def retireMember (l slots : Nat) (s : State) : State :=
  onLun l (fun x => { x with membersRetired := x.membersRetired + 1 }) { s with trl := retireBlock (slots * 31 / 32) s.trl }

/-- A scene's data could not be read (R132, R215, R244). -/
def failRead (scene : Nat) (s : State) : State := onScene scene (fun c => if isOk c.st then { c with st := stUnrecovered, data := [] } else c) s

/-- A read leaves the queues of every LUN. -/
def unqueueRead (rid : Nat) (s : State) : State :=
  { s with flc := { s.flc with luns := Tab.mapVals s.flc.luns (fun _ x =>
      { x with readQ := x.readQ.filter (fun r => r != rid), reading := if x.reading = some rid then none else x.reading }) } }

/-- The LUN that a fault record of a read names, or its band. -/
def readObj (s : State) (r : MediaRd) : Nat :=
  match r.src with
  | .flash sb slot =>
    match (Tab.find s.trl.sbs sb).bind (fun b => slotMember sb b slot) with
    | some m => lunNo m.blk
    | none => sb
  | .platter b _ => b
  | _ => 0

/-- A read ends: with its data, or uncorrectable (R215, R244). What waited for the stripe block's reads goes on (R177). -/
def endMediaRd (rid : Nat) (ok : Bool) (s : State) : State :=
  match Tab.find s.flc.rds rid with
  | none => s
  | some r =>
    let s := unqueueRead rid { s with flc := { s.flc with rds := Tab.del s.flc.rds rid, decQ := s.flc.decQ.filter (fun x => x != rid) } }
    let s := sbReads r.src (fun n => n - 1) s
    let s : State :=
      if ok then s
      else
        let s := match r.src with
          | .platter _ _ => count1 0xD00048 (raiseObj 132 (readObj s r) 0 s)
          | _ => count1 0xB00034 (raiseObj 72 (readObj s r) 0 s)
        failRead r.scene s
    let s := match r.src with
      | .flash sb _ => if s.trl.victim = some sb then eraseVictim sb s else s
      | _ => s
    goOn (pumpAll s)

/-- A read takes a ladder step: its pages are read again; where its LUN cannot be read it is reconstructed, and where the row cannot
be read either it is uncorrectable (R212, R215, R218, R219). -/
def retryRead (rid step : Nat) (s : State) : State :=
  let at' := fun (n : Nat) (s : State) =>
    let s := unqueueRead rid (onRd rid (fun r => { r with step := n, todo := [] }) s)
    let s := if n = 5 then
        match Tab.find s.flc.rds rid with
        | some r => count1 0xB00030 (raiseObj 71 (readObj s r) 0 s)
        | none => s
      else s
    beginAttempt rid s
  match at' step s with
  | (true, s) => s
  | (false, s1) =>
    if 5 ≤ step then endMediaRd rid false s1
    else
      match at' 5 s with
      | (true, s) => s
      | (false, s) => endMediaRd rid false s

/-- Reads queued or running on the LUNs that `p` names go to a step of the ladder. [DEDUCED: log entry 209] -/
def bumpReads (p : Nat → Bool) (step : Nat) (s : State) : State :=
  let rids := (s.flc.luns.filter (fun x => p x.1)).foldl (fun l x => l ++ x.2.reading.toList ++ x.2.readQ) []
  rids.eraseDups.foldl (fun s r =>
    match Tab.find s.flc.rds r with
    | some x => retryRead r (max x.step step) s
    | none => s) s

/-- A LUN is retired (R218): EV073, all its member erase blocks with it (R191), the valid data on them queued for refresh; a channel
left without LUNs is unusable (EV074). -/
def retireLun (l : Nat) (s : State) : State :=
  if !s.lunUsed l then s
  else
    let s := raiseObj 73 l 0 (onLun l (fun x => { x with retired := true, resets := 0 }) s)
    let s := dropOps (fun o => o.lun == l) s
    let mine := fun (m : FreeBlk) => lunNo m.blk == l
    let free := s.trl.freeBlks.filter mine
    let s := { s with trl := { s.trl with freeBlks := s.trl.freeBlks.filter (fun m => !mine m) } }
    let s := free.foldl (fun s m => retireMember l m.slots s) s
    let s := s.trl.sbs.foldl (fun s p =>
      let bad := ((List.range p.2.members.length).zip p.2.members).filter (fun q => mine q.2 && !p.2.bad.contains q.1)
      if bad = [] then s
      else
        let b := { p.2 with
          bad := p.2.bad ++ bad.map (fun q => q.1)
          closed := match p.2.closed with | some c => some c | none => some s.cue.now }
        let s := { s with trl := queueRefresh false p.1 { s.trl with sbs := Tab.put s.trl.sbs p.1 b } }
        bad.foldl (fun s q => retireMember l q.2.slots s) s) s
    let s := bumpReads (fun x => x == l) 5 s
    if s.flc.luns.any (fun p => lunCh p.1 == lunCh l && !p.2.retired) then s else raiseObj 74 (lunCh l) 0 s

/-! ### Programs and erases end (R179, R191, R218) -/

/-- The operation that runs on a LUN. -/
def runningOp (s : State) (l : Nat) (k : DieOp) : Option FlashOp := s.flc.ops.find? (fun o => o.lun == l && o.running && o.op == k)

/-- The operation that has ended leaves its queue. -/
def endOp (o : FlashOp) (s : State) : State :=
  onLun o.lun (fun x => { x with resets := 0 }) { s with flc := { s.flc with ops := s.flc.ops.erase o } }

/-- Does a copy's target lie in the page set that a program writes? -/
def inProgram (o : FlashOp) (w z : Nat) (sb : Nat) (c : Copy) : Bool :=
  match c.dst with
  | .flash k slot => k == sb && slotPos sb w slot == o.pos && decide (slotRow w slot ≤ o.row ∧ o.row < slotRow w slot + z)
  | _ => false

/-- Copies whose page set is programmed commit (R177). -/
def commitCopies (sb : Nat) (mine : Copy → Bool) (s : State) : State :=
  let l := s.trl.copies.filter mine
  let s := { s with trl := { s.trl with copies := s.trl.copies.filter (fun c => !mine c) } }
  let s := l.foldl (fun s c =>
    match c.src with
    | .flash v _ => commitCopy v c s
    | .fine _ => commitCopy (s.trl.victim.getD sb) c s
    | _ => commitCopy sb c s) s
  match s.trl.victim with
  | some v => eraseVictim v s
  | none => s

/-- A copy starts again from its source into another stripe block of its stream (R179). -/
def restartCopy (st : Stream) (c : Copy) (s : State) : State :=
  match takeSlot st s with
  | some (e, s) => { s with trl := { s.trl with copies := s.trl.copies ++ [{ c with dst := e }] } }
  | none => s

/-- A program of a stripe block failed (R179): its stripe block closes and heads the refresh queue, the member is retired, every copy
of its row or its member not yet switched restarts. -/
def programFail (sb pos row : Nat) (restart : Bool) (retire : Bool) (s : State) : State :=
  match Tab.find s.trl.sbs sb with
  | none => s
  | some b =>
    let hit := fun (c : Copy) => match c.dst with
      | .flash k slot => k == sb && (slotRow b.width slot == row || slotPos sb b.width slot == pos)
      | _ => false
    let l := s.trl.copies.filter hit
    let b' := { b with
      closed := match b.closed with | some c => some c | none => some s.cue.now
      bad := if retire then setAdd b.bad pos else b.bad }
    let t := { s.trl with sbs := Tab.put s.trl.sbs sb b', copies := s.trl.copies.filter (fun c => !hit c) }
    let s := { s with trl := if retire then queueRefresh true sb t else t }
    let s := dropOps (fun o => o.sb == some sb && o.pos == pos && !o.running) s
    let s : State := match b.members[pos]? with
      | some m => if retire ∧ !b.bad.contains pos then retireMember (lunNo m.blk) m.slots s else s
      | none => s
    let s := if restart then l.foldl (fun s c => restartCopy b.stream c s) s else s
    raiseObj 80 sb 0 (count1 0xA00070 s)

/-- A program ends (R179, R200): its page set's copies commit, or its failure is answered. -/
def doFlashProgramDone (l : Nat) (ok : Bool) (s : State) : State :=
  match runningOp s l .program with
  | none => s
  | some o =>
    let s := endOp o s
    let s : State :=
      match o.sb with
      | none => s
      | some sb =>
        if ok then
          match Tab.find s.trl.sbs sb with
          | some b => commitCopies sb (inProgram o b.width (s.fgroup (chGroup (lunCh l))).setSlots sb) s
          | none => s
        else programFail sb o.pos o.row true true (raiseObj 65 l 0 s)
    goOn (pumpAll s)

/-- Two decode-margin triggers on a member within 30 days (R181). -/
def twoMargins (b : StripeBlk) (pos : Nat) : Bool :=
  let l := (b.margins.filter (fun m => m.1 == pos)).map (fun m => m.2)
  l.any (fun a => l.any (fun c => decide (a < c ∧ c < a + 30 * dayTicks)))

/-- A member erase block that has been erased: free again with its count, or retired (R173, R181, R191). -/
def eraseEnded (m : FreeBlk) (retire : Bool) (s : State) : State :=
  let l := lunNo m.blk
  let pe := (m.pe + 1) % 2 ^ 48
  let e := (s.fgroup (chGroup m.blk.ch)).endurance
  if retire ∨ (0 < e ∧ e ≤ pe) then retireMember l m.slots s
  else { s with trl := { s.trl with freeBlks := s.trl.freeBlks ++ [{ m with pe := pe }] } }

/-- An erase ends (R191, R218): the block joins the free list or is retired. The last member frees the stripe block's number. -/
def doFlashEraseDone (l : Nat) (ok : Bool) (s : State) : State :=
  match runningOp s l .erase with
  | none => s
  | some o =>
    let s := endOp o s
    let s := if ok then s else raiseObj 66 l 0 s
    let s : State :=
      match o.sb with
      | none =>
        match s.trl.freeBlks.find? (fun m => m.blk == o.blk) with
        | some m => eraseEnded m (!ok) { s with trl := { s.trl with freeBlks := s.trl.freeBlks.erase m } }
        | none => s
      | some sb =>
        match Tab.find s.trl.sbs sb with
        | none => s
        | some b =>
          let left := b.erasing.erase o.blk
          let s : State := match b.members[o.pos]? with
            | some m =>
              if b.bad.contains o.pos then s
              else if b.stream = .harbour ∧ ok then s
              else eraseEnded m (!ok || twoMargins b o.pos) s
            | none => s
          if b.stream = .harbour then
            armHarbour { s with trl := { s.trl with sbs := Tab.put s.trl.sbs sb { b with erasing := left } } }
          else if left = [] then { s with trl := { s.trl with sbs := Tab.del s.trl.sbs sb } }
          else { s with trl := { s.trl with sbs := Tab.put s.trl.sbs sb { b with erasing := left } } }
    goOn (pumpAll s)

/-! ### Timeouts (R218, R219) -/

/-- The operation that runs on a LUN counts as failed: a program under R179, an erase as an erase failure, a read from ladder step
`step`: 2 where it failed itself, 1 where it restarts. [DEDUCED: log entries 99, 209] -/
def failLunOp (l : Nat) (retire : Bool) (step : Nat) (s : State) : State :=
  let s : State := match runningOp s l .program with
    | some o =>
      let s := { s with flc := { s.flc with ops := s.flc.ops.erase o } }
      match o.sb with | some sb => programFail sb o.pos o.row true retire s | none => s
    | none => s
  let s : State := match runningOp s l .erase with
    | some o =>
      if retire then doFlashEraseDone l false s
      else { s with flc := { s.flc with ops := s.flc.ops.map (fun x => if x = o then { x with running := false, cue := none, point := none } else x) } }
    | none => s
  match (Tab.find s.flc.luns l).bind (fun x => x.reading) with
  | some r =>
    match Tab.find s.flc.rds r with
    | some x => retryRead r (max x.step step) s
    | none => s
  | none => s

/-- Have all LUNs in use of a group timed out within 1 ms (R219)? [DEDUCED: log entry 179] -/
def groupTimedOut (s : State) (g : Nat) : Bool :=
  s.flc.luns.any (fun p => inGroup g p.1) &&
  s.flc.luns.all (fun p => !inGroup g p.1 || p.2.retired ||
    match p.2.lastStuck with | some t => decide (s.wall < t + 1000000) | none => false)

/-- A group is faulted (R219): what is in flight on it fails without retirement, its queued reads are reconstructed. -/
def faultGroup (g : Nat) (s : State) : State :=
  let luns := (s.flc.luns.filter (fun p => inGroup g p.1)).map (fun p => p.1)
  let s := { s with flc := { s.flc with groups := Tab.update s.flc.groups g {} (fun x => { x with faulted := true }) } }
  let s := luns.foldl (fun s l => failLunOp l false 2 (onLun l (fun x => { x with resets := 0 }) s)) s
  let s := dropOps (fun o => inGroup g o.lun && o.op == .program && !o.running && o.cue.isSome) s
  bumpReads (inGroup g) 5 s

/-- A LUN is still busy after its timeout (R218, R219): the LUN is reset, then its target, then it is retired; a second EV064 within
24 hours retires it; every LUN of the group within 1 ms faults the group. [DEDUCED: log entries 99, 179] -/
def doLunTimeout (l : Nat) (s : State) : State :=
  match Tab.find s.flc.luns l with
  | none => s
  | some x =>
    let busy := x.reading.isSome || s.flc.ops.any (fun o => o.lun == l && o.running) || decide (0 < x.resets)
    if x.retired ∨ !busy then s
    else
      let g := chGroup (lunCh l)
      let again : Bool := match x.lastStuck with | some t => decide (s.wall < t + 86400000000000) | none => false
      let s : State :=
        if x.resets = 0 then
          count1 0xB0002C (raiseObj 64 l 0 (onLun l (fun y => { y with stuck := y.stuck + 1, lastStuck := some s.wall, resets := 1 }) s))
        else onLun l (fun y => { y with lastStuck := some s.wall, resets := y.resets + 1 }) s
      let s : State :=
        if groupTimedOut s g then faultGroup g s
        else if x.resets = 0 then
          let s := failLunOp l true 2 s
          if again then retireLun l s else s
        else if x.resets = 1 then
          let others := (s.flc.luns.filter (fun p => p.1 / 4 == l / 4 && p.1 != l)).map (fun p => p.1)
          others.foldl (fun s k => failLunOp k false 1 s) s
        else retireLun l s
      goOn (pumpAll s)

/-- A live re-training ends (R203): due every FLC_RETRAIN hours or after 10 degrees; three failures make the channel unusable. -/
def doChannelRetrain (ch : Nat) (ok : Bool) (temp : Int) (s : State) : State :=
  let last := Tab.at s.flc.trainedAt ch 0
  let due := decide (last + s.reg 0xB00044 0x18 * 3600000000000 ≤ s.wall) || decide (2560 < (temp - Tab.at s.flc.trainedTemp ch 0).natAbs)
  if 32 ≤ ch ∨ s.flc.deadCh.contains ch ∨ !s.groupRuns (chGroup ch) ∨ !(due || Tab.has s.flc.trainFails ch) then s
  else if ok then
    { s with flc := { s.flc with
        trainedAt := Tab.put s.flc.trainedAt ch s.wall
        trainedTemp := Tab.put s.flc.trainedTemp ch temp
        trainFails := Tab.del s.flc.trainFails ch } }
  else
    let n := Tab.at s.flc.trainFails ch 0 + 1
    let s := raiseObj 69 ch 0 { s with flc := { s.flc with trainFails := Tab.put s.flc.trainFails ch n } }
    if n < 3 then s
    else
      let s := { s with flc := { s.flc with deadCh := setAdd s.flc.deadCh ch, trainFails := Tab.del s.flc.trainFails ch } }
      bumpReads (fun l => lunCh l == ch) 5 (raiseObj 74 ch 0 s)

/-! ### Reads and decodes (R180, R200, R213-R215, R243, R244) -/

/-- A page of a member has been read (R180): counted, and the stripe block queued for refresh at the group's threshold. -/
def countPageRead (l sb : Nat) (s : State) : State :=
  match Tab.find s.trl.sbs sb with
  | some b =>
    match ((List.range b.members.length).zip b.members).find? (fun p => lunNo p.2.blk == l) with
    | some (pos, _) =>
      let n := min (Tab.at b.pageReads pos 0 + 1) (2 ^ 32 - 1)
      let s := { s with trl := { s.trl with sbs := Tab.put s.trl.sbs sb { b with pageReads := Tab.put b.pageReads pos n } } }
      match s.flashGroup (chGroup (lunCh l)) with
      | some r => if r.readRefresh ≤ n ∧ !b.refresh then { s with trl := queueRefresh false sb s.trl } else s
      | none => s
    | none => s
  | none => s

/-- A flash read's array operation and transfer end on a LUN: the last one sends the codeword to the decoders (R200, R213). -/
def doFlashReadDone (rid l : Nat) (s : State) : State :=
  match Tab.find s.flc.rds rid, (Tab.find s.flc.luns l).bind (fun x => x.reading) with
  | some r, some cur =>
    if cur ≠ rid then s
    else
      let s := onLun l (fun x => { x with reading := none, resets := 0 }) s
      let s := match r.src with | .flash sb _ => countPageRead l sb s | _ => s
      let left := r.todo.erase l
      let s := onRd rid (fun r => { r with todo := left }) s
      pumpAll (if left = [] then decodeGeneral rid s else s)
  | _, _ => s

/-- A decode-margin trigger (R180, R181): the stripe block is queued for refresh, the trigger counted against its member. -/
def flashMargin (r : MediaRd) (s : State) : State :=
  match r.src with
  | .flash sb slot =>
    match Tab.find s.trl.sbs sb with
    | some b =>
      let b' := { b with margins := b.margins ++ [(slotPos sb b.width slot, s.wall)] }
      raiseObj 70 (readObj s r) 0 { s with trl := queueRefresh false sb { s.trl with sbs := Tab.put s.trl.sbs sb b' } }
    | none => s
  | _ => s

/-- The member's start level after a success at ladder step 3 (R215). [DEDUCED: log entry 100] -/
def keepLevel (r : MediaRd) (s : State) : State :=
  match r.src with
  | .flash sb slot =>
    match Tab.find s.trl.sbs sb with
    | some b =>
      let pos := slotPos sb b.width slot
      let s := { s with trl := { s.trl with sbs := Tab.put s.trl.sbs sb { b with levels := Tab.put b.levels pos r.level } } }
      onLun (readObj s r) (fun x => { x with level := r.level }) s
    | none => s
  | _ => s

/-- The read-retry level that step 3 tries after `tried` others: from the start level upward, then from level 1 (R215). [DEDUCED: log entry 98] -/
def stepLevel (start levels tried : Nat) : Option Nat :=
  let first := max 1 start
  let l := ((List.range (levels + 1)).filter (fun k => decide (first ≤ k))) ++ ((List.range (levels + 1)).filter (fun k => decide (1 ≤ k ∧ k < first)))
  l[tried]?

/-- A flash codeword's decode failed: the next ladder step (R215). [DEDUCED: log entry 100; DESIGN CHOICE: log entry 101] -/
def flashClimb (rid : Nat) (r : MediaRd) (s : State) : State :=
  let levels := (s.fgroup (chGroup (lunCh (readObj s r)))).levels
  let step3 := fun (s : State) =>
    match stepLevel r.best levels r.tried with
    | some k => retryRead rid 3 (onRd rid (fun r => { r with level := k, tried := r.tried + 1 }) s)
    | none => retryRead rid 4 s
  if r.step = 1 then retryRead rid 2 s
  else if r.step = 2 ∨ r.step = 3 then step3 s
  else if r.step = 4 then retryRead rid 5 s
  else if r.step = 5 then retryRead rid 6 s
  else endMediaRd rid false s

/-- A band queued for refresh (R180, R181). -/
def refreshBand (band : Nat) (s : State) : State :=
  { s with trl := { s.trl with bands := Tab.modify s.trl.bands band (fun b => { b with refresh := true }) } }

/-- Members of a platter row besides one (R236): 31 in stripes 0 to 7, 8 in stripe 8. [DESIGN CHOICE: log entry 101] -/
def platterOthers (slot : Nat) : Nat := if 8 * slot / 7936 < 8 then 31 else 8

/-- A sector read back after a trip fails (R247): EV137, and its slot is copied into BAND-MOVE. -/
def trimmed (rid : Nat) (r : MediaRd) (s : State) : State :=
  let s := endMediaRd rid true s
  match r.src with
  | .platter band slot =>
    let s := raiseObj 137 band 0 s
    match s.trl.map.find? (fun p => p.2 == .platter band slot), Tab.find s.trl.bands band with
    | some (u, e), some b =>
      match takeBandSlot .bandMove b.act s.trl with
      | some (d, t) => { s with trl := { t with copies := t.copies ++ [{ unit := u, src := e, dst := d, refresh := true, suspect := false }] } }
      | none => s
    | _, _ => s
  | _ => s

/-- A platter codeword's decode failed: a soft decode of the same read, then the next ladder step (R243). The read then waits for its
sector to pass again. [DESIGN CHOICE: log entry 101] -/
def platterClimb (rid : Nat) (r : MediaRd) (s : State) : State :=
  if r.back then trimmed rid r s
  else if !r.soft then decodeGeneral rid (onRd rid (fun r => { r with soft := true }) s)
  else
    let wait := fun (n : Nat) (s : State) => onRd rid (fun r => { r with step := n, soft := false }) s
    if r.step = 1 then wait 2 s
    else if r.step = 2 then wait 3 s
    else if r.step = 3 then decodeGeneral rid (onRd rid (fun r => { r with step := 4, soft := false, tried := 0 }) s)
    else if r.step = 4 then
      if r.tried + 1 < 6 then decodeGeneral rid (onRd rid (fun r => { r with tried := r.tried + 1, soft := false }) s) else wait 5 s
    else if r.step = 5 then
      match r.src with
      | .platter _ slot => count1 0xD00044 (onRd rid (fun r => { r with step := 6, soft := false, left := platterOthers slot }) s)
      | _ => s
    else endMediaRd rid false s

/-- A codeword decoded: what the ladder step that succeeded leaves (R180, R215, R244). -/
def decoded (rid : Nat) (r : MediaRd) (s : State) : State :=
  match r.src with
  | .platter band _ =>
    let s := if r.step = 4 then count1 0xD00040 (raiseObj 131 band 0 s) else s
    endMediaRd rid true (if 4 ≤ r.step then refreshBand band s else s)
  | _ =>
    let s := if r.step = 3 then keepLevel r s else s
    endMediaRd rid true (if 3 ≤ r.step then flashMargin r s else s)

/-- A decode ends (R214): at the first iteration that satisfies every check, or at its limit. -/
def decodeDone (rid : Nat) (ok : Bool) (iters : Nat) (s : State) : State :=
  match Tab.find s.flc.rds rid, decoderOf s.flc rid with
  | some r, some d =>
    let limit := if r.soft then s.reg 0xC0000C 0x28 else s.reg 0xC00008 0x14
    let good := ok && decide (iters ≤ limit)
    let s := releaseDecoder d s
    let s := if r.soft then s else { s with flc := { s.flc with
      iters := (s.flc.iters.filter (fun p => decide (s.wall < p.1 + 1000000))) ++ [(s.wall, min iters limit)] } }
    if good then decoded rid r (count1 0xC00010 s)
    else
      let s := count1 (if r.soft then 0xC00018 else 0xC00014) s
      match r.src with
      | .platter _ _ => platterClimb rid r s
      | _ => flashClimb rid r s
  | _, _ => s

/-- A decode ends; where it was a fixity check's and the read ends without it, the check has failed (R153). -/
def doDecodeDone (rid : Nat) (ok : Bool) (iters : Nat) (check : Option FixCheck) (s : State) : State :=
  let had := Tab.has s.flc.rds rid
  let s := decodeDone rid ok iters s
  if !ok ∧ had ∧ !Tab.has s.flc.rds rid then fixityFail check 3 s else s

/-! ### Bring-up and group replacement (R201-R204, R219-R222) -/

/-- The member erase blocks of a LUN as they join a list, with the counts kept for a die held before (R221). -/
def lunBlocks (s : State) (f : DieFacts) (l uid : Nat) : List FreeBlk :=
  let kept := Tab.at s.flc.kept uid []
  (List.range f.members).map (fun k =>
    let pe := ((kept.find? (fun m => m.blk.blk == k)).map (fun m => m.pe)).getD 0
    { blk := { ch := lunCh l, ce := l / 4 % 8, lun := l % 4, blk := k }, pe := pe, slots := f.rows })

/-- A group's dies are brought up (R201-R203): its rate, its LUNs, the channels that fail at N = 1. [DESIGN CHOICE: log entry 97] -/
def bringUp (g : Nat) (f : DieFacts) (s : State) : State :=
  let grp : FlashGroup :=
    { n := f.n, rows := f.rows, setSlots := max 1 f.setSlots, members := f.members, levels := f.levels, endurance := f.endurance,
      brick := f.brick, faulted := false }
  let dead := f.dead.filter (fun c => chGroup c == g)
  let luns := (f.luns.filter (fun p => inGroup g p.1 && decide (p.1 < 1024))).foldl (fun t p =>
    Tab.update t p.1 {} (fun (x : LunState) => { x with uid := p.2 })) s.flc.luns
  let s := { s with
    flc := { s.flc with
      groups := Tab.put s.flc.groups g grp
      luns := luns
      deadCh := dead.foldl setAdd (s.flc.deadCh.filter (fun c => chGroup c != g))
      trainedAt := (List.range 8).foldl (fun t i => Tab.put t (8 * g + i) s.wall) s.flc.trainedAt }
    clk := { s.clk with fioN := Tab.put s.clk.fioN g f.n } }
  dead.foldl (fun s c => raiseObj 74 c 0 (raiseObj 69 c 0 s)) s

/-- The counts of a group's blocks, by unique ID, as the checkpoint keeps them (R221). -/
def keepCounts (g : Nat) (s : State) : State :=
  let luns := s.flc.luns.filter (fun p => inGroup g p.1)
  { s with flc := { s.flc with kept := luns.foldl (fun t p =>
      Tab.put t p.2.uid (s.trl.freeBlks.filter (fun m => lunNo m.blk == p.1))) s.flc.kept } }

/-- Stripe blocks with a member in a group (FLC_HR_LEFT). -/
def hrLeft (s : State) (g : Nat) : Nat := Tab.count s.trl.sbs (fun _ b => b.members.any (fun m => chGroup m.blk.ch == g))

/-- A replacement command is refused: ERR, and the group it named where none is in progress. -/
def hrRefuse (g err : Nat) (s : State) : State :=
  { s with flc := { s.flc with hrErr := err, hrGroup := if s.flc.hr = .idle then g else s.flc.hrGroup } }

/-- A replacement command for group `g` (R222): refused while another group is in progress; else `f`. -/
def hrCommand (g : Nat) (f : State → State) (s : State) : State :=
  if !writable s false ∨ 4 ≤ g then s
  else if s.flc.hr ≠ .idle ∧ s.flc.hrGroup ≠ g then hrRefuse g 1 s
  else f s

/-- A replacement command is accepted: ERR clears. -/
def hrAccept (g : Nat) (p : HrPhase) (s : State) : State :=
  { s with flc := { s.flc with hrGroup := g, hr := p, hrErr := 0, hrTotal := if p = .evacuating then hrLeft s g else s.flc.hrTotal } }

/-- EVACUATE (R220): every stripe block with a member in the group becomes a refresh victim; the group's channels take no new ones. -/
def doFlcEvacuate (g : Nat) (s : State) : State :=
  hrCommand g (fun s =>
    if s.flc.hr ≠ .idle ∨ (s.fgroup g).faulted then hrRefuse g 8 s
    else if 95 * dataSlots s (some g) / 100 < s.trl.flash.charged then hrRefuse g 2 s
    else
      let s := hrAccept g .evacuating s
      let mine := (s.trl.sbs.filter (fun p => p.2.members.any (fun m => chGroup m.blk.ch == g))).map (fun p => p.1)
      let t := mine.foldl (fun t k => queueRefresh false k { t with
        sbs := Tab.modify t.sbs k (fun b => { b with closed := match b.closed with | some c => some c | none => some s.cue.now }) }) s.trl
      let smp := s.samplerGroups
      { s with trl := t, evt := { s.evt with moving := s.evt.moving || smp.1 == g || smp.2 == g } }) s

/-- FLC_HR_LEFT reaches 0 (R220): D excludes the group, M follows (R192). -/
def doEvacuationDone (s : State) : State :=
  let g := s.flc.hrGroup
  if s.flc.hr = .evacuating ∧ hrLeft s g = 0 then
    let s := { s with flc := { s.flc with hr := .evacuated }, evt := { s.evt with moving := false } }
    setSlots (dataSlots s (some g)) s
  else s

/-- REMOVE (R220, R222): CK_FIOg stops and the group's outputs float; its dies are gone. [DEDUCED: log entry 102] -/
def doFlcRemove (g : Nat) (s : State) : State :=
  hrCommand g (fun s =>
    match s.flc.hr with
    | .evacuated =>
      if !s.clkPlan.2.1.testBit (12 + g) then hrRefuse g 3 s
      else
        let s := hrAccept g .removed (keepCounts g s)
        { s with
          clk := { s.clk with stopped := setAdd s.clk.stopped (12 + g) }
          flc := { s.flc with luns := s.flc.luns.filter (fun p => !inGroup g p.1) }
          trl := { s.trl with freeBlks := s.trl.freeBlks.filter (fun m => chGroup m.blk.ch != g) } }
    | .idle | .evacuating => hrRefuse g 4 s
    | _ => hrRefuse g 8 s) s

/-- INSERT (R220, R221): the clock starts, the dies are brought up and checked, every member erase block is erased. -/
def doFlcInsert (g : Nat) (force : Bool) (f : DieFacts) (s : State) : State :=
  hrCommand g (fun s =>
    if s.flc.hr ≠ .removed then hrRefuse g 8 s
    else if !f.geometryOk then hrRefuse g 5 s
    else if (f.brick.any (fun b => b != s.trl.brickId)) ∧ !force then hrRefuse g 6 s
    else if (List.range 8).all (fun i => f.dead.contains (8 * g + i)) then hrRefuse g 7 s
    else
      let s := hrAccept g .inserting s
      let s := bringUp g f { s with clk := { s.clk with stopped := setDel s.clk.stopped (12 + g) } }
      let new := (f.luns.filter (fun p => inGroup g p.1)).foldl (fun l p => l ++ lunBlocks s f p.1 p.2) []
      let s := { s with trl := { s.trl with freeBlks := s.trl.freeBlks ++ new } }
      { s with flc := { s.flc with ops := s.flc.ops ++ new.map (fun m =>
          { op := .erase, lun := lunNo m.blk, blk := m.blk, sb := none, pos := 0, row := 0, point := none, cue := none, running := false }) } }) s

/-- Every member of the inserted group is erased (R220): the group is normal, M rises toward 92% of D. -/
def doInsertionDone (s : State) : State :=
  let g := s.flc.hrGroup
  if s.flc.hr = .inserting ∧ !s.flc.ops.any (fun o => o.sb == none && inGroup g o.lun) then
    let s := setSlots (dataSlots s none) { s with flc := { s.flc with hr := .idle } }
    let t := s.trl.flash
    { s with trl := { s.trl with flash := { t with units := max t.units (92 * t.slots / 100) } } }
  else s

/-- CANCEL (R222): an evacuating or evacuated group returns to normal. -/
def doFlcCancel (g : Nat) (s : State) : State :=
  hrCommand g (fun s =>
    match s.flc.hr with
    | .evacuating | .evacuated =>
      let s := hrAccept g .idle { s with evt := { s.evt with moving := false } }
      setSlots (dataSlots s none) s
    | _ => hrRefuse g 8 s) s

/-- RESUME (R219, R222): a faulted group is brought up again; when it answers, every read is served normally. -/
def doFlcResume (g : Nat) (answers : Bool) (s : State) : State :=
  hrCommand g (fun s =>
    if !(s.fgroup g).faulted then hrRefuse g 8 s
    else
      let s := { s with flc := { s.flc with hrErr := 0, hrGroup := g } }
      if answers then
        pumpAll { s with flc := { s.flc with groups := Tab.modify s.flc.groups g (fun x => { x with faulted := false }) } }
      else s) s

/-! ### What the FLC_ and LDP_ registers show (R223, R224) -/

/-- A group's code in FLC_GROUP_STATE. -/
def groupCode (s : State) (g : Nat) : Nat :=
  if (s.fgroup g).faulted then 5
  else if s.flc.hrGroup ≠ g then 0
  else match s.flc.hr with | .idle => 0 | .evacuating => 1 | .evacuated => 2 | .removed => 3 | .inserting => 4

/-- LUNs that the FLASH_GROUP records name. -/
def namedLuns (s : State) : List Nat :=
  ([0, 1, 2, 3].map (fun g =>
    match s.flashGroup g with
    | some r => (List.range 256).filterMap (fun i =>
        let l := g * 256 + i
        if r.channels.testBit (lunCh l % 8) ∧ l / 4 % 8 < r.chipEnables ∧ l % 4 < r.lunsPerTarget then some l else none)
    | none => [])).flatten

/-- Percent of the replacement's step done. -/
def hrDone (s : State) : Nat :=
  match s.flc.hr with
  | .evacuating => if s.flc.hrTotal = 0 then 100 else (s.flc.hrTotal - hrLeft s s.flc.hrGroup) * 100 / s.flc.hrTotal
  | .inserting =>
    let all := s.trl.freeBlks.filter (fun m => chGroup m.blk.ch == s.flc.hrGroup)
    let left := s.flc.ops.filter (fun o => o.sb == none && inGroup s.flc.hrGroup o.lun)
    if all.length = 0 then 100 else (all.length - left.length) * 100 / all.length
  | .idle => 0
  | _ => 100

/-- The FLC_ and LDP_ registers. [DEDUCED: log entry 98] -/
def flashView (s : State) (o : Nat) : Option Nat :=
  let f := s.flc
  if o = 0xB00004 then some (([0, 1, 2, 3].map (fun g => field (groupCode s g) 4 (8 * g))).sum)
  else if o = 0xB00008 then some ((s.usable.map (fun c => 2 ^ c)).sum)
  else if o = 0xB0000C then some (let w := s.usable.length; if w < 16 then 0 else w)
  else if o = 0xB00024 then
    let l := s.reg 0xB00020 0
    match Tab.find f.luns l with
    | some x => some (field (b2n x.retired) 2 30 + field x.level 4 24 + field (min x.stuck 255) 8 16 + min x.membersRetired 65535)
    | none => some (field 2 2 30)
  else if o = 0xB00028 then
    some (((namedLuns s).filter (fun l => !Tab.has f.luns l)).length + Tab.count f.luns (fun _ x => x.retired))
  else if o = 0xB0003C then
    some (field f.hrErr 8 16 + field (hrDone s) 8 8 + field f.hrGroup 2 4 +
      (match f.hr with | .idle => 0 | .evacuating => 1 | .evacuated => 2 | .removed => 3 | .inserting => 4))
  else if o = 0xB00040 then some (if f.hr = .evacuating ∨ f.hr = .evacuated then hrLeft s f.hrGroup else 0)
  else if o = 0xC00004 then some (field (Tab.count f.decs (fun d _ => decide (56 ≤ d))) 4 16 + field f.decs.length 7 0)
  else if o = 0xC0001C then
    let l := (f.iters.filter (fun p => decide (s.wall < p.1 + 1000000))).map (fun p => p.2)
    some (if l = [] then 0 else min (l.sum * 16 / l.length) 65535)
  else none

end Sys2Proof.Machine
end

