-- ==== Sys2Proof/Machine/Smock.lean ====
section
/-! DEFINITION. Smock's jobs (13_smock_and_tally.md, R336-R345, R358). -/
namespace Sys2Proof.Machine

/-! ### Tasks of engines -/

/-- The running task of a unit that a handle names. -/
def engineTask (s : State) (unit h : Nat) : Option (Nat × Task) :=
  match s.smg.resolve h with
  | some (i, t) =>
    match t.phase with
    | .running _ => if t.unit = unit ∧ s.unitsRun then some (i, t) else none
    | _ => none
  | none => none

/-- An engine's task completes with a status. -/
def endEngine (i st : Nat) (s : State) : State := goOn (completeTask i st s)

/-! ### Job descriptors (R345) -/

/-- A Smock job descriptor. -/
structure SmockJob where
  op : Nat
  fmt : Nat
  level : Nat
  flags : Nat
  wlog : Nat
  src : Nat
  srcLen : Nat
  cap : Nat
  dst : Nat
  crc : Nat
  deriving DecidableEq, Repr

/-- The fields of a descriptor. -/
def smockJobOf (b : Bytes) : SmockJob :=
  { op := leAt b 0 1, fmt := leAt b 1 1, level := leAt b 2 1, flags := leAt b 3 1, wlog := leAt b 4 1, src := leAt b 8 8,
    srcLen := leAt b 0x10 4, cap := leAt b 0x14 4, dst := leAt b 0x18 8, crc := leAt b 0x20 8 }

/-- Are the fields in their ranges and the reserved ones zero (status 0x16)? [DEDUCED: log entry 139] -/
def smockOk (maxLog : Nat) (j : SmockJob) (b : Bytes) : Bool :=
  decide (j.op ≤ 1 ∧ 1 ≤ j.fmt ∧ j.fmt ≤ 3 ∧ j.flags ≤ 1 ∧ 1 ≤ j.cap ∧ j.cap ≤ 8388608) &&
  allZero (slice b 5 3) && allZero (slice b 0x30 16) &&
  (if j.op = 0 then decide (1 ≤ j.level ∧ j.level ≤ 9 ∧ 10 ≤ j.wlog ∧ j.wlog ≤ maxLog ∧ j.srcLen ≤ 262144)
   else j.level == 0 && j.wlog == 0)

/-- What a job ends with, before anything is written. [DESIGN CHOICE: log entry 135; DEDUCED: log entry 136] -/
def smockEnd (maxLog : Nat) (j : SmockJob) (b src : Bytes) : SmockEnd :=
  if !smockOk maxLog j b then ⟨0x16, []⟩
  else if j.op = 0 then compressEnd j.fmt j.level j.wlog j.cap src
  else decompressEnd j.fmt j.cap (if bit j.flags 0 then some j.crc else none) src

/-- The 16 bytes of a completion record. [DEDUCED: log entry 134] -/
def smockRecord (st len crc : Nat) : Bytes := leBytes 1 st ++ leBytes 3 0 ++ leBytes 4 len ++ leBytes 8 crc

/-- A job's output lands at DST; of one that overflowed the destination is undefined (R341). [DESIGN CHOICE: log entry 135] -/
def smockStore (j : SmockJob) (e : SmockEnd) (s : State) : State :=
  if e.status = 0x81 then
    let (b, s) := freeBytes j.cap s
    dramStore j.dst b s
  else if e.status = 0x00 ∨ e.status = 0x11 ∨ e.status = 0x12 then dramStore j.dst e.out s
  else s

/-- A Store whose compress job overflows where raw storage is allowed goes on with the chunk raw (R342). [DEDUCED: log entry 136] -/
def goesRaw (s : State) (t : Task) (op st : Nat) : Bool :=
  op == 0 && st == 0x81 && s.smockLanes.2.2.2.2 &&
  match t.scene.bind s.sceneNo with
  | some (_, c) => match c.kind with | .kvStore .. => true | _ => false
  | none => false

/-- A Smock job runs on its lane: its record is written and its task completes. [DESIGN CHOICE: log entry 144] -/
def smockRun (h : Nat) (op : Nat) (check : Option FixCheck) (s : State) : State :=
  let s := closeWindows s
  match engineTask s 8 h with
  | none => s
  | some (i, t) =>
    if t.stopping then endEngine i 0 s
    else
      let b := s.dramRead t.job 64
      let j := smockJobOf b
      if (j.op = 1) ≠ (op = 1) then s
      else
        let e := smockEnd s.smockLanes.2.2.2.1 j b (s.dramRead j.src j.srcLen)
        let s := smockStore j e s
        let crc := if bit j.flags 0 ∧ e.status ≠ 0x81 ∧ e.status ≠ 0x16 then crc64 e.out else 0
        let s := writeRecord t (smockRecord e.status e.out.length crc) s
        let s := smockEvents e.status h t.tag s
        let s := if j.op = 0 ∧ e.status = 0 then smockTotals j.srcLen e.out.length s else s
        let raw := goesRaw s t j.op e.status
        let s := if raw then raise 261 0 h 0 t.tag (count1 0x800014 s) else s
        let s := if e.status ≠ 0 then fixityFail check 3 s else s
        endEngine i (if raw then 0 else e.status) s

/-- A compress job (R338-R342). [DESIGN CHOICE: log entry 140] -/
def doSmockCompress (h : Nat) (s : State) : State := smockRun h 0 none s

/-- A decompress job (R343, R344); a failed one of a fixity check is a fixity failure (R153). [DESIGN CHOICE: log entry 140] -/
def doSmockDecompress (h : Nat) (check : Option FixCheck) (s : State) : State := smockRun h 1 check s

/-! ### What the SMK_ registers show (R358) -/

/-- Lanes of a unit that run a task. [DESIGN CHOICE: log entry 140] -/
def State.busyLanes (s : State) (unit : Nat) : Nat :=
  ((List.range (unitPlaces unit)).map (fun p => flag (placeTaken s unit p) p)).sum

/-- The SMK_ registers. [DEDUCED: log entry 137] -/
def smkView (s : State) (o : Nat) : Option Nat :=
  let m := s.smockLanes
  if o = 0x800004 then some (s.busyLanes 8)
  else if o = 0x800008 then some (256 - (s.ctxTags 8).length)
  else if o = 0x80000C then
    some (flag m.2.2.2.2 24 + field m.2.2.2.1 5 16 + field m.2.2.1 4 8 + field m.2.1 4 4 + field m.1 4 0)
  else none

end Sys2Proof.Machine
end

