-- ==== Sys2Proof/Machine/Tally.lean ====
section
/-! DEFINITION. Tally's jobs and the tenant-window slots (13_smock_and_tally.md, R346-R359). -/
namespace Sys2Proof.Machine

/-- Tally changed. -/
def onTly (f : TlyState → TlyState) (s : State) : State := { s with tly := f s.tly }

/-! ### Keys and results (R346, R350, R351) -/

/-- The device slot of a tenant's slot number (R389). -/
def State.deviceSlot (s : State) (tag n : Nat) : Option Nat :=
  match s.keyPartition tag with
  | some p => if n < p.count then some (p.first + n) else none
  | none => none

/-- A key slot. -/
def State.keySlot (s : State) (k : Nat) : KeySlot := Tab.at s.scr.slots k {}

/-- What a keyed algorithm latches: a MAC key in the tenant's slot, with its generation (R346, R350). -/
def State.macKey (s : State) (tag n : Nat) : Option (Nat × Nat × BitVec 512) :=
  match s.deviceSlot tag n with
  | some k => let x := s.keySlot k; if x.kind = 4 then some (k, x.gen, x.key) else none
  | none => none

/-- The result of an algorithm over a message (R346, R347). -/
def tallyDigest (alg : Nat) (key : Option (Nat × Nat × BitVec 512)) (msg : Bytes) : Bytes :=
  let d := match key with | some k => Config.mac alg k.2.2 msg | none => Config.digest alg msg
  (digestBytes d.toNat).take (digestLen alg)

/-- The words that the two compare paths write; `flip0` and `flip1` are faults of a path (R351). -/
def comparePair (flip0 flip1 : Bool) (a b : Bytes) : Nat × Nat :=
  let eq := a == b
  (if eq != flip0 then 0x5A5A5A5A else 0xC3C3C3C3, if eq != flip1 then 0xA5A5A5A5 else 0x3C3C3C3C)

/-- Only this pair is a match (R351). -/
def isMatch (p : Nat × Nat) : Bool := p.1 == 0x5A5A5A5A && p.2 == 0xA5A5A5A5

/-- Do the two paths disagree? -/
def pathsDiffer (p : Nat × Nat) : Bool := (p.1 == 0x5A5A5A5A) != (p.2 == 0xA5A5A5A5)

/-- A compare fault of a lane: counted; the second within 24 hours takes the lane out of service (R351). [DEDUCED: log entry 143] -/
def compareFault (lane obj tag : Nat) (s : State) : State :=
  let day := 86400000000000
  let old := s.tly.faults.filter (fun f => f.1 == lane && decide (s.wall < f.2 + day))
  let s := raise 274 0 obj 0 tag (count1 0x700024 (onTly (fun y => { y with faults := y.faults ++ [(lane, s.wall)] }) s))
  if old = [] ∨ s.tly.dead.contains lane then s
  else raise 278 0 lane 0 0 (onTly (fun y => { y with dead := setAdd y.dead lane }) s)

/-- A compare of a result: its pair, with the events of a mismatch and of a fault (R351). [DESIGN CHOICE: log entry 155] -/
def compare (flip0 flip1 : Bool) (lane obj tag : Nat) (a b : Bytes) (s : State) : (Nat × Nat) × State :=
  let p := comparePair flip0 flip1 a b
  let s := if pathsDiffer p then compareFault lane obj tag s else s
  (p, if isMatch p then s else raise 273 0 obj 0 tag (count1 0x700020 s))

/-- A result entry of kind 1 is posted; answers whether a public copy was asked for and refused (R353). -/
def postTally (tag alg : Nat) (d : Bytes) (pub : Bool) (s : State) : Bool × State :=
  let r : ResultReq := { kind := 1, result := 0, alg := alg, tag := tag, nsid := 0, key := [], objId := 0
                         digest := beNat (padTo d 64), pub := pub }
  (pub && !s.mayPublish tag, count1 0x700030 (postResult r s))

/-! ### Jobs in parts (R348-R353) -/

/-- A Tally job descriptor. -/
structure TallyJob where
  alg : Nat
  flags : Nat
  ctx : Nat
  keySlot : Nat
  lastVb : Nat
  src : Nat
  len : Nat
  expect : Nat
  deriving DecidableEq, Repr

/-- The fields of a descriptor. -/
def tallyJobOf (b : Bytes) : TallyJob :=
  { alg := leAt b 0 1, flags := leAt b 1 1, ctx := leAt b 2 2, keySlot := leAt b 4 2, lastVb := leAt b 6 1, src := leAt b 8 8,
    len := leAt b 0x10 4, expect := leAt b 0x18 8 }

/-- FIRST, LAST and COMPARE of a job. -/
def TallyJob.first (j : TallyJob) : Bool := bit j.flags 0
def TallyJob.final (j : TallyJob) : Bool := bit j.flags 1
def TallyJob.compares (j : TallyJob) : Bool := bit j.flags 2

/-- Are the fields that need no state valid (status 0x01)? [DEDUCED: log entry 139] -/
def tallyOk (j : TallyJob) (b : Bytes) : Bool :=
  decide (digestLen j.alg ≠ 0 ∧ j.flags < 32) && allZero (slice b 7 1) && allZero (slice b 0x14 4) && allZero (slice b 0x28 24) &&
  (decide (16 ≤ j.alg) || j.keySlot == 0) && (!bit j.flags 4 || decide (j.alg ≤ 3)) && (j.final || j.lastVb == 0) &&
  (if j.first then j.ctx == 0xFFFF else decide (j.ctx ≤ 255))

/-- Is a part's length invalid: a last word's count above 8, or a part before the last not a whole number of words (R348)? -/
def partInvalid (j : TallyJob) : Bool := if j.final then decide (8 < j.lastVb) else j.len % 8 != 0

/-- The message so far that a part goes on with, or the status that the part fails with. -/
def partStart (s : State) (tag : Nat) (j : TallyJob) : TlyCtx ⊕ Nat :=
  if j.first then
    if j.alg < 16 then .inl { tag := tag, alg := j.alg, key := none, data := [] }
    else
      match s.macKey tag j.keySlot with
      | some k => .inl { tag := tag, alg := j.alg, key := some k, data := [] }
      | none => .inr 0x01
  else
    match Tab.find s.tly.ctxs j.ctx with
    | some c => if c.tag ≠ tag then .inr 0x02 else if c.alg ≠ j.alg then .inr 0x01 else if c.aborted then .inr 0x84 else .inl c
    | none => .inr 0x01

/-- The 96 bytes of a completion record. -/
def tallyRecord (st ctx : Nat) (pair : Nat × Nat) (d : Bytes) : Bytes :=
  leBytes 1 st ++ leBytes 1 0 ++ leBytes 2 ctx ++ leBytes 1 d.length ++ leBytes 3 0 ++ leBytes 4 pair.1 ++ leBytes 4 pair.2 ++
  List.replicate 16 0 ++ padTo d 64

/-- The events and counts of a job that fails. -/
def tallyFailEvents (st obj tag : Nat) (s : State) : State :=
  if st = 0x89 then raise 272 0 obj 0 tag (count1 0x70001C s)
  else if st = 0x84 then raise 275 0 obj 0 tag (count1 0x700028 s)
  else if st = 0x03 then raise 276 0 obj 0 tag s
  else if st = 0x02 then refuseAt 353 obj tag s
  else s

/-- A Tally job fails: its context is freed, its record carries the status. -/
def failTally (i h : Nat) (t : Task) (st : Nat) (s : State) : State :=
  endEngine i st (tallyFailEvents st h t.tag (emptyRecord t st s))

/-- What a check finds of the digest its job computed (R153). -/
def checkDigest (check : Option FixCheck) (st : Nat) (d : Bytes) (s : State) : State :=
  match check with
  | some c => fixityDone c.nsid c.obj (if st = 0 then 0 else if c.recovers then 2 else 1) (beNat (padTo d 64)) s
  | none => s

/-- The last part of a message: its result, compared and posted as asked; the context is freed (R349, R351, R353). [DESIGN CHOICE: log entry 144] -/
def finishTally (i h lane : Nat) (t : Task) (j : TallyJob) (c : TlyCtx) (f0 f1 : Bool) (check : Option FixCheck) (s : State) :
    State :=
  let word := s.dramRead (j.src + j.len) 8
  let d := tallyDigest c.alg c.key (c.data ++ s.dramRead j.src j.len ++ word.take j.lastVb)
  let (pair, s) := if j.compares then compare f0 f1 lane h t.tag d (s.dramRead j.expect d.length) s else ((0, 0), s)
  let st := if j.compares && !isMatch pair then 0x82 else 0
  let s := freeJobCtx t (writeRecord t (tallyRecord st j.ctx pair d) s)
  let s := if st = 0 ∧ bit j.flags 3 then (postTally t.tag c.alg d (bit j.flags 4) s).2 else s
  endEngine i st (if j.compares then checkDigest check st d s else s)

/-- A part that is not the last: its message sits in a saved context (R348, R352). -/
def keepTally (i : Nat) (t : Task) (j : TallyJob) (c : TlyCtx) (s : State) : State :=
  let k := if j.first then (Tab.freeKey s.tly.ctxs 256 0).getD 0 else j.ctx
  let s := onTly (fun y => { y with ctxs := Tab.put y.ctxs k { c with data := c.data ++ s.dramRead j.src j.len } }) s
  endEngine i 0 (writeRecord t (tallyRecord 0 k (0, 0) []) s)

/-! ### Tenant-window slots (R354, R355) -/

/-- A slot's number among all. [DESIGN CHOICE: log entry 141] -/
def slotNo (tag j : Nat) : Nat := tag * 4 + j

/-- A job slot. -/
def State.tslot (s : State) (k : Nat) : TlySlot := Tab.at s.tly.slots k {}

/-- A job slot changed. -/
def onTlySlot (k : Nat) (f : TlySlot → TlySlot) (s : State) : State :=
  onTly (fun y => { y with slots := Tab.update y.slots k {} f }) s

/-- The context of a slot's message is free again. -/
def freeSlotCtx (k : Nat) (s : State) : State :=
  match (s.tslot k).ctx with
  | some c => onTly (fun y => { y with ctxs := Tab.del y.ctxs c }) s
  | none => s

/-- A slot's task stops: running, its completion is discarded; waiting, it is gone. -/
def stopSlotTask (k : Nat) (s : State) : State :=
  match ((s.tslot k).task).bind s.smg.resolve with
  | some (i, t) => cancelTask i t s
  | none => s

/-- A slot's message ends with a status: its context is freed, nothing is posted (R348, R354, R355). -/
def failSlot (k st : Nat) (s : State) : State :=
  let s := freeSlotCtx k (stopSlotTask k s)
  onTlySlot k (fun x => { x with state := 4, err := st, fifo := [], msg := [], ctx := none, task := none, key := none }) s

/-- A slot's part becomes a task on list 0 with class 0 (R348, R354, R530); refused it fails the job with 0x01. [DESIGN CHOICE: log entry 141] -/
def slotTask (k : Nat) (s : State) : State :=
  let tag := k / 4
  if (s.tslot k).task.isSome then s
  else if taskRoom s tag 1 then
    let (i, s) := createOwn { unit := 7, list := 0, dep := 0, tag := tag, cls := 0, scene := none, job := slotJob + k } s
    onTlySlot k (fun x => { x with task := some (s.smg.handle i) }) s
  else failSlot k 0x01 s

/-- A slot's message takes a context of its tenant's pool, where one is free (R349, R354). -/
def takeSlotCtx (k : Nat) (s : State) : State :=
  let x := s.tslot k
  if x.ctx.isSome ∨ !ctxRoom s 7 (k / 4) then s
  else
    match Tab.freeKey s.tly.ctxs 256 0 with
    | some c =>
      onTlySlot k (fun x => { x with ctx := some c })
        (onTly (fun y => { y with ctxs := Tab.put y.ctxs c { tag := k / 4, alg := x.alg, key := none, data := [] } }) s)
    | none => s

/-- TW_TLY_Jj_CTRL takes a START (R354, R355): only in the states idle, done and failed. [DEDUCED: log entry 142] -/
def doTwTlyStart (tag j : Nat) (val : W32) (s : State) : State :=
  let v := val.toNat
  let k := slotNo tag j
  if j < 4 ∧ bits v 31 28 = 1 ∧ writable s false ∧ ((s.tslot k).state ≠ 1 ∧ (s.tslot k).state ≠ 2) then
    let r := fun (o : Nat) => tenantKey tag (o + 0x40 * j)
    let alg := bits v 20 16
    let keyed := decide (16 ≤ alg)
    let key := if keyed then s.macKey tag (s.reg (r 0x1008) 0) else none
    let exp := ((List.range 16).map (fun i => leBytes 4 (s.reg (tenantKey tag (0x1400 + 0x80 * j + 4 * i)) 0))).flatten
    let slm := bit v 8
    let x : TlySlot :=
      { state := if slm then 2 else 1, alg := alg, key := key, compare := bit v 0, post := bit v 1, pub := bit v 2
        expect := exp.take (digestLen alg)
        range := if slm then some (s.reg64 (r 0x1010), s.reg64 (r 0x1018)) else none
        lastWrite := s.wall }
    let s := onTlySlot k (fun _ => x) s
    if digestLen alg = 0 ∨ (keyed ∧ key.isNone) ∨ (bit v 2 ∧ 3 < alg) then failSlot k 0x01 s
    else
      let s := takeSlotCtx k s
      if slm then slotTask k s else s
  else s

/-- ABORT ends a slot's message (R355). -/
def doTwTlyAbort (tag j : Nat) (s : State) : State :=
  let k := slotNo tag j
  if j < 4 ∧ writable s false ∧ ((s.tslot k).state = 1 ∨ (s.tslot k).state = 2) then failSlot k 0x05 s else s

/-- A write of a slot that has no open stream is discarded and counted (R354). [DEDUCED: log entry 142] -/
def dropWrite (tag : Nat) (s : State) : State := count1 (tenantKey tag 0x1820) s

/-- A write of TW_TLY_Jj_DATA_HI appends a word; one that finds the FIFO full fails the job (R354). [DEDUCED: log entry 142] -/
def doTwTlyDataHi (q : Requester) (tag j : Nat) (hi : W32) (s : State) : State :=
  if j < 4 ∧ mayReach s q (.tenant tag) ∧ writable s false then
    let key := tenantKey tag (0x1020 + 0x40 * j)
    let w := formed s q key 0 hi
    let s := useLow q key s
    let k := slotNo tag j
    let x := s.tslot k
    if x.state ≠ 1 then dropWrite tag s
    else if 4096 ≤ x.fifo.length then failSlot k 0x04 s
    else slotTask k (onTlySlot k (fun x => { x with fifo := x.fifo ++ leBytes 8 w, lastWrite := s.wall }) s)
  else s

/-- A write of TW_TLY_Jj_LAST_VB appends the last word and finishes the message (R348, R354). [DEDUCED: log entry 142] -/
def doTwTlyLastVb (tag j vb : Nat) (s : State) : State :=
  if j < 4 ∧ writable s false then
    let k := slotNo tag j
    let x := s.tslot k
    let n := vb % 16
    if x.state ≠ 1 then dropWrite tag s
    else if 8 < n then raise 272 0 k 0 tag (count1 0x70001C (failSlot k 0x89 s))
    else if 4096 ≤ x.fifo.length then failSlot k 0x04 s
    else
      let w := leBytes 8 (s.reg64 (tenantKey tag (0x1028 + 0x40 * j)))
      slotTask k (onTlySlot k (fun x => { x with fifo := x.fifo ++ w.take n, last := true, state := 2, lastWrite := s.wall }) s)
  else s

/-- A stream with no write for TLY_IDLE_MS fails (R355). -/
def doTallyStreamIdle (tag j : Nat) (s : State) : State :=
  let k := slotNo tag j
  let x := s.tslot k
  if j < 4 ∧ x.state = 1 ∧ x.lastWrite + s.reg 0x700018 0x2710 * 1000000 ≤ s.wall then
    raise 276 0 k 0 tag (failSlot k 0x03 s)
  else s

/-- A slot's message ends: its result, its pair and its posting show in the slot (R353, R354). -/
def finishSlot (i k lane : Nat) (msg : Bytes) (f0 f1 : Bool) (s : State) : State :=
  let x := s.tslot k
  let tag := k / 4
  let d := tallyDigest x.alg x.key msg
  let (pair, s) := if x.compare then compare f0 f1 lane k tag d x.expect s else ((0, 0), s)
  let ok := !x.compare || isMatch pair
  let s := freeSlotCtx k s
  let (np, s) := if ok && x.post then postTally tag x.alg d x.pub s else (false, s)
  let s := onTlySlot k (fun x => { x with
    state := if ok then 3 else 4, err := if ok then 0 else 0x82, fifo := [], msg := [], ctx := none, task := none, key := none
    digest := padTo d 64, cmp0 := pair.1, cmp1 := pair.2, posted := ok && x.post, notPublic := np }) s
  endEngine i (if ok then 0 else 0x82) s

/-- A part of a slot's message runs on a lane: it takes what the FIFO holds, or the SLM range (R348, R354). -/
def runSlot (i k lane : Nat) (f0 f1 : Bool) (s : State) : State :=
  let x := s.tslot k
  let tag := k / 4
  let s := onTlySlot k (fun x => { x with task := none }) s
  if x.aborted then endEngine i 0x84 (raise 275 0 k 0 tag (count1 0x700028 (failSlot k 0x84 s)))
  else
    match x.range with
    | some (off, len) =>
      if s.slmSize tag < off + len then endEngine i 0x02 (failSlot k 0x02 s) else finishSlot i k lane (s.slmRead tag off len) f0 f1 s
    | none =>
      if x.last then finishSlot i k lane (x.msg ++ x.fifo) f0 f1 s
      else endEngine i 0 (onTlySlot k (fun x => { x with msg := x.msg ++ x.fifo, fifo := [] }) (takeSlotCtx k s))

/-! ### The row -/

/-- A Tally job of one part runs on its lane (R346-R353). `flip0` and `flip1` are faults of the compare paths. -/
def doTallyJob (h : Nat) (flip0 flip1 : Bool) (check : Option FixCheck) (s : State) : State :=
  let s := closeWindows s
  match engineTask s 7 h with
  | none => s
  | some (i, t) =>
    let lane := match t.phase with | .running p => p | _ => 0
    if t.stopping then endEngine i 0x05 (if slotJob ≤ t.job then s else emptyRecord t 0x05 s)
    else if slotJob ≤ t.job then runSlot i (t.job - slotJob) lane flip0 flip1 s
    else
      let b := s.dramRead t.job 64
      let j := tallyJobOf b
      if !tallyOk j b then failTally i h t 0x01 s
      else if partInvalid j then failTally i h t 0x89 s
      else
        match partStart s t.tag j with
        | .inr st => failTally i h t st s
        | .inl c => if j.final then finishTally i h lane t j c flip0 flip1 check s else keepTally i t j c s

/-! ### What the TLY_ and TW_TLY registers show (R357, R358) -/

/-- The TLY_ registers. -/
def tlyView (s : State) (o : Nat) : Option Nat :=
  if o = 0x700004 then some (s.busyLanes 7)
  else if o = 0x700008 then some (((List.range 16).map (fun p => flag (!s.tly.dead.contains p) p)).sum)
  else if o = 0x70000C then some (field s.tallyLanes.2 5 8 + field s.tallyLanes.1 5 0)
  else if o = 0x700010 then some (256 - (s.ctxTags 7).length)
  else none

/-- The Tally slots of a tenant window. -/
def twTlyView (s : State) (tag o : Nat) : Option Nat :=
  if 0x1000 ≤ o ∧ o < 0x1100 then
    let x := s.tslot (slotNo tag ((o - 0x1000) / 0x40))
    let k := (o - 0x1000) % 0x40
    if k = 4 then
      some (field (512 - ceilDiv x.fifo.length 8) 10 20 + flag x.posted 17 + flag x.notPublic 16 + field x.err 8 8 + field x.state 4 0)
    else if k = 0x34 then some x.cmp0
    else if k = 0x38 then some x.cmp1
    else none
  else if 0x1400 ≤ o ∧ o < 0x1600 ∧ 0x40 ≤ (o - 0x1400) % 0x80 then
    let x := s.tslot (slotNo tag ((o - 0x1400) / 0x80))
    some (leAt x.digest ((o - 0x1400) % 0x80 - 0x40) 4)
  else none

end Sys2Proof.Machine
end

