-- ==== Sys2Proof/Machine/Scrim.lean ====
section
/-! DEFINITION. Scrim's jobs, key slots, derivation, counters and random bits (15_scrim_and_keys.md, R383-R404). -/
namespace Sys2Proof.Machine

/-- Scrim changed. -/
def onScr (f : ScrState → ScrState) (s : State) : State := { s with scr := f s.scr }

/-- A key slot changed. -/
def onKeySlot (k : Nat) (f : KeySlot → KeySlot) (s : State) : State :=
  onScr (fun c => { c with slots := Tab.update c.slots k {} f }) s

/-- Where an invocation counter rolls over (R393). -/
def rollAt : Nat := 2 ^ 32 - 2 ^ 20

/-! ### Writing and erasing slots (R389-R392) -/

/-- The key of a namespace's epoch among the reserved counters. [DEDUCED: log entry 149] -/
def reserveKey (nsid epoch : Nat) : Nat := nsid * 2 ^ 32 + epoch

/-- A slot is written (R389): its generation rises by one; a GCM key's counter starts at the first value not yet reserved (R394). -/
def writeSlot (k kind owner epoch nsid index : Nat) (key : BitVec 512) (s : State) : State :=
  let start := if kind = 2 then Tab.at s.scr.reserved (reserveKey nsid epoch) 0 else 0
  onKeySlot k (fun x => {
    kind := kind, owner := owner, epoch := epoch, gen := (x.gen + 1) % 65536, counter := start, key := key, nsid := nsid
    index := index, blockEnd := start, requested := kind == 2, nextBlock := 0, waiting := [], latchedAt := s.cue.now }) s

/-- A running job of an engine that an erase of a slot aborts: of a message latched to it, or just starting on it (R350, R392). -/
def latchedJob (s : State) (unit k : Nat) (t : Task) : Bool :=
  t.unit == unit && t.onPlace && !t.stopping && decide (t.job < slotJob) &&
  (if unit = 6 then
     (if bit (s.jobField t 1 1) 0 then s.deviceSlot t.tag (s.jobField t 4 2) == some k
      else (Tab.find s.scr.ctxs (s.jobField t 2 2)).any (fun c => c.slot == k))
   else
     (if bit (s.jobField t 1 1) 0 then decide (16 ≤ s.jobField t 0 1) && s.deviceSlot t.tag (s.jobField t 4 2) == some k
      else (Tab.find s.tly.ctxs (s.jobField t 2 2)).any (fun c => c.key.any (fun x => x.1 == k))))

/-- Scrim's messages latched to a slot are aborted: their jobs complete with 0x84, their contexts are freed (R392). -/
def abortScrim (k : Nat) (s : State) : State :=
  let jobs := s.smg.tasks.filter (fun p => latchedJob s 6 k p.2)
  let named := jobs.map (fun p => s.jobField p.2 2 2)
  let idle := s.scr.ctxs.filter (fun p => p.2.slot == k && !named.contains p.1)
  let s := jobs.foldl (fun s p =>
    endEngine p.1 0x84 (raise 288 0 (s.smg.handle p.1) 0 p.2.tag (count1 0x900024 (emptyRecord p.2 0x84 s)))) s
  let s := idle.foldl (fun s p => raise 288 0 p.1 0 p.2.tag (count1 0x900024 s)) s
  onScr (fun c => { c with
    ctxs := c.ctxs.filter (fun p => p.2.slot != k)
    gone := idle.foldl (fun g p => Tab.put g p.1 p.2.tag) c.gone }) s

/-- Tally's messages latched to a slot: those with a part running fail at once, the others at their next part (R350). -/
def abortTally (k : Nat) (s : State) : State :=
  let jobs := s.smg.tasks.filter (fun p => latchedJob s 7 k p.2)
  let s := jobs.foldl (fun s p => failTally p.1 (s.smg.handle p.1) p.2 0x84 s) s
  let s := onTly (fun y => { y with ctxs := Tab.mapVals y.ctxs (fun _ c =>
    if c.key.any (fun x => x.1 == k) then { c with aborted := true } else c) }) s
  s.tly.slots.foldl (fun s p =>
    if p.2.key.any (fun x => x.1 == k) ∧ (p.2.state = 1 ∨ p.2.state = 2) then
      match (p.2.task.bind s.smg.resolve).filter (fun q => q.2.onPlace) with
      | some (i, _) => endEngine i 0x84 (raise 275 0 p.1 0 (p.1 / 4) (count1 0x700028 (failSlot p.1 0x84 s)))
      | none => onTlySlot p.1 (fun x => { x with aborted := true }) s
    else s) s

/-- A slot is erased (R392): its generation rises, every message latched to it is aborted; an empty one only has its generation raised. -/
def eraseSlot (k : Nat) (s : State) : State :=
  let x := s.keySlot k
  let s := onScr (fun c => { c with slots := Tab.put c.slots k { gen := (x.gen + 1) % 65536, owner := x.owner } }) s
  if x.kind = 0 then s else abortTally k (abortScrim k s)

/-- The device slots of a tenant's partition, in order. -/
def State.partSlots (s : State) (tag : Nat) : List Nat :=
  match s.keyPartition tag with
  | some p => (List.range p.count).map (fun i => p.first + i)
  | none => []

/-- Has the tenant an encrypting namespace? [DEDUCED: log entry 154] -/
def State.encrypts (s : State) (tag : Nat) : Bool := s.obj.ns.any (fun p => p.2.owner == tag && p.2.services.testBit 1)

/-- Does the tenant keep a slot of kind 0-3 when slot `k` takes a key of another kind (R390)? -/
def keepsCache (s : State) (tag k : Nat) : Bool :=
  !s.encrypts tag || (s.partSlots tag).any (fun j => j != k && decide ((s.keySlot j).kind ≤ 3))

/-- The slot that a derived data or metadata key takes: the lowest empty one, else the cache slot that has gone longest without a latch, the
lowest of equals (R390). -/
def cacheSlot (s : State) (tag : Nat) : Option Nat :=
  let l := s.partSlots tag
  match l.find? (fun k => (s.keySlot k).kind == 0) with
  | some k => some k
  | none =>
    (l.filter (fun k => decide ((s.keySlot k).kind ≤ 3))).foldl (fun best k =>
      match best with
      | some b => if (s.keySlot k).latchedAt < (s.keySlot b).latchedAt then some k else best
      | none => some k) none

/-! ### Derivation (R386-R388, R390) -/

/-- Does the engine refuse a request (R388)? -/
def deriveRefused (s : State) (r : DeriveReq) : Bool :=
  let mask := match s.cfg.body 0x0702 0 with | some b => leAt b 0 4 | none => 0
  !mask.testBit r.purpose || r.tenant != r.tag || (r.purpose == 0x10 && r.tag != 0) || s.scr.blocked || s.saf.rootErased ||
    !s.scr.rootReady

/-- The secret that is a request's Context (R387). -/
def deriveContext (s : State) (r : DeriveReq) : Bytes :=
  leBytes 32 (if r.purpose ≤ 2 then Tab.at s.scr.nsSecrets r.nsid 0
    else if r.purpose = 0x10 then s.scr.store else Tab.at s.scr.tenantSecrets r.tenant 0).toNat

/-- The key of a request. -/
def deriveKey (s : State) (r : DeriveReq) : BitVec 512 := kdf Config.rootKey (contextLabel r) (deriveContext s r) (keyBits r.purpose)

/-- The slot kind of a purpose. -/
def kindOf (purpose : Nat) : Nat :=
  if purpose = 0 then 1 else if purpose = 1 then 2 else if purpose = 2 then 3 else if purpose = 3 then 4 else if purpose = 4 then 5 else 0

/-- Does a slot of the tenant hold the key of a request already? [DEDUCED: log entry 150] -/
def holdsKey (s : State) (r : DeriveReq) : Bool :=
  (s.partSlots r.tenant).any (fun k => let x := s.keySlot k; x.kind == kindOf r.purpose && x.nsid == r.nsid && x.epoch == r.epoch)

/-- A derivation is made and written to its slot: the one TW_KEY_CMD selected, or a cache slot where none holds the key (R386, R390). [DEDUCED: log entry 150] -/
def derive (r : DeriveReq) (target : Option Nat) (s : State) : State :=
  let key := deriveKey s r
  let dst : Option Nat := match target with
    | some k => some k
    | none => if 2 < r.purpose ∨ holdsKey s r then none else cacheSlot s r.tenant
  let s := count1 0x900018 s
  match dst with
  | some k => writeSlot k (kindOf r.purpose) r.tenant r.epoch (if r.purpose ≤ 2 then r.nsid else 0) r.index key s
  | none => s

/-- A request is refused and recorded (R388, R426). -/
def refuseDerive (r : DeriveReq) (s : State) : State := raiseObj 370 r.nsid r.tag s

/-- A derivation request (R386, R388): refused, held while a switchover runs (EV293), or made. -/
def doKeyDerivation (r : DeriveReq) (s : State) : State :=
  if deriveRefused s r then onlyIf s.powered (refuseDerive r) s
  else if s.saf.switching.isSome then
    raiseObj 293 r.nsid r.tag (count1 0x90001C (onScr (fun c => { c with queue := c.queue ++ [(r, none)] }) s))
  else derive r none s

/-- TW_KEY_RESULT of a tenant: DONE, or REFUSED with an error (R404). -/
def keyResult (tag v : Nat) (s : State) : State := onScr (fun c => { c with results := Tab.put c.results tag v }) s
def keyDone : Nat := 2 ^ 31
def keyRefused (err : Nat) : Nat := 2 ^ 30 + err

/-- The requests held during a switchover are judged in arrival order as it ends (R388, R424). -/
def drainDerive (s : State) : State :=
  let q := s.scr.queue
  q.foldl (fun s x =>
    if deriveRefused s x.1 then
      let s := refuseDerive x.1 s
      if x.2.isSome then keyResult x.1.tag (keyRefused 4) s else s
    else
      let s := derive x.1 x.2 s
      if x.2.isSome then keyResult x.1.tag keyDone s else s) (onScr (fun c => { c with queue := [] }) s)

/-! ### Tenant key commands (R404) -/

/-- Does a command of the tenant wait for a switchover? -/
def State.keyBusy (s : State) (tag : Nat) : Bool := s.scr.queue.any (fun x => x.1.tag == tag && x.2.isSome)

/-- The device slot that TW_KEY_SEL selects. -/
def State.keySel (s : State) (tag : Nat) : Option Nat := s.deviceSlot tag (s.reg (tenantKey tag 0x8004) 0)

/-- Is the slot's key one that only its own protocol clears? -/
def fixedKind (x : KeySlot) : Bool := x.kind == 6 || x.kind == 7

/-- DERIVE_MAC and DERIVE_CMAC (R404). [DEDUCED: log entry 150] -/
def twKeyDerive (tag purpose index : Nat) (s : State) : State :=
  if !writable s false ∨ s.keyBusy tag then s
  else
    match s.keySel tag with
    | none => keyResult tag (keyRefused 1) s
    | some k =>
      let r : DeriveReq := { tag := tag, purpose := purpose, tenant := tag, nsid := 0, epoch := 0, index := index % 65536 }
      if fixedKind (s.keySlot k) then keyResult tag (keyRefused 3) s
      else if !keepsCache s tag k then keyResult tag (keyRefused 2) s
      else if deriveRefused s r then keyResult tag (keyRefused 4) (refuseDerive r s)
      else if s.saf.switching.isSome then
        raiseObj 293 0 tag (count1 0x90001C (keyResult tag 0 (onScr (fun c => { c with queue := c.queue ++ [(r, some k)] }) s)))
      else keyResult tag keyDone (derive r (some k) s)

/-- DERIVE_MAC: a tenant MAC key in the selected slot. -/
def doTwKeyDeriveMac (tag index : Nat) (s : State) : State := twKeyDerive tag 3 index s

/-- DERIVE_CMAC: a tenant CMAC key in the selected slot. -/
def doTwKeyDeriveCmac (tag index : Nat) (s : State) : State := twKeyDerive tag 4 index s

/-- ERASE of the selected slot, but of kinds 6 and 7 (R404). -/
def doTwKeyErase (tag : Nat) (s : State) : State :=
  if !writable s false ∨ s.keyBusy tag then s
  else
    match s.keySel tag with
    | none => keyResult tag (keyRefused 1) s
    | some k => if fixedKind (s.keySlot k) then keyResult tag (keyRefused 3) s else keyResult tag keyDone (eraseSlot k s)

/-- SCR_SLOT_CMD ERASE of the slot that SCR_SLOT_SEL selects (R403). -/
def doScrSlotErase (s : State) : State := onlyIf (writable s false) (eraseSlot (s.reg 0x900038 0)) s

/-! ### Security Send and Receive (R389, R396) -/

/-- A key is injected under Key Per I/O (R396). -/
def injectKey (h : CmdHdr) (tag kt : Nat) (key : BitVec 512) (bitsIn : Nat) (secure : Bool) (s : State) : State :=
  match s.keyPartition tag with
  | some p =>
    let k := p.first + kt
    if !p.perIo ∨ p.count ≤ kt ∨ bitsIn ≠ 512 ∨ !keepsCache s tag k then failCmd h 0x81 stInvalidField s
    else if !secure then failCmd h 0x81 stInvalidField (raise 296 0 kt 0 tag s)
    else endAtOnce h 0x81 stOk 0 (writeSlot k 6 tag 0 0 kt key s)
  | none => failCmd h 0x81 stInvalidField s

/-- Security Send: Key Per I/O keys injected and cleared, and, by the house tenant, host secrets and PSKs of a tenant (R389, R396). [DEDUCED: log entry 151] -/
def doSecuritySend (h : CmdHdr) (m : SecSend) (s : State) : State :=
  fetched h 0x81 .admin (fun s =>
    let tag := (s.ctrlTag h.ctrl).getD 0
    match m with
    | .inject kt key n secure => injectKey h tag kt key n secure s
    | .clear kt =>
      match s.deviceSlot tag kt with
      | some k =>
        if (s.keySlot k).kind = 6 then endAtOnce h 0x81 stOk 0 (eraseSlot k s) else failCmd h 0x81 stInvalidField s
      | none => failCmd h 0x81 stInvalidField s
    | .secret tenant slot key =>
      match s.deviceSlot tenant slot with
      | some k =>
        if tag ≠ 0 then failCmd h 0x81 stInvalidField s
        else
          match key with
          | some v =>
            if keepsCache s tenant k then endAtOnce h 0x81 stOk 0 (writeSlot k 7 tenant 0 0 0 v s)
            else failCmd h 0x81 stInvalidField s
          | none =>
            if (s.keySlot k).kind = 7 then endAtOnce h 0x81 stOk 0 (eraseSlot k s) else failCmd h 0x81 stInvalidField s
      | none => failCmd h 0x81 stInvalidField s
    | .other => failCmd h 0x81 stInvalidField s) s

/-- Security Receive: the TCG Key Per I/O data of a protocol (R106). [DESIGN CHOICE: log entry 152] -/
def doSecurityReceive (h : CmdHdr) (proto : Nat) (s : State) : State :=
  fetched h 0x82 .admin (fun s => endAtOnce h 0x82 stOk 0 (emit (.data h.ctrl h.cid (Config.tcgData proto)) s)) s

/-! ### Jobs (R383-R385, R391, R393, R401) -/

/-- A Scrim job descriptor. -/
structure ScrJob where
  op : Nat
  flags : Nat
  ctx : Nat
  keySlot : Nat
  du : Nat
  src : Nat
  len : Nat
  aadLen : Nat
  dst : Nat
  tweak : Nat
  aad : Nat
  deriving DecidableEq, Repr

/-- The fields of a descriptor. -/
def scrJobOf (b : Bytes) : ScrJob :=
  { op := leAt b 0 1, flags := leAt b 1 1, ctx := leAt b 2 2, keySlot := leAt b 4 2, du := leAt b 6 2, src := leAt b 8 8,
    len := leAt b 0x10 4, aadLen := leAt b 0x14 2, dst := leAt b 0x18 8, tweak := leAt b 0x20 16, aad := leAt b 0x30 8 }

/-- FIRST, LAST and SEAL of a job; its mode: 0 XTS, 1 GCM, 2 CMAC; its data unit. -/
def ScrJob.first (j : ScrJob) : Bool := bit j.flags 0
def ScrJob.final (j : ScrJob) : Bool := bit j.flags 1
def ScrJob.withSeal (j : ScrJob) : Bool := bit j.flags 2
def ScrJob.mode (j : ScrJob) : Nat := j.op / 2
def ScrJob.unit (j : ScrJob) : Nat := if j.du = 0 then 4096 else j.du

/-- Are the fields that need no state valid (R383, R401)? [DEDUCED: log entry 147] -/
def scrOk (j : ScrJob) (b : Bytes) : Bool :=
  decide (j.op ≤ 5 ∧ j.flags < 8) && allZero (slice b 0x16 2) &&
  (if j.first then j.ctx == 0xFFFF else decide (j.ctx ≤ 255)) &&
  (if j.mode = 0 then decide (16 ≤ j.unit ∧ j.unit ≤ 4096) && j.len % j.unit == 0 else j.du == 0 && (j.final || j.len % 16 == 0)) &&
  (if j.mode = 1 ∧ j.first then decide (j.aadLen ≤ 4096) else j.aadLen == 0) &&
  (j.mode == 1 || !j.withSeal) &&
  (if j.mode = 0 then true else if j.mode = 1 ∧ !j.withSeal then decide (j.tweak < 2 ^ 96) else j.tweak == 0)

/-- Does a slot's kind fit the mode, and does the partition allow the mode (R389)? -/
def slotFits (s : State) (tag mode : Nat) (x : KeySlot) : Bool :=
  (s.keyPartition tag).any (fun p => p.modes.testBit mode) &&
  (if mode = 0 then x.kind == 1 || x.kind == 3 || x.kind == 6 else if mode = 1 then x.kind == 2 else x.kind == 5)

/-- How a job begins: its message, a status it fails with, or a wait for a counter block (R394). -/
inductive ScrStart where
  | go (c : ScrCtx)
  | fail (st : Nat)
  | wait (slot : Nat)
  deriving DecidableEq, Repr

/-- The counter of a slot moves past a value; with 32,768 values of its block left the next block is asked for (R394). -/
def useCounter (x : KeySlot) : KeySlot :=
  { x with counter := x.counter + 1, requested := x.requested || decide (x.blockEnd ≤ x.counter + 1 + 32768 ∧ x.nextBlock = 0) }

/-- A counter that has reached its threshold: the slot's context moves to the next epoch (R393); nothing where the next epoch is refused
or cannot be derived now. [DEDUCED: log entry 149] -/
def rollOver (k : Nat) (s : State) : State :=
  let x := s.keySlot k
  let e := x.epoch + 1
  let r : DeriveReq := { tag := x.owner, purpose := 1, tenant := x.owner, nsid := x.nsid, epoch := e, index := 0 }
  if x.counter < rollAt ∨ topEpoch < e ∨ deriveRefused s r ∨ s.saf.switching.isSome then s
  else
    let key := deriveKey s r
    let top := Tab.at s.scr.reserved (reserveKey x.nsid e) 0
    let s := raiseObj 291 k x.owner (count1 0x900028 (count1 0x900018 s))
    let s := { s with obj := { s.obj with ns := Tab.modify s.obj.ns x.nsid (fun n => { n with epoch := max n.epoch e }) } }
    onKeySlot k (fun x => { x with
      epoch := e, key := key, gen := (x.gen + 1) % 65536, counter := top - x.nextBlock, blockEnd := top
      requested := x.nextBlock == 0, nextBlock := 0 }) s

/-- A message latches its slot (R391). -/
def latch (s : State) (t : Task) (j : ScrJob) (k : Nat) (x : KeySlot) : ScrCtx :=
  { tag := t.tag, op := j.op, slot := k, key := x.key, gen := x.gen, unit := j.unit, tweak := j.tweak,
    iv := leBytes 12 j.tweak, aad := s.dramRead j.aad j.aadLen }

/-- A first part: its slot is checked and latched; a sealed GCM message takes its IV from the counter or from the seal (R385, R389, R391,
R393-R395). -/
def firstPart (s : State) (t : Task) (j : ScrJob) : ScrStart :=
  match s.deviceSlot t.tag j.keySlot with
  | none => .fail 0x01
  | some k =>
    let x := s.keySlot k
    let c := latch s t j k x
    if !slotFits s t.tag j.mode x then .fail 0x01
    else if !j.withSeal then .go c
    else if j.op = 2 then
      if rollAt ≤ x.counter ∧ topEpoch ≤ x.epoch then .fail 0x83
      else if rollAt ≤ x.counter ∨ x.blockEnd ≤ x.counter then .wait k
      else .go { c with iv := leBytes 4 x.epoch ++ leBytes 4 0 ++ leBytes 4 x.counter, inv := x.counter, sealAt := some j.dst }
    else
      let sl := s.dramRead j.src 32
      if leAt sl 0 4 ≠ x.epoch then .fail 0x04
      else .go { c with iv := sl.take 12, expect := sl.drop 16, sealAt := some j.src }

/-- A later part goes on with its context; of a message that a slot erase aborted it fails with 0x84 (R392). [DEDUCED: log entry 208] -/
def laterPart (s : State) (t : Task) (j : ScrJob) : ScrStart :=
  match Tab.find s.scr.ctxs j.ctx with
  | some c => if c.tag ≠ t.tag then .fail 0x02 else if c.op ≠ j.op then .fail 0x01 else .go c
  | none => .fail (if Tab.find s.scr.gone j.ctx = some t.tag then 0x84 else 0x01)

/-- How a job begins. -/
def scrStart (s : State) (t : Task) (j : ScrJob) : ScrStart :=
  match (if j.first then firstPart s t j else laterPart s t j) with
  | .go c => if j.mode ≠ 0 ∧ 2 ^ 32 ≤ c.data.length + j.len then .fail 0x01 else .go c
  | r => r

/-- The events and counts of a job that fails (R402, R403). -/
def scrFailEvents (st op obj tag : Nat) (s : State) : State :=
  if st = 0x03 then raise (if op = 5 then 290 else 289) 0 obj 0 tag (count1 0x900020 s)
  else if st = 0x04 then raise 297 0 obj 0 tag s
  else if st = 0x83 then raise 292 0 obj 0 tag s
  else if st = 0x02 then refuseAt 353 obj tag s
  else s

/-- A job fails: its context is freed, its record carries the status. [DEDUCED: log entry 147] -/
def failScr (i h op : Nat) (t : Task) (st : Nat) (s : State) : State :=
  endEngine i st (scrFailEvents st op h t.tag (emptyRecord t st s))

/-- What a part does: its output, the message after it, and on the last part its tag; whether the tag fails. -/
structure ScrPart where
  out : Bytes
  next : ScrCtx
  tag : Bytes
  bad : Bool
  deriving DecidableEq, Repr

/-- One part of a message (R383-R385). -/
def scrPart (s : State) (j : ScrJob) (c : ScrCtx) : ScrPart :=
  let k := c.key.setWidth 256
  let sealed := j.first && j.withSeal
  let src := s.dramRead (j.src + (if sealed ∧ j.op = 3 then 32 else 0)) j.len
  let after := s.dramRead (j.src + j.len) 16
  if j.mode = 0 then
    let n := j.len / c.unit
    { out := xtsUnits (j.op == 1) c.key c.unit n c.tweak src, next := { c with tweak := tweakAfter n c.tweak }, tag := [], bad := false }
  else if j.op = 2 then
    let out := gcmStream k c.iv c.data.length src
    let c' := { c with data := c.data ++ out }
    { out := out, next := c', tag := if j.final then gcmTag k c.iv c.aad c'.data else [], bad := false }
  else if j.op = 3 then
    let c' := { c with data := c.data ++ src }
    let want := if c.sealAt.isSome then c.expect else after
    { out := gcmStream k c.iv c.data.length src, next := c', tag := [],
      bad := j.final && gcmTag k c.iv c.aad c'.data != want }
  else
    let c' := { c with data := c.data ++ src }
    let m := cmac k c'.data
    { out := [], next := c', tag := if j.final ∧ j.op = 4 then m else [], bad := j.final && j.op == 5 && m != after }

/-- The 32 bytes of a completion record. -/
def scrRecord (ctx gen outLen inv : Nat) (tag : Bytes) : Bytes :=
  leBytes 1 0 ++ leBytes 1 0 ++ leBytes 2 ctx ++ leBytes 2 gen ++ leBytes 2 0 ++ leBytes 4 outLen ++ leBytes 4 inv ++ padTo tag 16

/-- A part that succeeds: its output and seal land, its context is kept or freed, its record is written (R385, R401). [DEDUCED: log entry 148] -/
def endPart (i : Nat) (t : Task) (j : ScrJob) (c : ScrCtx) (p : ScrPart) (s : State) : State :=
  let sealed := j.first && j.withSeal && j.op == 2
  let s := dramStore (j.dst + (if sealed then 32 else 0)) p.out s
  let s := match c.sealAt with
    | some a => if j.op = 2 ∧ j.final then dramStore a (padTo c.iv 16 ++ p.tag) s else s
    | none => s
  let n := if j.first ∧ !j.final then (Tab.freeKey s.scr.ctxs 256 0).getD 0 else j.ctx
  let s := if j.final then freeJobCtx t s else onScr (fun x => { x with ctxs := Tab.put x.ctxs n p.next, gone := Tab.del x.gone n }) s
  endEngine i 0 (writeRecord t (scrRecord n c.gen (p.out.length + (if sealed then 32 else 0)) c.inv p.tag) s)

/-- An encryption waits for its counter block: EV298 once (R394). -/
def waitBlock (h tag k : Nat) (s : State) : State :=
  if (s.keySlot k).waiting.contains h then s
  else raise 298 0 h 0 tag (count1 0x900030 (onKeySlot k (fun x => { x with waiting := x.waiting ++ [h] }) s))

/-- A job runs on its pipeline (R383-R395). [DESIGN CHOICE: log entries 144, 155] -/
def scrRun (op h : Nat) (s : State) : State :=
  let s := closeWindows s
  match engineTask s 6 h with
  | none => s
  | some (i, t) =>
    if t.stopping then endEngine i 0x05 (emptyRecord t 0x05 s)
    else
      let b := s.dramRead t.job 64
      let j := scrJobOf b
      if j.op ≠ op ∧ (j.op ≤ 5 ∨ op ≠ 0) then s
      else if !scrOk j b then failScr i h j.op t 0x01 s
      else
        match scrStart s t j with
        | .fail st => failScr i h j.op t st s
        | .wait k => waitBlock h t.tag k s
        | .go c =>
          let p := scrPart s j c
          if p.bad then failScr i h j.op t 0x03 s
          else
            let s := if j.first then onKeySlot c.slot (fun x => { x with latchedAt := s.cue.now }) s else s
            let s := if j.first ∧ j.withSeal ∧ j.op = 2 then rollOver c.slot (onKeySlot c.slot useCounter s) else s
            endPart i t j c p s

def doXtsEncrypt (h : Nat) (s : State) : State := scrRun 0 h s
def doXtsDecrypt (h : Nat) (s : State) : State := scrRun 1 h s
def doGcmEncrypt (h : Nat) (s : State) : State := scrRun 2 h s
def doGcmDecrypt (h : Nat) (s : State) : State := scrRun 3 h s
def doCmacGenerate (h : Nat) (s : State) : State := scrRun 4 h s
def doCmacVerify (h : Nat) (s : State) : State := scrRun 5 h s

/-- A block of counter values is on flash: the current epoch's next one, or the first of the next epoch (R394). -/
def blockOnFlash (k : Nat) (s : State) : State :=
  let x := s.keySlot k
  if x.blockEnd < rollAt then
    let top := x.blockEnd + 65536
    let s := onScr (fun c => { c with reserved := Tab.put c.reserved (reserveKey x.nsid x.epoch) top }) s
    onKeySlot k (fun x => { x with blockEnd := top, requested := decide (top ≤ x.counter + 32768) }) s
  else
    let key := reserveKey x.nsid (x.epoch + 1)
    let s := onScr (fun c => { c with reserved := Tab.update c.reserved key 0 (fun v => v + 65536) }) s
    onKeySlot k (fun x => { x with nextBlock := 65536, requested := false }) s

/-- A reserved block is journalled on flash: the encryptions that waited run (R394). -/
def doCounterBlockOnFlash (k : Nat) (s : State) : State :=
  let x := s.keySlot k
  if x.kind = 2 ∧ x.requested then
    let s := rollOver k (blockOnFlash k s)
    x.waiting.foldl (fun s h => scrRun 2 h s) (onKeySlot k (fun x => { x with waiting := [] }) s)
  else s

/-! ### Random bits (R399) -/

/-- A failed health test halts the DRBG (R399). [DEDUCED: log entry 153] -/
def doEntropyHealthFail (s : State) : State :=
  onlyIf s.powered (fun s => raise 295 0 0 0 0 (onScr (fun c => { c with
    halted := true, rngOk := false, rngFails := min (c.rngFails + 1) 65535 }) s)) s

/-- The source has not come back within 100 ms: what waits for random bits fails, a creation with Internal Error (R399). [DEDUCED: log entry 153] -/
def doEntropyRestartTimeout (s : State) : State :=
  if s.scr.halted then
    goOn (s.scn.scenes.foldl (fun s p => if p.2.kind = .nsCreate ∧ !p.2.decided then rollBack p.1 stInternal s else s) s)
  else s

/-! ### What the SCR_ and TW_KEY registers show (R403, R404) -/

/-- The SCR_ registers. -/
def scrView (s : State) (o : Nat) : Option Nat :=
  let c := s.scr
  let x := s.keySlot (s.reg 0x900038 0)
  if o = 0x900004 then
    some (flag (!c.queue.isEmpty) 3 + flag c.blocked 2 + flag c.rngOk 1 + flag (c.rootReady && !s.saf.rootErased) 0)
  else if o = 0x900008 then some (256 - (s.ctxTags 6).length)
  else if o = 0x90000C then some (Tab.count c.slots (fun _ x => x.kind != 0))
  else if o = 0x900034 then some (flag c.rngOk 31 + flag c.halted 30 + field c.rngFails 16 0)
  else if o = 0x90003C then some (field x.kind 3 29 + field x.owner 13 16 + field x.gen 16 0)
  else if o = 0x900040 then some x.epoch
  else if o = 0x900044 then some x.counter
  else none

/-- Is a message latched to a slot now? -/
def State.latchedNow (s : State) (k : Nat) : Bool :=
  s.scr.ctxs.any (fun p => p.2.slot == k) || s.tly.ctxs.any (fun p => p.2.key.any (fun x => x.1 == k)) ||
  s.tly.slots.any (fun p => p.2.key.any (fun x => x.1 == k)) ||
  s.smg.tasks.any (fun p => latchedJob s 6 k p.2 || latchedJob s 7 k p.2)

/-- The key registers of a tenant window. -/
def twKeyView (s : State) (tag o : Nat) : Option Nat :=
  if o = 0x8000 then
    some (match s.keyPartition tag with
      | some p => field p.count 14 16 + field p.modes 3 8 + flag p.perIo 0
      | none => 0)
  else if o = 0x8008 then
    some (match s.keySel tag with
      | some k => let x := s.keySlot k; field x.kind 3 29 + flag (s.latchedNow k) 28 + field x.gen 16 0
      | none => 0)
  else if o = 0x8010 then some (Tab.at s.scr.results tag 0)
  else none

end Sys2Proof.Machine
end

