-- ==== Sys2Proof/Machine/Asu.lean ====
section
/-! DEFINITION. The Associative Search Unit (14_associative_search.md, R361-R382): helpers 1-4, updates, the walk. -/
namespace Sys2Proof.Machine

/-- The ASU changed. -/
def onAsu (f : AsuState → AsuState) (s : State) : State := { s with asu := f s.asu }

/-- A table. -/
def State.asuTab (s : State) (t : Nat) : AsuTable := Tab.at s.asu.tables t {}

/-- A table changed. -/
def onAsuTab (t : Nat) (f : AsuTable → AsuTable) (s : State) : State :=
  onAsu (fun a => { a with tables := Tab.update a.tables t {} f }) s

/-- The ASU takes no new work: CK_ASU is stopped, or it is in Intermission (R51, R379). -/
def State.asuHeld (s : State) : Bool := s.unitStopped 9 || s.prk.intermission.contains 9

/-! ### Search and repair (R364-R370) -/

/-- Does an entry match (R364)? -/
def asuMatch (key mask : BitVec 128) (e : AsuEntry) : Bool := (e.key ^^^ key) &&& mask == 0

/-- The position of a table whose moving bit is set. -/
def AsuTable.hole (a : AsuTable) : Option Nat := a.move.bind (fun m => m.hole)

/-- The matching entries of a table, lowest first: a moving one never matches (R364). -/
def asuHits (key mask : BitVec 128) (a : AsuTable) : List (Nat × AsuEntry) :=
  a.bank.filter (fun p => asuMatch key mask p.2 && a.hole != some p.1)

/-- A bank entry takes a value; none where it is not valid. -/
def setEntryAt (b : Tab AsuEntry) (i : Nat) (e : Option AsuEntry) : Tab AsuEntry :=
  match e with
  | some x => Tab.put b i x
  | none => Tab.del b i

/-- Upsets change what banks hold. -/
def upsetBanks (t : Nat) (l : List AsuUpset) (s : State) : State :=
  onAsuTab t (fun a => { a with
    bank := l.foldl (fun b u => setEntryAt b u.index (u.entry.map (fun e => { key := e.1, data := e.2 }))) a.bank }) s

/-- Repairs of a bank in the last 24 hours. -/
def State.bankRepairs (s : State) (b : Nat) : Nat :=
  (s.asu.repairs.filter (fun r => r.1 == b && decide (s.wall < r.2 + 86400000000000))).length

/-- An entry is rewritten from its shadow; the sixteenth repair of a bank within 24 hours reports it suspect (R369, R370). -/
def repairEntry (t i : Nat) (s : State) : State :=
  let bank := ((s.asuTable t).map (fun r => r.first)).getD 0 + i / 16384
  let s := onAsuTab t (fun a => { a with bank := setEntryAt a.bank i (Tab.find a.shadow i) }) s
  let s := onAsu (fun a => { a with repairs := a.repairs ++ [(bank, s.wall)] }) s
  if s.bankRepairs bank = 16 then raise 307 0 bank 0 0 s else s

/-- What a search finds: nothing; a first match with its count; or three mismatches. -/
inductive Found where
  | miss
  | hit (index : Nat) (e : AsuEntry) (count : Nat)
  | fault
  deriving DecidableEq, Repr

/-- A search with the shadow check of its hit: at most three runs; answers whether anything was repaired (R369). -/
def asuSearch (t tag : Nat) (key mask : BitVec 128) : Nat → Bool → State → (Found × Bool) × State
  | 0, r, s => ((.fault, r), raise 306 0 t 0 tag (count1 0x600034 s))
  | n + 1, r, s =>
    let a := s.asuTab t
    let l := asuHits key mask a
    match l with
    | [] => ((.miss, r), s)
    | (i, e) :: _ =>
      if Tab.find a.shadow i = some e then
        let s := count1 0x600024 s
        ((.hit i e (min l.length 255), r), if 2 ≤ l.length then count1 0x600028 s else s)
      else asuSearch t tag key mask n true (raiseObj 304 t tag (count1 0x60002C (repairEntry t i s)))

/-- One search as it is counted. -/
def countedSearch (t tag : Nat) (key mask : BitVec 128) (s : State) : (Found × Bool) × State :=
  asuSearch t tag key mask 3 false (count1 0x600020 s)

/-- The 32-byte result of helper 1 (R366), with REPAIRED and MOVED. -/
def searchBytes (f : Found) (repaired moved : Bool) : Bytes :=
  let g := flag repaired 2 + flag moved 3
  match f with
  | .hit i e n =>
    leBytes 4 i ++ leBytes 1 n ++ leBytes 1 (1 + flag (decide (2 ≤ n)) 1 + g) ++ leBytes 2 0 ++
    leBytes 8 e.data.toNat ++ leBytes 16 e.key.toNat
  | _ => leBytes 4 0xFFFFFFFF ++ leBytes 1 0 ++ leBytes 1 g ++ List.replicate 26 0

/-- May a tenant use a table: −1 for a number above 31, −2 for one that is not its own, recorded (R367)? -/
def asuAccess (t tag : Nat) (s : State) : Option Int × State :=
  if 31 < t then (some (-1), s)
  else if (s.asuTable t).any (fun r => r.owner == tag) then (none, s)
  else (some (-2), refuseAt 353 t tag (raise 308 0 t 0 tag s))

/-- A helper call on a table of the invocation's tenant. -/
def asuHelper (h charge t : Nat) (work : Task → Inv → State → (Int × Bytes) × State) (s : State) : State :=
  if s.asuHeld then s
  else helperOn 3 h charge (fun tk v _ s =>
    let (bad, s) := asuAccess t tk.tag s
    match bad with
    | some r => ((r, []), s)
    | none => work tk v s) s

/-- Helper 1 (R364-R369): 1 on a hit, 0 on a miss, -5 after three mismatches. -/
def doPqAsuSearch (h t : Nat) (key mask : BitVec 128) (upsets : List AsuUpset) (s : State) : State :=
  asuHelper h 50 t (fun tk _ s =>
    let moved := (s.asuTab t).move.isSome
    let ((f, rep), s) := countedSearch t tk.tag key mask (upsetBanks t upsets s)
    match f with
    | .fault => ((-5, []), s)
    | .hit .. => ((1, searchBytes f rep moved), s)
    | .miss => ((0, searchBytes f rep moved), s)) s

/-! ### Insert and delete (R371-R375) -/

/-- An update waits on its table; its helper returns when it is in place (R371). -/
def queueUpdate (t : Nat) (u : AsuUpdate) (s : State) : State := onAsuTab t (fun a => { a with queue := a.queue ++ [u] }) s

/-- Helper 2: a 32-byte entry, its reserved bytes zero (R367, R375). -/
def doPqAsuInsert (h t : Nat) (entry : Bytes) (pos : Nat) (s : State) : State :=
  asuHelper h 50 t (fun _ v s =>
    if entry.length ≠ 32 ∨ !allZero (entry.drop 24) then ((-1, []), s)
    else
      let e : AsuEntry := { key := BitVec.ofNat 128 (leAt entry 0 16), data := BitVec.ofNat 64 (leAt entry 16 8) }
      ((v.result, v.bytes), queueUpdate t { inv := h, insert := some e, pos := pos } s)) s

/-- Helper 3. -/
def doPqAsuDelete (h t index : Nat) (s : State) : State :=
  asuHelper h 50 t (fun _ v s => ((v.result, v.bytes), queueUpdate t { inv := h, insert := none, pos := index } s)) s

/-- Both memories of a table changed alike. -/
def AsuTable.both (a : AsuTable) (f : Tab AsuEntry → Tab AsuEntry) : AsuTable := { a with bank := f a.bank, shadow := f a.shadow }

/-- An entry copied from one position to another, valid or not. -/
def copyEntry (i j : Nat) (b : Tab AsuEntry) : Tab AsuEntry := setEntryAt b j (Tab.find b i)

/-- The helper call of an update returns. -/
def answerInv (h : Nat) (r : Int) (s : State) : State :=
  onBob (fun z => { z with invs := Tab.modify z.invs h (fun v => { v with result := r, bytes := [] }) }) s

/-- A move's last step: an insert writes its entry and counts up, a delete invalidates the last entry and counts down; the helper
returns 0 (R372, R373). -/
def endMove (t : Nat) (m : AsuMove) (s : State) : State :=
  let s := onAsuTab t (fun a =>
    match m.upd.insert with
    | some e => { a.both (fun b => Tab.put b m.upd.pos e) with count := a.count + 1, move := none }
    | none => { a.both (fun b => Tab.del b (a.count - 1)) with count := a.count - 1, move := none }) s
  answerInv m.upd.inv 0 s

/-- One step of a move (R372, R373): an insert copies the highest entry left one place up, a delete the lowest one place down; the moving
bit goes with the source. [DEDUCED: log entry 145] -/
def stepMove (t : Nat) (s : State) : State :=
  match (s.asuTab t).move with
  | none => s
  | some m =>
    if m.left = 0 then endMove t m s
    else
      let n := (s.asuTab t).count
      let (i, j) := if m.upd.insert.isSome then (m.upd.pos + m.left - 1, m.upd.pos + m.left) else (n - m.left, n - m.left - 1)
      count1 0x600038 (onAsuTab t (fun a => { a.both (copyEntry i j) with move := some { m with left := m.left - 1, hole := some i } }) s)

/-- A move begins (R372, R373): a delete's entry is invalid and moving from its first step; where nothing is to move it ends at once. -/
def startMove (t : Nat) (m : AsuMove) (s : State) : State :=
  let s := onAsuTab t (fun a =>
    if m.upd.insert.isSome then { a with move := some m }
    else { a.both (fun b => Tab.del b m.upd.pos) with move := some { m with hole := some m.upd.pos } }) s
  if m.left = 0 then stepMove t s else s

/-- An update is judged against the count as it starts (R371-R373). -/
def beginUpdate (t limit owner : Nat) (u : AsuUpdate) (s : State) : State :=
  let n := (s.asuTab t).count
  match u.insert with
  | some _ =>
    let p := if u.pos = 2 ^ 64 - 1 then n else u.pos
    if n = limit then answerInv u.inv (-6) (raise 309 0 t 0 owner s)
    else if n < p then answerInv u.inv (-1) s
    else startMove t { upd := { u with pos := p }, left := n - p, hole := none } s
  | none =>
    if n ≤ u.pos then answerInv u.inv (-1) s else startMove t { upd := u, left := n - 1 - u.pos, hole := none } s

/-- May a table's updates run now: the ASU works, and of a sealed owner its own window is open (R301, R379, R380)? -/
def asuRuns (s : State) (owner : Nat) : Bool :=
  !s.asuHeld && (!s.isSealed owner || (s.windowOpen 3 && (Tab.find s.smg.now 3).any (fun w => w.tag == owner)))

/-- The oldest waiting update of a table starts, where none is moving on it (R371). -/
def doAsuUpdateStart (t : Nat) (s : State) : State :=
  match s.asuTable t, (s.asuTab t).queue, (s.asuTab t).move with
  | some r, u :: rest, none =>
    if asuRuns s r.owner then beginUpdate t r.limit r.owner u (onAsuTab t (fun a => { a with queue := rest }) s) else s
  | _, _, _ => s

/-- The moves that run take a step: one every 2 CK_ASU cycles (R372). [DESIGN CHOICE: log entry 2; DEDUCED: log entry 145] -/
def asuTick (s : State) : State :=
  s.asu.tables.foldl (fun s p =>
    if p.2.move.isSome ∧ asuRuns s (((s.asuTable p.1).map (fun r => r.owner)).getD 0) then stepMove p.1 s else s) s

/-! ### Stream scan (R376, R377) -/

/-- Byte 15 of a key. -/
def keyLen (e : AsuEntry) : Nat := e.key.toNat / 2 ^ 120

/-- The length set of a table (R376), ascending. -/
def lengthSet (a : AsuTable) : List Nat := (List.range 16).filter (fun l => l != 0 && a.shadow.any (fun p => keyLen p.2 == l))

/-- A hit record of a scan (R377). -/
def hitRecord (o l : Nat) (f : Found) (repaired : Bool) : Bytes :=
  match f with
  | .hit i _ n =>
    leBytes 8 o ++ leBytes 4 i ++ leBytes 1 l ++ leBytes 1 n ++ leBytes 1 (flag (decide (2 ≤ n)) 1 + flag repaired 2) ++ leBytes 1 0
  | _ => []

/-- A scan as far as it has gone. -/
structure Scan where
  records : List Bytes
  fault : Bool
  deriving DecidableEq, Repr

/-- One search of a scan: the bytes at an offset as a pattern of a length. -/
def scanStep (t tag : Nat) (src : Bytes) (o l : Nat) (acc : Scan × State) : Scan × State :=
  if acc.1.fault then acc
  else
    let key := BitVec.ofNat 128 (leNat (slice src o l) + l * 2 ^ 120)
    let mask := BitVec.ofNat 128 ((2 ^ (8 * l) - 1) ||| (0xFF * 2 ^ 120))
    let ((f, rep), s) := countedSearch t tag key mask acc.2
    match f with
    | .hit .. => ({ acc.1 with records := acc.1.records ++ [hitRecord o l f rep] }, s)
    | .fault => ({ acc.1 with fault := true }, s)
    | .miss => (acc.1, s)

/-- The searches of a scan, offsets and lengths ascending (R377). -/
def runScan (t tag : Nat) (src : Bytes) (s : State) : Scan × State :=
  let ls := lengthSet (s.asuTab t)
  (List.range src.length).foldl (fun acc o =>
    ls.foldl (fun acc l => if o + l ≤ src.length then scanStep t tag src o l acc else acc) acc) ({ records := [], fault := false }, s)

/-- Helper 4 (R377). -/
def doPqAsuScan (h t : Nat) (src : Bytes) (cap : Nat) (upsets : List AsuUpset) (s : State) : State :=
  asuHelper h (50 + src.length / 64) t (fun tk _ s =>
    if 262144 < src.length then ((-1, []), s)
    else
      let (r, s) := runScan t tk.tag src (upsetBanks t upsets s)
      if r.fault then ((-5, []), s)
      else if 16 * r.records.length ≤ cap then ((r.records.length, r.records.flatten), s)
      else ((-3, (r.records.take (cap / 16)).flatten), raise 311 0 t 0 tk.tag (count1 0x60003C s))) s

/-! ### The walk (R370) -/

/-- The table that a bank belongs to, with its record. -/
def State.bankTable (s : State) (b : Nat) : Option (Nat × AsuTableRec) :=
  (((s.cfg.ofType 0x0601).map (fun p => (p.1, asuTableOf p.2))).find? (fun p => decide (p.2.first ≤ b ∧ b < p.2.first + p.2.banks)))

/-- The walk moves on: the next row, the next bank of a table, or a new pass. [DEDUCED: log entry 146] -/
def stepWalk (s : State) : State :=
  if s.asu.walkRow + 1 < 16384 then onAsu (fun a => { a with walkRow := a.walkRow + 1 }) s
  else
    let next := (List.range 32).find? (fun b => decide (s.asu.walkBank < b) && (s.bankTable b).isSome)
    match next with
    | some b => onAsu (fun a => { a with walkBank := b, walkRow := 0 }) s
    | none =>
      let first := ((List.range 32).find? (fun b => (s.bankTable b).isSome)).getD 0
      onAsu (fun a => { a with walkBank := first, walkRow := 0, passes := (a.passes + 1) % 2 ^ 32 }) s

/-- The walk compares an entry with its shadow; a mismatch is repaired: EV305; at a moving position it waits for the move's end (R370). `upset` is what the bank has come to hold there. [DEDUCED: log entry 146] -/
def doAsuWalk (upset : Option AsuUpset) (s : State) : State :=
  if s.asuHeld ∨ s.powered = false then s
  else
    match s.bankTable s.asu.walkBank with
    | none => if s.cfg.ofType 0x0601 = [] then s else stepWalk (onAsu (fun a => { a with walkRow := 16383 }) s)
    | some (t, r) =>
      let i := (s.asu.walkBank - r.first) * 16384 + s.asu.walkRow
      let s := match upset with | some u => upsetBanks t [{ u with index := i }] s | none => s
      let a := s.asuTab t
      if a.hole = some i then s
      else
        stepWalk (if Tab.find a.bank i = Tab.find a.shadow i then s
          else raiseObj 305 t r.owner (count1 0x600030 (repairEntry t i s)))

/-! ### APPLY (R379) -/

/-- The tables at an apply cue: kept, cut to a lower limit (EV310), or empty. `old` is the configuration that was in effect. -/
def reloadAsu (old : PrkConfig) (s : State) : State :=
  (List.range 32).foldl (fun s t =>
    match (old.body 0x0601 t).map asuTableOf, s.asuTable t with
    | some a, some b =>
      if a.first = b.first ∧ a.banks = b.banks ∧ a.owner = b.owner then
        if b.limit < (s.asuTab t).count then
          raise 310 0 t 0 b.owner (onAsuTab t (fun x => { x with
            bank := Tab.keep x.bank (fun i _ => decide (i < b.limit)), shadow := Tab.keep x.shadow (fun i _ => decide (i < b.limit))
            count := b.limit }) s)
        else s
      else onAsu (fun x => { x with tables := Tab.del x.tables t }) s
    | _, _ => onAsu (fun x => { x with tables := Tab.del x.tables t }) s) s

/-! ### What the ASU_ registers show (R382) -/

/-- The ASU_ registers. -/
def asuView (s : State) (o : Nat) : Option Nat :=
  let t := s.reg 0x600008 0
  let a := s.asuTab t
  let r := s.asuTable t
  let b := s.reg 0x60004C 0
  let suspect := fun (k : Nat) => decide (16 ≤ s.bankRepairs k)
  if o = 0x600004 then
    some (flag ((List.range 32).any suspect) 3 + flag (!s.asuHeld && s.cfg.ofType 0x0601 != []) 2 +
      flag (s.asu.tables.any (fun p => p.2.move.isSome)) 1 + flag (s.prk.intermission.contains 9) 0)
  else if o = 0x60000C then
    some (match r with | some x => flag true 31 + flag a.move.isSome 30 + field x.banks 6 24 + field x.first 5 16 + field x.owner 13 0 | none => 0)
  else if o = 0x600010 then some a.count
  else if o = 0x600014 then some ((r.map (fun x => x.limit)).getD 0)
  else if o = 0x600018 then some (((lengthSet a).map (fun l => flag true l)).sum)
  else if o = 0x60001C then some (min a.queue.length 65535)
  else if o = 0x600044 then some (field s.asu.walkBank 5 19 + field s.asu.walkRow 14 0)
  else if o = 0x600048 then some s.asu.passes
  else if o = 0x600050 then
    some (match s.bankTable b with
      | some (t, _) => flag true 31 + flag (suspect b) 30 + field t 5 16 + min (s.bankRepairs b) 65535
      | none => flag (suspect b) 30 + min (s.bankRepairs b) 65535)
  else none

end Sys2Proof.Machine
end

