-- ==== Sys2Proof/Machine/PrkImage.lean ====
section
/-! DEFINITION. A Pricking image read from its bytes and judged by the loader's checks (R27-R37, R40): header, region table,
records, touch sets, signature sets, and the checks that span regions. -/
namespace Sys2Proof.Machine

/-- A record as a region body holds it (R31): TYPE, LEN, INSTANCE, whether its reserved field and padding are zero, its body. -/
structure ParsedRec where
  ty : Nat
  len : Nat
  ix : Nat
  clean : Bool
  body : Bytes
  deriving DecidableEq, Repr

/-- A region of an image (R29): its table entry and its records. -/
structure ParsedRegion where
  id : Nat
  recVer : Nat
  off : Nat
  len : Nat
  version : Nat
  touch : Nat
  records : Nat
  clean : Bool
  crcOk : Bool
  /-- The body is a whole number of records. -/
  whole : Bool
  recs : List ParsedRec
  deriving DecidableEq, Repr

/-- A failed check: its code, and the region, record index and instance of the first failure (R37). -/
structure LoadErr where
  code : Nat
  region : Nat := 0
  index : Nat := 0
  ix : Nat := 0
  deriving DecidableEq, Repr

/-- What the loader compares an image with: this device and the configuration in effect. -/
structure LoaderEnv where
  serialNo : Nat
  floor : Nat
  active : Option PrkConfig
  ownerStore : Tab OwnerKey
  /-- Tags that own a namespace, and tags with an encrypted one. -/
  nsOwners : List Nat
  encTags : List Nat
  /-- Formatted capacity of each tier in bytes, the map's DRAM size of R170 in bytes, retired DRAM channels. -/
  flashBytes : Nat
  platBytes : Nat
  mapBytes : Nat
  dramRetired : Nat
  /-- Geometry in on-media headers: FLASH_GROUP geometry of formatted groups, ZONE and SURFACE bodies of mapped bands. -/
  mediaGroups : Tab (Nat × Nat × Nat)
  mediaZones : Tab Bytes
  mediaSurfaces : Tab Bytes
  deriving DecidableEq, Repr

/-- The three ways an image is loaded (R29, R36, R44). -/
inductive LoadMode where
  | live | store | boot
  deriving DecidableEq, Repr

/-! ### Reading the bytes -/

/-- The records of a body, at most `fuel` of them, and whether the body ended on a record boundary. -/
def parseRecs : Nat → Bytes → List ParsedRec × Bool
  | 0, b => ([], b.isEmpty)
  | n + 1, b =>
    if b.isEmpty then ([], true)
    else if b.length < 8 then ([], false)
    else
      let len := leAt b 2 2
      let padded := ceilDiv len 8 * 8
      let r : ParsedRec :=
        { ty := leAt b 0 2, len := len, ix := leAt b 4 2
          clean := leAt b 6 2 == 0 && allZero (slice b (8 + len) (padded - len))
          body := slice b 8 len }
      if b.length < 8 + padded then ([r], false)
      else
        let rest := parseRecs n (b.drop (8 + padded))
        (r :: rest.1, rest.2)

/-- Entry `i` of the region table and the region it describes (R29). -/
def parseRegion (img : Bytes) (i : Nat) : ParsedRegion :=
  let e := slice img (0x40 + 32 * i) 32
  let off := leAt e 4 4
  let len := leAt e 8 4
  let body := slice img off len
  let n := leAt e 20 4
  let p := parseRecs n body
  { id := leAt e 0 1, recVer := leAt e 2 2, off := off, len := len, version := leAt e 12 4, touch := leAt e 16 4, records := n
    clean := leAt e 1 1 == 0 && leAt e 28 4 == 0 && decide (leAt e 16 4 < 2 ^ 20)
    crcOk := crc32 body == leAt e 24 4
    whole := p.2 && decide (p.1.length = n)
    recs := p.1 }

/-- The regions of an image. -/
def parseRegions (img : Bytes) : List ParsedRegion := (List.range (leAt img 0x0C 2)).map (parseRegion img)

/-- The header's SERIAL, flags and SIG_OFF. -/
def imgSerial (img : Bytes) : Nat := leAt img 0x18 8
def imgFlags (img : Bytes) : Nat := leAt img 0x0E 2
def imgSigOff (img : Bytes) : Nat := leAt img 0x2C 4

/-- PARTIAL is set (R28). -/
def imgPartial (img : Bytes) : Bool := (imgFlags img).testBit 0

/-! ### Checks 0x01 to 0x06 -/

/-- Check 0x01: R27, R28 and the length supplied. -/
def headerOk (img : Bytes) : Bool :=
  decide (0x40 ≤ img.length ∧ img.length ≤ 0x04000000) && img.length % 8 == 0 &&
  leAt img 0x00 4 == 0x314B5250 && leAt img 0x04 2 == 2 && leAt img 0x06 2 == 0x40 && leAt img 0x08 4 == img.length &&
  decide (1 ≤ leAt img 0x0C 2 ∧ leAt img 0x0C 2 ≤ 16) && decide (imgFlags img < 4) && leAt img 0x15 3 == 0 &&
  ((imgFlags img).testBit 1 || leAt img 0x20 8 == 0) && leAt img 0x28 4 == 0x40 && leAt img 0x30 4 == 14864 &&
  leAt img 0x38 4 == 0 && imgSigOff img % 8 == 0 && imgSigOff img + 14864 == img.length &&
  decide (0x40 + 32 * leAt img 0x0C 2 ≤ imgSigOff img) && crc32 (img.take 0x3C) == leAt img 0x3C 4 &&
  (parseRegions img).all (fun r => r.off % 8 == 0 && r.len % 8 == 0)

/-- Check 0x02: PART, MIN_REV and BINDING (R37). -/
def deviceOk (img : Bytes) (serialNo : Nat) : Bool :=
  leAt img 0x10 4 == 0x7400 && decide (leAt img 0x14 1 ≤ 0xB0) &&
  (!(imgFlags img).testBit 1 || leAt img 0x20 8 == serialNo)

/-- A signature set's fixed fields (R34). -/
def sigSetShaped (set : Bytes) (signer : Nat) : Bool :=
  leAt set 0 1 == signer && leAt set 1 1 == 0 && leAt set 2 2 == 2592 && leAt set 4 2 == 96 && leAt set 6 2 == 0 &&
  leAt set 12 4 == 0 && leAt set 7428 4 == 0

/-- The owner's set, and Yelerari's. -/
def ownerSet (img : Bytes) : Bytes := slice img (imgSigOff img) 7432
def vendorSet (img : Bytes) : Bytes := slice img (imgSigOff img + 7432) 7432

/-- KEY_ID of a set. -/
def sigKeyId (set : Bytes) : Nat := leAt set 8 4

/-- The fields of an OWNER_KEYS body (0x0F01). -/
def ownerKeyOf (b : Bytes) : OwnerKey :=
  { ml := leAt b 0 48, ec := leAt b 48 48, enabled := (leAt b 96 4).testBit 0, waiver := (leAt b 96 4).testBit 1 }

/-- The owner keys a list of regions carries. -/
def imageOwnerKeys (rs : List ParsedRegion) : Tab OwnerKey :=
  ((rs.filter (fun r => r.id == 0xF)).map (fun r =>
    (r.recs.filter (fun x => x.ty == 0x0F01)).map (fun x => (x.ix, ownerKeyOf x.body)))).flatten

/-- The key under which an owner set is judged: the owner store's, or, while the device is unowned, the image's own (R35, R417). [DEDUCED: log entry 34] -/
def judgingKey (p : PrkImage) (env : LoaderEnv) : Option OwnerKey :=
  let id := sigKeyId (ownerSet p.bytes)
  if env.ownerStore.isEmpty ∧ !imgPartial p.bytes then Tab.find (imageOwnerKeys (parseRegions p.bytes)) id
  else Tab.find env.ownerStore id

/-- Check 0x03: the owner's set is valid (R35). [DEDUCED: log entry 34] -/
def ownerOk (p : PrkImage) (env : LoaderEnv) : Bool :=
  sigSetShaped (ownerSet p.bytes) 0x00 && p.ownerVerifies &&
  match judgingKey p env with
  | some k => k.enabled && k.ml == p.ownerMl && k.ec == p.ownerEc
  | none => false

/-- Check 0x04: Yelerari's set is valid, or waived by the owner key that signed (R35). -/
def vendorOk (p : PrkImage) (env : LoaderEnv) : Bool :=
  (sigSetShaped (vendorSet p.bytes) 0x01 && p.vendorVerifies && p.vendorInRom) ||
  match judgingKey p env with
  | some k => k.waiver
  | none => false

/-- Check 0x05 (R36, R44): live above what is in effect, otherwise at least the floor. -/
def versionErr (img : Bytes) (env : LoaderEnv) (mode : LoadMode) : Option LoadErr :=
  match mode, env.active with
  | .live, some c =>
    if imgSerial img ≤ c.serial then some { code := 0x05 }
    else ((parseRegions img).find? (fun r => decide (r.version ≤ Tab.at c.versions r.id 0))).map
      (fun r => { code := 0x05, region := r.id })
  | _, _ => if imgSerial img < env.floor then some { code := 0x05 } else none

/-- Region IDs rise (R29). -/
def idsRise : List ParsedRegion → Bool
  | a :: b :: t => decide (a.id < b.id) && idsRise (b :: t)
  | _ => true

/-- Bodies follow in order without overlap between the table and SIG_OFF (R29). -/
def bodiesLaid (lo hi : Nat) : List ParsedRegion → Bool
  | [] => true
  | r :: t => decide (lo ≤ r.off ∧ r.off + r.len ≤ hi) && bodiesLaid (r.off + r.len) hi t

/-- Check 0x06 (R29): the table, full images where one is required, body CRCs. -/
def tableErr (img : Bytes) (env : LoaderEnv) (mode : LoadMode) : Option LoadErr :=
  let rs := parseRegions img
  let needFull := mode != .live || env.active.isNone
  if !idsRise rs || rs.any (fun r => decide (15 < r.id)) then some { code := 0x06 }
  else if !imgPartial img && rs.length != 16 then some { code := 0x06 }
  else if imgPartial img && needFull then some { code := 0x06 }
  else if !bodiesLaid (0x40 + 32 * rs.length) (imgSigOff img) rs then some { code := 0x06 }
  else (rs.find? (fun r => !(r.clean && r.recVer == 1 && r.crcOk))).map (fun r => { code := 0x06, region := r.id })

/-! ### Check 0x07: records -/

/-- A record type: its LEN, first and last INSTANCE, reserved byte ranges, and whether it takes effect only at a power cycle (R32). -/
structure RecType where
  ty : Nat
  len : Nat
  ixLo : Nat
  ixHi : Nat
  reserved : List (Nat × Nat)
  powerCycle : Bool
  deriving DecidableEq, Repr

/-- The record types of R32. -/
def recTypes : List RecType :=
  [⟨0x0001, 12, 0, 0, [(10, 2)], true⟩, ⟨0x0101, 20, 1, 4095, [], false⟩, ⟨0x0102, 4, 0, 63, [], true⟩,
   ⟨0x0201, 32, 1, 0x1000, [], false⟩, ⟨0x0202, 12, 0, 0, [], false⟩, ⟨0x0301, 4, 0, 2, [], true⟩,
   ⟨0x0302, 16, 1, 8192, [(12, 4)], false⟩, ⟨0x0303, 8, 0, 0, [(6, 2)], false⟩, ⟨0x0401, 8, 0, 63, [(4, 4)], false⟩,
   ⟨0x0402, 36, 0, 0, [], false⟩, ⟨0x0501, 20, 0, 15, [(19, 1)], false⟩, ⟨0x0502, 12, 1, 0x1000, [(10, 2)], false⟩,
   ⟨0x0601, 8, 0, 31, [], false⟩, ⟨0x0701, 8, 1, 0x1000, [(6, 2)], false⟩, ⟨0x0702, 8, 0, 0, [(4, 4)], false⟩] ++
  [⟨0x0801, 4, 0, 0, [(2, 2)], false⟩, ⟨0x0802, 8, 0, 0, [], false⟩, ⟨0x0901, 8, 0, 0, [(5, 3)], false⟩,
   ⟨0x0A01, 16, 0, 3, [(8, 8)], false⟩, ⟨0x0A02, 12, 0, 0, [(9, 3)], true⟩, ⟨0x0B01, 8, 0, 23, [(3, 1)], false⟩,
   ⟨0x0B02, 16, 0, 31, [(14, 2)], false⟩, ⟨0x0C01, 40, 0, 63, [], false⟩, ⟨0x0D01, 8, 0, 0, [(3, 5)], true⟩,
   ⟨0x0D02, 4, 0, 0, [], false⟩, ⟨0x0E01, 4, 0, 511, [], false⟩, ⟨0x0E02, 4, 0, 0, [(2, 2)], false⟩,
   ⟨0x0F01, 104, 0, 3, [(100, 4)], true⟩, ⟨0x0F02, 52, 0, 0, [(1, 3)], true⟩]

/-- The type of a TYPE number. -/
def recType (ty : Nat) : Option RecType := recTypes.find? (fun t => t.ty == ty)

/-- Loop slots' kinds and sample sources (R257). -/
def loopSlotFixed (n kind source : Nat) : Bool :=
  if n ≤ 3 then kind == 0 && source == n
  else if n ≤ 7 then kind == 1 && source == n - 4
  else if n = 8 then kind == 2 && source == 8
  else if n ≤ 32 then kind == 3 && source == 0x20 + (n - 9)
  else kind == 4 && decide (0x60 ≤ source ∧ source ≤ 0x6B)

/-- Values within the ranges of R32 and of the chapters that own the record types. -/
def recInRange (r : ParsedRec) : Bool :=
  let b := r.body
  match r.ty with
  | 0x0001 => decide (4800 ≤ leAt b 0 2 ∧ leAt b 0 2 ≤ 8000) && leAt b 0 2 % 400 == 0 &&
      (leAt b 2 4) &&& 0xFFFF0F2F == 0 && decide (leAt b 6 1 ≤ 1 ∧ leAt b 7 1 ≤ 1) &&
      decide (100 ≤ leAt b 8 2 ∧ leAt b 8 2 ≤ 20000)
  | 0x0101 => decide (leAt b 0 1 < 20 ∧ 1 ≤ leAt b 1 1 ∧ leAt b 1 1 ≤ 8 ∧ leAt b 2 1 ≤ 3 ∧ leAt b 3 1 ≤ 1) &&
      (List.range 8).all (fun i => decide (i < leAt b 1 1) || leAt b (4 + 2 * i) 2 == 0xFFFF)
  | 0x0201 => decide (leAt b 0 4 < 32)
  | 0x0202 => leAt b 0 4 == 16000 && leAt b 4 4 % 16000 == 0 && decide (16000 ≤ leAt b 4 4 ∧ leAt b 4 4 ≤ 1024000) &&
      (List.range 4).all (fun i => leAt b (8 + i) 1 == 0 || decide (1024 ≤ leAt b (8 + i) 1 * leAt b 4 4 / 256))
  | 0x0301 => decide (leAt b 0 1 ≤ 1) && (if r.ix = 0 then decide (leAt b 1 1 ≤ 6 ∧ leAt b 2 2 ≤ 1024)
      else decide (leAt b 1 1 ≤ 1) && leAt b 2 2 == 0)
  | 0x0302 => decide (leAt b 2 1 ≤ 2 ∧ leAt b 3 1 ≤ 1 ∧ leAt b 4 2 ≤ 4095 ∧ 2 ≤ leAt b 6 2 ∧ leAt b 6 2 ≤ 16384 ∧
      leAt b 8 2 ≤ 2048) && bits (leAt b 10 2) 14 11 == 0
  | 0x0303 => decide (leAt b 0 2 ≤ 16384 ∧ leAt b 2 2 ≤ 8192 ∧ leAt b 4 2 ≤ 1)
  | 0x0401 => decide (leAt b 1 1 < 16 ∧ leAt b 2 2 ≤ 16)
  | 0x0402 => decide (leAt b 0 4 ≤ 65536) && decide (((List.range 8).map (fun l => leAt b (4 + 4 * l) 4)).sum ≤ 65536)
  | 0x0501 => decide (leAt b 18 1 ≤ 1)
  | 0x0502 => decide (leAt b 0 4 ≤ 1048576 ∧ 1000 ≤ leAt b 4 4 ∧ leAt b 4 4 ≤ 1000000000 ∧ leAt b 8 2 ≤ 64)
  | 0x0601 => decide (1 ≤ leAt b 4 4 ∧ leAt b 4 4 ≤ 16384 * leAt b 1 1)
  | 0x0701 => decide (leAt b 4 1 < 8 ∧ leAt b 5 1 ≤ 1)
  | 0x0801 => decide (1 ≤ leAt b 0 1 ∧ leAt b 0 1 ≤ 16 ∧ leAt b 1 1 ≤ 16 ∧ leAt b 0 1 + leAt b 1 1 ≤ 16)
  | 0x0802 => decide (leAt b 0 4 ≤ 262144 ∧ 1 ≤ leAt b 4 4 ∧ leAt b 4 4 ≤ 3650)
  | 0x0901 => decide (1 ≤ leAt b 0 1 ∧ leAt b 0 1 ≤ 8 ∧ 1 ≤ leAt b 1 1 ∧ leAt b 1 1 ≤ 8 ∧ 1 ≤ leAt b 2 1 ∧ leAt b 2 1 ≤ 9 ∧
      10 ≤ leAt b 3 1 ∧ leAt b 3 1 ≤ 23 ∧ leAt b 4 1 ≤ 1)
  | 0x0A01 => decide (leAt b 3 1 ≤ 8)
  | 0x0A02 => decide (leAt b 0 2 ≤ 16 ∧ 20 ≤ leAt b 2 2 ∧ leAt b 2 2 ≤ 200) && leAt b 8 1 == 32
  | 0x0B01 => decide (leAt b 2 1 ≤ 2 ∧ leAt b 0 1 ≤ 3 ∧ leAt b 1 1 ≤ 5)
  | 0x0B02 => decide (3200 ≤ leAt b 8 2 ∧ leAt b 8 2 ≤ 6400 ∧ leAt b 0 4 ≤ leAt b 4 4) && leAt b 12 2 == 512
  | 0x0C01 => decide ((leAt b 1 1 = 2 ∨ leAt b 1 1 = 3) ∧ leAt b 3 1 ≤ 7) && loopSlotFixed r.ix (leAt b 0 1) (leAt b 2 1) &&
      (leAt b 1 1 == 3 || (leAt b 18 2 == 0 && leAt b 24 2 == 0 && leAt b 32 2 == 0 && leAt b 38 2 == 0))
  | 0x0D01 => decide (1 ≤ leAt b 0 1 ∧ leAt b 0 1 < 16 ∧ 8 ≤ leAt b 2 1 ∧ leAt b 2 1 ≤ 16) &&
      (leAt b 1 1 == 8 || leAt b 1 1 == 16 || leAt b 1 1 == 32)
  | 0x0D02 => decide (1 ≤ leAt b 0 2 ∧ leAt b 0 2 ≤ 168 ∧ 1 ≤ leAt b 2 2 ∧ leAt b 2 2 ≤ 168)
  | 0x0E01 => decide (leAt b 0 1 < 16 ∧ leAt b 3 1 ≤ 4)
  | 0x0E02 => decide (leAt b 0 1 ≤ 3 ∧ leAt b 1 1 ≤ 3) && leAt b 0 1 != leAt b 1 1
  | 0x0F01 => decide (leAt b 96 4 < 4)
  | 0x0F02 => decide (leAt b 0 1 ≤ 1)
  | _ => true

/-- One record of region `reg` against R31 and R32. -/
def recOk (reg : Nat) (r : ParsedRec) : Bool :=
  match recType r.ty with
  | some t => r.ty / 256 == reg && r.len == t.len && r.clean && decide (t.ixLo ≤ r.ix ∧ r.ix ≤ t.ixHi) &&
      t.reserved.all (fun p => allZero (slice r.body p.1 p.2)) && recInRange r
  | none => false

/-- Records sorted by TYPE then INSTANCE, no pair twice (R31). -/
def recsRise : List ParsedRec → Bool
  | a :: b :: t => decide (recKey a.ty a.ix < recKey b.ty b.ix) && recsRise (b :: t)
  | _ => true

/-- The first record of a region that breaks R31 or R32, with its index. -/
def badRec (r : ParsedRegion) : Option LoadErr :=
  if !r.whole || !recsRise r.recs then some { code := 0x07, region := r.id }
  else ((r.recs.zip (List.range r.recs.length)).find? (fun p => !recOk r.id p.1)).map
    (fun p => { code := 0x07, region := r.id, index := p.2, ix := p.1.ix })

/-- The configuration a load would bring: the image's regions in place of those in effect (R36). -/
def resultCfg (img : Bytes) (base : Option PrkConfig) : PrkConfig :=
  let rs := parseRegions img
  let old := base.getD {}
  let kept := old.recs.filter (fun p => !rs.any (fun r => p.1 / 2 ^ 24 == r.id))
  { serial := imgSerial img
    versions := rs.foldl (fun t r => Tab.put t r.id r.version) old.versions
    recs := rs.foldl (fun t r => r.recs.foldl (fun t x => Tab.put t (recKey x.ty x.ix) x.body) t) kept }

/-- Codeword bytes of a code-rate index (R205). -/
def codewordBytes : Nat → Nat
  | 0 => 4800
  | 1 => 4744
  | 2 => 4696
  | 3 => 4640
  | 4 => 4584
  | 5 => 4536
  | 6 => 4488
  | 7 => 4440
  | _ => 4392

/-- Bits per wedge interval of a zone rate in Mb/s: round(r * 10^6 / 61,440) (R230). -/
def wedgeBits (rate : Nat) : Nat := (2 * rate * 1000000 + 61440) / 122880

/-- S_max of R235. [DESIGN CHOICE: log entry 40] -/
def sectorsMax (rate index : Nat) : Nat :=
  512 * (wedgeBits rate * 94 / 100 - 384) / (8 * codewordBytes index + 640)

/-- The code-rate index of a configuration. -/
def PrkConfig.codeRate (c : PrkConfig) : Nat :=
  match c.ofType 0x0A01 with
  | (_, b) :: _ => leAt b 3 1
  | [] => 3

/-- Tags of TENANT records, and of the sealed ones. -/
def PrkConfig.tenants (c : PrkConfig) : List Nat := (c.ofType 0x0201).map (fun p => p.1)
def PrkConfig.sealedTenants (c : PrkConfig) : List Nat :=
  ((c.ofType 0x0201).filter (fun p => (leAt p.2 0 4).testBit 0)).map (fun p => p.1)

/-- ZONE records contiguous from track 0, rates not rising (R230). [DESIGN CHOICE: log entry 40] -/
def zonesLaid : Nat → Nat → Nat → List (Nat × Bytes) → Bool
  | _, _, _, [] => true
  | n, first, rate, (i, b) :: t =>
    i == n && leAt b 0 4 == first && decide (leAt b 8 2 ≤ rate) && zonesLaid (n + 1) (leAt b 4 4 + 1) (leAt b 8 2) t

/-- Whole-region range rules with ERR 0x07: READY_LIST classes (R294), SEAL_PLAN and TALLY_LANES while tenants are sealed (R300,
R359), equal code rates (R205), surfaces (R226), zones (R230). [DEDUCED: log entry 31] -/
def regionRangeErr (c : PrkConfig) : Option LoadErr :=
  let lists := c.ofType 0x0401
  let mask := fun (i : Nat) => match c.body 0x0401 i with | some b => leAt b 1 1 | none => 0
  let plan := (c.body 0x0202 0).getD []
  let surfaces := c.ofType 0x0B01
  let present := (List.range 4).filter (fun a => surfaces.any (fun p => leAt p.2 0 1 == a && decide (leAt p.2 2 1 ≤ 1)))
  let oneClock := present.all (fun a => (surfaces.filter (fun p => leAt p.2 0 1 == a && leAt p.2 2 1 == 1)).length == 1)
  let heads := surfaces.map (fun p => leAt p.2 0 1 * 256 + leAt p.2 1 1)
  let zones := c.ofType 0x0B02
  if !((mask 0).testBit 0 && (mask 0).testBit 3 && (mask 1).testBit 1 && lists.any (fun p => (leAt p.2 1 1).testBit 2)) then
    some { code := 0x07, region := 4 }
  else if !c.sealedTenants.isEmpty && (leAt plan 8 1 == 0 || leAt plan 9 1 == 0 || leAt plan 10 1 == 0) then
    some { code := 0x07, region := 2 }
  else if !c.sealedTenants.isEmpty && leAt ((c.body 0x0801 0).getD []) 1 1 == 0 then some { code := 0x07, region := 8 }
  else if !(c.ofType 0x0A01).all (fun p => leAt p.2 3 1 == c.codeRate) then some { code := 0x07, region := 0xA }
  else if !oneClock || !(heads.eraseDups.length == heads.length) then some { code := 0x07, region := 0xB }
  else if (!present.isEmpty && zones.isEmpty) || !zonesLaid 0 0 6400 zones then some { code := 0x07, region := 0xB }
  else if !zones.all (fun p => decide (1 ≤ leAt p.2 10 2 ∧ leAt p.2 10 2 ≤ sectorsMax (leAt p.2 8 2) c.codeRate)) then
    some { code := 0x07, region := 0xB }
  else none

/-! ### Check 0x08 and R33: touch sets -/

/-- The touch set computed from one region's records (R33). [DEDUCED: log entry 33] -/
def computedTouch (r : ParsedRegion) : Nat :=
  match r.id with
  | 0x0 => if r.recs.isEmpty then 0 else 0x10020
  | 0x1 => r.recs.foldl (fun m x =>
      if x.ty = 0x0102 then m ||| 0x10
      else let rt := routeOf x.body
        (rt.source :: rt.hops.map (fun h => h.1)).foldl (fun m u => m ||| 2 ^ u) m) 0
  | 0x2 => if r.recs.isEmpty then 0 else 0x5C3
  | 0x3 => if r.recs.isEmpty then 0 else 0x1
  | 0x4 => if r.recs.isEmpty then 0 else 0x2
  | 0x5 => if r.recs.isEmpty then 0 else 0xC
  | 0x6 => if r.recs.isEmpty then 0 else 0x200
  | 0x7 => if r.recs.isEmpty then 0 else 0x40
  | 0x8 => if r.recs.isEmpty then 0 else 0x80
  | 0x9 => if r.recs.isEmpty then 0 else 0x100
  | 0xA => if r.recs.isEmpty then 0 else 0x1C00
  | 0xB => if r.recs.isEmpty then 0 else 0x6400
  | 0xC => if r.recs.isEmpty then 0 else 0xC000
  | 0xD => if r.recs.isEmpty then 0 else 0x30000
  | 0xE => if r.recs.isEmpty then 0 else 0x40000
  | _ => if r.recs.isEmpty then 0 else 0x80000

/-- Union of the touch sets of an image's regions, computed and declared. -/
def imgTouch (img : Bytes) : Nat := (parseRegions img).foldl (fun m r => m ||| computedTouch r) 0
def imgDeclared (img : Bytes) : Nat := (parseRegions img).foldl (fun m r => m ||| r.touch) 0

/-- Check 0x08: the declared set contains the computed one (R30). -/
def touchErr (img : Bytes) : Option LoadErr :=
  ((parseRegions img).find? (fun r => computedTouch r &&& r.touch != computedTouch r)).map
    (fun r => { code := 0x08, region := r.id })

/-! ### Cross-region checks 0x10 to 0x1C -/

/-- Lanes or ports of a unit that a route hop may name. [DEDUCED: log entry 38] -/
def unitLanes : Nat → Nat
  | 0 => 4
  | 2 => 96
  | 3 => 2
  | 6 => 6
  | 7 => 16
  | 8 => 16
  | 9 => 32
  | 11 => 32
  | 12 => 64
  | 13 => 8
  | 14 => 64
  | 16 => 4
  | _ => 1

/-- Sum of a field over the records of a type. -/
def PrkConfig.sumOf (c : PrkConfig) (ty off n : Nat) : Nat := ((c.ofType ty).map (fun p => leAt p.2 off n)).sum

/-- DRAM bytes of a DRAM_MAP less the retired channels (R430, R451). [DEDUCED: log entry 39] -/
def dramBytes (c : PrkConfig) (retired : Nat) : Nat :=
  match c.body 0x0D01 0 with
  | some b => ((List.range 4).filter (fun i => (leAt b 0 1).testBit i && !retired.testBit i)).length * leAt b 1 1 * 2 ^ 30
  | none => 0

/-- DRAM bytes the configuration needs beside the map (check 0x12): Wings, SLM, programs at eight bytes a slot, and 64 bytes a
scene and a task. [DEDUCED: log entry 39] -/
def dramNeeds (c : PrkConfig) : Nat :=
  c.sumOf 0x0201 20 4 * 1024 + c.sumOf 0x0201 28 4 * 2 ^ 20 +
  ((c.ofType 0x0502).map (fun p => leAt p.2 8 2 * leAt p.2 0 4 * 8)).sum + (131072 + 262144) * 64

/-- Ranges [first, first + count) that do not overlap. -/
def disjointRanges : List (Nat × Nat) → Bool
  | [] => true
  | (a, n) :: t => t.all (fun p => decide (a + n ≤ p.1 ∨ p.1 + p.2 ≤ a)) && disjointRanges t

/-- The first record of a type that a test refuses. -/
def PrkConfig.badOf (c : PrkConfig) (ty code : Nat) (bad : Nat → Bytes → Bool) : Option LoadErr :=
  let l := c.ofType ty
  ((l.zip (List.range l.length)).find? (fun p => bad p.1.1 p.1.2)).map
    (fun p => { code := code, region := ty / 256, index := p.2, ix := p.1.1 })

/-- A user tenant the configuration defines. -/
def PrkConfig.hasTenant (c : PrkConfig) (t : Nat) : Bool := (c.body 0x0201 t).isSome

/-- Check 0x13 on the CONTROLLER records. -/
def controllerErr (c : PrkConfig) : Option LoadErr :=
  let port0 := (c.body 0x0301 0).getD []
  let l := c.ofType 0x0302
  let pcie := l.filter (fun p => leAt p.2 2 1 == 0)
  let bad := fun (i : Nat) (b : Bytes) =>
    let fn := leAt b 10 2
    !c.hasTenant (leAt b 0 2) ||
      (leAt b 2 1 == 0 && (fn % 2048 == 0 || decide (leAt port0 2 2 < fn % 2048) || (fn.testBit 15 && leAt port0 0 1 == 0) ||
        pcie.any (fun q => q.1 != i && leAt q.2 10 2 == fn)))
  if 8192 < l.length ∨ 65536 < c.sumOf 0x0302 4 2 then some { code := 0x13, region := 3 }
  else c.badOf 0x0302 0x13 bad

/-- Tags that have a TENANT record in effect and none in the resulting configuration (check 0x19). [DEDUCED: log entry 191] -/
def removedTags (env : LoaderEnv) (c : PrkConfig) : List Nat :=
  match env.active with
  | some a => a.tenants.filter (fun t => !c.hasTenant t)
  | none => []

/-- What the resulting configuration still gives a tag (check 0x19). [DEDUCED: log entry 31] -/
def stillGiven (c : PrkConfig) (t : Nat) : Bool :=
  (c.ofType 0x0302).any (fun p => leAt p.2 0 2 == t) || (c.body 0x0701 t).isSome || (c.body 0x0502 t).isSome ||
  (c.ofType 0x0601).any (fun p => leAt p.2 2 2 == t) || (c.ofType 0x0501).any (fun p => leAt p.2 16 2 == t) ||
  (c.ofType 0x0E01).any (fun p => leAt p.2 1 2 == t)

/-- Checks 0x10 to 0x15. [DEDUCED: log entry 38] -/
def crossErrA (env : LoaderEnv) (c : PrkConfig) : Option LoadErr :=
  match c.badOf 0x0201 0x10 (fun _ b => decide (leAt b 24 4 < 776)) with
  | some e => some e
  | none =>
  if 2 ^ 20 < c.sumOf 0x0201 20 4 ∨ 16384 < c.sumOf 0x0201 28 4 ∨ env.flashBytes < c.sumOf 0x0201 4 8 ∨
      env.platBytes < c.sumOf 0x0201 12 8 then some { code := 0x11, region := 2 }
  else if dramBytes c env.dramRetired < env.mapBytes + dramNeeds c then some { code := 0x12, region := 0xD }
  else
  match controllerErr c with
  | some e => some e
  | none =>
  match c.badOf 0x0101 0x14 (fun _ b => (routeOf b).hops.any (fun h => decide (20 ≤ h.1 ∨ unitLanes h.1 ≤ h.2))) with
  | some e => some e
  | none =>
  let parts := (c.ofType 0x0701).map (fun p => (leAt p.2 0 2, leAt p.2 2 2))
  if parts.any (fun p => decide (8192 < p.1 + p.2)) || !disjointRanges (parts.filter (fun p => p.2 != 0)) then
    some { code := 0x15, region := 7 }
  else if env.encTags.any (fun t => c.hasTenant t && leAt ((c.body 0x0701 t).getD []) 2 2 == 0) then
    some { code := 0x15, region := 7 }
  else none

/-- Checks 0x16 to 0x1C. -/
def crossErrB (env : LoaderEnv) (c : PrkConfig) : Option LoadErr :=
  let tables := (c.ofType 0x0601).map (fun p => (leAt p.2 0 1, leAt p.2 1 1))
  let plan := (c.body 0x0202 0).getD []
  if tables.any (fun p => decide (32 < p.1 + p.2)) || !disjointRanges (tables.filter (fun p => p.2 != 0)) then
    some { code := 0x16, region := 6 }
  else
  match c.badOf 0x0601 0x16 (fun _ b => (leAt b 2 2 != 0 && !c.hasTenant (leAt b 2 2)) ||
      (c.sealedTenants.contains (leAt b 2 2) && leAt plan 11 1 == 0)) with
  | some e => some e
  | none =>
  let sets := (c.ofType 0x0501).map (fun p => bobbinSetOf p.2)
  let all := sets.foldl (fun m x => m ||| x.mask) 0
  let total := (sets.map (fun x => ((List.range 128).filter (fun i => x.mask.testBit i)).length)).sum
  let popAll := ((List.range 128).filter (fun i => all.testBit i)).length
  let data := ((sets.filter (fun x => !x.userPrograms)).map
    (fun x => ((List.range 128).filter (fun i => x.mask.testBit i)).length)).sum
  let unset := 96 - popAll
  if total != popAll || decide (2 ^ 96 ≤ all) || decide (data + unset < 8) then some { code := 0x17, region := 5 }
  else if !env.mediaGroups.all (fun g => match c.body 0x0A01 g.1 with
      | some b => leAt b 0 1 == g.2.1 && leAt b 1 1 == g.2.2.1 && leAt b 2 1 == g.2.2.2
      | none => false) then some { code := 0x18, region := 0xA }
  else if !env.mediaZones.all (fun z => c.body 0x0B02 z.1 == some z.2) ||
      !env.mediaSurfaces.all (fun z => c.body 0x0B01 z.1 == some z.2) then some { code := 0x18, region := 0xB }
  else
  match c.badOf 0x0701 0x19 (fun t _ => !c.hasTenant t) with
  | some e => some e
  | none =>
  match c.badOf 0x0502 0x19 (fun t _ => !c.hasTenant t) with
  | some e => some e
  | none =>
  match c.badOf 0x0501 0x19 (fun _ b => leAt b 16 2 != 0 && !c.hasTenant (leAt b 16 2)) with
  | some e => some e
  | none =>
  match (removedTags env c).find? (fun t => env.nsOwners.contains t || stillGiven c t) with
  | some t => some { code := 0x19, region := 2, ix := t }
  | none =>
  match c.badOf 0x0C01 0x1A (fun _ b => decide (toSigned 16 (leAt b 6 2) ≤ toSigned 16 (leAt b 4 2)) || leAt b 8 2 == 0 ||
      leAt b 10 2 == 0) with
  | some e => some e
  | none =>
  match c.badOf 0x0E01 0x1B (fun n b => if decide (352 ≤ n ∧ n ≤ 383) then decide (3 < leAt b 0 1)
      else leAt b 1 2 != 0 && !c.hasTenant (leAt b 1 2)) with
  | some e => some e
  | none =>
  if (List.range 4).any (fun i => decide (128 < leAt plan (8 + i) 1)) || decide (128 < c.sealedTenants.length) then
    some { code := 0x1C, region := 2 }
  else none

/-! ### The checks in order (R37), and R40 -/

/-- A configuration's power-cycle records of a region. -/
def powerRecs (c : PrkConfig) (region : Nat) : Tab Bytes :=
  c.recs.filter (fun p => p.1 / 2 ^ 24 == region &&
    match recType (p.1 / 65536) with | some t => t.powerCycle | none => false)

/-- R40: an APPLY is refused when a carried region changes a power-cycle record, or its computed touch set includes the Ground
routers, the cue clock or the Safety Curtain; with nothing in effect every one is (R38). [DEDUCED: log entries 25, 205] -/
def applyRefused (img : Bytes) (env : LoaderEnv) (c : PrkConfig) : Option LoadErr :=
  if env.active.isNone then some { code := 0x22 }
  else
  match (parseRegions img).find? (fun r => powerRecs c r.id != powerRecs (env.active.getD {}) r.id) with
  | some r => some { code := 0x22, region := r.id }
  | none => if imgTouch img &&& 0x80030 != 0 then some { code := 0x22 } else none

/-- The checks of R37 in the order of their codes: the first failure, or none. -/
def imageErr (p : PrkImage) (env : LoaderEnv) (mode : LoadMode) : Option LoadErr :=
  if !headerOk p.bytes then some { code := 0x01 }
  else if !deviceOk p.bytes env.serialNo then some { code := 0x02 }
  else if !ownerOk p env then some { code := 0x03 }
  else if !vendorOk p env then some { code := 0x04 }
  else
  match versionErr p.bytes env mode with
  | some e => some e
  | none =>
  match tableErr p.bytes env mode with
  | some e => some e
  | none =>
  match (parseRegions p.bytes).findSome? badRec with
  | some e => some e
  | none =>
  let base := if mode = .live then env.active else none
  let c := resultCfg p.bytes base
  match regionRangeErr c with
  | some e => some e
  | none =>
  match touchErr p.bytes with
  | some e => some e
  | none =>
  match crossErrA env c with
  | some e => some e
  | none => crossErrB (if mode = .boot then { env with active := none } else env) c

end Sys2Proof.Machine
end

