-- ==== Sys2Proof/Machine/Servo.lean ====
section
/-! DEFINITION. What the read channel and Hoop do together (09_read_channel.md, 10_hoop_and_motors.md): angles and track layout, the
write guard, loop slots switched on and off, motor-link frames queued, parks and resumes. -/
namespace Sys2Proof.Machine

/-! ### Actuators and angles (R225-R230) -/

/-- Clock cycles of a revolution (R227). -/
def revCycles : Nat := 6553600

/-- An actuator. -/
def State.act (s : State) (a : Nat) : RchAct := Tab.at s.rch.acts a {}

/-- An actuator changed. -/
def onAct (a : Nat) (f : RchAct → RchAct) (s : State) : State :=
  { s with rch := { s.rch with acts := Tab.update s.rch.acts a {} f } }

/-- The SURFACE records of the configuration in effect. -/
def State.surfaces (s : State) : List SurfaceRec := (s.cfg.ofType 0x0B01).map (fun p => surfaceOf p.2)

/-- Is the actuator present: a SURFACE record with role 0 or 1 names it (R226)? -/
def State.present (s : State) (a : Nat) : Bool := decide (a < 4) && s.surfaces.any (fun r => r.actuator == a && r.role ≤ 1)

/-- The present actuators. -/
def State.actuators (s : State) : List Nat := [0, 1, 2, 3].filter (fun a => s.present a)

/-- P of R229: the sum of the last 512 interval durations, taken from those there are while they are fewer. [DEDUCED: log entry 106] -/
def RchAct.period (x : RchAct) : Nat :=
  if x.intervals = [] then 0 else x.intervals.sum * 512 / x.intervals.length

/-- The angle under the heads at a cue (R228, R229). -/
def RchAct.angleAt (x : RchAct) (cue : Nat) : Nat :=
  if x.period = 0 then x.stampAngle else (x.stampAngle + (cue - x.stampCue) * revCycles / x.period) % revCycles

/-- The cue of a future angle (R229). -/
def RchAct.cueOf (x : RchAct) (angle : Nat) : Nat :=
  x.stampCue + ((angle + revCycles - x.stampAngle % revCycles) % revCycles) * x.period / revCycles

/-- The measured spindle speed in quarter rpm, from the lowest-numbered locked clock lane (R258). -/
def State.spindle (s : State) : Option Nat :=
  ([0, 1, 2, 3].find? (fun a => (s.act a).locked && decide (0 < (s.act a).period))).map (fun a =>
    (240000000000 + (s.act a).period / 2) / (s.act a).period)

/-- A loop slot. -/
def State.slot (s : State) (n : Nat) : LoopSlot := Tab.at s.hop.slots n {}

/-- A loop slot changed. -/
def onSlot (n : Nat) (f : LoopSlot → LoopSlot) (s : State) : State :=
  { s with hop := { s.hop with slots := Tab.update s.hop.slots n {} f } }

/-- Is the spindle at speed: within 0.1% of its set-point (R229)? [DEDUCED: log entry 183] -/
def State.atSpeed (s : State) : Bool :=
  match s.spindle with
  | some v => let sp := (s.slot 8).sp; decide (0 < sp ∧ ((v : Int) - sp).natAbs * 1000 ≤ sp.natAbs)
  | none => false

/-- The actuator's state in RCH_STATUS (R255). -/
def State.actState (s : State) (a : Nat) : Nat :=
  let x := s.act a
  if !s.present a then 4
  else if x.offline then 3
  else if x.parked then 1
  else if !x.everLocked then 4
  else if !x.locked then 2
  else if !s.atSpeed then 5
  else 0

/-! ### Track layout (R230, R231, R233, R235) -/

/-- Bits of the data field of a wedge interval (R231). -/
def fieldBits (bw : Nat) : Nat := bw * 94 / 100

/-- The walk of R235 in bit positions from the start of wedge w0: the first bit and the end of each sector of a track. -/
def walk (bw cw : Nat) : Nat → Nat → List (Nat × Nat)
  | 0, _ => []
  | k + 1, pos =>
    let b := cw + 640
    let servo := bw - fieldBits bw
    let fieldEnd := fun (p : Nat) => (p / bw + 1) * bw
    let fieldStart := fun (w : Nat) => w * bw + servo
    let pos := if fieldEnd pos - pos < 385 then fieldStart (pos / bw + 1) else pos
    let room := fieldEnd pos - pos
    if b - 256 ≤ room then
      let e := min (pos + b) (fieldEnd pos)
      (pos, e) :: walk bw cw k (if e = fieldEnd pos then fieldStart (pos / bw + 1) else e)
    else
      let k1 := room - 384
      let p2 := fieldStart (pos / bw + 1)
      let e := p2 + (96 + 32 + (cw - k1) + 64 + 256)
      (pos, e) :: walk bw cw k e

/-- The zone of a band, or of a track. -/
def State.zone (s : State) (z : Nat) : Option ZoneRec := (s.cfg.body 0x0B02 z).map zoneOf

/-- The zone that holds a track. -/
def State.zoneOfTrack (s : State) (t : Nat) : Nat :=
  (((s.cfg.ofType 0x0B02).find? (fun p => decide ((zoneOf p.2).firstTrack ≤ t ∧ t ≤ (zoneOf p.2).lastTrack))).map (fun p => p.1)).getD 0

/-- Physical sectors of a band with their first and last bit along its tracks, unrolled: each track begins 24 wedges after a whole
revolution of the one before it (R237). -/
def bandSectors (z : ZoneRec) (codeRate first count : Nat) : List (Nat × Nat × Nat) :=
  let bw := wedgeBits z.rate
  let w := walk bw (8 * codewordBytes codeRate) z.sectors (bw - fieldBits bw)
  (List.range count).filterMap (fun i =>
    let p := first + i
    (w[p % max 1 z.sectors]?).map (fun q => (p, p / max 1 z.sectors * 536 * bw + q.1, p / max 1 z.sectors * 536 * bw + q.2)))

/-! ### The motor link's queue (R275, R278, R282) -/

/-- A frame waits for link time: a newer output of a channel supersedes one not yet sent (R282). -/
def queueFrame (f : LinkFrame) (s : State) : State :=
  let l := s.hop.link
  let q := if f.ty = 1 then l.queue.filter (fun x => !(x.ty == 1 && x.ch == f.ch)) else l.queue
  { s with hop := { s.hop with link := { l with queue := q ++ [f] } } }

/-- A frame of a type. -/
def frame (ty ch data : Nat) : LinkFrame := { ty := ty, ch := ch, data := data % 65536, tries := 0, diag := false }

/-- The priority of a frame (R278). -/
def LinkFrame.prio (f : LinkFrame) : Nat :=
  if f.ty = 4 ∨ f.ty = 5 ∨ (f.ty = 1 ∧ f.ch < 8) then 0
  else if f.ty = 1 ∨ (f.ty = 3 ∧ !f.diag) then 1
  else if f.ty = 0 then 3
  else 2

/-! ### The write guard (R246, R247) -/

/-- The sectors of a run that are suspect at a trip: written in any part after the last wedge that passed its check, with the bits
that passed since (R247). [DEDUCED: log entry 108] -/
def suspects (s : State) (x : RchAct) (r : WriteRun) : List (Nat × Nat × Nat) × Nat × Nat :=
  match Tab.find s.trl.bands r.band with
  | some b =>
    match s.zone b.zone with
    | some z =>
      let l := bandSectors z b.codeRate r.first r.count
      let start := (l.head?.map (fun q => q.2.1)).getD 0
      let bitsAt := fun (cue : Nat) => if x.period = 0 then start else start + (cue - r.start) * 512 * wedgeBits z.rate / x.period
      let u0 := bitsAt (max x.passCue r.start)
      let u1 := bitsAt s.cue.now
      (l.filter (fun q => decide (u0 < q.2.2 ∧ q.2.1 < u1)), u0, u1)
    | none => ([], 0, 0)
  | none => ([], 0, 0)

/-- The physical sector's data sector, none for parity (R236). -/
def dataOf (p : Nat) : Option Nat :=
  let st := p / 8192
  let m := p % 8192 / 256
  let last := if st < 8 then 31 else 8
  if m < last then some (7936 * st + 256 * m + p % 256) else none

/-- Sectors of the previous track within the angular span of suspect sectors are read back (R247). -/
def readBacks (s : State) (r : WriteRun) (u0 u1 : Nat) : List (Nat × Nat) :=
  match Tab.find s.trl.bands r.band with
  | some b =>
    match s.zone b.zone with
    | some z =>
      let n := max 1 z.sectors
      let t := r.first / n
      if t = 0 then []
      else
        let rev := 512 * wedgeBits z.rate
        let l := bandSectors z b.codeRate ((t - 1) * n) n
        (l.filter (fun q => [0, 1, 2].any (fun j => decide (u0 < q.2.2 + j * rev ∧ q.2.1 + j * rev < u1)))).filterMap (fun q =>
          (dataOf q.1).map (fun d => (d / 8, d % 8)))
    | none => []
  | none => []

/-- A granule of a band is read back (R247). -/
def startReadBack (band slot gran : Nat) (s : State) : State :=
  let r : MediaRd := { scene := 0, src := .platter band slot, gran := gran, back := true, since := s.wall }
  { s with flc := { s.flc with rds := Tab.put s.flc.rds s.flc.nextRd r, nextRd := s.flc.nextRd + 1 } }

/-- A band that cannot be written is retired once its data are refreshed (R191, R248): it is closed at its last good slot, its pending
slots go to a new band. -/
def retireBand (band : Nat) (s : State) : State :=
  match Tab.find s.trl.bands band with
  | none => s
  | some b =>
    let s := raiseObj 138 band 0 s
    let pend := s.trl.copies.filter (fun c => match c.dst with | .platter k _ => k == band | _ => false)
    let t := { s.trl with
      bands := Tab.put s.trl.bands band { b with closed := true, refresh := true, retired := true }
      copies := s.trl.copies.filter (fun c => match c.dst with | .platter k _ => k != band | _ => true)
      retiredBands := s.trl.retiredBands + 1 }
    let t := pend.foldl (fun t c =>
      match takeBandSlot b.stream b.act t with
      | some (e, t) => { t with copies := t.copies ++ [{ c with dst := e }] }
      | none => t) t
    { s with trl := t }

/-- The write gate of an actuator drops and no new run starts (R246, R247): the suspect sectors are to be written again. -/
def dropGate (a : Nat) (s : State) : State :=
  let x := s.act a
  match x.run with
  | none => onAct a (fun x => { x with writing := false, tripped := true, passes := 0 }) s
  | some r =>
    let (l, u0, u1) := suspects s x r
    let back := readBacks s r u0 u1
    let s := countUp 0xD00030 l.length s
    let firstSus := (l.head?.map (fun q => q.1)).getD r.first
    let s := onAct a (fun x => { x with writing := false, run := none, tripped := true, passes := 0 }) s
    match Tab.find s.trl.bands r.band with
    | none => s
    | some b =>
      let n := if b.trips.1 = firstSus ∧ l ≠ [] then b.trips.2 + 1 else 1
      let hit := fun (c : Copy) => match c.dst with
        | .platter k slot => k == r.band && l.any (fun q => match dataOf q.1 with | some d => d / 8 == slot | none => false)
        | _ => false
      let s := { s with trl := { s.trl with
        bands := Tab.put s.trl.bands r.band { b with append := firstSus, trips := (firstSus, n) }
        copies := s.trl.copies.map (fun c => if hit c then { c with suspect := true } else c) } }
      let s := back.foldl (fun s q => startReadBack r.band q.1 q.2 s) s
      if 3 ≤ n then retireBand r.band s else s

/-! ### Parks and resumes (R279-R282) -/

/-- The slots of an actuator: VCM, microactuator, heaters. -/
def actSlots (a : Nat) : List Nat := [a, 4 + a] ++ (List.range 6).map (fun h => 9 + 6 * a + h)

/-- A slot is enabled: its soft start comes at the next boundary (R269). [DESIGN CHOICE: log entry 109] -/
def enableSlot (n : Nat) (s : State) : State :=
  onSlot n (fun x => if x.en then x else { x with en := true, soft := true, limits := 0, offTrack := 0 }) s

/-- A slot stops computing. -/
def stopSlot (n : Nat) (s : State) : State := onSlot n (fun x => { x with en := false, soft := false }) s

/-- An actuator is parked: reads of its lanes end (R254). -/
def clearLanes (x : RchAct) : RchAct :=
  { x with
    lane0 := { x.lane0 with rid := none, synced := false }
    lane1 := { x.lane1 with rid := none, synced := false } }

/-- An emergency park of an actuator starts (R279, R280); a further trigger during a park is counted and starts nothing new. [DEDUCED: log entry 213] -/
def parkFrame (all : Bool) (a cause : Nat) (s : State) : State :=
  let x := s.act a
  if !s.present a ∨ (x.parked ∧ !x.resuming) then s
  else
    let s := onAct a (fun x => { x with parks := (x.parks + 1) % 65536, cause := cause }) (count1 (0xD00114 + 0x40 * a) s)
    if x.parking then s
    else
      let s := raise 192 cause a 0 0 (dropGate a s)
      let s := (actSlots a).foldl (fun s n => onSlot n (fun x => { x with u := if 9 ≤ n then 0 else x.u }) (stopSlot n s)) s
      let s := { s with hop := { s.hop with
        prof := Tab.modify s.hop.prof a (fun p => { p with running := false, pending := none, stop := false })
        heat := s.hop.heat.filter (fun h => !(actSlots a).contains h.1) } }
      let s := onAct a (fun x => clearLanes { x with parking := true, parked := false, parkAt := s.wall, resuming := false }) s
      if all then s
      else
        { s with hop := { s.hop with link := { s.hop.link with queue := frame 4 a 0 :: s.hop.link.queue } } }

/-- A park of one actuator. -/
def park (a cause : Nat) (s : State) : State := parkFrame false a cause s

/-- A park of every actuator (causes 6 and 9). -/
def parkAll (cause : Nat) (s : State) : State := [0, 1, 2, 3].foldl (fun s a => park a cause s) s

/-- The park of a power loss (R280): one PARK for all, then an output of 0 for the spindle. -/
def parkForLoss (s : State) : State :=
  let s := [0, 1, 2, 3].foldl (fun s a => parkFrame true a 7 s) s
  { s with hop := { s.hop with link := { s.hop.link with queue := frame 4 31 0 :: frame 1 8 0 :: s.hop.link.queue } } }

/-- A resume starts (R281): LOAD is sent. -/
def startResume (a : Nat) (s : State) : State :=
  queueFrame (frame 5 a 0) (onAct a (fun x => { x with resuming := true, resumeAsked := false, valid := 0 }) s)

/-- An actuator goes offline (R254). -/
def goOffline (a : Nat) (s : State) : State :=
  if (s.act a).offline then s
  else raiseObj 143 a 0 (onAct a (fun x => clearLanes { x with offline := true, resuming := false, resumeAsked := false }) s)

/-- PARKED is reported for an actuator (R280, R281): EV193; a RESUME that arrived takes effect. [DEDUCED: log entry 190] -/
def parkDone (a : Nat) (s : State) : State :=
  let x := s.act a
  if x.parking then
    let s := raiseObj 193 a 0 (onAct a (fun x => { x with parking := false, parked := true }) s)
    if x.resumeAsked then startResume a s else s
  else s

/-- A preamplifier fault, or what is handled as one (R253, R254): a park with an automatic resume; the third within one hour takes the
actuator offline. -/
def preampFault (a : Nat) (s : State) : State :=
  if !s.present a then s
  else
    let times := ((s.act a).faultParks.filter (fun t => decide (s.wall < t + 3600000000000))) ++ [s.wall]
    let s := onAct a (fun x => { x with faultParks := times, resumeAsked := true }) (park a 1 s)
    if 3 ≤ times.length then goOffline a s else s

/-- A motor-link fault (R282): the link falls silent, every actuator parks by it, slot 8 is disabled; the second within one hour keeps
the link silent. -/
def linkFault (s : State) : State :=
  let l := s.hop.link
  let second : Bool := match l.faultAt with | some t => decide (s.wall < t + 3600000000000) | none => false
  let s := [0, 1, 2, 3].foldl (fun s a =>
    let s := parkFrame true a 8 s
    if s.present a then onAct a (fun x => { x with parking := false, parked := true, resumeAsked := true }) s else s) s
  let s := stopSlot 8 s
  raise 205 0 0 0 0 { s with hop := { s.hop with link := { l with
    up := false, fault := true, silent := second, queue := [], prev := none, fails := [], good := 0, faultAt := some s.wall,
    spinUp := false } } }

/-- The link is up again after 32 good replies (R282): the spindle is spun up (R271), the actuators resume (R281). -/
def linkUp (s : State) : State :=
  let s := { s with hop := { s.hop with link := { s.hop.link with up := true, fault := false, spinUp := true } } }
  [0, 1, 2, 3].foldl (fun s a =>
    let x := s.act a
    if s.present a && x.parked && !x.offline && x.resumeAsked then startResume a s else s) s

end Sys2Proof.Machine
end

