-- ==== Sys2Proof/Machine/Platter.lean ====
section
/-! DEFINITION. The read channel (09_read_channel.md, R227-R256): the clock lanes, servo samples, sector reads, write runs, the write
guard, preamplifier frames and calibrations. What its cues do when they fire is here too. -/
namespace Sys2Proof.Machine

/-! ### The clock lane (R227-R229) -/

/-- Does an angle field decode: its mark, its zero bits and its CRC-8 (R227)? -/
def angleFieldOk (w : BitVec 32) : Bool :=
  let v := w.toNat
  bits v 31 20 == 0xC35 && bits v 10 8 == 0 && crcMsb 7 8 0 (bitsMsb 24 (v / 256)) == v % 256

/-- The clock lane unlocks (R228): EV128, platter work of the actuator waits. -/
def unlockLane (a : Nat) (s : State) : State :=
  raiseObj 128 a 0 (onAct a (fun x => clearLanes { x with locked := false, good := 0, bad := 0, unlockedAt := some s.wall }) s)

/-- The clock lane locks (R228); the first one of a spin-up enables slot 8 (R271). -/
def lockLane (a : Nat) (s : State) : State :=
  let s := onAct a (fun x => { x with locked := true, everLocked := true, unlockedAt := none }) s
  if s.hop.link.spinUp then
    enableSlot 8 { s with hop := { s.hop with link := { s.hop.link with spinUp := false } } }
  else s

/-- A field that decodes in sequence: stamped (R229), counted toward LOCKED. -/
def goodField (a j : Nat) (s : State) : State :=
  let x := s.act a
  let seq := decide (0 < x.good ∧ j = (x.wedge + 1) % 512)
  let iv := if seq then (x.intervals ++ [s.cue.now - x.stampCue]).drop (x.intervals.length + 1 - 512) else []
  let n := if seq then x.good + 1 else 1
  let s := onAct a (fun x => { x with
    good := n, bad := 0, wedge := j, stampCue := s.cue.now, stampAngle := 12800 * j + 12799, intervals := iv }) s
  if 4 ≤ n ∧ !x.locked then lockLane a s else s

/-- The clock lane decodes an angle field (R228): one bad or out-of-sequence field is counted and ignored, a second unlocks. -/
def doAngleField (a : Nat) (f : AngleField) (s : State) : State :=
  if !s.present a ∨ !s.powered then s
  else if f.phaseLong ∧ (s.act a).locked then unlockLane a s
  else
    let x := s.act a
    let j := bits f.word.toNat 19 11
    let good := angleFieldOk f.word && (!x.locked || j == (x.wedge + 1) % 512)
    if good then goodField a j s
    else if !x.locked then onAct a (fun x => { x with good := 0 }) (raiseObj 129 a 0 s)
    else
      let s := raiseObj 129 a 0 s
      if x.bad = 0 then
        onAct a (fun x => { x with
          bad := 1, wedge := (x.wedge + 1) % 512, stampCue := s.cue.now, stampAngle := 12800 * ((x.wedge + 1) % 512) + 12799
          intervals := (x.intervals ++ [s.cue.now - x.stampCue]).drop (x.intervals.length + 1 - 512) }) s
      else unlockLane a s

/-- A clock lane not relocked after 100 ms is handled as a preamplifier fault (R228, R253). -/
def doRelockTimeout (a : Nat) (s : State) : State :=
  match (s.act a).unlockedAt with
  | some t =>
    if t + 100000000 ≤ s.wall ∧ !(s.act a).locked then preampFault a (onAct a (fun x => { x with unlockedAt := none }) s) else s
  | none => s

/-! ### Servo fields (R232, R241, R246, R248) -/

/-- A position error beyond a threshold in 0.1% of the track pitch. [DEDUCED: log entry 105] -/
def beyond (pes : Int) (thr : Nat) : Bool := decide (thr * 65536 < pes.natAbs * 1000)

/-- The sample of a wedge goes to Hoop at the cue posted for it; the cue of the next wedge's sample is posted a wedge ahead (R232). [DEDUCED: log entry 107] -/
def postSample (a : Nat) (s : State) : State :=
  post (.read a) { fire := s.cue.now + (s.act a).period / 512 + 1200, target := 14, action := .servoSample a, tag := 0 } s

/-- A posted sample cue fires: the sample, or none, is at Hoop. -/
def fireSample (a : Nat) (s : State) : State := onAct a (fun x => { x with delivered := x.sample, sample := none }) s

/-- The write guard at a wedge (R246, R248): a PES trip, or one more wedge that passes; two of them with the shock inputs quiet let
writing resume. -/
def guardWedge (a : Nat) (pes : Int) (s : State) : State :=
  let x := s.act a
  if beyond pes (s.reg 0xD00008 0x78) then
    if x.writing ∨ x.tripped then dropGate a (count1 0xD00034 (raiseObj 134 a 0 s)) else s
  else
    let n := x.passes + 1
    onAct a (fun x => { x with passes := n, passCue := s.cue.now, tripped := x.tripped && !(decide (2 ≤ n) && s.rch.shock.isEmpty) }) s

/-- The companion read's gate drops (R241): its sector is read again with its own head as primary. -/
def dropCompanion (a : Nat) (s : State) : State :=
  if (s.act a).lane1.rid.isSome ∧ (s.act a).lane0.rid.isSome then
    count1 0xD0004C (onAct a (fun x => { x with lane1 := { x.lane1 with rid := none, synced := false } }) s)
  else s

/-- A servo field is demodulated (R232). [DEDUCED: log entry 107] -/
def doServoField (a : Nat) (f : ServoField) (s : State) : State :=
  if !s.present a ∨ !s.powered then s
  else
    let s := postSample a s
    if f.missing then
      let n := (s.act a).missing + 1
      let s := onAct a (fun x => { x with sample := none, missing := n, valid := 0 }) s
      if 4 ≤ n ∧ !(s.act a).parked then park a 2 s else s
    else
      let s := onAct a (fun x => { x with
        sample := some ((65536 * f.track : Nat) + f.pes), track := f.track, missing := 0, valid := x.valid + 1 }) s
      let s := guardWedge a f.pes s
      match f.companion with
      | some e => if beyond e (s.reg 0xD0000C 0x50) then dropCompanion a s else s
      | none => s

/-! ### Reads (R239-R242) -/

/-- A lane of an actuator. -/
def RchAct.lane (x : RchAct) (l : Nat) : Lane := if l = 0 then x.lane0 else x.lane1

/-- A lane changed. -/
def onLane (a l : Nat) (f : Lane → Lane) (s : State) : State :=
  onAct a (fun x => if l = 0 then { x with lane0 := f x.lane0 } else { x with lane1 := f x.lane1 }) s

/-- The actuator of a band. -/
def State.bandAct (s : State) (band : Nat) : Option Nat := (Tab.find s.trl.bands band).map (fun b => b.act)

/-- Is a read of the platters waiting for its sector: on no lane, in no buffer, at no decoder? -/
def platterWaiting (s : State) (rid : Nat) : Bool :=
  !s.flc.decQ.contains rid && !s.flc.decs.any (fun p => p.2 == rid) &&
  !s.rch.acts.any (fun p => p.2.lane0.rid == some rid || p.2.lane1.rid == some rid || p.2.lane0.buf.contains rid || p.2.lane1.buf.contains rid)

/-- The oldest read that waits for an actuator. [DEDUCED: log entry 104] -/
def nextPlatterRead (s : State) (a : Nat) : Option Nat :=
  (s.flc.rds.find? (fun p =>
    (match p.2.src with | .platter b _ => s.bandAct b == some a | _ => false) && platterWaiting s p.1)).map (fun p => p.1)

/-- A read-gate cue fires (R239): where the angle has passed, the sector waits for the next revolution (EV144); the write gate and a
calibrating lane keep the lane from reading (R245, R252). [DEDUCED: log entry 104] -/
def fireReadGate (a l g : Nat) (s : State) : State :=
  let x := s.act a
  if s.actState a ≠ 0 ∨ x.writing ∨ (x.lane l).calibrating ∨ (x.lane l).rid.isSome then s
  else if revCycles / 2 < (g + revCycles - x.angleAt s.cue.now) % revCycles then count1 0xD00050 (raiseObj 144 a 0 s)
  else
    match nextPlatterRead s a with
    | some r => onLane a l (fun y => { y with rid := some r, synced := false }) s
    | none => s

/-- A window accepts the first position whose distance from the mark is within the tolerance (R240). -/
def markAccepted (tol : Nat) (dist : List Nat) : Bool := (dist.take 33).any (fun d => decide (d ≤ tol))

/-- The sync-mark window of a sector closes (R240, R253): accepted, missed, or no signal at all. -/
def doSectorSync (a l : Nat) (w : SyncWindow) (s : State) : State :=
  match ((s.act a).lane l).rid with
  | none => s
  | some r =>
    let free := fun (n : Nat) (s : State) => onLane a l (fun y => { y with rid := none, synced := false, noSignal := n }) s
    if !w.signal then
      let n := ((s.act a).lane l).noSignal + 1
      if n < 3 then free n s else preampFault a (raiseObj 141 a 0 (free 0 s))
    else
      let tol := s.reg 0xD00014 0x704
      let step := ((Tab.find s.flc.rds r).map (fun x => x.step)).getD 1
      let t := if step = 3 then bits tol 11 8 else bits tol 3 0
      let resync : Bool := match w.resync with | some d => markAccepted t d | none => true
      if markAccepted t w.mark ∧ resync then onLane a l (fun y => { y with synced := true, noSignal := 0 }) s
      else
        let s := count1 0xD0003C (raiseObj 130 a 0 (free 0 s))
        onRd r (fun x => { x with step := max x.step 3 }) s

/-- A codeword of a lane goes to a decoder: the reserved one, or the general pool. -/
def takeDecoder (d rid : Nat) (s : State) : State :=
  { s with flc := { s.flc with decs := Tab.put s.flc.decs d rid, resv := Tab.del s.flc.resv d } }

/-- A detected codeword completes (R242): to the decoder reserved for its lane, else into the lane buffer; a third one sends the oldest
to decoders 0-55. A reconstruction gathers its members first (R243). -/
def doCodewordComplete (a l : Nat) (s : State) : State :=
  let y := (s.act a).lane l
  match y.rid with
  | none => s
  | some r =>
    if !y.synced then s
    else
      let s := onLane a l (fun y => { y with rid := none, synced := false }) s
      match Tab.find s.flc.rds r with
      | none => s
      | some x =>
        if 1 < x.left then onRd r (fun x => { x with left := x.left - 1 }) s
        else
          let s := onRd r (fun x => { x with left := 0 }) s
          match s.flc.resv.find? (fun p => p.2.1 == a && p.2.2.1 == l) with
          | some (d, _) => takeDecoder d r s
          | none =>
            let s := onLane a l (fun y => { y with buf := y.buf ++ [r] }) s
            match ((s.act a).lane l).buf with
            | o :: b :: c :: rest => decodeGeneral o (onLane a l (fun y => { y with buf := b :: c :: rest }) s)
            | _ => s

/-- A reservation cue fires (R22, R213, R242): a free decoder of 56-63 takes the lane's codeword, or is held for it. -/
def fireReserve (a l : Nat) (s : State) : State :=
  match freeDecoder s.flc 56 63 with
  | none => s
  | some d =>
    match ((s.act a).lane l).buf with
    | r :: rest => takeDecoder d r (onLane a l (fun y => { y with buf := rest }) s)
    | [] => { s with flc := { s.flc with resv := Tab.put s.flc.resv d (a, l, s.cue.now) } }

/-- A reservation whose codeword has not come in 2,048 ticks is released (R242). -/
def doReservationRelease (d : Nat) (s : State) : State :=
  match Tab.find s.flc.resv d with
  | some r => if r.2.2 + 2048 ≤ s.cue.now then { s with flc := { s.flc with resv := Tab.del s.flc.resv d } } else s
  | none => s

/-- A read that has waited RCH_OFFLINE_WAIT for a parked or offline actuator fails (R254). -/
def doOfflineWaitExpiry (rid : Nat) (s : State) : State :=
  match Tab.find s.flc.rds rid with
  | some r =>
    match r.src with
    | .platter b _ =>
      match s.bandAct b with
      | some a =>
        if ((s.act a).parked ∨ (s.act a).offline) ∧ r.since + s.reg 0xD00020 0x7530 * 1000000 ≤ s.wall then
          endMediaRd rid true (failRead r.scene s)
        else s
      | none => s
    | _ => s
  | none => s

/-! ### Writes (R180, R245-R248) -/

/-- The open band of an actuator with slots not yet written, and the physical sectors they take. -/
def bandToWrite (s : State) (a : Nat) : Option (Nat × Band) :=
  s.trl.bands.find? (fun p => p.2.act == a && !p.2.spare && !p.2.retired && decide (0 < p.2.written ∧ p.2.append ≤ physOf (8 * p.2.written + 7)))

/-- A write-run cue fires (R245, R248): the run starts, or waits while the guard holds the actuator, its lanes read or it is not
normal. Past its angle it starts a revolution later. -/
def fireWriteRun (a g n : Nat) (s : State) : State :=
  let x := s.act a
  if s.actState a ≠ 0 ∨ x.writing ∨ x.tripped ∨ s.rch.shock ≠ [] ∨ x.frames ≠ [] then s
  else
    match bandToWrite s a with
    | none => s
    | some (k, b) =>
      let count := min n (physOf (8 * b.written + 7) + 1 - b.append)
      let ahead := (g + revCycles - x.angleAt s.cue.now) % revCycles
      let start := s.cue.now + ahead * x.period / revCycles
      onAct a (fun x => { x with
        writing := true, run := some { band := k, first := b.append, count := count, start := start }, passCue := s.cue.now }) s

/-- Tracks of a run that are edge tracks of its band (R180). -/
def edgeTracks (z : ZoneRec) (r : WriteRun) : Nat :=
  let n := max 1 z.sectors
  let last := ceilDiv 67840 n - 1
  let t0 := r.first / n
  let t1 := (r.first + r.count - 1) / n
  (if t0 = 0 then 1 else 0) + (if last ≤ t1 ∧ last ≠ 0 then 1 else 0)

/-- The neighbours of a band on its surface take an adjacent-write count (R180). -/
def countAdjacent (band : Nat) (r : WriteRun) (s : State) : State :=
  match Tab.find s.trl.bands band with
  | none => s
  | some b =>
    match s.zone b.zone with
    | none => s
    | some z =>
      let e := edgeTracks z r
      let thr := match (s.cfg.ofType 0x0B01).find? (fun p => p.1 == b.surface) with | some p => (surfaceOf p.2).refresh | none => 2 ^ 32 - 1
      let near := fun (k : Nat) (x : Band) => x.surface == b.surface && (k == band + 1 || k + 1 == band) && !x.spare
      { s with trl := { s.trl with bands := Tab.mapVals s.trl.bands (fun k x =>
          if near k x ∧ e ≠ 0 then
            let n := min (x.adj + e) (2 ^ 32 - 1)
            { x with adj := n, refresh := x.refresh || decide (thr ≤ n) }
          else x) } }

/-- A write run ends whole (R245, R247): its slots are placed, their map switches made. -/
def doWriteRunEnd (a : Nat) (s : State) : State :=
  match (s.act a).run with
  | none => s
  | some r =>
    let s := onAct a (fun x => { x with writing := false, run := none }) s
    let s := { s with trl := { s.trl with bands := Tab.modify s.trl.bands r.band (fun b => { b with append := r.first + r.count, trips := (0, 0) }) } }
    goOn (commitPlatterCopies a (countAdjacent r.band r s))

/-- A shock input crosses its threshold (R246): the write gates of every actuator drop, EV135; below it, it is quiet again. -/
def doShockCrossing (input mv : Nat) (s : State) : State :=
  let r := s.reg 0xD00010 0x1900190
  let thr := if input = 0 then bits r 11 0 else bits r 27 16
  if 1 < input ∨ !s.powered then s
  else if thr < mv then
    let s := { s with rch := { s.rch with shock := setAdd s.rch.shock input } }
    s.actuators.foldl (fun s a => if (s.act a).writing then dropGate a s else onAct a (fun x => { x with tripped := true, passes := 0 }) s)
      (count1 0xD00038 (raiseObj 135 input 0 s))
  else { s with rch := { s.rch with shock := setDel s.rch.shock input } }

/-! ### The preamplifier (R250, R251, R253, R256) -/

/-- PAn_FLT_N low for 200 ns or more (R253): EV139. -/
def doPreampFault (a ns : Nat) (s : State) : State :=
  onlyIf (s.powered && s.present a && decide (200 ≤ ns)) (fun s => preampFault a (raiseObj 139 a 0 s)) s

/-- Is any gate of the actuator asserted (R251)? [DEDUCED: log entry 212] -/
def RchAct.gated (x : RchAct) : Bool := x.writing || x.lane0.rid.isSome || x.lane1.rid.isSome

/-- A serial frame completes (R250, R251, R253): a read-back that differs has the frame sent again, twice; the third is a fault. A
diagnostic frame is done (R256). [DEDUCED: log entry 212] -/
def doPreampFrameDone (a : Nat) (data : BitVec 16) (mismatch : Bool) (s : State) : State :=
  match (s.act a).frames with
  | [] => s
  | f :: rest =>
    if (s.act a).gated then s else
    if mismatch then
      let s := raiseObj 140 a 0 s
      if f.tries < 2 then onAct a (fun x => { x with frames := { f with tries := f.tries + 1 } :: rest }) s
      else preampFault a (onAct a (fun x => { x with frames := rest }) s)
    else
      match f.kind with
      | .diag w => onAct a (fun x => { x with
          frames := rest, paBusy := false, paDone := true, paData := if w.testBit 23 then data.toNat else 0 }) s
      | .heater _ _ => onAct a (fun x => { x with frames := rest }) s

/-- RCH_An_PA_CMD (R256): refused unless the actuator is parked or offline; accepted only after the previous one is done. -/
def doRchPaCmd (a : Nat) (val : W32) (s : State) : State :=
  let x := s.act a
  if !writable s false ∨ 4 ≤ a ∨ x.paBusy then s
  else if x.parked ∨ x.offline then
    onAct a (fun x => { x with
      frames := x.frames ++ [{ kind := .diag (val.toNat % 2 ^ 24), tries := 0 }], paBusy := true, paDone := false, paRefused := false, paData := 0 }) s
  else onAct a (fun x => { x with paDone := false, paRefused := true, paData := 0 }) s

/-! ### Calibration and actuator commands (R252, R254, R279) -/

/-- A full calibration of a lane starts where the other lane is not calibrating (R252). -/
def startCalibration (a l : Nat) (temp : Int) (s : State) : State :=
  let x := s.act a
  if s.actState a ≠ 0 ∨ x.lane0.calibrating ∨ x.lane1.calibrating ∨ 1 < l then s
  else
    onAct a (fun x => { x with calLane := l })
      (onLane a l (fun y => { y with calibrating := true, rid := none, synced := false, calTemp := temp }) s)

/-- The die temperature the lanes are calibrated at. -/
def State.dieTemp (s : State) : Int := s.pwr.temps.headD 0

/-- RCH_An_CTRL calibrate L0. -/
def doRchCalibrateL0 (a : Nat) (s : State) : State := onlyIf (writable s false) (startCalibration a 0 s.dieTemp) s

/-- RCH_An_CTRL calibrate L1. -/
def doRchCalibrateL1 (a : Nat) (s : State) : State := onlyIf (writable s false) (startCalibration a 1 s.dieTemp) s

/-- A lane's calibration is due: RCH_CAL_HOURS, or 10 degrees (R252). -/
def doLaneCalibrationDue (a l : Nat) (temp : Int) (s : State) : State :=
  let y := (s.act a).lane l
  let due := decide (y.calAt = 0) || decide (y.calAt + s.reg 0xD0001C 0xA8 * 3600000000000 ≤ s.wall) || decide (2560 < (temp - y.calTemp).natAbs)
  onlyIf due (startCalibration a l temp) s

/-- A lane's calibration ends (R252): a failure keeps the old set (EV142). -/
def doLaneCalibrationDone (a l : Nat) (ok : Bool) (s : State) : State :=
  if ((s.act a).lane l).calibrating then
    let s := onLane a l (fun y => { y with calibrating := false, calAt := s.wall }) s
    if ok then onAct a (fun x => { x with calCount := (x.calCount + 1) % 65536 }) s else raiseObj 142 a 0 s
  else s

/-- RCH_An_CTRL park (R279). -/
def doRchPark (a : Nat) (s : State) : State := onlyIf (writable s false) (park a 5) s

/-- RCH_An_CTRL RESUME (R254, R281): during a park it takes effect once PARKED is reported. -/
def doRchResume (a : Nat) (s : State) : State :=
  let x := s.act a
  if !writable s false ∨ !s.present a then s
  else if x.parking then onAct a (fun x => { x with resumeAsked := true }) s
  else if (x.parked ∨ x.offline) ∧ !x.resuming then startResume a s
  else s

/-- RCH_An_CTRL OFFLINE (R254). -/
def doRchOffline (a : Nat) (s : State) : State := onlyIf (writable s false && s.present a) (goOffline a) s

/-! ### What the RCH_ registers show (R255) -/

/-- The RCH_ registers. -/
def rchView (s : State) (o : Nat) : Option Nat :=
  if o = 0xD00004 then some (([0, 1, 2, 3].map (fun a => field (s.actState a) 4 (4 * a))).sum)
  else if 0xD00100 ≤ o ∧ o < 0xD00200 then
    let a := (o - 0xD00100) / 0x40
    let r := (o - 0xD00100) % 0x40
    let x := s.act a
    if r = 4 then
      some (flag x.locked 31 + flag s.atSpeed 30 + flag x.writing 29 + field (s.zoneOfTrack x.track) 5 24 + field x.track 24 0)
    else if r = 8 then some (if x.locked then x.angleAt s.cue.now else 0)
    else if r = 0xC then some (x.period % 2 ^ 24)
    else if r = 0x10 then
      let k := ((s.surfaces.find? (fun r => r.actuator == a && r.role == 1)).map (fun r => r.head)).getD 0
      some (field k 3 24 + field x.lane1.head 3 16 + field x.lane0.head 3 8 + field x.primary 3 0)
    else if r = 0x1C then some (flag x.paDone 31 + flag x.paRefused 30 + x.paData % 65536)
    else if r = 0x20 then some (flag (x.lane0.calibrating || x.lane1.calibrating) 31 + flag (x.calLane == 1) 24 + x.calCount % 65536)
    else none
  else none

end Sys2Proof.Machine
end

