-- ==== Sys2Proof/Machine/Hoop.lean ====
section
/-! DEFINITION. Hoop and the motor link (10_hoop_and_motors.md, R257-R285). -/
namespace Sys2Proof.Machine

/-! ### One sample of a slot (R258-R270) -/

/-- A value clamped to 16 bits (R258). -/
def sat16 (v : Int) : Int := clampInt (-32768) 32767 v

/-- The record of a slot, with neutral values where the configuration has none. -/
def State.loop (s : State) (n : Nat) : LoopSlotRec :=
  (s.loopSlot n).getD { kind := 4, order := 3, source := 0x60, shift := 0, outMin := 0, outMax := 0, rate := 1, maxStep := 65535, bankA := [], bankB := [] }

/-- Coefficient `i` (b0-b3, a1-a3) of a bank: as written since the bank was loaded, or as the Pricking has it (R264, R265). -/
def coefOf (r : LoopSlotRec) (x : LoopSlot) (bankB : Bool) (i : Nat) : Int :=
  match Tab.find x.coef ((if bankB then 8 else 0) + i) with
  | some c => c
  | none => ((if bankB then r.bankB else r.bankA)[i]?).getD 0

/-- The ramp's step toward the set-point (R267). -/
def rampStep (sp rate ramp : Int) : Int :=
  let d := sp - ramp
  if rate < d then ramp + rate else if d < -rate then ramp - rate else sp

/-- The compensator and the limits (R262, R263): the new slot from error `x0` and feed-forward `ff`. -/
def compensate (r : LoopSlotRec) (ff x0 : Int) (x : LoopSlot) : LoopSlot :=
  let c := fun (i : Nat) => if r.order = 2 ∧ (i = 3 ∨ i = 6) then 0 else coefOf r x x.bankB i
  let acc := c 0 * x0 + c 1 * x.x1 + c 2 * x.x2 + c 3 * x.x3 - c 4 * x.y1 - c 5 * x.y2 - c 6 * x.y3
  let y := sat16 ((acc + 2 ^ (14 - r.shift)) / 2 ^ (15 - r.shift))
  let u := min (max (sat16 (y + ff)) r.outMin) r.outMax
  let lim := decide (u = r.outMin ∨ u = r.outMax)
  { x with x3 := x.x2, x2 := x.x1, x1 := x0, y3 := x.y2, y2 := x.y1, y1 := u, err := x0, u := u, atLimit := lim, skipped := false,
           limits := if lim then x.limits + 1 else 0 }

/-- An entry of an actuator's profile: 64 bits, as the HOP_ window holds them (R270, R284). -/
def State.profEntry (s : State) (a e : Nat) : Nat := s.reg64 (0xE04000 + 0x4000 * a + 8 * e)

/-- The measured value of a slot at its boundary (R258): position samples, speed, temperatures from the state; clearance estimates and
tachometers as given. -/
def State.measured (s : State) (n : Nat) (m : Option Int) : Option Int :=
  if n < 8 then (s.act (n % 4)).delivered
  else
    let src := (s.loop n).source
    if n = 8 then s.spindle.map (fun v => (v : Int))
    else if 0x60 ≤ src ∧ src < 0x68 then s.pwr.temps[src - 0x60]?
    else m

/-- The link channel of a slot's output (R257). -/
def slotChannel (n : Nat) : Option Nat :=
  if n < 9 then some n else if 33 ≤ n ∧ n ≤ 36 then some (n - 24) else none

/-- A slot's output goes its way (R260, R272): a frame of the motor link, or a heater output that replaces one not yet sent. -/
def sendOutput (n : Nat) (u : Int) (s : State) : State :=
  match slotChannel n with
  | some ch => queueFrame (frame 1 ch (ofInt 16 u)) s
  | none =>
    if 9 ≤ n ∧ n ≤ 32 then
      let s' := { s with hop := { s.hop with heat := Tab.put s.hop.heat n u } }
      if Tab.has s.hop.heat n then count1 0xE00020 s' else s'
    else s

/-- The set-point in effect at a boundary (R266, R268): a step beyond the maximum is logged, but for a
microactuator, whose own set-point is ignored (R258). [DESIGN CHOICE: log entry 109] -/
def takeSetpoint (n : Nat) (s : State) : State :=
  let x := s.slot n
  match x.newSp with
  | none => s
  | some v =>
    let s := onSlot n (fun x => { x with sp := v, newSp := none }) s
    if (s.loop n).maxStep < (v - x.ramp).natAbs ∧ ¬(4 ≤ n ∧ n < 8) then
      count1 0xE0001C (raise 197 0 n (v - x.ramp).natAbs 0 s)
    else s

/-- A swap requested is taken (R264). -/
def takeBank (n : Nat) (s : State) : State :=
  let x := s.slot n
  match x.want with
  | some b => if !x.atCue ∨ s.reg64 (0xE00820 + 0x40 * n) ≤ s.cue.now then onSlot n (fun x => { x with bankB := b, want := none }) s else s
  | none => s

/-- The VCM slot's profile at a boundary (R270): the stream starts at its cue, consumes an entry, ends. Answers the feed-forward. -/
def streamStep (a : Nat) (s : State) : Option Int × State :=
  let p := Tab.at s.hop.prof a {}
  let setP := fun (p : Stream270) (s : State) => { s with hop := { s.hop with prof := Tab.put s.hop.prof a p } }
  let p := match p.pending with
    | some i => if !p.running ∧ s.reg64 (0xE00108 + 0x20 * a) ≤ s.cue.now then { p with pending := none, running := true, next := i, stop := false, noLast := false } else p
    | none => p
  if !p.running then (none, setP p s)
  else if p.stop then (none, setP { p with running := false, stop := false } s)
  else
    let v := s.profEntry a p.next
    let pos : Int := (v % 2 ^ 40 : Nat)
    let ff := toSigned 16 (bits v 55 40)
    let last := v.testBit 56
    let ends := last || p.next == 2047
    let s := onSlot a (fun x => { x with ramp := pos, sp := if ends then pos else x.sp }) s
    (some ff, setP { p with running := !ends, next := if ends then p.next else p.next + 1, noLast := p.noLast || (ends && !last) } s)

/-- The ramp output a slot's error is formed from: a microactuator uses its VCM slot's (R258). -/
def State.rampOf (s : State) (n : Nat) : Int := if 4 ≤ n ∧ n < 8 then (s.slot (n - 4)).ramp else (s.slot n).ramp

/-- Park triggers of a sample (R279): a run of samples at a limit, eight off track. -/
def sampleParks (n : Nat) (m : Int) (s : State) : State :=
  if n < 8 then
    let a := n % 4
    let off := n < 4 ∧ (s.reg 0xE00018 4 : Int) * 65536 < (((s.rampOf n - m).natAbs : Nat) : Int)
    let s := onSlot n (fun x => { x with offTrack := if off then x.offTrack + 1 else 0 }) s
    let x := s.slot n
    if 8 ≤ x.offTrack then park a 4 s
    else if s.reg 0xE00014 0x100 ≤ x.limits then park a 3 s
    else s
  else s

/-- The tachometer of a fan is read by a register frame at each boundary of a slot whose source it is (R258, R278); one not yet sent
serves. [DESIGN CHOICE: log entry 207] -/
def readTach (n : Nat) (s : State) : State :=
  let src := (s.loop n).source
  let f := frame 3 (Config.tachReg (src - 0x68)).toNat 0
  if 9 ≤ n ∧ 0x68 ≤ src ∧ src ≤ 0x6B ∧ !s.hop.link.queue.contains f then queueFrame f s else s

/-- A sample boundary of a slot (R259, R260, R264-R270). -/
def doSampleBoundary (n : Nat) (m : Option Int) (s : State) : State :=
  if 64 ≤ n ∨ !(s.slot n).en ∨ !s.powered then s
  else
    let s := takeBank n (takeSetpoint n (readTach n s))
    let (ff, s) := if n < 4 then streamStep n s else (none, s)
    let x := s.slot n
    let micro := decide (4 ≤ n ∧ n < 8)
    let s := if ff.isSome ∨ x.soft ∨ micro then s else onSlot n (fun x => { x with ramp := rampStep x.sp (s.loop n).rate x.ramp }) s
    match s.measured n m with
    | none =>
      let s := count1 0xE00024 (onSlot n (fun x => { x with skipped := true }) s)
      sendOutput n x.u s
    | some m =>
      let s := if x.soft then onSlot n (fun x => { x with
          ramp := if micro then x.ramp else m
          x1 := 0, x2 := 0, x3 := 0, y1 := 0, y2 := 0, y3 := 0, soft := false }) s else s
      let s := onSlot n (compensate (s.loop n) (ff.getD 0) (sat16 (s.rampOf n - m))) s
      let s := if (s.slot n).atLimit then count1 (0xE00828 + 0x40 * n) s else s
      sampleParks n m (sendOutput n (s.slot n).u s)

/-! ### Slot registers (R264-R271, R279) -/

/-- Setting EN in HOP_Sn_CTRL (R269); heater slots of a parking or parked actuator stay disabled (R272). -/
def doHopSlotEnable (n : Nat) (s : State) : State :=
  let x := s.act ((n - 9) / 6)
  if !writable s false ∨ 64 ≤ n ∨ (9 ≤ n ∧ n ≤ 32 ∧ (x.parking ∨ x.parked)) then s else enableSlot n s

/-- Clearing EN (R279): a VCM or microactuator slot of an actuator not parked parks it. -/
def doHopSlotDisable (n : Nat) (s : State) : State :=
  if !writable s false ∨ 64 ≤ n then s
  else
    let s' := stopSlot n s
    if n < 8 ∧ (s.slot n).en ∧ !(s.act (n % 4)).parked then park (n % 4) 5 s' else s'

/-- Writing BANK (R264): a swap to the inactive bank, at the next boundary or at the swap cue; naming the active bank cancels it. -/
def doHopBankRequest (n : Nat) (bank atCue : Bool) (s : State) : State :=
  if !writable s false ∨ 64 ≤ n then s
  else onSlot n (fun x => { x with want := if bank = x.bankB then none else some bank, atCue := atCue }) s

/-- A coefficient write (R265): only into the inactive bank, and not in the cycle in which it becomes active. [DESIGN CHOICE: log entry 19] -/
def doHopCoeffWrite (n : Nat) (bank : Bool) (i : Nat) (val : W32) (becoming : Bool) (s : State) : State :=
  if !writable s false ∨ 64 ≤ n ∨ 7 ≤ i then s
  else if becoming ∧ (s.slot n).want = some bank then onSlot n (fun x => { x with wrLost := true }) s
  else if bank = (s.slot n).bankB then s
  else onSlot n (fun x => { x with coef := Tab.put x.coef ((if bank then 8 else 0) + i) (toSigned 16 (val.toNat % 65536)) }) s

/-- A write of HOP_Sn_SETPOINT_HI (R266, R271): the set-point takes effect at the next boundary; one outside the spindle's range is
discarded; it ends a profile stream of its VCM slot (R270). [DESIGN CHOICE: log entry 109] -/
def doHopSetpointWrite (q : Requester) (n : Nat) (hi : W32) (s : State) : State :=
  if !mayReach s q .house ∨ !writable s false ∨ 64 ≤ n then s
  else
    let key := 0xE00808 + 0x40 * n
    let v := formed s q key (s.reg key 0) hi
    let sp : Int := if n < 4 then ((v % 2 ^ 40 : Nat) : Int) else toSigned 32 (v % 2 ^ 32)
    if n = 8 ∧ (sp < 21600 ∨ 28800 < sp) then useLow q key s
    else
      let s := useLow q key (setReg64 key (if n < 4 then v % 2 ^ 40 else v % 2 ^ 32) s)
      let s := onSlot n (fun x => { x with newSp := some sp }) s
      if n < 4 then { s with hop := { s.hop with prof := Tab.modify s.hop.prof n (fun p => if p.running then { p with stop := true } else p) } } else s

/-- HOP_An_PROF_CTRL START (R270). -/
def doHopProfileStart (a first : Nat) (s : State) : State :=
  if !writable s false ∨ 4 ≤ a ∨ 2048 ≤ first then s
  else { s with hop := { s.hop with prof := Tab.update s.hop.prof a {} (fun p => { p with pending := some first }) } }

/-- HOP_An_PROF_CTRL STOP (R270). -/
def doHopProfileStop (a : Nat) (s : State) : State :=
  if !writable s false ∨ 4 ≤ a then s
  else { s with hop := { s.hop with prof := Tab.modify s.hop.prof a (fun p =>
      { p with pending := none, stop := p.running }) } }

/-- A heater output is sent once no gate of its actuator is asserted (R251, R272). [DEDUCED: log entry 212] -/
def doHeaterFrameSend (a h : Nat) (s : State) : State :=
  let n := 9 + 6 * a + h
  match Tab.find s.hop.heat n with
  | some u =>
    if 4 ≤ a ∨ 6 ≤ h ∨ (s.act a).gated then s
    else
      onAct a (fun x => { x with frames := x.frames ++ [{ kind := .heater h u, tries := 0 }] })
        { s with hop := { s.hop with heat := Tab.del s.hop.heat n } }
  | none => s

/-! ### The motor link (R273-R282, R285) -/

/-- CRC-6 of a frame over bits [31:6], most significant first (R275). -/
def crc6 (v : Nat) : Nat := crcMsb 3 6 0 (bitsMsb 26 (v / 64))

/-- The 32 bits of a command frame (R275). -/
def frameWord (f : LinkFrame) (seq : Nat) : Nat :=
  let v := field f.ty 3 29 + field f.ch 5 24 + field f.data 16 8 + field seq 2 6
  v + crc6 v

/-- The frame that goes next: the first of the highest priority (R278). -/
def nextFrame (q : List LinkFrame) : Option LinkFrame :=
  [0, 1, 2, 3].findSome? (fun p => q.find? (fun f => f.prio == p))

/-- The link changed. -/
def onLink (f : LinkState → LinkState) (s : State) : State := { s with hop := { s.hop with link := f s.hop.link } }

/-- The outcome of a diagnostic frame (R285). -/
def diagDone (f : LinkFrame) (nack : Bool) (data : Nat) (s : State) : State :=
  if f.diag then onLink (fun l => { l with diagBusy := false, done := !nack, nack := nack, data := if f.ty = 3 ∧ !nack then data else 0 }) s else s

/-- A frame failed (R282): not an output, it is sent again at most twice; three failures within 1 ms, or one frame three times, are a
motor-link fault. -/
def frameFailed (f : LinkFrame) (s : State) : State :=
  let fails := (s.hop.link.fails.filter (fun t => decide (s.wall < t + 1000000))) ++ [s.wall]
  let s := onLink (fun l => { l with fails := fails, good := 0 }) s
  if 3 ≤ fails.length ∨ (f.ty ≠ 1 ∧ f.ty ≠ 0 ∧ 2 ≤ f.tries) then linkFault (diagDone f true 0 s)
  else if f.ty = 1 ∨ 2 ≤ f.tries then s
  else onLink (fun l => { l with queue := { f with tries := f.tries + 1 } :: l.queue }) s

/-- A good reply: PARKED bits, register data, the count toward the link's coming up (R276, R280, R282). -/
def frameGood (f : LinkFrame) (r : Nat) (s : State) : State :=
  let p := bits r 27 24
  let s := onLink (fun l => { l with parked := p, good := l.good + 1, fltHigh := !r.testBit 28 }) s
  let s := diagDone f false (bits r 23 8) s
  let s := [0, 1, 2, 3].foldl (fun s a => if p.testBit a then parkDone a s else s) s
  if !s.hop.link.up ∧ 32 ≤ s.hop.link.good then linkUp s else s

/-- The reply to the previous frame is checked (R276, R282). [DEDUCED: log entry 111] -/
def checkReply (f : LinkFrame) (seq : Nat) (reply : W32) (s : State) : State :=
  let r := reply.toNat
  if crc6 r ≠ r % 64 then frameFailed f (count1 0xF0000C (raiseObj 200 f.ch 0 s))
  else if bits r 31 30 ≠ seq then frameFailed f (count1 0xF00014 (raiseObj 202 f.ch 0 s))
  else if !r.testBit 29 then frameFailed f (count1 0xF00010 (raiseObj 201 f.ch 0 s))
  else frameGood f r s

/-- A motor-link frame ends (R276): the highest-priority frame waiting is the one that was sent, and the reply that arrived with it
answers the frame before it. -/
def doMotorLinkFrame (reply : W32) (s : State) : State :=
  if s.hop.link.silent ∨ !s.powered then s
  else
    match nextFrame s.hop.link.queue with
    | none => s
    | some f =>
      let l := s.hop.link
      let s := emit (.linkFrame (frameWord f l.seq)) (count1 0xF00008 s)
      let s := onLink (fun l => { l with queue := l.queue.erase f, prev := some (f, l.seq), seq := (l.seq + 1) % 4 }) s
      match l.prev with
      | some (p, seq) => checkReply p seq reply s
      | none => s

/-- When no frame is due, Hoop sends a NOP (R278). -/
def doNopIdleTimer (s : State) : State :=
  onlyIf (s.powered && !s.hop.link.silent && s.hop.link.queue.isEmpty) (queueFrame (frame 0 0 0)) s

/-- PARKED has not come within HOP_PARK_TIMEOUT (R280): PARK once more, EV204, offline. -/
def doParkTimeout (a : Nat) (s : State) : State :=
  let x := s.act a
  if x.parking ∧ x.parkAt + s.reg 0xE00010 0x32 * 1000000 ≤ s.wall then
    let s := onAct a (fun x => { x with parking := false }) s
    goOffline a (raiseObj 204 a 0 { s with hop := { s.hop with link := { s.hop.link with queue := frame 4 a 0 :: s.hop.link.queue } } })
  else s

/-- The actuator is loaded (R281): PARKED clear, clock locked, four valid samples; its slots are enabled with soft starts. -/
def doActuatorLoaded (a : Nat) (m : Int) (s : State) : State :=
  let x := s.act a
  if x.resuming ∧ !s.hop.link.parked.testBit a ∧ x.locked ∧ 4 ≤ x.valid then
    let s := onAct a (fun x => { x with resuming := false, parked := false, offline := false }) s
    let s := onSlot a (fun y => { y with sp := (m + 32768) / 65536 * 65536, newSp := none }) s
    (actSlots a).foldl (fun s n => enableSlot n s) s
  else s

/-- MLK_FLT_N low for 200 ns or more (R282): every actuator parks, the driver's fault register is read. [DESIGN CHOICE: log entry 110] -/
def doDriverFault (ns : Nat) (s : State) : State :=
  if s.powered ∧ 200 ≤ ns then
    let s := parkAll 6 (raise 203 0 0 0 0 (onLink (fun l => { l with fltHigh := false }) s))
    queueFrame (frame 3 Config.driverFaultReg.toNat 0) s
  else s

/-- MLK_CMD (R285): a diagnostic REG_WRITE only with every actuator parked and slot 8 disabled; one at a time. -/
def doMlkCmd (val : W32) (s : State) : State :=
  let v := val.toNat
  let ty := bits v 31 29
  if !writable s false ∨ s.hop.link.diagBusy ∨ (ty ≠ 2 ∧ ty ≠ 3) then s
  else if ty = 2 ∧ (s.actuators.any (fun a => !(s.act a).parked) ∨ (s.slot 8).en) then
    onLink (fun l => { l with done := false, nack := false, refused := true, data := 0 }) s
  else
    queueFrame { frame ty (bits v 28 24) (if ty = 2 then bits v 15 0 else 0) with diag := true }
      (onLink (fun l => { l with diagBusy := true, done := false, nack := false, refused := false, data := 0 }) s)

/-- MLK_RESYNC restarts a silent link (R282). -/
def doMlkResync (val : W32) (s : State) : State :=
  if writable s false ∧ val.toNat.testBit 0 ∧ s.hop.link.silent then
    onLink (fun l => { l with silent := false, good := 0, fails := [], prev := none }) s
  else s

/-- A HOOP region taken live (R283): both banks reload from it. -/
def reloadHoop (s : State) : State :=
  { s with hop := { s.hop with slots := Tab.mapVals s.hop.slots (fun _ x => { x with coef := [] }) } }

/-- The spacing of the present actuators' boundaries, modulo the wedge period (R261): the smallest, where two clock lanes are locked. -/
def phaseSpacing (s : State) : Option Nat :=
  let l := s.actuators.filterMap (fun a =>
    let x := s.act a
    if x.locked ∧ 0 < x.period then some (x.stampCue % max 1 (x.period / 512), x.period / 512) else none)
  let d := (l.map (fun x => l.filterMap (fun y =>
    if x.1 < y.1 then some (min (y.1 - x.1) (x.1 + x.2 - y.1)) else none))).flatten
  d.head?.map (fun h => d.foldl min h)

/-- Hoop measures the spacing in Rehearsal (R261): closer than 1,440 ticks is a clash, EV198. -/
def measurePhase (s : State) : State :=
  match phaseSpacing s with
  | some d =>
    let s := { s with hop := { s.hop with phaseMin := d % 65536, phaseClash := decide (d < 1440) } }
    if d < 1440 then raise 198 0 d 0 0 s else s
  | none => s

/-! ### What the HOP_ and MLK_ registers show (R284, R285) -/

/-- A mask of the actuators that `p` accepts. -/
def actMask (p : Nat → Bool) : Nat := (([0, 1, 2, 3].filter p).map (fun a => 2 ^ a)).sum

/-- EN of slots from `k` on, 32 of them. -/
def enMask (s : State) (k : Nat) : Nat := (((List.range 32).filter (fun i => (s.slot (k + i)).en)).map (fun i => 2 ^ i)).sum

/-- The HOP_ and MLK_ registers. -/
def hoopView (s : State) (o : Nat) : Option Nat :=
  let l := s.hop.link
  if o = 0xE00004 then
    some (flag s.hop.phaseClash 16 + field (actMask (fun a => (s.act a).parking)) 4 8 + field (actMask (fun a => (s.act a).parked)) 4 4 +
      field (actMask (fun a => (Tab.at s.hop.prof a {}).running)) 4 0)
  else if o = 0xE00008 then some (enMask s 0)
  else if o = 0xE0000C then some (enMask s 32)
  else if o = 0xE00028 then some s.hop.phaseMin
  else if 0xE00100 ≤ o ∧ o < 0xE00180 then
    let a := (o - 0xE00100) / 0x20
    let r := (o - 0xE00100) % 0x20
    let p := Tab.at s.hop.prof a {}
    if r = 4 then some (flag p.running 31 + flag p.noLast 30 + p.next % 2048)
    else if r = 0x10 then some (field (s.act a).parks 16 16 + field (s.act a).cause 4 0)
    else none
  else if 0xE00800 ≤ o ∧ o < 0xE01800 then
    let n := (o - 0xE00800) / 0x40
    let r := (o - 0xE00800) % 0x40
    let x := s.slot n
    let ramp := s.rampOf n
    if r = 0 then some (flag x.atCue 8 + flag (x.want.getD x.bankB) 4 + flag x.en 0)
    else if r = 4 then some (flag x.bankB 31 + flag x.want.isSome 30 + flag x.atLimit 29 + flag x.skipped 28 + flag x.wrLost 27)
    else if r = 0x10 then some (ofInt 40 ramp % 2 ^ 32)
    else if r = 0x14 then some (if n < 8 then ofInt 40 ramp / 2 ^ 32 else ofInt 64 ramp / 2 ^ 32)
    else if r = 0x18 then some (ofInt 16 x.err)
    else if r = 0x1C then some (ofInt 16 x.u)
    else none
  else if 0xE02000 ≤ o ∧ o < 0xE03000 then
    let n := (o - 0xE02000) / 0x40
    let r := (o - 0xE02000) % 0x40
    let i := r % 0x20 / 4
    if i < 7 then some (ofInt 16 (coefOf (s.loop n) (s.slot n) (decide (0x20 ≤ r)) i)) else none
  else if o = 0xF00004 then
    some (flag l.silent 8 + field l.parked 4 4 + flag l.fltHigh 2 + flag l.fault 1 + flag l.up 0)
  else if o = 0xF0001C then some (flag l.done 31 + flag l.nack 30 + flag l.refused 29 + l.data % 65536)
  else none

end Sys2Proof.Machine
end

