-- ==== Sys2Proof/Machine/Loader.lean ====
section
/-! DEFINITION. The Pricking loader: commands, drains, what takes effect, stores, start-up (02_pricking.md, R35-R47). -/
namespace Sys2Proof.Machine

/-- The loader changed. -/
def onPrk (f : PrkState → PrkState) (s : State) : State := { s with prk := f s.prk }

/-! ### What the checks compare an image with -/

/-- Has a flash group been formatted? -/
def State.formattedGroup (s : State) (g : Nat) : Bool :=
  s.trl.freeBlks.any (fun m => chGroup m.blk.ch == g) || s.trl.sbs.any (fun p => p.2.members.any (fun m => chGroup m.blk.ch == g))

/-- Bands that hold mapped units. -/
def State.mappedBands (s : State) : List Band :=
  (s.trl.bands.filter (fun p => s.trl.map.any (fun m => match m.2 with | .platter k _ => k == p.1 | _ => false))).map (fun p => p.2)

/-- A capacity that bounds nothing before the first format. [DEDUCED: log entry 31; DESIGN CHOICE: log entry 92] -/
def capacityOf (units : Nat) : Nat := if units = 0 then 2 ^ 64 else units * unitBytes

/-- The map's DRAM size (R170), with the geometry of start-up or the one in effect. -/
def mapBytesOf (m : MediaFacts) (c : PrkConfig) : Nat :=
  let g := match c.body 0x0A02 0 with | some b => leAt b 0 2 | none => 0
  5 * m.flashUnits + 40 * (g * 10 ^ 12 / 32768) + 3 * 2 ^ 30 + 64 * (m.stripeBlocks + m.bands)

/-- What the loader compares an image with now. -/
def State.loaderEnv (s : State) (m : MediaFacts) (c : PrkConfig) : LoaderEnv :=
  { serialNo := s.dev.serial, floor := s.prk.floor, active := s.prk.active, ownerStore := s.prk.ownerStore
    nsOwners := s.obj.ns.map (fun p => p.2.owner)
    encTags := (s.obj.ns.filter (fun p => p.2.services.testBit 1)).map (fun p => p.2.owner)
    flashBytes := capacityOf (if s.trl.flash.units = 0 then m.flashUnits else s.trl.flash.units)
    platBytes := capacityOf (if s.trl.plat.units = 0 then m.platUnits else s.trl.plat.units)
    mapBytes := mapBytesOf m c, dramRetired := s.dev.boot.dramRetired
    mediaGroups := (List.range 4).filterMap (fun g =>
      if s.formattedGroup g then (Tab.find s.prk.lastRecs (recKey 0x0A01 g)).map (fun b => (g, leAt b 0 1, leAt b 1 1, leAt b 2 1))
      else none)
    mediaZones := (s.prk.lastRecs.filter (fun p => p.1 / 65536 == 0x0B02 &&
      s.mappedBands.any (fun b => b.zone == p.1 % 65536))).map (fun p => (p.1 % 65536, p.2))
    mediaSurfaces := (s.prk.lastRecs.filter (fun p => p.1 / 65536 == 0x0B01 &&
      s.mappedBands.any (fun b => b.surface == p.1 % 65536))).map (fun p => (p.1 % 65536, p.2)) }

/-- The first check an image fails in a mode, beside the configuration it would bring (R37). -/
def State.judge (s : State) (p : PrkImage) (mode : LoadMode) : Option LoadErr :=
  let c := resultCfg p.bytes (if mode = .live then s.prk.active else none)
  imageErr p (s.loaderEnv s.prk.media c) mode

/-- The loader's STATE. -/
def PrkPhase.code : PrkPhase → Nat
  | .idle => 0
  | .fetching => 1
  | .checking => 2
  | .draining => 3
  | .waiting => 4
  | .storing => 5

/-! ### Failures and abandons -/

/-- PRK_ERR_LOC of a failure. [DESIGN CHOICE: log entry 26] -/
def LoadErr.loc (e : LoadErr) : Nat := field e.region 4 28 + field e.index 28 0

/-- A check fails, or a command is refused by one (R37, R40, R44, R482): nothing is applied. -/
def failLoad (e : LoadErr) (s : State) : State :=
  raise 417 e.code e.loc e.ix 0 (onPrk (fun p => { p with
    err := e.code, errLoc := e.loc, errInst := e.ix % 65536, phase := .idle, cmd := none }) s)

/-- The touch set of the load in progress; zero for a STORE (R528). [DEDUCED: log entry 33] -/
def PrkState.loadTouch (p : PrkState) : Nat := if p.cmd = some .apply ∧ !p.intermission.isEmpty then p.pendingTouch else 0

/-- A load or a STORE is abandoned (R42-R44): the units leave Intermission with what was in effect, the slot being written holds nothing. [DEDUCED: log entries 28, 37] -/
def abandonLoad (err code : Nat) (s : State) : State :=
  let p := s.prk
  let s := raise 418 code p.loadTouch p.storeSerial 0 (onPrk (fun p => { p with
    err := err, phase := .idle, cmd := none, intermission := [], undrained := [], pendingCfg := none, storeImage := none
    slot0 := if p.phase = .storing ∧ p.activeSlot ≠ 0 then none else p.slot0
    slot1 := if p.phase = .storing ∧ p.activeSlot = 0 then none else p.slot1 }) s)
  goOn { s with cue := { s.cue with slots := s.cue.slots.filter (fun k => k.2.action != .prkApply) } }

/-! ### What takes effect (R41) -/

/-- A tenant that has no secret yet draws one (R387). [DEDUCED: log entry 154] -/
def drawTenantSecrets (s : State) : State :=
  (s.cfg.tenants.filter (fun t => !Tab.has s.scr.tenantSecrets t)).foldl (fun s t =>
    let (k, s) := drawSecret s
    { s with scr := { s.scr with tenantSecrets := Tab.put s.scr.tenantSecrets t k } }) s

/-- A tenant is removed (R37 check 0x19, R387): its secrets are cryptographically erased, its SLM, its programs and its jobs go. [DEDUCED: log entry 191] -/
def removeTenant (tag : Nat) (s : State) : State :=
  let s := (List.range 4).foldl (fun s j => if (s.tslot (slotNo tag j)).state = 0 then s else failSlot (slotNo tag j) 0x05 s) s
  { s with
    scr := { s.scr with tenantSecrets := Tab.del s.scr.tenantSecrets tag, results := Tab.del s.scr.results tag }
    bob := { s.bob with
      progs := s.bob.progs.filter (fun p => p.1 / 64 != tag)
      sets := s.bob.sets.filter (fun p => p.1 / 65536 != tag) }
    slm := memErase s.slm (slmAddr tag 0) (2 ^ 40) }

/-- A tenant whose SLM size changed has it allocated anew, zeroed (R330). -/
def resizeSlm (old new : PrkConfig) (s : State) : State :=
  let size := fun (c : PrkConfig) (t : Nat) => (c.body 0x0201 t).map (fun b => (tenantOf b).slmMib)
  let gone := new.tenants.filter (fun t => size old t != size new t)
  gone.foldl (fun s t => { s with slm := memErase s.slm (slmAddr t 0) (2 ^ 40) }) s

/-- The owner that a configuration gives a key slot. -/
def slotOwner (c : PrkConfig) (k : Nat) : Option Nat :=
  (((c.ofType 0x0701).map (fun p => (p.1, keyPartitionOf p.2))).find? (fun p =>
    decide (p.2.first ≤ k ∧ k < p.2.first + p.2.count))).map (fun p => p.1)

/-- Key slots whose owner a CRYPT change moved are erased (R389). -/
def moveSlots (old new : PrkConfig) (s : State) : State :=
  s.scr.slots.foldl (fun s p => if slotOwner old p.1 = slotOwner new p.1 then s else eraseSlot p.1 s) s

/-- While a tenant is sealed, the HFE keeps a posting cue armed for the next boundary; a refused one is recorded (R410, R426). -/
def armPosting (s : State) : State :=
  if s.sealedTags = [] ∨ s.cue.slots.any (fun k => k.2.action == .posting) then s
  else
    let (r, s) := postCue .hfe { fire := nextMultiple (s.cue.now + horizon) 16000, target := 0, action := .posting, tag := 0 } s
    if r.1 = .noSlot then raise 369 0 0 0 0 s else s

/-- The EVENT region takes effect (R465, R468): a record whose source keeps its route may still take merges; changed groups of the Sampler's
copies start a move. [DEDUCED: log entry 215] -/
def rerouteEvents (old new : PrkConfig) (e : EvtState) : EvtState :=
  { e with
    routeAge := e.routeAge + 1
    running := Tab.mapVals e.running (fun _ r =>
      if r.routeAge = e.routeAge ∧ routeIn old r.source = routeIn new r.source then { r with routeAge := e.routeAge + 1 } else r)
    oldCopies := if samplerIn old = samplerIn new then e.oldCopies else some (e.oldCopies.getD (samplerIn old)) }

/-- What a region's change brings beside its records, in the order of the regions. [DEDUCED: log entry 206] -/
def regionEffects (old new : PrkConfig) (regions : List Nat) (s : State) : State :=
  let s :=
    if regions.contains 2 then
      let gone := old.tenants.filter (fun t => !new.hasTenant t)
      let s := resizeSlm old new (gone.foldl (fun s t => removeTenant t s) s)
      let s := drawTenantSecrets (if gone = [] then s else rewrap s)
      if old.sealedTenants = new.sealedTenants ∧ old.body 0x0202 0 = new.body 0x0202 0 then s else armPosting (startWindows s)
    else s
  let s := if (regions.contains 2 ∨ regions.contains 0xA) ∧ s.trl.armedMib ≠ 0 then armHarbour s else s
  let s := if regions.contains 6 then reloadAsu old s else s
  let s := if regions.contains 7 then moveSlots old new s else s
  let s := if regions.contains 8 then trimBoard s.callBoardRec.1 s else s
  let s := if regions.contains 0xC then reloadHoop s else s
  if regions.contains 0xE then { s with evt := rerouteEvents old new s.evt } else s

/-- The records that formatted media agree with. -/
def mediaRecs (c : PrkConfig) : Tab Bytes := c.recs.filter (fun p => p.1 / 65536 == 0x0A01 || p.1 / 65536 == 0x0B01 || p.1 / 65536 == 0x0B02)

/-- Step 3 of an APPLY: every carried region takes effect at once, is sealed, and the units leave Intermission (R41). -/
def takeEffect (s : State) : State :=
  match s.prk.pendingCfg with
  | none => s
  | some c =>
    let old := s.cfg
    let p := s.prk
    let s := onPrk (fun p => { p with
      active := some c, sealedRegions := p.pendingRegions.foldl setAdd p.sealedRegions, appliedCue := s.cue.now, phase := .idle
      cmd := none, pendingCfg := none, intermission := [], undrained := [], took := true, lastRecs := mediaRecs c }) s
    let s := regionEffects old c p.pendingRegions s
    let s := raise 421 (b2n p.late) p.pendingTouch c.serial 0 s
    retireAdvance (goOn (pumpAll s))

/-- A drained load whose apply cue has come takes effect. -/
def applyDue (s : State) : State := if s.prk.phase = .waiting ∧ s.prk.applyCue ≤ s.cue.now then takeEffect s else s

/-- A unit reports itself drained (R41, R71): it runs no task and holds no armed cue that fires before the apply cue; with the last one the
load waits for its cue. [DEDUCED: log entries 27, 32] -/
def doIntermissionDrained (unit : Nat) (s : State) : State :=
  let busy := s.smg.tasks.any (fun p => p.2.unit == unit && p.2.onPlace) ||
    s.cue.slots.any (fun k => k.2.target == unit && decide (k.2.fire < s.prk.applyCue) &&
      match k.2.action with | .window _ | .posting | .prkApply => false | _ => true)
  if s.prk.phase ≠ .draining ∨ !s.prk.undrained.contains unit ∨ busy then s
  else
    let left := setDel s.prk.undrained unit
    let s := onPrk (fun p => { p with undrained := left }) s
    if left = [] then applyDue (onPrk (fun p => { p with phase := .waiting, late := decide (p.applyCue < s.cue.now) }) s) else s

/-- The drain has not ended PRK_DRAIN_LIMIT ms after it began (R42). -/
def doDrainLimitExpiry (s : State) : State :=
  if s.prk.phase = .draining ∧ s.prk.drainStart + s.reg 0x100030 2000 * 1000000 ≤ s.wall then abandonLoad 0x20 0x20 s else s

/-- PRK_APPLY_CUE is written: an earlier value than the horizon allows stands for the write time plus the horizon (R41). -/
def setApplyCue (v : Nat) (s : State) : State :=
  onPrk (fun p => { p with applyCue := max v (s.cue.now + horizon) }) s

/-- An APPLY whose checks pass: the units of its touch set enter Intermission (R30, R41). [DEDUCED: log entry 27] -/
def startApply (img : PrkImage) (c : PrkConfig) (s : State) : State :=
  let touch := imgTouch img.bytes ||| imgDeclared img.bytes
  let units := (List.range 20).filter (fun i => touch.testBit i)
  let s := onPrk (fun p => { p with
    phase := .draining, pendingCfg := some c, pendingRegions := (parseRegions img.bytes).map (fun r => r.id), pendingTouch := touch
    intermission := units, undrained := units, drainStart := s.wall }) s
  if s.prk.applyCue < s.cue.now + horizon then s
  else post .prompters { fire := s.prk.applyCue, target := 3, action := .prkApply, tag := 0 } s

/-- The inactive boot slot. -/
def PrkState.inactive (p : PrkState) : Nat := if p.activeSlot = 0 then 1 else 0

/-- A boot slot written or emptied. -/
def PrkState.putSlot (p : PrkState) (k : Nat) (i : Option PrkImage) : PrkState := if k = 0 then { p with slot0 := i } else { p with slot1 := i }

/-- The loader checks an image it has (R37, R40, R44, R482) and goes on with its command. [DEDUCED: log entries 24, 25] -/
def checkImage (img : PrkImage) (s : State) : State :=
  let touch := if headerOk img.bytes then imgTouch img.bytes else s.prk.touch
  let s := onPrk (fun p => { p with touch := touch, storeSerial := imgSerial img.bytes }) s
  match s.prk.cmd with
  | none => s
  | some .store =>
    match s.judge img .store with
    | some e => failLoad e s
    | none =>
      if 12 * 2 ^ 20 < img.bytes.length then failLoad { code := 0x24 } s
      else onPrk (fun p => { p.putSlot p.inactive none with phase := .storing, passed := true, storeImage := some img }) s
  | some k =>
    match s.judge img .live with
    | some e => failLoad e s
    | none =>
      let c := resultCfg img.bytes s.prk.active
      if k = .verify then onPrk (fun p => { p with phase := .idle, cmd := none, passed := true }) s
      else
        match applyRefused img.bytes (s.loaderEnv s.prk.media c) c with
        | some e => failLoad e s
        | none => startApply img c (onPrk (fun p => { p with passed := true }) s)

/-- The image in the aperture's buffer, PRK_IMG_LEN bytes long, with what its signatures say. -/
def State.apertureImage (s : State) (img : PrkImage) : PrkImage :=
  let n := s.reg 0x100014 0
  { img with bytes := ((List.range (ceilDiv n 4)).flatMap (fun i => leBytes 4 (Tab.at s.prk.aperture i 0).toNat)).take n }

/-- VERIFY, APPLY and STORE (R43, R46): ignored while the loader is busy; a new command clears the last one's outcome. -/
def loaderCmd (k : PrkCmd) (code : Nat) (aperture : Bool) (img : PrkImage) (s : State) : State :=
  if !writable s false then s
  else if s.prk.phase ≠ .idle then
    if k = .verify then s else raise 420 0x21 code s.prk.phase.code 0 (onPrk (fun p => { p with err := 0x21 }) s)
  else
    let s := onPrk (fun p => { p with
      err := 0, late := false, passed := false, doneBeforeAbort := false, took := false, cmd := some k
      phase := if aperture then .checking else .fetching, storeSerial := 0 }) s
    if aperture then checkImage (s.apertureImage img) s else s

/-- VERIFY: checks only. [DEDUCED: log entry 24] -/
def doPrkVerify (aperture : Bool) (img : PrkImage) (s : State) : State := loaderCmd .verify 1 aperture img s

/-- APPLY (R40, R41). -/
def doPrkApply (aperture : Bool) (img : PrkImage) (s : State) : State := loaderCmd .apply 2 aperture img s

/-- STORE (R44). -/
def doPrkStore (aperture : Bool) (img : PrkImage) (s : State) : State := loaderCmd .store 3 aperture img s

/-- ABORT (R43, R44): before the change takes effect the load or STORE is abandoned; after it, DONE_BEFORE_ABORT. [DEDUCED: log entry 28] -/
def doPrkAbort (s : State) : State :=
  if !writable s false then s
  else if s.prk.phase = .idle then onlyIf s.prk.took (onPrk (fun p => { p with doneBeforeAbort := true })) s
  else abandonLoad 0x23 0x23 s

/-- The image has been fetched from host memory: PRK_IMG_LEN bytes (R45). [DESIGN CHOICE: log entry 35] -/
def doPrkImageFetched (img : PrkImage) (s : State) : State :=
  if s.prk.phase = .fetching then
    checkImage { img with bytes := img.bytes.take (s.reg 0x100014 0) } (onPrk (fun p => { p with phase := .checking }) s)
  else s

/-- Words are written through the aperture in address order (R45). -/
def doPrkApertureWrite (off : Nat) (words : List W32) (s : State) : State :=
  if !writable s false ∨ off % 4 ≠ 0 ∨ 65536 < off + 4 * words.length then s
  else
    let base := (s.reg 0x100050 0 + off) / 4
    onPrk (fun p => { p with aperture := ((List.range words.length).zip words).foldl (fun t q => Tab.put t (base + q.1) q.2) p.aperture }) s

/-- The inactive slot is written and read back: the pointer moves to it in one write, the floor rises (R44); a slot that does not read back
is written again. [DEDUCED: log entry 29] -/
def doStoreSlotWritten (readBackOk : Bool) (s : State) : State :=
  match s.prk.storeImage with
  | some img =>
    if s.prk.phase ≠ .storing ∨ !readBackOk then s
    else
      let k := s.prk.inactive
      let floor := max s.prk.floor (imgSerial img.bytes)
      let s := onPrk (fun p => { p.putSlot k (some img) with
        activeSlot := k, floor := floor, phase := .idle, cmd := none, storeImage := none, took := true }) s
      raise 422 0 k floor 0 { s with dev := { s.dev with boot := { s.dev.boot with seq := s.dev.boot.seq + 1, copyB := !s.dev.boot.copyB } } }
  | none => s

/-! ### Start-up (R38, R39, R417) -/

/-- The owner keys of an image are written to the owner store where it is empty or differs (R35, R39, R417). [DEDUCED: log entry 36] -/
def writeOwners (img : PrkImage) (s : State) : State :=
  let keys := imageOwnerKeys (parseRegions img.bytes)
  if keys = [] ∨ keys = s.prk.ownerStore then s else raiseObj 368 0 0 (onPrk (fun p => { p with ownerStore := keys }) s)

/-- A boot slot's image is judged at start-up (R38). -/
def State.bootErr (s : State) (k : Nat) : Option LoadErr :=
  match (if k = 0 then s.prk.slot0 else s.prk.slot1) with
  | some img => if imgPartial img.bytes then some { code := 0x06 } else s.judge img .boot
  | none => some { code := 0x01 }

/-- A boot slot's image takes effect whole, power-cycle records included (R39). [DEDUCED: log entry 36] -/
def bootWith (k : Nat) (s : State) : State :=
  match (if k = 0 then s.prk.slot0 else s.prk.slot1) with
  | some img =>
    let c := resultCfg img.bytes none
    let s := writeOwners img s
    let s := onPrk (fun p => { p with active := some c, sealedRegions := List.range 16, touch := imgTouch img.bytes, lastRecs := mediaRecs c }) s
    drawTenantSecrets (reloadHoop { s with evt := { s.evt with routeAge := s.evt.routeAge + 1 } })
  | none => s

/-- A slot that fails at start-up is recorded (R38, R528). -/
def noteBootFail (k : Nat) (e : LoadErr) (s : State) : State := raise 419 e.code k e.loc 0 s

/-- The loader starts up (R38): the active slot's image, else the other's, else the house tenant alone. -/
def doPrickingBootLoad (m : MediaFacts) (s : State) : State :=
  if s.dev.phase ≠ .houseLights ∨ s.dev.recovery ∨ s.dev.booted = 0 ∨ s.prk.active.isSome ∨ s.prk.bootNone then s
  else
    let s := onPrk (fun p => { p with media := m }) s
    let a := s.prk.activeSlot
    let b := s.prk.inactive
    match s.bootErr a with
    | none => bootWith a s
    | some e =>
      let s := noteBootFail a e s
      match s.bootErr b with
      | none => raise 423 1 b 0 0 (bootWith b (onPrk (fun p => { p with bootFallback := true }) s))
      | some f => raise 423 2 0xFF 0 0 (onPrk (fun p => { p with bootNone := true }) (noteBootFail b f s))

/-! ### What the PRK_ registers show (R45) -/

/-- The PRK_ registers. [DESIGN CHOICE: log entry 30] -/
def prkView (s : State) (o : Nat) : Option Nat :=
  let p := s.prk
  if o = 0x100008 then
    some (field p.err 8 16 + flag p.doneBeforeAbort 7 + flag p.late 6 + flag p.passed 5 + field p.phase.code 4 0)
  else if o = 0x10000C then some p.errLoc
  else if o = 0x100010 then some p.errInst
  else if o = 0x100028 then some (p.appliedCue % 2 ^ 32)
  else if o = 0x10002C then some (p.appliedCue / 2 ^ 32)
  else if o = 0x100034 then some p.touch
  else if o = 0x100038 then some ((p.sealedRegions.map (fun r => 2 ^ r)).sum)
  else if o = 0x10003C then some (flag p.bootNone 2 + flag p.bootFallback 1 + field p.activeSlot 1 0)
  else if o = 0x100040 then some (s.cfg.serial % 2 ^ 32)
  else if o = 0x100044 then some (s.cfg.serial / 2 ^ 32 % 2 ^ 32)
  else if o = 0x100048 then some (p.floor % 2 ^ 32)
  else if o = 0x10004C then some (p.floor / 2 ^ 32 % 2 ^ 32)
  else if 0x100080 ≤ o ∧ o ≤ 0x1000BC then some (Tab.at s.cfg.versions ((o - 0x100080) / 4) 0)
  else none

end Sys2Proof.Machine
end

