-- ==== Sys2Proof/Machine/Harbour.lean ====
section
/-! DEFINITION. The power-loss harbour (07_translation_layer.md, R185-R189): its sequence, its dump, a start without a valid seal. -/
namespace Sys2Proof.Machine

/-- The harbour holds the journal buffer, the committed Wings slots and the pending Sampler records under a valid seal (R186). -/
def sealHarbour (s : State) : State :=
  let e := closeAllPages s.evt
  { s with
    trl := { s.trl with
      jwritten := s.trl.jnext, jflash := s.trl.jnext, jbytes := 0, unflushed := [], sealed := true, short := none, armedMib := 0 }
    evt := { e with wait1 := [], wait2 := [] }
    obj := { s.obj with undo := [] } }

/-- Programs in progress finish; everything else queued for the dies is dropped, erases in progress are reset (R186). -/
def stopFlash (s : State) : State :=
  { s with flc := { s.flc with
      ops := s.flc.ops.filter (fun o => o.running && o.op == .program)
      rds := [], decQ := [], decs := []
      luns := Tab.mapVals s.flc.luns (fun _ l => { l with readQ := [], reading := none }) } }

/-- Every scene that has not retired rolls back; its completion is not posted, for its link is stopped (R127, R186). -/
def rollBackAll (s : State) : State :=
  s.scn.scenes.foldl (fun s p =>
    if p.2.decided then s else rollBack p.1 stAborted (onScene p.1 (fun c => { c with noPost := true }) s)) s

/-- The harbour sequence starts (R186, R489, R496): the harbour cue is taken, the gates close, the actuators park. -/
def beginHarbour (cause : Nat) (s : State) : State :=
  let s := raise 393 0 cause 0 0 s
  let s := { s with
    trl := { s.trl with harbourCue := s.cue.now }
    pwr := { s.pwr with
      harbour := some { cause := cause, start := s.wall }, lossCount := min (s.pwr.lossCount + 1) (2 ^ 32 - 1), sealedPin := false } }
  stopFlash (rollBackAll (parkForLoss s))

/-- The device halts with no media writes pending: PWR_SEALED is high (R187, R481). -/
def halt (s : State) : State :=
  { s with dev := { s.dev with halted := true }, pwr := { s.pwr with sealedPin := true } }

/-- A loss or a reset before the map is restored: nothing is written to the harbour, programs and erases in progress finish (R490). -/
def haltPlain (s : State) : State := halt (rollBackAll (parkForLoss s))

/-- Is there anything that the harbour must hold: the map restored, no valid seal yet (R489, R490)? -/
def State.harbourNeeded (s : State) : Bool := s.trl.restored && !s.trl.sealed

/-- Map restore where the harbour has no valid seal (R189, R446): commits that it does not hold are rolled back to their predecessors. [DEDUCED: log entry 94] -/
def recoverHarbour (s : State) : State :=
  match s.trl.short with
  | none => s
  | some keep =>
    let lost := s.lostCommits keep
    let s := undoCommits keep s
    raise 395 0 0 0 0 { s with
      trl := { s.trl with harbourShort := true, plLost := lost, short := none }
      obj := { s.obj with undo := [] } }

end Sys2Proof.Machine
end

