-- ==== Sys2Proof/Machine/Hfe.lean ====
section
/-! DEFINITION. The host front end's transports (04_host_attachment.md, R77-R105): links, controllers, resets, connections,
data requests, partner violations. PCIE_TLP and MI_MESSAGE, which reach the register windows, are in Machine/Manage.lean. -/
namespace Sys2Proof.Machine

/-! ### Controllers coming and going (R81, R82, R95, R96, R129) -/

/-- The controllers that satisfy a condition. -/
def State.ctrlsWhere (s : State) (p : Ctrl → Bool) : List Nat := (s.hfe.ctrls.filter (fun k => p k.2)).map (fun k => k.1)

/-- A controller changed. -/
def onCtrl (c : Nat) (f : Ctrl → Ctrl) (s : State) : State :=
  { s with hfe := { s.hfe with ctrls := Tab.modify s.hfe.ctrls c f } }

/-- One open scene of a controller at its reset (R129): a decided one stands and is recorded, another rolls back. -/
def resetScene (o : Nat) (s : State) : State :=
  let s := onScene o (fun c => { c with noPost := true, media := [] }) s
  match Tab.find s.scn.scenes o with
  | some c => if c.decided then tryPost o (noteReset o c s) else rollBack o stSqDeleted s
  | none => s

/-- Controller reset (R129): fetch stops, each open scene is decided and recorded in page 0xC1, the queues are gone, and
CSTS.RDY reads 0 once every scene is decided. -/
def resetController (c : Nat) (s : State) : State :=
  let opens := (s.scn.scenes.filter (fun p => p.2.ctrl == c)).map (fun p => p.1)
  let s := onSide c (fun d => { endSelfTest 2 d with resetCue := s.cue.now, resetLog := [], resetOpen := opens }) s
  let s := onCtrl c (fun k => { k with enabled := false, cfs := false, resetting := opens != [], ready := k.ready && opens != [] }) s
  let s := opens.foldl (fun s o => resetScene o s) s
  goOn { s with
    scn := { s.scn with
      sqs := s.scn.sqs.filter (fun p => p.1 / 65536 != c)
      cqs := s.scn.cqs.filter (fun p => p.1 / 65536 != c) }
    evt := { s.evt with
      aenHeld := setDel s.evt.aenHeld c
      aenDue := s.evt.aenDue.filter (fun a => !opens.contains a.1) }
    hfe := { s.hfe with capsules := s.hfe.capsules.filter (fun p => p.1 / 2 ^ 32 != c) } }

/-- Every controller of a list is reset. -/
def resetAll (l : List Nat) (s : State) : State := l.foldl (fun s c => resetController c s) s

/-- The record a PCIe controller runs under: a house controller's is fixed (R79). [DEDUCED: log entry 58] -/
def pcieRecord (s : State) (c : Nat) : Option ControllerRec :=
  if c = 0 then some { tag := 0, transport := 0, gloex := false, ioQueues := 4095, queueEntries := 16384, vectors := 2048, fn := 0 }
  else if c = 8193 then
    some { tag := 0, transport := 0, gloex := false, ioQueues := 4095, queueEntries := 16384, vectors := 2048, fn := 2 ^ 15 }
  else (s.controllerRec c).filter (fun r => r.transport == 0)

/-- The link of a PCIe port. -/
def State.link (s : State) (port : Nat) : PcieLink := if port = 0 then s.hfe.link0 else s.hfe.link1

/-- NumVFs enabled on a port. -/
def State.numVfs (s : State) (port : Nat) : Nat := if port = 0 then s.hfe.numVfs0 else s.hfe.numVfs1

/-- A controller as a record makes it; whether CSTS.RDY reads 1 (R487). -/
def ctrlOfRec (r : ControllerRec) (aqa : Nat) (ready : Bool) : Ctrl :=
  { tag := r.tag, transport := r.transport, gloex := r.gloex, ioQueues := r.ioQueues, queueEntries := r.queueEntries,
    vectors := r.vectors, port := r.fn / 2 ^ 15, fn := r.fn % 2048, enabled := true, ready := ready, cfs := false, resetting := false,
    aqa := aqa, assoc := none, endedKato := 0, endedAt := 0 }

/-- A controller's admin queues and its command side start anew: WCE is 1, STRICT is clear (R118, R126). -/
def freshQueues (c sqSize cqSize : Nat) (s : State) : State :=
  onSide c (fun d => { d with wce := true })
    { s with scn := { s.scn with
        sqs := Tab.put s.scn.sqs (qKey c 0) { size := sqSize, cqid := 0 }
        cqs := Tab.put s.scn.cqs (qKey c 0) { size := cqSize, vector := 0 } } }

/-- The controllers of vacant VFs are numbered from here, by function (the model's numbering). [DESIGN CHOICE: log entry 41] -/
def vacantBase : Nat := 2 ^ 17

/-- What was written through BAR0 of the functions of a port that `p` accepts goes with their reset, and so do their latches and pending
words (R8). -/
def clearBar0 (port : Nat) (p : Nat → Bool) (s : State) : State :=
  let s := dropRequesters (fun q => decide (q < 2 ^ 16) && q / 2 ^ 15 == port && p (q % 2 ^ 15)) s
  { s with hfe := { s.hfe with bar0 := s.hfe.bar0.filter (fun e => !(e.1 / 2 ^ 32 == port && p (e.1 / 2 ^ 17 % 2 ^ 15))) } }

/-- A write of CC.EN = 1 (R81, R82, R95): a vacant VF or a bad admin queue size sets CSTS.CFS. [DEDUCED: log entry 58] -/
def doControllerEnable (c : Nat) (aqa : W32) (s : State) : State :=
  let asq := bits aqa.toNat 11 0 + 1
  let acq := bits aqa.toNat 27 16 + 1
  let old := (s.ctrlOf c).map (fun k => k.enabled || k.cfs || k.resetting)
  if !s.powered ∨ s.dev.recovery ∨ old = some true ∨ (c = 8193 ∧ (s.portRec 0).1 = 0) then s
  else
    let fail := fun (s : State) =>
      let base : ControllerRec :=
        { tag := 0, transport := 0, gloex := false, ioQueues := 0, queueEntries := 0, vectors := 0, fn := c - vacantBase }
      let k := ctrlOfRec ((pcieRecord s c).getD base) aqa.toNat false
      { s with hfe := { s.hfe with ctrls := Tab.put s.hfe.ctrls c { k with enabled := false, ready := false, cfs := true } } }
    match pcieRecord s c with
    | none => fail s
    | some r =>
      let allowed := r.tag == 0 || ((s.tenantRec r.tag).map (fun t => t.flags.testBit 3)).getD false
      if asq < 2 ∨ acq < 2 ∨ !allowed then fail s
      else freshQueues c asq acq { s with hfe := { s.hfe with ctrls := Tab.put s.hfe.ctrls c (ctrlOfRec r aqa.toNat (r.tag == 0 || s.dev.rehDone.contains 8)) } }

/-- CC.EN cleared: CSTS.CFS clears, or a controller reset (R81, R129). -/
def doControllerDisable (c : Nat) (s : State) : State :=
  match s.ctrlOf c with
  | some k =>
    if k.cfs then onCtrl c (fun k => { k with cfs := false }) s
    else if k.enabled ∧ k.transport = 0 then resetController c s
    else s
  | none => s

/-- The tenant of a function (R79). -/
def State.fnTag (s : State) (port fn : Nat) : Nat :=
  (windowTag s port fn).getD 0

/-- The controllers of a PCIe port, with or without its house controller. -/
def State.portCtrls (s : State) (port : Nat) (house : Bool) : List Nat :=
  s.ctrlsWhere (fun k => k.transport == 0 && k.port == port && (house || k.fn != 0))

/-- VF Enable changes on a port (R82, R96). -/
def setVfs (port n : Nat) (s : State) : State :=
  { s with hfe := if port = 0 then { s.hfe with numVfs0 := n } else { s.hfe with numVfs1 := n } }

/-- Function level reset (R96): of a VF, or of a PF with its VFs; the requester's latches go (R8); EV059. -/
def doFlr (port fn : Nat) (s : State) : State :=
  if !s.powered then s
  else
    let s := clearBar0 port (fun f => f == fn) (raiseObj 59 fn (s.fnTag port fn) s)
    if fn = 0 then setVfs port 0 (resetAll (s.portCtrls port true) (clearBar0 port (fun _ => true) s))
    else resetAll (s.ctrlsWhere (fun k => k.transport == 0 && k.port == port && k.fn == fn)) s

/-- VF Enable cleared or NumVFs changed (R81, R96). -/
def doVfEnableChange (port : Nat) (enable : Bool) (numVfs : Nat) (s : State) : State :=
  let n := if enable then numVfs else 0
  if !s.powered ∨ (s.portRec 0).2.2 < n then s
  else if n = s.numVfs port then s
  else setVfs port n (if s.numVfs port = 0 then s else resetAll (s.portCtrls port false) (clearBar0 port (fun f => f != 0) s))

/-- A doorbell write (R102): EV007 for a controller that is not enabled or a queue that does not exist, EV006 for a value beyond
the queue or a head that frees nothing. -/
def doDoorbellWrite (c : Nat) (cq : Bool) (qid val : Nat) (s : State) : State :=
  let tag := (s.ctrlTag c).getD 0
  if !s.powered then s
  else
    match s.ctrlOf c with
    | some k =>
      if !k.enabled ∨ k.resetting then raiseObj 7 c tag s
      else if cq then
        match Tab.find s.scn.cqs (qKey c qid) with
        | some q =>
          let freed := (val + q.size - q.head) % (max 1 q.size)
          let used := (q.tail + q.size - q.head) % (max 1 q.size)
          if q.size ≤ val ∨ freed = 0 ∨ used < freed then goOn (standardAen c 0 1 1 (raiseObj 6 c tag s))
          else goOn { s with scn := { s.scn with cqs := Tab.put s.scn.cqs (qKey c qid) { q with head := val } } }
        | none => goOn (standardAen c 0 0 1 (raiseObj 7 c tag s))
      else
        match s.sqOf c qid with
        | some q =>
          if q.size ≤ val then goOn (standardAen c 0 1 1 (raiseObj 6 c tag s))
          else onSq c qid (fun q => { q with tail := val }) s
        | none => goOn (standardAen c 0 0 1 (raiseObj 7 c tag s))
    | none => raiseObj 7 c tag s

/-! ### Links (R77, R78, R84-R86, R96) -/

/-- A PCIe link's state. -/
def setLink (port : Nat) (l : PcieLink) (s : State) : State :=
  { s with hfe := if port = 0 then { s.hfe with link0 := l } else { s.hfe with link1 := l } }

/-- A PCIe link trains (R77, R78): a rate the PORT record allows, a width its mode has, FLIT at 64 GT/s. -/
def doPcieLinkUp (port rate width : Nat) (flit l0p : Bool) (s : State) : State :=
  let (mode, cap, _) := s.portRec 0
  if s.powered ∧ !s.dev.recovery ∧ 1 ≤ rate ∧ rate ≤ min cap 6 ∧ [1, 2, 4, 8].contains width ∧ (mode = 0 ∨ width ≤ 4) ∧
      (port = 0 ∨ (port = 1 ∧ mode = 1)) ∧ (rate ≠ 6 ∨ flit = true) ∧ (l0p = false ∨ flit = true) then
    setLink port { up := true, flit := flit, l0p := l0p, width := width, rate := rate } s
  else s

/-- Link down on a PCIe port (R96): every controller of the port is reset; EV060. -/
def doPcieLinkDown (port : Nat) (s : State) : State :=
  if (s.link port).up then
    setVfs port 0 (resetAll (s.portCtrls port true) (clearBar0 port (fun _ => true) (raiseObj 60 port 0 (setLink port {} s))))
  else s

/-- The PORT instance of an Ethernet logical port, and whether its mode yields it (R77). -/
def lportOk (s : State) (lp : Nat) : Bool :=
  let (mode, cap, _) := s.portRec (1 + lp / 2)
  decide (lp < 4) && decide (1 ≤ cap) && (lp % 2 == 0 || mode == 1)

/-- The logical port changed. -/
def onPort (lp : Nat) (f : EthPort → EthPort) (s : State) : State :=
  { s with hfe := { s.hfe with eth := Tab.update s.hfe.eth lp {} f } }

/-- A logical port comes up at a PHY type of its mode, its FEC locked (R84). -/
def doEthLinkUp (lp : Nat) (phy : EthPhy) (s : State) : State :=
  let split := (s.portRec (1 + lp / 2)).1 == 1
  let okPhy : Bool := match phy.phy with
    | .cr2 | .kr2 => !split && phy.lanes == 2
    | .cr1 | .kr1 => split && phy.lanes == 1
  if s.powered ∧ s.dev.rehDone.contains 8 ∧ lportOk s lp ∧ okPhy ∧ phy.fecLocked then
    onPort lp (fun p => { p with up := true, fec := true, lanes := phy.lanes }) s
  else s

/-- The RoCEv2 priority and whether PFC is enabled for it (HFE_PFC_CTRL). -/
def State.rocePfc (s : State) : Nat × Bool :=
  let v := s.reg 0x30003C 0x300
  (bits v 10 8, v.testBit (bits v 10 8))

/-- The receive buffer's fill after a frame: XOFF above 75% of 8 MiB, XON below 50% (R86). [DESIGN CHOICE: log entry 51] -/
def pfcAfter (lp fill : Nat) (s : State) : State :=
  let p := Tab.at s.hfe.eth lp {}
  let (prio, on) := s.rocePfc
  if on ∧ 6291456 < fill ∧ !p.xoffSent then emit (.xoff lp prio) (onPort lp (fun p => { p with fill := fill, xoffSent := true }) s)
  else if p.xoffSent ∧ fill < 4194304 then emit (.xon lp prio) (onPort lp (fun p => { p with fill := fill, xoffSent := false }) s)
  else onPort lp (fun p => { p with fill := fill }) s

/-- The tenant a queue pair serves. -/
def State.qpTag (s : State) (qp : Nat) : Nat := ((Tab.find s.hfe.qps qp).bind (fun q => q.tag)).getD 0

/-- An Ethernet frame (R85, R86, R102): EV016 for a bad FCS, a runt or an oversize frame, EV034 for a bad ICRC; an ECN mark is
answered with a CNP at most once per 50 microseconds and queue pair. [DESIGN CHOICE: log entry 51] -/
def doEthFrame (lp : Nat) (f : EthFrame) (s : State) : State :=
  if !(Tab.at s.hfe.eth lp {}).up then s
  else if !f.fcsOk ∨ f.len < 64 ∨ 9216 < f.len then raiseObj 16 lp 0 (onPort lp (fun p => { p with drops := p.drops + 1 }) s)
  else
    let s := pfcAfter lp f.fill s
    match f.qp with
    | none => s
    | some qp =>
      if !f.icrcOk then raiseObj 34 qp (s.qpTag qp) (onPort lp (fun p => { p with drops := p.drops + 1 }) s)
      else
        match Tab.find s.hfe.qps qp with
        | some q =>
          let due : Bool := match q.lastCnpTx with | some t => decide (t + 50000 ≤ s.wall) | none => true
          if f.ecn ∧ due then
            emit (.cnp qp) (count1 0x300040
              { s with hfe := { s.hfe with qps := Tab.put s.hfe.qps qp { q with lastCnpTx := some s.wall } } })
          else s
        | none => s

/-- A received PAUSE or PFC frame stops transmission on the port or the priority, or lets it go on (R86). -/
def doPauseFrame (lp : Nat) (prio : Option Nat) (on : Bool) (s : State) : State :=
  if (Tab.at s.hfe.eth lp {}).up then
    onPort lp (fun p =>
      match prio with
      | none => { p with paused := on }
      | some k => { p with pausedPrios := if on then setAdd p.pausedPrios k else setDel p.pausedPrios k }) s
  else s

/-- A received CNP halves the queue pair's send rate (R86). -/
def doCnpReceived (qp : Nat) (s : State) : State :=
  match Tab.find s.hfe.qps qp with
  | some q => count1 0x300044 { s with hfe := { s.hfe with qps := Tab.put s.hfe.qps qp { q with rate := q.rate / 2, lastStep := s.wall } } }
  | none => s

/-- Every 55 microseconds a lowered rate recovers by 5% of line rate (R86). -/
def doRateRecoveryStep (qp : Nat) (s : State) : State :=
  match Tab.find s.hfe.qps qp with
  | some q =>
    if q.lastStep + 55000 ≤ s.wall ∧ q.rate < 100000 then
      { s with hfe := { s.hfe with qps := Tab.put s.hfe.qps qp { q with rate := min 100000 (q.rate + 5000), lastStep := s.wall } } }
    else s
  | none => s

/-! ### Connections and associations (R87-R98) -/

/-- A queue is lost with its connection: its unretired commands roll back, no completion is posted for them (R96). -/
def loseQueue (c q : Nat) (s : State) : State :=
  let opens := (s.scn.scenes.filter (fun p => p.2.ctrl == c && p.2.sq == q)).map (fun p => p.1)
  let s := opens.foldl (fun s o => resetScene o s) s
  goOn { s with scn := { s.scn with sqs := Tab.del s.scn.sqs (qKey c q), cqs := Tab.del s.scn.cqs (qKey c q) } }

/-- The connections and queue pairs of a controller are closed. -/
def closeAllOf (c : Nat) (s : State) : State :=
  let cs := (s.hfe.conns.filter (fun p => p.2.ctrl == some c)).map (fun p => p.1)
  let qs := (s.hfe.qps.filter (fun p => p.2.ctrl == some c)).map (fun p => p.1)
  emitAll (cs.map .closed ++ qs.map .qpClosed)
    { s with hfe := { s.hfe with
        conns := s.hfe.conns.filter (fun p => p.2.ctrl != some c)
        qps := s.hfe.qps.filter (fun p => p.2.ctrl != some c) } }

/-- An association ends (R96): controller reset, its connections closed; EV057 for a normal end, EV058 for a loss. -/
def endAssociation (c : Nat) (normal : Bool) (s : State) : State :=
  match s.ctrlOf c with
  | some k =>
    match k.assoc with
    | some a =>
      let s := raiseObj (if normal then 57 else 58) c k.tag s
      let s := onCtrl c (fun k => { k with assoc := none, endedKato := a.kato, endedAt := s.wall }) s
      resetController c (closeAllOf c s)
    | none => s
  | none => s

/-- A TCP connection is lost: its queue, or for the admin queue its association (R96). -/
def loseConn (conn : Nat) (s : State) : State :=
  match Tab.find s.hfe.conns conn with
  | some k =>
    let s := { s with hfe := { s.hfe with conns := Tab.del s.hfe.conns conn } }
    match k.ctrl with
    | some c => if k.qid = 0 then endAssociation c false s else loseQueue c k.qid s
    | none => s
  | none => s

/-- A queue pair is lost (R96). -/
def loseQp (qp : Nat) (s : State) : State :=
  match Tab.find s.hfe.qps qp with
  | some k =>
    let s := { s with hfe := { s.hfe with qps := Tab.del s.hfe.qps qp } }
    match k.ctrl with
    | some c => if k.qid = 0 then endAssociation c false s else loseQueue c k.qid s
    | none => s
  | none => s

/-- The device closes a connection on a violation: as its loss (R103). -/
def closeConn (conn : Nat) (s : State) : State := loseConn conn (emit (.closed conn) s)

/-- The tenant a connection serves. -/
def State.connTag (s : State) (conn : Nat) : Nat :=
  ((Tab.find s.hfe.conns conn).map (fun k => match k.ctrl with
    | some c => (s.ctrlTag c).getD 0
    | none => k.tag.getD 0)).getD 0

/-- A violation answered with C2HTermReq and the connection's closure (R102). -/
def terminate (src fes conn : Nat) (s : State) : State :=
  closeConn conn (emit (.termReq conn fes) (raiseObj src conn (s.connTag conn) s))

/-- Is the connection limit of the FABRIC record reached? -/
def connRoom (s : State) : Bool := decide (s.hfe.conns.length < s.fabricRec.1)

/-- An address entry in use. -/
def netUp (s : State) (lp net : Nat) : Bool :=
  (Tab.at s.hfe.eth lp {}).up && decide (net / 16 = lp) &&
  match Tab.find s.hfe.net net with
  | some e => e.ctrl.toNat.testBit 31
  | none => false

/-- A new TCP connection. -/
def newConn (lp net : Nat) : TcpConn :=
  { lport := lp, netEntry := net, icDone := false, hdgst := false, ddgst := false, hpda := 0, maxr2t := 0, tls := none, tag := none,
    ctrl := none, qid := 0, waiting := [], closeAt := none }

/-- NVMe/TCP ICReq (R91, R92, R102): EV017, EV018, a clear connection where TLS is required, or ICResp. -/
def doTcpIcreq (conn : Nat) (ic : IcReq) (s : State) : State :=
  let known := Tab.find s.hfe.conns conn
  if known.isNone ∧ (!connRoom s ∨ !netUp s ic.lport ic.net) then s
  else
    let k := known.getD (newConn ic.lport ic.net)
    let s := { s with hfe := { s.hfe with conns := Tab.put s.hfe.conns conn k } }
    if k.icDone then terminate 18 2 conn s
    else if s.fabricRec.2.2 ∧ k.tls.isNone then closeConn conn s
    else if !ic.lenOk then terminate 17 1 conn s
    else if ic.pfv ≠ 0 ∨ 31 < ic.hpda then terminate 17 6 conn s
    else
      let k' := { k with icDone := true, hdgst := ic.hdgst, ddgst := ic.ddgst, hpda := ic.hpda, maxr2t := ic.maxr2t }
      emit (.icResp conn) { s with hfe := { s.hfe with conns := Tab.put s.hfe.conns conn k' } }

/-- A PDU of a type not allowed from a host (R102, EV018). -/
def doPduTypeNotAllowed (conn : Nat) (s : State) : State :=
  if Tab.has s.hfe.conns conn then terminate 18 2 conn s else s

/-- A command whose in-capsule data is short fails with Data Transfer Error; the connection stays (EV023). -/
def failShort (c q : Nat) (cap : Capsule) (s : State) : State :=
  let s := onSq c q (fun x => { x with tail := (x.tail + 1) % (max 1 x.size) }) s
  goOn (failCmd { ctrl := c, sq := q, cid := cap.cid, nsid := 0, badField := false } 0 stTransfer s)

/-- A submission queue without a free entry. [DEDUCED: log entry 194] -/
def sqFull (s : State) (c q : Nat) : Bool :=
  match s.sqOf c q with
  | some x => (x.tail + 1) % (max 1 x.size) == x.head
  | none => true

/-- A command capsule over TCP (R100, R102): EV018 before ICReq, EV019, EV020, EV023-EV025, else queued or held. -/
def doTcpCapsule (conn : Nat) (cap : Capsule) (s : State) : State :=
  match Tab.find s.hfe.conns conn with
  | none => s
  | some k =>
    let tag := s.connTag conn
    if !k.icDone then terminate 18 2 conn s
    else if k.hdgst ∧ !cap.hdgstOk then terminate 19 3 conn s
    else
      match k.ctrl with
      | none => s
      | some c =>
        if sqFull s c k.qid then terminate 25 2 conn s
        else if cap.cmdLen < cap.inCapsule ∨ 8192 < cap.inCapsule then terminate 24 4 conn s
        else if k.ddgst ∧ !cap.ddgstOk then
          let s := raiseObj 20 conn tag s
          let s := onSq c k.qid (fun x => { x with tail := (x.tail + 1) % (max 1 x.size) }) s
          goOn (failCmd { ctrl := c, sq := k.qid, cid := cap.cid, nsid := 0, badField := false } 0 stTransient s)
        else if 0 < cap.inCapsule ∧ cap.inCapsule < cap.cmdLen then failShort c k.qid cap (raiseObj 23 conn tag s)
        else if capsuleRoom s c cap ∧ k.waiting = [] then queueCapsule c k.qid cap s
        else { s with hfe := { s.hfe with conns := Tab.put s.hfe.conns conn { k with waiting := k.waiting ++ [cap] } } }

/-- Loss of a TCP connection. -/
def doTcpConnectionLoss (conn : Nat) (s : State) : State := loseConn conn s

/-- A TLS handshake (R88, R92, EV027). -/
def doTlsHandshake (conn : Nat) (m : TlsMsg) (s : State) : State :=
  let known := Tab.find s.hfe.conns conn
  if known.isNone ∧ (!connRoom s ∨ !netUp s m.lport m.net) then s
  else
    let k := known.getD (newConn m.lport m.net)
    let s := { s with hfe := { s.hfe with conns := Tab.put s.hfe.conns conn k } }
    if m.suite ∧ m.group ∧ m.pskTag.isSome ∧ !m.violation then
      let k' := { k with tls := some { tag := m.pskTag.getD 0, rxRecords := 0, txRecords := 0 }, tag := m.pskTag }
      emit (.tlsEstablished conn) { s with hfe := { s.hfe with conns := Tab.put s.hfe.conns conn k' } }
    else
      closeConn conn (emit (.tlsAlert conn (if m.violation then 47 else 40)) (count1 0x30004C (raiseObj 27 conn (s.connTag conn) s)))

/-- A TLS record (R92, EV026). [DESIGN CHOICE: log entry 61] -/
def doTlsRecord (conn : Nat) (authentic : Bool) (s : State) : State :=
  match Tab.find s.hfe.conns conn with
  | some k =>
    match k.tls with
    | some x =>
      if authentic then
        { s with hfe := { s.hfe with conns := Tab.put s.hfe.conns conn { k with tls := some { x with rxRecords := x.rxRecords + 1 } } } }
      else closeConn conn (emit (.tlsAlert conn 20) (count1 0x30004C (raiseObj 26 conn (s.connTag conn) s)))
    | none => s
  | none => s

/-- KeyUpdate is sent (R92). [DESIGN CHOICE: log entry 61] -/
def doTlsKeyUpdateDue (conn : Nat) (s : State) : State :=
  match Tab.find s.hfe.conns conn with
  | some k =>
    match k.tls with
    | some x =>
      let k' := { k with tls := some { x with txRecords := 0 } }
      emit (.tlsKeyUpdate conn) { s with hfe := { s.hfe with conns := Tab.put s.hfe.conns conn k' } }
    | none => s
  | none => s

/-- A Connect's answer with its status; a refusal is EV028. -/
def answerConnect (c : ConnectReq) (st : Status) (s : State) : State :=
  let s := if isOk st then s else raiseObj 28 c.conn (if c.rdma then s.qpTag c.conn else s.connTag c.conn) s
  emit (.connectResp c.rdma c.conn st) s

/-- The connection or queue pair of a Connect serves a controller's queue. -/
def bindQueue (c : ConnectReq) (s : State) : State :=
  if c.rdma then
    { s with hfe := { s.hfe with qps := Tab.modify s.hfe.qps c.conn (fun k => { k with ctrl := some c.cntlid, qid := c.qid, tag := s.ctrlTag c.cntlid }) } }
  else
    { s with hfe := { s.hfe with conns := Tab.modify s.hfe.conns c.conn (fun k => { k with ctrl := some c.cntlid, qid := c.qid, tag := s.ctrlTag c.cntlid }) } }

/-- A KATO rounded up to 100 ms; 0 stands for 120 s on an I/O controller (R97). -/
def katoOf (v : Nat) : Nat := if v = 0 then 120000 else ceilDiv v 100 * 100

/-- An association is made (R87, R97): the controller runs under its record as it is now; EV056. [DEDUCED: log entry 59] -/
def associate (c : ConnectReq) (r : ControllerRec) (s : State) : State :=
  let a : Assoc := { hostNqn := c.hostNqn, hostId := c.hostId, kato := katoOf c.kato, lastAlive := s.wall, adminConn := c.conn, adminRdma := c.rdma }
  let s := { s with hfe := { s.hfe with ctrls := Tab.put s.hfe.ctrls c.cntlid { ctrlOfRec r 0 true with assoc := some a } } }
  raiseObj 56 c.cntlid r.tag (answerConnect c stOk (bindQueue c (freshQueues c.cntlid c.size c.size s)))

/-- The tenant whose secret the host proved: in-band, or the PSK of the connection's TLS (R88). [DESIGN CHOICE: log entry 62] -/
def provedTag (s : State) (c : ConnectReq) : Option Nat :=
  match c.authTag with
  | some t => some t
  | none => ((Tab.find s.hfe.conns c.conn).bind (fun k => k.tls)).map (fun x => x.tag)

/-- A queue pair comes into being with its Connect. -/
def withQp (c : ConnectReq) (s : State) : State :=
  if c.rdma ∧ !Tab.has s.hfe.qps c.conn ∧ s.hfe.qps.length < s.fabricRec.2.1 ∧ netUp s c.lport c.net then
    let q : RdmaQp :=
      { lport := c.lport, netEntry := c.net, inError := false, tag := none, ctrl := none, qid := 0, rate := 100000,
        lastCnpTx := none, lastStep := 0, waiting := [], closeAt := none }
    { s with hfe := { s.hfe with qps := Tab.put s.hfe.qps c.conn q } }
  else s

/-- A Connect whose host failed: the connection is closed 1 s later (R88). -/
def invalidHost (c : ConnectReq) (s : State) : State :=
  let s := answerConnect c ⟨1, 0x84, true⟩ s
  if c.rdma then { s with hfe := { s.hfe with qps := Tab.modify s.hfe.qps c.conn (fun k => { k with closeAt := some (s.wall + 1000000000) }) } }
  else { s with hfe := { s.hfe with conns := Tab.modify s.hfe.conns c.conn (fun k => { k with closeAt := some (s.wall + 1000000000) }) } }

/-- Fabrics Connect (R87, R88, R90, R97, R98). -/
def doConnect (c : ConnectReq) (s : State) : State :=
  let s := if s.runs then withQp c s else s
  let there := s.runs && if c.rdma then Tab.has s.hfe.qps c.conn else ((Tab.find s.hfe.conns c.conn).map (fun k => k.icDone)).getD false
  if !there then s
  else if s.saf.rootErased then invalidHost c s
  else
    match s.controllerRec c.cntlid with
    | none => answerConnect c ⟨1, 0x82, true⟩ s
    | some r =>
      let ethernet := ((s.tenantRec r.tag).map (fun t => t.flags.testBit 4)).getD false
      let k := s.ctrlOf c.cntlid
      let busy := (k.bind (fun k => k.assoc)).isSome
      if r.transport ≠ (if c.rdma then 2 else 1) then answerConnect c ⟨1, 0x82, true⟩ s
      else if c.qid = 0 then
        if !ethernet ∨ provedTag s c ≠ some r.tag then invalidHost c s
        else if busy then answerConnect c ⟨1, 0x81, false⟩ s
        else if c.size < 2 ∨ 4096 < c.size then answerConnect c ⟨1, 0x82, true⟩ s
        else if (k.map (fun k => k.resetting)).getD false then
          { s with hfe := { s.hfe with held := Tab.put s.hfe.held c.conn { req := c, since := s.wall } } }
        else associate c r s
      else
        match k.bind (fun k => k.assoc) with
        | none => answerConnect c ⟨1, 0x82, true⟩ s
        | some a =>
          if a.hostNqn ≠ c.hostNqn ∨ a.hostId ≠ c.hostId ∨ !queueIdOk s c.cntlid c.qid ∨ Tab.has s.scn.sqs (qKey c.cntlid c.qid) ∨
              c.size < 2 ∨ s.maxEntries c.cntlid < c.size then answerConnect c ⟨1, 0x82, true⟩ s
          else
            answerConnect c stOk (bindQueue c { s with scn := { s.scn with
              sqs := Tab.put s.scn.sqs (qKey c.cntlid c.qid) { size := c.size, cqid := c.qid }
              cqs := Tab.put s.scn.cqs (qKey c.cntlid c.qid) { size := c.size, vector := 0 } } })

/-- A held Connect is admitted once the previous association's work has been rolled back (R98). -/
def doConnectAdmitted (conn : Nat) (s : State) : State :=
  match Tab.find s.hfe.held conn with
  | some h =>
    let k := s.ctrlOf h.req.cntlid
    if (k.map (fun k => k.resetting)).getD false then s
    else
      let s := { s with hfe := { s.hfe with held := Tab.del s.hfe.held conn } }
      match s.controllerRec h.req.cntlid with
      | some r =>
        if (k.bind (fun k => k.assoc)).isSome then answerConnect h.req ⟨1, 0x81, false⟩ s else associate h.req r s
      | none => answerConnect h.req ⟨1, 0x82, true⟩ s
  | none => s

/-- One second after an Invalid Host the connection is closed (R88). -/
def doInvalidHostClose (conn : Nat) (s : State) : State :=
  let due := fun (c : Option Nat) => match c with | some t => decide (t ≤ s.wall) | none => false
  if ((Tab.find s.hfe.conns conn).map (fun k => due k.closeAt)).getD false then closeConn conn s
  else if ((Tab.find s.hfe.qps conn).map (fun k => due k.closeAt)).getD false then loseQp conn (emit (.qpClosed conn) s)
  else s

/-- A Disconnect (R96): an I/O queue's commands end as aborted before it completes; the admin queue's ends the association. -/
def doDisconnect (conn : Nat) (s : State) : State :=
  let found : Option (Bool × Option Nat × Nat) :=
    match Tab.find s.hfe.conns conn with
    | some k => some (false, k.ctrl, k.qid)
    | none => (Tab.find s.hfe.qps conn).map (fun k => (true, k.ctrl, k.qid))
  match found with
  | some (rdma, some c, q) =>
    if q = 0 then endAssociation c true (emit (.disconnectResp rdma conn) s)
    else
      let s := onSq c q (fun x => { x with deleting := some (.disconnect rdma conn) }) s
      goOn (rollQueue c q stSqDeleted s)
  | _ => s

/-- The keep-alive timeout expires: EV029, the association ends (R97). -/
def doKeepAliveExpiry (c : Nat) (s : State) : State :=
  match (s.ctrlOf c).bind (fun k => k.assoc) with
  | some a =>
    if a.lastAlive + a.kato * 1000000 ≤ s.wall then endAssociation c false (raiseObj 29 c ((s.ctrlTag c).getD 0) s) else s
  | none => s

/-- A logical port goes down (R96): associations whose admin connection runs on it end, its other connections are lost; EV060. -/
def doLogicalPortDown (lp : Nat) (s : State) : State :=
  if (Tab.at s.hfe.eth lp {}).up then
    let s := raiseObj 60 (2 + lp) 0 (onPort lp (fun _ => {}) s)
    let cs := (s.hfe.conns.filter (fun p => p.2.lport == lp)).map (fun p => p.1)
    let qs := (s.hfe.qps.filter (fun p => p.2.lport == lp)).map (fun p => p.1)
    qs.foldl (fun s q => loseQp q s) (cs.foldl (fun s c => loseConn c s) s)
  else s

/-! ### RDMA (R93, R102) -/

/-- A Send with a capsule (R93, EV023, EV035, EV036): with no receive buffer it meets an RNR NAK, beyond the retry count the loss. [DEDUCED: log entry 194] -/
def doRdmaSend (qp : Nat) (cap : Capsule) (noBuffer : Bool) (s : State) : State :=
  match Tab.find s.hfe.qps qp with
  | none => s
  | some k =>
    let tag := s.qpTag qp
    if k.inError then s
    else if noBuffer then loseQp qp (emit (.rdmaNakRnr qp) (raiseObj 35 qp tag s))
    else if cap.len < 64 ∨ 64 + 8192 < cap.len then loseQp qp (emit (.qpClosed qp) (raiseObj 36 qp tag s))
    else
      match k.ctrl with
      | none => s
      | some c =>
        if sqFull s c k.qid then emit (.rdmaNakRnr qp) s
        else if 0 < cap.inCapsule ∧ cap.inCapsule < cap.cmdLen then failShort c k.qid cap (raiseObj 23 qp tag s)
        else if capsuleRoom s c cap ∧ k.waiting = [] then queueCapsule c k.qid cap s
        else { s with hfe := { s.hfe with qps := Tab.put s.hfe.qps qp { k with waiting := k.waiting ++ [cap] } } }

/-- A host-initiated RDMA Read or Write: a Remote Access Error NAK, the queue pair is closed (EV033). -/
def doRdmaInboundAccess (qp : Nat) (s : State) : State :=
  if Tab.has s.hfe.qps qp then
    loseQp qp (emit (.qpClosed qp) (emit (.rdmaNakAccess qp) (raiseObj 33 qp (s.qpTag qp) s)))
  else s

/-- Loss of a queue pair. -/
def doRdmaQpLoss (qp : Nat) (s : State) : State := loseQp qp s

/-! ### Data requests (R99-R102) -/

/-- The connection or queue pair that carries a queue. -/
def carrier (s : State) (c q : Nat) : Nat :=
  match s.hfe.conns.find? (fun p => p.2.ctrl == some c && p.2.qid == q) with
  | some p => p.1
  | none => ((s.hfe.qps.find? (fun p => p.2.ctrl == some c && p.2.qid == q)).map (fun p => p.1)).getD 0

/-- The kind of request a transport takes. -/
def reqKind (k : Ctrl) : ReqKind := if k.transport = 0 then .pcieRead else if k.transport = 1 then .r2t else .rdmaRead

/-- Requests of a scene outstanding. -/
def State.reqsOf (s : State) (o : Nat) : Nat := Tab.count s.hfe.reqs (fun _ r => r.scene == o && !r.failed)

/-- May the HFE ask for `len` more bytes of a scene (R78, R91, R99, R100)? -/
def mayAsk (s : State) (o : Nat) (c : Scene) (k : Ctrl) (len : Nat) : Bool :=
  let conn := Tab.find s.hfe.conns (carrier s c.ctrl c.sq)
  let cap := match reqKind k with
    | .pcieRead => decide (Tab.count s.hfe.reqs (fun _ r => r.kind == .pcieRead && !r.expired && ((s.ctrlOf r.conn).map (fun x => x.port)) == some k.port) < 4096)
    | .r2t => decide (s.reqsOf o < min (((conn.map (fun x => x.maxr2t)).getD 0) + 1) 4) && decide (len ≤ 131072)
    | .rdmaRead => decide (s.reqsOf o < 16)
  let total := c.data.length + c.need
  !c.decided && decide (0 < len ∧ c.asked + len ≤ total) && decide (len ≤ s.transferFree c.tag) && cap

/-- A command fails for its data: it rolls back with a status. -/
def failScene (o : Nat) (st : Status) (s : State) : State := rollBackRequest o st s

/-- A data request is issued into free transfer-area space (R99); DMA of a function bound to an Insecure stream fails (EV009). [DEDUCED: log entry 199] -/
def doDataRequestIssue (o len : Nat) (s : State) : State :=
  match Tab.find s.scn.scenes o with
  | none => s
  | some c =>
    match s.ctrlOf c.ctrl with
    | none => s
    | some k =>
      if !mayAsk s o c k len ∨ !s.scn.act.isNone then s
      else if s.dmaStopped c.ctrl then
        failScene o stTransfer s
      else
        let rid := s.hfe.nextReq
        let conn := if k.transport = 0 then c.ctrl else carrier s c.ctrl c.sq
        let r : DataReq := { scene := o, kind := reqKind k, conn := conn, tag := c.tag, off := c.asked, len := len, got := 0, issued := s.wall, failed := false }
        let s := takeStaging c.tag len (onScene o (fun c => { c with asked := c.asked + len, staged := c.staged + len }) s)
        let s := { s with hfe := { s.hfe with reqs := Tab.put s.hfe.reqs rid r, nextReq := rid + 1 } }
        match reqKind k with
        | .pcieRead => emit (.memRead rid r.off len) s
        | .r2t => emit (.r2t conn rid r.off len) s
        | .rdmaRead => emit (.rdmaRead conn rid r.off len) s

/-- Bytes of a request arrive in staging. -/
def deliver (rid : Nat) (r : DataReq) (b : Bytes) (s : State) : State :=
  let at0 := r.off + r.got
  let s := onScene r.scene (fun c => { c with
    data := padTo c.data (max c.data.length at0) |>.take at0 |>.append (b ++ c.data.drop (at0 + b.length))
    need := c.need - b.length }) s
  let r' := { r with got := r.got + b.length }
  let reqs := if r.len ≤ r'.got then Tab.del s.hfe.reqs rid else Tab.put s.hfe.reqs rid r'
  goOn { s with hfe := { s.hfe with reqs := reqs } }

/-- A request's end without data. -/
def dropReq (rid : Nat) (s : State) : State := { s with hfe := { s.hfe with reqs := Tab.del s.hfe.reqs rid } }

/-- An AER report of a controller's function. -/
def aerOf (c : Nat) (e : AerError) (s : State) : State :=
  match s.ctrlOf c with
  | some k => emit (.aer k.port k.fn e) s
  | none => emit (.aer 0 0 e) s

/-- A completion for a device memory read (R101, EV002, EV004, EV005); that of a command which has ended is discarded. [DEDUCED: log entry 204] -/
def doPcieCompletion (rid : Nat) (st : CplStatus) (b : Bytes) (s : State) : State :=
  match Tab.find s.hfe.reqs rid with
  | some r =>
    let aer := fun (e : AerError) (s : State) => aerOf r.conn e s
    if r.kind ≠ .pcieRead then s
    else if r.expired then aer .unexpectedCompletion (raiseObj 4 rid r.tag (dropReq rid s))
    else if r.failed then dropReq rid s
    else
      match st with
      | .ok => deliver rid r (b.take (r.len - r.got)) s
      | .poisoned => failScene r.scene stTransfer (aer .poisoned (raiseObj 2 r.conn r.tag (dropReq rid s)))
      | .ur => failScene r.scene stTransfer (raiseObj 5 r.conn r.tag (dropReq rid s))
      | .ca => failScene r.scene stTransfer (raiseObj 5 r.conn r.tag (dropReq rid s))
  | none => if s.powered then emit (.aer 0 0 .unexpectedCompletion) (raiseObj 4 rid 0 s) else s

/-- No completion within the completion timeout: EV003 (R101). [DEDUCED: log entry 60] -/
def doCompletionTimeout (rid : Nat) (s : State) : State :=
  match Tab.find s.hfe.reqs rid with
  | some r =>
    if r.kind = .pcieRead ∧ !r.expired ∧ r.issued + 16000000 ≤ s.wall then
      let s := { s with hfe := { s.hfe with reqs := Tab.put s.hfe.reqs rid { r with failed := true, expired := true } } }
      failScene r.scene stTransfer (aerOf r.conn .completionTimeout (raiseObj 3 r.conn r.tag s))
    else s
  | none => s

/-- H2CData (R102): EV019-EV022, EV018 before ICReq, else delivered. -/
def doH2cData (conn : Nat) (p : H2cPdu) (s : State) : State :=
  match Tab.find s.hfe.conns conn with
  | none => s
  | some k =>
    if !k.icDone then terminate 18 2 conn s
    else if k.hdgst ∧ !p.hdgstOk then terminate 19 3 conn s
    else if 131072 < p.len then terminate 22 5 conn s
    else
      match Tab.find s.hfe.reqs p.rid with
      | some r =>
        if r.kind ≠ .r2t ∨ r.conn ≠ conn ∨ r.failed ∨ p.off ≠ r.off + r.got ∨ r.len < r.got + p.len then
          terminate 21 4 conn (if r.kind = .r2t ∧ r.conn = conn then failScene r.scene stTransfer s else s)
        else if k.ddgst ∧ !p.ddgstOk then failScene r.scene stTransient (raiseObj 20 conn (s.connTag conn) s)
        else deliver p.rid r (padTo p.bytes p.len) s
      | none => terminate 21 4 conn s

/-- An R2T or RDMA Read unanswered for HFE_DATA_TIMEOUT fails its command; what still arrives is excess data (R101). -/
def doDataTimeout (rid : Nat) (s : State) : State :=
  match Tab.find s.hfe.reqs rid with
  | some r =>
    if r.kind ≠ .pcieRead ∧ !r.failed ∧ r.issued + s.reg 0x300038 0xFA0 * 1000000 ≤ s.wall then
      failScene r.scene stTransfer { s with hfe := { s.hfe with reqs := Tab.put s.hfe.reqs rid { r with failed := true } } }
    else s
  | none => s

/-- The response to a device RDMA Read. -/
def doRdmaReadResponse (rid : Nat) (b : Bytes) (s : State) : State :=
  match Tab.find s.hfe.reqs rid with
  | some r => if r.kind = .rdmaRead ∧ !r.failed then deliver rid r (b.take (r.len - r.got)) s else s
  | none => s

/-- A Remote Access Error NAK to a device RDMA operation: EV032, the command fails, the queue pair is lost (R102). -/
def doRdmaNak (rid : Nat) (s : State) : State :=
  match Tab.find s.hfe.reqs rid with
  | some r =>
    if r.kind = .rdmaRead then loseQp r.conn (failScene r.scene stTransfer (raiseObj 32 r.conn r.tag (dropReq rid s))) else s
  | none => s

/-! ### DOE, addresses (R83, R105) -/

/-- A DOE object (R83, EV010): IDE_KM binds, re-keys or stops a stream. [DESIGN CHOICE: log entry 57] -/
def doDoeObject (port : Nat) (obj : DoeObject) (s : State) : State :=
  if !(s.link port).up then s
  else if !obj.lenOk ∨ s.hfe.doeBusy.contains port then
    emit (.doeError port) (raiseObj 10 port 0 { s with hfe := { s.hfe with doeError := setAdd s.hfe.doeError port } })
  else
    match obj.body with
    | .spdm | .securedSpdm => emit (.doeAnswer port) s
    | .ideKmProgram st fns =>
      if Tab.has s.hfe.ide st ∨ s.hfe.ide.length < 64 then
        emit (.doeAnswer port) { s with hfe := { s.hfe with ide := Tab.put s.hfe.ide st { fns := fns, insecure := false } } }
      else emit (.doeAnswer port) s
    | .ideKmStop st => emit (.doeAnswer port) { s with hfe := { s.hfe with ide := Tab.del s.hfe.ide st } }

/-- HFE_NET_ADDR0-3 show the address of the selected entry (R104). -/
def showNet (s : State) : State :=
  let addr := ((Tab.find s.hfe.net (s.reg 0x300100 0)).map (fun e => e.addr)).getD []
  (List.range 4).foldl (fun s i => setReg (0x300110 + 4 * i) (addr.getD i 0).toNat s) s

/-- HFE_NET_CTRL is written (R105): the entry takes effect, a duplicate on its logical port is refused with EV030, and clearing EN
closes the connections that use the address. -/
def doHfeNetCtrlWrite (val : W32) (s : State) : State :=
  if !writable s false then s
  else
    let e := s.reg 0x300100 0
    let v : W32 := val &&& 0xC0FF0FFF#32
    let addr := (List.range 4).map (fun i => BitVec.ofNat 32 (s.reg (0x300110 + 4 * i) 0))
    let same := fun (x : NetEntry) =>
      x.ctrl.toNat.testBit 31 && x.ctrl.toNat.testBit 30 == v.toNat.testBit 30 &&
      (if v.toNat.testBit 30 then x.addr == addr else x.addr.head? == addr.head?)
    if v.toNat.testBit 31 ∧ s.hfe.net.any (fun p => p.1 != e && p.1 / 16 == e / 16 && same p.2) then showNet (raiseObj 30 e 0 s)
    else
      let s := { s with hfe := { s.hfe with net := Tab.put s.hfe.net e { ctrl := v, addr := addr } } }
      if v.toNat.testBit 31 then s
      else
        let cs := (s.hfe.conns.filter (fun p => p.2.netEntry == e)).map (fun p => p.1)
        let qs := (s.hfe.qps.filter (fun p => p.2.netEntry == e)).map (fun p => p.1)
        qs.foldl (fun s q => loseQp q (emit (.qpClosed q) s)) (cs.foldl (fun s c => closeConn c s) s)

/-! ### What the HFE_ registers show (R104, R138, R139) -/

/-- Gloex queues frozen, of all tenants or of one. -/
def State.frozenQueues (s : State) (tag : Option Nat) : Nat :=
  Tab.count s.scn.sqs (fun k q => q.frozen && (tag.isNone || s.ctrlTag (k / 65536) == tag))

/-- A link register. -/
def linkWord (l : PcieLink) : Nat :=
  if l.up then flag true 31 + flag l.flit 30 + flag l.l0p 29 + field l.width 4 16 + field l.rate 4 0 else 0

/-- The HFE_ registers. -/
def hfeView (s : State) (o : Nat) : Option Nat :=
  let h := s.hfe
  if o = 0x300004 then
    some (flag ((s.portRec 0).1 == 1) 0 + flag ((s.portRec 1).1 == 1) 8 + flag ((s.portRec 2).1 == 1) 9)
  else if o = 0x300008 then some (linkWord h.link0)
  else if o = 0x30000C then some (if (s.portRec 0).1 = 0 then 0 else linkWord h.link1)
  else if o = 0x300010 then
    some (((List.range 4).map (fun k =>
      let p := Tab.at h.eth k {}
      (flag p.up 7 + flag p.fec 6 + field p.lanes 4 0) <<< (8 * k))).sum)
  else if o = 0x300014 then some (field s.fabricRec.1 15 16 + field h.conns.length 15 0)
  else if o = 0x300018 then some (field s.fabricRec.2.1 14 16 + field h.qps.length 14 0)
  else if o = 0x30001C then some (Tab.count h.ctrls (fun _ k => k.assoc.isSome))
  else if o = 0x300020 then some (field (Tab.count h.ide (fun _ x => x.insecure)) 7 16 + field h.ide.length 7 0)
  else if o = 0x300024 then some (field h.numVfs1 11 16 + field h.numVfs0 11 0)
  else if o = 0x300048 then some (Tab.count h.conns (fun _ k => k.tls.isSome))
  else if o = 0x300104 then some (((Tab.find h.net (s.reg 0x300100 0)).map (fun e => e.ctrl.toNat)).getD 0)
  else if o = 0x301004 then some s.scn.scenes.length
  else if o = 0x301010 then
    let st := match s.scn.act with
      | none => 0
      | some a => if s.inFlight a then 2 else 1
    some (flag s.scn.abandoned 5 + flag (!s.scn.pressed.isEmpty) 4 + st)
  else if o = 0x301014 then some s.scn.actMicros
  else if o = 0x301028 then some (s.frozenQueues none)
  else if o = 0x301030 then some (s.scn.latest % 2 ^ 32)
  else if o = 0x301034 then some (s.scn.latest / 2 ^ 32)
  else if o = 0x301040 then some (Tab.count s.scn.ctl (fun _ d => d.selfTest.isSome))
  else none

/-- The ordering counters of a tenant window. -/
def twHfeView (s : State) (tag o : Nat) : Option Nat :=
  let f := Tab.at s.scn.fences tag (0, 0)
  let cue := s.tenantCue tag (Tab.at s.scn.tenantLatest tag 0)
  if o = 0x5000 then some f.1
  else if o = 0x5004 then some f.2
  else if o = 0x5008 then some (cue % 2 ^ 32)
  else if o = 0x500C then some (cue / 2 ^ 32)
  else if o = 0x5018 then some (s.scenesOf tag)
  else if o = 0x501C then some (s.frozenQueues (some tag))
  else none

end Sys2Proof.Machine
end

