-- ==== Sys2Proof/Machine/Safety.lean ====
section
/-! DEFINITION. The Safety Curtain and the Trapdoor (16_isolation_and_access.md, R405-R427), and the Ground's boundary checks (R15-R20). -/
namespace Sys2Proof.Machine

/-- The Safety Curtain changed. -/
def onSaf (f : SafState → SafState) (s : State) : State := { s with saf := f s.saf }

/-! ### The Ground (R15-R20) -/

/-- A transaction is refused: it has no effect on its target, it is recorded and counted, its task fails. [DEDUCED: log entry 22] -/
def refuseGround (src : Nat) (t : GroundTx) (s : State) : State :=
  let s := emit (.groundError t.src t.dst t.seq) (refuseAt src t.dst t.tag s)
  match t.task.bind s.smg.resolve with
  | some (i, k) => if k.onPlace then endEngine i 0x02 s else s
  | none => s

/-- A Ground transaction (R17-R19): its route is judged at its source, its tag and the owner tag at the first boundary. [DEDUCED: log entry 22; PRESUMED: log entry 23] -/
def doGroundTransaction (t : GroundTx) (s : State) : State :=
  let routeOk : Bool := match s.route t.route with
    | some r => r.source == t.src && (!r.sealedOnly || s.isSealed t.tag)
    | none => t.route == 0
  if !s.unitsRun then s
  else if !routeOk then refuseGround 354 t s
  else if 0x1001 ≤ t.tag ∧ t.tag ≤ 0x1FFF then refuseGround 352 t s
  else if t.owner ≠ t.tag then refuseGround 353 t s
  else emit (.groundDone t.src t.dst t.seq) s

/-! ### The erasure and Curtain Down (R400, R414-R416) -/

/-- The erasure of R400: the root key, every key slot, context and latched copy, the derivation state, the TLS keys; the IDE streams'
keys go with it, every stream enters Insecure (R415). [DEDUCED: log entry 156] -/
def eraseKeys (s : State) : State :=
  { s with
    saf := { s.saf with rootErased := true }
    scr := { s.scr with
      slots := Tab.mapVals s.scr.slots (fun _ x => { gen := (x.gen + 1) % 65536, owner := x.owner })
      ctxs := [], queue := [], waits := [] }
    tly := { s.tly with ctxs := [], slots := Tab.mapVals s.tly.slots (fun _ x => { x with key := none }) }
    hfe := { s.hfe with
      conns := Tab.mapVals s.hfe.conns (fun _ c => { c with tls := none })
      ide := Tab.mapVals s.hfe.ide (fun _ x => { x with insecure := true }) } }

/-- Jobs in flight are abandoned (R400): no task and no invocation goes on. [DEDUCED: log entry 156] -/
def abandonJobs (s : State) : State :=
  let s := s.smg.tasks.foldl (fun s p => freeTask p.1 s) s
  { s with bob := { s.bob with execs := [], invs := [] } }

/-- Every scene that has not retired rolls back with Namespace Not Ready, DNR = 1 (R415). -/
def rollBackNotReady (s : State) : State :=
  s.scn.scenes.foldl (fun s p => if p.2.decided then s else rollBack p.1 stNotReady s) s

/-- Fabric connections are closed, and with them their associations (R415). -/
def closeFabric (s : State) : State :=
  let s := s.hfe.ctrls.foldl (fun s p => endAssociation p.1 false s) s
  emitAll (s.hfe.conns.map (fun p => Output.closed p.1) ++ s.hfe.qps.map (fun p => Output.qpClosed p.1))
    { s with hfe := { s.hfe with conns := [], qps := [], held := [] } }

/-- A firmware activation ends (R415): its command rolls back with the others. -/
def endActivation (s : State) : State := { s with scn := { s.scn with act := none } }

/-- Curtain Down is entered (R43, R415, R476): the erasure, the write gates and parks, the roll-backs, the events, the harbour dump. A dump
that is running is left running. [DEDUCED: log entries 37, 156] -/
def enterCurtain (s : State) : State :=
  let s := if s.saf.rootErased then s else eraseKeys s
  let s := if s.prk.phase = .idle then s else abandonLoad s.prk.err 0 s
  let s := parkAll 9 (endActivation s)
  let s := abandonJobs (closeFabric (rollBackNotReady s))
  let s := raise 360 0 0 0 0 (transition .curtainDown s)
  let s := if s.pwr.harbour.isSome then s
    else
      let s := if s.harbourNeeded then sealHarbour s else s
      { s with pwr := { s.pwr with sealedPin := true } }
  goOn s

/-- The first alarm of a power cycle is kept; all are counted (SAF_ALARM, SAF_ALARM_COUNT). [DEDUCED: log entry 157] -/
def noteAlarm (kind sensor : Nat) (s : State) : State :=
  onSaf (fun f => { f with
    alarm := match f.alarm with | some a => some a | none => some (kind, sensor % 256)
    alarms := min (f.alarms + 1) (2 ^ 32 - 1) }) s

/-- A tamper alarm (R414, R415): a second one adds a record and changes nothing else. -/
def alarm (kind sensor : Nat) (s : State) : State :=
  if !s.powered then s
  else
    let s := raise (355 + kind) 0 sensor 0 0 (noteAlarm kind sensor s)
    if s.dev.phase = .curtainDown then s else enterCurtain s

/-- Sensors of each kind: rails, clock conditions, die sensors, photodiodes, mesh loops (R414). -/
def sensorsOf (kind : Nat) : Nat := [11, 5, 8, 16, 4].getD kind 0

/-- A sensor of R414 reports its alarm condition. -/
def doTamperAlarm (kind sensor : Nat) (s : State) : State := if sensor < sensorsOf kind then alarm kind sensor s else s

/-- A check of a tamper-mesh loop: the second one in succession that differs is an alarm (R414). [DEDUCED: log entry 157] -/
def doMeshCheck (loop : Nat) (sent received : W32) (s : State) : State :=
  if 4 ≤ loop ∨ !s.powered then s
  else if sent = received then onSaf (fun f => { f with meshBad := setDel f.meshBad loop }) s
  else if s.saf.meshBad.contains loop then alarm 4 loop s
  else onSaf (fun f => { f with meshBad := setAdd f.meshBad loop }) s

/-! ### Attestation (R418-R420) -/

/-- Does a request need a signature or a session? -/
def spdmSigns : SpdmKind → Bool
  | .challenge | .keyExchange | .finish | .endSession | .setCertificate _ => true
  | .measurements _ x => x
  | _ => false

/-- A record as its region body holds it (R31). -/
def recordText (p : Nat × Bytes) : Bytes := leBytes 2 (p.1 / 65536) ++ leBytes 2 (p.1 % 65536) ++ leBytes 4 p.2.length ++ p.2

/-- Bits set below a bound. -/
def countBits (n : Nat) (p : Nat → Bool) : Nat := ((List.range n).filter p).length

/-- A measurement block's content (R419). -/
def State.measure (s : State) (i : Nat) : Bytes :=
  if i = 7 then
    leBytes 8 s.cfg.serial ++ leBytes 8 s.prk.floor ++ (List.range 16).flatMap (fun r => leBytes 4 (Tab.at s.cfg.versions r 0))
  else if i = 8 then
    leBytes 1 (b2n (!s.prk.ownerStore.isEmpty) + 2 * b2n (s.saf.td == .open') + 4 * b2n (s.dev.phase == .curtainDown) +
      8 * (s.trapdoorPolicy.1 % 2)) ++ leBytes 3 0 ++ leBytes 4 s.evt.powerCycles ++ leBytes 8 s.dev.serial
  else if i = 9 then
    leBytes 1 0xB0 ++ leBytes 1 s.bob.map.length ++ leBytes 1 (Tab.count s.bob.cores (fun _ c => c.role == 2)) ++
      leBytes 1 (countBits 32 s.chUsable) ++ leBytes 2 (Tab.count s.flc.luns (fun _ l => l.retired)) ++ leBytes 2 0
  else if i = 6 then digestOf 5 (s.cfg.recs.flatMap recordText)
  else
    let v := if i = 4 then s.saf.imageActive else if i = 5 then s.saf.imageStandby else if i = 1 then 0 else s.dev.bootedSvn
    beBytes 48 (Config.measurement i v).toNat

/-- The blocks that an index names; 0xFF names every one. -/
def measured (index : Nat) : List Nat := if index = 0xFF then (List.range 9).map (fun i => i + 1) else if 1 ≤ index ∧ index ≤ 9 then [index] else []

/-- How a request is answered when nothing stands in its way. [DEDUCED: log entry 158] -/
def spdmReply (s : State) (r : SpdmReq) : SpdmReply :=
  match r.kind with
  | .version => .version
  | .capabilities => .capabilities
  | .digests => .digests
  | .certificate => .certificate
  | .challenge => .challengeAuth
  | .measurements i x => if measured i = [] then .error 0x01 else .measurements ((measured i).map (fun k => (k, s.measure k))) x
  | .keyExchange => .keyExchange
  | .finish => .finish
  | .endSession => if s.saf.sessions = 0 then .error 0x01 else .endSession
  | .setCertificate k => if k = 1 then .setCertificate else .error 0x01

/-- What a request leaves: a session with FINISH (EV366), its end, slot 1 provisioned. [DEDUCED: log entry 158] -/
def spdmEffect (r : SpdmReq) (s : State) : State :=
  match r.kind with
  | .finish => raiseObj 366 0 0 (onSaf (fun f => { f with sessions := min (f.sessions + 1) 255 }) s)
  | .endSession => onSaf (fun f => { f with sessions := f.sessions - 1 }) s
  | .setCertificate k => if k = 1 then onSaf (fun f => { f with slot1 := true }) s else s
  | _ => s

/-- May the requester speak SPDM: a physical function whose port's link is up, or the NVMe-MI endpoint (R418)? -/
def spdmFrom (s : State) (q : Requester) : Bool :=
  match q with
  | .function p f => f == 0 && (s.link p).up
  | .mi => true
  | .prompter _ => false

/-- An SPDM request (R418-R420): once the root key is erased, one that needs a signature or a session is refused and recorded; during a
switchover it is answered Busy. -/
def doSpdmRequest (r : SpdmReq) (s : State) : State :=
  if !s.runs ∨ !spdmFrom s r.req then s
  else if spdmSigns r.kind ∧ s.saf.rootErased then emit (.spdm r.req (.error 0x05)) (raiseObj 367 0 0 s)
  else if spdmSigns r.kind ∧ s.saf.switching.isSome then emit (.spdm r.req (.error 0x03)) s
  else emit (.spdm r.req (spdmReply s r)) (spdmEffect r s)

/-! ### Switchover (R424, R425) -/

/-- A switchover begins: for a failover, or at an activation's switch point. [DEDUCED: log entry 162] -/
def startSwitch (failover : Bool) (s : State) : State := onSaf (fun f => { f with switching := some failover }) s

/-- The active core misses its watchdog for 500 us (R424, R425): EV365; without a ready standby the device enters Curtain Down. [DEDUCED: log entry 157] -/
def doSafetyCurtainFailover (s : State) : State :=
  if !s.powered ∨ s.saf.switching.isSome then s
  else
    let s := raiseObj 365 0 0 (onSaf (fun f => { f with failovers := min (f.failovers + 1) 65535 }) s)
    if s.saf.standbyReady then startSwitch true s
    else
      let s := noteAlarm 5 0 s
      if s.dev.phase = .curtainDown then s else enterCurtain s

/-! ### The Trapdoor (R421-R423) -/

/-- SAF_TD_STATUS (R427). -/
def State.tdStatus (s : State) : Nat :=
  let f := s.saf
  flag (f.td == .open') 31 + flag f.nonce.isSome 30 + flag (decide (3 ≤ f.fails)) 29 + flag (s.trapdoorPolicy.1 == 1) 28 +
  field f.tdErr 8 8 + field f.fails 2 0

/-- Is an instruction available (R421)? With policy 0 only IDCODE and BYPASS are. -/
def tdAvailable (s : State) (code : Nat) : Bool :=
  code == 0x01 || code == 0xFF ||
  s.trapdoorPolicy.1 == 1 &&
    (code == 0x22 ||
     (code == 0x20 || code == 0x21) && s.saf.td == .closed ||
     (code == 0x00 || code == 0x02 || code == 0x30) && s.saf.td == .open')

/-- An instruction selects its data register; what the register captures is shifted out. [DEDUCED: log entry 159] -/
def tdSelect (code value : Nat) (s : State) : State :=
  emit (.tdOut code value) (onSaf (fun f => { f with tdCode := code, tdData := value }) s)

/-- An instruction that is not available selects BYPASS (R421). [DESIGN CHOICE: log entry 160] -/
def tdRun (code : Nat) (work : State → State) (s : State) : State :=
  if !s.powered then s else if tdAvailable s code then work s else tdSelect 0xFF 0 s

/-- IDCODE: version 0xB, part 0x7400, the manufacturer field, 1. -/
def doTdIdcode (s : State) : State :=
  tdRun 0x01 (tdSelect 0x01 (field 0xB 4 28 + field 0x7400 16 12 + field Config.manufacturer.toNat 11 1 + 1)) s

/-- BYPASS, and any code that selects it. -/
def doTdBypass (code : Nat) (s : State) : State :=
  if !s.powered then s else if code = 0xFF ∨ !tdAvailable s code then tdSelect 0xFF 0 s else s

/-- A refusal by policy or lock (ERR 0x05). -/
def tdRefuse (s : State) : State := onSaf (fun f => { f with tdErr := 5 }) s

/-- Is the challenge refused: by policy, or after three failures in one power cycle (R423)? -/
def tdLocked (s : State) : Bool := s.trapdoorPolicy.1 != 1 || decide (3 ≤ s.saf.fails)

/-- TD_NONCE: a new nonce is drawn and replaces the last (R421, R422, EV361). -/
def doTdNonce (s : State) : State :=
  let s := if s.powered ∧ tdLocked s ∧ s.saf.td = .closed then tdRefuse s else s
  tdRun 0x20 (fun s =>
    if tdLocked s ∨ s.scr.halted then s
    else
      let (n, s) := drawSecret s
      raiseObj 361 0 0 (tdSelect 0x20 n.toNat (onSaf (fun f => { f with nonce := some (n, s.wall), tdErr := 0 }) s))) s

/-- Nonces are valid for 60 s. -/
def nonceLife : Nat := 60000000000

/-- The nonce in force, unless it is 60 s old. -/
def State.validNonce (s : State) : Option (BitVec 256) :=
  (s.saf.nonce.filter (fun n => decide (s.wall < n.2 + nonceLife))).map (fun n => n.1)

/-- A failure at step 2: the nonce is spent, EV362 (R423). -/
def tdFail (err : Nat) (s : State) : State :=
  raiseObj 362 0 0 (onSaf (fun f => { f with nonce := none, fails := min (f.fails + 1) 3, tdErr := err }) s)

/-- The challenge is judged (R422): step 1, step 2, then the erasure and the record of steps 3 and 4. -/
def tdJudge (r : TdResponse) (s : State) : State :=
  match s.validNonce with
  | none => onSaf (fun f => { f with nonce := none, tdErr := 1 }) s
  | some n =>
    if r.keyDigest ≠ s.trapdoorPolicy.2 then tdFail 2 s
    else if !r.verifies ∨ r.nonce ≠ n ∨ r.serial ≠ s.dev.serial ∨ r.powerCycles ≠ s.evt.powerCycles then tdFail 3 s
    else
      let s := if s.saf.rootErased then s else eraseKeys s
      let s := onScr (fun c => { c with blocked := true }) s
      raiseObj 363 0 0 (onSaf (fun f => { f with nonce := none, tdErr := 0, td := .recording, tdStart := s.wall }) s)

/-- TD_RESPONSE (R421-R423): refused after three failures, held while a switchover runs. -/
def doTdResponse (r : TdResponse) (s : State) : State :=
  let s := if s.powered ∧ tdLocked s ∧ s.saf.td = .closed then tdRefuse s else s
  tdRun 0x21 (fun s =>
    let s := tdSelect 0x21 0 s
    if tdLocked s then s
    else if s.saf.switching.isSome then onSaf (fun f => { f with held := some r }) s
    else tdJudge r s) s

/-- TD_STATUS. [DEDUCED: log entry 159] -/
def doTdStatus (s : State) : State := tdRun 0x22 (fun s => tdSelect 0x22 s.tdStatus s) s

/-- EXTEST: the boundary cells drive the balls as last preloaded. [DEDUCED: log entry 159] -/
def doTdExtest (s : State) : State := tdRun 0x00 (fun s => tdSelect 0x00 s.saf.scan s) s

/-- SAMPLE/PRELOAD: the boundary cells capture the balls; the spec gives no boundary register, so what they capture is a free value. [DESIGN CHOICE: log entry 160] -/
def doTdSamplePreload (s : State) : State :=
  tdRun 0x02 (fun s =>
    let (k, s) := takeFree s
    let v := (Config.freeValue k).toNat
    tdSelect 0x02 v (onSaf (fun f => { f with scan := v }) s)) s

/-- DEBUG: device debug access is selected. [DEDUCED: log entry 159] -/
def doTdDebug (s : State) : State := tdRun 0x30 (tdSelect 0x30 0) s

/-- A nonce 60 s old is no longer valid (R422). -/
def doNonceExpiry (s : State) : State :=
  match s.saf.nonce with
  | some n => if n.2 + nonceLife ≤ s.wall then onSaf (fun f => { f with nonce := none }) s else s
  | none => s

/-- A flash copy of EV363 is complete (R422, steps 4-6): Curtain Down, and the Trapdoor is open. -/
def doTrapdoorRecordWritten (s : State) : State :=
  if s.saf.td = .recording ∧ s.powered then
    let s := if s.dev.phase = .curtainDown then s else enterCurtain s
    onSaf (fun f => { f with td := .open' }) s
  else s

/-- The record was not written within 1 s (R423): the Trapdoor stays closed, the device is in Curtain Down, ERR 0x04. [DEDUCED: log entry 161] -/
def doTrapdoorRecordTimeout (s : State) : State :=
  if s.saf.td = .recording ∧ s.powered ∧ s.saf.tdStart + 1000000000 ≤ s.wall then
    let s := if s.dev.phase = .curtainDown then s else enterCurtain s
    onSaf (fun f => { f with td := .closed, tdErr := 4 }) s
  else s

/-- A switchover ends (R424, R425): EV364; the cores change places, the one that was active stands by if its self-test passes; held
derivations and a held response go on. -/
def doSwitchoverDone (selfTestOk : Bool) (s : State) : State :=
  if s.saf.switching.isNone then s
  else
    let held := s.saf.held
    let s := raiseObj 364 0 0 (onSaf (fun f => { f with
      switching := none, held := none, switches := min (f.switches + 1) 65535, imageActive := f.imageStandby
      imageStandby := if selfTestOk then f.imageActive else 0, standbyReady := selfTestOk }) s)
    let s := drainDerive s
    let s := s.scr.slots.foldl (fun s p => if p.2.kind = 2 then rollOver p.1 s else s) s
    match held with
    | some r => if tdLocked s then tdRefuse s else tdJudge r s
    | none => s

/-! ### What the SAF_ registers show (R427) -/

/-- The SAF_ registers. -/
def safView (s : State) (o : Nat) : Option Nat :=
  let f := s.saf
  if o = 0x1300004 then
    some (flag f.rootErased 31 + flag (s.dev.phase == .curtainDown) 30 + flag (f.td == .open') 29 + flag (!s.prk.ownerStore.isEmpty) 28 +
      flag f.switching.isSome 27 + flag f.standbyReady 26)
  else if o = 0x1300008 then some (match f.alarm with | some a => flag true 31 + field a.2 8 16 + field a.1 3 0 | none => 0)
  else if o = 0x130000C then some f.alarms
  else if o = 0x1300010 then some (s.evt.secSeq % 2 ^ 32)
  else if o = 0x1300014 then some (s.evt.secSeq / 2 ^ 32)
  else if o = 0x1300018 then some f.imageActive
  else if o = 0x130001C then some f.imageStandby
  else if o = 0x1300020 then some (field f.failovers 16 16 + field f.switches 16 0)
  else if o = 0x1300024 then some s.tdStatus
  else if o = 0x1300028 then some f.refusals
  else if o = 0x130002C then some (flag f.slot1 8 + field f.sessions 8 0)
  else if o = 0x1300030 then some (flag (s.cue.slots.any (fun k => k.2.action == .posting)) 31 + field s.sealedTags.length 13 0)
  else none

end Sys2Proof.Machine
end

