-- ==== Sys2Proof/Machine/Dram.lean ====
section
/-! DEFINITION. DRAM: addresses, the word code, reads and merges, refresh, frequency changes, the scrubber, retirement
(17_memory_and_ecc.md, R428-R455). -/
namespace Sys2Proof.Machine

/-- The DRAM controller changed. -/
def onDmc (f : DmcState → DmcState) (s : State) : State := { s with dmc := f s.dmc }

/-! ### Addresses (R430) -/

/-- Channels of the interleave in ascending order. -/
def State.dramChannels (s : State) : List Nat := (List.range 4).filter (fun i => s.dmc.mask.testBit i)

/-- Bytes of a channel. -/
def State.channelBytes (s : State) : Nat := s.dramMap.2.1 * 2 ^ 30

/-- Is a device address within the interleave? [DESIGN CHOICE: log entry 176] -/
def State.dramHas (s : State) (a : Nat) : Bool := decide (a < s.dramChannels.length * s.channelBytes)

/-- The channel and the channel address of a device address. -/
def State.dramPlace (s : State) (a : Nat) : Nat × Nat :=
  let n := s.dramChannels.length
  let g := 2 ^ s.dramMap.2.2
  (s.dramChannels.getD (a / g % n) 0, a / (n * g) * g + a % g)

/-- The rank of a channel address: the bit above the rows. -/
def State.dramRank (s : State) (c : Nat) : Nat := if s.dmc.ranks2 then c / (s.channelBytes / 2) % 2 else 0

/-- The key of a bank, and the row, of a channel address. -/
def State.dramBank (s : State) (ch c : Nat) : Nat × Nat := (ch * 64 + s.dramRank c * 32 + bits c 16 12, c / 2 ^ 17)

/-- Bytes of a slab: 1 MiB in each channel. -/
def State.slabBytes (s : State) : Nat := s.dramChannels.length * 2 ^ 20

/-- Slabs usable (DMC_TOTAL_SLABS). -/
def State.totalSlabs (s : State) : Nat := if s.dmc.mask = 0 then 0 else s.dramMap.2.1 * 1024 - s.dmc.slabsLost

/-- Slabs allocated (DMC_ALLOC_SLABS): those that the map and the configuration need, from the lowest. [DEDUCED: log entry 164] -/
def State.allocSlabs (s : State) : Nat :=
  if s.slabBytes = 0 then 0 else min s.totalSlabs (ceilDiv (mapBytesOf s.prk.media s.cfg + dramNeeds s.cfg) s.slabBytes)

/-! ### The word code (R432) -/

/-- g(x) = (x + 1) (x^7 + x^3 + 1) (x^7 + x^3 + x^2 + x + 1). -/
def codePoly : Nat := 0xC599

/-- One step of a reduction modulo g(x). -/
def codeStep (r : Nat) (b : Bool) : Nat :=
  let v := 2 * r + b2n b
  if v.testBit 15 then v ^^^ codePoly else v

/-- A polynomial of degree below `n` reduced modulo g(x). -/
def codeMod (n v : Nat) : Nat := (bitsMsb n v).foldl codeStep 0

/-- The check bits of 65 information bits. -/
def checkBits (u : Nat) : Nat := codeMod 80 (u * 2 ^ 15)

/-- The stored word of 64 data bits and a poison bit: data in bits 0-63, P in bit 64, check bits above. -/
def encodeWord (d : Nat) (p : Bool) : BitVec 80 :=
  let u := d % 2 ^ 64 + flag p 64
  BitVec.ofNat 80 (u + checkBits u * 2 ^ 65)

/-- The received word as a polynomial: information bits above the 15 check bits. -/
def wordPoly (w : BitVec 80) : Nat := w.toNat % 2 ^ 65 * 2 ^ 15 + w.toNat / 2 ^ 65

/-- The syndrome of a received word. -/
def syndrome (w : BitVec 80) : Nat := codeMod 80 (wordPoly w)

/-- The word bit whose polynomial term is x^i. -/
def bitOfTerm (i : Nat) : Nat := if i < 15 then 65 + i else i - 15

/-- The syndrome of one bit error, by word bit. -/
def errSyndrome (b : Nat) : Nat := syndrome (BitVec.ofNat 80 (2 ^ b))

/-- Syndromes of all single-bit errors. -/
def errTable : List Nat := (List.range 80).map errSyndrome

/-- The one or two word bits whose error gives a syndrome, lowest first. -/
def errorBits (syn : Nat) : Option (List Nat) :=
  let t := errTable
  match t.findIdx? (fun x => x == syn) with
  | some i => some [i]
  | none => (List.range 80).findSome? (fun i =>
      match (t.drop (i + 1)).findIdx? (fun x => x ^^^ t.getD i 0 == syn) with
      | some j => some [i, i + 1 + j]
      | none => none)

/-- What decoding finds (R432). -/
inductive WordKind where
  | clean | corrected | poisoned | uncorrectable
  deriving DecidableEq, Repr

/-- A decoded word: its kind, its 64 data bits, the bits corrected. -/
structure Decoded where
  kind : WordKind
  data : Nat
  fixed : List Nat
  deriving DecidableEq, Repr

/-- The word after the correction of some bits. -/
def flipBits (w : BitVec 80) (l : List Nat) : BitVec 80 := l.foldl (fun w b => w ^^^ BitVec.ofNat 80 (2 ^ b)) w

/-- Decoding (R432): an uncorrectable word gives its data as read. -/
def decodeWord (w : BitVec 80) : Decoded :=
  let syn := syndrome w
  let found := if syn = 0 then some [] else errorBits syn
  match found with
  | some l =>
    let v := flipBits w l
    let d := v.toNat % 2 ^ 64
    if v.toNat.testBit 64 then { kind := .poisoned, data := d, fixed := l }
    else if l = [] then { kind := .clean, data := d, fixed := [] }
    else { kind := .corrected, data := d, fixed := l }
  | none => { kind := .uncorrectable, data := w.toNat % 2 ^ 64, fixed := [] }

/-! ### Words of DRAM -/

/-- The stored code word of word `w`. [DESIGN CHOICE: log entry 9] -/
def State.storedWord (s : State) (w : Nat) : BitVec 80 :=
  match Tab.find s.dmc.words w with
  | some v => v
  | none => encodeWord (leNat (memRead s.dram (8 * w) 8)) false

/-- A word's bytes and its stored code word take a value; a clean one is not listed. -/
def putWord (w d : Nat) (code : BitVec 80) (s : State) : State :=
  let clean := decide (code = encodeWord d false)
  { s with
    dram := memWrite s.dram (8 * w) (leBytes 8 d)
    dmc := { s.dmc with words := if clean then Tab.del s.dmc.words w else Tab.put s.dmc.words w code } }

/-- The flip of word `k` of a list. -/
def flipOf (l : List (Nat × BitVec 80)) (k : Nat) : BitVec 80 := ((l.filter (fun p => p.1 == k)).map (fun p => p.2)).foldl (fun a b => a ^^^ b) 0

/-- A device position (R429): channel, rank and device of a word bit. -/
def devicePos (ch rank b : Nat) : Nat := ch * 16 + rank * 8 + (if b < 64 then b % 32 / 8 else 4)

/-- 24 hours in CK_CUE cycles. -/
def dayNs : Nat := 86400000000000

/-- The entries of a list of the last 24 hours. -/
def lastDay (wall : Nat) (l : List (Nat × Nat)) : List (Nat × Nat) := l.filter (fun p => decide (wall < p.2 + dayNs))

/-- An entry of ECC_LOG (R455). [DEDUCED: log entry 168] -/
def logEcc (r : EccRec) (s : State) : State := onDmc (fun d => { d with log := (r :: d.log).take 32 }) s

/-- An entry for a word of a channel. -/
def dramEntry (s : State) (unit source w : Nat) (x : Decoded) : EccRec :=
  { uncorr := x.kind != .corrected, source := source, memory := (s.dramPlace (8 * w)).1,
    bit1 := x.fixed.getD 0 0xFF, bit0 := x.fixed.getD 1 0xFF, unit := unit, addr := 8 * w, cue := s.cue.now }

/-! ### Retirement (R449-R451) -/

/-- Blocks of the retiring channel that are allocated: one a slab. -/
def finishRetire (s : State) : State :=
  let ch := s.dmc.retCh
  let b := s.dev.boot
  raiseObj 336 ch 0 { onDmc (fun d => { d with ch := Tab.put d.ch ch 4, retState := 2, retiredThisCycle := true }) s with
    dev := { s.dev with boot := { b with seq := b.seq + 1, copyB := !b.copyB, dramRetired := b.dramRetired ||| 2 ^ ch } } }

/-- A retirement is asked for (R449): refused with an ERR and EV337, or started with EV335. [DEDUCED: log entry 216] -/
def retireChannel (ch : Nat) (s : State) : State :=
  let n := s.dramChannels.length
  let st := Tab.at s.dmc.ch ch 0
  let refuse := fun (e : Nat) (s : State) => raiseObj 337 ch 0 (onDmc (fun d => { d with retErr := e }) s)
  if s.dmc.retState = 1 then s
  else if st ≠ 1 ∧ st ≠ 2 then refuse 1 s
  else if n = 1 then refuse 3 s
  else if s.dmc.retiredThisCycle then refuse 4 s
  else if s.totalSlabs * (n - 1) < s.allocSlabs * n then refuse 2 s
  else
    let k := s.allocSlabs
    let s := raiseObj 335 ch 0 (onDmc (fun d => { d with
      ch := Tab.put d.ch ch 3, retCh := ch, retState := 1, retErr := 0, toCopy := k, copied := 0, remap := [] }) s)
    if k = 0 then finishRetire s else s

/-- Automatic retirement (R449): 8 uncorrectable words, or EV341 twice, on a channel within 24 hours. -/
def autoRetire (ch : Nat) (s : State) : State :=
  let d := s.dmc
  let ue := ((lastDay s.wall d.ue).filter (fun p => p.1 == ch)).length
  let conc := ((lastDay s.wall d.concentrated).filter (fun p => p.1 == ch)).length
  if bit (s.reg 0x1000034 0) 0 ∧ (8 ≤ ue ∨ 2 ≤ conc) ∧ Tab.at d.ch ch 0 ≠ 3 ∧ Tab.at d.ch ch 0 ≠ 4 then retireChannel ch s else s

/-- Corrected bits are counted by device position: each 65 of one position within 24 hours are EV341 (R448). [DEDUCED: log entry 165] -/
def noteBits (w : Nat) (l : List Nat) (s : State) : State :=
  let (ch, c) := s.dramPlace (8 * w)
  l.foldl (fun s b =>
    let pos := devicePos ch (s.dramRank c) b
    let s := onDmc (fun d => { d with ce := lastDay s.wall d.ce ++ [(pos, s.wall)] }) s
    if (s.dmc.ce.filter (fun p => p.1 == pos)).length % 65 = 0 then
      autoRetire ch (raiseObj 341 pos 0 (onDmc (fun d => { d with concentrated := lastDay s.wall d.concentrated ++ [(ch, s.wall)] }) s))
    else s) s

/-- A corrected word: counted, logged, its bits counted. [DEDUCED: log entry 166] -/
def noteCorrected (unit source w : Nat) (x : Decoded) (s : State) : State :=
  noteBits w x.fixed (count1 0x1100014 (logEcc (dramEntry s unit source w x) s))

/-- An uncorrectable word is poisoned: rewritten with its data as read and P = 1 (R433); it is counted and logged. -/
def poisonWord (unit source w : Nat) (x : Decoded) (s : State) : State :=
  let ch := (s.dramPlace (8 * w)).1
  let s := count1 0x1100018 (logEcc (dramEntry s unit source w x) (putWord w x.data (encodeWord x.data true) s))
  autoRetire ch (onDmc (fun d => { d with ue := lastDay s.wall d.ue ++ [(ch, s.wall)] }) s)

/-! ### Consumers of poisoned data (R434, R437) -/

/-- A scene whose data are poisoned rolls back: reads of SLM with Unrecovered Read Error, the rest with Internal Error. [DEDUCED: log entry 173] -/
def failPoisoned (o : Nat) (s : State) : State :=
  match Tab.find s.scn.scenes o with
  | some c => rollBackRequest o (match c.kind with | .memRead .. | .memCopy _ => stUnrecovered | _ => stInternal) s
  | none => s

/-- A granule of a committed Wings slot becomes uncorrectable: its LBA, or the version it belongs to. -/
def loseGranule (slot g : Nat) (s : State) : State :=
  match Tab.find s.trl.wings slot with
  | none => s
  | some w =>
    match Tab.find s.obj.ns w.nsid with
    | none => s
    | some n =>
      if n.kv then
        onNs w.nsid (fun n => { n with vers := Tab.mapVals n.vers (fun _ v =>
          if v.first ≤ w.unit ∧ w.unit < v.first + v.units then { v with damaged := true } else v) }) s
      else clearUnits (some .uncorrectable) [(w.unit, [g])] (onNs w.nsid (badLbas ((w.unit - n.first) * 8 + g) 1) s)

/-- What the holder of poisoned data does (R434). [DEDUCED: log entry 173] -/
def consume (use : DramUse) (s : State) : State :=
  match use with
  | .none => s
  | .scene o => failPoisoned o s
  | .task h =>
    match s.smg.resolve h with
    | some (i, t) =>
      match t.scene.bind s.sceneNo with
      | some (o, _) => failPoisoned o s
      | none =>
        let (k, s) := takeFree s
        endEngine i ((Config.freeValue k).toNat % 255 + 1) s
    | none => s
  | .inv h => match Tab.find s.bob.invs h with | some v => failPoisoned v.scene s | none => s
  | .wings k g => loseGranule k g s
  | .shadow t i =>
    raiseObj 305 t 0 (onAsuTab t (fun a => { a with shadow := setEntryAt a.shadow i (Tab.find a.bank i) }) s)
  | .bobbin b => failBobbin b 1 s
  | .stripe k =>
    { s with trl := queueRefresh false k { s.trl with sbs := Tab.modify s.trl.sbs k (fun b => { b with closed := some (b.closed.getD s.cue.now) }) } }
  | .band k => refreshBand k { s with trl := { s.trl with bands := Tab.modify s.trl.bands k (fun b => { b with closed := true }) } }

/-- What a refused merge means to its requester (R437): its scene fails with Internal Error, its helper returns -1. -/
def refusedMerge (use : DramUse) (s : State) : State :=
  match use with
  | .scene o => rollBackRequest o stInternal s
  | .inv h => answerInv h (-1) s
  | _ => s

/-! ### Reads and writes (R434-R437) -/

/-- One word is read by a unit: corrected data, or poison. Answers whether it is poisoned. -/
def readWord (unit w : Nat) (fl : BitVec 80) (s : State) : Bool × State :=
  let raw := s.storedWord w ^^^ fl
  let x := decodeWord raw
  match x.kind with
  | .clean => (false, putWord w x.data raw s)
  | .corrected => (false, raiseObj 320 (8 * w) 0 (noteCorrected unit 0 w x (putWord w x.data raw s)))
  | .poisoned => (true, raiseObj 322 (8 * w) 0 (logEcc (dramEntry s unit 0 w x) (putWord w x.data raw s)))
  | .uncorrectable => (true, raiseObj 322 (8 * w) 0 (poisonWord unit 0 w x s))

/-- The line of an address is read (R434): its data go to the unit, poisoned words flagged. -/
def readLine (unit addr : Nat) (flips : List (Nat × BitVec 80)) (use : DramUse) (s : State) : State :=
  let w0 := addr / 64 * 8
  let r := (List.range 8).foldl (fun (acc : List Nat × State) k =>
    let p := readWord unit (w0 + k) (flipOf flips k) acc.2
    (if p.1 then acc.1 ++ [k] else acc.1, p.2)) ([], s)
  let s := emit (.dramData unit (64 * (addr / 64)) (memRead r.2.dram (8 * w0) 64) r.1) r.2
  if r.1 = [] then s else consume use s

/-- A word covered whole by a write: its poison is cleared (R433, EV325). -/
def clearPoison (w : Nat) (s : State) : State :=
  if (decodeWord (s.storedWord w)).kind = .poisoned then raiseObj 325 (8 * w) 0 s else s

/-- Words covered whole take their bytes clean. -/
def writeWords (w : Nat) (l : Bytes) (s : State) : State :=
  let n := l.length / 8
  let s := (List.range n).foldl (fun s k => clearPoison (w + k) s) s
  { s with
    dram := memWrite s.dram (8 * w) (l.take (8 * n))
    dmc := { s.dmc with words := s.dmc.words.filter (fun p => !decide (w ≤ p.1 ∧ p.1 < w + n)) } }

/-- A whole line is written. -/
def writeLine (addr : Nat) (line : Bytes) (s : State) : State := writeWords (addr / 64 * 8) (padTo (line.take 64) 64) s

/-- How much of a word a write covers. -/
inductive Cover where
  | no | part | whole
  deriving DecidableEq, Repr

/-- The cover of word `w` by bytes [a, a + n). -/
def coverOf (a n w : Nat) : Cover :=
  if 8 * w + 8 ≤ a ∨ a + n ≤ 8 * w then .no else if a ≤ 8 * w ∧ 8 * w + 8 ≤ a + n then .whole else .part

/-- A word of a merge that the write does not replace whole is written back as it decodes (R435, R436). -/
def mergeBack (unit a n w : Nat) (fl : BitVec 80) (s : State) : State :=
  let raw := s.storedWord w ^^^ fl
  let x := decodeWord raw
  match x.kind with
  | .clean => putWord w x.data raw s
  | .corrected =>
    let s := noteCorrected unit 2 w x (putWord w x.data (encodeWord x.data false) s)
    if coverOf a n w = .part then raiseObj 321 (8 * w) 0 s else s
  | .poisoned => putWord w x.data raw s
  | .uncorrectable => poisonWord unit 2 w x s

/-- One line's part of a narrow write (R435-R437): refused as a whole where a word it covers in part is uncorrectable or poisoned. [DEDUCED: log entry 167] -/
def mergeLine (unit a : Nat) (l : Bytes) (flips : List (Nat × BitVec 80)) (use : DramUse) (s : State) : State :=
  let w0 := a / 64 * 8
  let n := l.length
  let ws := (List.range 8).map (fun k => w0 + k)
  let bad := ws.any (fun w => coverOf a n w == .part &&
    (match (decodeWord (s.storedWord w ^^^ flipOf flips (w - w0))).kind with | .poisoned | .uncorrectable => true | _ => false))
  let back := fun (s : State) => ws.foldl (fun s w =>
    if coverOf a n w = .whole ∧ !bad then clearPoison w s else mergeBack unit a n w (flipOf flips (w - w0)) s) s
  if bad then
    refusedMerge use (emit (.dramError unit a) (raiseObj 324 a 0 (count1 0x1100028 (back s))))
  else
    let s := back s
    let s := { s with dram := memWrite s.dram a l }
    onDmc (fun d => { d with words := d.words.filter (fun p => coverOf a n p.1 == .no) }) s

/-- A narrow write, line by line. -/
def mergeLines (unit : Nat) (flips : List (Nat × BitVec 80)) (use : DramUse) : Nat → Nat → Bytes → State → State
  | 0, _, _, s => s
  | f + 1, a, l, s =>
    if l = [] then s
    else
      let n := 64 - a % 64
      mergeLines unit flips use f (a + n) (l.drop n) (mergeLine unit a (l.take n) flips use s)

/-! ### Rows (R440), requests, waits -/

/-- A request opens its row: hits, conflicts and activates are counted, the history goes on, the row stays open or closes. [DEDUCED: log entry 169] -/
def touchRow (key row ch : Nat) (s : State) : State :=
  let thr := bits (s.reg 0x1000020 0xC802) 2 0
  let idle := bits (s.reg 0x1000020 0xC802) 19 8
  let b := Tab.at s.dmc.banks key {}
  let opened := if b.at' + idle ≤ s.wall then none else b.row
  let hist := if b.last.isNone then b.hist else (2 * b.hist + b2n (b.last == some row)) % 16
  let hit := opened == some row
  let s := count1 ((if hit then 0x1000104 else 0x1000100) + 0x20 * ch) s
  let s := if !hit ∧ opened.isSome then count1 (0x1000108 + 0x20 * ch) s else s
  let keep := decide (thr ≤ countBits 4 (fun i => hist.testBit i))
  onDmc (fun d => { d with banks := Tab.put d.banks key { b with
    row := if keep then some row else none, last := some row, hist := hist, at' := s.wall
    acts := if hit then b.acts else b.acts + 1 } }) s

/-- The address of a request. -/
def DramReq.addr : DramReq → Nat
  | .read _ a _ _ => a
  | .write _ a _ => a
  | .merge _ a _ _ _ => a

/-- A request is served. -/
def serve (r : DramReq) (s : State) : State :=
  match r with
  | .read u a f use => readLine u a f use s
  | .write _ a l => writeLine a l s
  | .merge u a l f use => mergeLines u f use (l.length / 64 + 2) a l s

/-- Must a request to a channel's block and bank wait (R441, R443-R446, R450)? [DEDUCED: log entry 175] -/
def dramWaits (s : State) (ch c key row : Nat) : Bool :=
  let d := s.dmc
  let b := Tab.at d.banks key {}
  decide (0 < d.unlockTries) || d.freq == .relock || d.freq == .exiting || (d.freq == .entering && decide (4 ≤ d.attempts)) ||
  d.exits.contains ch || (d.retState == 1 && d.retCh == ch && c / 2 ^ 20 == d.copied) ||
  (d.rfmMax != 0 && decide (d.rfmMax ≤ b.acts) && b.row != some row)

/-- A request reaches its channel (R438, R444, R445): it abandons a change that has not committed, wakes the channel from idle
self-refresh, waits, or is served. [DESIGN CHOICE: log entry 176] -/
def dramRequest (r : DramReq) (s : State) : State :=
  let (ch, c) := s.dramPlace r.addr
  let (key, row) := s.dramBank ch c
  let s := onDmc (fun d => { d with lastReq := Tab.put d.lastReq ch s.wall }) s
  let s := if s.dmc.freq = .entering ∧ s.dmc.attempts < 4 then
      raiseObj 332 ch 0 (onDmc (fun d => { d with freq := .retry, abandons := d.abandons + 1 }) s)
    else s
  let s := if Tab.at s.dmc.ch ch 0 = 2 then onDmc (fun d => { d with ch := Tab.put d.ch ch 1, exits := setAdd d.exits ch }) s else s
  let depth := (s.dmc.waiting.filter (fun q => (s.dramBank (s.dramPlace q.addr).1 (s.dramPlace q.addr).2).1 == key)).length + 1
  let s := countHigh (0x1000114 + 0x20 * ch) (min depth 16) s
  if dramWaits s ch c key row then
    let b := Tab.at s.dmc.banks key {}
    let s := if s.dmc.rfmMax ≠ 0 ∧ s.dmc.rfmMax ≤ b.acts ∧ b.row ≠ some row then raiseObj 334 key 0 s else s
    onDmc (fun d => { d with waiting := d.waiting ++ [r] }) s
  else serve r (touchRow key row ch s)

/-- Requests that waited are taken again in arrival order. [DEDUCED: log entry 175] -/
def drainDram (s : State) : State :=
  let l := s.dmc.waiting
  l.foldl (fun s r => dramRequest r s) (onDmc (fun d => { d with waiting := [] }) s)

/-- A DRAM read (R434, R438). -/
def doDramRead (unit addr : Nat) (flips : List (Nat × BitVec 80)) (use : DramUse) (s : State) : State :=
  onlyIf s.runs (dramRequest (.read unit addr flips use)) s

/-- A DRAM write of a whole line (R438). -/
def doDramWrite (unit addr : Nat) (line : Bytes) (s : State) : State := onlyIf s.runs (dramRequest (.write unit addr line)) s

/-- A narrow write (R435). -/
def doMergeWrite (unit addr : Nat) (bytes : Bytes) (flips : List (Nat × BitVec 80)) (use : DramUse) (s : State) : State :=
  onlyIf s.runs (dramRequest (.merge unit addr bytes flips use)) s

/-! ### Refresh, temperature, frequency (R441-R446) -/

/-- A same-bank refresh or RFM closes the bank's row; an RFM lowers its activation counter and lets held requests go (R441). [PRESUMED: log entry 170] -/
def doRefreshDue (ch rank bank : Nat) (rfm : Bool) (s : State) : State :=
  let key := ch * 64 + rank * 32 + bank
  if !s.runs ∨ Tab.at s.dmc.ch ch 0 = 0 ∨ 32 ≤ bank ∨ 2 ≤ rank then s
  else
    let s := onDmc (fun d => { d with banks := Tab.update d.banks key {} (fun (b : DramBank) => { b with
      row := none, acts := if rfm then b.acts - d.rfmInitial else b.acts }) }) s
    if rfm then drainDram (count1 (0x100010C + 0x20 * ch) s) else s

/-- A change of the timing set is asked for (R442): ignored for the set in effect; kept while another runs or a block is being copied. -/
def requestFreq (toB : Bool) (s : State) : State :=
  let d := s.dmc
  if d.freq = .idle ∧ d.setB = toB then s
  else if d.freq ≠ .idle then (if d.toB = toB then s else onDmc (fun d => { d with freqWaits := some toB }) s)
  else if d.retState = 1 then onDmc (fun d => { d with freqWaits := some toB }) s
  else onDmc (fun d => { d with freq := .entering, toB := toB, attempts := 1, abandons := 0, freqStart := s.cue.now }) s

/-- A request that waited for another change or a block copy. -/
def nextFreq (s : State) : State :=
  match s.dmc.freqWaits with
  | some b => requestFreq b (onDmc (fun d => { d with freqWaits := none }) s)
  | none => s

/-- Temperatures of the ranks that have reported. -/
def State.hottest (s : State) : Nat := s.dmc.temp.foldl (fun m p => max m p.2) 0

/-- A rank's temperature and refresh-rate indication are read (R441, R442): above HI the controller moves to set B. -/
def doRankRateRead (ch rank celsius rate : Nat) (s : State) : State :=
  if !s.runs ∨ Tab.at s.dmc.ch ch 0 = 0 ∨ 2 ≤ rank then s
  else
    let th := s.reg 0x1000018 0x5A0050
    let k := ch * 2 + rank
    let s := onDmc (fun d => { d with temp := Tab.put d.temp k (celsius % 256), rates := Tab.put d.rates k rate }) s
    let cool := decide (s.hottest < bits th 7 0)
    let s := onDmc (fun d => { d with coolSince := if cool then some (d.coolSince.getD s.wall) else none }) s
    if bits th 23 16 < celsius ∧ !s.dmc.setB ∧ s.dmc.freq = .idle then requestFreq true (raiseObj 333 k 0 s) else s

/-- Every rank has stayed below LO for 1 s: back to set A (R442). -/
def doThermalReturnTimer (s : State) : State :=
  match s.dmc.coolSince with
  | some t => if t + 1000000000 ≤ s.wall ∧ s.dmc.setB ∧ s.dmc.freq = .idle then requestFreq false (raiseObj 333 0 0 s) else s
  | none => s

/-- DMC_FREQ_CTRL 0b01. -/
def doDmcFreqToA (s : State) : State := onlyIf (writable s false) (requestFreq false) s

/-- DMC_FREQ_CTRL 0b10. -/
def doDmcFreqToB (s : State) : State := onlyIf (writable s false) (requestFreq true) s

/-- All channels have issued SRE (R443): the second PLL re-locks. -/
def doSelfRefreshCommitted (s : State) : State :=
  if s.dmc.freq = .entering then { onDmc (fun d => { d with freq := .relock }) s with clk := { s.clk with dramRelock := true } } else s

/-- The rate of a timing set. -/
def State.setRate (s : State) (b : Bool) : Nat := if b then s.dmc.mtsLow else s.clkPlan.1

/-- The second PLL locks: the channels exit under the new set (R443). -/
def doPllRelocked (s : State) : State :=
  if s.dmc.freq = .relock then
    { onDmc (fun d => { d with freq := .exiting, setB := d.toB }) s with
      clk := { s.clk with dramRelock := false, dramLock := true, dramMts := s.setRate s.dmc.toB } }
  else s

/-- tXS has passed after an exit (R443-R445): a change is done, requests resume. -/
def doTxsElapsed (s : State) : State :=
  if s.dmc.freq = .exiting then
    let s := onDmc (fun d => { d with freq := .idle, lastTook := min ((s.cue.now - d.freqStart) / 100) 65535, exits := [] }) s
    nextFreq (drainDram (raiseObj 331 (b2n s.dmc.setB) 0 s))
  else if s.dmc.exits ≠ [] then drainDram (onDmc (fun d => { d with exits := [] }) s)
  else s

/-- Every queue is empty: an abandoned change is tried again, for the fourth time holding every request (R444). -/
def doFreqChangeRetry (s : State) : State :=
  if s.dmc.freq = .retry ∧ s.dmc.waiting = [] then onDmc (fun d => { d with freq := .entering, attempts := d.attempts + 1 }) s else s

/-- A channel without a request for DMC_SR_IDLE us enters self-refresh (R445). -/
def doIdleSelfRefresh (ch : Nat) (s : State) : State :=
  let us := s.reg 0x100001C 200
  if us ≠ 0 ∧ s.runs ∧ Tab.at s.dmc.ch ch 0 = 1 ∧ s.dmc.freq = .idle ∧ Tab.at s.dmc.lastReq ch 0 + us * 1000 ≤ s.wall ∧
      !s.dmc.exits.contains ch then
    onDmc (fun d => { d with ch := Tab.put d.ch ch 2 }) s
  else s

/-- The second PLL loses lock outside a change (R446): the channels restart; the third failed attempt halts the device, and the commits
that were only in DRAM are lost. -/
def doDramPllUnlock (recovered : Bool) (s : State) : State :=
  if !s.runs ∨ s.dmc.mask = 0 ∨ s.dmc.freq = .relock ∨ s.dmc.freq = .exiting then s
  else
    let s := if s.dmc.unlockTries = 0 then
        raiseObj 338 0 0 { s with clk := { s.clk with warn := s.clk.warn ||| 2, dramLock := false } }
      else s
    if recovered then
      drainDram { onDmc (fun d => { d with unlockTries := 0 }) s with clk := { s.clk with dramLock := true } }
    else if s.dmc.unlockTries + 1 < 3 then onDmc (fun d => { d with unlockTries := d.unlockTries + 1 }) s
    else
      let s := raiseObj 339 0 0 (onDmc (fun d => { d with unlockTries := 3 }) s)
      let s := { s with trl := { s.trl with short := if s.trl.restored then some 0 else s.trl.short } }
      halt (rollBackAll s)

/-! ### The scrubber and SRAM (R447, R448) -/

/-- One word is scrubbed: corrected and written back clean, or poisoned. [DEDUCED: log entry 166] -/
def scrubWord (w : Nat) (fl : BitVec 80) (s : State) : State :=
  let raw := s.storedWord w ^^^ fl
  let x := decodeWord raw
  match x.kind with
  | .clean => putWord w x.data raw s
  | .corrected => raiseObj 320 (8 * w) 0 (noteCorrected 0xFF 1 w x (putWord w x.data (encodeWord x.data false) s))
  | .poisoned => logEcc (dramEntry s 0xFF 1 w x) (putWord w x.data raw s)
  | .uncorrectable => raiseObj 323 (8 * w) 0 (poisonWord 0xFF 1 w x s)

/-- A pass more than 1% of its period behind is recorded once (R447). -/
def noteBehind (total : Nat) (s : State) : State :=
  let period := s.scrubRec.1 * 3600000000000
  let due := if period = 0 then 0 else total * (s.wall - s.dmc.passStart) / period
  if !s.dmc.behind ∧ s.dmc.pos + total / 100 < due then raiseObj 330 0 0 (onDmc (fun d => { d with behind := true }) s) else s

/-- The scrubber reads one DRAM line, and ends its pass after the last allocated one (R447). -/
def scrubDram (flips : List (Nat × BitVec 80)) (s : State) : State :=
  let total := s.allocSlabs * s.slabBytes
  if total = 0 then s
  else
    let s := noteBehind total s
    let p := if total ≤ s.dmc.pos then 0 else s.dmc.pos
    let s := (List.range 8).foldl (fun s k => scrubWord (p / 8 + k) (flipOf flips k) s) s
    let ch := (s.dramPlace p).1
    let s := onDmc (fun d => { d with pos := p + 64, lastReq := Tab.put d.lastReq ch s.wall }) s
    if p + 64 < total then s
    else raiseObj 328 0 0 (onDmc (fun d => { d with pos := 0, dramPasses := (d.dramPasses + 1) % 65536, passStart := s.wall, behind := false }) s)

/-- An SRAM word's entry in ECC_LOG. -/
def sramEntry (s : State) (unit source addr : Nat) (x : Decoded) : EccRec :=
  { uncorr := x.kind != .corrected, source := source, memory := 8, bit1 := x.fixed.getD 0 0xFF, bit0 := x.fixed.getD 1 0xFF,
    unit := unit, addr := addr, cue := s.cue.now }

/-- An SRAM word is read: corrected in place (EV326), or poisoned (EV327); answers what it was (R448). [DESIGN CHOICE: log entry 172] -/
def sramWord (mem unit source addr : Nat) (fl : BitVec 80) (s : State) : WordKind × State :=
  let key := mem * 2 ^ 32 + addr
  let raw := Tab.at s.dmc.sram key 0 ^^^ fl
  let x := decodeWord raw
  let keep := fun (v : BitVec 80) (s : State) => onDmc (fun d => { d with sram := if v = 0 then Tab.del d.sram key else Tab.put d.sram key v }) s
  match x.kind with
  | .clean => (.clean, s)
  | .corrected => (.corrected, raiseObj 326 addr 0 (count1 0x110001C (logEcc (sramEntry s unit source addr x) (keep 0 s))))
  | .poisoned => (.poisoned, raiseObj 327 addr 0 (logEcc (sramEntry s unit source addr x) (keep raw s)))
  | .uncorrectable =>
    (.uncorrectable, raiseObj 327 addr 0 (count1 0x1100020 (logEcc (sramEntry s unit source addr x) (keep (encodeWord x.data true) s))))

/-- A Bobbin's corrected words: more than 16 in 24 hours retire it (R310). -/
def noteBobWord (b : Nat) (s : State) : State :=
  match Tab.find s.bob.map b with
  | none => s
  | some k =>
    let s := onCore k (fun c => { c with corrected := (c.corrected.filter (fun t => decide (s.wall < t + dayNs))) ++ [s.wall] }) s
    if 16 < (s.core k).corrected.length then failBobbin b 2 s else s

/-- An SRAM read (R448, R434). [DESIGN CHOICE: log entry 172] -/
def doSramRead (mem unit addr : Nat) (fl : BitVec 80) (use : DramUse) (s : State) : State :=
  if !s.powered then s
  else
    let (k, s) := sramWord mem unit 0 addr fl s
    match k with
    | .clean => s
    | .corrected => match use with | .bobbin b => noteBobWord b s | _ => s
    | _ => consume use s

/-- The scrubber reads one line of DRAM, or one word of SRAM, which may be the last of its pass (R447). [DESIGN CHOICE: log entry 172] -/
def doScrubLine (flips : List (Nat × BitVec 80)) (sramEnd : Option Bool) (s : State) : State :=
  if !s.runs then s
  else
    match sramEnd with
    | none => if dramWaits s 4 0 0 0 then s else scrubDram flips s
    | some last =>
      let s := (sramWord 0 0xFF 1 s.dmc.sramPos (flipOf flips 0) s).2
      if last then raiseObj 329 0 0 (onDmc (fun d => { d with sramPos := 0, sramPasses := (d.sramPasses + 1) % 65536 }) s)
      else onDmc (fun d => { d with sramPos := d.sramPos + 1 }) s

/-- DMC_RETIRE_CTRL RETIRE (R449). [DEDUCED: log entry 216] -/
def doDmcRetire (ch : Nat) (s : State) : State := onlyIf (writable s false && decide (ch < 4)) (retireChannel ch) s

/-- A block of the retiring channel is copied and remapped to the lowest free block; requests to it go on; after the last one the channel
is stopped (R450). -/
def doBlockCopyDone (s : State) : State :=
  let d := s.dmc
  if d.retState ≠ 1 ∨ !s.runs then s
  else
    let others := s.dramChannels.filter (fun c => c != d.retCh)
    let m := max 1 others.length
    let i := d.copied
    let s := onDmc (fun d => { d with
      copied := i + 1, remap := Tab.put d.remap i (others.getD (i % m) 0, s.allocSlabs + i / m)
      slabsLost := if i % m = 0 then d.slabsLost + 1 else d.slabsLost }) s
    let s := drainDram s
    if i + 1 < d.toCopy then
      match s.dmc.freqWaits with
      | some b =>
        if s.dmc.freq = .idle ∧ s.dmc.setB ≠ b then
          onDmc (fun d => { d with freqWaits := none, freq := .entering, toB := b, attempts := 1, abandons := 0, freqStart := s.cue.now }) s
        else onDmc (fun d => { d with freqWaits := none }) s
      | none => s
    else nextFreq (finishRetire s)

/-! ### What the DMC_ and ECC_ registers show (R454, R455) -/

/-- DMC_CH_STATE of a channel. -/
def State.chState (s : State) (n : Nat) : Nat :=
  let c := Tab.at s.dmc.ch n 0
  if s.dmc.freq = .relock ∧ (c = 1 ∨ c = 3) then 2 else c

/-- The DMC_ registers. -/
def dmcView (s : State) (o : Nat) : Option Nat :=
  let d := s.dmc
  if o = 0x1000004 then some (((List.range 4).map (fun n => s.chState n * 2 ^ (8 * n))).sum)
  else if o = 0x1000008 then some (s.clkPlan.1)
  else if o = 0x1000014 then
    some (field d.lastTook 16 16 + field d.abandons 8 8 + flag (d.freq != .idle) 4 + flag d.setB 0)
  else if o = 0x1000024 then some s.allocSlabs
  else if o = 0x1000028 then some s.totalSlabs
  else if o = 0x1000030 then
    some (field (if d.toCopy = 0 then b2n (d.retState == 2) * 100 else d.copied * 100 / d.toCopy) 8 16 + field d.retErr 8 8 +
      field d.retCh 2 4 + field d.retState 4 0)
  else if 0x1000110 ≤ o ∧ o < 0x1000180 ∧ (o - 0x1000110) % 0x20 = 0 then
    let n := (o - 0x1000110) / 0x20
    some (field (Tab.at d.temp (2 * n + 1) 0) 8 8 + field (Tab.at d.temp (2 * n) 0) 8 0)
  else none

/-- The entry that ECC_LOG_SEL selects. [DEDUCED: log entry 168] -/
def State.eccEntry (s : State) : Option EccRec := s.dmc.log[s.reg 0x110002C 0]?

/-- The ECC_ registers. -/
def eccView (s : State) (o : Nat) : Option Nat :=
  let d := s.dmc
  let e := s.eccEntry
  if o = 0x1100004 then some (field s.scrubRec.2 16 16 + field s.scrubRec.1 16 0)
  else if o = 0x1100008 then some (d.pos % 2 ^ 32)
  else if o = 0x110000C then some (d.pos / 2 ^ 32)
  else if o = 0x1100010 then some (field d.sramPasses 16 16 + field d.dramPasses 16 0)
  else if o = 0x1100024 then some (min (Tab.count d.words (fun _ v => (decodeWord v).kind == .poisoned)) (2 ^ 32 - 1))
  else if o = 0x1100030 then some ((e.map (fun r => r.addr % 2 ^ 32)).getD 0)
  else if o = 0x1100034 then some ((e.map (fun r => r.addr / 2 ^ 32)).getD 0)
  else if o = 0x1100038 then
    some (match e with
      | some r => flag true 31 + flag r.uncorr 30 + field r.source 2 28 + field r.memory 4 24 + field r.bit1 8 16 + field r.bit0 8 8 +
          field r.unit 8 0
      | none => 0xFFFF00)
  else if o = 0x110003C then some ((e.map (fun r => r.cue % 2 ^ 32)).getD 0)
  else if o = 0x1100040 then some ((e.map (fun r => r.cue / 2 ^ 32)).getD 0)
  else if o = 0x1100048 then some ((lastDay s.wall d.ce).filter (fun p => p.1 == s.reg 0x1100044 0)).length
  else none

end Sys2Proof.Machine
end

