-- ==== Sys2Proof/Machine/Power.lean ====
section
/-! DEFINITION. Supplies, resets, the harbour's seal, temperature, aging, rails (19_states_power_life.md, R476-R498, R501, R502;
20_package_electrical.md, R507, R508). -/
namespace Sys2Proof.Machine

/-- Supplies and temperatures changed. -/
def onPwr (f : PwrState → PwrState) (s : State) : State := { s with pwr := f s.pwr }

/-- The device's states changed. -/
def onDev (f : DevState → DevState) (s : State) : State := { s with dev := f s.dev }

/-! ### What a time in Dark keeps -/

/-- Records in no copy are lost: those still open, and those of a page that waits for both copies (R469). -/
def EvtState.unsaved (e : EvtState) (r : EvRec) : Bool :=
  r.isOpen || (Tab.has e.wait1 (r.recno / 64) && Tab.has e.wait2 (r.recno / 64))

/-- What the Sampler copies, the checkpoint and the Safety Curtain keep of the events (R462-R471). [DEDUCED: log entry 177] -/
def keepEvt (saved : SavedLogs) (opSec : Nat) (e : EvtState) : EvtState :=
  { running := e.running.filter (fun p => !e.unsaved p.2), foot := e.foot.filter (fun p => !e.unsaved p.2)
    reserveUsed := e.reserveUsed, next := e.next, pinFull := e.pinFull, secSeq := e.secSeq, opSecBase := opSec
    powerCycles := e.powerCycles, routeAge := e.routeAge, logs := saved.logs }

/-- No reader outlives a time in Dark: superseded versions are freed (R143). -/
def dropReaders (s : State) : State :=
  let s := { s with obj := { s.obj with ns := Tab.mapVals s.obj.ns (fun _ n =>
    { n with vers := Tab.mapVals n.vers (fun _ v => { v with readers := 0 }) }) } }
  s.obj.ns.foldl (fun s p => p.2.vers.foldl (fun s v => if v.2.superseded then endRead p.1 v.1 s else s) s) s

/-- Namespaces and counters on media, and what the newest checkpoint saved (R143, R155, R356). -/
def keepObj (o : ObjState) : ObjState :=
  { ns := o.ns, counters := o.counters, board := o.saved.board, boardNext := o.saved.boardNext, slotGen := o.saved.slotGen
    privates := o.saved.privates, undo := o.undo, saved := o.saved }

/-- Map, stripe blocks, bands, journal and harbour on media; nothing is in progress. -/
def keepTrl (t : TrlState) : TrlState :=
  { flash := t.flash, plat := t.plat, runs := t.runs, quota := t.quota, map := t.map, fine := t.fine
    wings := Tab.mapVals t.wings (fun _ w => { w with posted := false }), unflushed := t.unflushed, writeSeq := t.writeSeq
    sbs := Tab.mapVals t.sbs (fun _ b => { b with reads := 0 }), bands := t.bands, freeBlks := t.freeBlks
    retiredBlks := t.retiredBlks, retiredBands := t.retiredBands, refreshQ := t.refreshQ
    jnext := t.jnext, jwritten := t.jwritten, jflash := t.jflash, jsince := t.jsince, ckptCue := t.ckptCue, dumpMs := t.dumpMs
    harbourCue := t.harbourCue, sealed := t.sealed, short := t.short, brickId := t.brickId, final := t.final }

/-- Dies and the replacement of a group, through the checkpoint (R218, R221, R222). -/
def keepFlc (f : FlcState) : FlcState :=
  { luns := Tab.mapVals f.luns (fun _ l => { l with readQ := [], reading := none, passed := 0, resets := 0, stuck := 0, lastStuck := none })
    hrGroup := f.hrGroup, hr := f.hr, hrErr := f.hrErr, hrTotal := f.hrTotal, kept := f.kept }

/-- The cue floor of the next start-up (R54, R188): the highest cue in the checkpoint, the journal and the harbour. [DESIGN CHOICE: log entry 189] -/
def State.nextFloor (s : State) : Nat :=
  let commits := match s.trl.short, s.obj.undo with
    | some _, u :: _ => u.latest
    | _, _ => s.scn.latest
  max s.cue.floor (max (max s.trl.ckptCue s.trl.harbourCue) commits)

/-- The device goes to Dark (R476): what media, the boot flash and the Safety Curtain keep stays, everything else is as at reset. [DEDUCED: log entry 178] -/
def goDark (s : State) : State :=
  let s := dropReaders (if s.powered then transition .dark s else s)
  { State.reset with
    pending := s.pending, free := s.free, out := s.out, obj := keepObj s.obj, trl := keepTrl s.trl, flc := keepFlc s.flc
    evt := keepEvt s.obj.saved s.opSeconds s.evt
    prk := { lastRecs := s.prk.lastRecs, slot0 := s.prk.slot0, slot1 := s.prk.slot1, activeSlot := s.prk.activeSlot, floor := s.prk.floor
             ownerStore := s.prk.ownerStore }
    cue := { floor := s.nextFloor }
    dev := { boot := s.dev.boot, fwSlots := s.dev.fwSlots, fwFloor := s.dev.fwFloor, serial := s.dev.serial, mac := s.dev.mac }
    pwr := { lossCount := s.pwr.lossCount, holdupLast := s.pwr.holdupLast, vcoreReq := s.pwr.vcoreReq, ageAt := s.pwr.ageAt }
    saf := { slot1 := s.saf.slot1 }
    scr := { store := s.scr.store, nsSecrets := s.scr.nsSecrets, tenantSecrets := s.scr.tenantSecrets, reserved := s.scr.reserved } }

/-! ### Release from reset and boot (R480, R485, R486) -/

/-- Every rail in tolerance. -/
def allRails : Nat := 0x7FF

/-- PERST_N rises with the conditions of R480 met: counters start from zero (R54), the root key is derived, the boot ROM runs. -/
def startBoot (s : State) : State :=
  let s := { s with
    wall := 0
    cue := { s.cue with now := 0 }
    evt := { s.evt with powerCycles := (s.evt.powerCycles + 1) % 2 ^ 24 }
    clk := { s.clk with rootLock := true }
    scr := { s.scr with rootReady := true, rngOk := true } }
  onPwr (fun p => { p with railGood := allRails }) (onDev (fun d => { d with
    perstHigh := true, lossHigh := true, waitSupplies := false, booting := true, booted := 0, tried := [] }) s)

/-- PERST_N rises (R480): the device leaves Dark, or waits for the last condition. -/
def doResetRelease (c : PowerConditions) (s : State) : State :=
  if s.powered ∨ s.dev.perstHigh then s
  else if c.refclkStable ∧ c.railsStable ∧ c.lossHigh then startBoot s
  else
    onPwr (fun p => { p with railGood := if c.railsStable then allRails else p.railGood })
      (onDev (fun d => { d with perstHigh := true, lossHigh := c.lossHigh, waitSupplies := true }) s)

/-- The last condition of R480 is met after PERST_N rose. -/
def doSupplyConditionsMet (s : State) : State := onlyIf (s.dev.perstHigh && s.dev.waitSupplies) startBoot s

/-- The slots in the order the boot ROM tries them (R485). -/
def BootRecord.order (b : BootRecord) : List Nat :=
  [b.fwNext, b.fwGood, 1, 2, 3].foldl (fun l k => if 1 ≤ k ∧ k ≤ 3 then setAdd l k else l) []

/-- House Lights are entered (R476, R508): PWR_SEALED falls, the core voltage request reads at least 750 mV. -/
def enterHouseLights (s : State) : State :=
  let s := onPwr (fun p => { p with sealedPin := false, vcoreReq := max 750 p.vcoreReq }) s
  transition .houseLights (onDev (fun d => { d with booting := false, holdAtBoot := d.boot.hold }) s)

/-- The boot ROM reads the next firmware slot (R485): it boots, or the next is tried; with none left the device enters recovery (R486). -/
def doFirmwareSlotRead (readOk verified : Bool) (s : State) : State :=
  let d := s.dev
  if !d.booting ∨ s.powered then s
  else
    match d.boot.order.find? (fun k => !d.tried.contains k) with
    | none => s
    | some k =>
      let boots : Option FwSlot := (Tab.find d.fwSlots k).bind (fun x =>
        if readOk && verified && x.readable && x.verifies && decide (d.fwFloor ≤ x.svn) then some x else none)
      match boots with
      | some x =>
        let fall := decide (k ≠ d.boot.fwNext)
        let s := onSaf (fun f => { f with imageActive := x.safetyImage, imageStandby := x.safetyImage, standbyReady := true })
          (onDev (fun d => { d with booted := k, bootedSvn := x.svn, fwFallback := fall }) s)
        let s := enterHouseLights s
        if fall then raise 402 0 k 0 0 s else s
      | none =>
        let s := onDev (fun d => { d with tried := setAdd d.tried k }) s
        if s.dev.boot.order.all (fun k => s.dev.tried.contains k) then enterHouseLights (onDev (fun d => { d with recovery := true }) s) else s

/-- A boot record is written to the copy that does not hold the newer one (R483). -/
def writeBoot (f : BootRecord → BootRecord) (s : State) : State :=
  onDev (fun d => { d with boot := { f d.boot with seq := d.boot.seq + 1, copyB := !d.boot.copyB } }) s

/-- DEV_CTRL GO (R501): ignored outside House Lights. -/
def doDevGo (s : State) : State := onlyIf (writable s false && s.dev.phase == .houseLights) (onDev (fun d => { d with go := true })) s

/-- DEV_CTRL SET_HOLD: the boot record, for the next start-up. -/
def doDevSetHold (s : State) : State := onlyIf (writable s false) (writeBoot (fun b => { b with hold := true })) s

/-- DEV_CTRL CLEAR_HOLD. -/
def doDevClearHold (s : State) : State := onlyIf (writable s false) (writeBoot (fun b => { b with hold := false })) s

/-! ### Losses and resets while running (R186, R187, R489-R492) -/

/-- A load in progress is left with the previous configuration (R43). -/
def dropLoad (s : State) : State := if s.prk.phase = .idle then s else abandonLoad s.prk.err 0 s

/-- A loss, a reset or a thermal shutdown stops the device: with the map restored by the harbour sequence, before it by a plain halt. -/
def stopDevice (cause : Nat) (s : State) : State :=
  if s.trl.restored ∧ s.dev.phase ≠ .curtainDown then beginHarbour cause (dropLoad s) else haltPlain (dropLoad s)

/-- PWR_LOSS_N low: a pulse shorter than 2 us is ignored (R491); the sequence starts once (R187, R492). -/
def doPowerLoss (ns : Nat) (s : State) : State :=
  if ns < 2000 then s
  else
    let s := onDev (fun d => { d with lossHigh := false }) s
    if !s.powered ∨ s.pwr.harbour.isSome ∨ s.dev.halted then s else stopDevice 0 s

/-- PERST_N low for 2 us: Dark at the seal (R489), at once where nothing is to be saved (R490), deferred by a running sequence (R492). -/
def doPerstAssert (ns : Nat) (s : State) : State :=
  if ns < 2000 ∨ !s.dev.perstHigh then s
  else
    let s := onDev (fun d => { d with perstHigh := false, waitSupplies := false, booting := false }) s
    if s.pwr.harbour.isSome then onPwr (fun p => { p with perstDeferred := true }) (raise 403 0 0 0 0 s)
    else if !s.powered ∨ s.dev.halted ∨ s.dev.phase = .curtainDown then goDark s
    else
      let s := stopDevice 1 s
      if s.pwr.harbour.isSome then s else goDark s

/-- The seal record is written (R186, R187, R481): the device halts; a PERST_N that waited is taken. [DEDUCED: log entry 178] -/
def doHarbourSeal (s : State) : State :=
  match s.pwr.harbour with
  | none => s
  | some h =>
    let us := (s.wall - h.start) / 1000
    let s := sealHarbour (raise 394 0 us 0 0 s)
    let s := halt { s with trl := { s.trl with dumpMs := us / 1000 } }
    let s := onPwr (fun p => { p with harbour := none, perstDeferred := false, holdupLast := min us (2 ^ 32 - 1) }) s
    if s.dev.perstHigh then s else goDark s

/-- 120 ms after the sequence began a deferred PERST_N is taken unsealed (R492): how many commits the harbour holds is a free value. [DEDUCED: log entry 185] -/
def takeDeferredPerst (s : State) : State :=
  match s.pwr.harbour with
  | some h =>
    if s.pwr.perstDeferred ∧ h.start + 120000000 ≤ s.wall then
      let (k, s) := takeFree s
      goDark { s with trl := { s.trl with short := some ((Config.freeValue k).toNat % (s.obj.undo.length + 1)) } }
    else s
  | none => s

/-- The board removes the supplies (R476): where the harbour has no valid seal, it holds the first `held` commits that were not on media. [DEDUCED: log entry 185] -/
def doSuppliesRemoved (held : Nat) (s : State) : State :=
  let s := onDev (fun d => { d with perstHigh := false }) s
  goDark (if s.harbourNeeded then { s with trl := { s.trl with short := some held } } else s)

/-! ### Temperature (R494-R496) -/

/-- The thresholds in degrees. -/
def State.tempWarnAt (s : State) : Nat := s.reg 0x140001C 0x64
def State.tempThrottleAt (s : State) : Nat := s.reg 0x1400020 0x69
def State.tempShutdownAt (s : State) : Nat := s.reg 0x1400024 0x78

/-- Is the composite temperature at or above a number of degrees? -/
def State.hotAt (s : State) (c : Nat) : Bool := decide ((c : Int) * 256 ≤ s.composite)

/-- The composite temperature against the warning threshold: EV397. [DEDUCED: log entry 187] -/
def tempWarning (s : State) : State :=
  let w := s.hotAt s.tempWarnAt
  let new := w && !s.pwr.tempWarn
  let s := onPwr (fun p => { p with tempWarn := w }) s
  if new then raise 397 0 0 0 0 s else s

/-- Throttling starts: EV398 (R495). [DEDUCED: log entry 187] -/
def tempThrottle (s : State) : State :=
  if s.hotAt s.tempThrottleAt ∧ !s.pwr.throttling then
    raise 398 0 0 0 0 (onPwr (fun p => { p with throttling := true, throttleAt := s.wall }) s)
  else s

/-- Thermal shutdown (R496): no effect on a running harbour sequence (R492). [DEDUCED: log entry 187] -/
def tempShutdown (s : State) : State :=
  if s.hotAt s.tempShutdownAt ∧ s.pwr.harbour.isNone ∧ !s.dev.halted ∧ s.dev.phase ≠ .curtainDown then stopDevice 2 (raise 399 0 0 0 0 s)
  else s

/-- A die sensor beyond its limits (R414). [DEDUCED: log entry 187] -/
def sensorAlarm (l : List Int) : Option Nat := l.findIdx? (fun t => decide (130 * 256 < t ∨ t < -(45 * 256)))

/-- The eight die sensors are read, in 1/256 degree (R494). -/
def doTemperatureSample (temps : List Int) (s : State) : State :=
  if !s.powered ∨ temps.length ≠ 8 then s
  else
    let s := tempThrottle (tempWarning (onPwr (fun p => { p with temps := temps }) s))
    let s := match sensorAlarm temps with | some i => alarm 2 i s | none => s
    tempShutdown s

/-- 100 ms of throttling have passed (R495). -/
def doThrottleStep (s : State) : State :=
  if !s.pwr.throttling ∨ s.wall < s.pwr.throttleAt + 100000000 then s
  else
    let s := onPwr (fun p => { p with throttleAt := s.wall }) s
    if s.hotAt s.tempThrottleAt then onPwr (fun p => { p with throttlePct := max 30 (p.throttlePct - 10) }) s
    else if s.composite ≤ ((s.tempThrottleAt : Int) - 3) * 256 then
      let pct := min 100 (s.pwr.throttlePct + 10)
      let s := onPwr (fun p => { p with throttlePct := pct, throttling := decide (pct < 100) }) s
      if pct = 100 then raise 398 0 0 0 0 s else s
    else s

/-! ### Aging, power, rails (R493, R498, R507) -/

/-- The aging monitors are measured, every 168 hours of operating time (R498). [DEDUCED: log entry 188] -/
def doAgingMeasure (margin : Nat) (s : State) : State :=
  if !s.powered ∨ s.opSeconds < s.pwr.ageAt then s
  else
    let up := decide (margin < 50 ∧ s.pwr.vcoreReq + 5 ≤ 850)
    let s := onPwr (fun p => { p with
      ageMargin := margin % 65536, ageAt := s.opSeconds + 604800, vcoreReq := if up then p.vcoreReq + 5 else p.vcoreReq }) s
    if up then raiseObj 401 1 0 s else s

/-- The estimate of the present draw, every 1 ms (R493). -/
def doPowerEstimateUpdate (mw : Nat) (s : State) : State := onlyIf s.powered (onPwr (fun p => { p with powerMw := mw % 2 ^ 17 })) s

/-- A rail's nominal level in mV (R507). [DEDUCED: log entry 186] -/
def State.railNominal (s : State) (r : Nat) : Nat :=
  if r = 1 then s.pwr.vcoreReq else [800, 0, 850, 850, 1000, 1100, 1800].getD r 1200

/-- A rail's tolerance in percent (R507). -/
def railTol (r : Nat) : Nat := [3, 3, 3, 2, 2, 3].getD r 5

/-- Is a level within a rail's tolerance? -/
def State.railOk (s : State) (r mv : Nat) : Bool :=
  let n := s.railNominal r
  decide (n * (100 - railTol r) ≤ mv * 100 ∧ mv * 100 ≤ n * (100 + railTol r))

/-- A rail has been at a level for 1 ms (R507): outside its tolerance, EV396. -/
def doRailOutOfTolerance (rail mv : Nat) (s : State) : State :=
  if 11 ≤ rail ∨ !s.powered then s
  else
    let ok := s.railOk rail mv
    let s := onPwr (fun p => { p with
      railMv := Tab.put p.railMv rail (mv % 65536)
      railGood := if ok then p.railGood ||| 2 ^ rail else p.railGood &&& (allRails ^^^ 2 ^ rail) }) s
    if ok then s else raiseObj 396 rail 0 s

/-! ### What the PWR_ registers show (R502) -/

/-- The PWR_ registers. -/
def pwrView (s : State) (o : Nat) : Option Nat :=
  let p := s.pwr
  if o = 0x1400004 then
    some (flag s.dev.lossHigh 31 + flag p.harbour.isSome 30 + flag p.sealedPin 29 + flag p.throttling 28 + flag p.tempWarn 27 +
      field p.railGood 11 0)
  else if o = 0x140000C then
    let r := s.reg 0x1400008 0
    some (field (s.railNominal r) 16 16 + field (Tab.at p.railMv r (s.railNominal r)) 16 0)
  else if o = 0x1400014 then
    some (field (ofInt 8 (s.composite / 256)) 8 24 + ofInt 16 (p.temps.getD (s.reg 0x1400010 0) 0))
  else if o = 0x1400018 then some p.powerMw
  else if o = 0x1400028 then some p.throttlePct
  else if o = 0x140002C then some p.vcoreReq
  else if o = 0x1400030 then some p.ageMargin
  else if o = 0x1400034 then some p.lossCount
  else if o = 0x1400038 then some p.holdupLast
  else none

end Sys2Proof.Machine
end

