-- ==== Sys2Proof/Machine/Rehearsal.lean ====
section
/-! DEFINITION. Rehearsal: its start, its steps, what each finds, the entry into Performance or Final Curtain (19_states_power_life.md,
R476-R478, R487, R488, R496, R501), with map restore (R188-R190) and Sampler restore (R469). -/
namespace Sys2Proof.Machine

/-! ### The start (R476, R496) -/

/-- The conditions of R476, temperature aside: the Pricking sealed, the cue stepped under R54, HOLD clear or GO written. [DEDUCED: log entry 181] -/
def State.mayRehearse (s : State) : Bool :=
  s.dev.phase == .houseLights && s.runs && !s.dev.recovery && s.prk.active.isSome && !s.prk.bootNone &&
    decide (s.cue.floor + 1000000000 ≤ s.cue.now) && (!s.dev.holdAtBoot || s.dev.go)

/-- Rehearsal starts; the Stage Manager's windows and the HFE's posting cue with it (R413, R410). -/
def beginRehearsal (s : State) : State :=
  let s := transition .rehearsal (onDev (fun d => { d with
    waitTemp := false, rehStarted := [], rehDone := [], rehFailed := [], rehStart := s.wall }) s)
  armPosting (startWindows s)

/-- The device enters Rehearsal, or waits in House Lights until it is 3 degrees below the throttle threshold (R496). [DEDUCED: log entry 182] -/
def doRehearsalStart (s : State) : State :=
  if !s.mayRehearse then s
  else
    let t := s.tempThrottleAt
    let cool : Bool := if s.dev.waitTemp then decide (s.composite ≤ ((t : Int) - 3) * 256) else decide (s.composite ≤ (t : Int) * 256)
    if cool then beginRehearsal s else onDev (fun d => { d with waitTemp := true }) s

/-! ### Steps (R487, R488) -/

/-- The steps that a step needs. -/
def stepNeeds (b : Nat) : List Nat :=
  if b = 4 then [3] else if b = 5 then [0, 3] else if b = 7 then [5, 6] else if b = 8 then [2, 7] else []

/-- Step 6 starts as the motor link comes up (R488): the spindle is caught where a clock lane has locked within the set-point range, else
spun up from rest; every actuator loads. [DEDUCED: log entry 183] -/
def startPlatters (s : State) : State :=
  let warm : Bool := match s.spindle with | some v => decide (21600 ≤ v ∧ v ≤ 28800) | none => false
  let s := { s with hop := { s.hop with link := { s.hop.link with up := true, fault := false, spinUp := !warm } } }
  let s := if warm then enableSlot 8 s else onDev (fun d => { d with coldSpin := true }) s
  s.actuators.foldl (fun s a => startResume a (onAct a (fun x => { x with parked := true }) s)) s

/-- A step starts once the steps it needs are done. -/
def doRehearsalStepStart (b : Nat) (s : State) : State :=
  let d := s.dev
  if d.phase ≠ .rehearsal ∨ !s.runs ∨ 9 ≤ b ∨ d.rehStarted.contains b ∨ !(stepNeeds b).all (fun n => d.rehDone.contains n) then s
  else
    let s := onDev (fun d => { d with rehStarted := d.rehStarted ++ [b] }) s
    if b = 6 then startPlatters s else s

/-- Step 0: the channels that train are active, the others retired (R431, R451); timing set A is in effect (R442). [DESIGN CHOICE: log entry 171] -/
def trainDram (trained : List Nat) (ranks2 : Bool) (rfmInitial rfmMax : Nat) (s : State) : State :=
  let want := (List.range 4).filter (fun i => s.dramMap.1.testBit i)
  let tried := want.filter (fun i => !s.dev.boot.dramRetired.testBit i)
  let good := tried.filter (fun i => trained.contains i)
  let s := onDmc (fun d => { d with
    mask := (good.map (fun i => 2 ^ i)).sum, ranks2 := ranks2, rfmInitial := rfmInitial, rfmMax := rfmMax
    ch := want.foldl (fun t i => Tab.put t i (if good.contains i then 1 else 4)) [], setB := false, mtsLow := s.reg 0x100000C 4800
    passStart := s.wall }) s
  let s := { s with clk := { s.clk with dramLock := true, dramMts := s.clkPlan.1 } }
  (tried.filter (fun i => !good.contains i)).foldl (fun s i => raiseObj 340 i 0 s) s

/-- Step 1: every tap's compensation is measured (R59). -/
def calibrateTaps (comp : List (Nat × Int)) (s : State) : State :=
  let s := (List.range 80).foldl (fun s t =>
    let c := ((comp.find? (fun p => p.1 == t)).map (fun p => p.2)).getD 0
    doTapSkewMeasure t c s.dieTemp s) s
  { s with cue := { s.cue with calDone := true } }

/-- Step 2: logical Bobbins 0-95 on the lowest cores that pass, the others Understudies (R309). -/
def mapBobbins (passed : List Nat) (s : State) : State :=
  let good := (List.range 104).filter (fun c => passed.contains c)
  let used := good.take 96
  onBob (fun b => { b with
    map := (List.range used.length).zip used
    cores := (List.range 104).map (fun c =>
      (c, { role := if used.contains c then 0 else if good.contains c then 1 else 3, cause := 0, corrected := [] })) }) s

/-- The bands of a surface in a zone (R237): two calibration tracks, then bands with a guard track after each. [DESIGN CHOICE: log entry 112] -/
def zoneBands (surface : Nat) (r : SurfaceRec) (z : Nat) (q : ZoneRec) (rate : Nat) : List Band :=
  let n := ceilDiv 67840 (max 1 q.sectors)
  let room := q.lastTrack + 1 - (q.firstTrack + 2)
  (List.range (room / (n + 1))).map (fun i =>
    { act := r.actuator, surface := surface, stream := .bandHost, slots := 8191, written := 0, closed := false, spare := true
      retired := false, adj := 0, refresh := false, zone := z, firstTrack := q.firstTrack + 2 + i * (n + 1), append := 0
      codeRate := rate, trips := (0, 0) })

/-- Every band of the configuration's data surfaces, surface by surface from the outer edge. [DESIGN CHOICE: log entries 92, 112] -/
def layBands (c : PrkConfig) : Tab Band :=
  let l := ((c.ofType 0x0B01).filter (fun p => (surfaceOf p.2).role == 0)).flatMap (fun p =>
    (c.ofType 0x0B02).flatMap (fun q => zoneBands p.1 (surfaceOf p.2) q.1 (zoneOf q.2) c.codeRate))
  (List.range l.length).zip l

/-- A first format (R190): a new brick, every erase block free, M = floor(0.92 D), the bands laid out. [DESIGN CHOICE: log entry 96] -/
def firstFormat (dies : List (Nat × DieFacts)) (brick : Nat) (s : State) : State :=
  let free := dies.flatMap (fun p => (p.2.luns.filter (fun l => inGroup p.1 l.1 && decide (l.1 < 1024))).flatMap (fun l =>
    lunBlocks s p.2 l.1 l.2))
  let bands := layBands s.cfg
  let s := { s with
    trl := { freeBlks := free, brickId := brick, bands := bands,
             plat := { slots := 8191 * bands.length, units := s.prk.media.platUnits, charged := 0 } }
    obj := {}
    scr := { s.scr with nsSecrets := [], reserved := [] } }
  let d := dataSlots s none
  onDev (fun d => { d with formatted := true })
    { s with trl := { s.trl with flash := { slots := d, units := 92 * d / 100, charged := 0 } } }

/-- Step 3: the groups in use are brought up; LUNs that no longer answer are retired (R201-R203, R218); media without a header of this
brick are formatted. -/
def bringUpFlash (dies : List (Nat × DieFacts)) (brick : Nat) (s : State) : State :=
  let out := fun (g : Nat) => s.flc.hrGroup == g && (s.flc.hr == .removed || s.flc.hr == .inserting)
  let dies := dies.filter (fun p => decide (p.1 < 4) && (s.flashGroup p.1).isSome && !out p.1)
  let held := s.flc.luns
  let s := dies.foldl (fun s p => bringUp p.1 p.2 s) s
  let answers := fun (l : Nat) => dies.any (fun p => p.2.luns.any (fun q => q.1 == l && inGroup p.1 l))
  let silent := fun (l : Nat) => !out (chGroup (lunCh l)) && !answers l
  let s := ((namedLuns s).filter (fun l => silent l && l % 4 == 0)).foldl (fun s l => raiseObj 68 l 0 s) s
  let s := held.foldl (fun s p => if silent p.1 then retireLun p.1 s else s) s
  if dies.any (fun p => p.2.brick == some s.trl.brickId) then setSlots (dataSlots s none) s else firstFormat dies brick s

/-- Step 4: the Sampler restores from its copies (R469). -/
def restoreSampler (hole : Bool) (s : State) : State := { s with evt := { s.evt with restored := true, hole := s.evt.hole || hole } }

/-- Erases that a power cycle cut short are issued again. [DEDUCED: log entry 103] -/
def reissueErases (s : State) : State :=
  let s := s.trl.sbs.foldl (fun s p =>
    ((List.range p.2.members.length).zip p.2.members).foldl (fun s q =>
      if p.2.erasing.contains q.2.blk then queueOp (memberOp .erase p.1 q.1 0 q.2) s else s) s) s
  if s.flc.hr ≠ .inserting then s
  else
    (s.trl.freeBlks.filter (fun m => chGroup m.blk.ch == s.flc.hrGroup)).foldl (fun s m => queueOp
      { op := .erase, lun := lunNo m.blk, blk := m.blk, sb := none, pos := 0, row := 0, point := none, cue := none, running := false } s) s

/-- Step 5: steps 1-3 of map restore (R188, R189). [DEDUCED: log entry 95] -/
def restoreMap (s : State) : State :=
  let s := recoverHarbour s
  reissueErases { s with trl := { s.trl with restored := true } }

/-- Step 7: open stripe blocks and bands are closed, open rows' parity written (R188, R211, R238); a checkpoint; the harbour armed again. -/
def closeOpen (s : State) : State :=
  let s := s.trl.sbs.foldl (fun s p =>
    let b := p.2
    if b.closed.isSome ∨ b.width < 2 then s
    else
      let s := { s with trl := { s.trl with sbs := Tab.put s.trl.sbs p.1 { b with closed := some s.cue.now } } }
      if b.written % (b.width - 1) = 0 then s
      else
        let row := slotRow b.width (b.written - 1)
        let pos := parityPos p.1 b.width row
        match b.members[pos]? with
        | some m => queueOp (memberOp .program p.1 pos row m) s
        | none => s) s
  let s := { s with trl := { s.trl with bands := Tab.mapVals s.trl.bands (fun _ b => if b.spare then b else { b with closed := true }) } }
  let s := doCheckpointClosed (startCheckpoint s)
  armHarbour { s with
    trl := { s.trl with sealed := false }
    obj := { s.obj with undo := [] } }

/-- Step 8 done with the others (R476, R485, R487): the firmware has reached Performance, the controllers are ready. -/
def endRehearsal (s : State) : State :=
  let final := s.trl.final
  let s := transition (if final then .finalCurtain else .performance) s
  let s := onDev (fun d => { d with perfMs := min (s.wall / 1000000) (2 ^ 32 - 1) }) s
  let d := s.dev
  let s := if final then s else onDev (fun d => { d with fwFloor := max d.fwFloor d.bootedSvn }) s
  let s := if final ∨ d.boot.fwGood = d.booted then s else writeBoot (fun b => { b with fwGood := d.booted }) s
  { s with hfe := { s.hfe with ctrls := Tab.mapVals s.hfe.ctrls (fun _ k => if k.enabled && !k.cfs then { k with ready := true } else k) } }

/-- A fatal failure (R478): back to House Lights. [DEDUCED: log entry 182] -/
def failRehearsal (b code : Nat) (s : State) : State :=
  let s := onDev (fun d => { d with
    rehearsalFail := true, rehErrStep := b, rehErrCode := code, rehFailed := setAdd d.rehFailed b, go := false }) s
  transition .houseLights (raise 400 0 b 0 0 s)

/-- Is step 6 done: every actuator normal or offline (R488)? -/
def State.plattersReady (s : State) : Bool := s.actuators.all (fun a => s.actState a == 0 || s.actState a == 3)

/-- Are the facts those of the step? [DEDUCED: log entry 184] -/
def factsFit (b : Nat) (f : StepFacts) : Bool :=
  match f with
  | .plain => decide (6 ≤ b)
  | .dram .. => b == 0
  | .taps _ => b == 1
  | .cores _ => b == 2
  | .flash .. => b == 3
  | .sampler _ => b == 4
  | .map _ => b == 5

/-- What a step does as it ends, or the code of its fatal failure. [DEDUCED: log entry 184] -/
def stepEffect (b : Nat) (f : StepFacts) (s : State) : State ⊕ Nat :=
  match b, f with
  | 0, .dram t r2 i m => let s := trainDram t r2 i m s; if s.dmc.mask = 0 then .inr 1 else .inl s
  | 1, .taps c => .inl (calibrateTaps c s)
  | 2, .cores l => .inl (mapBobbins l s)
  | 3, .flash d k => .inl (bringUpFlash d k s)
  | 4, .sampler h => .inl (restoreSampler h s)
  | 5, .map r => if !r ∧ !s.dev.formatted then .inr 3 else .inl (restoreMap s)
  | 7, _ => if s.usable.length < 16 then .inr 2 else .inl (closeOpen s)
  | _, _ => .inl (if b = 6 then measurePhase s else s)

/-- A started step ends (R478, R487). -/
def doRehearsalStepDone (b : Nat) (f : StepFacts) (s : State) : State :=
  let d := s.dev
  if d.phase ≠ .rehearsal ∨ !s.runs ∨ !d.rehStarted.contains b ∨ d.rehDone.contains b ∨ !factsFit b f ∨ (b = 6 ∧ !s.plattersReady) then s
  else
    match stepEffect b f s with
    | .inr code => failRehearsal b code s
    | .inl s =>
      let s := onDev (fun d => { d with rehDone := setAdd d.rehDone b }) s
      if (List.range 9).all (fun k => s.dev.rehDone.contains k) then endRehearsal s else s

/-- 40 s after Rehearsal began an actuator that is not normal goes offline (R488, R254). -/
def doActuatorLoadDeadline (a : Nat) (s : State) : State :=
  onlyIf (s.dev.phase == .rehearsal && decide (s.dev.rehStart + 40000000000 ≤ s.wall) && s.present a && s.actState a != 0) (goOffline a) s

/-! ### What the DEV_ registers show (R501) -/

/-- The bits of a list of numbers. -/
def maskOf (l : List Nat) : Nat := (l.map (fun k => 2 ^ k)).sum

/-- The DEV_ registers. [DESIGN CHOICE: log entry 8] -/
def devView (s : State) (o : Nat) : Option Nat :=
  let d := s.dev
  if o = 0x4 then some (devCode d.phase)
  else if o = 0x8 then
    some (flag d.halted 31 + flag d.recovery 30 + flag d.boot.hold 29 + flag d.rehearsalFail 28 + flag d.fwFallback 27 + flag d.formatted 26 +
      flag d.coldSpin 25 + flag d.waitTemp 24)
  else if o = 0x10 then some (d.serial % 2 ^ 32)
  else if o = 0x14 then some (d.serial / 2 ^ 32 % 2 ^ 32)
  else if o = 0x18 then some (d.mac % 2 ^ 32)
  else if o = 0x1C then some (d.mac / 2 ^ 32 % 65536)
  else if o = 0x20 then some (field (maskOf d.rehFailed) 9 16 + field (maskOf d.rehDone) 9 0)
  else if o = 0x24 then some (field d.rehErrStep 4 28 + field d.rehErrCode 8 0)
  else if o = 0x28 then some (d.stateCue % 2 ^ 32)
  else if o = 0x2C then some (d.stateCue / 2 ^ 32 % 2 ^ 32)
  else if o = 0x30 then some d.perfMs
  else if o = 0x34 then some (field d.boot.fwGood 3 8 + field d.boot.fwNext 3 4 + field d.booted 3 0)
  else if o = 0x38 then some d.bootedSvn
  else if o = 0x3C then some d.fwFloor
  else none

end Sys2Proof.Machine
end

