-- ==== Sys2Proof/Machine/CueFire.lean ====
section
/-! DEFINITION. Cues that fire, the broadcast with its forward step, clock gates and clock supervision (03_cue_clock.md, R48-R76). -/
namespace Sys2Proof.Machine

/-! ### What a cue does when it fires (R67-R71) -/

/-- A TIMED task fires: its unit takes the release as its completion (R298). -/
def fireTask (h : Nat) (s : State) : State :=
  match s.smg.resolve h with
  | some (i, t) =>
    match t.phase with
    | .posted _ => retireAdvance (goOn (completeTask i t.failed s))
    | _ => s
  | none => s

/-- A program or erase starts on its LUN (R216). -/
def fireDie (slot : Nat) (s : State) : State :=
  { s with flc := { s.flc with ops := s.flc.ops.map (fun o => if o.cue = some slot then { o with running := true } else o) } }

/-- Insertion by commit cue. -/
def insertCommit (p : Nat × Scene) : List (Nat × Scene) → List (Nat × Scene)
  | [] => [p]
  | q :: t => if p.2.commitCue < q.2.commitCue then p :: q :: t else q :: insertCommit p t

/-- A quantum boundary (R410): the held completions due at it are posted in commit-cue order; the next posting cue is armed. -/
def firePosting (s : State) : State :=
  let due := (s.scn.scenes.filter (fun p => match p.2.boundary with | some b => decide (b ≤ s.cue.now) | none => false)).foldl
    (fun l p => insertCommit p l) []
  let s := due.foldl (fun s p => match Tab.find s.scn.scenes p.1 with | some c => if s.cqRoom c.ctrl c.sq then postCompletion p.1 c s else s | none => s) s
  goOn (armPosting s)

/-- The action of a cue. [DESIGN CHOICE: log entry 43] -/
def fireAction (slot : Nat) (k : CueSlot) (s : State) : State :=
  match k.action with
  | .raw _ _ => s
  | .prkApply => applyDue s
  | .readGate a l g => fireReadGate a l g s
  | .reserve a l => fireReserve a l s
  | .writeRun a g n => fireWriteRun a g n s
  | .program _ => fireDie slot s
  | .erase _ => fireDie slot s
  | .window e => fireWindow e s
  | .posting => firePosting s
  | .task h => fireTask h s
  | .servoSample a => fireSample a s
  | .bankSwap n b => onSlot n (fun x => { x with bankB := b, want := none }) s
  | .loopEnable n => enableSlot n s

/-- The clock domain that carries out a cue's action, where a rule lets that clock stop (R71). -/
def cueDomain (k : CueSlot) : Option Nat :=
  if k.target = 9 then some 6
  else if k.target = 14 then some 7
  else if k.target = 16 then some 11
  else
    match k.action, k.poster with
    | .readGate a _ _, _ => some (19 + a)
    | .reserve a _, _ => some (19 + a)
    | .writeRun a _ _, _ => some (19 + a)
    | _, .flash c => some (12 + chGroup c)
    | _, .read a => some (19 + a)
    | _, _ => none

/-- Is a domain stopped: by software or for a removed group, CK_DRAM while the second PLL re-locks, CK_RCTn while its lane is unlocked? [DESIGN CHOICE: log entry 48] -/
def State.domainStopped (s : State) (d : Nat) : Bool :=
  s.clk.stopped.contains d || (d == 11 && s.dmc.freq == .relock) || (decide (19 ≤ d ∧ d ≤ 22) && !(s.act (d - 19)).locked)

/-- A held cue stays armed and will carry the late flag (R71); one cancelled in time never fires; any other one gives its slot back
and acts (R67, R70). -/
def fireSlot (slot : Nat) (s : State) : State :=
  match Tab.find s.cue.slots slot with
  | none => s
  | some k =>
    if inTime k then dropCue slot s
    else if (cueDomain k).any s.domainStopped then
      { s with cue := { s.cue with slots := Tab.put s.cue.slots slot { k with phase := .held, lateFlag := true } } }
    else pumpAll (fireAction slot k { s with cue := { s.cue with slots := Tab.del s.cue.slots slot } })

/-- Is a slot armed, or held, at or past its fire time? [DEDUCED: log entry 42] -/
def CueState.due (c : CueState) (k : CueSlot) : Bool := k.phase != .posted && decide (k.fire ≤ c.now)

/-- A cue fires, with those that reach the same tap in the same cycle, in ascending slot number (R67, R69). [DEDUCED: log entries 42, 211] -/
def doCueFire (slot : Nat) (s : State) : State :=
  match Tab.find s.cue.slots slot with
  | some k =>
    if s.runs ∧ s.cue.due k then
      (s.cue.slots.filter (fun q => q.2.target == k.target && q.2.fire == k.fire && s.cue.due q.2)).foldl (fun s q => fireSlot q.1 s) s
    else s
  | none => s

/-! ### The broadcast (R55-R60, R68) -/

/-- Insertion by fire time. [DESIGN CHOICE: log entry 48] -/
def insertFire (p : Nat × CueSlot) : List (Nat × CueSlot) → List (Nat × CueSlot)
  | [] => [p]
  | q :: t => if p.2.fire < q.2.fire then p :: q :: t else q :: insertFire p t

/-- A forward step fires at once every armed cue at or below the new value, in fire-time order, each with the late flag (R68). -/
def fireAllDue (s : State) : State :=
  let due := (s.cue.slots.filter (fun q => s.cue.due q.2)).foldl (fun l q => insertFire q l) []
  due.foldl (fun s q =>
    fireSlot q.1 { s with cue := { s.cue with slots := Tab.modify s.cue.slots q.1 (fun k => { k with lateFlag := true }) } }) s

/-- A requested forward step takes effect: the cues and the delay-list entries it passes are released (R55, R68, R72). -/
def takeStep (s : State) : State :=
  match s.cue.step with
  | some v =>
    if s.cue.now < v then
      let passed := decide (s.cue.now / 1024 < v / 1024)
      let s := fireAllDue { s with cue := { s.cue with now := v, step := none, stepped := true } }
      if passed then onlyIf s.unitsRun beatBoundary s else s
    else { s with cue := { s.cue with step := none } }
  | none => s

/-- What happens at every multiple of 64: the broadcast, a step, a load whose apply cue has come. -/
def atBroadcast (drift : List (Nat × Int)) (s : State) : State := applyDue (takeStep (broadcast drift s))

/-- The cue counter runs on to the next multiple of 64, and the broadcast goes out (R57). [DESIGN CHOICE: log entry 44] -/
def doCueBroadcast (drift : List (Nat × Int)) (s : State) : State :=
  if !s.dev.perstHigh ∨ s.dev.waitSupplies then s
  else
    let n := cyclesToBroadcast s.cue
    let s := Nat.repeat asuTick ((s.wall + n) / 4 - s.wall / 4) s
    atBroadcast drift { s with
      wall := s.wall + n, cue := { s.cue with now := nextMultiple s.cue.now 64, periodDone := true } }

/-- One CK_CUE cycle with nothing commanded: the counter, the ASU's moves, the broadcast at a multiple of 64, a deferred PERST_N. [DESIGN CHOICE: log entry 2] -/
def idleTick (s : State) : State :=
  if !s.dev.perstHigh ∧ s.pwr.harbour.isNone ∨ s.dev.waitSupplies then s
  else
    let s := { s with wall := s.wall + 1, cue := cueCycle s.cue }
    let s := if s.wall % 4 = 0 then asuTick s else s
    let s := if s.cue.now % 64 = 0 then atBroadcast [] s else applyDue s
    let s := if s.evt.aenDue = [] then s else goOn s
    takeDeferredPerst s

/-- A beat boundary (R297). -/
def doBeatBoundary (s : State) : State := onlyIf s.unitsRun beatBoundary s

/-! ### Clock gates (R51) -/

/-- CLK_GATE_REQ is written (R51): a stopped domain whose request is cleared is to start. -/
def doClkGateReqWrite (val : W32) (s : State) : State :=
  if writable s false then
    let v := val.toNat % 2 ^ 25
    { setReg 0x20800C v s with clk := { s.clk with
        starting := s.clk.stopped.filter (fun d => !v.testBit d && (d == 4 || d == 6 || d == 7)) } }
  else s

/-- The stop condition of a domain with software stop rights (R48). -/
def stopMet (s : State) (d : Nat) : Bool :=
  if d = 4 then true
  else if d = 6 then !s.smg.tasks.any (fun p => p.2.unit == 9 && p.2.onPlace)
  else if d = 7 then !s.hop.slots.any (fun p => p.2.en)
  else decide (12 ≤ d ∧ d ≤ 15) && s.flc.hrGroup == d - 12 && s.flc.hr == .removed

/-- A domain stops at an alignment edge: allowed, requested, its unit's condition met (R51). -/
def doClockDomainStop (d : Nat) (s : State) : State :=
  if s.powered ∧ s.clkPlan.2.1.testBit d ∧ (s.reg 0x20800C 0).testBit d ∧ stopMet s d ∧ !s.clk.stopped.contains d then
    { s with clk := { s.clk with stopped := setAdd s.clk.stopped d, starting := setDel s.clk.starting d } }
  else s

/-- A stopped domain starts at the second alignment edge after its request was cleared; the cues it held fire, late (R51, R71). [DESIGN CHOICE: log entry 48] -/
def doClockDomainStart (d : Nat) (s : State) : State :=
  if s.clk.starting.contains d ∧ s.clk.stopped.contains d then
    let s := { s with clk := { s.clk with stopped := setDel s.clk.stopped d, starting := setDel s.clk.starting d } }
    let held := s.cue.slots.filter (fun q => q.2.phase == .held && cueDomain q.2 == some d)
    goOn (held.foldl (fun s q => fireSlot q.1 s) s)
  else s

/-! ### Supervision (R52) -/

/-- A 10 ms interval of the REFCLK meter, in 0.1 ppm. -/
def doRefclkMeterInterval (ppm : Int) (s : State) : State :=
  if !s.powered then s
  else
    let s := { s with clk := { s.clk with refPpm := ppm } }
    if 100000 < ppm.natAbs then alarm 1 1 s
    else if 3000 < ppm.natAbs then raise 384 0 0 0 0 { s with clk := { s.clk with warn := s.clk.warn ||| 1 } }
    else s

/-- The number of a clock condition of R52 as the clock sensor of R414. -/
def clockSensor : ClockAlarm → Nat
  | .refclkAbsent => 0
  | .refclkFar => 1
  | .rootUnlock => 2
  | .secGlitch => 3
  | .cueGlitch => 4

/-- A clock alarm is a tamper alarm (R52, R414). -/
def doClockAlarm (c : ClockAlarm) (s : State) : State :=
  alarm 1 (clockSensor c) (if c = .rootUnlock then { s with clk := { s.clk with rootLock := false } } else s)

/-! ### What the CLK_ registers show (R74) -/

/-- Does a domain run? -/
def State.domainRuns (s : State) (d : Nat) : Bool :=
  if d = 16 then s.hfe.link0.up || s.hfe.link1.up
  else if d = 17 ∨ d = 18 then s.hfe.eth.any (fun p => p.1 / 2 == d - 17 && p.2.up)
  else if d = 11 then s.clk.dramLock && s.dmc.ch.any (fun c => c.2 == 1 || c.2 == 3)
  else !s.domainStopped d

/-- N of a group's clock (CLK_FIO_N). -/
def State.fioMul (s : State) (g : Nat) : Nat :=
  if s.clk.stopped.contains (12 + g) ∨ (s.flc.hrGroup = g ∧ s.flc.hr = .removed) then 0
  else match Tab.find s.clk.fioN g with
    | some n => n
    | none => if (s.dev.phase = .houseLights ∨ s.dev.phase = .rehearsal) ∧ (s.flashGroup g).isSome then 1 else 0

/-- A domain's frequency in kHz. [DESIGN CHOICE: log entry 49] -/
def State.domainKhz (s : State) (d : Nat) : Nat :=
  if !s.domainRuns d then 0
  else if d = 11 then s.clk.dramMts * 125
  else if 12 ≤ d ∧ d ≤ 15 then 200000 * s.fioMul (d - 12)
  else if 19 ≤ d ∧ d ≤ 22 then (let p := (s.act (d - 19)).period; if p = 0 then 0 else 6553600 * 1000000 / p)
  else
    match [2000000, 1600000, 1333333, 1000000, 1000000, 800000, 500000, 500000, 400000, 200000, 100000][d]? with
    | some k => k
    | none => (Config.asyncKhz d).toNat

/-- The CLK_ registers. -/
def clkView (s : State) (o : Nat) : Option Nat :=
  let c := s.clk
  if o = 0x208000 then some (flag c.dramRelock 2 + flag c.dramLock 1 + flag c.rootLock 0)
  else if o = 0x208004 then some (ofInt 32 c.refPpm)
  else if o = 0x208008 then some (s.clkPlan.2.1 % 2 ^ 25)
  else if o = 0x208010 then some (maskOf ((List.range 25).filter s.domainRuns))
  else if o = 0x208014 then some c.warn
  else if o = 0x208018 then some c.dramMts
  else if o = 0x20801C then some (((List.range 4).map (fun g => field (s.fioMul g) 4 (4 * g))).sum)
  else if 0x208100 ≤ o ∧ o ≤ 0x208160 then some (s.domainKhz ((o - 0x208100) / 4))
  else none

end Sys2Proof.Machine
end

