-- ==== Sys2Proof/Machine/Flags.lean ====
section
/-! DEFINITION. Status words and flags: what every register of the house window and of the tenant windows shows (R524-R526), gathered
from the units' own views. -/
namespace Sys2Proof.Machine

/-- The HFE_SCN_, CBD_, TRL_, … registers of the house window that show live values. -/
def houseView (s : State) (o : Nat) : Option Nat :=
  match o / 0x80000 with
  | 0 => devView s o
  | 2 => prkView s o
  | 4 => if o < 0x208000 then cueView s o else clkView s o
  | 6 => hfeView s o
  | 8 => smgView s o
  | 0xA => bobView s o
  | 0xC => asuView s o
  | 0xE => tlyView s o
  | 0xF => cbdView s o
  | 0x10 => smkView s o
  | 0x12 => scrView s o
  | 0x14 => trlView s o
  | 0x16 | 0x18 => flashView s o
  | 0x1A => rchView s o
  | 0x1C | 0x1E => hoopView s o
  | 0x20 => dmcView s o
  | 0x22 => eccView s o
  | 0x24 | 0x25 => evtView s o
  | 0x26 => safView s o
  | 0x28 => pwrView s o
  | _ => none

/-- Identity and quotas of a tenant (R526): the house tenant has no TENANT record. -/
def twIdView (s : State) (tag o : Nat) : Option Nat :=
  let r := s.tenantRec tag
  let q := Tab.at s.trl.quota tag (0, 0)
  let get := fun (f : TenantRec → Nat) => if tag = 0 then 0 else (r.map f).getD 0
  let charged := fun (n : Nat) => if tag = 0 then 0 else n
  if o = 0x4 then some tag
  else if o = 0x8 then some (if tag = 0 then 2 else get (fun r => r.flags % 32))
  else if o = 0xC then some (flag (s.scn.pressed.contains tag) 4 + devCode s.dev.phase)
  else if o = 0x10 then some (get (fun r => r.flashQuota % 2 ^ 32))
  else if o = 0x14 then some (get (fun r => r.flashQuota / 2 ^ 32))
  else if o = 0x18 then some (get (fun r => r.platQuota % 2 ^ 32))
  else if o = 0x1C then some (get (fun r => r.platQuota / 2 ^ 32))
  else if o = 0x20 then some (charged (q.1 % 2 ^ 32))
  else if o = 0x24 then some (charged (q.1 / 2 ^ 32))
  else if o = 0x28 then some (charged (q.2 % 2 ^ 32))
  else if o = 0x2C then some (charged (q.2 / 2 ^ 32))
  else if o = 0x30 then some (get (fun r => r.wingsKib))
  else if o = 0x34 then some (get (fun r => r.stagingKib))
  else none

/-- The registers of a tenant window that show live values (R525). -/
def tenantView (s : State) (tag o : Nat) : Option Nat :=
  match o / 0x1000 with
  | 0 => twIdView s tag o
  | 1 => twTlyView s tag o
  | 2 => twObjView s tag o
  | 3 => twEvtView s tag o
  | 4 => twPrgView s tag o
  | 5 => twHfeView s tag o
  | 7 => twObjView s tag o
  | 8 => twKeyView s tag o
  | _ => none

/-- The live value of a register, where a unit shows one. -/
def viewOf (s : State) (w : Window) (o : Nat) : Option Nat :=
  match w with
  | .house => houseView s o
  | .tenant tag => tenantView s tag o

/-- The value of the register at an aligned offset (R10-R12): zero where there is none and for WO. -/
def regValue (s : State) (w : Window) (o : Nat) : Nat :=
  match regRow w o with
  | none => 0
  | some r =>
    match r.access with
    | .wo => 0
    | .rc => Tab.at s.bus.rc (rcKey s w o) r.reset
    | _ => ((viewOf s w o).getD (s.reg (regKey w o) r.reset)) % 2 ^ 32

end Sys2Proof.Machine
end

