-- ==== Sys2Proof/Machine/Window.lean ====
section
/-! DEFINITION. The register windows whole (R8-R14, R47, R524-R528): what each write sets off, accesses of every width. -/
namespace Sys2Proof.Machine

/-! ### Reads (R8, R9, R12) -/

/-- The windows answer: the device is powered, and its Pricking, or the lack of one, is settled; or it is in recovery (R38, R476, R486). [DESIGN CHOICE: log entry 15] -/
def windowsOpen (s : State) : Bool := s.powered && (s.dev.recovery || s.prk.active.isSome || s.prk.bootNone)

/-- May a requester read a register now? -/
def readable (s : State) (q : Requester) (w : Window) (o : Nat) : Bool :=
  mayReach s q w && windowsOpen s && (!s.dev.recovery || recoveryReadable w o)

/-- A requester's latched high half (R8). -/
def latched (s : State) (q : Requester) (key : Nat) : Option W32 :=
  (s.bus.latchedHigh.find? (fun h => h.requester == reqId q && h.key == key)).map (fun h => h.value)

/-- A read of a low word latches the high half for that requester. -/
def latchHigh (q : Requester) (key hi : Nat) (s : State) : State :=
  { s with bus := { s.bus with
      latchedHigh := dropHalf s.bus.latchedHigh (reqId q) key ++ [⟨reqId q, key, BitVec.ofNat 32 hi⟩] } }

/-- A read of a high word uses the latch up. -/
def useLatch (q : Requester) (key : Nat) (s : State) : State :=
  { s with bus := { s.bus with latchedHigh := dropHalf s.bus.latchedHigh (reqId q) key } }

/-- HOP_Sn_STATUS.WR_LOST, the one RC field of an RO register, is cleared by a read (R284). -/
def clearWrLost (w : Window) (o : Nat) (s : State) : State :=
  if w = .house ∧ 0xE00800 ≤ o ∧ o < 0xE01800 ∧ o % 0x40 = 4 then onSlot ((o - 0xE00800) / 0x40) (fun x => { x with wrLost := false }) s
  else s

/-- One 32-bit register is read; `upd` is what the hardware adds to an RC register in the same cycle (R14). -/
def readReg (q : Requester) (w : Window) (o upd : Nat) (s : State) : Nat × State :=
  if !readable s q w o then (0, s)
  else
    match regRow w o with
    | none => (0, s)
    | some r =>
      let v := regValue s w o
      let key := regKey w o
      if r.access = .rc then (v, clearRc (rcKey s w o) r.reset upd s)
      else if r.low then (v, latchHigh q key (regValue s w (o + 4)) s)
      else
        match lowOf w o with
        | some lo =>
          match latched s q (regKey w lo) with
          | some x => (x.toNat, useLatch q (regKey w lo) s)
          | none => (v, s)
        | none => (v, clearWrLost w o s)

/-- A read of any width by its words (R9): aligned reads of one or two words, narrower reads within a word; a misaligned read returns zero. -/
def readSplit (word : Nat → State → Nat × State) (off size : Nat) (s : State) : Nat × State :=
  if (size = 1 ∨ size = 2 ∨ size = 4) ∧ off % size = 0 then
    let (v, s) := word (off / 4 * 4) s
    (v / 2 ^ (8 * (off % 4)) % 2 ^ (8 * size), s)
  else if size = 8 ∧ off % 8 = 0 then
    let (lo, s) := word off s
    let (hi, s) := word (off + 4) s
    (lo + hi * 2 ^ 32, s)
  else (0, s)

/-- A window read. -/
def readWindow (q : Requester) (w : Window) (off size upd : Nat) (s : State) : Nat × State :=
  readSplit (fun o s => readReg q w o upd s) off size s

/-! ### Writes -/

/-- The registers and fields of R47, which only the loader writes. [DEDUCED: log entry 16] -/
def isRwl (w : Window) (o : Nat) : Bool :=
  match w with
  | .house => [0x20002C, 0x208008, 0x300004, 0x40003C, 0x400044, 0x400058, 0x60000C, 0x600014, 0x70000C, 0x780020, 0x780024, 0x80000C,
      0x1100004, 0x1200008, 0x1280030].contains o
  | .tenant _ => [0x8, 0x10, 0x14, 0x18, 0x1C, 0x30, 0x34, 0x400C, 0x4010, 0x8000].contains o

/-- A software write to an RWL register is discarded and recorded under EV416 (R13, R47, R528). [DEDUCED: log entry 16] -/
def rwlWrite (w : Window) (o : Nat) (v : W32) (s : State) : State :=
  match w with
  | .house => raise 416 0 (o % 2 ^ 32) v.toNat 0 s
  | .tenant tag => raise 416 0 (o % 2 ^ 32 + tag * 2 ^ 32 + 2 ^ 63) v.toNat tag s

/-- A free value's lowest bit: what the device finds where a write starts a search of its own. -/
def freeBit (s : State) : Bool × State :=
  let (k, s) := takeFree s
  ((Config.freeValue k).getLsbD 0, s)

/-- The image in the aperture with what the signature standards say of it. [DESIGN CHOICE: log entry 17] -/
def apertureFacts (s : State) : PrkImage :=
  let img := s.apertureImage { bytes := [], ownerVerifies := false, vendorVerifies := false, ownerMl := 0, ownerEc := 0, vendorInRom := false }
  { img with ownerVerifies := Config.ownerSigns img.bytes, vendorVerifies := Config.vendorSigns img.bytes
             ownerMl := (Config.ownerKeys img.bytes).1, ownerEc := (Config.ownerKeys img.bytes).2
             vendorInRom := Config.vendorInRom img.bytes }

/-- PRK_CTRL is written (R45). [DESIGN CHOICE: log entry 17] -/
def prkCtrl (v : Nat) (s : State) : State :=
  let cmd := bits v 3 0
  let ap := bit v 4
  if cmd = 1 then doPrkVerify ap (apertureFacts s) s
  else if cmd = 2 then doPrkApply ap (apertureFacts s) s
  else if cmd = 3 then doPrkStore ap (apertureFacts s) s
  else if cmd = 4 then doPrkAbort s
  else s

/-- DEV_CTRL is written (R501). -/
def devCtrl (v : Nat) (s : State) : State :=
  let cmd := bits v 31 28
  if cmd = 1 then doDevGo s else if cmd = 2 then doDevSetHold s else if cmd = 3 then doDevClearHold s else s

/-- FLC_HR_CTRL is written (R223). [DESIGN CHOICE: log entry 18] -/
def hrCtrl (v : Nat) (s : State) : State :=
  let g := bits v 5 4
  let cmd := bits v 3 0
  if cmd = 1 then doFlcEvacuate g s
  else if cmd = 2 then doFlcRemove g s
  else if cmd = 3 then
    let (k, s) := takeFree s
    doFlcInsert g (bit v 7) (Config.dieFacts k) s
  else if cmd = 4 then doFlcCancel g s
  else if cmd = 5 then
    let (b, s) := freeBit s
    doFlcResume g b s
  else s

/-- RCH_An_CTRL is written (R255). -/
def actCtrl (a v : Nat) (s : State) : State :=
  let cmd := bits v 3 0
  if cmd = 1 then doRchCalibrateL0 a s
  else if cmd = 2 then doRchCalibrateL1 a s
  else if cmd = 3 then doRchPark a s
  else if cmd = 4 then doRchResume a s
  else if cmd = 5 then doRchOffline a s
  else s

/-- HOP_Sn_CTRL is written (R264, R269, R279): EN where it changes, then BANK and SWAP_AT_CUE. [DESIGN CHOICE: log entry 19] -/
def slotCtrl (n v : Nat) (s : State) : State :=
  let s := if bit v 0 = (s.slot n).en then s else if bit v 0 then doHopSlotEnable n s else doHopSlotDisable n s
  doHopBankRequest n (bit v 4) (bit v 8) s

/-- A write of the high word of a profile entry takes effect whole; bits [63:57] stay zero (R270). -/
def profWrite (q : Requester) (o : Nat) (v : W32) (s : State) : State := takeHigh q (o - 4) (v &&& 0x01FFFFFF) s

/-- HOP_An_PROF_CTRL is written (R284). -/
def profCtrl (a v : Nat) (s : State) : State :=
  let cmd := bits v 31 28
  if cmd = 1 then doHopProfileStart a (bits v 10 0) s else if cmd = 2 then doHopProfileStop a s else s

/-- A plain RW register, or a word of a 64-bit RW quantity, is written (R8, R12). -/
def plainWrite (q : Requester) (w : Window) (r : RegRow) (o : Nat) (v : W32) (s : State) : State :=
  if r.access = .rw then
    if r.low then holdLow q (regKey w o) v s
    else match lowOf w o with
      | some lo => takeHigh q (regKey w lo) v s
      | none => storeRw w o v.toNat s
  else if r.access = .rw1c then
    { s with clk := { s.clk with warn := s.clk.warn &&& (v.toNat ^^^ 7) &&& 7 } }
  else s

/-- A write into the HOP_ block. [DESIGN CHOICE: log entry 19] -/
def hopWrite (q : Requester) (r : RegRow) (o : Nat) (v : W32) (s : State) : State :=
  if 0xE00100 ≤ o ∧ o < 0xE00180 ∧ o % 0x20 = 0 then profCtrl ((o - 0xE00100) / 0x20) v.toNat s
  else if 0xE00800 ≤ o ∧ o < 0xE01800 ∧ o % 0x40 = 0 then slotCtrl ((o - 0xE00800) / 0x40) v.toNat s
  else if 0xE00800 ≤ o ∧ o < 0xE01800 ∧ o % 0x40 = 0xC then doHopSetpointWrite q ((o - 0xE00800) / 0x40) v s
  else if 0xE02000 ≤ o ∧ o < 0xE03000 then
    let d := o - 0xE02000
    doHopCoeffWrite (d / 0x40) (decide (0x20 ≤ d % 0x40)) (d % 0x20 / 4) v false s
  else if 0xE04000 ≤ o ∧ o % 8 = 4 then profWrite q o v s
  else plainWrite q .house r o v s

/-- A write into the SMG_ block. -/
def smgWrite (q : Requester) (r : RegRow) (o : Nat) (v : W32) (s : State) : State :=
  if 0x400100 ≤ o ∧ o < 0x400300 then
    let ring := (o - 0x400100) / 0x20
    let k := (o - 0x400100) % 0x20
    if k = 0xC then doRingTailWrite ring v.toNat s
    else if k < 0xC then doSmgRingCtrlWrite q ring (k / 4) v s
    else s
  else plainWrite q .house r o v s

/-- A write of a house register (R524): the ones that set something off, then the plain ones. -/
def houseWrite (q : Requester) (r : RegRow) (o : Nat) (v : W32) (s : State) : State :=
  let plain := plainWrite q .house r o v
  match o / 0x100000 with
  | 0 => if o = 0xC then devCtrl v.toNat s else plain s
  | 1 =>
    if o = 0x100004 then prkCtrl v.toNat s
    else if o = 0x100024 then
      let c := formed s q 0x100020 (s.reg 0x100020 0) v
      setApplyCue c (takeHigh q 0x100020 v s)
    else if 0x110000 ≤ o then doPrkApertureWrite (o - 0x110000) [v] s
    else plain s
  | 2 =>
    if o = 0x200004 then doCueCtrlWrite v s
    else if o = 0x20001C then doCueStepWrite q v s
    else if o = 0x200028 then doCueRateAdjWrite v s
    else if o = 0x200050 then doCueCalCtrl v s
    else if o = 0x200208 then doCuePostCmd v s
    else if o = 0x200210 then doCueCancelWrite v s
    else if o = 0x20800C then doClkGateReqWrite v s
    else plain s
  | 3 => if o = 0x300104 then doHfeNetCtrlWrite v s else if o = 0x300100 then showNet (plain s) else plain s
  | 4 => smgWrite q r o v s
  | 5 => if o = 0x500030 then doBobRetire v s else plain s
  | 7 => if o = 0x780014 then doCbdCursorWrite q v s else plain s
  | 9 => if o = 0x900048 then (if bits v.toNat 31 28 = 1 then doScrSlotErase s else s) else plain s
  | 0xA => if o = 0xA00080 then doTrlCkptCtrl v s else plain s
  | 0xB => if o = 0xB00038 then hrCtrl v.toNat s else plain s
  | 0xD =>
    if 0xD00100 ≤ o ∧ o < 0xD00200 ∧ o % 0x40 = 0 then actCtrl ((o - 0xD00100) / 0x40) v.toNat s
    else if 0xD00100 ≤ o ∧ o < 0xD00200 ∧ o % 0x40 = 0x18 then doRchPaCmd ((o - 0xD00100) / 0x40) v s
    else plain s
  | 0xE => hopWrite q r o v s
  | 0xF => if o = 0xF00018 then doMlkCmd v s else if o = 0xF00020 then doMlkResync v s else plain s
  | 0x10 =>
    if o = 0x1000010 then
      (if bits v.toNat 1 0 = 1 then doDmcFreqToA s else if bits v.toNat 1 0 = 2 then doDmcFreqToB s else s)
    else if o = 0x100002C then (if bits v.toNat 31 28 = 1 then doDmcRetire (bits v.toNat 1 0) s else s)
    else plain s
  | 0x12 => if o = 0x128003C then doSmpCursorWrite q v s else plain s
  | _ => plain s

/-- TW_ARC_CTRL is written (R162): what an IMPORT's first pass finds in the bag is a free value. [DESIGN CHOICE: log entry 18] -/
def arcCtrl (tag v : Nat) (s : State) : State :=
  let cmd := bits v 3 0
  if cmd = 1 then doArcExport tag s
  else if cmd = 2 then
    let (a, s) := freeBit s
    let (b, s) := freeBit s
    doArcImport tag { bagitOk := a, hasManifest := b } s
  else if cmd = 3 then doArcAbort tag s
  else if cmd = 4 then doArcProvenance tag s
  else s

/-- TW_KEY_CMD is written (R404). -/
def keyCmd (tag v : Nat) (s : State) : State :=
  let cmd := bits v 31 28
  if cmd = 1 then doTwKeyDeriveMac tag (bits v 15 0) s
  else if cmd = 2 then doTwKeyDeriveCmac tag (bits v 15 0) s
  else if cmd = 3 then doTwKeyErase tag s
  else s

/-- A write of a tenant-window register (R525). [DESIGN CHOICE: log entry 20] -/
def tenantWrite (q : Requester) (tag : Nat) (r : RegRow) (o : Nat) (v : W32) (s : State) : State :=
  let j := (o - 0x1000) / 0x40
  let k := (o - 0x1000) % 0x40
  if 0x1000 ≤ o ∧ o < 0x1100 ∧ k = 0 then
    (if bits v.toNat 31 28 = 1 then doTwTlyStart tag j v s else if bits v.toNat 31 28 = 2 then doTwTlyAbort tag j s else s)
  else if 0x1000 ≤ o ∧ o < 0x1100 ∧ k = 0x20 then holdLow q (regKey (.tenant tag) o) v s
  else if 0x1000 ≤ o ∧ o < 0x1100 ∧ k = 0x24 then doTwTlyDataHi q tag j v s
  else if 0x1000 ≤ o ∧ o < 0x1100 ∧ k = 0x30 then doTwTlyLastVb tag j v.toNat s
  else if o = 0x1814 then doTwTlyPrCursorWrite q tag v s
  else if o = 0x2014 then doTwCbCursorWrite q tag v s
  else if o = 0x3014 then doTwSmpCursorWrite q tag v s
  else if o = 0x6040 then
    (match q with
    | .function p f => doTwEvtCtrlWrite (p * 2 ^ 15 + f) tag v s
    | _ => storeRw (.tenant tag) o v.toNat s)
  else if o = 0x7000 then arcCtrl tag v.toNat s
  else if o = 0x800C then keyCmd tag v.toNat s
  else plainWrite q (.tenant tag) r o v s

/-- One 32-bit register is written (R8-R13, R524). -/
def writeReg (q : Requester) (w : Window) (o : Nat) (v : W32) (s : State) : State :=
  if !(mayReach s q w && windowsOpen s) then s
  else
    match regRow w o with
    | none => s
    | some r =>
      if !writable s r.selector then s
      else if isRwl w o then rwlWrite w o v s
      else match w with
        | .house => houseWrite q r o v s
        | .tenant tag => tenantWrite q tag r o v s

/-- A write of any width by its words (R9): only aligned writes of one or two words; any other is discarded. -/
def writeSplit (word : Nat → W32 → State → State) (off size val : Nat) (s : State) : State :=
  if size = 4 ∧ off % 4 = 0 then word off (BitVec.ofNat 32 val) s
  else if size = 8 ∧ off % 8 = 0 then word (off + 4) (BitVec.ofNat 32 (val / 2 ^ 32)) (word off (BitVec.ofNat 32 val) s)
  else s

/-- A window write. -/
def writeWindow (q : Requester) (w : Window) (off size val : Nat) (s : State) : State :=
  writeSplit (fun o v s => writeReg q w o v s) off size val s

/-! ### The register rows -/

/-- A write of any width (R9). -/
def doRegisterWrite (q : Requester) (w : Window) (off size : Nat) (val : BitVec 64) (s : State) : State :=
  writeWindow q w off size val.toNat s

/-- A write of a 64-bit quantity's low word (R8). -/
def doLowWordWrite (q : Requester) (w : Window) (off : Nat) (val : W32) (s : State) : State :=
  onlyIf (lowOf w off == some off) (writeReg q w off val) s

/-- A write of a 64-bit quantity's high word (R8). -/
def doHighWordWrite (q : Requester) (w : Window) (off : Nat) (val : W32) (s : State) : State :=
  onlyIf ((lowOf w off).any (fun o => o + 4 == off)) (writeReg q w off val) s

/-- A read of a 64-bit quantity's low word (R8). -/
def doLowWordRead (q : Requester) (w : Window) (off : Nat) (s : State) : State :=
  if lowOf w off = some off then
    let (v, s) := readReg q w off 0 s
    returnRead v 4 s
  else s

/-- A read of a 64-bit quantity's high word (R8). -/
def doHighWordRead (q : Requester) (w : Window) (off : Nat) (s : State) : State :=
  if (lowOf w off).any (fun o => o + 4 == off) then
    let (v, s) := readReg q w off 0 s
    returnRead v 4 s
  else s

/-- A read of an RC register in the cycle of a hardware update of it (R12, R14); any width (R9). -/
def doReadClear (q : Requester) (w : Window) (off size upd : Nat) (s : State) : State :=
  let (v, s) := readWindow q w off size upd s
  returnRead v size s

end Sys2Proof.Machine
end

