-- ==== Sys2Proof/Machine/Manage.lean ====
section
/-! DEFINITION. PCIe transactions into the BARs (R80, R102), firmware images and their live activation (R106, R131, R424, R485), the
management endpoint (R94, R418, R486). -/
namespace Sys2Proof.Machine

/-! ### BAR0 (R80, R81, R95, R108, R129) -/

/-- The number of the controller on a function: the one that runs, else the record's instance, else a vacant VF's. [DESIGN CHOICE: log entry 41] -/
def State.fnNumber (s : State) (port fn : Nat) : Nat :=
  if fn = 0 then (if port = 0 then 0 else 8193)
  else match s.hfe.ctrls.find? (fun k => k.2.transport == 0 && k.2.port == port && k.2.fn == fn && (k.2.enabled || k.2.resetting || k.2.cfs)) with
    | some k => k.1
    | none => ((s.fnRecord port fn).map (fun r => r.1)).getD (vacantBase + port * 2 ^ 15 + fn)

/-- The key of a register written through BAR0. -/
def bar0Key (port fn off : Nat) : Nat := (port * 2 ^ 15 + fn) * 2 ^ 17 + off

/-- A register written through BAR0 as it was last written. -/
def State.bar0At (s : State) (port fn off : Nat) : W32 := Tab.at s.hfe.bar0 (bar0Key port fn off) 0

/-- A register of BAR0: CAP, CC, CSTS, AQA, ASQ, ACQ at the places the NVMe standard gives them; the MSI-X table as written. [PRESUMED: log entry 52] -/
def bar0Value (s : State) (port fn off : Nat) : Nat :=
  let k := s.ctrlOf (s.fnNumber port fn)
  let on := (k.map (fun k => k.enabled || k.cfs)).getD false
  if off = 0x0 then s.maxEntries (s.fnNumber port fn) - 1 + flag true 17 + 60 * 2 ^ 24
  else if off = 0x14 then (s.bar0At port fn 0x14).toNat / 2 * 2 + flag on 0
  else if off = 0x1C then flag ((k.map (fun k => k.ready)).getD false) 0 + flag ((k.map (fun k => k.cfs)).getD false) 1
  else if (0x24 ≤ off ∧ off < 0x38) ∨ (0x10000 ≤ off ∧ off < 0x18000) then (s.bar0At port fn off).toNat
  else 0

/-- A word of BAR0 is written: CC moves EN, a doorbell moves a queue, the rest is kept. [PRESUMED: log entry 52; DESIGN CHOICE: log entries 53, 54] -/
def bar0Write (port fn off : Nat) (v : W32) (s : State) : State :=
  let keep := { s with hfe := { s.hfe with bar0 := Tab.put s.hfe.bar0 (bar0Key port fn off) v } }
  let c := s.fnNumber port fn
  if off = 0x14 then
    if v.toNat.testBit 0 then doControllerEnable c (s.bar0At port fn 0x24) keep else doControllerDisable c keep
  else if (0x24 ≤ off ∧ off < 0x38) ∨ (0x10000 ≤ off ∧ off < 0x18000) then keep
  else if 0x1000 ≤ off ∧ off < 0x10000 then
    let i := (off - 0x1000) / 4
    doDoorbellWrite c (i % 2 == 1) (i / 2) (v.toNat % 65536) s
  else s

/-- A read in a BAR: BAR0, the tenant window, the house window; a vacant VF's BAR2 holds nothing (R80, R81). -/
def barRead (port fn bar off size : Nat) (s : State) : Nat × State :=
  if bar = 0 then readSplit (fun o s => (bar0Value s port fn o, s)) off size s
  else if bar = 2 then
    match windowTag s port fn with
    | some t => readWindow (.function port fn) (.tenant t) off size 0 s
    | none => (0, s)
  else readWindow (.function port fn) .house off size 0 s

/-- A write in a BAR. -/
def barWrite (port fn bar off size val : Nat) (s : State) : State :=
  if bar = 0 then writeSplit (fun o v s => bar0Write port fn o v s) off size val s
  else if bar = 2 then
    match windowTag s port fn with
    | some t => writeWindow (.function port fn) (.tenant t) off size val s
    | none => s
  else writeWindow (.function port fn) .house off size val s

/-- Is the function there: a PF, or a VF that VF Enable shows (R82, R102)? -/
def fnEnabled (s : State) (port fn : Nat) : Bool := fn == 0 || decide (fn ≤ s.numVfs port)

/-- Does an access fall inside a BAR of the function (R80)? BAR4 is PF0's of P0. -/
def insideBar (port fn : Nat) (bar : Option Nat) (off size : Nat) : Bool :=
  match bar with
  | some 0 => decide (off + size ≤ 0x20000)
  | some 2 => decide (off + size ≤ 0x10000)
  | some 4 => port == 0 && fn == 0 && decide (off + size ≤ 0x4000000)
  | _ => false

/-- A request outside every BAR, or to a disabled VF: EV001 (R102). -/
def unsupported (port fn : Nat) (s : State) : State :=
  emit (.aer port fn .unsupported) (emit (.unsupportedRequest port fn) (raiseObj 1 fn (s.fnTag port fn) s))

/-- A TLP on a port whose link is up (R80, R102): EV009 for a failed IDE check, EV000 for a malformed one, EV001 and EV002. [DEDUCED: log entries 55, 56] -/
def doPcieTlp (port fn : Nat) (t : Tlp) (s : State) : State :=
  if !(s.link port).up then s
  else
    match t.ideFailed with
    | some st =>
      emit (.aer port fn .ideCheck) (raiseObj 9 st (s.fnTag port fn)
        { s with hfe := { s.hfe with ide := Tab.modify s.hfe.ide st (fun x => { x with insecure := true }) } })
    | none =>
      if t.malformed then emit (.aer port fn .malformed) (raiseObj 0 fn (s.fnTag port fn) s)
      else
        match t.kind with
        | .completion rid => doPcieCompletion rid (if t.poisoned then .poisoned else .ok) [] s
        | .read bar off size =>
          if !fnEnabled s port fn ∨ !insideBar port fn bar off size then unsupported port fn s
          else
            let (v, s) := barRead port fn (bar.getD 0) off size s
            emit (.readCompletion port fn v) s
        | .write bar off size val =>
          if !fnEnabled s port fn ∨ !insideBar port fn bar off size then unsupported port fn s
          else if t.poisoned then emit (.aer port fn .poisoned) (raiseObj 2 fn (s.fnTag port fn) s)
          else barWrite port fn (bar.getD 0) off size val s

/-! ### Firmware images (R106, R484, R485) -/

/-- A piece of an image: one at offset 0 begins a new image; one that does not go on where the last ended leaves an image that cannot
verify. [DEDUCED: log entry 74] -/
def takePiece (offset : Nat) (img : FwImage) (s : State) : State :=
  let whole := offset == 0 || (offset == s.scn.downloadLen && (s.scn.download.map (fun d => d.verifies)).getD false)
  { s with scn := { s.scn with
      download := some { img with verifies := img.verifies && whole }
      downloadLen := offset + img.len } }

/-- Firmware Image Download. [DEDUCED: log entry 74] -/
def doFirmwareImageDownload (h : CmdHdr) (offset : Nat) (img : FwImage) (s : State) : State :=
  fetched h 0x11 .houseAdmin (fun s => endAtOnce h 0x11 stOk 0 (takePiece offset img s)) s

/-- Statuses of Firmware Commit: Invalid Firmware Slot, Invalid Firmware Image, Firmware Activation Requires Maximum Time Violation. [PRESUMED: log entry 75] -/
def stFwSlot : Status := ⟨1, 0x06, true⟩
def stFwImage : Status := ⟨1, 0x07, true⟩
def stFwTime : Status := ⟨1, 0x12, false⟩

/-- The downloaded image as a slot holds it: written whole only once its last piece has come (R484: at most 12 MiB). -/
def slotOf (d : FwImage) : FwSlot :=
  { readable := d.last, verifies := d.verifies, svn := d.svn, version := d.version, safetyImage := d.safetyImage }

/-- Commit actions 000b, 001b and 010b (R485): the slot written, FW_NEXT set, or both. -/
def commitSlot (action slot : Nat) (s : State) : Status × State :=
  if slot < 1 ∨ 3 < slot then (stFwSlot, s)
  else if 2 < action then (stInvalidField, s)
  else if action = 2 then
    if Tab.has s.dev.fwSlots slot then (stOk, writeBoot (fun b => { b with fwNext := slot }) s) else (stFwSlot, s)
  else
    match s.scn.download with
    | none => (stFwImage, s)
    | some d =>
      if 12 * 2 ^ 20 < s.scn.downloadLen then (stFwImage, s)
      else
        let s := onDev (fun x => { x with fwSlots := Tab.put x.fwSlots slot (slotOf d) }) s
        let s := { s with scn := { s.scn with download := none, downloadLen := 0 } }
        (stOk, if action = 1 then writeBoot (fun b => { b with fwNext := slot }) s else s)

/-- Firmware Commit with an action that does not activate live. -/
def doFirmwareCommit (h : CmdHdr) (action slot : Nat) (s : State) : State :=
  fetched h 0x10 .houseAdmin (fun s =>
    let (st, s) := commitSlot action slot s
    endAtOnce h 0x10 st 0 s) s

/-! ### Live activation (R131, R424, R425) -/

/-- The image that a live activation may bring: its slot holds one that boots (R485). [DESIGN CHOICE: log entry 77] -/
def activable (s : State) (slot : Nat) : Option FwSlot :=
  (Tab.find s.dev.fwSlots slot).filter (fun x => x.readable && x.verifies && decide (s.dev.fwFloor ≤ x.svn))

/-- Does the image carry another Safety Curtain image than the active one (R424)? [DEDUCED: log entry 79] -/
def needsSwitch (s : State) (x : FwSlot) : Bool := x.safetyImage != s.saf.imageActive

/-- The Firmware Activation Starting notice, to every controller that enabled it (feature 0x0B, bit 9). [PRESUMED: log entry 78] -/
def activationNotice (s : State) : State :=
  s.hfe.ctrls.foldl (fun s p =>
    if p.2.enabled ∧ (Tab.at (s.side p.1).features 0x0B 0).testBit 9 then standardAen p.1 2 0x01 0x03 s else s) s

/-- An activation begins: the notice, no more fetching, the Safety Curtain image loaded into the standby core (R131, R424). -/
def beginActivation (o : Option Nat) (slot : Nat) (x : FwSlot) (s : State) : State :=
  let s := activationNotice s
  let s := if needsSwitch s x ∧ s.saf.standbyReady then onSaf (fun f => { f with imageStandby := x.safetyImage }) s else s
  { s with scn := { s.scn with act := some { scene := o, slot := slot, start := s.wall }, abandoned := false } }

/-- Firmware Commit 011b. [DESIGN CHOICE: log entry 77] -/
def doFirmwareActivate (h : CmdHdr) (slot : Nat) (s : State) : State :=
  fetched h 0x10 .houseAdmin (fun s =>
    match activable s slot with
    | none => failCmd h 0x10 (if Tab.has s.dev.fwSlots slot then stFwImage else stFwSlot) s
    | some x =>
      let (o, s) := openScene h 0x10 (.fwCommit slot) 0 s
      beginActivation (some o) slot x s) s

/-- Keep-alive deadlines are extended by the pause (R131). -/
def extendKeepAlive (ns : Nat) (s : State) : State :=
  { s with hfe := { s.hfe with
      ctrls := Tab.mapVals s.hfe.ctrls (fun _ k => { k with assoc := k.assoc.map (fun a => { a with lastAlive := a.lastAlive + ns }) }) } }

/-! ### The management endpoint (R94, R418, R486) -/

/-- A tunnelled admin command of another kind goes to the admin queue of P0's house controller, where its own row runs it. [DEDUCED: log entry 63] -/
def tunnel (s : State) : Option State :=
  match s.ctrlOf 0, s.sqOf 0 0 with
  | some k, some q =>
    if k.enabled ∧ k.ready ∧ (q.tail + 1) % (max 1 q.size) ≠ q.head then
      some (onSq 0 0 (fun q => { q with tail := (q.tail + 1) % (max 1 q.size) }) s)
    else none
  | _, _ => none

/-- A management command is answered. [DEDUCED: log entry 64] -/
def miStatus (st : Status) : Output := .miResponse (statusBits st)

/-- What a management message gets (R94, R486): its answer, and what it does. [DEDUCED: log entry 63] -/
def serveMi (b : MiBody) (s : State) : Option Output × State :=
  let refuse := (some Output.miInvalidParameter, raiseObj 50 0 0 s)
  let curtain := decide (s.dev.phase = .curtainDown)
  match b with
  | .basic => (some .miBasic, s)
  | .setAddress a => (some (.miResponse 0), { s with hfe := { s.hfe with mctpAddr := a % 128 } })
  | .readWindow off size =>
    let (v, s) := readWindow .mi .house off size 0 s
    (some (.miResponse v), s)
  | .writeWindow off size val => (some (.miResponse 0), writeWindow .mi .house off size val s)
  | .spdm k => (none, doSpdmRequest { req := .mi, kind := k } s)
  | .tunnelled c _ =>
    if c ≠ 0 then refuse
    else if s.dev.recovery then (some .miInvalidParameter, s)
    else match tunnel s with
      | some s => (some (.miResponse 0), s)
      | none => (some (miStatus stNotReady), s)
  | .fwDownload c off img =>
    if c ≠ 0 then refuse
    else if curtain then (some (miStatus stNotReady), s)
    else (some (miStatus stOk), takePiece off img s)
  | .fwCommit c action slot =>
    if c ≠ 0 then refuse
    else if curtain then (some (miStatus stNotReady), s)
    else if action = 3 ∧ !s.dev.recovery then
      match activable s slot with
      | none => (some (miStatus (if Tab.has s.dev.fwSlots slot then stFwImage else stFwSlot)), s)
      | some x => (none, beginActivation none slot x s)
    else
      let (st, s) := commitSlot action slot s
      (some (miStatus st), s)

/-- A message that passed its packet checks (EV049, EV050). [DEDUCED: log entry 64] -/
def checkMi (m : MiMsg) (s : State) : Option Output × State :=
  if m.body ≠ .basic ∧ !m.micOk then (none, raiseObj 49 0 0 s)
  else if 4224 < m.len then (some .miInvalidParameter, raiseObj 50 0 0 s)
  else serveMi m.body s

/-- An answer goes out, where there is one. -/
def answerMi (p : Option Output × State) : State :=
  match p.1 with
  | some o => emit o p.2
  | none => p.2

/-- The requests that waited for an activation are served (R131), while none of them starts another. [DEDUCED: log entry 65] -/
def serveHeld : List MiMsg → State → State
  | [], s => s
  | m :: l, s =>
    if s.scn.act.isSome then { s with scn := { s.scn with miHeld := s.scn.miHeld ++ m :: l } }
    else serveHeld l (answerMi (checkMi m s))

/-- An activation is over: its command completes, fetching goes on, held management requests are served (R131). [DEDUCED: log entry 162] -/
def finishActivation (a : Activation) (st : Status) (s : State) : State :=
  let held := s.scn.miHeld
  let s := { s with scn := { s.scn with act := none, miHeld := [], actMicros := min ((s.wall - a.start) / 1000) (2 ^ 32 - 1) } }
  let s := extendKeepAlive (s.wall - a.start) s
  let s := match a.scene with
    | some o => if isOk st then retire o st 0 s else rollBack o st s
    | none => emit (miStatus st) s
  serveHeld held (goOn s)

/-- The new image takes over (R131, R424, R485): FW_NEXT names its slot; a device in Performance has reached it on that image. [DEDUCED: log entries 76, 80] -/
def takeImage (slot : Nat) (x : FwSlot) (s : State) : State :=
  let s := onDev (fun d => { d with booted := slot, bootedSvn := x.svn }) s
  let perf := decide (s.dev.phase = .performance)
  let s := writeBoot (fun b => { b with fwNext := slot, fwGood := if perf then slot else b.fwGood }) s
  let s := if perf then onDev (fun d => { d with fwFloor := max d.fwFloor x.svn }) s else s
  if needsSwitch s x then startSwitch false s else s

/-- The drain has ended: every other scene has completed (R131). A switchover that is needed is refused without a ready standby core, and
the activation fails (R425). [DEDUCED: log entries 76, 79, 80] -/
def doFirmwareActivationSwitch (s : State) : State :=
  match s.scn.act with
  | none => s
  | some a =>
    if s.inFlight a ∨ !s.runs then s
    else
      match activable s a.slot with
      | none => finishActivation a stFwImage s
      | some x =>
        if needsSwitch s x ∧ (!s.saf.standbyReady ∨ s.saf.switching.isSome) then finishActivation a stFwTime s
        else finishActivation a stOk (takeImage a.slot x s)

/-- MTFA, 2.0 s, has passed (R131). [DEDUCED: log entry 80] -/
def doActivationTimeout (s : State) : State :=
  match s.scn.act with
  | none => s
  | some a =>
    if s.wall < a.start + 2000000000 then s
    else finishActivation a stFwTime { s with scn := { s.scn with abandoned := true } }

/-- A message over SMBus or I3C (R94): EV048 for a bad packet; during an activation it is held (R131). [DEDUCED: log entry 65] -/
def doMiMessage (m : MiMsg) (s : State) : State :=
  if !s.powered then s
  else if !m.packetOk then raiseObj 48 0 0 s
  else if s.scn.act.isSome then { s with scn := { s.scn with miHeld := s.scn.miHeld ++ [m] } }
  else serveHeld (s.scn.miHeld ++ [m]) { s with scn := { s.scn with miHeld := [] } }

/-- NVMe-MI Send over the house controller: the answer waits for NVMe-MI Receive. -/
def doNvmeMiSend (h : CmdHdr) (m : MiMsg) (s : State) : State :=
  fetched h 0x1D .houseAdmin (fun s =>
    let (r, s) := checkMi m s
    endAtOnce h 0x1D stOk 0 { s with scn := { s.scn with miReply := r } }) s

/-- NVMe-MI Receive returns the answer that waits; with none it fails with Command Sequence Error. [DEDUCED: log entry 64] -/
def doNvmeMiReceive (h : CmdHdr) (s : State) : State :=
  fetched h 0x1E .houseAdmin (fun s =>
    match s.scn.miReply with
    | some o => endAtOnce h 0x1E stOk 0 (emit o { s with scn := { s.scn with miReply := none } })
    | none => failCmd h 0x1E stSequence s) s

end Sys2Proof.Machine
end

