-- ==== Sys2Proof/Machine/MeaningsA.lean ====
section
/-! DEFINITION. The meanings of the commands, one per row of the table: registers, the Pricking, clocks and cues, the host transports. Each takes its effect from the
operation of its chapter. -/
namespace Sys2Proof.Machine

/-- A write to a register that has no row of its own; a write narrower than 32 bits, wider than 64 bits or misaligned is discarded and completes normally, otherwise the field is set as its access code states. (R9) -/
def execRegisterWrite (req : Requester) (win : Window) (off size : Nat) (val : BitVec 64) (s : State) : Host.Outcome State Fault Refusal :=
  .next (doRegisterWrite req win off size val s)

/-- A write of the low word of a 64-bit quantity is held as that requester's pending low word and changes nothing in effect. (R8) -/
def execLowWordWrite (req : Requester) (win : Window) (off : Nat) (val : BitVec 32) (s : State) : Host.Outcome State Fault Refusal :=
  .next (doLowWordWrite req win off val s)

/-- A write of the high word makes the 64-bit quantity take effect at once with the requester's pending low word, which is then used up. (R8) -/
def execHighWordWrite (req : Requester) (win : Window) (off : Nat) (val : BitVec 32) (s : State) : Host.Outcome State Fault Refusal :=
  .next (doHighWordWrite req win off val s)

/-- A read of the low word of a 64-bit quantity returns the low half and latches the high half for that requester. (R8) -/
def execLowWordRead (req : Requester) (win : Window) (off : Nat) (s : State) : Host.Outcome State Fault Refusal :=
  .next (doLowWordRead req win off s)

/-- A read of the high word returns the latched half and uses up the latch if the same requester read the low word since, otherwise the high half in effect. (R8) -/
def execHighWordRead (req : Requester) (win : Window) (off : Nat) (s : State) : Host.Outcome State Fault Refusal :=
  .next (doHighWordRead req win off s)

/-- A read of an RC field returns its value and clears it to its reset value, keeping any hardware update made in the same cycle. (R12) -/
def execReadClear (req : Requester) (win : Window) (off size : Nat) (hwUpdate : Nat) (s : State) : Host.Outcome State Fault Refusal :=
  .next (doReadClear req win off size hwUpdate s)

/-- A transaction reaching a unit boundary is checked against the owner tag and route and acted on or refused without effect. (R18) -/
def execGroundTransaction (t : GroundTx) (s : State) : Host.Outcome State Fault Refusal :=
  .next (doGroundTransaction t s)

/-- The VERIFY command makes every loader check on the supplied image without applying it. (R37) -/
def execPrkVerify (aperture : Bool) (img : PrkImage) (s : State) : Host.Outcome State Fault Refusal :=
  .next (doPrkVerify aperture img s)

/-- The APPLY command checks a partial or full image and, on success, puts the touched units into Intermission to drain. (R41) -/
def execPrkApply (aperture : Bool) (img : PrkImage) (s : State) : Host.Outcome State Fault Refusal :=
  .next (doPrkApply aperture img s)

/-- The STORE command checks a full image and writes it to the inactive boot slot. (R44) -/
def execPrkStore (aperture : Bool) (img : PrkImage) (s : State) : Host.Outcome State Fault Refusal :=
  .next (doPrkStore aperture img s)

/-- The ABORT command abandons an APPLY or STORE not yet past its point of no return, or sets DONE_BEFORE_ABORT. (R43) -/
def execPrkAbort (s : State) : Host.Outcome State Fault Refusal :=
  .next (doPrkAbort s)

/-- The image fetch by DMA from PF0 completes and the loader begins its checks. (R37) -/
def execPrkImageFetched (img : PrkImage) (s : State) : Host.Outcome State Fault Refusal :=
  .next (doPrkImageFetched img s)

/-- A write into the 64 KiB aperture is taken word by word into the image buffer at PRK_APT_OFFSET. (R45) -/
def execPrkApertureWrite (off : Nat) (words : List (BitVec 32)) (s : State) : Host.Outcome State Fault Refusal :=
  .next (doPrkApertureWrite off words s)

/-- The last touched unit reports drained, and the change takes effect if the apply cue has passed. (R41) -/
def execIntermissionDrained (unit : Nat) (s : State) : Host.Outcome State Fault Refusal :=
  .next (doIntermissionDrained unit s)

/-- The drain has not ended PRK_DRAIN_LIMIT ms after Intermission began, so the load is abandoned with ERR 0x20. (R42) -/
def execDrainLimitExpiry (s : State) : Host.Outcome State Fault Refusal :=
  .next (doDrainLimitExpiry s)

/-- The image written to the inactive slot is read back and verified, the active-slot pointer switched and the rollback floor raised. (R44) -/
def execStoreSlotWritten (readBackOk : Bool) (s : State) : Host.Outcome State Fault Refusal :=
  .next (doStoreSlotWritten readBackOk s)

/-- After the firmware is verified, the loader checks and applies the active boot slot image, falling back to the other slot, and enters House Lights. (R38) -/
def execPrickingBootLoad (m : MediaFacts) (s : State) : Host.Outcome State Fault Refusal :=
  .next (doPrickingBootLoad m s)

/-- A write to CLK_GATE_REQ requests a stop of domains with software stop rights, or cancels a pending stop. (R51) -/
def execClkGateReqWrite (val : BitVec 32) (s : State) : Host.Outcome State Fault Refusal :=
  .next (doClkGateReqWrite val s)

/-- A requested domain whose unit meets its stop condition stops at an alignment edge. (R51) -/
def execClockDomainStop (dom : Nat) (s : State) : Host.Outcome State Fault Refusal :=
  .next (doClockDomainStop dom s)

/-- A stopped domain whose request is cleared starts at the second alignment edge after the clear. (R51) -/
def execClockDomainStart (dom : Nat) (s : State) : Host.Outcome State Fault Refusal :=
  .next (doClockDomainStart dom s)

/-- At the end of each 10 ms averaging interval the REFCLK offset is judged and REF_PPM set or a clock alarm raised. (R52) -/
def execRefclkMeterInterval (tenthPpm : Int) (s : State) : Host.Outcome State Fault Refusal :=
  .next (doRefclkMeterInterval tenthPpm s)

/-- REFCLK absence, root PLL loss of lock or a glitch on CK_SEC or CK_CUE raises a clock alarm, a tamper alarm. (R52) -/
def execClockAlarm (cause : ClockAlarm) (s : State) : Host.Outcome State Fault Refusal :=
  .next (doClockAlarm cause s)

/-- A write of CUE_STEP_HI in House Lights requests a forward step of the cue counter, and is discarded otherwise. (R55) -/
def execCueStepWrite (req : Requester) (hi : BitVec 32) (s : State) : Host.Outcome State Fault Refusal :=
  .next (doCueStepWrite req hi s)

/-- Every 64 ticks the master sends the counter value and adjustment code to every tap. (R57) -/
def execCueBroadcast (drift : List (Nat × Int)) (s : State) : Host.Outcome State Fault Refusal :=
  .next (doCueBroadcast drift s)

/-- Every 24 hours, or after a 10 °C change, a tap's skew compensation is re-measured while it keeps counting. (R59) -/
def execTapSkewMeasure (tap : Nat) (comp : Int) (dieTemp : Int) (s : State) : Host.Outcome State Fault Refusal :=
  .next (doTapSkewMeasure tap comp dieTemp s)

/-- A write to CUE_CAL_CTRL starts the re-measurement of one tap or of all taps. (R59) -/
def execCueCalCtrl (val : BitVec 32) (s : State) : Host.Outcome State Fault Refusal :=
  .next (doCueCalCtrl val s)

/-- A write to CUE_CTRL selects the discipline source, and a source not enabled in CLK_PLAN is not taken. (R61) -/
def execCueCtrlWrite (val : BitVec 32) (s : State) : Host.Outcome State Fault Refusal :=
  .next (doCueCtrlWrite val s)

/-- A write to CUE_RATE_ADJ is clamped to the maximum slew and acts from the period the next broadcast opens. (R64) -/
def execCueRateAdjWrite (val : BitVec 32) (s : State) : Host.Outcome State Fault Refusal :=
  .next (doCueRateAdjWrite val s)

/-- A PTP event message crossing an Ethernet MAC is stamped with the tap cue for the firmware servo. (R62) -/
def execPtpEventMessage (port : Nat) (ingress : Bool) (servo : ServoReport) (s : State) : Host.Outcome State Fault Refusal :=
  .next (doPtpEventMessage port ingress servo s)

/-- A PTM request or response is stamped with the tap cue for the firmware servo. (R62) -/
def execPtmResponse (servo : ServoReport) (s : State) : Host.Outcome State Fault Refusal :=
  .next (doPtmResponse servo s)

/-- No Sync for 8 announced intervals, or PTM lost, sets HOLDOVER and keeps the last rate. (R65) -/
def execDisciplineSourceLost (s : State) : Host.Outcome State Fault Refusal :=
  .next (doDisciplineSourceLost s)

/-- A unit posts a cue into its slot share; a full share refuses it with NO_SLOT, and a post under the horizon is late. (R66) -/
def execCuePost (poster : Poster) (c : CueReq) (s : State) : Host.Outcome State Fault Refusal :=
  .next (doCuePost poster c s)

/-- A posted cue arrives and is armed at its target tap, firing at once if its fire time has passed. (R67) -/
def execCueArm (slot : Nat) (s : State) : Host.Outcome State Fault Refusal :=
  .next (doCueArm slot s)

/-- A cue fires when its target tap first reads a value at or above its fire time, its action is applied and its slot freed. (R67) -/
def execCueFire (slot : Nat) (s : State) : Host.Outcome State Fault Refusal :=
  .next (doCueFire slot s)

/-- The posting unit cancels a cue; the cancel travels to the target tap. (R70) -/
def execCueCancel (poster : Poster) (slot : Nat) (s : State) : Host.Outcome State Fault Refusal :=
  .next (doCueCancel poster slot s)

/-- The cancel reaches the target tap, which decides CANCELLED or ALREADY_FIRED. (R70) -/
def execCancelArrival (slot : Nat) (s : State) : Host.Outcome State Fault Refusal :=
  .next (doCancelArrival slot s)

/-- A write to CUE_POST_CMD posts a house cue from the Prompters' share, discarded while the last result is PENDING. (R75) -/
def execCuePostCmd (val : BitVec 32) (s : State) : Host.Outcome State Fault Refusal :=
  .next (doCuePostCmd val s)

/-- A write to CUE_CANCEL cancels a house-posted cue, or returns status 0x2 for a slot without one. (R75) -/
def execCueCancelWrite (val : BitVec 32) (s : State) : Host.Outcome State Fault Refusal :=
  .next (doCueCancelWrite val s)

/-- At each beat boundary the delay lists release their due entries. (R72) -/
def execBeatBoundary (s : State) : Host.Outcome State Fault Refusal :=
  .next (doBeatBoundary s)

/-- A TLP received on a PCIe port is handled, or discarded with an AER report if it is malformed, poisoned, unexpected or fails IDE. (R102) -/
def execPcieTlp (port fn : Nat) (tlp : Tlp) (s : State) : Host.Outcome State Fault Refusal :=
  .next (doPcieTlp port fn tlp s)

/-- A doorbell write updates a queue tail or head, or is ignored with an asynchronous event when invalid. (R102) -/
def execDoorbellWrite (ctrl : Nat) (cq : Bool) (qid val : Nat) (s : State) : Host.Outcome State Fault Refusal :=
  .next (doDoorbellWrite ctrl cq qid val s)

/-- A completion for a device memory read delivers host data into staging. (R101) -/
def execPcieCompletion (rid : Nat) (status : CplStatus) (data : Bytes) (s : State) : Host.Outcome State Fault Refusal :=
  .next (doPcieCompletion rid status data s)

/-- A device memory read has no completion within the completion timeout, so its command fails with Data Transfer Error under EV003. (R101) -/
def execCompletionTimeout (rid : Nat) (s : State) : Host.Outcome State Fault Refusal :=
  .next (doCompletionTimeout rid s)

/-- A DOE data object for SPDM or IDE_KM is taken, or discarded with DOE Error on a bad length or busy mailbox. (R83) -/
def execDoeObject (port : Nat) (obj : DoeObject) (s : State) : Host.Outcome State Fault Refusal :=
  .next (doDoeObject port obj s)

/-- A PCIe link trains to L0 at a supported rate and width. (R78) -/
def execPcieLinkUp (port rate width : Nat) (flit l0p : Bool) (s : State) : Host.Outcome State Fault Refusal :=
  .next (doPcieLinkUp port rate width flit l0p s)

/-- Link down on a PCIe port resets every controller of that port. (R96) -/
def execPcieLinkDown (port : Nat) (s : State) : Host.Outcome State Fault Refusal :=
  .next (doPcieLinkDown port s)

/-- A function level reset resets the VF's controller, or for a PF clears VF Enable and resets its VFs. (R96) -/
def execFlr (port fn : Nat) (s : State) : Host.Outcome State Fault Refusal :=
  .next (doFlr port fn s)

/-- Clearing VF Enable or changing NumVFs resets every VF controller of the PF. (R96) -/
def execVfEnableChange (port : Nat) (enable : Bool) (numVfs : Nat) (s : State) : Host.Outcome State Fault Refusal :=
  .next (doVfEnableChange port enable numVfs s)

/-- A write of CC.EN = 1 readies the controller, or sets CSTS.CFS for a vacant VF or a bad admin queue size. (R81) -/
def execControllerEnable (ctrl : Nat) (aqa : BitVec 32) (s : State) : Host.Outcome State Fault Refusal :=
  .next (doControllerEnable ctrl aqa s)

/-- Clearing CC.EN resets the controller: fetch stops and roll-backs go to every unretired scene. (R129) -/
def execControllerDisable (ctrl : Nat) (s : State) : Host.Outcome State Fault Refusal :=
  .next (doControllerDisable ctrl s)

/-- An Ethernet frame is received on a logical port, or dropped on FCS error, runt or oversize. (R85) -/
def execEthFrame (port : Nat) (f : EthFrame) (s : State) : Host.Outcome State Fault Refusal :=
  .next (doEthFrame port f s)

/-- A received PAUSE or PFC frame stops transmission on that port or priority. (R86) -/
def execPauseFrame (port : Nat) (prio : Option Nat) (on : Bool) (s : State) : Host.Outcome State Fault Refusal :=
  .next (doPauseFrame port prio on s)

/-- A received CNP halves that queue pair's send rate. (R86) -/
def execCnpReceived (qp : Nat) (s : State) : Host.Outcome State Fault Refusal :=
  .next (doCnpReceived qp s)

/-- Every 55 µs a throttled queue pair's rate recovers by 5% of line rate. (R86) -/
def execRateRecoveryStep (qp : Nat) (s : State) : Host.Outcome State Fault Refusal :=
  .next (doRateRecoveryStep qp s)

/-- Auto-negotiation and link training bring a logical port up at a supported PHY type. (R84) -/
def execEthLinkUp (port : Nat) (phy : EthPhy) (s : State) : Host.Outcome State Fault Refusal :=
  .next (doEthLinkUp port phy s)

/-- A logical port goes down, ending associations whose admin connection runs on it. (R96) -/
def execLogicalPortDown (port : Nat) (s : State) : Host.Outcome State Fault Refusal :=
  .next (doLogicalPortDown port s)

/-- An NVMe/TCP ICReq is accepted with its digest and alignment options or answered with C2HTermReq. (R91) -/
def execTcpIcreq (conn : Nat) (ic : IcReq) (s : State) : Host.Outcome State Fault Refusal :=
  .next (doTcpIcreq conn ic s)

/-- A command capsule arrives on an NVMe/TCP connection and is queued, or held when in-capsule data has no room. (R100) -/
def execTcpCapsule (conn : Nat) (cap : Capsule) (s : State) : Host.Outcome State Fault Refusal :=
  .next (doTcpCapsule conn cap s)

/-- An H2CData PDU delivers data for an outstanding R2T, or causes termination when out of range or too long. (R102) -/
def execH2cData (conn : Nat) (pdu : H2cPdu) (s : State) : Host.Outcome State Fault Refusal :=
  .next (doH2cData conn pdu s)

/-- Loss of a TCP connection deletes its queue and rolls back its unretired commands, or ends the association for the admin queue. (R96) -/
def execTcpConnectionLoss (conn : Nat) (s : State) : Host.Outcome State Fault Refusal :=
  .next (doTcpConnectionLoss conn s)

/-- A TLS 1.3 handshake message is processed by Prompter firmware, or answered with an alert on violation. (R92) -/
def execTlsHandshake (conn : Nat) (msg : TlsMsg) (s : State) : Host.Outcome State Fault Refusal :=
  .next (doTlsHandshake conn msg s)

/-- A TLS record is authenticated and decrypted, or closes the connection with bad_record_mac. (R92) -/
def execTlsRecord (conn : Nat) (authentic : Bool) (s : State) : Host.Outcome State Fault Refusal :=
  .next (doTlsRecord conn authentic s)

/-- After 2^24 records under one key in one direction the device sends KeyUpdate. (R92) -/
def execTlsKeyUpdateDue (conn : Nat) (s : State) : Host.Outcome State Fault Refusal :=
  .next (doTlsKeyUpdateDue conn s)

/-- A fabric Connect is admitted after authentication or refused with Connect status. (R87) -/
def execConnect (c : ConnectReq) (s : State) : Host.Outcome State Fault Refusal :=
  .next (doConnect c s)

/-- A Connect held while the previous association's work rolls back is admitted once the roll-back ends. (R98) -/
def execConnectAdmitted (conn : Nat) (s : State) : Host.Outcome State Fault Refusal :=
  .next (doConnectAdmitted conn s)

/-- One second after a Connect fails with Invalid Host the connection is closed. (R88) -/
def execInvalidHostClose (conn : Nat) (s : State) : Host.Outcome State Fault Refusal :=
  .next (doInvalidHostClose conn s)

/-- A Disconnect deletes an I/O queue with its commands aborted, or ends the association for the admin queue. (R96) -/
def execDisconnect (conn : Nat) (s : State) : Host.Outcome State Fault Refusal :=
  .next (doDisconnect conn s)

/-- The keep-alive timeout expires and the association ends with a controller reset. (R97) -/
def execKeepAliveExpiry (ctrl : Nat) (s : State) : Host.Outcome State Fault Refusal :=
  .next (doKeepAliveExpiry ctrl s)

/-- A Send carrying a capsule arrives on an RDMA queue pair, or an RNR NAK follows when no receive buffer exists. (R93) -/
def execRdmaSend (qp : Nat) (cap : Capsule) (noBuffer : Bool) (s : State) : Host.Outcome State Fault Refusal :=
  .next (doRdmaSend qp cap noBuffer s)

/-- The response to a device RDMA Read delivers host data into staging. (R93) -/
def execRdmaReadResponse (rid : Nat) (data : Bytes) (s : State) : Host.Outcome State Fault Refusal :=
  .next (doRdmaReadResponse rid data s)

/-- A Remote Access Error NAK to a device RDMA operation fails the command and errors the queue pair. (R102) -/
def execRdmaNak (rid : Nat) (s : State) : Host.Outcome State Fault Refusal :=
  .next (doRdmaNak rid s)

/-- A host-initiated RDMA Read or Write is answered with a Remote Access Error NAK and closes the queue pair. (R93) -/
def execRdmaInboundAccess (qp : Nat) (s : State) : Host.Outcome State Fault Refusal :=
  .next (doRdmaInboundAccess qp s)

/-- Loss of a queue pair deletes its queue and rolls back its unretired commands. (R96) -/
def execRdmaQpLoss (qp : Nat) (s : State) : Host.Outcome State Fault Refusal :=
  .next (doRdmaQpLoss qp s)

/-- With transfer-area space free the HFE issues a memory read, R2T or RDMA Read for a command's data. (R99) -/
def execDataRequestIssue (scene len : Nat) (s : State) : Host.Outcome State Fault Refusal :=
  .next (doDataRequestIssue scene len s)

/-- An R2T or RDMA Read left unanswered for HFE_DATA_TIMEOUT fails its command with Data Transfer Error. (R101) -/
def execDataTimeout (rid : Nat) (s : State) : Host.Outcome State Fault Refusal :=
  .next (doDataTimeout rid s)

/-- An NVMe-MI message arrives over SMBus or I3C and is served for the house tenant, or discarded on an integrity failure. (R94) -/
def execMiMessage (m : MiMsg) (s : State) : Host.Outcome State Fault Refusal :=
  .next (doMiMessage m s)

/-- A write to HFE_NET_CTRL applies the selected address entry, closing connections when EN is cleared or refusing duplicates with EV030. (R105) -/
def execHfeNetCtrlWrite (val : BitVec 32) (s : State) : Host.Outcome State Fault Refusal :=
  .next (doHfeNetCtrlWrite val s)

/-- Create I/O Submission Queue, failing with Invalid Queue Size outside the limits. (R95) -/
def execCreateIoSq (h : CmdHdr) (qid size cqid prio : Nat) (s : State) : Host.Outcome State Fault Refusal :=
  .next (doCreateIoSq h qid size cqid prio s)

/-- Create I/O Completion Queue, failing with Invalid Queue Size outside the limits. (R95) -/
def execCreateIoCq (h : CmdHdr) (qid size vector : Nat) (s : State) : Host.Outcome State Fault Refusal :=
  .next (doCreateIoCq h qid size vector s)

/-- Delete I/O Submission Queue, whose unretired commands complete as aborted by SQ deletion. (R96) -/
def execDeleteIoSq (h : CmdHdr) (qid : Nat) (s : State) : Host.Outcome State Fault Refusal :=
  .next (doDeleteIoSq h qid s)

end Sys2Proof.Machine
end

