-- ==== Sys2Proof/Machine/MeaningsB.lean ====
section
/-! DEFINITION. The meanings of the commands, one per row of the table: NVMe commands, objects and the translation layer. Each takes its effect from the
operation of its chapter. -/
namespace Sys2Proof.Machine

/-- Delete I/O Completion Queue. (R106) -/
def execDeleteIoCq (h : CmdHdr) (qid : Nat) (s : State) : Host.Outcome State Fault Refusal :=
  .next (doDeleteIoCq h qid s)

/-- Get Log Page returns a supported standard log page. (R110) -/
def execGetLogPage (h : CmdHdr) (lid offset len : Nat) (rae : Bool) (s : State) : Host.Outcome State Fault Refusal :=
  .next (doGetLogPage h lid offset len rae s)

/-- Get Log Page 0xC0 returns the Gloex Error page of a queue, and reading byte 0 sets LOG_READ. (R136) -/
def execGetLogGloexError (h : CmdHdr) (lsi offset len : Nat) (s : State) : Host.Outcome State Fault Refusal :=
  .next (doGetLogGloexError h lsi offset len s)

/-- Get Log Page 0xC1 returns the outcome of the controller's last reset. (R130) -/
def execGetLogResetOutcome (h : CmdHdr) (offset len : Nat) (s : State) : Host.Outcome State Fault Refusal :=
  .next (doGetLogResetOutcome h offset len s)

/-- Get Log Page 0xC2 returns the last 256 retired commands of a queue with their commit cues. (R124) -/
def execGetLogCommitCue (h : CmdHdr) (lsi offset len : Nat) (s : State) : Host.Outcome State Fault Refusal :=
  .next (doGetLogCommitCue h lsi offset len s)

/-- Get Log Page 0xC3 returns the event log, and a read without RAE clears the outstanding asynchronous event. (R461) -/
def execGetLogEventLog (h : CmdHdr) (offset len : Nat) (rae : Bool) (s : State) : Host.Outcome State Fault Refusal :=
  .next (doGetLogEventLog h offset len rae s)

/-- Identify returns the controller and namespace data. (R108) -/
def execIdentify (h : CmdHdr) (cns : Nat) (s : State) : Host.Outcome State Fault Refusal :=
  .next (doIdentify h cns s)

/-- Get Features returns a supported feature, failing Invalid Field for others. (R109) -/
def execGetFeatures (h : CmdHdr) (fid : Nat) (s : State) : Host.Outcome State Fault Refusal :=
  .next (doGetFeatures h fid s)

/-- Set Features sets a supported standard feature, refusing SV = 1. (R109) -/
def execSetFeatures (h : CmdHdr) (fid : Nat) (sv : Bool) (cdw11 : BitVec 32) (data : Bytes) (s : State) : Host.Outcome State Fault Refusal :=
  .next (doSetFeatures h fid sv cdw11 data s)

/-- Set Features 0xC0 sets or clears STRICT ordering on a submission queue of the controller. (R118) -/
def execSetQueueOrdering (h : CmdHdr) (sv : Bool) (cdw11 : BitVec 32) (s : State) : Host.Outcome State Fault Refusal :=
  .next (doSetQueueOrdering h sv cdw11 s)

/-- Get Features 0xC0 returns STRICT of the named queue. (R118) -/
def execGetQueueOrdering (h : CmdHdr) (cdw11 : BitVec 32) (s : State) : Host.Outcome State Fault Refusal :=
  .next (doGetQueueOrdering h cdw11 s)

/-- Set Features 0xC1 sets the self-test step length from 100 to 2,000 µs. (R137) -/
def execSetSelfTestStep (h : CmdHdr) (sv : Bool) (cdw11 : BitVec 32) (s : State) : Host.Outcome State Fault Refusal :=
  .next (doSetSelfTestStep h sv cdw11 s)

/-- Abort asks the target scene's commit gate to roll back, or holds for 10 ms when the target is not yet fetched. (R128) -/
def execAbort (h : CmdHdr) (sqid target : Nat) (s : State) : Host.Outcome State Fault Refusal :=
  .next (doAbort h sqid target s)

/-- An Abort held 10 ms for an unfetched command completes with not aborted. (R128) -/
def execAbortHoldExpiry (ctrl cid : Nat) (s : State) : Host.Outcome State Fault Refusal :=
  .next (doAbortHoldExpiry ctrl cid s)

/-- Asynchronous Event Request waits outstanding for a notification. (R460) -/
def execAsyncEventRequest (h : CmdHdr) (s : State) : Host.Outcome State Fault Refusal :=
  .next (doAsyncEventRequest h s)

/-- Keep Alive restarts the keep-alive timer of a fabric controller. (R97) -/
def execKeepAlive (h : CmdHdr) (s : State) : Host.Outcome State Fault Refusal :=
  .next (doKeepAlive h s)

/-- Device Self-test starts a short or extended test that runs in yielding steps. (R137) -/
def execDeviceSelfTest (h : CmdHdr) (code : Nat) (s : State) : Host.Outcome State Fault Refusal :=
  .next (doDeviceSelfTest h code s)

/-- Device Self-test code Fh aborts the running test. (R137) -/
def execSelfTestAbort (h : CmdHdr) (s : State) : Host.Outcome State Fault Refusal :=
  .next (doSelfTestAbort h s)

/-- A self-test step starts once no host task is ready for the units it needs. (R137) -/
def execSelfTestStep (ctrl : Nat) (passed last : Bool) (s : State) : Host.Outcome State Fault Refusal :=
  .next (doSelfTestStep ctrl passed last s)

/-- Format NVM orders against every earlier command on its namespaces and performs a cryptographic erase under a new epoch. (R115) -/
def execFormatNvm (h : CmdHdr) (lbaf ses : Nat) (s : State) : Host.Outcome State Fault Refusal :=
  .next (doFormatNvm h lbaf ses s)

/-- Security Send injects or clears Key Per I/O keys, or host secrets and PSKs under protocol 0xEA. (R396) -/
def execSecuritySend (h : CmdHdr) (m : SecSend) (s : State) : Host.Outcome State Fault Refusal :=
  .next (doSecuritySend h m s)

/-- Security Receive returns TCG Key Per I/O data. (R106) -/
def execSecurityReceive (h : CmdHdr) (proto : Nat) (s : State) : Host.Outcome State Fault Refusal :=
  .next (doSecurityReceive h proto s)

/-- Load Program takes an image piece, and with the last byte starts verification and translation into the staged image. (R315) -/
def execLoadProgram (h : CmdHdr) (pidx ptype offset total : Nat) (piece : Bytes) (s : State) : Host.Outcome State Fault Refusal :=
  .next (doLoadProgram h pidx ptype offset total piece s)

/-- Verification and translation end and Load Program completes, or fails with 0x87 giving the rule and slot. (R315) -/
def execProgramTranslated (tenant pidx : Nat) (reject : Option (Nat × Nat)) (s : State) : Host.Outcome State Fault Refusal :=
  .next (doProgramTranslated tenant pidx reject s)

/-- Program Activation Management Activate makes the staged image active. (R315) -/
def execProgramActivate (h : CmdHdr) (pidx : Nat) (s : State) : Host.Outcome State Fault Refusal :=
  .next (doProgramActivate h pidx s)

/-- Program Activation Management Deactivate empties the active image. (R315) -/
def execProgramDeactivate (h : CmdHdr) (pidx : Nat) (s : State) : Host.Outcome State Fault Refusal :=
  .next (doProgramDeactivate h pidx s)

/-- Memory Range Set Management creates or deletes memory range sets within the tenant's SLM. (R331) -/
def execMemoryRangeSetManagement (h : CmdHdr) (create : Bool) (setId : Nat) (ranges : List (Nat × Nat)) (s : State) : Host.Outcome State Fault Refusal :=
  .next (doMemoryRangeSetManagement h create setId ranges s)

/-- Namespace Management creates a namespace with owner tag and archive attributes, charging NVM capacity, or deletes one. (R140) -/
def execNamespaceManagement (h : CmdHdr) (create : Bool) (a : NsAttrs) (s : State) : Host.Outcome State Fault Refusal :=
  .next (doNamespaceManagement h create a s)

/-- Namespace Attachment attaches a namespace only to controllers of its owner. (R106) -/
def execNamespaceAttachment (h : CmdHdr) (attach : Bool) (ctrls : List Nat) (s : State) : Host.Outcome State Fault Refusal :=
  .next (doNamespaceAttachment h attach ctrls s)

/-- Firmware Image Download takes a piece of a firmware image. (R106) -/
def execFirmwareImageDownload (h : CmdHdr) (offset : Nat) (img : FwImage) (s : State) : Host.Outcome State Fault Refusal :=
  .next (doFirmwareImageDownload h offset img s)

/-- Firmware Commit with actions 000b–010b writes the image to a slot and or sets FW_NEXT. (R485) -/
def execFirmwareCommit (h : CmdHdr) (action slot : Nat) (s : State) : Host.Outcome State Fault Refusal :=
  .next (doFirmwareCommit h action slot s)

/-- Firmware Commit 011b posts the activation notice, stops fetch everywhere and drains scenes for a live switch. (R131) -/
def execFirmwareActivate (h : CmdHdr) (slot : Nat) (s : State) : Host.Outcome State Fault Refusal :=
  .next (doFirmwareActivate h slot s)

/-- The drain ends, the new image takes over, fetch resumes and Firmware Commit completes. (R131) -/
def execFirmwareActivationSwitch (s : State) : Host.Outcome State Fault Refusal :=
  .next (doFirmwareActivationSwitch s)

/-- The drain has not ended 2.0 s after the fetch, so the activation is abandoned and the commit fails. (R131) -/
def execActivationTimeout (s : State) : Host.Outcome State Fault Refusal :=
  .next (doActivationTimeout s)

/-- Sanitize performs a subsystem-wide cryptographic erase. (R387) -/
def execSanitize (h : CmdHdr) (action : Nat) (s : State) : Host.Outcome State Fault Refusal :=
  .next (doSanitize h action s)

/-- NVMe-MI Send carries a management message over the house controller. (R94) -/
def execNvmeMiSend (h : CmdHdr) (m : MiMsg) (s : State) : Host.Outcome State Fault Refusal :=
  .next (doNvmeMiSend h m s)

/-- NVMe-MI Receive returns a management response. (R94) -/
def execNvmeMiReceive (h : CmdHdr) (s : State) : Host.Outcome State Fault Refusal :=
  .next (doNvmeMiReceive h s)

/-- Restart Queue resumes a frozen Gloex queue, continuing or discarding its held commands. (R135) -/
def execRestartQueue (h : CmdHdr) (sqid : Nat) (discard : Bool) (s : State) : Host.Outcome State Fault Refusal :=
  .next (doRestartQueue h sqid discard s)

/-- An absent, house-only or disallowed opcode fails with Invalid Command Opcode. (R106) -/
def execInvalidOpcode (h : CmdHdr) (admin : Bool) (opcode : Nat) (s : State) : Host.Outcome State Fault Refusal :=
  .next (doInvalidOpcode h admin opcode s)

/-- Read of LBAs, taking one read point per 256 KiB piece. (R116) -/
def execNvmRead (h : CmdHdr) (slba nlb : Nat) (keyTag : Option Nat) (s : State) : Host.Outcome State Fault Refusal :=
  .next (doNvmRead h slba nlb keyTag s)

/-- Write of LBAs, atomic per 256 KiB piece. (R127) -/
def execNvmWrite (h : CmdHdr) (slba nlb : Nat) (fua : Bool) (keyTag : Option Nat) (s : State) : Host.Outcome State Fault Refusal :=
  .next (doNvmWrite h slba nlb fua keyTag s)

/-- Flush covers writes completed before its fetch and retires when their data left Wings and the journal is on flash. (R125) -/
def execFlush (h : CmdHdr) (s : State) : Host.Outcome State Fault Refusal :=
  .next (doFlush h s)

/-- Compare reads LBAs and fails with Compare Failure on a miscompare. (R114) -/
def execCompare (h : CmdHdr) (slba nlb : Nat) (s : State) : Host.Outcome State Fault Refusal :=
  .next (doCompare h slba nlb s)

/-- Write Zeroes writes zeroes over an LBA range. (R114) -/
def execWriteZeroes (h : CmdHdr) (slba nlb : Nat) (s : State) : Host.Outcome State Fault Refusal :=
  .next (doWriteZeroes h slba nlb s)

/-- Write Uncorrectable maps units as kind 6 so reads fail. (R165) -/
def execWriteUncorrectable (h : CmdHdr) (slba nlb : Nat) (s : State) : Host.Outcome State Fault Refusal :=
  .next (doWriteUncorrectable h slba nlb s)

/-- Dataset Management honours Deallocate only. (R107) -/
def execDatasetManagement (h : CmdHdr) (deallocate : Bool) (ranges : List (Nat × Nat)) (s : State) : Host.Outcome State Fault Refusal :=
  .next (doDatasetManagement h deallocate ranges s)

/-- Verify checks LBAs, and on a fixity namespace compares extent digests. (R152) -/
def execVerify (h : CmdHdr) (slba nlb : Nat) (s : State) : Host.Outcome State Fault Refusal :=
  .next (doVerify h slba nlb s)

/-- Copy copies source ranges to a destination within the limits. (R107) -/
def execCopy (h : CmdHdr) (dst format : Nat) (ranges : List (Nat × Nat)) (s : State) : Host.Outcome State Fault Refusal :=
  .next (doCopy h dst format ranges s)

/-- KV Store makes a new object version, reserving media on one tier and committing by one map switch. (R142) -/
def execKvStore (h : CmdHdr) (key : Bytes) (len : Nat) (opts : KvOpts) (s : State) : Host.Outcome State Fault Refusal :=
  .next (doKvStore h key len opts s)

/-- KV Retrieve reads the newest version at one read point. (R116) -/
def execKvRetrieve (h : CmdHdr) (key : Bytes) (bufLen : Nat) (s : State) : Host.Outcome State Fault Refusal :=
  .next (doKvRetrieve h key bufLen s)

/-- KV Delete removes the key, committing atomically. (R143) -/
def execKvDelete (h : CmdHdr) (key : Bytes) (s : State) : Host.Outcome State Fault Refusal :=
  .next (doKvDelete h key s)

/-- KV Exist reports whether the key exists at one read point. (R116) -/
def execKvExist (h : CmdHdr) (key : Bytes) (s : State) : Host.Outcome State Fault Refusal :=
  .next (doKvExist h key s)

/-- KV List lists keys at one read point. (R114) -/
def execKvList (h : CmdHdr) (key : Bytes) (bufLen : Nat) (s : State) : Host.Outcome State Fault Refusal :=
  .next (doKvList h key bufLen s)

/-- Execute Program binds the active image and runs it over the source named by the invocation block. (R324) -/
def execExecuteProgram (h : CmdHdr) (pidx setId blockOff hostLen : Nat) (s : State) : Host.Outcome State Fault Refusal :=
  .next (doExecuteProgram h pidx setId blockOff hostLen s)

/-- Memory Read reads the tenant's SLM. (R331) -/
def execMemoryRead (h : CmdHdr) (off len : Nat) (s : State) : Host.Outcome State Fault Refusal :=
  .next (doMemoryRead h off len s)

/-- Memory Write writes the tenant's SLM. (R331) -/
def execMemoryWrite (h : CmdHdr) (off len : Nat) (s : State) : Host.Outcome State Fault Refusal :=
  .next (doMemoryWrite h off len s)

/-- Memory Copy moves data between SLM and the tenant's namespaces. (R331) -/
def execMemoryCopy (h : CmdHdr) (c : MemCopy) (s : State) : Host.Outcome State Fault Refusal :=
  .next (doMemoryCopy h c s)

/-- Fence holds later commands in scope until every earlier unretired command in scope has retired. (R120) -/
def execFence (h : CmdHdr) (cdw10 : BitVec 32) (s : State) : Host.Outcome State Fault Refusal :=
  .next (doFence h cdw10 s)

/-- A scene's commit request reaches its commit gate, which admits it unless the scene has rolled back. (R112) -/
def execCommitRequest (scene : Nat) (s : State) : Host.Outcome State Fault Refusal :=
  .next (doCommitRequest scene s)

/-- A roll-back request reaches a scene's commit gate, which rolls the scene back unless it already committed. (R112) -/
def execRollBackRequest (scene : Nat) (st : Status) (s : State) : Host.Outcome State Fault Refusal :=
  .next (doRollBackRequest scene st s)

/-- A read-kind command takes a read point once every earlier overlapping write has committed and no fence holds it. (R116) -/
def execReadPoint (scene : Nat) (s : State) : Host.Outcome State Fault Refusal :=
  .next (doReadPoint scene s)

/-- TW_ARC_CTRL EXPORT starts writing a BagIt bag of a key range into an NVM namespace. (R158) -/
def execArcExport (tag : Nat) (s : State) : Host.Outcome State Fault Refusal :=
  .next (doArcExport tag s)

/-- TW_ARC_CTRL IMPORT reads a bag and stores its payload files in two passes. (R160) -/
def execArcImport (tag : Nat) (bag : BagScan) (s : State) : Host.Outcome State Fault Refusal :=
  .next (doArcImport tag bag s)

/-- TW_ARC_CTRL ABORT stops the archive job at the next file boundary. (R161) -/
def execArcAbort (tag : Nat) (s : State) : Host.Outcome State Fault Refusal :=
  .next (doArcAbort tag s)

/-- TW_ARC_CTRL PROVENANCE copies the newest version's provenance record into TW_ARC_PROV. (R163) -/
def execArcProvenance (tag : Nat) (s : State) : Host.Outcome State Fault Refusal :=
  .next (doArcProvenance tag s)

/-- An archive job finishes one file or version and moves to the next, or stops on abort or error. (R161) -/
def execArcFileDone (tag : Nat) (f : ArcFile) (s : State) : Host.Outcome State Fault Refusal :=
  .next (doArcFileDone tag f s)

/-- The daily background pass demotes or promotes versions that meet their policy and have room. (R149) -/
def execTierMovePass (nsid : Nat) (s : State) : Host.Outcome State Fault Refusal :=
  .next (doTierMovePass nsid s)

/-- At each sweep day boundary the Prompters set the day's quota, starting a new cycle when one ends. (R151) -/
def execSweepDayBoundary (nsid : Nat) (s : State) : Host.Outcome State Fault Refusal :=
  .next (doSweepDayBoundary nsid s)

/-- A Call Board entry older than its retention is removed. (R155) -/
def execCallBoardExpiry (s : State) : Host.Outcome State Fault Refusal :=
  .next (doCallBoardExpiry s)

/-- A write of CBD_CURSOR_HI selects the Call Board entry shown in the window. (R156) -/
def execCbdCursorWrite (req : Requester) (hi : BitVec 32) (s : State) : Host.Outcome State Fault Refusal :=
  .next (doCbdCursorWrite req hi s)

/-- A write of TW_CB_CURSOR_HI selects the Call Board entry of the tenant's cursor. (R156) -/
def execTwCbCursorWrite (req : Requester) (tag : Nat) (hi : BitVec 32) (s : State) : Host.Outcome State Fault Refusal :=
  .next (doTwCbCursorWrite req tag hi s)

/-- A write of TW_TLY_PR_CURSOR_HI selects the private result entry shown. (R356) -/
def execTwTlyPrCursorWrite (req : Requester) (tag : Nat) (hi : BitVec 32) (s : State) : Host.Outcome State Fault Refusal :=
  .next (doTwTlyPrCursorWrite req tag hi s)

/-- The journal buffer is written to the META stream once 64 KiB gather or 1 ms after its oldest record. (R182) -/
def execJournalWrite (s : State) : Host.Outcome State Fault Refusal :=
  .next (doJournalWrite s)

/-- A journal write is on flash, retiring Flushes that waited for it and releasing protected predecessors. (R125) -/
def execJournalProgrammed (s : State) : Host.Outcome State Fault Refusal :=
  .next (doJournalProgrammed s)

/-- A committed Wings unit is placed onto media in its stream, keeping its predecessor until the journal is on flash. (R183) -/
def execDestage (slot : Nat) (s : State) : Host.Outcome State Fault Refusal :=
  .next (doDestage slot s)

/-- A waiting host Place task is admitted once credits suffice. (R176) -/
def execPlaceAdmit (s : State) : Host.Outcome State Fault Refusal :=
  .next (doPlaceAdmit s)

/-- A checkpoint starts 10 minutes after the last or when the journal reaches 4 GiB. (R184) -/
def execCheckpointStart (s : State) : Host.Outcome State Fault Refusal :=
  .next (doCheckpointStart s)

/-- A write to TRL_CKPT_CTRL starts a checkpoint now. (R184) -/
def execTrlCkptCtrl (val : BitVec 32) (s : State) : Host.Outcome State Fault Refusal :=
  .next (doTrlCkptCtrl val s)

/-- The checkpoint's closing record is on flash and the checkpoint becomes valid. (R184) -/
def execCheckpointClosed (s : State) : Host.Outcome State Fault Refusal :=
  .next (doCheckpointClosed s)

/-- With no host task ready for the channels and space low, background reclamation copies the victim's valid slots. (R175) -/
def execReclaimBackground (s : State) : Host.Outcome State Fault Refusal :=
  .next (doReclaimBackground s)

/-- With the free fraction below the threshold, foreground reclamation runs and host placement needs credits. (R176) -/
def execReclaimForeground (s : State) : Host.Outcome State Fault Refusal :=
  .next (doReclaimForeground s)

/-- Platter reclamation empties the band with the fewest valid slots on an actuator with few free bands. (R178) -/
def execPlatterReclaim (act : Nat) (s : State) : Host.Outcome State Fault Refusal :=
  .next (doPlatterReclaim act s)

/-- A stripe block reaching TRL_RETENTION days since close is queued for refresh. (R180) -/
def execRetentionExpiry (sb : Nat) (s : State) : Host.Outcome State Fault Refusal :=
  .next (doRetentionExpiry sb s)

/-- A flash page read completes and its codewords go to decoding. (R215) -/
def execFlashReadDone (rid lun : Nat) (s : State) : Host.Outcome State Fault Refusal :=
  .next (doFlashReadDone rid lun s)

/-- A program completes, or on FAIL restarts the row's copies and retires the member. (R179) -/
def execFlashProgramDone (lun : Nat) (ok : Bool) (s : State) : Host.Outcome State Fault Refusal :=
  .next (doFlashProgramDone lun ok s)

end Sys2Proof.Machine
end

