-- ==== Sys2Proof/Machine/MeaningsC.lean ====
section
/-! DEFINITION. The meanings of the commands, one per row of the table: flash, platters, motors, tasks, programs. Each takes its effect from the
operation of its chapter. -/
namespace Sys2Proof.Machine

/-- An erase completes and the block joins the free list, or on FAIL is retired. (R191) -/
def execFlashEraseDone (lun : Nat) (ok : Bool) (s : State) : Host.Outcome State Fault Refusal :=
  .next (doFlashEraseDone lun ok s)

/-- A LUN still busy after its timeout is reset and escalated to target reset and retirement. (R218) -/
def execLunTimeout (lun : Nat) (s : State) : Host.Outcome State Fault Refusal :=
  .next (doLunTimeout lun s)

/-- Every FLC_RETRAIN hours or after 10 °C a channel is re-trained, becoming unusable after three failures. (R203) -/
def execChannelRetrain (ch : Nat) (ok : Bool) (dieTemp : Int) (s : State) : Host.Outcome State Fault Refusal :=
  .next (doChannelRetrain ch ok dieTemp s)

/-- An LDPC decode ends by meeting every check or at its iteration limit, and a failure climbs the retry ladder. (R214) -/
def execDecodeDone (rid : Nat) (ok : Bool) (iters : Nat) (check : Option FixCheck) (s : State) : Host.Outcome State Fault Refusal :=
  .next (doDecodeDone rid ok iters check s)

/-- FLC_HR_CTRL EVACUATE starts moving a group's data to the other groups, if room allows. (R220) -/
def execFlcEvacuate (g : Nat) (s : State) : Host.Outcome State Fault Refusal :=
  .next (doFlcEvacuate g s)

/-- FLC_HR_LEFT reaches 0 and the group is evacuated. (R220) -/
def execEvacuationDone (s : State) : Host.Outcome State Fault Refusal :=
  .next (doEvacuationDone s)

/-- FLC_HR_CTRL REMOVE stops CK_FIOg and floats the group's outputs. (R220) -/
def execFlcRemove (g : Nat) (s : State) : Host.Outcome State Fault Refusal :=
  .next (doFlcRemove g s)

/-- FLC_HR_CTRL INSERT starts the clock, brings up and checks the new group. (R221) -/
def execFlcInsert (g : Nat) (force : Bool) (dies : DieFacts) (s : State) : Host.Outcome State Fault Refusal :=
  .next (doFlcInsert g force dies s)

/-- Every member of the inserted group is erased and the group returns to normal. (R220) -/
def execInsertionDone (s : State) : Host.Outcome State Fault Refusal :=
  .next (doInsertionDone s)

/-- FLC_HR_CTRL CANCEL returns an evacuating or evacuated group to normal. (R222) -/
def execFlcCancel (g : Nat) (s : State) : Host.Outcome State Fault Refusal :=
  .next (doFlcCancel g s)

/-- FLC_HR_CTRL RESUME brings a faulted group up again. (R219) -/
def execFlcResume (g : Nat) (answers : Bool) (s : State) : Host.Outcome State Fault Refusal :=
  .next (doFlcResume g answers s)

/-- The clock lane decodes an angle field, stamping the cue and locking or counting bad fields toward unlock. (R228) -/
def execAngleField (act : Nat) (f : AngleField) (s : State) : Host.Outcome State Fault Refusal :=
  .next (doAngleField act f s)

/-- A clock lane not relocked after 100 ms is handled as a preamplifier fault. (R228) -/
def execRelockTimeout (act : Nat) (s : State) : Host.Outcome State Fault Refusal :=
  .next (doRelockTimeout act s)

/-- A servo field is demodulated into a position sample delivered to Hoop 1,200 ticks later. (R232) -/
def execServoField (act : Nat) (f : ServoField) (s : State) : Host.Outcome State Fault Refusal :=
  .next (doServoField act f s)

/-- The sync-mark search window closes with a mark accepted or the sector missed for a later revolution. (R240) -/
def execSectorSync (act lane : Nat) (w : SyncWindow) (s : State) : Host.Outcome State Fault Refusal :=
  .next (doSectorSync act lane w s)

/-- A detected platter codeword completes in the lane buffer and goes to its reserved decoder or the general pool. (R242) -/
def execCodewordComplete (act lane : Nat) (s : State) : Host.Outcome State Fault Refusal :=
  .next (doCodewordComplete act lane s)

/-- A reserved decoder is released when its codeword has not arrived 2,048 ticks after the reservation cue. (R242) -/
def execReservationRelease (dec : Nat) (s : State) : Host.Outcome State Fault Refusal :=
  .next (doReservationRelease dec s)

/-- A shock input above its threshold drops the write gates of every actuator and marks sectors suspect. (R246) -/
def execShockCrossing (input : Nat) (mv : Nat) (s : State) : Host.Outcome State Fault Refusal :=
  .next (doShockCrossing input mv s)

/-- PAn_FLT_N low for 200 ns drops the write gates, parks the actuator and resets the preamplifier. (R253) -/
def execPreampFault (act ns : Nat) (s : State) : Host.Outcome State Fault Refusal :=
  .next (doPreampFault act ns s)

/-- A preamplifier serial frame completes and a readable frame is read back, re-sent on mismatch. (R251) -/
def execPreampFrameDone (act : Nat) (data : BitVec 16) (mismatch : Bool) (s : State) : Host.Outcome State Fault Refusal :=
  .next (doPreampFrameDone act data mismatch s)

/-- RCH_An_CTRL calibrate L0 starts a full calibration of lane 0. (R252) -/
def execRchCalibrateL0 (act : Nat) (s : State) : Host.Outcome State Fault Refusal :=
  .next (doRchCalibrateL0 act s)

/-- RCH_An_CTRL calibrate L1 starts a full calibration of lane 1. (R252) -/
def execRchCalibrateL1 (act : Nat) (s : State) : Host.Outcome State Fault Refusal :=
  .next (doRchCalibrateL1 act s)

/-- RCH_An_CTRL park starts an emergency park of the actuator. (R279) -/
def execRchPark (act : Nat) (s : State) : Host.Outcome State Fault Refusal :=
  .next (doRchPark act s)

/-- RCH_An_CTRL RESUME brings a parked or offline actuator back by LOAD. (R254) -/
def execRchResume (act : Nat) (s : State) : Host.Outcome State Fault Refusal :=
  .next (doRchResume act s)

/-- RCH_An_CTRL OFFLINE takes the actuator offline. (R254) -/
def execRchOffline (act : Nat) (s : State) : Host.Outcome State Fault Refusal :=
  .next (doRchOffline act s)

/-- Every RCH_CAL_HOURS hours or after 10 °C a data lane starts a full calibration. (R252) -/
def execLaneCalibrationDue (act lane : Nat) (dieTemp : Int) (s : State) : Host.Outcome State Fault Refusal :=
  .next (doLaneCalibrationDue act lane dieTemp s)

/-- A lane calibration ends and its new coefficients take effect at a sector boundary, or the old set is kept. (R252) -/
def execLaneCalibrationDone (act lane : Nat) (ok : Bool) (s : State) : Host.Outcome State Fault Refusal :=
  .next (doLaneCalibrationDone act lane ok s)

/-- A read waiting on a parked or offline actuator for RCH_OFFLINE_WAIT fails with Unrecovered Read Error. (R254) -/
def execOfflineWaitExpiry (rid : Nat) (s : State) : Host.Outcome State Fault Refusal :=
  .next (doOfflineWaitExpiry rid s)

/-- A write to RCH_An_PA_CMD sends a diagnostic preamplifier frame, refused unless the actuator is parked or offline. (R256) -/
def execRchPaCmd (act : Nat) (val : BitVec 32) (s : State) : Host.Outcome State Fault Refusal :=
  .next (doRchPaCmd act val s)

/-- At a slot's sample boundary the ramp advances and the compensator computes the limited output. (R260) -/
def execSampleBoundary (slot : Nat) (m : Option Int) (s : State) : Host.Outcome State Fault Refusal :=
  .next (doSampleBoundary slot m s)

/-- Setting EN in HOP_Sn_CTRL enables the slot with a soft start from the measured value. (R269) -/
def execHopSlotEnable (slot : Nat) (s : State) : Host.Outcome State Fault Refusal :=
  .next (doHopSlotEnable slot s)

/-- Clearing EN disables the slot, parking the actuator for a VCM or microactuator slot. (R279) -/
def execHopSlotDisable (slot : Nat) (s : State) : Host.Outcome State Fault Refusal :=
  .next (doHopSlotDisable slot s)

/-- Writing BANK requests or cancels a swap, optionally at HOP_Sn_SWAP_CUE. (R264) -/
def execHopBankRequest (slot : Nat) (bank atCue : Bool) (s : State) : Host.Outcome State Fault Refusal :=
  .next (doHopBankRequest slot bank atCue s)

/-- A coefficient write is taken into the inactive bank, discarded for the active bank. (R265) -/
def execHopCoeffWrite (slot : Nat) (bank : Bool) (idx : Nat) (val : BitVec 32) (becoming : Bool) (s : State) : Host.Outcome State Fault Refusal :=
  .next (doHopCoeffWrite slot bank idx val becoming s)

/-- A write of HOP_Sn_SETPOINT_HI makes the set-point take effect at the next boundary, logging large steps. (R266) -/
def execHopSetpointWrite (req : Requester) (slot : Nat) (hi : BitVec 32) (s : State) : Host.Outcome State Fault Refusal :=
  .next (doHopSetpointWrite req slot hi s)

/-- HOP_An_PROF_CTRL START makes the VCM slot stream profile entries from HOP_An_PROF_CUE. (R270) -/
def execHopProfileStart (act first : Nat) (s : State) : Host.Outcome State Fault Refusal :=
  .next (doHopProfileStart act first s)

/-- HOP_An_PROF_CTRL STOP ends the stream at the next boundary. (R270) -/
def execHopProfileStop (act : Nat) (s : State) : Host.Outcome State Fault Refusal :=
  .next (doHopProfileStop act s)

/-- A motor-link frame ends, the driver acts on it and the reply to the previous frame is checked. (R276) -/
def execMotorLinkFrame (reply : BitVec 32) (s : State) : Host.Outcome State Fault Refusal :=
  .next (doMotorLinkFrame reply s)

/-- When no frame is due within 10 µs of the last, Hoop sends a NOP. (R278) -/
def execNopIdleTimer (s : State) : Host.Outcome State Fault Refusal :=
  .next (doNopIdleTimer s)

/-- PARKED not set within HOP_PARK_TIMEOUT resends PARK once and takes the actuator offline. (R280) -/
def execParkTimeout (act : Nat) (s : State) : Host.Outcome State Fault Refusal :=
  .next (doParkTimeout act s)

/-- After LOAD, with PARKED clear, the clock locked and four valid samples, the slots are enabled with soft starts. (R281) -/
def execActuatorLoaded (act : Nat) (m : Int) (s : State) : Host.Outcome State Fault Refusal :=
  .next (doActuatorLoaded act m s)

/-- MLK_FLT_N low for 200 ns parks all actuators and reads the driver fault register. (R282) -/
def execDriverFault (ns : Nat) (s : State) : Host.Outcome State Fault Refusal :=
  .next (doDriverFault ns s)

/-- A heater output is sent as a preamplifier frame once a gate-free span of 3 µs arrives. (R272) -/
def execHeaterFrameSend (act head : Nat) (s : State) : Host.Outcome State Fault Refusal :=
  .next (doHeaterFrameSend act head s)

/-- A write to MLK_CMD sends a diagnostic REG_WRITE or REG_READ frame, refusing writes unless parked. (R285) -/
def execMlkCmd (val : BitVec 32) (s : State) : Host.Outcome State Fault Refusal :=
  .next (doMlkCmd val s)

/-- A write to MLK_RESYNC restarts a silent motor link. (R282) -/
def execMlkResync (val : BitVec 32) (s : State) : Host.Outcome State Fault Refusal :=
  .next (doMlkResync val s)

/-- A write to SMG_RINGr_TAIL submits the batches before it, or is discarded when too far ahead. (R307) -/
def execRingTailWrite (ring val : Nat) (s : State) : Host.Outcome State Fault Refusal :=
  .next (doRingTailWrite ring val s)

/-- A write to a ring's control or base is refused while the ring is enabled and not empty. (R307) -/
def execSmgRingCtrlWrite (req : Requester) (ring reg : Nat) (val : BitVec 32) (s : State) : Host.Outcome State Fault Refusal :=
  .next (doSmgRingCtrlWrite req ring reg val s)

/-- A submitted batch is created whole once the pool has room, or refused whole when malformed. (R289) -/
def execBatchCreate (ring : Nat) (s : State) : Host.Outcome State Fault Refusal :=
  .next (doBatchCreate ring s)

/-- A unit completes a task, decrementing its successors and marking them failed on non-zero status. (R290) -/
def execTaskComplete (handle : Nat) (status : Nat) (s : State) : Host.Outcome State Fault Refusal :=
  .next (doTaskComplete handle status s)

/-- A unit with a free place takes the oldest ready task from the highest-priority list. (R293) -/
def execTaskDispatch (unit place : Nat) (s : State) : Host.Outcome State Fault Refusal :=
  .next (doTaskDispatch unit place s)

/-- A task that cannot finish within a sealed window is saved at its last block boundary that leaves room for the save. (R301) -/
def execSealedWindowSave (handle : Nat) (s : State) : Host.Outcome State Fault Refusal :=
  .next (doSealedWindowSave handle s)

/-- BOB_RETIRE_CTRL RETIRE retires a logical Bobbin to an Understudy. (R311) -/
def execBobRetire (val : BitVec 32) (s : State) : Host.Outcome State Fault Refusal :=
  .next (doBobRetire val s)

/-- A Bobbin holding a task with no heartbeat for BOB_WATCHDOG_US is retired. (R310) -/
def execBobbinWatchdog (bob : Nat) (s : State) : Host.Outcome State Fault Refusal :=
  .next (doBobbinWatchdog bob s)

/-- Every BOB_SELFTEST_HOURS a core runs its known-answer test and is retired on failure. (R310) -/
def execBobbinSelftest (core : Nat) (ok : Bool) (s : State) : Host.Outcome State Fault Refusal :=
  .next (doBobbinSelftest core ok s)

/-- A running task of a Bobbin retired by command is stopped 100 ms after the command. (R311) -/
def execRetireGraceExpiry (s : State) : Host.Outcome State Fault Refusal :=
  .next (doRetireGraceExpiry s)

/-- An Understudy loaded with firmware takes the logical number and the old core is fenced off. (R311) -/
def execUnderstudyLoaded (s : State) : Host.Outcome State Fault Refusal :=
  .next (doUnderstudyLoaded s)

/-- A program invocation returns and its output or state is kept or the command fails. (R322) -/
def execInvocationComplete (inv : Nat) (r : InvResult) (s : State) : Host.Outcome State Fault Refusal :=
  .next (doInvocationComplete inv r s)

/-- An invocation reaching its cycle budget stops and the command fails with 0x88. (R333) -/
def execBudgetExhausted (inv : Nat) (stores : List (Nat × Bytes)) (s : State) : Host.Outcome State Fault Refusal :=
  .next (doBudgetExhausted inv stores s)

/-- Helper 1 searches an ASU table and returns the first match and count. (R364) -/
def execPqAsuSearch (inv table : Nat) (key mask : BitVec 128) (upsets : List AsuUpset) (s : State) : Host.Outcome State Fault Refusal :=
  .next (doPqAsuSearch inv table key mask upsets s)

/-- Helper 2 inserts an entry at a position, keeping order. (R372) -/
def execPqAsuInsert (inv table : Nat) (entry : Bytes) (pos : Nat) (s : State) : Host.Outcome State Fault Refusal :=
  .next (doPqAsuInsert inv table entry pos s)

/-- Helper 3 deletes an entry by index. (R373) -/
def execPqAsuDelete (inv table index : Nat) (s : State) : Host.Outcome State Fault Refusal :=
  .next (doPqAsuDelete inv table index s)

/-- Helper 4 stream-scans a buffer against a table's patterns and writes hit records. (R377) -/
def execPqAsuScan (inv table : Nat) (src : Bytes) (cap : Nat) (upsets : List AsuUpset) (s : State) : Host.Outcome State Fault Refusal :=
  .next (doPqAsuScan inv table src cap upsets s)

/-- Helper 5 computes a one-shot Tally digest. (R327) -/
def execPqDigest (inv alg : Nat) (src : Bytes) (s : State) : Host.Outcome State Fault Refusal :=
  .next (doPqDigest inv alg src s)

/-- Helper 6 continues a digest held in a context. (R327) -/
def execPqDigestPart (inv alg ctx : Nat) (src : Bytes) (first last : Bool) (s : State) : Host.Outcome State Fault Refusal :=
  .next (doPqDigestPart inv alg ctx src first last s)

/-- Helper 7 compresses a buffer with Smock. (R327) -/
def execPqCompress (inv fmt level : Nat) (src : Bytes) (cap : Nat) (s : State) : Host.Outcome State Fault Refusal :=
  .next (doPqCompress inv fmt level src cap s)

/-- Helper 8 decompresses a buffer with its trailing check verified. (R327) -/
def execPqDecompress (inv fmt : Nat) (src : Bytes) (cap : Nat) (s : State) : Host.Outcome State Fault Refusal :=
  .next (doPqDecompress inv fmt src cap s)

/-- Helper 9 computes a CRC-64 continued from a previous value. (R327) -/
def execPqCrc64 (inv : Nat) (src : Bytes) (prev : BitVec 64) (s : State) : Host.Outcome State Fault Refusal :=
  .next (doPqCrc64 inv src prev s)

/-- Helper 10 copies between regions. (R327) -/
def execPqMemCopy (inv : Nat) (dst : Option Nat) (src : Bytes) (s : State) : Host.Outcome State Fault Refusal :=
  .next (doPqMemCopy inv dst src s)

/-- Helper 11 compares two regions. (R327) -/
def execPqMemCmp (inv : Nat) (a b : Bytes) (s : State) : Host.Outcome State Fault Refusal :=
  .next (doPqMemCmp inv a b s)

/-- Helper 12 orders the invocation's memory accesses. (R329) -/
def execPqFence (inv kind : Nat) (s : State) : Host.Outcome State Fault Refusal :=
  .next (doPqFence inv kind s)

/-- Helper 13 raises a user event, at most 64 per invocation. (R328) -/
def execPqRaiseEvent (inv index : Nat) (arg0 arg1 : BitVec 64) (s : State) : Host.Outcome State Fault Refusal :=
  .next (doPqRaiseEvent inv index arg0 arg1 s)

/-- Helper 14 returns the cue, rounded for a sealed tenant. (R327) -/
def execPqCueNow (inv : Nat) (s : State) : Host.Outcome State Fault Refusal :=
  .next (doPqCueNow inv s)

/-- A helper waiting longer than 100 ms for an engine returns −4. (R327) -/
def execHelperTimeout (inv : Nat) (s : State) : Host.Outcome State Fault Refusal :=
  .next (doHelperTimeout inv s)

/-- A waiting insert or delete starts on its table against the count at that moment. (R371) -/
def execAsuUpdateStart (table : Nat) (s : State) : Host.Outcome State Fault Refusal :=
  .next (doAsuUpdateStart table s)

/-- The background walk compares an entry with its shadow and repairs mismatches. (R370) -/
def execAsuWalk (upset : Option AsuUpset) (s : State) : Host.Outcome State Fault Refusal :=
  .next (doAsuWalk upset s)

/-- A Smock compress job writes one frame or stream, failing with 0x81 on overflow. (R338) -/
def execSmockCompress (task : Nat) (s : State) : Host.Outcome State Fault Refusal :=
  .next (doSmockCompress task s)

/-- A Smock decompress job decodes one frame or member and verifies its check values. (R343) -/
def execSmockDecompress (task : Nat) (check : Option FixCheck) (s : State) : Host.Outcome State Fault Refusal :=
  .next (doSmockDecompress task check s)

/-- A Tally job digests one part of a message, finishing, comparing and posting on LAST. (R352) -/
def execTallyJob (task : Nat) (flip0 flip1 : Bool) (check : Option FixCheck) (s : State) : Host.Outcome State Fault Refusal :=
  .next (doTallyJob task flip0 flip1 check s)

/-- TW_TLY_Jj_CTRL START opens a stream or digests an SLM range in a slot. (R354) -/
def execTwTlyStart (tag slot : Nat) (val : BitVec 32) (s : State) : Host.Outcome State Fault Refusal :=
  .next (doTwTlyStart tag slot val s)

/-- TW_TLY_Jj_CTRL ABORT ends the slot's message with status 0x05. (R355) -/
def execTwTlyAbort (tag slot : Nat) (s : State) : Host.Outcome State Fault Refusal :=
  .next (doTwTlyAbort tag slot s)

end Sys2Proof.Machine
end

