-- ==== Sys2Proof/Machine/MeaningsD.lean ====
section
/-! DEFINITION. The meanings of the commands, one per row of the table: engines, keys, isolation, memory, events, device states. Each takes its effect from the
operation of its chapter. -/
namespace Sys2Proof.Machine

/-- A write of TW_TLY_Jj_DATA_HI appends a word to the stream, failing on FIFO overrun. (R354) -/
def execTwTlyDataHi (req : Requester) (tag slot : Nat) (hi : BitVec 32) (s : State) : Host.Outcome State Fault Refusal :=
  .next (doTwTlyDataHi req tag slot hi s)

/-- A write of TW_TLY_Jj_LAST_VB appends the last word and finishes the message. (R354) -/
def execTwTlyLastVb (tag slot vb : Nat) (s : State) : Host.Outcome State Fault Refusal :=
  .next (doTwTlyLastVb tag slot vb s)

/-- A stream with no write for TLY_IDLE_MS fails with status 0x03. (R355) -/
def execTallyStreamIdle (tag slot : Nat) (s : State) : Host.Outcome State Fault Refusal :=
  .next (doTallyStreamIdle tag slot s)

/-- A Scrim XTS encrypt job. (R384) -/
def execXtsEncrypt (task : Nat) (s : State) : Host.Outcome State Fault Refusal :=
  .next (doXtsEncrypt task s)

/-- A Scrim XTS decrypt job. (R384) -/
def execXtsDecrypt (task : Nat) (s : State) : Host.Outcome State Fault Refusal :=
  .next (doXtsDecrypt task s)

/-- A Scrim GCM encrypt job, writing the seal with the next invocation counter. (R385) -/
def execGcmEncrypt (task : Nat) (s : State) : Host.Outcome State Fault Refusal :=
  .next (doGcmEncrypt task s)

/-- A Scrim GCM decrypt job, checking the tag before releasing output. (R385) -/
def execGcmDecrypt (task : Nat) (s : State) : Host.Outcome State Fault Refusal :=
  .next (doGcmDecrypt task s)

/-- A Scrim CMAC generate job. (R383) -/
def execCmacGenerate (task : Nat) (s : State) : Host.Outcome State Fault Refusal :=
  .next (doCmacGenerate task s)

/-- A Scrim CMAC verify job. (R383) -/
def execCmacVerify (task : Nat) (s : State) : Host.Outcome State Fault Refusal :=
  .next (doCmacVerify task s)

/-- A derivation request computes a key by the SP 800-108 KDF into a slot, or is refused. (R386) -/
def execKeyDerivation (r : DeriveReq) (s : State) : Host.Outcome State Fault Refusal :=
  .next (doKeyDerivation r s)

/-- A reserved block of invocation counter values is journalled on flash and waiting encryptions proceed. (R394) -/
def execCounterBlockOnFlash (slot : Nat) (s : State) : Host.Outcome State Fault Refusal :=
  .next (doCounterBlockOnFlash slot s)

/-- SCR_SLOT_CMD ERASE erases a slot, aborting every message latched to it. (R392) -/
def execScrSlotErase (s : State) : Host.Outcome State Fault Refusal :=
  .next (doScrSlotErase s)

/-- TW_KEY_CMD DERIVE_MAC writes a tenant MAC key into the selected slot. (R404) -/
def execTwKeyDeriveMac (tag index : Nat) (s : State) : Host.Outcome State Fault Refusal :=
  .next (doTwKeyDeriveMac tag index s)

/-- TW_KEY_CMD DERIVE_CMAC writes a tenant CMAC key into the selected slot. (R404) -/
def execTwKeyDeriveCmac (tag index : Nat) (s : State) : Host.Outcome State Fault Refusal :=
  .next (doTwKeyDeriveCmac tag index s)

/-- TW_KEY_CMD ERASE erases the selected slot, refused for kinds 6 and 7. (R404) -/
def execTwKeyErase (tag : Nat) (s : State) : Host.Outcome State Fault Refusal :=
  .next (doTwKeyErase tag s)

/-- A failed entropy health test halts the DRBG and counts EV295. (R399) -/
def execEntropyHealthFail (s : State) : Host.Outcome State Fault Refusal :=
  .next (doEntropyHealthFail s)

/-- A random-bit request waiting 100 ms for the source restart fails. (R399) -/
def execEntropyRestartTimeout (s : State) : Host.Outcome State Fault Refusal :=
  .next (doEntropyRestartTimeout s)

/-- A tamper alarm erases keys, parks actuators, rolls back scenes, dumps to the harbour and enters Curtain Down. (R415) -/
def execTamperAlarm (kind sensor : Nat) (s : State) : Host.Outcome State Fault Refusal :=
  .next (doTamperAlarm kind sensor s)

/-- Every 1 µs each tamper-mesh loop is checked, and two consecutive mismatches raise an alarm. (R414) -/
def execMeshCheck (loop : Nat) (sent received : BitVec 32) (s : State) : Host.Outcome State Fault Refusal :=
  .next (doMeshCheck loop sent received s)

/-- An SPDM request is answered with version, capabilities, measurements, certificates or a session, or with ERROR. (R418) -/
def execSpdmRequest (r : SpdmReq) (s : State) : Host.Outcome State Fault Refusal :=
  .next (doSpdmRequest r s)

/-- Trapdoor IDCODE selects the identification register. (R421) -/
def execTdIdcode (s : State) : Host.Outcome State Fault Refusal :=
  .next (doTdIdcode s)

/-- Trapdoor BYPASS selects the one-bit bypass register. (R421) -/
def execTdBypass (code : Nat) (s : State) : Host.Outcome State Fault Refusal :=
  .next (doTdBypass code s)

/-- Trapdoor TD_NONCE captures a new nonce from the DRBG. (R422) -/
def execTdNonce (s : State) : Host.Outcome State Fault Refusal :=
  .next (doTdNonce s)

/-- Trapdoor TD_RESPONSE checks the challenge and on success erases keys and starts the opening record. (R422) -/
def execTdResponse (r : TdResponse) (s : State) : Host.Outcome State Fault Refusal :=
  .next (doTdResponse r s)

/-- Trapdoor TD_STATUS returns the Trapdoor state. (R421) -/
def execTdStatus (s : State) : Host.Outcome State Fault Refusal :=
  .next (doTdStatus s)

/-- Trapdoor EXTEST boundary scan, open only. (R421) -/
def execTdExtest (s : State) : Host.Outcome State Fault Refusal :=
  .next (doTdExtest s)

/-- Trapdoor SAMPLE/PRELOAD boundary scan, open only. (R421) -/
def execTdSamplePreload (s : State) : Host.Outcome State Fault Refusal :=
  .next (doTdSamplePreload s)

/-- Trapdoor DEBUG device debug access, open only. (R421) -/
def execTdDebug (s : State) : Host.Outcome State Fault Refusal :=
  .next (doTdDebug s)

/-- A Trapdoor nonce older than 60 s is no longer valid. (R422) -/
def execNonceExpiry (s : State) : Host.Outcome State Fault Refusal :=
  .next (doNonceExpiry s)

/-- The EV363 record reaches flash, the device enters Curtain Down and the Trapdoor opens. (R422) -/
def execTrapdoorRecordWritten (s : State) : Host.Outcome State Fault Refusal :=
  .next (doTrapdoorRecordWritten s)

/-- The opening record not written within 1 s leaves the Trapdoor closed with ERR 0x04. (R423) -/
def execTrapdoorRecordTimeout (s : State) : Host.Outcome State Fault Refusal :=
  .next (doTrapdoorRecordTimeout s)

/-- The active Safety Curtain core misses its watchdog for 500 µs and the standby takes over, or Curtain Down follows. (R424) -/
def execSafetyCurtainFailover (s : State) : Host.Outcome State Fault Refusal :=
  .next (doSafetyCurtainFailover s)

/-- A Safety Curtain switchover completes and waiting derivations proceed. (R424) -/
def execSwitchoverDone (selfTestOk : Bool) (s : State) : Host.Outcome State Fault Refusal :=
  .next (doSwitchoverDone selfTestOk s)

/-- A DRAM read request decodes its words, correcting or poisoning them. (R434) -/
def execDramRead (unit addr : Nat) (flips : List (Nat × BitVec 80)) (use : DramUse) (s : State) : Host.Outcome State Fault Refusal :=
  if s.runs && s.dmc.mask != 0 && !s.dramHas addr then .fault (.outsideDram addr) else .next (doDramRead unit addr flips use s)

/-- A DRAM write request of a whole line. (R438) -/
def execDramWrite (unit addr : Nat) (line : Bytes) (s : State) : Host.Outcome State Fault Refusal :=
  if s.runs && s.dmc.mask != 0 && !s.dramHas addr then .fault (.outsideDram addr) else .next (doDramWrite unit addr line s)

/-- A narrow write merges into its line, refused when a partly covered word is uncorrectable. (R435) -/
def execMergeWrite (unit addr : Nat) (bytes : Bytes) (flips : List (Nat × BitVec 80)) (use : DramUse) (s : State) : Host.Outcome State Fault Refusal :=
  if s.runs && s.dmc.mask != 0 && !s.dramHas addr then .fault (.outsideDram addr) else .next (doMergeWrite unit addr bytes flips use s)

/-- A same-bank refresh or RFM falls due and is issued. (R441) -/
def execRefreshDue (ch rank bank : Nat) (rfm : Bool) (s : State) : Host.Outcome State Fault Refusal :=
  .next (doRefreshDue ch rank bank rfm s)

/-- Every 32 ms each rank's refresh-rate indication and temperature are read, requesting a thermal change above HI. (R441) -/
def execRankRateRead (ch rank : Nat) (celsius : Nat) (rate : Nat) (s : State) : Host.Outcome State Fault Refusal :=
  .next (doRankRateRead ch rank celsius rate s)

/-- Every rank below LO for 1 s requests the change back to set A. (R442) -/
def execThermalReturnTimer (s : State) : Host.Outcome State Fault Refusal :=
  .next (doThermalReturnTimer s)

/-- DMC_FREQ_CTRL 0b01 requests a change to timing set A. (R442) -/
def execDmcFreqToA (s : State) : Host.Outcome State Fault Refusal :=
  .next (doDmcFreqToA s)

/-- DMC_FREQ_CTRL 0b10 requests a change to timing set B. (R442) -/
def execDmcFreqToB (s : State) : Host.Outcome State Fault Refusal :=
  .next (doDmcFreqToB s)

/-- All four channels have issued SRE and the second PLL re-locks at the new rate. (R443) -/
def execSelfRefreshCommitted (s : State) : Host.Outcome State Fault Refusal :=
  .next (doSelfRefreshCommitted s)

/-- The second PLL locks and the channels exit self-refresh under the new set. (R443) -/
def execPllRelocked (s : State) : Host.Outcome State Fault Refusal :=
  .next (doPllRelocked s)

/-- tXS after exit passes and DRAM requests resume. (R443) -/
def execTxsElapsed (s : State) : Host.Outcome State Fault Refusal :=
  .next (doTxsElapsed s)

/-- Once every queue is empty an abandoned frequency change is tried again. (R444) -/
def execFreqChangeRetry (s : State) : Host.Outcome State Fault Refusal :=
  .next (doFreqChangeRetry s)

/-- A channel with no request for DMC_SR_IDLE µs enters self-refresh. (R445) -/
def execIdleSelfRefresh (ch : Nat) (s : State) : Host.Outcome State Fault Refusal :=
  .next (doIdleSelfRefresh ch s)

/-- Loss of second-PLL lock outside a change stops the channels for restart and re-initialisation. (R446) -/
def execDramPllUnlock (recovered : Bool) (s : State) : Host.Outcome State Fault Refusal :=
  .next (doDramPllUnlock recovered s)

/-- The scrubber reads one line, correcting or poisoning words and ending passes. (R447) -/
def execScrubLine (flips : List (Nat × BitVec 80)) (sramEnd : Option Bool) (s : State) : Host.Outcome State Fault Refusal :=
  .next (doScrubLine flips sramEnd s)

/-- An SRAM word read is corrected in place or found uncorrectable. (R448) -/
def execSramRead (mem unit addr : Nat) (flip : BitVec 80) (use : DramUse) (s : State) : Host.Outcome State Fault Refusal :=
  .next (doSramRead mem unit addr flip use s)

/-- DMC_RETIRE_CTRL RETIRE starts retiring a DRAM channel, or is refused. (R449) -/
def execDmcRetire (ch : Nat) (s : State) : Host.Outcome State Fault Refusal :=
  .next (doDmcRetire ch s)

/-- A 1 MiB block of a retiring channel is copied and remapped, and the channel stops after the last. (R450) -/
def execBlockCopyDone (s : State) : Host.Outcome State Fault Refusal :=
  .next (doBlockCopyDone s)

/-- A unit raises an event, which is counted, routed, recorded or merged by the Sampler and notified. (R457) -/
def execEventRaise (e : Event) (s : State) : Host.Outcome State Fault Refusal :=
  .next (doEventRaise e s)

/-- One second after the oldest open record of a page, its open records are written to flash. (R466) -/
def execSamplerPageTimer (s : State) : Host.Outcome State Fault Refusal :=
  .next (doSamplerPageTimer s)

/-- A Sampler page write to a copy completes and its records close. (R468) -/
def execSamplerPageProgrammed (copy page : Nat) (s : State) : Host.Outcome State Fault Refusal :=
  .next (doSamplerPageProgrammed copy page s)

/-- A write of SMP_CURSOR_HI selects the record or Footside entry shown. (R470) -/
def execSmpCursorWrite (req : Requester) (hi : BitVec 32) (s : State) : Host.Outcome State Fault Refusal :=
  .next (doSmpCursorWrite req hi s)

/-- A write of TW_SMP_CURSOR_HI selects the tenant log record shown. (R471) -/
def execTwSmpCursorWrite (req : Requester) (tag : Nat) (hi : BitVec 32) (s : State) : Host.Outcome State Fault Refusal :=
  .next (doTwSmpCursorWrite req tag hi s)

/-- A write of TW_EVT_CTRL sets notification control, binding MSI-X to the function written. (R460) -/
def execTwEvtCtrlWrite (fn tag : Nat) (val : BitVec 32) (s : State) : Host.Outcome State Fault Refusal :=
  .next (doTwEvtCtrlWrite fn tag val s)

/-- PERST_N rises with the power-up conditions met and the boot ROM starts. (R480) -/
def execResetRelease (c : PowerConditions) (s : State) : Host.Outcome State Fault Refusal :=
  .next (doResetRelease c s)

/-- The last power-up condition is met after PERST_N rose and the device leaves Dark. (R480) -/
def execSupplyConditionsMet (s : State) : Host.Outcome State Fault Refusal :=
  .next (doSupplyConditionsMet s)

/-- A firmware slot is read and verified, booting it or trying the next, or entering recovery. (R485) -/
def execFirmwareSlotRead (readOk verified : Bool) (s : State) : Host.Outcome State Fault Refusal :=
  .next (doFirmwareSlotRead readOk verified s)

/-- DEV_CTRL GO lets House Lights held by HOLD proceed to Rehearsal. (R501) -/
def execDevGo (s : State) : Host.Outcome State Fault Refusal :=
  .next (doDevGo s)

/-- DEV_CTRL SET_HOLD sets the boot-record HOLD flag. (R501) -/
def execDevSetHold (s : State) : Host.Outcome State Fault Refusal :=
  .next (doDevSetHold s)

/-- DEV_CTRL CLEAR_HOLD clears the boot-record HOLD flag. (R501) -/
def execDevClearHold (s : State) : Host.Outcome State Fault Refusal :=
  .next (doDevClearHold s)

/-- With the Pricking sealed, the cue stepped, HOLD clear and temperature allowed, the device enters Rehearsal. (R476) -/
def execRehearsalStart (s : State) : Host.Outcome State Fault Refusal :=
  .next (doRehearsalStart s)

/-- A Rehearsal step starts once the steps it needs are done. (R487) -/
def execRehearsalStepStart (bit : Nat) (s : State) : Host.Outcome State Fault Refusal :=
  .next (doRehearsalStepStart bit s)

/-- A Rehearsal step completes or fails, entering Performance or Final Curtain after the last, or House Lights on a fatal failure. (R487) -/
def execRehearsalStepDone (bit : Nat) (f : StepFacts) (s : State) : Host.Outcome State Fault Refusal :=
  .next (doRehearsalStepDone bit f s)

/-- An actuator not normal 40 s after Rehearsal began goes offline. (R488) -/
def execActuatorLoadDeadline (act : Nat) (s : State) : Host.Outcome State Fault Refusal :=
  .next (doActuatorLoadDeadline act s)

/-- PWR_LOSS_N low for 2 µs starts the harbour sequence, or a plain halt before map restore. (R186) -/
def execPowerLoss (ns : Nat) (s : State) : Host.Outcome State Fault Refusal :=
  .next (doPowerLoss ns s)

/-- PERST_N low for 2 µs runs the harbour sequence and enters Dark at its seal. (R489) -/
def execPerstAssert (ns : Nat) (s : State) : Host.Outcome State Fault Refusal :=
  .next (doPerstAssert ns s)

/-- The harbour seal record is written and the device halts with PWR_SEALED high. (R186) -/
def execHarbourSeal (s : State) : Host.Outcome State Fault Refusal :=
  .next (doHarbourSeal s)

/-- The composite temperature is compared with the warning, throttle and shutdown thresholds. (R494) -/
def execTemperatureSample (temps : List Int) (s : State) : Host.Outcome State Fault Refusal :=
  .next (doTemperatureSample temps s)

/-- Every 100 ms while throttling the issue rate is lowered or raised by 10%. (R495) -/
def execThrottleStep (s : State) : Host.Outcome State Fault Refusal :=
  .next (doThrottleStep s)

/-- Every 168 operating hours the aging monitors are measured and PWR_VCORE_REQ raised when margin is low. (R498) -/
def execAgingMeasure (margin : Nat) (s : State) : Host.Outcome State Fault Refusal :=
  .next (doAgingMeasure margin s)

/-- Every 1 ms PWR_POWER is updated with the estimated draw. (R493) -/
def execPowerEstimateUpdate (mw : Nat) (s : State) : Host.Outcome State Fault Refusal :=
  .next (doPowerEstimateUpdate mw s)

/-- A rail outside its tolerance for 1 ms records EV396. (R507) -/
def execRailOutOfTolerance (rail mv : Nat) (s : State) : Host.Outcome State Fault Refusal :=
  .next (doRailOutOfTolerance rail mv s)

/-- The board removes the supply rails and the device goes to Dark from any state, with recovery under R189 at the next start-up if the harbour had not sealed. (R476) -/
def execSuppliesRemoved (held : Nat) (s : State) : Host.Outcome State Fault Refusal :=
  .next (doSuppliesRemoved held s)

/-- A platter write run ends when the write gate drops after the gap of its last sector, and the slots written without suspicion are placed and their map switches made. (R245) -/
def execWriteRunEnd (act : Nat) (s : State) : Host.Outcome State Fault Refusal :=
  .next (doWriteRunEnd act s)

/-- An NVMe/TCP PDU of a type not allowed from a host is answered with C2HTermReq FES 0x02 PDU Sequence Error and the connection is closed (EV018). (R102) -/
def execPduTypeNotAllowed (conn : Nat) (s : State) : Host.Outcome State Fault Refusal :=
  .next (doPduTypeNotAllowed conn s)

end Sys2Proof.Machine
end

