-- ==== Sys2Proof/Machine/Dispatch.lean ====
section
/-! DEFINITION. One arm per command: each a direct call of its meaning. -/
namespace Sys2Proof.Machine

/-- What command `i` does to state `s`, everything but the queue. -/
def exec (i : Instr) (s : State) : Host.Outcome State Fault Refusal :=
  match i with
  | .registerWrite req win off size val => Sys2Proof.Machine.execRegisterWrite req win off size val s
  | .lowWordWrite req win off val => Sys2Proof.Machine.execLowWordWrite req win off val s
  | .highWordWrite req win off val => Sys2Proof.Machine.execHighWordWrite req win off val s
  | .lowWordRead req win off => Sys2Proof.Machine.execLowWordRead req win off s
  | .highWordRead req win off => Sys2Proof.Machine.execHighWordRead req win off s
  | .readClear req win off size hwUpdate => Sys2Proof.Machine.execReadClear req win off size hwUpdate s
  | .groundTransaction t => Sys2Proof.Machine.execGroundTransaction t s
  | .prkVerify aperture img => Sys2Proof.Machine.execPrkVerify aperture img s
  | .prkApply aperture img => Sys2Proof.Machine.execPrkApply aperture img s
  | .prkStore aperture img => Sys2Proof.Machine.execPrkStore aperture img s
  | .prkAbort => Sys2Proof.Machine.execPrkAbort s
  | .prkImageFetched img => Sys2Proof.Machine.execPrkImageFetched img s
  | .prkApertureWrite off words => Sys2Proof.Machine.execPrkApertureWrite off words s
  | .intermissionDrained unit => Sys2Proof.Machine.execIntermissionDrained unit s
  | .drainLimitExpiry => Sys2Proof.Machine.execDrainLimitExpiry s
  | .storeSlotWritten readBackOk => Sys2Proof.Machine.execStoreSlotWritten readBackOk s
  | .prickingBootLoad m => Sys2Proof.Machine.execPrickingBootLoad m s
  | .clkGateReqWrite val => Sys2Proof.Machine.execClkGateReqWrite val s
  | .clockDomainStop dom => Sys2Proof.Machine.execClockDomainStop dom s
  | .clockDomainStart dom => Sys2Proof.Machine.execClockDomainStart dom s
  | .refclkMeterInterval tenthPpm => Sys2Proof.Machine.execRefclkMeterInterval tenthPpm s
  | .clockAlarm cause => Sys2Proof.Machine.execClockAlarm cause s
  | .cueStepWrite req hi => Sys2Proof.Machine.execCueStepWrite req hi s
  | .cueBroadcast drift => Sys2Proof.Machine.execCueBroadcast drift s
  | .tapSkewMeasure tap comp dieTemp => Sys2Proof.Machine.execTapSkewMeasure tap comp dieTemp s
  | .cueCalCtrl val => Sys2Proof.Machine.execCueCalCtrl val s
  | .cueCtrlWrite val => Sys2Proof.Machine.execCueCtrlWrite val s
  | .cueRateAdjWrite val => Sys2Proof.Machine.execCueRateAdjWrite val s
  | .ptpEventMessage port ingress servo => Sys2Proof.Machine.execPtpEventMessage port ingress servo s
  | .ptmResponse servo => Sys2Proof.Machine.execPtmResponse servo s
  | .disciplineSourceLost => Sys2Proof.Machine.execDisciplineSourceLost s
  | .cuePost poster c => Sys2Proof.Machine.execCuePost poster c s
  | .cueArm slot => Sys2Proof.Machine.execCueArm slot s
  | .cueFire slot => Sys2Proof.Machine.execCueFire slot s
  | .cueCancel poster slot => Sys2Proof.Machine.execCueCancel poster slot s
  | .cancelArrival slot => Sys2Proof.Machine.execCancelArrival slot s
  | .cuePostCmd val => Sys2Proof.Machine.execCuePostCmd val s
  | .cueCancelWrite val => Sys2Proof.Machine.execCueCancelWrite val s
  | .beatBoundary => Sys2Proof.Machine.execBeatBoundary s
  | .pcieTlp port fn tlp => Sys2Proof.Machine.execPcieTlp port fn tlp s
  | .doorbellWrite ctrl cq qid val => Sys2Proof.Machine.execDoorbellWrite ctrl cq qid val s
  | .pcieCompletion rid status data => Sys2Proof.Machine.execPcieCompletion rid status data s
  | .completionTimeout rid => Sys2Proof.Machine.execCompletionTimeout rid s
  | .doeObject port obj => Sys2Proof.Machine.execDoeObject port obj s
  | .pcieLinkUp port rate width flit l0p => Sys2Proof.Machine.execPcieLinkUp port rate width flit l0p s
  | .pcieLinkDown port => Sys2Proof.Machine.execPcieLinkDown port s
  | .flr port fn => Sys2Proof.Machine.execFlr port fn s
  | .vfEnableChange port enable numVfs => Sys2Proof.Machine.execVfEnableChange port enable numVfs s
  | .controllerEnable ctrl aqa => Sys2Proof.Machine.execControllerEnable ctrl aqa s
  | .controllerDisable ctrl => Sys2Proof.Machine.execControllerDisable ctrl s
  | .ethFrame port f => Sys2Proof.Machine.execEthFrame port f s
  | .pauseFrame port prio on => Sys2Proof.Machine.execPauseFrame port prio on s
  | .cnpReceived qp => Sys2Proof.Machine.execCnpReceived qp s
  | .rateRecoveryStep qp => Sys2Proof.Machine.execRateRecoveryStep qp s
  | .ethLinkUp port phy => Sys2Proof.Machine.execEthLinkUp port phy s
  | .logicalPortDown port => Sys2Proof.Machine.execLogicalPortDown port s
  | .tcpIcreq conn ic => Sys2Proof.Machine.execTcpIcreq conn ic s
  | .tcpCapsule conn cap => Sys2Proof.Machine.execTcpCapsule conn cap s
  | .h2cData conn pdu => Sys2Proof.Machine.execH2cData conn pdu s
  | .tcpConnectionLoss conn => Sys2Proof.Machine.execTcpConnectionLoss conn s
  | .tlsHandshake conn msg => Sys2Proof.Machine.execTlsHandshake conn msg s
  | .tlsRecord conn authentic => Sys2Proof.Machine.execTlsRecord conn authentic s
  | .tlsKeyUpdateDue conn => Sys2Proof.Machine.execTlsKeyUpdateDue conn s
  | .connect c => Sys2Proof.Machine.execConnect c s
  | .connectAdmitted conn => Sys2Proof.Machine.execConnectAdmitted conn s
  | .invalidHostClose conn => Sys2Proof.Machine.execInvalidHostClose conn s
  | .disconnect conn => Sys2Proof.Machine.execDisconnect conn s
  | .keepAliveExpiry ctrl => Sys2Proof.Machine.execKeepAliveExpiry ctrl s
  | .rdmaSend qp cap noBuffer => Sys2Proof.Machine.execRdmaSend qp cap noBuffer s
  | .rdmaReadResponse rid data => Sys2Proof.Machine.execRdmaReadResponse rid data s
  | .rdmaNak rid => Sys2Proof.Machine.execRdmaNak rid s
  | .rdmaInboundAccess qp => Sys2Proof.Machine.execRdmaInboundAccess qp s
  | .rdmaQpLoss qp => Sys2Proof.Machine.execRdmaQpLoss qp s
  | .dataRequestIssue scene len => Sys2Proof.Machine.execDataRequestIssue scene len s
  | .dataTimeout rid => Sys2Proof.Machine.execDataTimeout rid s
  | .miMessage m => Sys2Proof.Machine.execMiMessage m s
  | .hfeNetCtrlWrite val => Sys2Proof.Machine.execHfeNetCtrlWrite val s
  | .createIoSq h qid size cqid prio => Sys2Proof.Machine.execCreateIoSq h qid size cqid prio s
  | .createIoCq h qid size vector => Sys2Proof.Machine.execCreateIoCq h qid size vector s
  | .deleteIoSq h qid => Sys2Proof.Machine.execDeleteIoSq h qid s
  | .deleteIoCq h qid => Sys2Proof.Machine.execDeleteIoCq h qid s
  | .getLogPage h lid offset len rae => Sys2Proof.Machine.execGetLogPage h lid offset len rae s
  | .getLogGloexError h lsi offset len => Sys2Proof.Machine.execGetLogGloexError h lsi offset len s
  | .getLogResetOutcome h offset len => Sys2Proof.Machine.execGetLogResetOutcome h offset len s
  | .getLogCommitCue h lsi offset len => Sys2Proof.Machine.execGetLogCommitCue h lsi offset len s
  | .getLogEventLog h offset len rae => Sys2Proof.Machine.execGetLogEventLog h offset len rae s
  | .identify h cns => Sys2Proof.Machine.execIdentify h cns s
  | .getFeatures h fid => Sys2Proof.Machine.execGetFeatures h fid s
  | .setFeatures h fid sv cdw11 data => Sys2Proof.Machine.execSetFeatures h fid sv cdw11 data s
  | .setQueueOrdering h sv cdw11 => Sys2Proof.Machine.execSetQueueOrdering h sv cdw11 s
  | .getQueueOrdering h cdw11 => Sys2Proof.Machine.execGetQueueOrdering h cdw11 s
  | .setSelfTestStep h sv cdw11 => Sys2Proof.Machine.execSetSelfTestStep h sv cdw11 s
  | .abort h sqid target => Sys2Proof.Machine.execAbort h sqid target s
  | .abortHoldExpiry ctrl cid => Sys2Proof.Machine.execAbortHoldExpiry ctrl cid s
  | .asyncEventRequest h => Sys2Proof.Machine.execAsyncEventRequest h s
  | .keepAlive h => Sys2Proof.Machine.execKeepAlive h s
  | .deviceSelfTest h code => Sys2Proof.Machine.execDeviceSelfTest h code s
  | .selfTestAbort h => Sys2Proof.Machine.execSelfTestAbort h s
  | .selfTestStep ctrl passed last => Sys2Proof.Machine.execSelfTestStep ctrl passed last s
  | .formatNvm h lbaf ses => Sys2Proof.Machine.execFormatNvm h lbaf ses s
  | .securitySend h m => Sys2Proof.Machine.execSecuritySend h m s
  | .securityReceive h proto => Sys2Proof.Machine.execSecurityReceive h proto s
  | .loadProgram h pidx ptype offset total piece => Sys2Proof.Machine.execLoadProgram h pidx ptype offset total piece s
  | .programTranslated tenant pidx reject => Sys2Proof.Machine.execProgramTranslated tenant pidx reject s
  | .programActivate h pidx => Sys2Proof.Machine.execProgramActivate h pidx s
  | .programDeactivate h pidx => Sys2Proof.Machine.execProgramDeactivate h pidx s
  | .memoryRangeSetManagement h create setId ranges => Sys2Proof.Machine.execMemoryRangeSetManagement h create setId ranges s
  | .namespaceManagement h create a => Sys2Proof.Machine.execNamespaceManagement h create a s
  | .namespaceAttachment h attach ctrls => Sys2Proof.Machine.execNamespaceAttachment h attach ctrls s
  | .firmwareImageDownload h offset img => Sys2Proof.Machine.execFirmwareImageDownload h offset img s
  | .firmwareCommit h action slot => Sys2Proof.Machine.execFirmwareCommit h action slot s
  | .firmwareActivate h slot => Sys2Proof.Machine.execFirmwareActivate h slot s
  | .firmwareActivationSwitch => Sys2Proof.Machine.execFirmwareActivationSwitch s
  | .activationTimeout => Sys2Proof.Machine.execActivationTimeout s
  | .sanitize h action => Sys2Proof.Machine.execSanitize h action s
  | .nvmeMiSend h m => Sys2Proof.Machine.execNvmeMiSend h m s
  | .nvmeMiReceive h => Sys2Proof.Machine.execNvmeMiReceive h s
  | .restartQueue h sqid discard => Sys2Proof.Machine.execRestartQueue h sqid discard s
  | .invalidOpcode h admin opcode => Sys2Proof.Machine.execInvalidOpcode h admin opcode s
  | .nvmRead h slba nlb keyTag => Sys2Proof.Machine.execNvmRead h slba nlb keyTag s
  | .nvmWrite h slba nlb fua keyTag => Sys2Proof.Machine.execNvmWrite h slba nlb fua keyTag s
  | .flush h => Sys2Proof.Machine.execFlush h s
  | .compare h slba nlb => Sys2Proof.Machine.execCompare h slba nlb s
  | .writeZeroes h slba nlb => Sys2Proof.Machine.execWriteZeroes h slba nlb s
  | .writeUncorrectable h slba nlb => Sys2Proof.Machine.execWriteUncorrectable h slba nlb s
  | .datasetManagement h deallocate ranges => Sys2Proof.Machine.execDatasetManagement h deallocate ranges s
  | .verify h slba nlb => Sys2Proof.Machine.execVerify h slba nlb s
  | .copy h dst format ranges => Sys2Proof.Machine.execCopy h dst format ranges s
  | .kvStore h key len opts => Sys2Proof.Machine.execKvStore h key len opts s
  | .kvRetrieve h key bufLen => Sys2Proof.Machine.execKvRetrieve h key bufLen s
  | .kvDelete h key => Sys2Proof.Machine.execKvDelete h key s
  | .kvExist h key => Sys2Proof.Machine.execKvExist h key s
  | .kvList h key bufLen => Sys2Proof.Machine.execKvList h key bufLen s
  | .executeProgram h pidx setId blockOff hostLen => Sys2Proof.Machine.execExecuteProgram h pidx setId blockOff hostLen s
  | .memoryRead h off len => Sys2Proof.Machine.execMemoryRead h off len s
  | .memoryWrite h off len => Sys2Proof.Machine.execMemoryWrite h off len s
  | .memoryCopy h c => Sys2Proof.Machine.execMemoryCopy h c s
  | .fence h cdw10 => Sys2Proof.Machine.execFence h cdw10 s
  | .commitRequest scene => Sys2Proof.Machine.execCommitRequest scene s
  | .rollBackRequest scene st => Sys2Proof.Machine.execRollBackRequest scene st s
  | .readPoint scene => Sys2Proof.Machine.execReadPoint scene s
  | .arcExport tag => Sys2Proof.Machine.execArcExport tag s
  | .arcImport tag bag => Sys2Proof.Machine.execArcImport tag bag s
  | .arcAbort tag => Sys2Proof.Machine.execArcAbort tag s
  | .arcProvenance tag => Sys2Proof.Machine.execArcProvenance tag s
  | .arcFileDone tag f => Sys2Proof.Machine.execArcFileDone tag f s
  | .tierMovePass nsid => Sys2Proof.Machine.execTierMovePass nsid s
  | .sweepDayBoundary nsid => Sys2Proof.Machine.execSweepDayBoundary nsid s
  | .callBoardExpiry => Sys2Proof.Machine.execCallBoardExpiry s
  | .cbdCursorWrite req hi => Sys2Proof.Machine.execCbdCursorWrite req hi s
  | .twCbCursorWrite req tag hi => Sys2Proof.Machine.execTwCbCursorWrite req tag hi s
  | .twTlyPrCursorWrite req tag hi => Sys2Proof.Machine.execTwTlyPrCursorWrite req tag hi s
  | .journalWrite => Sys2Proof.Machine.execJournalWrite s
  | .journalProgrammed => Sys2Proof.Machine.execJournalProgrammed s
  | .destage slot => Sys2Proof.Machine.execDestage slot s
  | .placeAdmit => Sys2Proof.Machine.execPlaceAdmit s
  | .checkpointStart => Sys2Proof.Machine.execCheckpointStart s
  | .trlCkptCtrl val => Sys2Proof.Machine.execTrlCkptCtrl val s
  | .checkpointClosed => Sys2Proof.Machine.execCheckpointClosed s
  | .reclaimBackground => Sys2Proof.Machine.execReclaimBackground s
  | .reclaimForeground => Sys2Proof.Machine.execReclaimForeground s
  | .platterReclaim act => Sys2Proof.Machine.execPlatterReclaim act s
  | .retentionExpiry sb => Sys2Proof.Machine.execRetentionExpiry sb s
  | .flashReadDone rid lun => Sys2Proof.Machine.execFlashReadDone rid lun s
  | .flashProgramDone lun ok => Sys2Proof.Machine.execFlashProgramDone lun ok s
  | .flashEraseDone lun ok => Sys2Proof.Machine.execFlashEraseDone lun ok s
  | .lunTimeout lun => Sys2Proof.Machine.execLunTimeout lun s
  | .channelRetrain ch ok dieTemp => Sys2Proof.Machine.execChannelRetrain ch ok dieTemp s
  | .decodeDone rid ok iters check => Sys2Proof.Machine.execDecodeDone rid ok iters check s
  | .flcEvacuate g => Sys2Proof.Machine.execFlcEvacuate g s
  | .evacuationDone => Sys2Proof.Machine.execEvacuationDone s
  | .flcRemove g => Sys2Proof.Machine.execFlcRemove g s
  | .flcInsert g force dies => Sys2Proof.Machine.execFlcInsert g force dies s
  | .insertionDone => Sys2Proof.Machine.execInsertionDone s
  | .flcCancel g => Sys2Proof.Machine.execFlcCancel g s
  | .flcResume g answers => Sys2Proof.Machine.execFlcResume g answers s
  | .angleField act f => Sys2Proof.Machine.execAngleField act f s
  | .relockTimeout act => Sys2Proof.Machine.execRelockTimeout act s
  | .servoField act f => Sys2Proof.Machine.execServoField act f s
  | .sectorSync act lane w => Sys2Proof.Machine.execSectorSync act lane w s
  | .codewordComplete act lane => Sys2Proof.Machine.execCodewordComplete act lane s
  | .reservationRelease dec => Sys2Proof.Machine.execReservationRelease dec s
  | .shockCrossing input mv => Sys2Proof.Machine.execShockCrossing input mv s
  | .preampFault act ns => Sys2Proof.Machine.execPreampFault act ns s
  | .preampFrameDone act data mismatch => Sys2Proof.Machine.execPreampFrameDone act data mismatch s
  | .rchCalibrateL0 act => Sys2Proof.Machine.execRchCalibrateL0 act s
  | .rchCalibrateL1 act => Sys2Proof.Machine.execRchCalibrateL1 act s
  | .rchPark act => Sys2Proof.Machine.execRchPark act s
  | .rchResume act => Sys2Proof.Machine.execRchResume act s
  | .rchOffline act => Sys2Proof.Machine.execRchOffline act s
  | .laneCalibrationDue act lane dieTemp => Sys2Proof.Machine.execLaneCalibrationDue act lane dieTemp s
  | .laneCalibrationDone act lane ok => Sys2Proof.Machine.execLaneCalibrationDone act lane ok s
  | .offlineWaitExpiry rid => Sys2Proof.Machine.execOfflineWaitExpiry rid s
  | .rchPaCmd act val => Sys2Proof.Machine.execRchPaCmd act val s
  | .sampleBoundary slot m => Sys2Proof.Machine.execSampleBoundary slot m s
  | .hopSlotEnable slot => Sys2Proof.Machine.execHopSlotEnable slot s
  | .hopSlotDisable slot => Sys2Proof.Machine.execHopSlotDisable slot s
  | .hopBankRequest slot bank atCue => Sys2Proof.Machine.execHopBankRequest slot bank atCue s
  | .hopCoeffWrite slot bank idx val becoming => Sys2Proof.Machine.execHopCoeffWrite slot bank idx val becoming s
  | .hopSetpointWrite req slot hi => Sys2Proof.Machine.execHopSetpointWrite req slot hi s
  | .hopProfileStart act first => Sys2Proof.Machine.execHopProfileStart act first s
  | .hopProfileStop act => Sys2Proof.Machine.execHopProfileStop act s
  | .motorLinkFrame reply => Sys2Proof.Machine.execMotorLinkFrame reply s
  | .nopIdleTimer => Sys2Proof.Machine.execNopIdleTimer s
  | .parkTimeout act => Sys2Proof.Machine.execParkTimeout act s
  | .actuatorLoaded act m => Sys2Proof.Machine.execActuatorLoaded act m s
  | .driverFault ns => Sys2Proof.Machine.execDriverFault ns s
  | .heaterFrameSend act head => Sys2Proof.Machine.execHeaterFrameSend act head s
  | .mlkCmd val => Sys2Proof.Machine.execMlkCmd val s
  | .mlkResync val => Sys2Proof.Machine.execMlkResync val s
  | .ringTailWrite ring val => Sys2Proof.Machine.execRingTailWrite ring val s
  | .smgRingCtrlWrite req ring reg val => Sys2Proof.Machine.execSmgRingCtrlWrite req ring reg val s
  | .batchCreate ring => Sys2Proof.Machine.execBatchCreate ring s
  | .taskComplete handle status => Sys2Proof.Machine.execTaskComplete handle status s
  | .taskDispatch unit place => Sys2Proof.Machine.execTaskDispatch unit place s
  | .sealedWindowSave handle => Sys2Proof.Machine.execSealedWindowSave handle s
  | .bobRetire val => Sys2Proof.Machine.execBobRetire val s
  | .bobbinWatchdog bob => Sys2Proof.Machine.execBobbinWatchdog bob s
  | .bobbinSelftest core ok => Sys2Proof.Machine.execBobbinSelftest core ok s
  | .retireGraceExpiry => Sys2Proof.Machine.execRetireGraceExpiry s
  | .understudyLoaded => Sys2Proof.Machine.execUnderstudyLoaded s
  | .invocationComplete inv r => Sys2Proof.Machine.execInvocationComplete inv r s
  | .budgetExhausted inv stores => Sys2Proof.Machine.execBudgetExhausted inv stores s
  | .pqAsuSearch inv table key mask upsets => Sys2Proof.Machine.execPqAsuSearch inv table key mask upsets s
  | .pqAsuInsert inv table entry pos => Sys2Proof.Machine.execPqAsuInsert inv table entry pos s
  | .pqAsuDelete inv table index => Sys2Proof.Machine.execPqAsuDelete inv table index s
  | .pqAsuScan inv table src cap upsets => Sys2Proof.Machine.execPqAsuScan inv table src cap upsets s
  | .pqDigest inv alg src => Sys2Proof.Machine.execPqDigest inv alg src s
  | .pqDigestPart inv alg ctx src first last => Sys2Proof.Machine.execPqDigestPart inv alg ctx src first last s
  | .pqCompress inv fmt level src cap => Sys2Proof.Machine.execPqCompress inv fmt level src cap s
  | .pqDecompress inv fmt src cap => Sys2Proof.Machine.execPqDecompress inv fmt src cap s
  | .pqCrc64 inv src prev => Sys2Proof.Machine.execPqCrc64 inv src prev s
  | .pqMemCopy inv dst src => Sys2Proof.Machine.execPqMemCopy inv dst src s
  | .pqMemCmp inv a b => Sys2Proof.Machine.execPqMemCmp inv a b s
  | .pqFence inv kind => Sys2Proof.Machine.execPqFence inv kind s
  | .pqRaiseEvent inv index arg0 arg1 => Sys2Proof.Machine.execPqRaiseEvent inv index arg0 arg1 s
  | .pqCueNow inv => Sys2Proof.Machine.execPqCueNow inv s
  | .helperTimeout inv => Sys2Proof.Machine.execHelperTimeout inv s
  | .asuUpdateStart table => Sys2Proof.Machine.execAsuUpdateStart table s
  | .asuWalk upset => Sys2Proof.Machine.execAsuWalk upset s
  | .smockCompress task => Sys2Proof.Machine.execSmockCompress task s
  | .smockDecompress task check => Sys2Proof.Machine.execSmockDecompress task check s
  | .tallyJob task flip0 flip1 check => Sys2Proof.Machine.execTallyJob task flip0 flip1 check s
  | .twTlyStart tag slot val => Sys2Proof.Machine.execTwTlyStart tag slot val s
  | .twTlyAbort tag slot => Sys2Proof.Machine.execTwTlyAbort tag slot s
  | .twTlyDataHi req tag slot hi => Sys2Proof.Machine.execTwTlyDataHi req tag slot hi s
  | .twTlyLastVb tag slot vb => Sys2Proof.Machine.execTwTlyLastVb tag slot vb s
  | .tallyStreamIdle tag slot => Sys2Proof.Machine.execTallyStreamIdle tag slot s
  | .xtsEncrypt task => Sys2Proof.Machine.execXtsEncrypt task s
  | .xtsDecrypt task => Sys2Proof.Machine.execXtsDecrypt task s
  | .gcmEncrypt task => Sys2Proof.Machine.execGcmEncrypt task s
  | .gcmDecrypt task => Sys2Proof.Machine.execGcmDecrypt task s
  | .cmacGenerate task => Sys2Proof.Machine.execCmacGenerate task s
  | .cmacVerify task => Sys2Proof.Machine.execCmacVerify task s
  | .keyDerivation r => Sys2Proof.Machine.execKeyDerivation r s
  | .counterBlockOnFlash slot => Sys2Proof.Machine.execCounterBlockOnFlash slot s
  | .scrSlotErase => Sys2Proof.Machine.execScrSlotErase s
  | .twKeyDeriveMac tag index => Sys2Proof.Machine.execTwKeyDeriveMac tag index s
  | .twKeyDeriveCmac tag index => Sys2Proof.Machine.execTwKeyDeriveCmac tag index s
  | .twKeyErase tag => Sys2Proof.Machine.execTwKeyErase tag s
  | .entropyHealthFail => Sys2Proof.Machine.execEntropyHealthFail s
  | .entropyRestartTimeout => Sys2Proof.Machine.execEntropyRestartTimeout s
  | .tamperAlarm kind sensor => Sys2Proof.Machine.execTamperAlarm kind sensor s
  | .meshCheck loop sent received => Sys2Proof.Machine.execMeshCheck loop sent received s
  | .spdmRequest r => Sys2Proof.Machine.execSpdmRequest r s
  | .tdIdcode => Sys2Proof.Machine.execTdIdcode s
  | .tdBypass code => Sys2Proof.Machine.execTdBypass code s
  | .tdNonce => Sys2Proof.Machine.execTdNonce s
  | .tdResponse r => Sys2Proof.Machine.execTdResponse r s
  | .tdStatus => Sys2Proof.Machine.execTdStatus s
  | .tdExtest => Sys2Proof.Machine.execTdExtest s
  | .tdSamplePreload => Sys2Proof.Machine.execTdSamplePreload s
  | .tdDebug => Sys2Proof.Machine.execTdDebug s
  | .nonceExpiry => Sys2Proof.Machine.execNonceExpiry s
  | .trapdoorRecordWritten => Sys2Proof.Machine.execTrapdoorRecordWritten s
  | .trapdoorRecordTimeout => Sys2Proof.Machine.execTrapdoorRecordTimeout s
  | .safetyCurtainFailover => Sys2Proof.Machine.execSafetyCurtainFailover s
  | .switchoverDone selfTestOk => Sys2Proof.Machine.execSwitchoverDone selfTestOk s
  | .dramRead unit addr flips use => Sys2Proof.Machine.execDramRead unit addr flips use s
  | .dramWrite unit addr line => Sys2Proof.Machine.execDramWrite unit addr line s
  | .mergeWrite unit addr bytes flips use => Sys2Proof.Machine.execMergeWrite unit addr bytes flips use s
  | .refreshDue ch rank bank rfm => Sys2Proof.Machine.execRefreshDue ch rank bank rfm s
  | .rankRateRead ch rank celsius rate => Sys2Proof.Machine.execRankRateRead ch rank celsius rate s
  | .thermalReturnTimer => Sys2Proof.Machine.execThermalReturnTimer s
  | .dmcFreqToA => Sys2Proof.Machine.execDmcFreqToA s
  | .dmcFreqToB => Sys2Proof.Machine.execDmcFreqToB s
  | .selfRefreshCommitted => Sys2Proof.Machine.execSelfRefreshCommitted s
  | .pllRelocked => Sys2Proof.Machine.execPllRelocked s
  | .txsElapsed => Sys2Proof.Machine.execTxsElapsed s
  | .freqChangeRetry => Sys2Proof.Machine.execFreqChangeRetry s
  | .idleSelfRefresh ch => Sys2Proof.Machine.execIdleSelfRefresh ch s
  | .dramPllUnlock recovered => Sys2Proof.Machine.execDramPllUnlock recovered s
  | .scrubLine flips sramEnd => Sys2Proof.Machine.execScrubLine flips sramEnd s
  | .sramRead mem unit addr flip use => Sys2Proof.Machine.execSramRead mem unit addr flip use s
  | .dmcRetire ch => Sys2Proof.Machine.execDmcRetire ch s
  | .blockCopyDone => Sys2Proof.Machine.execBlockCopyDone s
  | .eventRaise e => Sys2Proof.Machine.execEventRaise e s
  | .samplerPageTimer => Sys2Proof.Machine.execSamplerPageTimer s
  | .samplerPageProgrammed copy page => Sys2Proof.Machine.execSamplerPageProgrammed copy page s
  | .smpCursorWrite req hi => Sys2Proof.Machine.execSmpCursorWrite req hi s
  | .twSmpCursorWrite req tag hi => Sys2Proof.Machine.execTwSmpCursorWrite req tag hi s
  | .twEvtCtrlWrite fn tag val => Sys2Proof.Machine.execTwEvtCtrlWrite fn tag val s
  | .resetRelease c => Sys2Proof.Machine.execResetRelease c s
  | .supplyConditionsMet => Sys2Proof.Machine.execSupplyConditionsMet s
  | .firmwareSlotRead readOk verified => Sys2Proof.Machine.execFirmwareSlotRead readOk verified s
  | .devGo => Sys2Proof.Machine.execDevGo s
  | .devSetHold => Sys2Proof.Machine.execDevSetHold s
  | .devClearHold => Sys2Proof.Machine.execDevClearHold s
  | .rehearsalStart => Sys2Proof.Machine.execRehearsalStart s
  | .rehearsalStepStart bit => Sys2Proof.Machine.execRehearsalStepStart bit s
  | .rehearsalStepDone bit f => Sys2Proof.Machine.execRehearsalStepDone bit f s
  | .actuatorLoadDeadline act => Sys2Proof.Machine.execActuatorLoadDeadline act s
  | .powerLoss ns => Sys2Proof.Machine.execPowerLoss ns s
  | .perstAssert ns => Sys2Proof.Machine.execPerstAssert ns s
  | .harbourSeal => Sys2Proof.Machine.execHarbourSeal s
  | .temperatureSample temps => Sys2Proof.Machine.execTemperatureSample temps s
  | .throttleStep => Sys2Proof.Machine.execThrottleStep s
  | .agingMeasure margin => Sys2Proof.Machine.execAgingMeasure margin s
  | .powerEstimateUpdate mw => Sys2Proof.Machine.execPowerEstimateUpdate mw s
  | .railOutOfTolerance rail mv => Sys2Proof.Machine.execRailOutOfTolerance rail mv s
  | .suppliesRemoved held => Sys2Proof.Machine.execSuppliesRemoved held s
  | .writeRunEnd act => Sys2Proof.Machine.execWriteRunEnd act s
  | .pduTypeNotAllowed conn => Sys2Proof.Machine.execPduTypeNotAllowed conn s

end Sys2Proof.Machine
end

