-- ==== Sys2Proof/Safety.lean ====
section
/-! DEFINITION. What a safe run is, and the words that statements use: the parts of the state, what a command leaves alone (its
frame), what never falls, what every state of the device keeps. -/
namespace Sys2Proof

/-- A step that answers a next state: the device never stops for want of a meaning. -/
def Safe (s : Machine.State) : Prop := ∃ t, Machine.step s = .next t

end Sys2Proof

namespace Sys2Proof.Machine

/-- The parts of the state. The last three are parts of parts: the register values last written, each requester's halves of 64-bit
quantities (R8), the device state of R4. -/
inductive Part where
  | wall | free | out | bus | evt | prk | clk | cue | dev | pwr | hfe | scn | obj | trl | flc | rch | hop | smg | bob | dmc | tly | asu
  | scr | saf | dram | slm
  | regs | halves | phase
  deriving DecidableEq, Repr

/-- Part `p` of `t` is as in `s`. -/
def Part.same : Part → State → State → Prop
  | .wall, s, t => t.wall = s.wall
  | .free, s, t => t.free = s.free
  | .out, s, t => t.out = s.out
  | .bus, s, t => t.bus = s.bus
  | .evt, s, t => t.evt = s.evt
  | .prk, s, t => t.prk = s.prk
  | .clk, s, t => t.clk = s.clk
  | .cue, s, t => t.cue = s.cue
  | .dev, s, t => t.dev = s.dev
  | .pwr, s, t => t.pwr = s.pwr
  | .hfe, s, t => t.hfe = s.hfe
  | .scn, s, t => t.scn = s.scn
  | .obj, s, t => t.obj = s.obj
  | .trl, s, t => t.trl = s.trl
  | .flc, s, t => t.flc = s.flc
  | .rch, s, t => t.rch = s.rch
  | .hop, s, t => t.hop = s.hop
  | .smg, s, t => t.smg = s.smg
  | .bob, s, t => t.bob = s.bob
  | .dmc, s, t => t.dmc = s.dmc
  | .tly, s, t => t.tly = s.tly
  | .asu, s, t => t.asu = s.asu
  | .scr, s, t => t.scr = s.scr
  | .saf, s, t => t.saf = s.saf
  | .dram, s, t => t.dram = s.dram
  | .slm, s, t => t.slm = s.slm
  | .regs, s, t => t.bus.regs = s.bus.regs
  | .halves, s, t => t.bus.pendingLow = s.bus.pendingLow ∧ t.bus.latchedHigh = s.bus.latchedHigh
  | .phase, s, t => t.dev.phase = s.dev.phase

/-- From `s` to `t` nothing changes but the parts in `l`: every other part, and the queue, is as it was. -/
def Frame (l : List Part) (s t : State) : Prop := t.pending = s.pending ∧ ∀ p, l.contains p = false → p.same s t

/-- What never goes back, whatever happens: the rollback floors of R36 and R485, the record numbers of R466, the free values taken; nothing
sent is taken back; and both memories keep their canonical form. -/
structure Kept (s t : State) : Prop where
  free : s.free ≤ t.free
  out : s.out <:+ t.out
  fwFloor : s.dev.fwFloor ≤ t.dev.fwFloor
  prkFloor : s.prk.floor ≤ t.prk.floor
  recno : s.evt.next ≤ t.evt.next
  dram : memWf s.dram = true → memWf t.dram = true
  slm : memWf s.slm = true → memWf t.slm = true

/-! ### The conditions that statements name -/

/-- A requester reaches the house window, and the window answers and takes writes (R8-R13, R524). -/
def HouseOpen (q : Requester) (s : State) : Prop :=
  mayReach s q .house = true ∧ windowsOpen s = true ∧ writable s false = true

/-- The HFE fetches this command of set `set`, and its own work follows: no Abort waits for it (R128), no early status ends it (R132, R133). -/
def Fetched (h : CmdHdr) (set : CmdSet) (s : State) : Prop :=
  fetchable s h = true ∧ heldAbort s h = none ∧ earlyStatus s h set = none

/-- A fetched command opens its scene with its work, the next number in the fetch order, and what waited goes on (R111, R120). -/
def Opens (k : SceneKind) (s : State) (r : Host.Outcome State Fault Refusal) : Prop :=
  ∃ u, r = .next (goOn u) ∧ (Tab.find u.scn.scenes s.scn.nextOrder).map (fun c => c.kind) = some k

/-- A running invocation calls a helper that its budget still covers (R327, R332, R333); an engine's helper runs at once where its tenant is
not sealed (R301). -/
def Calls (h charge : Nat) (t : Task) (v : Inv) (s : State) : Prop :=
  ∃ i x, s.inv h = some (i, t, v, x) ∧ v.charge + charge ≤ x.budget

/-- A helper returns a value and bytes to its invocation (R327). -/
def Answers (h : Nat) (r : Int) (b : Bytes) (o : Host.Outcome State Fault Refusal) : Prop :=
  ∃ t, o = .next t ∧ (Tab.find t.bob.invs h).map (fun v => (v.result, v.bytes)) = some (r, b)

/-- The batch at HEAD of a ring: its header entry and its descriptors (R288, R306). -/
def batchAt (s : State) (ring : Nat) : Bytes × List Bytes :=
  let entry := fun (i : Nat) => s.dramRead (s.reg64 (ringBase ring) + 64 * (((s.ring ring).head + i) % s.ringSize ring)) 64
  (entry 0, (List.range (leAt (entry 0) 0 2)).map (fun i => entry (1 + i)))

/-- A whole batch waits on a ring that runs (R289, R306). -/
def BatchWaits (s : State) (ring count : Nat) : Prop :=
  s.ringOn ring = true ∧ ring < 16 ∧ (s.ring ring).head ≠ (s.ring ring).tail ∧ leAt (batchAt s ring).1 0 2 = count ∧
  1 + count ≤ ahead (s.ring ring).head (s.ring ring).tail ∧ 1 ≤ count ∧ count ≤ 256 ∧ s.unitsRun = true ∧ s.prk.intermission = []

/-- A DRAM request to an address is served at once: the channels run under one timing set, the address is in the interleave, its channel is
awake and nothing makes it wait (R430, R438, R441-R446, R450). -/
def DramServes (s : State) (a : Nat) : Prop :=
  s.runs = true ∧ s.dmc.mask ≠ 0 ∧ s.dramHas a = true ∧ s.dmc.freq = .idle ∧ Tab.at s.dmc.ch (s.dramPlace a).1 0 ≠ 2 ∧
  dramWaits s (s.dramPlace a).1 (s.dramPlace a).2 (s.dramBank (s.dramPlace a).1 (s.dramPlace a).2).1
    (s.dramBank (s.dramPlace a).1 (s.dramPlace a).2).2 = false

/-- The value that a 64-bit quantity's low and high words form. -/
def joined (lo hi : W32) : Nat := lo.toNat + hi.toNat * 2 ^ 32

/-- At most two wrong bits of a stored word, lowest first. -/
def FewErrors (l : List Nat) : Prop := l.length ≤ 2 ∧ l.Pairwise (· < ·) ∧ ∀ b ∈ l, b < 80

/-- The syndrome of wrong bits. -/
def errorsSyndrome (l : List Nat) : Nat := l.foldl (fun r b => r ^^^ errSyndrome b) 0

/-- The transitions of R476's table, from a state to a state. -/
def stateTable : List (DevPhase × DevPhase) :=
  [(.dark, .houseLights), (.houseLights, .rehearsal), (.rehearsal, .performance), (.rehearsal, .finalCurtain), (.rehearsal, .houseLights),
   (.performance, .finalCurtain), (.houseLights, .curtainDown), (.rehearsal, .curtainDown), (.performance, .curtainDown),
   (.finalCurtain, .curtainDown), (.houseLights, .dark), (.rehearsal, .dark), (.performance, .dark), (.curtainDown, .dark),
   (.finalCurtain, .dark)]

/-- The commands whose event may bring the device into a state (R476); `none` is a cycle with no command, in which a deferred PERST_N takes
effect (R489). -/
def enteredBy : DevPhase → Option Instr → Bool
  | .houseLights, some (.firmwareSlotRead ..) | .houseLights, some (.rehearsalStepDone ..) => true
  | .rehearsal, some .rehearsalStart => true
  | .performance, some (.rehearsalStepDone ..) => true
  | .finalCurtain, some (.rehearsalStepDone ..) => true
  | .finalCurtain, some (.nvmWrite ..) | .finalCurtain, some (.writeZeroes ..) | .finalCurtain, some (.writeUncorrectable ..)
  | .finalCurtain, some (.datasetManagement ..) | .finalCurtain, some (.copy ..) | .finalCurtain, some (.kvStore ..)
  | .finalCurtain, some (.memoryCopy ..) => true
  | .curtainDown, some (.refclkMeterInterval ..) | .curtainDown, some (.clockAlarm ..) | .curtainDown, some (.tamperAlarm ..)
  | .curtainDown, some (.meshCheck ..) | .curtainDown, some .trapdoorRecordWritten | .curtainDown, some .trapdoorRecordTimeout
  | .curtainDown, some .safetyCurtainFailover | .curtainDown, some (.temperatureSample ..) => true
  | .dark, none | .dark, some (.perstAssert ..) | .dark, some .harbourSeal | .dark, some (.suppliesRemoved ..) => true
  | _, _ => false

/-- The parts that a command may change: every other part, and the queue, it leaves as it was (its frame). -/
def mayChange : Instr → List Part
  | .registerWrite .. | .lowWordWrite .. | .highWordWrite .. | .pcieTlp .. | .miMessage .. | .firmwareActivationSwitch ..
  | .activationTimeout .. | .nvmeMiSend .. =>
    [.free, .out, .bus, .evt, .prk, .clk, .cue, .dev, .hfe, .scn, .obj, .trl, .flc, .rch, .hop, .smg, .bob, .dmc, .tly, .scr, .saf, .dram,
     .slm, .regs, .halves]
  | .lowWordRead .. | .highWordRead .. | .readClear .. => [.bus, .hop, .halves]
  | .groundTransaction .. | .firmwareActivate .. =>
    [.free, .out, .bus, .evt, .cue, .hfe, .scn, .obj, .trl, .flc, .smg, .bob, .tly, .scr, .saf, .slm]
  | .prkVerify .. | .prkApply .. | .prkStore .. | .prkImageFetched .. => [.out, .bus, .evt, .prk, .cue]
  | .prkAbort .. | .drainLimitExpiry .. => [.free, .out, .bus, .evt, .prk, .cue, .hfe, .scn, .obj, .trl, .flc, .smg, .bob, .tly, .scr, .slm]
  | .prkApertureWrite .. => [.prk]
  | .intermissionDrained .. =>
    [.free, .out, .bus, .evt, .prk, .cue, .hfe, .scn, .obj, .trl, .flc, .hop, .smg, .bob, .dmc, .tly, .asu, .scr, .saf, .dram, .slm]
  | .storeSlotWritten .. => [.out, .bus, .evt, .prk, .dev]
  | .prickingBootLoad .. => [.free, .out, .bus, .evt, .prk, .hop, .scr]
  | .clkGateReqWrite .. => [.bus, .clk, .regs]
  | .clockDomainStop .. => [.clk]
  | .clockDomainStart .. =>
    [.free, .out, .bus, .evt, .prk, .clk, .cue, .hfe, .scn, .obj, .trl, .flc, .rch, .hop, .smg, .bob, .dmc, .tly, .asu, .scr, .saf, .dram,
     .slm]
  | .refclkMeterInterval .. | .clockAlarm .. =>
    [.free, .out, .bus, .evt, .prk, .clk, .cue, .dev, .pwr, .hfe, .scn, .obj, .trl, .flc, .rch, .hop, .smg, .bob, .tly, .scr, .saf, .slm,
     .phase]
  | .cueStepWrite .. => [.out, .bus, .evt, .cue, .regs, .halves]
  | .cueBroadcast .. =>
    [.wall, .free, .out, .bus, .evt, .prk, .clk, .cue, .hfe, .scn, .obj, .trl, .flc, .rch, .hop, .smg, .bob, .dmc, .tly, .asu, .scr, .saf,
     .dram, .slm]
  | .tapSkewMeasure .. | .cueCalCtrl .. | .cueCtrlWrite .. | .cueRateAdjWrite .. | .cueArm .. | .cueCancel .. | .cancelArrival ..
  | .cueCancelWrite .. => [.cue]
  | .ptpEventMessage .. | .ptmResponse .. | .disciplineSourceLost .. => [.out, .bus, .evt, .cue]
  | .cuePost .. | .cuePostCmd .. => [.bus, .cue]
  | .cueFire .. =>
    [.free, .out, .bus, .evt, .prk, .cue, .hfe, .scn, .obj, .trl, .flc, .rch, .hop, .smg, .bob, .dmc, .tly, .asu, .scr, .saf, .dram, .slm]
  | .beatBoundary .. => [.out, .bus, .evt, .cue, .hfe, .scn, .smg, .bob]
  | .doorbellWrite .. => [.out, .bus, .evt, .scn]
  | .pcieCompletion .. | .completionTimeout .. | .controllerDisable .. | .logicalPortDown .. | .tcpIcreq .. | .tcpCapsule .. | .h2cData ..
  | .tcpConnectionLoss .. | .tlsHandshake .. | .tlsRecord .. | .invalidHostClose .. | .disconnect .. | .keepAliveExpiry .. | .rdmaSend ..
  | .rdmaReadResponse .. | .rdmaNak .. | .rdmaInboundAccess .. | .rdmaQpLoss .. | .dataRequestIssue .. | .dataTimeout .. | .createIoSq ..
  | .createIoCq .. | .deleteIoSq .. | .deleteIoCq .. | .getLogPage .. | .getLogGloexError .. | .getLogResetOutcome .. | .getLogCommitCue ..
  | .getLogEventLog .. | .identify .. | .getFeatures .. | .setFeatures .. | .setQueueOrdering .. | .getQueueOrdering ..
  | .setSelfTestStep .. | .abort .. | .abortHoldExpiry .. | .asyncEventRequest .. | .keepAlive .. | .deviceSelfTest .. | .selfTestAbort ..
  | .formatNvm .. | .securityReceive .. | .loadProgram .. | .programTranslated .. | .programActivate .. | .programDeactivate ..
  | .memoryRangeSetManagement .. | .namespaceManagement .. | .namespaceAttachment .. | .firmwareImageDownload .. | .sanitize ..
  | .nvmeMiReceive .. | .restartQueue .. | .invalidOpcode .. | .nvmRead .. | .flush .. | .compare .. | .verify .. | .kvRetrieve ..
  | .kvDelete .. | .kvExist .. | .kvList .. | .executeProgram .. | .memoryRead .. | .memoryWrite .. | .fence .. | .commitRequest ..
  | .rollBackRequest .. | .readPoint .. | .journalProgrammed .. | .placeAdmit .. | .flashProgramDone .. | .flashEraseDone ..
  | .lunTimeout .. | .channelRetrain .. | .decodeDone .. | .offlineWaitExpiry .. | .taskComplete .. | .invocationComplete ..
  | .budgetExhausted .. | .pqDigest .. | .pqDigestPart .. | .pqCompress .. | .pqDecompress .. | .pqCrc64 .. | .pqMemCopy .. | .pqMemCmp ..
  | .pqFence .. | .pqRaiseEvent .. | .pqCueNow .. | .helperTimeout .. | .entropyRestartTimeout .. | .pduTypeNotAllowed .. =>
    [.free, .out, .bus, .evt, .cue, .hfe, .scn, .obj, .trl, .flc, .smg, .bob, .tly, .scr, .slm]
  | .doeObject .. | .ethFrame .. => [.out, .bus, .evt, .hfe]
  | .pcieLinkUp .. | .pauseFrame .. | .rateRecoveryStep .. | .ethLinkUp .. => [.hfe]
  | .pcieLinkDown .. | .flr .. | .vfEnableChange .. =>
    [.free, .out, .bus, .evt, .cue, .hfe, .scn, .obj, .trl, .flc, .smg, .bob, .tly, .scr, .slm, .halves]
  | .controllerEnable .. => [.hfe, .scn]
  | .cnpReceived .. => [.bus, .hfe]
  | .tlsKeyUpdateDue .. => [.out, .hfe]
  | .connect .. | .connectAdmitted .. => [.out, .bus, .evt, .hfe, .scn]
  | .hfeNetCtrlWrite .. => [.free, .out, .bus, .evt, .cue, .hfe, .scn, .obj, .trl, .flc, .smg, .bob, .tly, .scr, .slm, .regs]
  | .selfTestStep .. => [.scn]
  | .securitySend .. | .tallyJob .. | .xtsEncrypt .. | .xtsDecrypt .. | .gcmEncrypt .. | .gcmDecrypt .. | .cmacGenerate .. | .cmacVerify ..
  | .counterBlockOnFlash .. | .scrSlotErase .. | .twKeyErase .. =>
    [.free, .out, .bus, .evt, .cue, .hfe, .scn, .obj, .trl, .flc, .smg, .bob, .dmc, .tly, .scr, .saf, .dram, .slm]
  | .firmwareCommit .. => [.free, .out, .bus, .evt, .cue, .dev, .hfe, .scn, .obj, .trl, .flc, .smg, .bob, .tly, .scr, .slm]
  | .nvmWrite .. | .writeZeroes .. | .writeUncorrectable .. | .datasetManagement .. | .copy .. | .kvStore .. | .memoryCopy .. =>
    [.free, .out, .bus, .evt, .cue, .dev, .hfe, .scn, .obj, .trl, .flc, .smg, .bob, .tly, .scr, .slm, .phase]
  | .arcExport .. | .arcImport .. | .arcAbort .. | .arcProvenance .. | .callBoardExpiry .. => [.obj]
  | .arcFileDone .. => [.bus, .scn, .obj, .trl]
  | .tierMovePass .. => [.bus, .cue, .obj, .trl, .flc]
  | .sweepDayBoundary .. => [.out, .bus, .evt, .obj]
  | .cbdCursorWrite .. | .twCbCursorWrite .. | .twTlyPrCursorWrite .. => [.bus, .obj, .regs, .halves]
  | .journalWrite .. | .platterReclaim .. | .retentionExpiry .. => [.trl]
  | .destage .. | .reclaimBackground .. | .reclaimForeground .. | .flashReadDone .. => [.bus, .cue, .trl, .flc]
  | .checkpointStart .. | .trlCkptCtrl .. => [.evt, .trl]
  | .checkpointClosed .. => [.obj, .trl]
  | .flcEvacuate .. | .evacuationDone .. | .flcCancel .. => [.evt, .trl, .flc]
  | .flcRemove .. => [.clk, .trl, .flc]
  | .flcInsert .. => [.out, .bus, .evt, .clk, .trl, .flc]
  | .insertionDone .. => [.trl, .flc]
  | .flcResume .. => [.bus, .cue, .flc]
  | .angleField .. | .parkTimeout .. => [.out, .bus, .evt, .rch, .hop]
  | .relockTimeout .. | .sectorSync .. | .preampFault .. | .preampFrameDone .. | .rchPark .. | .sampleBoundary .. | .hopSlotDisable ..
  | .motorLinkFrame .. | .driverFault .. => [.out, .bus, .evt, .trl, .flc, .rch, .hop]
  | .servoField .. => [.out, .bus, .evt, .cue, .trl, .flc, .rch, .hop]
  | .codewordComplete .. => [.flc, .rch]
  | .reservationRelease .. => [.flc]
  | .shockCrossing .. => [.out, .bus, .evt, .trl, .flc, .rch]
  | .rchCalibrateL0 .. | .rchCalibrateL1 .. | .laneCalibrationDue .. | .rchPaCmd .. => [.rch]
  | .rchResume .. | .actuatorLoaded .. | .heaterFrameSend .. => [.rch, .hop]
  | .rchOffline .. | .laneCalibrationDone .. | .actuatorLoadDeadline .. => [.out, .bus, .evt, .rch]
  | .hopSlotEnable .. | .hopBankRequest .. | .hopCoeffWrite .. | .hopProfileStart .. | .hopProfileStop .. | .nopIdleTimer .. | .mlkCmd ..
  | .mlkResync .. => [.hop]
  | .hopSetpointWrite .. => [.bus, .hop, .regs, .halves]
  | .ringTailWrite .. | .sealedWindowSave .. => [.out, .bus, .evt, .smg]
  | .smgRingCtrlWrite .. => [.bus, .regs, .halves]
  | .batchCreate .. | .smockCompress .. | .smockDecompress .. =>
    [.free, .out, .bus, .evt, .cue, .hfe, .scn, .obj, .trl, .flc, .smg, .bob, .dmc, .tly, .scr, .dram, .slm]
  | .taskDispatch .. => [.out, .bus, .evt, .cue, .hfe, .scn, .smg, .bob, .dmc, .tly, .scr, .dram]
  | .bobRetire .. | .bobbinWatchdog .. | .bobbinSelftest .. | .retireGraceExpiry .. | .understudyLoaded .. => [.out, .bus, .evt, .smg, .bob]
  | .pqAsuSearch .. | .pqAsuInsert .. | .pqAsuDelete .. | .pqAsuScan .. =>
    [.free, .out, .bus, .evt, .cue, .hfe, .scn, .obj, .trl, .flc, .smg, .bob, .tly, .asu, .scr, .saf, .slm]
  | .asuUpdateStart .. => [.out, .bus, .evt, .bob, .asu]
  | .asuWalk .. => [.out, .bus, .evt, .asu]
  | .twTlyStart .. | .twTlyLastVb .. => [.out, .bus, .evt, .cue, .hfe, .scn, .smg, .bob, .tly, .scr]
  | .twTlyAbort .. => [.bus, .cue, .smg, .bob, .tly, .scr]
  | .twTlyDataHi .. => [.out, .bus, .evt, .cue, .hfe, .scn, .smg, .bob, .tly, .scr, .halves]
  | .tallyStreamIdle .. => [.out, .bus, .evt, .cue, .smg, .bob, .tly, .scr]
  | .keyDerivation .. | .twKeyDeriveMac .. | .twKeyDeriveCmac .. | .entropyHealthFail .. => [.out, .bus, .evt, .scr]
  | .tamperAlarm .. | .meshCheck .. | .trapdoorRecordWritten .. | .trapdoorRecordTimeout .. | .safetyCurtainFailover ..
  | .temperatureSample .. =>
    [.free, .out, .bus, .evt, .prk, .cue, .dev, .pwr, .hfe, .scn, .obj, .trl, .flc, .rch, .hop, .smg, .bob, .tly, .scr, .saf, .slm, .phase]
  | .spdmRequest .. => [.out, .bus, .evt, .saf]
  | .tdIdcode .. | .tdBypass .. | .tdStatus .. | .tdExtest .. | .tdDebug .. => [.out, .saf]
  | .tdNonce .. => [.free, .out, .bus, .evt, .saf]
  | .tdResponse .. => [.out, .bus, .evt, .hfe, .tly, .scr, .saf]
  | .tdSamplePreload .. => [.free, .out, .saf]
  | .nonceExpiry .. => [.saf]
  | .switchoverDone .. => [.out, .bus, .evt, .hfe, .obj, .tly, .scr, .saf]
  | .dramRead .. | .dramWrite .. | .mergeWrite .. | .refreshDue .. | .txsElapsed .. | .blockCopyDone .. =>
    [.free, .out, .bus, .evt, .cue, .dev, .hfe, .scn, .obj, .trl, .flc, .smg, .bob, .dmc, .tly, .asu, .scr, .dram, .slm]
  | .rankRateRead .. | .thermalReturnTimer .. => [.out, .bus, .evt, .dmc]
  | .dmcFreqToA .. | .dmcFreqToB .. | .freqChangeRetry .. | .idleSelfRefresh .. => [.dmc]
  | .selfRefreshCommitted .. | .pllRelocked .. => [.clk, .dmc]
  | .dramPllUnlock .. =>
    [.free, .out, .bus, .evt, .clk, .cue, .dev, .pwr, .hfe, .scn, .obj, .trl, .flc, .smg, .bob, .dmc, .tly, .asu, .scr, .dram, .slm]
  | .scrubLine .. => [.out, .bus, .evt, .dev, .dmc, .dram]
  | .sramRead .. => [.free, .out, .bus, .evt, .cue, .hfe, .scn, .obj, .trl, .flc, .smg, .bob, .dmc, .tly, .asu, .scr, .slm]
  | .dmcRetire .. => [.out, .bus, .evt, .dev, .dmc]
  | .eventRaise .. => [.out, .bus, .evt]
  | .samplerPageTimer .. | .samplerPageProgrammed .. => [.evt]
  | .smpCursorWrite .. | .twSmpCursorWrite .. => [.bus, .evt, .regs, .halves]
  | .twEvtCtrlWrite .. => [.bus, .evt, .regs]
  | .resetRelease .. | .supplyConditionsMet .. => [.wall, .evt, .clk, .cue, .dev, .pwr, .scr]
  | .firmwareSlotRead .. => [.out, .bus, .evt, .dev, .pwr, .saf, .phase]
  | .devGo .. | .devSetHold .. | .devClearHold .. => [.dev]
  | .rehearsalStart .. => [.out, .bus, .evt, .cue, .dev, .smg, .phase]
  | .rehearsalStepStart .. => [.dev, .rch, .hop]
  | .rehearsalStepDone .. =>
    [.free, .out, .bus, .evt, .clk, .cue, .dev, .hfe, .scn, .obj, .trl, .flc, .hop, .smg, .bob, .dmc, .tly, .scr, .slm, .phase]
  | .powerLoss .. =>
    [.free, .out, .bus, .evt, .prk, .cue, .dev, .pwr, .hfe, .scn, .obj, .trl, .flc, .rch, .hop, .smg, .bob, .tly, .scr, .slm]
  | .perstAssert .. | .harbourSeal .. | .suppliesRemoved .. =>
    [.wall, .free, .out, .bus, .evt, .prk, .clk, .cue, .dev, .pwr, .hfe, .scn, .obj, .trl, .flc, .rch, .hop, .smg, .bob, .dmc, .tly, .asu,
     .scr, .saf, .dram, .slm, .regs, .halves, .phase]
  | .throttleStep .. | .agingMeasure .. | .railOutOfTolerance .. => [.out, .bus, .evt, .pwr]
  | .powerEstimateUpdate .. => [.pwr]
  | .writeRunEnd .. => [.free, .out, .bus, .evt, .cue, .hfe, .scn, .obj, .trl, .flc, .rch, .smg, .bob, .tly, .scr, .slm]

end Sys2Proof.Machine
end

