-- ==== Sys2Proof/Certificates/Slice0/Obligations.lean ====
section
/-! DEFINITION. The statements. -/

open Sys2Proof Sys2Proof.Machine

/-- The queue: a step takes the command at the front and runs it on the state with the queue's rest. -/
def Obligations.StepRunsTheFrontCommand : Prop :=
  ∀ (c : Instr) (rest : List Instr) (s : State), s.pending = c :: rest → step s = exec c { s with pending := rest }

/-- The model's choice (log entry 2): with no command waiting a step is one cycle of CK_CUE. In Dark it changes nothing; in a
device out of reset it moves the wall clock by one nanosecond and the cue counter by the period's rule (R56-R58), and between broadcasts,
ASU cycles and apply cues, with no asynchronous event waiting to be posted, nothing else. -/
def Obligations.AnIdleStepIsOneCycle : Prop :=
  ∀ s : State, s.pending = [] →
    (s.dev.perstHigh = false → s.pwr.harbour = none → step s = .next s) ∧
    (s.dev.perstHigh = true → s.dev.waitSupplies = false → s.pwr.harbour = none → s.prk.phase ≠ .waiting → s.evt.aenDue = [] → (s.wall + 1) % 4 ≠ 0 →
      (cueCycle s.cue).now % 64 ≠ 0 → step s = .next { s with wall := s.wall + 1, cue := cueCycle s.cue })

/-- Every command ends in a next state; only a DRAM request can stop, and only at an address that no channel of the interleave holds (R430). -/
def Obligations.EveryCommandIsAnswered : Prop :=
  ∀ (c : Instr) (s : State), (∃ t, exec c s = .next t) ∨
    ∃ a, exec c s = .fault (.outsideDram a) ∧ s.runs = true ∧ s.dmc.mask ≠ 0 ∧ s.dramHas a = false ∧
      ((∃ n f use, c = .dramRead n a f use) ∨ (∃ n l, c = .dramWrite n a l) ∨ ∃ n l f use, c = .mergeWrite n a l f use)

/-- R4, R11, R12: right after reset the device is in Dark, held in reset; nothing waits, nothing has been sent; every stored register reads its reset value and
every counter that a read clears stands at its own; no memory holds anything but its first content. (What the device's persistent stores hold is the
model's choice, log entry 7.) -/
def Obligations.ResetIsDark : Prop :=
  State.reset.dev.phase = .dark ∧ State.reset.dev.perstHigh = false ∧ State.reset.pending = [] ∧ State.reset.out = [] ∧
  (∀ k r, State.reset.reg k r = r) ∧ (∀ k r, Tab.at State.reset.bus.rc k r = r) ∧ (∀ a, memGet State.reset.dram a = 0) ∧
  (∀ a, memGet State.reset.slm a = 0) ∧ State.reset.scn.scenes = [] ∧ State.reset.smg.tasks = [] ∧ State.reset.cue.now = 0

/-- The invariant of `NothingFallsBack` holds at reset: both memories are in their canonical form. -/
def Obligations.ResetMeetsTheInvariant : Prop := memWf State.reset.dram = true ∧ memWf State.reset.slm = true

/-- What a command leaves alone: every part of the state that `mayChange` does not name is as it was, byte by byte for the memories and word by
word for the registers. -/
def Obligations.EachCommandKeepsToItsParts : Prop :=
  ∀ (c : Instr) (s t : State), exec c s = .next t → Frame (mayChange c) s t

/-- What every step keeps: the queue loses its front command and nothing else; nothing sent is taken back, no record number is used twice (R466),
no rollback floor falls (R36, R485), and both memories stay in their canonical form. -/
def Obligations.NothingFallsBack : Prop :=
  ∀ s t : State, step s = .next t → t.pending = s.pending.tail ∧ Kept s t

/-- R476: the device changes state only along the table's rows, and only by the events that the rows name. -/
def Obligations.StatesFollowTheTable : Prop :=
  ∀ s t : State, step s = .next t →
    t.dev.phase = s.dev.phase ∨ ((s.dev.phase, t.dev.phase) ∈ stateTable ∧ enteredBy t.dev.phase s.pending.head? = true)

/-- R11: a read of an offset that holds no register returns zero, a write to it is discarded, and neither raises an error: nothing else changes. -/
def Obligations.NoRegisterNoEffect : Prop :=
  ∀ (q : Requester) (w : Window) (off upd : Nat) (v : BitVec 64) (s : State), off % 4 = 0 → regRow w off = none →
    exec (.readClear q w off 4 upd) s = .next { s with bus := { s.bus with readData := 0, readSize := 4 } } ∧
    exec (.registerWrite q w off 4 v) s = .next s ∧
    (off % 8 = 0 → regRow w (off + 4) = none →
      exec (.readClear q w off 8 upd) s = .next { s with bus := { s.bus with readData := 0, readSize := 8 } } ∧
      exec (.registerWrite q w off 8 v) s = .next s)

/-- R9, R10, R12: an aligned 32-bit write to a plain RW register stores its value where the register's range takes it; a write that is
narrower than 32 bits, wider than 64 bits or misaligned is discarded and completes normally. -/
def Obligations.RegisterWriteStores : Prop :=
  (∀ (q : Requester) (v : Nat) (s : State), HouseOpen q s → 1 ≤ v → v ≤ 60000 →
    exec (.registerWrite q .house 0x100030 4 (BitVec.ofNat 64 v)) s = .next (setReg 0x100030 v s)) ∧
  (∀ (q : Requester) (w : Window) (off size : Nat) (v : BitVec 64) (s : State),
    ¬(size = 4 ∧ off % 4 = 0) → ¬(size = 8 ∧ off % 8 = 0) → exec (.registerWrite q w off size v) s = .next s)

/-- R8: a write of a low word is held as that requester's pending low word and changes nothing in effect; a write of the high word forms
the quantity with it, or with the low half in effect where the requester holds none, and uses it up; a read of the low word returns the
low half and latches the high half; a read of the high word returns the latched half and uses up the latch. PRK_DMA_ADDR is a
quantity in effect, CUE_NOW one that moves. R12, R14: a read of an RC register returns its value and leaves it at its reset value, plus
what the hardware adds in the same cycle. -/
def Obligations.HalvesOfQuantities : Prop :=
  (∀ (q : Requester) (v : W32) (s : State), HouseOpen q s →
    exec (.lowWordWrite q .house 0x100018 v) s = .next (holdLow q 0x100018 v s) ∧
    pendingLow (holdLow q 0x100018 v s) q 0x100018 = some v) ∧
  (∀ (q : Requester) (hi : W32) (s : State), HouseOpen q s → ∃ t, exec (.highWordWrite q .house 0x10001C hi) s = .next t ∧
    (∀ lo, pendingLow s q 0x100018 = some lo → t.reg64 0x100018 = joined lo hi) ∧
    (pendingLow s q 0x100018 = none → t.reg64 0x100018 = s.reg 0x100018 0 + hi.toNat * 2 ^ 32) ∧
    pendingLow t q 0x100018 = none) ∧
  (∀ (q : Requester) (s : State), HouseOpen q s → ∃ t, exec (.lowWordRead q .house 0x200010) s = .next t ∧
    t.bus.readData = s.cue.now % 2 ^ 32 ∧ latched t q 0x200010 = some (BitVec.ofNat 32 (s.cue.now / 2 ^ 32))) ∧
  (∀ (q : Requester) (x : W32) (s : State), HouseOpen q s → latched s q 0x200010 = some x →
    ∃ t, exec (.highWordRead q .house 0x200014) s = .next t ∧ t.bus.readData = x.toNat ∧ latched t q 0x200010 = none ∧ t.cue = s.cue) ∧
  (∀ (q : Requester) (off upd : Nat) (r : RegRow) (s : State), HouseOpen q s → off % 4 = 0 → regRow .house off = some r →
    r.access = .rc → ∃ t, exec (.readClear q .house off 4 upd) s = .next t ∧
      t.bus.readData = regValue s .house off % 2 ^ 32 ∧
      Tab.at t.bus.rc (rcKey s .house off) r.reset = min (r.reset + upd) (2 ^ 32 - 1))

/-- R17-R19: a Ground transaction on a route of its source that admits its tag, with a tag in use and the owner tag of its target, is acted
on and changes nothing else; a refused one has no effect but its record, its count and its answer. -/
def Obligations.GroundTransactionsAreJudged : Prop :=
  (∀ (g : GroundTx) (s : State), s.unitsRun = true → g.owner = g.tag → ¬(0x1001 ≤ g.tag ∧ g.tag ≤ 0x1FFF) →
    (∃ r, s.route g.route = some r ∧ r.source = g.src ∧ (r.sealedOnly = false ∨ s.isSealed g.tag = true)) →
    exec (.groundTransaction g) s = .next { s with out := .groundDone g.src g.dst g.seq :: s.out }) ∧
  (∀ (g : GroundTx) (s : State), s.unitsRun = true → g.owner ≠ g.tag → ¬(0x1001 ≤ g.tag ∧ g.tag ≤ 0x1FFF) →
    (∃ r, s.route g.route = some r ∧ r.source = g.src ∧ (r.sealedOnly = false ∨ s.isSealed g.tag = true)) →
    ∃ t, exec (.groundTransaction g) s = .next t ∧ .groundError g.src g.dst g.seq ∈ t.out ∧
      t.dram = s.dram ∧ t.bus.regs = s.bus.regs)

/-- R17: a transaction that carries a tag which is never assigned is refused: an answer of error to the originating unit, a record and a count under
EV352, no effect on memory, registers or keys. -/
def Obligations.UnassignedTagsAreRefused : Prop :=
  ∀ (g : GroundTx) (r : RouteRec) (s : State), s.unitsRun = true → 0x1001 ≤ g.tag → g.tag ≤ 0x1FFF → g.task = none →
    s.route g.route = some r → r.source = g.src → r.sealedOnly = false →
    exec (.groundTransaction g) s = .next (emit (.groundError g.src g.dst g.seq) (refuseAt 352 g.dst g.tag s)) ∧
    (refuseAt 352 g.dst g.tag s).saf.refusals = min (s.saf.refusals + 1) (2 ^ 32 - 1) ∧
    Frame [.out, .bus, .evt, .saf] s (refuseAt 352 g.dst g.tag s)

/-- R46: a write of PRK_CTRL while the loader is busy is ignored, except ABORT; an ignored APPLY or STORE reports ERR 0x21 and records EV420 (with the
error, the command and the loader's state, R528). A new command that is accepted clears ERR, LATE, PASSED and DONE_BEFORE_ABORT. -/
def Obligations.LoaderTakesOneCommand : Prop :=
  (∀ (ap : Bool) (img : PrkImage) (s : State), writable s false = true → s.prk.phase ≠ .idle →
    exec (.prkVerify ap img) s = .next s ∧
    exec (.prkApply ap img) s = .next (raise 420 0x21 2 s.prk.phase.code 0 { s with prk := { s.prk with err := 0x21 } }) ∧
    exec (.prkStore ap img) s = .next (raise 420 0x21 3 s.prk.phase.code 0 { s with prk := { s.prk with err := 0x21 } }) ∧
    exec .prkAbort s = .next (abandonLoad 0x23 0x23 s)) ∧
  (∀ (k : PrkCmd) (img : PrkImage) (s : State), writable s false = true → s.prk.phase = .idle →
    let p : PrkState := { s.prk with err := 0, late := false, passed := false, doneBeforeAbort := false, took := false, cmd := some k, storeSerial := 0 }
    exec (match k with | .verify => .prkVerify false img | .apply => .prkApply false img | .store => .prkStore false img) s =
      .next { s with prk := { p with phase := .fetching } } ∧
    exec (match k with | .verify => .prkVerify true img | .apply => .prkApply true img | .store => .prkStore true img) s =
      .next (checkImage (s.apertureImage img) { s with prk := { p with phase := .checking } }))

/-- R37, R41, R43-R46: VERIFY, APPLY and STORE start the fetch of the image, and clear the last outcome; a fetched image that passes its
checks passes a VERIFY without being applied, and puts the units of an APPLY's touch set into Intermission; ABORT abandons the load with
ERR 0x23; the aperture takes words in address order. -/
def Obligations.LoaderCommandsBegin : Prop :=
  (∀ (img : PrkImage) (s : State), writable s false = true → s.prk.phase = .idle →
    ∃ t, exec (.prkVerify false img) s = .next t ∧ t.prk.phase = .fetching ∧ t.prk.cmd = some .verify ∧ t.prk.err = 0 ∧
      t.prk.passed = false ∧ t.prk.active = s.prk.active) ∧
  (∀ (img : PrkImage) (s : State), writable s false = true → s.prk.phase = .idle →
    ∃ t, exec (.prkApply false img) s = .next t ∧ t.prk.phase = .fetching ∧ t.prk.cmd = some .apply ∧ t.prk.err = 0 ∧
      t.prk.active = s.prk.active) ∧
  (∀ (img : PrkImage) (s : State), writable s false = true → s.prk.phase = .idle →
    ∃ t, exec (.prkStore false img) s = .next t ∧ t.prk.phase = .fetching ∧ t.prk.cmd = some .store ∧ t.prk.err = 0 ∧
      t.prk.slot0 = s.prk.slot0 ∧ t.prk.slot1 = s.prk.slot1) ∧
  (∀ s : State, writable s false = true → s.prk.phase ≠ .idle →
    ∃ t, exec .prkAbort s = .next t ∧ t.prk.phase = .idle ∧ t.prk.err = 0x23 ∧ t.prk.intermission = [] ∧
      t.prk.active = s.prk.active ∧ t.prk.floor = s.prk.floor) ∧
  (∀ (img : PrkImage) (s : State), s.prk.phase = .fetching → s.prk.cmd = some .verify →
    s.judge { img with bytes := img.bytes.take (s.reg 0x100014 0) } .live = none →
    ∃ t, exec (.prkImageFetched img) s = .next t ∧ t.prk.phase = .idle ∧ t.prk.passed = true ∧ t.prk.active = s.prk.active ∧
      t.prk.intermission = s.prk.intermission) ∧
  (∀ (img : PrkImage) (s : State), s.prk.phase = .fetching → s.prk.cmd = some .apply →
    s.judge { img with bytes := img.bytes.take (s.reg 0x100014 0) } .live = none →
    applyRefused (img.bytes.take (s.reg 0x100014 0)) (s.loaderEnv s.prk.media (resultCfg (img.bytes.take (s.reg 0x100014 0)) s.prk.active))
      (resultCfg (img.bytes.take (s.reg 0x100014 0)) s.prk.active) = none →
    ∃ t, exec (.prkImageFetched img) s = .next t ∧ t.prk.phase = .draining ∧ t.prk.passed = true ∧ t.prk.active = s.prk.active ∧
      t.prk.undrained = (List.range 20).filter (fun i =>
        (imgTouch (img.bytes.take (s.reg 0x100014 0)) ||| imgDeclared (img.bytes.take (s.reg 0x100014 0))).testBit i) ∧
      t.prk.intermission = t.prk.undrained) ∧
  (∀ (off : Nat) (v : W32) (s : State), writable s false = true → off % 4 = 0 → off + 4 ≤ 65536 →
    ∃ t, exec (.prkApertureWrite off [v]) s = .next t ∧ Tab.find t.prk.aperture ((s.reg 0x100050 0 + off) / 4) = some v ∧
      t.prk.active = s.prk.active)

/-- R42: a drain that has not ended PRK_DRAIN_LIMIT milliseconds after it began is abandoned: ERR 0x20 is reported and EV418 is recorded, the units leave
Intermission and go on with the configuration that was in effect, and nothing of the load is left to take effect; before that nothing happens. -/
def Obligations.DrainLimitAbandonsTheLoad : Prop :=
  ∀ s : State, s.prk.phase = .draining →
    (s.wall < s.prk.drainStart + s.reg 0x100030 2000 * 1000000 → exec .drainLimitExpiry s = .next s) ∧
    (s.prk.drainStart + s.reg 0x100030 2000 * 1000000 ≤ s.wall →
      let p : PrkState := { s.prk with
        err := 0x20, phase := .idle, cmd := none, intermission := [], undrained := [], pendingCfg := none, storeImage := none }
      ∃ t u, exec .drainLimitExpiry s = .next t ∧ t.prk = p ∧ t = goOn u ∧
        u.evt = (raise 418 0x20 s.prk.loadTouch s.prk.storeSerial 0 { s with prk := p }).evt)

/-- R38, R41, R42, R44: a drained unit leaves the drain, the last one lets the load wait for its cue; a drain past PRK_DRAIN_LIMIT abandons the load
with ERR 0x20 and the configuration in effect stands; a stored image that reads back becomes the active slot in one write and raises the
rollback floor to its SERIAL; start-up takes the active slot's image when it passes its checks. -/
def Obligations.LoadsDrainStoreAndBoot : Prop :=
  (∀ (unit : Nat) (s : State), s.prk.phase = .draining → unit ∈ s.prk.undrained → setDel s.prk.undrained unit ≠ [] →
    s.smg.tasks = [] → s.cue.slots = [] →
    exec (.intermissionDrained unit) s = .next { s with prk := { s.prk with undrained := setDel s.prk.undrained unit } }) ∧
  (∀ (unit : Nat) (s : State), s.prk.phase = .draining → s.prk.undrained = [unit] → s.cue.now < s.prk.applyCue →
    s.smg.tasks = [] → s.cue.slots = [] →
    exec (.intermissionDrained unit) s = .next { s with prk := { s.prk with undrained := [], phase := .waiting, late := false } }) ∧
  (∀ s : State, s.prk.phase = .draining → s.prk.drainStart + s.reg 0x100030 2000 * 1000000 ≤ s.wall →
    ∃ t, exec .drainLimitExpiry s = .next t ∧ t.prk.phase = .idle ∧ t.prk.err = 0x20 ∧ t.prk.intermission = [] ∧
      t.prk.active = s.prk.active) ∧
  (∀ (img : PrkImage) (s : State), s.prk.phase = .storing → s.prk.storeImage = some img →
    ∃ t, exec (.storeSlotWritten true) s = .next t ∧ t.prk.activeSlot = s.prk.inactive ∧
      t.prk.floor = max s.prk.floor (imgSerial img.bytes) ∧ t.prk.phase = .idle ∧
      (if s.prk.inactive = 0 then t.prk.slot0 else t.prk.slot1) = some img) ∧
  (∀ (img : PrkImage) (m : MediaFacts) (s : State), s.dev.phase = .houseLights → s.dev.recovery = false → s.dev.booted ≠ 0 →
    s.prk.active = none → s.prk.bootNone = false → (if s.prk.activeSlot = 0 then s.prk.slot0 else s.prk.slot1) = some img →
    imgPartial img.bytes = false → imageErr img (s.loaderEnv m (resultCfg img.bytes none)) .boot = none →
    ∃ t, exec (.prickingBootLoad m) s = .next t ∧ t.prk.active = some (resultCfg img.bytes none) ∧
      t.prk.sealedRegions = List.range 16 ∧ t.prk.floor = s.prk.floor ∧ t.dev = s.dev)

/-- R48, R51, R52: a write of CLK_GATE_REQ stores it; a gated domain whose condition holds stops, and a stopped domain whose request is
cleared starts; the REFCLK meter's reading is kept, and beyond 300 ppm CLK_WARN.REF_PPM is set; a clock alarm is a tamper alarm. -/
def Obligations.ClocksAreGatedAndWatched : Prop :=
  (∀ (v : W32) (s : State), writable s false = true → ∃ t, exec (.clkGateReqWrite v) s = .next t ∧
    t.reg 0x20800C 0 = v.toNat % 2 ^ 25 ∧ t.clk.stopped = s.clk.stopped ∧ t.cue = s.cue) ∧
  (∀ (d : Nat) (s : State), s.powered = true → s.clkPlan.2.1.testBit d = true → (s.reg 0x20800C 0).testBit d = true → stopMet s d = true →
    d ∉ s.clk.stopped → ∃ t, exec (.clockDomainStop d) s = .next t ∧ d ∈ t.clk.stopped ∧ t.cue = s.cue) ∧
  (∀ (d : Nat) (s : State), d ∈ s.clk.starting → d ∈ s.clk.stopped → ∃ t, exec (.clockDomainStart d) s = .next t ∧
    d ∉ t.clk.stopped ∧ d ∉ t.clk.starting) ∧
  (∀ (ppm : Int) (s : State), s.powered = true → ppm.natAbs ≤ 3000 →
    exec (.refclkMeterInterval ppm) s = .next { s with clk := { s.clk with refPpm := ppm } }) ∧
  (∀ (ppm : Int) (s : State), s.powered = true → 3000 < ppm.natAbs → ppm.natAbs ≤ 100000 →
    ∃ t, exec (.refclkMeterInterval ppm) s = .next t ∧ t.clk.refPpm = ppm ∧ t.clk.warn = s.clk.warn ||| 1) ∧
  (∀ (c : ClockAlarm) (s : State), s.powered = true → s.dev.phase ≠ .curtainDown → ∃ t, exec (.clockAlarm c) s = .next t ∧
    t.dev.phase = .curtainDown ∧ t.saf.rootErased = true ∧ t.saf.alarms = min (s.saf.alarms + 1) (2 ^ 32 - 1))

/-- R55, R57, R59-R65: a forward step is requested only in House Lights and above the current cue; a broadcast brings the counter to the next
multiple of 64; a tap's compensation, CUE_CTRL and CUE_RATE_ADJ take their values, the rate clamped to the maximum slew; the first lock of
a power cycle fixes the offset and a later exchange moves only the rate; a lost source leaves the rate in holdover. -/
def Obligations.CueIsDisciplined : Prop :=
  (∀ (q : Requester) (hi : W32) (s : State), mayReach s q .house = true → writable s false = true → s.dev.phase = .houseLights →
    s.cue.now < formed s q 0x200018 (s.reg 0x200018 0) hi → ∃ t, exec (.cueStepWrite q hi) s = .next t ∧
      t.cue.step = some (ceilDiv (formed s q 0x200018 (s.reg 0x200018 0) hi) 64 * 64) ∧ t.cue.now = s.cue.now) ∧
  (∀ (q : Requester) (hi : W32) (s : State), mayReach s q .house = true → writable s false = true → s.dev.phase ≠ .houseLights →
    ∃ t, exec (.cueStepWrite q hi) s = .next t ∧ t.cue = s.cue) ∧
  (∀ (drift : List (Nat × Int)) (s : State), s.dev.perstHigh = true → s.dev.waitSupplies = false → s.cue.step = none → s.prk.phase ≠ .waiting →
    ∃ t, exec (.cueBroadcast drift) s = .next t ∧ t.cue.now = nextMultiple s.cue.now 64 ∧ t.wall = s.wall + cyclesToBroadcast s.cue) ∧
  (∀ (tap : Nat) (comp temp : Int) (s : State), s.powered = true → tap < 80 →
    ∃ t, exec (.tapSkewMeasure tap comp temp) s = .next t ∧ (Tab.at t.cue.taps tap {}).comp = comp ∧
      (Tab.at t.cue.taps tap {}).measuring = false ∧ t.cue.now = s.cue.now) ∧
  (∀ (v : W32) (s : State), writable s false = true → v.toNat.testBit 8 = false → bits v.toNat 6 0 < 80 →
    ∃ t, exec (.cueCalCtrl v) s = .next t ∧ (Tab.at t.cue.taps (bits v.toNat 6 0) {}).measuring = true ∧ t.cue.now = s.cue.now) ∧
  (∀ (v : W32) (s : State), writable s false = true → bits v.toNat 1 0 = 0 ∨ bits v.toNat 1 0 = 3 →
    ∃ t, exec (.cueCtrlWrite v) s = .next t ∧
      t.cue.ctrl = (if bits v.toNat 1 0 = 0 then 0 else bits s.cue.ctrl 1 0) + field (bits v.toNat 8 8) 1 8 ∧ t.cue.now = s.cue.now) ∧
  (∀ (v : W32) (s : State), writable s false = true →
    exec (.cueRateAdjWrite v) s = .next { s with cue := { s.cue with
      rateAdj := clampInt (-(s.clkPlan.2.2.2.2 : Int)) (s.clkPlan.2.2.2.2 : Int) v.toInt } }) ∧
  (∀ (port : Nat) (ingress : Bool) (v : ServoReport) (s : State), s.powered = true → bits s.cue.ctrl 1 0 = 1 → bits s.cue.ctrl 8 8 = port →
    v.locked = true → ∃ t, exec (.ptpEventMessage port ingress v) s = .next t ∧ t.cue.stamp = s.cue.now ∧ t.cue.offsetFixed = true ∧
      t.cue.holdover = false ∧ t.cue.locked = true ∧
      (s.cue.offsetFixed = false → t.cue.ptpOffset = v.offset ∧ t.cue.rateAdj = s.cue.rateAdj) ∧
      (s.cue.offsetFixed = true → t.cue.ptpOffset = s.cue.ptpOffset ∧ t.cue.rateAdj = clampRate s v.rate)) ∧
  (∀ (v : ServoReport) (s : State), s.powered = true → bits s.cue.ctrl 1 0 = 2 → v.locked = true →
    ∃ t, exec (.ptmResponse v) s = .next t ∧ t.cue.stamp = s.cue.now ∧ t.cue.offsetFixed = true ∧ t.cue.locked = true ∧
      (s.cue.offsetFixed = false → t.cue.ptpOffset = v.offset) ∧
      (s.cue.offsetFixed = true → t.cue.ptpOffset = s.cue.ptpOffset ∧ t.cue.rateAdj = clampRate s v.rate)) ∧
  (∀ s : State, s.powered = true → bits s.cue.ctrl 1 0 ≠ 0 → ∃ t, exec .disciplineSourceLost s = .next t ∧ t.cue.holdover = true ∧
      t.cue.locked = false ∧ t.cue.rateAdj = s.cue.rateAdj ∧ t.cue.now = s.cue.now)

/-- R66, R67, R69-R71, R75: a post takes a slot of its poster's share, late when nearer than the horizon; a posted cue is armed at its tap; a due
cue of a running domain acts; a cancel by its poster sets out, and on arrival frees the slot; CUE_POST_CMD and
CUE_CANCEL report their outcome. -/
def Obligations.CuesArePostedAndFire : Prop :=
  (∀ (p : Poster) (c : CueReq) (k : Nat) (s : State), s.powered = true → shareRoom s.cue p = true → Tab.freeKey s.cue.slots 4096 0 = some k →
    ∃ t, exec (.cuePost p c) s = .next t ∧ Tab.find t.cue.slots k = some
      { poster := p, fire := c.fire, target := c.target, action := c.action, tag := c.tag, phase := .posted,
        late := decide (c.fire < s.cue.now + 2048), lateFlag := false, postedAt := s.cue.now, cancelling := false }) ∧
  (∀ (p : Poster) (c : CueReq) (s : State), shareRoom s.cue p = false → exec (.cuePost p c) s = .next s) ∧
  (∀ (slot : Nat) (k : CueSlot) (s : State), Tab.find s.cue.slots slot = some k → k.phase = .posted →
    ∃ t, exec (.cueArm slot) s = .next t ∧
      Tab.find t.cue.slots slot = some { k with phase := .armed, lateFlag := decide (k.fire ≤ s.cue.now) }) ∧
  (∀ (slot n : Nat) (b : Bool) (k : CueSlot) (s : State), s.runs = true → s.cue.slots = [(slot, k)] → k.action = .bankSwap n b → k.phase = .armed →
    k.fire ≤ s.cue.now → inTime k = false → (cueDomain k).any s.domainStopped = false →
    ∃ t, exec (.cueFire slot) s = .next t ∧ (t.slot n).bankB = b ∧ (t.slot n).want = none) ∧
  (∀ (slot : Nat) (k : CueSlot) (s : State), s.runs = true → s.cue.slots = [(slot, k)] → k.phase = .armed →
    k.fire ≤ s.cue.now → inTime k = false → (cueDomain k).any s.domainStopped = true →
    ∃ t, exec (.cueFire slot) s = .next t ∧ Tab.find t.cue.slots slot = some { k with phase := .held, lateFlag := true }) ∧
  (∀ (slot : Nat) (k : CueSlot) (s : State), s.runs = true → s.cue.slots = [(slot, k)] → k.phase = .armed → k.fire ≤ s.cue.now →
    k.cancelling = true → k.cancelAt + 2048 ≤ k.fire →
    ∃ t, exec (.cueFire slot) s = .next t ∧ Tab.find t.cue.slots slot = none ∧ t.smg = s.smg ∧ t.hop = s.hop) ∧
  (∀ (p : Poster) (slot : Nat) (k : CueSlot) (s : State), Tab.find s.cue.slots slot = some k → k.poster = p → k.cancelling = false →
    ∃ t, exec (.cueCancel p slot) s = .next t ∧
      Tab.find t.cue.slots slot = some { k with cancelling := true, cancelAt := s.cue.now }) ∧
  (∀ (p : Poster) (slot : Nat) (k : CueSlot) (s : State), Tab.find s.cue.slots slot = some k → k.poster ≠ p →
    exec (.cueCancel p slot) s = .next s) ∧
  (∀ (slot : Nat) (k : CueSlot) (s : State), Tab.find s.cue.slots slot = some k → k.cancelling = true →
    ∃ t, exec (.cancelArrival slot) s = .next t ∧ Tab.find t.cue.slots slot = none) ∧
  (∀ (v : W32) (k : Nat) (s : State), writable s false = true → s.cue.postResult.status ≠ 0xF → bits v.toNat 28 24 ≤ 19 →
    shareRoom s.cue .prompters = true → Tab.freeKey s.cue.slots 4096 0 = some k →
    ∃ t, exec (.cuePostCmd v) s = .next t ∧ t.cue.postResult = ⟨0xF, k⟩ ∧
      (Tab.find t.cue.slots k).map (fun x => (x.fire, x.target)) = some (s.reg64 0x200200, bits v.toNat 28 24)) ∧
  (∀ (v : W32) (k : CueSlot) (s : State), writable s false = true → s.cue.cancelResult.status ≠ 0xF →
    Tab.find s.cue.slots (bits v.toNat 11 0) = some k → housePosted k = true → k.cancelling = false →
    ∃ t, exec (.cueCancelWrite v) s = .next t ∧ t.cue.cancelResult = ⟨0xF, bits v.toNat 11 0⟩ ∧
      Tab.find t.cue.slots (bits v.toNat 11 0) = some { k with cancelling := true, cancelAt := s.cue.now })

/-- R72, R297: at a beat boundary an entry of a delay list whose beat has come leaves it, and its task is put on its ready list. -/
def Obligations.BeatsReleaseDelayedTasks : Prop :=
  ∀ (l b i : Nat) (x : Task) (s : State), s.unitsRun = true → s.smg.delays = [(l, [(b, i)])] → b ≤ s.cue.now / 1024 →
    s.smg.retries = [] → s.smg.delayWaits = [] → Tab.find s.smg.tasks i = some x → x.timed = false →
    exec .beatBoundary s = .next (settleTasks ⟨[], []⟩ (enqueue i (onSmg (fun g => { g with delays := [(l, [])], retries := [] }) s)))

/-- R77-R85, R95, R96, R102: links come up within their PORT record and go down; enabling a controller gives it its admin queues and its record; a
disable leaves it no queue; VF Enable and function level resets; a doorbell within its queue moves the tail or the head; a DOE object that
programs a stream binds its functions. -/
def Obligations.PcieSideAnswers : Prop :=
  (∀ (port rate width : Nat) (flit l0p : Bool) (s : State), s.powered = true → s.dev.recovery = false → 1 ≤ rate →
    rate ≤ min (s.portRec 0).2.1 6 → width ∈ [1, 2, 4, 8] → ((s.portRec 0).1 = 0 ∨ width ≤ 4) → (port = 0 ∨ (port = 1 ∧ (s.portRec 0).1 = 1)) →
    (rate ≠ 6 ∨ flit = true) → (l0p = false ∨ flit = true) → ∃ t, exec (.pcieLinkUp port rate width flit l0p) s = .next t ∧
      t.link port = { up := true, flit := flit, l0p := l0p, width := width, rate := rate } ∧ t.hfe.ctrls = s.hfe.ctrls) ∧
  (∀ (port : Nat) (s : State), (s.link port).up = true → ∃ t, exec (.pcieLinkDown port) s = .next t ∧ t.numVfs port = 0 ∧
    (s.portCtrls port true = [] → (t.link port).up = false)) ∧
  (∀ (port fn : Nat) (s : State), s.powered = true → port < 2 → ∃ t, exec (.flr port fn) s = .next t ∧
    (∀ h ∈ t.bus.pendingLow ++ t.bus.latchedHigh, h.requester / 2 ^ 15 = port → fn ≠ 0 ∧ h.requester % 2 ^ 15 ≠ fn) ∧
    (fn = 0 → t.numVfs port = 0)) ∧
  (∀ (port n : Nat) (s : State), s.powered = true → n ≤ (s.portRec 0).2.2 → n ≠ s.numVfs port →
    ∃ t, exec (.vfEnableChange port true n) s = .next t ∧ t.numVfs port = n) ∧
  (∀ (c : Nat) (aqa : W32) (r : ControllerRec) (s : State), s.powered = true → s.dev.recovery = false → s.ctrlOf c = none → pcieRecord s c = some r →
    (c = 8193 → (s.portRec 0).1 ≠ 0) →
    (r.tag = 0 ∨ ∃ x, s.tenantRec r.tag = some x ∧ x.flags.testBit 3 = true) → 1 ≤ bits aqa.toNat 11 0 → 1 ≤ bits aqa.toNat 27 16 →
    ∃ t, exec (.controllerEnable c aqa) s = .next t ∧
      (t.ctrlOf c).map (fun k => (k.enabled, k.tag, k.gloex, k.ioQueues, k.cfs)) = some (true, r.tag, r.gloex, r.ioQueues, false) ∧
      (t.sqOf c 0).map (fun q => q.size) = some (bits aqa.toNat 11 0 + 1) ∧ (t.side c).wce = true) ∧
  (∀ (c : Nat) (k : Ctrl) (s : State), s.ctrlOf c = some k → k.cfs = false → k.enabled = true → k.transport = 0 →
    ∃ u, exec (.controllerDisable c) s = .next (goOn u) ∧ (∀ p ∈ u.scn.sqs, p.1 / 65536 ≠ c) ∧ (∀ p ∈ u.scn.cqs, p.1 / 65536 ≠ c)) ∧
  (∀ (c : Nat) (k : Ctrl) (s : State), s.ctrlOf c = some k → k.cfs = true →
    ∃ t, exec (.controllerDisable c) s = .next t ∧ t.ctrlOf c = some { k with cfs := false }) ∧
  (∀ (c qid val : Nat) (k : Ctrl) (q : SubQueue) (s : State), s.powered = true → s.ctrlOf c = some k → k.enabled = true → k.resetting = false →
    s.sqOf c qid = some q → val < q.size → ∃ t, exec (.doorbellWrite c false qid val) s = .next t ∧ t.sqOf c qid = some { q with tail := val }) ∧
  (∀ (port st : Nat) (fns : List Nat) (s : State), (s.link port).up = true → port ∉ s.hfe.doeBusy → s.hfe.ide.length < 64 →
    ∃ t, exec (.doeObject port { lenOk := true, body := .ideKmProgram st fns }) s = .next t ∧ .doeAnswer port ∈ t.out ∧
      Tab.find t.hfe.ide st = some { fns := fns, insecure := false })

/-- R84-R86, R96: an Ethernet logical port comes up with its FEC locked and goes down; a good frame's fill is kept, PAUSE and PFC stop the port or
the priority, a congestion notification halves a queue pair's rate, which recovers by 5% of line rate each 55 microseconds. -/
def Obligations.EthernetPortsRun : Prop :=
  (∀ (lp : Nat) (phy : EthPhy) (s : State), s.powered = true → s.dev.rehDone.contains 8 = true → lportOk s lp = true → phy.fecLocked = true →
    ((s.portRec (1 + lp / 2)).1 ≠ 1 ∧ (phy.phy = .cr2 ∨ phy.phy = .kr2) ∧ phy.lanes = 2 ∨
      (s.portRec (1 + lp / 2)).1 = 1 ∧ (phy.phy = .cr1 ∨ phy.phy = .kr1) ∧ phy.lanes = 1) →
    ∃ t, exec (.ethLinkUp lp phy) s = .next t ∧ (Tab.at t.hfe.eth lp {}).up = true ∧ (Tab.at t.hfe.eth lp {}).lanes = phy.lanes) ∧
  (∀ (lp : Nat) (s : State), (Tab.at s.hfe.eth lp {}).up = true → (∀ p ∈ s.hfe.conns, p.2.lport ≠ lp) → (∀ p ∈ s.hfe.qps, p.2.lport ≠ lp) →
    ∃ t, exec (.logicalPortDown lp) s = .next t ∧ (Tab.at t.hfe.eth lp {}).up = false) ∧
  (∀ (lp : Nat) (f : EthFrame) (s : State), (Tab.at s.hfe.eth lp {}).up = true → f.fcsOk = true → 64 ≤ f.len → f.len ≤ 9216 → f.qp = none →
    ∃ t, exec (.ethFrame lp f) s = .next t ∧ (Tab.at t.hfe.eth lp {}).fill = f.fill ∧
      (s.rocePfc.2 = true → 6291456 < f.fill → (Tab.at s.hfe.eth lp {}).xoffSent = false → .xoff lp s.rocePfc.1 ∈ t.out)) ∧
  (∀ (lp : Nat) (on : Bool) (s : State), (Tab.at s.hfe.eth lp {}).up = true →
    ∃ t, exec (.pauseFrame lp none on) s = .next t ∧ (Tab.at t.hfe.eth lp {}).paused = on) ∧
  (∀ (lp k : Nat) (s : State), (Tab.at s.hfe.eth lp {}).up = true →
    ∃ t, exec (.pauseFrame lp (some k) true) s = .next t ∧ k ∈ (Tab.at t.hfe.eth lp {}).pausedPrios) ∧
  (∀ (qp : Nat) (q : RdmaQp) (s : State), Tab.find s.hfe.qps qp = some q →
    ∃ t, exec (.cnpReceived qp) s = .next t ∧ Tab.find t.hfe.qps qp = some { q with rate := q.rate / 2, lastStep := s.wall }) ∧
  (∀ (qp : Nat) (q : RdmaQp) (s : State), Tab.find s.hfe.qps qp = some q → q.lastStep + 55000 ≤ s.wall → q.rate < 100000 →
    ∃ t, exec (.rateRecoveryStep qp) s = .next t ∧
      Tab.find t.hfe.qps qp = some { q with rate := min 100000 (q.rate + 5000), lastStep := s.wall })

/-- R88, R91, R92, R100, R102, R103: on a TCP connection ICReq is answered and its digests kept, TLS is established on the only suite and group and its
records counted, a capsule is queued or waits in the receive buffer, H2CData reaches the command; a lost queue's connection is gone, and a PDU of a
type not allowed terminates the connection. -/
def Obligations.TcpConnectionsRun : Prop :=
  (∀ (conn : Nat) (ic : IcReq) (s : State), Tab.find s.hfe.conns conn = none → connRoom s = true → netUp s ic.lport ic.net = true →
    s.fabricRec.2.2 = false → ic.lenOk = true → ic.pfv = 0 → ic.hpda ≤ 31 →
    ∃ t, exec (.tcpIcreq conn ic) s = .next t ∧ .icResp conn ∈ t.out ∧
      (Tab.find t.hfe.conns conn).map (fun k => (k.icDone, k.hdgst, k.ddgst, k.maxr2t)) = some (true, ic.hdgst, ic.ddgst, ic.maxr2t)) ∧
  (∀ (conn : Nat) (k : TcpConn) (s : State), Tab.find s.hfe.conns conn = some k →
    ∃ t, exec (.pduTypeNotAllowed conn) s = .next t ∧ .termReq conn 2 ∈ t.out ∧ .closed conn ∈ t.out) ∧
  (∀ (conn c : Nat) (cap : Capsule) (k : TcpConn) (s : State), Tab.find s.hfe.conns conn = some k → k.icDone = true → k.hdgst = false → k.ddgst = false →
    k.ctrl = some c → sqFull s c k.qid = false → cap.inCapsule = cap.cmdLen → cap.inCapsule ≤ 8192 → k.waiting = [] → capsuleRoom s c cap = true →
    exec (.tcpCapsule conn cap) s = .next (queueCapsule c k.qid cap s)) ∧
  (∀ (conn c : Nat) (cap : Capsule) (k : TcpConn) (s : State), Tab.find s.hfe.conns conn = some k → k.icDone = true → k.hdgst = false → k.ddgst = false →
    k.ctrl = some c → sqFull s c k.qid = false → cap.inCapsule = cap.cmdLen → cap.inCapsule ≤ 8192 → capsuleRoom s c cap = false →
    ∃ t, exec (.tcpCapsule conn cap) s = .next t ∧ Tab.find t.hfe.conns conn = some { k with waiting := k.waiting ++ [cap] }) ∧
  (∀ (conn : Nat) (p : H2cPdu) (k : TcpConn) (r : DataReq) (s : State), Tab.find s.hfe.conns conn = some k → k.icDone = true → k.hdgst = false →
    k.ddgst = false → p.len ≤ 131072 → Tab.find s.hfe.reqs p.rid = some r → r.kind = .r2t → r.conn = conn → r.failed = false →
    p.off = r.off + r.got → r.got + p.len < r.len → ∃ u, exec (.h2cData conn p) s = .next (goOn u) ∧
      (Tab.find u.hfe.reqs p.rid).map (fun x => x.got) = some (r.got + p.len) ∧ u.hfe.conns = s.hfe.conns) ∧
  (∀ (conn : Nat) (k : TcpConn) (s : State), Tab.find s.hfe.conns conn = some k → k.ctrl = none →
    ∃ t, exec (.tcpConnectionLoss conn) s = .next t ∧ Tab.find t.hfe.conns conn = none ∧ t.scn = s.scn) ∧
  (∀ (conn c : Nat) (k : TcpConn) (s : State), Tab.find s.hfe.conns conn = some k → k.ctrl = some c → k.qid ≠ 0 →
    ∃ u, exec (.tcpConnectionLoss conn) s = .next (goOn u) ∧ Tab.find u.scn.sqs (qKey c k.qid) = none ∧ Tab.find u.scn.cqs (qKey c k.qid) = none) ∧
  (∀ (conn tag : Nat) (m : TlsMsg) (s : State), Tab.find s.hfe.conns conn = none → connRoom s = true → netUp s m.lport m.net = true →
    m.suite = true → m.group = true → m.pskTag = some tag → m.violation = false →
    ∃ t, exec (.tlsHandshake conn m) s = .next t ∧ .tlsEstablished conn ∈ t.out ∧
      (Tab.find t.hfe.conns conn).map (fun k => (k.tls, k.tag)) = some (some { tag := tag, rxRecords := 0, txRecords := 0 }, some tag)) ∧
  (∀ (conn : Nat) (k : TcpConn) (x : TlsSession) (s : State), Tab.find s.hfe.conns conn = some k → k.tls = some x →
    ∃ t, exec (.tlsRecord conn true) s = .next t ∧
      Tab.find t.hfe.conns conn = some { k with tls := some { x with rxRecords := x.rxRecords + 1 } }) ∧
  (∀ (conn : Nat) (k : TcpConn) (x : TlsSession) (s : State), Tab.find s.hfe.conns conn = some k → k.tls = some x →
    ∃ t, exec (.tlsRecord conn false) s = .next t ∧ .tlsAlert conn 20 ∈ t.out ∧ .closed conn ∈ t.out) ∧
  (∀ (conn : Nat) (k : TcpConn) (x : TlsSession) (s : State), Tab.find s.hfe.conns conn = some k → k.tls = some x →
    ∃ t, exec (.tlsKeyUpdateDue conn) s = .next t ∧ .tlsKeyUpdate conn ∈ t.out ∧
      Tab.find t.hfe.conns conn = some { k with tls := some { x with txRecords := 0 } })

/-- R80, R94, R99-R102, R105: a TLP inside a BAR is answered from it, one outside every BAR is an unsupported request; data requests are issued into
free staging, their data delivered, their failures fail the command; management messages are answered; an address entry takes effect. -/
def Obligations.TransfersAndMessagesAreServed : Prop :=
  (∀ (port fn bar off size : Nat) (t : Tlp) (s : State), (s.link port).up = true → t.ideFailed = none → t.malformed = false →
    t.kind = .read (some bar) off size → fnEnabled s port fn = true → insideBar port fn (some bar) off size = true →
    ∃ u, exec (.pcieTlp port fn t) s = .next u ∧ .readCompletion port fn (barRead port fn bar off size s).1 ∈ u.out) ∧
  (∀ (port fn bar off size val : Nat) (t : Tlp) (s : State), (s.link port).up = true → t.ideFailed = none → t.malformed = false → t.poisoned = false →
    t.kind = .write (some bar) off size val → fnEnabled s port fn = true → insideBar port fn (some bar) off size = true →
    exec (.pcieTlp port fn t) s = .next (barWrite port fn bar off size val s)) ∧
  (∀ (port fn off size : Nat) (bar : Option Nat) (t : Tlp) (s : State), (s.link port).up = true → t.ideFailed = none → t.malformed = false →
    t.kind = .read bar off size → insideBar port fn bar off size = false →
    ∃ u, exec (.pcieTlp port fn t) s = .next u ∧ .unsupportedRequest port fn ∈ u.out ∧ .aer port fn .unsupported ∈ u.out) ∧
  (∀ (o len : Nat) (c : Scene) (k : Ctrl) (s : State), Tab.find s.scn.scenes o = some c → s.ctrlOf c.ctrl = some k → mayAsk s o c k len = true →
    s.scn.act = none → k.transport = 1 →
    ∃ t, exec (.dataRequestIssue o len) s = .next t ∧ .r2t (carrier s c.ctrl c.sq) s.hfe.nextReq c.asked len ∈ t.out ∧
      (Tab.find t.hfe.reqs s.hfe.nextReq).map (fun r => (r.scene, r.off, r.len, r.got)) = some (o, c.asked, len, 0) ∧ t.hfe.nextReq = s.hfe.nextReq + 1) ∧
  (∀ (o len : Nat) (c : Scene) (k : Ctrl) (s : State), Tab.find s.scn.scenes o = some c → s.ctrlOf c.ctrl = some k → mayAsk s o c k len = true →
    s.scn.act = none → s.dmaStopped c.ctrl = true → exec (.dataRequestIssue o len) s = .next (failScene o stTransfer s)) ∧
  (∀ (rid : Nat) (b : Bytes) (r : DataReq) (s : State), Tab.find s.hfe.reqs rid = some r → r.kind = .pcieRead → r.failed = false → r.expired = false →
    b.length < r.len - r.got → ∃ u, exec (.pcieCompletion rid .ok b) s = .next (goOn u) ∧
      Tab.find u.hfe.reqs rid = some { r with got := r.got + b.length }) ∧
  (∀ (rid : Nat) (b : Bytes) (r : DataReq) (s : State), Tab.find s.hfe.reqs rid = some r → r.kind = .rdmaRead → r.failed = false →
    r.len - r.got ≤ b.length → r.got < r.len → ∃ u, exec (.rdmaReadResponse rid b) s = .next (goOn u) ∧ Tab.find u.hfe.reqs rid = none) ∧
  (∀ (rid : Nat) (r : DataReq) (s : State), Tab.find s.hfe.reqs rid = some r → r.kind = .rdmaRead →
    ∃ u, exec (.rdmaNak rid) s = .next (loseQp r.conn (failScene r.scene stTransfer u)) ∧ Tab.find u.hfe.reqs rid = none ∧ u.scn = s.scn) ∧
  (∀ (rid : Nat) (r : DataReq) (s : State), Tab.find s.hfe.reqs rid = some r → r.kind = .pcieRead → r.expired = false →
    r.issued + 16000000 ≤ s.wall →
    ∃ u, exec (.completionTimeout rid) s = .next (failScene r.scene stTransfer u) ∧
      Tab.find u.hfe.reqs rid = some { r with failed := true, expired := true } ∧
      ∀ k, s.ctrlOf r.conn = some k → .aer k.port k.fn .completionTimeout ∈ u.out) ∧
  (∀ (rid : Nat) (st : CplStatus) (b : Bytes) (r : DataReq) (s : State), Tab.find s.hfe.reqs rid = some r → r.kind = .pcieRead →
    r.expired = true → ∃ t, exec (.pcieCompletion rid st b) s = .next t ∧ Tab.find t.hfe.reqs rid = none ∧
      ∀ k, s.ctrlOf r.conn = some k → .aer k.port k.fn .unexpectedCompletion ∈ t.out) ∧
  (∀ (rid : Nat) (r : DataReq) (s : State), Tab.find s.hfe.reqs rid = some r → r.kind ≠ .pcieRead → r.failed = false →
    r.issued + s.reg 0x300038 0xFA0 * 1000000 ≤ s.wall →
    ∃ u, exec (.dataTimeout rid) s = .next (failScene r.scene stTransfer u) ∧ Tab.find u.hfe.reqs rid = some { r with failed := true }) ∧
  (∀ (m : MiMsg) (a : Nat) (s : State), s.powered = true → m.packetOk = true → m.micOk = true → m.len ≤ 4224 → m.body = .setAddress a →
    s.scn.act = none → s.scn.miHeld = [] →
    ∃ t, exec (.miMessage m) s = .next t ∧ t.hfe.mctpAddr = a % 128 ∧ .miResponse 0 ∈ t.out) ∧
  (∀ (m : MiMsg) (s : State), s.powered = true → m.packetOk = true → s.scn.act.isSome = true →
    ∃ t, exec (.miMessage m) s = .next t ∧ t.scn.miHeld = s.scn.miHeld ++ [m] ∧ t.out = s.out) ∧
  (∀ (val : W32) (s : State), writable s false = true → val.toNat.testBit 31 = true →
    (∀ p ∈ s.hfe.net, p.1 / 16 = s.reg 0x300100 0 / 16 → p.1 = s.reg 0x300100 0 ∨ p.2.ctrl.toNat.testBit 31 = false) →
    ∃ t, exec (.hfeNetCtrlWrite val) s = .next t ∧
      (Tab.find t.hfe.net (s.reg 0x300100 0)).map (fun x => x.ctrl) = some (val &&& 0xC0FF0FFF#32))

/-- R87, R88, R90, R93, R96-R98, R102: a Connect for an admin queue whose host proved the tenant's secret makes the association, one for an I/O queue of that
association makes the queue; a held Connect is admitted once the old association's work has rolled back; an invalid host's connection is closed a second later;
a Disconnect, an expired keep-alive and a lost queue pair end what they carried; a Send's capsule is queued; a host's own RDMA access closes its queue pair. -/
def Obligations.AssociationsComeAndGo : Prop :=
  (∀ (c : ConnectReq) (r : ControllerRec) (k : TcpConn) (t : TenantRec) (s : State), s.runs = true → c.rdma = false →
    Tab.find s.hfe.conns c.conn = some k → k.icDone = true → s.saf.rootErased = false → s.controllerRec c.cntlid = some r → r.transport = 1 → c.qid = 0 →
    s.tenantRec r.tag = some t → t.flags.testBit 4 = true → provedTag s c = some r.tag → s.ctrlOf c.cntlid = none → 2 ≤ c.size → c.size ≤ 4096 →
    exec (.connect c) s = .next (associate c r s)) ∧
  (∀ (c : ConnectReq) (r : ControllerRec) (k : TcpConn) (t : TenantRec) (s : State), s.runs = true → c.rdma = false →
    Tab.find s.hfe.conns c.conn = some k → k.icDone = true → s.saf.rootErased = false → s.controllerRec c.cntlid = some r → r.transport = 1 → c.qid = 0 →
    s.tenantRec r.tag = some t → provedTag s c ≠ some r.tag →
    ∃ u, exec (.connect c) s = .next u ∧ .connectResp false c.conn ⟨1, 0x84, true⟩ ∈ u.out ∧
      (Tab.find u.hfe.conns c.conn).map (fun x => x.closeAt) = some (some (s.wall + 1000000000))) ∧
  (∀ (c : ConnectReq) (r : ControllerRec) (s : State), c.rdma = false →
    ∃ u, associate c r s = raiseObj 56 c.cntlid r.tag u ∧ .connectResp false c.conn stOk ∈ u.out ∧
      ((Tab.find u.hfe.ctrls c.cntlid).bind (fun k => k.assoc)).map (fun a => (a.hostNqn, a.hostId, a.kato, a.adminConn)) =
        some (c.hostNqn, c.hostId, katoOf c.kato, c.conn)) ∧
  (∀ (conn : Nat) (h : HeldConnect) (r : ControllerRec) (s : State), Tab.find s.hfe.held conn = some h → s.ctrlOf h.req.cntlid = none →
    s.controllerRec h.req.cntlid = some r → ∃ u, exec (.connectAdmitted conn) s = .next (associate h.req r u) ∧ Tab.find u.hfe.held conn = none) ∧
  (∀ (conn due : Nat) (k : TcpConn) (s : State), Tab.find s.hfe.conns conn = some k → k.closeAt = some due → due ≤ s.wall →
    ∃ t, exec (.invalidHostClose conn) s = .next t ∧ .closed conn ∈ t.out) ∧
  (∀ (conn c : Nat) (k : TcpConn) (s : State), Tab.find s.hfe.conns conn = some k → k.ctrl = some c → k.qid ≠ 0 →
    ∃ u, exec (.disconnect conn) s = .next (goOn (rollQueue c k.qid stSqDeleted u)) ∧ u.hfe = s.hfe ∧
      ∀ x, Tab.find s.scn.sqs (qKey c k.qid) = some x →
        (Tab.find u.scn.sqs (qKey c k.qid)) = some { x with deleting := some (.disconnect false conn) }) ∧
  (∀ (c : Nat) (k : Ctrl) (a : Assoc) (s : State), s.ctrlOf c = some k → k.assoc = some a → a.lastAlive + a.kato * 1000000 ≤ s.wall →
    ∃ u, exec (.keepAliveExpiry c) s = .next (resetController c u) ∧ (∀ p ∈ u.hfe.conns, p.2.ctrl ≠ some c) ∧ (∀ p ∈ u.hfe.qps, p.2.ctrl ≠ some c) ∧
      (Tab.find u.hfe.ctrls c).bind (fun k => k.assoc) = none) ∧
  (∀ (qp c : Nat) (cap : Capsule) (k : RdmaQp) (s : State), Tab.find s.hfe.qps qp = some k → k.inError = false → 64 ≤ cap.len → cap.len ≤ 64 + 8192 →
    k.ctrl = some c → sqFull s c k.qid = false → cap.inCapsule = cap.cmdLen → capsuleRoom s c cap = true → k.waiting = [] →
    exec (.rdmaSend qp cap false) s = .next (queueCapsule c k.qid cap s)) ∧
  (∀ (qp c : Nat) (cap : Capsule) (k : RdmaQp) (s : State), Tab.find s.hfe.qps qp = some k → k.inError = false → 64 ≤ cap.len → cap.len ≤ 64 + 8192 →
    k.ctrl = some c → sqFull s c k.qid = true → exec (.rdmaSend qp cap false) s = .next (emit (.rdmaNakRnr qp) s)) ∧
  (∀ (qp : Nat) (k : RdmaQp) (s : State), Tab.find s.hfe.qps qp = some k →
    ∃ t, exec (.rdmaInboundAccess qp) s = .next t ∧ .rdmaNakAccess qp ∈ t.out ∧ .qpClosed qp ∈ t.out) ∧
  (∀ (qp c : Nat) (k : RdmaQp) (s : State), Tab.find s.hfe.qps qp = some k → k.ctrl = some c → k.qid ≠ 0 →
    ∃ u, exec (.rdmaQpLoss qp) s = .next (goOn u) ∧ Tab.find u.scn.sqs (qKey c k.qid) = none ∧ Tab.find u.scn.cqs (qKey c k.qid) = none)

/-- From R95-R97, R118 and R135: I/O queues are made and deleted, their ordering is set and read, and Restart Queue takes a held queue up again; each ends with
Successful Completion and the DW0 of its rule, or with the status of its refusal. -/
def Obligations.QueuesAreMadeAndDeleted : Prop :=
  (∀ (h : CmdHdr) (qid size vector : Nat) (k : Ctrl) (s : State), Fetched h .pcieAdmin s → s.ctrlOf h.ctrl = some k → 0 < qid → qid ≤ k.ioQueues →
    Tab.find s.scn.cqs (qKey h.ctrl qid) = none → 2 ≤ size → size ≤ s.maxEntries h.ctrl → vector < k.vectors →
    exec (.createIoCq h qid size vector) s = .next (goOn (endAtOnce h 0x05 stOk 0
      { s with scn := { s.scn with cqs := Tab.put s.scn.cqs (qKey h.ctrl qid) { size := size, vector := vector } } }))) ∧
  (∀ (h : CmdHdr) (qid size cqid prio : Nat) (k : Ctrl) (q : CompQueue) (s : State), Fetched h .pcieAdmin s → s.ctrlOf h.ctrl = some k → 0 < qid →
    qid ≤ k.ioQueues → Tab.find s.scn.sqs (qKey h.ctrl qid) = none → 2 ≤ size → size ≤ s.maxEntries h.ctrl →
    Tab.find s.scn.cqs (qKey h.ctrl cqid) = some q → cqid ≠ 0 →
    exec (.createIoSq h qid size cqid prio) s = .next (goOn (endAtOnce h 0x01 stOk 0
      { s with scn := { s.scn with sqs := Tab.put s.scn.sqs (qKey h.ctrl qid) { size := size, cqid := cqid, prio := prio % 4, strict := false } } }))) ∧
  (∀ (h : CmdHdr) (qid size cqid prio : Nat) (k : Ctrl) (s : State), Fetched h .pcieAdmin s → s.ctrlOf h.ctrl = some k → 0 < qid →
    qid ≤ k.ioQueues → Tab.find s.scn.sqs (qKey h.ctrl qid) = none → 2 ≤ size → size ≤ s.maxEntries h.ctrl →
    Tab.find s.scn.cqs (qKey h.ctrl cqid) = none → exec (.createIoSq h qid size cqid prio) s = .next (goOn (failCmd h 0x01 ⟨1, 0x00, true⟩ s))) ∧
  (∀ (h : CmdHdr) (qid : Nat) (q : CompQueue) (s : State), Fetched h .pcieAdmin s → qid ≠ 0 → Tab.find s.scn.cqs (qKey h.ctrl qid) = some q →
    (∀ p ∈ s.scn.sqs, p.1 / 65536 = h.ctrl → p.2.cqid ≠ qid) →
    exec (.deleteIoCq h qid) s = .next (goOn (endAtOnce h 0x04 stOk 0 { s with scn := { s.scn with cqs := Tab.del s.scn.cqs (qKey h.ctrl qid) } }))) ∧
  (∀ (h : CmdHdr) (qid : Nat) (q : SubQueue) (s : State), Fetched h .pcieAdmin s → qid ≠ 0 → Tab.find s.scn.sqs (qKey h.ctrl qid) = some q → h.sq ≠ qid →
    ∃ u, exec (.deleteIoSq h qid) s = .next (goOn (rollQueue h.ctrl qid stSqDeleted u)) ∧
      Tab.find u.scn.sqs (qKey h.ctrl qid) = some { q with deleting := some (.scene s.scn.nextOrder) } ∧
      (Tab.find u.scn.scenes s.scn.nextOrder).map (fun c => c.kind) = some (.deleteSq qid)) ∧
  (∀ (h : CmdHdr) (v : W32) (q : SubQueue) (s : State), Fetched h .admin s → s.sqOf h.ctrl (bits v.toNat 15 0) = some q → bits v.toNat 31 17 = 0 →
    exec (.setQueueOrdering h false v) s = .next (goOn (endAtOnce h 0x09 stOk 0
      (onSq h.ctrl (bits v.toNat 15 0) (fun x => { x with strict := v.toNat.testBit 16 }) s)))) ∧
  (∀ (h : CmdHdr) (v : W32) (q : SubQueue) (s : State), Fetched h .admin s → s.sqOf h.ctrl (bits v.toNat 15 0) = some q →
    exec (.getQueueOrdering h v) s = .next (goOn (endAtOnce h 0x0A stOk (b2n q.strict) s))) ∧
  (∀ (h : CmdHdr) (sqid : Nat) (q : SubQueue) (s : State), Fetched h .gloexAdmin s → sqid ≠ 0 → s.sqOf h.ctrl sqid = some q → q.frozen = true → q.logRead = true →
    exec (.restartQueue h sqid false) s = .next (goOn (endAtOnce h 0xC0 stOk 0 (onSq h.ctrl sqid (fun q => { q with frozen := false }) s)))) ∧
  (∀ (h : CmdHdr) (sqid : Nat) (q : SubQueue) (d : Bool) (s : State), Fetched h .gloexAdmin s → sqid ≠ 0 → s.sqOf h.ctrl sqid = some q → q.frozen = false →
    exec (.restartQueue h sqid d) s = .next (goOn (failCmd h 0xC0 stSequence s)))

/-- From R106, R109, R128, R137 and R460: features are set and read; a self-test step is set; Abort, its hold, Asynchronous Event Request and Keep Alive do their work;
each ends with the status and the DW0 of its rule. An Asynchronous Event Request opens a scene (log entry 67) that retires with the event as its DW0. -/
def Obligations.FeaturesAndAbortsAreServed : Prop :=
  (∀ (h : CmdHdr) (v : W32) (s : State) (d : Bytes), Fetched h .admin s → featureOk s h.ctrl 0x06 = true →
    ∃ u, exec (.setFeatures h 0x06 false v d) s = .next (goOn (endAtOnce h 0x09 stOk 0 u)) ∧ (u.side h.ctrl).wce = v.toNat.testBit 0) ∧
  (∀ (h : CmdHdr) (fid : Nat) (v : W32) (s : State) (d : Bytes), Fetched h .admin s → featureOk s h.ctrl fid = true →
    exec (.setFeatures h fid true v d) s = .next (goOn (failCmd h 0x09 ⟨1, 0x0D, true⟩ s))) ∧
  (∀ (h : CmdHdr) (fid : Nat) (s : State), Fetched h .admin s → featureOk s h.ctrl fid = true → fid ≠ 0x0E → fid ≠ 0x16 → fid ≠ 0x81 →
    exec (.getFeatures h fid) s = .next (goOn (endAtOnce h 0x0A stOk (featureValue s h.ctrl fid) s))) ∧
  (∀ (h : CmdHdr) (v : W32) (s : State), Fetched h .admin s → 100 ≤ bits v.toNat 15 0 → bits v.toNat 15 0 ≤ 2000 →
    ∃ u, exec (.setSelfTestStep h false v) s = .next (goOn (endAtOnce h 0x09 stOk 0 u)) ∧ (u.side h.ctrl).stepUs = bits v.toNat 15 0) ∧
  (∀ (h : CmdHdr) (sqid target : Nat) (s : State), Fetched h .admin s → s.openAborts h.ctrl < 8 → s.targetOf h.ctrl sqid target = none →
    Opens (.abort sqid target s.wall) s (exec (.abort h sqid target) s)) ∧
  (∀ (h : CmdHdr) (sqid target o : Nat) (c : Scene) (s : State), Fetched h .admin s → s.openAborts h.ctrl < 8 →
    s.targetOf h.ctrl sqid target = some (o, c) →
    let u := (openScene h 0x08 (.abort sqid target s.wall) 0 s).2
    (c.decided = false → Tab.has u.evt.aenDue o = false →
      exec (.abort h sqid target) s = .next (goOn (retire s.scn.nextOrder stOk 0 (rollBack o stAborted u)))) ∧
    (c.decided = true ∨ Tab.has u.evt.aenDue o = true → exec (.abort h sqid target) s = .next (goOn (count1 0x301020 (retire s.scn.nextOrder stOk 1 u))))) ∧
  (∀ (h : CmdHdr) (sqid target : Nat) (s : State), Fetched h .admin s → 8 ≤ s.openAborts h.ctrl →
    exec (.abort h sqid target) s = .next (goOn (failCmd h 0x08 ⟨1, 0x03, true⟩ s))) ∧
  (∀ (ctrl cid o t q since : Nat) (c : Scene) (s : State), s.scn.scenes = [(o, c)] → c.ctrl = ctrl → c.sq = 0 → c.cid = cid → c.decided = false →
    c.kind = .abort q t since → since + 10000000 ≤ s.wall →
    exec (.abortHoldExpiry ctrl cid) s = .next (goOn (count1 0x301020 (retire o stOk 1 s)))) ∧
  (∀ (h : CmdHdr) (s : State), Fetched h .admin s →
    ((s.scn.scenes.filter (s.isOpenAer h.ctrl)).length < 16 → Opens .aer s (exec (.asyncEventRequest h) s)) ∧
    (16 ≤ (s.scn.scenes.filter (s.isOpenAer h.ctrl)).length → exec (.asyncEventRequest h) s = .next (goOn (failCmd h 0x0C ⟨1, 0x05, true⟩ s)))) ∧
  (∀ (o v : Nat) (c : Scene) (s : State), c.kind = .aer → c.decided = false → held s o c = false → Tab.find s.evt.aenDue o = some v →
    takeTurn o c (readyFor s o c) s = retire o stOk v { s with evt := { s.evt with aenDue := Tab.del s.evt.aenDue o } }) ∧
  (∀ (ctrl o : Nat) (s : State), Tab.find (sendAen (ctrl, o) s).evt.aenDue o = some 0xC30007 ∧ ctrl ∈ (sendAen (ctrl, o) s).evt.aenHeld) ∧
  (∀ (h : CmdHdr) (k : Ctrl) (a : Assoc) (s : State), Fetched h .fabricAdmin s → s.ctrlOf h.ctrl = some k → k.assoc = some a →
    ∃ u, exec (.keepAlive h) s = .next (goOn (endAtOnce h 0x18 stOk 0 u)) ∧
      u.ctrlOf h.ctrl = some { k with assoc := some { a with lastAlive := s.wall } })

/-- R106, R107, R110, R124, R130, R136, R137, R461: log pages and Identify data are returned with Successful Completion; reading byte 0 of page 0xC0 sets LOG_READ,
reading 0x04 without RAE clears the changed-namespace list, 0xC3 without RAE the outstanding vendor event; a self-test starts, is refused while one runs, ends by its
abort or its last step; an absent opcode fails with Invalid Command Opcode. -/
def Obligations.LogsAndSelfTestsAreServed : Prop :=
  (∀ (h : CmdHdr) (lid offset len : Nat) (s : State), Fetched h .identify s → lid = 0x01 ∨ lid = 0x02 ∨ lid = 0x03 ∨ lid = 0x06 →
    exec (.getLogPage h lid offset len true) s = .next (goOn (returnLog h (standardPage s h.ctrl lid) offset len s))) ∧
  (∀ (h : CmdHdr) (offset len : Nat) (s : State), Fetched h .identify s →
    ∃ u, exec (.getLogPage h 0x04 offset len false) s = .next (goOn u) ∧ (u.side h.ctrl).changedNs = []) ∧
  (∀ (h : CmdHdr) (lid offset len : Nat) (rae : Bool) (s : State), Fetched h .identify s → lid ∉ [0x01, 0x02, 0x03, 0x04, 0x05, 0x06, 0x0D] →
    exec (.getLogPage h lid offset len rae) s = .next (goOn (failCmd h 0x02 ⟨1, 0x09, true⟩ s))) ∧
  (∀ (h : CmdHdr) (lsi len : Nat) (q : SubQueue) (s : State), Fetched h .identify s → s.sqOf h.ctrl lsi = some q → s.isGloex h.ctrl = true → lsi ≠ 0 → 0 < len →
    exec (.getLogGloexError h lsi 0 len) s =
      .next (goOn (onSq h.ctrl lsi (fun q => { q with logRead := true }) (returnLog h (gloexPage lsi q) 0 len s)))) ∧
  (∀ (h : CmdHdr) (offset len : Nat) (s : State), Fetched h .identify s →
    exec (.getLogResetOutcome h offset len) s = .next (goOn (returnLog h (resetPage s h.ctrl) offset len s))) ∧
  (∀ (h : CmdHdr) (lsi offset len : Nat) (q : SubQueue) (s : State), Fetched h .identify s → s.sqOf h.ctrl lsi = some q →
    exec (.getLogCommitCue h lsi offset len) s = .next (goOn (returnLog h (commitPage q) offset len s))) ∧
  (∀ (h : CmdHdr) (offset len : Nat) (s : State), Fetched h .identify s → offset % 4 = 0 →
    ∃ u, exec (.getLogEventLog h offset len false) s = .next (goOn u) ∧ h.ctrl ∉ u.evt.aenHeld) ∧
  (∀ (h : CmdHdr) (s : State), Fetched h .identify s →
    exec (.identify h 1) s = .next (goOn (endAtOnce h 0x06 stOk 0 (emit (.data h.ctrl h.cid (identifyController s h.ctrl)) s)))) ∧
  (∀ (h : CmdHdr) (n : Namespace) (s : State), Fetched h .identify s → s.nsFor h = some n →
    exec (.identify h 0) s = .next (goOn (endAtOnce h 0x06 stOk 0 (emit (.data h.ctrl h.cid (identifyNamespace n)) s)))) ∧
  (∀ (h : CmdHdr) (s : State), Fetched h .identify s → s.nsFor h = none →
    exec (.identify h 0) s = .next (goOn (failCmd h 0x06 stNamespace s))) ∧
  (∀ (h : CmdHdr) (code : Nat) (s : State), Fetched h .admin s → code = 1 ∨ code = 2 → (s.side h.ctrl).selfTest = none → s.isHouse h.ctrl = true →
    ∃ u, exec (.deviceSelfTest h code) s = .next (goOn (endAtOnce h 0x14 stOk 0 u)) ∧ (u.side h.ctrl).selfTest = some ⟨code, []⟩) ∧
  (∀ (h : CmdHdr) (code : Nat) (x : SelfTest) (s : State), Fetched h .admin s → code = 1 ∨ code = 2 → (s.side h.ctrl).selfTest = some x →
    exec (.deviceSelfTest h code) s = .next (goOn (failCmd h 0x14 ⟨1, 0x1D, true⟩ s))) ∧
  (∀ (h : CmdHdr) (x : SelfTest) (s : State), Fetched h .admin s → (s.side h.ctrl).selfTest = some x →
    ∃ u, exec (.selfTestAbort h) s = .next (goOn (endAtOnce h 0x14 stOk 0 u)) ∧ (u.side h.ctrl).selfTest = none ∧
      (u.side h.ctrl).testResults = ((x.code, 1) :: (s.side h.ctrl).testResults).take 20) ∧
  (∀ (c : Nat) (x : SelfTest) (s : State), (s.side c).selfTest = some x →
    ∃ t, exec (.selfTestStep c true true) s = .next t ∧ (t.side c).selfTest = none ∧
      (t.side c).testResults = ((x.code, 0) :: (s.side c).testResults).take 20) ∧
  (∀ (c : Nat) (x : SelfTest) (last : Bool) (s : State), (s.side c).selfTest = some x →
    ∃ t, exec (.selfTestStep c false last) s = .next t ∧ (t.side c).selfTest = none ∧
      (t.side c).testResults = ((x.code, 7) :: (s.side c).testResults).take 20) ∧
  (∀ (h : CmdHdr) (admin : Bool) (op : Nat) (s : State), fetchable s h = true →
    exec (.invalidOpcode h admin op) s = .next (goOn (failCmd h op stInvalidOpcode s)))

/-- R106, R115, R140, R141, R313-R317, R331, R387, R389, R396: a Format and a namespace deletion wait at their gate for every open command on their namespaces; a
namespace is created at the lowest free number and attached to controllers of its owner; Sanitize is Crypto Erase alone; keys are injected and cleared; a program
is loaded in pieces, verified, activated and deactivated; a memory range set takes the lowest free number. -/
def Obligations.NamespacesKeysAndProgramsAreServed : Prop :=
  (∀ (h : CmdHdr) (lbaf ses : Nat) (n : Namespace) (s : State), Fetched h .admin s → h.nsid ≠ 0xFFFFFFFF → s.nsFor h = some n →
    Tab.find s.obj.ns h.nsid = some n → n.kv = false → lbaf ≤ 1 → ses ≤ 2 →
    ∃ u, exec (.formatNvm h lbaf ses) s = .next (goOn u) ∧ (Tab.find u.scn.scenes s.scn.nextOrder).map (fun c => (c.kind, c.waits, c.wantCommit)) =
      some (.format [h.nsid] lbaf ses, s.scenesOn [h.nsid], true)) ∧
  (∀ (h : CmdHdr) (a : NsAttrs) (n : Namespace) (s : State), Fetched h .houseAdmin s → h.nsid ≠ 0xFFFFFFFF → Tab.find s.obj.ns h.nsid = some n →
    ∃ u, exec (.namespaceManagement h false a) s = .next (goOn u) ∧
      (Tab.find u.scn.scenes s.scn.nextOrder).map (fun c => (c.kind, c.waits, c.wantCommit)) = some (.nsDelete [h.nsid], s.scenesOn [h.nsid], true)) ∧
  (∀ (h : CmdHdr) (a : NsAttrs) (nsid : Nat) (t : TenantRec) (s : State), Fetched h .houseAdmin s → a.owner ≠ 0 → s.tenantRec a.owner = some t →
    attrsOk a = true → a.kv = true → a.services.testBit 1 = false → Tab.freeKey s.obj.ns 8192 1 = some nsid →
    ∃ u, exec (.namespaceManagement h true a) s = .next (goOn (endAtOnce h 0x0D stOk nsid u)) ∧
      (Tab.find u.obj.ns nsid).map (fun n => (n.owner, n.kv, n.services, n.tierPolicy, n.attached, n.sweepDays)) =
        some (a.owner, true, a.services, a.tierPolicy, [], if a.sweepDays = 0 then 365 else a.sweepDays)) ∧
  (∀ (h : CmdHdr) (a : NsAttrs) (s : State), Fetched h .houseAdmin s → attrsOk a = false ∨ a.owner = 0 →
    exec (.namespaceManagement h true a) s = .next (goOn (failCmd h 0x0D stInvalidField s))) ∧
  (∀ (h : CmdHdr) (c : Nat) (n : Namespace) (r : ControllerRec) (s : State), Fetched h .houseAdmin s → Tab.find s.obj.ns h.nsid = some n →
    s.controllerRec c = some r → r.tag = n.owner → c ∉ n.attached →
    ∃ u, exec (.namespaceAttachment h true [c]) s = .next (goOn (endAtOnce h 0x15 stOk 0 u)) ∧
      Tab.find u.obj.ns h.nsid = some { n with attached := setAdd n.attached c }) ∧
  (∀ (h : CmdHdr) (action : Nat) (s : State), Fetched h .houseAdmin s → action ≠ 4 →
    exec (.sanitize h action) s = .next (goOn (failCmd h 0x84 stInvalidField s))) ∧
  (∀ (h : CmdHdr) (s : State), Fetched h .houseAdmin s → (∀ p ∈ s.obj.ns, epochSpent s p.1 = false) →
    exec (.sanitize h 4) s = .next (goOn (endAtOnce h 0x84 stOk 0 (rewrap (s.obj.ns.foldl (fun s p => cryptErase p.1 s) s))))) ∧
  (∀ (h : CmdHdr) (kt k : Nat) (s : State), Fetched h .admin s → s.deviceSlot ((s.ctrlTag h.ctrl).getD 0) kt = some k → (s.keySlot k).kind = 6 →
    exec (.securitySend h (.clear kt)) s = .next (goOn (endAtOnce h 0x81 stOk 0 (eraseSlot k s)))) ∧
  (∀ (h : CmdHdr) (proto : Nat) (s : State), Fetched h .admin s →
    exec (.securityReceive h proto) s = .next (goOn (endAtOnce h 0x82 stOk 0 (emit (.data h.ctrl h.cid (Config.tcgData proto)) s)))) ∧
  (∀ (h : CmdHdr) (pidx total : Nat) (piece : Bytes) (s : State), Fetched h .programs s → pidx < s.progCount ((s.ctrlTag h.ctrl).getD 0) →
    total ≤ 64 + 8 * 1048576 → piece.length < total →
    ∃ u, exec (.loadProgram h pidx 0xC0 0 total piece) s = .next (goOn (endAtOnce h 0x22 stOk 0 u)) ∧
      (u.prog ((s.ctrlTag h.ctrl).getD 0) pidx).loaded = piece) ∧
  (∀ (tag pidx o : Nat) (s : State), loadScene s tag pidx = some o → progHeaderOk (s.prog tag pidx).loaded = true →
    leAt (s.prog tag pidx).loaded 8 4 ≤ ((s.programLimits tag).map (fun l => l.slots)).getD 0 →
    ∃ u, exec (.programTranslated tag pidx none) s = .next (goOn (retire o stOk 0 u)) ∧
      (u.prog tag pidx).staged = some (imageOf s.bob.nextImage (s.prog tag pidx).loaded)) ∧
  (∀ (h : CmdHdr) (pidx : Nat) (m : ProgImage) (s : State), Fetched h .programs s → pidx < s.progCount ((s.ctrlTag h.ctrl).getD 0) →
    (s.prog ((s.ctrlTag h.ctrl).getD 0) pidx).staged = some m →
    ∃ u, exec (.programActivate h pidx) s = .next (goOn (endAtOnce h 0x23 stOk 0 u)) ∧
      (u.prog ((s.ctrlTag h.ctrl).getD 0) pidx).active = some m ∧ (u.prog ((s.ctrlTag h.ctrl).getD 0) pidx).staged = none) ∧
  (∀ (h : CmdHdr) (pidx : Nat) (s : State), Fetched h .programs s → pidx < s.progCount ((s.ctrlTag h.ctrl).getD 0) →
    ∃ u, exec (.programDeactivate h pidx) s = .next (goOn (endAtOnce h 0x23 stOk 0 u)) ∧ (u.prog ((s.ctrlTag h.ctrl).getD 0) pidx).active = none) ∧
  (∀ (h : CmdHdr) (l : List (Nat × Nat)) (s : State), Fetched h .programs s → rangesOk (s.slmSize ((s.ctrlTag h.ctrl).getD 0)) l = true → s.bob.sets = [] →
    ∃ u, exec (.memoryRangeSetManagement h true 0 l) s = .next (goOn (endAtOnce h 0x21 stOk 0 u)) ∧
      Tab.find u.bob.sets (((s.ctrlTag h.ctrl).getD 0) * 65536) = some l) ∧
  (∀ (h : CmdHdr) (k : Nat) (l : List (Nat × Nat)) (s : State), Fetched h .programs s → k < 256 →
    Tab.find s.bob.sets (((s.ctrlTag h.ctrl).getD 0) * 65536 + k) = some l →
    ∃ u, exec (.memoryRangeSetManagement h false k []) s = .next (goOn (endAtOnce h 0x21 stOk 0 u)) ∧
      Tab.find u.bob.sets (((s.ctrlTag h.ctrl).getD 0) * 65536 + k) = none)

/-- R94, R106, R131, R424, R425, R484, R485: firmware images are downloaded, committed and activated live: the drain ends in the switch, MTFA in a time violation
that leaves the old image; NVMe-MI messages over the house controller are answered by NVMe-MI Receive. -/
def Obligations.FirmwareAndManagementAreServed : Prop :=
  (∀ (h : CmdHdr) (img : FwImage) (s : State), Fetched h .houseAdmin s →
    ∃ u, exec (.firmwareImageDownload h 0 img) s = .next (goOn (endAtOnce h 0x11 stOk 0 u)) ∧ u.scn.download = some img ∧ u.scn.downloadLen = img.len) ∧
  (∀ (h : CmdHdr) (slot : Nat) (d : FwImage) (s : State), Fetched h .houseAdmin s → 1 ≤ slot → slot ≤ 3 → s.scn.download = some d →
    s.scn.downloadLen ≤ 12 * 2 ^ 20 →
    ∃ u, exec (.firmwareCommit h 0 slot) s = .next (goOn (endAtOnce h 0x10 stOk 0 u)) ∧ Tab.find u.dev.fwSlots slot = some (slotOf d) ∧
      u.dev.boot = s.dev.boot ∧ u.scn.download = none) ∧
  (∀ (h : CmdHdr) (slot : Nat) (x : FwSlot) (s : State), Fetched h .houseAdmin s → 1 ≤ slot → slot ≤ 3 → Tab.find s.dev.fwSlots slot = some x →
    ∃ u, exec (.firmwareCommit h 2 slot) s = .next (goOn (endAtOnce h 0x10 stOk 0 u)) ∧ u.dev.boot.fwNext = slot) ∧
  (∀ (h : CmdHdr) (action slot : Nat) (s : State), Fetched h .houseAdmin s → slot = 0 ∨ 3 < slot →
    exec (.firmwareCommit h action slot) s = .next (goOn (endAtOnce h 0x10 ⟨1, 0x06, true⟩ 0 s))) ∧
  (∀ (h : CmdHdr) (slot : Nat) (x : FwSlot) (s : State), Fetched h .houseAdmin s → Tab.find s.dev.fwSlots slot = some x → x.readable = true →
    x.verifies = true → s.dev.fwFloor ≤ x.svn →
    ∃ u, exec (.firmwareActivate h slot) s = .next (goOn u) ∧ u.scn.act = some { scene := some s.scn.nextOrder, slot := slot, start := s.wall }) ∧
  (∀ (h : CmdHdr) (slot : Nat) (s : State), Fetched h .houseAdmin s → Tab.find s.dev.fwSlots slot = none →
    exec (.firmwareActivate h slot) s = .next (goOn (failCmd h 0x10 ⟨1, 0x06, true⟩ s))) ∧
  (∀ (a : Activation) (x : FwSlot) (s : State), s.scn.act = some a → s.runs = true → (∀ p ∈ s.scn.scenes, a.scene = some p.1 ∨ p.2.kind = .aer) →
    activable s a.slot = some x → needsSwitch s x = false →
    ∃ u, exec .firmwareActivationSwitch s = .next (finishActivation a stOk u) ∧ u.dev.booted = a.slot ∧ u.dev.bootedSvn = x.svn ∧ u.dev.boot.fwNext = a.slot) ∧
  (∀ (a : Activation) (s : State), s.scn.act = some a → a.start + 2000000000 ≤ s.wall →
    ∃ u, exec .activationTimeout s = .next (finishActivation a stFwTime u) ∧ u.dev = s.dev ∧ u.scn.abandoned = true) ∧
  (∀ (a : Activation) (o : Nat) (st : Status) (s : State), a.scene = some o → s.scn.miHeld = [] → isOk st = true →
    ∃ u, finishActivation a st s = goOn (retire o st 0 u) ∧ u.scn.act = none ∧ u.dev = s.dev) ∧
  (∀ (h : CmdHdr) (m : MiMsg) (s : State), Fetched h .houseAdmin s → m.body = .basic → m.len ≤ 4224 →
    ∃ u, exec (.nvmeMiSend h m) s = .next (goOn (endAtOnce h 0x1D stOk 0 u)) ∧ u.scn.miReply = some .miBasic) ∧
  (∀ (h : CmdHdr) (o : Output) (s : State), Fetched h .houseAdmin s → s.scn.miReply = some o →
    ∃ u, exec (.nvmeMiReceive h) s = .next (goOn (endAtOnce h 0x1E stOk 0 u)) ∧ u.out = o :: s.out ∧ u.scn.miReply = none) ∧
  (∀ (h : CmdHdr) (s : State), Fetched h .houseAdmin s → s.scn.miReply = none →
    exec (.nvmeMiReceive h) s = .next (goOn (failCmd h 0x1E stSequence s)))

/-- R107, R111, R116, R119, R127, R131, R142-R148, R324, R331, R396: a fetched I/O command whose namespace, range, key and fields pass its checks opens its scene with its
work at the next place of the fetch order; one outside its namespace's LBAs fails with LBA Out of Range; a Fence that names no legal scope fails. -/
def Obligations.IoCommandsOpenTheirScenes : Prop :=
  (∀ (h : CmdHdr) (a k : Nat) (n : Namespace) (s : State), Fetched h .nvm s → s.nsFor h = some n → n.kv = false → a + k ≤ n.nsze →
    Opens (.nvmRead a k none) s (exec (.nvmRead h a k none) s) ∧ Opens (.compare a k) s (exec (.compare h a k) s) ∧ Opens (.verify a k) s (exec (.verify h a k) s)) ∧
  (∀ (h : CmdHdr) (a k : Nat) (fua : Bool) (n : Namespace) (s : State), Fetched h .nvm s → s.nsFor h = some n → n.kv = false → a + k ≤ n.nsze →
    s.dev.phase ≠ .finalCurtain → newUnits s n a k = 0 → Opens (.nvmWrite a k fua none) s (exec (.nvmWrite h a k fua none) s)) ∧
  (∀ (h : CmdHdr) (a k : Nat) (n : Namespace) (s : State), Fetched h .nvm s → s.nsFor h = some n → n.kv = false → a + k ≤ n.nsze →
    s.dev.phase ≠ .finalCurtain → Opens (.writeZeroes a k) s (exec (.writeZeroes h a k) s) ∧
      Opens (.writeUncorrectable a k) s (exec (.writeUncorrectable h a k) s) ∧ Opens (.deallocate [(a, k)]) s (exec (.datasetManagement h true [(a, k)]) s)) ∧
  (∀ (h : CmdHdr) (a k : Nat) (n : Namespace) (s : State), Fetched h .nvm s → s.nsFor h = some n → n.kv = false → n.nsze < a + k →
    exec (.nvmRead h a k none) s = .next (goOn (failCmd h 0x02 stLbaRange s)) ∧
    exec (.nvmWrite h a k true none) s = .next (goOn (failCmd h 0x01 stLbaRange s))) ∧
  (∀ (h : CmdHdr) (d a k : Nat) (n : Namespace) (s : State), Fetched h .nvm s → s.nsFor h = some n → n.kv = false → d + k ≤ n.nsze → a + k ≤ n.nsze → k ≤ 65536 →
    s.dev.phase ≠ .finalCurtain → newUnits s n d k = 0 → Opens (.copy d [(a, k)]) s (exec (.copy h d 0 [(a, k)]) s)) ∧
  (∀ (h : CmdHdr) (n : Namespace) (s : State), Fetched h .anyIo s → h.nsid ≠ 0xFFFFFFFF → s.nsFor h = some n →
    Opens (.flush [h.nsid]) s (exec (.flush h) s)) ∧
  (∀ (h : CmdHdr) (key : Bytes) (len : Nat) (n : Namespace) (s : State), Fetched h .kv s → s.nsFor h = some n → n.kv = true → 1 ≤ key.length → key.length ≤ 16 →
    Opens (.kvRetrieve key len) s (exec (.kvRetrieve h key len) s) ∧ Opens (.kvExist key) s (exec (.kvExist h key) s) ∧
    Opens (.kvList key len) s (exec (.kvList h key len) s) ∧
    (s.dev.phase ≠ .finalCurtain → Opens (.kvDelete key) s (exec (.kvDelete h key) s))) ∧
  (∀ (h : CmdHdr) (key : Bytes) (len t : Nat) (b : Bool) (opts : KvOpts) (n : Namespace) (s : State), Fetched h .kv s → s.nsFor h = some n → n.kv = true →
    1 ≤ key.length → key.length ≤ 16 → len ≤ 4294967295 → ¬ (opts.mustExist = true ∧ opts.mustNotExist = true) → s.dev.phase ≠ .finalCurtain →
    chooseTier s n (storeBytes len) (ceilDiv (storeBytes len) unitBytes) = (stOk, t, b) →
    Opens (.kvStore key len opts) s (exec (.kvStore h key len opts) s)) ∧
  (∀ (h : CmdHdr) (pidx setId off len : Nat) (m : ProgImage) (x : ExecReq) (s : State), Fetched h .programs s →
    (s.prog ((s.ctrlTag h.ctrl).getD 0) pidx).active = some m → pidx < s.progCount ((s.ctrlTag h.ctrl).getD 0) → off % 512 = 0 → setId < 256 →
    inSet (Tab.at s.bob.sets (((s.ctrlTag h.ctrl).getD 0) * 65536 + setId) []) off 512 = true →
    execReqOf pidx setId len (((s.programLimits ((s.ctrlTag h.ctrl).getD 0)).map (fun l => l.budget)).getD 0) m
      (Tab.at s.bob.sets (((s.ctrlTag h.ctrl).getD 0) * 65536 + setId) []) (s.slmRead ((s.ctrlTag h.ctrl).getD 0) off 512) = some x →
    isOk (sourceStatus s h x) = true → Opens (.execute x) s (exec (.executeProgram h pidx setId off len) s)) ∧
  (∀ (h : CmdHdr) (off len : Nat) (s : State), Fetched h .slm s → off + len ≤ s.slmSize ((s.ctrlTag h.ctrl).getD 0) →
    Opens (.memRead off len) s (exec (.memoryRead h off len) s) ∧ Opens (.memWrite off len) s (exec (.memoryWrite h off len) s)) ∧
  (∀ (h : CmdHdr) (m : MemCopy) (s : State), Fetched h .slm s → m.srcNs = none → m.dstNs = none → m.srcOff + m.len ≤ s.slmSize ((s.ctrlTag h.ctrl).getD 0) →
    m.dstOff + m.len ≤ s.slmSize ((s.ctrlTag h.ctrl).getD 0) → Opens (.memCopy m) s (exec (.memoryCopy h m) s)) ∧
  (∀ (h : CmdHdr) (v : W32) (s : State), Fetched h .anyIo s → v.toNat < 3 → Opens (.fence v.toNat) s (exec (.fence h v) s)) ∧
  (∀ (h : CmdHdr) (v : W32) (s : State), Fetched h .anyIo s → 4 ≤ v.toNat →
    ∃ u, exec (.fence h v) s = .next (goOn (failCmd h 0x80 stInvalidField u)) ∧ u.scn.scenes = s.scn.scenes)

/-- R112, R115, R116, R119, R120, R122, R145, R165: a commit request, a read point and a roll-back request reach the scene's gate; the commit of a Write replaces
its LBAs whole and leaves every other LBA, that of a Write Uncorrectable makes them unreadable; a Fence counts what it waits for in DW0; a command that ends posts
one completion with its status and DW0, unless its tenant is sealed. -/
def Obligations.CommitsTakeEffectAtOnce : Prop :=
  (∀ (o : Nat) (c : Scene) (s : State), Tab.find s.scn.scenes o = some c → c.decided = false → held s o c = false → needsCredit s c = false →
    (c.kind.toHost = true → s.dmaStopped c.ctrl = false) → Tab.find s.smg.fails (o % 2 ^ 17) = none →
    exec (.commitRequest o) s = .next (goOn (onScene o (fun c => { c with wantCommit := true }) s))) ∧
  (∀ (o : Nat) (f : Nat × Nat) (c : Scene) (s : State), Tab.find s.scn.scenes o = some c → c.decided = false → held s o c = false → needsCredit s c = false →
    (c.kind.toHost = true → s.dmaStopped c.ctrl = false) → Tab.find s.smg.fails (o % 2 ^ 17) = some f → exec (.commitRequest o) s = .next (goOn (rollBack o (failStatus c f) s))) ∧
  (∀ (o : Nat) (c : Scene) (s : State), Tab.find s.scn.scenes o = some c → c.decided = false → c.kind.toHost = true → s.dmaStopped c.ctrl = true →
    exec (.commitRequest o) s = .next (goOn (rollBack o stTransfer s))) ∧
  (∀ (o : Nat) (c : Scene) (s : State), Tab.find s.scn.scenes o = some c → c.decided = false → held s o c = false → c.points < c.kind.readPoints →
    exec (.readPoint o) s = .next (goOn (onScene o (fun c => { c with wantPoint := true }) s))) ∧
  (∀ (o : Nat) (st : Status) (c : Scene) (s : State), Tab.find s.scn.scenes o = some c → c.decided = true →
    exec (.rollBackRequest o st) s = .next (goOn s)) ∧
  (∀ (o : Nat) (st : Status) (c : Scene) (s : State), Tab.find s.scn.scenes o = some c → c.decided = false → c.version = none → c.reserve = none →
    ∃ u, exec (.rollBackRequest o st) s = .next (goOn u) ∧ u.obj = s.obj) ∧
  (∀ (n : Namespace) (a k : Nat) (d : Bytes), n.lbaf = 0 → d.length = 4096 * k → readLbas (putLbas a d k n) a k = (stOk, d)) ∧
  (∀ (n : Namespace) (a k b : Nat) (d : Bytes), b < a ∨ a + k ≤ b → (putLbas a d k n).lba b = n.lba b ∧ (zeroLbas a k n).lba b = n.lba b) ∧
  (∀ (n : Namespace) (a k i : Nat), i < k → (zeroLbas a k n).lba (a + i) = { bytes := List.replicate 4096 0, pi := List.replicate 16 0, bad := false }) ∧
  (∀ (n : Namespace) (a k : Nat), 0 < k → readLbas (badLbas a k n) a k = (stUnrecovered, [])) ∧
  (∀ (h : CmdHdr) (op : Nat) (st : Status) (dw0 : Nat) (k : Ctrl) (q : SubQueue) (s : State), s.ctrlOf h.ctrl = some k → s.sqOf h.ctrl h.sq = some q →
    s.isSealed k.tag = false → .completion h.ctrl h.sq h.cid st dw0 0 ∈ (goOn (endAtOnce h op st dw0 s)).out)

/-- R149, R151, R155-R163, R356: archive jobs export, import, abort and look up provenance with the errors of their rules; a tier move gives a version its new run;
a sweep day sets its quota; old results leave the Call Board; a cursor's high word selects the entry shown. -/
def Obligations.ArchiveAndCallBoard : Prop :=
  (∀ (tag : Nat) (p : Namespace × Namespace) (s : State), arcIdle s tag = true → arcNamespaces s tag = some p →
    ∃ t, exec (.arcExport tag) s = .next t ∧ (t.job tag).phase = .exporting ∧ (t.job tag).err = 0 ∧ (t.job tag).objects = 0 ∧ (t.job tag).start = s.cue.now) ∧
  (∀ (tag : Nat) (s : State), arcIdle s tag = true → arcNamespaces s tag = none →
    ∃ t, exec (.arcExport tag) s = .next t ∧ (t.job tag).phase = .idle ∧ (t.job tag).err = 2) ∧
  (∀ (tag : Nat) (bag : BagScan) (p : Namespace × Namespace) (s : State), arcIdle s tag = true → s.dev.phase ≠ .finalCurtain → arcNamespaces s tag = some p →
    ∃ t, exec (.arcImport tag bag) s = .next t ∧
      ((t.job tag).phase, (t.job tag).err) = if bag.bagitOk = false then (.idle, 4) else if bag.hasManifest = false then (.idle, 5) else (.importSecond, 0)) ∧
  (∀ (tag : Nat) (s : State), (s.job tag).phase ≠ .idle → writable s false = true →
    ∃ t, exec (.arcAbort tag) s = .next t ∧ (t.job tag).abort = true) ∧
  (∀ (tag : Nat) (ns : Namespace) (s : State), arcIdle s tag = true → 1 ≤ bits (s.tw tag 0x7040 0x1000) 4 0 → bits (s.tw tag 0x7040 0x1000) 4 0 ≤ 16 →
    Tab.find s.obj.ns (s.tw tag 0x7008 0) = some ns → ns.owner = tag → ns.kv = true →
    ∃ t, exec (.arcProvenance tag) s = .next t ∧ ((t.job tag).err, (t.job tag).prov) =
      match ns.newest (keyBytes s tag 0x7020 0 (bits (s.tw tag 0x7040 0x1000) 4 0)) with
      | some (id, v) => (0, provBytes (s.tw tag 0x7008 0) ns id v)
      | none => (7, [])) ∧
  (∀ (tag : Nat) (f : ArcFile) (s : State), (s.job tag).phase = .exporting → (f.endReached = true ∨ beyondBag tag (s.job tag) f s = true) →
    ∃ t, exec (.arcFileDone tag f) s = .next t ∧ (t.job tag).phase = .idle ∧ (t.job tag).err = 3) ∧
  (∀ (tag : Nat) (f : ArcFile) (s : State), (s.job tag).phase = .exporting → f.endReached = false → beyondBag tag (s.job tag) f s = false →
    f.checksPass = false → (s.tw tag 0x7018 2).testBit 8 = false →
    (s.job tag).abort = false → f.last = false →
    ∃ t, exec (.arcFileDone tag f) s = .next t ∧ (t.job tag).failed = (s.job tag).failed + 1 ∧ (t.job tag).todo = (s.job tag).todo.tail ∧ (t.job tag).phase = .exporting) ∧
  (∀ (tag : Nat) (f : ArcFile) (s : State), (s.job tag).phase = .importSecond → spillDeferred (s.job tag) f s = false → (s.job tag).abort = false → f.last = true → keyOfName f.name = none →
    ∃ t, exec (.arcFileDone tag f) s = .next t ∧ (t.job tag).phase = .idle ∧ (t.job tag).oxum = f.oxumBad ∧ (t.job tag).failed = (s.job tag).failed + 1) ∧
  (∀ (tag : Nat) (f : ArcFile) (s : State), (s.job tag).phase = .importSecond → spillDeferred (s.job tag) f s = true →
    exec (.arcFileDone tag f) s = .next s) ∧
  (∀ (nsid id k : Nat) (n : Namespace) (v : Version) (u s : State), s.dev.phase = .performance → s.trl.restored = true → Tab.find s.obj.ns nsid = some n → n.kv = true →
    n.vers = [(id, v)] → moveTarget s n v = some k →
    placeMedia ((List.range v.units).map (fun i => (takeRun n.owner k v.units (v.storedUnits * 4096) s.trl).1 + i))
      { s with trl := (takeRun n.owner k v.units (v.storedUnits * 4096) s.trl).2 } = some u →
    ∃ t, exec (.tierMovePass nsid) s = .next t ∧ (Tab.find t.obj.ns nsid).bind (fun n => Tab.find n.vers id) =
      some { v with first := (takeRun n.owner k v.units (v.storedUnits * 4096) s.trl).1, platters := k == 1, reads := [] }) ∧
  (∀ (nsid : Nat) (n : Namespace) (s : State), Tab.find s.obj.ns nsid = some n → n.services.testBit 2 = true → 1 ≤ n.sweepDays → n.sweep = none →
    ∃ t, exec (.sweepDayBoundary nsid) s = .next t ∧ ((Tab.find t.obj.ns nsid).bind (fun n => n.sweep)).map (fun w => (w.start, w.unchecked, w.quota)) =
      some (s.cue.now, sweepMembers n [], ceilDiv (sweepBytes n { start := s.cue.now, topId := n.nextObj - 1, unchecked := sweepMembers n [], quota := 0, day := 0 }) n.sweepDays)) ∧
  (∀ (s : State), ∃ t, exec .callBoardExpiry s = .next t ∧
    ∀ e, e ∈ t.obj.board ↔ e ∈ s.obj.board ∧ s.opSeconds < e.posted + s.callBoardRec.2 * 86400) ∧
  (∀ (q : Requester) (hi : W32) (s : State), mayReach s q .house = true → writable s true = true →
    ∃ t, exec (.cbdCursorWrite q hi) s = .next t ∧ t.obj.cursor = formed s q 0x780010 (s.reg 0x780010 0) hi ∧ t.obj.board = s.obj.board) ∧
  (∀ (q : Requester) (tag : Nat) (hi : W32) (s : State), mayReach s q (.tenant tag) = true → writable s true = true →
    (∃ t, exec (.twCbCursorWrite q tag hi) s = .next t ∧
      Tab.find t.obj.tenantCursor tag = some (formed s q (tenantKey tag 0x2010) (s.reg (tenantKey tag 0x2010) 0) hi) ∧ t.obj.cursor = s.obj.cursor) ∧
    (∃ t, exec (.twTlyPrCursorWrite q tag hi) s = .next t ∧
      (Tab.at t.obj.privates tag {}).cursor = formed s q (tenantKey tag 0x1810) (s.reg (tenantKey tag 0x1810) 0) hi))

/-- R172, R175-R184: a committed Wings unit is sent to its stream; journal writes gather 64 KiB or 1 ms and free what waited once on flash; a checkpoint starts every
10 minutes, by 4 GiB of journal or by TRL_CKPT_CTRL, and its close saves the boards; reclamation takes refresh ahead of greedy in the background, waits for foreground
room, and empties bands; a stripe block past its retention is queued for refresh. -/
def Obligations.TranslationLayerWorks : Prop :=
  (∀ (slot : Nat) (w : WingSlot) (e : MapEntry) (u s : State), Tab.find s.trl.wings slot = some w → s.trl.copies = [] →
    mediaSlot w.unit (if w.hot then .hot else .cold) .bandHost s = some (e, u) →
    exec (.destage slot) s = .next { u with trl := { u.trl with
      copies := u.trl.copies ++ [{ unit := w.unit, src := .wings slot, dst := e, refresh := false, suspect := false }] } }) ∧
  (∀ (s : State), s.trl.jwritten < s.trl.jnext → s.trl.joldest + 1000000 ≤ s.wall ∨ 65536 ≤ s.trl.jbytes →
    exec .journalWrite s = .next { s with trl := { s.trl with jwritten := s.trl.jnext, jbytes := 0 } }) ∧
  (∀ (s : State), s.wall < s.trl.joldest + 1000000 → s.trl.jbytes < 65536 → exec .journalWrite s = .next s) ∧
  (∀ (s : State), ∃ u, exec .journalProgrammed s = .next (goOn (trimUndo u)) ∧ u.trl.jflash = s.trl.jwritten ∧
    u.trl.unflushed = s.trl.unflushed.filter (fun x => decide (s.trl.jwritten ≤ x.jseq))) ∧
  (∀ (s : State), s.trl.ckptBusy = false → s.trl.restored = true → s.trl.ckptAt + 600000000000 ≤ s.wall ∨ 4294967296 ≤ s.trl.jsince →
    ∃ t, exec .checkpointStart s = .next t ∧ t.trl = { s.trl with ckptBusy := true, ckptStart := s.cue.now }) ∧
  (∀ (v : W32) (s : State), s.trl.ckptBusy = false → s.trl.restored = true → writable s false = true → v.toNat.testBit 0 = true →
    ∃ t, exec (.trlCkptCtrl v) s = .next t ∧ t.trl = { s.trl with ckptBusy := true, ckptStart := s.cue.now }) ∧
  (∀ (s : State), s.trl.ckptBusy = true → ∃ t, exec .checkpointClosed s = .next t ∧ t.trl.ckptBusy = false ∧ t.trl.ckptCue = s.trl.ckptStart ∧
    t.trl.jsince = 0 ∧ t.obj.saved.board = s.obj.board ∧ t.obj.saved.privates = s.obj.privates) ∧
  (∀ (sb : Nat) (s : State), s.trl.restored = true → s.trl.victim = none → s.trl.refreshVictim = some sb →
    ∃ u, exec .reclaimBackground s = .next (eraseVictim sb u) ∧ u.trl.victim = some sb) ∧
  (∀ (sb : Nat) (s : State), s.trl.restored = true → s.trl.freeFrac < s.fgThreshold → s.trl.victim = none → s.trl.greedy < 3 → s.dev.phase ≠ .finalCurtain →
    s.trl.greedyVictim = some sb → ∃ u, exec .reclaimForeground s = .next (eraseVictim sb u) ∧ u.trl.victim = some sb) ∧
  (∀ (s : State), s.fgThreshold ≤ s.trl.freeFrac → exec .reclaimForeground s = .next s) ∧
  (∀ (o n r : Nat) (rest : List (Nat × Nat)) (s : State), s.trl.waiting = (o, n) :: rest → s.copyRatio = some r → n * r ≤ s.trl.credit →
    exec .placeAdmit s = .next (goOn { s with trl := { s.trl with waiting := rest } })) ∧
  (∀ (o n r : Nat) (rest : List (Nat × Nat)) (s : State), s.trl.waiting = (o, n) :: rest → s.copyRatio = some r → s.trl.credit < n * r →
    Tab.has s.scn.scenes o = true → exec .placeAdmit s = .next s) ∧
  (∀ (act k : Nat) (b : Band) (s : State), s.trl.restored = true → s.trl.freeBands act < 4 → s.trl.bands = [(k, b)] → b.act = act → b.closed = true → b.spare = false →
    b.retired = false → s.trl.validBand k = 0 →
    ∃ t, exec (.platterReclaim act) s = .next t ∧ Tab.find t.trl.bands k = some { b with spare := true, closed := false, written := 0 }) ∧
  (∀ (sb c : Nat) (b : StripeBlk) (s : State), Tab.find s.trl.sbs sb = some b → b.closed = some c → c + s.reg 0xA00064 365 * 86400000000000 ≤ s.cue.now →
    ∃ t, exec (.retentionExpiry sb) s = .next t ∧ Tab.find t.trl.sbs sb = some { b with refresh := true } ∧ sb ∈ t.trl.refreshQ)

/-- From R177-R184 and R213-R222: what the flash channels and decoders end with. A read's last LUN sends it to the decoders; an ended program completes its
row, a failed one closes its stripe block and restarts its copies; an ended erase frees its block with one more count; a stuck LUN is reset and
counted; a re-training keeps or gives up its channel; a decode ends, and a failed one climbs the ladder. -/
def Obligations.FlashOperationsEnd : Prop :=
  (∀ (rid l : Nat) (r : MediaRd) (x : LunState) (s : State), Tab.find s.flc.rds rid = some r → Tab.find s.flc.luns l = some x → x.reading = some rid →
    (∀ a b, r.src ≠ .flash a b) → r.todo.erase l ≠ [] →
    ∃ u, exec (.flashReadDone rid l) s = .next (pumpAll u) ∧ (Tab.find u.flc.rds rid).map (fun r => r.todo) = some (r.todo.erase l) ∧
      (Tab.find u.flc.luns l).map (fun x => x.reading) = some none) ∧
  (∀ (l sb : Nat) (o : FlashOp) (b : StripeBlk) (s : State), runningOp s l .program = some o → o.sb = some sb → Tab.find s.trl.sbs sb = some b →
    ∃ u, exec (.flashProgramDone l true) s = .next (goOn (pumpAll (commitCopies sb (inProgram o b.width (u.fgroup (chGroup (lunCh l))).setSlots sb) u))) ∧
      u.flc.ops = s.flc.ops.erase o ∧ u.trl = s.trl) ∧
  (∀ (l sb : Nat) (o : FlashOp) (s : State), runningOp s l .program = some o → o.sb = some sb →
    ∃ u, exec (.flashProgramDone l false) s = .next (goOn (pumpAll (programFail sb o.pos o.row true true u))) ∧ u.flc.ops = s.flc.ops.erase o) ∧
  (∀ (l : Nat) (o : FlashOp) (m : FreeBlk) (s : State), runningOp s l .erase = some o → o.sb = none → s.trl.freeBlks = [m] → m.blk = o.blk →
    (s.fgroup (chGroup m.blk.ch)).endurance = 0 → m.pe < 2 ^ 48 - 1 →
    ∃ u, exec (.flashEraseDone l true) s = .next (goOn (pumpAll u)) ∧ u.trl.freeBlks = [{ m with pe := m.pe + 1 }]) ∧
  (∀ (l k rid : Nat) (x y : LunState) (s : State), s.flc.luns = [(l, x), (k, y)] → l < k → inGroup (chGroup (lunCh l)) k = true → x.retired = false → x.resets = 0 →
    x.reading = some rid → x.lastStuck = none → y.retired = false → y.lastStuck = none →
    ∃ u, exec (.lunTimeout l) s = .next (goOn (pumpAll (failLunOp l true 2 u))) ∧
      Tab.find u.flc.luns l = some { x with stuck := x.stuck + 1, lastStuck := some s.wall, resets := 1 }) ∧
  (∀ (ch : Nat) (temp : Int) (s : State), ch < 32 → ch ∉ s.flc.deadCh → s.groupRuns (chGroup ch) = true →
    Tab.at s.flc.trainedAt ch 0 + s.reg 0xB00044 0x18 * 3600000000000 ≤ s.wall →
    ∃ t, exec (.channelRetrain ch true temp) s = .next t ∧ Tab.find t.flc.trainedAt ch = some s.wall ∧ Tab.find t.flc.trainedTemp ch = some temp ∧
      Tab.find t.flc.trainFails ch = none) ∧
  (∀ (ch : Nat) (temp : Int) (s : State), ch < 32 → ch ∉ s.flc.deadCh → s.groupRuns (chGroup ch) = true → Tab.find s.flc.trainFails ch = some 2 →
    ∃ u, exec (.channelRetrain ch false temp) s = .next (bumpReads (fun l => lunCh l == ch) 5 u) ∧ ch ∈ u.flc.deadCh) ∧
  (∀ (rid d iters : Nat) (r : MediaRd) (s : State), Tab.find s.flc.rds rid = some r → decoderOf s.flc rid = some d → r.soft = true → iters ≤ s.reg 0xC0000C 0x28 →
    ∃ u, exec (.decodeDone rid true iters none) s = .next (decoded rid r (count1 0xC00010 u)) ∧ u = releaseDecoder d s) ∧
  (∀ (rid d iters a b : Nat) (r : MediaRd) (s : State), Tab.find s.flc.rds rid = some r → decoderOf s.flc rid = some d → r.soft = true → r.src = .flash a b → r.step = 1 →
    exec (.decodeDone rid false iters none) s = .next (retryRead rid 2 (count1 0xC00018 (releaseDecoder d s))))

/-- From R191, R200 and R203: group replacement. EVACUATE, REMOVE, INSERT, CANCEL and RESUME move the group to its next state or are refused with ERR; an
evacuation and an insertion end. -/
def Obligations.GroupsAreReplaced : Prop :=
  (∀ (g : Nat) (s : State), writable s false = true → g < 4 → s.flc.hr = .idle → (s.fgroup g).faulted = false →
    s.trl.flash.charged ≤ 95 * dataSlots s (some g) / 100 →
    ∃ t, exec (.flcEvacuate g) s = .next t ∧ t.flc.hr = .evacuating ∧ t.flc.hrGroup = g ∧ t.flc.hrErr = 0) ∧
  (∀ (g : Nat) (s : State), writable s false = true → g < 4 → s.flc.hr = .idle → (s.fgroup g).faulted = false →
    95 * dataSlots s (some g) / 100 < s.trl.flash.charged →
    ∃ t, exec (.flcEvacuate g) s = .next t ∧ t.flc.hr = .idle ∧ t.flc.hrErr = 2) ∧
  (∀ (s : State), s.flc.hr = .evacuating → hrLeft s s.flc.hrGroup = 0 → ∃ t, exec .evacuationDone s = .next t ∧ t.flc.hr = .evacuated) ∧
  (∀ (g : Nat) (s : State), writable s false = true → g < 4 → s.flc.hr = .evacuated → s.flc.hrGroup = g → s.clkPlan.2.1.testBit (12 + g) = true →
    ∃ t, exec (.flcRemove g) s = .next t ∧ t.flc.hr = .removed ∧ (12 + g) ∈ t.clk.stopped ∧ (∀ p ∈ t.flc.luns, inGroup g p.1 = false) ∧
      ∀ m ∈ t.trl.freeBlks, chGroup m.blk.ch ≠ g) ∧
  (∀ (g : Nat) (s : State), writable s false = true → g < 4 → s.flc.hr = .evacuating → s.flc.hrGroup = g →
    ∃ t, exec (.flcRemove g) s = .next t ∧ t.flc.hr = .evacuating ∧ t.flc.hrErr = 4) ∧
  (∀ (g : Nat) (f : DieFacts) (s : State), writable s false = true → g < 4 → s.flc.hr = .removed → s.flc.hrGroup = g → f.geometryOk = false →
    ∃ t, exec (.flcInsert g false f) s = .next t ∧ t.flc.hr = .removed ∧ t.flc.hrErr = 5) ∧
  (∀ (g : Nat) (f : DieFacts) (s : State), writable s false = true → g < 4 → s.flc.hr = .removed → s.flc.hrGroup = g → f.geometryOk = true → f.brick = none → f.dead = [] →
    ∃ t, exec (.flcInsert g false f) s = .next t ∧ t.flc.hr = .inserting ∧ t.flc.hrErr = 0 ∧ (12 + g) ∉ t.clk.stopped) ∧
  (∀ (s : State), s.flc.hr = .inserting → s.flc.ops = [] → ∃ t, exec .insertionDone s = .next t ∧ t.flc.hr = .idle ∧ 92 * t.trl.flash.slots / 100 ≤ t.trl.flash.units) ∧
  (∀ (g : Nat) (s : State), writable s false = true → g < 4 → s.flc.hr = .evacuated → s.flc.hrGroup = g →
    ∃ t, exec (.flcCancel g) s = .next t ∧ t.flc.hr = .idle ∧ t.flc.hrErr = 0) ∧
  (∀ (g : Nat) (x : FlashGroup) (s : State), writable s false = true → g < 4 → s.flc.hr = .idle → Tab.find s.flc.groups g = some x → x.faulted = true →
    ∃ u, exec (.flcResume g true) s = .next (pumpAll u) ∧ Tab.find u.flc.groups g = some { x with faulted := false })

/-- From R227-R250: the read channel's data side. A good angle field stamps the wedge, a second bad one unlocks; a lane not relocked parks the actuator with an
automatic resume; a servo field is Hoop's sample and the write guard's check; a sync mark synchronises its lane or is counted as missed; a codeword
goes to its reserved decoder or to the lane buffer, and a decoder is given back; a write run ends whole. -/
def Obligations.ServoAndCodewordsWork : Prop :=
  (∀ (a : Nat) (f : AngleField) (s : State), s.present a = true → s.powered = true → f.phaseLong = false → (s.act a).locked = true → angleFieldOk f.word = true →
    bits f.word.toNat 19 11 = ((s.act a).wedge + 1) % 512 →
    ∃ t, exec (.angleField a f) s = .next t ∧ (t.act a).wedge = bits f.word.toNat 19 11 ∧ (t.act a).stampCue = s.cue.now ∧ (t.act a).bad = 0 ∧ (t.act a).locked = true) ∧
  (∀ (a : Nat) (f : AngleField) (s : State), s.present a = true → s.powered = true → f.phaseLong = false → (s.act a).locked = true → angleFieldOk f.word = false →
    ∃ t, exec (.angleField a f) s = .next t ∧ ((s.act a).bad = 0 → (t.act a).bad = 1 ∧ (t.act a).locked = true) ∧ ((s.act a).bad ≠ 0 → (t.act a).locked = false)) ∧
  (∀ (a t0 : Nat) (s : State), (s.act a).unlockedAt = some t0 → t0 + 100000000 ≤ s.wall → (s.act a).locked = false → s.present a = true → (s.act a).parked = false →
    (s.act a).parking = false → (s.act a).faultParks = [] →
    ∃ t, exec (.relockTimeout a) s = .next t ∧ (t.act a).parking = true ∧ (t.act a).resumeAsked = true ∧ (t.act a).cause = 1) ∧
  (∀ (a : Nat) (f : ServoField) (s : State), s.present a = true → s.powered = true → f.missing = false → f.companion = none →
    beyond f.pes (s.reg 0xD00008 0x78) = false →
    ∃ t, exec (.servoField a f) s = .next t ∧ (t.act a).sample = some ((65536 * f.track : Nat) + f.pes) ∧ (t.act a).track = f.track ∧ (t.act a).missing = 0 ∧
      (t.act a).writing = (s.act a).writing ∧ (t.act a).passCue = s.cue.now) ∧
  (∀ (a : Nat) (f : ServoField) (s : State), s.present a = true → s.powered = true → f.missing = false → f.companion = none →
    beyond f.pes (s.reg 0xD00008 0x78) = true → (s.act a).writing = true →
    ∃ t, exec (.servoField a f) s = .next t ∧ (t.act a).writing = false ∧ (t.act a).tripped = true ∧ (t.act a).run = none) ∧
  (∀ (a r : Nat) (w : SyncWindow) (s : State), (s.act a).lane0.rid = some r → w.signal = true →
    markAccepted (let t := s.reg 0xD00014 0x704; if ((Tab.find s.flc.rds r).map (fun x => x.step)).getD 1 = 3 then bits t 11 8 else bits t 3 0) w.mark = true → w.resync = none →
    ∃ t, exec (.sectorSync a 0 w) s = .next t ∧ (t.act a).lane0 = { (s.act a).lane0 with synced := true, noSignal := 0 }) ∧
  (∀ (a r : Nat) (x : MediaRd) (w : SyncWindow) (s : State), (s.act a).lane0.rid = some r → Tab.find s.flc.rds r = some x → w.signal = true →
    markAccepted (let t := s.reg 0xD00014 0x704; if x.step = 3 then bits t 11 8 else bits t 3 0) w.mark = false →
    ∃ t, exec (.sectorSync a 0 w) s = .next t ∧ (t.act a).lane0.rid = none ∧ Tab.find t.flc.rds r = some { x with step := max x.step 3 }) ∧
  (∀ (a r : Nat) (x : MediaRd) (s : State), (s.act a).lane0.rid = some r → (s.act a).lane0.synced = true → (s.act a).lane0.buf = [] → s.flc.resv = [] →
    Tab.find s.flc.rds r = some x → x.left ≤ 1 →
    ∃ t, exec (.codewordComplete a 0) s = .next t ∧ (t.act a).lane0.buf = [r] ∧ (t.act a).lane0.rid = none ∧ Tab.find t.flc.rds r = some { x with left := 0 }) ∧
  (∀ (a r d c : Nat) (x : MediaRd) (s : State), (s.act a).lane0.rid = some r → (s.act a).lane0.synced = true → s.flc.resv = [(d, a, 0, c)] →
    Tab.find s.flc.rds r = some x → x.left ≤ 1 →
    ∃ t, exec (.codewordComplete a 0) s = .next t ∧ Tab.find t.flc.decs d = some r ∧ t.flc.resv = [] ∧ (t.act a).lane0.buf = (s.act a).lane0.buf) ∧
  (∀ (d a l c : Nat) (s : State), Tab.find s.flc.resv d = some (a, l, c) → c + 2048 ≤ s.cue.now →
    ∃ t, exec (.reservationRelease d) s = .next t ∧ Tab.find t.flc.resv d = none ∧ ∀ e, e ≠ d → Tab.find t.flc.resv e = Tab.find s.flc.resv e) ∧
  (∀ (a : Nat) (r : WriteRun) (b : Band) (s : State), (s.act a).run = some r → Tab.find s.trl.bands r.band = some b →
    ∃ u, exec (.writeRunEnd a) s = .next (goOn (commitPlatterCopies a (countAdjacent r.band r u))) ∧ (u.act a).writing = false ∧ (u.act a).run = none ∧
      Tab.find u.trl.bands r.band = some { b with append := r.first + r.count, trips := (0, 0) })

/-- From R239-R256 and R279: the actuators. Shock inputs are remembered; a preamplifier fault parks the actuator with an automatic resume; frames are sent
again or done; calibrations run one lane at a time; an actuator parks, resumes and goes offline. -/
def Obligations.ActuatorsAreCommanded : Prop :=
  (∀ (mv : Nat) (s : State), s.powered = true → mv ≤ bits (s.reg 0xD00010 0x1900190) 11 0 →
    ∃ t, exec (.shockCrossing 0 mv) s = .next t ∧ t.rch.shock = setDel s.rch.shock 0 ∧ t.rch.acts = s.rch.acts) ∧
  (∀ (mv : Nat) (s : State), s.powered = true → bits (s.reg 0xD00010 0x1900190) 11 0 < mv → s.actuators = [0] → (s.act 0).writing = true →
    ∃ t, exec (.shockCrossing 0 mv) s = .next t ∧ (t.act 0).writing = false ∧ (t.act 0).tripped = true) ∧
  (∀ (a ns : Nat) (s : State), s.powered = true → s.present a = true → 200 ≤ ns → (s.act a).parked = false → (s.act a).parking = false → (s.act a).faultParks = [] →
    ∃ t, exec (.preampFault a ns) s = .next t ∧ (t.act a).parking = true ∧ (t.act a).resumeAsked = true ∧ (t.act a).faultParks = [s.wall] ∧ (t.act a).cause = 1) ∧
  (∀ (a n w : Nat) (data : BitVec 16) (rest : List PaFrame) (s : State), (s.act a).frames = { kind := .diag w, tries := n } :: rest → (s.act a).gated = false →
    ∃ t, exec (.preampFrameDone a data false) s = .next t ∧ (t.act a).frames = rest ∧ (t.act a).paDone = true ∧ (t.act a).paData = if w.testBit 23 then data.toNat else 0) ∧
  (∀ (a : Nat) (f : PaFrame) (data : BitVec 16) (rest : List PaFrame) (s : State), (s.act a).frames = f :: rest → f.tries < 2 → (s.act a).gated = false →
    ∃ t, exec (.preampFrameDone a data true) s = .next t ∧ (t.act a).frames = { f with tries := f.tries + 1 } :: rest) ∧
  (∀ (a : Nat) (data : BitVec 16) (b : Bool) (s : State), (s.act a).gated = true → exec (.preampFrameDone a data b) s = .next s) ∧
  (∀ (a : Nat) (s : State), writable s false = true → s.actState a = 0 → (s.act a).lane0.calibrating = false → (s.act a).lane1.calibrating = false →
    (∃ t, exec (.rchCalibrateL0 a) s = .next t ∧ (t.act a).lane0.calibrating = true ∧ (t.act a).lane0.rid = none ∧ (t.act a).calLane = 0 ∧ (t.act a).lane1 = (s.act a).lane1) ∧
    (∃ t, exec (.rchCalibrateL1 a) s = .next t ∧ (t.act a).lane1.calibrating = true ∧ (t.act a).lane1.rid = none ∧ (t.act a).calLane = 1 ∧ (t.act a).lane0 = (s.act a).lane0)) ∧
  (∀ (a : Nat) (s : State), writable s false = true → s.present a = true → (s.act a).parked = false → (s.act a).parking = false →
    ∃ t, exec (.rchPark a) s = .next t ∧ (t.act a).parking = true ∧ (t.act a).cause = 5 ∧ (t.act a).parks = ((s.act a).parks + 1) % 65536) ∧
  (∀ (a : Nat) (s : State), writable s false = true → s.present a = true → (s.act a).parking = false → (s.act a).parked = true → (s.act a).resuming = false →
    ∃ t, exec (.rchResume a) s = .next t ∧ (t.act a).resuming = true ∧ (t.act a).valid = 0 ∧ frame 5 a 0 ∈ t.hop.link.queue) ∧
  (∀ (a : Nat) (s : State), writable s false = true → s.present a = true → (s.act a).offline = false →
    ∃ t, exec (.rchOffline a) s = .next t ∧ (t.act a).offline = true ∧ (t.act a).lane0.rid = none ∧ (t.act a).lane1.rid = none) ∧
  (∀ (a : Nat) (temp : Int) (s : State), (s.act a).lane0.calAt = 0 → s.actState a = 0 → (s.act a).lane0.calibrating = false → (s.act a).lane1.calibrating = false →
    ∃ t, exec (.laneCalibrationDue a 0 temp) s = .next t ∧ (t.act a).lane0.calibrating = true ∧ (t.act a).lane0.calTemp = temp) ∧
  (∀ (a : Nat) (s : State), (s.act a).lane0.calibrating = true →
    ∃ t, exec (.laneCalibrationDone a 0 true) s = .next t ∧ (t.act a).lane0.calibrating = false ∧ (t.act a).lane0.calAt = s.wall ∧ (t.act a).calCount = ((s.act a).calCount + 1) % 65536) ∧
  (∀ (rid b sl a : Nat) (r : MediaRd) (s : State), Tab.find s.flc.rds rid = some r → r.src = .platter b sl → s.bandAct b = some a → (s.act a).offline = true →
    r.since + s.reg 0xD00020 0x7530 * 1000000 ≤ s.wall →
    exec (.offlineWaitExpiry rid) s = .next (endMediaRd rid true (failRead r.scene s))) ∧
  (∀ (a : Nat) (val : W32) (s : State), writable s false = true → a < 4 → (s.act a).paBusy = false →
    ∃ t, exec (.rchPaCmd a val) s = .next t ∧
      ((s.act a).parked = true → (t.act a).frames = (s.act a).frames ++ [{ kind := .diag (val.toNat % 2 ^ 24), tries := 0 }] ∧ (t.act a).paBusy = true) ∧
      ((s.act a).parked = false → (s.act a).offline = false → (t.act a).frames = (s.act a).frames ∧ (t.act a).paRefused = true))

/-- From R258-R272: Hoop. A sample boundary computes an enabled slot's ramp, error and output, or repeats its output where there is no measured value; slots are
switched on with a soft start and off; banks swap, coefficients go to the inactive bank; a set-point waits for the next boundary; profiles start and stop. -/
def Obligations.HoopComputesItsSamples : Prop :=
  (∀ (n : Nat) (m : Option Int) (v : Int) (s : State), 8 ≤ n → n < 64 → (s.slot n).en = true → s.powered = true → (s.slot n).newSp = none → (s.slot n).want = none →
    (s.slot n).soft = false → s.measured n m = some v →
    ∃ t, exec (.sampleBoundary n m) s = .next t ∧
      t.slot n = compensate (s.loop n) 0 (sat16 (rampStep (s.slot n).sp (s.loop n).rate (s.slot n).ramp - v))
        { s.slot n with ramp := rampStep (s.slot n).sp (s.loop n).rate (s.slot n).ramp }) ∧
  (∀ (n : Nat) (s : State), 9 ≤ n → n < 64 → (s.slot n).en = true → s.powered = true → (s.slot n).newSp = none → (s.slot n).want = none →
    s.measured n none = none →
    ∃ t, exec (.sampleBoundary n none) s = .next t ∧ (t.slot n).skipped = true ∧ (t.slot n).u = (s.slot n).u) ∧
  (∀ (n : Nat) (s : State), writable s false = true → n < 9 → (s.slot n).en = false →
    ∃ t, exec (.hopSlotEnable n) s = .next t ∧ t.slot n = { s.slot n with en := true, soft := true, limits := 0, offTrack := 0 }) ∧
  (∀ (n : Nat) (s : State), writable s false = true → n < 64 → 8 ≤ n →
    ∃ t, exec (.hopSlotDisable n) s = .next t ∧ t.slot n = { s.slot n with en := false, soft := false }) ∧
  (∀ (n : Nat) (s : State), writable s false = true → n < 8 → (s.slot n).en = true → s.present (n % 4) = true → (s.act (n % 4)).parked = false →
    (s.act (n % 4)).parking = false →
    ∃ t, exec (.hopSlotDisable n) s = .next t ∧ (t.act (n % 4)).parking = true ∧ (t.act (n % 4)).cause = 5) ∧
  (∀ (n : Nat) (bank atCue : Bool) (s : State), writable s false = true → n < 64 →
    ∃ t, exec (.hopBankRequest n bank atCue) s = .next t ∧ (t.slot n).want = (if bank = (s.slot n).bankB then none else some bank) ∧ (t.slot n).atCue = atCue ∧
      (t.slot n).bankB = (s.slot n).bankB) ∧
  (∀ (n i : Nat) (bank : Bool) (val : W32) (s : State), writable s false = true → n < 64 → i < 7 →
    ∃ t, exec (.hopCoeffWrite n bank i val false) s = .next t ∧ (bank = (s.slot n).bankB → t = s) ∧
      (bank ≠ (s.slot n).bankB → Tab.find (t.slot n).coef ((if bank then 8 else 0) + i) = some (toSigned 16 (val.toNat % 65536)))) ∧
  (∀ (n i : Nat) (bank : Bool) (val : W32) (s : State), writable s false = true → n < 64 → i < 7 → (s.slot n).want = some bank →
    ∃ t, exec (.hopCoeffWrite n bank i val true) s = .next t ∧ t.slot n = { s.slot n with wrLost := true }) ∧
  (∀ (q : Requester) (n : Nat) (hi : W32) (s : State), mayReach s q .house = true → writable s false = true → n < 64 → 9 ≤ n →
    ∃ t, exec (.hopSetpointWrite q n hi) s = .next t ∧
      (t.slot n).newSp = some (toSigned 32 (formed s q (0xE00808 + 0x40 * n) (s.reg (0xE00808 + 0x40 * n) 0) hi % 2 ^ 32)) ∧ (t.slot n).sp = (s.slot n).sp) ∧
  (∀ (q : Requester) (hi : W32) (s : State), mayReach s q .house = true → writable s false = true →
    toSigned 32 (formed s q 0xE00A08 (s.reg 0xE00A08 0) hi % 2 ^ 32) < 21600 → exec (.hopSetpointWrite q 8 hi) s = .next (useLow q 0xE00A08 s)) ∧
  (∀ (a first : Nat) (s : State), writable s false = true → a < 4 → first < 2048 →
    ∃ t, exec (.hopProfileStart a first) s = .next t ∧ (Tab.at t.hop.prof a {}) = { Tab.at s.hop.prof a {} with pending := some first }) ∧
  (∀ (a : Nat) (p : Stream270) (s : State), writable s false = true → a < 4 → Tab.find s.hop.prof a = some p →
    ∃ t, exec (.hopProfileStop a) s = .next t ∧ Tab.find t.hop.prof a = some { p with pending := none, stop := p.running })

/-- From R275-R282 and R285: the motor link. A frame is sent and the reply to the one before it checked; an idle link sends a NOP; a park that does not come ends
offline; a loaded actuator is normal again; a driver fault parks every actuator; heater frames, MLK_CMD and a resynchronisation are sent. -/
def Obligations.MotorLinkRuns : Prop :=
  (∀ (reply : W32) (f : LinkFrame) (s : State), s.hop.link.silent = false → s.powered = true → nextFrame s.hop.link.queue = some f → s.hop.link.prev = none →
    ∃ t, exec (.motorLinkFrame reply) s = .next t ∧ .linkFrame (frameWord f s.hop.link.seq) ∈ t.out ∧ t.hop.link.queue = s.hop.link.queue.erase f ∧
      t.hop.link.prev = some (f, s.hop.link.seq) ∧ t.hop.link.seq = (s.hop.link.seq + 1) % 4) ∧
  (∀ (reply : W32) (f p : LinkFrame) (k : Nat) (s : State), s.hop.link.silent = false → s.powered = true → nextFrame s.hop.link.queue = some f →
    s.hop.link.prev = some (p, k) →
    ∃ u, exec (.motorLinkFrame reply) s = .next (checkReply p k reply u) ∧ .linkFrame (frameWord f s.hop.link.seq) ∈ u.out ∧
      u.hop.link.prev = some (f, s.hop.link.seq)) ∧
  (∀ (s : State), s.powered = true → s.hop.link.silent = false → s.hop.link.queue = [] →
    ∃ t, exec .nopIdleTimer s = .next t ∧ t.hop.link.queue = [frame 0 0 0]) ∧
  (∀ (a : Nat) (s : State), (s.act a).parking = true → (s.act a).parkAt + s.reg 0xE00010 0x32 * 1000000 ≤ s.wall → (s.act a).offline = false →
    ∃ t, exec (.parkTimeout a) s = .next t ∧ (t.act a).parking = false ∧ (t.act a).offline = true ∧ frame 4 a 0 ∈ t.hop.link.queue) ∧
  (∀ (a : Nat) (m : Int) (s : State), (s.act a).resuming = true → s.hop.link.parked.testBit a = false → (s.act a).locked = true → 4 ≤ (s.act a).valid →
    ∃ u, exec (.actuatorLoaded a m) s = .next ((actSlots a).foldl (fun s n => enableSlot n s) u) ∧ (u.act a).resuming = false ∧ (u.act a).parked = false ∧
      (u.act a).offline = false ∧ (u.slot a).sp = (m + 32768) / 65536 * 65536) ∧
  (∀ (ns : Nat) (s : State), s.powered = true → 200 ≤ ns →
    ∃ t, exec (.driverFault ns) s = .next t ∧ frame 3 Config.driverFaultReg.toNat 0 ∈ t.hop.link.queue) ∧
  (∀ (a h : Nat) (v : Int) (s : State), a < 4 → h < 6 → Tab.find s.hop.heat (9 + 6 * a + h) = some v → (s.act a).gated = false →
    ∃ t, exec (.heaterFrameSend a h) s = .next t ∧ Tab.find t.hop.heat (9 + 6 * a + h) = none ∧
      (t.act a).frames = (s.act a).frames ++ [{ kind := .heater h v, tries := 0 }]) ∧
  (∀ (val : W32) (s : State), writable s false = true → s.hop.link.diagBusy = false → bits val.toNat 31 29 = 3 →
    ∃ t, exec (.mlkCmd val) s = .next t ∧ t.hop.link.diagBusy = true ∧ t.hop.link.done = false ∧
      { frame 3 (bits val.toNat 28 24) 0 with diag := true } ∈ t.hop.link.queue) ∧
  (∀ (val : W32) (s : State), writable s false = true → s.hop.link.diagBusy = false → bits val.toNat 31 29 = 2 → (s.slot 8).en = true →
    ∃ t, exec (.mlkCmd val) s = .next t ∧ t.hop.link.refused = true ∧ t.hop.link.queue = s.hop.link.queue) ∧
  (∀ (val : W32) (s : State), writable s false = true → val.toNat.testBit 0 = true → s.hop.link.silent = true →
    ∃ t, exec (.mlkResync val) s = .next t ∧ t.hop.link.silent = false ∧ t.hop.link.prev = none)

/-- R287-R301, R304, R306, R307, R309-R312: the Stage Manager and the retirement of Bobbins. TAIL moves or is turned away; BASE and SIZE of a busy ring
stay; a batch at HEAD is created whole, refused with its result, or waits for Intermission; a running task completes; a free place takes the task that
is picked; a window's save keeps a task; a Bobbin retires, and an Understudy takes its number. -/
def Obligations.StageAndBobbinsServe : Prop :=
  (∀ (r v : Nat) (s : State), r < 16 → writable s false = true → v < 65536 → ahead (s.ring r).head v ≤ s.ringSize r →
    ((s.ring r).head = (s.ring r).tail ∨ ahead (s.ring r).head (s.ring r).tail ≤ ahead (s.ring r).head v) →
    ∃ t, exec (.ringTailWrite r v) s = .next t ∧ t.ring r = { s.ring r with tail := v }) ∧
  (∀ (r v : Nat) (s : State), r < 16 → writable s false = true → v < 65536 → s.ringSize r < ahead (s.ring r).head v →
    ∃ t, exec (.ringTailWrite r v) s = .next t ∧ t.ring r = s.ring r) ∧
  (∀ (q : Requester) (r : Nat) (val : W32) (s : State), r < 16 → mayReach s q .house = true → writable s false = true →
    exec (.smgRingCtrlWrite q r 0 val) s = .next (holdLow q (ringBase r) (val &&& 0xFFFFFFC0) s) ∧
    ((s.ringOn r && (s.ring r).head != (s.ring r).tail) = false → exec (.smgRingCtrlWrite q r 1 val) s = .next (takeHigh q (ringBase r) val s) ∧
      exec (.smgRingCtrlWrite q r 2 val) s = .next (storeRw .house (ringCtrl r) val.toNat s)) ∧
    ((s.ringOn r && (s.ring r).head != (s.ring r).tail) = true → exec (.smgRingCtrlWrite q r 1 val) s = .next (useLow q (ringBase r) s) ∧
      (bits val.toNat 4 0 ≠ bits (s.reg (ringCtrl r) 0) 4 0 → exec (.smgRingCtrlWrite q r 2 val) s = .next s))) ∧
  (∀ (r : Nat) (s : State), s.ringOn r = true → r < 16 → (s.ring r).head ≠ (s.ring r).tail → leAt (batchAt s r).1 0 2 = 0 →
    1 ≤ ahead (s.ring r).head (s.ring r).tail → s.unitsRun = true → s.prk.intermission = [] →
    exec (.batchCreate r) s = .next (refuseBatch r 0 (leAt (batchAt s r).1 8 8) 1 (leAt (batchAt s r).1 0x10 4) (leAt (batchAt s r).1 4 2 % 2 ^ 13) s)) ∧
  (∀ (r n : Nat) (s : State), BatchWaits s r n → leAt (batchAt s r).1 2 2 = 0 → leAt (batchAt s r).1 4 2 = 0 → leAt (batchAt s r).1 6 2 = 0 → allZero (slice (batchAt s r).1 0x18 40) = true →
    leAt (batchAt s r).1 0x10 4 = 0xFFFFFFFE → (∀ p ∈ (List.range n).zip (batchAt s r).2, badDesc s n p.1 0 false p.2 = false) → taskRoom s 0 n = true →
    exec (.batchCreate r) s = .next (goOn (writeResult (leAt (batchAt s r).1 8 8) 0 0xFFFFFFFE (createBatch (batchAt s r).2 0 none (passBatch r n s)).1
      (createBatch (batchAt s r).2 0 none (passBatch r n s)).2))) ∧
  (∀ (h st i : Nat) (t : Task) (s : State), s.smg.now = [] → s.smg.resolve h = some (i, t) → s.runsNow i t = true → Tab.has s.bob.invs h = false →
    exec (.taskComplete h st) s = .next (retireAdvance (goOn (completeTask i st s)))) ∧
  (∀ (unit place l i : Nat) (t : Task) (s : State), s.smg.now = [] → unit ≠ 2 → unit ≠ 6 → unit ≠ 7 → unit < 20 → place < unitPlaces unit → placeTaken s unit place = false →
    s.unitsRun = true → pickSaved s unit place = none → pickTask s unit place = some (l, i, t) →
    ∃ u, exec (.taskDispatch unit place) s = .next (startTask i place t u) ∧ u.smg = { s.smg with turns := Tab.put s.smg.turns (unit * 256 + s.listPriority l) l } ∧ u.bob = s.bob) ∧
  (∀ (h i p e : Nat) (t : Task) (s : State), s.smg.resolve h = some (i, t) → t.phase = .running p → engineOf t.unit = some e → s.sealedTags ≠ [] → sealPlace s e p = true →
    t.unit ≠ 8 → ∃ u, exec (.sealedWindowSave h) s = .next u ∧ (Tab.find u.smg.tasks i).map (fun t => t.phase) = some .saved) ∧
  (∀ (val : W32) (s : State), writable s false = true → bits val.toNat 31 28 = 1 →
    (Tab.has s.bob.map (bits val.toNat 6 0) = false → ∃ t, exec (.bobRetire val) s = .next t ∧ t.bob = { s.bob with retireErr := 1 }) ∧
    (Tab.has s.bob.map (bits val.toNat 6 0) = true → s.bob.retiring.isSome = true → ∃ t, exec (.bobRetire val) s = .next t ∧ t.bob = { s.bob with retireErr := 2 }) ∧
    (∀ i rest, Tab.has s.bob.map (bits val.toNat 6 0) = true → s.bob.retiring = none → s.bobHeld (bits val.toNat 6 0) = i :: rest →
      ∃ t, exec (.bobRetire val) s = .next t ∧ t.bob.retireState = 1 ∧ t.bob.retireErr = 0 ∧
        t.bob.retiring = some { logical := bits val.toNat 6 0, cause := 5, run := some (s.smg.handle i), loading := none })) ∧
  (∀ (b : Nat) (s : State), s.bobHeld b ≠ [] → s.bobServes b = true → s.bob.retiring = none → exec (.bobbinWatchdog b) s = .next (nextRetire (beginRetire b 3 s))) ∧
  (∀ (core : Nat) (c : Core) (s : State), core < 104 → s.powered = true → (∀ p ∈ s.bob.map, p.2 ≠ core) → Tab.find s.bob.cores core = some c → c.role = 1 →
    ∃ t, exec (.bobbinSelftest core false) s = .next t ∧ t.core core = { c with role := 2, cause := 4 }) ∧
  (∀ (core : Nat) (s : State), exec (.bobbinSelftest core true) s = .next s) ∧
  (∀ (r : Retiring) (h : Nat) (s : State), s.bob.retiring = some r → r.run = some h →
    exec .retireGraceExpiry s = .next (nextRetire (loadUnderstudy { r with run := none } s))) ∧
  (∀ (r : Retiring) (k old : Nat) (s : State), s.bob.retiring = some r → r.loading = some k → Tab.find s.bob.map r.logical = some old → old ≠ k → s.bob.retireNext = [] →
    ∃ t, exec .understudyLoaded s = .next t ∧ Tab.find t.bob.map r.logical = some k ∧ (t.core k).role = 0 ∧ (t.core old).role = 2 ∧ (t.core old).cause = r.cause ∧
      t.bob.retiring = none ∧ t.bob.retireState = 3)

/-- From R320-R333 and R364-R377: invocations and their searches. An invocation returns within its budget or is stopped over it; a search helper charges its
invocation and returns its value and bytes, checked against the shadow; inserts and deletes are queued; a scan returns what it finds. -/
def Obligations.ProgramsSearchByHelper : Prop :=
  (∀ (h i : Nat) (t : Task) (v : Inv) (x : ExecReq) (r : InvResult) (s : State), s.inv h = some (i, t, v, x) → x.budget < v.charge + r.cycles →
    exec (.invocationComplete h r) s = .next (overBudget i t.tag v (invStores t.tag x r.stores s))) ∧
  (∀ (h i : Nat) (t : Task) (v : Inv) (x : ExecReq) (r : InvResult) (out : Bytes) (stop : Bool) (c : Scene) (s : State), s.inv h = some (i, t, v, x) → v.charge + r.cycles ≤ x.budget →
    Tab.find s.scn.scenes v.scene = some c → r.stores = [] → resultOf x.image v.plan c.data r.ret.toNat r.output r.state = some (out, stop) →
    ∃ u, exec (.invocationComplete h r) s = .next (retireAdvance (goOn (checkDone v.scene (deliverOuts
        (((Tab.find (keepResult v x.image out stop r.state u).bob.execs v.scene).map (fun e => e.outs.length)).getD 0 + 1) v.scene x (keepResult v x.image out stop r.state u))))) ∧
      Tab.find u.bob.invs h = none) ∧
  (∀ (h i : Nat) (t : Task) (v : Inv) (x : ExecReq) (l : List (Nat × Bytes)) (s : State), s.inv h = some (i, t, v, x) →
    exec (.budgetExhausted h l) s = .next (overBudget i t.tag v (invStores t.tag x l s))) ∧
  (∀ (h tb : Nat) (key mask : BitVec 128) (t : Task) (v : Inv) (s : State), Calls h 50 t v s → s.isSealed t.tag = false → s.asuHeld = false → tb < 32 →
    (s.asuTable tb).any (fun r => r.owner == t.tag) = true →
    (asuHits key mask (s.asuTab tb) = [] → Answers h 0 (searchBytes .miss false (s.asuTab tb).move.isSome) (exec (.pqAsuSearch h tb key mask []) s)) ∧
    (∀ i e l, asuHits key mask (s.asuTab tb) = (i, e) :: l → Tab.find (s.asuTab tb).shadow i = some e →
      Answers h 1 (searchBytes (.hit i e (min (l.length + 1) 255)) false (s.asuTab tb).move.isSome) (exec (.pqAsuSearch h tb key mask []) s))) ∧
  (∀ (h tb : Nat) (key mask : BitVec 128) (t : Task) (v : Inv) (s : State), Calls h 50 t v s → s.isSealed t.tag = false → s.asuHeld = false → tb < 32 →
    (s.asuTable tb).any (fun r => r.owner == t.tag) = false → Answers h (-2) [] (exec (.pqAsuSearch h tb key mask []) s)) ∧
  (∀ (h tb pos : Nat) (entry : Bytes) (t : Task) (v : Inv) (s : State), Calls h 50 t v s → s.isSealed t.tag = false → s.asuHeld = false → tb < 32 →
    (s.asuTable tb).any (fun r => r.owner == t.tag) = true → entry.length = 32 → allZero (entry.drop 24) = true →
    ∃ t', exec (.pqAsuInsert h tb entry pos) s = .next t' ∧ (t'.asuTab tb).queue = (s.asuTab tb).queue ++
      [{ inv := h, insert := some { key := BitVec.ofNat 128 (leAt entry 0 16), data := BitVec.ofNat 64 (leAt entry 16 8) }, pos := pos }] ∧
      (t'.asuTab tb).count = (s.asuTab tb).count) ∧
  (∀ (h tb i : Nat) (t : Task) (v : Inv) (s : State), Calls h 50 t v s → s.isSealed t.tag = false → s.asuHeld = false → tb < 32 →
    (s.asuTable tb).any (fun r => r.owner == t.tag) = true →
    ∃ t', exec (.pqAsuDelete h tb i) s = .next t' ∧ (t'.asuTab tb).queue = (s.asuTab tb).queue ++ [{ inv := h, insert := none, pos := i }] ∧
      (t'.asuTab tb).count = (s.asuTab tb).count) ∧
  (∀ (h tb cap : Nat) (src : Bytes) (t : Task) (v : Inv) (s : State), Calls h (50 + src.length / 64) t v s → s.isSealed t.tag = false → s.asuHeld = false → tb < 32 →
    (s.asuTable tb).any (fun r => r.owner == t.tag) = true → src.length ≤ 262144 → lengthSet (s.asuTab tb) = [] →
    Answers h 0 [] (exec (.pqAsuScan h tb src cap []) s))

/-- From R326-R333, R345 and R356-R360: the other helpers charge their invocation and return their value and bytes: digests, Smock jobs, CRC-64, comparisons,
copies, fences, events, the cue, and -4 after a wait too long. Where the chapter gives a helper no return value, the value is free (log entries on helpers). -/
def Obligations.ProgramsWorkByHelper : Prop :=
  (∀ (h alg : Nat) (src : Bytes) (t : Task) (v : Inv) (s : State), Calls h (50 + src.length / 64) t v s → s.isSealed t.tag = false → alg ≤ 3 → src.length ≤ 262144 →
    Answers h (digestLen alg) (digestOf alg src) (exec (.pqDigest h alg src) s)) ∧
  (∀ (h alg ctx : Nat) (src b : Bytes) (t : Task) (v : Inv) (s : State), Calls h (50 + src.length / 64) t v s → s.isSealed t.tag = false → alg ≤ 3 →
    (∃ t', exec (.pqDigestPart h alg ctx src true false) s = .next t' ∧ Tab.find t'.bob.parts (t.tag * 2 ^ 64 + ctx) = some (alg, src)) ∧
    (Tab.find s.bob.parts (t.tag * 2 ^ 64 + ctx) = some (alg, b) → ∃ r, 0 ≤ r ∧ Answers h r (digestOf alg (b ++ src)) (exec (.pqDigestPart h alg ctx src false true) s))) ∧
  (∀ (h fmt lvl cap : Nat) (src : Bytes) (t : Task) (v : Inv) (s : State), Calls h (50 + src.length / 64) t v s → s.isSealed t.tag = false → 1 ≤ fmt → fmt ≤ 3 → 1 ≤ lvl → lvl ≤ 9 →
    src.length ≤ 262144 →
    Answers h (smockReturn (compressEnd fmt lvl s.smockLanes.2.2.2.1 cap src)).1 (smockReturn (compressEnd fmt lvl s.smockLanes.2.2.2.1 cap src)).2
      (exec (.pqCompress h fmt lvl src cap) s)) ∧
  (∀ (h fmt cap : Nat) (src : Bytes) (t : Task) (v : Inv) (s : State), Calls h (50 + src.length / 64) t v s → s.isSealed t.tag = false → 1 ≤ fmt → fmt ≤ 3 →
    Answers h (smockReturn (decompressEnd fmt cap none src)).1 (smockReturn (decompressEnd fmt cap none src)).2 (exec (.pqDecompress h fmt src cap) s)) ∧
  (∀ (h : Nat) (src a b : Bytes) (prev : BitVec 64) (t : Task) (v : Inv) (s : State), Calls h 50 t v s →
    Answers h (crc64From prev.toNat src) [] (exec (.pqCrc64 h src prev) s) ∧ Answers h (cmpBytes a b) [] (exec (.pqMemCmp h a b) s)) ∧
  (∀ (h : Nat) (src : Bytes) (t : Task) (v : Inv) (s : State), Calls h (20 + src.length / 64) t v s →
    ∃ r, 0 ≤ r ∧ Answers h r src (exec (.pqMemCopy h none src) s)) ∧
  (∀ (h kind : Nat) (t : Task) (v : Inv) (s : State), Calls h 50 t v s →
    (2 < kind → Answers h (-1) [] (exec (.pqFence h kind) s)) ∧ (kind ≤ 2 → ∃ r, 0 ≤ r ∧ Answers h r [] (exec (.pqFence h kind) s))) ∧
  (∀ (h ix : Nat) (a b : BitVec 64) (t : Task) (v : Inv) (s : State), Calls h 50 t v s → ix ≤ 63 →
    (v.events < 64 → ∃ t', exec (.pqRaiseEvent h ix a b) s = .next t' ∧ (Tab.find t'.bob.invs h).map (fun v => v.events) = some (v.events + 1)) ∧
    (64 ≤ v.events → Answers h 0 [] (exec (.pqRaiseEvent h ix a b) s))) ∧
  (∀ (h : Nat) (t : Task) (v : Inv) (s : State), Calls h 50 t v s →
    Answers h (if s.isSealed t.tag then v.cue else s.cue.now) [] (exec (.pqCueNow h) s)) ∧
  (∀ (h : Nat) (t : Task) (v : Inv) (s : State), Calls h 0 t v s → Answers h (-4) [] (exec (.helperTimeout h) s))

/-- R338-R360, R370-R374: ASU updates and the walk, Smock's jobs, Tally's jobs and the tenant-window slots. An update waits its turn, moves entries and is
placed, or is refused at a full table; the walk repairs a bank entry from its shadow; a Smock job stores its output and its record; a Tally message of one
part writes its digest; a slot starts, takes words, ends and fails. -/
def Obligations.SearchAndJobEnginesWork : Prop :=
  (∀ (tb h : Nat) (e : AsuEntry) (r : AsuTableRec) (rest : List AsuUpdate) (s : State), s.asuTable tb = some r → (s.asuTab tb).queue = { inv := h, insert := some e, pos := 2 ^ 64 - 1 } :: rest →
    (s.asuTab tb).move = none → asuRuns s r.owner = true → (s.asuTab tb).count ≠ r.limit →
    ∃ t, exec (.asuUpdateStart tb) s = .next t ∧ (t.asuTab tb).count = (s.asuTab tb).count + 1 ∧ (t.asuTab tb).queue = rest ∧
      Tab.find (t.asuTab tb).bank (s.asuTab tb).count = some e ∧ Tab.find (t.asuTab tb).shadow (s.asuTab tb).count = some e) ∧
  (∀ (tb h p : Nat) (e : AsuEntry) (r : AsuTableRec) (rest : List AsuUpdate) (s : State), s.asuTable tb = some r → (s.asuTab tb).queue = { inv := h, insert := some e, pos := p } :: rest →
    (s.asuTab tb).move = none → asuRuns s r.owner = true → (s.asuTab tb).count ≠ r.limit → p < (s.asuTab tb).count → (s.asuTab tb).count < 2 ^ 64 →
    ∃ t, exec (.asuUpdateStart tb) s = .next t ∧ (t.asuTab tb).move = some { upd := { inv := h, insert := some e, pos := p }, left := (s.asuTab tb).count - p, hole := none } ∧
      (t.asuTab tb).count = (s.asuTab tb).count) ∧
  (∀ (tb h p : Nat) (e : AsuEntry) (r : AsuTableRec) (v : Inv) (rest : List AsuUpdate) (s : State), s.asuTable tb = some r → (s.asuTab tb).queue = { inv := h, insert := some e, pos := p } :: rest →
    (s.asuTab tb).move = none → asuRuns s r.owner = true → (s.asuTab tb).count = r.limit → Tab.find s.bob.invs h = some v →
    ∃ t, exec (.asuUpdateStart tb) s = .next t ∧ (Tab.find t.bob.invs h).map (fun v => v.result) = some (-6) ∧ (t.asuTab tb).count = r.limit) ∧
  (∀ (tb h : Nat) (r : AsuTableRec) (rest : List AsuUpdate) (s : State), s.asuTable tb = some r →
    (s.asuTab tb).queue = { inv := h, insert := none, pos := (s.asuTab tb).count - 1 } :: rest → (s.asuTab tb).move = none → asuRuns s r.owner = true → 0 < (s.asuTab tb).count →
    ∃ t, exec (.asuUpdateStart tb) s = .next t ∧ (t.asuTab tb).count = (s.asuTab tb).count - 1 ∧ Tab.find (t.asuTab tb).bank ((s.asuTab tb).count - 1) = none ∧
      Tab.find (t.asuTab tb).shadow ((s.asuTab tb).count - 1) = none) ∧
  (∀ (tb : Nat) (r : AsuTableRec) (s : State), s.asuHeld = false → s.powered = true → s.bankTable s.asu.walkBank = some (tb, r) → (s.asuTab tb).hole = none → s.asu.walkRow + 1 < 16384 →
    ∃ t, exec (.asuWalk none) s = .next t ∧ t.asu.walkRow = s.asu.walkRow + 1 ∧ t.asu.walkBank = s.asu.walkBank ∧
      Tab.find (t.asuTab tb).bank ((s.asu.walkBank - r.first) * 16384 + s.asu.walkRow) = Tab.find (s.asuTab tb).shadow ((s.asu.walkBank - r.first) * 16384 + s.asu.walkRow)) ∧
  (∀ (h i op : Nat) (t : Task) (j : SmockJob) (e : SmockEnd) (s : State), op ≤ 1 → s.smg.now = [] → engineTask s 8 h = some (i, t) → t.stopping = false →
    smockJobOf (s.dramRead t.job 64) = j → j.op = op → smockEnd s.smockLanes.2.2.2.1 j (s.dramRead t.job 64) (s.dramRead j.src j.srcLen) = e → e.status = 0 →
    ∃ u, exec (if op = 0 then .smockCompress h else .smockDecompress h none) s = .next (endEngine i 0 u) ∧
      u.dram = (writeRecord t (smockRecord 0 e.out.length (if bit j.flags 0 then crc64 e.out else 0)) (dramStore j.dst e.out s)).dram) ∧
  (∀ (h i : Nat) (t : Task) (j : TallyJob) (s : State), s.smg.now = [] → engineTask s 7 h = some (i, t) → t.stopping = false → t.job < slotJob →
    tallyJobOf (s.dramRead t.job 64) = j → tallyOk j (s.dramRead t.job 64) = true → partInvalid j = false → j.first = true → j.final = true → j.compares = false → j.alg < 16 → bit j.flags 3 = false →
    exec (.tallyJob h false false none) s = .next (endEngine i 0 (freeJobCtx t (writeRecord t (tallyRecord 0 j.ctx (0, 0)
      (tallyDigest j.alg none (s.dramRead j.src j.len ++ (s.dramRead (j.src + j.len) 8).take j.lastVb))) s)))) ∧
  (∀ (h i st : Nat) (t : Task) (j : TallyJob) (s : State), s.smg.now = [] → engineTask s 7 h = some (i, t) → t.stopping = false → t.job < slotJob →
    tallyJobOf (s.dramRead t.job 64) = j → st = (if tallyOk j (s.dramRead t.job 64) then 0x89 else 0x01) → (tallyOk j (s.dramRead t.job 64) = false ∨ partInvalid j = true) →
    exec (.tallyJob h false false none) s = .next (failTally i h t st s)) ∧
  (∀ (tag j : Nat) (val : W32) (s : State), j < 4 → bits val.toNat 31 28 = 1 → writable s false = true → (s.tslot (slotNo tag j)).state = 0 → bit val.toNat 8 = false → bit val.toNat 2 = false →
    bits val.toNat 20 16 < 16 → digestLen (bits val.toNat 20 16) ≠ 0 →
    ∃ t, exec (.twTlyStart tag j val) s = .next t ∧ (t.tslot (slotNo tag j)).state = 1 ∧ (t.tslot (slotNo tag j)).alg = bits val.toNat 20 16 ∧ (t.tslot (slotNo tag j)).fifo = []) ∧
  (∀ (tag j : Nat) (s : State), j < 4 → writable s false = true → (s.tslot (slotNo tag j)).state = 1 →
    ∃ t, exec (.twTlyAbort tag j) s = .next t ∧ (t.tslot (slotNo tag j)).state = 4 ∧ (t.tslot (slotNo tag j)).err = 0x05) ∧
  (∀ (q : Requester) (tag j : Nat) (hi : W32) (s : State), j < 4 → mayReach s q (.tenant tag) = true → writable s false = true → (s.tslot (slotNo tag j)).state = 1 →
    ((s.tslot (slotNo tag j)).fifo.length < 4096 → ∃ u, exec (.twTlyDataHi q tag j hi) s = .next (slotTask (slotNo tag j) u) ∧
      (u.tslot (slotNo tag j)).fifo = (s.tslot (slotNo tag j)).fifo ++ leBytes 8 (formed s q (tenantKey tag (0x1020 + 0x40 * j)) 0 hi)) ∧
    (4096 ≤ (s.tslot (slotNo tag j)).fifo.length → ∃ t, exec (.twTlyDataHi q tag j hi) s = .next t ∧ (t.tslot (slotNo tag j)).state = 4 ∧ (t.tslot (slotNo tag j)).err = 0x04)) ∧
  (∀ (tag j vb : Nat) (s : State), j < 4 → writable s false = true → (s.tslot (slotNo tag j)).state = 1 →
    (vb ≤ 8 → (s.tslot (slotNo tag j)).fifo.length < 4096 → ∃ u, exec (.twTlyLastVb tag j vb) s = .next (slotTask (slotNo tag j) u) ∧ (u.tslot (slotNo tag j)).last = true ∧
      (u.tslot (slotNo tag j)).state = 2 ∧
      (u.tslot (slotNo tag j)).fifo = (s.tslot (slotNo tag j)).fifo ++ (leBytes 8 (s.reg64 (tenantKey tag (0x1028 + 0x40 * j)))).take vb) ∧
    (8 < vb → vb < 16 → ∃ t, exec (.twTlyLastVb tag j vb) s = .next t ∧ (t.tslot (slotNo tag j)).state = 4 ∧ (t.tslot (slotNo tag j)).err = 0x89)) ∧
  (∀ (tag j : Nat) (s : State), j < 4 → (s.tslot (slotNo tag j)).state = 1 → (s.tslot (slotNo tag j)).lastWrite + s.reg 0x700018 0x2710 * 1000000 ≤ s.wall →
    ∃ t, exec (.tallyStreamIdle tag j) s = .next t ∧ (t.tslot (slotNo tag j)).state = 4 ∧ (t.tslot (slotNo tag j)).err = 0x03)

/-- R383-R394, R399, R401, R403, R404: Scrim. A job of each mode that needs no counter block runs on its pipeline, a failed tag fails it; a derivation is
made, held during a switchover or refused; a counter block on flash moves the reserve; slots are erased; the tenant commands derive or erase and answer;
a failed health test halts the DRBG, and a creation that waits for it fails. -/
def Obligations.ScrimServesKeysAndJobs : Prop :=
  (∀ (h i : Nat) (t : Task) (j : ScrJob) (c : ScrCtx) (s : State), s.smg.now = [] → engineTask s 6 h = some (i, t) → t.stopping = false →
    scrJobOf (s.dramRead t.job 64) = j → scrOk j (s.dramRead t.job 64) = true → scrStart s t j = .go c →
    ∀ q ∈ [(0, Instr.xtsEncrypt h), (1, Instr.xtsDecrypt h), (2, Instr.gcmEncrypt h), (3, Instr.gcmDecrypt h), (4, Instr.cmacGenerate h), (5, Instr.cmacVerify h)], j.op = q.1 →
      ((scrPart s j c).bad = true → exec q.2 s = .next (failScr i h j.op t 0x03 s)) ∧
      ((scrPart s j c).bad = false → j.withSeal = false → ∃ u, exec q.2 s = .next (endPart i t j c (scrPart s j c) u) ∧ u.dram = s.dram ∧ u.smg = s.smg)) ∧
  (∀ (r : DeriveReq) (k : Nat) (s : State), deriveRefused s r = false → s.saf.switching = none → r.purpose ≤ 2 → holdsKey s r = false → cacheSlot s r.tenant = some k →
    ∃ t, exec (.keyDerivation r) s = .next t ∧ (t.keySlot k).key = deriveKey s r ∧ (t.keySlot k).kind = kindOf r.purpose ∧ (t.keySlot k).owner = r.tenant ∧
      (t.keySlot k).epoch = r.epoch ∧ (t.keySlot k).gen = ((s.keySlot k).gen + 1) % 65536) ∧
  (∀ (r : DeriveReq) (s : State), deriveRefused s r = false → s.saf.switching.isSome = true →
    ∃ t, exec (.keyDerivation r) s = .next t ∧ t.scr.queue = s.scr.queue ++ [(r, none)] ∧ t.scr.slots = s.scr.slots) ∧
  (∀ (r : DeriveReq) (s : State), deriveRefused s r = true → s.powered = true → exec (.keyDerivation r) s = .next (refuseDerive r s)) ∧
  (∀ (k : Nat) (s : State), (s.keySlot k).kind = 2 → (s.keySlot k).requested = true → (s.keySlot k).waiting = [] → (s.keySlot k).blockEnd < rollAt → (s.keySlot k).counter < rollAt →
    ∃ t, exec (.counterBlockOnFlash k) s = .next t ∧ (t.keySlot k).blockEnd = (s.keySlot k).blockEnd + 65536 ∧
      Tab.find t.scr.reserved (reserveKey (s.keySlot k).nsid (s.keySlot k).epoch) = some ((s.keySlot k).blockEnd + 65536)) ∧
  (∀ (s : State), writable s false = true → (s.keySlot (s.reg 0x900038 0)).kind = 0 →
    ∃ t, exec .scrSlotErase s = .next t ∧ t.keySlot (s.reg 0x900038 0) = { gen := ((s.keySlot (s.reg 0x900038 0)).gen + 1) % 65536, owner := (s.keySlot (s.reg 0x900038 0)).owner }) ∧
  (∀ (s : State), writable s false = true → exec .scrSlotErase s = .next (eraseSlot (s.reg 0x900038 0) s)) ∧
  (∀ (tag ix k : Nat) (s : State), writable s false = true → s.keyBusy tag = false → s.keySel tag = some k → fixedKind (s.keySlot k) = false → keepsCache s tag k = true → s.saf.switching = none →
    (deriveRefused s { tag := tag, purpose := 3, tenant := tag, nsid := 0, epoch := 0, index := ix % 65536 } = false →
      ∃ t, exec (.twKeyDeriveMac tag ix) s = .next t ∧ Tab.find t.scr.results tag = some keyDone ∧ (t.keySlot k).kind = 4 ∧ (t.keySlot k).owner = tag ∧
        (t.keySlot k).key = deriveKey s { tag := tag, purpose := 3, tenant := tag, nsid := 0, epoch := 0, index := ix % 65536 }) ∧
    (deriveRefused s { tag := tag, purpose := 4, tenant := tag, nsid := 0, epoch := 0, index := ix % 65536 } = false →
      ∃ t, exec (.twKeyDeriveCmac tag ix) s = .next t ∧ Tab.find t.scr.results tag = some keyDone ∧ (t.keySlot k).kind = 5 ∧ (t.keySlot k).owner = tag ∧
        (t.keySlot k).key = deriveKey s { tag := tag, purpose := 4, tenant := tag, nsid := 0, epoch := 0, index := ix % 65536 })) ∧
  (∀ (tag ix : Nat) (s : State), writable s false = true → s.keyBusy tag = false → s.keySel tag = none →
    ∃ t, exec (.twKeyDeriveMac tag ix) s = .next t ∧ Tab.find t.scr.results tag = some (keyRefused 1) ∧ t.scr.slots = s.scr.slots) ∧
  (∀ (tag k : Nat) (s : State), writable s false = true → s.keyBusy tag = false → s.keySel tag = some k →
    (fixedKind (s.keySlot k) = true → ∃ t, exec (.twKeyErase tag) s = .next t ∧ Tab.find t.scr.results tag = some (keyRefused 3) ∧ t.scr.slots = s.scr.slots) ∧
    (fixedKind (s.keySlot k) = false → ∃ t, exec (.twKeyErase tag) s = .next t ∧ Tab.find t.scr.results tag = some keyDone ∧ t.scr.slots = (eraseSlot k s).scr.slots)) ∧
  (∀ (s : State), s.powered = true → ∃ t, exec .entropyHealthFail s = .next t ∧ t.scr.halted = true ∧ t.scr.rngOk = false ∧ t.scr.rngFails = min (s.scr.rngFails + 1) 65535) ∧
  (∀ (o : Nat) (c : Scene) (s : State), s.scr.halted = true → s.scn.scenes = [(o, c)] → c.kind = .nsCreate → c.decided = false →
    exec .entropyRestartTimeout s = .next (goOn (rollBack o stInternal s)))

/-- From R400, R414-R418, R424 and R425: the Safety Curtain. An alarm erases the root key and enters Curtain Down, a second one is counted; a mesh loop that differs twice
alarms; SPDM requests are answered; a failover starts a switchover, or enters Curtain Down without a standby; a switchover ends. -/
def Obligations.CurtainFalls : Prop :=
  (∀ (kind n : Nat) (s : State), s.powered = true → n < sensorsOf kind → s.dev.phase ≠ .curtainDown → s.saf.alarm = none →
    ∃ t, exec (.tamperAlarm kind n) s = .next t ∧ t.dev.phase = .curtainDown ∧ t.saf.rootErased = true ∧ t.saf.alarm = some (kind, n % 256) ∧
      t.saf.alarms = min (s.saf.alarms + 1) (2 ^ 32 - 1)) ∧
  (∀ (kind n : Nat) (s : State), s.powered = true → n < sensorsOf kind → s.dev.phase = .curtainDown →
    ∃ t, exec (.tamperAlarm kind n) s = .next t ∧ t.dev.phase = .curtainDown ∧ t.saf.alarms = min (s.saf.alarms + 1) (2 ^ 32 - 1) ∧ t.scr = s.scr ∧ t.scn = s.scn) ∧
  (∀ (k : Nat) (a b : W32) (s : State), k < 4 → s.powered = true →
    (∃ t, exec (.meshCheck k a a) s = .next t ∧ t.saf = { s.saf with meshBad := setDel s.saf.meshBad k } ∧ t.dev = s.dev) ∧
    (a ≠ b → s.saf.meshBad.contains k = false → ∃ t, exec (.meshCheck k a b) s = .next t ∧ k ∈ t.saf.meshBad ∧ t.dev = s.dev) ∧
    (a ≠ b → s.saf.meshBad.contains k = true → s.dev.phase ≠ .curtainDown → ∃ t, exec (.meshCheck k a b) s = .next t ∧ t.dev.phase = .curtainDown ∧ t.saf.rootErased = true)) ∧
  (∀ (r : SpdmReq) (s : State), s.runs = true → spdmFrom s r.req = true →
    (spdmSigns r.kind = false → ∃ t, exec (.spdmRequest r) s = .next t ∧ .spdm r.req (spdmReply s r) ∈ t.out) ∧
    (spdmSigns r.kind = true → s.saf.rootErased = true → ∃ t, exec (.spdmRequest r) s = .next t ∧ .spdm r.req (.error 0x05) ∈ t.out ∧ t.saf = s.saf) ∧
    (r.kind = .finish → s.saf.rootErased = false → s.saf.switching = none →
      ∃ t, exec (.spdmRequest r) s = .next t ∧ .spdm r.req .finish ∈ t.out ∧ t.saf.sessions = min (s.saf.sessions + 1) 255)) ∧
  (∀ (s : State), s.powered = true → s.saf.switching = none →
    (s.saf.standbyReady = true → ∃ t, exec .safetyCurtainFailover s = .next t ∧ t.saf.switching = some true ∧ t.saf.failovers = min (s.saf.failovers + 1) 65535 ∧ t.dev = s.dev) ∧
    (s.saf.standbyReady = false → s.dev.phase ≠ .curtainDown → ∃ t, exec .safetyCurtainFailover s = .next t ∧ t.dev.phase = .curtainDown ∧ t.saf.rootErased = true)) ∧
  (∀ (ok failover : Bool) (s : State), s.saf.switching = some failover → s.saf.held = none →
    ∃ t, exec (.switchoverDone ok) s = .next t ∧ t.saf.switching = none ∧ t.saf.imageActive = s.saf.imageStandby ∧
      t.saf.imageStandby = (if ok then s.saf.imageActive else 0) ∧ t.saf.standbyReady = ok)

/-- From R421-R423: the Trapdoor. Its instructions select their registers; its challenge is drawn, fails, expires, or is recorded and then opens it in Curtain Down; a record
that does not come in time leaves it closed in Curtain Down. -/
def Obligations.TrapdoorGuards : Prop :=
  (∀ (s : State), s.powered = true →
    (∃ t, exec .tdIdcode s = .next t ∧ t.saf.tdCode = 0x01 ∧ t.saf.tdData = field 0xB 4 28 + field 0x7400 16 12 + field Config.manufacturer.toNat 11 1 + 1) ∧
    (∃ t, exec (.tdBypass 0xFF) s = .next t ∧ t.saf.tdCode = 0xFF ∧ t.saf.tdData = 0)) ∧
  (∀ (s : State), s.powered = true → s.trapdoorPolicy.1 = 1 → s.saf.td = .closed → s.saf.fails < 3 → s.scr.halted = false →
    ∃ t, exec .tdNonce s = .next t ∧ t.saf.nonce = some ((drawSecret s).1, s.wall) ∧ t.saf.tdCode = 0x20 ∧ t.saf.tdData = (drawSecret s).1.toNat ∧ t.saf.tdErr = 0) ∧
  (∀ (r : TdResponse) (s : State), s.powered = true → s.trapdoorPolicy.1 = 1 → s.saf.td = .closed → s.saf.fails < 3 → s.saf.switching = none →
    (s.validNonce = none → ∃ t, exec (.tdResponse r) s = .next t ∧ t.saf.tdErr = 1 ∧ t.saf.td = .closed ∧ t.saf.fails = s.saf.fails) ∧
    (∀ n, s.validNonce = some n → r.keyDigest ≠ s.trapdoorPolicy.2 →
      ∃ t, exec (.tdResponse r) s = .next t ∧ t.saf.tdErr = 2 ∧ t.saf.td = .closed ∧ t.saf.fails = min (s.saf.fails + 1) 3 ∧ t.saf.nonce = none) ∧
    (∀ n, s.validNonce = some n → r.keyDigest = s.trapdoorPolicy.2 → r.verifies = true → r.nonce = n → r.serial = s.dev.serial → r.powerCycles = s.evt.powerCycles →
      ∃ t, exec (.tdResponse r) s = .next t ∧ t.saf.td = .recording ∧ t.saf.rootErased = true ∧ t.scr.blocked = true ∧ t.saf.tdStart = s.wall)) ∧
  (∀ (s : State), s.powered = true → s.trapdoorPolicy.1 = 1 →
    (∃ t, exec .tdStatus s = .next t ∧ t.saf.tdCode = 0x22 ∧ t.saf.tdData = s.tdStatus) ∧
    (s.saf.td = .open' →
      (∃ t, exec .tdExtest s = .next t ∧ t.saf.tdCode = 0x00 ∧ t.saf.tdData = s.saf.scan) ∧
      (∃ t, exec .tdSamplePreload s = .next t ∧ t.saf.tdCode = 0x02 ∧ t.saf.scan = t.saf.tdData) ∧
      (∃ t, exec .tdDebug s = .next t ∧ t.saf.tdCode = 0x30))) ∧
  (∀ (s : State), s.powered = true → s.trapdoorPolicy.1 = 0 →
    (∃ t, exec .tdStatus s = .next t ∧ t.saf.tdCode = 0xFF) ∧ (∃ t, exec .tdDebug s = .next t ∧ t.saf.tdCode = 0xFF)) ∧
  (∀ (n : BitVec 256) (w : Nat) (s : State), s.saf.nonce = some (n, w) → w + nonceLife ≤ s.wall → ∃ t, exec .nonceExpiry s = .next t ∧ t.saf = { s.saf with nonce := none }) ∧
  (∀ (s : State), s.saf.td = .recording → s.powered = true → s.dev.phase ≠ .curtainDown →
    ∃ t, exec .trapdoorRecordWritten s = .next t ∧ t.saf.td = .open' ∧ t.dev.phase = .curtainDown) ∧
  (∀ (s : State), s.saf.td = .recording → s.powered = true → s.saf.tdStart + 1000000000 ≤ s.wall → s.dev.phase ≠ .curtainDown →
    ∃ t, exec .trapdoorRecordTimeout s = .next t ∧ t.saf.td = .closed ∧ t.saf.tdErr = 4 ∧ t.dev.phase = .curtainDown)

/-- From R430, R438 and R441-R445: a request to an address in the interleave that nothing makes wait is served; outside the interleave it stops with a fault of its
own; refreshes close rows; temperatures are kept and move the timing set; a change of the timing set goes from its request through re-lock to its end,
and is tried again; an idle channel sleeps. -/
def Obligations.DramServesItsRequests : Prop :=
  (∀ (n a : Nat) (f : List (Nat × BitVec 80)) (use : DramUse) (l : Bytes) (s : State), DramServes s a →
    (∃ u, exec (.dramRead n a f use) s = .next (readLine n a f use u) ∧ u.dram = s.dram ∧ u.dmc.words = s.dmc.words) ∧
    (∃ u, exec (.dramWrite n a l) s = .next (writeLine a l u) ∧ u.dram = s.dram ∧ u.dmc.words = s.dmc.words) ∧
    (∃ u, exec (.mergeWrite n a l f use) s = .next (mergeLines n f use (l.length / 64 + 2) a l u) ∧ u.dram = s.dram ∧ u.dmc.words = s.dmc.words)) ∧
  (∀ (n a : Nat) (f : List (Nat × BitVec 80)) (use : DramUse) (l : Bytes) (s : State), s.runs = true → s.dmc.mask ≠ 0 → s.dramHas a = false →
    exec (.dramRead n a f use) s = .fault (.outsideDram a) ∧ exec (.dramWrite n a l) s = .fault (.outsideDram a) ∧ exec (.mergeWrite n a l f use) s = .fault (.outsideDram a)) ∧
  (∀ (ch rank bank : Nat) (s : State), s.runs = true → Tab.at s.dmc.ch ch 0 ≠ 0 → bank < 32 → rank < 2 →
    ∃ t, exec (.refreshDue ch rank bank false) s = .next t ∧ (Tab.at t.dmc.banks (ch * 64 + rank * 32 + bank) {}).row = none ∧
      (Tab.at t.dmc.banks (ch * 64 + rank * 32 + bank) {}).acts = (Tab.at s.dmc.banks (ch * 64 + rank * 32 + bank) {}).acts) ∧
  (∀ (ch rank c r : Nat) (s : State), s.runs = true → Tab.at s.dmc.ch ch 0 ≠ 0 → rank < 2 → c < 256 → s.dmc.freq = .idle → s.dmc.retState ≠ 1 →
    ∃ t, exec (.rankRateRead ch rank c r) s = .next t ∧ Tab.find t.dmc.temp (ch * 2 + rank) = some c ∧ Tab.find t.dmc.rates (ch * 2 + rank) = some r ∧
      (bits (s.reg 0x1000018 0x5A0050) 23 16 < c → s.dmc.setB = false → t.dmc.freq = .entering ∧ t.dmc.toB = true)) ∧
  (∀ (t0 : Nat) (s : State), s.dmc.coolSince = some t0 → t0 + 1000000000 ≤ s.wall → s.dmc.setB = true → s.dmc.freq = .idle → s.dmc.retState ≠ 1 →
    ∃ t, exec .thermalReturnTimer s = .next t ∧ t.dmc.freq = .entering ∧ t.dmc.toB = false ∧ t.dmc.attempts = 1) ∧
  (∀ (s : State), writable s false = true → s.dmc.freq = .idle → s.dmc.retState ≠ 1 →
    (s.dmc.setB = true → ∃ t, exec .dmcFreqToA s = .next t ∧ t.dmc.freq = .entering ∧ t.dmc.toB = false ∧ t.dmc.attempts = 1 ∧ t.dmc.freqStart = s.cue.now) ∧
    (s.dmc.setB = false → exec .dmcFreqToA s = .next s ∧
      ∃ t, exec .dmcFreqToB s = .next t ∧ t.dmc.freq = .entering ∧ t.dmc.toB = true ∧ t.dmc.attempts = 1 ∧ t.dmc.freqStart = s.cue.now)) ∧
  (∀ (s : State), s.dmc.freq = .entering → ∃ t, exec .selfRefreshCommitted s = .next t ∧ t.dmc.freq = .relock ∧ t.clk.dramRelock = true) ∧
  (∀ (s : State), s.dmc.freq = .relock → ∃ t, exec .pllRelocked s = .next t ∧ t.dmc.freq = .exiting ∧ t.dmc.setB = s.dmc.toB ∧ t.clk.dramMts = s.setRate s.dmc.toB ∧
    t.clk.dramRelock = false ∧ t.clk.dramLock = true) ∧
  (∀ (s : State), s.dmc.freq = .exiting → s.dmc.waiting = [] → s.dmc.freqWaits = none →
    ∃ t, exec .txsElapsed s = .next t ∧ t.dmc.freq = .idle ∧ t.dmc.exits = [] ∧ t.dmc.lastTook = min ((s.cue.now - s.dmc.freqStart) / 100) 65535) ∧
  (∀ (s : State), s.dmc.freq = .retry → s.dmc.waiting = [] → ∃ t, exec .freqChangeRetry s = .next t ∧ t.dmc.freq = .entering ∧ t.dmc.attempts = s.dmc.attempts + 1) ∧
  (∀ (ch : Nat) (s : State), s.reg 0x100001C 200 ≠ 0 → s.runs = true → Tab.at s.dmc.ch ch 0 = 1 → s.dmc.freq = .idle →
    Tab.at s.dmc.lastReq ch 0 + s.reg 0x100001C 200 * 1000 ≤ s.wall → s.dmc.exits.contains ch = false →
    ∃ t, exec (.idleSelfRefresh ch) s = .next t ∧ Tab.at t.dmc.ch ch 0 = 2)

/-- From R446-R451: a DRAM PLL that comes back goes on, one that does not halts the device; the scrubber moves on; an SRAM word reads clean, and a corrected one is put
right and logged; channels retire block by block. -/
def Obligations.MemoriesAreScrubbedAndRetired : Prop :=
  (∀ (s : State), s.runs = true → s.dmc.mask ≠ 0 → s.dmc.freq = .idle → s.dmc.waiting = [] → 0 < s.dmc.unlockTries →
    (∃ t, exec (.dramPllUnlock true) s = .next t ∧ t.dmc.unlockTries = 0 ∧ t.clk.dramLock = true) ∧
    (s.dmc.unlockTries = 1 → ∃ t, exec (.dramPllUnlock false) s = .next t ∧ t.dmc.unlockTries = 2) ∧
    (s.dmc.unlockTries = 2 → ∃ u, exec (.dramPllUnlock false) s = .next (halt (rollBackAll u)) ∧ u.dmc.unlockTries = 3)) ∧
  (∀ (last : Bool) (s : State), s.runs = true → s.dmc.sram = [] →
    ∃ t, exec (.scrubLine [] (some last)) s = .next t ∧ t.dmc.sramPos = (if last then 0 else s.dmc.sramPos + 1) ∧
      t.dmc.sramPasses = (if last then (s.dmc.sramPasses + 1) % 65536 else s.dmc.sramPasses)) ∧
  (∀ (f : List (Nat × BitVec 80)) (s : State), s.runs = true → dramWaits s 4 0 0 0 = false → exec (.scrubLine f none) s = .next (scrubDram f s)) ∧
  (∀ (m n a : Nat) (use : DramUse) (s : State), s.powered = true → Tab.find s.dmc.sram (m * 2 ^ 32 + a) = none → exec (.sramRead m n a 0 use) s = .next s) ∧
  (∀ (m n a : Nat) (s : State), s.powered = true → Tab.find s.dmc.sram (m * 2 ^ 32 + a) = none →
    ∃ t, exec (.sramRead m n a 1 .none) s = .next t ∧ Tab.find t.dmc.sram (m * 2 ^ 32 + a) = none ∧ t.dmc.log.length = min (s.dmc.log.length + 1) 32) ∧
  (∀ (ch : Nat) (s : State), writable s false = true → ch < 4 → s.dmc.retState = 0 →
    (Tab.at s.dmc.ch ch 0 = 0 → ∃ t, exec (.dmcRetire ch) s = .next t ∧ t.dmc.retErr = 1 ∧ t.dmc.retState = 0) ∧
    (Tab.at s.dmc.ch ch 0 = 1 → s.dramChannels.length = 2 → s.dmc.retiredThisCycle = false → s.allocSlabs * 2 ≤ s.totalSlabs → s.allocSlabs ≠ 0 →
      ∃ t, exec (.dmcRetire ch) s = .next t ∧ t.dmc.retState = 1 ∧ t.dmc.retCh = ch ∧ t.dmc.toCopy = s.allocSlabs ∧ Tab.at t.dmc.ch ch 0 = 3)) ∧
  (∀ (s : State), s.dmc.retState = 1 → s.runs = true → s.dmc.waiting = [] → s.dmc.freqWaits = none →
    (s.dmc.copied + 1 < s.dmc.toCopy → ∃ t, exec .blockCopyDone s = .next t ∧ t.dmc.copied = s.dmc.copied + 1 ∧ t.dmc.retState = 1 ∧ (Tab.find t.dmc.remap s.dmc.copied).isSome = true) ∧
    (s.dmc.copied + 1 = s.dmc.toCopy → ∃ t, exec .blockCopyDone s = .next t ∧ t.dmc.retState = 2 ∧ Tab.at t.dmc.ch s.dmc.retCh 0 = 4 ∧
      t.dev.boot.dramRetired = s.dev.boot.dramRetired ||| 2 ^ s.dmc.retCh))

/-- R432: the word code. Its generator is (x + 1) m1(x) m3(x), m1 = x^7 + x^3 + 1 and m3 = x^7 + x^3 + x^2 + x + 1, which has the cube of m1's root as a
zero: m1 divides m3(x^3). A stored word holds the data in bits 0-63, the poison bit in bit 64 and the check bits above, and is a multiple of the
generator. Decoding has the four outcomes. Every error of one or two bits is corrected, and every error of three bits is detected. -/
def Obligations.WordCodeCorrectsTwoBits : Prop :=
  (∃ y q : Nat, y = (0x8F <<< 7) ^^^ (0x8F <<< 3) ^^^ 0x8F ∧ codePoly = (y <<< 1) ^^^ y ∧
    (q <<< 7) ^^^ (q <<< 3) ^^^ q = 2 ^ 21 ^^^ 2 ^ 9 ^^^ 2 ^ 6 ^^^ 2 ^ 3 ^^^ 1) ∧
  (∀ (d : Nat) (p : Bool), d < 2 ^ 64 →
    (encodeWord d p).toNat % 2 ^ 64 = d ∧ (encodeWord d p).toNat.testBit 64 = p ∧
    (encodeWord d p).toNat / 2 ^ 65 = codeMod 80 ((d + if p then 2 ^ 64 else 0) * 2 ^ 15) ∧ syndrome (encodeWord d p) = 0) ∧
  (∀ (w : BitVec 80) (l : List Nat), FewErrors l → syndrome w = errorsSyndrome l →
    decodeWord w = { kind := if (flipBits w l).toNat.testBit 64 then .poisoned else if l = [] then .clean else .corrected
                     data := (flipBits w l).toNat % 2 ^ 64, fixed := l }) ∧
  (∀ w : BitVec 80, (∀ l, FewErrors l → syndrome w ≠ errorsSyndrome l) →
    decodeWord w = { kind := .uncorrectable, data := w.toNat % 2 ^ 64, fixed := [] }) ∧
  (∀ (d : Nat) (p : Bool) (l : List Nat), d < 2 ^ 64 → FewErrors l →
    decodeWord (flipBits (encodeWord d p) l) = { kind := if p then .poisoned else if l = [] then .clean else .corrected, data := d, fixed := l }) ∧
  (∀ (d : Nat) (p : Bool) (a b c : Nat), a < b → b < c → c < 80 → (decodeWord (flipBits (encodeWord d p) [a, b, c])).kind = .uncorrectable)

/-- R433: a word found uncorrectable is rewritten with its data as read, P = 1 and the check bits of R432: it decodes as poisoned, and so it does with up to
two further bit errors, and never as clean or corrected. -/
def Obligations.PoisonStays : Prop :=
  ∀ (unit source w : Nat) (x : Decoded) (s : State), x.data < 2 ^ 64 →
    (poisonWord unit source w x s).storedWord w = encodeWord x.data true ∧
    ∀ l, FewErrors l → decodeWord (flipBits ((poisonWord unit source w x s).storedWord w) l) = { kind := .poisoned, data := x.data, fixed := l }

/-- R434, R438: a read of a line whose words are stored clean gives its unit the 64 bytes of the line, none flagged poisoned, and changes no byte of DRAM. -/
def Obligations.DramReadGivesTheLine : Prop :=
  ∀ (n a : Nat) (use : DramUse) (s : State), DramServes s a → memWf s.dram = true → (∀ k, k < 8 → Tab.find s.dmc.words (a / 64 * 8 + k) = none) →
    ∃ t, exec (.dramRead n a [] use) s = .next t ∧ t.out = .dramData n (64 * (a / 64)) (memRead s.dram (64 * (a / 64)) 64) [] :: s.out ∧
      (∀ b, memGet t.dram b = memGet s.dram b) ∧ memWf t.dram = true

/-- R433, R438: a write of a whole line stores its 64 bytes, byte by byte, and leaves every other byte of DRAM as it was; every word of the line is clean
afterwards, and no other word's stored code changes. -/
def Obligations.DramWriteStoresTheLine : Prop :=
  ∀ (n a : Nat) (l : Bytes) (s : State), DramServes s a → memWf s.dram = true → l.length = 64 →
    ∃ t, exec (.dramWrite n a l) s = .next t ∧
      (∀ i, (h : i < l.length) → memGet t.dram (64 * (a / 64) + i) = l[i]) ∧
      (∀ b, b < 64 * (a / 64) ∨ 64 * (a / 64) + 64 ≤ b → memGet t.dram b = memGet s.dram b) ∧
      (∀ w, Tab.find t.dmc.words w = if a / 64 * 8 ≤ w ∧ w < a / 64 * 8 + 8 then none else Tab.find s.dmc.words w) ∧ memWf t.dram = true

/-- R435: a narrow write within a line whose words are stored clean stores exactly its bytes: every other byte of DRAM reads as before, and the line stays
clean. -/
def Obligations.NarrowWriteMerges : Prop :=
  ∀ (n a : Nat) (l : Bytes) (use : DramUse) (s : State), DramServes s a → memWf s.dram = true → l ≠ [] → a % 64 + l.length ≤ 64 →
    (∀ k, k < 8 → Tab.find s.dmc.words (a / 64 * 8 + k) = none) →
    ∃ t, exec (.mergeWrite n a l [] use) s = .next t ∧
      (∀ i, (h : i < l.length) → memGet t.dram (a + i) = l[i]) ∧
      (∀ b, b < a ∨ a + l.length ≤ b → memGet t.dram b = memGet s.dram b) ∧
      (∀ k, k < 8 → Tab.find t.dmc.words (a / 64 * 8 + k) = none) ∧ memWf t.dram = true

/-- R437: a narrow write that covers in part a poisoned word is refused as a whole: no byte of DRAM changes, the word stays poisoned, the requester gets an error,
and what it works for fails. -/
def Obligations.PoisonRefusesTheMerge : Prop :=
  ∀ (n a w : Nat) (l : Bytes) (use : DramUse) (s : State), DramServes s a → memWf s.dram = true → l ≠ [] → a % 64 + l.length ≤ 64 →
    a / 64 * 8 ≤ w → w < a / 64 * 8 + 8 → coverOf a l.length w = .part →
    Tab.find s.dmc.words w = some (encodeWord (leNat (memRead s.dram (8 * w) 8)) true) →
    (∀ v, a / 64 * 8 ≤ v → v < a / 64 * 8 + 8 → v ≠ w → Tab.find s.dmc.words v = none) →
    ∃ u, exec (.mergeWrite n a l [] use) s = .next (refusedMerge use u) ∧ .dramError n a ∈ u.out ∧ (∀ b, memGet u.dram b = memGet s.dram b) ∧
      u.storedWord w = s.storedWord w ∧ (decodeWord (u.storedWord w)).kind = .poisoned

/-- R457-R475: the event fabric and the Sampler. A unit's event is raised, and nothing is raised in Dark; a page open for one second is closed and waits
for its copies; a page programmed to a copy no longer waits for it; the cursors select the record the windows show; a tenant's notification control is
written, and MSIX = 1 binds the function. -/
def Obligations.EventsAreRaisedAndKept : Prop :=
  (∀ (e : Event) (s : State), (s.powered = true → exec (.eventRaise e) s = .next (raise e.source e.code e.arg0 e.arg1 e.tag s)) ∧
    (s.powered = false → exec (.eventRaise e) s = .next s)) ∧
  (∀ (p t0 : Nat) (s : State), s.evt.pageTimer = [(p, t0)] →
    (t0 + 1000000000 ≤ s.wall → ∃ t, exec .samplerPageTimer s = .next t ∧ t.evt = closePage p s.evt) ∧
    (s.wall < t0 + 1000000000 → exec .samplerPageTimer s = .next s)) ∧
  (∀ (p : Nat) (s : State), s.evt.secWait = [] →
    (∃ t, exec (.samplerPageProgrammed 1 p) s = .next t ∧ t.evt = { s.evt with
      wait1 := Tab.del s.evt.wait1 p, oldCopies := if Tab.del s.evt.wait1 p = [] ∧ s.evt.wait2 = [] then none else s.evt.oldCopies }) ∧
    (∃ t, exec (.samplerPageProgrammed 2 p) s = .next t ∧ t.evt = { s.evt with
      wait2 := Tab.del s.evt.wait2 p, oldCopies := if s.evt.wait1 = [] ∧ Tab.del s.evt.wait2 p = [] then none else s.evt.oldCopies })) ∧
  (∀ (q : Requester) (hi : W32) (s : State), mayReach s q .house = true → writable s true = true →
    ∃ t, exec (.smpCursorWrite q hi) s = .next t ∧
      t.evt.cursor = { foot := (formed s q 0x1280038 (s.reg 0x1280038 0) hi).testBit 63, number := formed s q 0x1280038 (s.reg 0x1280038 0) hi % 2 ^ 48 }) ∧
  (∀ (q : Requester) (tag : Nat) (hi : W32) (s : State), mayReach s q (.tenant tag) = true → writable s true = true →
    ∃ t, exec (.twSmpCursorWrite q tag hi) s = .next t ∧
      Tab.find t.evt.tenantCursor tag = some (formed s q (tenantKey tag 0x3010) (s.reg (tenantKey tag 0x3010) 0) hi)) ∧
  (∀ (fn tag v : Nat) (val : W32) (s : State), mayReach s (.function (fn / 2 ^ 15) (fn % 2 ^ 15)) (.tenant tag) = true → writable s false = true → tag ≠ 0 →
    rwValue s (.tenant tag) 0x6040 val.toNat = some v → v < 2 ^ 32 →
    ∃ t, exec (.twEvtCtrlWrite fn tag val) s = .next t ∧ t.reg (tenantKey tag 0x6040) 0 = v ∧ (v.testBit 31 = true → Tab.find t.evt.boundFn tag = some fn))

/-- From R476-R488 and R501: the device leaves reset when the conditions of R480 are met; the boot ROM boots the first slot that verifies or ends in recovery; GO and
HOLD are written; Rehearsal starts cool, its steps start in order and end with their effect, or fail to House Lights; late actuators go offline. -/
def Obligations.DeviceStartsAndRehearses : Prop :=
  (∀ (c : PowerConditions) (s : State), s.powered = false → s.dev.perstHigh = false →
    (c.refclkStable = true → c.railsStable = true → c.lossHigh = true → ∃ t, exec (.resetRelease c) s = .next t ∧ t.dev.booting = true ∧ t.dev.perstHigh = true ∧
      t.wall = 0 ∧ t.cue.now = 0 ∧ t.evt.powerCycles = (s.evt.powerCycles + 1) % 2 ^ 24 ∧ t.clk.rootLock = true) ∧
    (c.refclkStable = false → ∃ t, exec (.resetRelease c) s = .next t ∧ t.dev.booting = s.dev.booting ∧ t.dev.waitSupplies = true ∧ t.dev.perstHigh = true)) ∧
  (∀ (s : State), s.dev.perstHigh = true → s.dev.waitSupplies = true →
    ∃ t, exec .supplyConditionsMet s = .next t ∧ t.dev.booting = true ∧ t.dev.waitSupplies = false ∧ t.wall = 0) ∧
  (∀ (k : Nat) (x : FwSlot) (s : State), s.powered = false → s.dev.booting = true → s.dev.boot.order.find? (fun k => !s.dev.tried.contains k) = some k → Tab.find s.dev.fwSlots k = some x →
    x.readable = true → x.verifies = true → s.dev.fwFloor ≤ x.svn →
    ∃ t, exec (.firmwareSlotRead true true) s = .next t ∧ t.dev.booted = k ∧ t.dev.bootedSvn = x.svn ∧ t.dev.phase = .houseLights ∧ t.dev.booting = false) ∧
  (∀ (k : Nat) (s : State), s.powered = false → s.dev.booting = true → s.dev.boot.order.find? (fun k => !s.dev.tried.contains k) = some k →
    (∀ j ∈ s.dev.boot.order, j = k ∨ s.dev.tried.contains j = true) →
    ∃ t, exec (.firmwareSlotRead false false) s = .next t ∧ t.dev.recovery = true ∧ t.dev.phase = .houseLights) ∧
  (∀ (s : State), writable s false = true →
    (s.dev.phase = .houseLights → ∃ t, exec .devGo s = .next t ∧ t.dev = { s.dev with go := true }) ∧
    (∃ t, exec .devSetHold s = .next t ∧ t.dev.boot.hold = true ∧ t.dev.boot.seq = s.dev.boot.seq + 1 ∧ t.dev.boot.copyB = !s.dev.boot.copyB) ∧
    (∃ t, exec .devClearHold s = .next t ∧ t.dev.boot.hold = false ∧ t.dev.boot.seq = s.dev.boot.seq + 1)) ∧
  (∀ (s : State), s.mayRehearse = true → s.dev.waitTemp = false →
    (s.composite ≤ (s.tempThrottleAt : Int) * 256 → ∃ t, exec .rehearsalStart s = .next t ∧ t.dev.phase = .rehearsal ∧ t.dev.rehStarted = [] ∧ t.dev.rehDone = [] ∧
      t.dev.rehStart = s.wall) ∧
    ((s.tempThrottleAt : Int) * 256 < s.composite → ∃ t, exec .rehearsalStart s = .next t ∧ t.dev = { s.dev with waitTemp := true })) ∧
  (∀ (b : Nat) (s : State), s.dev.phase = .rehearsal → s.runs = true → b < 9 → s.dev.rehStarted.contains b = false → (stepNeeds b).all (fun n => s.dev.rehDone.contains n) = true →
    b ≠ 6 → ∃ t, exec (.rehearsalStepStart b) s = .next t ∧ t.dev.rehStarted = s.dev.rehStarted ++ [b]) ∧
  (∀ (l : List Nat) (s : State), s.dev.phase = .rehearsal → s.runs = true → s.dev.rehStarted = [2] → s.dev.rehDone = [] →
    ∃ t, exec (.rehearsalStepDone 2 (.cores l)) s = .next t ∧ t.dev.rehDone = [2] ∧ t.bob.map = (mapBobbins l s).bob.map ∧ t.dev.phase = .rehearsal) ∧
  (∀ (s : State), s.dev.phase = .rehearsal → s.runs = true → s.dev.rehStarted.contains 5 = true → s.dev.rehDone.contains 5 = false → s.dev.formatted = false →
    ∃ t, exec (.rehearsalStepDone 5 (.map false)) s = .next t ∧ t.dev.phase = .houseLights ∧ t.dev.rehearsalFail = true ∧ t.dev.rehErrStep = 5 ∧ t.dev.rehErrCode = 3) ∧
  (∀ (a : Nat) (s : State), s.dev.phase = .rehearsal → s.dev.rehStart + 40000000000 ≤ s.wall → s.present a = true → s.actState a ≠ 0 →
    exec (.actuatorLoadDeadline a) s = .next (goOffline a s))

/-- From R489-R498 and R507: a loss or PERST_N stops the device, the seal halts it, Dark keeps what media and floors keep; temperatures are kept and throttle the
device; the core voltage rises with age; the power estimate is kept; a rail out of tolerance is recorded. -/
def Obligations.PowerAndLifeGoOn : Prop :=
  (∀ (ns : Nat) (s : State), (ns < 2000 → exec (.powerLoss ns) s = .next s) ∧
    (2000 ≤ ns → s.powered = true → s.pwr.harbour = none → s.dev.halted = false →
      ∃ u, exec (.powerLoss ns) s = .next (stopDevice 0 u) ∧ u.dev = { s.dev with lossHigh := false })) ∧
  (∀ (ns : Nat) (s : State), (ns < 2000 → exec (.perstAssert ns) s = .next s) ∧
    (2000 ≤ ns → s.dev.perstHigh = true → s.pwr.harbour.isSome = true → ∃ t, exec (.perstAssert ns) s = .next t ∧ t.pwr.perstDeferred = true ∧ t.dev.perstHigh = false ∧
      t.dev.phase = s.dev.phase) ∧
    (2000 ≤ ns → s.dev.perstHigh = true → s.pwr.harbour = none → s.dev.halted = true →
      ∃ t, exec (.perstAssert ns) s = .next t ∧ t.dev.phase = .dark ∧ t.prk.floor = s.prk.floor ∧ t.dev.fwFloor = s.dev.fwFloor)) ∧
  (∀ (h : Harbour) (s : State), s.pwr.harbour = some h →
    (s.dev.perstHigh = true → ∃ t, exec .harbourSeal s = .next t ∧ t.pwr.harbour = none ∧ t.dev.halted = true ∧ t.pwr.sealedPin = true ∧ t.trl.sealed = true ∧
      t.pwr.holdupLast = min ((s.wall - h.start) / 1000) (2 ^ 32 - 1)) ∧
    (s.dev.perstHigh = false → ∃ t, exec .harbourSeal s = .next t ∧ t.dev.phase = .dark)) ∧
  (∀ (n : Nat) (s : State), ∃ t, exec (.suppliesRemoved n) s = .next t ∧ t.dev.phase = .dark ∧ t.prk.floor = s.prk.floor ∧ t.dev.fwFloor = s.dev.fwFloor ∧
    t.dev.boot = s.dev.boot ∧ t.prk.slot0 = s.prk.slot0 ∧ t.prk.slot1 = s.prk.slot1) ∧
  (∀ (l : List Int) (s : State), s.powered = true → l.length = 8 → sensorAlarm l = none → State.hotAt { s with pwr := { s.pwr with temps := l } } s.tempWarnAt = false →
    State.hotAt { s with pwr := { s.pwr with temps := l } } s.tempThrottleAt = false → State.hotAt { s with pwr := { s.pwr with temps := l } } s.tempShutdownAt = false →
    exec (.temperatureSample l) s = .next { s with pwr := { s.pwr with temps := l, tempWarn := false } }) ∧
  (∀ (s : State), s.pwr.throttling = true → s.pwr.throttleAt + 100000000 ≤ s.wall → s.hotAt s.tempThrottleAt = true →
    ∃ t, exec .throttleStep s = .next t ∧ t.pwr.throttlePct = max 30 (s.pwr.throttlePct - 10) ∧ t.pwr.throttleAt = s.wall ∧ t.pwr.throttling = true) ∧
  (∀ (m : Nat) (s : State), s.powered = true → s.pwr.ageAt ≤ s.opSeconds → m < 65536 →
    ∃ t, exec (.agingMeasure m) s = .next t ∧ t.pwr.ageMargin = m ∧ t.pwr.ageAt = s.opSeconds + 604800 ∧
      t.pwr.vcoreReq = if m < 50 ∧ s.pwr.vcoreReq + 5 ≤ 850 then s.pwr.vcoreReq + 5 else s.pwr.vcoreReq) ∧
  (∀ (mw : Nat) (s : State), s.powered = true → ∃ t, exec (.powerEstimateUpdate mw) s = .next t ∧ t.pwr = { s.pwr with powerMw := mw % 2 ^ 17 }) ∧
  (∀ (r mv : Nat) (s : State), r < 11 → s.powered = true → mv < 65536 →
    ∃ t, exec (.railOutOfTolerance r mv) s = .next t ∧ Tab.find t.pwr.railMv r = some mv ∧
      t.pwr.railGood = if s.railOk r mv then s.pwr.railGood ||| 2 ^ r else s.pwr.railGood &&& (allRails ^^^ 2 ^ r))
end

