-- ==== Sys2Proof/Laws/Events.lean ====
section
/-! SUPPORT. Record numbers: what the Sampler's operations do to the next record number (R466). -/
namespace Sys2Proof.Machine

@[simp] theorem closePage_next (page : Nat) (e : EvtState) : (closePage page e).next = e.next := by
  unfold closePage
  dsimp only
  split <;> rfl

@[simp] theorem closeAllPages_next (e : EvtState) : (closeAllPages e).next = e.next := by
  unfold closeAllPages
  generalize e.pageTimer = l
  induction l generalizing e with
  | nil => rfl
  | cons p l ih => rw [List.foldl_cons, ih, closePage_next]

/-- A new record takes the next number (R466). -/
theorem acceptNew_next (ev : RaisedEvent) (sev opSec wall : Nat) (e : EvtState) : (acceptNew ev sev opSec wall e).next = e.next + 1 := by
  unfold acceptNew
  dsimp only
  split
  · rw [closePage_next]
  · rfl

theorem acceptNew_next_le (ev : RaisedEvent) (sev opSec wall : Nat) (e : EvtState) :
    e.next ≤ (acceptNew ev sev opSec wall e).next := by rw [acceptNew_next]; exact Nat.le_succ _

@[simp] theorem acceptMerge_next (slot : Nat) (r : EvRec) (ev : RaisedEvent) (e : EvtState) : (acceptMerge slot r ev e).next = e.next := rfl

end Sys2Proof.Machine
end

