-- ==== Sys2Proof/Laws/Mem.lean ====
section
/-! SUPPORT. Byte memories: read after write, and that every operation keeps the canonical form. -/
namespace Sys2Proof.Machine

theorem memOk_mono {lo hi : Nat} {m : List Host.Cell} (h : memOk hi m = true) (hl : lo ≤ hi) : memOk lo m = true := by
  cases m with
  | nil => rfl
  | cons c t =>
    simp only [memOk, Bool.and_eq_true, decide_eq_true_eq] at h ⊢
    exact ⟨⟨Nat.le_trans hl h.1.1, h.1.2⟩, h.2⟩

theorem memSet_ok {lo a : Nat} {v : Byte} {m : List Host.Cell} (h : memOk lo m = true) (ha : lo ≤ a) :
    memOk lo (memSet m a v) = true := by
  induction m generalizing lo with
  | nil =>
    unfold memSet
    split
    · rfl
    · rename_i hv
      simp only [memOk, Bool.and_eq_true, decide_eq_true_eq, bne_iff_ne, ne_eq]
      exact ⟨⟨ha, hv⟩, trivial⟩
  | cons c t ih =>
    obtain ⟨b, w⟩ := c
    simp only [memOk, Bool.and_eq_true, decide_eq_true_eq] at h
    unfold memSet
    split
    · split
      · simp only [memOk, Bool.and_eq_true, decide_eq_true_eq]; exact h
      · rename_i hab hv
        simp only [memOk, Bool.and_eq_true, decide_eq_true_eq, bne_iff_ne, ne_eq]
        exact ⟨⟨ha, hv⟩, ⟨⟨by omega, by simpa using h.1.2⟩, h.2⟩⟩
    · split
      · rename_i hab hba
        subst hba
        split
        · exact memOk_mono h.2 (by omega)
        · rename_i hv
          simp only [memOk, Bool.and_eq_true, decide_eq_true_eq, bne_iff_ne, ne_eq]
          exact ⟨⟨ha, hv⟩, h.2⟩
      · simp only [memOk, Bool.and_eq_true, decide_eq_true_eq]
        exact ⟨h.1, ih h.2 (by omega)⟩

/-- A byte written keeps the canonical form. -/
theorem memSet_wf {a : Nat} {v : Byte} {m : List Host.Cell} (h : memWf m = true) : memWf (memSet m a v) = true :=
  memSet_ok h (Nat.zero_le a)

/-- Bytes written keep the canonical form. -/
theorem memWrite_wf {a : Nat} {l : Bytes} {m : List Host.Cell} (h : memWf m = true) : memWf (memWrite m a l) = true := by
  induction l generalizing m a with
  | nil => exact h
  | cons b t ih => exact ih (memSet_wf h)

theorem memFilter_ok {lo : Nat} {p : Host.Cell → Bool} {m : List Host.Cell} (h : memOk lo m = true) :
    memOk lo (m.filter p) = true := by
  induction m generalizing lo with
  | nil => rfl
  | cons c t ih =>
    simp only [memOk, Bool.and_eq_true, decide_eq_true_eq] at h
    rw [List.filter_cons]
    split
    · simp only [memOk, Bool.and_eq_true, decide_eq_true_eq]
      exact ⟨h.1, ih h.2⟩
    · exact ih (memOk_mono h.2 (by omega))

/-- A range erased keeps the canonical form. -/
theorem memErase_wf {a n : Nat} {m : List Host.Cell} (h : memWf m = true) : memWf (memErase m a n) = true := memFilter_ok h

theorem memGet_of_lt {lo a : Nat} {m : List Host.Cell} (h : memOk lo m = true) (ha : a < lo) : memGet m a = 0 := by
  induction m generalizing lo with
  | nil => rfl
  | cons c t ih =>
    simp only [memOk, Bool.and_eq_true, decide_eq_true_eq] at h
    simp only [memGet]
    rw [if_neg (by omega)]
    exact ih h.2 (by omega)

theorem memGet_memSet_ok {lo a b : Nat} {v : Byte} {m : List Host.Cell} (h : memOk lo m = true) :
    memGet (memSet m a v) b = if b = a then v else memGet m b := by
  induction m generalizing lo with
  | nil =>
    unfold memSet
    split
    · simp_all [memGet]
    · simp only [memGet]
      by_cases hb : b = a
      · simp [hb]
      · simp [hb, Ne.symm hb]
  | cons c t ih =>
    obtain ⟨k, w⟩ := c
    simp only [memOk, Bool.and_eq_true, decide_eq_true_eq] at h
    unfold memSet
    split
    · rename_i hak
      split
      · rename_i hv
        by_cases hb : b = a
        · subst hb; simp only [memGet, if_true, hv]
          rw [if_neg (by omega)]; exact memGet_of_lt h.2 (by omega)
        · simp [hb]
      · by_cases hb : b = a
        · simp [memGet, hb]
        · simp [memGet, hb, Ne.symm hb]
    · split
      · rename_i hka
        subst hka
        by_cases hb : b = k
        · subst hb
          split
          · rename_i hv; subst hv; simpa using memGet_of_lt h.2 (Nat.lt_succ_self _)
          · simp [memGet]
        · split <;> simp [memGet, hb, Ne.symm hb]
      · simp only [memGet]
        by_cases hk : k = b
        · subst hk; simp_all
        · simp [hk, ih h.2]

/-- A read after a write of one byte: the byte written there, what was there elsewhere. -/
theorem memGet_memSet {a b : Nat} {v : Byte} {m : List Host.Cell} (h : memWf m = true) :
    memGet (memSet m a v) b = if b = a then v else memGet m b := memGet_memSet_ok h

/-- Bytes outside those written read as before. -/
theorem memGet_memWrite_outside {a b : Nat} {l : Bytes} {m : List Host.Cell} (h : memWf m = true) (hb : b < a ∨ a + l.length ≤ b) :
    memGet (memWrite m a l) b = memGet m b := by
  induction l generalizing m a with
  | nil => rfl
  | cons x t ih =>
    simp only [memWrite, List.length_cons] at *
    rw [ih (memSet_wf h) (by omega), memGet_memSet h, if_neg (by omega)]

/-- Bytes written read back. -/
theorem memGet_memWrite_inside {a i : Nat} {l : Bytes} {m : List Host.Cell} (h : memWf m = true) (hi : i < l.length) :
    memGet (memWrite m a l) (a + i) = l[i] := by
  induction l generalizing m a i with
  | nil => simp at hi
  | cons x t ih =>
    cases i with
    | zero =>
      simp only [memWrite, Nat.add_zero, List.getElem_cons_zero]
      rw [memGet_memWrite_outside (memSet_wf h) (by omega), memGet_memSet h, if_pos rfl]
    | succ i =>
      simp only [memWrite, List.getElem_cons_succ]
      have := ih (m := memSet m a x) (a := a + 1) (i := i) (memSet_wf h) (by simpa using hi)
      rw [← this]; congr 1; omega

end Sys2Proof.Machine
end

