-- ==== Sys2Proof/Laws/Within.lean ====
section
/-! SUPPORT. How what an operation leaves alone is composed: the calculus by which every operation's frame is proved. -/
namespace Sys2Proof.Machine

/-- From `s` to `t` only the parts in `l` change, and what never goes back does not. -/
structure Within (l : List Part) (s t : State) : Prop where
  frame : Frame l s t
  kept : Kept s t

theorem Part.same_refl (p : Part) (s : State) : p.same s s := by cases p <;> simp [Part.same]

theorem Part.same_trans {p : Part} {s t u : State} (h : p.same s t) (k : p.same t u) : p.same s u := by
  cases p <;> simp only [Part.same] at * <;> first | exact k.trans h | exact ⟨k.1.trans h.1, k.2.trans h.2⟩

theorem Kept.refl (s : State) : Kept s s :=
  ⟨Nat.le_refl _, List.suffix_refl _, Nat.le_refl _, Nat.le_refl _, Nat.le_refl _, id, id⟩

theorem Kept.trans {s t u : State} (h : Kept s t) (k : Kept t u) : Kept s u :=
  ⟨Nat.le_trans h.free k.free, h.out.trans k.out, Nat.le_trans h.fwFloor k.fwFloor, Nat.le_trans h.prkFloor k.prkFloor, Nat.le_trans h.recno k.recno,
    fun x => k.dram (h.dram x), fun x => k.slm (h.slm x)⟩

theorem Within.refl (l : List Part) (s : State) : Within l s s :=
  ⟨⟨rfl, fun p _ => p.same_refl s⟩, Kept.refl s⟩

theorem Within.trans {l : List Part} {s t u : State} (h : Within l s t) (k : Within l t u) : Within l s u :=
  ⟨⟨k.frame.1.trans h.frame.1, fun p hp => Part.same_trans (h.frame.2 p hp) (k.frame.2 p hp)⟩, h.kept.trans k.kept⟩

/-- One bit for each part: a list's mask says quickly whether one list covers another. -/
def Part.ix : Part → Nat
  | .wall => 0 | .free => 1 | .out => 2 | .bus => 3 | .evt => 4 | .prk => 5 | .clk => 6 | .cue => 7 | .dev => 8 | .pwr => 9
  | .hfe => 10 | .scn => 11 | .obj => 12 | .trl => 13 | .flc => 14 | .rch => 15 | .hop => 16 | .smg => 17 | .bob => 18 | .dmc => 19
  | .tly => 20 | .asu => 21 | .scr => 22 | .saf => 23 | .dram => 24 | .slm => 25 | .regs => 26 | .halves => 27 | .phase => 28

def mask : List Part → Nat
  | [] => 0
  | p :: l => 2 ^ p.ix ||| mask l

theorem Part.ix_inj {p q : Part} (h : p.ix = q.ix) : p = q := by cases p <;> cases q <;> first | rfl | exact absurd h (by decide)

theorem mask_testBit (l : List Part) (p : Part) : (mask l).testBit p.ix = l.contains p := by
  induction l with
  | nil => simp [mask]
  | cons q l ih =>
    rw [mask, Nat.testBit_or, ih, List.contains_cons, Nat.testBit_two_pow]
    congr 1
    by_cases h : p = q
    · simp [h]
    · have : q.ix ≠ p.ix := fun e => h (Part.ix_inj e).symm
      simp [h, this]

/-- Every part of `l` is a part of `m`. -/
def Sub (l m : List Part) : Prop := mask l ||| mask m = mask m

theorem Sub.contains {l m : List Part} (h : Sub l m) {p : Part} (hp : m.contains p = false) : l.contains p = false := by
  have e : (mask l ||| mask m).testBit p.ix = (mask m).testBit p.ix := by rw [h]
  rw [Nat.testBit_or, mask_testBit, mask_testBit, hp] at e
  simpa using e

theorem Sub.trans {k l m : List Part} (h : Sub k l) (hs : Sub l m) : Sub k m := by
  unfold Sub at *
  rw [← hs, ← Nat.or_assoc, h]

/-- A frame may be widened to more parts. -/
theorem Within.mono {l m : List Part} {s t : State} (h : Within l s t) (hs : Sub l m) : Within m s t :=
  ⟨⟨h.frame.1, fun p hp => h.frame.2 p (hs.contains hp)⟩, h.kept⟩

/-- One more operation. -/
theorem Within.step {l m : List Part} {s t u : State} (k : Within l t u) (hs : Sub l m) (h : Within m s t) :
    Within m s u := h.trans (k.mono hs)

theorem Within.ite {l : List Part} {s t u : State} {c : Prop} [Decidable c] (h : c → Within l s t) (k : ¬c → Within l s u) :
    Within l s (if c then t else u) := by
  split
  · exact h ‹_›
  · exact k ‹_›

theorem Within.iteSnd {α : Type} {l : List Part} {s : State} {t u : α × State} {c : Prop} [Decidable c] (h : c → Within l s t.2)
    (k : ¬c → Within l s u.2) : Within l s (if c then t else u).2 := by
  split
  · exact h ‹_›
  · exact k ‹_›

theorem Within.ofEq {α : Type} {l : List Part} {s t : State} {p : α × State} {x : α} (e : p = (x, t)) (h : Within l s p.2) :
    Within l s t := by subst e; exact h

theorem Within.mkSnd {α : Type} {l : List Part} {s t : State} {x : α} (h : Within l s t) : Within l s (x, t).2 := h

theorem Within.ofEq2 {α β : Type} {l : List Part} {s t : State} {p : α × β × State} {x : α} {y : β} (e : p = (x, y, t))
    (h : Within l s p.2.2) : Within l s t := by subst e; exact h

theorem Within.cut {l : List Part} {s x t : State} (h : Within l s x) (k : Within l s x → Within l s t) : Within l s t := k h

theorem Within.cutSnd {α : Type} {l : List Part} {s t : State} {x : α × State} (h : Within l s x.2)
    (k : Within l s x.2 → Within l s t) : Within l s t := k h

theorem Within.cutFun {l : List Part} {s t : State} {f : State → State} (h : ∀ u, Within l u (f u))
    (k : (∀ u, Within l u (f u)) → Within l s t) : Within l s t := k h

theorem Within.foldl {α : Type} {l : List Part} {s : State} {f : State → α → State} {t : State} {as : List α} 
    (k : ∀ u a, Within l u (f u a)) (h : Within l s t) : Within l s (as.foldl f t) := by
  induction as generalizing t with
  | nil => exact h
  | cons a as ih => exact ih (h.trans (k t a))

theorem Within.foldlSnd {α β : Type} {l : List Part} {s : State} {f : β × State → α → β × State} {t : β × State} {as : List α}
    (k : ∀ u a, Within l u.2 (f u a).2) (h : Within l s t.2) : Within l s (as.foldl f t).2 := by
  induction as generalizing t with
  | nil => exact h
  | cons a as ih => exact ih (h.trans (k t a))

theorem Within.repeat {l : List Part} {s : State} {f : State → State} {n : Nat} {t : State} (k : ∀ u, Within l u (f u))
    (h : Within l s t) : Within l s (Nat.repeat f n t) := by
  induction n with
  | zero => exact h
  | succ n ih => exact ih.trans (k _)

/-- The conditions under which a record update stays within `l`: each part is in the list or as it was. -/
structure Upd (l : List Part) (u t : State) : Prop where
  wall : l.contains .wall = true ∨ t.wall = u.wall
  free : l.contains .free = true ∨ t.free = u.free
  out : l.contains .out = true ∨ t.out = u.out
  bus : l.contains .bus = true ∨ t.bus = u.bus
  evt : l.contains .evt = true ∨ t.evt = u.evt
  prk : l.contains .prk = true ∨ t.prk = u.prk
  clk : l.contains .clk = true ∨ t.clk = u.clk
  cue : l.contains .cue = true ∨ t.cue = u.cue
  dev : l.contains .dev = true ∨ t.dev = u.dev
  pwr : l.contains .pwr = true ∨ t.pwr = u.pwr
  hfe : l.contains .hfe = true ∨ t.hfe = u.hfe
  scn : l.contains .scn = true ∨ t.scn = u.scn
  obj : l.contains .obj = true ∨ t.obj = u.obj
  trl : l.contains .trl = true ∨ t.trl = u.trl
  flc : l.contains .flc = true ∨ t.flc = u.flc
  rch : l.contains .rch = true ∨ t.rch = u.rch
  hop : l.contains .hop = true ∨ t.hop = u.hop
  smg : l.contains .smg = true ∨ t.smg = u.smg
  bob : l.contains .bob = true ∨ t.bob = u.bob
  dmc : l.contains .dmc = true ∨ t.dmc = u.dmc
  tly : l.contains .tly = true ∨ t.tly = u.tly
  asu : l.contains .asu = true ∨ t.asu = u.asu
  scr : l.contains .scr = true ∨ t.scr = u.scr
  saf : l.contains .saf = true ∨ t.saf = u.saf
  dram : l.contains .dram = true ∨ t.dram = u.dram
  slm : l.contains .slm = true ∨ t.slm = u.slm
  regs : l.contains .regs = true ∨ t.bus.regs = u.bus.regs
  halves : l.contains .halves = true ∨ (t.bus.pendingLow = u.bus.pendingLow ∧ t.bus.latchedHigh = u.bus.latchedHigh)
  phase : l.contains .phase = true ∨ t.dev.phase = u.dev.phase
  kfree : u.free ≤ t.free
  kout : u.out <:+ t.out
  kfwFloor : u.dev.fwFloor ≤ t.dev.fwFloor
  kprkFloor : u.prk.floor ≤ t.prk.floor
  krecno : u.evt.next ≤ t.evt.next
  kdram : memWf u.dram = true → memWf t.dram = true
  kslm : memWf u.slm = true → memWf t.slm = true

theorem Upd.frame {l : List Part} {u t : State} (k : Upd l u t) {p : Part} (hp : l.contains p = false) : p.same u t := by
  cases p <;> simp only [Part.same]
  case wall => exact k.wall.resolve_left (by rw [hp]; decide)
  case free => exact k.free.resolve_left (by rw [hp]; decide)
  case out => exact k.out.resolve_left (by rw [hp]; decide)
  case bus => exact k.bus.resolve_left (by rw [hp]; decide)
  case evt => exact k.evt.resolve_left (by rw [hp]; decide)
  case prk => exact k.prk.resolve_left (by rw [hp]; decide)
  case clk => exact k.clk.resolve_left (by rw [hp]; decide)
  case cue => exact k.cue.resolve_left (by rw [hp]; decide)
  case dev => exact k.dev.resolve_left (by rw [hp]; decide)
  case pwr => exact k.pwr.resolve_left (by rw [hp]; decide)
  case hfe => exact k.hfe.resolve_left (by rw [hp]; decide)
  case scn => exact k.scn.resolve_left (by rw [hp]; decide)
  case obj => exact k.obj.resolve_left (by rw [hp]; decide)
  case trl => exact k.trl.resolve_left (by rw [hp]; decide)
  case flc => exact k.flc.resolve_left (by rw [hp]; decide)
  case rch => exact k.rch.resolve_left (by rw [hp]; decide)
  case hop => exact k.hop.resolve_left (by rw [hp]; decide)
  case smg => exact k.smg.resolve_left (by rw [hp]; decide)
  case bob => exact k.bob.resolve_left (by rw [hp]; decide)
  case dmc => exact k.dmc.resolve_left (by rw [hp]; decide)
  case tly => exact k.tly.resolve_left (by rw [hp]; decide)
  case asu => exact k.asu.resolve_left (by rw [hp]; decide)
  case scr => exact k.scr.resolve_left (by rw [hp]; decide)
  case saf => exact k.saf.resolve_left (by rw [hp]; decide)
  case dram => exact k.dram.resolve_left (by rw [hp]; decide)
  case slm => exact k.slm.resolve_left (by rw [hp]; decide)
  case regs => exact k.regs.resolve_left (by rw [hp]; decide)
  case halves => exact k.halves.resolve_left (by rw [hp]; decide)
  case phase => exact k.phase.resolve_left (by rw [hp]; decide)

/-- A record update: the queue is never touched. -/
theorem Within.upd {l : List Part} {s u : State} {wall free : Nat} {out : List Output} {bus : BusState} {evt : EvtState}
    {prk : PrkState} {clk : ClkState} {cue : CueState} {dev : DevState} {pwr : PwrState} {hfe : HfeState} {scn : ScnState}
    {obj : ObjState} {trl : TrlState} {flc : FlcState} {rch : RchState} {hop : HopState} {smg : SmgState} {bob : BobState}
    {dmc : DmcState} {tly : TlyState} {asu : AsuState} {scr : ScrState} {saf : SafState} {dram slm : List Host.Cell}
    (h : Within l s u)
    (k : Upd l u (State.mk u.pending wall free out bus evt prk clk cue dev pwr hfe scn obj trl flc rch hop smg bob dmc tly asu scr saf dram slm))
    : Within l s (State.mk u.pending wall free out bus evt prk clk cue dev pwr hfe scn obj trl flc rch hop smg bob dmc tly asu scr saf dram slm) :=
  h.trans ⟨⟨rfl, fun _ hp => k.frame hp⟩, ⟨k.kfree, k.kout, k.kfwFloor, k.kprkFloor, k.krecno, k.kdram, k.kslm⟩⟩

/-! A change of one part. -/

theorem Within.wall {l : List Part} {s u : State} {x : Nat} (hl : l.contains .wall = true) (h : Within l s u) :
    Within l s { u with wall := x } := by
  exact Within.upd h (by constructor <;> first | exact .inr rfl | exact .inl hl | exact Nat.le_refl _ | exact List.suffix_refl _ | exact id | exact .inr ⟨rfl, rfl⟩)

/-- More is sent. -/
theorem Within.out {l : List Part} {s u : State} {x : List Output} (hl : l.contains .out = true) (h : Within l s u)
    (hx : u.out <:+ x) : Within l s { u with out := x } := by
  exact Within.upd h (by constructor <;> first | exact .inr rfl | exact .inl hl | exact Nat.le_refl _ | exact hx | exact List.suffix_refl _ | exact id | exact .inr ⟨rfl, rfl⟩)

theorem Within.clk {l : List Part} {s u : State} {x : ClkState} (hl : l.contains .clk = true) (h : Within l s u) :
    Within l s { u with clk := x } := by
  exact Within.upd h (by constructor <;> first | exact .inr rfl | exact .inl hl | exact Nat.le_refl _ | exact List.suffix_refl _ | exact id | exact .inr ⟨rfl, rfl⟩)

theorem Within.cue {l : List Part} {s u : State} {x : CueState} (hl : l.contains .cue = true) (h : Within l s u) :
    Within l s { u with cue := x } := by
  exact Within.upd h (by constructor <;> first | exact .inr rfl | exact .inl hl | exact Nat.le_refl _ | exact List.suffix_refl _ | exact id | exact .inr ⟨rfl, rfl⟩)

theorem Within.pwr {l : List Part} {s u : State} {x : PwrState} (hl : l.contains .pwr = true) (h : Within l s u) :
    Within l s { u with pwr := x } := by
  exact Within.upd h (by constructor <;> first | exact .inr rfl | exact .inl hl | exact Nat.le_refl _ | exact List.suffix_refl _ | exact id | exact .inr ⟨rfl, rfl⟩)

theorem Within.hfe {l : List Part} {s u : State} {x : HfeState} (hl : l.contains .hfe = true) (h : Within l s u) :
    Within l s { u with hfe := x } := by
  exact Within.upd h (by constructor <;> first | exact .inr rfl | exact .inl hl | exact Nat.le_refl _ | exact List.suffix_refl _ | exact id | exact .inr ⟨rfl, rfl⟩)

theorem Within.scn {l : List Part} {s u : State} {x : ScnState} (hl : l.contains .scn = true) (h : Within l s u) :
    Within l s { u with scn := x } := by
  exact Within.upd h (by constructor <;> first | exact .inr rfl | exact .inl hl | exact Nat.le_refl _ | exact List.suffix_refl _ | exact id | exact .inr ⟨rfl, rfl⟩)

theorem Within.obj {l : List Part} {s u : State} {x : ObjState} (hl : l.contains .obj = true) (h : Within l s u) :
    Within l s { u with obj := x } := by
  exact Within.upd h (by constructor <;> first | exact .inr rfl | exact .inl hl | exact Nat.le_refl _ | exact List.suffix_refl _ | exact id | exact .inr ⟨rfl, rfl⟩)

theorem Within.trl {l : List Part} {s u : State} {x : TrlState} (hl : l.contains .trl = true) (h : Within l s u) :
    Within l s { u with trl := x } := by
  exact Within.upd h (by constructor <;> first | exact .inr rfl | exact .inl hl | exact Nat.le_refl _ | exact List.suffix_refl _ | exact id | exact .inr ⟨rfl, rfl⟩)

theorem Within.flc {l : List Part} {s u : State} {x : FlcState} (hl : l.contains .flc = true) (h : Within l s u) :
    Within l s { u with flc := x } := by
  exact Within.upd h (by constructor <;> first | exact .inr rfl | exact .inl hl | exact Nat.le_refl _ | exact List.suffix_refl _ | exact id | exact .inr ⟨rfl, rfl⟩)

theorem Within.rch {l : List Part} {s u : State} {x : RchState} (hl : l.contains .rch = true) (h : Within l s u) :
    Within l s { u with rch := x } := by
  exact Within.upd h (by constructor <;> first | exact .inr rfl | exact .inl hl | exact Nat.le_refl _ | exact List.suffix_refl _ | exact id | exact .inr ⟨rfl, rfl⟩)

theorem Within.hop {l : List Part} {s u : State} {x : HopState} (hl : l.contains .hop = true) (h : Within l s u) :
    Within l s { u with hop := x } := by
  exact Within.upd h (by constructor <;> first | exact .inr rfl | exact .inl hl | exact Nat.le_refl _ | exact List.suffix_refl _ | exact id | exact .inr ⟨rfl, rfl⟩)

theorem Within.smg {l : List Part} {s u : State} {x : SmgState} (hl : l.contains .smg = true) (h : Within l s u) :
    Within l s { u with smg := x } := by
  exact Within.upd h (by constructor <;> first | exact .inr rfl | exact .inl hl | exact Nat.le_refl _ | exact List.suffix_refl _ | exact id | exact .inr ⟨rfl, rfl⟩)

theorem Within.bob {l : List Part} {s u : State} {x : BobState} (hl : l.contains .bob = true) (h : Within l s u) :
    Within l s { u with bob := x } := by
  exact Within.upd h (by constructor <;> first | exact .inr rfl | exact .inl hl | exact Nat.le_refl _ | exact List.suffix_refl _ | exact id | exact .inr ⟨rfl, rfl⟩)

theorem Within.dmc {l : List Part} {s u : State} {x : DmcState} (hl : l.contains .dmc = true) (h : Within l s u) :
    Within l s { u with dmc := x } := by
  exact Within.upd h (by constructor <;> first | exact .inr rfl | exact .inl hl | exact Nat.le_refl _ | exact List.suffix_refl _ | exact id | exact .inr ⟨rfl, rfl⟩)

theorem Within.tly {l : List Part} {s u : State} {x : TlyState} (hl : l.contains .tly = true) (h : Within l s u) :
    Within l s { u with tly := x } := by
  exact Within.upd h (by constructor <;> first | exact .inr rfl | exact .inl hl | exact Nat.le_refl _ | exact List.suffix_refl _ | exact id | exact .inr ⟨rfl, rfl⟩)

theorem Within.asu {l : List Part} {s u : State} {x : AsuState} (hl : l.contains .asu = true) (h : Within l s u) :
    Within l s { u with asu := x } := by
  exact Within.upd h (by constructor <;> first | exact .inr rfl | exact .inl hl | exact Nat.le_refl _ | exact List.suffix_refl _ | exact id | exact .inr ⟨rfl, rfl⟩)

theorem Within.scr {l : List Part} {s u : State} {x : ScrState} (hl : l.contains .scr = true) (h : Within l s u) :
    Within l s { u with scr := x } := by
  exact Within.upd h (by constructor <;> first | exact .inr rfl | exact .inl hl | exact Nat.le_refl _ | exact List.suffix_refl _ | exact id | exact .inr ⟨rfl, rfl⟩)

theorem Within.saf {l : List Part} {s u : State} {x : SafState} (hl : l.contains .saf = true) (h : Within l s u) :
    Within l s { u with saf := x } := by
  exact Within.upd h (by constructor <;> first | exact .inr rfl | exact .inl hl | exact Nat.le_refl _ | exact List.suffix_refl _ | exact id | exact .inr ⟨rfl, rfl⟩)

/-- A change of the register windows that stores no register value and leaves every requester's halves. -/
theorem Within.bus {l : List Part} {s u : State} {x : BusState} (hl : l.contains .bus = true) (h : Within l s u)
    (hr : x.regs = u.bus.regs) (hp : x.pendingLow = u.bus.pendingLow) (ha : x.latchedHigh = u.bus.latchedHigh) :
    Within l s { u with bus := x } := by
  exact Within.upd h (by constructor <;> first | exact .inr rfl | exact .inl hl | exact Nat.le_refl _ | exact List.suffix_refl _ | exact id | exact .inr hr | exact .inr ⟨hp, ha⟩)

/-- A change of the event fabric that takes no record number back. -/
theorem Within.evt {l : List Part} {s u : State} {x : EvtState} (hl : l.contains .evt = true) (h : Within l s u)
    (hn : u.evt.next ≤ x.next) : Within l s { u with evt := x } := by
  exact Within.upd h (by constructor <;> first | exact .inr rfl | exact .inl hl | exact Nat.le_refl _ | exact List.suffix_refl _ | exact id | exact hn | exact .inr ⟨rfl, rfl⟩)

/-- A change of the Pricking's state that does not lower the rollback floor. -/
theorem Within.prk {l : List Part} {s u : State} {x : PrkState} (hl : l.contains .prk = true) (h : Within l s u)
    (hn : u.prk.floor ≤ x.floor) : Within l s { u with prk := x } := by
  exact Within.upd h (by constructor <;> first | exact .inr rfl | exact .inl hl | exact Nat.le_refl _ | exact List.suffix_refl _ | exact id | exact hn | exact .inr ⟨rfl, rfl⟩)

/-- A change of the device's records that stays in its state and does not lower the firmware floor. -/
theorem Within.dev {l : List Part} {s u : State} {x : DevState} (hl : l.contains .dev = true) (h : Within l s u)
    (hp : x.phase = u.dev.phase) (hn : u.dev.fwFloor ≤ x.fwFloor) : Within l s { u with dev := x } := by
  exact Within.upd h (by constructor <;> first | exact .inr rfl | exact .inl hl | exact Nat.le_refl _ | exact List.suffix_refl _ | exact id | exact hn | exact .inr hp | exact .inr ⟨rfl, rfl⟩)

/-- A write of the DRAM that keeps its canonical form. -/
theorem Within.dram {l : List Part} {s u : State} {x : List Host.Cell} (hl : l.contains .dram = true) (h : Within l s u)
    (hm : memWf u.dram = true → memWf x = true) : Within l s { u with dram := x } := by
  exact Within.upd h (by constructor <;> first | exact .inr rfl | exact .inl hl | exact Nat.le_refl _ | exact List.suffix_refl _ | exact id | exact hm | exact .inr ⟨rfl, rfl⟩)

/-- A write of the SLM that keeps its canonical form. -/
theorem Within.slm {l : List Part} {s u : State} {x : List Host.Cell} (hl : l.contains .slm = true) (h : Within l s u)
    (hm : memWf u.slm = true → memWf x = true) : Within l s { u with slm := x } := by
  exact Within.upd h (by constructor <;> first | exact .inr rfl | exact .inl hl | exact Nat.le_refl _ | exact List.suffix_refl _ | exact id | exact hm | exact .inr ⟨rfl, rfl⟩)

theorem Within.onDev {l : List Part} {s u : State} {f : DevState → DevState} (hl : l.contains .dev = true) (h : Within l s u)
    (hp : l.contains .phase = true ∨ (f u.dev).phase = u.dev.phase) (hn : u.dev.fwFloor ≤ (f u.dev).fwFloor) :
    Within l s (onDev f u) := by
  exact Within.upd h (by constructor <;> first | exact .inr rfl | exact .inl hl | exact Nat.le_refl _ | exact List.suffix_refl _ | exact id | exact hn | exact hp | exact .inr ⟨rfl, rfl⟩)

theorem Within.onPrk {l : List Part} {s u : State} {f : PrkState → PrkState} (hl : l.contains .prk = true) (h : Within l s u)
    (hn : u.prk.floor ≤ (f u.prk).floor) : Within l s (onPrk f u) := Within.prk hl h hn

@[simp] theorem putSlot_floor (p : PrkState) (k : Nat) (i : Option PrkImage) : (p.putSlot k i).floor = p.floor := by
  unfold PrkState.putSlot
  split <;> rfl

/-! A part outside the list is as it was. -/

theorem Within.same_wall {l : List Part} {s t : State} (h : Within l s t) (hl : l.contains .wall = false) : t.wall = s.wall :=
  h.frame.2 .wall hl

theorem Within.same_free {l : List Part} {s t : State} (h : Within l s t) (hl : l.contains .free = false) : t.free = s.free :=
  h.frame.2 .free hl

theorem Within.same_out {l : List Part} {s t : State} (h : Within l s t) (hl : l.contains .out = false) : t.out = s.out :=
  h.frame.2 .out hl

theorem Within.same_bus {l : List Part} {s t : State} (h : Within l s t) (hl : l.contains .bus = false) : t.bus = s.bus :=
  h.frame.2 .bus hl

theorem Within.same_evt {l : List Part} {s t : State} (h : Within l s t) (hl : l.contains .evt = false) : t.evt = s.evt :=
  h.frame.2 .evt hl

theorem Within.same_prk {l : List Part} {s t : State} (h : Within l s t) (hl : l.contains .prk = false) : t.prk = s.prk :=
  h.frame.2 .prk hl

theorem Within.same_clk {l : List Part} {s t : State} (h : Within l s t) (hl : l.contains .clk = false) : t.clk = s.clk :=
  h.frame.2 .clk hl

theorem Within.same_cue {l : List Part} {s t : State} (h : Within l s t) (hl : l.contains .cue = false) : t.cue = s.cue :=
  h.frame.2 .cue hl

theorem Within.same_dev {l : List Part} {s t : State} (h : Within l s t) (hl : l.contains .dev = false) : t.dev = s.dev :=
  h.frame.2 .dev hl

theorem Within.same_pwr {l : List Part} {s t : State} (h : Within l s t) (hl : l.contains .pwr = false) : t.pwr = s.pwr :=
  h.frame.2 .pwr hl

theorem Within.same_hfe {l : List Part} {s t : State} (h : Within l s t) (hl : l.contains .hfe = false) : t.hfe = s.hfe :=
  h.frame.2 .hfe hl

theorem Within.same_scn {l : List Part} {s t : State} (h : Within l s t) (hl : l.contains .scn = false) : t.scn = s.scn :=
  h.frame.2 .scn hl

theorem Within.same_obj {l : List Part} {s t : State} (h : Within l s t) (hl : l.contains .obj = false) : t.obj = s.obj :=
  h.frame.2 .obj hl

theorem Within.same_trl {l : List Part} {s t : State} (h : Within l s t) (hl : l.contains .trl = false) : t.trl = s.trl :=
  h.frame.2 .trl hl

theorem Within.same_flc {l : List Part} {s t : State} (h : Within l s t) (hl : l.contains .flc = false) : t.flc = s.flc :=
  h.frame.2 .flc hl

theorem Within.same_rch {l : List Part} {s t : State} (h : Within l s t) (hl : l.contains .rch = false) : t.rch = s.rch :=
  h.frame.2 .rch hl

theorem Within.same_hop {l : List Part} {s t : State} (h : Within l s t) (hl : l.contains .hop = false) : t.hop = s.hop :=
  h.frame.2 .hop hl

theorem Within.same_smg {l : List Part} {s t : State} (h : Within l s t) (hl : l.contains .smg = false) : t.smg = s.smg :=
  h.frame.2 .smg hl

theorem Within.same_bob {l : List Part} {s t : State} (h : Within l s t) (hl : l.contains .bob = false) : t.bob = s.bob :=
  h.frame.2 .bob hl

theorem Within.same_dmc {l : List Part} {s t : State} (h : Within l s t) (hl : l.contains .dmc = false) : t.dmc = s.dmc :=
  h.frame.2 .dmc hl

theorem Within.same_tly {l : List Part} {s t : State} (h : Within l s t) (hl : l.contains .tly = false) : t.tly = s.tly :=
  h.frame.2 .tly hl

theorem Within.same_asu {l : List Part} {s t : State} (h : Within l s t) (hl : l.contains .asu = false) : t.asu = s.asu :=
  h.frame.2 .asu hl

theorem Within.same_scr {l : List Part} {s t : State} (h : Within l s t) (hl : l.contains .scr = false) : t.scr = s.scr :=
  h.frame.2 .scr hl

theorem Within.same_saf {l : List Part} {s t : State} (h : Within l s t) (hl : l.contains .saf = false) : t.saf = s.saf :=
  h.frame.2 .saf hl

theorem Within.same_dram {l : List Part} {s t : State} (h : Within l s t) (hl : l.contains .dram = false) : t.dram = s.dram :=
  h.frame.2 .dram hl

theorem Within.same_slm {l : List Part} {s t : State} (h : Within l s t) (hl : l.contains .slm = false) : t.slm = s.slm :=
  h.frame.2 .slm hl

theorem Within.same_regs {l : List Part} {s t : State} (h : Within l s t) (hl : l.contains .regs = false) : t.bus.regs = s.bus.regs :=
  h.frame.2 .regs hl

theorem Within.same_phase {l : List Part} {s t : State} (h : Within l s t) (hl : l.contains .phase = false) :
    t.dev.phase = s.dev.phase := h.frame.2 .phase hl

theorem Within.same_pending {l : List Part} {s t : State} (h : Within l s t) : t.pending = s.pending := h.frame.1

/-- What has been sent stays sent. -/
theorem Within.out_mem {l : List Part} {s t : State} (h : Within l s t) {o : Output} (ho : o ∈ s.out) : o ∈ t.out :=
  h.kept.out.subset ho

end Sys2Proof.Machine
end

