-- ==== Sys2Proof/Laws/FrameOps.lean ====
section
/-! SUPPORT. What each operation of Machine/Ops.lean may change, and what it keeps. -/
namespace Sys2Proof.Machine

theorem countUp_within (key n s) :
    Within [.bus] s (countUp key n s) := by
  unfold countUp
  refine Within.bus rfl ?_ rfl rfl rfl
  exact Within.refl _ _

theorem count1_within (key s) :
    Within [.bus] s (count1 key s) := by
  unfold count1
  refine Within.step (countUp_within _ _ _) rfl ?_
  exact Within.refl _ _

theorem countRaise_within (src tag s) :
    Within [.bus] s (countRaise src tag s) := by
  unfold countRaise
  extract_lets +onlyGivenNames v0
  refine Within.cut (x := v0) ?_ (fun h1 => ?_)
  · subst v0
    refine Within.step (count1_within _ _) rfl ?_
    exact Within.refl _ _
  · clear_value v0
    refine Within.ite (fun _ => ?_) (fun _ => ?_)
    · refine Within.step (count1_within _ _) rfl ?_
      refine Within.step (count1_within _ _) rfl ?_
      exact h1
    · exact h1

theorem acceptEvent_within (ev sev s) :
    Within [.bus, .evt] s (acceptEvent ev sev s) := by
  unfold acceptEvent
  extract_lets +onlyGivenNames v0
  subst v0
  extract_lets +onlyGivenNames v2
  clear_value v2
  refine Within.ite (fun _ => ?_) (fun _ => ?_)
  · refine Within.ite (fun _ => ?_) (fun _ => ?_)
    · refine Within.step (count1_within _ _) rfl ?_
      refine Within.evt rfl ?_ (Nat.le_refl _)
      exact Within.refl _ _
    · refine Within.evt rfl ?_ (acceptNew_next_le _ _ _ _ _)
      exact Within.refl _ _
  · split
    · rename_i w4 w5 w6 w7 w8
      refine Within.ite (fun _ => ?_) (fun _ => ?_)
      · refine Within.step (count1_within _ _) rfl ?_
        refine Within.evt rfl ?_ (Nat.le_refl _)
        exact Within.refl _ _
      · refine Within.ite (fun _ => ?_) (fun _ => ?_)
        · refine Within.step (count1_within _ _) rfl ?_
          exact Within.refl _ _
        · refine Within.evt rfl ?_ (acceptNew_next_le _ _ _ _ _)
          exact Within.refl _ _
    · rename_i w9 w10 w11
      refine Within.ite (fun _ => ?_) (fun _ => ?_)
      · refine Within.step (count1_within _ _) rfl ?_
        exact Within.refl _ _
      · refine Within.evt rfl ?_ (acceptNew_next_le _ _ _ _ _)
        exact Within.refl _ _

theorem countNotify_within (tag s) :
    Within [.bus] s (countNotify tag s) := by
  unfold countNotify
  extract_lets +onlyGivenNames v0
  refine Within.cut (x := v0) ?_ (fun h1 => ?_)
  · subst v0
    refine Within.step (count1_within _ _) rfl ?_
    exact Within.refl _ _
  · clear_value v0
    refine Within.ite (fun _ => ?_) (fun _ => ?_)
    · exact h1
    · refine Within.step (count1_within _ _) rfl ?_
      exact h1

theorem answerAer_within (o ty info page s) :
    Within [.evt] s (answerAer o ty info page s) := by
  unfold answerAer
  refine Within.evt rfl ?_ (Nat.le_refl _)
  exact Within.refl _ _

theorem sendAen_within (p s) :
    Within [.evt] s (sendAen p s) := by
  unfold sendAen
  refine Within.step (answerAer_within _ _ _ _ _) rfl ?_
  refine Within.evt rfl ?_ (Nat.le_refl _)
  exact Within.refl _ _

theorem sendAens_within (tag s) :
    Within [.bus, .evt] s (sendAens tag s) := by
  unfold sendAens
  refine Within.foldl (fun u0 a1 => ?_) ?_
  · refine Within.step (countNotify_within _ _) rfl ?_
    refine Within.step (sendAen_within _ _) rfl ?_
    exact Within.refl _ _
  · exact Within.refl _ _

theorem emit_within (o s) :
    Within [.out] s (emit o s) := Within.out rfl (Within.refl _ _) (List.suffix_cons _ _)

theorem notifyEvent_within (r src tag s) :
    Within [.out, .bus, .evt] s (notifyEvent r src tag s) := by
  unfold notifyEvent
  refine Within.ite (fun _ => ?_) (fun _ => ?_)
  · extract_lets +onlyGivenNames v0
    refine Within.cut (x := v0) ?_ (fun h1 => ?_)
    · subst v0
      refine Within.ite (fun _ => ?_) (fun _ => ?_)
      · refine Within.step (sendAens_within _ _) rfl ?_
        exact Within.refl _ _
      · exact Within.refl _ _
    · clear_value v0
      refine Within.ite (fun _ => ?_) (fun _ => ?_)
      · refine Within.step (countNotify_within _ _) rfl ?_
        refine Within.step (emit_within _ _) rfl ?_
        exact h1
      · exact h1
  · refine Within.ite (fun _ => ?_) (fun _ => ?_)
    · extract_lets +onlyGivenNames v2
      clear_value v2
      extract_lets +onlyGivenNames v4
      refine Within.cut (x := v4) ?_ (fun h5 => ?_)
      · subst v4
        refine Within.ite (fun _ => ?_) (fun _ => ?_)
        · refine Within.step (sendAens_within _ _) rfl ?_
          exact Within.refl _ _
        · exact Within.refl _ _
      · clear_value v4
        split
        · rename_i w6 w7 w8 w9 w10
          refine Within.ite (fun _ => ?_) (fun _ => ?_)
          · refine Within.step (countNotify_within _ _) rfl ?_
            refine Within.step (emit_within _ _) rfl ?_
            exact h5
          · exact h5
        · rename_i w11 w12 w13 w14
          exact h5
    · exact Within.refl _ _

theorem raise_within (src code arg0 arg1 tag s) :
    Within [.out, .bus, .evt] s (raise src code arg0 arg1 tag s) := by
  unfold raise
  extract_lets +onlyGivenNames v0
  clear_value v0
  extract_lets +onlyGivenNames v2
  refine Within.cut (x := v2) ?_ (fun h3 => ?_)
  · subst v2
    refine Within.step (countRaise_within _ _ _) rfl ?_
    exact Within.refl _ _
  · clear_value v2
    extract_lets +onlyGivenNames v4
    clear_value v4
    extract_lets +onlyGivenNames v6
    subst v6
    extract_lets +onlyGivenNames v8
    refine Within.cut (x := v8) ?_ (fun h9 => ?_)
    · subst v8
      refine Within.ite (fun _ => ?_) (fun _ => ?_)
      · refine Within.evt rfl ?_ (Nat.le_refl _)
        exact h3
      · exact h3
    · clear_value v8
      extract_lets +onlyGivenNames v10
      refine Within.cut (x := v10) ?_ (fun h11 => ?_)
      · subst v10
        refine Within.ite (fun _ => ?_) (fun _ => ?_)
        · refine Within.step (acceptEvent_within _ _ _) rfl ?_
          exact h9
        · exact h9
      · clear_value v10
        refine Within.step (notifyEvent_within _ _ _ _) rfl ?_
        exact h11

theorem countLow_within (key reset v s) :
    Within [.bus] s (countLow key reset v s) := by
  unfold countLow
  refine Within.bus rfl ?_ rfl rfl rfl
  exact Within.refl _ _

theorem raiseObj_within (src obj tag s) :
    Within [.out, .bus, .evt] s (raiseObj src obj tag s) := by
  unfold raiseObj
  refine Within.step (raise_within _ _ _ _ _ _) rfl ?_
  exact Within.refl _ _

theorem drawSecret_within (s) :
    Within [.free] s (drawSecret s).2 := by
  unfold drawSecret
  extract_lets +onlyGivenNames v0
  clear_value v0
  refine Within.mkSnd ?_
  refine Within.upd ?_ (by constructor <;> first | exact .inl rfl | exact .inr rfl | exact Nat.le_refl _ | exact List.suffix_refl _ | exact id | exact Nat.le_add_right _ _ | exact .inr ⟨rfl, rfl⟩ | exact memWrite_wf | exact memErase_wf | exact Nat.le_of_eq (closeAllPages_next _).symm)
  exact Within.refl _ _

theorem countHigh_within (key v s) :
    Within [.bus] s (countHigh key v s) := by
  unfold countHigh
  refine Within.bus rfl ?_ rfl rfl rfl
  exact Within.refl _ _

theorem emitAll_within (os s) :
    Within [.out] s (emitAll os s) := Within.out rfl (Within.refl _ _) (List.suffix_append _ _)

theorem onlyIf_within {l} (hF : Sub [] l) {c f s} (hk1 : ∀ u, Within l u (f u)) :
    Within l s (onlyIf c f s) := by
  unfold onlyIf
  refine Within.ite (fun _ => ?_) (fun _ => ?_)
  · refine Within.trans ?_ (hk1 _)
    exact Within.refl _ _
  · exact Within.refl _ _

theorem setReg_within (key v s) :
    Within [.bus, .regs] s (setReg key v s) := by
  unfold setReg
  refine Within.upd ?_ (by constructor <;> first | exact .inl rfl | exact .inr rfl | exact Nat.le_refl _ | exact List.suffix_refl _ | exact id | exact Nat.le_add_right _ _ | exact .inr ⟨rfl, rfl⟩ | exact memWrite_wf | exact memErase_wf | exact Nat.le_of_eq (closeAllPages_next _).symm)
  exact Within.refl _ _

theorem setReg64_within (key v s) :
    Within [.bus, .regs] s (setReg64 key v s) := by
  unfold setReg64
  refine Within.step (setReg_within _ _ _) rfl ?_
  refine Within.step (setReg_within _ _ _) rfl ?_
  exact Within.refl _ _

theorem refuseAt_within (src obj tag s) :
    Within [.out, .bus, .evt, .saf] s (refuseAt src obj tag s) := by
  unfold refuseAt
  refine Within.step (raiseObj_within _ _ _ _) rfl ?_
  refine Within.saf rfl ?_
  exact Within.refl _ _

theorem takeFree_within (s) :
    Within [.free] s (takeFree s).2 := by
  unfold takeFree
  refine Within.mkSnd ?_
  refine Within.upd ?_ (by constructor <;> first | exact .inl rfl | exact .inr rfl | exact Nat.le_refl _ | exact List.suffix_refl _ | exact id | exact Nat.le_add_right _ _ | exact .inr ⟨rfl, rfl⟩ | exact memWrite_wf | exact memErase_wf | exact Nat.le_of_eq (closeAllPages_next _).symm)
  exact Within.refl _ _

theorem standardAen_within (ctrl ty info page s) :
    Within [.evt] s (standardAen ctrl ty info page s) := by
  unfold standardAen
  split
  · rename_i w0 w1 w2
    refine Within.step (answerAer_within _ _ _ _ _) rfl ?_
    exact Within.refl _ _
  · rename_i w3 w4
    exact Within.refl _ _

theorem transition_within (p s) :
    Within [.out, .bus, .evt, .dev, .phase] s (transition p s) := by
  unfold transition
  extract_lets +onlyGivenNames v0
  clear_value v0
  refine Within.step (raise_within _ _ _ _ _ _) rfl ?_
  refine Within.upd ?_ (by constructor <;> first | exact .inl rfl | exact .inr rfl | exact Nat.le_refl _ | exact List.suffix_refl _ | exact id | exact Nat.le_add_right _ _ | exact .inr ⟨rfl, rfl⟩ | exact memWrite_wf | exact memErase_wf | exact Nat.le_of_eq (closeAllPages_next _).symm)
  exact Within.refl _ _

end Sys2Proof.Machine
end

