-- ==== Sys2Proof/Laws/FrameOperands.lean ====
section
/-! SUPPORT. What each operation of Machine/Operands.lean may change, and what it keeps. -/
namespace Sys2Proof.Machine

theorem dropRequesters_within (p s) :
    Within [.bus, .halves] s (dropRequesters p s) := by
  unfold dropRequesters
  refine Within.upd ?_ (by constructor <;> first | exact .inl rfl | exact .inr rfl | exact Nat.le_refl _ | exact List.suffix_refl _ | exact id | exact Nat.le_add_right _ _ | exact .inr ⟨rfl, rfl⟩ | exact memWrite_wf | exact memErase_wf | exact Nat.le_of_eq (closeAllPages_next _).symm)
  exact Within.refl _ _

theorem holdLow_within (q key v s) :
    Within [.bus, .halves] s (holdLow q key v s) := by
  unfold holdLow
  refine Within.upd ?_ (by constructor <;> first | exact .inl rfl | exact .inr rfl | exact Nat.le_refl _ | exact List.suffix_refl _ | exact id | exact Nat.le_add_right _ _ | exact .inr ⟨rfl, rfl⟩ | exact memWrite_wf | exact memErase_wf | exact Nat.le_of_eq (closeAllPages_next _).symm)
  exact Within.refl _ _

theorem useLow_within (q key s) :
    Within [.bus, .halves] s (useLow q key s) := by
  unfold useLow
  refine Within.upd ?_ (by constructor <;> first | exact .inl rfl | exact .inr rfl | exact Nat.le_refl _ | exact List.suffix_refl _ | exact id | exact Nat.le_add_right _ _ | exact .inr ⟨rfl, rfl⟩ | exact memWrite_wf | exact memErase_wf | exact Nat.le_of_eq (closeAllPages_next _).symm)
  exact Within.refl _ _

theorem takeHigh_within (q key hi s) :
    Within [.bus, .regs, .halves] s (takeHigh q key hi s) := by
  unfold takeHigh
  refine Within.step (useLow_within _ _ _) rfl ?_
  refine Within.step (setReg64_within _ _ _) rfl ?_
  exact Within.refl _ _

theorem storeRw_within (w o v s) :
    Within [.bus, .regs] s (storeRw w o v s) := by
  unfold storeRw
  split
  · rename_i w0 w1 w2
    refine Within.step (setReg_within _ _ _) rfl ?_
    exact Within.refl _ _
  · rename_i w3 w4
    exact Within.refl _ _

theorem clearRc_within (key reset upd s) :
    Within [.bus] s (clearRc key reset upd s) := by
  unfold clearRc
  refine Within.bus rfl ?_ rfl rfl rfl
  exact Within.refl _ _

theorem returnRead_within (v size s) :
    Within [.bus] s (returnRead v size s) := by
  unfold returnRead
  refine Within.bus rfl ?_ rfl rfl rfl
  exact Within.refl _ _

end Sys2Proof.Machine
end

