-- ==== Sys2Proof/Laws/FrameEvents.lean ====
section
/-! SUPPORT. What each operation of Machine/Events.lean may change, and what it keeps. -/
namespace Sys2Proof.Machine

theorem doSmpCursorWrite_within (q hi s) :
    Within [.bus, .evt, .regs, .halves] s (doSmpCursorWrite q hi s) := by
  unfold doSmpCursorWrite
  refine Within.ite (fun _ => ?_) (fun _ => ?_)
  · extract_lets +onlyGivenNames v0
    clear_value v0
    extract_lets +onlyGivenNames v2
    clear_value v2
    extract_lets +onlyGivenNames v4
    clear_value v4
    refine Within.step (useLow_within _ _ _) rfl ?_
    refine Within.step (setReg64_within _ _ _) rfl ?_
    refine Within.evt rfl ?_ (Nat.le_refl _)
    exact Within.refl _ _
  · exact Within.refl _ _

theorem doTwSmpCursorWrite_within (q tag hi s) :
    Within [.bus, .evt, .regs, .halves] s (doTwSmpCursorWrite q tag hi s) := by
  unfold doTwSmpCursorWrite
  refine Within.ite (fun _ => ?_) (fun _ => ?_)
  · extract_lets +onlyGivenNames v0
    clear_value v0
    extract_lets +onlyGivenNames v2
    clear_value v2
    refine Within.step (takeHigh_within _ _ _ _) rfl ?_
    refine Within.evt rfl ?_ (Nat.le_refl _)
    exact Within.refl _ _
  · exact Within.refl _ _

theorem doTwEvtCtrlWrite_within (fn tag val s) :
    Within [.bus, .evt, .regs] s (doTwEvtCtrlWrite fn tag val s) := by
  unfold doTwEvtCtrlWrite
  refine Within.ite (fun _ => ?_) (fun _ => ?_)
  · split
    · rename_i w0 w1 w2 w3
      refine Within.step (setReg_within _ _ _) rfl ?_
      refine Within.ite (fun _ => ?_) (fun _ => ?_)
      · refine Within.evt rfl ?_ (Nat.le_refl _)
        exact Within.refl _ _
      · exact Within.refl _ _
    · rename_i w4 w5 w6
      exact Within.refl _ _
  · exact Within.refl _ _

theorem doEventRaise_within (e s) :
    Within [.out, .bus, .evt] s (doEventRaise e s) := by
  unfold doEventRaise
  refine Within.trans ?_ (onlyIf_within (by exact rfl) ?_)
  · exact Within.refl _ _
  · intro u0
    refine Within.step (raise_within _ _ _ _ _ _) rfl ?_
    exact Within.refl _ _

theorem admitSecurity_within (n s) :
    Within [.evt] s (admitSecurity n s) := by
  induction n generalizing s with
  | zero => exact Within.refl _ _
  | succ n ih =>
    unfold admitSecurity
    split
    · exact Within.refl _ _
    · refine Within.ite (fun _ => ?_) (fun _ => Within.refl _ _)
      refine Within.trans ?_ (ih _)
      refine Within.evt rfl (Within.refl _ _) ?_
      rw [acceptNew_next]
      exact Nat.le_succ _

theorem doSamplerPageProgrammed_within (copy page s) :
    Within [.evt] s (doSamplerPageProgrammed copy page s) := by
  unfold doSamplerPageProgrammed
  extract_lets +onlyGivenNames v0
  subst v0
  extract_lets +onlyGivenNames v2
  subst v2
  refine Within.step (admitSecurity_within _ _) rfl ?_
  refine Within.evt rfl ?_ (by split <;> simp)
  exact Within.refl _ _

theorem doSamplerPageTimer_within (s) :
    Within [.evt] s (doSamplerPageTimer s) := by
  unfold doSamplerPageTimer
  refine Within.evt rfl (Within.refl _ _) (Nat.le_of_eq ?_)
  suffices h : ∀ (l : List (Nat × Nat)) (e : EvtState),
      (l.foldl (fun (e : EvtState) (p : Nat × Nat) => if p.2 + 1000000000 ≤ s.wall then closePage p.1 e else e) e).next = e.next from
    (h _ _).symm
  intro l
  induction l with
  | nil => exact fun _ => rfl
  | cons p l ih =>
    intro e
    rw [List.foldl_cons, ih]
    split
    · exact closePage_next _ _
    · rfl

end Sys2Proof.Machine
end

