-- ==== Sys2Proof/Laws/FrameCue.lean ====
section
/-! SUPPORT. What each operation of Machine/Cue.lean may change, and what it keeps. -/
namespace Sys2Proof.Machine

theorem postCue_within (p c s) :
    Within [.bus, .cue] s (postCue p c s).2 := by
  unfold postCue
  refine Within.iteSnd (fun _ => ?_) (fun _ => ?_)
  · split
    · rename_i w0 w1 w2 w3
      extract_lets +onlyGivenNames v4
      clear_value v4
      extract_lets +onlyGivenNames v6
      clear_value v6
      extract_lets +onlyGivenNames v8
      clear_value v8
      extract_lets +onlyGivenNames v10
      refine Within.cut (x := v10) ?_ (fun h11 => ?_)
      · subst v10
        refine Within.cue rfl ?_
        exact Within.refl _ _
      · clear_value v10
        extract_lets +onlyGivenNames v12
        refine Within.cut (x := v12) ?_ (fun h13 => ?_)
        · subst v12
          refine Within.step (countLow_within _ _ _ _) rfl ?_
          exact h11
        · clear_value v12
          refine Within.mkSnd ?_
          refine Within.ite (fun _ => ?_) (fun _ => ?_)
          · refine Within.step (count1_within _ _) rfl ?_
            exact h13
          · exact h13
    · rename_i w14 w15 w16
      refine Within.mkSnd ?_
      exact Within.refl _ _
  · refine Within.mkSnd ?_
    exact Within.refl _ _

theorem cancelCue_within (p slot s) :
    Within [.cue] s (cancelCue p slot s) := by
  unfold cancelCue
  split
  · rename_i w0 w1 w2
    refine Within.ite (fun _ => ?_) (fun _ => ?_)
    · refine Within.cue rfl ?_
      exact Within.refl _ _
    · exact Within.refl _ _
  · rename_i w3 w4
    exact Within.refl _ _

theorem post_within (p c s) :
    Within [.bus, .cue] s (post p c s) := by
  unfold post
  refine Within.step (postCue_within _ _ _) rfl ?_
  exact Within.refl _ _

theorem doCueCtrlWrite_within (val s) :
    Within [.cue] s (doCueCtrlWrite val s) := by
  unfold doCueCtrlWrite
  refine Within.ite (fun _ => ?_) (fun _ => ?_)
  · extract_lets +onlyGivenNames v0
    clear_value v0
    extract_lets +onlyGivenNames v2
    clear_value v2
    extract_lets +onlyGivenNames v4
    clear_value v4
    extract_lets +onlyGivenNames v6
    clear_value v6
    extract_lets +onlyGivenNames v8
    clear_value v8
    extract_lets +onlyGivenNames v10
    refine Within.cue rfl ?_
    exact Within.refl _ _
  · exact Within.refl _ _

theorem doCueStepWrite_within (q hi s) :
    Within [.out, .bus, .evt, .cue, .regs, .halves] s (doCueStepWrite q hi s) := by
  unfold doCueStepWrite
  refine Within.ite (fun _ => ?_) (fun _ => ?_)
  · extract_lets +onlyGivenNames v0
    clear_value v0
    refine Within.ite (fun _ => ?_) (fun _ => ?_)
    · extract_lets +onlyGivenNames v2
      refine Within.cut (x := v2) ?_ (fun h3 => ?_)
      · subst v2
        refine Within.step (takeHigh_within _ _ _ _) rfl ?_
        exact Within.refl _ _
      · clear_value v2
        refine Within.cue rfl ?_
        exact h3
    · refine Within.step (raise_within _ _ _ _ _ _) rfl ?_
      refine Within.step (useLow_within _ _ _) rfl ?_
      exact Within.refl _ _
  · exact Within.refl _ _

theorem doCueRateAdjWrite_within (val s) :
    Within [.cue] s (doCueRateAdjWrite val s) := by
  unfold doCueRateAdjWrite
  refine Within.ite (fun _ => ?_) (fun _ => ?_)
  · refine Within.cue rfl ?_
    exact Within.refl _ _
  · exact Within.refl _ _

theorem doCueCalCtrl_within (val s) :
    Within [.cue] s (doCueCalCtrl val s) := by
  unfold doCueCalCtrl
  refine Within.ite (fun _ => ?_) (fun _ => ?_)
  · extract_lets +onlyGivenNames v0
    clear_value v0
    extract_lets +onlyGivenNames v2
    clear_value v2
    refine Within.cue rfl ?_
    exact Within.refl _ _
  · exact Within.refl _ _

theorem doCuePostCmd_within (val s) :
    Within [.bus, .cue] s (doCuePostCmd val s) := by
  unfold doCuePostCmd
  refine Within.ite (fun _ => ?_) (fun _ => ?_)
  · exact Within.refl _ _
  · extract_lets +onlyGivenNames v0
    clear_value v0
    extract_lets +onlyGivenNames v2
    clear_value v2
    refine Within.ite (fun _ => ?_) (fun _ => ?_)
    · refine Within.cue rfl ?_
      exact Within.refl _ _
    · split
      · rename_i w4 w5 w6 w7 w8 w9
        refine Within.cut (Within.ofEq w9 ?_) (fun h10 => ?_)
        · refine Within.step (postCue_within _ _ _) rfl ?_
          exact Within.refl _ _
        split
        · rename_i w11 w12
          refine Within.cue rfl ?_
          exact h10
        · rename_i w13 w14
          refine Within.cue rfl ?_
          exact h10

theorem doCueCancelWrite_within (val s) :
    Within [.cue] s (doCueCancelWrite val s) := by
  unfold doCueCancelWrite
  refine Within.ite (fun _ => ?_) (fun _ => ?_)
  · exact Within.refl _ _
  · extract_lets +onlyGivenNames v0
    clear_value v0
    split
    · rename_i w2 w3 w4 w5
      refine Within.ite (fun _ => ?_) (fun _ => ?_)
      · refine Within.step (cancelCue_within _ _ _) rfl ?_
        refine Within.cue rfl ?_
        exact Within.refl _ _
      · refine Within.cue rfl ?_
        exact Within.refl _ _
    · rename_i w6 w7 w8
      refine Within.cue rfl ?_
      exact Within.refl _ _

theorem correctTap_within (p s) :
    Within [.out, .bus, .evt, .clk, .cue] s (correctTap p s) := by
  unfold correctTap
  refine Within.ite (fun _ => ?_) (fun _ => ?_)
  · exact Within.refl _ _
  · extract_lets +onlyGivenNames v0
    clear_value v0
    extract_lets +onlyGivenNames v2
    clear_value v2
    extract_lets +onlyGivenNames v4
    clear_value v4
    extract_lets +onlyGivenNames v6
    clear_value v6
    extract_lets +onlyGivenNames v8
    clear_value v8
    extract_lets +onlyGivenNames v10
    refine Within.cut (x := v10) ?_ (fun h11 => ?_)
    · subst v10
      refine Within.upd ?_ (by constructor <;> first | exact .inl rfl | exact .inr rfl | exact Nat.le_refl _ | exact List.suffix_refl _ | exact id | exact Nat.le_add_right _ _ | exact .inr ⟨rfl, rfl⟩ | exact memWrite_wf | exact memErase_wf | exact Nat.le_of_eq (closeAllPages_next _).symm)
      exact Within.refl _ _
    · clear_value v10
      refine Within.step (raiseObj_within _ _ _ _) rfl ?_
      refine Within.step (count1_within _ _) rfl ?_
      exact h11

theorem dropCue_within (slot s) :
    Within [.cue] s (dropCue slot s) := by
  unfold dropCue
  extract_lets +onlyGivenNames v0
  clear_value v0
  refine Within.cue rfl ?_
  exact Within.refl _ _

theorem doCueCancel_within (p slot s) :
    Within [.cue] s (doCueCancel p slot s) := by
  unfold doCueCancel
  refine Within.step (cancelCue_within _ _ _) rfl ?_
  exact Within.refl _ _

theorem doTapSkewMeasure_within (tap comp dieTemp s) :
    Within [.cue] s (doTapSkewMeasure tap comp dieTemp s) := by
  unfold doTapSkewMeasure
  refine Within.ite (fun _ => ?_) (fun _ => ?_)
  · refine Within.cue rfl ?_
    exact Within.refl _ _
  · exact Within.refl _ _

theorem doCueArm_within (slot s) :
    Within [.cue] s (doCueArm slot s) := by
  unfold doCueArm
  split
  · rename_i w0 w1 w2
    refine Within.ite (fun _ => ?_) (fun _ => ?_)
    · extract_lets +onlyGivenNames v3
      clear_value v3
      extract_lets +onlyGivenNames v5
      clear_value v5
      extract_lets +onlyGivenNames v7
      clear_value v7
      refine Within.cue rfl ?_
      exact Within.refl _ _
    · exact Within.refl _ _
  · rename_i w9 w10
    exact Within.refl _ _

theorem doCancelArrival_within (slot s) :
    Within [.cue] s (doCancelArrival slot s) := by
  unfold doCancelArrival
  extract_lets +onlyGivenNames v0
  clear_value v0
  extract_lets +onlyGivenNames v2
  split
  · rename_i w4 w5 w6
    refine Within.ite (fun _ => ?_) (fun _ => ?_)
    · refine Within.cue rfl ?_
      exact Within.refl _ _
    · refine Within.ite (fun _ => ?_) (fun _ => ?_)
      · refine Within.cue rfl ?_
        exact Within.refl _ _
      · exact Within.refl _ _
  · rename_i w7 w8
    refine Within.ite (fun _ => ?_) (fun _ => ?_)
    · refine Within.cue rfl ?_
      exact Within.refl _ _
    · exact Within.refl _ _

theorem doDisciplineSourceLost_within (s) :
    Within [.out, .bus, .evt, .cue] s (doDisciplineSourceLost s) := by
  unfold doDisciplineSourceLost
  refine Within.ite (fun _ => ?_) (fun _ => ?_)
  · refine Within.step (raise_within _ _ _ _ _ _) rfl ?_
    refine Within.cue rfl ?_
    exact Within.refl _ _
  · exact Within.refl _ _

theorem doCuePost_within (p c s) :
    Within [.bus, .cue] s (doCuePost p c s) := by
  unfold doCuePost
  refine Within.trans ?_ (onlyIf_within (by exact rfl) ?_)
  · exact Within.refl _ _
  · intro u0
    refine Within.step (post_within _ _ _) rfl ?_
    exact Within.refl _ _

theorem broadcast_within (drift s) :
    Within [.out, .bus, .evt, .clk, .cue] s (broadcast drift s) := by
  unfold broadcast
  extract_lets +onlyGivenNames v0
  refine Within.cut (x := v0) ?_ (fun h1 => ?_)
  · subst v0
    refine Within.cue rfl ?_
    exact Within.refl _ _
  · clear_value v0
    refine Within.foldl (fun u2 a3 => ?_) ?_
    · refine Within.ite (fun _ => ?_) (fun _ => ?_)
      · refine Within.step (correctTap_within _ _) rfl ?_
        exact Within.refl _ _
      · exact Within.refl _ _
    · exact h1

theorem servoStep_within (v s) :
    Within [.out, .bus, .evt, .cue] s (servoStep v s) := by
  unfold servoStep
  extract_lets +onlyGivenNames v0
  clear_value v0
  extract_lets +onlyGivenNames v2
  clear_value v2
  extract_lets +onlyGivenNames v4
  clear_value v4
  extract_lets +onlyGivenNames v6
  refine Within.cut (x := v6) ?_ (fun h7 => ?_)
  · subst v6
    refine Within.cue rfl ?_
    exact Within.refl _ _
  · clear_value v6
    refine Within.ite (fun _ => ?_) (fun _ => ?_)
    · refine Within.step (raise_within _ _ _ _ _ _) rfl ?_
      exact h7
    · exact h7

theorem doPtmResponse_within (v s) :
    Within [.out, .bus, .evt, .cue] s (doPtmResponse v s) := by
  unfold doPtmResponse
  refine Within.ite (fun _ => ?_) (fun _ => ?_)
  · refine Within.ite (fun _ => ?_) (fun _ => ?_)
    · refine Within.step (servoStep_within _ _) rfl ?_
      exact Within.refl _ _
    · refine Within.cue rfl ?_
      exact Within.refl _ _
  · exact Within.refl _ _

theorem doPtpEventMessage_within (port _ingress v s) :
    Within [.out, .bus, .evt, .cue] s (doPtpEventMessage port _ingress v s) := by
  unfold doPtpEventMessage
  refine Within.ite (fun _ => ?_) (fun _ => ?_)
  · refine Within.ite (fun _ => ?_) (fun _ => ?_)
    · refine Within.step (servoStep_within _ _) rfl ?_
      exact Within.refl _ _
    · refine Within.cue rfl ?_
      exact Within.refl _ _
  · exact Within.refl _ _

end Sys2Proof.Machine
end

