-- ==== Sys2Proof/Laws/FrameMap.lean ====
section
/-! SUPPORT. What each operation of Machine/Map.lean may change, and what it keeps. -/
namespace Sys2Proof.Machine

theorem placeUnit_within (tag nsid unit granules seq s) :
    Within [.trl] s (placeUnit tag nsid unit granules seq s) := by
  unfold placeUnit
  split
  · rename_i w0 w1
    exact Within.refl _ _
  · rename_i w2 w3 w4
    extract_lets +onlyGivenNames v5
    clear_value v5
    extract_lets +onlyGivenNames v7
    clear_value v7
    extract_lets +onlyGivenNames v9
    clear_value v9
    extract_lets +onlyGivenNames v11
    clear_value v11
    extract_lets +onlyGivenNames v13
    clear_value v13
    extract_lets +onlyGivenNames v15
    clear_value v15
    extract_lets +onlyGivenNames v17
    clear_value v17
    extract_lets +onlyGivenNames v19
    clear_value v19
    extract_lets +onlyGivenNames v21
    clear_value v21
    extract_lets +onlyGivenNames v23
    clear_value v23
    refine Within.trl rfl ?_
    exact Within.refl _ _

theorem armHarbour_within (s) :
    Within [.trl] s (armHarbour s) := by
  unfold armHarbour
  refine Within.ite (fun _ => ?_) (fun _ => ?_)
  · exact Within.refl _ _
  · refine Within.trl rfl ?_
    exact Within.refl _ _

end Sys2Proof.Machine
end

