-- ==== Sys2Proof/Laws/FrameMedia.lean ====
section
/-! SUPPORT. What each operation of Machine/Media.lean may change, and what it keeps. -/
namespace Sys2Proof.Machine

theorem sbReads_within (e f s) :
    Within [.trl] s (sbReads e f s) := by
  unfold sbReads
  split
  · rename_i w0 w1 w2
    refine Within.trl rfl ?_
    exact Within.refl _ _
  · rename_i w3 w4
    exact Within.refl _ _

theorem onRd_within (rid f s) :
    Within [.flc] s (onRd rid f s) := by
  unfold onRd
  refine Within.flc rfl ?_
  exact Within.refl _ _

theorem startOp_within (i o s) :
    Within [.bus, .cue, .flc] s (startOp i o s) := by
  unfold startOp
  extract_lets +onlyGivenNames v0
  clear_value v0
  extract_lets +onlyGivenNames v2
  clear_value v2
  extract_lets +onlyGivenNames v4
  clear_value v4
  extract_lets +onlyGivenNames v6
  clear_value v6
  extract_lets +onlyGivenNames v8
  clear_value v8
  split
  · rename_i w10 w11 w12 w13
    refine Within.cut (Within.ofEq w13 ?_) (fun h14 => ?_)
    · refine Within.step (postCue_within _ _ _) rfl ?_
      exact Within.refl _ _
    split
    · rename_i w15 w16
      exact Within.refl _ _
    · rename_i w17 w18
      extract_lets +onlyGivenNames v19
      clear_value v19
      extract_lets +onlyGivenNames v21
      refine Within.cut (x := v21) ?_ (fun h22 => ?_)
      · subst v21
        refine Within.flc rfl ?_
        exact h14
      · clear_value v21
        refine Within.ite (fun _ => ?_) (fun _ => ?_)
        · refine Within.step (count1_within _ _) rfl ?_
          exact h22
        · exact h22

theorem onLun_within (l f s) :
    Within [.flc] s (onLun l f s) := by
  unfold onLun
  refine Within.flc rfl ?_
  exact Within.refl _ _

theorem pump_within (l s) :
    Within [.bus, .cue, .flc] s (pump l s) := by
  unfold pump
  split
  · rename_i w0 w1
    exact Within.refl _ _
  · rename_i w2 w3 w4
    refine Within.ite (fun _ => ?_) (fun _ => ?_)
    · exact Within.refl _ _
    · extract_lets +onlyGivenNames v5
      clear_value v5
      extract_lets +onlyGivenNames v7
      clear_value v7
      split
      · rename_i w9 w10 w11 w12 w13 w14 w15
        refine Within.ite (fun _ => ?_) (fun _ => ?_)
        · split
          · rename_i w16 w17 w18 w19
            refine Within.step (startOp_within _ _ _) rfl ?_
            refine Within.step (onLun_within _ _ _) rfl ?_
            exact Within.refl _ _
          · rename_i w20 w21
            exact Within.refl _ _
        · refine Within.step (onLun_within _ _ _) rfl ?_
          exact Within.refl _ _
      · rename_i w22 w23 w24 w25 w26 w27
        refine Within.step (startOp_within _ _ _) rfl ?_
        refine Within.step (onLun_within _ _ _) rfl ?_
        exact Within.refl _ _
      · rename_i w28 w29 w30 w31
        exact Within.refl _ _

theorem queueRead_within (rid l s) :
    Within [.bus, .cue, .flc] s (queueRead rid l s) := by
  unfold queueRead
  refine Within.step (pump_within _ _) rfl ?_
  refine Within.step (onLun_within _ _ _) rfl ?_
  exact Within.refl _ _

theorem beginAttempt_within (rid s) :
    Within [.bus, .cue, .flc] s (beginAttempt rid s).2 := by
  unfold beginAttempt
  split
  · rename_i w0 w1 w2
    split
    · rename_i w3 w4 w5 w6
      split
      · rename_i w7 w8 w9
        extract_lets +onlyGivenNames v10
        clear_value v10
        refine Within.iteSnd (fun _ => ?_) (fun _ => ?_)
        · refine Within.mkSnd ?_
          exact Within.refl _ _
        · extract_lets +onlyGivenNames v12
          refine Within.cut (x := v12) ?_ (fun h13 => ?_)
          · subst v12
            refine Within.step (onRd_within _ _ _) rfl ?_
            exact Within.refl _ _
          · clear_value v12
            refine Within.mkSnd ?_
            refine Within.foldl (fun u14 a15 => ?_) ?_
            · refine Within.step (queueRead_within _ _ _) rfl ?_
              exact Within.refl _ _
            · exact h13
      · rename_i w16 w17
        refine Within.mkSnd ?_
        exact Within.refl _ _
    · rename_i w18 w19
      refine Within.mkSnd ?_
      exact Within.refl _ _
  · rename_i w20 w21
    refine Within.mkSnd ?_
    exact Within.refl _ _

theorem startRead_within (scene src gran s) :
    Within [.out, .bus, .evt, .cue, .trl, .flc] s (startRead scene src gran s).2 := by
  unfold startRead
  extract_lets +onlyGivenNames v0
  clear_value v0
  extract_lets +onlyGivenNames v2
  clear_value v2
  extract_lets +onlyGivenNames v4
  clear_value v4
  extract_lets +onlyGivenNames v6
  clear_value v6
  extract_lets +onlyGivenNames v8
  refine Within.cut (x := v8) ?_ (fun h9 => ?_)
  · subst v8
    refine Within.step (sbReads_within _ _ _) rfl ?_
    refine Within.flc rfl ?_
    exact Within.refl _ _
  · clear_value v8
    split
    · rename_i w10 w11 w12
      refine Within.cut (Within.ofEq w12 ?_) (fun h13 => ?_)
      · refine Within.step (beginAttempt_within _ _) rfl ?_
        exact h9
      refine Within.mkSnd ?_
      exact h13
    · rename_i w14 w15 w16
      refine Within.cut (Within.ofEq w16 ?_) (fun h17 => ?_)
      · refine Within.step (beginAttempt_within _ _) rfl ?_
        exact h9
      split
      · rename_i w18 w19 w20
        refine Within.cut (Within.ofEq w20 ?_) (fun h21 => ?_)
        · refine Within.step (beginAttempt_within _ _) rfl ?_
          refine Within.step (onRd_within _ _ _) rfl ?_
          exact h9
        refine Within.mkSnd ?_
        refine Within.step (count1_within _ _) rfl ?_
        refine Within.step (raiseObj_within _ _ _ _) rfl ?_
        exact h21
      · rename_i w22 w23 w24
        refine Within.cut (Within.ofEq w24 ?_) (fun h25 => ?_)
        · refine Within.step (beginAttempt_within _ _) rfl ?_
          refine Within.step (onRd_within _ _ _) rfl ?_
          exact h9
        refine Within.mkSnd ?_
        exact Within.refl _ _

theorem readUnits_within (scene us s) :
    Within [.out, .bus, .evt, .cue, .trl, .flc] s (readUnits scene us s).2 := by
  unfold readUnits
  extract_lets +onlyGivenNames v0
  clear_value v0
  refine Within.foldlSnd (fun u2 a3 => ?_) ?_
  · extract_lets +onlyGivenNames v4
    refine Within.cutSnd (x := v4) ?_ (fun h5 => ?_)
    · subst v4
      refine Within.step (startRead_within _ _ _ _) rfl ?_
      exact Within.refl _ _
    · clear_value v4
      refine Within.mkSnd ?_
      exact h5
  · refine Within.mkSnd ?_
    exact Within.refl _ _

theorem releaseDecoder_within (d s) :
    Within [.flc] s (releaseDecoder d s) := by
  unfold releaseDecoder
  extract_lets +onlyGivenNames v0
  clear_value v0
  extract_lets +onlyGivenNames v2
  clear_value v2
  refine Within.flc rfl ?_
  exact Within.refl _ _

theorem pumpAll_within (s) :
    Within [.bus, .cue, .flc] s (pumpAll s) := by
  unfold pumpAll
  refine Within.foldl (fun u0 a1 => ?_) ?_
  · refine Within.step (pump_within _ _) rfl ?_
    exact Within.refl _ _
  · exact Within.refl _ _

theorem cancelOp_within (o s) :
    Within [.cue] s (cancelOp o s) := by
  unfold cancelOp
  split
  · rename_i w0 w1 w2
    refine Within.ite (fun _ => ?_) (fun _ => ?_)
    · exact Within.refl _ _
    · refine Within.step (cancelCue_within _ _ _) rfl ?_
      exact Within.refl _ _
  · rename_i w3 w4
    exact Within.refl _ _

theorem queueOp_within (o s) :
    Within [.bus, .cue, .flc] s (queueOp o s) := by
  unfold queueOp
  refine Within.step (pump_within _ _) rfl ?_
  refine Within.flc rfl ?_
  exact Within.refl _ _

theorem eraseMembers_within (sb b s) :
    Within [.bus, .cue, .flc] s (eraseMembers sb b s) := by
  unfold eraseMembers
  refine Within.foldl (fun u0 a1 => ?_) ?_
  · refine Within.step (queueOp_within _ _) rfl ?_
    exact Within.refl _ _
  · exact Within.refl _ _

theorem dropOps_within (p s) :
    Within [.cue, .flc] s (dropOps p s) := by
  unfold dropOps
  extract_lets +onlyGivenNames v0
  clear_value v0
  refine Within.foldl (fun u2 a3 => ?_) ?_
  · refine Within.step (cancelOp_within _ _) rfl ?_
    exact Within.refl _ _
  · refine Within.flc rfl ?_
    exact Within.refl _ _

theorem programSlot_within (sb slot s) :
    Within [.bus, .cue, .flc] s (programSlot sb slot s) := by
  unfold programSlot
  split
  · rename_i w0 w1
    exact Within.refl _ _
  · rename_i w2 w3 w4
    extract_lets +onlyGivenNames v5
    clear_value v5
    extract_lets +onlyGivenNames v7
    clear_value v7
    extract_lets +onlyGivenNames v9
    subst v9
    extract_lets +onlyGivenNames v11
    refine Within.cut (x := v11) ?_ (fun h12 => ?_)
    · subst v11
      dsimp only
      split
      · rename_i w13 w14 w15
        refine Within.ite (fun _ => ?_) (fun _ => ?_)
        · refine Within.step (queueOp_within _ _) rfl ?_
          exact Within.refl _ _
        · exact Within.refl _ _
      · rename_i w16 w17
        exact Within.refl _ _
    · clear_value v11
      refine Within.ite (fun _ => ?_) (fun _ => ?_)
      · dsimp only
        split
        · rename_i w18 w19 w20 w21
          refine Within.ite (fun _ => ?_) (fun _ => ?_)
          · refine Within.step (queueOp_within _ _) rfl ?_
            exact h12
          · exact h12
        · rename_i w22 w23 w24
          exact h12
      · exact h12

theorem programHeaders_within (sb b s) :
    Within [.bus, .cue, .flc] s (programHeaders sb b s) := by
  unfold programHeaders
  refine Within.foldl (fun u0 a1 => ?_) ?_
  · refine Within.step (queueOp_within _ _) rfl ?_
    exact Within.refl _ _
  · exact Within.refl _ _

theorem decodeGeneral_within (rid s) :
    Within [.flc] s (decodeGeneral rid s) := by
  unfold decodeGeneral
  extract_lets +onlyGivenNames v0
  clear_value v0
  extract_lets +onlyGivenNames v2
  clear_value v2
  refine Within.flc rfl ?_
  exact Within.refl _ _

end Sys2Proof.Machine
end

