-- ==== Sys2Proof/Laws/FramePool.lean ====
section
/-! SUPPORT. What each operation of Machine/Pool.lean may change, and what it keeps. -/
namespace Sys2Proof.Machine

theorem freeTask_within (i s) :
    Within [.smg, .bob] s (freeTask i s) := by
  unfold freeTask
  refine Within.upd ?_ (by constructor <;> first | exact .inl rfl | exact .inr rfl | exact Nat.le_refl _ | exact List.suffix_refl _ | exact id | exact Nat.le_add_right _ _ | exact .inr ⟨rfl, rfl⟩ | exact memWrite_wf | exact memErase_wf | exact Nat.le_of_eq (closeAllPages_next _).symm)
  exact Within.refl _ _

theorem onSmg_within (f s) :
    Within [.smg] s (onSmg f s) := by
  unfold onSmg
  refine Within.smg rfl ?_
  exact Within.refl _ _

theorem onTask_within (i f s) :
    Within [.smg] s (onTask i f s) := by
  unfold onTask
  refine Within.step (onSmg_within _ _) rfl ?_
  exact Within.refl _ _

theorem passVoids_within (a0 a1 a2) :
    Within [.bus, .smg] a2 (passVoids a0 a1 a2) := by
  fun_induction passVoids a0 a1 a2
  · rename_i r0 r1
    exact Within.refl _ _
  · rename_i r0 r1 r2 r3 r4 r5 r6 r7 r8
    refine Within.trans ?_ (r8 )
    refine Within.step (count1_within _ _) rfl ?_
    refine Within.step (onSmg_within _ _) rfl ?_
    exact Within.refl _ _
  · rename_i r0 r1 r2 r3 r4 r5
    exact Within.refl _ _
  · rename_i r0 r1 r2 r3
    exact Within.refl _ _

theorem voidRelease_within (t s) :
    Within [.bus, .smg] s (voidRelease t s) := by
  unfold voidRelease
  split
  · rename_i w0 w1 w2
    refine Within.ite (fun _ => ?_) (fun _ => ?_)
    · extract_lets +onlyGivenNames v3
      refine Within.cut (x := v3) ?_ (fun h4 => ?_)
      · subst v3
        refine Within.step (onSmg_within _ _) rfl ?_
        exact Within.refl _ _
      · clear_value v3
        refine Within.step (passVoids_within _ _ _) rfl ?_
        exact h4
    · exact Within.refl _ _
  · rename_i w5 w6
    exact Within.refl _ _

theorem freeJobCtx_within (t s) :
    Within [.tly, .scr] s (freeJobCtx t s) := by
  unfold freeJobCtx
  extract_lets +onlyGivenNames v0
  clear_value v0
  refine Within.ite (fun _ => ?_) (fun _ => ?_)
  · exact Within.refl _ _
  · refine Within.ite (fun _ => ?_) (fun _ => ?_)
    · refine Within.ite (fun _ => ?_) (fun _ => ?_)
      · refine Within.tly rfl ?_
        exact Within.refl _ _
      · exact Within.refl _ _
    · refine Within.ite (fun _ => ?_) (fun _ => ?_)
      · refine Within.ite (fun _ => ?_) (fun _ => ?_)
        · refine Within.scr rfl ?_
          exact Within.refl _ _
        · exact Within.refl _ _
      · exact Within.refl _ _

theorem cancelTask_within (i t s) :
    Within [.bus, .cue, .smg, .bob, .tly, .scr] s (cancelTask i t s) := by
  unfold cancelTask
  split
  · rename_i w0 w1 w2
    refine Within.step (onTask_within _ _ _) rfl ?_
    exact Within.refl _ _
  · rename_i w3 w4 w5
    refine Within.step (voidRelease_within _ _) rfl ?_
    refine Within.step (freeTask_within _ _) rfl ?_
    refine Within.step (cancelCue_within _ _ _) rfl ?_
    exact Within.refl _ _
  · rename_i w6 w7 w8
    refine Within.step (voidRelease_within _ _) rfl ?_
    refine Within.step (freeTask_within _ _) rfl ?_
    refine Within.step (freeJobCtx_within _ _) rfl ?_
    exact Within.refl _ _

theorem pressure_within (s) :
    Within [.out, .bus, .evt, .scn] s (pressure s) := by
  unfold pressure
  extract_lets +onlyGivenNames v0
  clear_value v0
  refine Within.foldl (fun u2 a3 => ?_) ?_
  · refine Within.ite (fun _ => ?_) (fun _ => ?_)
    · refine Within.ite (fun _ => ?_) (fun _ => ?_)
      · refine Within.step (raise_within _ _ _ _ _ _) rfl ?_
        refine Within.scn rfl ?_
        exact Within.refl _ _
      · exact Within.refl _ _
    · refine Within.ite (fun _ => ?_) (fun _ => ?_)
      · refine Within.step (raise_within _ _ _ _ _ _) rfl ?_
        refine Within.scn rfl ?_
        exact Within.refl _ _
      · exact Within.refl _ _
  · exact Within.refl _ _

theorem enqueue_within (i s) :
    Within [.smg] s (enqueue i s) := by
  unfold enqueue
  split
  · rename_i w0 w1 w2
    refine Within.step (onSmg_within _ _) rfl ?_
    exact Within.refl _ _
  · rename_i w3 w4
    exact Within.refl _ _

theorem delayTask_within (i t s) :
    Within [.out, .bus, .evt, .smg] s (delayTask i t s) := by
  unfold delayTask
  extract_lets +onlyGivenNames v0
  clear_value v0
  refine Within.ite (fun _ => ?_) (fun _ => ?_)
  · refine Within.step (onSmg_within _ _) rfl ?_
    exact Within.refl _ _
  · refine Within.step (raise_within _ _ _ _ _ _) rfl ?_
    refine Within.step (count1_within _ _) rfl ?_
    refine Within.step (onSmg_within _ _) rfl ?_
    exact Within.refl _ _

theorem enterDelay_within (i t s) :
    Within [.out, .bus, .evt, .smg] s (enterDelay i t s) := by
  unfold enterDelay
  refine Within.ite (fun _ => ?_) (fun _ => ?_)
  · refine Within.step (enqueue_within _ _) rfl ?_
    exact Within.refl _ _
  · refine Within.step (delayTask_within _ _ _) rfl ?_
    exact Within.refl _ _

theorem makeReady_within (i t w s) :
    Within [.out, .bus, .evt, .smg] s (makeReady i t w s).2 := by
  unfold makeReady
  refine Within.iteSnd (fun _ => ?_) (fun _ => ?_)
  · refine Within.mkSnd ?_
    exact Within.refl _ _
  · refine Within.iteSnd (fun _ => ?_) (fun _ => ?_)
    · refine Within.mkSnd ?_
      exact Within.refl _ _
    · refine Within.iteSnd (fun _ => ?_) (fun _ => ?_)
      · refine Within.mkSnd ?_
        refine Within.step (enterDelay_within _ _ _) rfl ?_
        exact Within.refl _ _
      · refine Within.mkSnd ?_
        refine Within.step (enqueue_within _ _) rfl ?_
        exact Within.refl _ _

theorem losePred_within (st acc h) :
    Within [.out, .bus, .evt, .smg] acc.2 (losePred st acc h).2 := by
  unfold losePred
  split
  · rename_i w0 w1 w2
    split
    · rename_i w3 w4 w5 w6
      refine Within.iteSnd (fun _ => ?_) (fun _ => ?_)
      · refine Within.mkSnd ?_
        refine Within.step (raise_within _ _ _ _ _ _) rfl ?_
        refine Within.step (count1_within _ _) rfl ?_
        with_reducible exact Within.refl _ _
      · extract_lets +onlyGivenNames v7
        clear_value v7
        extract_lets +onlyGivenNames v9
        refine Within.cut (x := v9) ?_ (fun h10 => ?_)
        · subst v9
          refine Within.step (onTask_within _ _ _) rfl ?_
          with_reducible exact Within.refl _ _
        · clear_value v9
          refine Within.iteSnd (fun _ => ?_) (fun _ => ?_)
          · refine Within.step (makeReady_within _ _ _ _) rfl ?_
            exact h10
          · refine Within.mkSnd ?_
            exact h10
    · rename_i w11 w12
      exact Within.refl _ _

theorem releaseChunk_within (t s) :
    Within [.hfe, .scn] s (releaseChunk t s) := by
  unfold releaseChunk
  split
  · rename_i w0 w1 w2 w3
    extract_lets +onlyGivenNames v4
    clear_value v4
    extract_lets +onlyGivenNames v6
    clear_value v6
    extract_lets +onlyGivenNames v8
    clear_value v8
    refine Within.upd ?_ (by constructor <;> first | exact .inl rfl | exact .inr rfl | exact Nat.le_refl _ | exact List.suffix_refl _ | exact id | exact Nat.le_add_right _ _ | exact .inr ⟨rfl, rfl⟩ | exact memWrite_wf | exact memErase_wf | exact Nat.le_of_eq (closeAllPages_next _).symm)
    exact Within.refl _ _
  · rename_i w10 w11
    exact Within.refl _ _

theorem noteFailure_within (t st s) :
    Within [.smg] s (noteFailure t st s) := by
  unfold noteFailure
  split
  · rename_i w0 w1 w2
    refine Within.ite (fun _ => ?_) (fun _ => ?_)
    · refine Within.step (onSmg_within _ _) rfl ?_
      exact Within.refl _ _
    · exact Within.refl _ _
  · rename_i w3 w4
    exact Within.refl _ _

theorem finishTask_within (i st w s) :
    Within [.out, .bus, .evt, .hfe, .scn, .smg, .bob] s (finishTask i st w s).2 := by
  unfold finishTask
  split
  · rename_i w0 w1 w2
    refine Within.iteSnd (fun _ => ?_) (fun _ => ?_)
    · refine Within.mkSnd ?_
      refine Within.step (freeTask_within _ _) rfl ?_
      exact Within.refl _ _
    · refine Within.foldlSnd (fun u3 a4 => ?_) ?_
      · refine Within.step (losePred_within _ _ _) rfl ?_
        exact Within.refl _ _
      · refine Within.mkSnd ?_
        refine Within.step (freeTask_within _ _) rfl ?_
        refine Within.step (releaseChunk_within _ _) rfl ?_
        refine Within.step (noteFailure_within _ _ _) rfl ?_
        exact Within.refl _ _
  · rename_i w5 w6
    refine Within.mkSnd ?_
    exact Within.refl _ _

theorem release_within (f last s) :
    Within [.bus, .smg] s (release f last s) := by
  unfold release
  refine Within.ite (fun _ => ?_) (fun _ => ?_)
  · refine Within.step (onSmg_within _ _) rfl ?_
    exact Within.refl _ _
  · extract_lets +onlyGivenNames v0
    refine Within.cut (x := v0) ?_ (fun h1 => ?_)
    · subst v0
      refine Within.step (onSmg_within _ _) rfl ?_
      exact Within.refl _ _
    · clear_value v0
      refine Within.step (passVoids_within _ _ _) rfl ?_
      exact h1

theorem stageDone_within (i t w s) :
    Within [.out, .bus, .evt, .smg] s (stageDone i t w s).2 := by
  unfold stageDone
  extract_lets +onlyGivenNames v0
  refine Within.cut (x := v0) ?_ (fun h1 => ?_)
  · subst v0
    refine Within.step (onSmg_within _ _) rfl ?_
    exact Within.refl _ _
  · clear_value v0
    split
    · rename_i w2 w3
      refine Within.mkSnd ?_
      refine Within.step (raise_within _ _ _ _ _ _) rfl ?_
      exact h1
    · rename_i w4 w5
      extract_lets +onlyGivenNames v6
      refine Within.cut (x := v6) ?_ (fun h7 => ?_)
      · subst v6
        refine Within.step (count1_within _ _) rfl ?_
        exact h1
      · clear_value v6
        refine Within.mkSnd ?_
        split
        · rename_i w8 w9 w10
          refine Within.ite (fun _ => ?_) (fun _ => ?_)
          · refine Within.step (release_within _ _ _) rfl ?_
            exact h7
          · exact h7
        · rename_i w11 w12
          exact h7

theorem countLate_within (i n t s) :
    Within [.out, .bus, .evt] s (countLate i n t s) := by
  unfold countLate
  refine Within.repeat (fun u0 => ?_) ?_
  · refine Within.step (raise_within _ _ _ _ _ _) rfl ?_
    refine Within.step (count1_within _ _) rfl ?_
    exact Within.refl _ _
  · exact Within.refl _ _

theorem postTimed_within (i t s) :
    Within [.out, .bus, .evt, .cue, .smg] s (postTimed i t s) := by
  unfold postTimed
  refine Within.ite (fun _ => ?_) (fun _ => ?_)
  · refine Within.step (delayTask_within _ _ _) rfl ?_
    exact Within.refl _ _
  · split
    · rename_i w0 w1 w2 w3 w4
      refine Within.cut (Within.ofEq w4 ?_) (fun h5 => ?_)
      · refine Within.step (postCue_within _ _ _) rfl ?_
        exact Within.refl _ _
      split
      · rename_i w6 w7
        refine Within.step (raise_within _ _ _ _ _ _) rfl ?_
        refine Within.step (count1_within _ _) rfl ?_
        refine Within.step (onSmg_within _ _) rfl ?_
        exact h5
      · rename_i w8 w9
        refine Within.step (onTask_within _ _ _) rfl ?_
        exact h5

theorem judgeTimed_within (l s) :
    Within [.out, .bus, .evt, .cue, .smg] s (judgeTimed l s).2 := by
  unfold judgeTimed
  extract_lets +onlyGivenNames v0
  clear_value v0
  extract_lets +onlyGivenNames v2
  clear_value v2
  refine Within.foldlSnd (fun u4 a5 => ?_) ?_
  · split
    · rename_i w6 w7 w8
      split
      · rename_i w9 w10 w11
        refine Within.iteSnd (fun _ => ?_) (fun _ => ?_)
        · refine Within.iteSnd (fun _ => ?_) (fun _ => ?_)
          · refine Within.mkSnd ?_
            refine Within.step (countLate_within _ _ _ _) rfl ?_
            with_reducible exact Within.refl _ _
          · refine Within.mkSnd ?_
            refine Within.step (postTimed_within _ _ _) rfl ?_
            with_reducible exact Within.refl _ _
        · extract_lets +onlyGivenNames v12
          clear_value v12
          refine Within.mkSnd ?_
          refine Within.step (postTimed_within _ _ _) rfl ?_
          refine Within.step (countLate_within _ _ _ _) rfl ?_
          refine Within.step (onTask_within _ _ _) rfl ?_
          with_reducible exact Within.refl _ _
  · refine Within.mkSnd ?_
    exact Within.refl _ _

theorem runWork_within (a0 a1 a2) :
    Within [.out, .bus, .evt, .cue, .hfe, .scn, .smg, .bob] a2 (runWork a0 a1 a2) := by
  induction a0 generalizing a1 a2
  · rw [runWork]
    exact Within.refl _ _
  · rename_i r0 r1
    rw [runWork]
    split
    · rename_i w0 w1 w2 w3 w4
      split
      · rename_i w5 w6 w7 w8
        refine Within.cut (Within.ofEq w8 ?_) (fun h9 => ?_)
        · refine Within.step (finishTask_within _ _ _ _) rfl ?_
          exact Within.refl _ _
        refine Within.trans ?_ (r1 _ _)
        exact h9
    · rename_i w10 w11
      split
      · rename_i w12 w13 w14 w15
        split
        · rename_i w16 w17 w18 w19
          refine Within.cut (Within.ofEq w19 ?_) (fun h20 => ?_)
          · refine Within.step (stageDone_within _ _ _ _) rfl ?_
            exact Within.refl _ _
          refine Within.trans ?_ (r1 _ _)
          exact h20
      · rename_i w21 w22
        refine Within.ite (fun _ => ?_) (fun _ => ?_)
        · exact Within.refl _ _
        · split
          · rename_i w23 w24 w25 w26 w27
            refine Within.cut (Within.ofEq w27 ?_) (fun h28 => ?_)
            · refine Within.step (judgeTimed_within _ _) rfl ?_
              exact Within.refl _ _
            refine Within.ite (fun _ => ?_) (fun _ => ?_)
            · exact h28
            · refine Within.trans ?_ (r1 _ _)
              exact h28

theorem settleTasks_within (w s) :
    Within [.out, .bus, .evt, .cue, .hfe, .scn, .smg, .bob] s (settleTasks w s) := by
  unfold settleTasks
  refine Within.step (pressure_within _) rfl ?_
  refine Within.step (runWork_within _ _ _) rfl ?_
  exact Within.refl _ _

theorem cancelTasks_within (o s) :
    Within [.out, .bus, .evt, .cue, .hfe, .scn, .smg, .bob, .tly, .scr] s (cancelTasks o s) := by
  unfold cancelTasks
  extract_lets +onlyGivenNames v0
  extract_lets +onlyGivenNames v2
  refine Within.cut (x := v2) ?_ (fun h3 => ?_)
  · subst v2
    refine Within.foldl (fun u4 a5 => ?_) ?_
    · refine Within.ite (fun _ => ?_) (fun _ => ?_)
      · refine Within.step (cancelTask_within _ _ _) rfl ?_
        exact Within.refl _ _
      · exact Within.refl _ _
    · exact Within.refl _ _
  · clear_value v2
    refine Within.step (settleTasks_within _ _) rfl ?_
    refine Within.step (onSmg_within _ _) rfl ?_
    exact h3

theorem addTask_within (t s) :
    Within [.bus, .smg] s (addTask t s).2 := by
  unfold addTask
  extract_lets +onlyGivenNames v0
  clear_value v0
  extract_lets +onlyGivenNames v2
  refine Within.cut (x := v2) ?_ (fun h3 => ?_)
  · subst v2
    refine Within.step (onSmg_within _ _) rfl ?_
    exact Within.refl _ _
  · clear_value v2
    refine Within.mkSnd ?_
    refine Within.step (countLow_within _ _ _ _) rfl ?_
    exact h3

theorem createOwn_within (t s) :
    Within [.out, .bus, .evt, .cue, .hfe, .scn, .smg, .bob] s (createOwn t s).2 := by
  unfold createOwn
  split
  · rename_i w0 w1 w2 w3
    refine Within.cut (Within.ofEq w3 ?_) (fun h4 => ?_)
    · refine Within.step (addTask_within _ _) rfl ?_
      exact Within.refl _ _
    split
    · rename_i w5 w6 w7 w8
      refine Within.cut (Within.ofEq w8 ?_) (fun h9 => ?_)
      · refine Within.step (makeReady_within _ _ _ _) rfl ?_
        exact h4
      refine Within.mkSnd ?_
      refine Within.step (settleTasks_within _ _) rfl ?_
      exact h9

theorem completeTask_within (i st s) :
    Within [.out, .bus, .evt, .cue, .hfe, .scn, .smg, .bob] s (completeTask i st s) := by
  unfold completeTask
  refine Within.step (settleTasks_within _ _) rfl ?_
  exact Within.refl _ _

theorem beatOut_within (w i s) :
    Within [.out, .bus, .evt, .cue, .smg] s (beatOut w i s).2 := by
  unfold beatOut
  split
  · rename_i w0 w1 w2
    refine Within.iteSnd (fun _ => ?_) (fun _ => ?_)
    · split
      · rename_i w3 w4 w5 w6 w7
        refine Within.cut (Within.ofEq w7 ?_) (fun h8 => ?_)
        · refine Within.step (judgeTimed_within _ _) rfl ?_
          exact Within.refl _ _
        refine Within.mkSnd ?_
        exact h8
    · refine Within.mkSnd ?_
      refine Within.step (enqueue_within _ _) rfl ?_
      exact Within.refl _ _
  · rename_i w9 w10
    refine Within.mkSnd ?_
    exact Within.refl _ _

theorem fillDelay_within (a0 a1 a2 a3) :
    Within [.out, .bus, .evt, .cue, .smg] a3 (fillDelay a0 a1 a2 a3).2 := by
  induction a0 generalizing a1 a2 a3
  · rw [fillDelay]
    refine Within.mkSnd ?_
    exact Within.refl _ _
  · rename_i r0 r1
    rw [fillDelay]
    split
    · rename_i w0 w1 w2 w3
      refine Within.iteSnd (fun _ => ?_) (fun _ => ?_)
      · extract_lets +onlyGivenNames v4
        refine Within.cut (x := v4) ?_ (fun h5 => ?_)
        · subst v4
          refine Within.step (onSmg_within _ _) rfl ?_
          exact Within.refl _ _
        · clear_value v4
          split
          · rename_i w6 w7 w8 w9
            split
            · rename_i w10 w11 w12 w13
              refine Within.cut (Within.ofEq w13 ?_) (fun h14 => ?_)
              · refine Within.iteSnd (fun _ => ?_) (fun _ => ?_)
                · refine Within.step (beatOut_within _ _ _) rfl ?_
                  exact h5
                · refine Within.mkSnd ?_
                  refine Within.step (enterDelay_within _ _ _) rfl ?_
                  exact h5
              refine Within.trans ?_ (r1 _ _ _)
              exact h14
          · rename_i w15 w16 w17
            refine Within.trans ?_ (r1 _ _ _)
            exact h5
      · refine Within.mkSnd ?_
        exact Within.refl _ _
    · rename_i w18 w19
      refine Within.mkSnd ?_
      exact Within.refl _ _

theorem beatBoundary_within (s) :
    Within [.out, .bus, .evt, .cue, .hfe, .scn, .smg, .bob] s (beatBoundary s) := by
  unfold beatBoundary
  extract_lets +onlyGivenNames v0
  clear_value v0
  extract_lets +onlyGivenNames v2
  clear_value v2
  extract_lets +onlyGivenNames v4
  clear_value v4
  extract_lets +onlyGivenNames v6
  refine Within.cut (x := v6) ?_ (fun h7 => ?_)
  · subst v6
    refine Within.step (onSmg_within _ _) rfl ?_
    exact Within.refl _ _
  · clear_value v6
    split
    · rename_i w8 w9 w10 w11
      refine Within.cut (Within.ofEq w11 ?_) (fun h12 => ?_)
      · refine Within.foldlSnd (fun u13 a14 => ?_) ?_
        · refine Within.step (beatOut_within _ _ _) rfl ?_
          exact Within.refl _ _
        · refine Within.mkSnd ?_
          exact h7
      split
      · rename_i w15 w16 w17 w18
        refine Within.cut (Within.ofEq w18 ?_) (fun h19 => ?_)
        · refine Within.foldlSnd (fun u20 a21 => ?_) ?_
          · refine Within.step (beatOut_within _ _ _) rfl ?_
            exact Within.refl _ _
          · refine Within.mkSnd ?_
            exact h12
        split
        · rename_i w22 w23 w24 w25
          refine Within.cut (Within.ofEq w25 ?_) (fun h26 => ?_)
          · refine Within.foldlSnd (fun u27 a28 => ?_) ?_
            · refine Within.step (fillDelay_within _ _ _ _) rfl ?_
              exact Within.refl _ _
            · refine Within.mkSnd ?_
              exact h19
          refine Within.step (settleTasks_within _ _) rfl ?_
          exact h26

end Sys2Proof.Machine
end

