-- ==== Sys2Proof/Laws/FrameScene.lean ====
section
/-! SUPPORT. What each operation of Machine/Scene.lean may change, and what it keeps. -/
namespace Sys2Proof.Machine

theorem onSq_within (c q f s) :
    Within [.scn] s (onSq c q f s) := by
  unfold onSq
  refine Within.scn rfl ?_
  exact Within.refl _ _

theorem onScene_within (o f s) :
    Within [.scn] s (onScene o f s) := by
  unfold onScene
  refine Within.scn rfl ?_
  exact Within.refl _ _

theorem interrupt_within (k vector s) :
    Within [.out] s (interrupt k vector s) := by
  unfold interrupt
  refine Within.ite (fun _ => ?_) (fun _ => ?_)
  · refine Within.step (emit_within _ _) rfl ?_
    exact Within.refl _ _
  · exact Within.refl _ _

theorem onSide_within (c f s) :
    Within [.scn] s (onSide c f s) := by
  unfold onSide
  refine Within.scn rfl ?_
  exact Within.refl _ _

theorem freeze_within (o c s) :
    Within [.scn] s (freeze o c s) := by
  unfold freeze
  split
  · rename_i w0 w1 w2
    refine Within.ite (fun _ => ?_) (fun _ => ?_)
    · extract_lets +onlyGivenNames v3
      clear_value v3
      extract_lets +onlyGivenNames v5
      clear_value v5
      refine Within.step (onSq_within _ _ _ _) rfl ?_
      exact Within.refl _ _
    · exact Within.refl _ _
  · rename_i w7 w8
    exact Within.refl _ _

theorem postCompletion_within (o c s) :
    Within [.out, .scn, .trl] s (postCompletion o c s) := by
  unfold postCompletion
  extract_lets +onlyGivenNames v0
  clear_value v0
  extract_lets +onlyGivenNames v2
  refine Within.cut (x := v2) ?_ (fun h3 => ?_)
  · subst v2
    refine Within.scn rfl ?_
    exact Within.refl _ _
  · clear_value v2
    refine Within.ite (fun _ => ?_) (fun _ => ?_)
    · exact h3
    · split
      · rename_i w4 w5 w6 w7 w8 w9 w10
        extract_lets +onlyGivenNames v11
        clear_value v11
        extract_lets +onlyGivenNames v13
        refine Within.cut (x := v13) ?_ (fun h14 => ?_)
        · subst v13
          refine Within.step (emit_within _ _) rfl ?_
          exact h3
        · clear_value v13
          extract_lets +onlyGivenNames v15
          clear_value v15
          extract_lets +onlyGivenNames v17
          clear_value v17
          extract_lets +onlyGivenNames v19
          refine Within.cut (x := v19) ?_ (fun h20 => ?_)
          · subst v19
            refine Within.upd ?_ (by constructor <;> first | exact .inl rfl | exact .inr rfl | exact Nat.le_refl _ | exact List.suffix_refl _ | exact id | exact Nat.le_add_right _ _ | exact .inr ⟨rfl, rfl⟩ | exact memWrite_wf | exact memErase_wf | exact Nat.le_of_eq (closeAllPages_next _).symm)
            exact h14
          · clear_value v19
            extract_lets +onlyGivenNames v21
            refine Within.cut (x := v21) ?_ (fun h22 => ?_)
            · subst v21
              refine Within.step (interrupt_within _ _ _) rfl ?_
              exact h20
            · clear_value v21
              extract_lets +onlyGivenNames v23
              refine Within.cut (x := v23) ?_ (fun h24 => ?_)
              · subst v23
                refine Within.ite (fun _ => ?_) (fun _ => ?_)
                · exact h22
                · refine Within.step (onSide_within _ _ _) rfl ?_
                  exact h22
              · clear_value v23
                refine Within.step (freeze_within _ _ _) rfl ?_
                exact h24
      · rename_i w25 w26 w27 w28
        exact h3

theorem tryPost_within (o s) :
    Within [.out, .scn, .trl] s (tryPost o s) := by
  unfold tryPost
  split
  · rename_i w0 w1 w2
    refine Within.ite (fun _ => ?_) (fun _ => ?_)
    · refine Within.ite (fun _ => ?_) (fun _ => ?_)
      · split
        · rename_i w3 w4 w5 w6 w7
          exact Within.refl _ _
        · rename_i w8 w9 w10 w11
          refine Within.step (onScene_within _ _ _) rfl ?_
          exact Within.refl _ _
      · refine Within.ite (fun _ => ?_) (fun _ => ?_)
        · refine Within.step (postCompletion_within _ _ _) rfl ?_
          exact Within.refl _ _
        · exact Within.refl _ _
    · exact Within.refl _ _
  · rename_i w12 w13
    exact Within.refl _ _

theorem noteReset_within (o c s) :
    Within [.hfe, .scn] s (noteReset o c s) := by
  unfold noteReset
  extract_lets +onlyGivenNames v0
  clear_value v0
  refine Within.ite (fun _ => ?_) (fun _ => ?_)
  · extract_lets +onlyGivenNames v2
    clear_value v2
    extract_lets +onlyGivenNames v4
    clear_value v4
    extract_lets +onlyGivenNames v6
    refine Within.cut (x := v6) ?_ (fun h7 => ?_)
    · subst v6
      refine Within.step (onSide_within _ _ _) rfl ?_
      exact Within.refl _ _
    · clear_value v6
      refine Within.ite (fun _ => ?_) (fun _ => ?_)
      · refine Within.hfe rfl ?_
        exact h7
      · exact h7
  · exact Within.refl _ _

theorem endRead_within (nsid obj s) :
    Within [.obj, .trl] s (endRead nsid obj s) := by
  unfold endRead
  split
  · rename_i w0 w1 w2
    split
    · rename_i w3 w4 w5
      refine Within.ite (fun _ => ?_) (fun _ => ?_)
      · refine Within.upd ?_ (by constructor <;> first | exact .inl rfl | exact .inr rfl | exact Nat.le_refl _ | exact List.suffix_refl _ | exact id | exact Nat.le_add_right _ _ | exact .inr ⟨rfl, rfl⟩ | exact memWrite_wf | exact memErase_wf | exact Nat.le_of_eq (closeAllPages_next _).symm)
        exact Within.refl _ _
      · extract_lets +onlyGivenNames v6
        clear_value v6
        refine Within.obj rfl ?_
        exact Within.refl _ _
    · rename_i w8 w9
      exact Within.refl _ _
  · rename_i w10 w11
    exact Within.refl _ _

theorem dropVersion_within (c s) :
    Within [.obj, .trl] s (dropVersion c s) := by
  unfold dropVersion
  split
  · rename_i w0 w1 w2
    refine Within.step (endRead_within _ _ _) rfl ?_
    exact Within.refl _ _
  · rename_i w3 w4
    exact Within.refl _ _

theorem releaseStaging_within (c s) :
    Within [.hfe] s (releaseStaging c s) := by
  unfold releaseStaging
  refine Within.hfe rfl ?_
  exact Within.refl _ _

theorem forgetExec_within (o s) :
    Within [.bob] s (forgetExec o s) := by
  unfold forgetExec
  refine Within.bob rfl ?_
  exact Within.refl _ _

theorem noteCommit_within (c s) :
    Within [.scn] s (noteCommit c s) := by
  unfold noteCommit
  extract_lets +onlyGivenNames v0
  clear_value v0
  extract_lets +onlyGivenNames v2
  clear_value v2
  extract_lets +onlyGivenNames v4
  clear_value v4
  extract_lets +onlyGivenNames v6
  refine Within.cut (x := v6) ?_ (fun h7 => ?_)
  · subst v6
    refine Within.scn rfl ?_
    exact Within.refl _ _
  · clear_value v6
    refine Within.step (onSq_within _ _ _ _) rfl ?_
    exact h7

theorem retire_within (o st dw0 s) :
    Within [.out, .hfe, .scn, .obj, .trl, .bob] s (retire o st dw0 s) := by
  unfold retire
  split
  · rename_i w0 w1 w2
    extract_lets +onlyGivenNames v3
    clear_value v3
    extract_lets +onlyGivenNames v5
    clear_value v5
    extract_lets +onlyGivenNames v7
    refine Within.cut (x := v7) ?_ (fun h8 => ?_)
    · subst v7
      refine Within.scn rfl ?_
      exact Within.refl _ _
    · clear_value v7
      refine Within.step (tryPost_within _ _) rfl ?_
      refine Within.step (noteReset_within _ _ _) rfl ?_
      refine Within.step (dropVersion_within _ _) rfl ?_
      refine Within.step (releaseStaging_within _ _) rfl ?_
      refine Within.step (forgetExec_within _ _) rfl ?_
      refine Within.step (noteCommit_within _ _) rfl ?_
      exact h8
  · rename_i w9 w10
    exact Within.refl _ _

theorem returnReserve_within (c s) :
    Within [.trl] s (returnReserve c s) := by
  unfold returnReserve
  split
  · rename_i w0 w1 w2
    refine Within.trl rfl ?_
    exact Within.refl _ _
  · rename_i w3 w4
    exact Within.refl _ _

theorem freeBytes_within (n s) :
    Within [.free] s (freeBytes n s).2 := by
  unfold freeBytes
  refine Within.mkSnd ?_
  refine Within.upd ?_ (by constructor <;> first | exact .inl rfl | exact .inr rfl | exact Nat.le_refl _ | exact List.suffix_refl _ | exact id | exact Nat.le_add_right _ _ | exact .inr ⟨rfl, rfl⟩ | exact memWrite_wf | exact memErase_wf | exact Nat.le_of_eq (closeAllPages_next _).symm)
  exact Within.refl _ _

theorem slmWrite_within (tag off b s) :
    Within [.slm] s (slmWrite tag off b s) := by
  unfold slmWrite
  refine Within.slm rfl ?_ memWrite_wf
  exact Within.refl _ _

theorem undoExec_within (o c s) :
    Within [.free, .bob, .slm] s (undoExec o c s) := by
  unfold undoExec
  split
  · rename_i w0 w1 w2 w3 w4 w5
    refine Within.ite (fun _ => ?_) (fun _ => ?_)
    · split
      · rename_i w6 w7 w8 w9 w10
        refine Within.cut (Within.ofEq w10 ?_) (fun h11 => ?_)
        · refine Within.step (freeBytes_within _ _) rfl ?_
          exact Within.refl _ _
        refine Within.step (forgetExec_within _ _) rfl ?_
        refine Within.step (slmWrite_within _ _ _ _) rfl ?_
        exact h11
    · refine Within.step (forgetExec_within _ _) rfl ?_
      exact Within.refl _ _
  · rename_i w12 w13 w14
    exact Within.refl _ _

theorem rollBack_within (o st s) :
    Within [.free, .out, .bus, .evt, .cue, .hfe, .scn, .obj, .trl, .smg, .bob, .tly, .scr, .slm] s (rollBack o st s) := by
  unfold rollBack
  split
  · rename_i w0 w1 w2
    refine Within.ite (fun _ => ?_) (fun _ => ?_)
    · exact Within.refl _ _
    · extract_lets +onlyGivenNames v3
      clear_value v3
      extract_lets +onlyGivenNames v5
      clear_value v5
      extract_lets +onlyGivenNames v7
      clear_value v7
      extract_lets +onlyGivenNames v9
      refine Within.cut (x := v9) ?_ (fun h10 => ?_)
      · subst v9
        refine Within.scn rfl ?_
        exact Within.refl _ _
      · clear_value v9
        extract_lets +onlyGivenNames v11
        clear_value v11
        extract_lets +onlyGivenNames v13
        refine Within.cut (x := v13) ?_ (fun h14 => ?_)
        · subst v13
          refine Within.hfe rfl ?_
          exact h10
        · clear_value v13
          extract_lets +onlyGivenNames v15
          refine Within.cut (x := v15) ?_ (fun h16 => ?_)
          · subst v15
            refine Within.step (count1_within _ _) rfl ?_
            refine Within.step (count1_within _ _) rfl ?_
            exact h14
          · clear_value v15
            refine Within.step (tryPost_within _ _) rfl ?_
            refine Within.step (noteReset_within _ _ _) rfl ?_
            refine Within.step (dropVersion_within _ _) rfl ?_
            refine Within.step (returnReserve_within _ _) rfl ?_
            refine Within.step (releaseStaging_within _ _) rfl ?_
            refine Within.step (cancelTasks_within _ _) rfl ?_
            refine Within.step (undoExec_within _ _ _) rfl ?_
            exact h16
  · rename_i w17 w18
    exact Within.refl _ _

theorem retireFence_within (o s) :
    Within [.out, .hfe, .scn, .obj, .trl, .bob] s (retireFence o s) := by
  unfold retireFence
  split
  · rename_i w0 w1 w2
    extract_lets +onlyGivenNames v3
    clear_value v3
    extract_lets +onlyGivenNames v5
    refine Within.cut (x := v5) ?_ (fun h6 => ?_)
    · subst v5
      refine Within.scn rfl ?_
      exact Within.refl _ _
    · clear_value v5
      refine Within.step (retire_within _ _ _ _) rfl ?_
      exact h6
  · rename_i w7 w8
    exact Within.refl _ _

theorem retireAer_within (o s) :
    Within [.out, .evt, .hfe, .scn, .obj, .trl, .bob] s (retireAer o s) := by
  unfold retireAer
  refine Within.step (retire_within _ _ _ _) rfl ?_
  refine Within.evt rfl ?_ (Nat.le_refl _)
  exact Within.refl _ _

theorem openScene_within (h opcode kind need s) :
    Within [.out, .bus, .evt, .cue, .hfe, .scn, .smg, .bob] s (openScene h opcode kind need s).2 := by
  unfold openScene
  extract_lets +onlyGivenNames v0
  clear_value v0
  extract_lets +onlyGivenNames v2
  clear_value v2
  extract_lets +onlyGivenNames v4
  clear_value v4
  extract_lets +onlyGivenNames v6
  refine Within.cut (x := v6) ?_ (fun h7 => ?_)
  · subst v6
    refine Within.upd ?_ (by constructor <;> first | exact .inl rfl | exact .inr rfl | exact Nat.le_refl _ | exact List.suffix_refl _ | exact id | exact Nat.le_add_right _ _ | exact .inr ⟨rfl, rfl⟩ | exact memWrite_wf | exact memErase_wf | exact Nat.le_of_eq (closeAllPages_next _).symm)
    exact Within.refl _ _
  · clear_value v6
    split
    · rename_i w8 w9 w10 w11
      refine Within.cut (Within.ofEq w11 ?_) (fun h12 => ?_)
      · refine Within.step (createOwn_within _ _) rfl ?_
        exact h7
      refine Within.mkSnd ?_
      refine Within.step (countHigh_within _ _ _) rfl ?_
      exact h12

theorem endAtOnce_within (h opcode st dw0 s) :
    Within [.out, .bus, .evt, .cue, .hfe, .scn, .obj, .trl, .smg, .bob] s (endAtOnce h opcode st dw0 s) := by
  unfold endAtOnce
  split
  · rename_i w0 w1 w2 w3
    refine Within.cut (Within.ofEq w3 ?_) (fun h4 => ?_)
    · refine Within.step (openScene_within _ _ _ _ _) rfl ?_
      exact Within.refl _ _
    refine Within.step (retire_within _ _ _ _) rfl ?_
    exact h4

theorem failCmd_within (h opcode st s) :
    Within [.out, .bus, .evt, .cue, .hfe, .scn, .obj, .trl, .smg, .bob] s (failCmd h opcode st s) := by
  unfold failCmd
  refine Within.step (endAtOnce_within _ _ _ _ _) rfl ?_
  exact Within.refl _ _

theorem countHold_within (o c s) :
    Within [.bus] s (countHold o c s) := by
  unfold countHold
  extract_lets +onlyGivenNames v0
  refine Within.cut (x := v0) ?_ (fun h1 => ?_)
  · subst v0
    refine Within.ite (fun _ => ?_) (fun _ => ?_)
    · refine Within.step (count1_within _ _) rfl ?_
      refine Within.step (count1_within _ _) rfl ?_
      exact Within.refl _ _
    · exact Within.refl _ _
  · clear_value v0
    refine Within.ite (fun _ => ?_) (fun _ => ?_)
    · refine Within.step (count1_within _ _) rfl ?_
      exact h1
    · exact h1

end Sys2Proof.Machine
end

