-- ==== Sys2Proof/Laws/FrameCommit.lean ====
section
/-! SUPPORT. What each operation of Machine/Commit.lean may change, and what it keeps. -/
namespace Sys2Proof.Machine

theorem onNs_within (nsid f s) :
    Within [.obj] s (onNs nsid f s) := by
  unfold onNs
  refine Within.obj rfl ?_
  exact Within.refl _ _

theorem readVersion_within (o c key s) :
    Within [.out, .bus, .evt, .cue, .scn, .obj, .trl, .flc] s (readVersion o c key s) := by
  unfold readVersion
  split
  · rename_i w0 w1
    refine Within.step (onScene_within _ _ _) rfl ?_
    exact Within.refl _ _
  · rename_i w2 w3 w4
    split
    · rename_i w5 w6
      refine Within.step (onScene_within _ _ _) rfl ?_
      exact Within.refl _ _
    · rename_i w7 w8 w9 w10
      extract_lets +onlyGivenNames v11
      clear_value v11
      extract_lets +onlyGivenNames v13
      clear_value v13
      extract_lets +onlyGivenNames v15
      refine Within.cut (x := v15) ?_ (fun h16 => ?_)
      · subst v15
        refine Within.step (onNs_within _ _ _) rfl ?_
        exact Within.refl _ _
      · clear_value v15
        split
        · rename_i w17 w18 w19 w20
          refine Within.cut (Within.ofEq w20 ?_) (fun h21 => ?_)
          · refine Within.iteSnd (fun _ => ?_) (fun _ => ?_)
            · refine Within.step (readUnits_within _ _ _) rfl ?_
              exact h16
            · refine Within.mkSnd ?_
              exact h16
          extract_lets +onlyGivenNames v22
          clear_value v22
          extract_lets +onlyGivenNames v24
          clear_value v24
          refine Within.step (onScene_within _ _ _) rfl ?_
          exact h21

theorem takePoint_within (o slm s) :
    Within [.out, .bus, .evt, .cue, .scn, .obj, .trl, .flc] s (takePoint o slm s) := by
  unfold takePoint
  split
  · rename_i w0 w1
    exact Within.refl _ _
  · rename_i w2 w3 w4
    extract_lets +onlyGivenNames v5
    refine Within.cut (x := v5) ?_ (fun h6 => ?_)
    · subst v5
      refine Within.step (onScene_within _ _ _) rfl ?_
      exact Within.refl _ _
    · clear_value v5
      extract_lets +onlyGivenNames v7
      clear_value v7
      extract_lets +onlyGivenNames v9
      subst v9
      split
      · rename_i w11 w12 w13 w14 w15
        dsimp only
        split
        · rename_i w16 w17 w18
          refine Within.step (onScene_within _ _ _) rfl ?_
          refine Within.step (readUnits_within _ _ _) rfl ?_
          exact h6
        · rename_i w19 w20
          refine Within.step (onScene_within _ _ _) rfl ?_
          exact h6
      · rename_i w21 w22 w23 w24
        dsimp only
        split
        · rename_i w25 w26 w27
          refine Within.step (onScene_within _ _ _) rfl ?_
          refine Within.step (readUnits_within _ _ _) rfl ?_
          exact h6
        · rename_i w28 w29
          refine Within.step (onScene_within _ _ _) rfl ?_
          exact h6
      · rename_i w30 w31 w32 w33
        split
        · rename_i w34 w35 w36
          extract_lets +onlyGivenNames v37
          clear_value v37
          extract_lets +onlyGivenNames v39
          clear_value v39
          split
          · rename_i w41 w42 w43 w44
            refine Within.cut (Within.ofEq w44 ?_) (fun h45 => ?_)
            · refine Within.step (readUnits_within _ _ _) rfl ?_
              exact h6
            extract_lets +onlyGivenNames v46
            clear_value v46
            extract_lets +onlyGivenNames v48
            clear_value v48
            refine Within.step (onScene_within _ _ _) rfl ?_
            exact h45
        · rename_i w50 w51
          refine Within.step (onScene_within _ _ _) rfl ?_
          exact h6
      · rename_i w52 w53 w54 w55
        extract_lets +onlyGivenNames v56
        clear_value v56
        refine Within.step (onScene_within _ _ _) rfl ?_
        exact h6
      · rename_i w58 w59 w60 w61
        refine Within.step (readVersion_within _ _ _ _) rfl ?_
        exact h6
      · rename_i w62 w63 w64
        split
        · rename_i w65 w66
          refine Within.step (readVersion_within _ _ _ _) rfl ?_
          exact h6
        · rename_i w67 w68
          dsimp only
          split
          · rename_i w69 w70 w71
            refine Within.step (onScene_within _ _ _) rfl ?_
            refine Within.step (readUnits_within _ _ _) rfl ?_
            exact h6
          · rename_i w72 w73
            refine Within.step (onScene_within _ _ _) rfl ?_
            exact h6
        · rename_i w74 w75 w76
          extract_lets +onlyGivenNames v77
          clear_value v77
          refine Within.step (onScene_within _ _ _) rfl ?_
          exact h6
      · rename_i w79 w80 w81
        refine Within.step (readVersion_within _ _ _ _) rfl ?_
        exact h6
      · rename_i w82 w83 w84 w85
        split
        · rename_i w86 w87 w88
          refine Within.step (onScene_within _ _ _) rfl ?_
          exact h6
        · rename_i w89 w90
          refine Within.step (onScene_within _ _ _) rfl ?_
          exact h6
      · rename_i w91 w92 w93 w94 w95 w96 w97 w98 w99
        exact h6

theorem placeAll_within (tag nsid seq us s) :
    Within [.trl] s (placeAll tag nsid seq us s) := by
  unfold placeAll
  extract_lets +onlyGivenNames v0
  refine Within.cut (x := v0) ?_ (fun h1 => ?_)
  · subst v0
    refine Within.foldl (fun u2 a3 => ?_) ?_
    · refine Within.step (placeUnit_within _ _ _ _ _ _) rfl ?_
      exact Within.refl _ _
    · exact Within.refl _ _
  · clear_value v0
    split
    · rename_i w4 w5 w6 w7
      refine Within.trl rfl ?_
      exact h1

theorem clearUnits_within (e us s) :
    Within [.trl] s (clearUnits e us s) := by
  unfold clearUnits
  extract_lets +onlyGivenNames v0
  clear_value v0
  extract_lets +onlyGivenNames v2
  refine Within.cut (x := v2) ?_ (fun h3 => ?_)
  · subst v2
    refine Within.foldl (fun u4 a5 => ?_) ?_
    · extract_lets +onlyGivenNames v6
      clear_value v6
      refine Within.ite (fun _ => ?_) (fun _ => ?_)
      · refine Within.trl rfl ?_
        exact Within.refl _ _
      · split
        · rename_i w8 w9 w10
          refine Within.ite (fun _ => ?_) (fun _ => ?_)
          · exact Within.refl _ _
          · refine Within.trl rfl ?_
            exact Within.refl _ _
        · rename_i w11 w12 w13 w14
          extract_lets +onlyGivenNames v15
          clear_value v15
          refine Within.trl rfl ?_
          exact Within.refl _ _
        · rename_i w17 w18 w19 w20 w21
          refine Within.ite (fun _ => ?_) (fun _ => ?_)
          · extract_lets +onlyGivenNames v22
            clear_value v22
            extract_lets +onlyGivenNames v24
            clear_value v24
            refine Within.trl rfl ?_
            exact Within.refl _ _
          · exact Within.refl _ _
    · exact Within.refl _ _
  · clear_value v2
    split
    · rename_i w26 w27 w28 w29
      refine Within.trl rfl ?_
      exact h3

theorem supersede_within (nsid obj s) :
    Within [.obj, .trl] s (supersede nsid obj s) := by
  unfold supersede
  split
  · rename_i w0 w1 w2
    split
    · rename_i w3 w4 w5
      refine Within.ite (fun _ => ?_) (fun _ => ?_)
      · refine Within.upd ?_ (by constructor <;> first | exact .inl rfl | exact .inr rfl | exact Nat.le_refl _ | exact List.suffix_refl _ | exact id | exact Nat.le_add_right _ _ | exact .inr ⟨rfl, rfl⟩ | exact memWrite_wf | exact memErase_wf | exact Nat.le_of_eq (closeAllPages_next _).symm)
        exact Within.refl _ _
      · extract_lets +onlyGivenNames v6
        clear_value v6
        refine Within.obj rfl ?_
        exact Within.refl _ _
    · rename_i w8 w9
      exact Within.refl _ _
  · rename_i w10 w11
    exact Within.refl _ _

theorem commitVersion_within (nsid seq key value noCompress imported origTai r s) :
    Within [.bus, .obj, .trl] s (commitVersion nsid seq key value noCompress imported origTai r s) := by
  unfold commitVersion
  split
  · rename_i w0 w1
    exact Within.refl _ _
  · rename_i w2 w3 w4
    extract_lets +onlyGivenNames v5
    clear_value v5
    extract_lets +onlyGivenNames v7
    clear_value v7
    extract_lets +onlyGivenNames v9
    clear_value v9
    extract_lets +onlyGivenNames v11
    clear_value v11
    extract_lets +onlyGivenNames v13
    clear_value v13
    extract_lets +onlyGivenNames v15
    clear_value v15
    extract_lets +onlyGivenNames v17
    clear_value v17
    extract_lets +onlyGivenNames v19
    clear_value v19
    extract_lets +onlyGivenNames v21
    refine Within.cut (x := v21) ?_ (fun h22 => ?_)
    · subst v21
      refine Within.upd ?_ (by constructor <;> first | exact .inl rfl | exact .inr rfl | exact Nat.le_refl _ | exact List.suffix_refl _ | exact id | exact Nat.le_add_right _ _ | exact .inr ⟨rfl, rfl⟩ | exact memWrite_wf | exact memErase_wf | exact Nat.le_of_eq (closeAllPages_next _).symm)
      exact Within.refl _ _
    · clear_value v21
      extract_lets +onlyGivenNames v23
      refine Within.cut (x := v23) ?_ (fun h24 => ?_)
      · subst v23
        refine Within.step (placeAll_within _ _ _ _ _) rfl ?_
        exact h22
      · clear_value v23
        extract_lets +onlyGivenNames v25
        clear_value v25
        extract_lets +onlyGivenNames v27
        clear_value v27
        extract_lets +onlyGivenNames v29
        refine Within.cut (x := v29) ?_ (fun h30 => ?_)
        · subst v29
          refine Within.trl rfl ?_
          exact h24
        · clear_value v29
          extract_lets +onlyGivenNames v31
          refine Within.cut (x := v31) ?_ (fun h32 => ?_)
          · subst v31
            refine Within.ite (fun _ => ?_) (fun _ => ?_)
            · refine Within.step (count1_within _ _) rfl ?_
              exact h30
            · exact h30
          · clear_value v31
            split
            · rename_i w33 w34 w35
              refine Within.step (supersede_within _ _ _) rfl ?_
              exact h32
            · rename_i w36
              exact h32

theorem noteUndo_within (seq nsid s) :
    Within [.obj] s (noteUndo seq nsid s) := by
  unfold noteUndo
  split
  · rename_i w0 w1
    exact Within.refl _ _
  · rename_i w2 w3 w4
    extract_lets +onlyGivenNames v5
    clear_value v5
    extract_lets +onlyGivenNames v7
    clear_value v7
    refine Within.obj rfl ?_
    exact Within.refl _ _

theorem undoCommits_within (keep s) :
    Within [.obj, .trl] s (undoCommits keep s) := by
  unfold undoCommits
  extract_lets +onlyGivenNames v0
  clear_value v0
  extract_lets +onlyGivenNames v2
  clear_value v2
  split
  · rename_i w4
    exact Within.refl _ _
  · rename_i w5 w6 w7
    extract_lets +onlyGivenNames v8
    clear_value v8
    extract_lets +onlyGivenNames v10
    clear_value v10
    extract_lets +onlyGivenNames v12
    clear_value v12
    extract_lets +onlyGivenNames v14
    clear_value v14
    extract_lets +onlyGivenNames v16
    clear_value v16
    extract_lets +onlyGivenNames v18
    clear_value v18
    extract_lets +onlyGivenNames v20
    clear_value v20
    extract_lets +onlyGivenNames v22
    clear_value v22
    extract_lets +onlyGivenNames v24
    clear_value v24
    extract_lets +onlyGivenNames v26
    clear_value v26
    refine Within.upd ?_ (by constructor <;> first | exact .inl rfl | exact .inr rfl | exact Nat.le_refl _ | exact List.suffix_refl _ | exact id | exact Nat.le_add_right _ _ | exact .inr ⟨rfl, rfl⟩ | exact memWrite_wf | exact memErase_wf | exact Nat.le_of_eq (closeAllPages_next _).symm)
    exact Within.refl _ _

theorem enterFinal_within (s) :
    Within [.out, .bus, .evt, .dev, .trl, .phase] s (enterFinal s) := by
  unfold enterFinal
  refine Within.ite (fun _ => ?_) (fun _ => ?_)
  · exact Within.refl _ _
  · extract_lets +onlyGivenNames v0
    refine Within.cut (x := v0) ?_ (fun h1 => ?_)
    · subst v0
      refine Within.step (transition_within _ _) rfl ?_
      exact Within.refl _ _
    · clear_value v0
      refine Within.trl rfl ?_
      exact h1

theorem trimUndo_within (s) :
    Within [.obj] s (trimUndo s) := by
  unfold trimUndo
  refine Within.obj rfl ?_
  exact Within.refl _ _

end Sys2Proof.Machine
end

