-- ==== Sys2Proof/Laws/FrameExec.lean ====
section
/-! SUPPORT. What each operation of Machine/Exec.lean may change, and what it keeps. -/
namespace Sys2Proof.Machine

theorem onBob_within (f s) :
    Within [.bob] s (onBob f s) := by
  unfold onBob
  refine Within.bob rfl ?_
  exact Within.refl _ _

theorem execFail_within (o st dw0 dw1 s) :
    Within [.free, .out, .bus, .evt, .cue, .hfe, .scn, .obj, .trl, .smg, .bob, .tly, .scr, .slm] s (execFail o st dw0 dw1 s) := by
  unfold execFail
  refine Within.step (rollBack_within _ _ _) rfl ?_
  refine Within.step (onScene_within _ _ _) rfl ?_
  exact Within.refl _ _

theorem checkDone_within (o s) :
    Within [.scn, .bob] s (checkDone o s) := by
  unfold checkDone
  split
  · rename_i w0 w1 w2
    refine Within.ite (fun _ => ?_) (fun _ => ?_)
    · refine Within.step (onScene_within _ _ _) rfl ?_
      refine Within.step (onBob_within _ _) rfl ?_
      exact Within.refl _ _
    · exact Within.refl _ _
  · rename_i w3 w4
    exact Within.refl _ _

theorem submitOne_within (o c e p s) :
    Within [.out, .bus, .evt, .cue, .hfe, .scn, .smg, .bob] s (submitOne o c e p s) := by
  unfold submitOne
  extract_lets +onlyGivenNames v0
  clear_value v0
  split
  · rename_i w2 w3 w4 w5
    refine Within.cut (Within.ofEq w5 ?_) (fun h6 => ?_)
    · refine Within.step (createOwn_within _ _) rfl ?_
      exact Within.refl _ _
    refine Within.step (onBob_within _ _) rfl ?_
    exact h6

theorem submitAll_within (a0 a1 a2 a3) :
    Within [.free, .out, .bus, .evt, .cue, .hfe, .scn, .obj, .trl, .smg, .bob, .tly, .scr, .slm] a3 (submitAll a0 a1 a2 a3) := by
  fun_induction submitAll a0 a1 a2 a3
  · rename_i r0 r1 r2
    exact Within.refl _ _
  · rename_i r0 r1 r2 r3 r4 r5 r6 r7 r8 r9 r10
    refine Within.step (execFail_within _ _ _ _ _) rfl ?_
    exact Within.refl _ _
  · rename_i r0 r1 r2 r3 r4 r5 r6 r7 r8 r9 r10
    refine Within.step (onBob_within _ _) rfl ?_
    exact Within.refl _ _
  · rename_i r0 r1 r2 r3 r4 r5 r6 r7 r8 r9 r10
    refine Within.trans ?_ (r10 )
    refine Within.step (submitOne_within _ _ _ _ _) rfl ?_
    exact Within.refl _ _
  · rename_i r0 r1 r2 r3 r4 r5 r6 r7
    exact Within.refl _ _
  · rename_i r0 r1 r2 r3 r4 r5 r6
    exact Within.refl _ _
  · rename_i r0 r1 r2 r3 r4
    exact Within.refl _ _

theorem runExec_within (o c s) :
    Within [.free, .out, .bus, .evt, .cue, .hfe, .scn, .obj, .trl, .smg, .bob, .tly, .scr, .slm] s (runExec o c s) := by
  unfold runExec
  split
  · rename_i w0 w1 w2
    split
    · rename_i w3 w4
      refine Within.ite (fun _ => ?_) (fun _ => ?_)
      · refine Within.step (execFail_within _ _ _ _ _) rfl ?_
        exact Within.refl _ _
      · extract_lets +onlyGivenNames v5
        clear_value v5
        extract_lets +onlyGivenNames v7
        clear_value v7
        extract_lets +onlyGivenNames v9
        refine Within.cut (x := v9) ?_ (fun h10 => ?_)
        · subst v9
          refine Within.step (onScene_within _ _ _) rfl ?_
          refine Within.step (onBob_within _ _) rfl ?_
          exact Within.refl _ _
        · clear_value v9
          refine Within.step (checkDone_within _ _) rfl ?_
          refine Within.step (submitAll_within _ _ _ _) rfl ?_
          exact h10
    · rename_i w11 w12 w13
      refine Within.step (checkDone_within _ _) rfl ?_
      refine Within.step (submitAll_within _ _ _ _) rfl ?_
      exact Within.refl _ _
  · rename_i w14 w15
    exact Within.refl _ _

theorem deliverOuts_within (a0 a1 a2 a3) :
    Within [.free, .out, .bus, .evt, .cue, .hfe, .scn, .obj, .trl, .smg, .bob, .tly, .scr, .slm] a3 (deliverOuts a0 a1 a2 a3) := by
  induction a0 generalizing a1 a2 a3
  · rw [deliverOuts]
    exact Within.refl _ _
  · rename_i r0 r1
    rw [deliverOuts]
    split
    · rename_i w0 w1 w2 w3 w4 w5
      split
      · rename_i w6 w7 w8
        refine Within.ite (fun _ => ?_) (fun _ => ?_)
        · refine Within.step (execFail_within _ _ _ _ _) rfl ?_
          exact Within.refl _ _
        · extract_lets +onlyGivenNames v9
          refine Within.cut (x := v9) ?_ (fun h10 => ?_)
          · subst v9
            refine Within.ite (fun _ => ?_) (fun _ => ?_)
            · refine Within.step (slmWrite_within _ _ _ _) rfl ?_
              exact Within.refl _ _
            · exact Within.refl _ _
          · clear_value v9
            extract_lets +onlyGivenNames v11
            clear_value v11
            extract_lets +onlyGivenNames v13
            clear_value v13
            extract_lets +onlyGivenNames v15
            refine Within.cut (x := v15) ?_ (fun h16 => ?_)
            · subst v15
              refine Within.step (onBob_within _ _) rfl ?_
              exact h10
            · clear_value v15
              split
              · rename_i w17 w18 w19 w20
                refine Within.ite (fun _ => ?_) (fun _ => ?_)
                · refine Within.step (execFail_within _ _ _ _ _) rfl ?_
                  exact h16
                · refine Within.trans ?_ (r1 _ _ _)
                  exact h16
              · rename_i w21 w22 w23
                exact h16
      · rename_i w24 w25
        exact Within.refl _ _
    · rename_i w26 w27 w28
      exact Within.refl _ _

theorem windowStore_within (tag setId off b s) :
    Within [.slm] s (windowStore tag setId off b s) := by
  unfold windowStore
  extract_lets +onlyGivenNames v0
  clear_value v0
  refine Within.foldl (fun u2 a3 => ?_) ?_
  · split
    · rename_i w4 w5 w6
      refine Within.step (slmWrite_within _ _ _ _) rfl ?_
      exact Within.refl _ _
    · rename_i w7 w8
      exact Within.refl _ _
  · exact Within.refl _ _

theorem keepResult_within (v m out stop state s) :
    Within [.bob] s (keepResult v m out stop state s) := by
  unfold keepResult
  refine Within.step (onBob_within _ _) rfl ?_
  exact Within.refl _ _

end Sys2Proof.Machine
end

