-- ==== Sys2Proof/Laws/FrameGate.lean ====
section
/-! SUPPORT. What each operation of Machine/Gate.lean may change, and what it keeps. -/
namespace Sys2Proof.Machine

theorem takeStaging_within (tag n s) :
    Within [.hfe] s (takeStaging tag n s) := by
  unfold takeStaging
  refine Within.hfe rfl ?_
  exact Within.refl _ _

theorem queueCapsule_within (ctrl q cap s) :
    Within [.hfe, .scn] s (queueCapsule ctrl q cap s) := by
  unfold queueCapsule
  extract_lets +onlyGivenNames v0
  refine Within.cut (x := v0) ?_ (fun h1 => ?_)
  · subst v0
    refine Within.step (onSq_within _ _ _ _) rfl ?_
    exact Within.refl _ _
  · clear_value v0
    refine Within.ite (fun _ => ?_) (fun _ => ?_)
    · exact h1
    · refine Within.step (takeStaging_within _ _ _) rfl ?_
      refine Within.hfe rfl ?_
      exact h1

theorem admitCapsules_within (s) :
    Within [.hfe, .scn] s (admitCapsules s) := by
  unfold admitCapsules
  extract_lets +onlyGivenNames v0
  refine Within.cut (x := v0) ?_ (fun h1 => ?_)
  · subst v0
    refine Within.foldl (fun u2 a3 => ?_) ?_
    · split
      · rename_i w4 w5 w6 w7 w8 w9 w10
        refine Within.ite (fun _ => ?_) (fun _ => ?_)
        · refine Within.step (queueCapsule_within _ _ _ _) rfl ?_
          refine Within.hfe rfl ?_
          exact Within.refl _ _
        · exact Within.refl _ _
      · rename_i w11 w12 w13
        exact Within.refl _ _
    · exact Within.refl _ _
  · clear_value v0
    refine Within.foldl (fun u14 a15 => ?_) ?_
    · split
      · rename_i w16 w17 w18 w19 w20 w21 w22
        refine Within.ite (fun _ => ?_) (fun _ => ?_)
        · refine Within.step (queueCapsule_within _ _ _ _) rfl ?_
          refine Within.hfe rfl ?_
          exact Within.refl _ _
        · exact Within.refl _ _
      · rename_i w23 w24 w25
        exact Within.refl _ _
    · exact h1

theorem finishDelete_within (key by' s) :
    Within [.out, .hfe, .scn, .obj, .trl, .bob] s (finishDelete key by' s) := by
  unfold finishDelete
  extract_lets +onlyGivenNames v0
  clear_value v0
  extract_lets +onlyGivenNames v2
  clear_value v2
  refine Within.ite (fun _ => ?_) (fun _ => ?_)
  · exact Within.refl _ _
  · extract_lets +onlyGivenNames v4
    clear_value v4
    extract_lets +onlyGivenNames v6
    refine Within.cut (x := v6) ?_ (fun h7 => ?_)
    · subst v6
      refine Within.scn rfl ?_
      exact Within.refl _ _
    · clear_value v6
      split
      · rename_i w8 w9 w10
        refine Within.step (retire_within _ _ _ _) rfl ?_
        exact h7
      · rename_i w11 w12 w13 w14
        refine Within.step (emit_within _ _) rfl ?_
        exact h7

theorem finishDeletes_within (s) :
    Within [.out, .hfe, .scn, .obj, .trl, .bob] s (finishDeletes s) := by
  unfold finishDeletes
  refine Within.foldl (fun u0 a1 => ?_) ?_
  · split
    · rename_i w2 w3 w4
      refine Within.step (finishDelete_within _ _ _) rfl ?_
      exact Within.refl _ _
    · rename_i w5 w6
      exact Within.refl _ _
  · exact Within.refl _ _

theorem payCredit_within (s c) :
    Within [.trl] s (payCredit s c) := by
  unfold payCredit
  refine Within.ite (fun _ => ?_) (fun _ => ?_)
  · split
    · rename_i w0 w1 w2 w3
      refine Within.trl rfl ?_
      exact Within.refl _ _
    · rename_i w4 w5 w6
      exact Within.refl _ _
  · exact Within.refl _ _

theorem retireWrite_within (o c s) :
    Within [.out, .hfe, .scn, .obj, .trl, .bob] s (retireWrite o c s) := by
  unfold retireWrite
  refine Within.step (retire_within _ _ _ _) rfl ?_
  refine Within.ite (fun _ => ?_) (fun _ => ?_)
  · refine Within.step (onScene_within _ _ _) rfl ?_
    exact Within.refl _ _
  · exact Within.refl _ _

theorem dropData_within (nsid s) :
    Within [.obj, .trl] s (dropData nsid s) := by
  unfold dropData
  split
  · rename_i w0 w1
    exact Within.refl _ _
  · rename_i w2 w3 w4
    extract_lets +onlyGivenNames v5
    clear_value v5
    extract_lets +onlyGivenNames v7
    clear_value v7
    refine Within.upd ?_ (by constructor <;> first | exact .inl rfl | exact .inr rfl | exact Nat.le_refl _ | exact List.suffix_refl _ | exact id | exact Nat.le_add_right _ _ | exact .inr ⟨rfl, rfl⟩ | exact memWrite_wf | exact memErase_wf | exact Nat.le_of_eq (closeAllPages_next _).symm)
    exact Within.refl _ _

theorem cryptErase_within (nsid s) :
    Within [.free, .obj, .trl, .scr] s (cryptErase nsid s) := by
  unfold cryptErase
  split
  · rename_i w0 w1 w2 w3
    refine Within.cut (Within.ofEq w3 ?_) (fun h4 => ?_)
    · refine Within.step (drawSecret_within _) rfl ?_
      refine Within.step (dropData_within _ _) rfl ?_
      exact Within.refl _ _
    refine Within.upd ?_ (by constructor <;> first | exact .inl rfl | exact .inr rfl | exact Nat.le_refl _ | exact List.suffix_refl _ | exact id | exact Nat.le_add_right _ _ | exact .inr ⟨rfl, rfl⟩ | exact memWrite_wf | exact memErase_wf | exact Nat.le_of_eq (closeAllPages_next _).symm)
    exact h4

theorem rewrap_within (s) :
    Within [.free, .scr] s (rewrap s) := by
  unfold rewrap
  split
  · rename_i w0 w1 w2 w3
    refine Within.cut (Within.ofEq w3 ?_) (fun h4 => ?_)
    · refine Within.step (drawSecret_within _) rfl ?_
      exact Within.refl _ _
    refine Within.scr rfl ?_
    exact h4

theorem applyCommit_within (o c s) :
    Within [.free, .out, .bus, .evt, .cue, .hfe, .scn, .obj, .trl, .smg, .bob, .tly, .scr, .slm] s (applyCommit o c s) := by
  unfold applyCommit
  split
  · rename_i w0 w1 w2 w3 w4
    extract_lets +onlyGivenNames v5
    refine Within.cut (x := v5) ?_ (fun h6 => ?_)
    · subst v5
      refine Within.ite (fun _ => ?_) (fun _ => ?_)
      · refine Within.step (emit_within _ _) rfl ?_
        exact Within.refl _ _
      · exact Within.refl _ _
    · clear_value v5
      refine Within.step (retire_within _ _ _ _) rfl ?_
      exact h6
  · rename_i w7 w8 w9 w10
    extract_lets +onlyGivenNames v11
    refine Within.cut (x := v11) ?_ (fun h12 => ?_)
    · subst v11
      refine Within.ite (fun _ => ?_) (fun _ => ?_)
      · refine Within.step (emit_within _ _) rfl ?_
        exact Within.refl _ _
      · exact Within.refl _ _
    · clear_value v11
      refine Within.step (retire_within _ _ _ _) rfl ?_
      exact h12
  · rename_i w13 w14 w15 w16
    extract_lets +onlyGivenNames v17
    refine Within.cut (x := v17) ?_ (fun h18 => ?_)
    · subst v17
      refine Within.ite (fun _ => ?_) (fun _ => ?_)
      · refine Within.step (emit_within _ _) rfl ?_
        exact Within.refl _ _
      · exact Within.refl _ _
    · clear_value v17
      refine Within.step (retire_within _ _ _ _) rfl ?_
      exact h18
  · rename_i w19 w20 w21 w22
    refine Within.step (retire_within _ _ _ _) rfl ?_
    refine Within.ite (fun _ => ?_) (fun _ => ?_)
    · refine Within.step (emit_within _ _) rfl ?_
      exact Within.refl _ _
    · exact Within.refl _ _
  · rename_i w23 w24 w25 w26
    refine Within.step (retire_within _ _ _ _) rfl ?_
    exact Within.refl _ _
  · rename_i w27 w28 w29 w30
    refine Within.step (retire_within _ _ _ _) rfl ?_
    exact Within.refl _ _
  · rename_i w31 w32 w33
    refine Within.step (retire_within _ _ _ _) rfl ?_
    exact Within.refl _ _
  · rename_i w34 w35 w36
    extract_lets +onlyGivenNames v37
    clear_value v37
    refine Within.step (retire_within _ _ _ _) rfl ?_
    refine Within.step (cancelTasks_within _ _) rfl ?_
    refine Within.ite (fun _ => ?_) (fun _ => ?_)
    · refine Within.step (emit_within _ _) rfl ?_
      exact Within.refl _ _
    · exact Within.refl _ _
  · rename_i w39 w40 w41 w42 w43 w44
    split
    · rename_i w45 w46 w47
      extract_lets +onlyGivenNames v48
      refine Within.cut (x := v48) ?_ (fun h49 => ?_)
      · subst v48
        refine Within.step (payCredit_within _ _) rfl ?_
        exact Within.refl _ _
      · clear_value v48
        refine Within.step (retireWrite_within _ _ _) rfl ?_
        refine Within.step (onNs_within _ _ _) rfl ?_
        refine Within.step (placeAll_within _ _ _ _ _) rfl ?_
        exact h49
    · rename_i w50 w51
      refine Within.step (rollBack_within _ _ _) rfl ?_
      exact Within.refl _ _
  · rename_i w52 w53 w54 w55
    split
    · rename_i w56 w57 w58
      refine Within.step (retireWrite_within _ _ _) rfl ?_
      refine Within.step (onNs_within _ _ _) rfl ?_
      refine Within.step (clearUnits_within _ _ _) rfl ?_
      exact Within.refl _ _
    · rename_i w59 w60
      refine Within.step (rollBack_within _ _ _) rfl ?_
      exact Within.refl _ _
  · rename_i w61 w62 w63 w64
    split
    · rename_i w65 w66 w67
      refine Within.step (retireWrite_within _ _ _) rfl ?_
      refine Within.step (onNs_within _ _ _) rfl ?_
      refine Within.step (clearUnits_within _ _ _) rfl ?_
      exact Within.refl _ _
    · rename_i w68 w69
      refine Within.step (rollBack_within _ _ _) rfl ?_
      exact Within.refl _ _
  · rename_i w70 w71 w72
    split
    · rename_i w73 w74 w75
      refine Within.step (retireWrite_within _ _ _) rfl ?_
      refine Within.foldl (fun u76 a77 => ?_) ?_
      · refine Within.step (onNs_within _ _ _) rfl ?_
        refine Within.step (clearUnits_within _ _ _) rfl ?_
        exact Within.refl _ _
      · exact Within.refl _ _
    · rename_i w78 w79
      refine Within.step (rollBack_within _ _ _) rfl ?_
      exact Within.refl _ _
  · rename_i w80 w81 w82 w83
    split
    · rename_i w84 w85 w86
      extract_lets +onlyGivenNames v87
      clear_value v87
      split
      · rename_i w89 w90 w91
        refine Within.step (rollBack_within _ _ _) rfl ?_
        exact Within.refl _ _
      · rename_i w92 w93
        extract_lets +onlyGivenNames v94
        clear_value v94
        extract_lets +onlyGivenNames v96
        clear_value v96
        refine Within.step (retireWrite_within _ _ _) rfl ?_
        refine Within.step (onNs_within _ _ _) rfl ?_
        refine Within.step (placeAll_within _ _ _ _ _) rfl ?_
        refine Within.step (payCredit_within _ _) rfl ?_
        exact Within.refl _ _
    · rename_i w98 w99
      refine Within.step (rollBack_within _ _ _) rfl ?_
      exact Within.refl _ _
  · rename_i w100 w101 w102 w103 w104
    split
    · rename_i w105 w106 w107 w108 w109 w110
      extract_lets +onlyGivenNames v111
      clear_value v111
      refine Within.ite (fun _ => ?_) (fun _ => ?_)
      · refine Within.step (rollBack_within _ _ _) rfl ?_
        exact Within.refl _ _
      · refine Within.ite (fun _ => ?_) (fun _ => ?_)
        · refine Within.step (rollBack_within _ _ _) rfl ?_
          exact Within.refl _ _
        · extract_lets +onlyGivenNames v113
          clear_value v113
          extract_lets +onlyGivenNames v115
          clear_value v115
          refine Within.ite (fun _ => ?_) (fun _ => ?_)
          · refine Within.step (rollBack_within _ _ _) rfl ?_
            exact Within.refl _ _
          · refine Within.step (retireWrite_within _ _ _) rfl ?_
            refine Within.step (commitVersion_within _ _ _ _ _ _ _ _ _) rfl ?_
            refine Within.step (payCredit_within _ _) rfl ?_
            exact Within.refl _ _
    · rename_i w117 w118 w119
      refine Within.step (rollBack_within _ _ _) rfl ?_
      exact Within.refl _ _
  · rename_i w120 w121 w122
    split
    · rename_i w123 w124 w125 w126
      split
      · rename_i w127 w128 w129 w130
        refine Within.step (retireWrite_within _ _ _) rfl ?_
        refine Within.step (supersede_within _ _ _) rfl ?_
        refine Within.trl rfl ?_
        exact Within.refl _ _
    · rename_i w131 w132
      refine Within.step (rollBack_within _ _ _) rfl ?_
      exact Within.refl _ _
  · rename_i w133 w134 w135 w136
    refine Within.step (retire_within _ _ _ _) rfl ?_
    refine Within.step (slmWrite_within _ _ _ _) rfl ?_
    exact Within.refl _ _
  · rename_i w137 w138 w139
    extract_lets +onlyGivenNames v140
    clear_value v140
    refine Within.ite (fun _ => ?_) (fun _ => ?_)
    · refine Within.step (rollBack_within _ _ _) rfl ?_
      exact Within.refl _ _
    · split
      · rename_i w142 w143 w144
        refine Within.step (retire_within _ _ _ _) rfl ?_
        refine Within.step (slmWrite_within _ _ _ _) rfl ?_
        exact Within.refl _ _
      · rename_i w145 w146 w147 w148
        split
        · rename_i w149 w150 w151 w152
          refine Within.ite (fun _ => ?_) (fun _ => ?_)
          · split
            · rename_i w153 w154 w155 w156
              extract_lets +onlyGivenNames v157
              clear_value v157
              refine Within.ite (fun _ => ?_) (fun _ => ?_)
              · refine Within.step (rollBack_within _ _ _) rfl ?_
                exact Within.refl _ _
              · refine Within.step (retireWrite_within _ _ _) rfl ?_
                refine Within.step (commitVersion_within _ _ _ _ _ _ _ _ _) rfl ?_
                refine Within.step (payCredit_within _ _) rfl ?_
                exact Within.refl _ _
            · rename_i w159 w160 w161
              refine Within.step (rollBack_within _ _ _) rfl ?_
              exact Within.refl _ _
          · extract_lets +onlyGivenNames v162
            clear_value v162
            refine Within.step (retireWrite_within _ _ _) rfl ?_
            refine Within.step (onNs_within _ _ _) rfl ?_
            refine Within.step (placeAll_within _ _ _ _ _) rfl ?_
            refine Within.step (payCredit_within _ _) rfl ?_
            exact Within.refl _ _
        · rename_i w164 w165 w166
          refine Within.step (rollBack_within _ _ _) rfl ?_
          exact Within.refl _ _
  · rename_i w167 w168 w169 w170 w171
    refine Within.ite (fun _ => ?_) (fun _ => ?_)
    · refine Within.step (rollBack_within _ _ _) rfl ?_
      refine Within.step (raise_within _ _ _ _ _ _) rfl ?_
      exact Within.refl _ _
    · extract_lets +onlyGivenNames v172
      refine Within.cut (x := v172) ?_ (fun h173 => ?_)
      · subst v172
        refine Within.foldl (fun u174 a175 => ?_) ?_
        · refine Within.step (onNs_within _ _ _) rfl ?_
          refine Within.ite (fun _ => ?_) (fun _ => ?_)
          · refine Within.step (dropData_within _ _) rfl ?_
            exact Within.refl _ _
          · refine Within.step (cryptErase_within _ _) rfl ?_
            exact Within.refl _ _
        · exact Within.refl _ _
      · clear_value v172
        refine Within.step (retire_within _ _ _ _) rfl ?_
        refine Within.step (onSide_within _ _ _) rfl ?_
        refine Within.ite (fun _ => ?_) (fun _ => ?_)
        · exact h173
        · refine Within.step (rewrap_within _) rfl ?_
          exact h173
  · rename_i w176 w177 w178
    extract_lets +onlyGivenNames v179
    refine Within.cut (x := v179) ?_ (fun h180 => ?_)
    · subst v179
      refine Within.foldl (fun u181 a182 => ?_) ?_
      · split
        · rename_i w183 w184 w185
          extract_lets +onlyGivenNames v186
          refine Within.cut (x := v186) ?_ (fun h187 => ?_)
          · subst v186
            refine Within.step (dropData_within _ _) rfl ?_
            exact Within.refl _ _
          · clear_value v186
            extract_lets +onlyGivenNames v188
            refine Within.cut (x := v188) ?_ (fun h189 => ?_)
            · subst v188
              refine Within.foldl (fun u190 a191 => ?_) ?_
              · refine Within.step (onSide_within _ _ _) rfl ?_
                exact Within.refl _ _
              · exact h187
            · clear_value v188
              refine Within.upd ?_ (by constructor <;> first | exact .inl rfl | exact .inr rfl | exact Nat.le_refl _ | exact List.suffix_refl _ | exact id | exact Nat.le_add_right _ _ | exact .inr ⟨rfl, rfl⟩ | exact memWrite_wf | exact memErase_wf | exact Nat.le_of_eq (closeAllPages_next _).symm)
              exact h189
        · rename_i w192 w193
          exact Within.refl _ _
      · exact Within.refl _ _
    · clear_value v179
      refine Within.step (retire_within _ _ _ _) rfl ?_
      exact h180
  · rename_i w194 w195 w196 w197 w198 w199 w200 w201 w202 w203 w204 w205 w206 w207 w208 w209 w210 w211 w212 w213
    exact Within.refl _ _

theorem takeTurn_within (o c r s) :
    Within [.free, .out, .bus, .evt, .cue, .hfe, .scn, .obj, .trl, .flc, .smg, .bob, .tly, .scr, .slm] s (takeTurn o c r s) := by
  unfold takeTurn
  split
  · rename_i w0
    refine Within.step (takePoint_within _ _ _) rfl ?_
    exact Within.refl _ _
  · rename_i w1
    refine Within.step (applyCommit_within _ _ _) rfl ?_
    refine Within.foldl (fun u2 a3 => ?_) ?_
    · refine Within.step (noteUndo_within _ _ _) rfl ?_
      exact Within.refl _ _
    · exact Within.refl _ _
  · rename_i w4
    refine Within.step (retireFence_within _ _) rfl ?_
    exact Within.refl _ _
  · rename_i w5
    refine Within.step (retire_within _ _ _ _) rfl ?_
    exact Within.refl _ _
  · rename_i w6
    refine Within.step (runExec_within _ _ _) rfl ?_
    exact Within.refl _ _
  · rename_i w7
    refine Within.step (retireAer_within _ _) rfl ?_
    exact Within.refl _ _
  · rename_i w8
    exact Within.refl _ _

theorem settle_within (a0 a1) :
    Within [.free, .out, .bus, .evt, .cue, .hfe, .scn, .obj, .trl, .flc, .smg, .bob, .tly, .scr, .slm] a1 (settle a0 a1) := by
  fun_induction settle a0 a1
  · rename_i r0
    exact Within.refl _ _
  · rename_i r0 r1 r2 r3 r4 r5
    refine Within.trans ?_ (r5 )
    refine Within.step (takeTurn_within _ _ _ _) rfl ?_
    exact Within.refl _ _
  · rename_i r0 r1 r2
    exact Within.refl _ _

theorem settleAll_within (s) :
    Within [.free, .out, .bus, .evt, .cue, .hfe, .scn, .obj, .trl, .flc, .smg, .bob, .tly, .scr, .slm] s (settleAll s) := by
  unfold settleAll
  refine Within.step (settle_within _ _) rfl ?_
  exact Within.refl _ _

theorem postAll_within (s) :
    Within [.out, .scn, .trl] s (postAll s) := by
  unfold postAll
  refine Within.foldl (fun u0 a1 => ?_) ?_
  · refine Within.step (tryPost_within _ _) rfl ?_
    exact Within.refl _ _
  · exact Within.refl _ _

theorem goOn_within (s) :
    Within [.free, .out, .bus, .evt, .cue, .hfe, .scn, .obj, .trl, .flc, .smg, .bob, .tly, .scr, .slm] s (goOn s) := by
  unfold goOn
  refine Within.step (admitCapsules_within _) rfl ?_
  refine Within.step (finishDeletes_within _) rfl ?_
  refine Within.step (settleAll_within _) rfl ?_
  refine Within.step (postAll_within _) rfl ?_
  exact Within.refl _ _

theorem rollBackRequest_within (o st s) :
    Within [.free, .out, .bus, .evt, .cue, .hfe, .scn, .obj, .trl, .flc, .smg, .bob, .tly, .scr, .slm] s (rollBackRequest o st s) := by
  unfold rollBackRequest
  refine Within.step (goOn_within _) rfl ?_
  refine Within.step (rollBack_within _ _ _) rfl ?_
  exact Within.refl _ _

theorem readPoint_within (o s) :
    Within [.free, .out, .bus, .evt, .cue, .hfe, .scn, .obj, .trl, .flc, .smg, .bob, .tly, .scr, .slm] s (readPoint o s) := by
  unfold readPoint
  split
  · rename_i w0 w1 w2
    refine Within.ite (fun _ => ?_) (fun _ => ?_)
    · exact Within.refl _ _
    · extract_lets +onlyGivenNames v3
      refine Within.cut (x := v3) ?_ (fun h4 => ?_)
      · subst v3
        refine Within.ite (fun _ => ?_) (fun _ => ?_)
        · refine Within.step (countHold_within _ _ _) rfl ?_
          exact Within.refl _ _
        · exact Within.refl _ _
      · clear_value v3
        refine Within.step (goOn_within _) rfl ?_
        refine Within.step (onScene_within _ _ _) rfl ?_
        exact h4
  · rename_i w5 w6
    exact Within.refl _ _

theorem commitRequest_within (o s) :
    Within [.free, .out, .bus, .evt, .cue, .hfe, .scn, .obj, .trl, .flc, .smg, .bob, .tly, .scr, .slm] s (commitRequest o s) := by
  unfold commitRequest
  split
  · rename_i w0 w1 w2
    refine Within.ite (fun _ => ?_) (fun _ => ?_)
    · exact Within.refl _ _
    · refine Within.ite (fun _ => ?_) (fun _ => ?_)
      · refine Within.step (goOn_within _) rfl ?_
        refine Within.step (rollBack_within _ _ _) rfl ?_
        exact Within.refl _ _
      · extract_lets +onlyGivenNames v3
        refine Within.cut (x := v3) ?_ (fun h4 => ?_)
        · subst v3
          refine Within.ite (fun _ => ?_) (fun _ => ?_)
          · refine Within.step (countHold_within _ _ _) rfl ?_
            exact Within.refl _ _
          · exact Within.refl _ _
        · clear_value v3
          extract_lets +onlyGivenNames v5
          clear_value v5
          extract_lets +onlyGivenNames v7
          refine Within.cut (x := v7) ?_ (fun h8 => ?_)
          · subst v7
            refine Within.ite (fun _ => ?_) (fun _ => ?_)
            · refine Within.trl rfl ?_
              exact h4
            · exact h4
          · clear_value v7
            split
            · rename_i w9 w10 w11 w12 w13
              refine Within.step (goOn_within _) rfl ?_
              refine Within.step (rollBack_within _ _ _) rfl ?_
              exact h8
            · rename_i w14 w15 w16 w17
              refine Within.step (goOn_within _) rfl ?_
              refine Within.step (onScene_within _ _ _) rfl ?_
              exact h8
  · rename_i w18 w19
    exact Within.refl _ _

end Sys2Proof.Machine
end

