-- ==== Sys2Proof/Laws/FrameAdmin.lean ====
section
/-! SUPPORT. What each operation of Machine/Admin.lean may change, and what it keeps. -/
namespace Sys2Proof.Machine

theorem fetched_within {l} (hF : Sub [.free, .out, .bus, .evt, .cue, .hfe, .scn, .obj, .trl, .flc, .smg, .bob, .tly, .scr, .slm] l)
      {h opcode set work s} (hk3 : ∀ u, Within l u (work u)) :
    Within l s (fetched h opcode set work s) := by
  unfold fetched
  refine Within.ite (fun _ => ?_) (fun _ => ?_)
  · split
    · rename_i w0 w1 w2 w3
      split
      · rename_i w4 w5 w6 w7
        refine Within.cut (Within.ofEq w7 ?_) (fun h8 => ?_)
        · refine Within.step (openScene_within _ _ _ _ _) (Sub.trans (by exact rfl) hF) ?_
          exact Within.refl _ _
        refine Within.step (goOn_within _) (Sub.trans (by exact rfl) hF) ?_
        refine Within.step (retire_within _ _ _ _) (Sub.trans (by exact rfl) hF) ?_
        refine Within.step (rollBack_within _ _ _) (Sub.trans (by exact rfl) hF) ?_
        exact h8
    · rename_i w9 w10 w11
      split
      · rename_i w12 w13 w14
        refine Within.step (goOn_within _) (Sub.trans (by exact rfl) hF) ?_
        refine Within.step (failCmd_within _ _ _ _) (Sub.trans (by exact rfl) hF) ?_
        exact Within.refl _ _
      · rename_i w15 w16
        refine Within.step (goOn_within _) (Sub.trans (by exact rfl) hF) ?_
        refine Within.trans ?_ (hk3 _)
        exact Within.refl _ _
  · exact Within.refl _ _

theorem doSelfTestAbort_within (h s) :
    Within [.free, .out, .bus, .evt, .cue, .hfe, .scn, .obj, .trl, .flc, .smg, .bob, .tly, .scr, .slm] s (doSelfTestAbort h s) := by
  unfold doSelfTestAbort
  refine Within.trans ?_ (fetched_within (by exact rfl) ?_)
  · exact Within.refl _ _
  · intro u0
    refine Within.step (endAtOnce_within _ _ _ _ _) rfl ?_
    refine Within.step (onSide_within _ _ _) rfl ?_
    exact Within.refl _ _

theorem rollQueue_within (c q st s) :
    Within [.free, .out, .bus, .evt, .cue, .hfe, .scn, .obj, .trl, .smg, .bob, .tly, .scr, .slm] s (rollQueue c q st s) := by
  unfold rollQueue
  refine Within.foldl (fun u0 a1 => ?_) ?_
  · refine Within.ite (fun _ => ?_) (fun _ => ?_)
    · refine Within.step (rollBack_within _ _ _) rfl ?_
      exact Within.refl _ _
    · exact Within.refl _ _
  · exact Within.refl _ _

theorem doIdentify_within (h cns s) :
    Within [.free, .out, .bus, .evt, .cue, .hfe, .scn, .obj, .trl, .flc, .smg, .bob, .tly, .scr, .slm] s (doIdentify h cns s) := by
  unfold doIdentify
  refine Within.trans ?_ (fetched_within (by exact rfl) ?_)
  · exact Within.refl _ _
  · intro u0
    refine Within.ite (fun _ => ?_) (fun _ => ?_)
    · refine Within.step (endAtOnce_within _ _ _ _ _) rfl ?_
      refine Within.step (emit_within _ _) rfl ?_
      exact Within.refl _ _
    · refine Within.ite (fun _ => ?_) (fun _ => ?_)
      · extract_lets +onlyGivenNames v1
        clear_value v1
        refine Within.step (endAtOnce_within _ _ _ _ _) rfl ?_
        refine Within.step (emit_within _ _) rfl ?_
        exact Within.refl _ _
      · refine Within.ite (fun _ => ?_) (fun _ => ?_)
        · split
          · rename_i w3 w4 w5 w6 w7 w8
            refine Within.step (endAtOnce_within _ _ _ _ _) rfl ?_
            refine Within.step (emit_within _ _) rfl ?_
            exact Within.refl _ _
          · rename_i w9 w10 w11 w12 w13
            refine Within.step (failCmd_within _ _ _ _) rfl ?_
            exact Within.refl _ _
        · extract_lets +onlyGivenNames v14
          clear_value v14
          refine Within.step (endAtOnce_within _ _ _ _ _) rfl ?_
          refine Within.step (emit_within _ _) rfl ?_
          refine Within.upd ?_ (by constructor <;> first | exact .inl rfl | exact .inr rfl | exact Nat.le_refl _ | exact List.suffix_refl _ | exact id | exact Nat.le_add_right _ _ | exact .inr ⟨rfl, rfl⟩ | exact memWrite_wf | exact memErase_wf | exact Nat.le_of_eq (closeAllPages_next _).symm)
          exact Within.refl _ _

theorem doSetFeatures_within (h fid sv cdw11 data s) :
    Within [.free, .out, .bus, .evt, .cue, .hfe, .scn, .obj, .trl, .flc, .smg, .bob, .tly, .scr, .slm] s (doSetFeatures h fid sv
      cdw11 data s) := by
  unfold doSetFeatures
  refine Within.trans ?_ (fetched_within (by exact rfl) ?_)
  · exact Within.refl _ _
  · intro u0
    refine Within.ite (fun _ => ?_) (fun _ => ?_)
    · refine Within.step (failCmd_within _ _ _ _) rfl ?_
      exact Within.refl _ _
    · refine Within.ite (fun _ => ?_) (fun _ => ?_)
      · refine Within.step (failCmd_within _ _ _ _) rfl ?_
        exact Within.refl _ _
      · refine Within.ite (fun _ => ?_) (fun _ => ?_)
        · refine Within.step (failCmd_within _ _ _ _) rfl ?_
          exact Within.refl _ _
        · extract_lets +onlyGivenNames v1
          clear_value v1
          extract_lets +onlyGivenNames v3
          refine Within.cut (x := v3) ?_ (fun h4 => ?_)
          · subst v3
            refine Within.step (onSide_within _ _ _) rfl ?_
            exact Within.refl _ _
          · clear_value v3
            extract_lets +onlyGivenNames v5
            clear_value v5
            extract_lets +onlyGivenNames v7
            refine Within.cut (x := v7) ?_ (fun h8 => ?_)
            · subst v7
              refine Within.ite (fun _ => ?_) (fun _ => ?_)
              · refine Within.hfe rfl ?_
                exact h4
              · exact h4
            · clear_value v7
              refine Within.step (endAtOnce_within _ _ _ _ _) rfl ?_
              exact h8

theorem notAborted_within (o s) :
    Within [.out, .bus, .hfe, .scn, .obj, .trl, .bob] s (notAborted o s) := by
  unfold notAborted
  refine Within.step (count1_within _ _) rfl ?_
  refine Within.step (retire_within _ _ _ _) rfl ?_
  exact Within.refl _ _

theorem returnLog_within (h page offset len s) :
    Within [.out, .bus, .evt, .cue, .hfe, .scn, .obj, .trl, .smg, .bob] s (returnLog h page offset len s) := by
  unfold returnLog
  refine Within.step (endAtOnce_within _ _ _ _ _) rfl ?_
  refine Within.step (emit_within _ _) rfl ?_
  exact Within.refl _ _

theorem doGetLogCommitCue_within (h lsi offset len s) :
    Within [.free, .out, .bus, .evt, .cue, .hfe, .scn, .obj, .trl, .flc, .smg, .bob, .tly, .scr, .slm] s (doGetLogCommitCue h lsi
      offset len s) := by
  unfold doGetLogCommitCue
  refine Within.trans ?_ (fetched_within (by exact rfl) ?_)
  · exact Within.refl _ _
  · intro u0
    split
    · rename_i w1 w2 w3
      refine Within.step (returnLog_within _ _ _ _ _) rfl ?_
      exact Within.refl _ _
    · rename_i w4 w5
      refine Within.step (failCmd_within _ _ _ _) rfl ?_
      exact Within.refl _ _

theorem doRestartQueue_within (h sqid discard s) :
    Within [.free, .out, .bus, .evt, .cue, .hfe, .scn, .obj, .trl, .flc, .smg, .bob, .tly, .scr, .slm] s (doRestartQueue h sqid
      discard s) := by
  unfold doRestartQueue
  refine Within.trans ?_ (fetched_within (by exact rfl) ?_)
  · exact Within.refl _ _
  · intro u0
    split
    · rename_i w1 w2
      refine Within.step (failCmd_within _ _ _ _) rfl ?_
      exact Within.refl _ _
    · rename_i w3 w4 w5
      refine Within.ite (fun _ => ?_) (fun _ => ?_)
      · refine Within.step (failCmd_within _ _ _ _) rfl ?_
        exact Within.refl _ _
      · refine Within.ite (fun _ => ?_) (fun _ => ?_)
        · refine Within.step (failCmd_within _ _ _ _) rfl ?_
          exact Within.refl _ _
        · extract_lets +onlyGivenNames v6
          refine Within.cut (x := v6) ?_ (fun h7 => ?_)
          · subst v6
            refine Within.ite (fun _ => ?_) (fun _ => ?_)
            · refine Within.step (rollQueue_within _ _ _ _) rfl ?_
              exact Within.refl _ _
            · exact Within.refl _ _
          · clear_value v6
            refine Within.step (endAtOnce_within _ _ _ _ _) rfl ?_
            refine Within.step (onSq_within _ _ _ _) rfl ?_
            exact h7

theorem doKeepAlive_within (h s) :
    Within [.free, .out, .bus, .evt, .cue, .hfe, .scn, .obj, .trl, .flc, .smg, .bob, .tly, .scr, .slm] s (doKeepAlive h s) := by
  unfold doKeepAlive
  refine Within.trans ?_ (fetched_within (by exact rfl) ?_)
  · exact Within.refl _ _
  · intro u0
    refine Within.step (endAtOnce_within _ _ _ _ _) rfl ?_
    refine Within.hfe rfl ?_
    exact Within.refl _ _

theorem doGetLogPage_within (h lid offset len rae s) :
    Within [.free, .out, .bus, .evt, .cue, .hfe, .scn, .obj, .trl, .flc, .smg, .bob, .tly, .scr, .slm] s (doGetLogPage h lid offset
      len rae s) := by
  unfold doGetLogPage
  refine Within.trans ?_ (fetched_within (by exact rfl) ?_)
  · exact Within.refl _ _
  · intro u0
    refine Within.ite (fun _ => ?_) (fun _ => ?_)
    · extract_lets +onlyGivenNames v1
      refine Within.cut (x := v1) ?_ (fun h2 => ?_)
      · subst v1
        refine Within.step (returnLog_within _ _ _ _ _) rfl ?_
        exact Within.refl _ _
      · clear_value v1
        extract_lets +onlyGivenNames v3
        refine Within.cut (x := v3) ?_ (fun h4 => ?_)
        · subst v3
          refine Within.ite (fun _ => ?_) (fun _ => ?_)
          · refine Within.upd ?_ (by constructor <;> first | exact .inl rfl | exact .inr rfl | exact Nat.le_refl _ | exact List.suffix_refl _ | exact id | exact Nat.le_add_right _ _ | exact .inr ⟨rfl, rfl⟩ | exact memWrite_wf | exact memErase_wf | exact Nat.le_of_eq (closeAllPages_next _).symm)
            exact h2
          · exact h2
        · clear_value v3
          refine Within.ite (fun _ => ?_) (fun _ => ?_)
          · refine Within.step (onSide_within _ _ _) rfl ?_
            exact h4
          · exact h4
    · refine Within.step (failCmd_within _ _ _ _) rfl ?_
      exact Within.refl _ _

theorem doCreateIoSq_within (h qid size cqid prio s) :
    Within [.free, .out, .bus, .evt, .cue, .hfe, .scn, .obj, .trl, .flc, .smg, .bob, .tly, .scr, .slm] s (doCreateIoSq h qid size
      cqid prio s) := by
  unfold doCreateIoSq
  refine Within.trans ?_ (fetched_within (by exact rfl) ?_)
  · exact Within.refl _ _
  · intro u0
    refine Within.ite (fun _ => ?_) (fun _ => ?_)
    · refine Within.step (failCmd_within _ _ _ _) rfl ?_
      exact Within.refl _ _
    · refine Within.ite (fun _ => ?_) (fun _ => ?_)
      · refine Within.step (failCmd_within _ _ _ _) rfl ?_
        exact Within.refl _ _
      · refine Within.ite (fun _ => ?_) (fun _ => ?_)
        · refine Within.step (failCmd_within _ _ _ _) rfl ?_
          exact Within.refl _ _
        · refine Within.step (endAtOnce_within _ _ _ _ _) rfl ?_
          refine Within.scn rfl ?_
          exact Within.refl _ _

theorem doDeleteIoSq_within (h qid s) :
    Within [.free, .out, .bus, .evt, .cue, .hfe, .scn, .obj, .trl, .flc, .smg, .bob, .tly, .scr, .slm] s (doDeleteIoSq h qid s) := by
  unfold doDeleteIoSq
  refine Within.trans ?_ (fetched_within (by exact rfl) ?_)
  · exact Within.refl _ _
  · intro u0
    refine Within.ite (fun _ => ?_) (fun _ => ?_)
    · refine Within.step (failCmd_within _ _ _ _) rfl ?_
      exact Within.refl _ _
    · split
      · rename_i w1 w2 w3 w4 w5
        refine Within.cut (Within.ofEq w5 ?_) (fun h6 => ?_)
        · refine Within.step (openScene_within _ _ _ _ _) rfl ?_
          exact Within.refl _ _
        refine Within.step (rollQueue_within _ _ _ _) rfl ?_
        refine Within.step (onSq_within _ _ _ _) rfl ?_
        exact h6

theorem doFormatNvm_within (h lbaf ses s) :
    Within [.free, .out, .bus, .evt, .cue, .hfe, .scn, .obj, .trl, .flc, .smg, .bob, .tly, .scr, .slm] s (doFormatNvm h lbaf ses s)
      := by
  unfold doFormatNvm
  refine Within.trans ?_ (fetched_within (by exact rfl) ?_)
  · exact Within.refl _ _
  · intro u0
    extract_lets +onlyGivenNames v1
    clear_value v1
    extract_lets +onlyGivenNames v3
    clear_value v3
    refine Within.ite (fun _ => ?_) (fun _ => ?_)
    · refine Within.step (failCmd_within _ _ _ _) rfl ?_
      exact Within.refl _ _
    · refine Within.ite (fun _ => ?_) (fun _ => ?_)
      · refine Within.step (failCmd_within _ _ _ _) rfl ?_
        exact Within.refl _ _
      · refine Within.ite (fun _ => ?_) (fun _ => ?_)
        · refine Within.step (failCmd_within _ _ _ _) rfl ?_
          exact Within.refl _ _
        · extract_lets +onlyGivenNames v5
          clear_value v5
          split
          · rename_i w7 w8 w9 w10 w11 w12 w13
            refine Within.cut (Within.ofEq w13 ?_) (fun h14 => ?_)
            · refine Within.step (openScene_within _ _ _ _ _) rfl ?_
              exact Within.refl _ _
            refine Within.step (onScene_within _ _ _) rfl ?_
            exact h14

theorem doCreateIoCq_within (h qid size vector s) :
    Within [.free, .out, .bus, .evt, .cue, .hfe, .scn, .obj, .trl, .flc, .smg, .bob, .tly, .scr, .slm] s (doCreateIoCq h qid size
      vector s) := by
  unfold doCreateIoCq
  refine Within.trans ?_ (fetched_within (by exact rfl) ?_)
  · exact Within.refl _ _
  · intro u0
    refine Within.ite (fun _ => ?_) (fun _ => ?_)
    · refine Within.step (failCmd_within _ _ _ _) rfl ?_
      exact Within.refl _ _
    · refine Within.ite (fun _ => ?_) (fun _ => ?_)
      · refine Within.step (failCmd_within _ _ _ _) rfl ?_
        exact Within.refl _ _
      · refine Within.ite (fun _ => ?_) (fun _ => ?_)
        · refine Within.step (failCmd_within _ _ _ _) rfl ?_
          exact Within.refl _ _
        · refine Within.step (endAtOnce_within _ _ _ _ _) rfl ?_
          refine Within.scn rfl ?_
          exact Within.refl _ _

theorem doAbortHoldExpiry_within (ctrl cid s) :
    Within [.free, .out, .bus, .evt, .cue, .hfe, .scn, .obj, .trl, .flc, .smg, .bob, .tly, .scr, .slm] s (doAbortHoldExpiry ctrl cid
      s) := by
  unfold doAbortHoldExpiry
  split
  · rename_i w0 w1 w2 w3
    refine Within.step (goOn_within _) rfl ?_
    refine Within.step (notAborted_within _ _) rfl ?_
    exact Within.refl _ _
  · rename_i w4 w5
    exact Within.refl _ _

theorem doDeleteIoCq_within (h qid s) :
    Within [.free, .out, .bus, .evt, .cue, .hfe, .scn, .obj, .trl, .flc, .smg, .bob, .tly, .scr, .slm] s (doDeleteIoCq h qid s) := by
  unfold doDeleteIoCq
  refine Within.trans ?_ (fetched_within (by exact rfl) ?_)
  · exact Within.refl _ _
  · intro u0
    refine Within.ite (fun _ => ?_) (fun _ => ?_)
    · refine Within.step (failCmd_within _ _ _ _) rfl ?_
      exact Within.refl _ _
    · refine Within.ite (fun _ => ?_) (fun _ => ?_)
      · refine Within.step (failCmd_within _ _ _ _) rfl ?_
        exact Within.refl _ _
      · refine Within.step (endAtOnce_within _ _ _ _ _) rfl ?_
        refine Within.scn rfl ?_
        exact Within.refl _ _

theorem doGetQueueOrdering_within (h cdw11 s) :
    Within [.free, .out, .bus, .evt, .cue, .hfe, .scn, .obj, .trl, .flc, .smg, .bob, .tly, .scr, .slm] s (doGetQueueOrdering h cdw11
      s) := by
  unfold doGetQueueOrdering
  refine Within.trans ?_ (fetched_within (by exact rfl) ?_)
  · exact Within.refl _ _
  · intro u0
    split
    · rename_i w1 w2 w3
      refine Within.step (endAtOnce_within _ _ _ _ _) rfl ?_
      exact Within.refl _ _
    · rename_i w4 w5
      refine Within.step (failCmd_within _ _ _ _) rfl ?_
      exact Within.refl _ _

theorem doGetLogResetOutcome_within (h offset len s) :
    Within [.free, .out, .bus, .evt, .cue, .hfe, .scn, .obj, .trl, .flc, .smg, .bob, .tly, .scr, .slm] s (doGetLogResetOutcome h
      offset len s) := by
  unfold doGetLogResetOutcome
  refine Within.trans ?_ (fetched_within (by exact rfl) ?_)
  · exact Within.refl _ _
  · intro u0
    refine Within.step (returnLog_within _ _ _ _ _) rfl ?_
    exact Within.refl _ _

theorem doNamespaceManagement_within (h create a s) :
    Within [.free, .out, .bus, .evt, .cue, .hfe, .scn, .obj, .trl, .flc, .smg, .bob, .tly, .scr, .slm] s (doNamespaceManagement h
      create a s) := by
  unfold doNamespaceManagement
  refine Within.trans ?_ (fetched_within (by exact rfl) ?_)
  · exact Within.refl _ _
  · intro u0
    refine Within.ite (fun _ => ?_) (fun _ => ?_)
    · refine Within.ite (fun _ => ?_) (fun _ => ?_)
      · refine Within.step (failCmd_within _ _ _ _) rfl ?_
        exact Within.refl _ _
      · split
        · rename_i w1 w2 w3 w4
          refine Within.step (failCmd_within _ _ _ _) rfl ?_
          exact Within.refl _ _
        · rename_i w5 w6 w7 w8 w9
          extract_lets +onlyGivenNames v10
          clear_value v10
          extract_lets +onlyGivenNames v12
          clear_value v12
          extract_lets +onlyGivenNames v14
          clear_value v14
          refine Within.ite (fun _ => ?_) (fun _ => ?_)
          · refine Within.step (failCmd_within _ _ _ _) rfl ?_
            exact Within.refl _ _
          · refine Within.ite (fun _ => ?_) (fun _ => ?_)
            · refine Within.step (openScene_within _ _ _ _ _) rfl ?_
              exact Within.refl _ _
            · split
              · rename_i w16 w17 w18 w19 w20 w21
                refine Within.cut (Within.ofEq w21 ?_) (fun h22 => ?_)
                · refine Within.iteSnd (fun _ => ?_) (fun _ => ?_)
                  · refine Within.step (drawSecret_within _) rfl ?_
                    exact Within.refl _ _
                  · refine Within.mkSnd ?_
                    exact Within.refl _ _
                split
                · rename_i w23 w24 w25 w26
                  extract_lets +onlyGivenNames v27
                  clear_value v27
                  refine Within.step (endAtOnce_within _ _ _ _ _) rfl ?_
                  refine Within.upd ?_ (by constructor <;> first | exact .inl rfl | exact .inr rfl | exact Nat.le_refl _ | exact List.suffix_refl _ | exact id | exact Nat.le_add_right _ _ | exact .inr ⟨rfl, rfl⟩ | exact memWrite_wf | exact memErase_wf | exact Nat.le_of_eq (closeAllPages_next _).symm)
                  exact h22
    · extract_lets +onlyGivenNames v29
      clear_value v29
      refine Within.ite (fun _ => ?_) (fun _ => ?_)
      · refine Within.step (failCmd_within _ _ _ _) rfl ?_
        exact Within.refl _ _
      · extract_lets +onlyGivenNames v31
        clear_value v31
        split
        · rename_i w33 w34 w35 w36 w37 w38
          refine Within.cut (Within.ofEq w38 ?_) (fun h39 => ?_)
          · refine Within.step (openScene_within _ _ _ _ _) rfl ?_
            exact Within.refl _ _
          refine Within.step (onScene_within _ _ _) rfl ?_
          exact h39

theorem doDeviceSelfTest_within (h code s) :
    Within [.free, .out, .bus, .evt, .cue, .hfe, .scn, .obj, .trl, .flc, .smg, .bob, .tly, .scr, .slm] s (doDeviceSelfTest h code s)
      := by
  unfold doDeviceSelfTest
  refine Within.trans ?_ (fetched_within (by exact rfl) ?_)
  · exact Within.refl _ _
  · intro u0
    extract_lets +onlyGivenNames v1
    refine Within.ite (fun _ => ?_) (fun _ => ?_)
    · refine Within.step (failCmd_within _ _ _ _) rfl ?_
      exact Within.refl _ _
    · refine Within.ite (fun _ => ?_) (fun _ => ?_)
      · refine Within.step (failCmd_within _ _ _ _) rfl ?_
        exact Within.refl _ _
      · refine Within.ite (fun _ => ?_) (fun _ => ?_)
        · refine Within.step (failCmd_within _ _ _ _) rfl ?_
          exact Within.refl _ _
        · extract_lets +onlyGivenNames v3
          clear_value v3
          refine Within.step (endAtOnce_within _ _ _ _ _) rfl ?_
          refine Within.step (onSide_within _ _ _) rfl ?_
          exact Within.refl _ _

theorem doAsyncEventRequest_within (h s) :
    Within [.free, .out, .bus, .evt, .cue, .hfe, .scn, .obj, .trl, .flc, .smg, .bob, .tly, .scr, .slm] s (doAsyncEventRequest h s)
      := by
  unfold doAsyncEventRequest
  refine Within.trans ?_ (fetched_within (by exact rfl) ?_)
  · exact Within.refl _ _
  · intro u0
    refine Within.ite (fun _ => ?_) (fun _ => ?_)
    · refine Within.step (failCmd_within _ _ _ _) rfl ?_
      exact Within.refl _ _
    · refine Within.step (openScene_within _ _ _ _ _) rfl ?_
      exact Within.refl _ _

theorem doGetFeatures_within (h fid s) :
    Within [.free, .out, .bus, .evt, .cue, .hfe, .scn, .obj, .trl, .flc, .smg, .bob, .tly, .scr, .slm] s (doGetFeatures h fid s) := by
  unfold doGetFeatures
  refine Within.trans ?_ (fetched_within (by exact rfl) ?_)
  · exact Within.refl _ _
  · intro u0
    refine Within.ite (fun _ => ?_) (fun _ => ?_)
    · extract_lets +onlyGivenNames v1
      clear_value v1
      extract_lets +onlyGivenNames v3
      clear_value v3
      extract_lets +onlyGivenNames v5
      refine Within.cut (x := v5) ?_ (fun h6 => ?_)
      · subst v5
        refine Within.ite (fun _ => ?_) (fun _ => ?_)
        · refine Within.step (emit_within _ _) rfl ?_
          exact Within.refl _ _
        · refine Within.ite (fun _ => ?_) (fun _ => ?_)
          · refine Within.step (emit_within _ _) rfl ?_
            exact Within.refl _ _
          · exact Within.refl _ _
      · clear_value v5
        refine Within.step (endAtOnce_within _ _ _ _ _) rfl ?_
        exact h6
    · refine Within.step (failCmd_within _ _ _ _) rfl ?_
      exact Within.refl _ _

theorem doSetSelfTestStep_within (h sv cdw11 s) :
    Within [.free, .out, .bus, .evt, .cue, .hfe, .scn, .obj, .trl, .flc, .smg, .bob, .tly, .scr, .slm] s (doSetSelfTestStep h sv
      cdw11 s) := by
  unfold doSetSelfTestStep
  refine Within.trans ?_ (fetched_within (by exact rfl) ?_)
  · exact Within.refl _ _
  · intro u0
    extract_lets +onlyGivenNames v1
    clear_value v1
    refine Within.ite (fun _ => ?_) (fun _ => ?_)
    · refine Within.step (failCmd_within _ _ _ _) rfl ?_
      exact Within.refl _ _
    · refine Within.ite (fun _ => ?_) (fun _ => ?_)
      · refine Within.step (failCmd_within _ _ _ _) rfl ?_
        exact Within.refl _ _
      · refine Within.step (endAtOnce_within _ _ _ _ _) rfl ?_
        refine Within.step (onSide_within _ _ _) rfl ?_
        exact Within.refl _ _

theorem doSetQueueOrdering_within (h sv cdw11 s) :
    Within [.free, .out, .bus, .evt, .cue, .hfe, .scn, .obj, .trl, .flc, .smg, .bob, .tly, .scr, .slm] s (doSetQueueOrdering h sv
      cdw11 s) := by
  unfold doSetQueueOrdering
  refine Within.trans ?_ (fetched_within (by exact rfl) ?_)
  · exact Within.refl _ _
  · intro u0
    extract_lets +onlyGivenNames v1
    clear_value v1
    refine Within.ite (fun _ => ?_) (fun _ => ?_)
    · refine Within.step (failCmd_within _ _ _ _) rfl ?_
      exact Within.refl _ _
    · refine Within.ite (fun _ => ?_) (fun _ => ?_)
      · refine Within.step (failCmd_within _ _ _ _) rfl ?_
        exact Within.refl _ _
      · refine Within.step (endAtOnce_within _ _ _ _ _) rfl ?_
        refine Within.step (onSq_within _ _ _ _) rfl ?_
        exact Within.refl _ _

theorem doSelfTestStep_within (ctrl passed last s) :
    Within [.scn] s (doSelfTestStep ctrl passed last s) := by
  unfold doSelfTestStep
  refine Within.ite (fun _ => ?_) (fun _ => ?_)
  · refine Within.ite (fun _ => ?_) (fun _ => ?_)
    · refine Within.step (onSide_within _ _ _) rfl ?_
      exact Within.refl _ _
    · refine Within.ite (fun _ => ?_) (fun _ => ?_)
      · refine Within.step (onSide_within _ _ _) rfl ?_
        exact Within.refl _ _
      · exact Within.refl _ _
  · exact Within.refl _ _

theorem doNamespaceAttachment_within (h attach ctrls s) :
    Within [.free, .out, .bus, .evt, .cue, .hfe, .scn, .obj, .trl, .flc, .smg, .bob, .tly, .scr, .slm] s (doNamespaceAttachment h
      attach ctrls s) := by
  unfold doNamespaceAttachment
  refine Within.trans ?_ (fetched_within (by exact rfl) ?_)
  · exact Within.refl _ _
  · intro u0
    split
    · rename_i w1 w2
      refine Within.step (failCmd_within _ _ _ _) rfl ?_
      exact Within.refl _ _
    · rename_i w3 w4 w5
      refine Within.ite (fun _ => ?_) (fun _ => ?_)
      · refine Within.step (failCmd_within _ _ _ _) rfl ?_
        exact Within.refl _ _
      · refine Within.ite (fun _ => ?_) (fun _ => ?_)
        · refine Within.step (failCmd_within _ _ _ _) rfl ?_
          exact Within.refl _ _
        · refine Within.ite (fun _ => ?_) (fun _ => ?_)
          · refine Within.step (failCmd_within _ _ _ _) rfl ?_
            exact Within.refl _ _
          · extract_lets +onlyGivenNames v6
            clear_value v6
            extract_lets +onlyGivenNames v8
            refine Within.cut (x := v8) ?_ (fun h9 => ?_)
            · subst v8
              refine Within.foldl (fun u10 a11 => ?_) ?_
              · refine Within.step (onSide_within _ _ _) rfl ?_
                exact Within.refl _ _
              · exact Within.refl _ _
            · clear_value v8
              refine Within.step (endAtOnce_within _ _ _ _ _) rfl ?_
              refine Within.step (onNs_within _ _ _) rfl ?_
              exact h9

theorem doGetLogGloexError_within (h lsi offset len s) :
    Within [.free, .out, .bus, .evt, .cue, .hfe, .scn, .obj, .trl, .flc, .smg, .bob, .tly, .scr, .slm] s (doGetLogGloexError h lsi
      offset len s) := by
  unfold doGetLogGloexError
  refine Within.trans ?_ (fetched_within (by exact rfl) ?_)
  · exact Within.refl _ _
  · intro u0
    split
    · rename_i w1 w2 w3
      refine Within.ite (fun _ => ?_) (fun _ => ?_)
      · extract_lets +onlyGivenNames v4
        refine Within.cut (x := v4) ?_ (fun h5 => ?_)
        · subst v4
          refine Within.step (returnLog_within _ _ _ _ _) rfl ?_
          exact Within.refl _ _
        · clear_value v4
          refine Within.ite (fun _ => ?_) (fun _ => ?_)
          · refine Within.step (onSq_within _ _ _ _) rfl ?_
            exact h5
          · exact h5
      · refine Within.step (failCmd_within _ _ _ _) rfl ?_
        exact Within.refl _ _
    · rename_i w6 w7
      refine Within.step (failCmd_within _ _ _ _) rfl ?_
      exact Within.refl _ _

theorem doSanitize_within (h action s) :
    Within [.free, .out, .bus, .evt, .cue, .hfe, .scn, .obj, .trl, .flc, .smg, .bob, .tly, .scr, .slm] s (doSanitize h action s) := by
  unfold doSanitize
  refine Within.trans ?_ (fetched_within (by exact rfl) ?_)
  · exact Within.refl _ _
  · intro u0
    refine Within.ite (fun _ => ?_) (fun _ => ?_)
    · refine Within.step (failCmd_within _ _ _ _) rfl ?_
      exact Within.refl _ _
    · refine Within.ite (fun _ => ?_) (fun _ => ?_)
      · refine Within.step (failCmd_within _ _ _ _) rfl ?_
        refine Within.step (raise_within _ _ _ _ _ _) rfl ?_
        exact Within.refl _ _
      · refine Within.step (endAtOnce_within _ _ _ _ _) rfl ?_
        refine Within.step (rewrap_within _) rfl ?_
        refine Within.foldl (fun u1 a2 => ?_) ?_
        · refine Within.step (cryptErase_within _ _) rfl ?_
          exact Within.refl _ _
        · exact Within.refl _ _

theorem doInvalidOpcode_within (h _admin opcode s) :
    Within [.free, .out, .bus, .evt, .cue, .hfe, .scn, .obj, .trl, .flc, .smg, .bob, .tly, .scr, .slm] s (doInvalidOpcode h _admin
      opcode s) := by
  unfold doInvalidOpcode
  refine Within.ite (fun _ => ?_) (fun _ => ?_)
  · refine Within.step (goOn_within _) rfl ?_
    refine Within.step (failCmd_within _ _ _ _) rfl ?_
    exact Within.refl _ _
  · exact Within.refl _ _

theorem doAbort_within (h sqid target s) :
    Within [.free, .out, .bus, .evt, .cue, .hfe, .scn, .obj, .trl, .flc, .smg, .bob, .tly, .scr, .slm] s (doAbort h sqid target s)
      := by
  unfold doAbort
  refine Within.trans ?_ (fetched_within (by exact rfl) ?_)
  · exact Within.refl _ _
  · intro u0
    refine Within.ite (fun _ => ?_) (fun _ => ?_)
    · refine Within.step (failCmd_within _ _ _ _) rfl ?_
      exact Within.refl _ _
    · extract_lets +onlyGivenNames v1
      clear_value v1
      split
      · rename_i w3 w4 w5 w6 w7
        refine Within.cut (Within.ofEq w7 ?_) (fun h8 => ?_)
        · refine Within.step (openScene_within _ _ _ _ _) rfl ?_
          exact Within.refl _ _
        split
        · rename_i w9 w10 w11
          refine Within.ite (fun _ => ?_) (fun _ => ?_)
          · refine Within.step (notAborted_within _ _) rfl ?_
            exact h8
          · refine Within.step (retire_within _ _ _ _) rfl ?_
            refine Within.step (rollBack_within _ _ _) rfl ?_
            exact h8
        · rename_i w12
          exact h8

theorem doGetLogEventLog_within (h offset len rae s) :
    Within [.free, .out, .bus, .evt, .cue, .hfe, .scn, .obj, .trl, .flc, .smg, .bob, .tly, .scr, .slm] s (doGetLogEventLog h offset
      len rae s) := by
  unfold doGetLogEventLog
  refine Within.trans ?_ (fetched_within (by exact rfl) ?_)
  · exact Within.refl _ _
  · intro u0
    refine Within.ite (fun _ => ?_) (fun _ => ?_)
    · refine Within.step (failCmd_within _ _ _ _) rfl ?_
      exact Within.refl _ _
    · extract_lets +onlyGivenNames v1
      refine Within.cut (x := v1) ?_ (fun h2 => ?_)
      · subst v1
        refine Within.step (returnLog_within _ _ _ _ _) rfl ?_
        exact Within.refl _ _
      · clear_value v1
        refine Within.ite (fun _ => ?_) (fun _ => ?_)
        · exact h2
        · refine Within.evt rfl ?_ (Nat.le_refl _)
          exact h2

end Sys2Proof.Machine
end

