-- ==== Sys2Proof/Laws/FrameIo.lean ====
section
/-! SUPPORT. What each operation of Machine/Io.lean may change, and what it keeps. -/
namespace Sys2Proof.Machine

theorem onSlm_within {l} (hF : Sub [.free, .out, .bus, .evt, .cue, .hfe, .scn, .obj, .trl, .flc, .smg, .bob, .tly, .scr, .slm] l) {h
      opcode off len work s} (hk4 : ∀ u, Within l u (work u)) :
    Within l s (onSlm h opcode off len work s) := by
  unfold onSlm
  refine Within.trans ?_ (fetched_within (by exact (Sub.trans (by exact rfl) hF)) ?_)
  · exact Within.refl _ _
  · intro u0
    refine Within.ite (fun _ => ?_) (fun _ => ?_)
    · refine Within.step (failCmd_within _ _ _ _) (Sub.trans (by exact rfl) hF) ?_
      exact Within.refl _ _
    · refine Within.trans ?_ (hk4 _)
      exact Within.refl _ _

theorem onKey_within {l} (hF : Sub [.free, .out, .bus, .evt, .cue, .hfe, .scn, .obj, .trl, .flc, .smg, .bob, .tly, .scr, .slm] l) {h
      opcode key work s} (hk3 : ∀ x0 u, Within l u (work x0 u)) :
    Within l s (onKey h opcode key work s) := by
  unfold onKey
  refine Within.trans ?_ (fetched_within (by exact (Sub.trans (by exact rfl) hF)) ?_)
  · exact Within.refl _ _
  · intro u0
    split
    · rename_i w1 w2
      refine Within.step (failCmd_within _ _ _ _) (Sub.trans (by exact rfl) hF) ?_
      exact Within.refl _ _
    · rename_i w3 w4 w5
      refine Within.ite (fun _ => ?_) (fun _ => ?_)
      · refine Within.step (failCmd_within _ _ _ _) (Sub.trans (by exact rfl) hF) ?_
        exact Within.refl _ _
      · refine Within.ite (fun _ => ?_) (fun _ => ?_)
        · refine Within.step (failCmd_within _ _ _ _) (Sub.trans (by exact rfl) hF) ?_
          exact Within.refl _ _
        · refine Within.trans ?_ (hk3 _ _)
          exact Within.refl _ _

theorem doKvDelete_within (h key s) :
    Within [.free, .out, .bus, .evt, .cue, .hfe, .scn, .obj, .trl, .flc, .smg, .bob, .tly, .scr, .slm] s (doKvDelete h key s) := by
  unfold doKvDelete
  refine Within.trans ?_ (onKey_within (by exact rfl) ?_)
  · exact Within.refl _ _
  · intro u0
    intro u1
    refine Within.ite (fun _ => ?_) (fun _ => ?_)
    · refine Within.step (failCmd_within _ _ _ _) rfl ?_
      exact Within.refl _ _
    · refine Within.step (openScene_within _ _ _ _ _) rfl ?_
      exact Within.refl _ _

theorem reserveStore_within (n len s) :
    Within [.trl] s (reserveStore n len s).2.2 := by
  unfold reserveStore
  dsimp only
  split
  · exact Within.trl rfl (Within.refl _ _)
  · exact Within.refl _ _

theorem doFlush_within (h s) :
    Within [.free, .out, .bus, .evt, .cue, .hfe, .scn, .obj, .trl, .flc, .smg, .bob, .tly, .scr, .slm] s (doFlush h s) := by
  unfold doFlush
  refine Within.trans ?_ (fetched_within (by exact rfl) ?_)
  · exact Within.refl _ _
  · intro u0
    split
    · rename_i w1 w2
      refine Within.step (failCmd_within _ _ _ _) rfl ?_
      exact Within.refl _ _
    · rename_i w3 w4 w5
      extract_lets +onlyGivenNames v6
      clear_value v6
      split
      · rename_i w8 w9 w10 w11
        refine Within.cut (Within.ofEq w11 ?_) (fun h12 => ?_)
        · refine Within.step (openScene_within _ _ _ _ _) rfl ?_
          exact Within.refl _ _
        refine Within.step (onScene_within _ _ _) rfl ?_
        exact h12

theorem onLbas_within {l} (hF : Sub [.free, .out, .bus, .evt, .cue, .hfe, .scn, .obj, .trl, .flc, .smg, .bob, .tly, .scr, .slm] l)
      {h opcode ranges work s} (hk3 : ∀ x0 u, Within l u (work x0 u)) :
    Within l s (onLbas h opcode ranges work s) := by
  unfold onLbas
  refine Within.trans ?_ (fetched_within (by exact (Sub.trans (by exact rfl) hF)) ?_)
  · exact Within.refl _ _
  · intro u0
    split
    · rename_i w1 w2
      refine Within.step (failCmd_within _ _ _ _) (Sub.trans (by exact rfl) hF) ?_
      exact Within.refl _ _
    · rename_i w3 w4 w5
      refine Within.ite (fun _ => ?_) (fun _ => ?_)
      · refine Within.step (failCmd_within _ _ _ _) (Sub.trans (by exact rfl) hF) ?_
        exact Within.refl _ _
      · refine Within.ite (fun _ => ?_) (fun _ => ?_)
        · refine Within.step (failCmd_within _ _ _ _) (Sub.trans (by exact rfl) hF) ?_
          exact Within.refl _ _
        · refine Within.trans ?_ (hk3 _ _)
          exact Within.refl _ _

theorem failRoom_within (h opcode st s) :
    Within [.out, .bus, .evt, .cue, .dev, .hfe, .scn, .obj, .trl, .smg, .bob, .phase] s (failRoom h opcode st s) := by
  unfold failRoom
  refine Within.step (failCmd_within _ _ _ _) rfl ?_
  refine Within.ite (fun _ => ?_) (fun _ => ?_)
  · refine Within.step (enterFinal_within _) rfl ?_
    exact Within.refl _ _
  · exact Within.refl _ _

theorem doDatasetManagement_within (h deallocate ranges s) :
    Within [.free, .out, .bus, .evt, .cue, .dev, .hfe, .scn, .obj, .trl, .flc, .smg, .bob, .tly, .scr, .slm, .phase] s
      (doDatasetManagement h deallocate ranges s) := by
  unfold doDatasetManagement
  refine Within.trans ?_ (onLbas_within (by exact rfl) ?_)
  · exact Within.refl _ _
  · intro u0
    intro u1
    refine Within.ite (fun _ => ?_) (fun _ => ?_)
    · refine Within.step (endAtOnce_within _ _ _ _ _) rfl ?_
      exact Within.refl _ _
    · split
      · rename_i w2 w3 w4 w5
        refine Within.step (failRoom_within _ _ _ _) rfl ?_
        exact Within.refl _ _
      · rename_i w6 w7 w8
        refine Within.step (openScene_within _ _ _ _ _) rfl ?_
        exact Within.refl _ _

theorem openWithData_within (h opcode kind len s) :
    Within [.out, .bus, .evt, .cue, .hfe, .scn, .smg, .bob] s (openWithData h opcode kind len s).2 := by
  unfold openWithData
  extract_lets +onlyGivenNames v0
  clear_value v0
  split
  · rename_i w2 w3 w4 w5
    refine Within.cut (Within.ofEq w5 ?_) (fun h6 => ?_)
    · refine Within.step (openScene_within _ _ _ _ _) rfl ?_
      exact Within.refl _ _
    extract_lets +onlyGivenNames v7
    refine Within.cut (x := v7) ?_ (fun h8 => ?_)
    · subst v7
      refine Within.step (onScene_within _ _ _) rfl ?_
      exact h6
    · clear_value v7
      refine Within.mkSnd ?_
      refine Within.hfe rfl ?_
      exact h8

theorem doMemoryWrite_within (h off len s) :
    Within [.free, .out, .bus, .evt, .cue, .hfe, .scn, .obj, .trl, .flc, .smg, .bob, .tly, .scr, .slm] s (doMemoryWrite h off len s)
      := by
  unfold doMemoryWrite
  refine Within.trans ?_ (onSlm_within (by exact rfl) ?_)
  · exact Within.refl _ _
  · intro u0
    refine Within.step (openWithData_within _ _ _ _ _) rfl ?_
    exact Within.refl _ _

theorem countFence_within (tag failed s) :
    Within [.scn] s (countFence tag failed s) := by
  unfold countFence
  refine Within.scn rfl ?_
  exact Within.refl _ _

theorem doFence_within (h cdw10 s) :
    Within [.free, .out, .bus, .evt, .cue, .hfe, .scn, .obj, .trl, .flc, .smg, .bob, .tly, .scr, .slm] s (doFence h cdw10 s) := by
  unfold doFence
  extract_lets +onlyGivenNames v0
  clear_value v0
  extract_lets +onlyGivenNames v2
  clear_value v2
  extract_lets +onlyGivenNames v4
  clear_value v4
  extract_lets +onlyGivenNames v6
  clear_value v6
  refine Within.trans ?_ (fetched_within (by exact rfl) ?_)
  · refine Within.ite (fun _ => ?_) (fun _ => ?_)
    · refine Within.step (countFence_within _ _ _) rfl ?_
      exact Within.refl _ _
    · exact Within.refl _ _
  · intro u8
    refine Within.ite (fun _ => ?_) (fun _ => ?_)
    · refine Within.step (failCmd_within _ _ _ _) rfl ?_
      exact Within.refl _ _
    · refine Within.ite (fun _ => ?_) (fun _ => ?_)
      · refine Within.step (failCmd_within _ _ _ _) rfl ?_
        exact Within.refl _ _
      · extract_lets +onlyGivenNames v9
        clear_value v9
        extract_lets +onlyGivenNames v11
        clear_value v11
        split
        · rename_i w13 w14 w15 w16 w17 w18
          refine Within.cut (Within.ofEq w18 ?_) (fun h19 => ?_)
          · refine Within.step (openScene_within _ _ _ _ _) rfl ?_
            exact Within.refl _ _
          refine Within.step (onScene_within _ _ _) rfl ?_
          exact h19

theorem doWriteZeroes_within (h slba nlb s) :
    Within [.free, .out, .bus, .evt, .cue, .dev, .hfe, .scn, .obj, .trl, .flc, .smg, .bob, .tly, .scr, .slm, .phase] s
      (doWriteZeroes h slba nlb s) := by
  unfold doWriteZeroes
  refine Within.trans ?_ (onLbas_within (by exact rfl) ?_)
  · exact Within.refl _ _
  · intro u0
    intro u1
    split
    · rename_i w2 w3 w4
      refine Within.step (failRoom_within _ _ _ _) rfl ?_
      exact Within.refl _ _
    · rename_i w5 w6
      refine Within.step (openScene_within _ _ _ _ _) rfl ?_
      exact Within.refl _ _

theorem doWriteUncorrectable_within (h slba nlb s) :
    Within [.free, .out, .bus, .evt, .cue, .dev, .hfe, .scn, .obj, .trl, .flc, .smg, .bob, .tly, .scr, .slm, .phase] s
      (doWriteUncorrectable h slba nlb s) := by
  unfold doWriteUncorrectable
  refine Within.trans ?_ (onLbas_within (by exact rfl) ?_)
  · exact Within.refl _ _
  · intro u0
    intro u1
    split
    · rename_i w2 w3 w4
      refine Within.step (failRoom_within _ _ _ _) rfl ?_
      exact Within.refl _ _
    · rename_i w5 w6
      refine Within.step (openScene_within _ _ _ _ _) rfl ?_
      exact Within.refl _ _

theorem doVerify_within (h slba nlb s) :
    Within [.free, .out, .bus, .evt, .cue, .hfe, .scn, .obj, .trl, .flc, .smg, .bob, .tly, .scr, .slm] s (doVerify h slba nlb s) := by
  unfold doVerify
  refine Within.trans ?_ (onLbas_within (by exact rfl) ?_)
  · exact Within.refl _ _
  · intro u0
    intro u1
    refine Within.step (openScene_within _ _ _ _ _) rfl ?_
    exact Within.refl _ _

theorem doKvList_within (h key bufLen s) :
    Within [.free, .out, .bus, .evt, .cue, .hfe, .scn, .obj, .trl, .flc, .smg, .bob, .tly, .scr, .slm] s (doKvList h key bufLen s)
      := by
  unfold doKvList
  refine Within.trans ?_ (fetched_within (by exact rfl) ?_)
  · exact Within.refl _ _
  · intro u0
    split
    · rename_i w1 w2
      refine Within.step (failCmd_within _ _ _ _) rfl ?_
      exact Within.refl _ _
    · rename_i w3 w4 w5
      refine Within.ite (fun _ => ?_) (fun _ => ?_)
      · refine Within.step (failCmd_within _ _ _ _) rfl ?_
        exact Within.refl _ _
      · refine Within.ite (fun _ => ?_) (fun _ => ?_)
        · refine Within.step (failCmd_within _ _ _ _) rfl ?_
          exact Within.refl _ _
        · refine Within.step (openScene_within _ _ _ _ _) rfl ?_
          exact Within.refl _ _

theorem doKvStore_within (h key len opts s) :
    Within [.free, .out, .bus, .evt, .cue, .dev, .hfe, .scn, .obj, .trl, .flc, .smg, .bob, .tly, .scr, .slm, .phase] s (doKvStore h
      key len opts s) := by
  unfold doKvStore
  refine Within.trans ?_ (onKey_within (by exact rfl) ?_)
  · exact Within.refl _ _
  · intro u0
    intro u1
    refine Within.ite (fun _ => ?_) (fun _ => ?_)
    · refine Within.step (failCmd_within _ _ _ _) rfl ?_
      exact Within.refl _ _
    · refine Within.ite (fun _ => ?_) (fun _ => ?_)
      · refine Within.step (failCmd_within _ _ _ _) rfl ?_
        exact Within.refl _ _
      · refine Within.ite (fun _ => ?_) (fun _ => ?_)
        · refine Within.step (failCmd_within _ _ _ _) rfl ?_
          exact Within.refl _ _
        · split
          · rename_i w2 w3 w4 w5 w6 w7 w8 w9
            refine Within.cut (Within.ofEq2 w9 ?_) (fun h10 => ?_)
            · refine Within.step (reserveStore_within _ _ _) rfl ?_
              exact Within.refl _ _
            split
            · rename_i w11
              refine Within.step (failRoom_within _ _ _ _) rfl ?_
              exact h10
            · rename_i w12 w13
              split
              · rename_i w14 w15 w16 w17
                refine Within.cut (Within.ofEq w17 ?_) (fun h18 => ?_)
                · refine Within.step (openWithData_within _ _ _ _ _) rfl ?_
                  exact h10
                refine Within.step (onScene_within _ _ _) rfl ?_
                exact h18

theorem doCompare_within (h slba nlb s) :
    Within [.free, .out, .bus, .evt, .cue, .hfe, .scn, .obj, .trl, .flc, .smg, .bob, .tly, .scr, .slm] s (doCompare h slba nlb s) := by
  unfold doCompare
  refine Within.trans ?_ (onLbas_within (by exact rfl) ?_)
  · exact Within.refl _ _
  · intro u0
    intro u1
    refine Within.step (openWithData_within _ _ _ _ _) rfl ?_
    exact Within.refl _ _

theorem doCopy_within (h dst format ranges s) :
    Within [.free, .out, .bus, .evt, .cue, .dev, .hfe, .scn, .obj, .trl, .flc, .smg, .bob, .tly, .scr, .slm, .phase] s (doCopy h dst
      format ranges s) := by
  unfold doCopy
  extract_lets +onlyGivenNames v0
  clear_value v0
  refine Within.trans ?_ (onLbas_within (by exact rfl) ?_)
  · exact Within.refl _ _
  · intro u2
    intro u3
    refine Within.ite (fun _ => ?_) (fun _ => ?_)
    · refine Within.step (failCmd_within _ _ _ _) rfl ?_
      exact Within.refl _ _
    · split
      · rename_i w4 w5 w6 w7
        refine Within.step (failRoom_within _ _ _ _) rfl ?_
        exact Within.refl _ _
      · rename_i w8 w9 w10
        refine Within.step (openScene_within _ _ _ _ _) rfl ?_
        exact Within.refl _ _

theorem doKvRetrieve_within (h key bufLen s) :
    Within [.free, .out, .bus, .evt, .cue, .hfe, .scn, .obj, .trl, .flc, .smg, .bob, .tly, .scr, .slm] s (doKvRetrieve h key bufLen
      s) := by
  unfold doKvRetrieve
  refine Within.trans ?_ (onKey_within (by exact rfl) ?_)
  · exact Within.refl _ _
  · intro u0
    intro u1
    refine Within.step (openScene_within _ _ _ _ _) rfl ?_
    exact Within.refl _ _

theorem doNvmWrite_within (h slba nlb fua kt s) :
    Within [.free, .out, .bus, .evt, .cue, .dev, .hfe, .scn, .obj, .trl, .flc, .smg, .bob, .tly, .scr, .slm, .phase] s (doNvmWrite h
      slba nlb fua kt s) := by
  unfold doNvmWrite
  refine Within.trans ?_ (onLbas_within (by exact rfl) ?_)
  · exact Within.refl _ _
  · intro u0
    intro u1
    refine Within.ite (fun _ => ?_) (fun _ => ?_)
    · refine Within.step (failCmd_within _ _ _ _) rfl ?_
      exact Within.refl _ _
    · split
      · rename_i w2 w3 w4 w5
        refine Within.step (failRoom_within _ _ _ _) rfl ?_
        exact Within.refl _ _
      · rename_i w6 w7 w8
        refine Within.step (openWithData_within _ _ _ _ _) rfl ?_
        refine Within.step (onSide_within _ _ _) rfl ?_
        exact Within.refl _ _

theorem doKvExist_within (h key s) :
    Within [.free, .out, .bus, .evt, .cue, .hfe, .scn, .obj, .trl, .flc, .smg, .bob, .tly, .scr, .slm] s (doKvExist h key s) := by
  unfold doKvExist
  refine Within.trans ?_ (onKey_within (by exact rfl) ?_)
  · exact Within.refl _ _
  · intro u0
    intro u1
    refine Within.step (openScene_within _ _ _ _ _) rfl ?_
    exact Within.refl _ _

theorem doCommitRequest_within (scene s) :
    Within [.free, .out, .bus, .evt, .cue, .hfe, .scn, .obj, .trl, .flc, .smg, .bob, .tly, .scr, .slm] s (doCommitRequest scene s)
      := by
  unfold doCommitRequest
  refine Within.step (commitRequest_within _ _) rfl ?_
  exact Within.refl _ _

theorem doReadPoint_within (scene s) :
    Within [.free, .out, .bus, .evt, .cue, .hfe, .scn, .obj, .trl, .flc, .smg, .bob, .tly, .scr, .slm] s (doReadPoint scene s) := by
  unfold doReadPoint
  refine Within.step (readPoint_within _ _) rfl ?_
  exact Within.refl _ _

theorem doMemoryCopy_within (h m s) :
    Within [.free, .out, .bus, .evt, .cue, .dev, .hfe, .scn, .obj, .trl, .flc, .smg, .bob, .tly, .scr, .slm, .phase] s (doMemoryCopy
      h m s) := by
  unfold doMemoryCopy
  refine Within.trans ?_ (fetched_within (by exact rfl) ?_)
  · exact Within.refl _ _
  · intro u0
    extract_lets +onlyGivenNames v1
    clear_value v1
    extract_lets +onlyGivenNames v3
    clear_value v3
    refine Within.ite (fun _ => ?_) (fun _ => ?_)
    · refine Within.step (failCmd_within _ _ _ _) rfl ?_
      exact Within.refl _ _
    · refine Within.ite (fun _ => ?_) (fun _ => ?_)
      · refine Within.step (failCmd_within _ _ _ _) rfl ?_
        exact Within.refl _ _
      · refine Within.ite (fun _ => ?_) (fun _ => ?_)
        · refine Within.step (failCmd_within _ _ _ _) rfl ?_
          exact Within.refl _ _
        · refine Within.ite (fun _ => ?_) (fun _ => ?_)
          · refine Within.step (failCmd_within _ _ _ _) rfl ?_
            exact Within.refl _ _
          · split
            · rename_i w5 w6 w7 w8 w9 w10 w11
              split
              · rename_i w12 w13 w14 w15 w16
                refine Within.cut (Within.ofEq2 w16 ?_) (fun h17 => ?_)
                · refine Within.step (reserveStore_within _ _ _) rfl ?_
                  exact Within.refl _ _
                split
                · rename_i w18
                  refine Within.step (failRoom_within _ _ _ _) rfl ?_
                  exact h17
                · rename_i w19 w20
                  split
                  · rename_i w21 w22 w23 w24
                    refine Within.cut (Within.ofEq w24 ?_) (fun h25 => ?_)
                    · refine Within.step (openScene_within _ _ _ _ _) rfl ?_
                      exact h17
                    refine Within.step (onScene_within _ _ _) rfl ?_
                    exact h25
            · rename_i w26 w27 w28 w29 w30 w31
              split
              · rename_i w32 w33 w34 w35
                refine Within.cut (Within.ofEq w35 ?_) (fun h36 => ?_)
                · refine Within.step (openScene_within _ _ _ _ _) rfl ?_
                  exact Within.refl _ _
                refine Within.step (onScene_within _ _ _) rfl ?_
                exact h36

theorem doNvmRead_within (h slba nlb kt s) :
    Within [.free, .out, .bus, .evt, .cue, .hfe, .scn, .obj, .trl, .flc, .smg, .bob, .tly, .scr, .slm] s (doNvmRead h slba nlb kt s)
      := by
  unfold doNvmRead
  refine Within.trans ?_ (onLbas_within (by exact rfl) ?_)
  · exact Within.refl _ _
  · intro u0
    intro u1
    refine Within.ite (fun _ => ?_) (fun _ => ?_)
    · refine Within.step (failCmd_within _ _ _ _) rfl ?_
      exact Within.refl _ _
    · refine Within.step (openScene_within _ _ _ _ _) rfl ?_
      refine Within.step (onSide_within _ _ _) rfl ?_
      exact Within.refl _ _

theorem doMemoryRead_within (h off len s) :
    Within [.free, .out, .bus, .evt, .cue, .hfe, .scn, .obj, .trl, .flc, .smg, .bob, .tly, .scr, .slm] s (doMemoryRead h off len s)
      := by
  unfold doMemoryRead
  refine Within.trans ?_ (onSlm_within (by exact rfl) ?_)
  · exact Within.refl _ _
  · intro u0
    refine Within.step (openScene_within _ _ _ _ _) rfl ?_
    exact Within.refl _ _

theorem doRollBackRequest_within (scene st s) :
    Within [.free, .out, .bus, .evt, .cue, .hfe, .scn, .obj, .trl, .flc, .smg, .bob, .tly, .scr, .slm] s (doRollBackRequest scene st
      s) := by
  unfold doRollBackRequest
  refine Within.step (rollBackRequest_within _ _ _) rfl ?_
  exact Within.refl _ _

end Sys2Proof.Machine
end

