-- ==== Sys2Proof/Laws/FrameTrl.lean ====
section
/-! SUPPORT. What each operation of Machine/Trl.lean may change, and what it keeps. -/
namespace Sys2Proof.Machine

theorem startCheckpoint_within (s) :
    Within [.evt, .trl] s (startCheckpoint s) := by
  unfold startCheckpoint
  refine Within.ite (fun _ => ?_) (fun _ => ?_)
  · exact Within.refl _ _
  · refine Within.upd ?_ (by constructor <;> first | exact .inl rfl | exact .inr rfl | exact Nat.le_refl _ | exact List.suffix_refl _ | exact id | exact Nat.le_add_right _ _ | exact .inr ⟨rfl, rfl⟩ | exact memWrite_wf | exact memErase_wf | exact Nat.le_of_eq (closeAllPages_next _).symm)
    exact Within.refl _ _

theorem doTrlCkptCtrl_within (val s) :
    Within [.evt, .trl] s (doTrlCkptCtrl val s) := by
  unfold doTrlCkptCtrl
  refine Within.trans ?_ (onlyIf_within (by exact rfl) ?_)
  · exact Within.refl _ _
  · intro u0
    refine Within.step (startCheckpoint_within _) rfl ?_
    exact Within.refl _ _

theorem commitDestage_within (slot e suspect s) :
    Within [.out, .bus, .evt, .scn, .trl] s (commitDestage slot e suspect s) := by
  unfold commitDestage
  split
  · refine Within.ite (fun _ => ?_) (fun _ => Within.refl _ _)
    split
    refine Within.ite (fun _ => ?_) (fun _ => Within.trl rfl (Within.refl _ _))
    exact Within.step (raiseObj_within _ _ _ _) rfl (Within.step (onScene_within _ _ _) rfl (Within.trl rfl (Within.refl _ _)))
  · exact Within.refl _ _

theorem commitCopy_within (sb c s) :
    Within [.out, .bus, .evt, .scn, .trl] s (commitCopy sb c s) := by
  unfold commitCopy
  split
  · rename_i w0 w1 w2
    refine Within.step (commitDestage_within _ _ _ _) rfl ?_
    exact Within.refl _ _
  · rename_i w3 w4
    extract_lets +onlyGivenNames v5
    clear_value v5
    refine Within.ite (fun _ => ?_) (fun _ => ?_)
    · extract_lets +onlyGivenNames v7
      clear_value v7
      split
      · rename_i w9 w10 w11 w12 w13
        extract_lets +onlyGivenNames v14
        clear_value v14
        extract_lets +onlyGivenNames v16
        refine Within.cut (x := v16) ?_ (fun h17 => ?_)
        · subst v16
          refine Within.trl rfl ?_
          exact Within.refl _ _
        · clear_value v16
          refine Within.ite (fun _ => ?_) (fun _ => ?_)
          · exact h17
          · refine Within.step (count1_within _ _) rfl ?_
            exact h17
    · exact Within.refl _ _

theorem commitPlatterCopies_within (act s) :
    Within [.out, .bus, .evt, .scn, .trl] s (commitPlatterCopies act s) := by
  unfold commitPlatterCopies
  extract_lets +onlyGivenNames v0
  clear_value v0
  extract_lets +onlyGivenNames v2
  clear_value v2
  extract_lets +onlyGivenNames v4
  clear_value v4
  extract_lets +onlyGivenNames v6
  refine Within.cut (x := v6) ?_ (fun h7 => ?_)
  · subst v6
    refine Within.foldl (fun u8 a9 => ?_) ?_
    · refine Within.step (commitCopy_within _ _ _) rfl ?_
      exact Within.refl _ _
    · refine Within.trl rfl ?_
      exact Within.refl _ _
  · clear_value v6
    extract_lets +onlyGivenNames v10
    clear_value v10
    refine Within.foldl (fun u12 a13 => ?_) ?_
    · extract_lets +onlyGivenNames v14
      clear_value v14
      extract_lets +onlyGivenNames v16
      refine Within.cut (x := v16) ?_ (fun h17 => ?_)
      · subst v16
        refine Within.ite (fun _ => ?_) (fun _ => ?_)
        · refine Within.step (countUp_within _ _ _) rfl ?_
          exact Within.refl _ _
        · exact Within.refl _ _
      · clear_value v16
        refine Within.trl rfl ?_
        exact h17
    · exact h7

theorem eraseVictim_within (sb s) :
    Within [.bus, .cue, .trl, .flc] s (eraseVictim sb s) := by
  unfold eraseVictim
  split
  · rename_i w0 w1 w2
    refine Within.ite (fun _ => ?_) (fun _ => ?_)
    · extract_lets +onlyGivenNames v3
      refine Within.cut (x := v3) ?_ (fun h4 => ?_)
      · subst v3
        refine Within.ite (fun _ => ?_) (fun _ => ?_)
        · refine Within.step (countUp_within _ _ _) rfl ?_
          exact Within.refl _ _
        · exact Within.refl _ _
      · clear_value v3
        extract_lets +onlyGivenNames v5
        clear_value v5
        extract_lets +onlyGivenNames v7
        clear_value v7
        refine Within.step (eraseMembers_within _ _ _) rfl ?_
        refine Within.trl rfl ?_
        exact h4
    · exact Within.refl _ _
  · rename_i w9 w10
    exact Within.refl _ _

theorem fillSlot_within (k s) :
    Within [.bus, .cue, .trl, .flc] s (fillSlot k s).2 := by
  unfold fillSlot
  split
  · rename_i w0 w1 w2
    extract_lets +onlyGivenNames v3
    clear_value v3
    extract_lets +onlyGivenNames v5
    clear_value v5
    refine Within.mkSnd ?_
    refine Within.step (programSlot_within _ _ _) rfl ?_
    refine Within.trl rfl ?_
    exact Within.refl _ _
  · rename_i w7 w8
    refine Within.mkSnd ?_
    exact Within.refl _ _

theorem openSb_within {st : Stream} {s t : State} {k : Nat} (h : openSb st s = some (k, t)) : Within [.bus, .cue, .trl, .flc] s t := by
  unfold openSb at h
  dsimp only at h
  split at h
  · split at h
    · simp only [Option.some.injEq, Prod.mk.injEq] at h
      obtain ⟨-, rfl⟩ := h
      refine Within.step (programHeaders_within _ _ _) rfl ?_
      exact Within.trl rfl (Within.refl _ _)
    · cases h
  · cases h

theorem takeSlot_within {st : Stream} {s t : State} {e : MapEntry} (h : takeSlot st s = some (e, t)) :
    Within [.bus, .cue, .trl, .flc] s t := by
  unfold takeSlot at h
  split at h
  · have e := Option.some.inj h
    exact Within.ofEq e (Within.step (fillSlot_within _ _) rfl (Within.refl _ _))
  · split at h
    · rename_i ho
      have e := Option.some.inj h
      exact Within.ofEq e (Within.step (fillSlot_within _ _) rfl (openSb_within ho))
    · cases h

theorem mediaSlot_within {unit : Nat} {f p : Stream} {s t : State} {e : MapEntry} (h : mediaSlot unit f p s = some (e, t)) :
    Within [.bus, .cue, .trl, .flc] s t := by
  unfold mediaSlot at h
  split at h
  · exact takeSlot_within h
  · obtain ⟨r, -, hr⟩ := Option.map_eq_some_iff.1 h
    simp only [Prod.mk.injEq] at hr
    obtain ⟨-, rfl⟩ := hr
    exact Within.trl rfl (Within.refl _ _)

theorem doCheckpointClosed_within (s) :
    Within [.obj, .trl] s (doCheckpointClosed s) := by
  unfold doCheckpointClosed
  refine Within.ite (fun _ => ?_) (fun _ => ?_)
  · extract_lets +onlyGivenNames v0
    clear_value v0
    refine Within.upd ?_ (by constructor <;> first | exact .inl rfl | exact .inr rfl | exact Nat.le_refl _ | exact List.suffix_refl _ | exact id | exact Nat.le_add_right _ _ | exact .inr ⟨rfl, rfl⟩ | exact memWrite_wf | exact memErase_wf | exact Nat.le_of_eq (closeAllPages_next _).symm)
    exact Within.refl _ _
  · exact Within.refl _ _

theorem doPlatterReclaim_within (act s) :
    Within [.trl] s (doPlatterReclaim act s) := by
  unfold doPlatterReclaim
  refine Within.ite (fun _ => ?_) (fun _ => ?_)
  · exact Within.refl _ _
  · extract_lets +onlyGivenNames v0
    clear_value v0
    split
    · rename_i w2 w3 w4
      exact Within.refl _ _
    · rename_i w5 w6 w7 w8 w9
      refine Within.ite (fun _ => ?_) (fun _ => ?_)
      · refine Within.trl rfl ?_
        exact Within.refl _ _
      · extract_lets +onlyGivenNames v10
        clear_value v10
        extract_lets +onlyGivenNames v12
        clear_value v12
        refine Within.trl rfl ?_
        exact Within.refl _ _

theorem doPlaceAdmit_within (s) :
    Within [.free, .out, .bus, .evt, .cue, .hfe, .scn, .obj, .trl, .flc, .smg, .bob, .tly, .scr, .slm] s (doPlaceAdmit s) := by
  unfold doPlaceAdmit
  split
  · rename_i w0 w1 w2 w3 w4 w5 w6 w7
    refine Within.ite (fun _ => ?_) (fun _ => ?_)
    · refine Within.step (goOn_within _) rfl ?_
      refine Within.trl rfl ?_
      exact Within.refl _ _
    · exact Within.refl _ _
  · rename_i w8 w9 w10
    exact Within.refl _ _

theorem startCopies_within (sb refresh s) :
    Within [.bus, .cue, .trl, .flc] s (startCopies sb refresh s) := by
  unfold startCopies
  extract_lets +onlyGivenNames v0
  refine Within.cut (x := v0) ?_ (fun h1 => ?_)
  · subst v0
    refine Within.foldl (fun u2 a3 => ?_) ?_
    · split
      · rename_i w4 w5 w6 w7
        refine Within.cut (Within.step (takeSlot_within w7) rfl ?_) (fun h8 => ?_)
        · exact Within.refl _ _
        refine Within.trl rfl ?_
        exact h8
      · rename_i w9 w10
        exact Within.refl _ _
    · exact Within.refl _ _
  · clear_value v0
    refine Within.trl rfl ?_
    exact h1

theorem reclaim_within (foreground s) :
    Within [.bus, .cue, .trl, .flc] s (reclaim foreground s) := by
  unfold reclaim
  refine Within.ite (fun _ => ?_) (fun _ => ?_)
  · exact Within.refl _ _
  · extract_lets +onlyGivenNames v0
    clear_value v0
    extract_lets +onlyGivenNames v2
    clear_value v2
    split
    · rename_i w4 w5 w6 w7 w8 w9
      refine Within.step (eraseVictim_within _ _) rfl ?_
      refine Within.step (startCopies_within _ _ _) rfl ?_
      refine Within.trl rfl ?_
      exact Within.refl _ _
    · rename_i w10 w11 w12 w13 w14
      refine Within.step (eraseVictim_within _ _) rfl ?_
      refine Within.step (startCopies_within _ _ _) rfl ?_
      refine Within.trl rfl ?_
      exact Within.refl _ _
    · rename_i w15 w16 w17 w18
      exact Within.refl _ _

theorem doJournalWrite_within (s) :
    Within [.trl] s (doJournalWrite s) := by
  unfold doJournalWrite
  extract_lets +onlyGivenNames v0
  clear_value v0
  refine Within.ite (fun _ => ?_) (fun _ => ?_)
  · refine Within.trl rfl ?_
    exact Within.refl _ _
  · exact Within.refl _ _

theorem doReclaimForeground_within (s) :
    Within [.bus, .cue, .trl, .flc] s (doReclaimForeground s) := by
  unfold doReclaimForeground
  refine Within.trans ?_ (onlyIf_within (by exact rfl) ?_)
  · exact Within.refl _ _
  · intro u0
    refine Within.step (reclaim_within _ _) rfl ?_
    exact Within.refl _ _

theorem doJournalProgrammed_within (s) :
    Within [.free, .out, .bus, .evt, .cue, .hfe, .scn, .obj, .trl, .flc, .smg, .bob, .tly, .scr, .slm] s (doJournalProgrammed s) := by
  unfold doJournalProgrammed
  extract_lets +onlyGivenNames v0
  clear_value v0
  refine Within.step (goOn_within _) rfl ?_
  refine Within.step (trimUndo_within _) rfl ?_
  refine Within.trl rfl ?_
  exact Within.refl _ _

theorem doRetentionExpiry_within (sb s) :
    Within [.trl] s (doRetentionExpiry sb s) := by
  unfold doRetentionExpiry
  split
  · rename_i w0 w1 w2
    split
    · rename_i w3 w4 w5
      refine Within.ite (fun _ => ?_) (fun _ => ?_)
      · refine Within.trl rfl ?_
        exact Within.refl _ _
      · exact Within.refl _ _
    · rename_i w6 w7
      exact Within.refl _ _
  · rename_i w8 w9
    exact Within.refl _ _

theorem doCheckpointStart_within (s) :
    Within [.evt, .trl] s (doCheckpointStart s) := by
  unfold doCheckpointStart
  refine Within.trans ?_ (onlyIf_within (by exact rfl) ?_)
  · exact Within.refl _ _
  · intro u0
    refine Within.step (startCheckpoint_within _) rfl ?_
    exact Within.refl _ _

theorem doDestage_within (slot s) :
    Within [.bus, .cue, .trl, .flc] s (doDestage slot s) := by
  unfold doDestage
  split
  · rename_i w0 w1
    exact Within.refl _ _
  · rename_i w2 w3 w4
    refine Within.ite (fun _ => ?_) (fun _ => ?_)
    · exact Within.refl _ _
    · split
      · rename_i w5 w6 w7
        exact Within.refl _ _
      · rename_i w9 w10 w11 w12 w13
        refine Within.cut (Within.step (mediaSlot_within w13) rfl ?_) (fun h14 => ?_)
        · exact Within.refl _ _
        refine Within.trl rfl ?_
        exact h14

theorem doReclaimBackground_within (s) :
    Within [.bus, .cue, .trl, .flc] s (doReclaimBackground s) := by
  unfold doReclaimBackground
  refine Within.trans ?_ (onlyIf_within (by exact rfl) ?_)
  · exact Within.refl _ _
  · intro u0
    refine Within.step (reclaim_within _ _) rfl ?_
    exact Within.refl _ _

end Sys2Proof.Machine
end

