-- ==== Sys2Proof/Laws/FrameArchive.lean ====
section
/-! SUPPORT. What each operation of Machine/Archive.lean may change, and what it keeps. -/
namespace Sys2Proof.Machine

theorem trimBoard_within (n s) :
    Within [.bus, .obj] s (trimBoard n s) := by
  unfold trimBoard
  extract_lets +onlyGivenNames v0
  clear_value v0
  refine Within.ite (fun _ => ?_) (fun _ => ?_)
  · exact Within.refl _ _
  · refine Within.step (countUp_within _ _ _) rfl ?_
    refine Within.obj rfl ?_
    exact Within.refl _ _

theorem postResult_within (r s) :
    Within [.bus, .obj] s (postResult r s) := by
  unfold postResult
  extract_lets +onlyGivenNames v0
  clear_value v0
  extract_lets +onlyGivenNames v2
  clear_value v2
  extract_lets +onlyGivenNames v4
  clear_value v4
  extract_lets +onlyGivenNames v6
  clear_value v6
  extract_lets +onlyGivenNames v8
  clear_value v8
  extract_lets +onlyGivenNames v10
  clear_value v10
  extract_lets +onlyGivenNames v12
  refine Within.cut (x := v12) ?_ (fun h13 => ?_)
  · subst v12
    refine Within.obj rfl ?_
    exact Within.refl _ _
  · clear_value v12
    extract_lets +onlyGivenNames v14
    clear_value v14
    refine Within.ite (fun _ => ?_) (fun _ => ?_)
    · extract_lets +onlyGivenNames v16
      clear_value v16
      extract_lets +onlyGivenNames v18
      clear_value v18
      extract_lets +onlyGivenNames v20
      clear_value v20
      extract_lets +onlyGivenNames v22
      refine Within.cut (x := v22) ?_ (fun h23 => ?_)
      · subst v22
        refine Within.step (trimBoard_within _ _) rfl ?_
        exact h13
      · clear_value v22
        refine Within.step (count1_within _ _) rfl ?_
        refine Within.obj rfl ?_
        exact h23
    · exact h13

theorem doCbdCursorWrite_within (q hi s) :
    Within [.bus, .obj, .regs, .halves] s (doCbdCursorWrite q hi s) := by
  unfold doCbdCursorWrite
  refine Within.ite (fun _ => ?_) (fun _ => ?_)
  · extract_lets +onlyGivenNames v0
    clear_value v0
    refine Within.step (takeHigh_within _ _ _ _) rfl ?_
    refine Within.obj rfl ?_
    exact Within.refl _ _
  · exact Within.refl _ _

theorem doTwTlyPrCursorWrite_within (q tag hi s) :
    Within [.bus, .obj, .regs, .halves] s (doTwTlyPrCursorWrite q tag hi s) := by
  unfold doTwTlyPrCursorWrite
  refine Within.ite (fun _ => ?_) (fun _ => ?_)
  · extract_lets +onlyGivenNames v0
    clear_value v0
    extract_lets +onlyGivenNames v2
    clear_value v2
    refine Within.step (takeHigh_within _ _ _ _) rfl ?_
    refine Within.obj rfl ?_
    exact Within.refl _ _
  · exact Within.refl _ _

theorem doTwCbCursorWrite_within (q tag hi s) :
    Within [.bus, .obj, .regs, .halves] s (doTwCbCursorWrite q tag hi s) := by
  unfold doTwCbCursorWrite
  refine Within.ite (fun _ => ?_) (fun _ => ?_)
  · extract_lets +onlyGivenNames v0
    clear_value v0
    extract_lets +onlyGivenNames v2
    clear_value v2
    refine Within.step (takeHigh_within _ _ _ _) rfl ?_
    refine Within.obj rfl ?_
    exact Within.refl _ _
  · exact Within.refl _ _

theorem onJob_within (tag f s) :
    Within [.obj] s (onJob tag f s) := by
  unfold onJob
  refine Within.obj rfl ?_
  exact Within.refl _ _

theorem doArcExport_within (tag s) :
    Within [.obj] s (doArcExport tag s) := by
  unfold doArcExport
  refine Within.ite (fun _ => ?_) (fun _ => ?_)
  · exact Within.refl _ _
  · split
    · rename_i w0 w1 w2
      refine Within.step (onJob_within _ _ _) rfl ?_
      exact Within.refl _ _
    · rename_i w3 w4 w5 w6 w7
      extract_lets +onlyGivenNames v8
      clear_value v8
      extract_lets +onlyGivenNames v10
      clear_value v10
      extract_lets +onlyGivenNames v12
      clear_value v12
      extract_lets +onlyGivenNames v14
      clear_value v14
      extract_lets +onlyGivenNames v16
      clear_value v16
      refine Within.step (onJob_within _ _ _) rfl ?_
      exact Within.refl _ _

theorem doArcImport_within (tag bag s) :
    Within [.obj] s (doArcImport tag bag s) := by
  unfold doArcImport
  refine Within.ite (fun _ => ?_) (fun _ => ?_)
  · exact Within.refl _ _
  · refine Within.ite (fun _ => ?_) (fun _ => ?_)
    · refine Within.step (onJob_within _ _ _) rfl ?_
      exact Within.refl _ _
    · split
      · rename_i w0 w1 w2 w3
        refine Within.step (onJob_within _ _ _) rfl ?_
        exact Within.refl _ _
      · rename_i w4 w5 w6 w7 w8
        extract_lets +onlyGivenNames v9
        clear_value v9
        refine Within.step (onJob_within _ _ _) rfl ?_
        exact Within.refl _ _

theorem doArcAbort_within (tag s) :
    Within [.obj] s (doArcAbort tag s) := by
  unfold doArcAbort
  refine Within.ite (fun _ => ?_) (fun _ => ?_)
  · refine Within.step (onJob_within _ _ _) rfl ?_
    exact Within.refl _ _
  · exact Within.refl _ _

theorem doArcProvenance_within (tag s) :
    Within [.obj] s (doArcProvenance tag s) := by
  unfold doArcProvenance
  refine Within.ite (fun _ => ?_) (fun _ => ?_)
  · exact Within.refl _ _
  · extract_lets +onlyGivenNames v0
    clear_value v0
    refine Within.ite (fun _ => ?_) (fun _ => ?_)
    · refine Within.step (onJob_within _ _ _) rfl ?_
      exact Within.refl _ _
    · split
      · rename_i w2 w3 w4 w5 w6
        refine Within.ite (fun _ => ?_) (fun _ => ?_)
        · refine Within.step (onJob_within _ _ _) rfl ?_
          exact Within.refl _ _
        · split
          · rename_i w7 w8 w9 w10 w11
            refine Within.step (onJob_within _ _ _) rfl ?_
            exact Within.refl _ _
          · rename_i w12 w13 w14
            refine Within.step (onJob_within _ _ _) rfl ?_
            exact Within.refl _ _
      · rename_i w15 w16 w17 w18
        refine Within.step (onJob_within _ _ _) rfl ?_
        exact Within.refl _ _

theorem foldl_none {α β : Type} (f : Option α → β → Option α) (hf : ∀ b, f none b = none) (l : List β) : l.foldl f none = none := by
  induction l with
  | nil => rfl
  | cons b l ih => rw [List.foldl_cons, hf, ih]

theorem placeMedia_within {us : List Nat} {s t : State} (h : placeMedia us s = some t) : Within [.bus, .cue, .trl, .flc] s t := by
  unfold placeMedia at h
  induction us generalizing s with
  | nil => simp only [List.foldl_nil, Option.some.injEq] at h; subst h; exact Within.refl _ _
  | cons u us ih =>
    rw [List.foldl_cons] at h
    cases hm : mediaSlot u .reloc .bandMove s with
    | none =>
      simp only [hm] at h
      rw [foldl_none _ (fun _ => rfl)] at h
      cases h
    | some p =>
      obtain ⟨e, s1⟩ := p
      simp only [hm] at h
      exact (Within.trl rfl (mediaSlot_within hm)).trans (ih h)

theorem importFile_within (tag j f s) :
    Within [.bus, .scn, .obj, .trl] s (importFile tag j f s) := by
  unfold importFile
  extract_lets +onlyGivenNames v0
  refine Within.cut (x := v0) ?_ (fun h1 => ?_)
  · subst v0
    refine Within.step (onJob_within _ _ _) rfl ?_
    exact Within.refl _ _
  · clear_value v0
    split
    · rename_i w2 w3 w4 w5 w6 w7
      extract_lets +onlyGivenNames v8
      clear_value v8
      refine Within.ite (fun _ => ?_) (fun _ => ?_)
      · exact h1
      · split
        · rename_i w10 w11 w12 w13 w14 w15
          refine Within.cut (Within.ofEq2 w15 ?_) (fun h16 => ?_)
          · refine Within.step (reserveStore_within _ _ _) rfl ?_
            exact Within.refl _ _
          split
          · rename_i w17
            exact h1
          · rename_i w18 w19
            extract_lets +onlyGivenNames v20
            refine Within.cut (x := v20) ?_ (fun h21 => ?_)
            · subst v20
              refine Within.step (commitVersion_within _ _ _ _ _ _ _ _ _) rfl ?_
              refine Within.step (noteUndo_within _ _ _) rfl ?_
              exact h16
            · clear_value v20
              extract_lets +onlyGivenNames v22
              clear_value v22
              extract_lets +onlyGivenNames v24
              refine Within.cut (x := v24) ?_ (fun h25 => ?_)
              · subst v24
                refine Within.scn rfl ?_
                exact h21
              · clear_value v24
                refine Within.step (onJob_within _ _ _) rfl ?_
                exact h25
    · rename_i w26 w27 w28
      exact h1

theorem fixityVersion_within (nsid obj result digest n v s) :
    Within [.bus, .cue, .obj, .trl, .flc] s (fixityVersion nsid obj result digest n v s) := by
  unfold fixityVersion
  extract_lets +onlyGivenNames v0
  clear_value v0
  extract_lets +onlyGivenNames v2
  clear_value v2
  extract_lets +onlyGivenNames v4
  refine Within.cut (x := v4) ?_ (fun h5 => ?_)
  · subst v4
    refine Within.obj rfl ?_
    exact Within.refl _ _
  · clear_value v4
    extract_lets +onlyGivenNames v6
    refine Within.cut (x := v6) ?_ (fun h7 => ?_)
    · subst v6
      refine Within.ite (fun _ => ?_) (fun _ => ?_)
      · split
        · rename_i w8 w9 w10 w11
          refine Within.cut (Within.step (placeMedia_within w11) rfl ?_) (fun h12 => ?_)
          · exact h5
          refine Within.trl rfl ?_
          exact h12
        · rename_i w13 w14 w15
          exact h5
      · exact h5
    · clear_value v6
      refine Within.step (postResult_within _ _) rfl ?_
      exact h7

theorem fixityDone_within (nsid obj result digest s) :
    Within [.out, .bus, .evt, .cue, .obj, .trl, .flc] s (fixityDone nsid obj result digest s) := by
  unfold fixityDone
  split
  · rename_i w0 w1
    exact Within.refl _ _
  · rename_i w2 w3 w4
    extract_lets +onlyGivenNames v5
    clear_value v5
    extract_lets +onlyGivenNames v7
    refine Within.cutFun (f := v7) ?_ (fun h8 => ?_)
    · subst v7
      intro u9
      dsimp only
      refine Within.ite (fun _ => ?_) (fun _ => ?_)
      · refine Within.step (raiseObj_within _ _ _ _) rfl ?_
        exact Within.refl _ _
      · refine Within.ite (fun _ => ?_) (fun _ => ?_)
        · refine Within.step (raiseObj_within _ _ _ _) rfl ?_
          exact Within.refl _ _
        · exact Within.refl _ _
    · clear_value v7
      extract_lets +onlyGivenNames v10
      clear_value v10
      extract_lets +onlyGivenNames v12
      refine Within.cut (x := v12) ?_ (fun h13 => ?_)
      · subst v12
        refine Within.obj rfl ?_
        exact Within.refl _ _
      · clear_value v12
        refine Within.ite (fun _ => ?_) (fun _ => ?_)
        · split
          · rename_i w14 w15 w16 w17
            refine Within.trans ?_ (h8 _)
            refine Within.step (fixityVersion_within _ _ _ _ _ _ _) rfl ?_
            exact h13
          · rename_i w18 w19 w20
            exact h13
        · refine Within.trans ?_ (h8 _)
          refine Within.step (postResult_within _ _) rfl ?_
          exact h13

theorem moveVersion_within (nsid id s) :
    Within [.bus, .cue, .obj, .trl, .flc] s (moveVersion nsid id s) := by
  unfold moveVersion
  split
  · exact Within.refl _ _
  · split
    · exact Within.refl _ _
    · split
      · exact Within.refl _ _
      · dsimp only
        split
        · exact Within.refl _ _
        · rename_i t ht
          have h : Within [.bus, .cue, .obj, .trl, .flc] s t :=
            Within.step (placeMedia_within ht) rfl (Within.trl rfl (Within.refl _ _))
          generalize Tab.put t.obj.ns nsid _ = ns
          generalize freeRun _ _ _ _ _ = r
          exact Within.obj (u := { t with trl := r }) rfl (Within.trl rfl h)

theorem fixityFail_within (c result s) :
    Within [.out, .bus, .evt, .cue, .obj, .trl, .flc] s (fixityFail c result s) := by
  unfold fixityFail
  split
  · rename_i w0 w1
    refine Within.step (fixityDone_within _ _ _ _ _) rfl ?_
    exact Within.refl _ _
  · rename_i w2
    exact Within.refl _ _

theorem doTierMovePass_within (nsid s) :
    Within [.bus, .cue, .obj, .trl, .flc] s (doTierMovePass nsid s) := by
  unfold doTierMovePass
  refine Within.ite (fun _ => ?_) (fun _ => ?_)
  · split
    · rename_i w0 w1 w2 w3
      refine Within.ite (fun _ => ?_) (fun _ => ?_)
      · refine Within.foldl (fun u4 a5 => ?_) ?_
        · refine Within.step (moveVersion_within _ _ _) rfl ?_
          exact Within.refl _ _
        · exact Within.refl _ _
      · exact Within.refl _ _
    · rename_i w6 w7 w8
      exact Within.refl _ _
  · exact Within.refl _ _

theorem writeBag_within (nsid off b seq s) :
    Within [.obj, .trl] s (writeBag nsid off b seq s) := by
  unfold writeBag
  split
  · rename_i w0 w1 w2
    refine Within.ite (fun _ => ?_) (fun _ => ?_)
    · exact Within.refl _ _
    · extract_lets +onlyGivenNames v3
      clear_value v3
      extract_lets +onlyGivenNames v5
      clear_value v5
      extract_lets +onlyGivenNames v7
      clear_value v7
      extract_lets +onlyGivenNames v9
      clear_value v9
      refine Within.step (onNs_within _ _ _) rfl ?_
      refine Within.step (placeAll_within _ _ _ _ _) rfl ?_
      exact Within.refl _ _
  · rename_i w11 w12
    exact Within.refl _ _

theorem exportFile_within (tag j f s) :
    Within [.scn, .obj, .trl] s (exportFile tag j f s) := by
  unfold exportFile
  extract_lets +onlyGivenNames v0
  clear_value v0
  extract_lets +onlyGivenNames v2
  clear_value v2
  extract_lets +onlyGivenNames v4
  clear_value v4
  extract_lets +onlyGivenNames v6
  clear_value v6
  extract_lets +onlyGivenNames v8
  clear_value v8
  refine Within.ite (fun _ => ?_) (fun _ => ?_)
  · extract_lets +onlyGivenNames v10
    refine Within.cut (x := v10) ?_ (fun h11 => ?_)
    · subst v10
      refine Within.step (writeBag_within _ _ _ _ _) rfl ?_
      refine Within.step (noteUndo_within _ _ _) rfl ?_
      exact Within.refl _ _
    · clear_value v10
      extract_lets +onlyGivenNames v12
      clear_value v12
      extract_lets +onlyGivenNames v14
      refine Within.cut (x := v14) ?_ (fun h15 => ?_)
      · subst v14
        refine Within.scn rfl ?_
        exact h11
      · clear_value v14
        refine Within.step (onJob_within _ _ _) rfl ?_
        exact h15
  · refine Within.step (onJob_within _ _ _) rfl ?_
    exact Within.refl _ _

theorem doArcFileDone_within (tag f s) :
    Within [.bus, .scn, .obj, .trl] s (doArcFileDone tag f s) := by
  unfold doArcFileDone
  extract_lets +onlyGivenNames v0
  clear_value v0
  split
  · rename_i w2 w3
    refine Within.ite (fun _ => ?_) (fun _ => ?_)
    · refine Within.step (onJob_within _ _ _) rfl ?_
      exact Within.refl _ _
    · extract_lets +onlyGivenNames v4
      refine Within.cut (x := v4) ?_ (fun h5 => ?_)
      · subst v4
        refine Within.step (exportFile_within _ _ _ _) rfl ?_
        exact Within.refl _ _
      · clear_value v4
        refine Within.ite (fun _ => ?_) (fun _ => ?_)
        · refine Within.step (onJob_within _ _ _) rfl ?_
          exact h5
        · refine Within.ite (fun _ => ?_) (fun _ => ?_)
          · extract_lets +onlyGivenNames v6
            clear_value v6
            extract_lets +onlyGivenNames v8
            clear_value v8
            extract_lets +onlyGivenNames v10
            refine Within.cut (x := v10) ?_ (fun h11 => ?_)
            · subst v10
              refine Within.step (postResult_within _ _) rfl ?_
              exact h5
            · clear_value v10
              refine Within.step (onJob_within _ _ _) rfl ?_
              exact h11
          · exact h5
  · rename_i w12 w13
    refine Within.ite (fun _ => ?_) (fun _ => ?_)
    · exact Within.refl _ _
    · extract_lets +onlyGivenNames v14
      refine Within.cut (x := v14) ?_ (fun h15 => ?_)
      · subst v14
        refine Within.step (importFile_within _ _ _ _) rfl ?_
        exact Within.refl _ _
      · clear_value v14
        refine Within.ite (fun _ => ?_) (fun _ => ?_)
        · refine Within.step (onJob_within _ _ _) rfl ?_
          exact h15
        · refine Within.ite (fun _ => ?_) (fun _ => ?_)
          · refine Within.step (onJob_within _ _ _) rfl ?_
            exact h15
          · exact h15
  · rename_i w16 w17 w18
    exact Within.refl _ _

theorem doCallBoardExpiry_within (s) :
    Within [.obj] s (doCallBoardExpiry s) := by
  unfold doCallBoardExpiry
  refine Within.obj rfl ?_
  exact Within.refl _ _

theorem doSweepDayBoundary_within (nsid s) :
    Within [.out, .bus, .evt, .obj] s (doSweepDayBoundary nsid s) := by
  unfold doSweepDayBoundary
  split
  · rename_i w0 w1
    exact Within.refl _ _
  · rename_i w2 w3 w4
    refine Within.ite (fun _ => ?_) (fun _ => ?_)
    · exact Within.refl _ _
    · extract_lets +onlyGivenNames v5
      clear_value v5
      extract_lets +onlyGivenNames v7
      clear_value v7
      extract_lets +onlyGivenNames v9
      clear_value v9
      extract_lets +onlyGivenNames v11
      clear_value v11
      extract_lets +onlyGivenNames v13
      clear_value v13
      extract_lets +onlyGivenNames v15
      clear_value v15
      extract_lets +onlyGivenNames v17
      refine Within.cut (x := v17) ?_ (fun h18 => ?_)
      · subst v17
        refine Within.step (onNs_within _ _ _) rfl ?_
        exact Within.refl _ _
      · clear_value v17
        refine Within.ite (fun _ => ?_) (fun _ => ?_)
        · refine Within.step (raiseObj_within _ _ _ _) rfl ?_
          exact h18
        · exact h18

end Sys2Proof.Machine
end

