-- ==== Sys2Proof/Laws/FrameStage.lean ====
section
/-! SUPPORT. What each operation of Machine/Stage.lean may change, and what it keeps. -/
namespace Sys2Proof.Machine

theorem onRing_within (r f s) :
    Within [.smg] s (onRing r f s) := by
  unfold onRing
  refine Within.step (onSmg_within _ _) rfl ?_
  exact Within.refl _ _

theorem doRingTailWrite_within (ring val s) :
    Within [.out, .bus, .evt, .smg] s (doRingTailWrite ring val s) := by
  unfold doRingTailWrite
  refine Within.ite (fun _ => ?_) (fun _ => ?_)
  · extract_lets +onlyGivenNames v0
    clear_value v0
    extract_lets +onlyGivenNames v2
    clear_value v2
    refine Within.ite (fun _ => ?_) (fun _ => ?_)
    · refine Within.step (raise_within _ _ _ _ _ _) rfl ?_
      exact Within.refl _ _
    · refine Within.ite (fun _ => ?_) (fun _ => ?_)
      · exact Within.refl _ _
      · refine Within.step (onRing_within _ _ _) rfl ?_
        exact Within.refl _ _
  · exact Within.refl _ _

theorem doSmgRingCtrlWrite_within (q ring reg val s) :
    Within [.bus, .regs, .halves] s (doSmgRingCtrlWrite q ring reg val s) := by
  unfold doSmgRingCtrlWrite
  refine Within.ite (fun _ => ?_) (fun _ => ?_)
  · extract_lets +onlyGivenNames v0
    clear_value v0
    extract_lets +onlyGivenNames v2
    clear_value v2
    refine Within.ite (fun _ => ?_) (fun _ => ?_)
    · refine Within.step (holdLow_within _ _ _ _) rfl ?_
      exact Within.refl _ _
    · refine Within.ite (fun _ => ?_) (fun _ => ?_)
      · refine Within.ite (fun _ => ?_) (fun _ => ?_)
        · refine Within.step (useLow_within _ _ _) rfl ?_
          exact Within.refl _ _
        · refine Within.step (takeHigh_within _ _ _ _) rfl ?_
          exact Within.refl _ _
      · refine Within.ite (fun _ => ?_) (fun _ => ?_)
        · extract_lets +onlyGivenNames v4
          clear_value v4
          refine Within.ite (fun _ => ?_) (fun _ => ?_)
          · exact Within.refl _ _
          · refine Within.step (storeRw_within _ _ _ _) rfl ?_
            exact Within.refl _ _
        · exact Within.refl _ _
  · exact Within.refl _ _

theorem dramStore_within (a b s) :
    Within [.dmc, .dram] s (dramStore a b s) := by
  unfold dramStore
  refine Within.upd ?_ (by constructor <;> first | exact .inl rfl | exact .inr rfl | exact Nat.le_refl _ | exact List.suffix_refl _ | exact id | exact Nat.le_add_right _ _ | exact .inr ⟨rfl, rfl⟩ | exact memWrite_wf | exact memErase_wf | exact Nat.le_of_eq (closeAllPages_next _).symm)
  exact Within.refl _ _

theorem writeRecord_within (t b s) :
    Within [.dmc, .dram] s (writeRecord t b s) := by
  unfold writeRecord
  extract_lets +onlyGivenNames v0
  clear_value v0
  refine Within.ite (fun _ => ?_) (fun _ => ?_)
  · exact Within.refl _ _
  · refine Within.step (dramStore_within _ _ _) rfl ?_
    exact Within.refl _ _

theorem emptyRecord_within (t st s) :
    Within [.dmc, .tly, .scr, .dram] s (emptyRecord t st s) := by
  unfold emptyRecord
  refine Within.step (writeRecord_within _ _ _) rfl ?_
  refine Within.step (freeJobCtx_within _ _) rfl ?_
  exact Within.refl _ _

theorem linkTask_within (handles tag t s) :
    Within [.out, .bus, .evt] s (linkTask handles tag t s).2 := by
  unfold linkTask
  refine Within.foldlSnd (fun u0 a1 => ?_) ?_
  · split
    · rename_i w2 w3 w4
      refine Within.iteSnd (fun _ => ?_) (fun _ => ?_)
      · exact Within.refl _ _
      · refine Within.iteSnd (fun _ => ?_) (fun _ => ?_)
        · refine Within.mkSnd ?_
          with_reducible exact Within.refl _ _
        · split
          · rename_i w5 w6 w7 w8 w9
            refine Within.mkSnd ?_
            with_reducible exact Within.refl _ _
          · rename_i w10 w11 w12 w13
            refine Within.mkSnd ?_
            refine Within.step (raise_within _ _ _ _ _ _) rfl ?_
            with_reducible exact Within.refl _ _
  · refine Within.mkSnd ?_
    exact Within.refl _ _

theorem postWindow_within (e w s) :
    Within [.out, .bus, .evt, .cue, .smg] s (postWindow e w s) := by
  unfold postWindow
  split
  · rename_i w0 w1 w2 w3
    refine Within.cut (Within.ofEq w3 ?_) (fun h4 => ?_)
    · refine Within.step (postCue_within _ _ _) rfl ?_
      exact Within.refl _ _
    split
    · rename_i w5 w6
      refine Within.step (raise_within _ _ _ _ _ _) rfl ?_
      refine Within.step (count1_within _ _) rfl ?_
      exact Within.refl _ _
    · rename_i w7 w8
      refine Within.step (onSmg_within _ _) rfl ?_
      exact h4

theorem saveTask_within (i t s) :
    Within [.out, .bus, .evt, .smg] s (saveTask i t s) := by
  unfold saveTask
  extract_lets +onlyGivenNames v0
  refine Within.cut (x := v0) ?_ (fun h1 => ?_)
  · subst v0
    refine Within.step (onTask_within _ _ _) rfl ?_
    exact Within.refl _ _
  · clear_value v0
    refine Within.ite (fun _ => ?_) (fun _ => ?_)
    · refine Within.step (raise_within _ _ _ _ _ _) rfl ?_
      refine Within.step (count1_within _ _) rfl ?_
      exact h1
    · exact h1

theorem saveAll_within (unit p s) :
    Within [.out, .bus, .evt, .smg] s (saveAll unit p s) := by
  unfold saveAll
  refine Within.foldl (fun u0 a1 => ?_) ?_
  · split
    · rename_i w2 w3 w4
      refine Within.ite (fun _ => ?_) (fun _ => ?_)
      · refine Within.step (saveTask_within _ _ _) rfl ?_
        exact Within.refl _ _
      · exact Within.refl _ _
    · rename_i w5 w6
      exact Within.refl _ _
  · exact Within.refl _ _

theorem closeWindows_within (s) :
    Within [.out, .bus, .evt, .smg] s (closeWindows s) := by
  unfold closeWindows
  refine Within.foldl (fun u0 a1 => ?_) ?_
  · refine Within.ite (fun _ => ?_) (fun _ => ?_)
    · refine Within.step (saveAll_within _ _ _) rfl ?_
      refine Within.step (onSmg_within _ _) rfl ?_
      exact Within.refl _ _
    · exact Within.refl _ _
  · exact Within.refl _ _

theorem dropWindowCues_within (s) :
    Within [.cue] s (dropWindowCues s) := by
  unfold dropWindowCues
  refine Within.cue rfl ?_
  exact Within.refl _ _

theorem startWindows_within (s) :
    Within [.out, .bus, .evt, .cue, .smg] s (startWindows s) := by
  unfold startWindows
  extract_lets +onlyGivenNames v0
  clear_value v0
  extract_lets +onlyGivenNames v2
  refine Within.cut (x := v2) ?_ (fun h3 => ?_)
  · subst v2
    refine Within.step (dropWindowCues_within _) rfl ?_
    refine Within.step (onSmg_within _ _) rfl ?_
    exact Within.refl _ _
  · clear_value v2
    refine Within.ite (fun _ => ?_) (fun _ => ?_)
    · exact h3
    · extract_lets +onlyGivenNames v4
      clear_value v4
      refine Within.foldl (fun u6 a7 => ?_) ?_
      · refine Within.ite (fun _ => ?_) (fun _ => ?_)
        · exact Within.refl _ _
        · refine Within.step (postWindow_within _ _ _) rfl ?_
          exact Within.refl _ _
      · exact h3

theorem startInv_within (i tag s) :
    Within [.bob] s (startInv i tag s) := by
  unfold startInv
  refine Within.bob rfl ?_
  exact Within.refl _ _

theorem failedPred_within (t s) :
    Within [.dmc, .tly, .scr, .dram] s (failedPred t s).2 := by
  unfold failedPred
  refine Within.iteSnd (fun _ => ?_) (fun _ => ?_)
  · refine Within.mkSnd ?_
    refine Within.step (emptyRecord_within _ _ _) rfl ?_
    exact Within.refl _ _
  · refine Within.mkSnd ?_
    exact Within.refl _ _

theorem startTask_within (i place t s) :
    Within [.out, .bus, .evt, .cue, .hfe, .scn, .smg, .bob, .dmc, .tly, .scr, .dram] s (startTask i place t s) := by
  unfold startTask
  extract_lets +onlyGivenNames v0
  refine Within.cut (x := v0) ?_ (fun h1 => ?_)
  · subst v0
    refine Within.step (count1_within _ _) rfl ?_
    refine Within.step (onSmg_within _ _) rfl ?_
    exact Within.refl _ _
  · clear_value v0
    extract_lets +onlyGivenNames v2
    refine Within.cut (x := v2) ?_ (fun h3 => ?_)
    · subst v2
      refine Within.ite (fun _ => ?_) (fun _ => ?_)
      · split
        · rename_i w4 w5 w6 w7 w8
          extract_lets +onlyGivenNames v9
          refine Within.cut (x := v9) ?_ (fun h10 => ?_)
          · subst v9
            refine Within.ite (fun _ => ?_) (fun _ => ?_)
            · refine Within.step (count1_within _ _) rfl ?_
              exact h1
            · exact h1
          · clear_value v9
            extract_lets +onlyGivenNames v11
            clear_value v11
            extract_lets +onlyGivenNames v13
            clear_value v13
            extract_lets +onlyGivenNames v15
            refine Within.cut (x := v15) ?_ (fun h16 => ?_)
            · subst v15
              refine Within.upd ?_ (by constructor <;> first | exact .inl rfl | exact .inr rfl | exact Nat.le_refl _ | exact List.suffix_refl _ | exact id | exact Nat.le_add_right _ _ | exact .inr ⟨rfl, rfl⟩ | exact memWrite_wf | exact memErase_wf | exact Nat.le_of_eq (closeAllPages_next _).symm)
              exact h10
            · clear_value v15
              refine Within.step (startInv_within _ _ _) rfl ?_
              refine Within.step (onTask_within _ _ _) rfl ?_
              exact h16
        · rename_i w17 w18 w19
          exact h1
      · refine Within.step (onTask_within _ _ _) rfl ?_
        exact h1
    · clear_value v2
      extract_lets +onlyGivenNames v20
      refine Within.cut (x := v20) ?_ (fun h21 => ?_)
      · subst v20
        split
        · rename_i w22 w23 w24
          refine Within.ite (fun _ => ?_) (fun _ => ?_)
          · refine Within.step (release_within _ _ _) rfl ?_
            exact h3
          · exact h3
        · rename_i w25 w26
          exact h3
      · clear_value v20
        refine Within.ite (fun _ => ?_) (fun _ => ?_)
        · refine Within.step (settleTasks_within _ _) rfl ?_
          exact h21
        · split
          · rename_i w27 w28 w29 w30 w31
            refine Within.cut (Within.ofEq w31 ?_) (fun h32 => ?_)
            · refine Within.step (failedPred_within _ _) rfl ?_
              exact h21
            refine Within.step (settleTasks_within _ _) rfl ?_
            exact h32

theorem seatWindow_within (a0 a1 a2) :
    Within [.out, .bus, .evt, .cue, .hfe, .scn, .smg, .bob, .dmc, .tly, .scr, .dram] a2 (seatWindow a0 a1 a2) := by
  induction a0 generalizing a1 a2
  · rw [seatWindow]
    exact Within.refl _ _
  · rename_i r0 r1 r2
    rw [seatWindow]
    split
    · rename_i w0 w1 w2
      extract_lets +onlyGivenNames v3
      refine Within.cut (x := v3) ?_ (fun h4 => ?_)
      · subst v3
        refine Within.ite (fun _ => ?_) (fun _ => ?_)
        · refine Within.step (onTask_within _ _ _) rfl ?_
          exact Within.refl _ _
        · refine Within.step (startTask_within _ _ _ _) rfl ?_
          exact Within.refl _ _
      · clear_value v3
        refine Within.trans ?_ (r2 _ _)
        exact h4
    · rename_i w5 w6
      refine Within.trans ?_ (r2 _ _)
      exact Within.refl _ _

theorem fireWindow_within (e s) :
    Within [.out, .bus, .evt, .cue, .hfe, .scn, .smg, .bob, .dmc, .tly, .scr, .dram] s (fireWindow e s) := by
  unfold fireWindow
  split
  · rename_i w0 w1
    exact Within.refl _ _
  · rename_i w2 w3 w4
    extract_lets +onlyGivenNames v5
    refine Within.cut (x := v5) ?_ (fun h6 => ?_)
    · subst v5
      refine Within.step (closeWindows_within _) rfl ?_
      exact Within.refl _ _
    · clear_value v5
      extract_lets +onlyGivenNames v7
      refine Within.cut (x := v7) ?_ (fun h8 => ?_)
      · subst v7
        refine Within.step (onSmg_within _ _) rfl ?_
        refine Within.step (saveAll_within _ _ _) rfl ?_
        exact h6
      · clear_value v7
        extract_lets +onlyGivenNames v9
        clear_value v9
        extract_lets +onlyGivenNames v11
        clear_value v11
        extract_lets +onlyGivenNames v13
        refine Within.cut (x := v13) ?_ (fun h14 => ?_)
        · subst v13
          refine Within.ite (fun _ => ?_) (fun _ => ?_)
          · refine Within.step (count1_within _ _) rfl ?_
            exact h8
          · exact h8
        · clear_value v13
          extract_lets +onlyGivenNames v15
          refine Within.cut (x := v15) ?_ (fun h16 => ?_)
          · subst v15
            refine Within.step (seatWindow_within _ _ _) rfl ?_
            exact h14
          · clear_value v15
            refine Within.ite (fun _ => ?_) (fun _ => ?_)
            · exact h16
            · refine Within.step (postWindow_within _ _ _) rfl ?_
              exact h16

theorem stallRing_within (ring why s) :
    Within [.smg] s (stallRing ring why s) := by
  unfold stallRing
  refine Within.step (onRing_within _ _ _) rfl ?_
  exact Within.refl _ _

theorem noteCtxWaits_within (unit s) :
    Within [.out, .bus, .evt, .tly, .scr] s (noteCtxWaits unit s) := by
  unfold noteCtxWaits
  refine Within.ite (fun _ => ?_) (fun _ => ?_)
  · exact Within.refl _ _
  · extract_lets +onlyGivenNames v0
    subst v0
    extract_lets +onlyGivenNames v2
    clear_value v2
    refine Within.foldl (fun u4 a5 => ?_) ?_
    · extract_lets +onlyGivenNames v6
      clear_value v6
      refine Within.ite (fun _ => ?_) (fun _ => ?_)
      · exact Within.refl _ _
      · extract_lets +onlyGivenNames v8
        clear_value v8
        refine Within.ite (fun _ => ?_) (fun _ => ?_)
        · refine Within.step (raise_within _ _ _ _ _ _) rfl ?_
          refine Within.step (count1_within _ _) rfl ?_
          refine Within.tly rfl ?_
          exact Within.refl _ _
        · refine Within.step (raise_within _ _ _ _ _ _) rfl ?_
          refine Within.step (count1_within _ _) rfl ?_
          refine Within.scr rfl ?_
          exact Within.refl _ _
    · exact Within.refl _ _

theorem passBatch_within (ring n s) :
    Within [.smg] s (passBatch ring n s) := by
  unfold passBatch
  refine Within.step (onRing_within _ _ _) rfl ?_
  exact Within.refl _ _

theorem doTaskDispatch_within (unit place s) :
    Within [.out, .bus, .evt, .cue, .hfe, .scn, .smg, .bob, .dmc, .tly, .scr, .dram] s (doTaskDispatch unit place s) := by
  unfold doTaskDispatch
  extract_lets +onlyGivenNames v0
  refine Within.cut (x := v0) ?_ (fun h1 => ?_)
  · subst v0
    refine Within.step (noteCtxWaits_within _ _) rfl ?_
    refine Within.step (closeWindows_within _) rfl ?_
    exact Within.refl _ _
  · clear_value v0
    refine Within.ite (fun _ => ?_) (fun _ => ?_)
    · exact h1
    · split
      · rename_i w2 w3 w4 w5
        refine Within.step (onTask_within _ _ _) rfl ?_
        exact h1
      · rename_i w6 w7 w8
        split
        · rename_i w9 w10 w11 w12 w13
          extract_lets +onlyGivenNames v14
          refine Within.cut (x := v14) ?_ (fun h15 => ?_)
          · subst v14
            refine Within.step (onSmg_within _ _) rfl ?_
            exact h1
          · clear_value v14
            refine Within.step (startTask_within _ _ _ _) rfl ?_
            exact h15
        · rename_i w16 w17
          exact h1

theorem writeResult_within (a st flow handles s) :
    Within [.dmc, .dram] s (writeResult a st flow handles s) := by
  unfold writeResult
  refine Within.step (dramStore_within _ _ _) rfl ?_
  exact Within.refl _ _

theorem refuseBatch_within (ring n result st flow tag s) :
    Within [.out, .bus, .evt, .smg, .dmc, .dram] s (refuseBatch ring n result st flow tag s) := by
  unfold refuseBatch
  refine Within.step (raise_within _ _ _ _ _ _) rfl ?_
  refine Within.step (writeResult_within _ _ _ _ _) rfl ?_
  refine Within.step (passBatch_within _ _ _) rfl ?_
  exact Within.refl _ _

theorem createBatch_within (ds tag flow s) :
    Within [.out, .bus, .evt, .cue, .hfe, .scn, .smg, .bob] s (createBatch ds tag flow s).2 := by
  unfold createBatch
  split
  · rename_i w0 w1 w2 w3
    refine Within.cut (Within.ofEq w3 ?_) (fun h4 => ?_)
    · refine Within.foldlSnd (fun u5 a6 => ?_) ?_
      · extract_lets +onlyGivenNames v7
        clear_value v7
        extract_lets +onlyGivenNames v9
        clear_value v9
        split
        · rename_i w11 w12 w13 w14
          refine Within.cut (Within.ofEq w14 ?_) (fun h15 => ?_)
          · refine Within.step (addTask_within _ _) rfl ?_
            exact Within.refl _ _
          refine Within.mkSnd ?_
          exact h15
      · refine Within.mkSnd ?_
        exact Within.refl _ _
    extract_lets +onlyGivenNames v16
    clear_value v16
    extract_lets +onlyGivenNames v18
    refine Within.cut (x := v18) ?_ (fun h19 => ?_)
    · subst v18
      refine Within.foldl (fun u20 a21 => ?_) ?_
      · split
        · rename_i w22 w23 w24
          split
          · rename_i w25 w26 w27 w28
            refine Within.cut (Within.ofEq w28 ?_) (fun h29 => ?_)
            · refine Within.step (linkTask_within _ _ _ _) rfl ?_
              exact Within.refl _ _
            refine Within.step (onTask_within _ _ _) rfl ?_
            exact h29
        · rename_i w30 w31
          exact Within.refl _ _
      · exact h4
    · clear_value v18
      split
      · rename_i w32 w33 w34 w35
        refine Within.cut (Within.ofEq w35 ?_) (fun h36 => ?_)
        · refine Within.foldlSnd (fun u37 a38 => ?_) ?_
          · split
            · rename_i w39 w40 w41
              refine Within.iteSnd (fun _ => ?_) (fun _ => ?_)
              · exact Within.refl _ _
              · refine Within.iteSnd (fun _ => ?_) (fun _ => ?_)
                · split
                  · rename_i w42 w43 w44 w45 w46 w47
                    refine Within.cut (Within.ofEq w47 ?_) (fun h48 => ?_)
                    · refine Within.step (judgeTimed_within _ _) rfl ?_
                      exact Within.refl _ _
                    refine Within.mkSnd ?_
                    exact h48
                · refine Within.step (makeReady_within _ _ _ _) rfl ?_
                  exact Within.refl _ _
            · rename_i w49 w50
              with_reducible exact Within.refl _ _
          · refine Within.mkSnd ?_
            exact h19
        refine Within.mkSnd ?_
        refine Within.step (settleTasks_within _ _) rfl ?_
        exact h36

theorem doBatchCreate_within (ring s) :
    Within [.free, .out, .bus, .evt, .cue, .hfe, .scn, .obj, .trl, .flc, .smg, .bob, .dmc, .tly, .scr, .dram, .slm] s (doBatchCreate
      ring s) := by
  unfold doBatchCreate
  extract_lets +onlyGivenNames v0
  clear_value v0
  extract_lets +onlyGivenNames v2
  clear_value v2
  extract_lets +onlyGivenNames v4
  clear_value v4
  extract_lets +onlyGivenNames v6
  clear_value v6
  extract_lets +onlyGivenNames v8
  clear_value v8
  extract_lets +onlyGivenNames v10
  clear_value v10
  extract_lets +onlyGivenNames v12
  clear_value v12
  extract_lets +onlyGivenNames v14
  clear_value v14
  extract_lets +onlyGivenNames v16
  clear_value v16
  extract_lets +onlyGivenNames v18
  clear_value v18
  refine Within.ite (fun _ => ?_) (fun _ => ?_)
  · exact Within.refl _ _
  · refine Within.ite (fun _ => ?_) (fun _ => ?_)
    · refine Within.step (stallRing_within _ _ _) rfl ?_
      exact Within.refl _ _
    · extract_lets +onlyGivenNames v20
      clear_value v20
      extract_lets +onlyGivenNames v22
      clear_value v22
      refine Within.ite (fun _ => ?_) (fun _ => ?_)
      · refine Within.step (refuseBatch_within _ _ _ _ _ _ _) rfl ?_
        exact Within.refl _ _
      · refine Within.ite (fun _ => ?_) (fun _ => ?_)
        · refine Within.step (refuseBatch_within _ _ _ _ _ _ _) rfl ?_
          exact Within.refl _ _
        · refine Within.ite (fun _ => ?_) (fun _ => ?_)
          · refine Within.step (refuseBatch_within _ _ _ _ _ _ _) rfl ?_
            exact Within.refl _ _
          · extract_lets +onlyGivenNames v24
            clear_value v24
            refine Within.ite (fun _ => ?_) (fun _ => ?_)
            · refine Within.step (refuseBatch_within _ _ _ _ _ _ _) rfl ?_
              exact Within.refl _ _
            · extract_lets +onlyGivenNames v26
              clear_value v26
              refine Within.ite (fun _ => ?_) (fun _ => ?_)
              · refine Within.step (stallRing_within _ _ _) rfl ?_
                exact Within.refl _ _
              · refine Within.ite (fun _ => ?_) (fun _ => ?_)
                · refine Within.step (stallRing_within _ _ _) rfl ?_
                  exact Within.refl _ _
                · extract_lets +onlyGivenNames v28
                  clear_value v28
                  extract_lets +onlyGivenNames v30
                  refine Within.cut (x := v30) ?_ (fun h31 => ?_)
                  · subst v30
                    split
                    · rename_i w32 w33 w34 w35 w36 w37 w38 w39 w40 w41 w42 w43
                      refine Within.step (onSmg_within _ _) rfl ?_
                      exact Within.refl _ _
                    · rename_i w44 w45 w46 w47 w48 w49 w50 w51 w52 w53 w54 w55
                      exact Within.refl _ _
                  · clear_value v30
                    split
                    · rename_i w56 w57 w58 w59 w60 w61 w62 w63 w64 w65 w66 w67
                      refine Within.cut (Within.ofEq w67 ?_) (fun h68 => ?_)
                      · refine Within.step (createBatch_within _ _ _ _) rfl ?_
                        refine Within.step (passBatch_within _ _ _) rfl ?_
                        exact h31
                      refine Within.step (goOn_within _) rfl ?_
                      refine Within.step (writeResult_within _ _ _ _ _) rfl ?_
                      exact h68

theorem doSealedWindowSave_within (h s) :
    Within [.out, .bus, .evt, .smg] s (doSealedWindowSave h s) := by
  unfold doSealedWindowSave
  split
  · rename_i w0 w1 w2 w3
    split
    · rename_i w4 w5 w6 w7 w8 w9
      refine Within.ite (fun _ => ?_) (fun _ => ?_)
      · refine Within.step (saveTask_within _ _ _) rfl ?_
        exact Within.refl _ _
      · exact Within.refl _ _
    · rename_i w10 w11 w12
      exact Within.refl _ _
  · rename_i w13 w14
    exact Within.refl _ _

end Sys2Proof.Machine
end

