-- ==== Sys2Proof/Laws/FrameBobbin.lean ====
section
/-! SUPPORT. What each operation of Machine/Bobbin.lean may change, and what it keeps. -/
namespace Sys2Proof.Machine

theorem restartInv_within (b i tag s) :
    Within [.out, .bus, .evt, .bob] s (restartInv b i tag s) := by
  unfold restartInv
  extract_lets +onlyGivenNames v0
  clear_value v0
  refine Within.ite (fun _ => ?_) (fun _ => ?_)
  · refine Within.step (raise_within _ _ _ _ _ _) rfl ?_
    refine Within.step (count1_within _ _) rfl ?_
    refine Within.step (count1_within _ _) rfl ?_
    refine Within.step (onBob_within _ _) rfl ?_
    exact Within.refl _ _
  · exact Within.refl _ _

theorem returnTask_within (i s) :
    Within [.smg, .bob] s (returnTask i s) := by
  unfold returnTask
  split
  · rename_i w0 w1 w2
    refine Within.ite (fun _ => ?_) (fun _ => ?_)
    · refine Within.step (freeTask_within _ _) rfl ?_
      exact Within.refl _ _
    · refine Within.step (onSmg_within _ _) rfl ?_
      exact Within.refl _ _
  · rename_i w3 w4
    exact Within.refl _ _

theorem returnTasks_within (b s) :
    Within [.out, .bus, .evt, .smg, .bob] s (returnTasks b s) := by
  unfold returnTasks
  extract_lets +onlyGivenNames v0
  clear_value v0
  extract_lets +onlyGivenNames v2
  refine Within.cut (x := v2) ?_ (fun h3 => ?_)
  · subst v2
    split
    · rename_i w4 w5 w6
      split
      · rename_i w7 w8 w9
        refine Within.ite (fun _ => ?_) (fun _ => ?_)
        · exact Within.refl _ _
        · refine Within.step (restartInv_within _ _ _ _) rfl ?_
          exact Within.refl _ _
      · rename_i w10 w11
        exact Within.refl _ _
    · rename_i w12
      exact Within.refl _ _
  · clear_value v2
    extract_lets +onlyGivenNames v13
    refine Within.cut (x := v13) ?_ (fun h14 => ?_)
    · subst v13
      refine Within.step (onBob_within _ _) rfl ?_
      exact h3
    · clear_value v13
      extract_lets +onlyGivenNames v15
      refine Within.cut (x := v15) ?_ (fun h16 => ?_)
      · subst v15
        refine Within.foldl (fun u17 a18 => ?_) ?_
        · refine Within.step (returnTask_within _ _) rfl ?_
          exact Within.refl _ _
        · exact h14
      · clear_value v15
        extract_lets +onlyGivenNames v19
        refine Within.cut (x := v19) ?_ (fun h20 => ?_)
        · subst v19
          refine Within.step (onSmg_within _ _) rfl ?_
          exact h16
        · clear_value v19
          refine Within.ite (fun _ => ?_) (fun _ => ?_)
          · exact h20
          · refine Within.step (raise_within _ _ _ _ _ _) rfl ?_
            exact h20

theorem onCore_within (k f s) :
    Within [.bob] s (onCore k f s) := by
  unfold onCore
  refine Within.step (onBob_within _ _) rfl ?_
  exact Within.refl _ _

theorem retireCore_within (k cause s) :
    Within [.bob] s (retireCore k cause s) := by
  unfold retireCore
  refine Within.step (onCore_within _ _ _) rfl ?_
  exact Within.refl _ _

theorem moveUser_within (a0 a1) :
    Within [.bob] a1 (moveUser a0 a1) := by
  fun_induction moveUser a0 a1
  · rename_i r0
    exact Within.refl _ _
  · rename_i r0 r1 r2
    exact Within.refl _ _
  · rename_i r0 r1 r2 r3 r4 r5
    refine Within.trans ?_ (r5 )
    refine Within.step (onBob_within _ _) rfl ?_
    exact Within.refl _ _
  · rename_i r0 r1 r2 r3
    exact Within.refl _ _

theorem restoreData_within (s) :
    Within [.out, .bus, .evt, .bob] s (restoreData s) := by
  unfold restoreData
  extract_lets +onlyGivenNames v0
  refine Within.cut (x := v0) ?_ (fun h1 => ?_)
  · subst v0
    refine Within.step (moveUser_within _ _) rfl ?_
    exact Within.refl _ _
  · clear_value v0
    extract_lets +onlyGivenNames v2
    clear_value v2
    refine Within.ite (fun _ => ?_) (fun _ => ?_)
    · exact h1
    · refine Within.step (raise_within _ _ _ _ _ _) rfl ?_
      exact h1

theorem noteRetired_within (r old new s) :
    Within [.out, .bus, .evt] s (noteRetired r old new s) := by
  unfold noteRetired
  refine Within.step (raise_within _ _ _ _ _ _) rfl ?_
  exact Within.refl _ _

theorem loadUnderstudy_within (r s) :
    Within [.out, .bus, .evt, .smg, .bob] s (loadUnderstudy r s) := by
  unfold loadUnderstudy
  extract_lets +onlyGivenNames v0
  refine Within.cut (x := v0) ?_ (fun h1 => ?_)
  · subst v0
    refine Within.step (returnTasks_within _ _) rfl ?_
    exact Within.refl _ _
  · clear_value v0
    split
    · rename_i w2 w3 w4
      refine Within.step (onBob_within _ _) rfl ?_
      exact h1
    · rename_i w5 w6
      extract_lets +onlyGivenNames v7
      clear_value v7
      extract_lets +onlyGivenNames v9
      refine Within.cut (x := v9) ?_ (fun h10 => ?_)
      · subst v9
        split
        · rename_i w11 w12 w13
          refine Within.step (retireCore_within _ _ _) rfl ?_
          exact h1
        · rename_i w14 w15
          exact h1
      · clear_value v9
        extract_lets +onlyGivenNames v16
        refine Within.cut (x := v16) ?_ (fun h17 => ?_)
        · subst v16
          refine Within.step (onBob_within _ _) rfl ?_
          exact h10
        · clear_value v16
          refine Within.step (restoreData_within _) rfl ?_
          refine Within.step (noteRetired_within _ _ _ _) rfl ?_
          exact h17

theorem beginRetire_within (b cause s) :
    Within [.out, .bus, .evt, .smg, .bob] s (beginRetire b cause s) := by
  unfold beginRetire
  extract_lets +onlyGivenNames v0
  clear_value v0
  extract_lets +onlyGivenNames v2
  clear_value v2
  extract_lets +onlyGivenNames v4
  refine Within.cut (x := v4) ?_ (fun h5 => ?_)
  · subst v4
    refine Within.step (onBob_within _ _) rfl ?_
    exact Within.refl _ _
  · clear_value v4
    refine Within.ite (fun _ => ?_) (fun _ => ?_)
    · refine Within.step (loadUnderstudy_within _ _) rfl ?_
      exact h5
    · exact h5

theorem nextRetire_within (s) :
    Within [.out, .bus, .evt, .smg, .bob] s (nextRetire s) := by
  unfold nextRetire
  split
  · rename_i w0 w1 w2 w3 w4 w5 w6
    refine Within.step (beginRetire_within _ _ _) rfl ?_
    refine Within.step (onBob_within _ _) rfl ?_
    exact Within.refl _ _
  · rename_i w7 w8 w9
    exact Within.refl _ _

theorem retireAdvance_within (s) :
    Within [.out, .bus, .evt, .smg, .bob] s (retireAdvance s) := by
  unfold retireAdvance
  split
  · rename_i w0 w1 w2
    split
    · rename_i w3 w4 w5
      refine Within.ite (fun _ => ?_) (fun _ => ?_)
      · refine Within.step (nextRetire_within _) rfl ?_
        refine Within.step (loadUnderstudy_within _ _) rfl ?_
        exact Within.refl _ _
      · exact Within.refl _ _
    · rename_i w6 w7
      exact Within.refl _ _
  · rename_i w8 w9
    exact Within.refl _ _

theorem doExecuteProgram_within (h pidx setId blockOff hostLen s) :
    Within [.free, .out, .bus, .evt, .cue, .hfe, .scn, .obj, .trl, .flc, .smg, .bob, .tly, .scr, .slm] s (doExecuteProgram h pidx
      setId blockOff hostLen s) := by
  unfold doExecuteProgram
  refine Within.trans ?_ (fetched_within (by exact rfl) ?_)
  · exact Within.refl _ _
  · intro u0
    extract_lets +onlyGivenNames v1
    clear_value v1
    extract_lets +onlyGivenNames v3
    clear_value v3
    split
    · rename_i w5 w6
      refine Within.step (failCmd_within _ _ _ _) rfl ?_
      exact Within.refl _ _
    · rename_i w7 w8 w9
      refine Within.ite (fun _ => ?_) (fun _ => ?_)
      · refine Within.step (failCmd_within _ _ _ _) rfl ?_
        exact Within.refl _ _
      · extract_lets +onlyGivenNames v10
        clear_value v10
        split
        · rename_i w12 w13 w14
          refine Within.step (failCmd_within _ _ _ _) rfl ?_
          exact Within.refl _ _
        · rename_i w15 w16 w17 w18
          extract_lets +onlyGivenNames v19
          clear_value v19
          refine Within.ite (fun _ => ?_) (fun _ => ?_)
          · refine Within.step (failCmd_within _ _ _ _) rfl ?_
            exact Within.refl _ _
          · split
            · rename_i w21 w22 w23 w24 w25
              refine Within.cut (Within.ofEq w25 ?_) (fun h26 => ?_)
              · refine Within.step (openScene_within _ _ _ _ _) rfl ?_
                exact Within.refl _ _
              refine Within.step (onScene_within _ _ _) rfl ?_
              exact h26

theorem overBudget_within (i tag v s) :
    Within [.free, .out, .bus, .evt, .cue, .hfe, .scn, .obj, .trl, .flc, .smg, .bob, .tly, .scr, .slm] s (overBudget i tag v s) := by
  unfold overBudget
  extract_lets +onlyGivenNames v0
  refine Within.cut (x := v0) ?_ (fun h1 => ?_)
  · subst v0
    refine Within.step (count1_within _ _) rfl ?_
    refine Within.step (count1_within _ _) rfl ?_
    refine Within.step (completeTask_within _ _ _) rfl ?_
    exact Within.refl _ _
  · clear_value v0
    refine Within.step (retireAdvance_within _) rfl ?_
    refine Within.step (goOn_within _) rfl ?_
    refine Within.step (execFail_within _ _ _ _ _) rfl ?_
    exact h1

theorem helper_within {l} (hF : Sub [.free, .out, .bus, .evt, .cue, .hfe, .scn, .obj, .trl, .flc, .smg, .bob, .tly, .scr, .slm] l)
      {h charge work s} (hk2 : ∀ x0 x1 x2 u, Within l u (work x0 x1 x2 u).2) :
    Within l s (helper h charge work s) := by
  unfold helper
  split
  · rename_i w0 w1
    exact Within.refl _ _
  · rename_i w2 w3 w4 w5 w6 w7
    refine Within.ite (fun _ => ?_) (fun _ => ?_)
    · refine Within.step (overBudget_within _ _ _ _) (Sub.trans (by exact rfl) hF) ?_
      exact Within.refl _ _
    · split
      · rename_i w8 w9 w10 w11 w12 w13
        refine Within.cut (Within.ofEq w13 ?_) (fun h14 => ?_)
        · refine Within.trans ?_ (hk2 _ _ _ _)
          exact Within.refl _ _
        refine Within.step (onBob_within _ _) (Sub.trans (by exact rfl) hF) ?_
        exact h14

theorem doPqMemCmp_within (h a b s) :
    Within [.free, .out, .bus, .evt, .cue, .hfe, .scn, .obj, .trl, .flc, .smg, .bob, .tly, .scr, .slm] s (doPqMemCmp h a b s) := by
  unfold doPqMemCmp
  refine Within.trans ?_ (helper_within (by exact rfl) ?_)
  · exact Within.refl _ _
  · intro u0
    intro u1
    intro u2
    intro u3
    refine Within.mkSnd ?_
    exact Within.refl _ _

theorem doBobRetire_within (val s) :
    Within [.out, .bus, .evt, .smg, .bob] s (doBobRetire val s) := by
  unfold doBobRetire
  refine Within.ite (fun _ => ?_) (fun _ => ?_)
  · extract_lets +onlyGivenNames v0
    clear_value v0
    refine Within.ite (fun _ => ?_) (fun _ => ?_)
    · refine Within.step (onBob_within _ _) rfl ?_
      exact Within.refl _ _
    · refine Within.ite (fun _ => ?_) (fun _ => ?_)
      · refine Within.step (onBob_within _ _) rfl ?_
        exact Within.refl _ _
      · refine Within.step (nextRetire_within _) rfl ?_
        refine Within.step (beginRetire_within _ _ _) rfl ?_
        refine Within.step (onBob_within _ _) rfl ?_
        exact Within.refl _ _
  · exact Within.refl _ _

theorem invStores_within (tag x l s) :
    Within [.slm] s (invStores tag x l s) := by
  unfold invStores
  refine Within.foldl (fun u0 a1 => ?_) ?_
  · refine Within.step (windowStore_within _ _ _ _ _) rfl ?_
    exact Within.refl _ _
  · exact Within.refl _ _

theorem doInvocationComplete_within (h r s) :
    Within [.free, .out, .bus, .evt, .cue, .hfe, .scn, .obj, .trl, .flc, .smg, .bob, .tly, .scr, .slm] s (doInvocationComplete h r
      s) := by
  unfold doInvocationComplete
  split
  · rename_i w0 w1
    exact Within.refl _ _
  · rename_i w2 w3 w4 w5 w6 w7
    extract_lets +onlyGivenNames v8
    refine Within.cut (x := v8) ?_ (fun h9 => ?_)
    · subst v8
      refine Within.step (invStores_within _ _ _ _) rfl ?_
      exact Within.refl _ _
    · clear_value v8
      refine Within.ite (fun _ => ?_) (fun _ => ?_)
      · refine Within.step (overBudget_within _ _ _ _) rfl ?_
        exact h9
      · extract_lets +onlyGivenNames v10
        clear_value v10
        extract_lets +onlyGivenNames v12
        refine Within.cut (x := v12) ?_ (fun h13 => ?_)
        · subst v12
          refine Within.step (count1_within _ _) rfl ?_
          refine Within.step (completeTask_within _ _ _) rfl ?_
          exact h9
        · clear_value v12
          extract_lets +onlyGivenNames v14
          refine Within.cut (x := v14) ?_ (fun h15 => ?_)
          · subst v14
            refine Within.step (onBob_within _ _) rfl ?_
            exact h13
          · clear_value v14
            split
            · rename_i w16 w17 w18
              refine Within.step (retireAdvance_within _) rfl ?_
              refine Within.step (goOn_within _) rfl ?_
              refine Within.step (execFail_within _ _ _ _ _) rfl ?_
              exact h15
            · rename_i w19 w20 w21 w22 w23
              extract_lets +onlyGivenNames v24
              refine Within.cut (x := v24) ?_ (fun h25 => ?_)
              · subst v24
                refine Within.step (keepResult_within _ _ _ _ _ _) rfl ?_
                exact h15
              · clear_value v24
                extract_lets +onlyGivenNames v26
                clear_value v26
                refine Within.step (retireAdvance_within _) rfl ?_
                refine Within.step (goOn_within _) rfl ?_
                refine Within.step (checkDone_within _ _) rfl ?_
                refine Within.step (deliverOuts_within _ _ _ _) rfl ?_
                exact h25

theorem helperOn_within {l} (hF : Sub [.free, .out, .bus, .evt, .cue, .hfe, .scn, .obj, .trl, .flc, .smg, .bob, .tly, .scr, .slm] l)
      {e h charge work s} (hk3 : ∀ x0 x1 x2 u, Within l u (work x0 x1 x2 u).2) :
    Within l s (helperOn e h charge work s) := by
  unfold helperOn
  split
  · rename_i w0 w1 w2 w3 w4 w5
    refine Within.ite (fun _ => ?_) (fun _ => ?_)
    · exact Within.refl _ _
    · refine Within.trans ?_ (helper_within (by exact (Sub.trans (by exact rfl) hF)) ?_)
      · exact Within.refl _ _
      · intro u6
        intro u7
        intro u8
        intro u9
        refine Within.trans ?_ (hk3 _ _ _ _)
        exact Within.refl _ _
  · rename_i w10 w11
    exact Within.refl _ _

theorem smockEvents_within (st obj tag s) :
    Within [.out, .bus, .evt] s (smockEvents st obj tag s) := by
  unfold smockEvents
  refine Within.ite (fun _ => ?_) (fun _ => ?_)
  · refine Within.step (raise_within _ _ _ _ _ _) rfl ?_
    refine Within.step (count1_within _ _) rfl ?_
    exact Within.refl _ _
  · refine Within.ite (fun _ => ?_) (fun _ => ?_)
    · refine Within.step (raise_within _ _ _ _ _ _) rfl ?_
      refine Within.step (count1_within _ _) rfl ?_
      exact Within.refl _ _
    · refine Within.ite (fun _ => ?_) (fun _ => ?_)
      · refine Within.step (raise_within _ _ _ _ _ _) rfl ?_
        refine Within.step (count1_within _ _) rfl ?_
        exact Within.refl _ _
      · refine Within.ite (fun _ => ?_) (fun _ => ?_)
        · refine Within.step (raise_within _ _ _ _ _ _) rfl ?_
          refine Within.step (count1_within _ _) rfl ?_
          exact Within.refl _ _
        · refine Within.ite (fun _ => ?_) (fun _ => ?_)
          · refine Within.step (count1_within _ _) rfl ?_
            exact Within.refl _ _
          · exact Within.refl _ _

theorem freeReturn_within (s) :
    Within [.free] s (freeReturn s).2 := by
  unfold freeReturn
  split
  · rename_i w0 w1 w2 w3
    refine Within.cut (Within.ofEq w3 ?_) (fun h4 => ?_)
    · refine Within.step (takeFree_within _) rfl ?_
      exact Within.refl _ _
    refine Within.mkSnd ?_
    exact h4

theorem returnFree_within (b s) :
    Within [.free] s (returnFree b s).2 := by
  unfold returnFree
  split
  · rename_i w0 w1 w2 w3
    refine Within.cut (Within.ofEq w3 ?_) (fun h4 => ?_)
    · refine Within.step (freeReturn_within _) rfl ?_
      exact Within.refl _ _
    refine Within.mkSnd ?_
    exact h4

theorem doPqDigestPart_within (h alg ctx src first last s) :
    Within [.free, .out, .bus, .evt, .cue, .hfe, .scn, .obj, .trl, .flc, .smg, .bob, .tly, .scr, .slm] s (doPqDigestPart h alg ctx
      src first last s) := by
  unfold doPqDigestPart
  refine Within.trans ?_ (helperOn_within (by exact rfl) ?_)
  · exact Within.refl _ _
  · intro u0
    intro u1
    intro u2
    intro u3
    extract_lets +onlyGivenNames v4
    clear_value v4
    extract_lets +onlyGivenNames v6
    clear_value v6
    split
    · rename_i w8 w9 w10
      refine Within.iteSnd (fun _ => ?_) (fun _ => ?_)
      · refine Within.mkSnd ?_
        exact Within.refl _ _
      · refine Within.iteSnd (fun _ => ?_) (fun _ => ?_)
        · refine Within.step (returnFree_within _ _) rfl ?_
          refine Within.step (onBob_within _ _) rfl ?_
          exact Within.refl _ _
        · refine Within.step (returnFree_within _ _) rfl ?_
          refine Within.step (onBob_within _ _) rfl ?_
          exact Within.refl _ _
    · rename_i w11
      refine Within.mkSnd ?_
      exact Within.refl _ _

theorem doHelperTimeout_within (h s) :
    Within [.free, .out, .bus, .evt, .cue, .hfe, .scn, .obj, .trl, .flc, .smg, .bob, .tly, .scr, .slm] s (doHelperTimeout h s) := by
  unfold doHelperTimeout
  refine Within.trans ?_ (helper_within (by exact rfl) ?_)
  · exact Within.refl _ _
  · intro u0
    intro u1
    intro u2
    intro u3
    refine Within.mkSnd ?_
    refine Within.step (count1_within _ _) rfl ?_
    exact Within.refl _ _

theorem doPqDecompress_within (h fmt src cap s) :
    Within [.free, .out, .bus, .evt, .cue, .hfe, .scn, .obj, .trl, .flc, .smg, .bob, .tly, .scr, .slm] s (doPqDecompress h fmt src
      cap s) := by
  unfold doPqDecompress
  refine Within.trans ?_ (helperOn_within (by exact rfl) ?_)
  · exact Within.refl _ _
  · intro u0
    intro u1
    intro u2
    intro u3
    refine Within.iteSnd (fun _ => ?_) (fun _ => ?_)
    · refine Within.mkSnd ?_
      exact Within.refl _ _
    · extract_lets +onlyGivenNames v4
      clear_value v4
      refine Within.mkSnd ?_
      refine Within.step (smockEvents_within _ _ _ _) rfl ?_
      exact Within.refl _ _

theorem failBobbin_within (b cause s) :
    Within [.out, .bus, .evt, .smg, .bob] s (failBobbin b cause s) := by
  unfold failBobbin
  refine Within.ite (fun _ => ?_) (fun _ => ?_)
  · exact Within.refl _ _
  · refine Within.ite (fun _ => ?_) (fun _ => ?_)
    · refine Within.step (onBob_within _ _) rfl ?_
      refine Within.step (returnTasks_within _ _) rfl ?_
      exact Within.refl _ _
    · refine Within.step (beginRetire_within _ _ _) rfl ?_
      exact Within.refl _ _

theorem smockTotals_within (inLen outLen s) :
    Within [.bus, .tly] s (smockTotals inLen outLen s) := by
  unfold smockTotals
  extract_lets +onlyGivenNames v0
  clear_value v0
  extract_lets +onlyGivenNames v2
  clear_value v2
  extract_lets +onlyGivenNames v4
  clear_value v4
  extract_lets +onlyGivenNames v6
  refine Within.cut (x := v6) ?_ (fun h7 => ?_)
  · subst v6
    refine Within.tly rfl ?_
    exact Within.refl _ _
  · clear_value v6
    refine Within.step (countUp_within _ _ _) rfl ?_
    refine Within.step (countUp_within _ _ _) rfl ?_
    exact h7

theorem doBobbinWatchdog_within (b s) :
    Within [.out, .bus, .evt, .smg, .bob] s (doBobbinWatchdog b s) := by
  unfold doBobbinWatchdog
  refine Within.ite (fun _ => ?_) (fun _ => ?_)
  · refine Within.step (nextRetire_within _) rfl ?_
    refine Within.step (failBobbin_within _ _ _) rfl ?_
    exact Within.refl _ _
  · exact Within.refl _ _

theorem onProg_within (tag ix f s) :
    Within [.bob] s (onProg tag ix f s) := by
  unfold onProg
  refine Within.step (onBob_within _ _) rfl ?_
  exact Within.refl _ _

theorem doLoadProgram_within (h pidx ptype offset total piece s) :
    Within [.free, .out, .bus, .evt, .cue, .hfe, .scn, .obj, .trl, .flc, .smg, .bob, .tly, .scr, .slm] s (doLoadProgram h pidx ptype
      offset total piece s) := by
  unfold doLoadProgram
  refine Within.trans ?_ (fetched_within (by exact rfl) ?_)
  · exact Within.refl _ _
  · intro u0
    extract_lets +onlyGivenNames v1
    clear_value v1
    extract_lets +onlyGivenNames v3
    clear_value v3
    refine Within.ite (fun _ => ?_) (fun _ => ?_)
    · refine Within.step (failCmd_within _ _ _ _) rfl ?_
      exact Within.refl _ _
    · extract_lets +onlyGivenNames v5
      refine Within.cut (x := v5) ?_ (fun h6 => ?_)
      · subst v5
        refine Within.step (onProg_within _ _ _ _) rfl ?_
        exact Within.refl _ _
      · clear_value v5
        refine Within.ite (fun _ => ?_) (fun _ => ?_)
        · refine Within.step (endAtOnce_within _ _ _ _ _) rfl ?_
          exact h6
        · refine Within.step (openScene_within _ _ _ _ _) rfl ?_
          exact h6

theorem doPqCompress_within (h fmt level src cap s) :
    Within [.free, .out, .bus, .evt, .cue, .hfe, .scn, .obj, .trl, .flc, .smg, .bob, .tly, .scr, .slm] s (doPqCompress h fmt level
      src cap s) := by
  unfold doPqCompress
  refine Within.trans ?_ (helperOn_within (by exact rfl) ?_)
  · exact Within.refl _ _
  · intro u0
    intro u1
    intro u2
    intro u3
    refine Within.iteSnd (fun _ => ?_) (fun _ => ?_)
    · refine Within.mkSnd ?_
      exact Within.refl _ _
    · extract_lets +onlyGivenNames v4
      clear_value v4
      extract_lets +onlyGivenNames v6
      clear_value v6
      extract_lets +onlyGivenNames v8
      refine Within.cut (x := v8) ?_ (fun h9 => ?_)
      · subst v8
        refine Within.ite (fun _ => ?_) (fun _ => ?_)
        · refine Within.step (smockTotals_within _ _ _) rfl ?_
          exact Within.refl _ _
        · exact Within.refl _ _
      · clear_value v8
        refine Within.mkSnd ?_
        refine Within.step (smockEvents_within _ _ _ _) rfl ?_
        exact h9

theorem rejectLoad_within (o tag pidx rule slot s) :
    Within [.free, .out, .bus, .evt, .cue, .hfe, .scn, .obj, .trl, .flc, .smg, .bob, .tly, .scr, .slm] s (rejectLoad o tag pidx rule
      slot s) := by
  unfold rejectLoad
  extract_lets +onlyGivenNames v0
  clear_value v0
  extract_lets +onlyGivenNames v2
  refine Within.cut (x := v2) ?_ (fun h3 => ?_)
  · subst v2
    refine Within.step (onProg_within _ _ _ _) rfl ?_
    exact Within.refl _ _
  · clear_value v2
    extract_lets +onlyGivenNames v4
    refine Within.cut (x := v4) ?_ (fun h5 => ?_)
    · subst v4
      refine Within.step (count1_within _ _) rfl ?_
      refine Within.step (onBob_within _ _) rfl ?_
      exact h3
    · clear_value v4
      refine Within.step (goOn_within _) rfl ?_
      refine Within.step (rollBack_within _ _ _) rfl ?_
      refine Within.step (onScene_within _ _ _) rfl ?_
      exact h5

theorem doProgramTranslated_within (tenant pidx reject s) :
    Within [.free, .out, .bus, .evt, .cue, .hfe, .scn, .obj, .trl, .flc, .smg, .bob, .tly, .scr, .slm] s (doProgramTranslated tenant
      pidx reject s) := by
  unfold doProgramTranslated
  split
  · rename_i w0 w1
    exact Within.refl _ _
  · rename_i w2 w3 w4
    extract_lets +onlyGivenNames v5
    clear_value v5
    extract_lets +onlyGivenNames v7
    clear_value v7
    extract_lets +onlyGivenNames v9
    clear_value v9
    split
    · rename_i w11 w12 w13
      split
      · rename_i w14 w15 w16 w17
        refine Within.cut (Within.ofEq w17 ?_) (fun h18 => ?_)
        · refine Within.step (takeFree_within _) rfl ?_
          exact Within.refl _ _
        refine Within.step (rejectLoad_within _ _ _ _ _ _) rfl ?_
        exact h18
    · rename_i w19 w20 w21 w22
      refine Within.step (rejectLoad_within _ _ _ _ _ _) rfl ?_
      exact Within.refl _ _
    · rename_i w23 w24
      extract_lets +onlyGivenNames v25
      refine Within.cut (x := v25) ?_ (fun h26 => ?_)
      · subst v25
        refine Within.step (onProg_within _ _ _ _) rfl ?_
        exact Within.refl _ _
      · clear_value v25
        refine Within.step (goOn_within _) rfl ?_
        refine Within.step (retire_within _ _ _ _) rfl ?_
        refine Within.step (onBob_within _ _) rfl ?_
        exact h26

theorem doTaskComplete_within (h st s) :
    Within [.free, .out, .bus, .evt, .cue, .hfe, .scn, .obj, .trl, .flc, .smg, .bob, .tly, .scr, .slm] s (doTaskComplete h st s) := by
  unfold doTaskComplete
  extract_lets +onlyGivenNames v0
  refine Within.cut (x := v0) ?_ (fun h1 => ?_)
  · subst v0
    refine Within.step (closeWindows_within _) rfl ?_
    exact Within.refl _ _
  · clear_value v0
    split
    · rename_i w2 w3 w4 w5
      refine Within.ite (fun _ => ?_) (fun _ => ?_)
      · refine Within.step (retireAdvance_within _) rfl ?_
        refine Within.step (goOn_within _) rfl ?_
        refine Within.step (completeTask_within _ _ _) rfl ?_
        exact h1
      · exact h1
    · rename_i w6 w7
      exact h1

theorem doProgramDeactivate_within (h pidx s) :
    Within [.free, .out, .bus, .evt, .cue, .hfe, .scn, .obj, .trl, .flc, .smg, .bob, .tly, .scr, .slm] s (doProgramDeactivate h pidx
      s) := by
  unfold doProgramDeactivate
  refine Within.trans ?_ (fetched_within (by exact rfl) ?_)
  · exact Within.refl _ _
  · intro u0
    extract_lets +onlyGivenNames v1
    clear_value v1
    refine Within.ite (fun _ => ?_) (fun _ => ?_)
    · refine Within.step (failCmd_within _ _ _ _) rfl ?_
      exact Within.refl _ _
    · refine Within.step (endAtOnce_within _ _ _ _ _) rfl ?_
      refine Within.step (onProg_within _ _ _ _) rfl ?_
      exact Within.refl _ _

theorem doProgramActivate_within (h pidx s) :
    Within [.free, .out, .bus, .evt, .cue, .hfe, .scn, .obj, .trl, .flc, .smg, .bob, .tly, .scr, .slm] s (doProgramActivate h pidx
      s) := by
  unfold doProgramActivate
  refine Within.trans ?_ (fetched_within (by exact rfl) ?_)
  · exact Within.refl _ _
  · intro u0
    extract_lets +onlyGivenNames v1
    clear_value v1
    refine Within.ite (fun _ => ?_) (fun _ => ?_)
    · refine Within.step (failCmd_within _ _ _ _) rfl ?_
      exact Within.refl _ _
    · split
      · rename_i w3 w4 w5
        refine Within.step (failCmd_within _ _ _ _) rfl ?_
        exact Within.refl _ _
      · rename_i w6 w7 w8 w9
        refine Within.step (endAtOnce_within _ _ _ _ _) rfl ?_
        refine Within.step (onProg_within _ _ _ _) rfl ?_
        exact Within.refl _ _

theorem doMemoryRangeSetManagement_within (h create setId ranges s) :
    Within [.free, .out, .bus, .evt, .cue, .hfe, .scn, .obj, .trl, .flc, .smg, .bob, .tly, .scr, .slm] s (doMemoryRangeSetManagement
      h create setId ranges s) := by
  unfold doMemoryRangeSetManagement
  refine Within.trans ?_ (fetched_within (by exact rfl) ?_)
  · exact Within.refl _ _
  · intro u0
    extract_lets +onlyGivenNames v1
    clear_value v1
    refine Within.ite (fun _ => ?_) (fun _ => ?_)
    · refine Within.ite (fun _ => ?_) (fun _ => ?_)
      · refine Within.step (failCmd_within _ _ _ _) rfl ?_
        exact Within.refl _ _
      · extract_lets +onlyGivenNames v3
        clear_value v3
        refine Within.step (endAtOnce_within _ _ _ _ _) rfl ?_
        refine Within.step (onBob_within _ _) rfl ?_
        exact Within.refl _ _
    · refine Within.ite (fun _ => ?_) (fun _ => ?_)
      · refine Within.step (endAtOnce_within _ _ _ _ _) rfl ?_
        refine Within.step (onBob_within _ _) rfl ?_
        exact Within.refl _ _
      · refine Within.step (failCmd_within _ _ _ _) rfl ?_
        exact Within.refl _ _

theorem doPqCueNow_within (h s) :
    Within [.free, .out, .bus, .evt, .cue, .hfe, .scn, .obj, .trl, .flc, .smg, .bob, .tly, .scr, .slm] s (doPqCueNow h s) := by
  unfold doPqCueNow
  refine Within.trans ?_ (helper_within (by exact rfl) ?_)
  · exact Within.refl _ _
  · intro u0
    intro u1
    intro u2
    intro u3
    refine Within.mkSnd ?_
    exact Within.refl _ _

theorem doBobbinSelftest_within (core ok s) :
    Within [.out, .bus, .evt, .smg, .bob] s (doBobbinSelftest core ok s) := by
  unfold doBobbinSelftest
  refine Within.ite (fun _ => ?_) (fun _ => ?_)
  · exact Within.refl _ _
  · split
    · rename_i w0 w1 w2 w3
      refine Within.step (nextRetire_within _) rfl ?_
      refine Within.step (failBobbin_within _ _ _) rfl ?_
      exact Within.refl _ _
    · rename_i w4 w5 w6
      refine Within.ite (fun _ => ?_) (fun _ => ?_)
      · refine Within.step (retireCore_within _ _ _) rfl ?_
        exact Within.refl _ _
      · exact Within.refl _ _

theorem doBudgetExhausted_within (h stores s) :
    Within [.free, .out, .bus, .evt, .cue, .hfe, .scn, .obj, .trl, .flc, .smg, .bob, .tly, .scr, .slm] s (doBudgetExhausted h stores
      s) := by
  unfold doBudgetExhausted
  split
  · rename_i w0 w1 w2 w3 w4 w5
    refine Within.step (overBudget_within _ _ _ _) rfl ?_
    refine Within.step (invStores_within _ _ _ _) rfl ?_
    exact Within.refl _ _
  · rename_i w6 w7
    exact Within.refl _ _

theorem doPqFence_within (h kind s) :
    Within [.free, .out, .bus, .evt, .cue, .hfe, .scn, .obj, .trl, .flc, .smg, .bob, .tly, .scr, .slm] s (doPqFence h kind s) := by
  unfold doPqFence
  refine Within.trans ?_ (helper_within (by exact rfl) ?_)
  · exact Within.refl _ _
  · intro u0
    intro u1
    intro u2
    intro u3
    refine Within.iteSnd (fun _ => ?_) (fun _ => ?_)
    · refine Within.mkSnd ?_
      exact Within.refl _ _
    · refine Within.step (returnFree_within _ _) rfl ?_
      exact Within.refl _ _

theorem doPqCrc64_within (h src prev s) :
    Within [.free, .out, .bus, .evt, .cue, .hfe, .scn, .obj, .trl, .flc, .smg, .bob, .tly, .scr, .slm] s (doPqCrc64 h src prev s) := by
  unfold doPqCrc64
  refine Within.trans ?_ (helper_within (by exact rfl) ?_)
  · exact Within.refl _ _
  · intro u0
    intro u1
    intro u2
    intro u3
    refine Within.mkSnd ?_
    exact Within.refl _ _

theorem doRetireGraceExpiry_within (s) :
    Within [.out, .bus, .evt, .smg, .bob] s (doRetireGraceExpiry s) := by
  unfold doRetireGraceExpiry
  split
  · rename_i w0 w1 w2
    refine Within.ite (fun _ => ?_) (fun _ => ?_)
    · refine Within.step (nextRetire_within _) rfl ?_
      refine Within.step (loadUnderstudy_within _ _) rfl ?_
      exact Within.refl _ _
    · exact Within.refl _ _
  · rename_i w3 w4
    exact Within.refl _ _

theorem doUnderstudyLoaded_within (s) :
    Within [.out, .bus, .evt, .smg, .bob] s (doUnderstudyLoaded s) := by
  unfold doUnderstudyLoaded
  split
  · rename_i w0 w1 w2
    split
    · rename_i w3 w4 w5
      extract_lets +onlyGivenNames v6
      clear_value v6
      extract_lets +onlyGivenNames v8
      refine Within.cut (x := v8) ?_ (fun h9 => ?_)
      · subst v8
        split
        · rename_i w10 w11 w12
          refine Within.step (retireCore_within _ _ _) rfl ?_
          exact Within.refl _ _
        · rename_i w13 w14
          exact Within.refl _ _
      · clear_value v8
        extract_lets +onlyGivenNames v15
        refine Within.cut (x := v15) ?_ (fun h16 => ?_)
        · subst v15
          refine Within.step (onCore_within _ _ _) rfl ?_
          exact h9
        · clear_value v15
          extract_lets +onlyGivenNames v17
          refine Within.cut (x := v17) ?_ (fun h18 => ?_)
          · subst v17
            refine Within.step (onBob_within _ _) rfl ?_
            exact h16
          · clear_value v17
            refine Within.step (nextRetire_within _) rfl ?_
            refine Within.step (noteRetired_within _ _ _ _) rfl ?_
            exact h18
    · rename_i w19 w20
      exact Within.refl _ _
  · rename_i w21 w22
    exact Within.refl _ _

theorem doPqDigest_within (h alg src s) :
    Within [.free, .out, .bus, .evt, .cue, .hfe, .scn, .obj, .trl, .flc, .smg, .bob, .tly, .scr, .slm] s (doPqDigest h alg src s) := by
  unfold doPqDigest
  refine Within.trans ?_ (helperOn_within (by exact rfl) ?_)
  · exact Within.refl _ _
  · intro u0
    intro u1
    intro u2
    intro u3
    refine Within.iteSnd (fun _ => ?_) (fun _ => ?_)
    · refine Within.mkSnd ?_
      exact Within.refl _ _
    · refine Within.mkSnd ?_
      exact Within.refl _ _

theorem doPqRaiseEvent_within (h index a0 a1 s) :
    Within [.free, .out, .bus, .evt, .cue, .hfe, .scn, .obj, .trl, .flc, .smg, .bob, .tly, .scr, .slm] s (doPqRaiseEvent h index a0
      a1 s) := by
  unfold doPqRaiseEvent
  refine Within.trans ?_ (helper_within (by exact rfl) ?_)
  · exact Within.refl _ _
  · intro u0
    intro u1
    intro u2
    intro u3
    refine Within.iteSnd (fun _ => ?_) (fun _ => ?_)
    · refine Within.mkSnd ?_
      exact Within.refl _ _
    · refine Within.iteSnd (fun _ => ?_) (fun _ => ?_)
      · refine Within.mkSnd ?_
        refine Within.step (count1_within _ _) rfl ?_
        exact Within.refl _ _
      · extract_lets +onlyGivenNames v4
        refine Within.cut (x := v4) ?_ (fun h5 => ?_)
        · subst v4
          refine Within.step (raise_within _ _ _ _ _ _) rfl ?_
          exact Within.refl _ _
        · clear_value v4
          refine Within.step (returnFree_within _ _) rfl ?_
          refine Within.step (onBob_within _ _) rfl ?_
          exact h5

theorem doPqMemCopy_within (h dst src s) :
    Within [.free, .out, .bus, .evt, .cue, .hfe, .scn, .obj, .trl, .flc, .smg, .bob, .tly, .scr, .slm] s (doPqMemCopy h dst src s)
      := by
  unfold doPqMemCopy
  refine Within.trans ?_ (helper_within (by exact rfl) ?_)
  · exact Within.refl _ _
  · intro u0
    intro u1
    intro u2
    intro u3
    split
    · rename_i w4
      refine Within.step (returnFree_within _ _) rfl ?_
      exact Within.refl _ _
    · rename_i w5 w6
      extract_lets +onlyGivenNames v7
      clear_value v7
      refine Within.iteSnd (fun _ => ?_) (fun _ => ?_)
      · refine Within.mkSnd ?_
        exact Within.refl _ _
      · refine Within.step (returnFree_within _ _) rfl ?_
        refine Within.step (windowStore_within _ _ _ _ _) rfl ?_
        exact Within.refl _ _

end Sys2Proof.Machine
end

