-- ==== Sys2Proof/Laws/FrameFlash.lean ====
section
/-! SUPPORT. What each operation of Machine/Flash.lean may change, and what it keeps. -/
namespace Sys2Proof.Machine

theorem retireMember_within (l slots s) :
    Within [.trl, .flc] s (retireMember l slots s) := by
  unfold retireMember
  refine Within.step (onLun_within _ _ _) rfl ?_
  refine Within.trl rfl ?_
  exact Within.refl _ _

theorem keepLevel_within (r s) :
    Within [.trl, .flc] s (keepLevel r s) := by
  unfold keepLevel
  split
  · rename_i w0 w1 w2 w3
    split
    · rename_i w4 w5 w6
      extract_lets +onlyGivenNames v7
      clear_value v7
      extract_lets +onlyGivenNames v9
      clear_value v9
      extract_lets +onlyGivenNames v11
      refine Within.cut (x := v11) ?_ (fun h12 => ?_)
      · subst v11
        refine Within.trl rfl ?_
        exact Within.refl _ _
      · clear_value v11
        refine Within.step (onLun_within _ _ _) rfl ?_
        exact h12
    · rename_i w13 w14
      exact Within.refl _ _
  · rename_i w15 w16
    exact Within.refl _ _

theorem hrRefuse_within (g err s) :
    Within [.flc] s (hrRefuse g err s) := by
  unfold hrRefuse
  refine Within.flc rfl ?_
  exact Within.refl _ _

theorem hrCommand_within {l} (hF : Sub [.flc] l) {g f s} (hk1 : ∀ u, Within l u (f u)) :
    Within l s (hrCommand g f s) := by
  unfold hrCommand
  refine Within.ite (fun _ => ?_) (fun _ => ?_)
  · exact Within.refl _ _
  · refine Within.ite (fun _ => ?_) (fun _ => ?_)
    · refine Within.step (hrRefuse_within _ _ _) (Sub.trans (by exact rfl) hF) ?_
      exact Within.refl _ _
    · refine Within.trans ?_ (hk1 _)
      exact Within.refl _ _

theorem hrAccept_within (g p s) :
    Within [.flc] s (hrAccept g p s) := by
  unfold hrAccept
  refine Within.flc rfl ?_
  exact Within.refl _ _

theorem doFlcEvacuate_within (g s) :
    Within [.evt, .trl, .flc] s (doFlcEvacuate g s) := by
  unfold doFlcEvacuate
  refine Within.trans ?_ (hrCommand_within (by exact rfl) ?_)
  · exact Within.refl _ _
  · intro u0
    refine Within.ite (fun _ => ?_) (fun _ => ?_)
    · refine Within.step (hrRefuse_within _ _ _) rfl ?_
      exact Within.refl _ _
    · refine Within.ite (fun _ => ?_) (fun _ => ?_)
      · refine Within.step (hrRefuse_within _ _ _) rfl ?_
        exact Within.refl _ _
      · extract_lets +onlyGivenNames v1
        refine Within.cut (x := v1) ?_ (fun h2 => ?_)
        · subst v1
          refine Within.step (hrAccept_within _ _ _) rfl ?_
          exact Within.refl _ _
        · clear_value v1
          extract_lets +onlyGivenNames v3
          clear_value v3
          extract_lets +onlyGivenNames v5
          clear_value v5
          extract_lets +onlyGivenNames v7
          clear_value v7
          refine Within.upd ?_ (by constructor <;> first | exact .inl rfl | exact .inr rfl | exact Nat.le_refl _ | exact List.suffix_refl _ | exact id | exact Nat.le_add_right _ _ | exact .inr ⟨rfl, rfl⟩ | exact memWrite_wf | exact memErase_wf | exact Nat.le_of_eq (closeAllPages_next _).symm)
          exact h2

theorem keepCounts_within (g s) :
    Within [.flc] s (keepCounts g s) := by
  unfold keepCounts
  extract_lets +onlyGivenNames v0
  clear_value v0
  refine Within.flc rfl ?_
  exact Within.refl _ _

theorem doFlcRemove_within (g s) :
    Within [.clk, .trl, .flc] s (doFlcRemove g s) := by
  unfold doFlcRemove
  refine Within.trans ?_ (hrCommand_within (by exact rfl) ?_)
  · exact Within.refl _ _
  · intro u0
    split
    · rename_i w1 w2
      refine Within.ite (fun _ => ?_) (fun _ => ?_)
      · refine Within.step (hrRefuse_within _ _ _) rfl ?_
        exact Within.refl _ _
      · extract_lets +onlyGivenNames v3
        refine Within.cut (x := v3) ?_ (fun h4 => ?_)
        · subst v3
          refine Within.step (hrAccept_within _ _ _) rfl ?_
          refine Within.step (keepCounts_within _ _) rfl ?_
          exact Within.refl _ _
        · clear_value v3
          refine Within.upd ?_ (by constructor <;> first | exact .inl rfl | exact .inr rfl | exact Nat.le_refl _ | exact List.suffix_refl _ | exact id | exact Nat.le_add_right _ _ | exact .inr ⟨rfl, rfl⟩ | exact memWrite_wf | exact memErase_wf | exact Nat.le_of_eq (closeAllPages_next _).symm)
          exact h4
    · rename_i w5 w6
      refine Within.step (hrRefuse_within _ _ _) rfl ?_
      exact Within.refl _ _
    · rename_i w7 w8
      refine Within.step (hrRefuse_within _ _ _) rfl ?_
      exact Within.refl _ _
    · rename_i w9 w10 w11 w12
      refine Within.step (hrRefuse_within _ _ _) rfl ?_
      exact Within.refl _ _

theorem bringUp_within (g f s) :
    Within [.out, .bus, .evt, .clk, .flc] s (bringUp g f s) := by
  unfold bringUp
  extract_lets +onlyGivenNames v0
  clear_value v0
  extract_lets +onlyGivenNames v2
  clear_value v2
  extract_lets +onlyGivenNames v4
  clear_value v4
  extract_lets +onlyGivenNames v6
  clear_value v6
  extract_lets +onlyGivenNames v8
  clear_value v8
  extract_lets +onlyGivenNames v10
  refine Within.cut (x := v10) ?_ (fun h11 => ?_)
  · subst v10
    refine Within.upd ?_ (by constructor <;> first | exact .inl rfl | exact .inr rfl | exact Nat.le_refl _ | exact List.suffix_refl _ | exact id | exact Nat.le_add_right _ _ | exact .inr ⟨rfl, rfl⟩ | exact memWrite_wf | exact memErase_wf | exact Nat.le_of_eq (closeAllPages_next _).symm)
    exact Within.refl _ _
  · clear_value v10
    refine Within.foldl (fun u12 a13 => ?_) ?_
    · refine Within.step (raiseObj_within _ _ _ _) rfl ?_
      refine Within.step (raiseObj_within _ _ _ _) rfl ?_
      exact Within.refl _ _
    · exact h11

theorem doFlcInsert_within (g force f s) :
    Within [.out, .bus, .evt, .clk, .trl, .flc] s (doFlcInsert g force f s) := by
  unfold doFlcInsert
  refine Within.trans ?_ (hrCommand_within (by exact rfl) ?_)
  · exact Within.refl _ _
  · intro u0
    refine Within.ite (fun _ => ?_) (fun _ => ?_)
    · refine Within.step (hrRefuse_within _ _ _) rfl ?_
      exact Within.refl _ _
    · refine Within.ite (fun _ => ?_) (fun _ => ?_)
      · refine Within.step (hrRefuse_within _ _ _) rfl ?_
        exact Within.refl _ _
      · refine Within.ite (fun _ => ?_) (fun _ => ?_)
        · refine Within.step (hrRefuse_within _ _ _) rfl ?_
          exact Within.refl _ _
        · refine Within.ite (fun _ => ?_) (fun _ => ?_)
          · refine Within.step (hrRefuse_within _ _ _) rfl ?_
            exact Within.refl _ _
          · extract_lets +onlyGivenNames v1
            refine Within.cut (x := v1) ?_ (fun h2 => ?_)
            · subst v1
              refine Within.step (hrAccept_within _ _ _) rfl ?_
              exact Within.refl _ _
            · clear_value v1
              extract_lets +onlyGivenNames v3
              clear_value v3
              extract_lets +onlyGivenNames v5
              refine Within.cut (x := v5) ?_ (fun h6 => ?_)
              · subst v5
                refine Within.step (bringUp_within _ _ _) rfl ?_
                refine Within.clk rfl ?_
                exact h2
              · clear_value v5
                extract_lets +onlyGivenNames v7
                clear_value v7
                extract_lets +onlyGivenNames v9
                clear_value v9
                extract_lets +onlyGivenNames v11
                refine Within.cut (x := v11) ?_ (fun h12 => ?_)
                · subst v11
                  refine Within.trl rfl ?_
                  exact h6
                · clear_value v11
                  refine Within.flc rfl ?_
                  exact h12

theorem setSlots_within (d s) :
    Within [.trl] s (setSlots d s) := by
  unfold setSlots
  extract_lets +onlyGivenNames v0
  clear_value v0
  refine Within.trl rfl ?_
  exact Within.refl _ _

theorem doFlcCancel_within (g s) :
    Within [.evt, .trl, .flc] s (doFlcCancel g s) := by
  unfold doFlcCancel
  refine Within.trans ?_ (hrCommand_within (by exact rfl) ?_)
  · exact Within.refl _ _
  · intro u0
    split
    · rename_i w1 w2
      extract_lets +onlyGivenNames v3
      subst v3
      extract_lets +onlyGivenNames v5
      refine Within.cut (x := v5) ?_ (fun h6 => ?_)
      · subst v5
        refine Within.step (hrAccept_within _ _ _) rfl ?_
        refine Within.evt rfl ?_ (Nat.le_refl _)
        exact Within.refl _ _
      · clear_value v5
        refine Within.step (setSlots_within _ _) rfl ?_
        exact h6
    · rename_i w7 w8
      extract_lets +onlyGivenNames v9
      subst v9
      extract_lets +onlyGivenNames v11
      refine Within.cut (x := v11) ?_ (fun h12 => ?_)
      · subst v11
        refine Within.step (hrAccept_within _ _ _) rfl ?_
        refine Within.evt rfl ?_ (Nat.le_refl _)
        exact Within.refl _ _
      · clear_value v11
        refine Within.step (setSlots_within _ _) rfl ?_
        exact h12
    · rename_i w13 w14 w15
      refine Within.step (hrRefuse_within _ _ _) rfl ?_
      exact Within.refl _ _

theorem doFlcResume_within (g answers s) :
    Within [.bus, .cue, .flc] s (doFlcResume g answers s) := by
  unfold doFlcResume
  refine Within.trans ?_ (hrCommand_within (by exact rfl) ?_)
  · exact Within.refl _ _
  · intro u0
    refine Within.ite (fun _ => ?_) (fun _ => ?_)
    · refine Within.step (hrRefuse_within _ _ _) rfl ?_
      exact Within.refl _ _
    · extract_lets +onlyGivenNames v1
      clear_value v1
      extract_lets +onlyGivenNames v3
      refine Within.cut (x := v3) ?_ (fun h4 => ?_)
      · subst v3
        refine Within.flc rfl ?_
        exact Within.refl _ _
      · clear_value v3
        refine Within.ite (fun _ => ?_) (fun _ => ?_)
        · refine Within.step (pumpAll_within _) rfl ?_
          refine Within.flc rfl ?_
          exact h4
        · exact h4

theorem unqueueRead_within (rid s) :
    Within [.flc] s (unqueueRead rid s) := by
  unfold unqueueRead
  refine Within.flc rfl ?_
  exact Within.refl _ _

theorem failRead_within (scene s) :
    Within [.scn] s (failRead scene s) := by
  unfold failRead
  refine Within.step (onScene_within _ _ _) rfl ?_
  exact Within.refl _ _

theorem endMediaRd_within (rid ok s) :
    Within [.free, .out, .bus, .evt, .cue, .hfe, .scn, .obj, .trl, .flc, .smg, .bob, .tly, .scr, .slm] s (endMediaRd rid ok s) := by
  unfold endMediaRd
  split
  · rename_i w0 w1
    exact Within.refl _ _
  · rename_i w2 w3 w4
    extract_lets +onlyGivenNames v5
    clear_value v5
    extract_lets +onlyGivenNames v7
    refine Within.cut (x := v7) ?_ (fun h8 => ?_)
    · subst v7
      refine Within.step (unqueueRead_within _ _) rfl ?_
      refine Within.flc rfl ?_
      exact Within.refl _ _
    · clear_value v7
      extract_lets +onlyGivenNames v9
      refine Within.cut (x := v9) ?_ (fun h10 => ?_)
      · subst v9
        refine Within.step (sbReads_within _ _ _) rfl ?_
        exact h8
      · clear_value v9
        extract_lets +onlyGivenNames v11
        refine Within.cut (x := v11) ?_ (fun h12 => ?_)
        · subst v11
          split
          · rename_i w13 w14 w15 w16
            refine Within.step (count1_within _ _) rfl ?_
            refine Within.step (raiseObj_within _ _ _ _) rfl ?_
            exact h10
          · rename_i w17 w18
            refine Within.step (count1_within _ _) rfl ?_
            refine Within.step (raiseObj_within _ _ _ _) rfl ?_
            exact h10
        · clear_value v11
          extract_lets +onlyGivenNames v19
          refine Within.cut (x := v19) ?_ (fun h20 => ?_)
          · subst v19
            refine Within.ite (fun _ => ?_) (fun _ => ?_)
            · exact h10
            · refine Within.step (failRead_within _ _) rfl ?_
              exact h12
          · clear_value v19
            extract_lets +onlyGivenNames v21
            refine Within.cut (x := v21) ?_ (fun h22 => ?_)
            · subst v21
              split
              · rename_i w23 w24 w25 w26
                refine Within.ite (fun _ => ?_) (fun _ => ?_)
                · refine Within.step (eraseVictim_within _ _) rfl ?_
                  exact h20
                · exact h20
              · rename_i w27 w28
                exact h20
            · clear_value v21
              refine Within.step (goOn_within _) rfl ?_
              refine Within.step (pumpAll_within _) rfl ?_
              exact h22

theorem retryRead_within (rid step s) :
    Within [.free, .out, .bus, .evt, .cue, .hfe, .scn, .obj, .trl, .flc, .smg, .bob, .tly, .scr, .slm] s (retryRead rid step s) := by
  unfold retryRead
  extract_lets +onlyGivenNames v0
  subst v0
  split
  · rename_i w2 w3 w4
    refine Within.cut (Within.ofEq w4 ?_) (fun h5 => ?_)
    · dsimp only
      refine Within.step (beginAttempt_within _ _) rfl ?_
      refine Within.ite (fun _ => ?_) (fun _ => ?_)
      · split
        · rename_i w6 w7 w8 w9
          refine Within.step (count1_within _ _) rfl ?_
          refine Within.step (raiseObj_within _ _ _ _) rfl ?_
          refine Within.step (unqueueRead_within _ _) rfl ?_
          refine Within.step (onRd_within _ _ _) rfl ?_
          exact Within.refl _ _
        · rename_i w10 w11 w12
          refine Within.step (unqueueRead_within _ _) rfl ?_
          refine Within.step (onRd_within _ _ _) rfl ?_
          exact Within.refl _ _
      · refine Within.step (unqueueRead_within _ _) rfl ?_
        refine Within.step (onRd_within _ _ _) rfl ?_
        exact Within.refl _ _
    exact h5
  · rename_i w13 w14 w15
    refine Within.cut (Within.ofEq w15 ?_) (fun h16 => ?_)
    · dsimp only
      refine Within.step (beginAttempt_within _ _) rfl ?_
      refine Within.ite (fun _ => ?_) (fun _ => ?_)
      · split
        · rename_i w17 w18 w19 w20
          refine Within.step (count1_within _ _) rfl ?_
          refine Within.step (raiseObj_within _ _ _ _) rfl ?_
          refine Within.step (unqueueRead_within _ _) rfl ?_
          refine Within.step (onRd_within _ _ _) rfl ?_
          exact Within.refl _ _
        · rename_i w21 w22 w23
          refine Within.step (unqueueRead_within _ _) rfl ?_
          refine Within.step (onRd_within _ _ _) rfl ?_
          exact Within.refl _ _
      · refine Within.step (unqueueRead_within _ _) rfl ?_
        refine Within.step (onRd_within _ _ _) rfl ?_
        exact Within.refl _ _
    refine Within.ite (fun _ => ?_) (fun _ => ?_)
    · refine Within.step (endMediaRd_within _ _ _) rfl ?_
      exact h16
    · split
      · rename_i w24 w25 w26 w27
        refine Within.cut (Within.ofEq w27 ?_) (fun h28 => ?_)
        · dsimp only
          refine Within.step (beginAttempt_within _ _) rfl ?_
          refine Within.ite (fun _ => ?_) (fun _ => ?_)
          · split
            · rename_i w29 w30 w31 w32
              refine Within.step (count1_within _ _) rfl ?_
              refine Within.step (raiseObj_within _ _ _ _) rfl ?_
              refine Within.step (unqueueRead_within _ _) rfl ?_
              refine Within.step (onRd_within _ _ _) rfl ?_
              exact Within.refl _ _
            · rename_i w33 w34 w35
              refine Within.step (unqueueRead_within _ _) rfl ?_
              refine Within.step (onRd_within _ _ _) rfl ?_
              exact Within.refl _ _
          · refine Within.step (unqueueRead_within _ _) rfl ?_
            refine Within.step (onRd_within _ _ _) rfl ?_
            exact Within.refl _ _
        exact h28
      · rename_i w36 w37 w38 w39
        refine Within.cut (Within.ofEq w39 ?_) (fun h40 => ?_)
        · dsimp only
          refine Within.step (beginAttempt_within _ _) rfl ?_
          refine Within.ite (fun _ => ?_) (fun _ => ?_)
          · split
            · rename_i w41 w42 w43 w44
              refine Within.step (count1_within _ _) rfl ?_
              refine Within.step (raiseObj_within _ _ _ _) rfl ?_
              refine Within.step (unqueueRead_within _ _) rfl ?_
              refine Within.step (onRd_within _ _ _) rfl ?_
              exact Within.refl _ _
            · rename_i w45 w46 w47
              refine Within.step (unqueueRead_within _ _) rfl ?_
              refine Within.step (onRd_within _ _ _) rfl ?_
              exact Within.refl _ _
          · refine Within.step (unqueueRead_within _ _) rfl ?_
            refine Within.step (onRd_within _ _ _) rfl ?_
            exact Within.refl _ _
        refine Within.step (endMediaRd_within _ _ _) rfl ?_
        exact h40

theorem bumpReads_within (p step s) :
    Within [.free, .out, .bus, .evt, .cue, .hfe, .scn, .obj, .trl, .flc, .smg, .bob, .tly, .scr, .slm] s (bumpReads p step s) := by
  unfold bumpReads
  extract_lets +onlyGivenNames v0
  clear_value v0
  refine Within.foldl (fun u2 a3 => ?_) ?_
  · split
    · rename_i w4 w5 w6
      refine Within.step (retryRead_within _ _ _) rfl ?_
      exact Within.refl _ _
    · rename_i w7 w8
      exact Within.refl _ _
  · exact Within.refl _ _

theorem doChannelRetrain_within (ch ok temp s) :
    Within [.free, .out, .bus, .evt, .cue, .hfe, .scn, .obj, .trl, .flc, .smg, .bob, .tly, .scr, .slm] s (doChannelRetrain ch ok
      temp s) := by
  unfold doChannelRetrain
  extract_lets +onlyGivenNames v0
  clear_value v0
  extract_lets +onlyGivenNames v2
  clear_value v2
  refine Within.ite (fun _ => ?_) (fun _ => ?_)
  · exact Within.refl _ _
  · refine Within.ite (fun _ => ?_) (fun _ => ?_)
    · refine Within.flc rfl ?_
      exact Within.refl _ _
    · extract_lets +onlyGivenNames v4
      clear_value v4
      extract_lets +onlyGivenNames v6
      clear_value v6
      extract_lets +onlyGivenNames v8
      refine Within.cut (x := v8) ?_ (fun h9 => ?_)
      · subst v8
        refine Within.step (raiseObj_within _ _ _ _) rfl ?_
        refine Within.flc rfl ?_
        exact Within.refl _ _
      · clear_value v8
        refine Within.ite (fun _ => ?_) (fun _ => ?_)
        · exact h9
        · extract_lets +onlyGivenNames v10
          clear_value v10
          extract_lets +onlyGivenNames v12
          refine Within.cut (x := v12) ?_ (fun h13 => ?_)
          · subst v12
            refine Within.flc rfl ?_
            exact h9
          · clear_value v12
            refine Within.step (bumpReads_within _ _ _) rfl ?_
            refine Within.step (raiseObj_within _ _ _ _) rfl ?_
            exact h13

theorem retireLun_within (l s) :
    Within [.free, .out, .bus, .evt, .cue, .hfe, .scn, .obj, .trl, .flc, .smg, .bob, .tly, .scr, .slm] s (retireLun l s) := by
  unfold retireLun
  refine Within.ite (fun _ => ?_) (fun _ => ?_)
  · exact Within.refl _ _
  · extract_lets +onlyGivenNames v0
    refine Within.cut (x := v0) ?_ (fun h1 => ?_)
    · subst v0
      refine Within.step (raiseObj_within _ _ _ _) rfl ?_
      refine Within.step (onLun_within _ _ _) rfl ?_
      exact Within.refl _ _
    · clear_value v0
      extract_lets +onlyGivenNames v2
      refine Within.cut (x := v2) ?_ (fun h3 => ?_)
      · subst v2
        refine Within.step (dropOps_within _ _) rfl ?_
        exact h1
      · clear_value v2
        extract_lets +onlyGivenNames v4
        clear_value v4
        extract_lets +onlyGivenNames v6
        clear_value v6
        extract_lets +onlyGivenNames v8
        clear_value v8
        extract_lets +onlyGivenNames v10
        refine Within.cut (x := v10) ?_ (fun h11 => ?_)
        · subst v10
          refine Within.trl rfl ?_
          exact h3
        · clear_value v10
          extract_lets +onlyGivenNames v12
          refine Within.cut (x := v12) ?_ (fun h13 => ?_)
          · subst v12
            refine Within.foldl (fun u14 a15 => ?_) ?_
            · refine Within.step (retireMember_within _ _ _) rfl ?_
              exact Within.refl _ _
            · exact h11
          · clear_value v12
            extract_lets +onlyGivenNames v16
            refine Within.cut (x := v16) ?_ (fun h17 => ?_)
            · subst v16
              refine Within.foldl (fun u18 a19 => ?_) ?_
              · extract_lets +onlyGivenNames v20
                clear_value v20
                refine Within.ite (fun _ => ?_) (fun _ => ?_)
                · exact Within.refl _ _
                · extract_lets +onlyGivenNames v22
                  clear_value v22
                  extract_lets +onlyGivenNames v24
                  clear_value v24
                  extract_lets +onlyGivenNames v26
                  clear_value v26
                  extract_lets +onlyGivenNames v28
                  refine Within.cut (x := v28) ?_ (fun h29 => ?_)
                  · subst v28
                    refine Within.trl rfl ?_
                    exact Within.refl _ _
                  · clear_value v28
                    refine Within.foldl (fun u30 a31 => ?_) ?_
                    · refine Within.step (retireMember_within _ _ _) rfl ?_
                      exact Within.refl _ _
                    · exact h29
              · exact h13
            · clear_value v16
              extract_lets +onlyGivenNames v32
              refine Within.cut (x := v32) ?_ (fun h33 => ?_)
              · subst v32
                refine Within.step (bumpReads_within _ _ _) rfl ?_
                exact h17
              · clear_value v32
                refine Within.ite (fun _ => ?_) (fun _ => ?_)
                · exact h33
                · refine Within.step (raiseObj_within _ _ _ _) rfl ?_
                  exact h33

theorem refreshBand_within (band s) :
    Within [.trl] s (refreshBand band s) := by
  unfold refreshBand
  refine Within.trl rfl ?_
  exact Within.refl _ _

theorem endOp_within (o s) :
    Within [.flc] s (endOp o s) := by
  unfold endOp
  refine Within.step (onLun_within _ _ _) rfl ?_
  refine Within.flc rfl ?_
  exact Within.refl _ _

theorem commitCopies_within (sb mine s) :
    Within [.out, .bus, .evt, .cue, .scn, .trl, .flc] s (commitCopies sb mine s) := by
  unfold commitCopies
  extract_lets +onlyGivenNames v0
  clear_value v0
  extract_lets +onlyGivenNames v2
  clear_value v2
  extract_lets +onlyGivenNames v4
  refine Within.cut (x := v4) ?_ (fun h5 => ?_)
  · subst v4
    refine Within.trl rfl ?_
    exact Within.refl _ _
  · clear_value v4
    extract_lets +onlyGivenNames v6
    refine Within.cut (x := v6) ?_ (fun h7 => ?_)
    · subst v6
      refine Within.foldl (fun u8 a9 => ?_) ?_
      · split
        · rename_i w10 w11 w12 w13
          refine Within.step (commitCopy_within _ _ _) rfl ?_
          exact Within.refl _ _
        · rename_i w14 w15 w16
          refine Within.step (commitCopy_within _ _ _) rfl ?_
          exact Within.refl _ _
        · rename_i w17 w18 w19
          refine Within.step (commitCopy_within _ _ _) rfl ?_
          exact Within.refl _ _
      · exact h5
    · clear_value v6
      split
      · rename_i w20 w21 w22
        refine Within.step (eraseVictim_within _ _) rfl ?_
        exact h7
      · rename_i w23 w24
        exact h7

theorem restartCopy_within (st c s) :
    Within [.bus, .cue, .trl, .flc] s (restartCopy st c s) := by
  unfold restartCopy
  split
  · rename_i w0 w1 w2 w3
    refine Within.cut (Within.step (takeSlot_within w3) rfl ?_) (fun h4 => ?_)
    · exact Within.refl _ _
    refine Within.trl rfl ?_
    exact h4
  · rename_i w5 w6
    exact Within.refl _ _

theorem programFail_within (sb pos row restart retire s) :
    Within [.out, .bus, .evt, .cue, .trl, .flc] s (programFail sb pos row restart retire s) := by
  unfold programFail
  split
  · rename_i w0 w1
    exact Within.refl _ _
  · rename_i w2 w3 w4
    extract_lets +onlyGivenNames v5
    clear_value v5
    extract_lets +onlyGivenNames v7
    clear_value v7
    extract_lets +onlyGivenNames v9
    clear_value v9
    extract_lets +onlyGivenNames v11
    clear_value v11
    extract_lets +onlyGivenNames v13
    clear_value v13
    extract_lets +onlyGivenNames v15
    refine Within.cut (x := v15) ?_ (fun h16 => ?_)
    · subst v15
      refine Within.trl rfl ?_
      exact Within.refl _ _
    · clear_value v15
      extract_lets +onlyGivenNames v17
      refine Within.cut (x := v17) ?_ (fun h18 => ?_)
      · subst v17
        refine Within.step (dropOps_within _ _) rfl ?_
        exact h16
      · clear_value v17
        extract_lets +onlyGivenNames v19
        refine Within.cut (x := v19) ?_ (fun h20 => ?_)
        · subst v19
          split
          · rename_i w21 w22 w23
            refine Within.ite (fun _ => ?_) (fun _ => ?_)
            · refine Within.step (retireMember_within _ _ _) rfl ?_
              exact h18
            · exact h18
          · rename_i w24 w25
            exact h18
        · clear_value v19
          extract_lets +onlyGivenNames v26
          refine Within.cut (x := v26) ?_ (fun h27 => ?_)
          · subst v26
            refine Within.ite (fun _ => ?_) (fun _ => ?_)
            · refine Within.foldl (fun u28 a29 => ?_) ?_
              · refine Within.step (restartCopy_within _ _ _) rfl ?_
                exact Within.refl _ _
              · exact h20
            · exact h20
          · clear_value v26
            refine Within.step (raiseObj_within _ _ _ _) rfl ?_
            refine Within.step (count1_within _ _) rfl ?_
            exact h27

theorem doFlashProgramDone_within (l ok s) :
    Within [.free, .out, .bus, .evt, .cue, .hfe, .scn, .obj, .trl, .flc, .smg, .bob, .tly, .scr, .slm] s (doFlashProgramDone l ok s)
      := by
  unfold doFlashProgramDone
  split
  · rename_i w0 w1
    exact Within.refl _ _
  · rename_i w2 w3 w4
    extract_lets +onlyGivenNames v5
    refine Within.cut (x := v5) ?_ (fun h6 => ?_)
    · subst v5
      refine Within.step (endOp_within _ _) rfl ?_
      exact Within.refl _ _
    · clear_value v5
      extract_lets +onlyGivenNames v7
      refine Within.cut (x := v7) ?_ (fun h8 => ?_)
      · subst v7
        split
        · rename_i w9 w10
          exact h6
        · rename_i w11 w12 w13
          refine Within.ite (fun _ => ?_) (fun _ => ?_)
          · split
            · rename_i w14 w15 w16 w17
              refine Within.step (commitCopies_within _ _ _) rfl ?_
              exact h6
            · rename_i w18 w19 w20
              exact h6
          · refine Within.step (programFail_within _ _ _ _ _ _) rfl ?_
            refine Within.step (raiseObj_within _ _ _ _) rfl ?_
            exact h6
      · clear_value v7
        refine Within.step (goOn_within _) rfl ?_
        refine Within.step (pumpAll_within _) rfl ?_
        exact h8

theorem trimmed_within (rid r s) :
    Within [.free, .out, .bus, .evt, .cue, .hfe, .scn, .obj, .trl, .flc, .smg, .bob, .tly, .scr, .slm] s (trimmed rid r s) := by
  unfold trimmed
  extract_lets +onlyGivenNames v0
  refine Within.cut (x := v0) ?_ (fun h1 => ?_)
  · subst v0
    refine Within.step (endMediaRd_within _ _ _) rfl ?_
    exact Within.refl _ _
  · clear_value v0
    split
    · rename_i w2 w3 w4 w5
      extract_lets +onlyGivenNames v6
      refine Within.cut (x := v6) ?_ (fun h7 => ?_)
      · subst v6
        refine Within.step (raiseObj_within _ _ _ _) rfl ?_
        exact h1
      · clear_value v6
        split
        · rename_i w8 w9 w10 w11 w12 w13 w14
          split
          · rename_i w15 w16 w17 w18
            refine Within.trl rfl ?_
            exact h7
          · rename_i w19 w20
            exact h7
        · rename_i w21 w22 w23
          exact h7
    · rename_i w24 w25
      exact h1

theorem platterClimb_within (rid r s) :
    Within [.free, .out, .bus, .evt, .cue, .hfe, .scn, .obj, .trl, .flc, .smg, .bob, .tly, .scr, .slm] s (platterClimb rid r s) := by
  unfold platterClimb
  refine Within.ite (fun _ => ?_) (fun _ => ?_)
  · refine Within.step (trimmed_within _ _ _) rfl ?_
    exact Within.refl _ _
  · refine Within.ite (fun _ => ?_) (fun _ => ?_)
    · refine Within.step (decodeGeneral_within _ _) rfl ?_
      refine Within.step (onRd_within _ _ _) rfl ?_
      exact Within.refl _ _
    · extract_lets +onlyGivenNames v0
      subst v0
      refine Within.ite (fun _ => ?_) (fun _ => ?_)
      · dsimp only
        refine Within.step (onRd_within _ _ _) rfl ?_
        exact Within.refl _ _
      · refine Within.ite (fun _ => ?_) (fun _ => ?_)
        · dsimp only
          refine Within.step (onRd_within _ _ _) rfl ?_
          exact Within.refl _ _
        · refine Within.ite (fun _ => ?_) (fun _ => ?_)
          · refine Within.step (decodeGeneral_within _ _) rfl ?_
            refine Within.step (onRd_within _ _ _) rfl ?_
            exact Within.refl _ _
          · refine Within.ite (fun _ => ?_) (fun _ => ?_)
            · refine Within.ite (fun _ => ?_) (fun _ => ?_)
              · refine Within.step (decodeGeneral_within _ _) rfl ?_
                refine Within.step (onRd_within _ _ _) rfl ?_
                exact Within.refl _ _
              · dsimp only
                refine Within.step (onRd_within _ _ _) rfl ?_
                exact Within.refl _ _
            · refine Within.ite (fun _ => ?_) (fun _ => ?_)
              · split
                · rename_i w2 w3 w4 w5 w6 w7 w8 w9 w10 w11 w12
                  refine Within.step (count1_within _ _) rfl ?_
                  refine Within.step (onRd_within _ _ _) rfl ?_
                  exact Within.refl _ _
                · rename_i w13 w14 w15 w16 w17 w18 w19 w20 w21
                  exact Within.refl _ _
              · refine Within.step (endMediaRd_within _ _ _) rfl ?_
                exact Within.refl _ _

theorem countPageRead_within (l sb s) :
    Within [.trl] s (countPageRead l sb s) := by
  unfold countPageRead
  split
  · rename_i w0 w1 w2
    split
    · rename_i w3 w4 w5 w6
      extract_lets +onlyGivenNames v7
      clear_value v7
      extract_lets +onlyGivenNames v9
      clear_value v9
      extract_lets +onlyGivenNames v11
      refine Within.cut (x := v11) ?_ (fun h12 => ?_)
      · subst v11
        refine Within.trl rfl ?_
        exact Within.refl _ _
      · clear_value v11
        split
        · rename_i w13 w14 w15
          refine Within.ite (fun _ => ?_) (fun _ => ?_)
          · refine Within.trl rfl ?_
            exact h12
          · exact h12
        · rename_i w16 w17
          exact h12
    · rename_i w18 w19
      exact Within.refl _ _
  · rename_i w20 w21
    exact Within.refl _ _

theorem doInsertionDone_within (s) :
    Within [.trl, .flc] s (doInsertionDone s) := by
  unfold doInsertionDone
  extract_lets +onlyGivenNames v0
  clear_value v0
  refine Within.ite (fun _ => ?_) (fun _ => ?_)
  · extract_lets +onlyGivenNames v2
    clear_value v2
    extract_lets +onlyGivenNames v4
    refine Within.cut (x := v4) ?_ (fun h5 => ?_)
    · subst v4
      refine Within.step (setSlots_within _ _) rfl ?_
      refine Within.flc rfl ?_
      exact Within.refl _ _
    · clear_value v4
      extract_lets +onlyGivenNames v6
      clear_value v6
      refine Within.trl rfl ?_
      exact h5
  · exact Within.refl _ _

theorem eraseEnded_within (m retire s) :
    Within [.trl, .flc] s (eraseEnded m retire s) := by
  unfold eraseEnded
  extract_lets +onlyGivenNames v0
  clear_value v0
  extract_lets +onlyGivenNames v2
  clear_value v2
  extract_lets +onlyGivenNames v4
  clear_value v4
  refine Within.ite (fun _ => ?_) (fun _ => ?_)
  · refine Within.step (retireMember_within _ _ _) rfl ?_
    exact Within.refl _ _
  · refine Within.trl rfl ?_
    exact Within.refl _ _

theorem flashClimb_within (rid r s) :
    Within [.free, .out, .bus, .evt, .cue, .hfe, .scn, .obj, .trl, .flc, .smg, .bob, .tly, .scr, .slm] s (flashClimb rid r s) := by
  unfold flashClimb
  extract_lets +onlyGivenNames v0
  clear_value v0
  extract_lets +onlyGivenNames v2
  refine Within.cutFun (f := v2) ?_ (fun h3 => ?_)
  · subst v2
    intro u4
    dsimp only
    split
    · rename_i w5 w6 w7
      refine Within.step (retryRead_within _ _ _) rfl ?_
      refine Within.step (onRd_within _ _ _) rfl ?_
      exact Within.refl _ _
    · rename_i w8 w9
      refine Within.step (retryRead_within _ _ _) rfl ?_
      exact Within.refl _ _
  · clear_value v2
    refine Within.ite (fun _ => ?_) (fun _ => ?_)
    · refine Within.step (retryRead_within _ _ _) rfl ?_
      exact Within.refl _ _
    · refine Within.ite (fun _ => ?_) (fun _ => ?_)
      · refine Within.trans ?_ (h3 _)
        exact Within.refl _ _
      · refine Within.ite (fun _ => ?_) (fun _ => ?_)
        · refine Within.step (retryRead_within _ _ _) rfl ?_
          exact Within.refl _ _
        · refine Within.ite (fun _ => ?_) (fun _ => ?_)
          · refine Within.step (retryRead_within _ _ _) rfl ?_
            exact Within.refl _ _
          · refine Within.step (endMediaRd_within _ _ _) rfl ?_
            exact Within.refl _ _

theorem flashMargin_within (r s) :
    Within [.out, .bus, .evt, .trl] s (flashMargin r s) := by
  unfold flashMargin
  split
  · rename_i w0 w1 w2 w3
    split
    · rename_i w4 w5 w6
      extract_lets +onlyGivenNames v7
      clear_value v7
      refine Within.step (raiseObj_within _ _ _ _) rfl ?_
      refine Within.trl rfl ?_
      exact Within.refl _ _
    · rename_i w9 w10
      exact Within.refl _ _
  · rename_i w11 w12
    exact Within.refl _ _

theorem decoded_within (rid r s) :
    Within [.free, .out, .bus, .evt, .cue, .hfe, .scn, .obj, .trl, .flc, .smg, .bob, .tly, .scr, .slm] s (decoded rid r s) := by
  unfold decoded
  split
  · rename_i w0 w1 w2 w3
    extract_lets +onlyGivenNames v4
    refine Within.cut (x := v4) ?_ (fun h5 => ?_)
    · subst v4
      refine Within.ite (fun _ => ?_) (fun _ => ?_)
      · refine Within.step (count1_within _ _) rfl ?_
        refine Within.step (raiseObj_within _ _ _ _) rfl ?_
        exact Within.refl _ _
      · exact Within.refl _ _
    · clear_value v4
      refine Within.step (endMediaRd_within _ _ _) rfl ?_
      refine Within.ite (fun _ => ?_) (fun _ => ?_)
      · refine Within.step (refreshBand_within _ _) rfl ?_
        exact h5
      · exact h5
  · rename_i w6 w7
    extract_lets +onlyGivenNames v8
    refine Within.cut (x := v8) ?_ (fun h9 => ?_)
    · subst v8
      refine Within.ite (fun _ => ?_) (fun _ => ?_)
      · refine Within.step (keepLevel_within _ _) rfl ?_
        exact Within.refl _ _
      · exact Within.refl _ _
    · clear_value v8
      refine Within.step (endMediaRd_within _ _ _) rfl ?_
      refine Within.ite (fun _ => ?_) (fun _ => ?_)
      · refine Within.step (flashMargin_within _ _) rfl ?_
        exact h9
      · exact h9

theorem doFlashEraseDone_within (l ok s) :
    Within [.free, .out, .bus, .evt, .cue, .hfe, .scn, .obj, .trl, .flc, .smg, .bob, .tly, .scr, .slm] s (doFlashEraseDone l ok s)
      := by
  unfold doFlashEraseDone
  split
  · rename_i w0 w1
    exact Within.refl _ _
  · rename_i w2 w3 w4
    extract_lets +onlyGivenNames v5
    refine Within.cut (x := v5) ?_ (fun h6 => ?_)
    · subst v5
      refine Within.step (endOp_within _ _) rfl ?_
      exact Within.refl _ _
    · clear_value v5
      extract_lets +onlyGivenNames v7
      refine Within.cut (x := v7) ?_ (fun h8 => ?_)
      · subst v7
        refine Within.ite (fun _ => ?_) (fun _ => ?_)
        · exact h6
        · refine Within.step (raiseObj_within _ _ _ _) rfl ?_
          exact h6
      · clear_value v7
        extract_lets +onlyGivenNames v9
        clear_value v9
        extract_lets +onlyGivenNames v11
        refine Within.cut (x := v11) ?_ (fun h12 => ?_)
        · subst v11
          split
          · rename_i w13 w14
            split
            · rename_i w15 w16 w17
              refine Within.step (eraseEnded_within _ _ _) rfl ?_
              refine Within.trl rfl ?_
              exact h8
            · rename_i w18 w19
              exact h8
          · rename_i w20 w21 w22
            split
            · rename_i w23 w24
              exact h8
            · rename_i w25 w26 w27
              extract_lets +onlyGivenNames v28
              clear_value v28
              extract_lets +onlyGivenNames v30
              refine Within.cut (x := v30) ?_ (fun h31 => ?_)
              · subst v30
                split
                · rename_i w32 w33 w34
                  refine Within.ite (fun _ => ?_) (fun _ => ?_)
                  · exact h8
                  · refine Within.ite (fun _ => ?_) (fun _ => ?_)
                    · exact h8
                    · refine Within.step (eraseEnded_within _ _ _) rfl ?_
                      exact h8
                · rename_i w35 w36
                  exact h8
              · clear_value v30
                refine Within.ite (fun _ => ?_) (fun _ => ?_)
                · refine Within.step (armHarbour_within _) rfl ?_
                  refine Within.trl rfl ?_
                  exact h31
                · refine Within.ite (fun _ => ?_) (fun _ => ?_)
                  · refine Within.trl rfl ?_
                    exact h31
                  · refine Within.trl rfl ?_
                    exact h31
        · clear_value v11
          refine Within.step (goOn_within _) rfl ?_
          refine Within.step (pumpAll_within _) rfl ?_
          exact h12

theorem failLunOp_within (l retire step s) :
    Within [.free, .out, .bus, .evt, .cue, .hfe, .scn, .obj, .trl, .flc, .smg, .bob, .tly, .scr, .slm] s (failLunOp l retire step s)
      := by
  unfold failLunOp
  extract_lets +onlyGivenNames v0
  clear_value v0
  extract_lets +onlyGivenNames v2
  refine Within.cut (x := v2) ?_ (fun h3 => ?_)
  · subst v2
    split
    · rename_i w4 w5 w6
      extract_lets +onlyGivenNames v7
      refine Within.cut (x := v7) ?_ (fun h8 => ?_)
      · subst v7
        refine Within.flc rfl ?_
        exact Within.refl _ _
      · clear_value v7
        split
        · rename_i w9 w10 w11
          refine Within.step (programFail_within _ _ _ _ _ _) rfl ?_
          exact h8
        · rename_i w12 w13
          exact h8
    · rename_i w14 w15
      exact Within.refl _ _
  · clear_value v2
    extract_lets +onlyGivenNames v16
    clear_value v16
    extract_lets +onlyGivenNames v18
    refine Within.cut (x := v18) ?_ (fun h19 => ?_)
    · subst v18
      split
      · rename_i w20 w21 w22
        refine Within.ite (fun _ => ?_) (fun _ => ?_)
        · refine Within.step (doFlashEraseDone_within _ _ _) rfl ?_
          exact h3
        · refine Within.flc rfl ?_
          exact h3
      · rename_i w23 w24
        exact h3
    · clear_value v18
      split
      · rename_i w25 w26 w27
        split
        · rename_i w28 w29 w30
          refine Within.step (retryRead_within _ _ _) rfl ?_
          exact h19
        · rename_i w31 w32
          exact h19
      · rename_i w33 w34
        exact h19

theorem faultGroup_within (g s) :
    Within [.free, .out, .bus, .evt, .cue, .hfe, .scn, .obj, .trl, .flc, .smg, .bob, .tly, .scr, .slm] s (faultGroup g s) := by
  unfold faultGroup
  extract_lets +onlyGivenNames v0
  clear_value v0
  extract_lets +onlyGivenNames v2
  clear_value v2
  extract_lets +onlyGivenNames v4
  refine Within.cut (x := v4) ?_ (fun h5 => ?_)
  · subst v4
    refine Within.flc rfl ?_
    exact Within.refl _ _
  · clear_value v4
    extract_lets +onlyGivenNames v6
    refine Within.cut (x := v6) ?_ (fun h7 => ?_)
    · subst v6
      refine Within.foldl (fun u8 a9 => ?_) ?_
      · refine Within.step (failLunOp_within _ _ _ _) rfl ?_
        refine Within.step (onLun_within _ _ _) rfl ?_
        exact Within.refl _ _
      · exact h5
    · clear_value v6
      extract_lets +onlyGivenNames v10
      refine Within.cut (x := v10) ?_ (fun h11 => ?_)
      · subst v10
        refine Within.step (dropOps_within _ _) rfl ?_
        exact h7
      · clear_value v10
        refine Within.step (bumpReads_within _ _ _) rfl ?_
        exact h11

theorem decodeDone_within (rid ok iters s) :
    Within [.free, .out, .bus, .evt, .cue, .hfe, .scn, .obj, .trl, .flc, .smg, .bob, .tly, .scr, .slm] s (decodeDone rid ok iters s)
      := by
  unfold decodeDone
  split
  · rename_i w0 w1 w2 w3 w4 w5
    extract_lets +onlyGivenNames v6
    clear_value v6
    extract_lets +onlyGivenNames v8
    clear_value v8
    extract_lets +onlyGivenNames v10
    refine Within.cut (x := v10) ?_ (fun h11 => ?_)
    · subst v10
      refine Within.step (releaseDecoder_within _ _) rfl ?_
      exact Within.refl _ _
    · clear_value v10
      extract_lets +onlyGivenNames v12
      clear_value v12
      extract_lets +onlyGivenNames v14
      refine Within.cut (x := v14) ?_ (fun h15 => ?_)
      · subst v14
        refine Within.ite (fun _ => ?_) (fun _ => ?_)
        · exact h11
        · refine Within.flc rfl ?_
          exact h11
      · clear_value v14
        refine Within.ite (fun _ => ?_) (fun _ => ?_)
        · refine Within.step (decoded_within _ _ _) rfl ?_
          refine Within.step (count1_within _ _) rfl ?_
          exact h15
        · extract_lets +onlyGivenNames v16
          refine Within.cut (x := v16) ?_ (fun h17 => ?_)
          · subst v16
            refine Within.step (count1_within _ _) rfl ?_
            exact h15
          · clear_value v16
            split
            · rename_i w18 w19 w20 w21 w22
              refine Within.step (platterClimb_within _ _ _) rfl ?_
              exact h17
            · rename_i w23 w24 w25
              refine Within.step (flashClimb_within _ _ _) rfl ?_
              exact h17
  · rename_i w26 w27 w28
    exact Within.refl _ _

theorem doDecodeDone_within (rid ok iters check s) :
    Within [.free, .out, .bus, .evt, .cue, .hfe, .scn, .obj, .trl, .flc, .smg, .bob, .tly, .scr, .slm] s (doDecodeDone rid ok iters
      check s) := by
  unfold doDecodeDone
  extract_lets +onlyGivenNames v0
  clear_value v0
  extract_lets +onlyGivenNames v2
  refine Within.cut (x := v2) ?_ (fun h3 => ?_)
  · subst v2
    refine Within.step (decodeDone_within _ _ _ _) rfl ?_
    exact Within.refl _ _
  · clear_value v2
    refine Within.ite (fun _ => ?_) (fun _ => ?_)
    · refine Within.step (fixityFail_within _ _ _) rfl ?_
      exact h3
    · exact h3

theorem doEvacuationDone_within (s) :
    Within [.evt, .trl, .flc] s (doEvacuationDone s) := by
  unfold doEvacuationDone
  extract_lets +onlyGivenNames v0
  clear_value v0
  refine Within.ite (fun _ => ?_) (fun _ => ?_)
  · extract_lets +onlyGivenNames v2
    subst v2
    extract_lets +onlyGivenNames v4
    clear_value v4
    extract_lets +onlyGivenNames v6
    refine Within.cut (x := v6) ?_ (fun h7 => ?_)
    · subst v6
      refine Within.upd ?_ (by constructor <;> first | exact .inl rfl | exact .inr rfl | exact Nat.le_refl _ | exact List.suffix_refl _ | exact id | exact Nat.le_add_right _ _ | exact .inr ⟨rfl, rfl⟩ | exact memWrite_wf | exact memErase_wf | exact Nat.le_of_eq (closeAllPages_next _).symm)
      exact Within.refl _ _
    · clear_value v6
      refine Within.step (setSlots_within _ _) rfl ?_
      exact h7
  · exact Within.refl _ _

theorem doFlashReadDone_within (rid l s) :
    Within [.bus, .cue, .trl, .flc] s (doFlashReadDone rid l s) := by
  unfold doFlashReadDone
  split
  · rename_i w0 w1 w2 w3 w4 w5
    refine Within.ite (fun _ => ?_) (fun _ => ?_)
    · exact Within.refl _ _
    · extract_lets +onlyGivenNames v6
      refine Within.cut (x := v6) ?_ (fun h7 => ?_)
      · subst v6
        refine Within.step (onLun_within _ _ _) rfl ?_
        exact Within.refl _ _
      · clear_value v6
        extract_lets +onlyGivenNames v8
        refine Within.cut (x := v8) ?_ (fun h9 => ?_)
        · subst v8
          split
          · rename_i w10 w11 w12 w13 w14
            refine Within.step (countPageRead_within _ _ _) rfl ?_
            exact h7
          · rename_i w15 w16 w17
            exact h7
        · clear_value v8
          extract_lets +onlyGivenNames v18
          clear_value v18
          extract_lets +onlyGivenNames v20
          refine Within.cut (x := v20) ?_ (fun h21 => ?_)
          · subst v20
            refine Within.step (onRd_within _ _ _) rfl ?_
            exact h9
          · clear_value v20
            refine Within.step (pumpAll_within _) rfl ?_
            refine Within.ite (fun _ => ?_) (fun _ => ?_)
            · refine Within.step (decodeGeneral_within _ _) rfl ?_
              exact h21
            · exact h21
  · rename_i w22 w23 w24
    exact Within.refl _ _

theorem doLunTimeout_within (l s) :
    Within [.free, .out, .bus, .evt, .cue, .hfe, .scn, .obj, .trl, .flc, .smg, .bob, .tly, .scr, .slm] s (doLunTimeout l s) := by
  unfold doLunTimeout
  split
  · rename_i w0 w1
    exact Within.refl _ _
  · rename_i w2 w3 w4
    extract_lets +onlyGivenNames v5
    clear_value v5
    refine Within.ite (fun _ => ?_) (fun _ => ?_)
    · exact Within.refl _ _
    · extract_lets +onlyGivenNames v7
      clear_value v7
      extract_lets +onlyGivenNames v9
      clear_value v9
      extract_lets +onlyGivenNames v11
      refine Within.cut (x := v11) ?_ (fun h12 => ?_)
      · subst v11
        refine Within.ite (fun _ => ?_) (fun _ => ?_)
        · refine Within.step (count1_within _ _) rfl ?_
          refine Within.step (raiseObj_within _ _ _ _) rfl ?_
          refine Within.step (onLun_within _ _ _) rfl ?_
          exact Within.refl _ _
        · refine Within.step (onLun_within _ _ _) rfl ?_
          exact Within.refl _ _
      · clear_value v11
        extract_lets +onlyGivenNames v13
        refine Within.cut (x := v13) ?_ (fun h14 => ?_)
        · subst v13
          refine Within.step (failLunOp_within _ _ _ _) rfl ?_
          exact h12
        · clear_value v13
          extract_lets +onlyGivenNames v15
          clear_value v15
          extract_lets +onlyGivenNames v17
          refine Within.cut (x := v17) ?_ (fun h18 => ?_)
          · subst v17
            refine Within.ite (fun _ => ?_) (fun _ => ?_)
            · refine Within.step (faultGroup_within _ _) rfl ?_
              exact h12
            · refine Within.ite (fun _ => ?_) (fun _ => ?_)
              · refine Within.ite (fun _ => ?_) (fun _ => ?_)
                · refine Within.step (retireLun_within _ _) rfl ?_
                  exact h14
                · exact h14
              · refine Within.ite (fun _ => ?_) (fun _ => ?_)
                · refine Within.foldl (fun u19 a20 => ?_) ?_
                  · refine Within.step (failLunOp_within _ _ _ _) rfl ?_
                    exact Within.refl _ _
                  · exact h12
                · refine Within.step (retireLun_within _ _) rfl ?_
                  exact h12
          · clear_value v17
            refine Within.step (goOn_within _) rfl ?_
            refine Within.step (pumpAll_within _) rfl ?_
            exact h18

end Sys2Proof.Machine
end

