-- ==== Sys2Proof/Laws/FrameSmock.lean ====
section
/-! SUPPORT. What each operation of Machine/Smock.lean may change, and what it keeps. -/
namespace Sys2Proof.Machine

theorem endEngine_within (i st s) :
    Within [.free, .out, .bus, .evt, .cue, .hfe, .scn, .obj, .trl, .flc, .smg, .bob, .tly, .scr, .slm] s (endEngine i st s) := by
  unfold endEngine
  refine Within.step (goOn_within _) rfl ?_
  refine Within.step (completeTask_within _ _ _) rfl ?_
  exact Within.refl _ _

theorem smockStore_within (j e s) :
    Within [.free, .dmc, .dram] s (smockStore j e s) := by
  unfold smockStore
  refine Within.ite (fun _ => ?_) (fun _ => ?_)
  · split
    · rename_i w0 w1 w2 w3 w4
      refine Within.cut (Within.ofEq w4 ?_) (fun h5 => ?_)
      · refine Within.step (freeBytes_within _ _) rfl ?_
        exact Within.refl _ _
      refine Within.step (dramStore_within _ _ _) rfl ?_
      exact h5
  · refine Within.ite (fun _ => ?_) (fun _ => ?_)
    · refine Within.step (dramStore_within _ _ _) rfl ?_
      exact Within.refl _ _
    · exact Within.refl _ _

theorem smockRun_within (h op check s) :
    Within [.free, .out, .bus, .evt, .cue, .hfe, .scn, .obj, .trl, .flc, .smg, .bob, .dmc, .tly, .scr, .dram, .slm] s (smockRun h op
      check s) := by
  unfold smockRun
  extract_lets +onlyGivenNames v0
  refine Within.cut (x := v0) ?_ (fun h1 => ?_)
  · subst v0
    refine Within.step (closeWindows_within _) rfl ?_
    exact Within.refl _ _
  · clear_value v0
    split
    · rename_i w2 w3
      exact h1
    · rename_i w4 w5 w6 w7
      refine Within.ite (fun _ => ?_) (fun _ => ?_)
      · refine Within.step (endEngine_within _ _ _) rfl ?_
        exact h1
      · extract_lets +onlyGivenNames v8
        clear_value v8
        extract_lets +onlyGivenNames v10
        clear_value v10
        refine Within.ite (fun _ => ?_) (fun _ => ?_)
        · exact h1
        · extract_lets +onlyGivenNames v12
          clear_value v12
          extract_lets +onlyGivenNames v14
          refine Within.cut (x := v14) ?_ (fun h15 => ?_)
          · subst v14
            refine Within.step (smockStore_within _ _ _) rfl ?_
            exact h1
          · clear_value v14
            extract_lets +onlyGivenNames v16
            clear_value v16
            extract_lets +onlyGivenNames v18
            refine Within.cut (x := v18) ?_ (fun h19 => ?_)
            · subst v18
              refine Within.step (writeRecord_within _ _ _) rfl ?_
              exact h15
            · clear_value v18
              extract_lets +onlyGivenNames v20
              refine Within.cut (x := v20) ?_ (fun h21 => ?_)
              · subst v20
                refine Within.step (smockEvents_within _ _ _ _) rfl ?_
                exact h19
              · clear_value v20
                extract_lets +onlyGivenNames v22
                refine Within.cut (x := v22) ?_ (fun h23 => ?_)
                · subst v22
                  refine Within.ite (fun _ => ?_) (fun _ => ?_)
                  · refine Within.step (smockTotals_within _ _ _) rfl ?_
                    exact h21
                  · exact h21
                · clear_value v22
                  extract_lets +onlyGivenNames v24
                  clear_value v24
                  extract_lets +onlyGivenNames v26
                  refine Within.cut (x := v26) ?_ (fun h27 => ?_)
                  · subst v26
                    refine Within.ite (fun _ => ?_) (fun _ => ?_)
                    · refine Within.step (raise_within _ _ _ _ _ _) rfl ?_
                      refine Within.step (count1_within _ _) rfl ?_
                      exact h23
                    · exact h23
                  · clear_value v26
                    extract_lets +onlyGivenNames v28
                    refine Within.cut (x := v28) ?_ (fun h29 => ?_)
                    · subst v28
                      refine Within.ite (fun _ => ?_) (fun _ => ?_)
                      · refine Within.step (fixityFail_within _ _ _) rfl ?_
                        exact h27
                      · exact h27
                    · clear_value v28
                      refine Within.step (endEngine_within _ _ _) rfl ?_
                      exact h29

theorem doSmockCompress_within (h s) :
    Within [.free, .out, .bus, .evt, .cue, .hfe, .scn, .obj, .trl, .flc, .smg, .bob, .dmc, .tly, .scr, .dram, .slm] s
      (doSmockCompress h s) := by
  unfold doSmockCompress
  refine Within.step (smockRun_within _ _ _ _) rfl ?_
  exact Within.refl _ _

theorem doSmockDecompress_within (h check s) :
    Within [.free, .out, .bus, .evt, .cue, .hfe, .scn, .obj, .trl, .flc, .smg, .bob, .dmc, .tly, .scr, .dram, .slm] s
      (doSmockDecompress h check s) := by
  unfold doSmockDecompress
  refine Within.step (smockRun_within _ _ _ _) rfl ?_
  exact Within.refl _ _

end Sys2Proof.Machine
end

