-- ==== Sys2Proof/Laws/FrameTally.lean ====
section
/-! SUPPORT. What each operation of Machine/Tally.lean may change, and what it keeps. -/
namespace Sys2Proof.Machine

theorem onTly_within (f s) :
    Within [.tly] s (onTly f s) := by
  unfold onTly
  refine Within.tly rfl ?_
  exact Within.refl _ _

theorem onTlySlot_within (k f s) :
    Within [.tly] s (onTlySlot k f s) := by
  unfold onTlySlot
  refine Within.step (onTly_within _ _) rfl ?_
  exact Within.refl _ _

theorem freeSlotCtx_within (k s) :
    Within [.tly] s (freeSlotCtx k s) := by
  unfold freeSlotCtx
  split
  · rename_i w0 w1 w2
    refine Within.step (onTly_within _ _) rfl ?_
    exact Within.refl _ _
  · rename_i w3 w4
    exact Within.refl _ _

theorem stopSlotTask_within (k s) :
    Within [.bus, .cue, .smg, .bob, .tly, .scr] s (stopSlotTask k s) := by
  unfold stopSlotTask
  split
  · rename_i w0 w1 w2 w3
    refine Within.step (cancelTask_within _ _ _) rfl ?_
    exact Within.refl _ _
  · rename_i w4 w5
    exact Within.refl _ _

theorem failSlot_within (k st s) :
    Within [.bus, .cue, .smg, .bob, .tly, .scr] s (failSlot k st s) := by
  unfold failSlot
  extract_lets +onlyGivenNames v0
  refine Within.cut (x := v0) ?_ (fun h1 => ?_)
  · subst v0
    refine Within.step (freeSlotCtx_within _ _) rfl ?_
    refine Within.step (stopSlotTask_within _ _) rfl ?_
    exact Within.refl _ _
  · clear_value v0
    refine Within.step (onTlySlot_within _ _ _) rfl ?_
    exact h1

theorem compareFault_within (lane obj tag s) :
    Within [.out, .bus, .evt, .tly] s (compareFault lane obj tag s) := by
  unfold compareFault
  extract_lets +onlyGivenNames v0
  clear_value v0
  extract_lets +onlyGivenNames v2
  clear_value v2
  extract_lets +onlyGivenNames v4
  refine Within.cut (x := v4) ?_ (fun h5 => ?_)
  · subst v4
    refine Within.step (raise_within _ _ _ _ _ _) rfl ?_
    refine Within.step (count1_within _ _) rfl ?_
    refine Within.step (onTly_within _ _) rfl ?_
    exact Within.refl _ _
  · clear_value v4
    refine Within.ite (fun _ => ?_) (fun _ => ?_)
    · exact h5
    · refine Within.step (raise_within _ _ _ _ _ _) rfl ?_
      refine Within.step (onTly_within _ _) rfl ?_
      exact h5

theorem compare_within (flip0 flip1 lane obj tag a b s) :
    Within [.out, .bus, .evt, .tly] s (compare flip0 flip1 lane obj tag a b s).2 := by
  unfold compare
  extract_lets +onlyGivenNames v0
  clear_value v0
  extract_lets +onlyGivenNames v2
  refine Within.cut (x := v2) ?_ (fun h3 => ?_)
  · subst v2
    refine Within.ite (fun _ => ?_) (fun _ => ?_)
    · refine Within.step (compareFault_within _ _ _ _) rfl ?_
      exact Within.refl _ _
    · exact Within.refl _ _
  · clear_value v2
    refine Within.mkSnd ?_
    refine Within.ite (fun _ => ?_) (fun _ => ?_)
    · exact h3
    · refine Within.step (raise_within _ _ _ _ _ _) rfl ?_
      refine Within.step (count1_within _ _) rfl ?_
      exact h3

theorem postTally_within (tag alg d pub s) :
    Within [.bus, .obj] s (postTally tag alg d pub s).2 := by
  unfold postTally
  extract_lets +onlyGivenNames v0
  clear_value v0
  refine Within.mkSnd ?_
  refine Within.step (count1_within _ _) rfl ?_
  refine Within.step (postResult_within _ _) rfl ?_
  exact Within.refl _ _

theorem finishSlot_within (i k lane msg f0 f1 s) :
    Within [.free, .out, .bus, .evt, .cue, .hfe, .scn, .obj, .trl, .flc, .smg, .bob, .tly, .scr, .slm] s (finishSlot i k lane msg f0
      f1 s) := by
  unfold finishSlot
  extract_lets +onlyGivenNames v0
  clear_value v0
  extract_lets +onlyGivenNames v2
  clear_value v2
  extract_lets +onlyGivenNames v4
  clear_value v4
  split
  · rename_i w6 w7 w8 w9
    refine Within.cut (Within.ofEq w9 ?_) (fun h10 => ?_)
    · refine Within.iteSnd (fun _ => ?_) (fun _ => ?_)
      · refine Within.step (compare_within _ _ _ _ _ _ _ _) rfl ?_
        exact Within.refl _ _
      · refine Within.mkSnd ?_
        exact Within.refl _ _
    extract_lets +onlyGivenNames v11
    clear_value v11
    extract_lets +onlyGivenNames v13
    refine Within.cut (x := v13) ?_ (fun h14 => ?_)
    · subst v13
      refine Within.step (freeSlotCtx_within _ _) rfl ?_
      exact h10
    · clear_value v13
      split
      · rename_i w15 w16 w17 w18
        refine Within.cut (Within.ofEq w18 ?_) (fun h19 => ?_)
        · refine Within.iteSnd (fun _ => ?_) (fun _ => ?_)
          · refine Within.step (postTally_within _ _ _ _ _) rfl ?_
            exact h14
          · refine Within.mkSnd ?_
            exact h14
        extract_lets +onlyGivenNames v20
        refine Within.cut (x := v20) ?_ (fun h21 => ?_)
        · subst v20
          refine Within.step (onTlySlot_within _ _ _) rfl ?_
          exact h19
        · clear_value v20
          refine Within.step (endEngine_within _ _ _) rfl ?_
          exact h21

theorem takeSlotCtx_within (k s) :
    Within [.tly] s (takeSlotCtx k s) := by
  unfold takeSlotCtx
  extract_lets +onlyGivenNames v0
  clear_value v0
  refine Within.ite (fun _ => ?_) (fun _ => ?_)
  · exact Within.refl _ _
  · split
    · rename_i w2 w3 w4 w5
      refine Within.step (onTlySlot_within _ _ _) rfl ?_
      refine Within.step (onTly_within _ _) rfl ?_
      exact Within.refl _ _
    · rename_i w6 w7 w8
      exact Within.refl _ _

theorem runSlot_within (i k lane f0 f1 s) :
    Within [.free, .out, .bus, .evt, .cue, .hfe, .scn, .obj, .trl, .flc, .smg, .bob, .tly, .scr, .slm] s (runSlot i k lane f0 f1 s)
      := by
  unfold runSlot
  extract_lets +onlyGivenNames v0
  clear_value v0
  extract_lets +onlyGivenNames v2
  clear_value v2
  extract_lets +onlyGivenNames v4
  refine Within.cut (x := v4) ?_ (fun h5 => ?_)
  · subst v4
    refine Within.step (onTlySlot_within _ _ _) rfl ?_
    exact Within.refl _ _
  · clear_value v4
    refine Within.ite (fun _ => ?_) (fun _ => ?_)
    · refine Within.step (endEngine_within _ _ _) rfl ?_
      refine Within.step (raise_within _ _ _ _ _ _) rfl ?_
      refine Within.step (count1_within _ _) rfl ?_
      refine Within.step (failSlot_within _ _ _) rfl ?_
      exact h5
    · split
      · rename_i w6 w7 w8 w9 w10
        refine Within.ite (fun _ => ?_) (fun _ => ?_)
        · refine Within.step (endEngine_within _ _ _) rfl ?_
          refine Within.step (failSlot_within _ _ _) rfl ?_
          exact h5
        · refine Within.step (finishSlot_within _ _ _ _ _ _ _) rfl ?_
          exact h5
      · rename_i w11 w12 w13
        refine Within.ite (fun _ => ?_) (fun _ => ?_)
        · refine Within.step (finishSlot_within _ _ _ _ _ _ _) rfl ?_
          exact h5
        · refine Within.step (endEngine_within _ _ _) rfl ?_
          refine Within.step (onTlySlot_within _ _ _) rfl ?_
          refine Within.step (takeSlotCtx_within _ _) rfl ?_
          exact h5

theorem tallyFailEvents_within (st obj tag s) :
    Within [.out, .bus, .evt, .saf] s (tallyFailEvents st obj tag s) := by
  unfold tallyFailEvents
  refine Within.ite (fun _ => ?_) (fun _ => ?_)
  · refine Within.step (raise_within _ _ _ _ _ _) rfl ?_
    refine Within.step (count1_within _ _) rfl ?_
    exact Within.refl _ _
  · refine Within.ite (fun _ => ?_) (fun _ => ?_)
    · refine Within.step (raise_within _ _ _ _ _ _) rfl ?_
      refine Within.step (count1_within _ _) rfl ?_
      exact Within.refl _ _
    · refine Within.ite (fun _ => ?_) (fun _ => ?_)
      · refine Within.step (raise_within _ _ _ _ _ _) rfl ?_
        exact Within.refl _ _
      · refine Within.ite (fun _ => ?_) (fun _ => ?_)
        · refine Within.step (refuseAt_within _ _ _ _) rfl ?_
          exact Within.refl _ _
        · exact Within.refl _ _

theorem failTally_within (i h t st s) :
    Within [.free, .out, .bus, .evt, .cue, .hfe, .scn, .obj, .trl, .flc, .smg, .bob, .dmc, .tly, .scr, .saf, .dram, .slm] s
      (failTally i h t st s) := by
  unfold failTally
  refine Within.step (endEngine_within _ _ _) rfl ?_
  refine Within.step (tallyFailEvents_within _ _ _ _) rfl ?_
  refine Within.step (emptyRecord_within _ _ _) rfl ?_
  exact Within.refl _ _

theorem slotTask_within (k s) :
    Within [.out, .bus, .evt, .cue, .hfe, .scn, .smg, .bob, .tly, .scr] s (slotTask k s) := by
  unfold slotTask
  extract_lets +onlyGivenNames v0
  clear_value v0
  refine Within.ite (fun _ => ?_) (fun _ => ?_)
  · exact Within.refl _ _
  · refine Within.ite (fun _ => ?_) (fun _ => ?_)
    · split
      · rename_i w2 w3 w4 w5 w6 w7
        refine Within.cut (Within.ofEq w7 ?_) (fun h8 => ?_)
        · refine Within.step (createOwn_within _ _) rfl ?_
          exact Within.refl _ _
        refine Within.step (onTlySlot_within _ _ _) rfl ?_
        exact h8
    · refine Within.step (failSlot_within _ _ _) rfl ?_
      exact Within.refl _ _

theorem doTwTlyStart_within (tag j val s) :
    Within [.out, .bus, .evt, .cue, .hfe, .scn, .smg, .bob, .tly, .scr] s (doTwTlyStart tag j val s) := by
  unfold doTwTlyStart
  extract_lets +onlyGivenNames v0
  clear_value v0
  extract_lets +onlyGivenNames v2
  clear_value v2
  refine Within.ite (fun _ => ?_) (fun _ => ?_)
  · extract_lets +onlyGivenNames v4
    clear_value v4
    extract_lets +onlyGivenNames v6
    clear_value v6
    extract_lets +onlyGivenNames v8
    clear_value v8
    extract_lets +onlyGivenNames v10
    clear_value v10
    extract_lets +onlyGivenNames v12
    clear_value v12
    extract_lets +onlyGivenNames v14
    clear_value v14
    extract_lets +onlyGivenNames v16
    clear_value v16
    extract_lets +onlyGivenNames v18
    refine Within.cut (x := v18) ?_ (fun h19 => ?_)
    · subst v18
      refine Within.step (onTlySlot_within _ _ _) rfl ?_
      exact Within.refl _ _
    · clear_value v18
      refine Within.ite (fun _ => ?_) (fun _ => ?_)
      · refine Within.step (failSlot_within _ _ _) rfl ?_
        exact h19
      · extract_lets +onlyGivenNames v20
        refine Within.cut (x := v20) ?_ (fun h21 => ?_)
        · subst v20
          refine Within.step (takeSlotCtx_within _ _) rfl ?_
          exact h19
        · clear_value v20
          refine Within.ite (fun _ => ?_) (fun _ => ?_)
          · refine Within.step (slotTask_within _ _) rfl ?_
            exact h21
          · exact h21
  · exact Within.refl _ _

theorem doTwTlyAbort_within (tag j s) :
    Within [.bus, .cue, .smg, .bob, .tly, .scr] s (doTwTlyAbort tag j s) := by
  unfold doTwTlyAbort
  extract_lets +onlyGivenNames v0
  clear_value v0
  refine Within.ite (fun _ => ?_) (fun _ => ?_)
  · refine Within.step (failSlot_within _ _ _) rfl ?_
    exact Within.refl _ _
  · exact Within.refl _ _

theorem dropWrite_within (tag s) :
    Within [.bus] s (dropWrite tag s) := by
  unfold dropWrite
  refine Within.step (count1_within _ _) rfl ?_
  exact Within.refl _ _

theorem doTwTlyDataHi_within (q tag j hi s) :
    Within [.out, .bus, .evt, .cue, .hfe, .scn, .smg, .bob, .tly, .scr, .halves] s (doTwTlyDataHi q tag j hi s) := by
  unfold doTwTlyDataHi
  refine Within.ite (fun _ => ?_) (fun _ => ?_)
  · extract_lets +onlyGivenNames v0
    clear_value v0
    extract_lets +onlyGivenNames v2
    clear_value v2
    extract_lets +onlyGivenNames v4
    refine Within.cut (x := v4) ?_ (fun h5 => ?_)
    · subst v4
      refine Within.step (useLow_within _ _ _) rfl ?_
      exact Within.refl _ _
    · clear_value v4
      extract_lets +onlyGivenNames v6
      clear_value v6
      extract_lets +onlyGivenNames v8
      clear_value v8
      refine Within.ite (fun _ => ?_) (fun _ => ?_)
      · refine Within.step (dropWrite_within _ _) rfl ?_
        exact h5
      · refine Within.ite (fun _ => ?_) (fun _ => ?_)
        · refine Within.step (failSlot_within _ _ _) rfl ?_
          exact h5
        · refine Within.step (slotTask_within _ _) rfl ?_
          refine Within.step (onTlySlot_within _ _ _) rfl ?_
          exact h5
  · exact Within.refl _ _

theorem doTwTlyLastVb_within (tag j vb s) :
    Within [.out, .bus, .evt, .cue, .hfe, .scn, .smg, .bob, .tly, .scr] s (doTwTlyLastVb tag j vb s) := by
  unfold doTwTlyLastVb
  refine Within.ite (fun _ => ?_) (fun _ => ?_)
  · extract_lets +onlyGivenNames v0
    clear_value v0
    extract_lets +onlyGivenNames v2
    clear_value v2
    extract_lets +onlyGivenNames v4
    clear_value v4
    refine Within.ite (fun _ => ?_) (fun _ => ?_)
    · refine Within.step (dropWrite_within _ _) rfl ?_
      exact Within.refl _ _
    · refine Within.ite (fun _ => ?_) (fun _ => ?_)
      · refine Within.step (raise_within _ _ _ _ _ _) rfl ?_
        refine Within.step (count1_within _ _) rfl ?_
        refine Within.step (failSlot_within _ _ _) rfl ?_
        exact Within.refl _ _
      · refine Within.ite (fun _ => ?_) (fun _ => ?_)
        · refine Within.step (failSlot_within _ _ _) rfl ?_
          exact Within.refl _ _
        · extract_lets +onlyGivenNames v6
          clear_value v6
          refine Within.step (slotTask_within _ _) rfl ?_
          refine Within.step (onTlySlot_within _ _ _) rfl ?_
          exact Within.refl _ _
  · exact Within.refl _ _

theorem keepTally_within (i t j c s) :
    Within [.free, .out, .bus, .evt, .cue, .hfe, .scn, .obj, .trl, .flc, .smg, .bob, .dmc, .tly, .scr, .dram, .slm] s (keepTally i t
      j c s) := by
  unfold keepTally
  extract_lets +onlyGivenNames v0
  clear_value v0
  extract_lets +onlyGivenNames v2
  refine Within.cut (x := v2) ?_ (fun h3 => ?_)
  · subst v2
    refine Within.step (onTly_within _ _) rfl ?_
    exact Within.refl _ _
  · clear_value v2
    refine Within.step (endEngine_within _ _ _) rfl ?_
    refine Within.step (writeRecord_within _ _ _) rfl ?_
    exact h3

theorem checkDigest_within (check st d s) :
    Within [.out, .bus, .evt, .cue, .obj, .trl, .flc] s (checkDigest check st d s) := by
  unfold checkDigest
  split
  · rename_i w0 w1
    refine Within.step (fixityDone_within _ _ _ _ _) rfl ?_
    exact Within.refl _ _
  · rename_i w2
    exact Within.refl _ _

theorem finishTally_within (i h lane t j c f0 f1 check s) :
    Within [.free, .out, .bus, .evt, .cue, .hfe, .scn, .obj, .trl, .flc, .smg, .bob, .dmc, .tly, .scr, .dram, .slm] s (finishTally i
      h lane t j c f0 f1 check s) := by
  unfold finishTally
  extract_lets +onlyGivenNames v0
  clear_value v0
  extract_lets +onlyGivenNames v2
  clear_value v2
  split
  · rename_i w4 w5 w6 w7
    refine Within.cut (Within.ofEq w7 ?_) (fun h8 => ?_)
    · refine Within.iteSnd (fun _ => ?_) (fun _ => ?_)
      · refine Within.step (compare_within _ _ _ _ _ _ _ _) rfl ?_
        exact Within.refl _ _
      · refine Within.mkSnd ?_
        exact Within.refl _ _
    extract_lets +onlyGivenNames v9
    clear_value v9
    extract_lets +onlyGivenNames v11
    refine Within.cut (x := v11) ?_ (fun h12 => ?_)
    · subst v11
      refine Within.step (freeJobCtx_within _ _) rfl ?_
      refine Within.step (writeRecord_within _ _ _) rfl ?_
      exact h8
    · clear_value v11
      extract_lets +onlyGivenNames v13
      refine Within.cut (x := v13) ?_ (fun h14 => ?_)
      · subst v13
        refine Within.ite (fun _ => ?_) (fun _ => ?_)
        · refine Within.step (postTally_within _ _ _ _ _) rfl ?_
          exact h12
        · exact h12
      · clear_value v13
        refine Within.step (endEngine_within _ _ _) rfl ?_
        refine Within.ite (fun _ => ?_) (fun _ => ?_)
        · refine Within.step (checkDigest_within _ _ _ _) rfl ?_
          exact h14
        · exact h14

theorem doTallyJob_within (h flip0 flip1 check s) :
    Within [.free, .out, .bus, .evt, .cue, .hfe, .scn, .obj, .trl, .flc, .smg, .bob, .dmc, .tly, .scr, .saf, .dram, .slm] s
      (doTallyJob h flip0 flip1 check s) := by
  unfold doTallyJob
  extract_lets +onlyGivenNames v0
  refine Within.cut (x := v0) ?_ (fun h1 => ?_)
  · subst v0
    refine Within.step (closeWindows_within _) rfl ?_
    exact Within.refl _ _
  · clear_value v0
    split
    · rename_i w2 w3
      exact h1
    · rename_i w4 w5 w6 w7
      extract_lets +onlyGivenNames v8
      clear_value v8
      refine Within.ite (fun _ => ?_) (fun _ => ?_)
      · refine Within.step (endEngine_within _ _ _) rfl ?_
        refine Within.ite (fun _ => ?_) (fun _ => ?_)
        · exact h1
        · refine Within.step (emptyRecord_within _ _ _) rfl ?_
          exact h1
      · refine Within.ite (fun _ => ?_) (fun _ => ?_)
        · refine Within.step (runSlot_within _ _ _ _ _ _) rfl ?_
          exact h1
        · extract_lets +onlyGivenNames v10
          clear_value v10
          extract_lets +onlyGivenNames v12
          clear_value v12
          refine Within.ite (fun _ => ?_) (fun _ => ?_)
          · refine Within.step (failTally_within _ _ _ _ _) rfl ?_
            exact h1
          · refine Within.ite (fun _ => ?_) (fun _ => ?_)
            · refine Within.step (failTally_within _ _ _ _ _) rfl ?_
              exact h1
            · split
              · rename_i w14 w15 w16 w17 w18 w19 w20
                refine Within.step (failTally_within _ _ _ _ _) rfl ?_
                exact h1
              · rename_i w21 w22 w23 w24 w25 w26 w27
                refine Within.ite (fun _ => ?_) (fun _ => ?_)
                · refine Within.step (finishTally_within _ _ _ _ _ _ _ _ _ _) rfl ?_
                  exact h1
                · refine Within.step (keepTally_within _ _ _ _ _) rfl ?_
                  exact h1

theorem doTallyStreamIdle_within (tag j s) :
    Within [.out, .bus, .evt, .cue, .smg, .bob, .tly, .scr] s (doTallyStreamIdle tag j s) := by
  unfold doTallyStreamIdle
  extract_lets +onlyGivenNames v0
  clear_value v0
  extract_lets +onlyGivenNames v2
  clear_value v2
  refine Within.ite (fun _ => ?_) (fun _ => ?_)
  · refine Within.step (raise_within _ _ _ _ _ _) rfl ?_
    refine Within.step (failSlot_within _ _ _) rfl ?_
    exact Within.refl _ _
  · exact Within.refl _ _

end Sys2Proof.Machine
end

