-- ==== Sys2Proof/Laws/FrameScrim.lean ====
section
/-! SUPPORT. What each operation of Machine/Scrim.lean may change, and what it keeps. -/
namespace Sys2Proof.Machine

theorem onScr_within (f s) :
    Within [.scr] s (onScr f s) := by
  unfold onScr
  refine Within.scr rfl ?_
  exact Within.refl _ _

theorem abortTally_within (k s) :
    Within [.free, .out, .bus, .evt, .cue, .hfe, .scn, .obj, .trl, .flc, .smg, .bob, .dmc, .tly, .scr, .saf, .dram, .slm] s
      (abortTally k s) := by
  unfold abortTally
  extract_lets +onlyGivenNames v0
  clear_value v0
  extract_lets +onlyGivenNames v2
  refine Within.cut (x := v2) ?_ (fun h3 => ?_)
  · subst v2
    refine Within.foldl (fun u4 a5 => ?_) ?_
    · refine Within.step (failTally_within _ _ _ _ _) rfl ?_
      exact Within.refl _ _
    · exact Within.refl _ _
  · clear_value v2
    extract_lets +onlyGivenNames v6
    refine Within.cut (x := v6) ?_ (fun h7 => ?_)
    · subst v6
      refine Within.step (onTly_within _ _) rfl ?_
      exact h3
    · clear_value v6
      refine Within.foldl (fun u8 a9 => ?_) ?_
      · refine Within.ite (fun _ => ?_) (fun _ => ?_)
        · split
          · rename_i w10 w11 w12 w13 w14
            refine Within.step (endEngine_within _ _ _) rfl ?_
            refine Within.step (raise_within _ _ _ _ _ _) rfl ?_
            refine Within.step (count1_within _ _) rfl ?_
            refine Within.step (failSlot_within _ _ _) rfl ?_
            exact Within.refl _ _
          · rename_i w15 w16 w17
            refine Within.step (onTlySlot_within _ _ _) rfl ?_
            exact Within.refl _ _
        · exact Within.refl _ _
      · exact h7

theorem abortScrim_within (k s) :
    Within [.free, .out, .bus, .evt, .cue, .hfe, .scn, .obj, .trl, .flc, .smg, .bob, .dmc, .tly, .scr, .dram, .slm] s (abortScrim k
      s) := by
  unfold abortScrim
  extract_lets +onlyGivenNames v0
  clear_value v0
  extract_lets +onlyGivenNames v2
  clear_value v2
  extract_lets +onlyGivenNames v4
  clear_value v4
  extract_lets +onlyGivenNames v6
  refine Within.cut (x := v6) ?_ (fun h7 => ?_)
  · subst v6
    refine Within.foldl (fun u8 a9 => ?_) ?_
    · refine Within.step (endEngine_within _ _ _) rfl ?_
      refine Within.step (raise_within _ _ _ _ _ _) rfl ?_
      refine Within.step (count1_within _ _) rfl ?_
      refine Within.step (emptyRecord_within _ _ _) rfl ?_
      exact Within.refl _ _
    · exact Within.refl _ _
  · clear_value v6
    extract_lets +onlyGivenNames v10
    refine Within.cut (x := v10) ?_ (fun h11 => ?_)
    · subst v10
      refine Within.foldl (fun u12 a13 => ?_) ?_
      · refine Within.step (raise_within _ _ _ _ _ _) rfl ?_
        refine Within.step (count1_within _ _) rfl ?_
        exact Within.refl _ _
      · exact h7
    · clear_value v10
      refine Within.step (onScr_within _ _) rfl ?_
      exact h11

theorem eraseSlot_within (k s) :
    Within [.free, .out, .bus, .evt, .cue, .hfe, .scn, .obj, .trl, .flc, .smg, .bob, .dmc, .tly, .scr, .saf, .dram, .slm] s
      (eraseSlot k s) := by
  unfold eraseSlot
  extract_lets +onlyGivenNames v0
  clear_value v0
  extract_lets +onlyGivenNames v2
  refine Within.cut (x := v2) ?_ (fun h3 => ?_)
  · subst v2
    refine Within.step (onScr_within _ _) rfl ?_
    exact Within.refl _ _
  · clear_value v2
    refine Within.ite (fun _ => ?_) (fun _ => ?_)
    · exact h3
    · refine Within.step (abortTally_within _ _) rfl ?_
      refine Within.step (abortScrim_within _ _) rfl ?_
      exact h3

theorem doScrSlotErase_within (s) :
    Within [.free, .out, .bus, .evt, .cue, .hfe, .scn, .obj, .trl, .flc, .smg, .bob, .dmc, .tly, .scr, .saf, .dram, .slm] s
      (doScrSlotErase s) := by
  unfold doScrSlotErase
  refine Within.trans ?_ (onlyIf_within (by exact rfl) ?_)
  · exact Within.refl _ _
  · intro u0
    refine Within.step (eraseSlot_within _ _) rfl ?_
    exact Within.refl _ _

theorem keyResult_within (tag v s) :
    Within [.scr] s (keyResult tag v s) := by
  unfold keyResult
  refine Within.step (onScr_within _ _) rfl ?_
  exact Within.refl _ _

theorem refuseDerive_within (r s) :
    Within [.out, .bus, .evt] s (refuseDerive r s) := by
  unfold refuseDerive
  refine Within.step (raise_within _ _ _ _ _ _) rfl ?_
  exact Within.refl _ _

theorem onKeySlot_within (k f s) :
    Within [.scr] s (onKeySlot k f s) := by
  unfold onKeySlot
  refine Within.step (onScr_within _ _) rfl ?_
  exact Within.refl _ _

theorem writeSlot_within (k kind owner epoch nsid index key s) :
    Within [.scr] s (writeSlot k kind owner epoch nsid index key s) := by
  unfold writeSlot
  extract_lets +onlyGivenNames v0
  clear_value v0
  refine Within.step (onKeySlot_within _ _ _) rfl ?_
  exact Within.refl _ _

theorem derive_within (r target s) :
    Within [.bus, .scr] s (derive r target s) := by
  unfold derive
  extract_lets +onlyGivenNames v0
  clear_value v0
  extract_lets +onlyGivenNames v2
  clear_value v2
  extract_lets +onlyGivenNames v4
  refine Within.cut (x := v4) ?_ (fun h5 => ?_)
  · subst v4
    refine Within.step (count1_within _ _) rfl ?_
    exact Within.refl _ _
  · clear_value v4
    split
    · rename_i w6 w7
      refine Within.step (writeSlot_within _ _ _ _ _ _ _ _) rfl ?_
      exact h5
    · rename_i w8
      exact h5

theorem twKeyDerive_within (tag purpose index s) :
    Within [.out, .bus, .evt, .scr] s (twKeyDerive tag purpose index s) := by
  unfold twKeyDerive
  refine Within.ite (fun _ => ?_) (fun _ => ?_)
  · exact Within.refl _ _
  · split
    · rename_i w0 w1 w2
      refine Within.step (keyResult_within _ _ _) rfl ?_
      exact Within.refl _ _
    · rename_i w3 w4 w5 w6
      extract_lets +onlyGivenNames v7
      clear_value v7
      refine Within.ite (fun _ => ?_) (fun _ => ?_)
      · refine Within.step (keyResult_within _ _ _) rfl ?_
        exact Within.refl _ _
      · refine Within.ite (fun _ => ?_) (fun _ => ?_)
        · refine Within.step (keyResult_within _ _ _) rfl ?_
          exact Within.refl _ _
        · refine Within.ite (fun _ => ?_) (fun _ => ?_)
          · refine Within.step (keyResult_within _ _ _) rfl ?_
            refine Within.step (refuseDerive_within _ _) rfl ?_
            exact Within.refl _ _
          · refine Within.ite (fun _ => ?_) (fun _ => ?_)
            · refine Within.step (raise_within _ _ _ _ _ _) rfl ?_
              refine Within.step (count1_within _ _) rfl ?_
              refine Within.step (keyResult_within _ _ _) rfl ?_
              refine Within.step (onScr_within _ _) rfl ?_
              exact Within.refl _ _
            · refine Within.step (keyResult_within _ _ _) rfl ?_
              refine Within.step (derive_within _ _ _) rfl ?_
              exact Within.refl _ _

theorem doTwKeyDeriveMac_within (tag index s) :
    Within [.out, .bus, .evt, .scr] s (doTwKeyDeriveMac tag index s) := by
  unfold doTwKeyDeriveMac
  refine Within.step (twKeyDerive_within _ _ _ _) rfl ?_
  exact Within.refl _ _

theorem doTwKeyDeriveCmac_within (tag index s) :
    Within [.out, .bus, .evt, .scr] s (doTwKeyDeriveCmac tag index s) := by
  unfold doTwKeyDeriveCmac
  refine Within.step (twKeyDerive_within _ _ _ _) rfl ?_
  exact Within.refl _ _

theorem doTwKeyErase_within (tag s) :
    Within [.free, .out, .bus, .evt, .cue, .hfe, .scn, .obj, .trl, .flc, .smg, .bob, .dmc, .tly, .scr, .saf, .dram, .slm] s
      (doTwKeyErase tag s) := by
  unfold doTwKeyErase
  refine Within.ite (fun _ => ?_) (fun _ => ?_)
  · exact Within.refl _ _
  · split
    · rename_i w0 w1 w2
      refine Within.step (keyResult_within _ _ _) rfl ?_
      exact Within.refl _ _
    · rename_i w3 w4 w5 w6
      refine Within.ite (fun _ => ?_) (fun _ => ?_)
      · refine Within.step (keyResult_within _ _ _) rfl ?_
        exact Within.refl _ _
      · refine Within.step (keyResult_within _ _ _) rfl ?_
        refine Within.step (eraseSlot_within _ _) rfl ?_
        exact Within.refl _ _

theorem doSecurityReceive_within (h proto s) :
    Within [.free, .out, .bus, .evt, .cue, .hfe, .scn, .obj, .trl, .flc, .smg, .bob, .tly, .scr, .slm] s (doSecurityReceive h proto
      s) := by
  unfold doSecurityReceive
  refine Within.trans ?_ (fetched_within (by exact rfl) ?_)
  · exact Within.refl _ _
  · intro u0
    refine Within.step (endAtOnce_within _ _ _ _ _) rfl ?_
    refine Within.step (emit_within _ _) rfl ?_
    exact Within.refl _ _

theorem rollOver_within (k s) :
    Within [.out, .bus, .evt, .obj, .scr] s (rollOver k s) := by
  unfold rollOver
  extract_lets +onlyGivenNames v0
  clear_value v0
  extract_lets +onlyGivenNames v2
  clear_value v2
  extract_lets +onlyGivenNames v4
  clear_value v4
  refine Within.ite (fun _ => ?_) (fun _ => ?_)
  · exact Within.refl _ _
  · extract_lets +onlyGivenNames v6
    clear_value v6
    extract_lets +onlyGivenNames v8
    clear_value v8
    extract_lets +onlyGivenNames v10
    refine Within.cut (x := v10) ?_ (fun h11 => ?_)
    · subst v10
      refine Within.step (raise_within _ _ _ _ _ _) rfl ?_
      refine Within.step (count1_within _ _) rfl ?_
      refine Within.step (count1_within _ _) rfl ?_
      exact Within.refl _ _
    · clear_value v10
      extract_lets +onlyGivenNames v12
      clear_value v12
      extract_lets +onlyGivenNames v14
      refine Within.cut (x := v14) ?_ (fun h15 => ?_)
      · subst v14
        refine Within.obj rfl ?_
        exact h11
      · clear_value v14
        refine Within.step (onKeySlot_within _ _ _) rfl ?_
        exact h15

theorem blockOnFlash_within (k s) :
    Within [.scr] s (blockOnFlash k s) := by
  unfold blockOnFlash
  extract_lets +onlyGivenNames v0
  clear_value v0
  refine Within.ite (fun _ => ?_) (fun _ => ?_)
  · extract_lets +onlyGivenNames v2
    clear_value v2
    extract_lets +onlyGivenNames v4
    refine Within.cut (x := v4) ?_ (fun h5 => ?_)
    · subst v4
      refine Within.step (onScr_within _ _) rfl ?_
      exact Within.refl _ _
    · clear_value v4
      refine Within.step (onKeySlot_within _ _ _) rfl ?_
      exact h5
  · extract_lets +onlyGivenNames v6
    clear_value v6
    extract_lets +onlyGivenNames v8
    refine Within.cut (x := v8) ?_ (fun h9 => ?_)
    · subst v8
      refine Within.step (onScr_within _ _) rfl ?_
      exact Within.refl _ _
    · clear_value v8
      refine Within.step (onKeySlot_within _ _ _) rfl ?_
      exact h9

theorem scrFailEvents_within (st op obj tag s) :
    Within [.out, .bus, .evt, .saf] s (scrFailEvents st op obj tag s) := by
  unfold scrFailEvents
  refine Within.ite (fun _ => ?_) (fun _ => ?_)
  · refine Within.step (raise_within _ _ _ _ _ _) rfl ?_
    refine Within.step (count1_within _ _) rfl ?_
    exact Within.refl _ _
  · refine Within.ite (fun _ => ?_) (fun _ => ?_)
    · refine Within.step (raise_within _ _ _ _ _ _) rfl ?_
      exact Within.refl _ _
    · refine Within.ite (fun _ => ?_) (fun _ => ?_)
      · refine Within.step (raise_within _ _ _ _ _ _) rfl ?_
        exact Within.refl _ _
      · refine Within.ite (fun _ => ?_) (fun _ => ?_)
        · refine Within.step (refuseAt_within _ _ _ _) rfl ?_
          exact Within.refl _ _
        · exact Within.refl _ _

theorem failScr_within (i h op t st s) :
    Within [.free, .out, .bus, .evt, .cue, .hfe, .scn, .obj, .trl, .flc, .smg, .bob, .dmc, .tly, .scr, .saf, .dram, .slm] s (failScr
      i h op t st s) := by
  unfold failScr
  refine Within.step (endEngine_within _ _ _) rfl ?_
  refine Within.step (scrFailEvents_within _ _ _ _ _) rfl ?_
  refine Within.step (emptyRecord_within _ _ _) rfl ?_
  exact Within.refl _ _

theorem waitBlock_within (h tag k s) :
    Within [.out, .bus, .evt, .scr] s (waitBlock h tag k s) := by
  unfold waitBlock
  refine Within.ite (fun _ => ?_) (fun _ => ?_)
  · exact Within.refl _ _
  · refine Within.step (raise_within _ _ _ _ _ _) rfl ?_
    refine Within.step (count1_within _ _) rfl ?_
    refine Within.step (onKeySlot_within _ _ _) rfl ?_
    exact Within.refl _ _

theorem endPart_within (i t j c p s) :
    Within [.free, .out, .bus, .evt, .cue, .hfe, .scn, .obj, .trl, .flc, .smg, .bob, .dmc, .tly, .scr, .dram, .slm] s (endPart i t j
      c p s) := by
  unfold endPart
  extract_lets +onlyGivenNames v0
  clear_value v0
  extract_lets +onlyGivenNames v2
  refine Within.cut (x := v2) ?_ (fun h3 => ?_)
  · subst v2
    refine Within.step (dramStore_within _ _ _) rfl ?_
    exact Within.refl _ _
  · clear_value v2
    extract_lets +onlyGivenNames v4
    refine Within.cut (x := v4) ?_ (fun h5 => ?_)
    · subst v4
      split
      · rename_i w6 w7 w8
        refine Within.ite (fun _ => ?_) (fun _ => ?_)
        · refine Within.step (dramStore_within _ _ _) rfl ?_
          exact h3
        · exact h3
      · rename_i w9 w10
        exact h3
    · clear_value v4
      extract_lets +onlyGivenNames v11
      clear_value v11
      extract_lets +onlyGivenNames v13
      refine Within.cut (x := v13) ?_ (fun h14 => ?_)
      · subst v13
        refine Within.ite (fun _ => ?_) (fun _ => ?_)
        · refine Within.step (freeJobCtx_within _ _) rfl ?_
          exact h5
        · refine Within.step (onScr_within _ _) rfl ?_
          exact h5
      · clear_value v13
        refine Within.step (endEngine_within _ _ _) rfl ?_
        refine Within.step (writeRecord_within _ _ _) rfl ?_
        exact h14

theorem scrRun_within (op h s) :
    Within [.free, .out, .bus, .evt, .cue, .hfe, .scn, .obj, .trl, .flc, .smg, .bob, .dmc, .tly, .scr, .saf, .dram, .slm] s (scrRun
      op h s) := by
  unfold scrRun
  extract_lets +onlyGivenNames v0
  refine Within.cut (x := v0) ?_ (fun h1 => ?_)
  · subst v0
    refine Within.step (closeWindows_within _) rfl ?_
    exact Within.refl _ _
  · clear_value v0
    split
    · rename_i w2 w3
      exact h1
    · rename_i w4 w5 w6 w7
      refine Within.ite (fun _ => ?_) (fun _ => ?_)
      · refine Within.step (endEngine_within _ _ _) rfl ?_
        refine Within.step (emptyRecord_within _ _ _) rfl ?_
        exact h1
      · extract_lets +onlyGivenNames v8
        clear_value v8
        extract_lets +onlyGivenNames v10
        clear_value v10
        refine Within.ite (fun _ => ?_) (fun _ => ?_)
        · exact h1
        · refine Within.ite (fun _ => ?_) (fun _ => ?_)
          · refine Within.step (failScr_within _ _ _ _ _ _) rfl ?_
            exact h1
          · split
            · rename_i w12 w13 w14 w15 w16 w17
              refine Within.step (failScr_within _ _ _ _ _ _) rfl ?_
              exact h1
            · rename_i w18 w19 w20 w21 w22 w23
              refine Within.step (waitBlock_within _ _ _ _) rfl ?_
              exact h1
            · rename_i w24 w25 w26 w27 w28 w29
              extract_lets +onlyGivenNames v30
              clear_value v30
              refine Within.ite (fun _ => ?_) (fun _ => ?_)
              · refine Within.step (failScr_within _ _ _ _ _ _) rfl ?_
                exact h1
              · extract_lets +onlyGivenNames v32
                refine Within.cut (x := v32) ?_ (fun h33 => ?_)
                · subst v32
                  refine Within.ite (fun _ => ?_) (fun _ => ?_)
                  · refine Within.step (onKeySlot_within _ _ _) rfl ?_
                    exact h1
                  · exact h1
                · clear_value v32
                  extract_lets +onlyGivenNames v34
                  refine Within.cut (x := v34) ?_ (fun h35 => ?_)
                  · subst v34
                    refine Within.ite (fun _ => ?_) (fun _ => ?_)
                    · refine Within.step (rollOver_within _ _) rfl ?_
                      refine Within.step (onKeySlot_within _ _ _) rfl ?_
                      exact h33
                    · exact h33
                  · clear_value v34
                    refine Within.step (endPart_within _ _ _ _ _ _) rfl ?_
                    exact h35

theorem doCounterBlockOnFlash_within (k s) :
    Within [.free, .out, .bus, .evt, .cue, .hfe, .scn, .obj, .trl, .flc, .smg, .bob, .dmc, .tly, .scr, .saf, .dram, .slm] s
      (doCounterBlockOnFlash k s) := by
  unfold doCounterBlockOnFlash
  extract_lets +onlyGivenNames v0
  clear_value v0
  refine Within.ite (fun _ => ?_) (fun _ => ?_)
  · extract_lets +onlyGivenNames v2
    refine Within.cut (x := v2) ?_ (fun h3 => ?_)
    · subst v2
      refine Within.step (rollOver_within _ _) rfl ?_
      refine Within.step (blockOnFlash_within _ _) rfl ?_
      exact Within.refl _ _
    · clear_value v2
      refine Within.foldl (fun u4 a5 => ?_) ?_
      · refine Within.step (scrRun_within _ _ _) rfl ?_
        exact Within.refl _ _
      · refine Within.step (onKeySlot_within _ _ _) rfl ?_
        exact h3
  · exact Within.refl _ _

theorem doGcmEncrypt_within (h s) :
    Within [.free, .out, .bus, .evt, .cue, .hfe, .scn, .obj, .trl, .flc, .smg, .bob, .dmc, .tly, .scr, .saf, .dram, .slm] s
      (doGcmEncrypt h s) := by
  unfold doGcmEncrypt
  refine Within.step (scrRun_within _ _ _) rfl ?_
  exact Within.refl _ _

theorem doCmacGenerate_within (h s) :
    Within [.free, .out, .bus, .evt, .cue, .hfe, .scn, .obj, .trl, .flc, .smg, .bob, .dmc, .tly, .scr, .saf, .dram, .slm] s
      (doCmacGenerate h s) := by
  unfold doCmacGenerate
  refine Within.step (scrRun_within _ _ _) rfl ?_
  exact Within.refl _ _

theorem doCmacVerify_within (h s) :
    Within [.free, .out, .bus, .evt, .cue, .hfe, .scn, .obj, .trl, .flc, .smg, .bob, .dmc, .tly, .scr, .saf, .dram, .slm] s
      (doCmacVerify h s) := by
  unfold doCmacVerify
  refine Within.step (scrRun_within _ _ _) rfl ?_
  exact Within.refl _ _

theorem drainDerive_within (s) :
    Within [.out, .bus, .evt, .scr] s (drainDerive s) := by
  unfold drainDerive
  extract_lets +onlyGivenNames v0
  clear_value v0
  refine Within.foldl (fun u2 a3 => ?_) ?_
  · refine Within.ite (fun _ => ?_) (fun _ => ?_)
    · extract_lets +onlyGivenNames v4
      refine Within.cut (x := v4) ?_ (fun h5 => ?_)
      · subst v4
        refine Within.step (refuseDerive_within _ _) rfl ?_
        exact Within.refl _ _
      · clear_value v4
        refine Within.ite (fun _ => ?_) (fun _ => ?_)
        · refine Within.step (keyResult_within _ _ _) rfl ?_
          exact h5
        · exact h5
    · extract_lets +onlyGivenNames v6
      refine Within.cut (x := v6) ?_ (fun h7 => ?_)
      · subst v6
        refine Within.step (derive_within _ _ _) rfl ?_
        exact Within.refl _ _
      · clear_value v6
        refine Within.ite (fun _ => ?_) (fun _ => ?_)
        · refine Within.step (keyResult_within _ _ _) rfl ?_
          exact h7
        · exact h7
  · refine Within.step (onScr_within _ _) rfl ?_
    exact Within.refl _ _

theorem doEntropyHealthFail_within (s) :
    Within [.out, .bus, .evt, .scr] s (doEntropyHealthFail s) := by
  unfold doEntropyHealthFail
  refine Within.trans ?_ (onlyIf_within (by exact rfl) ?_)
  · exact Within.refl _ _
  · intro u0
    refine Within.step (raise_within _ _ _ _ _ _) rfl ?_
    refine Within.step (onScr_within _ _) rfl ?_
    exact Within.refl _ _

theorem doXtsDecrypt_within (h s) :
    Within [.free, .out, .bus, .evt, .cue, .hfe, .scn, .obj, .trl, .flc, .smg, .bob, .dmc, .tly, .scr, .saf, .dram, .slm] s
      (doXtsDecrypt h s) := by
  unfold doXtsDecrypt
  refine Within.step (scrRun_within _ _ _) rfl ?_
  exact Within.refl _ _

theorem doXtsEncrypt_within (h s) :
    Within [.free, .out, .bus, .evt, .cue, .hfe, .scn, .obj, .trl, .flc, .smg, .bob, .dmc, .tly, .scr, .saf, .dram, .slm] s
      (doXtsEncrypt h s) := by
  unfold doXtsEncrypt
  refine Within.step (scrRun_within _ _ _) rfl ?_
  exact Within.refl _ _

theorem injectKey_within (h tag kt key bitsIn secure s) :
    Within [.out, .bus, .evt, .cue, .hfe, .scn, .obj, .trl, .smg, .bob, .scr] s (injectKey h tag kt key bitsIn secure s) := by
  unfold injectKey
  split
  · rename_i w0 w1 w2
    extract_lets +onlyGivenNames v3
    clear_value v3
    refine Within.ite (fun _ => ?_) (fun _ => ?_)
    · refine Within.step (failCmd_within _ _ _ _) rfl ?_
      exact Within.refl _ _
    · refine Within.ite (fun _ => ?_) (fun _ => ?_)
      · refine Within.step (failCmd_within _ _ _ _) rfl ?_
        refine Within.step (raise_within _ _ _ _ _ _) rfl ?_
        exact Within.refl _ _
      · refine Within.step (endAtOnce_within _ _ _ _ _) rfl ?_
        refine Within.step (writeSlot_within _ _ _ _ _ _ _ _) rfl ?_
        exact Within.refl _ _
  · rename_i w5 w6
    refine Within.step (failCmd_within _ _ _ _) rfl ?_
    exact Within.refl _ _

theorem doGcmDecrypt_within (h s) :
    Within [.free, .out, .bus, .evt, .cue, .hfe, .scn, .obj, .trl, .flc, .smg, .bob, .dmc, .tly, .scr, .saf, .dram, .slm] s
      (doGcmDecrypt h s) := by
  unfold doGcmDecrypt
  refine Within.step (scrRun_within _ _ _) rfl ?_
  exact Within.refl _ _

theorem doEntropyRestartTimeout_within (s) :
    Within [.free, .out, .bus, .evt, .cue, .hfe, .scn, .obj, .trl, .flc, .smg, .bob, .tly, .scr, .slm] s (doEntropyRestartTimeout s)
      := by
  unfold doEntropyRestartTimeout
  refine Within.ite (fun _ => ?_) (fun _ => ?_)
  · refine Within.step (goOn_within _) rfl ?_
    refine Within.foldl (fun u0 a1 => ?_) ?_
    · refine Within.ite (fun _ => ?_) (fun _ => ?_)
      · refine Within.step (rollBack_within _ _ _) rfl ?_
        exact Within.refl _ _
      · exact Within.refl _ _
    · exact Within.refl _ _
  · exact Within.refl _ _

theorem doSecuritySend_within (h m s) :
    Within [.free, .out, .bus, .evt, .cue, .hfe, .scn, .obj, .trl, .flc, .smg, .bob, .dmc, .tly, .scr, .saf, .dram, .slm] s
      (doSecuritySend h m s) := by
  unfold doSecuritySend
  refine Within.trans ?_ (fetched_within (by exact rfl) ?_)
  · exact Within.refl _ _
  · intro u0
    extract_lets +onlyGivenNames v1
    clear_value v1
    split
    · rename_i w3 w4 w5 w6 w7
      refine Within.step (injectKey_within _ _ _ _ _ _ _) rfl ?_
      exact Within.refl _ _
    · rename_i w8 w9
      split
      · rename_i w10 w11 w12
        refine Within.ite (fun _ => ?_) (fun _ => ?_)
        · refine Within.step (endAtOnce_within _ _ _ _ _) rfl ?_
          refine Within.step (eraseSlot_within _ _) rfl ?_
          exact Within.refl _ _
        · refine Within.step (failCmd_within _ _ _ _) rfl ?_
          exact Within.refl _ _
      · rename_i w13 w14
        refine Within.step (failCmd_within _ _ _ _) rfl ?_
        exact Within.refl _ _
    · rename_i w15 w16 w17 w18
      split
      · rename_i w19 w20 w21
        refine Within.ite (fun _ => ?_) (fun _ => ?_)
        · refine Within.step (failCmd_within _ _ _ _) rfl ?_
          exact Within.refl _ _
        · split
          · rename_i w22 w23 w24
            refine Within.ite (fun _ => ?_) (fun _ => ?_)
            · refine Within.step (endAtOnce_within _ _ _ _ _) rfl ?_
              refine Within.step (writeSlot_within _ _ _ _ _ _ _ _) rfl ?_
              exact Within.refl _ _
            · refine Within.step (failCmd_within _ _ _ _) rfl ?_
              exact Within.refl _ _
          · rename_i w25 w26
            refine Within.ite (fun _ => ?_) (fun _ => ?_)
            · refine Within.step (endAtOnce_within _ _ _ _ _) rfl ?_
              refine Within.step (eraseSlot_within _ _) rfl ?_
              exact Within.refl _ _
            · refine Within.step (failCmd_within _ _ _ _) rfl ?_
              exact Within.refl _ _
      · rename_i w27 w28
        refine Within.step (failCmd_within _ _ _ _) rfl ?_
        exact Within.refl _ _
    · rename_i w29
      refine Within.step (failCmd_within _ _ _ _) rfl ?_
      exact Within.refl _ _

theorem doKeyDerivation_within (r s) :
    Within [.out, .bus, .evt, .scr] s (doKeyDerivation r s) := by
  unfold doKeyDerivation
  refine Within.ite (fun _ => ?_) (fun _ => ?_)
  · refine Within.trans ?_ (onlyIf_within (by exact rfl) ?_)
    · exact Within.refl _ _
    · intro u0
      refine Within.step (refuseDerive_within _ _) rfl ?_
      exact Within.refl _ _
  · refine Within.ite (fun _ => ?_) (fun _ => ?_)
    · refine Within.step (raise_within _ _ _ _ _ _) rfl ?_
      refine Within.step (count1_within _ _) rfl ?_
      refine Within.step (onScr_within _ _) rfl ?_
      exact Within.refl _ _
    · refine Within.step (derive_within _ _ _) rfl ?_
      exact Within.refl _ _

end Sys2Proof.Machine
end

