-- ==== Sys2Proof/Laws/FrameAsu.lean ====
section
/-! SUPPORT. What each operation of Machine/Asu.lean may change, and what it keeps. -/
namespace Sys2Proof.Machine

theorem onAsu_within (f s) :
    Within [.asu] s (onAsu f s) := by
  unfold onAsu
  refine Within.asu rfl ?_
  exact Within.refl _ _

theorem onAsuTab_within (t f s) :
    Within [.asu] s (onAsuTab t f s) := by
  unfold onAsuTab
  refine Within.step (onAsu_within _ _) rfl ?_
  exact Within.refl _ _

theorem repairEntry_within (t i s) :
    Within [.out, .bus, .evt, .asu] s (repairEntry t i s) := by
  unfold repairEntry
  extract_lets +onlyGivenNames v0
  clear_value v0
  extract_lets +onlyGivenNames v2
  refine Within.cut (x := v2) ?_ (fun h3 => ?_)
  · subst v2
    refine Within.step (onAsuTab_within _ _ _) rfl ?_
    exact Within.refl _ _
  · clear_value v2
    extract_lets +onlyGivenNames v4
    refine Within.cut (x := v4) ?_ (fun h5 => ?_)
    · subst v4
      refine Within.step (onAsu_within _ _) rfl ?_
      exact h3
    · clear_value v4
      refine Within.ite (fun _ => ?_) (fun _ => ?_)
      · refine Within.step (raise_within _ _ _ _ _ _) rfl ?_
        exact h5
      · exact h5

theorem asuAccess_within (t tag s) :
    Within [.out, .bus, .evt, .saf] s (asuAccess t tag s).2 := by
  unfold asuAccess
  refine Within.iteSnd (fun _ => ?_) (fun _ => ?_)
  · refine Within.mkSnd ?_
    exact Within.refl _ _
  · refine Within.iteSnd (fun _ => ?_) (fun _ => ?_)
    · refine Within.mkSnd ?_
      exact Within.refl _ _
    · refine Within.mkSnd ?_
      refine Within.step (refuseAt_within _ _ _ _) rfl ?_
      refine Within.step (raise_within _ _ _ _ _ _) rfl ?_
      exact Within.refl _ _

theorem asuHelper_within {l} (hF : Sub [.free, .out, .bus, .evt, .cue, .hfe, .scn, .obj, .trl, .flc, .smg, .bob, .tly, .scr, .saf,
      .slm] l) {h charge t work s} (hk3 : ∀ x0 x1 u, Within l u (work x0 x1 u).2) :
    Within l s (asuHelper h charge t work s) := by
  unfold asuHelper
  refine Within.ite (fun _ => ?_) (fun _ => ?_)
  · exact Within.refl _ _
  · refine Within.trans ?_ (helperOn_within (by exact (Sub.trans (by exact rfl) hF)) ?_)
    · exact Within.refl _ _
    · intro u0
      intro u1
      intro u2
      intro u3
      split
      · rename_i w4 w5 w6 w7 w8
        refine Within.cut (Within.ofEq w8 ?_) (fun h9 => ?_)
        · refine Within.step (asuAccess_within _ _ _) (Sub.trans (by exact rfl) hF) ?_
          exact Within.refl _ _
        split
        · rename_i w10 w11
          refine Within.mkSnd ?_
          exact h9
        · rename_i w12
          refine Within.trans ?_ (hk3 _ _ _)
          exact h9

theorem queueUpdate_within (t u s) :
    Within [.asu] s (queueUpdate t u s) := by
  unfold queueUpdate
  refine Within.step (onAsuTab_within _ _ _) rfl ?_
  exact Within.refl _ _

theorem doPqAsuDelete_within (h t index s) :
    Within [.free, .out, .bus, .evt, .cue, .hfe, .scn, .obj, .trl, .flc, .smg, .bob, .tly, .asu, .scr, .saf, .slm] s (doPqAsuDelete
      h t index s) := by
  unfold doPqAsuDelete
  refine Within.trans ?_ (asuHelper_within (by exact rfl) ?_)
  · exact Within.refl _ _
  · intro u0
    intro u1
    intro u2
    refine Within.mkSnd ?_
    refine Within.step (queueUpdate_within _ _ _) rfl ?_
    exact Within.refl _ _

theorem asuSearch_within (t tag key mask a4 a5 a6) :
    Within [.out, .bus, .evt, .asu] a6 (asuSearch t tag key mask a4 a5 a6).2 := by
  induction a4 generalizing t tag key mask a5 a6
  · rw [asuSearch]
    refine Within.mkSnd ?_
    refine Within.step (raise_within _ _ _ _ _ _) rfl ?_
    refine Within.step (count1_within _ _) rfl ?_
    exact Within.refl _ _
  · rename_i r0 r1
    rw [asuSearch]
    split
    · rename_i w0 w1
      refine Within.mkSnd ?_
      exact Within.refl _ _
    · rename_i w2 w3 w4 w5 w6
      refine Within.iteSnd (fun _ => ?_) (fun _ => ?_)
      · extract_lets +onlyGivenNames v7
        refine Within.cut (x := v7) ?_ (fun h8 => ?_)
        · subst v7
          refine Within.step (count1_within _ _) rfl ?_
          exact Within.refl _ _
        · clear_value v7
          refine Within.mkSnd ?_
          refine Within.ite (fun _ => ?_) (fun _ => ?_)
          · refine Within.step (count1_within _ _) rfl ?_
            exact h8
          · exact h8
      · refine Within.trans ?_ (r1 _ _ _ _ _ _)
        refine Within.step (raise_within _ _ _ _ _ _) rfl ?_
        refine Within.step (count1_within _ _) rfl ?_
        refine Within.step (repairEntry_within _ _ _) rfl ?_
        exact Within.refl _ _

theorem countedSearch_within (t tag key mask s) :
    Within [.out, .bus, .evt, .asu] s (countedSearch t tag key mask s).2 := by
  unfold countedSearch
  refine Within.step (asuSearch_within _ _ _ _ _ _ _) rfl ?_
  refine Within.step (count1_within _ _) rfl ?_
  exact Within.refl _ _

theorem scanStep_within (t tag src o l acc) :
    Within [.out, .bus, .evt, .asu] acc.2 (scanStep t tag src o l acc).2 := by
  unfold scanStep
  refine Within.iteSnd (fun _ => ?_) (fun _ => ?_)
  · exact Within.refl _ _
  · extract_lets +onlyGivenNames v0
    clear_value v0
    extract_lets +onlyGivenNames v2
    clear_value v2
    split
    · rename_i w4 w5 w6 w7 w8 w9
      refine Within.cut (Within.ofEq w9 ?_) (fun h10 => ?_)
      · refine Within.step (countedSearch_within _ _ _ _ _) rfl ?_
        exact Within.refl _ _
      split
      · rename_i w11 w12 w13 w14
        refine Within.mkSnd ?_
        exact h10
      · rename_i w15
        refine Within.mkSnd ?_
        exact h10
      · rename_i w16
        refine Within.mkSnd ?_
        exact h10

theorem reloadAsu_within (old s) :
    Within [.out, .bus, .evt, .asu] s (reloadAsu old s) := by
  unfold reloadAsu
  refine Within.foldl (fun u0 a1 => ?_) ?_
  · split
    · rename_i w2 w3 w4 w5 w6 w7
      refine Within.ite (fun _ => ?_) (fun _ => ?_)
      · refine Within.ite (fun _ => ?_) (fun _ => ?_)
        · refine Within.step (raise_within _ _ _ _ _ _) rfl ?_
          refine Within.step (onAsuTab_within _ _ _) rfl ?_
          exact Within.refl _ _
        · exact Within.refl _ _
      · refine Within.step (onAsu_within _ _) rfl ?_
        exact Within.refl _ _
    · rename_i w8 w9 w10
      refine Within.step (onAsu_within _ _) rfl ?_
      exact Within.refl _ _
  · exact Within.refl _ _

theorem stepWalk_within (s) :
    Within [.asu] s (stepWalk s) := by
  unfold stepWalk
  refine Within.ite (fun _ => ?_) (fun _ => ?_)
  · refine Within.step (onAsu_within _ _) rfl ?_
    exact Within.refl _ _
  · extract_lets +onlyGivenNames v0
    clear_value v0
    split
    · rename_i w2 w3 w4
      refine Within.step (onAsu_within _ _) rfl ?_
      exact Within.refl _ _
    · rename_i w5 w6
      extract_lets +onlyGivenNames v7
      clear_value v7
      refine Within.step (onAsu_within _ _) rfl ?_
      exact Within.refl _ _

theorem upsetBanks_within (t l s) :
    Within [.asu] s (upsetBanks t l s) := by
  unfold upsetBanks
  refine Within.step (onAsuTab_within _ _ _) rfl ?_
  exact Within.refl _ _

theorem doAsuWalk_within (upset s) :
    Within [.out, .bus, .evt, .asu] s (doAsuWalk upset s) := by
  unfold doAsuWalk
  refine Within.ite (fun _ => ?_) (fun _ => ?_)
  · exact Within.refl _ _
  · split
    · rename_i w0 w1 w2
      refine Within.ite (fun _ => ?_) (fun _ => ?_)
      · exact Within.refl _ _
      · refine Within.step (stepWalk_within _) rfl ?_
        refine Within.step (onAsu_within _ _) rfl ?_
        exact Within.refl _ _
    · rename_i w3 w4 w5 w6 w7
      extract_lets +onlyGivenNames v8
      extract_lets +onlyGivenNames v10
      refine Within.cut (x := v10) ?_ (fun h11 => ?_)
      · subst v10
        split
        · rename_i w12 w13
          refine Within.step (upsetBanks_within _ _ _) rfl ?_
          exact Within.refl _ _
        · rename_i w14
          exact Within.refl _ _
      · extract_lets +onlyGivenNames v15
        refine Within.ite (fun _ => ?_) (fun _ => ?_)
        · exact h11
        · refine Within.step (stepWalk_within _) rfl ?_
          refine Within.ite (fun _ => ?_) (fun _ => ?_)
          · exact h11
          · refine Within.step (raise_within _ _ _ _ _ _) rfl ?_
            refine Within.step (count1_within _ _) rfl ?_
            refine Within.step (repairEntry_within _ _ _) rfl ?_
            exact h11

theorem answerInv_within (h r s) :
    Within [.bob] s (answerInv h r s) := by
  unfold answerInv
  refine Within.step (onBob_within _ _) rfl ?_
  exact Within.refl _ _

theorem runScan_within (t tag src s) :
    Within [.out, .bus, .evt, .asu] s (runScan t tag src s).2 := by
  unfold runScan
  extract_lets +onlyGivenNames v0
  clear_value v0
  refine Within.foldlSnd (fun u2 a3 => ?_) ?_
  · refine Within.foldlSnd (fun u4 a5 => ?_) ?_
    · refine Within.iteSnd (fun _ => ?_) (fun _ => ?_)
      · refine Within.step (scanStep_within _ _ _ _ _ _) rfl ?_
        exact Within.refl _ _
      · exact Within.refl _ _
    · exact Within.refl _ _
  · refine Within.mkSnd ?_
    exact Within.refl _ _

theorem endMove_within (t m s) :
    Within [.bob, .asu] s (endMove t m s) := by
  unfold endMove
  extract_lets +onlyGivenNames v0
  refine Within.cut (x := v0) ?_ (fun h1 => ?_)
  · subst v0
    refine Within.step (onAsuTab_within _ _ _) rfl ?_
    exact Within.refl _ _
  · clear_value v0
    refine Within.step (answerInv_within _ _ _) rfl ?_
    exact h1

theorem doPqAsuInsert_within (h t entry pos s) :
    Within [.free, .out, .bus, .evt, .cue, .hfe, .scn, .obj, .trl, .flc, .smg, .bob, .tly, .asu, .scr, .saf, .slm] s (doPqAsuInsert
      h t entry pos s) := by
  unfold doPqAsuInsert
  refine Within.trans ?_ (asuHelper_within (by exact rfl) ?_)
  · exact Within.refl _ _
  · intro u0
    intro u1
    intro u2
    refine Within.iteSnd (fun _ => ?_) (fun _ => ?_)
    · refine Within.mkSnd ?_
      exact Within.refl _ _
    · extract_lets +onlyGivenNames v3
      clear_value v3
      refine Within.mkSnd ?_
      refine Within.step (queueUpdate_within _ _ _) rfl ?_
      exact Within.refl _ _

theorem stepMove_within (t s) :
    Within [.bus, .bob, .asu] s (stepMove t s) := by
  unfold stepMove
  split
  · rename_i w0 w1
    exact Within.refl _ _
  · rename_i w2 w3 w4
    refine Within.ite (fun _ => ?_) (fun _ => ?_)
    · refine Within.step (endMove_within _ _ _) rfl ?_
      exact Within.refl _ _
    · extract_lets +onlyGivenNames v5
      clear_value v5
      split
      · rename_i w7 w8 w9 w10 w11
        refine Within.step (count1_within _ _) rfl ?_
        refine Within.step (onAsuTab_within _ _ _) rfl ?_
        exact Within.refl _ _

theorem asuTick_within (s) :
    Within [.bus, .bob, .asu] s (asuTick s) := by
  unfold asuTick
  refine Within.foldl (fun u0 a1 => ?_) ?_
  · refine Within.ite (fun _ => ?_) (fun _ => ?_)
    · refine Within.step (stepMove_within _ _) rfl ?_
      exact Within.refl _ _
    · exact Within.refl _ _
  · exact Within.refl _ _

theorem doPqAsuScan_within (h t src cap upsets s) :
    Within [.free, .out, .bus, .evt, .cue, .hfe, .scn, .obj, .trl, .flc, .smg, .bob, .tly, .asu, .scr, .saf, .slm] s (doPqAsuScan h
      t src cap upsets s) := by
  unfold doPqAsuScan
  refine Within.trans ?_ (asuHelper_within (by exact rfl) ?_)
  · exact Within.refl _ _
  · intro u0
    intro u1
    intro u2
    refine Within.iteSnd (fun _ => ?_) (fun _ => ?_)
    · refine Within.mkSnd ?_
      exact Within.refl _ _
    · split
      · rename_i w3 w4 w5 w6 w7
        refine Within.cut (Within.ofEq w7 ?_) (fun h8 => ?_)
        · refine Within.step (runScan_within _ _ _ _) rfl ?_
          refine Within.step (upsetBanks_within _ _ _) rfl ?_
          exact Within.refl _ _
        refine Within.iteSnd (fun _ => ?_) (fun _ => ?_)
        · refine Within.mkSnd ?_
          exact h8
        · refine Within.iteSnd (fun _ => ?_) (fun _ => ?_)
          · refine Within.mkSnd ?_
            exact h8
          · refine Within.mkSnd ?_
            refine Within.step (raise_within _ _ _ _ _ _) rfl ?_
            refine Within.step (count1_within _ _) rfl ?_
            exact h8

theorem doPqAsuSearch_within (h t key mask upsets s) :
    Within [.free, .out, .bus, .evt, .cue, .hfe, .scn, .obj, .trl, .flc, .smg, .bob, .tly, .asu, .scr, .saf, .slm] s (doPqAsuSearch
      h t key mask upsets s) := by
  unfold doPqAsuSearch
  refine Within.trans ?_ (asuHelper_within (by exact rfl) ?_)
  · exact Within.refl _ _
  · intro u0
    intro u1
    intro u2
    extract_lets +onlyGivenNames v3
    clear_value v3
    split
    · rename_i w5 w6 w7 w8 w9
      refine Within.cut (Within.ofEq w9 ?_) (fun h10 => ?_)
      · refine Within.step (countedSearch_within _ _ _ _ _) rfl ?_
        refine Within.step (upsetBanks_within _ _ _) rfl ?_
        exact Within.refl _ _
      split
      · rename_i w11
        refine Within.mkSnd ?_
        exact h10
      · rename_i w12 w13 w14 w15
        refine Within.mkSnd ?_
        exact h10
      · rename_i w16
        refine Within.mkSnd ?_
        exact h10

theorem startMove_within (t m s) :
    Within [.bus, .bob, .asu] s (startMove t m s) := by
  unfold startMove
  extract_lets +onlyGivenNames v0
  refine Within.cut (x := v0) ?_ (fun h1 => ?_)
  · subst v0
    refine Within.step (onAsuTab_within _ _ _) rfl ?_
    exact Within.refl _ _
  · clear_value v0
    refine Within.ite (fun _ => ?_) (fun _ => ?_)
    · refine Within.step (stepMove_within _ _) rfl ?_
      exact h1
    · exact h1

theorem beginUpdate_within (t limit owner u s) :
    Within [.out, .bus, .evt, .bob, .asu] s (beginUpdate t limit owner u s) := by
  unfold beginUpdate
  extract_lets +onlyGivenNames v0
  clear_value v0
  split
  · rename_i w2 w3 w4
    extract_lets +onlyGivenNames v5
    clear_value v5
    refine Within.ite (fun _ => ?_) (fun _ => ?_)
    · refine Within.step (answerInv_within _ _ _) rfl ?_
      refine Within.step (raise_within _ _ _ _ _ _) rfl ?_
      exact Within.refl _ _
    · refine Within.ite (fun _ => ?_) (fun _ => ?_)
      · refine Within.step (answerInv_within _ _ _) rfl ?_
        exact Within.refl _ _
      · refine Within.step (startMove_within _ _ _) rfl ?_
        exact Within.refl _ _
  · rename_i w7 w8
    refine Within.ite (fun _ => ?_) (fun _ => ?_)
    · refine Within.step (answerInv_within _ _ _) rfl ?_
      exact Within.refl _ _
    · refine Within.step (startMove_within _ _ _) rfl ?_
      exact Within.refl _ _

theorem doAsuUpdateStart_within (t s) :
    Within [.out, .bus, .evt, .bob, .asu] s (doAsuUpdateStart t s) := by
  unfold doAsuUpdateStart
  split
  · rename_i w0 w1 w2 w3 w4 w5 w6 w7 w8
    refine Within.ite (fun _ => ?_) (fun _ => ?_)
    · refine Within.step (beginUpdate_within _ _ _ _ _) rfl ?_
      refine Within.step (onAsuTab_within _ _ _) rfl ?_
      exact Within.refl _ _
    · exact Within.refl _ _
  · rename_i w9 w10 w11 w12
    exact Within.refl _ _

end Sys2Proof.Machine
end

