-- ==== Sys2Proof/Laws/FrameServo.lean ====
section
/-! SUPPORT. What each operation of Machine/Servo.lean may change, and what it keeps. -/
namespace Sys2Proof.Machine

theorem onSlot_within (n f s) :
    Within [.hop] s (onSlot n f s) := by
  unfold onSlot
  refine Within.hop rfl ?_
  exact Within.refl _ _

theorem queueFrame_within (f s) :
    Within [.hop] s (queueFrame f s) := by
  unfold queueFrame
  extract_lets +onlyGivenNames v0
  clear_value v0
  extract_lets +onlyGivenNames v2
  clear_value v2
  refine Within.hop rfl ?_
  exact Within.refl _ _

theorem onAct_within (a f s) :
    Within [.rch] s (onAct a f s) := by
  unfold onAct
  refine Within.rch rfl ?_
  exact Within.refl _ _

theorem startReadBack_within (band slot gran s) :
    Within [.flc] s (startReadBack band slot gran s) := by
  unfold startReadBack
  extract_lets +onlyGivenNames v0
  clear_value v0
  refine Within.flc rfl ?_
  exact Within.refl _ _

theorem retireBand_within (band s) :
    Within [.out, .bus, .evt, .trl] s (retireBand band s) := by
  unfold retireBand
  split
  · rename_i w0 w1
    exact Within.refl _ _
  · rename_i w2 w3 w4
    extract_lets +onlyGivenNames v5
    refine Within.cut (x := v5) ?_ (fun h6 => ?_)
    · subst v5
      refine Within.step (raiseObj_within _ _ _ _) rfl ?_
      exact Within.refl _ _
    · clear_value v5
      extract_lets +onlyGivenNames v7
      clear_value v7
      extract_lets +onlyGivenNames v9
      clear_value v9
      extract_lets +onlyGivenNames v11
      clear_value v11
      extract_lets +onlyGivenNames v13
      clear_value v13
      refine Within.trl rfl ?_
      exact h6

theorem dropGate_within (a s) :
    Within [.out, .bus, .evt, .trl, .flc, .rch] s (dropGate a s) := by
  unfold dropGate
  extract_lets +onlyGivenNames v0
  clear_value v0
  split
  · rename_i w2 w3
    refine Within.step (onAct_within _ _ _) rfl ?_
    exact Within.refl _ _
  · rename_i w4 w5 w6
    split
    · rename_i w7 w8 w9 w10 w11
      extract_lets +onlyGivenNames v12
      clear_value v12
      extract_lets +onlyGivenNames v14
      refine Within.cut (x := v14) ?_ (fun h15 => ?_)
      · subst v14
        refine Within.step (countUp_within _ _ _) rfl ?_
        exact Within.refl _ _
      · clear_value v14
        extract_lets +onlyGivenNames v16
        clear_value v16
        extract_lets +onlyGivenNames v18
        refine Within.cut (x := v18) ?_ (fun h19 => ?_)
        · subst v18
          refine Within.step (onAct_within _ _ _) rfl ?_
          exact h15
        · clear_value v18
          split
          · rename_i w20 w21
            exact h19
          · rename_i w22 w23 w24
            extract_lets +onlyGivenNames v25
            clear_value v25
            extract_lets +onlyGivenNames v27
            clear_value v27
            extract_lets +onlyGivenNames v29
            clear_value v29
            extract_lets +onlyGivenNames v31
            refine Within.cut (x := v31) ?_ (fun h32 => ?_)
            · subst v31
              refine Within.trl rfl ?_
              exact h19
            · clear_value v31
              extract_lets +onlyGivenNames v33
              refine Within.cut (x := v33) ?_ (fun h34 => ?_)
              · subst v33
                refine Within.foldl (fun u35 a36 => ?_) ?_
                · refine Within.step (startReadBack_within _ _ _ _) rfl ?_
                  exact Within.refl _ _
                · exact h32
              · clear_value v33
                refine Within.ite (fun _ => ?_) (fun _ => ?_)
                · refine Within.step (retireBand_within _ _) rfl ?_
                  exact h34
                · exact h34

theorem stopSlot_within (n s) :
    Within [.hop] s (stopSlot n s) := by
  unfold stopSlot
  refine Within.step (onSlot_within _ _ _) rfl ?_
  exact Within.refl _ _

theorem parkFrame_within (all a cause s) :
    Within [.out, .bus, .evt, .trl, .flc, .rch, .hop] s (parkFrame all a cause s) := by
  unfold parkFrame
  extract_lets +onlyGivenNames v0
  clear_value v0
  refine Within.ite (fun _ => ?_) (fun _ => ?_)
  · exact Within.refl _ _
  · extract_lets +onlyGivenNames v2
    refine Within.cut (x := v2) ?_ (fun h3 => ?_)
    · subst v2
      refine Within.step (onAct_within _ _ _) rfl ?_
      refine Within.step (count1_within _ _) rfl ?_
      exact Within.refl _ _
    · clear_value v2
      refine Within.ite (fun _ => ?_) (fun _ => ?_)
      · exact h3
      · extract_lets +onlyGivenNames v4
        refine Within.cut (x := v4) ?_ (fun h5 => ?_)
        · subst v4
          refine Within.step (raise_within _ _ _ _ _ _) rfl ?_
          refine Within.step (dropGate_within _ _) rfl ?_
          exact h3
        · clear_value v4
          extract_lets +onlyGivenNames v6
          refine Within.cut (x := v6) ?_ (fun h7 => ?_)
          · subst v6
            refine Within.foldl (fun u8 a9 => ?_) ?_
            · refine Within.step (onSlot_within _ _ _) rfl ?_
              refine Within.step (stopSlot_within _ _) rfl ?_
              exact Within.refl _ _
            · exact h5
          · clear_value v6
            extract_lets +onlyGivenNames v10
            clear_value v10
            extract_lets +onlyGivenNames v12
            refine Within.cut (x := v12) ?_ (fun h13 => ?_)
            · subst v12
              refine Within.hop rfl ?_
              exact h7
            · clear_value v12
              extract_lets +onlyGivenNames v14
              refine Within.cut (x := v14) ?_ (fun h15 => ?_)
              · subst v14
                refine Within.step (onAct_within _ _ _) rfl ?_
                exact h13
              · clear_value v14
                refine Within.ite (fun _ => ?_) (fun _ => ?_)
                · exact h15
                · refine Within.hop rfl ?_
                  exact h15

theorem park_within (a cause s) :
    Within [.out, .bus, .evt, .trl, .flc, .rch, .hop] s (park a cause s) := by
  unfold park
  refine Within.step (parkFrame_within _ _ _ _) rfl ?_
  exact Within.refl _ _

theorem goOffline_within (a s) :
    Within [.out, .bus, .evt, .rch] s (goOffline a s) := by
  unfold goOffline
  refine Within.ite (fun _ => ?_) (fun _ => ?_)
  · exact Within.refl _ _
  · refine Within.step (raiseObj_within _ _ _ _) rfl ?_
    refine Within.step (onAct_within _ _ _) rfl ?_
    exact Within.refl _ _

theorem parkAll_within (cause s) :
    Within [.out, .bus, .evt, .trl, .flc, .rch, .hop] s (parkAll cause s) := by
  unfold parkAll
  refine Within.foldl (fun u0 a1 => ?_) ?_
  · refine Within.step (park_within _ _ _) rfl ?_
    exact Within.refl _ _
  · exact Within.refl _ _

theorem startResume_within (a s) :
    Within [.rch, .hop] s (startResume a s) := by
  unfold startResume
  refine Within.step (queueFrame_within _ _) rfl ?_
  refine Within.step (onAct_within _ _ _) rfl ?_
  exact Within.refl _ _

theorem enableSlot_within (n s) :
    Within [.hop] s (enableSlot n s) := by
  unfold enableSlot
  refine Within.step (onSlot_within _ _ _) rfl ?_
  exact Within.refl _ _

theorem preampFault_within (a s) :
    Within [.out, .bus, .evt, .trl, .flc, .rch, .hop] s (preampFault a s) := by
  unfold preampFault
  refine Within.ite (fun _ => ?_) (fun _ => ?_)
  · exact Within.refl _ _
  · extract_lets +onlyGivenNames v0
    clear_value v0
    extract_lets +onlyGivenNames v2
    refine Within.cut (x := v2) ?_ (fun h3 => ?_)
    · subst v2
      refine Within.step (onAct_within _ _ _) rfl ?_
      refine Within.step (park_within _ _ _) rfl ?_
      exact Within.refl _ _
    · clear_value v2
      refine Within.ite (fun _ => ?_) (fun _ => ?_)
      · refine Within.step (goOffline_within _ _) rfl ?_
        exact h3
      · exact h3

theorem parkForLoss_within (s) :
    Within [.out, .bus, .evt, .trl, .flc, .rch, .hop] s (parkForLoss s) := by
  unfold parkForLoss
  extract_lets +onlyGivenNames v0
  refine Within.cut (x := v0) ?_ (fun h1 => ?_)
  · subst v0
    refine Within.foldl (fun u2 a3 => ?_) ?_
    · refine Within.step (parkFrame_within _ _ _ _) rfl ?_
      exact Within.refl _ _
    · exact Within.refl _ _
  · clear_value v0
    refine Within.hop rfl ?_
    exact h1

theorem linkFault_within (s) :
    Within [.out, .bus, .evt, .trl, .flc, .rch, .hop] s (linkFault s) := by
  unfold linkFault
  extract_lets +onlyGivenNames v0
  clear_value v0
  extract_lets +onlyGivenNames v2
  clear_value v2
  extract_lets +onlyGivenNames v4
  refine Within.cut (x := v4) ?_ (fun h5 => ?_)
  · subst v4
    refine Within.foldl (fun u6 a7 => ?_) ?_
    · extract_lets +onlyGivenNames v8
      refine Within.cut (x := v8) ?_ (fun h9 => ?_)
      · subst v8
        refine Within.step (parkFrame_within _ _ _ _) rfl ?_
        exact Within.refl _ _
      · clear_value v8
        refine Within.ite (fun _ => ?_) (fun _ => ?_)
        · refine Within.step (onAct_within _ _ _) rfl ?_
          exact h9
        · exact h9
    · exact Within.refl _ _
  · clear_value v4
    extract_lets +onlyGivenNames v10
    refine Within.cut (x := v10) ?_ (fun h11 => ?_)
    · subst v10
      refine Within.step (stopSlot_within _ _) rfl ?_
      exact h5
    · clear_value v10
      refine Within.step (raise_within _ _ _ _ _ _) rfl ?_
      refine Within.hop rfl ?_
      exact h11

theorem parkDone_within (a s) :
    Within [.out, .bus, .evt, .rch, .hop] s (parkDone a s) := by
  unfold parkDone
  extract_lets +onlyGivenNames v0
  clear_value v0
  refine Within.ite (fun _ => ?_) (fun _ => ?_)
  · extract_lets +onlyGivenNames v2
    refine Within.cut (x := v2) ?_ (fun h3 => ?_)
    · subst v2
      refine Within.step (raiseObj_within _ _ _ _) rfl ?_
      refine Within.step (onAct_within _ _ _) rfl ?_
      exact Within.refl _ _
    · clear_value v2
      refine Within.ite (fun _ => ?_) (fun _ => ?_)
      · refine Within.step (startResume_within _ _) rfl ?_
        exact h3
      · exact h3
  · exact Within.refl _ _

theorem linkUp_within (s) :
    Within [.rch, .hop] s (linkUp s) := by
  unfold linkUp
  extract_lets +onlyGivenNames v0
  clear_value v0
  extract_lets +onlyGivenNames v2
  clear_value v2
  extract_lets +onlyGivenNames v4
  refine Within.cut (x := v4) ?_ (fun h5 => ?_)
  · subst v4
    refine Within.hop rfl ?_
    exact Within.refl _ _
  · clear_value v4
    refine Within.foldl (fun u6 a7 => ?_) ?_
    · extract_lets +onlyGivenNames v8
      clear_value v8
      refine Within.ite (fun _ => ?_) (fun _ => ?_)
      · refine Within.step (startResume_within _ _) rfl ?_
        exact Within.refl _ _
      · exact Within.refl _ _
    · exact h5

end Sys2Proof.Machine
end

