-- ==== Sys2Proof/Laws/FramePlatter.lean ====
section
/-! SUPPORT. What each operation of Machine/Platter.lean may change, and what it keeps. -/
namespace Sys2Proof.Machine

theorem onLane_within (a l f s) :
    Within [.rch] s (onLane a l f s) := by
  unfold onLane
  refine Within.step (onAct_within _ _ _) rfl ?_
  exact Within.refl _ _

theorem startCalibration_within (a l temp s) :
    Within [.rch] s (startCalibration a l temp s) := by
  unfold startCalibration
  extract_lets +onlyGivenNames v0
  clear_value v0
  refine Within.ite (fun _ => ?_) (fun _ => ?_)
  · exact Within.refl _ _
  · refine Within.step (onAct_within _ _ _) rfl ?_
    refine Within.step (onLane_within _ _ _ _) rfl ?_
    exact Within.refl _ _

theorem doRchCalibrateL0_within (a s) :
    Within [.rch] s (doRchCalibrateL0 a s) := by
  unfold doRchCalibrateL0
  refine Within.trans ?_ (onlyIf_within (by exact rfl) ?_)
  · exact Within.refl _ _
  · intro u0
    refine Within.step (startCalibration_within _ _ _ _) rfl ?_
    exact Within.refl _ _

theorem doRchCalibrateL1_within (a s) :
    Within [.rch] s (doRchCalibrateL1 a s) := by
  unfold doRchCalibrateL1
  refine Within.trans ?_ (onlyIf_within (by exact rfl) ?_)
  · exact Within.refl _ _
  · intro u0
    refine Within.step (startCalibration_within _ _ _ _) rfl ?_
    exact Within.refl _ _

theorem doRchPark_within (a s) :
    Within [.out, .bus, .evt, .trl, .flc, .rch, .hop] s (doRchPark a s) := by
  unfold doRchPark
  refine Within.trans ?_ (onlyIf_within (by exact rfl) ?_)
  · exact Within.refl _ _
  · intro u0
    refine Within.step (park_within _ _ _) rfl ?_
    exact Within.refl _ _

theorem doRchResume_within (a s) :
    Within [.rch, .hop] s (doRchResume a s) := by
  unfold doRchResume
  extract_lets +onlyGivenNames v0
  clear_value v0
  refine Within.ite (fun _ => ?_) (fun _ => ?_)
  · exact Within.refl _ _
  · refine Within.ite (fun _ => ?_) (fun _ => ?_)
    · refine Within.step (onAct_within _ _ _) rfl ?_
      exact Within.refl _ _
    · refine Within.ite (fun _ => ?_) (fun _ => ?_)
      · refine Within.step (startResume_within _ _) rfl ?_
        exact Within.refl _ _
      · exact Within.refl _ _

theorem doRchOffline_within (a s) :
    Within [.out, .bus, .evt, .rch] s (doRchOffline a s) := by
  unfold doRchOffline
  refine Within.trans ?_ (onlyIf_within (by exact rfl) ?_)
  · exact Within.refl _ _
  · intro u0
    refine Within.step (goOffline_within _ _) rfl ?_
    exact Within.refl _ _

theorem doRchPaCmd_within (a val s) :
    Within [.rch] s (doRchPaCmd a val s) := by
  unfold doRchPaCmd
  extract_lets +onlyGivenNames v0
  clear_value v0
  refine Within.ite (fun _ => ?_) (fun _ => ?_)
  · exact Within.refl _ _
  · refine Within.ite (fun _ => ?_) (fun _ => ?_)
    · refine Within.step (onAct_within _ _ _) rfl ?_
      exact Within.refl _ _
    · refine Within.step (onAct_within _ _ _) rfl ?_
      exact Within.refl _ _

theorem countAdjacent_within (band r s) :
    Within [.trl] s (countAdjacent band r s) := by
  unfold countAdjacent
  split
  · rename_i w0 w1
    exact Within.refl _ _
  · rename_i w2 w3 w4
    split
    · rename_i w5 w6
      exact Within.refl _ _
    · rename_i w7 w8 w9
      extract_lets +onlyGivenNames v10
      clear_value v10
      extract_lets +onlyGivenNames v12
      clear_value v12
      extract_lets +onlyGivenNames v14
      clear_value v14
      refine Within.trl rfl ?_
      exact Within.refl _ _

theorem doWriteRunEnd_within (a s) :
    Within [.free, .out, .bus, .evt, .cue, .hfe, .scn, .obj, .trl, .flc, .rch, .smg, .bob, .tly, .scr, .slm] s (doWriteRunEnd a s)
      := by
  unfold doWriteRunEnd
  split
  · rename_i w0 w1
    exact Within.refl _ _
  · rename_i w2 w3 w4
    extract_lets +onlyGivenNames v5
    refine Within.cut (x := v5) ?_ (fun h6 => ?_)
    · subst v5
      refine Within.step (onAct_within _ _ _) rfl ?_
      exact Within.refl _ _
    · clear_value v5
      extract_lets +onlyGivenNames v7
      clear_value v7
      extract_lets +onlyGivenNames v9
      refine Within.cut (x := v9) ?_ (fun h10 => ?_)
      · subst v9
        refine Within.trl rfl ?_
        exact h6
      · clear_value v9
        refine Within.step (goOn_within _) rfl ?_
        refine Within.step (commitPlatterCopies_within _ _) rfl ?_
        refine Within.step (countAdjacent_within _ _ _) rfl ?_
        exact h10

theorem unlockLane_within (a s) :
    Within [.out, .bus, .evt, .rch] s (unlockLane a s) := by
  unfold unlockLane
  refine Within.step (raiseObj_within _ _ _ _) rfl ?_
  refine Within.step (onAct_within _ _ _) rfl ?_
  exact Within.refl _ _

theorem fireReadGate_within (a l g s) :
    Within [.out, .bus, .evt, .rch] s (fireReadGate a l g s) := by
  unfold fireReadGate
  extract_lets +onlyGivenNames v0
  clear_value v0
  refine Within.ite (fun _ => ?_) (fun _ => ?_)
  · exact Within.refl _ _
  · refine Within.ite (fun _ => ?_) (fun _ => ?_)
    · refine Within.step (count1_within _ _) rfl ?_
      refine Within.step (raiseObj_within _ _ _ _) rfl ?_
      exact Within.refl _ _
    · split
      · rename_i w2 w3 w4 w5 w6
        refine Within.step (onLane_within _ _ _ _) rfl ?_
        exact Within.refl _ _
      · rename_i w7 w8 w9 w10
        exact Within.refl _ _

theorem takeDecoder_within (d rid s) :
    Within [.flc] s (takeDecoder d rid s) := by
  unfold takeDecoder
  refine Within.flc rfl ?_
  exact Within.refl _ _

theorem fireReserve_within (a l s) :
    Within [.flc, .rch] s (fireReserve a l s) := by
  unfold fireReserve
  split
  · rename_i w0 w1
    exact Within.refl _ _
  · rename_i w2 w3 w4
    split
    · rename_i w5 w6 w7 w8
      refine Within.step (takeDecoder_within _ _ _) rfl ?_
      refine Within.step (onLane_within _ _ _ _) rfl ?_
      exact Within.refl _ _
    · rename_i w9 w10
      refine Within.flc rfl ?_
      exact Within.refl _ _

theorem fireWriteRun_within (a g n s) :
    Within [.rch] s (fireWriteRun a g n s) := by
  unfold fireWriteRun
  extract_lets +onlyGivenNames v0
  clear_value v0
  refine Within.ite (fun _ => ?_) (fun _ => ?_)
  · exact Within.refl _ _
  · split
    · rename_i w2 w3 w4
      exact Within.refl _ _
    · rename_i w5 w6 w7 w8 w9
      extract_lets +onlyGivenNames v10
      clear_value v10
      extract_lets +onlyGivenNames v12
      clear_value v12
      extract_lets +onlyGivenNames v14
      clear_value v14
      refine Within.step (onAct_within _ _ _) rfl ?_
      exact Within.refl _ _

theorem fireSample_within (a s) :
    Within [.rch] s (fireSample a s) := by
  unfold fireSample
  refine Within.step (onAct_within _ _ _) rfl ?_
  exact Within.refl _ _

theorem doRelockTimeout_within (a s) :
    Within [.out, .bus, .evt, .trl, .flc, .rch, .hop] s (doRelockTimeout a s) := by
  unfold doRelockTimeout
  split
  · rename_i w0 w1 w2
    refine Within.ite (fun _ => ?_) (fun _ => ?_)
    · refine Within.step (preampFault_within _ _) rfl ?_
      refine Within.step (onAct_within _ _ _) rfl ?_
      exact Within.refl _ _
    · exact Within.refl _ _
  · rename_i w3 w4
    exact Within.refl _ _

theorem doPreampFrameDone_within (a data mismatch s) :
    Within [.out, .bus, .evt, .trl, .flc, .rch, .hop] s (doPreampFrameDone a data mismatch s) := by
  unfold doPreampFrameDone
  split
  · rename_i w0 w1
    exact Within.refl _ _
  · rename_i w2 w3 w4 w5
    refine Within.ite (fun _ => ?_) (fun _ => ?_)
    · exact Within.refl _ _
    · refine Within.ite (fun _ => ?_) (fun _ => ?_)
      · extract_lets +onlyGivenNames v6
        refine Within.cut (x := v6) ?_ (fun h7 => ?_)
        · subst v6
          refine Within.step (raiseObj_within _ _ _ _) rfl ?_
          exact Within.refl _ _
        · clear_value v6
          refine Within.ite (fun _ => ?_) (fun _ => ?_)
          · refine Within.step (onAct_within _ _ _) rfl ?_
            exact h7
          · refine Within.step (preampFault_within _ _) rfl ?_
            refine Within.step (onAct_within _ _ _) rfl ?_
            exact h7
      · split
        · rename_i w8 w9 w10 w11 w12
          refine Within.step (onAct_within _ _ _) rfl ?_
          exact Within.refl _ _
        · rename_i w13 w14 w15 w16 w17 w18
          refine Within.step (onAct_within _ _ _) rfl ?_
          exact Within.refl _ _

theorem guardWedge_within (a pes s) :
    Within [.out, .bus, .evt, .trl, .flc, .rch] s (guardWedge a pes s) := by
  unfold guardWedge
  extract_lets +onlyGivenNames v0
  clear_value v0
  refine Within.ite (fun _ => ?_) (fun _ => ?_)
  · refine Within.ite (fun _ => ?_) (fun _ => ?_)
    · refine Within.step (dropGate_within _ _) rfl ?_
      refine Within.step (count1_within _ _) rfl ?_
      refine Within.step (raiseObj_within _ _ _ _) rfl ?_
      exact Within.refl _ _
    · exact Within.refl _ _
  · extract_lets +onlyGivenNames v2
    clear_value v2
    refine Within.step (onAct_within _ _ _) rfl ?_
    exact Within.refl _ _

theorem doLaneCalibrationDue_within (a l temp s) :
    Within [.rch] s (doLaneCalibrationDue a l temp s) := by
  unfold doLaneCalibrationDue
  extract_lets +onlyGivenNames v0
  clear_value v0
  extract_lets +onlyGivenNames v2
  clear_value v2
  refine Within.trans ?_ (onlyIf_within (by exact rfl) ?_)
  · exact Within.refl _ _
  · intro u4
    refine Within.step (startCalibration_within _ _ _ _) rfl ?_
    exact Within.refl _ _

theorem doOfflineWaitExpiry_within (rid s) :
    Within [.free, .out, .bus, .evt, .cue, .hfe, .scn, .obj, .trl, .flc, .smg, .bob, .tly, .scr, .slm] s (doOfflineWaitExpiry rid s)
      := by
  unfold doOfflineWaitExpiry
  split
  · rename_i w0 w1 w2
    split
    · rename_i w3 w4 w5 w6
      split
      · rename_i w7 w8 w9
        refine Within.ite (fun _ => ?_) (fun _ => ?_)
        · refine Within.step (endMediaRd_within _ _ _) rfl ?_
          refine Within.step (failRead_within _ _) rfl ?_
          exact Within.refl _ _
        · exact Within.refl _ _
      · rename_i w10 w11
        exact Within.refl _ _
    · rename_i w12 w13
      exact Within.refl _ _
  · rename_i w14 w15
    exact Within.refl _ _

theorem doPreampFault_within (a ns s) :
    Within [.out, .bus, .evt, .trl, .flc, .rch, .hop] s (doPreampFault a ns s) := by
  unfold doPreampFault
  refine Within.trans ?_ (onlyIf_within (by exact rfl) ?_)
  · exact Within.refl _ _
  · intro u0
    refine Within.step (preampFault_within _ _) rfl ?_
    refine Within.step (raiseObj_within _ _ _ _) rfl ?_
    exact Within.refl _ _

theorem postSample_within (a s) :
    Within [.bus, .cue] s (postSample a s) := by
  unfold postSample
  refine Within.step (post_within _ _ _) rfl ?_
  exact Within.refl _ _

theorem lockLane_within (a s) :
    Within [.rch, .hop] s (lockLane a s) := by
  unfold lockLane
  extract_lets +onlyGivenNames v0
  refine Within.cut (x := v0) ?_ (fun h1 => ?_)
  · subst v0
    refine Within.step (onAct_within _ _ _) rfl ?_
    exact Within.refl _ _
  · clear_value v0
    refine Within.ite (fun _ => ?_) (fun _ => ?_)
    · refine Within.step (enableSlot_within _ _) rfl ?_
      refine Within.hop rfl ?_
      exact h1
    · exact h1

theorem goodField_within (a j s) :
    Within [.rch, .hop] s (goodField a j s) := by
  unfold goodField
  extract_lets +onlyGivenNames v0
  clear_value v0
  extract_lets +onlyGivenNames v2
  clear_value v2
  extract_lets +onlyGivenNames v4
  clear_value v4
  extract_lets +onlyGivenNames v6
  clear_value v6
  extract_lets +onlyGivenNames v8
  refine Within.cut (x := v8) ?_ (fun h9 => ?_)
  · subst v8
    refine Within.step (onAct_within _ _ _) rfl ?_
    exact Within.refl _ _
  · clear_value v8
    refine Within.ite (fun _ => ?_) (fun _ => ?_)
    · refine Within.step (lockLane_within _ _) rfl ?_
      exact h9
    · exact h9

theorem dropCompanion_within (a s) :
    Within [.bus, .rch] s (dropCompanion a s) := by
  unfold dropCompanion
  refine Within.ite (fun _ => ?_) (fun _ => ?_)
  · refine Within.step (count1_within _ _) rfl ?_
    refine Within.step (onAct_within _ _ _) rfl ?_
    exact Within.refl _ _
  · exact Within.refl _ _

theorem doLaneCalibrationDone_within (a l ok s) :
    Within [.out, .bus, .evt, .rch] s (doLaneCalibrationDone a l ok s) := by
  unfold doLaneCalibrationDone
  refine Within.ite (fun _ => ?_) (fun _ => ?_)
  · extract_lets +onlyGivenNames v0
    refine Within.cut (x := v0) ?_ (fun h1 => ?_)
    · subst v0
      refine Within.step (onLane_within _ _ _ _) rfl ?_
      exact Within.refl _ _
    · clear_value v0
      refine Within.ite (fun _ => ?_) (fun _ => ?_)
      · refine Within.step (onAct_within _ _ _) rfl ?_
        exact h1
      · refine Within.step (raiseObj_within _ _ _ _) rfl ?_
        exact h1
  · exact Within.refl _ _

theorem doReservationRelease_within (d s) :
    Within [.flc] s (doReservationRelease d s) := by
  unfold doReservationRelease
  split
  · rename_i w0 w1 w2
    refine Within.ite (fun _ => ?_) (fun _ => ?_)
    · refine Within.flc rfl ?_
      exact Within.refl _ _
    · exact Within.refl _ _
  · rename_i w3 w4
    exact Within.refl _ _

theorem doShockCrossing_within (input mv s) :
    Within [.out, .bus, .evt, .trl, .flc, .rch] s (doShockCrossing input mv s) := by
  unfold doShockCrossing
  extract_lets +onlyGivenNames v0
  clear_value v0
  extract_lets +onlyGivenNames v2
  clear_value v2
  refine Within.ite (fun _ => ?_) (fun _ => ?_)
  · exact Within.refl _ _
  · refine Within.ite (fun _ => ?_) (fun _ => ?_)
    · extract_lets +onlyGivenNames v4
      clear_value v4
      extract_lets +onlyGivenNames v6
      refine Within.cut (x := v6) ?_ (fun h7 => ?_)
      · subst v6
        refine Within.rch rfl ?_
        exact Within.refl _ _
      · clear_value v6
        refine Within.foldl (fun u8 a9 => ?_) ?_
        · refine Within.ite (fun _ => ?_) (fun _ => ?_)
          · refine Within.step (dropGate_within _ _) rfl ?_
            exact Within.refl _ _
          · refine Within.step (onAct_within _ _ _) rfl ?_
            exact Within.refl _ _
        · refine Within.step (count1_within _ _) rfl ?_
          refine Within.step (raiseObj_within _ _ _ _) rfl ?_
          exact h7
    · refine Within.rch rfl ?_
      exact Within.refl _ _

theorem doCodewordComplete_within (a l s) :
    Within [.flc, .rch] s (doCodewordComplete a l s) := by
  unfold doCodewordComplete
  extract_lets +onlyGivenNames v0
  clear_value v0
  split
  · rename_i w2 w3
    exact Within.refl _ _
  · rename_i w4 w5 w6
    refine Within.ite (fun _ => ?_) (fun _ => ?_)
    · exact Within.refl _ _
    · extract_lets +onlyGivenNames v7
      refine Within.cut (x := v7) ?_ (fun h8 => ?_)
      · subst v7
        refine Within.step (onLane_within _ _ _ _) rfl ?_
        exact Within.refl _ _
      · clear_value v7
        split
        · rename_i w9 w10 w11
          exact h8
        · rename_i w12 w13 w14 w15
          refine Within.ite (fun _ => ?_) (fun _ => ?_)
          · refine Within.step (onRd_within _ _ _) rfl ?_
            exact h8
          · extract_lets +onlyGivenNames v16
            refine Within.cut (x := v16) ?_ (fun h17 => ?_)
            · subst v16
              refine Within.step (onRd_within _ _ _) rfl ?_
              exact h8
            · clear_value v16
              split
              · rename_i w18 w19 w20 w21 w22
                refine Within.step (takeDecoder_within _ _ _) rfl ?_
                exact h17
              · rename_i w23 w24 w25
                extract_lets +onlyGivenNames v26
                refine Within.cut (x := v26) ?_ (fun h27 => ?_)
                · subst v26
                  refine Within.step (onLane_within _ _ _ _) rfl ?_
                  exact h17
                · clear_value v26
                  split
                  · rename_i w28 w29 w30 w31 w32 w33
                    refine Within.step (decodeGeneral_within _ _) rfl ?_
                    refine Within.step (onLane_within _ _ _ _) rfl ?_
                    exact h27
                  · rename_i w34 w35
                    exact h27

theorem doSectorSync_within (a l w s) :
    Within [.out, .bus, .evt, .trl, .flc, .rch, .hop] s (doSectorSync a l w s) := by
  unfold doSectorSync
  split
  · rename_i w0 w1
    exact Within.refl _ _
  · rename_i w2 w3 w4
    extract_lets +onlyGivenNames v5
    subst v5
    refine Within.ite (fun _ => ?_) (fun _ => ?_)
    · extract_lets +onlyGivenNames v7
      clear_value v7
      refine Within.ite (fun _ => ?_) (fun _ => ?_)
      · dsimp only
        refine Within.step (onLane_within _ _ _ _) rfl ?_
        exact Within.refl _ _
      · refine Within.step (preampFault_within _ _) rfl ?_
        refine Within.step (raiseObj_within _ _ _ _) rfl ?_
        dsimp only
        refine Within.step (onLane_within _ _ _ _) rfl ?_
        exact Within.refl _ _
    · extract_lets +onlyGivenNames v9
      clear_value v9
      extract_lets +onlyGivenNames v11
      clear_value v11
      extract_lets +onlyGivenNames v13
      clear_value v13
      extract_lets +onlyGivenNames v15
      clear_value v15
      refine Within.ite (fun _ => ?_) (fun _ => ?_)
      · refine Within.step (onLane_within _ _ _ _) rfl ?_
        exact Within.refl _ _
      · extract_lets +onlyGivenNames v17
        refine Within.cut (x := v17) ?_ (fun h18 => ?_)
        · subst v17
          refine Within.step (count1_within _ _) rfl ?_
          refine Within.step (raiseObj_within _ _ _ _) rfl ?_
          dsimp only
          refine Within.step (onLane_within _ _ _ _) rfl ?_
          exact Within.refl _ _
        · clear_value v17
          refine Within.step (onRd_within _ _ _) rfl ?_
          exact h18

theorem doServoField_within (a f s) :
    Within [.out, .bus, .evt, .cue, .trl, .flc, .rch, .hop] s (doServoField a f s) := by
  unfold doServoField
  refine Within.ite (fun _ => ?_) (fun _ => ?_)
  · exact Within.refl _ _
  · extract_lets +onlyGivenNames v0
    refine Within.cut (x := v0) ?_ (fun h1 => ?_)
    · subst v0
      refine Within.step (postSample_within _ _) rfl ?_
      exact Within.refl _ _
    · clear_value v0
      refine Within.ite (fun _ => ?_) (fun _ => ?_)
      · extract_lets +onlyGivenNames v2
        clear_value v2
        extract_lets +onlyGivenNames v4
        refine Within.cut (x := v4) ?_ (fun h5 => ?_)
        · subst v4
          refine Within.step (onAct_within _ _ _) rfl ?_
          exact h1
        · clear_value v4
          refine Within.ite (fun _ => ?_) (fun _ => ?_)
          · refine Within.step (park_within _ _ _) rfl ?_
            exact h5
          · exact h5
      · extract_lets +onlyGivenNames v6
        refine Within.cut (x := v6) ?_ (fun h7 => ?_)
        · subst v6
          refine Within.step (onAct_within _ _ _) rfl ?_
          exact h1
        · clear_value v6
          extract_lets +onlyGivenNames v8
          refine Within.cut (x := v8) ?_ (fun h9 => ?_)
          · subst v8
            refine Within.step (guardWedge_within _ _ _) rfl ?_
            exact h7
          · clear_value v8
            split
            · rename_i w10 w11 w12 w13 w14
              refine Within.ite (fun _ => ?_) (fun _ => ?_)
              · refine Within.step (dropCompanion_within _ _) rfl ?_
                exact h9
              · exact h9
            · rename_i w15 w16 w17 w18
              exact h9

theorem doAngleField_within (a f s) :
    Within [.out, .bus, .evt, .rch, .hop] s (doAngleField a f s) := by
  unfold doAngleField
  refine Within.ite (fun _ => ?_) (fun _ => ?_)
  · exact Within.refl _ _
  · refine Within.ite (fun _ => ?_) (fun _ => ?_)
    · refine Within.step (unlockLane_within _ _) rfl ?_
      exact Within.refl _ _
    · extract_lets +onlyGivenNames v0
      clear_value v0
      extract_lets +onlyGivenNames v2
      clear_value v2
      extract_lets +onlyGivenNames v4
      clear_value v4
      refine Within.ite (fun _ => ?_) (fun _ => ?_)
      · refine Within.step (goodField_within _ _ _) rfl ?_
        exact Within.refl _ _
      · refine Within.ite (fun _ => ?_) (fun _ => ?_)
        · refine Within.step (onAct_within _ _ _) rfl ?_
          refine Within.step (raiseObj_within _ _ _ _) rfl ?_
          exact Within.refl _ _
        · extract_lets +onlyGivenNames v6
          refine Within.cut (x := v6) ?_ (fun h7 => ?_)
          · subst v6
            refine Within.step (raiseObj_within _ _ _ _) rfl ?_
            exact Within.refl _ _
          · clear_value v6
            refine Within.ite (fun _ => ?_) (fun _ => ?_)
            · refine Within.step (onAct_within _ _ _) rfl ?_
              exact h7
            · refine Within.step (unlockLane_within _ _) rfl ?_
              exact h7

end Sys2Proof.Machine
end

