-- ==== Sys2Proof/Laws/FrameHoop.lean ====
section
/-! SUPPORT. What each operation of Machine/Hoop.lean may change, and what it keeps. -/
namespace Sys2Proof.Machine

theorem takeBank_within (n s) :
    Within [.hop] s (takeBank n s) := by
  unfold takeBank
  extract_lets +onlyGivenNames v0
  clear_value v0
  split
  · rename_i w2 w3 w4
    refine Within.ite (fun _ => ?_) (fun _ => ?_)
    · refine Within.step (onSlot_within _ _ _) rfl ?_
      exact Within.refl _ _
    · exact Within.refl _ _
  · rename_i w5 w6
    exact Within.refl _ _

theorem takeSetpoint_within (n s) :
    Within [.out, .bus, .evt, .hop] s (takeSetpoint n s) := by
  unfold takeSetpoint
  extract_lets +onlyGivenNames v0
  clear_value v0
  split
  · rename_i w2 w3
    exact Within.refl _ _
  · rename_i w4 w5 w6
    extract_lets +onlyGivenNames v7
    refine Within.cut (x := v7) ?_ (fun h8 => ?_)
    · subst v7
      refine Within.step (onSlot_within _ _ _) rfl ?_
      exact Within.refl _ _
    · clear_value v7
      refine Within.ite (fun _ => ?_) (fun _ => ?_)
      · refine Within.step (count1_within _ _) rfl ?_
        refine Within.step (raise_within _ _ _ _ _ _) rfl ?_
        exact h8
      · exact h8

theorem readTach_within (n s) :
    Within [.hop] s (readTach n s) := by
  unfold readTach
  extract_lets +onlyGivenNames v0
  clear_value v0
  extract_lets +onlyGivenNames v2
  clear_value v2
  refine Within.ite (fun _ => ?_) (fun _ => ?_)
  · refine Within.step (queueFrame_within _ _) rfl ?_
    exact Within.refl _ _
  · exact Within.refl _ _

theorem streamStep_within (a s) :
    Within [.hop] s (streamStep a s).2 := by
  unfold streamStep
  extract_lets +onlyGivenNames v0
  clear_value v0
  extract_lets +onlyGivenNames v2
  subst v2
  extract_lets +onlyGivenNames v4
  clear_value v4
  refine Within.iteSnd (fun _ => ?_) (fun _ => ?_)
  · refine Within.mkSnd ?_
    dsimp only
    refine Within.hop rfl ?_
    exact Within.refl _ _
  · refine Within.iteSnd (fun _ => ?_) (fun _ => ?_)
    · refine Within.mkSnd ?_
      dsimp only
      refine Within.hop rfl ?_
      exact Within.refl _ _
    · extract_lets +onlyGivenNames v6
      clear_value v6
      extract_lets +onlyGivenNames v8
      clear_value v8
      extract_lets +onlyGivenNames v10
      clear_value v10
      extract_lets +onlyGivenNames v12
      clear_value v12
      extract_lets +onlyGivenNames v14
      clear_value v14
      extract_lets +onlyGivenNames v16
      refine Within.cut (x := v16) ?_ (fun h17 => ?_)
      · subst v16
        refine Within.step (onSlot_within _ _ _) rfl ?_
        exact Within.refl _ _
      · clear_value v16
        refine Within.mkSnd ?_
        dsimp only
        refine Within.hop rfl ?_
        exact h17

theorem sendOutput_within (n u s) :
    Within [.bus, .hop] s (sendOutput n u s) := by
  unfold sendOutput
  split
  · rename_i w0 w1 w2
    refine Within.step (queueFrame_within _ _) rfl ?_
    exact Within.refl _ _
  · rename_i w3 w4
    refine Within.ite (fun _ => ?_) (fun _ => ?_)
    · extract_lets +onlyGivenNames v5
      clear_value v5
      extract_lets +onlyGivenNames v7
      refine Within.cut (x := v7) ?_ (fun h8 => ?_)
      · subst v7
        refine Within.hop rfl ?_
        exact Within.refl _ _
      · clear_value v7
        refine Within.ite (fun _ => ?_) (fun _ => ?_)
        · refine Within.step (count1_within _ _) rfl ?_
          exact h8
        · exact h8
    · exact Within.refl _ _

theorem sampleParks_within (n m s) :
    Within [.out, .bus, .evt, .trl, .flc, .rch, .hop] s (sampleParks n m s) := by
  unfold sampleParks
  refine Within.ite (fun _ => ?_) (fun _ => ?_)
  · extract_lets +onlyGivenNames v0
    clear_value v0
    extract_lets +onlyGivenNames v2
    extract_lets +onlyGivenNames v4
    refine Within.cut (x := v4) ?_ (fun h5 => ?_)
    · subst v4
      refine Within.step (onSlot_within _ _ _) rfl ?_
      exact Within.refl _ _
    · clear_value v4
      extract_lets +onlyGivenNames v6
      clear_value v6
      refine Within.ite (fun _ => ?_) (fun _ => ?_)
      · refine Within.step (park_within _ _ _) rfl ?_
        exact h5
      · refine Within.ite (fun _ => ?_) (fun _ => ?_)
        · refine Within.step (park_within _ _ _) rfl ?_
          exact h5
        · exact h5
  · exact Within.refl _ _

theorem doSampleBoundary_within (n m s) :
    Within [.out, .bus, .evt, .trl, .flc, .rch, .hop] s (doSampleBoundary n m s) := by
  unfold doSampleBoundary
  refine Within.ite (fun _ => ?_) (fun _ => ?_)
  · exact Within.refl _ _
  · extract_lets +onlyGivenNames v0
    refine Within.cut (x := v0) ?_ (fun h1 => ?_)
    · subst v0
      refine Within.step (takeBank_within _ _) rfl ?_
      refine Within.step (takeSetpoint_within _ _) rfl ?_
      refine Within.step (readTach_within _ _) rfl ?_
      exact Within.refl _ _
    · clear_value v0
      split
      · rename_i w2 w3 w4 w5 w6
        refine Within.cut (Within.ofEq w6 ?_) (fun h7 => ?_)
        · refine Within.iteSnd (fun _ => ?_) (fun _ => ?_)
          · refine Within.step (streamStep_within _ _) rfl ?_
            exact h1
          · refine Within.mkSnd ?_
            exact h1
        extract_lets +onlyGivenNames v8
        clear_value v8
        extract_lets +onlyGivenNames v10
        clear_value v10
        extract_lets +onlyGivenNames v12
        refine Within.cut (x := v12) ?_ (fun h13 => ?_)
        · subst v12
          refine Within.ite (fun _ => ?_) (fun _ => ?_)
          · exact h7
          · refine Within.step (onSlot_within _ _ _) rfl ?_
            exact h7
        · clear_value v12
          split
          · rename_i w14 w15
            extract_lets +onlyGivenNames v16
            refine Within.cut (x := v16) ?_ (fun h17 => ?_)
            · subst v16
              refine Within.step (count1_within _ _) rfl ?_
              refine Within.step (onSlot_within _ _ _) rfl ?_
              exact h13
            · clear_value v16
              refine Within.step (sendOutput_within _ _ _) rfl ?_
              exact h17
          · rename_i w18 w19 w20
            extract_lets +onlyGivenNames v21
            refine Within.cut (x := v21) ?_ (fun h22 => ?_)
            · subst v21
              refine Within.ite (fun _ => ?_) (fun _ => ?_)
              · refine Within.step (onSlot_within _ _ _) rfl ?_
                exact h13
              · exact h13
            · clear_value v21
              extract_lets +onlyGivenNames v23
              refine Within.cut (x := v23) ?_ (fun h24 => ?_)
              · subst v23
                refine Within.step (onSlot_within _ _ _) rfl ?_
                exact h22
              · clear_value v23
                extract_lets +onlyGivenNames v25
                refine Within.cut (x := v25) ?_ (fun h26 => ?_)
                · subst v25
                  refine Within.ite (fun _ => ?_) (fun _ => ?_)
                  · refine Within.step (count1_within _ _) rfl ?_
                    exact h24
                  · exact h24
                · clear_value v25
                  refine Within.step (sampleParks_within _ _ _) rfl ?_
                  refine Within.step (sendOutput_within _ _ _) rfl ?_
                  exact h26

theorem doParkTimeout_within (a s) :
    Within [.out, .bus, .evt, .rch, .hop] s (doParkTimeout a s) := by
  unfold doParkTimeout
  extract_lets +onlyGivenNames v0
  clear_value v0
  refine Within.ite (fun _ => ?_) (fun _ => ?_)
  · extract_lets +onlyGivenNames v2
    refine Within.cut (x := v2) ?_ (fun h3 => ?_)
    · subst v2
      refine Within.step (onAct_within _ _ _) rfl ?_
      exact Within.refl _ _
    · clear_value v2
      refine Within.step (goOffline_within _ _) rfl ?_
      refine Within.step (raiseObj_within _ _ _ _) rfl ?_
      refine Within.hop rfl ?_
      exact h3
  · exact Within.refl _ _

theorem doHopCoeffWrite_within (n bank i val becoming s) :
    Within [.hop] s (doHopCoeffWrite n bank i val becoming s) := by
  unfold doHopCoeffWrite
  refine Within.ite (fun _ => ?_) (fun _ => ?_)
  · exact Within.refl _ _
  · refine Within.ite (fun _ => ?_) (fun _ => ?_)
    · refine Within.step (onSlot_within _ _ _) rfl ?_
      exact Within.refl _ _
    · refine Within.ite (fun _ => ?_) (fun _ => ?_)
      · exact Within.refl _ _
      · refine Within.step (onSlot_within _ _ _) rfl ?_
        exact Within.refl _ _

theorem onLink_within (f s) :
    Within [.hop] s (onLink f s) := by
  unfold onLink
  refine Within.hop rfl ?_
  exact Within.refl _ _

theorem doDriverFault_within (ns s) :
    Within [.out, .bus, .evt, .trl, .flc, .rch, .hop] s (doDriverFault ns s) := by
  unfold doDriverFault
  refine Within.ite (fun _ => ?_) (fun _ => ?_)
  · extract_lets +onlyGivenNames v0
    refine Within.cut (x := v0) ?_ (fun h1 => ?_)
    · subst v0
      refine Within.step (parkAll_within _ _) rfl ?_
      refine Within.step (raise_within _ _ _ _ _ _) rfl ?_
      refine Within.step (onLink_within _ _) rfl ?_
      exact Within.refl _ _
    · clear_value v0
      refine Within.step (queueFrame_within _ _) rfl ?_
      exact h1
  · exact Within.refl _ _

theorem doHopProfileStop_within (a s) :
    Within [.hop] s (doHopProfileStop a s) := by
  unfold doHopProfileStop
  refine Within.ite (fun _ => ?_) (fun _ => ?_)
  · exact Within.refl _ _
  · refine Within.hop rfl ?_
    exact Within.refl _ _

theorem doHopProfileStart_within (a first s) :
    Within [.hop] s (doHopProfileStart a first s) := by
  unfold doHopProfileStart
  refine Within.ite (fun _ => ?_) (fun _ => ?_)
  · exact Within.refl _ _
  · refine Within.hop rfl ?_
    exact Within.refl _ _

theorem doHopSlotEnable_within (n s) :
    Within [.hop] s (doHopSlotEnable n s) := by
  unfold doHopSlotEnable
  extract_lets +onlyGivenNames v0
  clear_value v0
  refine Within.ite (fun _ => ?_) (fun _ => ?_)
  · exact Within.refl _ _
  · refine Within.step (enableSlot_within _ _) rfl ?_
    exact Within.refl _ _

theorem doHopSlotDisable_within (n s) :
    Within [.out, .bus, .evt, .trl, .flc, .rch, .hop] s (doHopSlotDisable n s) := by
  unfold doHopSlotDisable
  refine Within.ite (fun _ => ?_) (fun _ => ?_)
  · exact Within.refl _ _
  · extract_lets +onlyGivenNames v0
    refine Within.cut (x := v0) ?_ (fun h1 => ?_)
    · subst v0
      refine Within.step (stopSlot_within _ _) rfl ?_
      exact Within.refl _ _
    · clear_value v0
      refine Within.ite (fun _ => ?_) (fun _ => ?_)
      · refine Within.step (park_within _ _ _) rfl ?_
        exact h1
      · exact h1

theorem doHopBankRequest_within (n bank atCue s) :
    Within [.hop] s (doHopBankRequest n bank atCue s) := by
  unfold doHopBankRequest
  refine Within.ite (fun _ => ?_) (fun _ => ?_)
  · exact Within.refl _ _
  · refine Within.step (onSlot_within _ _ _) rfl ?_
    exact Within.refl _ _

theorem doHopSetpointWrite_within (q n hi s) :
    Within [.bus, .hop, .regs, .halves] s (doHopSetpointWrite q n hi s) := by
  unfold doHopSetpointWrite
  refine Within.ite (fun _ => ?_) (fun _ => ?_)
  · exact Within.refl _ _
  · extract_lets +onlyGivenNames v0
    clear_value v0
    extract_lets +onlyGivenNames v2
    clear_value v2
    extract_lets +onlyGivenNames v4
    clear_value v4
    refine Within.ite (fun _ => ?_) (fun _ => ?_)
    · refine Within.step (useLow_within _ _ _) rfl ?_
      exact Within.refl _ _
    · extract_lets +onlyGivenNames v6
      refine Within.cut (x := v6) ?_ (fun h7 => ?_)
      · subst v6
        refine Within.step (useLow_within _ _ _) rfl ?_
        refine Within.step (setReg64_within _ _ _) rfl ?_
        exact Within.refl _ _
      · clear_value v6
        extract_lets +onlyGivenNames v8
        refine Within.cut (x := v8) ?_ (fun h9 => ?_)
        · subst v8
          refine Within.step (onSlot_within _ _ _) rfl ?_
          exact h7
        · clear_value v8
          refine Within.ite (fun _ => ?_) (fun _ => ?_)
          · refine Within.hop rfl ?_
            exact h9
          · exact h9

theorem doMlkCmd_within (val s) :
    Within [.hop] s (doMlkCmd val s) := by
  unfold doMlkCmd
  extract_lets +onlyGivenNames v0
  clear_value v0
  extract_lets +onlyGivenNames v2
  clear_value v2
  refine Within.ite (fun _ => ?_) (fun _ => ?_)
  · exact Within.refl _ _
  · refine Within.ite (fun _ => ?_) (fun _ => ?_)
    · refine Within.step (onLink_within _ _) rfl ?_
      exact Within.refl _ _
    · refine Within.step (queueFrame_within _ _) rfl ?_
      refine Within.step (onLink_within _ _) rfl ?_
      exact Within.refl _ _

theorem doMlkResync_within (val s) :
    Within [.hop] s (doMlkResync val s) := by
  unfold doMlkResync
  refine Within.ite (fun _ => ?_) (fun _ => ?_)
  · refine Within.step (onLink_within _ _) rfl ?_
    exact Within.refl _ _
  · exact Within.refl _ _

theorem reloadHoop_within (s) :
    Within [.hop] s (reloadHoop s) := by
  unfold reloadHoop
  refine Within.hop rfl ?_
  exact Within.refl _ _

theorem doNopIdleTimer_within (s) :
    Within [.hop] s (doNopIdleTimer s) := by
  unfold doNopIdleTimer
  refine Within.trans ?_ (onlyIf_within (by exact rfl) ?_)
  · exact Within.refl _ _
  · intro u0
    refine Within.step (queueFrame_within _ _) rfl ?_
    exact Within.refl _ _

theorem measurePhase_within (s) :
    Within [.out, .bus, .evt, .hop] s (measurePhase s) := by
  unfold measurePhase
  split
  · rename_i w0 w1 w2
    extract_lets +onlyGivenNames v3
    clear_value v3
    extract_lets +onlyGivenNames v5
    refine Within.cut (x := v5) ?_ (fun h6 => ?_)
    · subst v5
      refine Within.hop rfl ?_
      exact Within.refl _ _
    · clear_value v5
      refine Within.ite (fun _ => ?_) (fun _ => ?_)
      · refine Within.step (raise_within _ _ _ _ _ _) rfl ?_
        exact h6
      · exact h6
  · rename_i w7 w8
    exact Within.refl _ _

theorem diagDone_within (f nack data s) :
    Within [.hop] s (diagDone f nack data s) := by
  unfold diagDone
  refine Within.ite (fun _ => ?_) (fun _ => ?_)
  · refine Within.step (onLink_within _ _) rfl ?_
    exact Within.refl _ _
  · exact Within.refl _ _

theorem frameFailed_within (f s) :
    Within [.out, .bus, .evt, .trl, .flc, .rch, .hop] s (frameFailed f s) := by
  unfold frameFailed
  extract_lets +onlyGivenNames v0
  clear_value v0
  extract_lets +onlyGivenNames v2
  refine Within.cut (x := v2) ?_ (fun h3 => ?_)
  · subst v2
    refine Within.step (onLink_within _ _) rfl ?_
    exact Within.refl _ _
  · clear_value v2
    refine Within.ite (fun _ => ?_) (fun _ => ?_)
    · refine Within.step (linkFault_within _) rfl ?_
      refine Within.step (diagDone_within _ _ _ _) rfl ?_
      exact h3
    · refine Within.ite (fun _ => ?_) (fun _ => ?_)
      · exact h3
      · refine Within.step (onLink_within _ _) rfl ?_
        exact h3

theorem frameGood_within (f r s) :
    Within [.out, .bus, .evt, .rch, .hop] s (frameGood f r s) := by
  unfold frameGood
  extract_lets +onlyGivenNames v0
  clear_value v0
  extract_lets +onlyGivenNames v2
  refine Within.cut (x := v2) ?_ (fun h3 => ?_)
  · subst v2
    refine Within.step (onLink_within _ _) rfl ?_
    exact Within.refl _ _
  · clear_value v2
    extract_lets +onlyGivenNames v4
    refine Within.cut (x := v4) ?_ (fun h5 => ?_)
    · subst v4
      refine Within.step (diagDone_within _ _ _ _) rfl ?_
      exact h3
    · clear_value v4
      extract_lets +onlyGivenNames v6
      refine Within.cut (x := v6) ?_ (fun h7 => ?_)
      · subst v6
        refine Within.foldl (fun u8 a9 => ?_) ?_
        · refine Within.ite (fun _ => ?_) (fun _ => ?_)
          · refine Within.step (parkDone_within _ _) rfl ?_
            exact Within.refl _ _
          · exact Within.refl _ _
        · exact h5
      · clear_value v6
        refine Within.ite (fun _ => ?_) (fun _ => ?_)
        · refine Within.step (linkUp_within _) rfl ?_
          exact h7
        · exact h7

theorem checkReply_within (f seq reply s) :
    Within [.out, .bus, .evt, .trl, .flc, .rch, .hop] s (checkReply f seq reply s) := by
  unfold checkReply
  extract_lets +onlyGivenNames v0
  clear_value v0
  refine Within.ite (fun _ => ?_) (fun _ => ?_)
  · refine Within.step (frameFailed_within _ _) rfl ?_
    refine Within.step (count1_within _ _) rfl ?_
    refine Within.step (raiseObj_within _ _ _ _) rfl ?_
    exact Within.refl _ _
  · refine Within.ite (fun _ => ?_) (fun _ => ?_)
    · refine Within.step (frameFailed_within _ _) rfl ?_
      refine Within.step (count1_within _ _) rfl ?_
      refine Within.step (raiseObj_within _ _ _ _) rfl ?_
      exact Within.refl _ _
    · refine Within.ite (fun _ => ?_) (fun _ => ?_)
      · refine Within.step (frameFailed_within _ _) rfl ?_
        refine Within.step (count1_within _ _) rfl ?_
        refine Within.step (raiseObj_within _ _ _ _) rfl ?_
        exact Within.refl _ _
      · refine Within.step (frameGood_within _ _ _) rfl ?_
        exact Within.refl _ _

theorem doMotorLinkFrame_within (reply s) :
    Within [.out, .bus, .evt, .trl, .flc, .rch, .hop] s (doMotorLinkFrame reply s) := by
  unfold doMotorLinkFrame
  refine Within.ite (fun _ => ?_) (fun _ => ?_)
  · exact Within.refl _ _
  · split
    · rename_i w0 w1 w2
      exact Within.refl _ _
    · rename_i w3 w4 w5 w6
      extract_lets +onlyGivenNames v7
      clear_value v7
      extract_lets +onlyGivenNames v9
      refine Within.cut (x := v9) ?_ (fun h10 => ?_)
      · subst v9
        refine Within.step (emit_within _ _) rfl ?_
        refine Within.step (count1_within _ _) rfl ?_
        exact Within.refl _ _
      · clear_value v9
        extract_lets +onlyGivenNames v11
        refine Within.cut (x := v11) ?_ (fun h12 => ?_)
        · subst v11
          refine Within.step (onLink_within _ _) rfl ?_
          exact h10
        · clear_value v11
          split
          · rename_i w13 w14 w15 w16
            refine Within.step (checkReply_within _ _ _ _) rfl ?_
            exact h12
          · rename_i w17 w18
            exact h12

theorem doHeaterFrameSend_within (a h s) :
    Within [.rch, .hop] s (doHeaterFrameSend a h s) := by
  unfold doHeaterFrameSend
  extract_lets +onlyGivenNames v0
  clear_value v0
  split
  · rename_i w2 w3 w4
    refine Within.ite (fun _ => ?_) (fun _ => ?_)
    · exact Within.refl _ _
    · refine Within.step (onAct_within _ _ _) rfl ?_
      refine Within.hop rfl ?_
      exact Within.refl _ _
  · rename_i w5 w6
    exact Within.refl _ _

theorem doActuatorLoaded_within (a m s) :
    Within [.rch, .hop] s (doActuatorLoaded a m s) := by
  unfold doActuatorLoaded
  extract_lets +onlyGivenNames v0
  clear_value v0
  refine Within.ite (fun _ => ?_) (fun _ => ?_)
  · extract_lets +onlyGivenNames v2
    refine Within.cut (x := v2) ?_ (fun h3 => ?_)
    · subst v2
      refine Within.step (onAct_within _ _ _) rfl ?_
      exact Within.refl _ _
    · clear_value v2
      extract_lets +onlyGivenNames v4
      refine Within.cut (x := v4) ?_ (fun h5 => ?_)
      · subst v4
        refine Within.step (onSlot_within _ _ _) rfl ?_
        exact h3
      · clear_value v4
        refine Within.foldl (fun u6 a7 => ?_) ?_
        · refine Within.step (enableSlot_within _ _) rfl ?_
          exact Within.refl _ _
        · exact h5
  · exact Within.refl _ _

end Sys2Proof.Machine
end

