-- ==== Sys2Proof/Laws/FrameLoader.lean ====
section
/-! SUPPORT. What each operation of Machine/Loader.lean may change, and what it keeps. -/
namespace Sys2Proof.Machine

theorem failLoad_within (e s) :
    Within [.out, .bus, .evt, .prk] s (failLoad e s) := by
  unfold failLoad
  refine Within.step (raise_within _ _ _ _ _ _) rfl ?_
  refine Within.onPrk rfl ?_ (by first | exact Nat.le_refl _ | exact Nat.le_max_left _ _ | exact Nat.le_max_right _ _ | exact Nat.le_of_eq (putSlot_floor _ _ _).symm)
  exact Within.refl _ _

theorem startApply_within (img c s) :
    Within [.bus, .prk, .cue] s (startApply img c s) := by
  unfold startApply
  extract_lets +onlyGivenNames v0
  clear_value v0
  extract_lets +onlyGivenNames v2
  clear_value v2
  extract_lets +onlyGivenNames v4
  refine Within.cut (x := v4) ?_ (fun h5 => ?_)
  · subst v4
    refine Within.onPrk rfl ?_ (by first | exact Nat.le_refl _ | exact Nat.le_max_left _ _ | exact Nat.le_max_right _ _ | exact Nat.le_of_eq (putSlot_floor _ _ _).symm)
    exact Within.refl _ _
  · clear_value v4
    refine Within.ite (fun _ => ?_) (fun _ => ?_)
    · exact h5
    · refine Within.step (post_within _ _ _) rfl ?_
      exact h5

theorem checkImage_within (img s) :
    Within [.out, .bus, .evt, .prk, .cue] s (checkImage img s) := by
  unfold checkImage
  extract_lets +onlyGivenNames v0
  clear_value v0
  extract_lets +onlyGivenNames v2
  refine Within.cut (x := v2) ?_ (fun h3 => ?_)
  · subst v2
    refine Within.onPrk rfl ?_ (by first | exact Nat.le_refl _ | exact Nat.le_max_left _ _ | exact Nat.le_max_right _ _ | exact Nat.le_of_eq (putSlot_floor _ _ _).symm)
    exact Within.refl _ _
  · clear_value v2
    split
    · rename_i w4 w5
      exact h3
    · rename_i w6 w7
      split
      · rename_i w8 w9 w10
        refine Within.step (failLoad_within _ _) rfl ?_
        exact h3
      · rename_i w11 w12
        refine Within.ite (fun _ => ?_) (fun _ => ?_)
        · refine Within.step (failLoad_within _ _) rfl ?_
          exact h3
        · refine Within.onPrk rfl ?_ (by first | exact Nat.le_refl _ | exact Nat.le_max_left _ _ | exact Nat.le_max_right _ _ | exact Nat.le_of_eq (putSlot_floor _ _ _).symm)
          exact h3
    · rename_i w13 w14 w15 w16
      split
      · rename_i w17 w18 w19
        refine Within.step (failLoad_within _ _) rfl ?_
        exact h3
      · rename_i w20 w21
        extract_lets +onlyGivenNames v22
        clear_value v22
        refine Within.ite (fun _ => ?_) (fun _ => ?_)
        · refine Within.onPrk rfl ?_ (by first | exact Nat.le_refl _ | exact Nat.le_max_left _ _ | exact Nat.le_max_right _ _ | exact Nat.le_of_eq (putSlot_floor _ _ _).symm)
          exact h3
        · split
          · rename_i w24 w25 w26 w27
            refine Within.step (failLoad_within _ _) rfl ?_
            exact h3
          · rename_i w28 w29 w30
            refine Within.step (startApply_within _ _ _) rfl ?_
            refine Within.onPrk rfl ?_ (by first | exact Nat.le_refl _ | exact Nat.le_max_left _ _ | exact Nat.le_max_right _ _ | exact Nat.le_of_eq (putSlot_floor _ _ _).symm)
            exact h3

theorem loaderCmd_within (k code aperture img s) :
    Within [.out, .bus, .evt, .prk, .cue] s (loaderCmd k code aperture img s) := by
  unfold loaderCmd
  refine Within.ite (fun _ => ?_) (fun _ => ?_)
  · exact Within.refl _ _
  · refine Within.ite (fun _ => ?_) (fun _ => ?_)
    · refine Within.ite (fun _ => ?_) (fun _ => ?_)
      · exact Within.refl _ _
      · refine Within.step (raise_within _ _ _ _ _ _) rfl ?_
        refine Within.onPrk rfl ?_ (by first | exact Nat.le_refl _ | exact Nat.le_max_left _ _ | exact Nat.le_max_right _ _ | exact Nat.le_of_eq (putSlot_floor _ _ _).symm)
        exact Within.refl _ _
    · extract_lets +onlyGivenNames v0
      refine Within.cut (x := v0) ?_ (fun h1 => ?_)
      · subst v0
        refine Within.onPrk rfl ?_ (by first | exact Nat.le_refl _ | exact Nat.le_max_left _ _ | exact Nat.le_max_right _ _ | exact Nat.le_of_eq (putSlot_floor _ _ _).symm)
        exact Within.refl _ _
      · clear_value v0
        refine Within.ite (fun _ => ?_) (fun _ => ?_)
        · refine Within.step (checkImage_within _ _) rfl ?_
          exact h1
        · exact h1

theorem doPrkVerify_within (aperture img s) :
    Within [.out, .bus, .evt, .prk, .cue] s (doPrkVerify aperture img s) := by
  unfold doPrkVerify
  refine Within.step (loaderCmd_within _ _ _ _ _) rfl ?_
  exact Within.refl _ _

theorem doPrkApply_within (aperture img s) :
    Within [.out, .bus, .evt, .prk, .cue] s (doPrkApply aperture img s) := by
  unfold doPrkApply
  refine Within.step (loaderCmd_within _ _ _ _ _) rfl ?_
  exact Within.refl _ _

theorem doPrkStore_within (aperture img s) :
    Within [.out, .bus, .evt, .prk, .cue] s (doPrkStore aperture img s) := by
  unfold doPrkStore
  refine Within.step (loaderCmd_within _ _ _ _ _) rfl ?_
  exact Within.refl _ _

theorem abandonLoad_within (err code s) :
    Within [.free, .out, .bus, .evt, .prk, .cue, .hfe, .scn, .obj, .trl, .flc, .smg, .bob, .tly, .scr, .slm] s (abandonLoad err code
      s) := by
  unfold abandonLoad
  extract_lets +onlyGivenNames v0
  subst v0
  extract_lets +onlyGivenNames v2
  refine Within.cut (x := v2) ?_ (fun h3 => ?_)
  · subst v2
    refine Within.step (raise_within _ _ _ _ _ _) rfl ?_
    refine Within.onPrk rfl ?_ (by first | exact Nat.le_refl _ | exact Nat.le_max_left _ _ | exact Nat.le_max_right _ _ | exact Nat.le_of_eq (putSlot_floor _ _ _).symm)
    exact Within.refl _ _
  · clear_value v2
    refine Within.step (goOn_within _) rfl ?_
    refine Within.cue rfl ?_
    exact h3

theorem doPrkAbort_within (s) :
    Within [.free, .out, .bus, .evt, .prk, .cue, .hfe, .scn, .obj, .trl, .flc, .smg, .bob, .tly, .scr, .slm] s (doPrkAbort s) := by
  unfold doPrkAbort
  refine Within.ite (fun _ => ?_) (fun _ => ?_)
  · exact Within.refl _ _
  · refine Within.ite (fun _ => ?_) (fun _ => ?_)
    · refine Within.trans ?_ (onlyIf_within (by exact rfl) ?_)
      · exact Within.refl _ _
      · intro u0
        refine Within.onPrk rfl ?_ (by first | exact Nat.le_refl _ | exact Nat.le_max_left _ _ | exact Nat.le_max_right _ _ | exact Nat.le_of_eq (putSlot_floor _ _ _).symm)
        exact Within.refl _ _
    · refine Within.step (abandonLoad_within _ _ _) rfl ?_
      exact Within.refl _ _

theorem setApplyCue_within (v s) :
    Within [.prk] s (setApplyCue v s) := by
  unfold setApplyCue
  refine Within.onPrk rfl ?_ (by first | exact Nat.le_refl _ | exact Nat.le_max_left _ _ | exact Nat.le_max_right _ _ | exact Nat.le_of_eq (putSlot_floor _ _ _).symm)
  exact Within.refl _ _

theorem doPrkApertureWrite_within (off words s) :
    Within [.prk] s (doPrkApertureWrite off words s) := by
  unfold doPrkApertureWrite
  refine Within.ite (fun _ => ?_) (fun _ => ?_)
  · exact Within.refl _ _
  · extract_lets +onlyGivenNames v0
    clear_value v0
    refine Within.onPrk rfl ?_ (by first | exact Nat.le_refl _ | exact Nat.le_max_left _ _ | exact Nat.le_max_right _ _ | exact Nat.le_of_eq (putSlot_floor _ _ _).symm)
    exact Within.refl _ _

theorem doDrainLimitExpiry_within (s) :
    Within [.free, .out, .bus, .evt, .prk, .cue, .hfe, .scn, .obj, .trl, .flc, .smg, .bob, .tly, .scr, .slm] s (doDrainLimitExpiry
      s) := by
  unfold doDrainLimitExpiry
  refine Within.ite (fun _ => ?_) (fun _ => ?_)
  · refine Within.step (abandonLoad_within _ _ _) rfl ?_
    exact Within.refl _ _
  · exact Within.refl _ _

theorem noteBootFail_within (k e s) :
    Within [.out, .bus, .evt] s (noteBootFail k e s) := by
  unfold noteBootFail
  refine Within.step (raise_within _ _ _ _ _ _) rfl ?_
  exact Within.refl _ _

theorem resizeSlm_within (old new s) :
    Within [.slm] s (resizeSlm old new s) := by
  unfold resizeSlm
  extract_lets +onlyGivenNames v0
  clear_value v0
  extract_lets +onlyGivenNames v2
  clear_value v2
  refine Within.foldl (fun u4 a5 => ?_) ?_
  · refine Within.slm rfl ?_ memErase_wf
    exact Within.refl _ _
  · exact Within.refl _ _

theorem removeTenant_within (tag s) :
    Within [.bus, .cue, .smg, .bob, .tly, .scr, .slm] s (removeTenant tag s) := by
  unfold removeTenant
  extract_lets +onlyGivenNames v0
  refine Within.cut (x := v0) ?_ (fun h1 => ?_)
  · subst v0
    refine Within.foldl (fun u2 a3 => ?_) ?_
    · refine Within.ite (fun _ => ?_) (fun _ => ?_)
      · exact Within.refl _ _
      · refine Within.step (failSlot_within _ _ _) rfl ?_
        exact Within.refl _ _
    · exact Within.refl _ _
  · clear_value v0
    refine Within.upd ?_ (by constructor <;> first | exact .inl rfl | exact .inr rfl | exact Nat.le_refl _ | exact List.suffix_refl _ | exact id | exact Nat.le_add_right _ _ | exact .inr ⟨rfl, rfl⟩ | exact memWrite_wf | exact memErase_wf | exact Nat.le_of_eq (closeAllPages_next _).symm)
    exact h1

theorem drawTenantSecrets_within (s) :
    Within [.free, .scr] s (drawTenantSecrets s) := by
  unfold drawTenantSecrets
  refine Within.foldl (fun u0 a1 => ?_) ?_
  · split
    · rename_i w2 w3 w4 w5
      refine Within.cut (Within.ofEq w5 ?_) (fun h6 => ?_)
      · refine Within.step (drawSecret_within _) rfl ?_
        exact Within.refl _ _
      refine Within.scr rfl ?_
      exact h6
  · exact Within.refl _ _

theorem armPosting_within (s) :
    Within [.out, .bus, .evt, .cue] s (armPosting s) := by
  unfold armPosting
  refine Within.ite (fun _ => ?_) (fun _ => ?_)
  · exact Within.refl _ _
  · split
    · rename_i w0 w1 w2 w3 w4
      refine Within.cut (Within.ofEq w4 ?_) (fun h5 => ?_)
      · refine Within.step (postCue_within _ _ _) rfl ?_
        exact Within.refl _ _
      refine Within.ite (fun _ => ?_) (fun _ => ?_)
      · refine Within.step (raise_within _ _ _ _ _ _) rfl ?_
        exact h5
      · exact h5

theorem moveSlots_within (old new s) :
    Within [.free, .out, .bus, .evt, .cue, .hfe, .scn, .obj, .trl, .flc, .smg, .bob, .dmc, .tly, .scr, .saf, .dram, .slm] s
      (moveSlots old new s) := by
  unfold moveSlots
  refine Within.foldl (fun u0 a1 => ?_) ?_
  · refine Within.ite (fun _ => ?_) (fun _ => ?_)
    · exact Within.refl _ _
    · refine Within.step (eraseSlot_within _ _) rfl ?_
      exact Within.refl _ _
  · exact Within.refl _ _

theorem regionEffects_within (old new regions s) :
    Within [.free, .out, .bus, .evt, .cue, .hfe, .scn, .obj, .trl, .flc, .hop, .smg, .bob, .dmc, .tly, .asu, .scr, .saf, .dram,
      .slm] s (regionEffects old new regions s) := by
  unfold regionEffects
  extract_lets +onlyGivenNames v0
  clear_value v0
  extract_lets +onlyGivenNames v2
  refine Within.cut (x := v2) ?_ (fun h3 => ?_)
  · subst v2
    refine Within.step (resizeSlm_within _ _ _) rfl ?_
    refine Within.foldl (fun u4 a5 => ?_) ?_
    · refine Within.step (removeTenant_within _ _) rfl ?_
      exact Within.refl _ _
    · exact Within.refl _ _
  · clear_value v2
    extract_lets +onlyGivenNames v6
    refine Within.cut (x := v6) ?_ (fun h7 => ?_)
    · subst v6
      refine Within.step (drawTenantSecrets_within _) rfl ?_
      refine Within.ite (fun _ => ?_) (fun _ => ?_)
      · exact h3
      · refine Within.step (rewrap_within _) rfl ?_
        exact h3
    · clear_value v6
      extract_lets +onlyGivenNames v8
      refine Within.cut (x := v8) ?_ (fun h9 => ?_)
      · subst v8
        refine Within.ite (fun _ => ?_) (fun _ => ?_)
        · refine Within.ite (fun _ => ?_) (fun _ => ?_)
          · exact h7
          · refine Within.step (armPosting_within _) rfl ?_
            refine Within.step (startWindows_within _) rfl ?_
            exact h7
        · exact Within.refl _ _
      · clear_value v8
        extract_lets +onlyGivenNames v10
        refine Within.cut (x := v10) ?_ (fun h11 => ?_)
        · subst v10
          refine Within.ite (fun _ => ?_) (fun _ => ?_)
          · refine Within.step (armHarbour_within _) rfl ?_
            exact h9
          · exact h9
        · clear_value v10
          extract_lets +onlyGivenNames v12
          refine Within.cut (x := v12) ?_ (fun h13 => ?_)
          · subst v12
            refine Within.ite (fun _ => ?_) (fun _ => ?_)
            · refine Within.step (reloadAsu_within _ _) rfl ?_
              exact h11
            · exact h11
          · clear_value v12
            extract_lets +onlyGivenNames v14
            refine Within.cut (x := v14) ?_ (fun h15 => ?_)
            · subst v14
              refine Within.ite (fun _ => ?_) (fun _ => ?_)
              · refine Within.step (moveSlots_within _ _ _) rfl ?_
                exact h13
              · exact h13
            · clear_value v14
              extract_lets +onlyGivenNames v16
              refine Within.cut (x := v16) ?_ (fun h17 => ?_)
              · subst v16
                refine Within.ite (fun _ => ?_) (fun _ => ?_)
                · refine Within.step (trimBoard_within _ _) rfl ?_
                  exact h15
                · exact h15
              · clear_value v16
                extract_lets +onlyGivenNames v18
                refine Within.cut (x := v18) ?_ (fun h19 => ?_)
                · subst v18
                  refine Within.ite (fun _ => ?_) (fun _ => ?_)
                  · refine Within.step (reloadHoop_within _) rfl ?_
                    exact h17
                  · exact h17
                · clear_value v18
                  refine Within.ite (fun _ => ?_) (fun _ => ?_)
                  · refine Within.evt rfl ?_ (Nat.le_refl _)
                    exact h19
                  · exact h19

theorem takeEffect_within (s) :
    Within [.free, .out, .bus, .evt, .prk, .cue, .hfe, .scn, .obj, .trl, .flc, .hop, .smg, .bob, .dmc, .tly, .asu, .scr, .saf,
      .dram, .slm] s (takeEffect s) := by
  unfold takeEffect
  split
  · rename_i w0 w1
    exact Within.refl _ _
  · rename_i w2 w3 w4
    extract_lets +onlyGivenNames v5
    clear_value v5
    extract_lets +onlyGivenNames v7
    subst v7
    extract_lets +onlyGivenNames v9
    refine Within.cut (x := v9) ?_ (fun h10 => ?_)
    · subst v9
      refine Within.onPrk rfl ?_ (by first | exact Nat.le_refl _ | exact Nat.le_max_left _ _ | exact Nat.le_max_right _ _ | exact Nat.le_of_eq (putSlot_floor _ _ _).symm)
      exact Within.refl _ _
    · clear_value v9
      extract_lets +onlyGivenNames v11
      refine Within.cut (x := v11) ?_ (fun h12 => ?_)
      · subst v11
        refine Within.step (regionEffects_within _ _ _ _) rfl ?_
        exact h10
      · clear_value v11
        extract_lets +onlyGivenNames v13
        refine Within.cut (x := v13) ?_ (fun h14 => ?_)
        · subst v13
          refine Within.step (raise_within _ _ _ _ _ _) rfl ?_
          exact h12
        · clear_value v13
          refine Within.step (retireAdvance_within _) rfl ?_
          refine Within.step (goOn_within _) rfl ?_
          refine Within.step (pumpAll_within _) rfl ?_
          exact h14

theorem applyDue_within (s) :
    Within [.free, .out, .bus, .evt, .prk, .cue, .hfe, .scn, .obj, .trl, .flc, .hop, .smg, .bob, .dmc, .tly, .asu, .scr, .saf,
      .dram, .slm] s (applyDue s) := by
  unfold applyDue
  refine Within.ite (fun _ => ?_) (fun _ => ?_)
  · refine Within.step (takeEffect_within _) rfl ?_
    exact Within.refl _ _
  · exact Within.refl _ _

theorem doPrkImageFetched_within (img s) :
    Within [.out, .bus, .evt, .prk, .cue] s (doPrkImageFetched img s) := by
  unfold doPrkImageFetched
  refine Within.ite (fun _ => ?_) (fun _ => ?_)
  · refine Within.step (checkImage_within _ _) rfl ?_
    refine Within.onPrk rfl ?_ (by first | exact Nat.le_refl _ | exact Nat.le_max_left _ _ | exact Nat.le_max_right _ _ | exact Nat.le_of_eq (putSlot_floor _ _ _).symm)
    exact Within.refl _ _
  · exact Within.refl _ _

theorem doStoreSlotWritten_within (readBackOk s) :
    Within [.out, .bus, .evt, .prk, .dev] s (doStoreSlotWritten readBackOk s) := by
  unfold doStoreSlotWritten
  split
  · refine Within.ite (fun _ => Within.refl _ _) (fun _ => ?_)
    extract_lets k floor s1
    have h1 : Within [.out, .bus, .evt, .prk, .dev] s s1 := Within.onPrk rfl (Within.refl _ _) (Nat.le_max_left _ _)
    clear_value s1
    refine Within.step (raise_within _ _ _ _ _ _) rfl ?_
    exact Within.dev rfl h1 rfl (Nat.le_refl _)
  · exact Within.refl _ _

theorem writeOwners_within (img s) :
    Within [.out, .bus, .evt, .prk] s (writeOwners img s) := by
  unfold writeOwners
  extract_lets +onlyGivenNames v0
  clear_value v0
  refine Within.ite (fun _ => ?_) (fun _ => ?_)
  · exact Within.refl _ _
  · refine Within.step (raiseObj_within _ _ _ _) rfl ?_
    refine Within.onPrk rfl ?_ (by first | exact Nat.le_refl _ | exact Nat.le_max_left _ _ | exact Nat.le_max_right _ _ | exact Nat.le_of_eq (putSlot_floor _ _ _).symm)
    exact Within.refl _ _

theorem bootWith_within (k s) :
    Within [.free, .out, .bus, .evt, .prk, .hop, .scr] s (bootWith k s) := by
  unfold bootWith
  split
  · rename_i w0 w1 w2
    extract_lets +onlyGivenNames v3
    clear_value v3
    extract_lets +onlyGivenNames v5
    refine Within.cut (x := v5) ?_ (fun h6 => ?_)
    · subst v5
      refine Within.step (writeOwners_within _ _) rfl ?_
      exact Within.refl _ _
    · clear_value v5
      extract_lets +onlyGivenNames v7
      refine Within.cut (x := v7) ?_ (fun h8 => ?_)
      · subst v7
        refine Within.onPrk rfl ?_ (by first | exact Nat.le_refl _ | exact Nat.le_max_left _ _ | exact Nat.le_max_right _ _ | exact Nat.le_of_eq (putSlot_floor _ _ _).symm)
        exact h6
      · clear_value v7
        refine Within.step (drawTenantSecrets_within _) rfl ?_
        refine Within.step (reloadHoop_within _) rfl ?_
        refine Within.evt rfl ?_ (Nat.le_refl _)
        exact h8
  · rename_i w9 w10
    exact Within.refl _ _

theorem doIntermissionDrained_within (unit s) :
    Within [.free, .out, .bus, .evt, .prk, .cue, .hfe, .scn, .obj, .trl, .flc, .hop, .smg, .bob, .dmc, .tly, .asu, .scr, .saf,
      .dram, .slm] s (doIntermissionDrained unit s) := by
  unfold doIntermissionDrained
  extract_lets +onlyGivenNames v0
  clear_value v0
  refine Within.ite (fun _ => ?_) (fun _ => ?_)
  · exact Within.refl _ _
  · extract_lets +onlyGivenNames v2
    clear_value v2
    extract_lets +onlyGivenNames v4
    refine Within.cut (x := v4) ?_ (fun h5 => ?_)
    · subst v4
      refine Within.onPrk rfl ?_ (by first | exact Nat.le_refl _ | exact Nat.le_max_left _ _ | exact Nat.le_max_right _ _ | exact Nat.le_of_eq (putSlot_floor _ _ _).symm)
      exact Within.refl _ _
    · clear_value v4
      refine Within.ite (fun _ => ?_) (fun _ => ?_)
      · refine Within.step (applyDue_within _) rfl ?_
        refine Within.onPrk rfl ?_ (by first | exact Nat.le_refl _ | exact Nat.le_max_left _ _ | exact Nat.le_max_right _ _ | exact Nat.le_of_eq (putSlot_floor _ _ _).symm)
        exact h5
      · exact h5

theorem doPrickingBootLoad_within (m s) :
    Within [.free, .out, .bus, .evt, .prk, .hop, .scr] s (doPrickingBootLoad m s) := by
  unfold doPrickingBootLoad
  refine Within.ite (fun _ => ?_) (fun _ => ?_)
  · exact Within.refl _ _
  · extract_lets +onlyGivenNames v0
    refine Within.cut (x := v0) ?_ (fun h1 => ?_)
    · subst v0
      refine Within.onPrk rfl ?_ (by first | exact Nat.le_refl _ | exact Nat.le_max_left _ _ | exact Nat.le_max_right _ _ | exact Nat.le_of_eq (putSlot_floor _ _ _).symm)
      exact Within.refl _ _
    · clear_value v0
      extract_lets +onlyGivenNames v2
      clear_value v2
      extract_lets +onlyGivenNames v4
      clear_value v4
      split
      · rename_i w6 w7 w8
        refine Within.step (bootWith_within _ _) rfl ?_
        exact h1
      · rename_i w9 w10 w11 w12
        extract_lets +onlyGivenNames v13
        refine Within.cut (x := v13) ?_ (fun h14 => ?_)
        · subst v13
          refine Within.step (noteBootFail_within _ _ _) rfl ?_
          exact h1
        · clear_value v13
          split
          · rename_i w15 w16
            refine Within.step (raise_within _ _ _ _ _ _) rfl ?_
            refine Within.step (bootWith_within _ _) rfl ?_
            refine Within.onPrk rfl ?_ (by first | exact Nat.le_refl _ | exact Nat.le_max_left _ _ | exact Nat.le_max_right _ _ | exact Nat.le_of_eq (putSlot_floor _ _ _).symm)
            exact h14
          · rename_i w17 w18 w19
            refine Within.step (raise_within _ _ _ _ _ _) rfl ?_
            refine Within.onPrk rfl ?_ (by first | exact Nat.le_refl _ | exact Nat.le_max_left _ _ | exact Nat.le_max_right _ _ | exact Nat.le_of_eq (putSlot_floor _ _ _).symm)
            refine Within.step (noteBootFail_within _ _ _) rfl ?_
            exact h14

end Sys2Proof.Machine
end

