-- ==== Sys2Proof/Laws/FrameHarbour.lean ====
section
/-! SUPPORT. What each operation of Machine/Harbour.lean may change, and what it keeps. -/
namespace Sys2Proof.Machine

theorem recoverHarbour_within (s) :
    Within [.out, .bus, .evt, .obj, .trl] s (recoverHarbour s) := by
  unfold recoverHarbour
  split
  · rename_i w0 w1
    exact Within.refl _ _
  · rename_i w2 w3 w4
    extract_lets +onlyGivenNames v5
    clear_value v5
    extract_lets +onlyGivenNames v7
    refine Within.cut (x := v7) ?_ (fun h8 => ?_)
    · subst v7
      refine Within.step (undoCommits_within _ _) rfl ?_
      exact Within.refl _ _
    · clear_value v7
      refine Within.step (raise_within _ _ _ _ _ _) rfl ?_
      refine Within.upd ?_ (by constructor <;> first | exact .inl rfl | exact .inr rfl | exact Nat.le_refl _ | exact List.suffix_refl _ | exact id | exact Nat.le_add_right _ _ | exact .inr ⟨rfl, rfl⟩ | exact memWrite_wf | exact memErase_wf | exact Nat.le_of_eq (closeAllPages_next _).symm)
      exact h8

theorem halt_within (s) :
    Within [.dev, .pwr] s (halt s) := by
  unfold halt
  refine Within.upd ?_ (by constructor <;> first | exact .inl rfl | exact .inr rfl | exact Nat.le_refl _ | exact List.suffix_refl _ | exact id | exact Nat.le_add_right _ _ | exact .inr ⟨rfl, rfl⟩ | exact memWrite_wf | exact memErase_wf | exact Nat.le_of_eq (closeAllPages_next _).symm)
  exact Within.refl _ _

theorem rollBackAll_within (s) :
    Within [.free, .out, .bus, .evt, .cue, .hfe, .scn, .obj, .trl, .smg, .bob, .tly, .scr, .slm] s (rollBackAll s) := by
  unfold rollBackAll
  refine Within.foldl (fun u0 a1 => ?_) ?_
  · refine Within.ite (fun _ => ?_) (fun _ => ?_)
    · exact Within.refl _ _
    · refine Within.step (rollBack_within _ _ _) rfl ?_
      refine Within.step (onScene_within _ _ _) rfl ?_
      exact Within.refl _ _
  · exact Within.refl _ _

theorem stopFlash_within (s) :
    Within [.flc] s (stopFlash s) := by
  unfold stopFlash
  refine Within.flc rfl ?_
  exact Within.refl _ _

theorem beginHarbour_within (cause s) :
    Within [.free, .out, .bus, .evt, .cue, .pwr, .hfe, .scn, .obj, .trl, .flc, .rch, .hop, .smg, .bob, .tly, .scr, .slm] s
      (beginHarbour cause s) := by
  unfold beginHarbour
  extract_lets +onlyGivenNames v0
  refine Within.cut (x := v0) ?_ (fun h1 => ?_)
  · subst v0
    refine Within.step (raise_within _ _ _ _ _ _) rfl ?_
    exact Within.refl _ _
  · clear_value v0
    extract_lets +onlyGivenNames v2
    clear_value v2
    extract_lets +onlyGivenNames v4
    clear_value v4
    extract_lets +onlyGivenNames v6
    refine Within.cut (x := v6) ?_ (fun h7 => ?_)
    · subst v6
      refine Within.upd ?_ (by constructor <;> first | exact .inl rfl | exact .inr rfl | exact Nat.le_refl _ | exact List.suffix_refl _ | exact id | exact Nat.le_add_right _ _ | exact .inr ⟨rfl, rfl⟩ | exact memWrite_wf | exact memErase_wf | exact Nat.le_of_eq (closeAllPages_next _).symm)
      exact h1
    · clear_value v6
      refine Within.step (stopFlash_within _) rfl ?_
      refine Within.step (rollBackAll_within _) rfl ?_
      refine Within.step (parkForLoss_within _) rfl ?_
      exact h7

theorem haltPlain_within (s) :
    Within [.free, .out, .bus, .evt, .cue, .dev, .pwr, .hfe, .scn, .obj, .trl, .flc, .rch, .hop, .smg, .bob, .tly, .scr, .slm] s
      (haltPlain s) := by
  unfold haltPlain
  refine Within.step (halt_within _) rfl ?_
  refine Within.step (rollBackAll_within _) rfl ?_
  refine Within.step (parkForLoss_within _) rfl ?_
  exact Within.refl _ _

theorem sealHarbour_within (s) :
    Within [.evt, .obj, .trl] s (sealHarbour s) := by
  unfold sealHarbour
  extract_lets +onlyGivenNames v0
  subst v0
  refine Within.upd ?_ (by constructor <;> first | exact .inl rfl | exact .inr rfl | exact Nat.le_refl _ | exact List.suffix_refl _ | exact id | exact Nat.le_add_right _ _ | exact .inr ⟨rfl, rfl⟩ | exact memWrite_wf | exact memErase_wf | exact Nat.le_of_eq (closeAllPages_next _).symm)
  exact Within.refl _ _

end Sys2Proof.Machine
end

