-- ==== Sys2Proof/Laws/FrameHfe.lean ====
section
/-! SUPPORT. What each operation of Machine/Hfe.lean may change, and what it keeps. -/
namespace Sys2Proof.Machine

theorem aerOf_within (c e s) :
    Within [.out] s (aerOf c e s) := by
  unfold aerOf
  split
  · rename_i w0 w1 w2
    refine Within.step (emit_within _ _) rfl ?_
    exact Within.refl _ _
  · rename_i w3 w4
    refine Within.step (emit_within _ _) rfl ?_
    exact Within.refl _ _

theorem doRateRecoveryStep_within (qp s) :
    Within [.hfe] s (doRateRecoveryStep qp s) := by
  unfold doRateRecoveryStep
  split
  · rename_i w0 w1 w2
    refine Within.ite (fun _ => ?_) (fun _ => ?_)
    · refine Within.hfe rfl ?_
      exact Within.refl _ _
    · exact Within.refl _ _
  · rename_i w3 w4
    exact Within.refl _ _

theorem setVfs_within (port n s) :
    Within [.hfe] s (setVfs port n s) := by
  unfold setVfs
  refine Within.hfe rfl ?_
  exact Within.refl _ _

theorem onCtrl_within (c f s) :
    Within [.hfe] s (onCtrl c f s) := by
  unfold onCtrl
  refine Within.hfe rfl ?_
  exact Within.refl _ _

theorem resetScene_within (o s) :
    Within [.free, .out, .bus, .evt, .cue, .hfe, .scn, .obj, .trl, .smg, .bob, .tly, .scr, .slm] s (resetScene o s) := by
  unfold resetScene
  extract_lets +onlyGivenNames v0
  refine Within.cut (x := v0) ?_ (fun h1 => ?_)
  · subst v0
    refine Within.step (onScene_within _ _ _) rfl ?_
    exact Within.refl _ _
  · clear_value v0
    split
    · rename_i w2 w3 w4
      refine Within.ite (fun _ => ?_) (fun _ => ?_)
      · refine Within.step (tryPost_within _ _) rfl ?_
        refine Within.step (noteReset_within _ _ _) rfl ?_
        exact h1
      · refine Within.step (rollBack_within _ _ _) rfl ?_
        exact h1
    · rename_i w5 w6
      exact h1

theorem resetController_within (c s) :
    Within [.free, .out, .bus, .evt, .cue, .hfe, .scn, .obj, .trl, .flc, .smg, .bob, .tly, .scr, .slm] s (resetController c s) := by
  unfold resetController
  extract_lets +onlyGivenNames v0
  clear_value v0
  extract_lets +onlyGivenNames v2
  refine Within.cut (x := v2) ?_ (fun h3 => ?_)
  · subst v2
    refine Within.step (onSide_within _ _ _) rfl ?_
    exact Within.refl _ _
  · clear_value v2
    extract_lets +onlyGivenNames v4
    refine Within.cut (x := v4) ?_ (fun h5 => ?_)
    · subst v4
      refine Within.step (onCtrl_within _ _ _) rfl ?_
      exact h3
    · clear_value v4
      extract_lets +onlyGivenNames v6
      refine Within.cut (x := v6) ?_ (fun h7 => ?_)
      · subst v6
        refine Within.foldl (fun u8 a9 => ?_) ?_
        · refine Within.step (resetScene_within _ _) rfl ?_
          exact Within.refl _ _
        · exact h5
      · clear_value v6
        refine Within.step (goOn_within _) rfl ?_
        refine Within.upd ?_ (by constructor <;> first | exact .inl rfl | exact .inr rfl | exact Nat.le_refl _ | exact List.suffix_refl _ | exact id | exact Nat.le_add_right _ _ | exact .inr ⟨rfl, rfl⟩ | exact memWrite_wf | exact memErase_wf | exact Nat.le_of_eq (closeAllPages_next _).symm)
        exact h7

theorem resetAll_within (l s) :
    Within [.free, .out, .bus, .evt, .cue, .hfe, .scn, .obj, .trl, .flc, .smg, .bob, .tly, .scr, .slm] s (resetAll l s) := by
  unfold resetAll
  refine Within.foldl (fun u0 a1 => ?_) ?_
  · refine Within.step (resetController_within _ _) rfl ?_
    exact Within.refl _ _
  · exact Within.refl _ _

theorem clearBar0_within (port p s) :
    Within [.bus, .hfe, .halves] s (clearBar0 port p s) := by
  unfold clearBar0
  extract_lets +onlyGivenNames v0
  refine Within.cut (x := v0) ?_ (fun h1 => ?_)
  · subst v0
    refine Within.step (dropRequesters_within _ _) rfl ?_
    exact Within.refl _ _
  · clear_value v0
    refine Within.hfe rfl ?_
    exact h1

theorem setLink_within (port l s) :
    Within [.hfe] s (setLink port l s) := by
  unfold setLink
  refine Within.hfe rfl ?_
  exact Within.refl _ _

theorem doPcieLinkDown_within (port s) :
    Within [.free, .out, .bus, .evt, .cue, .hfe, .scn, .obj, .trl, .flc, .smg, .bob, .tly, .scr, .slm, .halves] s (doPcieLinkDown
      port s) := by
  unfold doPcieLinkDown
  refine Within.ite (fun _ => ?_) (fun _ => ?_)
  · refine Within.step (setVfs_within _ _ _) rfl ?_
    refine Within.step (resetAll_within _ _) rfl ?_
    refine Within.step (clearBar0_within _ _ _) rfl ?_
    refine Within.step (raiseObj_within _ _ _ _) rfl ?_
    refine Within.step (setLink_within _ _ _) rfl ?_
    exact Within.refl _ _
  · exact Within.refl _ _

theorem closeAllOf_within (c s) :
    Within [.out, .hfe] s (closeAllOf c s) := by
  unfold closeAllOf
  extract_lets +onlyGivenNames v0
  clear_value v0
  extract_lets +onlyGivenNames v2
  clear_value v2
  refine Within.step (emitAll_within _ _) rfl ?_
  refine Within.hfe rfl ?_
  exact Within.refl _ _

theorem endAssociation_within (c normal s) :
    Within [.free, .out, .bus, .evt, .cue, .hfe, .scn, .obj, .trl, .flc, .smg, .bob, .tly, .scr, .slm] s (endAssociation c normal s)
      := by
  unfold endAssociation
  split
  · rename_i w0 w1 w2
    split
    · rename_i w3 w4 w5
      extract_lets +onlyGivenNames v6
      refine Within.cut (x := v6) ?_ (fun h7 => ?_)
      · subst v6
        refine Within.step (raiseObj_within _ _ _ _) rfl ?_
        exact Within.refl _ _
      · clear_value v6
        extract_lets +onlyGivenNames v8
        refine Within.cut (x := v8) ?_ (fun h9 => ?_)
        · subst v8
          refine Within.step (onCtrl_within _ _ _) rfl ?_
          exact h7
        · clear_value v8
          refine Within.step (resetController_within _ _) rfl ?_
          refine Within.step (closeAllOf_within _ _) rfl ?_
          exact h9
    · rename_i w10 w11
      exact Within.refl _ _
  · rename_i w12 w13
    exact Within.refl _ _

theorem loseQueue_within (c q s) :
    Within [.free, .out, .bus, .evt, .cue, .hfe, .scn, .obj, .trl, .flc, .smg, .bob, .tly, .scr, .slm] s (loseQueue c q s) := by
  unfold loseQueue
  extract_lets +onlyGivenNames v0
  clear_value v0
  extract_lets +onlyGivenNames v2
  refine Within.cut (x := v2) ?_ (fun h3 => ?_)
  · subst v2
    refine Within.foldl (fun u4 a5 => ?_) ?_
    · refine Within.step (resetScene_within _ _) rfl ?_
      exact Within.refl _ _
    · exact Within.refl _ _
  · clear_value v2
    refine Within.step (goOn_within _) rfl ?_
    refine Within.scn rfl ?_
    exact h3

theorem loseConn_within (conn s) :
    Within [.free, .out, .bus, .evt, .cue, .hfe, .scn, .obj, .trl, .flc, .smg, .bob, .tly, .scr, .slm] s (loseConn conn s) := by
  unfold loseConn
  split
  · rename_i w0 w1 w2
    extract_lets +onlyGivenNames v3
    clear_value v3
    extract_lets +onlyGivenNames v5
    refine Within.cut (x := v5) ?_ (fun h6 => ?_)
    · subst v5
      refine Within.hfe rfl ?_
      exact Within.refl _ _
    · clear_value v5
      split
      · rename_i w7 w8 w9
        refine Within.ite (fun _ => ?_) (fun _ => ?_)
        · refine Within.step (endAssociation_within _ _ _) rfl ?_
          exact h6
        · refine Within.step (loseQueue_within _ _ _) rfl ?_
          exact h6
      · rename_i w10 w11
        exact h6
  · rename_i w12 w13
    exact Within.refl _ _

theorem closeConn_within (conn s) :
    Within [.free, .out, .bus, .evt, .cue, .hfe, .scn, .obj, .trl, .flc, .smg, .bob, .tly, .scr, .slm] s (closeConn conn s) := by
  unfold closeConn
  refine Within.step (loseConn_within _ _) rfl ?_
  refine Within.step (emit_within _ _) rfl ?_
  exact Within.refl _ _

theorem loseQp_within (qp s) :
    Within [.free, .out, .bus, .evt, .cue, .hfe, .scn, .obj, .trl, .flc, .smg, .bob, .tly, .scr, .slm] s (loseQp qp s) := by
  unfold loseQp
  split
  · rename_i w0 w1 w2
    extract_lets +onlyGivenNames v3
    clear_value v3
    extract_lets +onlyGivenNames v5
    refine Within.cut (x := v5) ?_ (fun h6 => ?_)
    · subst v5
      refine Within.hfe rfl ?_
      exact Within.refl _ _
    · clear_value v5
      split
      · rename_i w7 w8 w9
        refine Within.ite (fun _ => ?_) (fun _ => ?_)
        · refine Within.step (endAssociation_within _ _ _) rfl ?_
          exact h6
        · refine Within.step (loseQueue_within _ _ _) rfl ?_
          exact h6
      · rename_i w10 w11
        exact h6
  · rename_i w12 w13
    exact Within.refl _ _

theorem doInvalidHostClose_within (conn s) :
    Within [.free, .out, .bus, .evt, .cue, .hfe, .scn, .obj, .trl, .flc, .smg, .bob, .tly, .scr, .slm] s (doInvalidHostClose conn s)
      := by
  unfold doInvalidHostClose
  extract_lets +onlyGivenNames v0
  clear_value v0
  refine Within.ite (fun _ => ?_) (fun _ => ?_)
  · refine Within.step (closeConn_within _ _) rfl ?_
    exact Within.refl _ _
  · refine Within.ite (fun _ => ?_) (fun _ => ?_)
    · refine Within.step (loseQp_within _ _) rfl ?_
      refine Within.step (emit_within _ _) rfl ?_
      exact Within.refl _ _
    · exact Within.refl _ _

theorem doControllerDisable_within (c s) :
    Within [.free, .out, .bus, .evt, .cue, .hfe, .scn, .obj, .trl, .flc, .smg, .bob, .tly, .scr, .slm] s (doControllerDisable c s)
      := by
  unfold doControllerDisable
  split
  · rename_i w0 w1 w2
    refine Within.ite (fun _ => ?_) (fun _ => ?_)
    · refine Within.step (onCtrl_within _ _ _) rfl ?_
      exact Within.refl _ _
    · refine Within.ite (fun _ => ?_) (fun _ => ?_)
      · refine Within.step (resetController_within _ _) rfl ?_
        exact Within.refl _ _
      · exact Within.refl _ _
  · rename_i w3 w4
    exact Within.refl _ _

theorem showNet_within (s) :
    Within [.bus, .regs] s (showNet s) := by
  unfold showNet
  extract_lets +onlyGivenNames v0
  clear_value v0
  refine Within.foldl (fun u2 a3 => ?_) ?_
  · refine Within.step (setReg_within _ _ _) rfl ?_
    exact Within.refl _ _
  · exact Within.refl _ _

theorem doHfeNetCtrlWrite_within (val s) :
    Within [.free, .out, .bus, .evt, .cue, .hfe, .scn, .obj, .trl, .flc, .smg, .bob, .tly, .scr, .slm, .regs] s (doHfeNetCtrlWrite
      val s) := by
  unfold doHfeNetCtrlWrite
  refine Within.ite (fun _ => ?_) (fun _ => ?_)
  · exact Within.refl _ _
  · extract_lets +onlyGivenNames v0
    clear_value v0
    extract_lets +onlyGivenNames v2
    clear_value v2
    extract_lets +onlyGivenNames v4
    clear_value v4
    extract_lets +onlyGivenNames v6
    clear_value v6
    refine Within.ite (fun _ => ?_) (fun _ => ?_)
    · refine Within.step (showNet_within _) rfl ?_
      refine Within.step (raiseObj_within _ _ _ _) rfl ?_
      exact Within.refl _ _
    · extract_lets +onlyGivenNames v8
      clear_value v8
      extract_lets +onlyGivenNames v10
      refine Within.cut (x := v10) ?_ (fun h11 => ?_)
      · subst v10
        refine Within.hfe rfl ?_
        exact Within.refl _ _
      · clear_value v10
        refine Within.ite (fun _ => ?_) (fun _ => ?_)
        · exact h11
        · extract_lets +onlyGivenNames v12
          clear_value v12
          extract_lets +onlyGivenNames v14
          clear_value v14
          refine Within.foldl (fun u16 a17 => ?_) ?_
          · refine Within.step (loseQp_within _ _) rfl ?_
            refine Within.step (emit_within _ _) rfl ?_
            exact Within.refl _ _
          · refine Within.foldl (fun u18 a19 => ?_) ?_
            · refine Within.step (closeConn_within _ _) rfl ?_
              exact Within.refl _ _
            · exact h11

theorem doRdmaQpLoss_within (qp s) :
    Within [.free, .out, .bus, .evt, .cue, .hfe, .scn, .obj, .trl, .flc, .smg, .bob, .tly, .scr, .slm] s (doRdmaQpLoss qp s) := by
  unfold doRdmaQpLoss
  refine Within.step (loseQp_within _ _) rfl ?_
  exact Within.refl _ _

theorem bindQueue_within (c s) :
    Within [.hfe] s (bindQueue c s) := by
  unfold bindQueue
  refine Within.ite (fun _ => ?_) (fun _ => ?_)
  · refine Within.hfe rfl ?_
    exact Within.refl _ _
  · refine Within.hfe rfl ?_
    exact Within.refl _ _

theorem terminate_within (src fes conn s) :
    Within [.free, .out, .bus, .evt, .cue, .hfe, .scn, .obj, .trl, .flc, .smg, .bob, .tly, .scr, .slm] s (terminate src fes conn s)
      := by
  unfold terminate
  refine Within.step (closeConn_within _ _) rfl ?_
  refine Within.step (emit_within _ _) rfl ?_
  refine Within.step (raiseObj_within _ _ _ _) rfl ?_
  exact Within.refl _ _

theorem doTcpIcreq_within (conn ic s) :
    Within [.free, .out, .bus, .evt, .cue, .hfe, .scn, .obj, .trl, .flc, .smg, .bob, .tly, .scr, .slm] s (doTcpIcreq conn ic s) := by
  unfold doTcpIcreq
  extract_lets +onlyGivenNames v0
  clear_value v0
  refine Within.ite (fun _ => ?_) (fun _ => ?_)
  · exact Within.refl _ _
  · extract_lets +onlyGivenNames v2
    clear_value v2
    extract_lets +onlyGivenNames v4
    clear_value v4
    extract_lets +onlyGivenNames v6
    refine Within.cut (x := v6) ?_ (fun h7 => ?_)
    · subst v6
      refine Within.hfe rfl ?_
      exact Within.refl _ _
    · clear_value v6
      refine Within.ite (fun _ => ?_) (fun _ => ?_)
      · refine Within.step (terminate_within _ _ _ _) rfl ?_
        exact h7
      · refine Within.ite (fun _ => ?_) (fun _ => ?_)
        · refine Within.step (closeConn_within _ _) rfl ?_
          exact h7
        · refine Within.ite (fun _ => ?_) (fun _ => ?_)
          · refine Within.step (terminate_within _ _ _ _) rfl ?_
            exact h7
          · refine Within.ite (fun _ => ?_) (fun _ => ?_)
            · refine Within.step (terminate_within _ _ _ _) rfl ?_
              exact h7
            · extract_lets +onlyGivenNames v8
              clear_value v8
              refine Within.step (emit_within _ _) rfl ?_
              refine Within.hfe rfl ?_
              exact h7

theorem onPort_within (lp f s) :
    Within [.hfe] s (onPort lp f s) := by
  unfold onPort
  refine Within.hfe rfl ?_
  exact Within.refl _ _

theorem pfcAfter_within (lp fill s) :
    Within [.out, .hfe] s (pfcAfter lp fill s) := by
  unfold pfcAfter
  extract_lets +onlyGivenNames v0
  clear_value v0
  split
  · rename_i w2 w3 w4 w5
    refine Within.ite (fun _ => ?_) (fun _ => ?_)
    · refine Within.step (emit_within _ _) rfl ?_
      refine Within.step (onPort_within _ _ _) rfl ?_
      exact Within.refl _ _
    · refine Within.ite (fun _ => ?_) (fun _ => ?_)
      · refine Within.step (emit_within _ _) rfl ?_
        refine Within.step (onPort_within _ _ _) rfl ?_
        exact Within.refl _ _
      · refine Within.step (onPort_within _ _ _) rfl ?_
        exact Within.refl _ _

theorem answerConnect_within (c st s) :
    Within [.out, .bus, .evt] s (answerConnect c st s) := by
  unfold answerConnect
  extract_lets +onlyGivenNames v0
  refine Within.cut (x := v0) ?_ (fun h1 => ?_)
  · subst v0
    refine Within.ite (fun _ => ?_) (fun _ => ?_)
    · exact Within.refl _ _
    · refine Within.step (raiseObj_within _ _ _ _) rfl ?_
      exact Within.refl _ _
  · clear_value v0
    refine Within.step (emit_within _ _) rfl ?_
    exact h1

theorem freshQueues_within (c sqSize cqSize s) :
    Within [.scn] s (freshQueues c sqSize cqSize s) := by
  unfold freshQueues
  refine Within.step (onSide_within _ _ _) rfl ?_
  refine Within.scn rfl ?_
  exact Within.refl _ _

theorem associate_within (c r s) :
    Within [.out, .bus, .evt, .hfe, .scn] s (associate c r s) := by
  unfold associate
  extract_lets +onlyGivenNames v0
  clear_value v0
  extract_lets +onlyGivenNames v2
  clear_value v2
  extract_lets +onlyGivenNames v4
  clear_value v4
  extract_lets +onlyGivenNames v6
  refine Within.cut (x := v6) ?_ (fun h7 => ?_)
  · subst v6
    refine Within.hfe rfl ?_
    exact Within.refl _ _
  · clear_value v6
    refine Within.step (raiseObj_within _ _ _ _) rfl ?_
    refine Within.step (answerConnect_within _ _ _) rfl ?_
    refine Within.step (bindQueue_within _ _) rfl ?_
    refine Within.step (freshQueues_within _ _ _ _) rfl ?_
    exact h7

theorem doTlsRecord_within (conn authentic s) :
    Within [.free, .out, .bus, .evt, .cue, .hfe, .scn, .obj, .trl, .flc, .smg, .bob, .tly, .scr, .slm] s (doTlsRecord conn authentic
      s) := by
  unfold doTlsRecord
  split
  · rename_i w0 w1 w2
    split
    · rename_i w3 w4 w5
      refine Within.ite (fun _ => ?_) (fun _ => ?_)
      · refine Within.hfe rfl ?_
        exact Within.refl _ _
      · refine Within.step (closeConn_within _ _) rfl ?_
        refine Within.step (emit_within _ _) rfl ?_
        refine Within.step (count1_within _ _) rfl ?_
        refine Within.step (raiseObj_within _ _ _ _) rfl ?_
        exact Within.refl _ _
    · rename_i w6 w7
      exact Within.refl _ _
  · rename_i w8 w9
    exact Within.refl _ _

theorem doLogicalPortDown_within (lp s) :
    Within [.free, .out, .bus, .evt, .cue, .hfe, .scn, .obj, .trl, .flc, .smg, .bob, .tly, .scr, .slm] s (doLogicalPortDown lp s) := by
  unfold doLogicalPortDown
  refine Within.ite (fun _ => ?_) (fun _ => ?_)
  · extract_lets +onlyGivenNames v0
    refine Within.cut (x := v0) ?_ (fun h1 => ?_)
    · subst v0
      refine Within.step (raiseObj_within _ _ _ _) rfl ?_
      refine Within.step (onPort_within _ _ _) rfl ?_
      exact Within.refl _ _
    · clear_value v0
      extract_lets +onlyGivenNames v2
      clear_value v2
      extract_lets +onlyGivenNames v4
      clear_value v4
      refine Within.foldl (fun u6 a7 => ?_) ?_
      · refine Within.step (loseQp_within _ _) rfl ?_
        exact Within.refl _ _
      · refine Within.foldl (fun u8 a9 => ?_) ?_
        · refine Within.step (loseConn_within _ _) rfl ?_
          exact Within.refl _ _
        · exact h1
  · exact Within.refl _ _

theorem doTcpConnectionLoss_within (conn s) :
    Within [.free, .out, .bus, .evt, .cue, .hfe, .scn, .obj, .trl, .flc, .smg, .bob, .tly, .scr, .slm] s (doTcpConnectionLoss conn
      s) := by
  unfold doTcpConnectionLoss
  refine Within.step (loseConn_within _ _) rfl ?_
  exact Within.refl _ _

theorem doVfEnableChange_within (port enable numVfs s) :
    Within [.free, .out, .bus, .evt, .cue, .hfe, .scn, .obj, .trl, .flc, .smg, .bob, .tly, .scr, .slm, .halves] s (doVfEnableChange
      port enable numVfs s) := by
  unfold doVfEnableChange
  extract_lets +onlyGivenNames v0
  clear_value v0
  refine Within.ite (fun _ => ?_) (fun _ => ?_)
  · exact Within.refl _ _
  · refine Within.ite (fun _ => ?_) (fun _ => ?_)
    · exact Within.refl _ _
    · refine Within.step (setVfs_within _ _ _) rfl ?_
      refine Within.ite (fun _ => ?_) (fun _ => ?_)
      · exact Within.refl _ _
      · refine Within.step (resetAll_within _ _) rfl ?_
        refine Within.step (clearBar0_within _ _ _) rfl ?_
        exact Within.refl _ _

theorem failShort_within (c q cap s) :
    Within [.free, .out, .bus, .evt, .cue, .hfe, .scn, .obj, .trl, .flc, .smg, .bob, .tly, .scr, .slm] s (failShort c q cap s) := by
  unfold failShort
  extract_lets +onlyGivenNames v0
  refine Within.cut (x := v0) ?_ (fun h1 => ?_)
  · subst v0
    refine Within.step (onSq_within _ _ _ _) rfl ?_
    exact Within.refl _ _
  · clear_value v0
    refine Within.step (goOn_within _) rfl ?_
    refine Within.step (failCmd_within _ _ _ _) rfl ?_
    exact h1

theorem failScene_within (o st s) :
    Within [.free, .out, .bus, .evt, .cue, .hfe, .scn, .obj, .trl, .flc, .smg, .bob, .tly, .scr, .slm] s (failScene o st s) := by
  unfold failScene
  refine Within.step (rollBackRequest_within _ _ _) rfl ?_
  exact Within.refl _ _

theorem dropReq_within (rid s) :
    Within [.hfe] s (dropReq rid s) := by
  unfold dropReq
  refine Within.hfe rfl ?_
  exact Within.refl _ _

theorem doRdmaNak_within (rid s) :
    Within [.free, .out, .bus, .evt, .cue, .hfe, .scn, .obj, .trl, .flc, .smg, .bob, .tly, .scr, .slm] s (doRdmaNak rid s) := by
  unfold doRdmaNak
  split
  · rename_i w0 w1 w2
    refine Within.ite (fun _ => ?_) (fun _ => ?_)
    · refine Within.step (loseQp_within _ _) rfl ?_
      refine Within.step (failScene_within _ _ _) rfl ?_
      refine Within.step (raiseObj_within _ _ _ _) rfl ?_
      refine Within.step (dropReq_within _ _) rfl ?_
      exact Within.refl _ _
    · exact Within.refl _ _
  · rename_i w3 w4
    exact Within.refl _ _

theorem doConnectAdmitted_within (conn s) :
    Within [.out, .bus, .evt, .hfe, .scn] s (doConnectAdmitted conn s) := by
  unfold doConnectAdmitted
  split
  · rename_i w0 w1 w2
    extract_lets +onlyGivenNames v3
    clear_value v3
    refine Within.ite (fun _ => ?_) (fun _ => ?_)
    · exact Within.refl _ _
    · extract_lets +onlyGivenNames v5
      clear_value v5
      extract_lets +onlyGivenNames v7
      refine Within.cut (x := v7) ?_ (fun h8 => ?_)
      · subst v7
        refine Within.hfe rfl ?_
        exact Within.refl _ _
      · clear_value v7
        split
        · rename_i w9 w10 w11 w12
          refine Within.ite (fun _ => ?_) (fun _ => ?_)
          · refine Within.step (answerConnect_within _ _ _) rfl ?_
            exact h8
          · refine Within.step (associate_within _ _ _) rfl ?_
            exact h8
        · rename_i w13 w14 w15
          refine Within.step (answerConnect_within _ _ _) rfl ?_
          exact h8
  · rename_i w16 w17
    exact Within.refl _ _

theorem doRdmaSend_within (qp cap noBuffer s) :
    Within [.free, .out, .bus, .evt, .cue, .hfe, .scn, .obj, .trl, .flc, .smg, .bob, .tly, .scr, .slm] s (doRdmaSend qp cap noBuffer
      s) := by
  unfold doRdmaSend
  split
  · rename_i w0 w1
    exact Within.refl _ _
  · rename_i w2 w3 w4
    extract_lets +onlyGivenNames v5
    clear_value v5
    refine Within.ite (fun _ => ?_) (fun _ => ?_)
    · exact Within.refl _ _
    · refine Within.ite (fun _ => ?_) (fun _ => ?_)
      · refine Within.step (loseQp_within _ _) rfl ?_
        refine Within.step (emit_within _ _) rfl ?_
        refine Within.step (raiseObj_within _ _ _ _) rfl ?_
        exact Within.refl _ _
      · refine Within.ite (fun _ => ?_) (fun _ => ?_)
        · refine Within.step (loseQp_within _ _) rfl ?_
          refine Within.step (emit_within _ _) rfl ?_
          refine Within.step (raiseObj_within _ _ _ _) rfl ?_
          exact Within.refl _ _
        · split
          · rename_i w7 w8 w9 w10 w11
            exact Within.refl _ _
          · rename_i w12 w13 w14 w15 w16 w17
            refine Within.ite (fun _ => ?_) (fun _ => ?_)
            · refine Within.step (emit_within _ _) rfl ?_
              exact Within.refl _ _
            · refine Within.ite (fun _ => ?_) (fun _ => ?_)
              · refine Within.step (failShort_within _ _ _ _) rfl ?_
                refine Within.step (raiseObj_within _ _ _ _) rfl ?_
                exact Within.refl _ _
              · refine Within.ite (fun _ => ?_) (fun _ => ?_)
                · refine Within.step (queueCapsule_within _ _ _ _) rfl ?_
                  exact Within.refl _ _
                · refine Within.hfe rfl ?_
                  exact Within.refl _ _

theorem deliver_within (rid r b s) :
    Within [.free, .out, .bus, .evt, .cue, .hfe, .scn, .obj, .trl, .flc, .smg, .bob, .tly, .scr, .slm] s (deliver rid r b s) := by
  unfold deliver
  extract_lets +onlyGivenNames v0
  clear_value v0
  extract_lets +onlyGivenNames v2
  refine Within.cut (x := v2) ?_ (fun h3 => ?_)
  · subst v2
    refine Within.step (onScene_within _ _ _) rfl ?_
    exact Within.refl _ _
  · clear_value v2
    extract_lets +onlyGivenNames v4
    clear_value v4
    extract_lets +onlyGivenNames v6
    clear_value v6
    refine Within.step (goOn_within _) rfl ?_
    refine Within.hfe rfl ?_
    exact h3

theorem doPcieCompletion_within (rid st b s) :
    Within [.free, .out, .bus, .evt, .cue, .hfe, .scn, .obj, .trl, .flc, .smg, .bob, .tly, .scr, .slm] s (doPcieCompletion rid st b
      s) := by
  unfold doPcieCompletion
  split
  · rename_i w0 w1 w2
    extract_lets +onlyGivenNames v3
    subst v3
    refine Within.ite (fun _ => ?_) (fun _ => ?_)
    · exact Within.refl _ _
    · refine Within.ite (fun _ => ?_) (fun _ => ?_)
      · dsimp only
        refine Within.step (aerOf_within _ _ _) rfl ?_
        refine Within.step (raiseObj_within _ _ _ _) rfl ?_
        refine Within.step (dropReq_within _ _) rfl ?_
        exact Within.refl _ _
      · refine Within.ite (fun _ => ?_) (fun _ => ?_)
        · refine Within.step (dropReq_within _ _) rfl ?_
          exact Within.refl _ _
        · split
          · rename_i w5 w6 w7 w8
            refine Within.step (deliver_within _ _ _ _) rfl ?_
            exact Within.refl _ _
          · rename_i w9 w10 w11 w12
            refine Within.step (failScene_within _ _ _) rfl ?_
            dsimp only
            refine Within.step (aerOf_within _ _ _) rfl ?_
            refine Within.step (raiseObj_within _ _ _ _) rfl ?_
            refine Within.step (dropReq_within _ _) rfl ?_
            exact Within.refl _ _
          · rename_i w13 w14 w15 w16
            refine Within.step (failScene_within _ _ _) rfl ?_
            refine Within.step (raiseObj_within _ _ _ _) rfl ?_
            refine Within.step (dropReq_within _ _) rfl ?_
            exact Within.refl _ _
          · rename_i w17 w18 w19 w20
            refine Within.step (failScene_within _ _ _) rfl ?_
            refine Within.step (raiseObj_within _ _ _ _) rfl ?_
            refine Within.step (dropReq_within _ _) rfl ?_
            exact Within.refl _ _
  · rename_i w21 w22
    refine Within.ite (fun _ => ?_) (fun _ => ?_)
    · refine Within.step (emit_within _ _) rfl ?_
      refine Within.step (raiseObj_within _ _ _ _) rfl ?_
      exact Within.refl _ _
    · exact Within.refl _ _

theorem doControllerEnable_within (c aqa s) :
    Within [.hfe, .scn] s (doControllerEnable c aqa s) := by
  unfold doControllerEnable
  extract_lets +onlyGivenNames v0
  clear_value v0
  extract_lets +onlyGivenNames v2
  clear_value v2
  extract_lets +onlyGivenNames v4
  clear_value v4
  refine Within.ite (fun _ => ?_) (fun _ => ?_)
  · exact Within.refl _ _
  · extract_lets +onlyGivenNames v6
    clear_value v6
    extract_lets +onlyGivenNames v8
    refine Within.cutFun (f := v8) ?_ (fun h9 => ?_)
    · subst v8
      intro u10
      dsimp only
      refine Within.hfe rfl ?_
      exact Within.refl _ _
    · clear_value v8
      split
      · rename_i w11 w12 w13
        refine Within.trans ?_ (h9 _)
        exact Within.refl _ _
      · rename_i w14 w15 w16 w17
        extract_lets +onlyGivenNames v18
        clear_value v18
        refine Within.ite (fun _ => ?_) (fun _ => ?_)
        · refine Within.trans ?_ (h9 _)
          exact Within.refl _ _
        · refine Within.step (freshQueues_within _ _ _ _) rfl ?_
          refine Within.hfe rfl ?_
          exact Within.refl _ _

theorem doDoorbellWrite_within (c cq qid val s) :
    Within [.free, .out, .bus, .evt, .cue, .hfe, .scn, .obj, .trl, .flc, .smg, .bob, .tly, .scr, .slm] s (doDoorbellWrite c cq qid
      val s) := by
  unfold doDoorbellWrite
  extract_lets +onlyGivenNames v0
  clear_value v0
  refine Within.ite (fun _ => ?_) (fun _ => ?_)
  · exact Within.refl _ _
  · split
    · rename_i w2 w3 w4 w5
      refine Within.ite (fun _ => ?_) (fun _ => ?_)
      · refine Within.step (raiseObj_within _ _ _ _) rfl ?_
        exact Within.refl _ _
      · refine Within.ite (fun _ => ?_) (fun _ => ?_)
        · split
          · rename_i w6 w7 w8 w9 w10
            extract_lets +onlyGivenNames v11
            clear_value v11
            extract_lets +onlyGivenNames v13
            clear_value v13
            refine Within.ite (fun _ => ?_) (fun _ => ?_)
            · refine Within.step (goOn_within _) rfl ?_
              refine Within.step (standardAen_within _ _ _ _ _) rfl ?_
              refine Within.step (raiseObj_within _ _ _ _) rfl ?_
              exact Within.refl _ _
            · refine Within.step (goOn_within _) rfl ?_
              refine Within.scn rfl ?_
              exact Within.refl _ _
          · rename_i w15 w16 w17 w18
            refine Within.step (goOn_within _) rfl ?_
            refine Within.step (standardAen_within _ _ _ _ _) rfl ?_
            refine Within.step (raiseObj_within _ _ _ _) rfl ?_
            exact Within.refl _ _
        · split
          · rename_i w19 w20 w21 w22 w23
            refine Within.ite (fun _ => ?_) (fun _ => ?_)
            · refine Within.step (goOn_within _) rfl ?_
              refine Within.step (standardAen_within _ _ _ _ _) rfl ?_
              refine Within.step (raiseObj_within _ _ _ _) rfl ?_
              exact Within.refl _ _
            · refine Within.step (onSq_within _ _ _ _) rfl ?_
              exact Within.refl _ _
          · rename_i w24 w25 w26 w27
            refine Within.step (goOn_within _) rfl ?_
            refine Within.step (standardAen_within _ _ _ _ _) rfl ?_
            refine Within.step (raiseObj_within _ _ _ _) rfl ?_
            exact Within.refl _ _
    · rename_i w28 w29 w30
      refine Within.step (raiseObj_within _ _ _ _) rfl ?_
      exact Within.refl _ _

theorem doRdmaReadResponse_within (rid b s) :
    Within [.free, .out, .bus, .evt, .cue, .hfe, .scn, .obj, .trl, .flc, .smg, .bob, .tly, .scr, .slm] s (doRdmaReadResponse rid b
      s) := by
  unfold doRdmaReadResponse
  split
  · rename_i w0 w1 w2
    refine Within.ite (fun _ => ?_) (fun _ => ?_)
    · refine Within.step (deliver_within _ _ _ _) rfl ?_
      exact Within.refl _ _
    · exact Within.refl _ _
  · rename_i w3 w4
    exact Within.refl _ _

theorem doDisconnect_within (conn s) :
    Within [.free, .out, .bus, .evt, .cue, .hfe, .scn, .obj, .trl, .flc, .smg, .bob, .tly, .scr, .slm] s (doDisconnect conn s) := by
  unfold doDisconnect
  extract_lets +onlyGivenNames v0
  clear_value v0
  split
  · rename_i w2 w3 w4 w5
    refine Within.ite (fun _ => ?_) (fun _ => ?_)
    · refine Within.step (endAssociation_within _ _ _) rfl ?_
      refine Within.step (emit_within _ _) rfl ?_
      exact Within.refl _ _
    · extract_lets +onlyGivenNames v6
      refine Within.cut (x := v6) ?_ (fun h7 => ?_)
      · subst v6
        refine Within.step (onSq_within _ _ _ _) rfl ?_
        exact Within.refl _ _
      · clear_value v6
        refine Within.step (goOn_within _) rfl ?_
        refine Within.step (rollQueue_within _ _ _ _) rfl ?_
        exact h7
  · rename_i w8 w9
    exact Within.refl _ _

theorem invalidHost_within (c s) :
    Within [.out, .bus, .evt, .hfe] s (invalidHost c s) := by
  unfold invalidHost
  extract_lets +onlyGivenNames v0
  refine Within.cut (x := v0) ?_ (fun h1 => ?_)
  · subst v0
    refine Within.step (answerConnect_within _ _ _) rfl ?_
    exact Within.refl _ _
  · clear_value v0
    refine Within.ite (fun _ => ?_) (fun _ => ?_)
    · refine Within.hfe rfl ?_
      exact h1
    · refine Within.hfe rfl ?_
      exact h1

theorem doPduTypeNotAllowed_within (conn s) :
    Within [.free, .out, .bus, .evt, .cue, .hfe, .scn, .obj, .trl, .flc, .smg, .bob, .tly, .scr, .slm] s (doPduTypeNotAllowed conn
      s) := by
  unfold doPduTypeNotAllowed
  refine Within.ite (fun _ => ?_) (fun _ => ?_)
  · refine Within.step (terminate_within _ _ _ _) rfl ?_
    exact Within.refl _ _
  · exact Within.refl _ _

theorem doTlsHandshake_within (conn m s) :
    Within [.free, .out, .bus, .evt, .cue, .hfe, .scn, .obj, .trl, .flc, .smg, .bob, .tly, .scr, .slm] s (doTlsHandshake conn m s)
      := by
  unfold doTlsHandshake
  extract_lets +onlyGivenNames v0
  clear_value v0
  refine Within.ite (fun _ => ?_) (fun _ => ?_)
  · exact Within.refl _ _
  · extract_lets +onlyGivenNames v2
    clear_value v2
    extract_lets +onlyGivenNames v4
    clear_value v4
    extract_lets +onlyGivenNames v6
    refine Within.cut (x := v6) ?_ (fun h7 => ?_)
    · subst v6
      refine Within.hfe rfl ?_
      exact Within.refl _ _
    · clear_value v6
      refine Within.ite (fun _ => ?_) (fun _ => ?_)
      · extract_lets +onlyGivenNames v8
        clear_value v8
        refine Within.step (emit_within _ _) rfl ?_
        refine Within.hfe rfl ?_
        exact h7
      · refine Within.step (closeConn_within _ _) rfl ?_
        refine Within.step (emit_within _ _) rfl ?_
        refine Within.step (count1_within _ _) rfl ?_
        refine Within.step (raiseObj_within _ _ _ _) rfl ?_
        exact h7

theorem doDataRequestIssue_within (o len s) :
    Within [.free, .out, .bus, .evt, .cue, .hfe, .scn, .obj, .trl, .flc, .smg, .bob, .tly, .scr, .slm] s (doDataRequestIssue o len
      s) := by
  unfold doDataRequestIssue
  split
  · rename_i w0 w1
    exact Within.refl _ _
  · rename_i w2 w3 w4
    split
    · rename_i w5 w6
      exact Within.refl _ _
    · rename_i w7 w8 w9
      refine Within.ite (fun _ => ?_) (fun _ => ?_)
      · exact Within.refl _ _
      · refine Within.ite (fun _ => ?_) (fun _ => ?_)
        · refine Within.step (failScene_within _ _ _) rfl ?_
          exact Within.refl _ _
        · extract_lets +onlyGivenNames v10
          clear_value v10
          extract_lets +onlyGivenNames v12
          clear_value v12
          extract_lets +onlyGivenNames v14
          clear_value v14
          extract_lets +onlyGivenNames v16
          refine Within.cut (x := v16) ?_ (fun h17 => ?_)
          · subst v16
            refine Within.step (takeStaging_within _ _ _) rfl ?_
            refine Within.step (onScene_within _ _ _) rfl ?_
            exact Within.refl _ _
          · clear_value v16
            extract_lets +onlyGivenNames v18
            clear_value v18
            extract_lets +onlyGivenNames v20
            refine Within.cut (x := v20) ?_ (fun h21 => ?_)
            · subst v20
              refine Within.hfe rfl ?_
              exact h17
            · clear_value v20
              split
              · rename_i w22 w23 w24 w25
                refine Within.step (emit_within _ _) rfl ?_
                exact h21
              · rename_i w26 w27 w28 w29
                refine Within.step (emit_within _ _) rfl ?_
                exact h21
              · rename_i w30 w31 w32 w33
                refine Within.step (emit_within _ _) rfl ?_
                exact h21

theorem doCompletionTimeout_within (rid s) :
    Within [.free, .out, .bus, .evt, .cue, .hfe, .scn, .obj, .trl, .flc, .smg, .bob, .tly, .scr, .slm] s (doCompletionTimeout rid s)
      := by
  unfold doCompletionTimeout
  split
  · rename_i w0 w1 w2
    refine Within.ite (fun _ => ?_) (fun _ => ?_)
    · extract_lets +onlyGivenNames v3
      clear_value v3
      extract_lets +onlyGivenNames v5
      refine Within.cut (x := v5) ?_ (fun h6 => ?_)
      · subst v5
        refine Within.hfe rfl ?_
        exact Within.refl _ _
      · clear_value v5
        refine Within.step (failScene_within _ _ _) rfl ?_
        refine Within.step (aerOf_within _ _ _) rfl ?_
        refine Within.step (raiseObj_within _ _ _ _) rfl ?_
        exact h6
    · exact Within.refl _ _
  · rename_i w7 w8
    exact Within.refl _ _

theorem withQp_within (c s) :
    Within [.hfe] s (withQp c s) := by
  unfold withQp
  refine Within.ite (fun _ => ?_) (fun _ => ?_)
  · extract_lets +onlyGivenNames v0
    clear_value v0
    refine Within.hfe rfl ?_
    exact Within.refl _ _
  · exact Within.refl _ _

theorem doCnpReceived_within (qp s) :
    Within [.bus, .hfe] s (doCnpReceived qp s) := by
  unfold doCnpReceived
  split
  · rename_i w0 w1 w2
    refine Within.step (count1_within _ _) rfl ?_
    refine Within.hfe rfl ?_
    exact Within.refl _ _
  · rename_i w3 w4
    exact Within.refl _ _

theorem doPauseFrame_within (lp prio on s) :
    Within [.hfe] s (doPauseFrame lp prio on s) := by
  unfold doPauseFrame
  refine Within.ite (fun _ => ?_) (fun _ => ?_)
  · refine Within.step (onPort_within _ _ _) rfl ?_
    exact Within.refl _ _
  · exact Within.refl _ _

theorem doDataTimeout_within (rid s) :
    Within [.free, .out, .bus, .evt, .cue, .hfe, .scn, .obj, .trl, .flc, .smg, .bob, .tly, .scr, .slm] s (doDataTimeout rid s) := by
  unfold doDataTimeout
  split
  · rename_i w0 w1 w2
    refine Within.ite (fun _ => ?_) (fun _ => ?_)
    · refine Within.step (failScene_within _ _ _) rfl ?_
      refine Within.hfe rfl ?_
      exact Within.refl _ _
    · exact Within.refl _ _
  · rename_i w3 w4
    exact Within.refl _ _

theorem doPcieLinkUp_within (port rate width flit l0p s) :
    Within [.hfe] s (doPcieLinkUp port rate width flit l0p s) := by
  unfold doPcieLinkUp
  split
  · rename_i w0 w1 w2 w3 w4
    refine Within.ite (fun _ => ?_) (fun _ => ?_)
    · refine Within.step (setLink_within _ _ _) rfl ?_
      exact Within.refl _ _
    · exact Within.refl _ _

theorem doDoeObject_within (port obj s) :
    Within [.out, .bus, .evt, .hfe] s (doDoeObject port obj s) := by
  unfold doDoeObject
  refine Within.ite (fun _ => ?_) (fun _ => ?_)
  · exact Within.refl _ _
  · refine Within.ite (fun _ => ?_) (fun _ => ?_)
    · refine Within.step (emit_within _ _) rfl ?_
      refine Within.step (raiseObj_within _ _ _ _) rfl ?_
      refine Within.hfe rfl ?_
      exact Within.refl _ _
    · split
      · rename_i w0 w1 w2 w3
        refine Within.step (emit_within _ _) rfl ?_
        exact Within.refl _ _
      · rename_i w4 w5 w6 w7
        refine Within.step (emit_within _ _) rfl ?_
        exact Within.refl _ _
      · rename_i w8 w9 w10 w11 w12 w13
        refine Within.ite (fun _ => ?_) (fun _ => ?_)
        · refine Within.step (emit_within _ _) rfl ?_
          refine Within.hfe rfl ?_
          exact Within.refl _ _
        · refine Within.step (emit_within _ _) rfl ?_
          exact Within.refl _ _
      · rename_i w14 w15 w16 w17 w18
        refine Within.step (emit_within _ _) rfl ?_
        refine Within.hfe rfl ?_
        exact Within.refl _ _

theorem doKeepAliveExpiry_within (c s) :
    Within [.free, .out, .bus, .evt, .cue, .hfe, .scn, .obj, .trl, .flc, .smg, .bob, .tly, .scr, .slm] s (doKeepAliveExpiry c s) := by
  unfold doKeepAliveExpiry
  split
  · rename_i w0 w1 w2
    refine Within.ite (fun _ => ?_) (fun _ => ?_)
    · refine Within.step (endAssociation_within _ _ _) rfl ?_
      refine Within.step (raiseObj_within _ _ _ _) rfl ?_
      exact Within.refl _ _
    · exact Within.refl _ _
  · rename_i w3 w4
    exact Within.refl _ _

theorem doTcpCapsule_within (conn cap s) :
    Within [.free, .out, .bus, .evt, .cue, .hfe, .scn, .obj, .trl, .flc, .smg, .bob, .tly, .scr, .slm] s (doTcpCapsule conn cap s)
      := by
  unfold doTcpCapsule
  split
  · rename_i w0 w1
    exact Within.refl _ _
  · rename_i w2 w3 w4
    extract_lets +onlyGivenNames v5
    clear_value v5
    refine Within.ite (fun _ => ?_) (fun _ => ?_)
    · refine Within.step (terminate_within _ _ _ _) rfl ?_
      exact Within.refl _ _
    · refine Within.ite (fun _ => ?_) (fun _ => ?_)
      · refine Within.step (terminate_within _ _ _ _) rfl ?_
        exact Within.refl _ _
      · split
        · rename_i w7 w8 w9 w10
          exact Within.refl _ _
        · rename_i w11 w12 w13 w14 w15
          refine Within.ite (fun _ => ?_) (fun _ => ?_)
          · refine Within.step (terminate_within _ _ _ _) rfl ?_
            exact Within.refl _ _
          · refine Within.ite (fun _ => ?_) (fun _ => ?_)
            · refine Within.step (terminate_within _ _ _ _) rfl ?_
              exact Within.refl _ _
            · refine Within.ite (fun _ => ?_) (fun _ => ?_)
              · extract_lets +onlyGivenNames v16
                refine Within.cut (x := v16) ?_ (fun h17 => ?_)
                · subst v16
                  refine Within.step (raiseObj_within _ _ _ _) rfl ?_
                  exact Within.refl _ _
                · clear_value v16
                  extract_lets +onlyGivenNames v18
                  refine Within.cut (x := v18) ?_ (fun h19 => ?_)
                  · subst v18
                    refine Within.step (onSq_within _ _ _ _) rfl ?_
                    exact h17
                  · clear_value v18
                    refine Within.step (goOn_within _) rfl ?_
                    refine Within.step (failCmd_within _ _ _ _) rfl ?_
                    exact h19
              · refine Within.ite (fun _ => ?_) (fun _ => ?_)
                · refine Within.step (failShort_within _ _ _ _) rfl ?_
                  refine Within.step (raiseObj_within _ _ _ _) rfl ?_
                  exact Within.refl _ _
                · refine Within.ite (fun _ => ?_) (fun _ => ?_)
                  · refine Within.step (queueCapsule_within _ _ _ _) rfl ?_
                    exact Within.refl _ _
                  · refine Within.hfe rfl ?_
                    exact Within.refl _ _

theorem doTlsKeyUpdateDue_within (conn s) :
    Within [.out, .hfe] s (doTlsKeyUpdateDue conn s) := by
  unfold doTlsKeyUpdateDue
  split
  · rename_i w0 w1 w2
    split
    · rename_i w3 w4 w5
      extract_lets +onlyGivenNames v6
      clear_value v6
      refine Within.step (emit_within _ _) rfl ?_
      refine Within.hfe rfl ?_
      exact Within.refl _ _
    · rename_i w8 w9
      exact Within.refl _ _
  · rename_i w10 w11
    exact Within.refl _ _

theorem doConnect_within (c s) :
    Within [.out, .bus, .evt, .hfe, .scn] s (doConnect c s) := by
  unfold doConnect
  extract_lets +onlyGivenNames v0
  refine Within.cut (x := v0) ?_ (fun h1 => ?_)
  · subst v0
    refine Within.ite (fun _ => ?_) (fun _ => ?_)
    · refine Within.step (withQp_within _ _) rfl ?_
      exact Within.refl _ _
    · exact Within.refl _ _
  · clear_value v0
    extract_lets +onlyGivenNames v2
    clear_value v2
    refine Within.ite (fun _ => ?_) (fun _ => ?_)
    · exact h1
    · refine Within.ite (fun _ => ?_) (fun _ => ?_)
      · refine Within.step (invalidHost_within _ _) rfl ?_
        exact h1
      · split
        · rename_i w4 w5 w6 w7
          refine Within.step (answerConnect_within _ _ _) rfl ?_
          exact h1
        · rename_i w8 w9 w10 w11 w12
          extract_lets +onlyGivenNames v13
          clear_value v13
          extract_lets +onlyGivenNames v15
          clear_value v15
          extract_lets +onlyGivenNames v17
          clear_value v17
          refine Within.ite (fun _ => ?_) (fun _ => ?_)
          · refine Within.step (answerConnect_within _ _ _) rfl ?_
            exact h1
          · refine Within.ite (fun _ => ?_) (fun _ => ?_)
            · refine Within.ite (fun _ => ?_) (fun _ => ?_)
              · refine Within.step (invalidHost_within _ _) rfl ?_
                exact h1
              · refine Within.ite (fun _ => ?_) (fun _ => ?_)
                · refine Within.step (answerConnect_within _ _ _) rfl ?_
                  exact h1
                · refine Within.ite (fun _ => ?_) (fun _ => ?_)
                  · refine Within.step (answerConnect_within _ _ _) rfl ?_
                    exact h1
                  · refine Within.ite (fun _ => ?_) (fun _ => ?_)
                    · refine Within.hfe rfl ?_
                      exact h1
                    · refine Within.step (associate_within _ _ _) rfl ?_
                      exact h1
            · split
              · rename_i w19 w20 w21 w22
                refine Within.step (answerConnect_within _ _ _) rfl ?_
                exact h1
              · rename_i w23 w24 w25 w26 w27
                refine Within.ite (fun _ => ?_) (fun _ => ?_)
                · refine Within.step (answerConnect_within _ _ _) rfl ?_
                  exact h1
                · refine Within.step (answerConnect_within _ _ _) rfl ?_
                  refine Within.step (bindQueue_within _ _) rfl ?_
                  refine Within.scn rfl ?_
                  exact h1

theorem doRdmaInboundAccess_within (qp s) :
    Within [.free, .out, .bus, .evt, .cue, .hfe, .scn, .obj, .trl, .flc, .smg, .bob, .tly, .scr, .slm] s (doRdmaInboundAccess qp s)
      := by
  unfold doRdmaInboundAccess
  refine Within.ite (fun _ => ?_) (fun _ => ?_)
  · refine Within.step (loseQp_within _ _) rfl ?_
    refine Within.step (emit_within _ _) rfl ?_
    refine Within.step (emit_within _ _) rfl ?_
    refine Within.step (raiseObj_within _ _ _ _) rfl ?_
    exact Within.refl _ _
  · exact Within.refl _ _

theorem doEthFrame_within (lp f s) :
    Within [.out, .bus, .evt, .hfe] s (doEthFrame lp f s) := by
  unfold doEthFrame
  refine Within.ite (fun _ => ?_) (fun _ => ?_)
  · exact Within.refl _ _
  · refine Within.ite (fun _ => ?_) (fun _ => ?_)
    · refine Within.step (raiseObj_within _ _ _ _) rfl ?_
      refine Within.step (onPort_within _ _ _) rfl ?_
      exact Within.refl _ _
    · extract_lets +onlyGivenNames v0
      refine Within.cut (x := v0) ?_ (fun h1 => ?_)
      · subst v0
        refine Within.step (pfcAfter_within _ _ _) rfl ?_
        exact Within.refl _ _
      · clear_value v0
        split
        · rename_i w2 w3 w4 w5
          exact h1
        · rename_i w6 w7 w8 w9 w10
          refine Within.ite (fun _ => ?_) (fun _ => ?_)
          · refine Within.step (raiseObj_within _ _ _ _) rfl ?_
            refine Within.step (onPort_within _ _ _) rfl ?_
            exact h1
          · split
            · rename_i w11 w12 w13 w14
              extract_lets +onlyGivenNames v15
              clear_value v15
              refine Within.ite (fun _ => ?_) (fun _ => ?_)
              · refine Within.step (emit_within _ _) rfl ?_
                refine Within.step (count1_within _ _) rfl ?_
                refine Within.hfe rfl ?_
                exact h1
              · exact h1
            · rename_i w17 w18 w19
              exact h1

theorem doH2cData_within (conn p s) :
    Within [.free, .out, .bus, .evt, .cue, .hfe, .scn, .obj, .trl, .flc, .smg, .bob, .tly, .scr, .slm] s (doH2cData conn p s) := by
  unfold doH2cData
  split
  · rename_i w0 w1
    exact Within.refl _ _
  · rename_i w2 w3 w4
    refine Within.ite (fun _ => ?_) (fun _ => ?_)
    · refine Within.step (terminate_within _ _ _ _) rfl ?_
      exact Within.refl _ _
    · refine Within.ite (fun _ => ?_) (fun _ => ?_)
      · refine Within.step (terminate_within _ _ _ _) rfl ?_
        exact Within.refl _ _
      · refine Within.ite (fun _ => ?_) (fun _ => ?_)
        · refine Within.step (terminate_within _ _ _ _) rfl ?_
          exact Within.refl _ _
        · split
          · rename_i w5 w6 w7 w8 w9 w10
            refine Within.ite (fun _ => ?_) (fun _ => ?_)
            · refine Within.step (terminate_within _ _ _ _) rfl ?_
              refine Within.ite (fun _ => ?_) (fun _ => ?_)
              · refine Within.step (failScene_within _ _ _) rfl ?_
                exact Within.refl _ _
              · exact Within.refl _ _
            · refine Within.ite (fun _ => ?_) (fun _ => ?_)
              · refine Within.step (failScene_within _ _ _) rfl ?_
                refine Within.step (raiseObj_within _ _ _ _) rfl ?_
                exact Within.refl _ _
              · refine Within.step (deliver_within _ _ _ _) rfl ?_
                exact Within.refl _ _
          · rename_i w11 w12 w13 w14 w15
            refine Within.step (terminate_within _ _ _ _) rfl ?_
            exact Within.refl _ _

theorem doFlr_within (port fn s) :
    Within [.free, .out, .bus, .evt, .cue, .hfe, .scn, .obj, .trl, .flc, .smg, .bob, .tly, .scr, .slm, .halves] s (doFlr port fn s)
      := by
  unfold doFlr
  refine Within.ite (fun _ => ?_) (fun _ => ?_)
  · exact Within.refl _ _
  · extract_lets +onlyGivenNames v0
    refine Within.cut (x := v0) ?_ (fun h1 => ?_)
    · subst v0
      refine Within.step (clearBar0_within _ _ _) rfl ?_
      refine Within.step (raiseObj_within _ _ _ _) rfl ?_
      exact Within.refl _ _
    · clear_value v0
      refine Within.ite (fun _ => ?_) (fun _ => ?_)
      · refine Within.step (setVfs_within _ _ _) rfl ?_
        refine Within.step (resetAll_within _ _) rfl ?_
        refine Within.step (clearBar0_within _ _ _) rfl ?_
        exact h1
      · refine Within.step (resetAll_within _ _) rfl ?_
        exact h1

theorem doEthLinkUp_within (lp phy s) :
    Within [.hfe] s (doEthLinkUp lp phy s) := by
  unfold doEthLinkUp
  extract_lets +onlyGivenNames v0
  clear_value v0
  extract_lets +onlyGivenNames v2
  clear_value v2
  refine Within.ite (fun _ => ?_) (fun _ => ?_)
  · refine Within.step (onPort_within _ _ _) rfl ?_
    exact Within.refl _ _
  · exact Within.refl _ _

end Sys2Proof.Machine
end

