-- ==== Sys2Proof/Laws/FrameSafety.lean ====
section
/-! SUPPORT. What each operation of Machine/Safety.lean may change, and what it keeps. -/
namespace Sys2Proof.Machine

theorem onSaf_within (f s) :
    Within [.saf] s (onSaf f s) := by
  unfold onSaf
  refine Within.saf rfl ?_
  exact Within.refl _ _

theorem tdSelect_within (code value s) :
    Within [.out, .saf] s (tdSelect code value s) := by
  unfold tdSelect
  refine Within.step (emit_within _ _) rfl ?_
  refine Within.step (onSaf_within _ _) rfl ?_
  exact Within.refl _ _

theorem tdRun_within {l} (hF : Sub [.out, .saf] l) {code work s} (hk1 : ∀ u, Within l u (work u)) :
    Within l s (tdRun code work s) := by
  unfold tdRun
  refine Within.ite (fun _ => ?_) (fun _ => ?_)
  · exact Within.refl _ _
  · refine Within.ite (fun _ => ?_) (fun _ => ?_)
    · refine Within.trans ?_ (hk1 _)
      exact Within.refl _ _
    · refine Within.step (tdSelect_within _ _ _) (Sub.trans (by exact rfl) hF) ?_
      exact Within.refl _ _

theorem eraseKeys_within (s) :
    Within [.hfe, .tly, .scr, .saf] s (eraseKeys s) := by
  unfold eraseKeys
  refine Within.upd ?_ (by constructor <;> first | exact .inl rfl | exact .inr rfl | exact Nat.le_refl _ | exact List.suffix_refl _ | exact id | exact Nat.le_add_right _ _ | exact .inr ⟨rfl, rfl⟩ | exact memWrite_wf | exact memErase_wf | exact Nat.le_of_eq (closeAllPages_next _).symm)
  exact Within.refl _ _

theorem spdmEffect_within (r s) :
    Within [.out, .bus, .evt, .saf] s (spdmEffect r s) := by
  unfold spdmEffect
  split
  · rename_i w0 w1
    refine Within.step (raiseObj_within _ _ _ _) rfl ?_
    refine Within.step (onSaf_within _ _) rfl ?_
    exact Within.refl _ _
  · rename_i w2 w3
    refine Within.step (onSaf_within _ _) rfl ?_
    exact Within.refl _ _
  · rename_i w4 w5 w6
    refine Within.ite (fun _ => ?_) (fun _ => ?_)
    · refine Within.step (onSaf_within _ _) rfl ?_
      exact Within.refl _ _
    · exact Within.refl _ _
  · rename_i w7 w8 w9 w10
    exact Within.refl _ _

theorem doSpdmRequest_within (r s) :
    Within [.out, .bus, .evt, .saf] s (doSpdmRequest r s) := by
  unfold doSpdmRequest
  refine Within.ite (fun _ => ?_) (fun _ => ?_)
  · exact Within.refl _ _
  · refine Within.ite (fun _ => ?_) (fun _ => ?_)
    · refine Within.step (emit_within _ _) rfl ?_
      refine Within.step (raiseObj_within _ _ _ _) rfl ?_
      exact Within.refl _ _
    · refine Within.ite (fun _ => ?_) (fun _ => ?_)
      · refine Within.step (emit_within _ _) rfl ?_
        exact Within.refl _ _
      · refine Within.step (emit_within _ _) rfl ?_
        refine Within.step (spdmEffect_within _ _) rfl ?_
        exact Within.refl _ _

theorem refuseGround_within (src t s) :
    Within [.free, .out, .bus, .evt, .cue, .hfe, .scn, .obj, .trl, .flc, .smg, .bob, .tly, .scr, .saf, .slm] s (refuseGround src t
      s) := by
  unfold refuseGround
  extract_lets +onlyGivenNames v0
  refine Within.cut (x := v0) ?_ (fun h1 => ?_)
  · subst v0
    refine Within.step (emit_within _ _) rfl ?_
    refine Within.step (refuseAt_within _ _ _ _) rfl ?_
    exact Within.refl _ _
  · clear_value v0
    split
    · rename_i w2 w3 w4 w5
      refine Within.ite (fun _ => ?_) (fun _ => ?_)
      · refine Within.step (endEngine_within _ _ _) rfl ?_
        exact h1
      · exact h1
    · rename_i w6 w7
      exact h1

theorem tdFail_within (err s) :
    Within [.out, .bus, .evt, .saf] s (tdFail err s) := by
  unfold tdFail
  refine Within.step (raiseObj_within _ _ _ _) rfl ?_
  refine Within.step (onSaf_within _ _) rfl ?_
  exact Within.refl _ _

theorem startSwitch_within (failover s) :
    Within [.saf] s (startSwitch failover s) := by
  unfold startSwitch
  refine Within.step (onSaf_within _ _) rfl ?_
  exact Within.refl _ _

theorem doTdBypass_within (code s) :
    Within [.out, .saf] s (doTdBypass code s) := by
  unfold doTdBypass
  refine Within.ite (fun _ => ?_) (fun _ => ?_)
  · exact Within.refl _ _
  · refine Within.ite (fun _ => ?_) (fun _ => ?_)
    · refine Within.step (tdSelect_within _ _ _) rfl ?_
      exact Within.refl _ _
    · exact Within.refl _ _

theorem doTdDebug_within (s) :
    Within [.out, .saf] s (doTdDebug s) := by
  unfold doTdDebug
  refine Within.trans ?_ (tdRun_within (by exact rfl) ?_)
  · exact Within.refl _ _
  · intro u0
    refine Within.step (tdSelect_within _ _ _) rfl ?_
    exact Within.refl _ _

theorem noteAlarm_within (kind sensor s) :
    Within [.saf] s (noteAlarm kind sensor s) := by
  unfold noteAlarm
  refine Within.step (onSaf_within _ _) rfl ?_
  exact Within.refl _ _

theorem endActivation_within (s) :
    Within [.scn] s (endActivation s) := by
  unfold endActivation
  refine Within.scn rfl ?_
  exact Within.refl _ _

theorem abandonJobs_within (s) :
    Within [.smg, .bob] s (abandonJobs s) := by
  unfold abandonJobs
  extract_lets +onlyGivenNames v0
  refine Within.cut (x := v0) ?_ (fun h1 => ?_)
  · subst v0
    refine Within.foldl (fun u2 a3 => ?_) ?_
    · refine Within.step (freeTask_within _ _) rfl ?_
      exact Within.refl _ _
    · exact Within.refl _ _
  · clear_value v0
    refine Within.bob rfl ?_
    exact h1

theorem closeFabric_within (s) :
    Within [.free, .out, .bus, .evt, .cue, .hfe, .scn, .obj, .trl, .flc, .smg, .bob, .tly, .scr, .slm] s (closeFabric s) := by
  unfold closeFabric
  extract_lets +onlyGivenNames v0
  refine Within.cut (x := v0) ?_ (fun h1 => ?_)
  · subst v0
    refine Within.foldl (fun u2 a3 => ?_) ?_
    · refine Within.step (endAssociation_within _ _ _) rfl ?_
      exact Within.refl _ _
    · exact Within.refl _ _
  · clear_value v0
    refine Within.step (emitAll_within _ _) rfl ?_
    refine Within.hfe rfl ?_
    exact h1

theorem rollBackNotReady_within (s) :
    Within [.free, .out, .bus, .evt, .cue, .hfe, .scn, .obj, .trl, .smg, .bob, .tly, .scr, .slm] s (rollBackNotReady s) := by
  unfold rollBackNotReady
  refine Within.foldl (fun u0 a1 => ?_) ?_
  · refine Within.ite (fun _ => ?_) (fun _ => ?_)
    · exact Within.refl _ _
    · refine Within.step (rollBack_within _ _ _) rfl ?_
      exact Within.refl _ _
  · exact Within.refl _ _

theorem enterCurtain_within (s) :
    Within [.free, .out, .bus, .evt, .prk, .cue, .dev, .pwr, .hfe, .scn, .obj, .trl, .flc, .rch, .hop, .smg, .bob, .tly, .scr, .saf,
      .slm, .phase] s (enterCurtain s) := by
  unfold enterCurtain
  extract_lets +onlyGivenNames v0
  refine Within.cut (x := v0) ?_ (fun h1 => ?_)
  · subst v0
    refine Within.ite (fun _ => ?_) (fun _ => ?_)
    · exact Within.refl _ _
    · refine Within.step (eraseKeys_within _) rfl ?_
      exact Within.refl _ _
  · clear_value v0
    extract_lets +onlyGivenNames v2
    refine Within.cut (x := v2) ?_ (fun h3 => ?_)
    · subst v2
      refine Within.ite (fun _ => ?_) (fun _ => ?_)
      · exact h1
      · refine Within.step (abandonLoad_within _ _ _) rfl ?_
        exact h1
    · clear_value v2
      extract_lets +onlyGivenNames v4
      refine Within.cut (x := v4) ?_ (fun h5 => ?_)
      · subst v4
        refine Within.step (parkAll_within _ _) rfl ?_
        refine Within.step (endActivation_within _) rfl ?_
        exact h3
      · clear_value v4
        extract_lets +onlyGivenNames v6
        refine Within.cut (x := v6) ?_ (fun h7 => ?_)
        · subst v6
          refine Within.step (abandonJobs_within _) rfl ?_
          refine Within.step (closeFabric_within _) rfl ?_
          refine Within.step (rollBackNotReady_within _) rfl ?_
          exact h5
        · clear_value v6
          extract_lets +onlyGivenNames v8
          refine Within.cut (x := v8) ?_ (fun h9 => ?_)
          · subst v8
            refine Within.step (raise_within _ _ _ _ _ _) rfl ?_
            refine Within.step (transition_within _ _) rfl ?_
            exact h7
          · clear_value v8
            extract_lets +onlyGivenNames v10
            refine Within.cut (x := v10) ?_ (fun h11 => ?_)
            · subst v10
              refine Within.ite (fun _ => ?_) (fun _ => ?_)
              · refine Within.step (sealHarbour_within _) rfl ?_
                exact h9
              · exact h9
            · clear_value v10
              extract_lets +onlyGivenNames v12
              clear_value v12
              extract_lets +onlyGivenNames v14
              refine Within.cut (x := v14) ?_ (fun h15 => ?_)
              · subst v14
                refine Within.ite (fun _ => ?_) (fun _ => ?_)
                · exact h9
                · refine Within.pwr rfl ?_
                  exact h11
              · clear_value v14
                refine Within.step (goOn_within _) rfl ?_
                exact h15

theorem alarm_within (kind sensor s) :
    Within [.free, .out, .bus, .evt, .prk, .cue, .dev, .pwr, .hfe, .scn, .obj, .trl, .flc, .rch, .hop, .smg, .bob, .tly, .scr, .saf,
      .slm, .phase] s (alarm kind sensor s) := by
  unfold alarm
  refine Within.ite (fun _ => ?_) (fun _ => ?_)
  · exact Within.refl _ _
  · extract_lets +onlyGivenNames v0
    refine Within.cut (x := v0) ?_ (fun h1 => ?_)
    · subst v0
      refine Within.step (raise_within _ _ _ _ _ _) rfl ?_
      refine Within.step (noteAlarm_within _ _ _) rfl ?_
      exact Within.refl _ _
    · clear_value v0
      refine Within.ite (fun _ => ?_) (fun _ => ?_)
      · exact h1
      · refine Within.step (enterCurtain_within _) rfl ?_
        exact h1

theorem doTdIdcode_within (s) :
    Within [.out, .saf] s (doTdIdcode s) := by
  unfold doTdIdcode
  refine Within.trans ?_ (tdRun_within (by exact rfl) ?_)
  · exact Within.refl _ _
  · intro u0
    refine Within.step (tdSelect_within _ _ _) rfl ?_
    exact Within.refl _ _

theorem doMeshCheck_within (loop sent received s) :
    Within [.free, .out, .bus, .evt, .prk, .cue, .dev, .pwr, .hfe, .scn, .obj, .trl, .flc, .rch, .hop, .smg, .bob, .tly, .scr, .saf,
      .slm, .phase] s (doMeshCheck loop sent received s) := by
  unfold doMeshCheck
  refine Within.ite (fun _ => ?_) (fun _ => ?_)
  · exact Within.refl _ _
  · refine Within.ite (fun _ => ?_) (fun _ => ?_)
    · refine Within.step (onSaf_within _ _) rfl ?_
      exact Within.refl _ _
    · refine Within.ite (fun _ => ?_) (fun _ => ?_)
      · refine Within.step (alarm_within _ _ _) rfl ?_
        exact Within.refl _ _
      · refine Within.step (onSaf_within _ _) rfl ?_
        exact Within.refl _ _

theorem tdRefuse_within (s) :
    Within [.saf] s (tdRefuse s) := by
  unfold tdRefuse
  refine Within.step (onSaf_within _ _) rfl ?_
  exact Within.refl _ _

theorem tdJudge_within (r s) :
    Within [.out, .bus, .evt, .hfe, .tly, .scr, .saf] s (tdJudge r s) := by
  unfold tdJudge
  split
  · rename_i w0 w1
    refine Within.step (onSaf_within _ _) rfl ?_
    exact Within.refl _ _
  · rename_i w2 w3 w4
    refine Within.ite (fun _ => ?_) (fun _ => ?_)
    · refine Within.step (tdFail_within _ _) rfl ?_
      exact Within.refl _ _
    · refine Within.ite (fun _ => ?_) (fun _ => ?_)
      · refine Within.step (tdFail_within _ _) rfl ?_
        exact Within.refl _ _
      · extract_lets +onlyGivenNames v5
        refine Within.cut (x := v5) ?_ (fun h6 => ?_)
        · subst v5
          refine Within.ite (fun _ => ?_) (fun _ => ?_)
          · exact Within.refl _ _
          · refine Within.step (eraseKeys_within _) rfl ?_
            exact Within.refl _ _
        · clear_value v5
          extract_lets +onlyGivenNames v7
          refine Within.cut (x := v7) ?_ (fun h8 => ?_)
          · subst v7
            refine Within.step (onScr_within _ _) rfl ?_
            exact h6
          · clear_value v7
            refine Within.step (raiseObj_within _ _ _ _) rfl ?_
            refine Within.step (onSaf_within _ _) rfl ?_
            exact h8

theorem doSwitchoverDone_within (selfTestOk s) :
    Within [.out, .bus, .evt, .hfe, .obj, .tly, .scr, .saf] s (doSwitchoverDone selfTestOk s) := by
  unfold doSwitchoverDone
  refine Within.ite (fun _ => ?_) (fun _ => ?_)
  · exact Within.refl _ _
  · extract_lets +onlyGivenNames v0
    clear_value v0
    extract_lets +onlyGivenNames v2
    refine Within.cut (x := v2) ?_ (fun h3 => ?_)
    · subst v2
      refine Within.step (raiseObj_within _ _ _ _) rfl ?_
      refine Within.step (onSaf_within _ _) rfl ?_
      exact Within.refl _ _
    · clear_value v2
      extract_lets +onlyGivenNames v4
      refine Within.cut (x := v4) ?_ (fun h5 => ?_)
      · subst v4
        refine Within.step (drainDerive_within _) rfl ?_
        exact h3
      · clear_value v4
        extract_lets +onlyGivenNames v6
        refine Within.cut (x := v6) ?_ (fun h7 => ?_)
        · subst v6
          refine Within.foldl (fun u8 a9 => ?_) ?_
          · refine Within.ite (fun _ => ?_) (fun _ => ?_)
            · refine Within.step (rollOver_within _ _) rfl ?_
              exact Within.refl _ _
            · exact Within.refl _ _
          · exact h5
        · clear_value v6
          split
          · rename_i w10 w11 w12
            refine Within.ite (fun _ => ?_) (fun _ => ?_)
            · refine Within.step (tdRefuse_within _) rfl ?_
              exact h7
            · refine Within.step (tdJudge_within _ _) rfl ?_
              exact h7
          · rename_i w13 w14
            exact h7

theorem doSafetyCurtainFailover_within (s) :
    Within [.free, .out, .bus, .evt, .prk, .cue, .dev, .pwr, .hfe, .scn, .obj, .trl, .flc, .rch, .hop, .smg, .bob, .tly, .scr, .saf,
      .slm, .phase] s (doSafetyCurtainFailover s) := by
  unfold doSafetyCurtainFailover
  refine Within.ite (fun _ => ?_) (fun _ => ?_)
  · exact Within.refl _ _
  · extract_lets +onlyGivenNames v0
    refine Within.cut (x := v0) ?_ (fun h1 => ?_)
    · subst v0
      refine Within.step (raiseObj_within _ _ _ _) rfl ?_
      refine Within.step (onSaf_within _ _) rfl ?_
      exact Within.refl _ _
    · clear_value v0
      refine Within.ite (fun _ => ?_) (fun _ => ?_)
      · refine Within.step (startSwitch_within _ _) rfl ?_
        exact h1
      · extract_lets +onlyGivenNames v2
        refine Within.cut (x := v2) ?_ (fun h3 => ?_)
        · subst v2
          refine Within.step (noteAlarm_within _ _ _) rfl ?_
          exact h1
        · clear_value v2
          refine Within.ite (fun _ => ?_) (fun _ => ?_)
          · exact h3
          · refine Within.step (enterCurtain_within _) rfl ?_
            exact h3

theorem doTdStatus_within (s) :
    Within [.out, .saf] s (doTdStatus s) := by
  unfold doTdStatus
  refine Within.trans ?_ (tdRun_within (by exact rfl) ?_)
  · exact Within.refl _ _
  · intro u0
    refine Within.step (tdSelect_within _ _ _) rfl ?_
    exact Within.refl _ _

theorem doGroundTransaction_within (t s) :
    Within [.free, .out, .bus, .evt, .cue, .hfe, .scn, .obj, .trl, .flc, .smg, .bob, .tly, .scr, .saf, .slm] s (doGroundTransaction
      t s) := by
  unfold doGroundTransaction
  extract_lets +onlyGivenNames v0
  clear_value v0
  refine Within.ite (fun _ => ?_) (fun _ => ?_)
  · exact Within.refl _ _
  · refine Within.ite (fun _ => ?_) (fun _ => ?_)
    · refine Within.step (refuseGround_within _ _ _) rfl ?_
      exact Within.refl _ _
    · refine Within.ite (fun _ => ?_) (fun _ => ?_)
      · refine Within.step (refuseGround_within _ _ _) rfl ?_
        exact Within.refl _ _
      · refine Within.ite (fun _ => ?_) (fun _ => ?_)
        · refine Within.step (refuseGround_within _ _ _) rfl ?_
          exact Within.refl _ _
        · refine Within.step (emit_within _ _) rfl ?_
          exact Within.refl _ _

theorem doTdResponse_within (r s) :
    Within [.out, .bus, .evt, .hfe, .tly, .scr, .saf] s (doTdResponse r s) := by
  unfold doTdResponse
  extract_lets +onlyGivenNames v0
  refine Within.cut (x := v0) ?_ (fun h1 => ?_)
  · subst v0
    refine Within.ite (fun _ => ?_) (fun _ => ?_)
    · refine Within.step (tdRefuse_within _) rfl ?_
      exact Within.refl _ _
    · exact Within.refl _ _
  · clear_value v0
    refine Within.trans ?_ (tdRun_within (by exact rfl) ?_)
    · exact h1
    · intro u2
      extract_lets +onlyGivenNames v3
      refine Within.cut (x := v3) ?_ (fun h4 => ?_)
      · subst v3
        refine Within.step (tdSelect_within _ _ _) rfl ?_
        exact Within.refl _ _
      · clear_value v3
        refine Within.ite (fun _ => ?_) (fun _ => ?_)
        · exact h4
        · refine Within.ite (fun _ => ?_) (fun _ => ?_)
          · refine Within.step (onSaf_within _ _) rfl ?_
            exact h4
          · refine Within.step (tdJudge_within _ _) rfl ?_
            exact h4

theorem doNonceExpiry_within (s) :
    Within [.saf] s (doNonceExpiry s) := by
  unfold doNonceExpiry
  split
  · rename_i w0 w1 w2
    refine Within.ite (fun _ => ?_) (fun _ => ?_)
    · refine Within.step (onSaf_within _ _) rfl ?_
      exact Within.refl _ _
    · exact Within.refl _ _
  · rename_i w3 w4
    exact Within.refl _ _

theorem doTrapdoorRecordTimeout_within (s) :
    Within [.free, .out, .bus, .evt, .prk, .cue, .dev, .pwr, .hfe, .scn, .obj, .trl, .flc, .rch, .hop, .smg, .bob, .tly, .scr, .saf,
      .slm, .phase] s (doTrapdoorRecordTimeout s) := by
  unfold doTrapdoorRecordTimeout
  refine Within.ite (fun _ => ?_) (fun _ => ?_)
  · extract_lets +onlyGivenNames v0
    refine Within.cut (x := v0) ?_ (fun h1 => ?_)
    · subst v0
      refine Within.ite (fun _ => ?_) (fun _ => ?_)
      · exact Within.refl _ _
      · refine Within.step (enterCurtain_within _) rfl ?_
        exact Within.refl _ _
    · clear_value v0
      refine Within.step (onSaf_within _ _) rfl ?_
      exact h1
  · exact Within.refl _ _

theorem doTrapdoorRecordWritten_within (s) :
    Within [.free, .out, .bus, .evt, .prk, .cue, .dev, .pwr, .hfe, .scn, .obj, .trl, .flc, .rch, .hop, .smg, .bob, .tly, .scr, .saf,
      .slm, .phase] s (doTrapdoorRecordWritten s) := by
  unfold doTrapdoorRecordWritten
  refine Within.ite (fun _ => ?_) (fun _ => ?_)
  · extract_lets +onlyGivenNames v0
    refine Within.cut (x := v0) ?_ (fun h1 => ?_)
    · subst v0
      refine Within.ite (fun _ => ?_) (fun _ => ?_)
      · exact Within.refl _ _
      · refine Within.step (enterCurtain_within _) rfl ?_
        exact Within.refl _ _
    · clear_value v0
      refine Within.step (onSaf_within _ _) rfl ?_
      exact h1
  · exact Within.refl _ _

theorem doTdSamplePreload_within (s) :
    Within [.free, .out, .saf] s (doTdSamplePreload s) := by
  unfold doTdSamplePreload
  refine Within.trans ?_ (tdRun_within (by exact rfl) ?_)
  · exact Within.refl _ _
  · intro u0
    split
    · rename_i w1 w2 w3 w4
      refine Within.cut (Within.ofEq w4 ?_) (fun h5 => ?_)
      · refine Within.step (takeFree_within _) rfl ?_
        exact Within.refl _ _
      extract_lets +onlyGivenNames v6
      clear_value v6
      refine Within.step (tdSelect_within _ _ _) rfl ?_
      refine Within.step (onSaf_within _ _) rfl ?_
      exact h5

theorem doTdExtest_within (s) :
    Within [.out, .saf] s (doTdExtest s) := by
  unfold doTdExtest
  refine Within.trans ?_ (tdRun_within (by exact rfl) ?_)
  · exact Within.refl _ _
  · intro u0
    refine Within.step (tdSelect_within _ _ _) rfl ?_
    exact Within.refl _ _

theorem doTamperAlarm_within (kind sensor s) :
    Within [.free, .out, .bus, .evt, .prk, .cue, .dev, .pwr, .hfe, .scn, .obj, .trl, .flc, .rch, .hop, .smg, .bob, .tly, .scr, .saf,
      .slm, .phase] s (doTamperAlarm kind sensor s) := by
  unfold doTamperAlarm
  refine Within.ite (fun _ => ?_) (fun _ => ?_)
  · refine Within.step (alarm_within _ _ _) rfl ?_
    exact Within.refl _ _
  · exact Within.refl _ _

theorem doTdNonce_within (s) :
    Within [.free, .out, .bus, .evt, .saf] s (doTdNonce s) := by
  unfold doTdNonce
  extract_lets +onlyGivenNames v0
  refine Within.cut (x := v0) ?_ (fun h1 => ?_)
  · subst v0
    refine Within.ite (fun _ => ?_) (fun _ => ?_)
    · refine Within.step (tdRefuse_within _) rfl ?_
      exact Within.refl _ _
    · exact Within.refl _ _
  · clear_value v0
    refine Within.trans ?_ (tdRun_within (by exact rfl) ?_)
    · exact h1
    · intro u2
      refine Within.ite (fun _ => ?_) (fun _ => ?_)
      · exact Within.refl _ _
      · split
        · rename_i w3 w4 w5 w6 w7
          refine Within.cut (Within.ofEq w7 ?_) (fun h8 => ?_)
          · refine Within.step (drawSecret_within _) rfl ?_
            exact Within.refl _ _
          refine Within.step (raiseObj_within _ _ _ _) rfl ?_
          refine Within.step (tdSelect_within _ _ _) rfl ?_
          refine Within.step (onSaf_within _ _) rfl ?_
          exact h8

end Sys2Proof.Machine
end

