-- ==== Sys2Proof/Laws/Tab.lean ====
section
/-! SUPPORT. Reading a finite map after it has changed. -/
namespace Sys2Proof.Machine

variable {α β : Type}

@[simp] theorem Tab.find_nil (k : Nat) : Tab.find ([] : Tab α) k = none := rfl

@[simp] theorem Tab.find_put (t : Tab α) (k : Nat) (a : α) : Tab.find (Tab.put t k a) k = some a := by
  induction t with
  | nil => simp [Tab.put, Tab.find]
  | cons p t ih =>
    obtain ⟨j, b⟩ := p
    simp only [Tab.put]
    split
    · simp [Tab.find]
    · split
      · simp [Tab.find]
      · rw [Tab.find, if_neg ‹_›, ih]

theorem Tab.find_put_ne (t : Tab α) {k i : Nat} (a : α) (h : i ≠ k) : Tab.find (Tab.put t k a) i = Tab.find t i := by
  induction t with
  | nil => simp [Tab.put, Tab.find, Ne.symm h]
  | cons p t ih =>
    obtain ⟨j, b⟩ := p
    simp only [Tab.put]
    split
    · simp [Tab.find, Ne.symm h]
    · split
      · rename_i e; subst e; simp [Tab.find, Ne.symm h]
      · simp only [Tab.find, ih]

@[simp] theorem Tab.at_put (t : Tab α) (k : Nat) (a d : α) : Tab.at (Tab.put t k a) k d = a := by simp [Tab.at]

theorem Tab.at_put_ne (t : Tab α) {k i : Nat} (a d : α) (h : i ≠ k) : Tab.at (Tab.put t k a) i d = Tab.at t i d := by
  simp [Tab.at, Tab.find_put_ne t a h]

@[simp] theorem Tab.at_update (t : Tab α) (k : Nat) (d : α) (f : α → α) :
    Tab.at (Tab.update t k d f) k d = f (Tab.at t k d) := by simp [Tab.update]

@[simp] theorem Tab.find_update (t : Tab α) (k : Nat) (d : α) (f : α → α) :
    Tab.find (Tab.update t k d f) k = some (f (Tab.at t k d)) := by simp [Tab.update]

theorem Tab.at_update_ne (t : Tab α) {k i : Nat} (d e : α) (f : α → α) (h : i ≠ k) :
    Tab.at (Tab.update t k d f) i e = Tab.at t i e := by simp [Tab.update, Tab.at_put_ne t _ e h]

theorem Tab.find_update_ne (t : Tab α) {k i : Nat} (d : α) (f : α → α) (h : i ≠ k) :
    Tab.find (Tab.update t k d f) i = Tab.find t i := by simp [Tab.update, Tab.find_put_ne t _ h]

@[simp] theorem Tab.find_modify (t : Tab α) (k : Nat) (f : α → α) :
    Tab.find (Tab.modify t k f) k = (Tab.find t k).map f := by
  unfold Tab.modify
  split <;> simp_all

theorem Tab.find_modify_ne (t : Tab α) {k i : Nat} (f : α → α) (h : i ≠ k) :
    Tab.find (Tab.modify t k f) i = Tab.find t i := by
  unfold Tab.modify
  split
  · exact Tab.find_put_ne t _ h
  · rfl

@[simp] theorem Tab.at_modify (t : Tab α) (k : Nat) (f : α → α) (d : α) (h : (Tab.find t k).isSome) :
    Tab.at (Tab.modify t k f) k d = f (Tab.at t k d) := by
  cases e : Tab.find t k with
  | none => simp [e] at h
  | some a => simp [Tab.at, e]

@[simp] theorem Tab.find_del (t : Tab α) (k : Nat) : Tab.find (Tab.del t k) k = none := by
  induction t with
  | nil => rfl
  | cons p t ih =>
    obtain ⟨j, b⟩ := p
    rw [Tab.del, List.filter_cons]
    split
    · rename_i e
      have e : j ≠ k := by simpa using e
      rw [Tab.find, if_neg e]
      exact ih
    · exact ih

theorem Tab.find_del_ne (t : Tab α) {k i : Nat} (h : i ≠ k) : Tab.find (Tab.del t k) i = Tab.find t i := by
  induction t with
  | nil => rfl
  | cons p t ih =>
    obtain ⟨j, b⟩ := p
    rw [Tab.del, List.filter_cons]
    split
    · rw [Tab.find, Tab.find]
      split
      · rfl
      · exact ih
    · rename_i e
      have e : j = k := by simpa using e
      rw [Tab.find, if_neg (e ▸ Ne.symm h)]
      exact ih

@[simp] theorem Tab.has_put (t : Tab α) (k : Nat) (a : α) : Tab.has (Tab.put t k a) k = true := by simp [Tab.has]

@[simp] theorem Tab.has_del (t : Tab α) (k : Nat) : Tab.has (Tab.del t k) k = false := by simp [Tab.has]

theorem Tab.find_mapVals (t : Tab α) (f : Nat → α → β) (k : Nat) :
    Tab.find (Tab.mapVals t f) k = (Tab.find t k).map (f k) := by
  induction t with
  | nil => rfl
  | cons p t ih =>
    obtain ⟨j, b⟩ := p
    simp only [Tab.mapVals, List.map, Tab.find] at *
    split
    · rename_i e; subst e; rfl
    · exact ih

end Sys2Proof.Machine
end

