-- ==== Sys2Proof/Laws/State.lean ====
section
/-! SUPPORT. Reading a part of the state after an update of one part: one lemma for each part and each update. -/
namespace Sys2Proof.Machine

variable (s : State)

@[simp] theorem emit_pending (o : Output) : (emit o s).pending = s.pending := rfl
@[simp] theorem emit_wall (o : Output) : (emit o s).wall = s.wall := rfl
@[simp] theorem emit_free (o : Output) : (emit o s).free = s.free := rfl
@[simp] theorem emit_out (o : Output) : (emit o s).out = o :: s.out := rfl
@[simp] theorem emit_bus (o : Output) : (emit o s).bus = s.bus := rfl
@[simp] theorem emit_evt (o : Output) : (emit o s).evt = s.evt := rfl
@[simp] theorem emit_prk (o : Output) : (emit o s).prk = s.prk := rfl
@[simp] theorem emit_clk (o : Output) : (emit o s).clk = s.clk := rfl
@[simp] theorem emit_cue (o : Output) : (emit o s).cue = s.cue := rfl
@[simp] theorem emit_dev (o : Output) : (emit o s).dev = s.dev := rfl
@[simp] theorem emit_pwr (o : Output) : (emit o s).pwr = s.pwr := rfl
@[simp] theorem emit_hfe (o : Output) : (emit o s).hfe = s.hfe := rfl
@[simp] theorem emit_scn (o : Output) : (emit o s).scn = s.scn := rfl
@[simp] theorem emit_obj (o : Output) : (emit o s).obj = s.obj := rfl
@[simp] theorem emit_trl (o : Output) : (emit o s).trl = s.trl := rfl
@[simp] theorem emit_flc (o : Output) : (emit o s).flc = s.flc := rfl
@[simp] theorem emit_rch (o : Output) : (emit o s).rch = s.rch := rfl
@[simp] theorem emit_hop (o : Output) : (emit o s).hop = s.hop := rfl
@[simp] theorem emit_smg (o : Output) : (emit o s).smg = s.smg := rfl
@[simp] theorem emit_bob (o : Output) : (emit o s).bob = s.bob := rfl
@[simp] theorem emit_dmc (o : Output) : (emit o s).dmc = s.dmc := rfl
@[simp] theorem emit_tly (o : Output) : (emit o s).tly = s.tly := rfl
@[simp] theorem emit_asu (o : Output) : (emit o s).asu = s.asu := rfl
@[simp] theorem emit_scr (o : Output) : (emit o s).scr = s.scr := rfl
@[simp] theorem emit_saf (o : Output) : (emit o s).saf = s.saf := rfl
@[simp] theorem emit_dram (o : Output) : (emit o s).dram = s.dram := rfl
@[simp] theorem emit_slm (o : Output) : (emit o s).slm = s.slm := rfl

@[simp] theorem emitAll_pending (os : List Output) : (emitAll os s).pending = s.pending := rfl
@[simp] theorem emitAll_wall (os : List Output) : (emitAll os s).wall = s.wall := rfl
@[simp] theorem emitAll_free (os : List Output) : (emitAll os s).free = s.free := rfl
@[simp] theorem emitAll_out (os : List Output) : (emitAll os s).out = os.reverse ++ s.out := rfl
@[simp] theorem emitAll_bus (os : List Output) : (emitAll os s).bus = s.bus := rfl
@[simp] theorem emitAll_evt (os : List Output) : (emitAll os s).evt = s.evt := rfl
@[simp] theorem emitAll_prk (os : List Output) : (emitAll os s).prk = s.prk := rfl
@[simp] theorem emitAll_clk (os : List Output) : (emitAll os s).clk = s.clk := rfl
@[simp] theorem emitAll_cue (os : List Output) : (emitAll os s).cue = s.cue := rfl
@[simp] theorem emitAll_dev (os : List Output) : (emitAll os s).dev = s.dev := rfl
@[simp] theorem emitAll_pwr (os : List Output) : (emitAll os s).pwr = s.pwr := rfl
@[simp] theorem emitAll_hfe (os : List Output) : (emitAll os s).hfe = s.hfe := rfl
@[simp] theorem emitAll_scn (os : List Output) : (emitAll os s).scn = s.scn := rfl
@[simp] theorem emitAll_obj (os : List Output) : (emitAll os s).obj = s.obj := rfl
@[simp] theorem emitAll_trl (os : List Output) : (emitAll os s).trl = s.trl := rfl
@[simp] theorem emitAll_flc (os : List Output) : (emitAll os s).flc = s.flc := rfl
@[simp] theorem emitAll_rch (os : List Output) : (emitAll os s).rch = s.rch := rfl
@[simp] theorem emitAll_hop (os : List Output) : (emitAll os s).hop = s.hop := rfl
@[simp] theorem emitAll_smg (os : List Output) : (emitAll os s).smg = s.smg := rfl
@[simp] theorem emitAll_bob (os : List Output) : (emitAll os s).bob = s.bob := rfl
@[simp] theorem emitAll_dmc (os : List Output) : (emitAll os s).dmc = s.dmc := rfl
@[simp] theorem emitAll_tly (os : List Output) : (emitAll os s).tly = s.tly := rfl
@[simp] theorem emitAll_asu (os : List Output) : (emitAll os s).asu = s.asu := rfl
@[simp] theorem emitAll_scr (os : List Output) : (emitAll os s).scr = s.scr := rfl
@[simp] theorem emitAll_saf (os : List Output) : (emitAll os s).saf = s.saf := rfl
@[simp] theorem emitAll_dram (os : List Output) : (emitAll os s).dram = s.dram := rfl
@[simp] theorem emitAll_slm (os : List Output) : (emitAll os s).slm = s.slm := rfl

@[simp] theorem onAsu_pending (f : AsuState → AsuState) : (onAsu f s).pending = s.pending := rfl
@[simp] theorem onAsu_wall (f : AsuState → AsuState) : (onAsu f s).wall = s.wall := rfl
@[simp] theorem onAsu_free (f : AsuState → AsuState) : (onAsu f s).free = s.free := rfl
@[simp] theorem onAsu_out (f : AsuState → AsuState) : (onAsu f s).out = s.out := rfl
@[simp] theorem onAsu_bus (f : AsuState → AsuState) : (onAsu f s).bus = s.bus := rfl
@[simp] theorem onAsu_evt (f : AsuState → AsuState) : (onAsu f s).evt = s.evt := rfl
@[simp] theorem onAsu_prk (f : AsuState → AsuState) : (onAsu f s).prk = s.prk := rfl
@[simp] theorem onAsu_clk (f : AsuState → AsuState) : (onAsu f s).clk = s.clk := rfl
@[simp] theorem onAsu_cue (f : AsuState → AsuState) : (onAsu f s).cue = s.cue := rfl
@[simp] theorem onAsu_dev (f : AsuState → AsuState) : (onAsu f s).dev = s.dev := rfl
@[simp] theorem onAsu_pwr (f : AsuState → AsuState) : (onAsu f s).pwr = s.pwr := rfl
@[simp] theorem onAsu_hfe (f : AsuState → AsuState) : (onAsu f s).hfe = s.hfe := rfl
@[simp] theorem onAsu_scn (f : AsuState → AsuState) : (onAsu f s).scn = s.scn := rfl
@[simp] theorem onAsu_obj (f : AsuState → AsuState) : (onAsu f s).obj = s.obj := rfl
@[simp] theorem onAsu_trl (f : AsuState → AsuState) : (onAsu f s).trl = s.trl := rfl
@[simp] theorem onAsu_flc (f : AsuState → AsuState) : (onAsu f s).flc = s.flc := rfl
@[simp] theorem onAsu_rch (f : AsuState → AsuState) : (onAsu f s).rch = s.rch := rfl
@[simp] theorem onAsu_hop (f : AsuState → AsuState) : (onAsu f s).hop = s.hop := rfl
@[simp] theorem onAsu_smg (f : AsuState → AsuState) : (onAsu f s).smg = s.smg := rfl
@[simp] theorem onAsu_bob (f : AsuState → AsuState) : (onAsu f s).bob = s.bob := rfl
@[simp] theorem onAsu_dmc (f : AsuState → AsuState) : (onAsu f s).dmc = s.dmc := rfl
@[simp] theorem onAsu_tly (f : AsuState → AsuState) : (onAsu f s).tly = s.tly := rfl
@[simp] theorem onAsu_asu (f : AsuState → AsuState) : (onAsu f s).asu = f s.asu := rfl
@[simp] theorem onAsu_scr (f : AsuState → AsuState) : (onAsu f s).scr = s.scr := rfl
@[simp] theorem onAsu_saf (f : AsuState → AsuState) : (onAsu f s).saf = s.saf := rfl
@[simp] theorem onAsu_dram (f : AsuState → AsuState) : (onAsu f s).dram = s.dram := rfl
@[simp] theorem onAsu_slm (f : AsuState → AsuState) : (onAsu f s).slm = s.slm := rfl

@[simp] theorem onBob_pending (f : BobState → BobState) : (onBob f s).pending = s.pending := rfl
@[simp] theorem onBob_wall (f : BobState → BobState) : (onBob f s).wall = s.wall := rfl
@[simp] theorem onBob_free (f : BobState → BobState) : (onBob f s).free = s.free := rfl
@[simp] theorem onBob_out (f : BobState → BobState) : (onBob f s).out = s.out := rfl
@[simp] theorem onBob_bus (f : BobState → BobState) : (onBob f s).bus = s.bus := rfl
@[simp] theorem onBob_evt (f : BobState → BobState) : (onBob f s).evt = s.evt := rfl
@[simp] theorem onBob_prk (f : BobState → BobState) : (onBob f s).prk = s.prk := rfl
@[simp] theorem onBob_clk (f : BobState → BobState) : (onBob f s).clk = s.clk := rfl
@[simp] theorem onBob_cue (f : BobState → BobState) : (onBob f s).cue = s.cue := rfl
@[simp] theorem onBob_dev (f : BobState → BobState) : (onBob f s).dev = s.dev := rfl
@[simp] theorem onBob_pwr (f : BobState → BobState) : (onBob f s).pwr = s.pwr := rfl
@[simp] theorem onBob_hfe (f : BobState → BobState) : (onBob f s).hfe = s.hfe := rfl
@[simp] theorem onBob_scn (f : BobState → BobState) : (onBob f s).scn = s.scn := rfl
@[simp] theorem onBob_obj (f : BobState → BobState) : (onBob f s).obj = s.obj := rfl
@[simp] theorem onBob_trl (f : BobState → BobState) : (onBob f s).trl = s.trl := rfl
@[simp] theorem onBob_flc (f : BobState → BobState) : (onBob f s).flc = s.flc := rfl
@[simp] theorem onBob_rch (f : BobState → BobState) : (onBob f s).rch = s.rch := rfl
@[simp] theorem onBob_hop (f : BobState → BobState) : (onBob f s).hop = s.hop := rfl
@[simp] theorem onBob_smg (f : BobState → BobState) : (onBob f s).smg = s.smg := rfl
@[simp] theorem onBob_bob (f : BobState → BobState) : (onBob f s).bob = f s.bob := rfl
@[simp] theorem onBob_dmc (f : BobState → BobState) : (onBob f s).dmc = s.dmc := rfl
@[simp] theorem onBob_tly (f : BobState → BobState) : (onBob f s).tly = s.tly := rfl
@[simp] theorem onBob_asu (f : BobState → BobState) : (onBob f s).asu = s.asu := rfl
@[simp] theorem onBob_scr (f : BobState → BobState) : (onBob f s).scr = s.scr := rfl
@[simp] theorem onBob_saf (f : BobState → BobState) : (onBob f s).saf = s.saf := rfl
@[simp] theorem onBob_dram (f : BobState → BobState) : (onBob f s).dram = s.dram := rfl
@[simp] theorem onBob_slm (f : BobState → BobState) : (onBob f s).slm = s.slm := rfl

@[simp] theorem onDmc_pending (f : DmcState → DmcState) : (onDmc f s).pending = s.pending := rfl
@[simp] theorem onDmc_wall (f : DmcState → DmcState) : (onDmc f s).wall = s.wall := rfl
@[simp] theorem onDmc_free (f : DmcState → DmcState) : (onDmc f s).free = s.free := rfl
@[simp] theorem onDmc_out (f : DmcState → DmcState) : (onDmc f s).out = s.out := rfl
@[simp] theorem onDmc_bus (f : DmcState → DmcState) : (onDmc f s).bus = s.bus := rfl
@[simp] theorem onDmc_evt (f : DmcState → DmcState) : (onDmc f s).evt = s.evt := rfl
@[simp] theorem onDmc_prk (f : DmcState → DmcState) : (onDmc f s).prk = s.prk := rfl
@[simp] theorem onDmc_clk (f : DmcState → DmcState) : (onDmc f s).clk = s.clk := rfl
@[simp] theorem onDmc_cue (f : DmcState → DmcState) : (onDmc f s).cue = s.cue := rfl
@[simp] theorem onDmc_dev (f : DmcState → DmcState) : (onDmc f s).dev = s.dev := rfl
@[simp] theorem onDmc_pwr (f : DmcState → DmcState) : (onDmc f s).pwr = s.pwr := rfl
@[simp] theorem onDmc_hfe (f : DmcState → DmcState) : (onDmc f s).hfe = s.hfe := rfl
@[simp] theorem onDmc_scn (f : DmcState → DmcState) : (onDmc f s).scn = s.scn := rfl
@[simp] theorem onDmc_obj (f : DmcState → DmcState) : (onDmc f s).obj = s.obj := rfl
@[simp] theorem onDmc_trl (f : DmcState → DmcState) : (onDmc f s).trl = s.trl := rfl
@[simp] theorem onDmc_flc (f : DmcState → DmcState) : (onDmc f s).flc = s.flc := rfl
@[simp] theorem onDmc_rch (f : DmcState → DmcState) : (onDmc f s).rch = s.rch := rfl
@[simp] theorem onDmc_hop (f : DmcState → DmcState) : (onDmc f s).hop = s.hop := rfl
@[simp] theorem onDmc_smg (f : DmcState → DmcState) : (onDmc f s).smg = s.smg := rfl
@[simp] theorem onDmc_bob (f : DmcState → DmcState) : (onDmc f s).bob = s.bob := rfl
@[simp] theorem onDmc_dmc (f : DmcState → DmcState) : (onDmc f s).dmc = f s.dmc := rfl
@[simp] theorem onDmc_tly (f : DmcState → DmcState) : (onDmc f s).tly = s.tly := rfl
@[simp] theorem onDmc_asu (f : DmcState → DmcState) : (onDmc f s).asu = s.asu := rfl
@[simp] theorem onDmc_scr (f : DmcState → DmcState) : (onDmc f s).scr = s.scr := rfl
@[simp] theorem onDmc_saf (f : DmcState → DmcState) : (onDmc f s).saf = s.saf := rfl
@[simp] theorem onDmc_dram (f : DmcState → DmcState) : (onDmc f s).dram = s.dram := rfl
@[simp] theorem onDmc_slm (f : DmcState → DmcState) : (onDmc f s).slm = s.slm := rfl

@[simp] theorem onPrk_pending (f : PrkState → PrkState) : (onPrk f s).pending = s.pending := rfl
@[simp] theorem onPrk_wall (f : PrkState → PrkState) : (onPrk f s).wall = s.wall := rfl
@[simp] theorem onPrk_free (f : PrkState → PrkState) : (onPrk f s).free = s.free := rfl
@[simp] theorem onPrk_out (f : PrkState → PrkState) : (onPrk f s).out = s.out := rfl
@[simp] theorem onPrk_bus (f : PrkState → PrkState) : (onPrk f s).bus = s.bus := rfl
@[simp] theorem onPrk_evt (f : PrkState → PrkState) : (onPrk f s).evt = s.evt := rfl
@[simp] theorem onPrk_prk (f : PrkState → PrkState) : (onPrk f s).prk = f s.prk := rfl
@[simp] theorem onPrk_clk (f : PrkState → PrkState) : (onPrk f s).clk = s.clk := rfl
@[simp] theorem onPrk_cue (f : PrkState → PrkState) : (onPrk f s).cue = s.cue := rfl
@[simp] theorem onPrk_dev (f : PrkState → PrkState) : (onPrk f s).dev = s.dev := rfl
@[simp] theorem onPrk_pwr (f : PrkState → PrkState) : (onPrk f s).pwr = s.pwr := rfl
@[simp] theorem onPrk_hfe (f : PrkState → PrkState) : (onPrk f s).hfe = s.hfe := rfl
@[simp] theorem onPrk_scn (f : PrkState → PrkState) : (onPrk f s).scn = s.scn := rfl
@[simp] theorem onPrk_obj (f : PrkState → PrkState) : (onPrk f s).obj = s.obj := rfl
@[simp] theorem onPrk_trl (f : PrkState → PrkState) : (onPrk f s).trl = s.trl := rfl
@[simp] theorem onPrk_flc (f : PrkState → PrkState) : (onPrk f s).flc = s.flc := rfl
@[simp] theorem onPrk_rch (f : PrkState → PrkState) : (onPrk f s).rch = s.rch := rfl
@[simp] theorem onPrk_hop (f : PrkState → PrkState) : (onPrk f s).hop = s.hop := rfl
@[simp] theorem onPrk_smg (f : PrkState → PrkState) : (onPrk f s).smg = s.smg := rfl
@[simp] theorem onPrk_bob (f : PrkState → PrkState) : (onPrk f s).bob = s.bob := rfl
@[simp] theorem onPrk_dmc (f : PrkState → PrkState) : (onPrk f s).dmc = s.dmc := rfl
@[simp] theorem onPrk_tly (f : PrkState → PrkState) : (onPrk f s).tly = s.tly := rfl
@[simp] theorem onPrk_asu (f : PrkState → PrkState) : (onPrk f s).asu = s.asu := rfl
@[simp] theorem onPrk_scr (f : PrkState → PrkState) : (onPrk f s).scr = s.scr := rfl
@[simp] theorem onPrk_saf (f : PrkState → PrkState) : (onPrk f s).saf = s.saf := rfl
@[simp] theorem onPrk_dram (f : PrkState → PrkState) : (onPrk f s).dram = s.dram := rfl
@[simp] theorem onPrk_slm (f : PrkState → PrkState) : (onPrk f s).slm = s.slm := rfl

@[simp] theorem onSmg_pending (f : SmgState → SmgState) : (onSmg f s).pending = s.pending := rfl
@[simp] theorem onSmg_wall (f : SmgState → SmgState) : (onSmg f s).wall = s.wall := rfl
@[simp] theorem onSmg_free (f : SmgState → SmgState) : (onSmg f s).free = s.free := rfl
@[simp] theorem onSmg_out (f : SmgState → SmgState) : (onSmg f s).out = s.out := rfl
@[simp] theorem onSmg_bus (f : SmgState → SmgState) : (onSmg f s).bus = s.bus := rfl
@[simp] theorem onSmg_evt (f : SmgState → SmgState) : (onSmg f s).evt = s.evt := rfl
@[simp] theorem onSmg_prk (f : SmgState → SmgState) : (onSmg f s).prk = s.prk := rfl
@[simp] theorem onSmg_clk (f : SmgState → SmgState) : (onSmg f s).clk = s.clk := rfl
@[simp] theorem onSmg_cue (f : SmgState → SmgState) : (onSmg f s).cue = s.cue := rfl
@[simp] theorem onSmg_dev (f : SmgState → SmgState) : (onSmg f s).dev = s.dev := rfl
@[simp] theorem onSmg_pwr (f : SmgState → SmgState) : (onSmg f s).pwr = s.pwr := rfl
@[simp] theorem onSmg_hfe (f : SmgState → SmgState) : (onSmg f s).hfe = s.hfe := rfl
@[simp] theorem onSmg_scn (f : SmgState → SmgState) : (onSmg f s).scn = s.scn := rfl
@[simp] theorem onSmg_obj (f : SmgState → SmgState) : (onSmg f s).obj = s.obj := rfl
@[simp] theorem onSmg_trl (f : SmgState → SmgState) : (onSmg f s).trl = s.trl := rfl
@[simp] theorem onSmg_flc (f : SmgState → SmgState) : (onSmg f s).flc = s.flc := rfl
@[simp] theorem onSmg_rch (f : SmgState → SmgState) : (onSmg f s).rch = s.rch := rfl
@[simp] theorem onSmg_hop (f : SmgState → SmgState) : (onSmg f s).hop = s.hop := rfl
@[simp] theorem onSmg_smg (f : SmgState → SmgState) : (onSmg f s).smg = f s.smg := rfl
@[simp] theorem onSmg_bob (f : SmgState → SmgState) : (onSmg f s).bob = s.bob := rfl
@[simp] theorem onSmg_dmc (f : SmgState → SmgState) : (onSmg f s).dmc = s.dmc := rfl
@[simp] theorem onSmg_tly (f : SmgState → SmgState) : (onSmg f s).tly = s.tly := rfl
@[simp] theorem onSmg_asu (f : SmgState → SmgState) : (onSmg f s).asu = s.asu := rfl
@[simp] theorem onSmg_scr (f : SmgState → SmgState) : (onSmg f s).scr = s.scr := rfl
@[simp] theorem onSmg_saf (f : SmgState → SmgState) : (onSmg f s).saf = s.saf := rfl
@[simp] theorem onSmg_dram (f : SmgState → SmgState) : (onSmg f s).dram = s.dram := rfl
@[simp] theorem onSmg_slm (f : SmgState → SmgState) : (onSmg f s).slm = s.slm := rfl

@[simp] theorem onPwr_pending (f : PwrState → PwrState) : (onPwr f s).pending = s.pending := rfl
@[simp] theorem onPwr_wall (f : PwrState → PwrState) : (onPwr f s).wall = s.wall := rfl
@[simp] theorem onPwr_free (f : PwrState → PwrState) : (onPwr f s).free = s.free := rfl
@[simp] theorem onPwr_out (f : PwrState → PwrState) : (onPwr f s).out = s.out := rfl
@[simp] theorem onPwr_bus (f : PwrState → PwrState) : (onPwr f s).bus = s.bus := rfl
@[simp] theorem onPwr_evt (f : PwrState → PwrState) : (onPwr f s).evt = s.evt := rfl
@[simp] theorem onPwr_prk (f : PwrState → PwrState) : (onPwr f s).prk = s.prk := rfl
@[simp] theorem onPwr_clk (f : PwrState → PwrState) : (onPwr f s).clk = s.clk := rfl
@[simp] theorem onPwr_cue (f : PwrState → PwrState) : (onPwr f s).cue = s.cue := rfl
@[simp] theorem onPwr_dev (f : PwrState → PwrState) : (onPwr f s).dev = s.dev := rfl
@[simp] theorem onPwr_pwr (f : PwrState → PwrState) : (onPwr f s).pwr = f s.pwr := rfl
@[simp] theorem onPwr_hfe (f : PwrState → PwrState) : (onPwr f s).hfe = s.hfe := rfl
@[simp] theorem onPwr_scn (f : PwrState → PwrState) : (onPwr f s).scn = s.scn := rfl
@[simp] theorem onPwr_obj (f : PwrState → PwrState) : (onPwr f s).obj = s.obj := rfl
@[simp] theorem onPwr_trl (f : PwrState → PwrState) : (onPwr f s).trl = s.trl := rfl
@[simp] theorem onPwr_flc (f : PwrState → PwrState) : (onPwr f s).flc = s.flc := rfl
@[simp] theorem onPwr_rch (f : PwrState → PwrState) : (onPwr f s).rch = s.rch := rfl
@[simp] theorem onPwr_hop (f : PwrState → PwrState) : (onPwr f s).hop = s.hop := rfl
@[simp] theorem onPwr_smg (f : PwrState → PwrState) : (onPwr f s).smg = s.smg := rfl
@[simp] theorem onPwr_bob (f : PwrState → PwrState) : (onPwr f s).bob = s.bob := rfl
@[simp] theorem onPwr_dmc (f : PwrState → PwrState) : (onPwr f s).dmc = s.dmc := rfl
@[simp] theorem onPwr_tly (f : PwrState → PwrState) : (onPwr f s).tly = s.tly := rfl
@[simp] theorem onPwr_asu (f : PwrState → PwrState) : (onPwr f s).asu = s.asu := rfl
@[simp] theorem onPwr_scr (f : PwrState → PwrState) : (onPwr f s).scr = s.scr := rfl
@[simp] theorem onPwr_saf (f : PwrState → PwrState) : (onPwr f s).saf = s.saf := rfl
@[simp] theorem onPwr_dram (f : PwrState → PwrState) : (onPwr f s).dram = s.dram := rfl
@[simp] theorem onPwr_slm (f : PwrState → PwrState) : (onPwr f s).slm = s.slm := rfl

@[simp] theorem onDev_pending (f : DevState → DevState) : (onDev f s).pending = s.pending := rfl
@[simp] theorem onDev_wall (f : DevState → DevState) : (onDev f s).wall = s.wall := rfl
@[simp] theorem onDev_free (f : DevState → DevState) : (onDev f s).free = s.free := rfl
@[simp] theorem onDev_out (f : DevState → DevState) : (onDev f s).out = s.out := rfl
@[simp] theorem onDev_bus (f : DevState → DevState) : (onDev f s).bus = s.bus := rfl
@[simp] theorem onDev_evt (f : DevState → DevState) : (onDev f s).evt = s.evt := rfl
@[simp] theorem onDev_prk (f : DevState → DevState) : (onDev f s).prk = s.prk := rfl
@[simp] theorem onDev_clk (f : DevState → DevState) : (onDev f s).clk = s.clk := rfl
@[simp] theorem onDev_cue (f : DevState → DevState) : (onDev f s).cue = s.cue := rfl
@[simp] theorem onDev_dev (f : DevState → DevState) : (onDev f s).dev = f s.dev := rfl
@[simp] theorem onDev_pwr (f : DevState → DevState) : (onDev f s).pwr = s.pwr := rfl
@[simp] theorem onDev_hfe (f : DevState → DevState) : (onDev f s).hfe = s.hfe := rfl
@[simp] theorem onDev_scn (f : DevState → DevState) : (onDev f s).scn = s.scn := rfl
@[simp] theorem onDev_obj (f : DevState → DevState) : (onDev f s).obj = s.obj := rfl
@[simp] theorem onDev_trl (f : DevState → DevState) : (onDev f s).trl = s.trl := rfl
@[simp] theorem onDev_flc (f : DevState → DevState) : (onDev f s).flc = s.flc := rfl
@[simp] theorem onDev_rch (f : DevState → DevState) : (onDev f s).rch = s.rch := rfl
@[simp] theorem onDev_hop (f : DevState → DevState) : (onDev f s).hop = s.hop := rfl
@[simp] theorem onDev_smg (f : DevState → DevState) : (onDev f s).smg = s.smg := rfl
@[simp] theorem onDev_bob (f : DevState → DevState) : (onDev f s).bob = s.bob := rfl
@[simp] theorem onDev_dmc (f : DevState → DevState) : (onDev f s).dmc = s.dmc := rfl
@[simp] theorem onDev_tly (f : DevState → DevState) : (onDev f s).tly = s.tly := rfl
@[simp] theorem onDev_asu (f : DevState → DevState) : (onDev f s).asu = s.asu := rfl
@[simp] theorem onDev_scr (f : DevState → DevState) : (onDev f s).scr = s.scr := rfl
@[simp] theorem onDev_saf (f : DevState → DevState) : (onDev f s).saf = s.saf := rfl
@[simp] theorem onDev_dram (f : DevState → DevState) : (onDev f s).dram = s.dram := rfl
@[simp] theorem onDev_slm (f : DevState → DevState) : (onDev f s).slm = s.slm := rfl

@[simp] theorem onSaf_pending (f : SafState → SafState) : (onSaf f s).pending = s.pending := rfl
@[simp] theorem onSaf_wall (f : SafState → SafState) : (onSaf f s).wall = s.wall := rfl
@[simp] theorem onSaf_free (f : SafState → SafState) : (onSaf f s).free = s.free := rfl
@[simp] theorem onSaf_out (f : SafState → SafState) : (onSaf f s).out = s.out := rfl
@[simp] theorem onSaf_bus (f : SafState → SafState) : (onSaf f s).bus = s.bus := rfl
@[simp] theorem onSaf_evt (f : SafState → SafState) : (onSaf f s).evt = s.evt := rfl
@[simp] theorem onSaf_prk (f : SafState → SafState) : (onSaf f s).prk = s.prk := rfl
@[simp] theorem onSaf_clk (f : SafState → SafState) : (onSaf f s).clk = s.clk := rfl
@[simp] theorem onSaf_cue (f : SafState → SafState) : (onSaf f s).cue = s.cue := rfl
@[simp] theorem onSaf_dev (f : SafState → SafState) : (onSaf f s).dev = s.dev := rfl
@[simp] theorem onSaf_pwr (f : SafState → SafState) : (onSaf f s).pwr = s.pwr := rfl
@[simp] theorem onSaf_hfe (f : SafState → SafState) : (onSaf f s).hfe = s.hfe := rfl
@[simp] theorem onSaf_scn (f : SafState → SafState) : (onSaf f s).scn = s.scn := rfl
@[simp] theorem onSaf_obj (f : SafState → SafState) : (onSaf f s).obj = s.obj := rfl
@[simp] theorem onSaf_trl (f : SafState → SafState) : (onSaf f s).trl = s.trl := rfl
@[simp] theorem onSaf_flc (f : SafState → SafState) : (onSaf f s).flc = s.flc := rfl
@[simp] theorem onSaf_rch (f : SafState → SafState) : (onSaf f s).rch = s.rch := rfl
@[simp] theorem onSaf_hop (f : SafState → SafState) : (onSaf f s).hop = s.hop := rfl
@[simp] theorem onSaf_smg (f : SafState → SafState) : (onSaf f s).smg = s.smg := rfl
@[simp] theorem onSaf_bob (f : SafState → SafState) : (onSaf f s).bob = s.bob := rfl
@[simp] theorem onSaf_dmc (f : SafState → SafState) : (onSaf f s).dmc = s.dmc := rfl
@[simp] theorem onSaf_tly (f : SafState → SafState) : (onSaf f s).tly = s.tly := rfl
@[simp] theorem onSaf_asu (f : SafState → SafState) : (onSaf f s).asu = s.asu := rfl
@[simp] theorem onSaf_scr (f : SafState → SafState) : (onSaf f s).scr = s.scr := rfl
@[simp] theorem onSaf_saf (f : SafState → SafState) : (onSaf f s).saf = f s.saf := rfl
@[simp] theorem onSaf_dram (f : SafState → SafState) : (onSaf f s).dram = s.dram := rfl
@[simp] theorem onSaf_slm (f : SafState → SafState) : (onSaf f s).slm = s.slm := rfl

@[simp] theorem onScr_pending (f : ScrState → ScrState) : (onScr f s).pending = s.pending := rfl
@[simp] theorem onScr_wall (f : ScrState → ScrState) : (onScr f s).wall = s.wall := rfl
@[simp] theorem onScr_free (f : ScrState → ScrState) : (onScr f s).free = s.free := rfl
@[simp] theorem onScr_out (f : ScrState → ScrState) : (onScr f s).out = s.out := rfl
@[simp] theorem onScr_bus (f : ScrState → ScrState) : (onScr f s).bus = s.bus := rfl
@[simp] theorem onScr_evt (f : ScrState → ScrState) : (onScr f s).evt = s.evt := rfl
@[simp] theorem onScr_prk (f : ScrState → ScrState) : (onScr f s).prk = s.prk := rfl
@[simp] theorem onScr_clk (f : ScrState → ScrState) : (onScr f s).clk = s.clk := rfl
@[simp] theorem onScr_cue (f : ScrState → ScrState) : (onScr f s).cue = s.cue := rfl
@[simp] theorem onScr_dev (f : ScrState → ScrState) : (onScr f s).dev = s.dev := rfl
@[simp] theorem onScr_pwr (f : ScrState → ScrState) : (onScr f s).pwr = s.pwr := rfl
@[simp] theorem onScr_hfe (f : ScrState → ScrState) : (onScr f s).hfe = s.hfe := rfl
@[simp] theorem onScr_scn (f : ScrState → ScrState) : (onScr f s).scn = s.scn := rfl
@[simp] theorem onScr_obj (f : ScrState → ScrState) : (onScr f s).obj = s.obj := rfl
@[simp] theorem onScr_trl (f : ScrState → ScrState) : (onScr f s).trl = s.trl := rfl
@[simp] theorem onScr_flc (f : ScrState → ScrState) : (onScr f s).flc = s.flc := rfl
@[simp] theorem onScr_rch (f : ScrState → ScrState) : (onScr f s).rch = s.rch := rfl
@[simp] theorem onScr_hop (f : ScrState → ScrState) : (onScr f s).hop = s.hop := rfl
@[simp] theorem onScr_smg (f : ScrState → ScrState) : (onScr f s).smg = s.smg := rfl
@[simp] theorem onScr_bob (f : ScrState → ScrState) : (onScr f s).bob = s.bob := rfl
@[simp] theorem onScr_dmc (f : ScrState → ScrState) : (onScr f s).dmc = s.dmc := rfl
@[simp] theorem onScr_tly (f : ScrState → ScrState) : (onScr f s).tly = s.tly := rfl
@[simp] theorem onScr_asu (f : ScrState → ScrState) : (onScr f s).asu = s.asu := rfl
@[simp] theorem onScr_scr (f : ScrState → ScrState) : (onScr f s).scr = f s.scr := rfl
@[simp] theorem onScr_saf (f : ScrState → ScrState) : (onScr f s).saf = s.saf := rfl
@[simp] theorem onScr_dram (f : ScrState → ScrState) : (onScr f s).dram = s.dram := rfl
@[simp] theorem onScr_slm (f : ScrState → ScrState) : (onScr f s).slm = s.slm := rfl

@[simp] theorem onTly_pending (f : TlyState → TlyState) : (onTly f s).pending = s.pending := rfl
@[simp] theorem onTly_wall (f : TlyState → TlyState) : (onTly f s).wall = s.wall := rfl
@[simp] theorem onTly_free (f : TlyState → TlyState) : (onTly f s).free = s.free := rfl
@[simp] theorem onTly_out (f : TlyState → TlyState) : (onTly f s).out = s.out := rfl
@[simp] theorem onTly_bus (f : TlyState → TlyState) : (onTly f s).bus = s.bus := rfl
@[simp] theorem onTly_evt (f : TlyState → TlyState) : (onTly f s).evt = s.evt := rfl
@[simp] theorem onTly_prk (f : TlyState → TlyState) : (onTly f s).prk = s.prk := rfl
@[simp] theorem onTly_clk (f : TlyState → TlyState) : (onTly f s).clk = s.clk := rfl
@[simp] theorem onTly_cue (f : TlyState → TlyState) : (onTly f s).cue = s.cue := rfl
@[simp] theorem onTly_dev (f : TlyState → TlyState) : (onTly f s).dev = s.dev := rfl
@[simp] theorem onTly_pwr (f : TlyState → TlyState) : (onTly f s).pwr = s.pwr := rfl
@[simp] theorem onTly_hfe (f : TlyState → TlyState) : (onTly f s).hfe = s.hfe := rfl
@[simp] theorem onTly_scn (f : TlyState → TlyState) : (onTly f s).scn = s.scn := rfl
@[simp] theorem onTly_obj (f : TlyState → TlyState) : (onTly f s).obj = s.obj := rfl
@[simp] theorem onTly_trl (f : TlyState → TlyState) : (onTly f s).trl = s.trl := rfl
@[simp] theorem onTly_flc (f : TlyState → TlyState) : (onTly f s).flc = s.flc := rfl
@[simp] theorem onTly_rch (f : TlyState → TlyState) : (onTly f s).rch = s.rch := rfl
@[simp] theorem onTly_hop (f : TlyState → TlyState) : (onTly f s).hop = s.hop := rfl
@[simp] theorem onTly_smg (f : TlyState → TlyState) : (onTly f s).smg = s.smg := rfl
@[simp] theorem onTly_bob (f : TlyState → TlyState) : (onTly f s).bob = s.bob := rfl
@[simp] theorem onTly_dmc (f : TlyState → TlyState) : (onTly f s).dmc = s.dmc := rfl
@[simp] theorem onTly_tly (f : TlyState → TlyState) : (onTly f s).tly = f s.tly := rfl
@[simp] theorem onTly_asu (f : TlyState → TlyState) : (onTly f s).asu = s.asu := rfl
@[simp] theorem onTly_scr (f : TlyState → TlyState) : (onTly f s).scr = s.scr := rfl
@[simp] theorem onTly_saf (f : TlyState → TlyState) : (onTly f s).saf = s.saf := rfl
@[simp] theorem onTly_dram (f : TlyState → TlyState) : (onTly f s).dram = s.dram := rfl
@[simp] theorem onTly_slm (f : TlyState → TlyState) : (onTly f s).slm = s.slm := rfl

@[simp] theorem onLink_pending (f : LinkState → LinkState) : (onLink f s).pending = s.pending := rfl
@[simp] theorem onLink_wall (f : LinkState → LinkState) : (onLink f s).wall = s.wall := rfl
@[simp] theorem onLink_free (f : LinkState → LinkState) : (onLink f s).free = s.free := rfl
@[simp] theorem onLink_out (f : LinkState → LinkState) : (onLink f s).out = s.out := rfl
@[simp] theorem onLink_bus (f : LinkState → LinkState) : (onLink f s).bus = s.bus := rfl
@[simp] theorem onLink_evt (f : LinkState → LinkState) : (onLink f s).evt = s.evt := rfl
@[simp] theorem onLink_prk (f : LinkState → LinkState) : (onLink f s).prk = s.prk := rfl
@[simp] theorem onLink_clk (f : LinkState → LinkState) : (onLink f s).clk = s.clk := rfl
@[simp] theorem onLink_cue (f : LinkState → LinkState) : (onLink f s).cue = s.cue := rfl
@[simp] theorem onLink_dev (f : LinkState → LinkState) : (onLink f s).dev = s.dev := rfl
@[simp] theorem onLink_pwr (f : LinkState → LinkState) : (onLink f s).pwr = s.pwr := rfl
@[simp] theorem onLink_hfe (f : LinkState → LinkState) : (onLink f s).hfe = s.hfe := rfl
@[simp] theorem onLink_scn (f : LinkState → LinkState) : (onLink f s).scn = s.scn := rfl
@[simp] theorem onLink_obj (f : LinkState → LinkState) : (onLink f s).obj = s.obj := rfl
@[simp] theorem onLink_trl (f : LinkState → LinkState) : (onLink f s).trl = s.trl := rfl
@[simp] theorem onLink_flc (f : LinkState → LinkState) : (onLink f s).flc = s.flc := rfl
@[simp] theorem onLink_rch (f : LinkState → LinkState) : (onLink f s).rch = s.rch := rfl
@[simp] theorem onLink_hop (f : LinkState → LinkState) : (onLink f s).hop = { s.hop with link := f s.hop.link } := rfl
@[simp] theorem onLink_smg (f : LinkState → LinkState) : (onLink f s).smg = s.smg := rfl
@[simp] theorem onLink_bob (f : LinkState → LinkState) : (onLink f s).bob = s.bob := rfl
@[simp] theorem onLink_dmc (f : LinkState → LinkState) : (onLink f s).dmc = s.dmc := rfl
@[simp] theorem onLink_tly (f : LinkState → LinkState) : (onLink f s).tly = s.tly := rfl
@[simp] theorem onLink_asu (f : LinkState → LinkState) : (onLink f s).asu = s.asu := rfl
@[simp] theorem onLink_scr (f : LinkState → LinkState) : (onLink f s).scr = s.scr := rfl
@[simp] theorem onLink_saf (f : LinkState → LinkState) : (onLink f s).saf = s.saf := rfl
@[simp] theorem onLink_dram (f : LinkState → LinkState) : (onLink f s).dram = s.dram := rfl
@[simp] theorem onLink_slm (f : LinkState → LinkState) : (onLink f s).slm = s.slm := rfl

@[simp] theorem onSlot_pending (n : Nat) (f : LoopSlot → LoopSlot) : (onSlot n f s).pending = s.pending := rfl
@[simp] theorem onSlot_wall (n : Nat) (f : LoopSlot → LoopSlot) : (onSlot n f s).wall = s.wall := rfl
@[simp] theorem onSlot_free (n : Nat) (f : LoopSlot → LoopSlot) : (onSlot n f s).free = s.free := rfl
@[simp] theorem onSlot_out (n : Nat) (f : LoopSlot → LoopSlot) : (onSlot n f s).out = s.out := rfl
@[simp] theorem onSlot_bus (n : Nat) (f : LoopSlot → LoopSlot) : (onSlot n f s).bus = s.bus := rfl
@[simp] theorem onSlot_evt (n : Nat) (f : LoopSlot → LoopSlot) : (onSlot n f s).evt = s.evt := rfl
@[simp] theorem onSlot_prk (n : Nat) (f : LoopSlot → LoopSlot) : (onSlot n f s).prk = s.prk := rfl
@[simp] theorem onSlot_clk (n : Nat) (f : LoopSlot → LoopSlot) : (onSlot n f s).clk = s.clk := rfl
@[simp] theorem onSlot_cue (n : Nat) (f : LoopSlot → LoopSlot) : (onSlot n f s).cue = s.cue := rfl
@[simp] theorem onSlot_dev (n : Nat) (f : LoopSlot → LoopSlot) : (onSlot n f s).dev = s.dev := rfl
@[simp] theorem onSlot_pwr (n : Nat) (f : LoopSlot → LoopSlot) : (onSlot n f s).pwr = s.pwr := rfl
@[simp] theorem onSlot_hfe (n : Nat) (f : LoopSlot → LoopSlot) : (onSlot n f s).hfe = s.hfe := rfl
@[simp] theorem onSlot_scn (n : Nat) (f : LoopSlot → LoopSlot) : (onSlot n f s).scn = s.scn := rfl
@[simp] theorem onSlot_obj (n : Nat) (f : LoopSlot → LoopSlot) : (onSlot n f s).obj = s.obj := rfl
@[simp] theorem onSlot_trl (n : Nat) (f : LoopSlot → LoopSlot) : (onSlot n f s).trl = s.trl := rfl
@[simp] theorem onSlot_flc (n : Nat) (f : LoopSlot → LoopSlot) : (onSlot n f s).flc = s.flc := rfl
@[simp] theorem onSlot_rch (n : Nat) (f : LoopSlot → LoopSlot) : (onSlot n f s).rch = s.rch := rfl
@[simp] theorem onSlot_hop (n : Nat) (f : LoopSlot → LoopSlot) : (onSlot n f s).hop = { s.hop with slots := Tab.update s.hop.slots n {} f } := rfl
@[simp] theorem onSlot_smg (n : Nat) (f : LoopSlot → LoopSlot) : (onSlot n f s).smg = s.smg := rfl
@[simp] theorem onSlot_bob (n : Nat) (f : LoopSlot → LoopSlot) : (onSlot n f s).bob = s.bob := rfl
@[simp] theorem onSlot_dmc (n : Nat) (f : LoopSlot → LoopSlot) : (onSlot n f s).dmc = s.dmc := rfl
@[simp] theorem onSlot_tly (n : Nat) (f : LoopSlot → LoopSlot) : (onSlot n f s).tly = s.tly := rfl
@[simp] theorem onSlot_asu (n : Nat) (f : LoopSlot → LoopSlot) : (onSlot n f s).asu = s.asu := rfl
@[simp] theorem onSlot_scr (n : Nat) (f : LoopSlot → LoopSlot) : (onSlot n f s).scr = s.scr := rfl
@[simp] theorem onSlot_saf (n : Nat) (f : LoopSlot → LoopSlot) : (onSlot n f s).saf = s.saf := rfl
@[simp] theorem onSlot_dram (n : Nat) (f : LoopSlot → LoopSlot) : (onSlot n f s).dram = s.dram := rfl
@[simp] theorem onSlot_slm (n : Nat) (f : LoopSlot → LoopSlot) : (onSlot n f s).slm = s.slm := rfl

@[simp] theorem onAct_pending (a : Nat) (f : RchAct → RchAct) : (onAct a f s).pending = s.pending := rfl
@[simp] theorem onAct_wall (a : Nat) (f : RchAct → RchAct) : (onAct a f s).wall = s.wall := rfl
@[simp] theorem onAct_free (a : Nat) (f : RchAct → RchAct) : (onAct a f s).free = s.free := rfl
@[simp] theorem onAct_out (a : Nat) (f : RchAct → RchAct) : (onAct a f s).out = s.out := rfl
@[simp] theorem onAct_bus (a : Nat) (f : RchAct → RchAct) : (onAct a f s).bus = s.bus := rfl
@[simp] theorem onAct_evt (a : Nat) (f : RchAct → RchAct) : (onAct a f s).evt = s.evt := rfl
@[simp] theorem onAct_prk (a : Nat) (f : RchAct → RchAct) : (onAct a f s).prk = s.prk := rfl
@[simp] theorem onAct_clk (a : Nat) (f : RchAct → RchAct) : (onAct a f s).clk = s.clk := rfl
@[simp] theorem onAct_cue (a : Nat) (f : RchAct → RchAct) : (onAct a f s).cue = s.cue := rfl
@[simp] theorem onAct_dev (a : Nat) (f : RchAct → RchAct) : (onAct a f s).dev = s.dev := rfl
@[simp] theorem onAct_pwr (a : Nat) (f : RchAct → RchAct) : (onAct a f s).pwr = s.pwr := rfl
@[simp] theorem onAct_hfe (a : Nat) (f : RchAct → RchAct) : (onAct a f s).hfe = s.hfe := rfl
@[simp] theorem onAct_scn (a : Nat) (f : RchAct → RchAct) : (onAct a f s).scn = s.scn := rfl
@[simp] theorem onAct_obj (a : Nat) (f : RchAct → RchAct) : (onAct a f s).obj = s.obj := rfl
@[simp] theorem onAct_trl (a : Nat) (f : RchAct → RchAct) : (onAct a f s).trl = s.trl := rfl
@[simp] theorem onAct_flc (a : Nat) (f : RchAct → RchAct) : (onAct a f s).flc = s.flc := rfl
@[simp] theorem onAct_rch (a : Nat) (f : RchAct → RchAct) : (onAct a f s).rch = { s.rch with acts := Tab.update s.rch.acts a {} f } := rfl
@[simp] theorem onAct_hop (a : Nat) (f : RchAct → RchAct) : (onAct a f s).hop = s.hop := rfl
@[simp] theorem onAct_smg (a : Nat) (f : RchAct → RchAct) : (onAct a f s).smg = s.smg := rfl
@[simp] theorem onAct_bob (a : Nat) (f : RchAct → RchAct) : (onAct a f s).bob = s.bob := rfl
@[simp] theorem onAct_dmc (a : Nat) (f : RchAct → RchAct) : (onAct a f s).dmc = s.dmc := rfl
@[simp] theorem onAct_tly (a : Nat) (f : RchAct → RchAct) : (onAct a f s).tly = s.tly := rfl
@[simp] theorem onAct_asu (a : Nat) (f : RchAct → RchAct) : (onAct a f s).asu = s.asu := rfl
@[simp] theorem onAct_scr (a : Nat) (f : RchAct → RchAct) : (onAct a f s).scr = s.scr := rfl
@[simp] theorem onAct_saf (a : Nat) (f : RchAct → RchAct) : (onAct a f s).saf = s.saf := rfl
@[simp] theorem onAct_dram (a : Nat) (f : RchAct → RchAct) : (onAct a f s).dram = s.dram := rfl
@[simp] theorem onAct_slm (a : Nat) (f : RchAct → RchAct) : (onAct a f s).slm = s.slm := rfl

@[simp] theorem onSide_pending (c : Nat) (f : CtrlSide → CtrlSide) : (onSide c f s).pending = s.pending := rfl
@[simp] theorem onSide_wall (c : Nat) (f : CtrlSide → CtrlSide) : (onSide c f s).wall = s.wall := rfl
@[simp] theorem onSide_free (c : Nat) (f : CtrlSide → CtrlSide) : (onSide c f s).free = s.free := rfl
@[simp] theorem onSide_out (c : Nat) (f : CtrlSide → CtrlSide) : (onSide c f s).out = s.out := rfl
@[simp] theorem onSide_bus (c : Nat) (f : CtrlSide → CtrlSide) : (onSide c f s).bus = s.bus := rfl
@[simp] theorem onSide_evt (c : Nat) (f : CtrlSide → CtrlSide) : (onSide c f s).evt = s.evt := rfl
@[simp] theorem onSide_prk (c : Nat) (f : CtrlSide → CtrlSide) : (onSide c f s).prk = s.prk := rfl
@[simp] theorem onSide_clk (c : Nat) (f : CtrlSide → CtrlSide) : (onSide c f s).clk = s.clk := rfl
@[simp] theorem onSide_cue (c : Nat) (f : CtrlSide → CtrlSide) : (onSide c f s).cue = s.cue := rfl
@[simp] theorem onSide_dev (c : Nat) (f : CtrlSide → CtrlSide) : (onSide c f s).dev = s.dev := rfl
@[simp] theorem onSide_pwr (c : Nat) (f : CtrlSide → CtrlSide) : (onSide c f s).pwr = s.pwr := rfl
@[simp] theorem onSide_hfe (c : Nat) (f : CtrlSide → CtrlSide) : (onSide c f s).hfe = s.hfe := rfl
@[simp] theorem onSide_scn (c : Nat) (f : CtrlSide → CtrlSide) : (onSide c f s).scn = { s.scn with ctl := Tab.update s.scn.ctl c {} f } := rfl
@[simp] theorem onSide_obj (c : Nat) (f : CtrlSide → CtrlSide) : (onSide c f s).obj = s.obj := rfl
@[simp] theorem onSide_trl (c : Nat) (f : CtrlSide → CtrlSide) : (onSide c f s).trl = s.trl := rfl
@[simp] theorem onSide_flc (c : Nat) (f : CtrlSide → CtrlSide) : (onSide c f s).flc = s.flc := rfl
@[simp] theorem onSide_rch (c : Nat) (f : CtrlSide → CtrlSide) : (onSide c f s).rch = s.rch := rfl
@[simp] theorem onSide_hop (c : Nat) (f : CtrlSide → CtrlSide) : (onSide c f s).hop = s.hop := rfl
@[simp] theorem onSide_smg (c : Nat) (f : CtrlSide → CtrlSide) : (onSide c f s).smg = s.smg := rfl
@[simp] theorem onSide_bob (c : Nat) (f : CtrlSide → CtrlSide) : (onSide c f s).bob = s.bob := rfl
@[simp] theorem onSide_dmc (c : Nat) (f : CtrlSide → CtrlSide) : (onSide c f s).dmc = s.dmc := rfl
@[simp] theorem onSide_tly (c : Nat) (f : CtrlSide → CtrlSide) : (onSide c f s).tly = s.tly := rfl
@[simp] theorem onSide_asu (c : Nat) (f : CtrlSide → CtrlSide) : (onSide c f s).asu = s.asu := rfl
@[simp] theorem onSide_scr (c : Nat) (f : CtrlSide → CtrlSide) : (onSide c f s).scr = s.scr := rfl
@[simp] theorem onSide_saf (c : Nat) (f : CtrlSide → CtrlSide) : (onSide c f s).saf = s.saf := rfl
@[simp] theorem onSide_dram (c : Nat) (f : CtrlSide → CtrlSide) : (onSide c f s).dram = s.dram := rfl
@[simp] theorem onSide_slm (c : Nat) (f : CtrlSide → CtrlSide) : (onSide c f s).slm = s.slm := rfl

@[simp] theorem onSq_pending (c q : Nat) (f : SubQueue → SubQueue) : (onSq c q f s).pending = s.pending := rfl
@[simp] theorem onSq_wall (c q : Nat) (f : SubQueue → SubQueue) : (onSq c q f s).wall = s.wall := rfl
@[simp] theorem onSq_free (c q : Nat) (f : SubQueue → SubQueue) : (onSq c q f s).free = s.free := rfl
@[simp] theorem onSq_out (c q : Nat) (f : SubQueue → SubQueue) : (onSq c q f s).out = s.out := rfl
@[simp] theorem onSq_bus (c q : Nat) (f : SubQueue → SubQueue) : (onSq c q f s).bus = s.bus := rfl
@[simp] theorem onSq_evt (c q : Nat) (f : SubQueue → SubQueue) : (onSq c q f s).evt = s.evt := rfl
@[simp] theorem onSq_prk (c q : Nat) (f : SubQueue → SubQueue) : (onSq c q f s).prk = s.prk := rfl
@[simp] theorem onSq_clk (c q : Nat) (f : SubQueue → SubQueue) : (onSq c q f s).clk = s.clk := rfl
@[simp] theorem onSq_cue (c q : Nat) (f : SubQueue → SubQueue) : (onSq c q f s).cue = s.cue := rfl
@[simp] theorem onSq_dev (c q : Nat) (f : SubQueue → SubQueue) : (onSq c q f s).dev = s.dev := rfl
@[simp] theorem onSq_pwr (c q : Nat) (f : SubQueue → SubQueue) : (onSq c q f s).pwr = s.pwr := rfl
@[simp] theorem onSq_hfe (c q : Nat) (f : SubQueue → SubQueue) : (onSq c q f s).hfe = s.hfe := rfl
@[simp] theorem onSq_scn (c q : Nat) (f : SubQueue → SubQueue) : (onSq c q f s).scn = { s.scn with sqs := Tab.modify s.scn.sqs (qKey c q) f } := rfl
@[simp] theorem onSq_obj (c q : Nat) (f : SubQueue → SubQueue) : (onSq c q f s).obj = s.obj := rfl
@[simp] theorem onSq_trl (c q : Nat) (f : SubQueue → SubQueue) : (onSq c q f s).trl = s.trl := rfl
@[simp] theorem onSq_flc (c q : Nat) (f : SubQueue → SubQueue) : (onSq c q f s).flc = s.flc := rfl
@[simp] theorem onSq_rch (c q : Nat) (f : SubQueue → SubQueue) : (onSq c q f s).rch = s.rch := rfl
@[simp] theorem onSq_hop (c q : Nat) (f : SubQueue → SubQueue) : (onSq c q f s).hop = s.hop := rfl
@[simp] theorem onSq_smg (c q : Nat) (f : SubQueue → SubQueue) : (onSq c q f s).smg = s.smg := rfl
@[simp] theorem onSq_bob (c q : Nat) (f : SubQueue → SubQueue) : (onSq c q f s).bob = s.bob := rfl
@[simp] theorem onSq_dmc (c q : Nat) (f : SubQueue → SubQueue) : (onSq c q f s).dmc = s.dmc := rfl
@[simp] theorem onSq_tly (c q : Nat) (f : SubQueue → SubQueue) : (onSq c q f s).tly = s.tly := rfl
@[simp] theorem onSq_asu (c q : Nat) (f : SubQueue → SubQueue) : (onSq c q f s).asu = s.asu := rfl
@[simp] theorem onSq_scr (c q : Nat) (f : SubQueue → SubQueue) : (onSq c q f s).scr = s.scr := rfl
@[simp] theorem onSq_saf (c q : Nat) (f : SubQueue → SubQueue) : (onSq c q f s).saf = s.saf := rfl
@[simp] theorem onSq_dram (c q : Nat) (f : SubQueue → SubQueue) : (onSq c q f s).dram = s.dram := rfl
@[simp] theorem onSq_slm (c q : Nat) (f : SubQueue → SubQueue) : (onSq c q f s).slm = s.slm := rfl

@[simp] theorem onScene_pending (o : Nat) (f : Scene → Scene) : (onScene o f s).pending = s.pending := rfl
@[simp] theorem onScene_wall (o : Nat) (f : Scene → Scene) : (onScene o f s).wall = s.wall := rfl
@[simp] theorem onScene_free (o : Nat) (f : Scene → Scene) : (onScene o f s).free = s.free := rfl
@[simp] theorem onScene_out (o : Nat) (f : Scene → Scene) : (onScene o f s).out = s.out := rfl
@[simp] theorem onScene_bus (o : Nat) (f : Scene → Scene) : (onScene o f s).bus = s.bus := rfl
@[simp] theorem onScene_evt (o : Nat) (f : Scene → Scene) : (onScene o f s).evt = s.evt := rfl
@[simp] theorem onScene_prk (o : Nat) (f : Scene → Scene) : (onScene o f s).prk = s.prk := rfl
@[simp] theorem onScene_clk (o : Nat) (f : Scene → Scene) : (onScene o f s).clk = s.clk := rfl
@[simp] theorem onScene_cue (o : Nat) (f : Scene → Scene) : (onScene o f s).cue = s.cue := rfl
@[simp] theorem onScene_dev (o : Nat) (f : Scene → Scene) : (onScene o f s).dev = s.dev := rfl
@[simp] theorem onScene_pwr (o : Nat) (f : Scene → Scene) : (onScene o f s).pwr = s.pwr := rfl
@[simp] theorem onScene_hfe (o : Nat) (f : Scene → Scene) : (onScene o f s).hfe = s.hfe := rfl
@[simp] theorem onScene_scn (o : Nat) (f : Scene → Scene) : (onScene o f s).scn = { s.scn with scenes := Tab.modify s.scn.scenes o f } := rfl
@[simp] theorem onScene_obj (o : Nat) (f : Scene → Scene) : (onScene o f s).obj = s.obj := rfl
@[simp] theorem onScene_trl (o : Nat) (f : Scene → Scene) : (onScene o f s).trl = s.trl := rfl
@[simp] theorem onScene_flc (o : Nat) (f : Scene → Scene) : (onScene o f s).flc = s.flc := rfl
@[simp] theorem onScene_rch (o : Nat) (f : Scene → Scene) : (onScene o f s).rch = s.rch := rfl
@[simp] theorem onScene_hop (o : Nat) (f : Scene → Scene) : (onScene o f s).hop = s.hop := rfl
@[simp] theorem onScene_smg (o : Nat) (f : Scene → Scene) : (onScene o f s).smg = s.smg := rfl
@[simp] theorem onScene_bob (o : Nat) (f : Scene → Scene) : (onScene o f s).bob = s.bob := rfl
@[simp] theorem onScene_dmc (o : Nat) (f : Scene → Scene) : (onScene o f s).dmc = s.dmc := rfl
@[simp] theorem onScene_tly (o : Nat) (f : Scene → Scene) : (onScene o f s).tly = s.tly := rfl
@[simp] theorem onScene_asu (o : Nat) (f : Scene → Scene) : (onScene o f s).asu = s.asu := rfl
@[simp] theorem onScene_scr (o : Nat) (f : Scene → Scene) : (onScene o f s).scr = s.scr := rfl
@[simp] theorem onScene_saf (o : Nat) (f : Scene → Scene) : (onScene o f s).saf = s.saf := rfl
@[simp] theorem onScene_dram (o : Nat) (f : Scene → Scene) : (onScene o f s).dram = s.dram := rfl
@[simp] theorem onScene_slm (o : Nat) (f : Scene → Scene) : (onScene o f s).slm = s.slm := rfl

@[simp] theorem onCtrl_pending (c : Nat) (f : Ctrl → Ctrl) : (onCtrl c f s).pending = s.pending := rfl
@[simp] theorem onCtrl_wall (c : Nat) (f : Ctrl → Ctrl) : (onCtrl c f s).wall = s.wall := rfl
@[simp] theorem onCtrl_free (c : Nat) (f : Ctrl → Ctrl) : (onCtrl c f s).free = s.free := rfl
@[simp] theorem onCtrl_out (c : Nat) (f : Ctrl → Ctrl) : (onCtrl c f s).out = s.out := rfl
@[simp] theorem onCtrl_bus (c : Nat) (f : Ctrl → Ctrl) : (onCtrl c f s).bus = s.bus := rfl
@[simp] theorem onCtrl_evt (c : Nat) (f : Ctrl → Ctrl) : (onCtrl c f s).evt = s.evt := rfl
@[simp] theorem onCtrl_prk (c : Nat) (f : Ctrl → Ctrl) : (onCtrl c f s).prk = s.prk := rfl
@[simp] theorem onCtrl_clk (c : Nat) (f : Ctrl → Ctrl) : (onCtrl c f s).clk = s.clk := rfl
@[simp] theorem onCtrl_cue (c : Nat) (f : Ctrl → Ctrl) : (onCtrl c f s).cue = s.cue := rfl
@[simp] theorem onCtrl_dev (c : Nat) (f : Ctrl → Ctrl) : (onCtrl c f s).dev = s.dev := rfl
@[simp] theorem onCtrl_pwr (c : Nat) (f : Ctrl → Ctrl) : (onCtrl c f s).pwr = s.pwr := rfl
@[simp] theorem onCtrl_hfe (c : Nat) (f : Ctrl → Ctrl) : (onCtrl c f s).hfe = { s.hfe with ctrls := Tab.modify s.hfe.ctrls c f } := rfl
@[simp] theorem onCtrl_scn (c : Nat) (f : Ctrl → Ctrl) : (onCtrl c f s).scn = s.scn := rfl
@[simp] theorem onCtrl_obj (c : Nat) (f : Ctrl → Ctrl) : (onCtrl c f s).obj = s.obj := rfl
@[simp] theorem onCtrl_trl (c : Nat) (f : Ctrl → Ctrl) : (onCtrl c f s).trl = s.trl := rfl
@[simp] theorem onCtrl_flc (c : Nat) (f : Ctrl → Ctrl) : (onCtrl c f s).flc = s.flc := rfl
@[simp] theorem onCtrl_rch (c : Nat) (f : Ctrl → Ctrl) : (onCtrl c f s).rch = s.rch := rfl
@[simp] theorem onCtrl_hop (c : Nat) (f : Ctrl → Ctrl) : (onCtrl c f s).hop = s.hop := rfl
@[simp] theorem onCtrl_smg (c : Nat) (f : Ctrl → Ctrl) : (onCtrl c f s).smg = s.smg := rfl
@[simp] theorem onCtrl_bob (c : Nat) (f : Ctrl → Ctrl) : (onCtrl c f s).bob = s.bob := rfl
@[simp] theorem onCtrl_dmc (c : Nat) (f : Ctrl → Ctrl) : (onCtrl c f s).dmc = s.dmc := rfl
@[simp] theorem onCtrl_tly (c : Nat) (f : Ctrl → Ctrl) : (onCtrl c f s).tly = s.tly := rfl
@[simp] theorem onCtrl_asu (c : Nat) (f : Ctrl → Ctrl) : (onCtrl c f s).asu = s.asu := rfl
@[simp] theorem onCtrl_scr (c : Nat) (f : Ctrl → Ctrl) : (onCtrl c f s).scr = s.scr := rfl
@[simp] theorem onCtrl_saf (c : Nat) (f : Ctrl → Ctrl) : (onCtrl c f s).saf = s.saf := rfl
@[simp] theorem onCtrl_dram (c : Nat) (f : Ctrl → Ctrl) : (onCtrl c f s).dram = s.dram := rfl
@[simp] theorem onCtrl_slm (c : Nat) (f : Ctrl → Ctrl) : (onCtrl c f s).slm = s.slm := rfl

@[simp] theorem onPort_pending (p : Nat) (f : EthPort → EthPort) : (onPort p f s).pending = s.pending := rfl
@[simp] theorem onPort_wall (p : Nat) (f : EthPort → EthPort) : (onPort p f s).wall = s.wall := rfl
@[simp] theorem onPort_free (p : Nat) (f : EthPort → EthPort) : (onPort p f s).free = s.free := rfl
@[simp] theorem onPort_out (p : Nat) (f : EthPort → EthPort) : (onPort p f s).out = s.out := rfl
@[simp] theorem onPort_bus (p : Nat) (f : EthPort → EthPort) : (onPort p f s).bus = s.bus := rfl
@[simp] theorem onPort_evt (p : Nat) (f : EthPort → EthPort) : (onPort p f s).evt = s.evt := rfl
@[simp] theorem onPort_prk (p : Nat) (f : EthPort → EthPort) : (onPort p f s).prk = s.prk := rfl
@[simp] theorem onPort_clk (p : Nat) (f : EthPort → EthPort) : (onPort p f s).clk = s.clk := rfl
@[simp] theorem onPort_cue (p : Nat) (f : EthPort → EthPort) : (onPort p f s).cue = s.cue := rfl
@[simp] theorem onPort_dev (p : Nat) (f : EthPort → EthPort) : (onPort p f s).dev = s.dev := rfl
@[simp] theorem onPort_pwr (p : Nat) (f : EthPort → EthPort) : (onPort p f s).pwr = s.pwr := rfl
@[simp] theorem onPort_hfe (p : Nat) (f : EthPort → EthPort) : (onPort p f s).hfe = { s.hfe with eth := Tab.update s.hfe.eth p {} f } := rfl
@[simp] theorem onPort_scn (p : Nat) (f : EthPort → EthPort) : (onPort p f s).scn = s.scn := rfl
@[simp] theorem onPort_obj (p : Nat) (f : EthPort → EthPort) : (onPort p f s).obj = s.obj := rfl
@[simp] theorem onPort_trl (p : Nat) (f : EthPort → EthPort) : (onPort p f s).trl = s.trl := rfl
@[simp] theorem onPort_flc (p : Nat) (f : EthPort → EthPort) : (onPort p f s).flc = s.flc := rfl
@[simp] theorem onPort_rch (p : Nat) (f : EthPort → EthPort) : (onPort p f s).rch = s.rch := rfl
@[simp] theorem onPort_hop (p : Nat) (f : EthPort → EthPort) : (onPort p f s).hop = s.hop := rfl
@[simp] theorem onPort_smg (p : Nat) (f : EthPort → EthPort) : (onPort p f s).smg = s.smg := rfl
@[simp] theorem onPort_bob (p : Nat) (f : EthPort → EthPort) : (onPort p f s).bob = s.bob := rfl
@[simp] theorem onPort_dmc (p : Nat) (f : EthPort → EthPort) : (onPort p f s).dmc = s.dmc := rfl
@[simp] theorem onPort_tly (p : Nat) (f : EthPort → EthPort) : (onPort p f s).tly = s.tly := rfl
@[simp] theorem onPort_asu (p : Nat) (f : EthPort → EthPort) : (onPort p f s).asu = s.asu := rfl
@[simp] theorem onPort_scr (p : Nat) (f : EthPort → EthPort) : (onPort p f s).scr = s.scr := rfl
@[simp] theorem onPort_saf (p : Nat) (f : EthPort → EthPort) : (onPort p f s).saf = s.saf := rfl
@[simp] theorem onPort_dram (p : Nat) (f : EthPort → EthPort) : (onPort p f s).dram = s.dram := rfl
@[simp] theorem onPort_slm (p : Nat) (f : EthPort → EthPort) : (onPort p f s).slm = s.slm := rfl

@[simp] theorem onNs_pending (n : Nat) (f : Namespace → Namespace) : (onNs n f s).pending = s.pending := rfl
@[simp] theorem onNs_wall (n : Nat) (f : Namespace → Namespace) : (onNs n f s).wall = s.wall := rfl
@[simp] theorem onNs_free (n : Nat) (f : Namespace → Namespace) : (onNs n f s).free = s.free := rfl
@[simp] theorem onNs_out (n : Nat) (f : Namespace → Namespace) : (onNs n f s).out = s.out := rfl
@[simp] theorem onNs_bus (n : Nat) (f : Namespace → Namespace) : (onNs n f s).bus = s.bus := rfl
@[simp] theorem onNs_evt (n : Nat) (f : Namespace → Namespace) : (onNs n f s).evt = s.evt := rfl
@[simp] theorem onNs_prk (n : Nat) (f : Namespace → Namespace) : (onNs n f s).prk = s.prk := rfl
@[simp] theorem onNs_clk (n : Nat) (f : Namespace → Namespace) : (onNs n f s).clk = s.clk := rfl
@[simp] theorem onNs_cue (n : Nat) (f : Namespace → Namespace) : (onNs n f s).cue = s.cue := rfl
@[simp] theorem onNs_dev (n : Nat) (f : Namespace → Namespace) : (onNs n f s).dev = s.dev := rfl
@[simp] theorem onNs_pwr (n : Nat) (f : Namespace → Namespace) : (onNs n f s).pwr = s.pwr := rfl
@[simp] theorem onNs_hfe (n : Nat) (f : Namespace → Namespace) : (onNs n f s).hfe = s.hfe := rfl
@[simp] theorem onNs_scn (n : Nat) (f : Namespace → Namespace) : (onNs n f s).scn = s.scn := rfl
@[simp] theorem onNs_obj (n : Nat) (f : Namespace → Namespace) : (onNs n f s).obj = { s.obj with ns := Tab.modify s.obj.ns n f } := rfl
@[simp] theorem onNs_trl (n : Nat) (f : Namespace → Namespace) : (onNs n f s).trl = s.trl := rfl
@[simp] theorem onNs_flc (n : Nat) (f : Namespace → Namespace) : (onNs n f s).flc = s.flc := rfl
@[simp] theorem onNs_rch (n : Nat) (f : Namespace → Namespace) : (onNs n f s).rch = s.rch := rfl
@[simp] theorem onNs_hop (n : Nat) (f : Namespace → Namespace) : (onNs n f s).hop = s.hop := rfl
@[simp] theorem onNs_smg (n : Nat) (f : Namespace → Namespace) : (onNs n f s).smg = s.smg := rfl
@[simp] theorem onNs_bob (n : Nat) (f : Namespace → Namespace) : (onNs n f s).bob = s.bob := rfl
@[simp] theorem onNs_dmc (n : Nat) (f : Namespace → Namespace) : (onNs n f s).dmc = s.dmc := rfl
@[simp] theorem onNs_tly (n : Nat) (f : Namespace → Namespace) : (onNs n f s).tly = s.tly := rfl
@[simp] theorem onNs_asu (n : Nat) (f : Namespace → Namespace) : (onNs n f s).asu = s.asu := rfl
@[simp] theorem onNs_scr (n : Nat) (f : Namespace → Namespace) : (onNs n f s).scr = s.scr := rfl
@[simp] theorem onNs_saf (n : Nat) (f : Namespace → Namespace) : (onNs n f s).saf = s.saf := rfl
@[simp] theorem onNs_dram (n : Nat) (f : Namespace → Namespace) : (onNs n f s).dram = s.dram := rfl
@[simp] theorem onNs_slm (n : Nat) (f : Namespace → Namespace) : (onNs n f s).slm = s.slm := rfl

@[simp] theorem onJob_pending (t : Nat) (f : ArcJob → ArcJob) : (onJob t f s).pending = s.pending := rfl
@[simp] theorem onJob_wall (t : Nat) (f : ArcJob → ArcJob) : (onJob t f s).wall = s.wall := rfl
@[simp] theorem onJob_free (t : Nat) (f : ArcJob → ArcJob) : (onJob t f s).free = s.free := rfl
@[simp] theorem onJob_out (t : Nat) (f : ArcJob → ArcJob) : (onJob t f s).out = s.out := rfl
@[simp] theorem onJob_bus (t : Nat) (f : ArcJob → ArcJob) : (onJob t f s).bus = s.bus := rfl
@[simp] theorem onJob_evt (t : Nat) (f : ArcJob → ArcJob) : (onJob t f s).evt = s.evt := rfl
@[simp] theorem onJob_prk (t : Nat) (f : ArcJob → ArcJob) : (onJob t f s).prk = s.prk := rfl
@[simp] theorem onJob_clk (t : Nat) (f : ArcJob → ArcJob) : (onJob t f s).clk = s.clk := rfl
@[simp] theorem onJob_cue (t : Nat) (f : ArcJob → ArcJob) : (onJob t f s).cue = s.cue := rfl
@[simp] theorem onJob_dev (t : Nat) (f : ArcJob → ArcJob) : (onJob t f s).dev = s.dev := rfl
@[simp] theorem onJob_pwr (t : Nat) (f : ArcJob → ArcJob) : (onJob t f s).pwr = s.pwr := rfl
@[simp] theorem onJob_hfe (t : Nat) (f : ArcJob → ArcJob) : (onJob t f s).hfe = s.hfe := rfl
@[simp] theorem onJob_scn (t : Nat) (f : ArcJob → ArcJob) : (onJob t f s).scn = s.scn := rfl
@[simp] theorem onJob_obj (t : Nat) (f : ArcJob → ArcJob) : (onJob t f s).obj = { s.obj with jobs := Tab.update s.obj.jobs t {} f } := rfl
@[simp] theorem onJob_trl (t : Nat) (f : ArcJob → ArcJob) : (onJob t f s).trl = s.trl := rfl
@[simp] theorem onJob_flc (t : Nat) (f : ArcJob → ArcJob) : (onJob t f s).flc = s.flc := rfl
@[simp] theorem onJob_rch (t : Nat) (f : ArcJob → ArcJob) : (onJob t f s).rch = s.rch := rfl
@[simp] theorem onJob_hop (t : Nat) (f : ArcJob → ArcJob) : (onJob t f s).hop = s.hop := rfl
@[simp] theorem onJob_smg (t : Nat) (f : ArcJob → ArcJob) : (onJob t f s).smg = s.smg := rfl
@[simp] theorem onJob_bob (t : Nat) (f : ArcJob → ArcJob) : (onJob t f s).bob = s.bob := rfl
@[simp] theorem onJob_dmc (t : Nat) (f : ArcJob → ArcJob) : (onJob t f s).dmc = s.dmc := rfl
@[simp] theorem onJob_tly (t : Nat) (f : ArcJob → ArcJob) : (onJob t f s).tly = s.tly := rfl
@[simp] theorem onJob_asu (t : Nat) (f : ArcJob → ArcJob) : (onJob t f s).asu = s.asu := rfl
@[simp] theorem onJob_scr (t : Nat) (f : ArcJob → ArcJob) : (onJob t f s).scr = s.scr := rfl
@[simp] theorem onJob_saf (t : Nat) (f : ArcJob → ArcJob) : (onJob t f s).saf = s.saf := rfl
@[simp] theorem onJob_dram (t : Nat) (f : ArcJob → ArcJob) : (onJob t f s).dram = s.dram := rfl
@[simp] theorem onJob_slm (t : Nat) (f : ArcJob → ArcJob) : (onJob t f s).slm = s.slm := rfl

@[simp] theorem onLun_pending (l : Nat) (f : LunState → LunState) : (onLun l f s).pending = s.pending := rfl
@[simp] theorem onLun_wall (l : Nat) (f : LunState → LunState) : (onLun l f s).wall = s.wall := rfl
@[simp] theorem onLun_free (l : Nat) (f : LunState → LunState) : (onLun l f s).free = s.free := rfl
@[simp] theorem onLun_out (l : Nat) (f : LunState → LunState) : (onLun l f s).out = s.out := rfl
@[simp] theorem onLun_bus (l : Nat) (f : LunState → LunState) : (onLun l f s).bus = s.bus := rfl
@[simp] theorem onLun_evt (l : Nat) (f : LunState → LunState) : (onLun l f s).evt = s.evt := rfl
@[simp] theorem onLun_prk (l : Nat) (f : LunState → LunState) : (onLun l f s).prk = s.prk := rfl
@[simp] theorem onLun_clk (l : Nat) (f : LunState → LunState) : (onLun l f s).clk = s.clk := rfl
@[simp] theorem onLun_cue (l : Nat) (f : LunState → LunState) : (onLun l f s).cue = s.cue := rfl
@[simp] theorem onLun_dev (l : Nat) (f : LunState → LunState) : (onLun l f s).dev = s.dev := rfl
@[simp] theorem onLun_pwr (l : Nat) (f : LunState → LunState) : (onLun l f s).pwr = s.pwr := rfl
@[simp] theorem onLun_hfe (l : Nat) (f : LunState → LunState) : (onLun l f s).hfe = s.hfe := rfl
@[simp] theorem onLun_scn (l : Nat) (f : LunState → LunState) : (onLun l f s).scn = s.scn := rfl
@[simp] theorem onLun_obj (l : Nat) (f : LunState → LunState) : (onLun l f s).obj = s.obj := rfl
@[simp] theorem onLun_trl (l : Nat) (f : LunState → LunState) : (onLun l f s).trl = s.trl := rfl
@[simp] theorem onLun_flc (l : Nat) (f : LunState → LunState) : (onLun l f s).flc = { s.flc with luns := Tab.modify s.flc.luns l f } := rfl
@[simp] theorem onLun_rch (l : Nat) (f : LunState → LunState) : (onLun l f s).rch = s.rch := rfl
@[simp] theorem onLun_hop (l : Nat) (f : LunState → LunState) : (onLun l f s).hop = s.hop := rfl
@[simp] theorem onLun_smg (l : Nat) (f : LunState → LunState) : (onLun l f s).smg = s.smg := rfl
@[simp] theorem onLun_bob (l : Nat) (f : LunState → LunState) : (onLun l f s).bob = s.bob := rfl
@[simp] theorem onLun_dmc (l : Nat) (f : LunState → LunState) : (onLun l f s).dmc = s.dmc := rfl
@[simp] theorem onLun_tly (l : Nat) (f : LunState → LunState) : (onLun l f s).tly = s.tly := rfl
@[simp] theorem onLun_asu (l : Nat) (f : LunState → LunState) : (onLun l f s).asu = s.asu := rfl
@[simp] theorem onLun_scr (l : Nat) (f : LunState → LunState) : (onLun l f s).scr = s.scr := rfl
@[simp] theorem onLun_saf (l : Nat) (f : LunState → LunState) : (onLun l f s).saf = s.saf := rfl
@[simp] theorem onLun_dram (l : Nat) (f : LunState → LunState) : (onLun l f s).dram = s.dram := rfl
@[simp] theorem onLun_slm (l : Nat) (f : LunState → LunState) : (onLun l f s).slm = s.slm := rfl

@[simp] theorem onRd_pending (r : Nat) (f : MediaRd → MediaRd) : (onRd r f s).pending = s.pending := rfl
@[simp] theorem onRd_wall (r : Nat) (f : MediaRd → MediaRd) : (onRd r f s).wall = s.wall := rfl
@[simp] theorem onRd_free (r : Nat) (f : MediaRd → MediaRd) : (onRd r f s).free = s.free := rfl
@[simp] theorem onRd_out (r : Nat) (f : MediaRd → MediaRd) : (onRd r f s).out = s.out := rfl
@[simp] theorem onRd_bus (r : Nat) (f : MediaRd → MediaRd) : (onRd r f s).bus = s.bus := rfl
@[simp] theorem onRd_evt (r : Nat) (f : MediaRd → MediaRd) : (onRd r f s).evt = s.evt := rfl
@[simp] theorem onRd_prk (r : Nat) (f : MediaRd → MediaRd) : (onRd r f s).prk = s.prk := rfl
@[simp] theorem onRd_clk (r : Nat) (f : MediaRd → MediaRd) : (onRd r f s).clk = s.clk := rfl
@[simp] theorem onRd_cue (r : Nat) (f : MediaRd → MediaRd) : (onRd r f s).cue = s.cue := rfl
@[simp] theorem onRd_dev (r : Nat) (f : MediaRd → MediaRd) : (onRd r f s).dev = s.dev := rfl
@[simp] theorem onRd_pwr (r : Nat) (f : MediaRd → MediaRd) : (onRd r f s).pwr = s.pwr := rfl
@[simp] theorem onRd_hfe (r : Nat) (f : MediaRd → MediaRd) : (onRd r f s).hfe = s.hfe := rfl
@[simp] theorem onRd_scn (r : Nat) (f : MediaRd → MediaRd) : (onRd r f s).scn = s.scn := rfl
@[simp] theorem onRd_obj (r : Nat) (f : MediaRd → MediaRd) : (onRd r f s).obj = s.obj := rfl
@[simp] theorem onRd_trl (r : Nat) (f : MediaRd → MediaRd) : (onRd r f s).trl = s.trl := rfl
@[simp] theorem onRd_flc (r : Nat) (f : MediaRd → MediaRd) : (onRd r f s).flc = { s.flc with rds := Tab.modify s.flc.rds r f } := rfl
@[simp] theorem onRd_rch (r : Nat) (f : MediaRd → MediaRd) : (onRd r f s).rch = s.rch := rfl
@[simp] theorem onRd_hop (r : Nat) (f : MediaRd → MediaRd) : (onRd r f s).hop = s.hop := rfl
@[simp] theorem onRd_smg (r : Nat) (f : MediaRd → MediaRd) : (onRd r f s).smg = s.smg := rfl
@[simp] theorem onRd_bob (r : Nat) (f : MediaRd → MediaRd) : (onRd r f s).bob = s.bob := rfl
@[simp] theorem onRd_dmc (r : Nat) (f : MediaRd → MediaRd) : (onRd r f s).dmc = s.dmc := rfl
@[simp] theorem onRd_tly (r : Nat) (f : MediaRd → MediaRd) : (onRd r f s).tly = s.tly := rfl
@[simp] theorem onRd_asu (r : Nat) (f : MediaRd → MediaRd) : (onRd r f s).asu = s.asu := rfl
@[simp] theorem onRd_scr (r : Nat) (f : MediaRd → MediaRd) : (onRd r f s).scr = s.scr := rfl
@[simp] theorem onRd_saf (r : Nat) (f : MediaRd → MediaRd) : (onRd r f s).saf = s.saf := rfl
@[simp] theorem onRd_dram (r : Nat) (f : MediaRd → MediaRd) : (onRd r f s).dram = s.dram := rfl
@[simp] theorem onRd_slm (r : Nat) (f : MediaRd → MediaRd) : (onRd r f s).slm = s.slm := rfl

@[simp] theorem countUp_pending (key n : Nat) : (countUp key n s).pending = s.pending := rfl
@[simp] theorem countUp_wall (key n : Nat) : (countUp key n s).wall = s.wall := rfl
@[simp] theorem countUp_free (key n : Nat) : (countUp key n s).free = s.free := rfl
@[simp] theorem countUp_out (key n : Nat) : (countUp key n s).out = s.out := rfl
@[simp] theorem countUp_bus (key n : Nat) : (countUp key n s).bus = { s.bus with rc := Tab.update s.bus.rc key 0 (fun v => min (v + n) (2 ^ 32 - 1)) } := rfl
@[simp] theorem countUp_evt (key n : Nat) : (countUp key n s).evt = s.evt := rfl
@[simp] theorem countUp_prk (key n : Nat) : (countUp key n s).prk = s.prk := rfl
@[simp] theorem countUp_clk (key n : Nat) : (countUp key n s).clk = s.clk := rfl
@[simp] theorem countUp_cue (key n : Nat) : (countUp key n s).cue = s.cue := rfl
@[simp] theorem countUp_dev (key n : Nat) : (countUp key n s).dev = s.dev := rfl
@[simp] theorem countUp_pwr (key n : Nat) : (countUp key n s).pwr = s.pwr := rfl
@[simp] theorem countUp_hfe (key n : Nat) : (countUp key n s).hfe = s.hfe := rfl
@[simp] theorem countUp_scn (key n : Nat) : (countUp key n s).scn = s.scn := rfl
@[simp] theorem countUp_obj (key n : Nat) : (countUp key n s).obj = s.obj := rfl
@[simp] theorem countUp_trl (key n : Nat) : (countUp key n s).trl = s.trl := rfl
@[simp] theorem countUp_flc (key n : Nat) : (countUp key n s).flc = s.flc := rfl
@[simp] theorem countUp_rch (key n : Nat) : (countUp key n s).rch = s.rch := rfl
@[simp] theorem countUp_hop (key n : Nat) : (countUp key n s).hop = s.hop := rfl
@[simp] theorem countUp_smg (key n : Nat) : (countUp key n s).smg = s.smg := rfl
@[simp] theorem countUp_bob (key n : Nat) : (countUp key n s).bob = s.bob := rfl
@[simp] theorem countUp_dmc (key n : Nat) : (countUp key n s).dmc = s.dmc := rfl
@[simp] theorem countUp_tly (key n : Nat) : (countUp key n s).tly = s.tly := rfl
@[simp] theorem countUp_asu (key n : Nat) : (countUp key n s).asu = s.asu := rfl
@[simp] theorem countUp_scr (key n : Nat) : (countUp key n s).scr = s.scr := rfl
@[simp] theorem countUp_saf (key n : Nat) : (countUp key n s).saf = s.saf := rfl
@[simp] theorem countUp_dram (key n : Nat) : (countUp key n s).dram = s.dram := rfl
@[simp] theorem countUp_slm (key n : Nat) : (countUp key n s).slm = s.slm := rfl

@[simp] theorem count1_pending (key : Nat) : (count1 key s).pending = s.pending := rfl
@[simp] theorem count1_wall (key : Nat) : (count1 key s).wall = s.wall := rfl
@[simp] theorem count1_free (key : Nat) : (count1 key s).free = s.free := rfl
@[simp] theorem count1_out (key : Nat) : (count1 key s).out = s.out := rfl
@[simp] theorem count1_bus (key : Nat) : (count1 key s).bus = { s.bus with rc := Tab.update s.bus.rc key 0 (fun v => min (v + 1) (2 ^ 32 - 1)) } := rfl
@[simp] theorem count1_evt (key : Nat) : (count1 key s).evt = s.evt := rfl
@[simp] theorem count1_prk (key : Nat) : (count1 key s).prk = s.prk := rfl
@[simp] theorem count1_clk (key : Nat) : (count1 key s).clk = s.clk := rfl
@[simp] theorem count1_cue (key : Nat) : (count1 key s).cue = s.cue := rfl
@[simp] theorem count1_dev (key : Nat) : (count1 key s).dev = s.dev := rfl
@[simp] theorem count1_pwr (key : Nat) : (count1 key s).pwr = s.pwr := rfl
@[simp] theorem count1_hfe (key : Nat) : (count1 key s).hfe = s.hfe := rfl
@[simp] theorem count1_scn (key : Nat) : (count1 key s).scn = s.scn := rfl
@[simp] theorem count1_obj (key : Nat) : (count1 key s).obj = s.obj := rfl
@[simp] theorem count1_trl (key : Nat) : (count1 key s).trl = s.trl := rfl
@[simp] theorem count1_flc (key : Nat) : (count1 key s).flc = s.flc := rfl
@[simp] theorem count1_rch (key : Nat) : (count1 key s).rch = s.rch := rfl
@[simp] theorem count1_hop (key : Nat) : (count1 key s).hop = s.hop := rfl
@[simp] theorem count1_smg (key : Nat) : (count1 key s).smg = s.smg := rfl
@[simp] theorem count1_bob (key : Nat) : (count1 key s).bob = s.bob := rfl
@[simp] theorem count1_dmc (key : Nat) : (count1 key s).dmc = s.dmc := rfl
@[simp] theorem count1_tly (key : Nat) : (count1 key s).tly = s.tly := rfl
@[simp] theorem count1_asu (key : Nat) : (count1 key s).asu = s.asu := rfl
@[simp] theorem count1_scr (key : Nat) : (count1 key s).scr = s.scr := rfl
@[simp] theorem count1_saf (key : Nat) : (count1 key s).saf = s.saf := rfl
@[simp] theorem count1_dram (key : Nat) : (count1 key s).dram = s.dram := rfl
@[simp] theorem count1_slm (key : Nat) : (count1 key s).slm = s.slm := rfl

@[simp] theorem setReg_pending (key v : Nat) : (setReg key v s).pending = s.pending := rfl
@[simp] theorem setReg_wall (key v : Nat) : (setReg key v s).wall = s.wall := rfl
@[simp] theorem setReg_free (key v : Nat) : (setReg key v s).free = s.free := rfl
@[simp] theorem setReg_out (key v : Nat) : (setReg key v s).out = s.out := rfl
@[simp] theorem setReg_bus (key v : Nat) : (setReg key v s).bus = { s.bus with regs := Tab.put s.bus.regs key (BitVec.ofNat 32 v) } := rfl
@[simp] theorem setReg_evt (key v : Nat) : (setReg key v s).evt = s.evt := rfl
@[simp] theorem setReg_prk (key v : Nat) : (setReg key v s).prk = s.prk := rfl
@[simp] theorem setReg_clk (key v : Nat) : (setReg key v s).clk = s.clk := rfl
@[simp] theorem setReg_cue (key v : Nat) : (setReg key v s).cue = s.cue := rfl
@[simp] theorem setReg_dev (key v : Nat) : (setReg key v s).dev = s.dev := rfl
@[simp] theorem setReg_pwr (key v : Nat) : (setReg key v s).pwr = s.pwr := rfl
@[simp] theorem setReg_hfe (key v : Nat) : (setReg key v s).hfe = s.hfe := rfl
@[simp] theorem setReg_scn (key v : Nat) : (setReg key v s).scn = s.scn := rfl
@[simp] theorem setReg_obj (key v : Nat) : (setReg key v s).obj = s.obj := rfl
@[simp] theorem setReg_trl (key v : Nat) : (setReg key v s).trl = s.trl := rfl
@[simp] theorem setReg_flc (key v : Nat) : (setReg key v s).flc = s.flc := rfl
@[simp] theorem setReg_rch (key v : Nat) : (setReg key v s).rch = s.rch := rfl
@[simp] theorem setReg_hop (key v : Nat) : (setReg key v s).hop = s.hop := rfl
@[simp] theorem setReg_smg (key v : Nat) : (setReg key v s).smg = s.smg := rfl
@[simp] theorem setReg_bob (key v : Nat) : (setReg key v s).bob = s.bob := rfl
@[simp] theorem setReg_dmc (key v : Nat) : (setReg key v s).dmc = s.dmc := rfl
@[simp] theorem setReg_tly (key v : Nat) : (setReg key v s).tly = s.tly := rfl
@[simp] theorem setReg_asu (key v : Nat) : (setReg key v s).asu = s.asu := rfl
@[simp] theorem setReg_scr (key v : Nat) : (setReg key v s).scr = s.scr := rfl
@[simp] theorem setReg_saf (key v : Nat) : (setReg key v s).saf = s.saf := rfl
@[simp] theorem setReg_dram (key v : Nat) : (setReg key v s).dram = s.dram := rfl
@[simp] theorem setReg_slm (key v : Nat) : (setReg key v s).slm = s.slm := rfl

@[simp] theorem onKeySlot_pending (k : Nat) (f : KeySlot → KeySlot) : (onKeySlot k f s).pending = s.pending := rfl
@[simp] theorem onKeySlot_wall (k : Nat) (f : KeySlot → KeySlot) : (onKeySlot k f s).wall = s.wall := rfl
@[simp] theorem onKeySlot_free (k : Nat) (f : KeySlot → KeySlot) : (onKeySlot k f s).free = s.free := rfl
@[simp] theorem onKeySlot_out (k : Nat) (f : KeySlot → KeySlot) : (onKeySlot k f s).out = s.out := rfl
@[simp] theorem onKeySlot_bus (k : Nat) (f : KeySlot → KeySlot) : (onKeySlot k f s).bus = s.bus := rfl
@[simp] theorem onKeySlot_evt (k : Nat) (f : KeySlot → KeySlot) : (onKeySlot k f s).evt = s.evt := rfl
@[simp] theorem onKeySlot_prk (k : Nat) (f : KeySlot → KeySlot) : (onKeySlot k f s).prk = s.prk := rfl
@[simp] theorem onKeySlot_clk (k : Nat) (f : KeySlot → KeySlot) : (onKeySlot k f s).clk = s.clk := rfl
@[simp] theorem onKeySlot_cue (k : Nat) (f : KeySlot → KeySlot) : (onKeySlot k f s).cue = s.cue := rfl
@[simp] theorem onKeySlot_dev (k : Nat) (f : KeySlot → KeySlot) : (onKeySlot k f s).dev = s.dev := rfl
@[simp] theorem onKeySlot_pwr (k : Nat) (f : KeySlot → KeySlot) : (onKeySlot k f s).pwr = s.pwr := rfl
@[simp] theorem onKeySlot_hfe (k : Nat) (f : KeySlot → KeySlot) : (onKeySlot k f s).hfe = s.hfe := rfl
@[simp] theorem onKeySlot_scn (k : Nat) (f : KeySlot → KeySlot) : (onKeySlot k f s).scn = s.scn := rfl
@[simp] theorem onKeySlot_obj (k : Nat) (f : KeySlot → KeySlot) : (onKeySlot k f s).obj = s.obj := rfl
@[simp] theorem onKeySlot_trl (k : Nat) (f : KeySlot → KeySlot) : (onKeySlot k f s).trl = s.trl := rfl
@[simp] theorem onKeySlot_flc (k : Nat) (f : KeySlot → KeySlot) : (onKeySlot k f s).flc = s.flc := rfl
@[simp] theorem onKeySlot_rch (k : Nat) (f : KeySlot → KeySlot) : (onKeySlot k f s).rch = s.rch := rfl
@[simp] theorem onKeySlot_hop (k : Nat) (f : KeySlot → KeySlot) : (onKeySlot k f s).hop = s.hop := rfl
@[simp] theorem onKeySlot_smg (k : Nat) (f : KeySlot → KeySlot) : (onKeySlot k f s).smg = s.smg := rfl
@[simp] theorem onKeySlot_bob (k : Nat) (f : KeySlot → KeySlot) : (onKeySlot k f s).bob = s.bob := rfl
@[simp] theorem onKeySlot_dmc (k : Nat) (f : KeySlot → KeySlot) : (onKeySlot k f s).dmc = s.dmc := rfl
@[simp] theorem onKeySlot_tly (k : Nat) (f : KeySlot → KeySlot) : (onKeySlot k f s).tly = s.tly := rfl
@[simp] theorem onKeySlot_asu (k : Nat) (f : KeySlot → KeySlot) : (onKeySlot k f s).asu = s.asu := rfl
@[simp] theorem onKeySlot_scr (k : Nat) (f : KeySlot → KeySlot) : (onKeySlot k f s).scr = { s.scr with slots := Tab.update s.scr.slots k {} f } := rfl
@[simp] theorem onKeySlot_saf (k : Nat) (f : KeySlot → KeySlot) : (onKeySlot k f s).saf = s.saf := rfl
@[simp] theorem onKeySlot_dram (k : Nat) (f : KeySlot → KeySlot) : (onKeySlot k f s).dram = s.dram := rfl
@[simp] theorem onKeySlot_slm (k : Nat) (f : KeySlot → KeySlot) : (onKeySlot k f s).slm = s.slm := rfl

@[simp] theorem onRing_pending (r : Nat) (f : Ring → Ring) : (onRing r f s).pending = s.pending := rfl
@[simp] theorem onRing_wall (r : Nat) (f : Ring → Ring) : (onRing r f s).wall = s.wall := rfl
@[simp] theorem onRing_free (r : Nat) (f : Ring → Ring) : (onRing r f s).free = s.free := rfl
@[simp] theorem onRing_out (r : Nat) (f : Ring → Ring) : (onRing r f s).out = s.out := rfl
@[simp] theorem onRing_bus (r : Nat) (f : Ring → Ring) : (onRing r f s).bus = s.bus := rfl
@[simp] theorem onRing_evt (r : Nat) (f : Ring → Ring) : (onRing r f s).evt = s.evt := rfl
@[simp] theorem onRing_prk (r : Nat) (f : Ring → Ring) : (onRing r f s).prk = s.prk := rfl
@[simp] theorem onRing_clk (r : Nat) (f : Ring → Ring) : (onRing r f s).clk = s.clk := rfl
@[simp] theorem onRing_cue (r : Nat) (f : Ring → Ring) : (onRing r f s).cue = s.cue := rfl
@[simp] theorem onRing_dev (r : Nat) (f : Ring → Ring) : (onRing r f s).dev = s.dev := rfl
@[simp] theorem onRing_pwr (r : Nat) (f : Ring → Ring) : (onRing r f s).pwr = s.pwr := rfl
@[simp] theorem onRing_hfe (r : Nat) (f : Ring → Ring) : (onRing r f s).hfe = s.hfe := rfl
@[simp] theorem onRing_scn (r : Nat) (f : Ring → Ring) : (onRing r f s).scn = s.scn := rfl
@[simp] theorem onRing_obj (r : Nat) (f : Ring → Ring) : (onRing r f s).obj = s.obj := rfl
@[simp] theorem onRing_trl (r : Nat) (f : Ring → Ring) : (onRing r f s).trl = s.trl := rfl
@[simp] theorem onRing_flc (r : Nat) (f : Ring → Ring) : (onRing r f s).flc = s.flc := rfl
@[simp] theorem onRing_rch (r : Nat) (f : Ring → Ring) : (onRing r f s).rch = s.rch := rfl
@[simp] theorem onRing_hop (r : Nat) (f : Ring → Ring) : (onRing r f s).hop = s.hop := rfl
@[simp] theorem onRing_smg (r : Nat) (f : Ring → Ring) : (onRing r f s).smg = { s.smg with rings := Tab.update s.smg.rings r {} f } := rfl
@[simp] theorem onRing_bob (r : Nat) (f : Ring → Ring) : (onRing r f s).bob = s.bob := rfl
@[simp] theorem onRing_dmc (r : Nat) (f : Ring → Ring) : (onRing r f s).dmc = s.dmc := rfl
@[simp] theorem onRing_tly (r : Nat) (f : Ring → Ring) : (onRing r f s).tly = s.tly := rfl
@[simp] theorem onRing_asu (r : Nat) (f : Ring → Ring) : (onRing r f s).asu = s.asu := rfl
@[simp] theorem onRing_scr (r : Nat) (f : Ring → Ring) : (onRing r f s).scr = s.scr := rfl
@[simp] theorem onRing_saf (r : Nat) (f : Ring → Ring) : (onRing r f s).saf = s.saf := rfl
@[simp] theorem onRing_dram (r : Nat) (f : Ring → Ring) : (onRing r f s).dram = s.dram := rfl
@[simp] theorem onRing_slm (r : Nat) (f : Ring → Ring) : (onRing r f s).slm = s.slm := rfl

@[simp] theorem onTask_pending (i : Nat) (f : Task → Task) : (onTask i f s).pending = s.pending := rfl
@[simp] theorem onTask_wall (i : Nat) (f : Task → Task) : (onTask i f s).wall = s.wall := rfl
@[simp] theorem onTask_free (i : Nat) (f : Task → Task) : (onTask i f s).free = s.free := rfl
@[simp] theorem onTask_out (i : Nat) (f : Task → Task) : (onTask i f s).out = s.out := rfl
@[simp] theorem onTask_bus (i : Nat) (f : Task → Task) : (onTask i f s).bus = s.bus := rfl
@[simp] theorem onTask_evt (i : Nat) (f : Task → Task) : (onTask i f s).evt = s.evt := rfl
@[simp] theorem onTask_prk (i : Nat) (f : Task → Task) : (onTask i f s).prk = s.prk := rfl
@[simp] theorem onTask_clk (i : Nat) (f : Task → Task) : (onTask i f s).clk = s.clk := rfl
@[simp] theorem onTask_cue (i : Nat) (f : Task → Task) : (onTask i f s).cue = s.cue := rfl
@[simp] theorem onTask_dev (i : Nat) (f : Task → Task) : (onTask i f s).dev = s.dev := rfl
@[simp] theorem onTask_pwr (i : Nat) (f : Task → Task) : (onTask i f s).pwr = s.pwr := rfl
@[simp] theorem onTask_hfe (i : Nat) (f : Task → Task) : (onTask i f s).hfe = s.hfe := rfl
@[simp] theorem onTask_scn (i : Nat) (f : Task → Task) : (onTask i f s).scn = s.scn := rfl
@[simp] theorem onTask_obj (i : Nat) (f : Task → Task) : (onTask i f s).obj = s.obj := rfl
@[simp] theorem onTask_trl (i : Nat) (f : Task → Task) : (onTask i f s).trl = s.trl := rfl
@[simp] theorem onTask_flc (i : Nat) (f : Task → Task) : (onTask i f s).flc = s.flc := rfl
@[simp] theorem onTask_rch (i : Nat) (f : Task → Task) : (onTask i f s).rch = s.rch := rfl
@[simp] theorem onTask_hop (i : Nat) (f : Task → Task) : (onTask i f s).hop = s.hop := rfl
@[simp] theorem onTask_smg (i : Nat) (f : Task → Task) : (onTask i f s).smg = { s.smg with tasks := Tab.modify s.smg.tasks i f } := rfl
@[simp] theorem onTask_bob (i : Nat) (f : Task → Task) : (onTask i f s).bob = s.bob := rfl
@[simp] theorem onTask_dmc (i : Nat) (f : Task → Task) : (onTask i f s).dmc = s.dmc := rfl
@[simp] theorem onTask_tly (i : Nat) (f : Task → Task) : (onTask i f s).tly = s.tly := rfl
@[simp] theorem onTask_asu (i : Nat) (f : Task → Task) : (onTask i f s).asu = s.asu := rfl
@[simp] theorem onTask_scr (i : Nat) (f : Task → Task) : (onTask i f s).scr = s.scr := rfl
@[simp] theorem onTask_saf (i : Nat) (f : Task → Task) : (onTask i f s).saf = s.saf := rfl
@[simp] theorem onTask_dram (i : Nat) (f : Task → Task) : (onTask i f s).dram = s.dram := rfl
@[simp] theorem onTask_slm (i : Nat) (f : Task → Task) : (onTask i f s).slm = s.slm := rfl

@[simp] theorem onProg_pending (t i : Nat) (f : Program → Program) : (onProg t i f s).pending = s.pending := rfl
@[simp] theorem onProg_wall (t i : Nat) (f : Program → Program) : (onProg t i f s).wall = s.wall := rfl
@[simp] theorem onProg_free (t i : Nat) (f : Program → Program) : (onProg t i f s).free = s.free := rfl
@[simp] theorem onProg_out (t i : Nat) (f : Program → Program) : (onProg t i f s).out = s.out := rfl
@[simp] theorem onProg_bus (t i : Nat) (f : Program → Program) : (onProg t i f s).bus = s.bus := rfl
@[simp] theorem onProg_evt (t i : Nat) (f : Program → Program) : (onProg t i f s).evt = s.evt := rfl
@[simp] theorem onProg_prk (t i : Nat) (f : Program → Program) : (onProg t i f s).prk = s.prk := rfl
@[simp] theorem onProg_clk (t i : Nat) (f : Program → Program) : (onProg t i f s).clk = s.clk := rfl
@[simp] theorem onProg_cue (t i : Nat) (f : Program → Program) : (onProg t i f s).cue = s.cue := rfl
@[simp] theorem onProg_dev (t i : Nat) (f : Program → Program) : (onProg t i f s).dev = s.dev := rfl
@[simp] theorem onProg_pwr (t i : Nat) (f : Program → Program) : (onProg t i f s).pwr = s.pwr := rfl
@[simp] theorem onProg_hfe (t i : Nat) (f : Program → Program) : (onProg t i f s).hfe = s.hfe := rfl
@[simp] theorem onProg_scn (t i : Nat) (f : Program → Program) : (onProg t i f s).scn = s.scn := rfl
@[simp] theorem onProg_obj (t i : Nat) (f : Program → Program) : (onProg t i f s).obj = s.obj := rfl
@[simp] theorem onProg_trl (t i : Nat) (f : Program → Program) : (onProg t i f s).trl = s.trl := rfl
@[simp] theorem onProg_flc (t i : Nat) (f : Program → Program) : (onProg t i f s).flc = s.flc := rfl
@[simp] theorem onProg_rch (t i : Nat) (f : Program → Program) : (onProg t i f s).rch = s.rch := rfl
@[simp] theorem onProg_hop (t i : Nat) (f : Program → Program) : (onProg t i f s).hop = s.hop := rfl
@[simp] theorem onProg_smg (t i : Nat) (f : Program → Program) : (onProg t i f s).smg = s.smg := rfl
@[simp] theorem onProg_bob (t i : Nat) (f : Program → Program) : (onProg t i f s).bob = { s.bob with progs := Tab.update s.bob.progs (progKey t i) {} f } := rfl
@[simp] theorem onProg_dmc (t i : Nat) (f : Program → Program) : (onProg t i f s).dmc = s.dmc := rfl
@[simp] theorem onProg_tly (t i : Nat) (f : Program → Program) : (onProg t i f s).tly = s.tly := rfl
@[simp] theorem onProg_asu (t i : Nat) (f : Program → Program) : (onProg t i f s).asu = s.asu := rfl
@[simp] theorem onProg_scr (t i : Nat) (f : Program → Program) : (onProg t i f s).scr = s.scr := rfl
@[simp] theorem onProg_saf (t i : Nat) (f : Program → Program) : (onProg t i f s).saf = s.saf := rfl
@[simp] theorem onProg_dram (t i : Nat) (f : Program → Program) : (onProg t i f s).dram = s.dram := rfl
@[simp] theorem onProg_slm (t i : Nat) (f : Program → Program) : (onProg t i f s).slm = s.slm := rfl

@[simp] theorem onCore_pending (k : Nat) (f : Core → Core) : (onCore k f s).pending = s.pending := rfl
@[simp] theorem onCore_wall (k : Nat) (f : Core → Core) : (onCore k f s).wall = s.wall := rfl
@[simp] theorem onCore_free (k : Nat) (f : Core → Core) : (onCore k f s).free = s.free := rfl
@[simp] theorem onCore_out (k : Nat) (f : Core → Core) : (onCore k f s).out = s.out := rfl
@[simp] theorem onCore_bus (k : Nat) (f : Core → Core) : (onCore k f s).bus = s.bus := rfl
@[simp] theorem onCore_evt (k : Nat) (f : Core → Core) : (onCore k f s).evt = s.evt := rfl
@[simp] theorem onCore_prk (k : Nat) (f : Core → Core) : (onCore k f s).prk = s.prk := rfl
@[simp] theorem onCore_clk (k : Nat) (f : Core → Core) : (onCore k f s).clk = s.clk := rfl
@[simp] theorem onCore_cue (k : Nat) (f : Core → Core) : (onCore k f s).cue = s.cue := rfl
@[simp] theorem onCore_dev (k : Nat) (f : Core → Core) : (onCore k f s).dev = s.dev := rfl
@[simp] theorem onCore_pwr (k : Nat) (f : Core → Core) : (onCore k f s).pwr = s.pwr := rfl
@[simp] theorem onCore_hfe (k : Nat) (f : Core → Core) : (onCore k f s).hfe = s.hfe := rfl
@[simp] theorem onCore_scn (k : Nat) (f : Core → Core) : (onCore k f s).scn = s.scn := rfl
@[simp] theorem onCore_obj (k : Nat) (f : Core → Core) : (onCore k f s).obj = s.obj := rfl
@[simp] theorem onCore_trl (k : Nat) (f : Core → Core) : (onCore k f s).trl = s.trl := rfl
@[simp] theorem onCore_flc (k : Nat) (f : Core → Core) : (onCore k f s).flc = s.flc := rfl
@[simp] theorem onCore_rch (k : Nat) (f : Core → Core) : (onCore k f s).rch = s.rch := rfl
@[simp] theorem onCore_hop (k : Nat) (f : Core → Core) : (onCore k f s).hop = s.hop := rfl
@[simp] theorem onCore_smg (k : Nat) (f : Core → Core) : (onCore k f s).smg = s.smg := rfl
@[simp] theorem onCore_bob (k : Nat) (f : Core → Core) : (onCore k f s).bob = { s.bob with cores := Tab.update s.bob.cores k {} f } := rfl
@[simp] theorem onCore_dmc (k : Nat) (f : Core → Core) : (onCore k f s).dmc = s.dmc := rfl
@[simp] theorem onCore_tly (k : Nat) (f : Core → Core) : (onCore k f s).tly = s.tly := rfl
@[simp] theorem onCore_asu (k : Nat) (f : Core → Core) : (onCore k f s).asu = s.asu := rfl
@[simp] theorem onCore_scr (k : Nat) (f : Core → Core) : (onCore k f s).scr = s.scr := rfl
@[simp] theorem onCore_saf (k : Nat) (f : Core → Core) : (onCore k f s).saf = s.saf := rfl
@[simp] theorem onCore_dram (k : Nat) (f : Core → Core) : (onCore k f s).dram = s.dram := rfl
@[simp] theorem onCore_slm (k : Nat) (f : Core → Core) : (onCore k f s).slm = s.slm := rfl

@[simp] theorem onAsuTab_pending (t : Nat) (f : AsuTable → AsuTable) : (onAsuTab t f s).pending = s.pending := rfl
@[simp] theorem onAsuTab_wall (t : Nat) (f : AsuTable → AsuTable) : (onAsuTab t f s).wall = s.wall := rfl
@[simp] theorem onAsuTab_free (t : Nat) (f : AsuTable → AsuTable) : (onAsuTab t f s).free = s.free := rfl
@[simp] theorem onAsuTab_out (t : Nat) (f : AsuTable → AsuTable) : (onAsuTab t f s).out = s.out := rfl
@[simp] theorem onAsuTab_bus (t : Nat) (f : AsuTable → AsuTable) : (onAsuTab t f s).bus = s.bus := rfl
@[simp] theorem onAsuTab_evt (t : Nat) (f : AsuTable → AsuTable) : (onAsuTab t f s).evt = s.evt := rfl
@[simp] theorem onAsuTab_prk (t : Nat) (f : AsuTable → AsuTable) : (onAsuTab t f s).prk = s.prk := rfl
@[simp] theorem onAsuTab_clk (t : Nat) (f : AsuTable → AsuTable) : (onAsuTab t f s).clk = s.clk := rfl
@[simp] theorem onAsuTab_cue (t : Nat) (f : AsuTable → AsuTable) : (onAsuTab t f s).cue = s.cue := rfl
@[simp] theorem onAsuTab_dev (t : Nat) (f : AsuTable → AsuTable) : (onAsuTab t f s).dev = s.dev := rfl
@[simp] theorem onAsuTab_pwr (t : Nat) (f : AsuTable → AsuTable) : (onAsuTab t f s).pwr = s.pwr := rfl
@[simp] theorem onAsuTab_hfe (t : Nat) (f : AsuTable → AsuTable) : (onAsuTab t f s).hfe = s.hfe := rfl
@[simp] theorem onAsuTab_scn (t : Nat) (f : AsuTable → AsuTable) : (onAsuTab t f s).scn = s.scn := rfl
@[simp] theorem onAsuTab_obj (t : Nat) (f : AsuTable → AsuTable) : (onAsuTab t f s).obj = s.obj := rfl
@[simp] theorem onAsuTab_trl (t : Nat) (f : AsuTable → AsuTable) : (onAsuTab t f s).trl = s.trl := rfl
@[simp] theorem onAsuTab_flc (t : Nat) (f : AsuTable → AsuTable) : (onAsuTab t f s).flc = s.flc := rfl
@[simp] theorem onAsuTab_rch (t : Nat) (f : AsuTable → AsuTable) : (onAsuTab t f s).rch = s.rch := rfl
@[simp] theorem onAsuTab_hop (t : Nat) (f : AsuTable → AsuTable) : (onAsuTab t f s).hop = s.hop := rfl
@[simp] theorem onAsuTab_smg (t : Nat) (f : AsuTable → AsuTable) : (onAsuTab t f s).smg = s.smg := rfl
@[simp] theorem onAsuTab_bob (t : Nat) (f : AsuTable → AsuTable) : (onAsuTab t f s).bob = s.bob := rfl
@[simp] theorem onAsuTab_dmc (t : Nat) (f : AsuTable → AsuTable) : (onAsuTab t f s).dmc = s.dmc := rfl
@[simp] theorem onAsuTab_tly (t : Nat) (f : AsuTable → AsuTable) : (onAsuTab t f s).tly = s.tly := rfl
@[simp] theorem onAsuTab_asu (t : Nat) (f : AsuTable → AsuTable) : (onAsuTab t f s).asu = { s.asu with tables := Tab.update s.asu.tables t {} f } := rfl
@[simp] theorem onAsuTab_scr (t : Nat) (f : AsuTable → AsuTable) : (onAsuTab t f s).scr = s.scr := rfl
@[simp] theorem onAsuTab_saf (t : Nat) (f : AsuTable → AsuTable) : (onAsuTab t f s).saf = s.saf := rfl
@[simp] theorem onAsuTab_dram (t : Nat) (f : AsuTable → AsuTable) : (onAsuTab t f s).dram = s.dram := rfl
@[simp] theorem onAsuTab_slm (t : Nat) (f : AsuTable → AsuTable) : (onAsuTab t f s).slm = s.slm := rfl

/-- Both memories have their canonical form at reset. -/
theorem reset_memories : memWf State.reset.dram = true ∧ memWf State.reset.slm = true := ⟨rfl, rfl⟩

end Sys2Proof.Machine
end

