-- ==== Sys2Proof/Laws/Curtain.lean ====
section
/-! SUPPORT. Entering Curtain Down, and an alarm (R400, R414, R415). -/
namespace Sys2Proof.Machine

theorem eraseKeys_saf (s : State) : (eraseKeys s).saf = { s.saf with rootErased := true } := rfl

@[simp] theorem raise_dev (src code a b tag : Nat) (s : State) : (raise src code a b tag s).dev = s.dev := (raise_within ..).same_dev rfl
@[simp] theorem raise_saf (src code a b tag : Nat) (s : State) : (raise src code a b tag s).saf = s.saf := (raise_within ..).same_saf rfl
@[simp] theorem raise_cue (src code a b tag : Nat) (s : State) : (raise src code a b tag s).cue = s.cue := (raise_within ..).same_cue rfl
@[simp] theorem raise_clk (src code a b tag : Nat) (s : State) : (raise src code a b tag s).clk = s.clk := (raise_within ..).same_clk rfl
@[simp] theorem raise_prk (src code a b tag : Nat) (s : State) : (raise src code a b tag s).prk = s.prk := (raise_within ..).same_prk rfl
@[simp] theorem raise_pwr (src code a b tag : Nat) (s : State) : (raise src code a b tag s).pwr = s.pwr := (raise_within ..).same_pwr rfl
@[simp] theorem raise_hfe (src code a b tag : Nat) (s : State) : (raise src code a b tag s).hfe = s.hfe := (raise_within ..).same_hfe rfl
@[simp] theorem raise_scn (src code a b tag : Nat) (s : State) : (raise src code a b tag s).scn = s.scn := (raise_within ..).same_scn rfl
@[simp] theorem raise_obj (src code a b tag : Nat) (s : State) : (raise src code a b tag s).obj = s.obj := (raise_within ..).same_obj rfl
@[simp] theorem raise_trl (src code a b tag : Nat) (s : State) : (raise src code a b tag s).trl = s.trl := (raise_within ..).same_trl rfl
@[simp] theorem raise_flc (src code a b tag : Nat) (s : State) : (raise src code a b tag s).flc = s.flc := (raise_within ..).same_flc rfl
@[simp] theorem raise_rch (src code a b tag : Nat) (s : State) : (raise src code a b tag s).rch = s.rch := (raise_within ..).same_rch rfl
@[simp] theorem raise_hop (src code a b tag : Nat) (s : State) : (raise src code a b tag s).hop = s.hop := (raise_within ..).same_hop rfl
@[simp] theorem raise_smg (src code a b tag : Nat) (s : State) : (raise src code a b tag s).smg = s.smg := (raise_within ..).same_smg rfl
@[simp] theorem raise_bob (src code a b tag : Nat) (s : State) : (raise src code a b tag s).bob = s.bob := (raise_within ..).same_bob rfl
@[simp] theorem raise_dmc (src code a b tag : Nat) (s : State) : (raise src code a b tag s).dmc = s.dmc := (raise_within ..).same_dmc rfl
@[simp] theorem raise_tly (src code a b tag : Nat) (s : State) : (raise src code a b tag s).tly = s.tly := (raise_within ..).same_tly rfl
@[simp] theorem raise_asu (src code a b tag : Nat) (s : State) : (raise src code a b tag s).asu = s.asu := (raise_within ..).same_asu rfl
@[simp] theorem raise_scr (src code a b tag : Nat) (s : State) : (raise src code a b tag s).scr = s.scr := (raise_within ..).same_scr rfl
@[simp] theorem raise_wall (src code a b tag : Nat) (s : State) : (raise src code a b tag s).wall = s.wall := (raise_within ..).same_wall rfl
@[simp] theorem raise_free (src code a b tag : Nat) (s : State) : (raise src code a b tag s).free = s.free := (raise_within ..).same_free rfl
@[simp] theorem raise_dram (src code a b tag : Nat) (s : State) : (raise src code a b tag s).dram = s.dram := (raise_within ..).same_dram rfl
@[simp] theorem raise_slm (src code a b tag : Nat) (s : State) : (raise src code a b tag s).slm = s.slm := (raise_within ..).same_slm rfl
@[simp] theorem raise_regs (src code a b tag : Nat) (s : State) : (raise src code a b tag s).bus.regs = s.bus.regs :=
  (raise_within ..).same_regs rfl

/-- Entering Curtain Down: the state and the erased root key; the alarms counted so far stay (R400, R415). -/
theorem enterCurtain_spec (s : State) :
    (enterCurtain s).dev.phase = .curtainDown ∧ (enterCurtain s).saf = { s.saf with rootErased := true } := by
  unfold enterCurtain
  extract_lets s1 s2 s3 s4 s5 s6 p s7
  have h1 : s1.saf = { s.saf with rootErased := true } := by
    show (if s.saf.rootErased then s else eraseKeys s).saf = _
    split
    · rename_i h
      cases e : s.saf
      simp_all
    · rfl
  clear_value s1
  have h2 : s2.saf = s1.saf := by
    show (if s1.prk.phase = .idle then s1 else abandonLoad s1.prk.err 0 s1).saf = _
    split
    · rfl
    · exact (abandonLoad_within ..).same_saf rfl
  clear_value s2
  have h3 : s3.saf = s2.saf := by
    show (parkAll 9 (endActivation s2)).saf = _
    rw [(parkAll_within ..).same_saf rfl, (endActivation_within ..).same_saf rfl]
  clear_value s3
  have h4 : s4.saf = s3.saf := by
    show (abandonJobs (closeFabric (rollBackNotReady s3))).saf = _
    rw [(abandonJobs_within ..).same_saf rfl, (closeFabric_within ..).same_saf rfl, (rollBackNotReady_within ..).same_saf rfl]
  clear_value s4
  have h5 : s5.saf = s4.saf := by
    show (raise 360 0 0 0 0 (transition .curtainDown s4)).saf = _
    rw [raise_saf, (transition_within ..).same_saf rfl]
  have p5 : s5.dev.phase = .curtainDown := by
    show (raise 360 0 0 0 0 (transition .curtainDown s4)).dev.phase = _
    simp [transition]
  clear_value s5
  have h6 : s6.saf = s5.saf ∧ s6.dev.phase = .curtainDown := by
    show (if s5.harbourNeeded = true then sealHarbour s5 else s5).saf = _ ∧ (if s5.harbourNeeded = true then sealHarbour s5 else s5).dev.phase = _
    split
    · exact ⟨(sealHarbour_within _).same_saf rfl, ((sealHarbour_within _).same_phase rfl).trans p5⟩
    · exact ⟨rfl, p5⟩
  clear_value s6
  have h7 : s7.saf = s5.saf ∧ s7.dev.phase = .curtainDown := by
    simp only [s7]
    split
    · exact ⟨rfl, p5⟩
    · exact h6
  clear_value s7
  rw [(goOn_within _).same_phase rfl, (goOn_within _).same_saf rfl, ← h1, ← h2, ← h3, ← h4, ← h5]
  exact ⟨h7.2, h7.1⟩

/-- An alarm of a powered device: counted, the first one kept, Curtain Down with the root key erased (R414, R415). -/
theorem alarm_spec (kind sensor : Nat) (s : State) (h : s.powered = true) (hc : s.dev.phase ≠ .curtainDown) :
    (alarm kind sensor s).dev.phase = .curtainDown ∧ (alarm kind sensor s).saf.rootErased = true ∧
    (alarm kind sensor s).saf.alarms = min (s.saf.alarms + 1) (2 ^ 32 - 1) := by
  unfold alarm
  rw [if_neg (by simp [h])]
  extract_lets u
  have hu : u.dev = s.dev := by
    show (raise ..).dev = _
    rw [raise_dev]; rfl
  have hs : u.saf.alarms = min (s.saf.alarms + 1) (2 ^ 32 - 1) := by
    show (raise ..).saf.alarms = _
    rw [raise_saf]; rfl
  rw [if_neg (by rw [hu]; exact hc)]
  have e := enterCurtain_spec u
  rw [e.2]
  exact ⟨e.1, rfl, hs⟩

end Sys2Proof.Machine
end

