-- ==== Sys2Proof/Laws/Actuator.lean ====
section
/-! SUPPORT. Actuators: what a change of one leaves of it, the write gate's drop, a park, a preamplifier fault (R246, R253, R279). -/
namespace Sys2Proof.Machine

@[simp] theorem onAct_act (a : Nat) (f : RchAct → RchAct) (s : State) : (onAct a f s).act a = f (s.act a) := by simp [State.act, onAct]

theorem onAct_act_ne {a b : Nat} (f : RchAct → RchAct) (s : State) (h : b ≠ a) : (onAct a f s).act b = s.act b := by
  simp [State.act, onAct, Tab.at_update_ne _ _ _ _ h]

theorem act_of_rch {s t : State} (h : t.rch = s.rch) (a : Nat) : t.act a = s.act a := by simp [State.act, h]

/-- The write gate drops: nothing is written, the guard is tripped (R246). -/
theorem dropGate_act (a : Nat) (s : State) :
    (dropGate a s).act a = { s.act a with writing := false, run := none, tripped := true, passes := 0 } := by
  unfold dropGate
  extract_lets x
  split
  · rename_i h
    have h' : (s.act a).run = none := h
    rw [onAct_act, ← h']
  · rename_i r h
    split
    rename_i l u0 u1 e
    extract_lets back s1 first s2
    have h2 : s2.act a = { s.act a with writing := false, run := none, tripped := true, passes := 0 } := by
      simp only [s2, onAct_act]
      have : s1.act a = s.act a := act_of_rch ((countUp_within ..).same_rch rfl) a
      rw [this]
    clear_value s2
    split
    · exact h2
    · simp only []
      have hb : ∀ (n : Nat) (v : State), v.rch = s2.rch → (if 3 ≤ n then retireBand r.band (back.foldl (fun s q => startReadBack r.band q.1 q.2 s) v)
          else back.foldl (fun s q => startReadBack r.band q.1 q.2 s) v).act a = s2.act a := by
        intro n v hv
        have hf : (back.foldl (fun s q => startReadBack r.band q.1 q.2 s) v).rch = v.rch :=
          (Within.foldl (l := [.flc]) (f := fun s (q : Nat × Nat) => startReadBack r.band q.1 q.2 s) (fun u q => startReadBack_within ..) (Within.refl _ _)).same_rch rfl
        apply act_of_rch
        split
        · rw [(retireBand_within ..).same_rch rfl, hf, hv]
        · rw [hf, hv]
      exact Eq.trans (hb _ _ (by rfl)) h2


/-- A park starts: the actuator is parking, its park counted with its cause (R279, R280). -/
theorem parkFrame_act (all : Bool) (a cause : Nat) (s : State) (hp : s.present a = true) (h1 : (s.act a).parked = false) (h2 : (s.act a).parking = false) :
    (parkFrame all a cause s).act a = clearLanes { s.act a with
      writing := false, run := none, tripped := true, passes := 0, parks := ((s.act a).parks + 1) % 65536, cause := cause
      parking := true, parked := false, parkAt := s.wall, resuming := false } := by
  unfold parkFrame
  extract_lets x s1 s2 s3 hs s4 s5
  have h1' : x.parked = false := h1
  have h2' : x.parking = false := h2
  rw [if_neg (by simp [hp, h1']), if_neg (by simp [h2'])]
  have e1 : s1.act a = { s.act a with parks := ((s.act a).parks + 1) % 65536, cause := cause } := by
    simp only [s1, onAct_act]
    rw [act_of_rch ((count1_within ..).same_rch rfl)]
  have w1 : s1.wall = s.wall := by
    simp only [s1]
    rw [(onAct_within ..).same_wall rfl, (count1_within ..).same_wall rfl]
  have e2 : s2.act a = { s.act a with
      parks := ((s.act a).parks + 1) % 65536, cause := cause, writing := false, run := none, tripped := true, passes := 0 } := by
    simp only [s2]
    rw [act_of_rch ((raise_within ..).same_rch rfl), dropGate_act, e1]
  have w2 : s2.wall = s.wall := by
    simp only [s2]
    rw [(raise_within ..).same_wall rfl, (dropGate_within ..).same_wall rfl, w1]
  clear_value s2
  have e3 : s3.rch = s2.rch ∧ s3.wall = s2.wall := by
    have hw : Within [.hop] s2 s3 :=
      Within.foldl (f := fun s (n : Nat) => onSlot n (fun x => { x with u := if 9 ≤ n then 0 else x.u }) (stopSlot n s))
        (fun u n => Within.trans (stopSlot_within ..) (onSlot_within ..)) (Within.refl _ _)
    exact ⟨hw.same_rch rfl, hw.same_wall rfl⟩
  clear_value s3
  have e4 : s4.act a = s2.act a ∧ s4.wall = s2.wall := ⟨act_of_rch (s := s2) e3.1 a, e3.2⟩
  clear_value s4
  have e5 : s5.act a = clearLanes { s.act a with
      writing := false, run := none, tripped := true, passes := 0, parks := ((s.act a).parks + 1) % 65536, cause := cause
      parking := true, parked := false, parkAt := s.wall, resuming := false } := by
    simp only [s5, onAct_act, e4.1, e2, e4.2, w2]
  clear_value s5
  split
  · exact e5
  · exact e5

/-- A preamplifier fault parks the actuator with an automatic resume and is counted for one hour (R253, R254). -/
theorem preampFault_act (a : Nat) (s : State) (hp : s.present a = true) (h1 : (s.act a).parked = false) (h2 : (s.act a).parking = false)
    (h3 : (s.act a).faultParks = []) :
    ((preampFault a s).act a).parking = true ∧ ((preampFault a s).act a).resumeAsked = true ∧ ((preampFault a s).act a).faultParks = [s.wall] ∧
    ((preampFault a s).act a).cause = 1 := by
  unfold preampFault
  rw [if_neg (by simp [hp])]
  simp only [h3, List.filter_nil, List.nil_append, List.length_cons, List.length_nil, Nat.reduceLeDiff, if_false, onAct_act]
  unfold park
  rw [parkFrame_act false a 1 s hp h1 h2]
  exact ⟨rfl, trivial, trivial, rfl⟩

end Sys2Proof.Machine
end

