-- ==== Sys2Proof/Laws/Commands.lean ====
section
/-! SUPPORT. What a fetched command does (R107, R111, R112, R122): the scene it opens, the completion it posts. -/
namespace Sys2Proof.Machine

/-- A scene but for its staged bytes. -/
def Scene.unstaged (c : Scene) : Scene := { c with staged := 0 }

/-- From `s` to `t` the tasks that settle give staging back and move back-pressure; scenes, queues and controllers are as they were. -/
structure Kin (s t : State) : Prop where
  scenes : ∀ o, (Tab.find t.scn.scenes o).map Scene.unstaged = (Tab.find s.scn.scenes o).map Scene.unstaged
  scn : t.scn = { s.scn with scenes := t.scn.scenes, pressed := t.scn.pressed }
  hfe : t.hfe = { s.hfe with staging := t.hfe.staging }

theorem Kin.refl (s : State) : Kin s s := ⟨fun _ => rfl, rfl, rfl⟩

theorem Kin.trans {s t u : State} (h : Kin s t) (k : Kin t u) : Kin s u :=
  ⟨fun o => (k.scenes o).trans (h.scenes o), by rw [k.scn, h.scn], by rw [k.hfe, h.hfe]⟩

theorem Kin.of {s t : State} (h : t.scn = s.scn) (k : t.hfe = s.hfe) : Kin s t := ⟨fun _ => by rw [h], by rw [h], by rw [k]⟩

theorem Within.kin {l : List Part} {s t : State} (h : Within l s t) (a : l.contains .scn = false) (b : l.contains .hfe = false) : Kin s t :=
  Kin.of (h.same_scn a) (h.same_hfe b)

theorem Kin.ctrls {s t : State} (h : Kin s t) : t.hfe.ctrls = s.hfe.ctrls := by rw [h.hfe]
theorem Kin.sqs {s t : State} (h : Kin s t) : t.scn.sqs = s.scn.sqs := by rw [h.scn]
theorem Kin.cqs {s t : State} (h : Kin s t) : t.scn.cqs = s.scn.cqs := by rw [h.scn]
theorem Kin.ctl {s t : State} (h : Kin s t) : t.scn.ctl = s.scn.ctl := by rw [h.scn]
theorem Kin.nextOrder {s t : State} (h : Kin s t) : t.scn.nextOrder = s.scn.nextOrder := by rw [h.scn]

/-- A scene found by its number is the one the table holds there. -/
theorem find_of_find? {α : Type} {t : Tab α} {f : Nat → Bool} {o : Nat} {a : α} (h : List.find? (fun p => f p.1) t = some (o, a)) :
    Tab.find t o = some a := by
  induction t with
  | nil => simp at h
  | cons p t ih =>
    obtain ⟨j, b⟩ := p
    rw [List.find?_cons] at h
    split at h
    · cases h; simp [Tab.find]
    · rename_i hj
      rw [Tab.find, if_neg]
      · exact ih h
      · intro e
        have := List.find?_some h
        simp [e, this] at hj

theorem releaseChunk_kin (t : Task) (s : State) : Kin s (releaseChunk t s) := by
  unfold releaseChunk
  split
  · rename_i o c h
    have hf : Tab.find s.scn.scenes o = some c := by
      obtain ⟨n, _, hn⟩ := Option.bind_eq_some_iff.mp h
      exact find_of_find? (f := fun k => k % 2 ^ 17 == n) hn
    refine ⟨fun i => ?_, rfl, rfl⟩
    by_cases e : i = o
    · subst e; simp [hf, Scene.unstaged]
    · simp [Tab.find_put_ne _ _ e]
  · exact Kin.refl s

theorem pressure_kin (s : State) : Kin s (pressure s) := by
  have h (l : List Nat) (u : State) : Kin u (l.foldl (fun s t =>
      if s.scn.pressed.contains t then
        if pressOver s t then raise 230 0 t 0 t { s with scn := { s.scn with pressed := setDel s.scn.pressed t } } else s
      else if pressDue s t then raise 229 0 t 0 t { s with scn := { s.scn with pressed := setAdd s.scn.pressed t } }
      else s) u) := by
    induction l generalizing u with
    | nil => exact Kin.refl u
    | cons a l ih =>
      refine Kin.trans ?_ (ih _)
      simp only []
      split
      · split
        · exact ⟨fun _ => by simp, by simp, by simp⟩
        · exact Kin.refl u
      · split
        · exact ⟨fun _ => by simp, by simp, by simp⟩
        · exact Kin.refl u
  exact h _ s

theorem finishTask_kin (i st : Nat) (w : Work) (s : State) : Kin s (finishTask i st w s).2 := by
  unfold finishTask
  split
  · rename_i t _
    split
    · exact (freeTask_within i s).kin rfl rfl
    · have h (l : List Nat) (p : Work × State) : Kin p.2 (l.foldl (losePred st) p).2 := by
        induction l generalizing p with
        | nil => exact Kin.refl _
        | cons a l ih => exact Kin.trans ((losePred_within st p a).kin rfl rfl) (ih _)
      refine Kin.trans ?_ (h _ _)
      refine Kin.trans ((noteFailure_within t st s).kin rfl rfl) ?_
      exact Kin.trans (releaseChunk_kin t _) ((freeTask_within i _).kin rfl rfl)
  · exact Kin.refl s

theorem runWork_kin (n : Nat) (w : Work) (s : State) : Kin s (runWork n w s) := by
  induction n generalizing w s with
  | zero => exact Kin.refl s
  | succ n ih =>
    unfold runWork
    split
    · exact Kin.trans (finishTask_kin _ _ _ s) (ih _ _)
    · split
      · exact Kin.trans ((stageDone_within _ _ _ s).kin rfl rfl) (ih _ _)
      · split
        · exact Kin.refl s
        · have hj := (judgeTimed_within w.timed s).kin rfl rfl
          revert hj
          generalize judgeTimed w.timed s = p
          obtain ⟨late, u⟩ := p
          intro hj
          simp only []
          split
          · exact hj
          · exact Kin.trans hj (ih _ _)

theorem settleTasks_kin (w : Work) (s : State) : Kin s (settleTasks w s) := Kin.trans (runWork_kin _ w s) (pressure_kin _)

theorem createOwn_kin (t : Task) (s : State) : Kin s (createOwn t s).2 :=
  Kin.trans ((addTask_within t s).kin rfl rfl) (Kin.trans ((makeReady_within _ _ _ _).kin rfl rfl) (settleTasks_kin _ _))


/-! ### A scene opens -/

/-- What a scene's opening leaves: its number, the scene, the queue's head moved on, the controllers as they were. -/
theorem openScene_spec (h : CmdHdr) (op : Nat) (kind : SceneKind) (need : Nat) (s : State) :
    ∃ t, openScene h op kind need s = (s.scn.nextOrder, t) ∧
      (Tab.find t.scn.scenes s.scn.nextOrder).map Scene.unstaged = some (newScene s h op kind need) ∧
      t.scn.nextOrder = s.scn.nextOrder + 1 ∧
      t.scn.sqs = Tab.modify s.scn.sqs (qKey h.ctrl h.sq) (fun q => { q with head := (q.head + 1) % (max 1 q.size) }) ∧
      t.scn.cqs = s.scn.cqs ∧ t.scn.ctl = s.scn.ctl ∧ t.hfe.ctrls = s.hfe.ctrls ∧ t.prk = s.prk ∧ t.trl = s.trl ∧ t.obj = s.obj := by
  unfold openScene
  extract_lets o sc sg u
  have k := createOwn_kin (sceneTask o ((u.ctrlTag h.ctrl).getD 0)) u
  have w := createOwn_within (sceneTask o ((u.ctrlTag h.ctrl).getD 0)) u
  have h1 : (Tab.find u.scn.scenes o).map Scene.unstaged = some (newScene s h op kind need) := by
    simp [u, o, Scene.unstaged, newScene]
  have h2 : u.scn.nextOrder = s.scn.nextOrder + 1 := rfl
  have h3 : u.scn.sqs = Tab.modify s.scn.sqs (qKey h.ctrl h.sq) (fun q => { q with head := (q.head + 1) % (max 1 q.size) }) := rfl
  have h4 : u.scn.cqs = s.scn.cqs ∧ u.scn.ctl = s.scn.ctl ∧ u.hfe = s.hfe ∧ u.prk = s.prk ∧ u.trl = s.trl ∧ u.obj = s.obj := ⟨rfl, rfl, rfl, rfl, rfl, rfl⟩
  clear_value u
  revert k w
  generalize createOwn (sceneTask o ((u.ctrlTag h.ctrl).getD 0)) u = p
  obtain ⟨i, v⟩ := p
  intro k w
  simp only [] at k w ⊢
  obtain ⟨h5, h6, h7, h8, h9, h10⟩ := h4
  have a1 := (k.scenes o).trans h1
  have a2 := k.ctrls
  rw [h7] at a2
  refine ⟨countHigh 0x301008 v.scn.scenes.length v, rfl, ?_⟩
  simp only [countHigh]
  exact ⟨a1, k.nextOrder.trans h2, k.sqs.trans h3, k.cqs.trans h5, k.ctl.trans h6, a2, (w.same_prk rfl).trans h8,
    (w.same_trl rfl).trans h9, (w.same_obj rfl).trans h10⟩

theorem openScene_kind (h : CmdHdr) (op : Nat) (kind : SceneKind) (need : Nat) (s : State) :
    (openScene h op kind need s).1 = s.scn.nextOrder ∧
    (Tab.find (openScene h op kind need s).2.scn.scenes s.scn.nextOrder).map (fun c => c.kind) = some kind := by
  obtain ⟨t, e, e1, -⟩ := openScene_spec h op kind need s
  obtain ⟨c, hc, hcu⟩ := Option.map_eq_some_iff.mp e1
  rw [e]
  refine ⟨rfl, ?_⟩
  rw [show Tab.find t.scn.scenes s.scn.nextOrder = some c from hc]
  exact congrArg some (congrArg Scene.kind hcu)

/-- A change of the new scene that keeps its work. -/
theorem onScene_kind {f : Scene → Scene} (hf : ∀ c, (f c).kind = c.kind) {o : Nat} {s : State} {k : SceneKind}
    (h : (Tab.find s.scn.scenes o).map (fun c => c.kind) = some k) :
    (Tab.find (onScene o f s).scn.scenes o).map (fun c => c.kind) = some k := by
  rw [← h]
  simp only [onScene, Tab.find_modify, Option.map_map]
  congr 1
  funext c
  exact hf c

theorem openWithData_kind (h : CmdHdr) (op : Nat) (kind : SceneKind) (len : Nat) (s : State) :
    (openWithData h op kind len s).1 = s.scn.nextOrder ∧
    (Tab.find (openWithData h op kind len s).2.scn.scenes s.scn.nextOrder).map (fun c => c.kind) = some kind := by
  unfold openWithData
  extract_lets d
  have k := openScene_kind h op kind (len - d.length) s
  revert k
  generalize openScene h op kind (len - d.length) s = p
  obtain ⟨o, u⟩ := p
  intro k
  simp only [] at k ⊢
  refine ⟨k.1, ?_⟩
  obtain ⟨k1, k2⟩ := k
  subst k1
  exact onScene_kind (f := fun c => { c with data := d, asked := d.length, staged := d.length }) (fun _ => rfl) k2

/-! ### The gate of a fetch (R107, R128, R132, R133) -/

/-- A fetched command whose own work follows does that work, and what waited goes on. -/
theorem fetched_own {h : CmdHdr} {set : CmdSet} {s : State} (f : Fetched h set s) (op : Nat) (work : State → State) :
    fetched h op set work s = goOn (work s) := by
  obtain ⟨a, b, c⟩ := f
  simp [fetched, a, b, c]

theorem Fetched.there {h : CmdHdr} {set : CmdSet} {s : State} (f : Fetched h set s) :
    (s.ctrlOf h.ctrl).isSome ∧ (s.sqOf h.ctrl h.sq).isSome := by
  have a := f.1
  unfold fetchable at a
  split at a
  · rename_i h1 h2; simp [h1, h2]
  · exact absurd a (by simp)

/-! ### A scene retires -/

theorem noteReset_scenes (o : Nat) (c : Scene) (s : State) :
    (noteReset o c s).scn.scenes = s.scn.scenes ∧ (noteReset o c s).scn.sqs = s.scn.sqs ∧ (noteReset o c s).out = s.out ∧
    ((noteReset o c s).ctrlOf c.ctrl).isSome = (s.ctrlOf c.ctrl).isSome ∧ (noteReset o c s).scn.cqs = s.scn.cqs ∧
    ((noteReset o c s).ctrlOf c.ctrl).map (fun k => k.transport) = (s.ctrlOf c.ctrl).map (fun k => k.transport) := by
  unfold noteReset
  extract_lets d
  split
  · split
    · refine ⟨rfl, rfl, rfl, ?_, rfl, ?_⟩
      · simp only [State.ctrlOf, Tab.find_modify, Option.isSome_map]
        rfl
      · simp only [State.ctrlOf, Tab.find_modify, Option.map_map]
        rfl
    · exact ⟨rfl, rfl, rfl, rfl, rfl, rfl⟩
  · exact ⟨rfl, rfl, rfl, rfl, rfl, rfl⟩

/-- The room of a completion queue depends on the transport, on the queue it belongs to and on the completion queues alone. -/
theorem cqRoom_congr (s t : State) (c q : Nat) (hk : (t.ctrlOf c).map (fun k => k.transport) = (s.ctrlOf c).map (fun k => k.transport))
    (hq : (t.sqOf c q).map (fun x => x.cqid) = (s.sqOf c q).map (fun x => x.cqid)) (hc : t.scn.cqs = s.scn.cqs) : t.cqRoom c q = s.cqRoom c q := by
  unfold State.cqRoom
  rw [hc]
  revert hk hq
  cases t.ctrlOf c <;> cases s.ctrlOf c <;> cases t.sqOf c q <;> cases s.sqOf c q <;> simp
  intro h1 h2
  rw [h1, h2]

theorem postCompletion_out (o : Nat) (c : Scene) (s : State) (hp : c.noPost = false) (hk : (s.ctrlOf c.ctrl).isSome) (hq : (s.sqOf c.ctrl c.sq).isSome) :
    .completion c.ctrl c.sq c.cid c.st c.dw0 c.dw1 ∈ (postCompletion o c s).out := by
  obtain ⟨k, hk⟩ := Option.isSome_iff_exists.mp hk
  obtain ⟨q, hq⟩ := Option.isSome_iff_exists.mp hq
  unfold postCompletion
  extract_lets sc u
  rw [if_neg (by simp [hp])]
  have e1 : u.ctrlOf c.ctrl = some k := hk
  have e2 : u.sqOf c.ctrl c.sq = some q := hq
  rw [e1, e2]
  simp only []
  refine (freeze_within ..).out_mem ?_
  split
  · exact (interrupt_within ..).out_mem (List.mem_cons_self ..)
  · exact (interrupt_within ..).out_mem (List.mem_cons_self ..)

/-- A command that ends in the cycle of its fetch posts its completion, unless its tenant is sealed or its completion queue is full (R122, R410). -/
theorem endAtOnce_posts (h : CmdHdr) (op : Nat) (st : Status) (dw0 : Nat) (s : State) (hk : (s.ctrlOf h.ctrl).isSome) (hq : (s.sqOf h.ctrl h.sq).isSome)
    (hs : s.isSealed ((s.ctrlTag h.ctrl).getD 0) = false) (hroom : s.cqRoom h.ctrl h.sq = true) : .completion h.ctrl h.sq h.cid st dw0 0 ∈ (endAtOnce h op st dw0 s).out := by
  unfold endAtOnce
  obtain ⟨t, e, e1, e2, e3, e4, e5, e6, e7, e8, e9⟩ := openScene_spec h op .admin 0 s
  rw [e]
  simp only []
  obtain ⟨c, hc, hcu⟩ := Option.map_eq_some_iff.mp e1
  have hv : c.version = none := congrArg Scene.version hcu
  have hm : c.media = [] := congrArg Scene.media hcu
  have hn : c.noPost = false := congrArg Scene.noPost hcu
  have ht : c.tag = (s.ctrlTag h.ctrl).getD 0 := congrArg Scene.tag hcu
  have hr : c.ctrl = h.ctrl := congrArg Scene.ctrl hcu
  have hs' : c.sq = h.sq := congrArg Scene.sq hcu
  have hd : c.cid = h.cid := congrArg Scene.cid hcu
  have h1 : c.dw1 = 0 := congrArg Scene.dw1 hcu
  have hdv : ∀ x, dropVersion c x = x := fun x => by simp [dropVersion, hv]
  obtain ⟨c', ec⟩ : ∃ c' : Scene, c' = { c with
      retired := true, st := st, dw0 := dw0, commitCue := t.cue.now, staged := 0, wantCommit := false, wantPoint := false } := ⟨_, rfl⟩
  obtain ⟨u, eu⟩ : ∃ u : State, u = { t with scn := { t.scn with scenes := Tab.put t.scn.scenes s.scn.nextOrder c' } } := ⟨_, rfl⟩
  have er : retire s.scn.nextOrder st dw0 t = tryPost s.scn.nextOrder (noteReset s.scn.nextOrder c'
      (dropVersion c (releaseStaging c (forgetExec s.scn.nextOrder (noteCommit c' u))))) := by
    unfold retire
    rw [hc, eu, ec]
  rw [er, hdv]
  have hu1 : Tab.find u.scn.scenes s.scn.nextOrder = some c' := by rw [eu]; exact Tab.find_put ..
  have hu2 : u.scn.sqs = t.scn.sqs := by rw [eu]
  have hu3 : u.hfe = t.hfe := by rw [eu]
  have hu4 : u.prk = t.prk := by rw [eu]
  have hu5 : u.scn.cqs = t.scn.cqs := by rw [eu]
  have hc' : c'.noPost = false ∧ c'.tag = c.tag ∧ c'.ctrl = c.ctrl ∧ c'.sq = c.sq ∧ c'.cid = c.cid ∧ c'.st = st ∧ c'.dw0 = dw0 ∧ c'.dw1 = c.dw1 ∧
      c'.media = [] ∧ c'.decided = true := by subst ec; exact ⟨hn, rfl, rfl, rfl, rfl, rfl, rfl, rfl, hm, rfl⟩
  clear eu ec er
  obtain ⟨x1, x2, x3, x4, x5, x6, x7, x8, x9, x10⟩ := hc'
  have n := noteReset_scenes s.scn.nextOrder c' (releaseStaging c (forgetExec s.scn.nextOrder (noteCommit c' u)))
  have np := (noteReset_within s.scn.nextOrder c' (releaseStaging c (forgetExec s.scn.nextOrder (noteCommit c' u)))).same_prk rfl
  generalize noteReset s.scn.nextOrder c' (releaseStaging c (forgetExec s.scn.nextOrder (noteCommit c' u))) = w at n np
  obtain ⟨n1, n2, n3, n4, n5, n6⟩ := n
  have m1 : w.scn.scenes = u.scn.scenes := n1
  obtain ⟨f, m2, hf⟩ : ∃ f : SubQueue → SubQueue, w.scn.sqs = Tab.modify u.scn.sqs (qKey c'.ctrl c'.sq) f ∧ ∀ x, (f x).cqid = x.cqid :=
    ⟨_, n2, fun _ => rfl⟩
  have m3 : (w.ctrlOf c'.ctrl).isSome = (u.ctrlOf c'.ctrl).isSome := n4
  have m4 : w.prk = u.prk := np
  have m5 : w.scn.cqs = u.scn.cqs := n5
  have m6 : (w.ctrlOf c'.ctrl).map (fun k => k.transport) = (u.ctrlOf c'.ctrl).map (fun k => k.transport) := n6
  unfold tryPost
  rw [m1, hu1]
  have ms : w.isSealed c'.tag = false := by
    unfold State.isSealed State.tenantRec State.cfg at hs ⊢
    rw [m4, hu4, e7, x2, ht]
    exact hs
  have md : mediaDone w.trl c'.media = true := by rw [x9]; rfl
  have mq : w.cqRoom c'.ctrl c'.sq = true := by
    rw [← hroom, x3, hr, x4, hs']
    refine cqRoom_congr s w h.ctrl h.sq ?_ ?_ ?_
    · rw [x3, hr] at m6
      rw [m6]
      simp only [State.ctrlOf, hu3, e6]
    · unfold State.sqOf
      rw [m2, hu2, e3, x3, x4, hr, hs']
      simp only [Tab.find_modify, Option.map_map]
      exact congrArg (Option.map · _) (funext fun x => hf _)
    · rw [m5, hu5, e4]
  simp only [x10, md, ms, mq, and_self, if_true, Bool.false_eq_true, false_and, if_false, Bool.or_true]
  have p := postCompletion_out s.scn.nextOrder c' w x1 ?_ ?_
  · rwa [x3, x4, x5, x6, x7, x8, hr, hs', hd, h1] at p
  · rw [m3, x3, hr]
    simpa [State.ctrlOf, hu3, e6] using hk
  · unfold State.sqOf at hq ⊢
    rw [m2, hu2, e3, x3, x4, hr, hs']
    simpa using hq

end Sys2Proof.Machine
end

