-- ==== Sys2Proof/Laws/FrameDram.lean ====
section
/-! SUPPORT. What each operation of Machine/Dram.lean may change, and what it keeps. -/
namespace Sys2Proof.Machine

theorem onDmc_within (f s) :
    Within [.dmc] s (onDmc f s) := by
  unfold onDmc
  refine Within.dmc rfl ?_
  exact Within.refl _ _

theorem requestFreq_within (toB s) :
    Within [.dmc] s (requestFreq toB s) := by
  unfold requestFreq
  extract_lets +onlyGivenNames v0
  clear_value v0
  refine Within.ite (fun _ => ?_) (fun _ => ?_)
  · exact Within.refl _ _
  · refine Within.ite (fun _ => ?_) (fun _ => ?_)
    · refine Within.ite (fun _ => ?_) (fun _ => ?_)
      · exact Within.refl _ _
      · refine Within.step (onDmc_within _ _) rfl ?_
        exact Within.refl _ _
    · refine Within.ite (fun _ => ?_) (fun _ => ?_)
      · refine Within.step (onDmc_within _ _) rfl ?_
        exact Within.refl _ _
      · refine Within.step (onDmc_within _ _) rfl ?_
        exact Within.refl _ _

theorem doRankRateRead_within (ch rank celsius rate s) :
    Within [.out, .bus, .evt, .dmc] s (doRankRateRead ch rank celsius rate s) := by
  unfold doRankRateRead
  refine Within.ite (fun _ => ?_) (fun _ => ?_)
  · exact Within.refl _ _
  · extract_lets +onlyGivenNames v0
    clear_value v0
    extract_lets +onlyGivenNames v2
    clear_value v2
    extract_lets +onlyGivenNames v4
    refine Within.cut (x := v4) ?_ (fun h5 => ?_)
    · subst v4
      refine Within.step (onDmc_within _ _) rfl ?_
      exact Within.refl _ _
    · clear_value v4
      extract_lets +onlyGivenNames v6
      clear_value v6
      extract_lets +onlyGivenNames v8
      refine Within.cut (x := v8) ?_ (fun h9 => ?_)
      · subst v8
        refine Within.step (onDmc_within _ _) rfl ?_
        exact h5
      · clear_value v8
        refine Within.ite (fun _ => ?_) (fun _ => ?_)
        · refine Within.step (requestFreq_within _ _) rfl ?_
          refine Within.step (raiseObj_within _ _ _ _) rfl ?_
          exact h9
        · exact h9

theorem doDmcFreqToA_within (s) :
    Within [.dmc] s (doDmcFreqToA s) := by
  unfold doDmcFreqToA
  refine Within.trans ?_ (onlyIf_within (by exact rfl) ?_)
  · exact Within.refl _ _
  · intro u0
    refine Within.step (requestFreq_within _ _) rfl ?_
    exact Within.refl _ _

theorem doDmcFreqToB_within (s) :
    Within [.dmc] s (doDmcFreqToB s) := by
  unfold doDmcFreqToB
  refine Within.trans ?_ (onlyIf_within (by exact rfl) ?_)
  · exact Within.refl _ _
  · intro u0
    refine Within.step (requestFreq_within _ _) rfl ?_
    exact Within.refl _ _

theorem finishRetire_within (s) :
    Within [.out, .bus, .evt, .dev, .dmc] s (finishRetire s) := by
  unfold finishRetire
  dsimp only
  refine Within.step (raiseObj_within _ _ _ _) rfl ?_
  exact Within.dev (u := onDmc _ s) rfl (Within.step (onDmc_within _ _) rfl (Within.refl _ _)) rfl (Nat.le_refl _)

theorem retireChannel_within (ch s) :
    Within [.out, .bus, .evt, .dev, .dmc] s (retireChannel ch s) := by
  unfold retireChannel
  extract_lets +onlyGivenNames v0
  clear_value v0
  extract_lets +onlyGivenNames v2
  clear_value v2
  extract_lets +onlyGivenNames v4
  subst v4
  refine Within.ite (fun _ => ?_) (fun _ => ?_)
  · exact Within.refl _ _
  · refine Within.ite (fun _ => ?_) (fun _ => ?_)
    · dsimp only
      refine Within.step (raiseObj_within _ _ _ _) rfl ?_
      refine Within.step (onDmc_within _ _) rfl ?_
      exact Within.refl _ _
    · refine Within.ite (fun _ => ?_) (fun _ => ?_)
      · dsimp only
        refine Within.step (raiseObj_within _ _ _ _) rfl ?_
        refine Within.step (onDmc_within _ _) rfl ?_
        exact Within.refl _ _
      · refine Within.ite (fun _ => ?_) (fun _ => ?_)
        · dsimp only
          refine Within.step (raiseObj_within _ _ _ _) rfl ?_
          refine Within.step (onDmc_within _ _) rfl ?_
          exact Within.refl _ _
        · refine Within.ite (fun _ => ?_) (fun _ => ?_)
          · dsimp only
            refine Within.step (raiseObj_within _ _ _ _) rfl ?_
            refine Within.step (onDmc_within _ _) rfl ?_
            exact Within.refl _ _
          · extract_lets +onlyGivenNames v6
            clear_value v6
            extract_lets +onlyGivenNames v8
            refine Within.cut (x := v8) ?_ (fun h9 => ?_)
            · subst v8
              refine Within.step (raiseObj_within _ _ _ _) rfl ?_
              refine Within.step (onDmc_within _ _) rfl ?_
              exact Within.refl _ _
            · clear_value v8
              refine Within.ite (fun _ => ?_) (fun _ => ?_)
              · refine Within.step (finishRetire_within _) rfl ?_
                exact h9
              · exact h9

theorem doDmcRetire_within (ch s) :
    Within [.out, .bus, .evt, .dev, .dmc] s (doDmcRetire ch s) := by
  unfold doDmcRetire
  refine Within.trans ?_ (onlyIf_within (by exact rfl) ?_)
  · exact Within.refl _ _
  · intro u0
    refine Within.step (retireChannel_within _ _) rfl ?_
    exact Within.refl _ _

theorem putWord_within (w d code s) :
    Within [.dmc, .dram] s (putWord w d code s) := by
  unfold putWord
  extract_lets +onlyGivenNames v0
  clear_value v0
  refine Within.upd ?_ (by constructor <;> first | exact .inl rfl | exact .inr rfl | exact Nat.le_refl _ | exact List.suffix_refl _ | exact id | exact Nat.le_add_right _ _ | exact .inr ⟨rfl, rfl⟩ | exact memWrite_wf | exact memErase_wf | exact Nat.le_of_eq (closeAllPages_next _).symm)
  exact Within.refl _ _

theorem autoRetire_within (ch s) :
    Within [.out, .bus, .evt, .dev, .dmc] s (autoRetire ch s) := by
  unfold autoRetire
  extract_lets +onlyGivenNames v0
  clear_value v0
  extract_lets +onlyGivenNames v2
  clear_value v2
  extract_lets +onlyGivenNames v4
  clear_value v4
  refine Within.ite (fun _ => ?_) (fun _ => ?_)
  · refine Within.step (retireChannel_within _ _) rfl ?_
    exact Within.refl _ _
  · exact Within.refl _ _

theorem noteBits_within (w l s) :
    Within [.out, .bus, .evt, .dev, .dmc] s (noteBits w l s) := by
  unfold noteBits
  split
  · rename_i w0 w1 w2 w3
    refine Within.foldl (fun u4 a5 => ?_) ?_
    · extract_lets +onlyGivenNames v6
      clear_value v6
      extract_lets +onlyGivenNames v8
      refine Within.cut (x := v8) ?_ (fun h9 => ?_)
      · subst v8
        refine Within.step (onDmc_within _ _) rfl ?_
        exact Within.refl _ _
      · clear_value v8
        refine Within.ite (fun _ => ?_) (fun _ => ?_)
        · refine Within.step (autoRetire_within _ _) rfl ?_
          refine Within.step (raiseObj_within _ _ _ _) rfl ?_
          refine Within.step (onDmc_within _ _) rfl ?_
          exact h9
        · exact h9
    · exact Within.refl _ _

theorem logEcc_within (r s) :
    Within [.dmc] s (logEcc r s) := by
  unfold logEcc
  refine Within.step (onDmc_within _ _) rfl ?_
  exact Within.refl _ _

theorem noteCorrected_within (unit source w x s) :
    Within [.out, .bus, .evt, .dev, .dmc] s (noteCorrected unit source w x s) := by
  unfold noteCorrected
  refine Within.step (noteBits_within _ _ _) rfl ?_
  refine Within.step (count1_within _ _) rfl ?_
  refine Within.step (logEcc_within _ _) rfl ?_
  exact Within.refl _ _

theorem poisonWord_within (unit source w x s) :
    Within [.out, .bus, .evt, .dev, .dmc, .dram] s (poisonWord unit source w x s) := by
  unfold poisonWord
  extract_lets +onlyGivenNames v0
  clear_value v0
  extract_lets +onlyGivenNames v2
  refine Within.cut (x := v2) ?_ (fun h3 => ?_)
  · subst v2
    refine Within.step (count1_within _ _) rfl ?_
    refine Within.step (logEcc_within _ _) rfl ?_
    refine Within.step (putWord_within _ _ _ _) rfl ?_
    exact Within.refl _ _
  · clear_value v2
    refine Within.step (autoRetire_within _ _) rfl ?_
    refine Within.step (onDmc_within _ _) rfl ?_
    exact h3

theorem readWord_within (unit w fl s) :
    Within [.out, .bus, .evt, .dev, .dmc, .dram] s (readWord unit w fl s).2 := by
  unfold readWord
  extract_lets +onlyGivenNames v0
  clear_value v0
  extract_lets +onlyGivenNames v2
  clear_value v2
  split
  · rename_i w4 w5
    refine Within.mkSnd ?_
    refine Within.step (putWord_within _ _ _ _) rfl ?_
    exact Within.refl _ _
  · rename_i w6 w7
    refine Within.mkSnd ?_
    refine Within.step (raiseObj_within _ _ _ _) rfl ?_
    refine Within.step (noteCorrected_within _ _ _ _ _) rfl ?_
    refine Within.step (putWord_within _ _ _ _) rfl ?_
    exact Within.refl _ _
  · rename_i w8 w9
    refine Within.mkSnd ?_
    refine Within.step (raiseObj_within _ _ _ _) rfl ?_
    refine Within.step (logEcc_within _ _) rfl ?_
    refine Within.step (putWord_within _ _ _ _) rfl ?_
    exact Within.refl _ _
  · rename_i w10 w11
    refine Within.mkSnd ?_
    refine Within.step (raiseObj_within _ _ _ _) rfl ?_
    refine Within.step (poisonWord_within _ _ _ _ _) rfl ?_
    exact Within.refl _ _

theorem sramWord_within (mem unit source addr fl s) :
    Within [.out, .bus, .evt, .dmc] s (sramWord mem unit source addr fl s).2 := by
  unfold sramWord
  extract_lets +onlyGivenNames v0
  clear_value v0
  extract_lets +onlyGivenNames v2
  clear_value v2
  extract_lets +onlyGivenNames v4
  clear_value v4
  extract_lets +onlyGivenNames v6
  subst v6
  split
  · rename_i w8 w9
    refine Within.mkSnd ?_
    exact Within.refl _ _
  · rename_i w10 w11
    refine Within.mkSnd ?_
    refine Within.step (raiseObj_within _ _ _ _) rfl ?_
    refine Within.step (count1_within _ _) rfl ?_
    refine Within.step (logEcc_within _ _) rfl ?_
    dsimp only
    refine Within.step (onDmc_within _ _) rfl ?_
    exact Within.refl _ _
  · rename_i w12 w13
    refine Within.mkSnd ?_
    refine Within.step (raiseObj_within _ _ _ _) rfl ?_
    refine Within.step (logEcc_within _ _) rfl ?_
    dsimp only
    refine Within.step (onDmc_within _ _) rfl ?_
    exact Within.refl _ _
  · rename_i w14 w15
    refine Within.mkSnd ?_
    refine Within.step (raiseObj_within _ _ _ _) rfl ?_
    refine Within.step (count1_within _ _) rfl ?_
    refine Within.step (logEcc_within _ _) rfl ?_
    dsimp only
    refine Within.step (onDmc_within _ _) rfl ?_
    exact Within.refl _ _

theorem scrubWord_within (w fl s) :
    Within [.out, .bus, .evt, .dev, .dmc, .dram] s (scrubWord w fl s) := by
  unfold scrubWord
  extract_lets +onlyGivenNames v0
  clear_value v0
  extract_lets +onlyGivenNames v2
  clear_value v2
  split
  · rename_i w4 w5
    refine Within.step (putWord_within _ _ _ _) rfl ?_
    exact Within.refl _ _
  · rename_i w6 w7
    refine Within.step (raiseObj_within _ _ _ _) rfl ?_
    refine Within.step (noteCorrected_within _ _ _ _ _) rfl ?_
    refine Within.step (putWord_within _ _ _ _) rfl ?_
    exact Within.refl _ _
  · rename_i w8 w9
    refine Within.step (logEcc_within _ _) rfl ?_
    refine Within.step (putWord_within _ _ _ _) rfl ?_
    exact Within.refl _ _
  · rename_i w10 w11
    refine Within.step (raiseObj_within _ _ _ _) rfl ?_
    refine Within.step (poisonWord_within _ _ _ _ _) rfl ?_
    exact Within.refl _ _

theorem doIdleSelfRefresh_within (ch s) :
    Within [.dmc] s (doIdleSelfRefresh ch s) := by
  unfold doIdleSelfRefresh
  extract_lets +onlyGivenNames v0
  clear_value v0
  refine Within.ite (fun _ => ?_) (fun _ => ?_)
  · refine Within.step (onDmc_within _ _) rfl ?_
    exact Within.refl _ _
  · exact Within.refl _ _

theorem failPoisoned_within (o s) :
    Within [.free, .out, .bus, .evt, .cue, .hfe, .scn, .obj, .trl, .flc, .smg, .bob, .tly, .scr, .slm] s (failPoisoned o s) := by
  unfold failPoisoned
  split
  · rename_i w0 w1 w2
    refine Within.step (rollBackRequest_within _ _ _) rfl ?_
    exact Within.refl _ _
  · rename_i w3 w4
    exact Within.refl _ _

theorem loseGranule_within (slot g s) :
    Within [.obj, .trl] s (loseGranule slot g s) := by
  unfold loseGranule
  split
  · rename_i w0 w1
    exact Within.refl _ _
  · rename_i w2 w3 w4
    split
    · rename_i w5 w6
      exact Within.refl _ _
    · rename_i w7 w8 w9
      refine Within.ite (fun _ => ?_) (fun _ => ?_)
      · refine Within.step (onNs_within _ _ _) rfl ?_
        exact Within.refl _ _
      · refine Within.step (clearUnits_within _ _ _) rfl ?_
        refine Within.step (onNs_within _ _ _) rfl ?_
        exact Within.refl _ _

theorem consume_within (use s) :
    Within [.free, .out, .bus, .evt, .cue, .hfe, .scn, .obj, .trl, .flc, .smg, .bob, .tly, .asu, .scr, .slm] s (consume use s) := by
  unfold consume
  split
  · rename_i w0
    exact Within.refl _ _
  · rename_i w1 w2
    refine Within.step (failPoisoned_within _ _) rfl ?_
    exact Within.refl _ _
  · rename_i w3 w4
    split
    · rename_i w5 w6 w7 w8
      split
      · rename_i w9 w10 w11 w12
        refine Within.step (failPoisoned_within _ _) rfl ?_
        exact Within.refl _ _
      · rename_i w13 w14
        split
        · rename_i w15 w16 w17 w18
          refine Within.cut (Within.ofEq w18 ?_) (fun h19 => ?_)
          · refine Within.step (takeFree_within _) rfl ?_
            exact Within.refl _ _
          refine Within.step (endEngine_within _ _ _) rfl ?_
          exact h19
    · rename_i w20 w21
      exact Within.refl _ _
  · rename_i w22 w23
    split
    · rename_i w24 w25 w26
      refine Within.step (failPoisoned_within _ _) rfl ?_
      exact Within.refl _ _
    · rename_i w27 w28
      exact Within.refl _ _
  · rename_i w29 w30 w31
    refine Within.step (loseGranule_within _ _ _) rfl ?_
    exact Within.refl _ _
  · rename_i w32 w33 w34
    refine Within.step (raiseObj_within _ _ _ _) rfl ?_
    refine Within.step (onAsuTab_within _ _ _) rfl ?_
    exact Within.refl _ _
  · rename_i w35 w36
    refine Within.step (failBobbin_within _ _ _) rfl ?_
    exact Within.refl _ _
  · rename_i w37 w38
    refine Within.trl rfl ?_
    exact Within.refl _ _
  · rename_i w39 w40
    refine Within.step (refreshBand_within _ _) rfl ?_
    refine Within.trl rfl ?_
    exact Within.refl _ _

theorem readLine_within (unit addr flips use s) :
    Within [.free, .out, .bus, .evt, .cue, .dev, .hfe, .scn, .obj, .trl, .flc, .smg, .bob, .dmc, .tly, .asu, .scr, .dram, .slm] s
      (readLine unit addr flips use s) := by
  unfold readLine
  extract_lets +onlyGivenNames v0
  clear_value v0
  extract_lets +onlyGivenNames v2
  refine Within.cutSnd (x := v2) ?_ (fun h3 => ?_)
  · subst v2
    refine Within.foldlSnd (fun u4 a5 => ?_) ?_
    · extract_lets +onlyGivenNames v6
      refine Within.cutSnd (x := v6) ?_ (fun h7 => ?_)
      · subst v6
        refine Within.step (readWord_within _ _ _ _) rfl ?_
        exact Within.refl _ _
      · clear_value v6
        refine Within.mkSnd ?_
        exact h7
    · refine Within.mkSnd ?_
      exact Within.refl _ _
  · clear_value v2
    extract_lets +onlyGivenNames v8
    refine Within.cut (x := v8) ?_ (fun h9 => ?_)
    · subst v8
      refine Within.step (emit_within _ _) rfl ?_
      exact h3
    · clear_value v8
      refine Within.ite (fun _ => ?_) (fun _ => ?_)
      · exact h9
      · refine Within.step (consume_within _ _) rfl ?_
        exact h9

theorem clearPoison_within (w s) :
    Within [.out, .bus, .evt] s (clearPoison w s) := by
  unfold clearPoison
  refine Within.ite (fun _ => ?_) (fun _ => ?_)
  · refine Within.step (raiseObj_within _ _ _ _) rfl ?_
    exact Within.refl _ _
  · exact Within.refl _ _

theorem writeWords_within (w l s) :
    Within [.out, .bus, .evt, .dmc, .dram] s (writeWords w l s) := by
  unfold writeWords
  extract_lets +onlyGivenNames v0
  clear_value v0
  extract_lets +onlyGivenNames v2
  refine Within.cut (x := v2) ?_ (fun h3 => ?_)
  · subst v2
    refine Within.foldl (fun u4 a5 => ?_) ?_
    · refine Within.step (clearPoison_within _ _) rfl ?_
      exact Within.refl _ _
    · exact Within.refl _ _
  · clear_value v2
    refine Within.upd ?_ (by constructor <;> first | exact .inl rfl | exact .inr rfl | exact Nat.le_refl _ | exact List.suffix_refl _ | exact id | exact Nat.le_add_right _ _ | exact .inr ⟨rfl, rfl⟩ | exact memWrite_wf | exact memErase_wf | exact Nat.le_of_eq (closeAllPages_next _).symm)
    exact h3

theorem writeLine_within (addr line s) :
    Within [.out, .bus, .evt, .dmc, .dram] s (writeLine addr line s) := by
  unfold writeLine
  refine Within.step (writeWords_within _ _ _) rfl ?_
  exact Within.refl _ _

theorem mergeBack_within (unit a n w fl s) :
    Within [.out, .bus, .evt, .dev, .dmc, .dram] s (mergeBack unit a n w fl s) := by
  unfold mergeBack
  extract_lets +onlyGivenNames v0
  clear_value v0
  extract_lets +onlyGivenNames v2
  clear_value v2
  split
  · rename_i w4 w5
    refine Within.step (putWord_within _ _ _ _) rfl ?_
    exact Within.refl _ _
  · rename_i w6 w7
    extract_lets +onlyGivenNames v8
    refine Within.cut (x := v8) ?_ (fun h9 => ?_)
    · subst v8
      refine Within.step (noteCorrected_within _ _ _ _ _) rfl ?_
      refine Within.step (putWord_within _ _ _ _) rfl ?_
      exact Within.refl _ _
    · clear_value v8
      refine Within.ite (fun _ => ?_) (fun _ => ?_)
      · refine Within.step (raiseObj_within _ _ _ _) rfl ?_
        exact h9
      · exact h9
  · rename_i w10 w11
    refine Within.step (putWord_within _ _ _ _) rfl ?_
    exact Within.refl _ _
  · rename_i w12 w13
    refine Within.step (poisonWord_within _ _ _ _ _) rfl ?_
    exact Within.refl _ _

theorem refusedMerge_within (use s) :
    Within [.free, .out, .bus, .evt, .cue, .hfe, .scn, .obj, .trl, .flc, .smg, .bob, .tly, .scr, .slm] s (refusedMerge use s) := by
  unfold refusedMerge
  split
  · rename_i w0 w1
    refine Within.step (rollBackRequest_within _ _ _) rfl ?_
    exact Within.refl _ _
  · rename_i w2 w3
    refine Within.step (answerInv_within _ _ _) rfl ?_
    exact Within.refl _ _
  · rename_i w4 w5 w6
    exact Within.refl _ _

theorem mergeLine_within (unit a l flips use s) :
    Within [.free, .out, .bus, .evt, .cue, .dev, .hfe, .scn, .obj, .trl, .flc, .smg, .bob, .dmc, .tly, .scr, .dram, .slm] s
      (mergeLine unit a l flips use s) := by
  unfold mergeLine
  extract_lets +onlyGivenNames v0
  clear_value v0
  extract_lets +onlyGivenNames v2
  clear_value v2
  extract_lets +onlyGivenNames v4
  clear_value v4
  extract_lets +onlyGivenNames v6
  clear_value v6
  extract_lets +onlyGivenNames v8
  refine Within.cutFun (f := v8) ?_ (fun h9 => ?_)
  · subst v8
    intro u10
    dsimp only
    refine Within.foldl (fun u11 a12 => ?_) ?_
    · refine Within.ite (fun _ => ?_) (fun _ => ?_)
      · refine Within.step (clearPoison_within _ _) rfl ?_
        exact Within.refl _ _
      · refine Within.step (mergeBack_within _ _ _ _ _ _) rfl ?_
        exact Within.refl _ _
    · exact Within.refl _ _
  · clear_value v8
    refine Within.ite (fun _ => ?_) (fun _ => ?_)
    · refine Within.step (refusedMerge_within _ _) rfl ?_
      refine Within.step (emit_within _ _) rfl ?_
      refine Within.step (raiseObj_within _ _ _ _) rfl ?_
      refine Within.step (count1_within _ _) rfl ?_
      refine Within.trans ?_ (h9 _)
      exact Within.refl _ _
    · extract_lets +onlyGivenNames v13
      refine Within.cut (x := v13) ?_ (fun h14 => ?_)
      · subst v13
        refine Within.trans ?_ (h9 _)
        exact Within.refl _ _
      · clear_value v13
        extract_lets +onlyGivenNames v15
        refine Within.cut (x := v15) ?_ (fun h16 => ?_)
        · subst v15
          refine Within.dram rfl ?_ memWrite_wf
          exact h14
        · clear_value v15
          refine Within.step (onDmc_within _ _) rfl ?_
          exact h16

theorem mergeLines_within (unit flips use a3 a4 a5 a6) :
    Within [.free, .out, .bus, .evt, .cue, .dev, .hfe, .scn, .obj, .trl, .flc, .smg, .bob, .dmc, .tly, .scr, .dram, .slm] a6
      (mergeLines unit flips use a3 a4 a5 a6) := by
  fun_induction mergeLines unit flips use a3 a4 a5 a6
  · rename_i r0 r1 r2
    exact Within.refl _ _
  · rename_i r0 r1 r2
    exact Within.refl _ _
  · rename_i r0 r1 r2 r3 r4 r5 r6
    refine Within.trans ?_ (r6 )
    refine Within.step (mergeLine_within _ _ _ _ _ _) rfl ?_
    exact Within.refl _ _

theorem serve_within (r s) :
    Within [.free, .out, .bus, .evt, .cue, .dev, .hfe, .scn, .obj, .trl, .flc, .smg, .bob, .dmc, .tly, .asu, .scr, .dram, .slm] s
      (serve r s) := by
  unfold serve
  split
  · rename_i w0 w1 w2 w3 w4
    refine Within.step (readLine_within _ _ _ _ _) rfl ?_
    exact Within.refl _ _
  · rename_i w5 w6 w7 w8
    refine Within.step (writeLine_within _ _ _) rfl ?_
    exact Within.refl _ _
  · rename_i w9 w10 w11 w12 w13 w14
    refine Within.step (mergeLines_within _ _ _ _ _ _ _) rfl ?_
    exact Within.refl _ _

theorem touchRow_within (key row ch s) :
    Within [.bus, .dmc] s (touchRow key row ch s) := by
  unfold touchRow
  extract_lets +onlyGivenNames v0
  clear_value v0
  extract_lets +onlyGivenNames v2
  clear_value v2
  extract_lets +onlyGivenNames v4
  clear_value v4
  extract_lets +onlyGivenNames v6
  clear_value v6
  extract_lets +onlyGivenNames v8
  clear_value v8
  extract_lets +onlyGivenNames v10
  clear_value v10
  extract_lets +onlyGivenNames v12
  refine Within.cut (x := v12) ?_ (fun h13 => ?_)
  · subst v12
    refine Within.step (count1_within _ _) rfl ?_
    exact Within.refl _ _
  · clear_value v12
    extract_lets +onlyGivenNames v14
    refine Within.cut (x := v14) ?_ (fun h15 => ?_)
    · subst v14
      refine Within.ite (fun _ => ?_) (fun _ => ?_)
      · refine Within.step (count1_within _ _) rfl ?_
        exact h13
      · exact h13
    · clear_value v14
      extract_lets +onlyGivenNames v16
      clear_value v16
      refine Within.step (onDmc_within _ _) rfl ?_
      exact h15

theorem dramRequest_within (r s) :
    Within [.free, .out, .bus, .evt, .cue, .dev, .hfe, .scn, .obj, .trl, .flc, .smg, .bob, .dmc, .tly, .asu, .scr, .dram, .slm] s
      (dramRequest r s) := by
  unfold dramRequest
  split
  · rename_i w0 w1 w2 w3
    split
    · rename_i w4 w5 w6 w7
      extract_lets +onlyGivenNames v8
      refine Within.cut (x := v8) ?_ (fun h9 => ?_)
      · subst v8
        refine Within.step (onDmc_within _ _) rfl ?_
        exact Within.refl _ _
      · clear_value v8
        extract_lets +onlyGivenNames v10
        refine Within.cut (x := v10) ?_ (fun h11 => ?_)
        · subst v10
          refine Within.ite (fun _ => ?_) (fun _ => ?_)
          · refine Within.step (raiseObj_within _ _ _ _) rfl ?_
            refine Within.step (onDmc_within _ _) rfl ?_
            exact h9
          · exact h9
        · clear_value v10
          extract_lets +onlyGivenNames v12
          refine Within.cut (x := v12) ?_ (fun h13 => ?_)
          · subst v12
            refine Within.ite (fun _ => ?_) (fun _ => ?_)
            · refine Within.step (onDmc_within _ _) rfl ?_
              exact h11
            · exact h11
          · clear_value v12
            extract_lets +onlyGivenNames v14
            clear_value v14
            extract_lets +onlyGivenNames v16
            refine Within.cut (x := v16) ?_ (fun h17 => ?_)
            · subst v16
              refine Within.step (countHigh_within _ _ _) rfl ?_
              exact h13
            · clear_value v16
              refine Within.ite (fun _ => ?_) (fun _ => ?_)
              · extract_lets +onlyGivenNames v18
                clear_value v18
                extract_lets +onlyGivenNames v20
                refine Within.cut (x := v20) ?_ (fun h21 => ?_)
                · subst v20
                  refine Within.ite (fun _ => ?_) (fun _ => ?_)
                  · refine Within.step (raiseObj_within _ _ _ _) rfl ?_
                    exact h17
                  · exact h17
                · clear_value v20
                  refine Within.step (onDmc_within _ _) rfl ?_
                  exact h21
              · refine Within.step (serve_within _ _) rfl ?_
                refine Within.step (touchRow_within _ _ _ _) rfl ?_
                exact h17

theorem drainDram_within (s) :
    Within [.free, .out, .bus, .evt, .cue, .dev, .hfe, .scn, .obj, .trl, .flc, .smg, .bob, .dmc, .tly, .asu, .scr, .dram, .slm] s
      (drainDram s) := by
  unfold drainDram
  extract_lets +onlyGivenNames v0
  clear_value v0
  refine Within.foldl (fun u2 a3 => ?_) ?_
  · refine Within.step (dramRequest_within _ _) rfl ?_
    exact Within.refl _ _
  · refine Within.step (onDmc_within _ _) rfl ?_
    exact Within.refl _ _

theorem doDramPllUnlock_within (recovered s) :
    Within [.free, .out, .bus, .evt, .clk, .cue, .dev, .pwr, .hfe, .scn, .obj, .trl, .flc, .smg, .bob, .dmc, .tly, .asu, .scr,
      .dram, .slm] s (doDramPllUnlock recovered s) := by
  unfold doDramPllUnlock
  refine Within.ite (fun _ => ?_) (fun _ => ?_)
  · exact Within.refl _ _
  · extract_lets +onlyGivenNames v0
    clear_value v0
    extract_lets +onlyGivenNames v2
    refine Within.cut (x := v2) ?_ (fun h3 => ?_)
    · subst v2
      refine Within.ite (fun _ => ?_) (fun _ => ?_)
      · refine Within.step (raiseObj_within _ _ _ _) rfl ?_
        refine Within.clk rfl ?_
        exact Within.refl _ _
      · exact Within.refl _ _
    · clear_value v2
      refine Within.ite (fun _ => ?_) (fun _ => ?_)
      · refine Within.step (drainDram_within _) rfl ?_
        extract_lets +onlyGivenNames v4
        refine Within.cut (x := v4) ?_ (fun h5 => ?_)
        · subst v4
          refine Within.step (onDmc_within _ _) rfl ?_
          exact h3
        · clear_value v4
          refine Within.clk rfl ?_
          exact h5
      · refine Within.ite (fun _ => ?_) (fun _ => ?_)
        · refine Within.step (onDmc_within _ _) rfl ?_
          exact h3
        · extract_lets +onlyGivenNames v6
          refine Within.cut (x := v6) ?_ (fun h7 => ?_)
          · subst v6
            refine Within.step (raiseObj_within _ _ _ _) rfl ?_
            refine Within.step (onDmc_within _ _) rfl ?_
            exact h3
          · clear_value v6
            extract_lets +onlyGivenNames v8
            clear_value v8
            extract_lets +onlyGivenNames v10
            refine Within.cut (x := v10) ?_ (fun h11 => ?_)
            · subst v10
              refine Within.trl rfl ?_
              exact h7
            · clear_value v10
              refine Within.step (halt_within _) rfl ?_
              refine Within.step (rollBackAll_within _) rfl ?_
              exact h11

theorem noteBobWord_within (b s) :
    Within [.out, .bus, .evt, .smg, .bob] s (noteBobWord b s) := by
  unfold noteBobWord
  split
  · rename_i w0 w1
    exact Within.refl _ _
  · rename_i w2 w3 w4
    extract_lets +onlyGivenNames v5
    refine Within.cut (x := v5) ?_ (fun h6 => ?_)
    · subst v5
      refine Within.step (onCore_within _ _ _) rfl ?_
      exact Within.refl _ _
    · clear_value v5
      refine Within.ite (fun _ => ?_) (fun _ => ?_)
      · refine Within.step (failBobbin_within _ _ _) rfl ?_
        exact h6
      · exact h6

theorem doSramRead_within (mem unit addr fl use s) :
    Within [.free, .out, .bus, .evt, .cue, .hfe, .scn, .obj, .trl, .flc, .smg, .bob, .dmc, .tly, .asu, .scr, .slm] s (doSramRead mem
      unit addr fl use s) := by
  unfold doSramRead
  refine Within.ite (fun _ => ?_) (fun _ => ?_)
  · exact Within.refl _ _
  · split
    · rename_i w0 w1 w2 w3 w4
      refine Within.cut (Within.ofEq w4 ?_) (fun h5 => ?_)
      · refine Within.step (sramWord_within _ _ _ _ _ _) rfl ?_
        exact Within.refl _ _
      split
      · rename_i w6
        exact h5
      · rename_i w7
        split
        · rename_i w8 w9
          refine Within.step (noteBobWord_within _ _) rfl ?_
          exact h5
        · rename_i w10 w11
          exact h5
      · rename_i w12 w13 w14
        refine Within.step (consume_within _ _) rfl ?_
        exact h5

theorem noteBehind_within (total s) :
    Within [.out, .bus, .evt, .dmc] s (noteBehind total s) := by
  unfold noteBehind
  extract_lets +onlyGivenNames v0
  clear_value v0
  extract_lets +onlyGivenNames v2
  clear_value v2
  refine Within.ite (fun _ => ?_) (fun _ => ?_)
  · refine Within.step (raiseObj_within _ _ _ _) rfl ?_
    refine Within.step (onDmc_within _ _) rfl ?_
    exact Within.refl _ _
  · exact Within.refl _ _

theorem scrubDram_within (flips s) :
    Within [.out, .bus, .evt, .dev, .dmc, .dram] s (scrubDram flips s) := by
  unfold scrubDram
  extract_lets +onlyGivenNames v0
  clear_value v0
  refine Within.ite (fun _ => ?_) (fun _ => ?_)
  · exact Within.refl _ _
  · extract_lets +onlyGivenNames v2
    refine Within.cut (x := v2) ?_ (fun h3 => ?_)
    · subst v2
      refine Within.step (noteBehind_within _ _) rfl ?_
      exact Within.refl _ _
    · clear_value v2
      extract_lets +onlyGivenNames v4
      clear_value v4
      extract_lets +onlyGivenNames v6
      refine Within.cut (x := v6) ?_ (fun h7 => ?_)
      · subst v6
        refine Within.foldl (fun u8 a9 => ?_) ?_
        · refine Within.step (scrubWord_within _ _ _) rfl ?_
          exact Within.refl _ _
        · exact h3
      · clear_value v6
        extract_lets +onlyGivenNames v10
        clear_value v10
        extract_lets +onlyGivenNames v12
        refine Within.cut (x := v12) ?_ (fun h13 => ?_)
        · subst v12
          refine Within.step (onDmc_within _ _) rfl ?_
          exact h7
        · clear_value v12
          refine Within.ite (fun _ => ?_) (fun _ => ?_)
          · exact h13
          · refine Within.step (raiseObj_within _ _ _ _) rfl ?_
            refine Within.step (onDmc_within _ _) rfl ?_
            exact h13

theorem doDramRead_within (unit addr flips use s) :
    Within [.free, .out, .bus, .evt, .cue, .dev, .hfe, .scn, .obj, .trl, .flc, .smg, .bob, .dmc, .tly, .asu, .scr, .dram, .slm] s
      (doDramRead unit addr flips use s) := by
  unfold doDramRead
  refine Within.trans ?_ (onlyIf_within (by exact rfl) ?_)
  · exact Within.refl _ _
  · intro u0
    refine Within.step (dramRequest_within _ _) rfl ?_
    exact Within.refl _ _

theorem doMergeWrite_within (unit addr bytes flips use s) :
    Within [.free, .out, .bus, .evt, .cue, .dev, .hfe, .scn, .obj, .trl, .flc, .smg, .bob, .dmc, .tly, .asu, .scr, .dram, .slm] s
      (doMergeWrite unit addr bytes flips use s) := by
  unfold doMergeWrite
  refine Within.trans ?_ (onlyIf_within (by exact rfl) ?_)
  · exact Within.refl _ _
  · intro u0
    refine Within.step (dramRequest_within _ _) rfl ?_
    exact Within.refl _ _

theorem nextFreq_within (s) :
    Within [.dmc] s (nextFreq s) := by
  unfold nextFreq
  split
  · rename_i w0 w1 w2
    refine Within.step (requestFreq_within _ _) rfl ?_
    refine Within.step (onDmc_within _ _) rfl ?_
    exact Within.refl _ _
  · rename_i w3 w4
    exact Within.refl _ _

theorem doBlockCopyDone_within (s) :
    Within [.free, .out, .bus, .evt, .cue, .dev, .hfe, .scn, .obj, .trl, .flc, .smg, .bob, .dmc, .tly, .asu, .scr, .dram, .slm] s
      (doBlockCopyDone s) := by
  unfold doBlockCopyDone
  extract_lets +onlyGivenNames v0
  clear_value v0
  refine Within.ite (fun _ => ?_) (fun _ => ?_)
  · exact Within.refl _ _
  · extract_lets +onlyGivenNames v2
    clear_value v2
    extract_lets +onlyGivenNames v4
    clear_value v4
    extract_lets +onlyGivenNames v6
    clear_value v6
    extract_lets +onlyGivenNames v8
    refine Within.cut (x := v8) ?_ (fun h9 => ?_)
    · subst v8
      refine Within.step (onDmc_within _ _) rfl ?_
      exact Within.refl _ _
    · clear_value v8
      extract_lets +onlyGivenNames v10
      refine Within.cut (x := v10) ?_ (fun h11 => ?_)
      · subst v10
        refine Within.step (drainDram_within _) rfl ?_
        exact h9
      · clear_value v10
        refine Within.ite (fun _ => ?_) (fun _ => ?_)
        · split
          · rename_i w12 w13 w14 w15 w16
            refine Within.ite (fun _ => ?_) (fun _ => ?_)
            · refine Within.step (onDmc_within _ _) rfl ?_
              exact h11
            · refine Within.step (onDmc_within _ _) rfl ?_
              exact h11
          · rename_i w17 w18 w19 w20
            exact h11
        · refine Within.step (nextFreq_within _) rfl ?_
          refine Within.step (finishRetire_within _) rfl ?_
          exact h11

theorem doPllRelocked_within (s) :
    Within [.clk, .dmc] s (doPllRelocked s) := by
  unfold doPllRelocked
  refine Within.ite (fun _ => ?_) (fun _ => ?_)
  · extract_lets +onlyGivenNames v0
    refine Within.cut (x := v0) ?_ (fun h1 => ?_)
    · subst v0
      refine Within.step (onDmc_within _ _) rfl ?_
      exact Within.refl _ _
    · clear_value v0
      refine Within.clk rfl ?_
      exact h1
  · exact Within.refl _ _

theorem doDramWrite_within (unit addr line s) :
    Within [.free, .out, .bus, .evt, .cue, .dev, .hfe, .scn, .obj, .trl, .flc, .smg, .bob, .dmc, .tly, .asu, .scr, .dram, .slm] s
      (doDramWrite unit addr line s) := by
  unfold doDramWrite
  refine Within.trans ?_ (onlyIf_within (by exact rfl) ?_)
  · exact Within.refl _ _
  · intro u0
    refine Within.step (dramRequest_within _ _) rfl ?_
    exact Within.refl _ _

theorem doFreqChangeRetry_within (s) :
    Within [.dmc] s (doFreqChangeRetry s) := by
  unfold doFreqChangeRetry
  refine Within.ite (fun _ => ?_) (fun _ => ?_)
  · refine Within.step (onDmc_within _ _) rfl ?_
    exact Within.refl _ _
  · exact Within.refl _ _

theorem doRefreshDue_within (ch rank bank rfm s) :
    Within [.free, .out, .bus, .evt, .cue, .dev, .hfe, .scn, .obj, .trl, .flc, .smg, .bob, .dmc, .tly, .asu, .scr, .dram, .slm] s
      (doRefreshDue ch rank bank rfm s) := by
  unfold doRefreshDue
  extract_lets +onlyGivenNames v0
  clear_value v0
  refine Within.ite (fun _ => ?_) (fun _ => ?_)
  · exact Within.refl _ _
  · extract_lets +onlyGivenNames v2
    refine Within.cut (x := v2) ?_ (fun h3 => ?_)
    · subst v2
      refine Within.step (onDmc_within _ _) rfl ?_
      exact Within.refl _ _
    · clear_value v2
      refine Within.ite (fun _ => ?_) (fun _ => ?_)
      · refine Within.step (drainDram_within _) rfl ?_
        refine Within.step (count1_within _ _) rfl ?_
        exact h3
      · exact h3

theorem doSelfRefreshCommitted_within (s) :
    Within [.clk, .dmc] s (doSelfRefreshCommitted s) := by
  unfold doSelfRefreshCommitted
  refine Within.ite (fun _ => ?_) (fun _ => ?_)
  · extract_lets +onlyGivenNames v0
    refine Within.cut (x := v0) ?_ (fun h1 => ?_)
    · subst v0
      refine Within.step (onDmc_within _ _) rfl ?_
      exact Within.refl _ _
    · clear_value v0
      refine Within.clk rfl ?_
      exact h1
  · exact Within.refl _ _

theorem doThermalReturnTimer_within (s) :
    Within [.out, .bus, .evt, .dmc] s (doThermalReturnTimer s) := by
  unfold doThermalReturnTimer
  split
  · rename_i w0 w1 w2
    refine Within.ite (fun _ => ?_) (fun _ => ?_)
    · refine Within.step (requestFreq_within _ _) rfl ?_
      refine Within.step (raiseObj_within _ _ _ _) rfl ?_
      exact Within.refl _ _
    · exact Within.refl _ _
  · rename_i w3 w4
    exact Within.refl _ _

theorem doScrubLine_within (flips sramEnd s) :
    Within [.out, .bus, .evt, .dev, .dmc, .dram] s (doScrubLine flips sramEnd s) := by
  unfold doScrubLine
  refine Within.ite (fun _ => ?_) (fun _ => ?_)
  · exact Within.refl _ _
  · split
    · rename_i w0 w1
      refine Within.ite (fun _ => ?_) (fun _ => ?_)
      · exact Within.refl _ _
      · refine Within.step (scrubDram_within _ _) rfl ?_
        exact Within.refl _ _
    · rename_i w2 w3 w4
      extract_lets +onlyGivenNames v5
      refine Within.cut (x := v5) ?_ (fun h6 => ?_)
      · subst v5
        refine Within.step (sramWord_within _ _ _ _ _ _) rfl ?_
        exact Within.refl _ _
      · clear_value v5
        refine Within.ite (fun _ => ?_) (fun _ => ?_)
        · refine Within.step (raiseObj_within _ _ _ _) rfl ?_
          refine Within.step (onDmc_within _ _) rfl ?_
          exact h6
        · refine Within.step (onDmc_within _ _) rfl ?_
          exact h6

theorem doTxsElapsed_within (s) :
    Within [.free, .out, .bus, .evt, .cue, .dev, .hfe, .scn, .obj, .trl, .flc, .smg, .bob, .dmc, .tly, .asu, .scr, .dram, .slm] s
      (doTxsElapsed s) := by
  unfold doTxsElapsed
  refine Within.ite (fun _ => ?_) (fun _ => ?_)
  · extract_lets +onlyGivenNames v0
    refine Within.cut (x := v0) ?_ (fun h1 => ?_)
    · subst v0
      refine Within.step (onDmc_within _ _) rfl ?_
      exact Within.refl _ _
    · clear_value v0
      refine Within.step (nextFreq_within _) rfl ?_
      refine Within.step (drainDram_within _) rfl ?_
      refine Within.step (raiseObj_within _ _ _ _) rfl ?_
      exact h1
  · refine Within.ite (fun _ => ?_) (fun _ => ?_)
    · refine Within.step (drainDram_within _) rfl ?_
      refine Within.step (onDmc_within _ _) rfl ?_
      exact Within.refl _ _
    · exact Within.refl _ _

end Sys2Proof.Machine
end

