-- ==== Sys2Proof/Laws/FramePower.lean ====
section
/-! SUPPORT. What each operation of Machine/Power.lean may change, and what it keeps. -/
namespace Sys2Proof.Machine

theorem onPwr_within (f s) :
    Within [.pwr] s (onPwr f s) := by
  unfold onPwr
  refine Within.pwr rfl ?_
  exact Within.refl _ _

theorem doDevGo_within (s) :
    Within [.dev] s (doDevGo s) := by
  unfold doDevGo
  refine Within.trans ?_ (onlyIf_within (by exact rfl) ?_)
  · exact Within.refl _ _
  · intro u0
    refine Within.onDev rfl ?_ (.inr rfl) (Nat.le_refl _)
    exact Within.refl _ _

theorem writeBoot_within (f s) :
    Within [.dev] s (writeBoot f s) := by
  unfold writeBoot
  refine Within.onDev rfl ?_ (.inr rfl) (Nat.le_refl _)
  exact Within.refl _ _

theorem doDevSetHold_within (s) :
    Within [.dev] s (doDevSetHold s) := by
  unfold doDevSetHold
  refine Within.trans ?_ (onlyIf_within (by exact rfl) ?_)
  · exact Within.refl _ _
  · intro u0
    refine Within.step (writeBoot_within _ _) rfl ?_
    exact Within.refl _ _

theorem doDevClearHold_within (s) :
    Within [.dev] s (doDevClearHold s) := by
  unfold doDevClearHold
  refine Within.trans ?_ (onlyIf_within (by exact rfl) ?_)
  · exact Within.refl _ _
  · intro u0
    refine Within.step (writeBoot_within _ _) rfl ?_
    exact Within.refl _ _

theorem startBoot_within (s) :
    Within [.wall, .evt, .clk, .cue, .dev, .pwr, .scr] s (startBoot s) := by
  unfold startBoot
  extract_lets +onlyGivenNames v0
  subst v0
  extract_lets +onlyGivenNames v2
  clear_value v2
  extract_lets +onlyGivenNames v4
  clear_value v4
  extract_lets +onlyGivenNames v6
  clear_value v6
  extract_lets +onlyGivenNames v8
  refine Within.cut (x := v8) ?_ (fun h9 => ?_)
  · subst v8
    refine Within.upd ?_ (by constructor <;> first | exact .inl rfl | exact .inr rfl | exact Nat.le_refl _ | exact List.suffix_refl _ | exact id | exact Nat.le_add_right _ _ | exact .inr ⟨rfl, rfl⟩ | exact memWrite_wf | exact memErase_wf | exact Nat.le_of_eq (closeAllPages_next _).symm)
    exact Within.refl _ _
  · clear_value v8
    refine Within.step (onPwr_within _ _) rfl ?_
    refine Within.onDev rfl ?_ (.inr rfl) (Nat.le_refl _)
    exact h9

theorem doResetRelease_within (c s) :
    Within [.wall, .evt, .clk, .cue, .dev, .pwr, .scr] s (doResetRelease c s) := by
  unfold doResetRelease
  refine Within.ite (fun _ => ?_) (fun _ => ?_)
  · exact Within.refl _ _
  · refine Within.ite (fun _ => ?_) (fun _ => ?_)
    · refine Within.step (startBoot_within _) rfl ?_
      exact Within.refl _ _
    · refine Within.step (onPwr_within _ _) rfl ?_
      refine Within.onDev rfl ?_ (.inr rfl) (Nat.le_refl _)
      exact Within.refl _ _

theorem doThrottleStep_within (s) :
    Within [.out, .bus, .evt, .pwr] s (doThrottleStep s) := by
  unfold doThrottleStep
  refine Within.ite (fun _ => ?_) (fun _ => ?_)
  · exact Within.refl _ _
  · extract_lets +onlyGivenNames v0
    refine Within.cut (x := v0) ?_ (fun h1 => ?_)
    · subst v0
      refine Within.step (onPwr_within _ _) rfl ?_
      exact Within.refl _ _
    · clear_value v0
      refine Within.ite (fun _ => ?_) (fun _ => ?_)
      · refine Within.step (onPwr_within _ _) rfl ?_
        exact h1
      · refine Within.ite (fun _ => ?_) (fun _ => ?_)
        · extract_lets +onlyGivenNames v2
          clear_value v2
          extract_lets +onlyGivenNames v4
          refine Within.cut (x := v4) ?_ (fun h5 => ?_)
          · subst v4
            refine Within.step (onPwr_within _ _) rfl ?_
            exact h1
          · clear_value v4
            refine Within.ite (fun _ => ?_) (fun _ => ?_)
            · refine Within.step (raise_within _ _ _ _ _ _) rfl ?_
              exact h5
            · exact h5
        · exact h1

theorem dropLoad_within (s) :
    Within [.free, .out, .bus, .evt, .prk, .cue, .hfe, .scn, .obj, .trl, .flc, .smg, .bob, .tly, .scr, .slm] s (dropLoad s) := by
  unfold dropLoad
  refine Within.ite (fun _ => ?_) (fun _ => ?_)
  · exact Within.refl _ _
  · refine Within.step (abandonLoad_within _ _ _) rfl ?_
    exact Within.refl _ _

theorem stopDevice_within (cause s) :
    Within [.free, .out, .bus, .evt, .prk, .cue, .dev, .pwr, .hfe, .scn, .obj, .trl, .flc, .rch, .hop, .smg, .bob, .tly, .scr, .slm]
      s (stopDevice cause s) := by
  unfold stopDevice
  refine Within.ite (fun _ => ?_) (fun _ => ?_)
  · refine Within.step (beginHarbour_within _ _) rfl ?_
    refine Within.step (dropLoad_within _) rfl ?_
    exact Within.refl _ _
  · refine Within.step (haltPlain_within _) rfl ?_
    refine Within.step (dropLoad_within _) rfl ?_
    exact Within.refl _ _

theorem tempShutdown_within (s) :
    Within [.free, .out, .bus, .evt, .prk, .cue, .dev, .pwr, .hfe, .scn, .obj, .trl, .flc, .rch, .hop, .smg, .bob, .tly, .scr, .slm]
      s (tempShutdown s) := by
  unfold tempShutdown
  refine Within.ite (fun _ => ?_) (fun _ => ?_)
  · refine Within.step (stopDevice_within _ _) rfl ?_
    refine Within.step (raise_within _ _ _ _ _ _) rfl ?_
    exact Within.refl _ _
  · exact Within.refl _ _

theorem tempWarning_within (s) :
    Within [.out, .bus, .evt, .pwr] s (tempWarning s) := by
  unfold tempWarning
  extract_lets +onlyGivenNames v0
  clear_value v0
  extract_lets +onlyGivenNames v2
  clear_value v2
  extract_lets +onlyGivenNames v4
  refine Within.cut (x := v4) ?_ (fun h5 => ?_)
  · subst v4
    refine Within.step (onPwr_within _ _) rfl ?_
    exact Within.refl _ _
  · clear_value v4
    refine Within.ite (fun _ => ?_) (fun _ => ?_)
    · refine Within.step (raise_within _ _ _ _ _ _) rfl ?_
      exact h5
    · exact h5

theorem dropReaders_within (s) :
    Within [.obj, .trl] s (dropReaders s) := by
  unfold dropReaders
  extract_lets +onlyGivenNames v0
  clear_value v0
  extract_lets +onlyGivenNames v2
  refine Within.cut (x := v2) ?_ (fun h3 => ?_)
  · subst v2
    refine Within.obj rfl ?_
    exact Within.refl _ _
  · clear_value v2
    refine Within.foldl (fun u4 a5 => ?_) ?_
    · refine Within.foldl (fun u6 a7 => ?_) ?_
      · refine Within.ite (fun _ => ?_) (fun _ => ?_)
        · refine Within.step (endRead_within _ _ _) rfl ?_
          exact Within.refl _ _
        · exact Within.refl _ _
      · exact Within.refl _ _
    · exact h3

theorem goDark_within (s) :
    Within [.wall, .out, .bus, .evt, .prk, .clk, .cue, .dev, .pwr, .hfe, .scn, .obj, .trl, .flc, .rch, .hop, .smg, .bob, .dmc, .tly,
      .asu, .scr, .saf, .dram, .slm, .regs, .halves, .phase] s (goDark s) := by
  unfold goDark
  extract_lets t
  have h : Within [.wall, .out, .bus, .evt, .prk, .clk, .cue, .dev, .pwr, .hfe, .scn, .obj, .trl, .flc, .rch, .hop, .smg, .bob, .dmc,
      .tly, .asu, .scr, .saf, .dram, .slm, .regs, .halves, .phase] s t := by
    refine Within.step (dropReaders_within _) rfl ?_
    refine Within.ite (fun _ => ?_) (fun _ => ?_)
    · exact Within.step (transition_within _ _) rfl (Within.refl _ _)
    · exact Within.refl _ _
  clear_value t
  refine h.trans ⟨⟨rfl, fun p hp => ?_⟩, ⟨Nat.le_refl _, List.suffix_refl _, Nat.le_refl _, Nat.le_refl _, Nat.le_refl _, fun _ => rfl, fun _ => rfl⟩⟩
  cases p <;> first | exact absurd hp (by decide) | rfl

theorem doSuppliesRemoved_within (held s) :
    Within [.wall, .free, .out, .bus, .evt, .prk, .clk, .cue, .dev, .pwr, .hfe, .scn, .obj, .trl, .flc, .rch, .hop, .smg, .bob,
      .dmc, .tly, .asu, .scr, .saf, .dram, .slm, .regs, .halves, .phase] s (doSuppliesRemoved held s) := by
  unfold doSuppliesRemoved
  extract_lets +onlyGivenNames v0
  refine Within.cut (x := v0) ?_ (fun h1 => ?_)
  · subst v0
    refine Within.onDev rfl ?_ (.inr rfl) (Nat.le_refl _)
    exact Within.refl _ _
  · clear_value v0
    refine Within.step (goDark_within _) rfl ?_
    refine Within.ite (fun _ => ?_) (fun _ => ?_)
    · refine Within.trl rfl ?_
      exact h1
    · exact h1

theorem doAgingMeasure_within (margin s) :
    Within [.out, .bus, .evt, .pwr] s (doAgingMeasure margin s) := by
  unfold doAgingMeasure
  refine Within.ite (fun _ => ?_) (fun _ => ?_)
  · exact Within.refl _ _
  · extract_lets +onlyGivenNames v0
    clear_value v0
    extract_lets +onlyGivenNames v2
    refine Within.cut (x := v2) ?_ (fun h3 => ?_)
    · subst v2
      refine Within.step (onPwr_within _ _) rfl ?_
      exact Within.refl _ _
    · clear_value v2
      refine Within.ite (fun _ => ?_) (fun _ => ?_)
      · refine Within.step (raise_within _ _ _ _ _ _) rfl ?_
        exact h3
      · exact h3

theorem takeDeferredPerst_within (s) :
    Within [.wall, .free, .out, .bus, .evt, .prk, .clk, .cue, .dev, .pwr, .hfe, .scn, .obj, .trl, .flc, .rch, .hop, .smg, .bob,
      .dmc, .tly, .asu, .scr, .saf, .dram, .slm, .regs, .halves, .phase] s (takeDeferredPerst s) := by
  unfold takeDeferredPerst
  split
  · rename_i w0 w1 w2
    refine Within.ite (fun _ => ?_) (fun _ => ?_)
    · split
      · rename_i w3 w4 w5 w6 w7
        refine Within.cut (Within.ofEq w7 ?_) (fun h8 => ?_)
        · refine Within.step (takeFree_within _) rfl ?_
          exact Within.refl _ _
        refine Within.step (goDark_within _) rfl ?_
        refine Within.trl rfl ?_
        exact h8
    · exact Within.refl _ _
  · rename_i w9 w10
    exact Within.refl _ _

theorem tempThrottle_within (s) :
    Within [.out, .bus, .evt, .pwr] s (tempThrottle s) := by
  unfold tempThrottle
  refine Within.ite (fun _ => ?_) (fun _ => ?_)
  · refine Within.step (raise_within _ _ _ _ _ _) rfl ?_
    refine Within.step (onPwr_within _ _) rfl ?_
    exact Within.refl _ _
  · exact Within.refl _ _

theorem doTemperatureSample_within (temps s) :
    Within [.free, .out, .bus, .evt, .prk, .cue, .dev, .pwr, .hfe, .scn, .obj, .trl, .flc, .rch, .hop, .smg, .bob, .tly, .scr, .saf,
      .slm, .phase] s (doTemperatureSample temps s) := by
  unfold doTemperatureSample
  refine Within.ite (fun _ => ?_) (fun _ => ?_)
  · exact Within.refl _ _
  · extract_lets +onlyGivenNames v0
    refine Within.cut (x := v0) ?_ (fun h1 => ?_)
    · subst v0
      refine Within.step (tempThrottle_within _) rfl ?_
      refine Within.step (tempWarning_within _) rfl ?_
      refine Within.step (onPwr_within _ _) rfl ?_
      exact Within.refl _ _
    · clear_value v0
      extract_lets +onlyGivenNames v2
      refine Within.cut (x := v2) ?_ (fun h3 => ?_)
      · subst v2
        split
        · rename_i w4 w5 w6 w7
          refine Within.step (alarm_within _ _ _) rfl ?_
          exact h1
        · rename_i w8 w9 w10
          exact h1
      · clear_value v2
        refine Within.step (tempShutdown_within _) rfl ?_
        exact h3

theorem doSupplyConditionsMet_within (s) :
    Within [.wall, .evt, .clk, .cue, .dev, .pwr, .scr] s (doSupplyConditionsMet s) := by
  unfold doSupplyConditionsMet
  refine Within.trans ?_ (onlyIf_within (by exact rfl) ?_)
  · exact Within.refl _ _
  · intro u0
    refine Within.step (startBoot_within _) rfl ?_
    exact Within.refl _ _

theorem doPowerEstimateUpdate_within (mw s) :
    Within [.pwr] s (doPowerEstimateUpdate mw s) := by
  unfold doPowerEstimateUpdate
  refine Within.trans ?_ (onlyIf_within (by exact rfl) ?_)
  · exact Within.refl _ _
  · intro u0
    refine Within.step (onPwr_within _ _) rfl ?_
    exact Within.refl _ _

theorem enterHouseLights_within (s) :
    Within [.out, .bus, .evt, .dev, .pwr, .phase] s (enterHouseLights s) := by
  unfold enterHouseLights
  extract_lets +onlyGivenNames v0
  refine Within.cut (x := v0) ?_ (fun h1 => ?_)
  · subst v0
    refine Within.step (onPwr_within _ _) rfl ?_
    exact Within.refl _ _
  · clear_value v0
    refine Within.step (transition_within _ _) rfl ?_
    refine Within.onDev rfl ?_ (.inr rfl) (Nat.le_refl _)
    exact h1

theorem doPowerLoss_within (ns s) :
    Within [.free, .out, .bus, .evt, .prk, .cue, .dev, .pwr, .hfe, .scn, .obj, .trl, .flc, .rch, .hop, .smg, .bob, .tly, .scr, .slm]
      s (doPowerLoss ns s) := by
  unfold doPowerLoss
  refine Within.ite (fun _ => ?_) (fun _ => ?_)
  · exact Within.refl _ _
  · extract_lets +onlyGivenNames v0
    refine Within.cut (x := v0) ?_ (fun h1 => ?_)
    · subst v0
      refine Within.onDev rfl ?_ (.inr rfl) (Nat.le_refl _)
      exact Within.refl _ _
    · clear_value v0
      refine Within.ite (fun _ => ?_) (fun _ => ?_)
      · exact h1
      · refine Within.step (stopDevice_within _ _) rfl ?_
        exact h1

theorem doRailOutOfTolerance_within (rail mv s) :
    Within [.out, .bus, .evt, .pwr] s (doRailOutOfTolerance rail mv s) := by
  unfold doRailOutOfTolerance
  refine Within.ite (fun _ => ?_) (fun _ => ?_)
  · exact Within.refl _ _
  · extract_lets +onlyGivenNames v0
    clear_value v0
    extract_lets +onlyGivenNames v2
    refine Within.cut (x := v2) ?_ (fun h3 => ?_)
    · subst v2
      refine Within.step (onPwr_within _ _) rfl ?_
      exact Within.refl _ _
    · clear_value v2
      refine Within.ite (fun _ => ?_) (fun _ => ?_)
      · exact h3
      · refine Within.step (raiseObj_within _ _ _ _) rfl ?_
        exact h3

theorem doPerstAssert_within (ns s) :
    Within [.wall, .free, .out, .bus, .evt, .prk, .clk, .cue, .dev, .pwr, .hfe, .scn, .obj, .trl, .flc, .rch, .hop, .smg, .bob,
      .dmc, .tly, .asu, .scr, .saf, .dram, .slm, .regs, .halves, .phase] s (doPerstAssert ns s) := by
  unfold doPerstAssert
  refine Within.ite (fun _ => ?_) (fun _ => ?_)
  · exact Within.refl _ _
  · extract_lets +onlyGivenNames v0
    refine Within.cut (x := v0) ?_ (fun h1 => ?_)
    · subst v0
      refine Within.onDev rfl ?_ (.inr rfl) (Nat.le_refl _)
      exact Within.refl _ _
    · clear_value v0
      refine Within.ite (fun _ => ?_) (fun _ => ?_)
      · refine Within.step (onPwr_within _ _) rfl ?_
        refine Within.step (raise_within _ _ _ _ _ _) rfl ?_
        exact h1
      · refine Within.ite (fun _ => ?_) (fun _ => ?_)
        · refine Within.step (goDark_within _) rfl ?_
          exact h1
        · extract_lets +onlyGivenNames v2
          refine Within.cut (x := v2) ?_ (fun h3 => ?_)
          · subst v2
            refine Within.step (stopDevice_within _ _) rfl ?_
            exact h1
          · clear_value v2
            refine Within.ite (fun _ => ?_) (fun _ => ?_)
            · exact h3
            · refine Within.step (goDark_within _) rfl ?_
              exact h3

theorem doHarbourSeal_within (s) :
    Within [.wall, .free, .out, .bus, .evt, .prk, .clk, .cue, .dev, .pwr, .hfe, .scn, .obj, .trl, .flc, .rch, .hop, .smg, .bob,
      .dmc, .tly, .asu, .scr, .saf, .dram, .slm, .regs, .halves, .phase] s (doHarbourSeal s) := by
  unfold doHarbourSeal
  split
  · rename_i w0 w1
    exact Within.refl _ _
  · rename_i w2 w3 w4
    extract_lets +onlyGivenNames v5
    clear_value v5
    extract_lets +onlyGivenNames v7
    refine Within.cut (x := v7) ?_ (fun h8 => ?_)
    · subst v7
      refine Within.step (sealHarbour_within _) rfl ?_
      refine Within.step (raise_within _ _ _ _ _ _) rfl ?_
      exact Within.refl _ _
    · clear_value v7
      extract_lets +onlyGivenNames v9
      clear_value v9
      extract_lets +onlyGivenNames v11
      refine Within.cut (x := v11) ?_ (fun h12 => ?_)
      · subst v11
        refine Within.step (halt_within _) rfl ?_
        refine Within.trl rfl ?_
        exact h8
      · clear_value v11
        extract_lets +onlyGivenNames v13
        refine Within.cut (x := v13) ?_ (fun h14 => ?_)
        · subst v13
          refine Within.step (onPwr_within _ _) rfl ?_
          exact h12
        · clear_value v13
          refine Within.ite (fun _ => ?_) (fun _ => ?_)
          · exact h14
          · refine Within.step (goDark_within _) rfl ?_
            exact h14

theorem doFirmwareSlotRead_within (readOk verified s) :
    Within [.out, .bus, .evt, .dev, .pwr, .saf, .phase] s (doFirmwareSlotRead readOk verified s) := by
  unfold doFirmwareSlotRead
  extract_lets +onlyGivenNames v0
  subst v0
  refine Within.ite (fun _ => ?_) (fun _ => ?_)
  · exact Within.refl _ _
  · split
    · rename_i w2 w3 w4
      exact Within.refl _ _
    · rename_i w5 w6 w7 w8
      extract_lets +onlyGivenNames v9
      clear_value v9
      split
      · rename_i w11 w12
        extract_lets +onlyGivenNames v13
        clear_value v13
        extract_lets +onlyGivenNames v15
        refine Within.cut (x := v15) ?_ (fun h16 => ?_)
        · subst v15
          refine Within.step (onSaf_within _ _) rfl ?_
          refine Within.onDev rfl ?_ (.inr rfl) (Nat.le_refl _)
          exact Within.refl _ _
        · clear_value v15
          extract_lets +onlyGivenNames v17
          refine Within.cut (x := v17) ?_ (fun h18 => ?_)
          · subst v17
            refine Within.step (enterHouseLights_within _) rfl ?_
            exact h16
          · clear_value v17
            refine Within.ite (fun _ => ?_) (fun _ => ?_)
            · refine Within.step (raise_within _ _ _ _ _ _) rfl ?_
              exact h18
            · exact h18
      · rename_i w19
        extract_lets +onlyGivenNames v20
        refine Within.cut (x := v20) ?_ (fun h21 => ?_)
        · subst v20
          refine Within.onDev rfl ?_ (.inr rfl) (Nat.le_refl _)
          exact Within.refl _ _
        · clear_value v20
          refine Within.ite (fun _ => ?_) (fun _ => ?_)
          · refine Within.step (enterHouseLights_within _) rfl ?_
            refine Within.onDev rfl ?_ (.inr rfl) (Nat.le_refl _)
            exact h21
          · exact h21

end Sys2Proof.Machine
end

