-- ==== Sys2Proof/Laws/FrameRehearsal.lean ====
section
/-! SUPPORT. What each operation of Machine/Rehearsal.lean may change, and what it keeps. -/
namespace Sys2Proof.Machine

theorem reissueErases_within (s) :
    Within [.bus, .cue, .flc] s (reissueErases s) := by
  unfold reissueErases
  extract_lets +onlyGivenNames v0
  refine Within.cut (x := v0) ?_ (fun h1 => ?_)
  · subst v0
    refine Within.foldl (fun u2 a3 => ?_) ?_
    · refine Within.foldl (fun u4 a5 => ?_) ?_
      · refine Within.ite (fun _ => ?_) (fun _ => ?_)
        · refine Within.step (queueOp_within _ _) rfl ?_
          exact Within.refl _ _
        · exact Within.refl _ _
      · exact Within.refl _ _
    · exact Within.refl _ _
  · clear_value v0
    refine Within.ite (fun _ => ?_) (fun _ => ?_)
    · exact h1
    · refine Within.foldl (fun u6 a7 => ?_) ?_
      · refine Within.step (queueOp_within _ _) rfl ?_
        exact Within.refl _ _
      · exact h1

theorem restoreMap_within (s) :
    Within [.out, .bus, .evt, .cue, .obj, .trl, .flc] s (restoreMap s) := by
  unfold restoreMap
  extract_lets +onlyGivenNames v0
  refine Within.cut (x := v0) ?_ (fun h1 => ?_)
  · subst v0
    refine Within.step (recoverHarbour_within _) rfl ?_
    exact Within.refl _ _
  · clear_value v0
    refine Within.step (reissueErases_within _) rfl ?_
    refine Within.trl rfl ?_
    exact h1

theorem failRehearsal_within (b code s) :
    Within [.out, .bus, .evt, .dev, .phase] s (failRehearsal b code s) := by
  unfold failRehearsal
  extract_lets +onlyGivenNames v0
  refine Within.cut (x := v0) ?_ (fun h1 => ?_)
  · subst v0
    refine Within.onDev rfl ?_ (.inr rfl) (Nat.le_refl _)
    exact Within.refl _ _
  · clear_value v0
    refine Within.step (transition_within _ _) rfl ?_
    refine Within.step (raise_within _ _ _ _ _ _) rfl ?_
    exact h1

theorem restoreSampler_within (hole s) :
    Within [.evt] s (restoreSampler hole s) := by
  unfold restoreSampler
  refine Within.evt rfl ?_ (Nat.le_refl _)
  exact Within.refl _ _

theorem trainDram_within (trained ranks2 rfmInitial rfmMax s) :
    Within [.out, .bus, .evt, .clk, .dmc] s (trainDram trained ranks2 rfmInitial rfmMax s) := by
  unfold trainDram
  extract_lets +onlyGivenNames v0
  clear_value v0
  extract_lets +onlyGivenNames v2
  clear_value v2
  extract_lets +onlyGivenNames v4
  clear_value v4
  extract_lets +onlyGivenNames v6
  refine Within.cut (x := v6) ?_ (fun h7 => ?_)
  · subst v6
    refine Within.step (onDmc_within _ _) rfl ?_
    exact Within.refl _ _
  · clear_value v6
    extract_lets +onlyGivenNames v8
    clear_value v8
    extract_lets +onlyGivenNames v10
    refine Within.cut (x := v10) ?_ (fun h11 => ?_)
    · subst v10
      refine Within.clk rfl ?_
      exact h7
    · clear_value v10
      refine Within.foldl (fun u12 a13 => ?_) ?_
      · refine Within.step (raiseObj_within _ _ _ _) rfl ?_
        exact Within.refl _ _
      · exact h11

theorem calibrateTaps_within (comp s) :
    Within [.cue] s (calibrateTaps comp s) := by
  unfold calibrateTaps
  extract_lets +onlyGivenNames v0
  refine Within.cut (x := v0) ?_ (fun h1 => ?_)
  · subst v0
    refine Within.foldl (fun u2 a3 => ?_) ?_
    · extract_lets +onlyGivenNames v4
      clear_value v4
      refine Within.step (doTapSkewMeasure_within _ _ _ _) rfl ?_
      exact Within.refl _ _
    · exact Within.refl _ _
  · clear_value v0
    refine Within.cue rfl ?_
    exact h1

theorem mapBobbins_within (passed s) :
    Within [.bob] s (mapBobbins passed s) := by
  unfold mapBobbins
  extract_lets +onlyGivenNames v0
  clear_value v0
  extract_lets +onlyGivenNames v2
  clear_value v2
  refine Within.step (onBob_within _ _) rfl ?_
  exact Within.refl _ _

theorem firstFormat_within (dies brick s) :
    Within [.dev, .obj, .trl, .scr] s (firstFormat dies brick s) := by
  unfold firstFormat
  extract_lets +onlyGivenNames v0
  clear_value v0
  extract_lets +onlyGivenNames v2
  clear_value v2
  extract_lets +onlyGivenNames v4
  clear_value v4
  extract_lets +onlyGivenNames v6
  refine Within.cut (x := v6) ?_ (fun h7 => ?_)
  · subst v6
    refine Within.upd ?_ (by constructor <;> first | exact .inl rfl | exact .inr rfl | exact Nat.le_refl _ | exact List.suffix_refl _ | exact id | exact Nat.le_add_right _ _ | exact .inr ⟨rfl, rfl⟩ | exact memWrite_wf | exact memErase_wf | exact Nat.le_of_eq (closeAllPages_next _).symm)
    exact Within.refl _ _
  · clear_value v6
    extract_lets +onlyGivenNames v8
    clear_value v8
    refine Within.onDev rfl ?_ (.inr rfl) (Nat.le_refl _)
    refine Within.trl rfl ?_
    exact h7

theorem bringUpFlash_within (dies brick s) :
    Within [.free, .out, .bus, .evt, .clk, .cue, .dev, .hfe, .scn, .obj, .trl, .flc, .smg, .bob, .tly, .scr, .slm] s (bringUpFlash
      dies brick s) := by
  unfold bringUpFlash
  extract_lets +onlyGivenNames v0
  clear_value v0
  extract_lets +onlyGivenNames v2
  clear_value v2
  extract_lets +onlyGivenNames v4
  clear_value v4
  extract_lets +onlyGivenNames v6
  refine Within.cut (x := v6) ?_ (fun h7 => ?_)
  · subst v6
    refine Within.foldl (fun u8 a9 => ?_) ?_
    · refine Within.step (bringUp_within _ _ _) rfl ?_
      exact Within.refl _ _
    · exact Within.refl _ _
  · clear_value v6
    extract_lets +onlyGivenNames v10
    clear_value v10
    extract_lets +onlyGivenNames v12
    clear_value v12
    extract_lets +onlyGivenNames v14
    refine Within.cut (x := v14) ?_ (fun h15 => ?_)
    · subst v14
      refine Within.foldl (fun u16 a17 => ?_) ?_
      · refine Within.step (raiseObj_within _ _ _ _) rfl ?_
        exact Within.refl _ _
      · exact h7
    · clear_value v14
      extract_lets +onlyGivenNames v18
      refine Within.cut (x := v18) ?_ (fun h19 => ?_)
      · subst v18
        refine Within.foldl (fun u20 a21 => ?_) ?_
        · refine Within.ite (fun _ => ?_) (fun _ => ?_)
          · refine Within.step (retireLun_within _ _) rfl ?_
            exact Within.refl _ _
          · exact Within.refl _ _
        · exact h15
      · clear_value v18
        refine Within.ite (fun _ => ?_) (fun _ => ?_)
        · refine Within.step (setSlots_within _ _) rfl ?_
          exact h19
        · refine Within.step (firstFormat_within _ _ _) rfl ?_
          exact h19

theorem closeOpen_within (s) :
    Within [.bus, .evt, .cue, .obj, .trl, .flc] s (closeOpen s) := by
  unfold closeOpen
  extract_lets +onlyGivenNames v0
  refine Within.cut (x := v0) ?_ (fun h1 => ?_)
  · subst v0
    refine Within.foldl (fun u2 a3 => ?_) ?_
    · extract_lets +onlyGivenNames v4
      refine Within.ite (fun _ => ?_) (fun _ => ?_)
      · exact Within.refl _ _
      · extract_lets +onlyGivenNames v6
        clear_value v6
        extract_lets +onlyGivenNames v8
        refine Within.cut (x := v8) ?_ (fun h9 => ?_)
        · subst v8
          refine Within.trl rfl ?_
          exact Within.refl _ _
        · clear_value v8
          refine Within.ite (fun _ => ?_) (fun _ => ?_)
          · exact h9
          · extract_lets +onlyGivenNames v10
            clear_value v10
            extract_lets +onlyGivenNames v12
            clear_value v12
            split
            · rename_i w14 w15 w16 w17 w18
              refine Within.step (queueOp_within _ _) rfl ?_
              exact h9
            · rename_i w19 w20 w21 w22
              exact h9
    · exact Within.refl _ _
  · clear_value v0
    extract_lets +onlyGivenNames v23
    clear_value v23
    extract_lets +onlyGivenNames v25
    refine Within.cut (x := v25) ?_ (fun h26 => ?_)
    · subst v25
      refine Within.trl rfl ?_
      exact h1
    · clear_value v25
      extract_lets +onlyGivenNames v27
      refine Within.cut (x := v27) ?_ (fun h28 => ?_)
      · subst v27
        refine Within.step (doCheckpointClosed_within _) rfl ?_
        refine Within.step (startCheckpoint_within _) rfl ?_
        exact h26
      · clear_value v27
        refine Within.step (armHarbour_within _) rfl ?_
        refine Within.upd ?_ (by constructor <;> first | exact .inl rfl | exact .inr rfl | exact Nat.le_refl _ | exact List.suffix_refl _ | exact id | exact Nat.le_add_right _ _ | exact .inr ⟨rfl, rfl⟩ | exact memWrite_wf | exact memErase_wf | exact Nat.le_of_eq (closeAllPages_next _).symm)
        exact h28

theorem stepEffect_within {b : Nat} {f : StepFacts} {s t : State} (h : stepEffect b f s = .inl t) :
    Within [.free, .out, .bus, .evt, .clk, .cue, .dev, .hfe, .scn, .obj, .trl, .flc, .hop, .smg, .bob, .dmc, .tly, .scr, .slm] s t
      := by
  unfold stepEffect at h
  split at h
  · dsimp only at h
    split at h
    · cases h
    · rw [← Sum.inl.inj h]; exact Within.step (trainDram_within _ _ _ _ _) rfl (Within.refl _ _)
  · rw [← Sum.inl.inj h]; exact Within.step (calibrateTaps_within _ _) rfl (Within.refl _ _)
  · rw [← Sum.inl.inj h]; exact Within.step (mapBobbins_within _ _) rfl (Within.refl _ _)
  · rw [← Sum.inl.inj h]; exact Within.step (bringUpFlash_within _ _ _) rfl (Within.refl _ _)
  · rw [← Sum.inl.inj h]; exact Within.step (restoreSampler_within _ _) rfl (Within.refl _ _)
  · split at h
    · cases h
    · rw [← Sum.inl.inj h]; exact Within.step (restoreMap_within _) rfl (Within.refl _ _)
  · split at h
    · cases h
    · rw [← Sum.inl.inj h]; exact Within.step (closeOpen_within _) rfl (Within.refl _ _)
  · rw [← Sum.inl.inj h]
    exact Within.ite (fun _ => Within.step (measurePhase_within _) rfl (Within.refl _ _)) (fun _ => Within.refl _ _)

theorem startPlatters_within (s) :
    Within [.dev, .rch, .hop] s (startPlatters s) := by
  unfold startPlatters
  extract_lets +onlyGivenNames v0
  clear_value v0
  extract_lets +onlyGivenNames v2
  clear_value v2
  extract_lets +onlyGivenNames v4
  clear_value v4
  extract_lets +onlyGivenNames v6
  refine Within.cut (x := v6) ?_ (fun h7 => ?_)
  · subst v6
    refine Within.hop rfl ?_
    exact Within.refl _ _
  · clear_value v6
    extract_lets +onlyGivenNames v8
    refine Within.cut (x := v8) ?_ (fun h9 => ?_)
    · subst v8
      refine Within.ite (fun _ => ?_) (fun _ => ?_)
      · refine Within.step (enableSlot_within _ _) rfl ?_
        exact h7
      · refine Within.onDev rfl ?_ (.inr rfl) (Nat.le_refl _)
        exact h7
    · clear_value v8
      refine Within.foldl (fun u10 a11 => ?_) ?_
      · refine Within.step (startResume_within _ _) rfl ?_
        refine Within.step (onAct_within _ _ _) rfl ?_
        exact Within.refl _ _
      · exact h9

theorem beginRehearsal_within (s) :
    Within [.out, .bus, .evt, .cue, .dev, .smg, .phase] s (beginRehearsal s) := by
  unfold beginRehearsal
  extract_lets +onlyGivenNames v0
  refine Within.cut (x := v0) ?_ (fun h1 => ?_)
  · subst v0
    refine Within.step (transition_within _ _) rfl ?_
    refine Within.onDev rfl ?_ (.inr rfl) (Nat.le_refl _)
    exact Within.refl _ _
  · clear_value v0
    refine Within.step (armPosting_within _) rfl ?_
    refine Within.step (startWindows_within _) rfl ?_
    exact h1

theorem doRehearsalStart_within (s) :
    Within [.out, .bus, .evt, .cue, .dev, .smg, .phase] s (doRehearsalStart s) := by
  unfold doRehearsalStart
  refine Within.ite (fun _ => ?_) (fun _ => ?_)
  · exact Within.refl _ _
  · extract_lets +onlyGivenNames v0
    clear_value v0
    extract_lets +onlyGivenNames v2
    clear_value v2
    refine Within.ite (fun _ => ?_) (fun _ => ?_)
    · refine Within.step (beginRehearsal_within _) rfl ?_
      exact Within.refl _ _
    · refine Within.onDev rfl ?_ (.inr rfl) (Nat.le_refl _)
      exact Within.refl _ _

theorem endRehearsal_within (s) :
    Within [.out, .bus, .evt, .dev, .hfe, .phase] s (endRehearsal s) := by
  unfold endRehearsal
  extract_lets +onlyGivenNames v0
  clear_value v0
  extract_lets +onlyGivenNames v2
  refine Within.cut (x := v2) ?_ (fun h3 => ?_)
  · subst v2
    refine Within.step (transition_within _ _) rfl ?_
    exact Within.refl _ _
  · clear_value v2
    extract_lets +onlyGivenNames v4
    refine Within.cut (x := v4) ?_ (fun h5 => ?_)
    · subst v4
      refine Within.onDev rfl ?_ (.inr rfl) (Nat.le_refl _)
      exact h3
    · clear_value v4
      extract_lets +onlyGivenNames v6
      subst v6
      extract_lets +onlyGivenNames v8
      refine Within.cut (x := v8) ?_ (fun h9 => ?_)
      · subst v8
        refine Within.ite (fun _ => ?_) (fun _ => ?_)
        · exact h5
        · refine Within.onDev rfl ?_ (.inl rfl) (by first | exact Nat.le_refl _ | exact Nat.le_max_left _ _ | exact Nat.le_max_right _ _ | exact Nat.le_of_eq (putSlot_floor _ _ _).symm)
          exact h5
      · clear_value v8
        extract_lets +onlyGivenNames v10
        refine Within.cut (x := v10) ?_ (fun h11 => ?_)
        · subst v10
          refine Within.ite (fun _ => ?_) (fun _ => ?_)
          · exact h9
          · refine Within.step (writeBoot_within _ _) rfl ?_
            exact h9
        · clear_value v10
          refine Within.hfe rfl ?_
          exact h11

theorem doRehearsalStepDone_within (b f s) :
    Within [.free, .out, .bus, .evt, .clk, .cue, .dev, .hfe, .scn, .obj, .trl, .flc, .hop, .smg, .bob, .dmc, .tly, .scr, .slm,
      .phase] s (doRehearsalStepDone b f s) := by
  unfold doRehearsalStepDone
  extract_lets +onlyGivenNames v0
  subst v0
  refine Within.ite (fun _ => ?_) (fun _ => ?_)
  · exact Within.refl _ _
  · split
    · rename_i w2 w3 w4 w5
      refine Within.step (failRehearsal_within _ _ _) rfl ?_
      exact Within.refl _ _
    · rename_i w7 w8 w9 w10
      refine Within.cut (Within.step (stepEffect_within w10) rfl ?_) (fun h11 => ?_)
      · exact Within.refl _ _
      extract_lets +onlyGivenNames v12
      refine Within.cut (x := v12) ?_ (fun h13 => ?_)
      · subst v12
        refine Within.onDev rfl ?_ (.inr rfl) (Nat.le_refl _)
        exact h11
      · clear_value v12
        refine Within.ite (fun _ => ?_) (fun _ => ?_)
        · refine Within.step (endRehearsal_within _) rfl ?_
          exact h13
        · exact h13

theorem doRehearsalStepStart_within (b s) :
    Within [.dev, .rch, .hop] s (doRehearsalStepStart b s) := by
  unfold doRehearsalStepStart
  extract_lets +onlyGivenNames v0
  subst v0
  refine Within.ite (fun _ => ?_) (fun _ => ?_)
  · exact Within.refl _ _
  · extract_lets +onlyGivenNames v2
    refine Within.cut (x := v2) ?_ (fun h3 => ?_)
    · subst v2
      refine Within.onDev rfl ?_ (.inr rfl) (Nat.le_refl _)
      exact Within.refl _ _
    · clear_value v2
      refine Within.ite (fun _ => ?_) (fun _ => ?_)
      · refine Within.step (startPlatters_within _) rfl ?_
        exact h3
      · exact h3

theorem doActuatorLoadDeadline_within (a s) :
    Within [.out, .bus, .evt, .rch] s (doActuatorLoadDeadline a s) := by
  unfold doActuatorLoadDeadline
  refine Within.trans ?_ (onlyIf_within (by exact rfl) ?_)
  · exact Within.refl _ _
  · intro u0
    refine Within.step (goOffline_within _ _) rfl ?_
    exact Within.refl _ _

end Sys2Proof.Machine
end

