-- ==== Sys2Proof/Laws/FrameCueFire.lean ====
section
/-! SUPPORT. What each operation of Machine/CueFire.lean may change, and what it keeps. -/
namespace Sys2Proof.Machine

theorem fireTask_within (h s) :
    Within [.free, .out, .bus, .evt, .cue, .hfe, .scn, .obj, .trl, .flc, .smg, .bob, .tly, .scr, .slm] s (fireTask h s) := by
  unfold fireTask
  split
  · rename_i w0 w1 w2 w3
    split
    · rename_i w4 w5 w6
      refine Within.step (retireAdvance_within _) rfl ?_
      refine Within.step (goOn_within _) rfl ?_
      refine Within.step (completeTask_within _ _ _) rfl ?_
      exact Within.refl _ _
    · rename_i w7 w8
      exact Within.refl _ _
  · rename_i w9 w10
    exact Within.refl _ _

theorem doClkGateReqWrite_within (val s) :
    Within [.bus, .clk, .regs] s (doClkGateReqWrite val s) := by
  unfold doClkGateReqWrite
  refine Within.ite (fun _ => ?_) (fun _ => ?_)
  · extract_lets +onlyGivenNames v0
    clear_value v0
    extract_lets +onlyGivenNames v2
    refine Within.cut (x := v2) ?_ (fun h3 => ?_)
    · subst v2
      refine Within.step (setReg_within _ _ _) rfl ?_
      exact Within.refl _ _
    · clear_value v2
      refine Within.clk rfl ?_
      exact h3
  · exact Within.refl _ _

theorem fireDie_within (slot s) :
    Within [.flc] s (fireDie slot s) := by
  unfold fireDie
  refine Within.flc rfl ?_
  exact Within.refl _ _

theorem firePosting_within (s) :
    Within [.free, .out, .bus, .evt, .cue, .hfe, .scn, .obj, .trl, .flc, .smg, .bob, .tly, .scr, .slm] s (firePosting s) := by
  unfold firePosting
  extract_lets +onlyGivenNames v0
  clear_value v0
  extract_lets +onlyGivenNames v2
  refine Within.cut (x := v2) ?_ (fun h3 => ?_)
  · subst v2
    refine Within.foldl (fun u4 a5 => ?_) ?_
    · split
      · rename_i w6 w7 w8
        refine Within.ite (fun _ => ?_) (fun _ => ?_)
        · refine Within.step (postCompletion_within _ _ _) rfl ?_
          exact Within.refl _ _
        · exact Within.refl _ _
      · rename_i w9 w10
        exact Within.refl _ _
    · exact Within.refl _ _
  · clear_value v2
    refine Within.step (goOn_within _) rfl ?_
    refine Within.step (armPosting_within _) rfl ?_
    exact h3

theorem fireAction_within (slot k s) :
    Within [.free, .out, .bus, .evt, .prk, .cue, .hfe, .scn, .obj, .trl, .flc, .rch, .hop, .smg, .bob, .dmc, .tly, .asu, .scr, .saf,
      .dram, .slm] s (fireAction slot k s) := by
  unfold fireAction
  split
  · rename_i w0 w1 w2 w3
    exact Within.refl _ _
  · rename_i w4 w5
    refine Within.step (applyDue_within _) rfl ?_
    exact Within.refl _ _
  · rename_i w6 w7 w8 w9 w10
    refine Within.step (fireReadGate_within _ _ _ _) rfl ?_
    exact Within.refl _ _
  · rename_i w11 w12 w13 w14
    refine Within.step (fireReserve_within _ _ _) rfl ?_
    exact Within.refl _ _
  · rename_i w15 w16 w17 w18 w19
    refine Within.step (fireWriteRun_within _ _ _ _) rfl ?_
    exact Within.refl _ _
  · rename_i w20 w21 w22
    refine Within.step (fireDie_within _ _) rfl ?_
    exact Within.refl _ _
  · rename_i w23 w24 w25
    refine Within.step (fireDie_within _ _) rfl ?_
    exact Within.refl _ _
  · rename_i w26 w27 w28
    refine Within.step (fireWindow_within _ _) rfl ?_
    exact Within.refl _ _
  · rename_i w29 w30
    refine Within.step (firePosting_within _) rfl ?_
    exact Within.refl _ _
  · rename_i w31 w32 w33
    refine Within.step (fireTask_within _ _) rfl ?_
    exact Within.refl _ _
  · rename_i w34 w35 w36
    refine Within.step (fireSample_within _ _) rfl ?_
    exact Within.refl _ _
  · rename_i w37 w38 w39 w40
    refine Within.step (onSlot_within _ _ _) rfl ?_
    exact Within.refl _ _
  · rename_i w41 w42 w43
    refine Within.step (enableSlot_within _ _) rfl ?_
    exact Within.refl _ _

theorem fireSlot_within (slot s) :
    Within [.free, .out, .bus, .evt, .prk, .cue, .hfe, .scn, .obj, .trl, .flc, .rch, .hop, .smg, .bob, .dmc, .tly, .asu, .scr, .saf,
      .dram, .slm] s (fireSlot slot s) := by
  unfold fireSlot
  split
  · rename_i w0 w1
    exact Within.refl _ _
  · rename_i w2 w3 w4
    refine Within.ite (fun _ => ?_) (fun _ => ?_)
    · refine Within.step (dropCue_within _ _) rfl ?_
      exact Within.refl _ _
    · refine Within.ite (fun _ => ?_) (fun _ => ?_)
      · refine Within.cue rfl ?_
        exact Within.refl _ _
      · refine Within.step (pumpAll_within _) rfl ?_
        refine Within.step (fireAction_within _ _ _) rfl ?_
        refine Within.cue rfl ?_
        exact Within.refl _ _

theorem doClockDomainStart_within (d s) :
    Within [.free, .out, .bus, .evt, .prk, .clk, .cue, .hfe, .scn, .obj, .trl, .flc, .rch, .hop, .smg, .bob, .dmc, .tly, .asu, .scr,
      .saf, .dram, .slm] s (doClockDomainStart d s) := by
  unfold doClockDomainStart
  refine Within.ite (fun _ => ?_) (fun _ => ?_)
  · extract_lets +onlyGivenNames v0
    clear_value v0
    extract_lets +onlyGivenNames v2
    refine Within.cut (x := v2) ?_ (fun h3 => ?_)
    · subst v2
      refine Within.clk rfl ?_
      exact Within.refl _ _
    · clear_value v2
      extract_lets +onlyGivenNames v4
      clear_value v4
      refine Within.step (goOn_within _) rfl ?_
      refine Within.foldl (fun u6 a7 => ?_) ?_
      · refine Within.step (fireSlot_within _ _) rfl ?_
        exact Within.refl _ _
      · exact h3
  · exact Within.refl _ _

theorem doClockAlarm_within (c s) :
    Within [.free, .out, .bus, .evt, .prk, .clk, .cue, .dev, .pwr, .hfe, .scn, .obj, .trl, .flc, .rch, .hop, .smg, .bob, .tly, .scr,
      .saf, .slm, .phase] s (doClockAlarm c s) := by
  unfold doClockAlarm
  refine Within.step (alarm_within _ _ _) rfl ?_
  refine Within.ite (fun _ => ?_) (fun _ => ?_)
  · refine Within.clk rfl ?_
    exact Within.refl _ _
  · exact Within.refl _ _

theorem doClockDomainStop_within (d s) :
    Within [.clk] s (doClockDomainStop d s) := by
  unfold doClockDomainStop
  refine Within.ite (fun _ => ?_) (fun _ => ?_)
  · refine Within.clk rfl ?_
    exact Within.refl _ _
  · exact Within.refl _ _

theorem doCueFire_within (slot s) :
    Within [.free, .out, .bus, .evt, .prk, .cue, .hfe, .scn, .obj, .trl, .flc, .rch, .hop, .smg, .bob, .dmc, .tly, .asu, .scr, .saf,
      .dram, .slm] s (doCueFire slot s) := by
  unfold doCueFire
  split
  · rename_i w0 w1 w2
    refine Within.ite (fun _ => ?_) (fun _ => ?_)
    · refine Within.foldl (fun u3 a4 => ?_) ?_
      · refine Within.step (fireSlot_within _ _) rfl ?_
        exact Within.refl _ _
      · exact Within.refl _ _
    · exact Within.refl _ _
  · rename_i w5 w6
    exact Within.refl _ _

theorem doRefclkMeterInterval_within (ppm s) :
    Within [.free, .out, .bus, .evt, .prk, .clk, .cue, .dev, .pwr, .hfe, .scn, .obj, .trl, .flc, .rch, .hop, .smg, .bob, .tly, .scr,
      .saf, .slm, .phase] s (doRefclkMeterInterval ppm s) := by
  unfold doRefclkMeterInterval
  refine Within.ite (fun _ => ?_) (fun _ => ?_)
  · exact Within.refl _ _
  · extract_lets +onlyGivenNames v0
    clear_value v0
    extract_lets +onlyGivenNames v2
    refine Within.cut (x := v2) ?_ (fun h3 => ?_)
    · subst v2
      refine Within.clk rfl ?_
      exact Within.refl _ _
    · clear_value v2
      refine Within.ite (fun _ => ?_) (fun _ => ?_)
      · refine Within.step (alarm_within _ _ _) rfl ?_
        exact h3
      · refine Within.ite (fun _ => ?_) (fun _ => ?_)
        · refine Within.step (raise_within _ _ _ _ _ _) rfl ?_
          refine Within.clk rfl ?_
          exact h3
        · exact h3

theorem fireAllDue_within (s) :
    Within [.free, .out, .bus, .evt, .prk, .cue, .hfe, .scn, .obj, .trl, .flc, .rch, .hop, .smg, .bob, .dmc, .tly, .asu, .scr, .saf,
      .dram, .slm] s (fireAllDue s) := by
  unfold fireAllDue
  extract_lets +onlyGivenNames v0
  clear_value v0
  refine Within.foldl (fun u2 a3 => ?_) ?_
  · refine Within.step (fireSlot_within _ _) rfl ?_
    refine Within.cue rfl ?_
    exact Within.refl _ _
  · exact Within.refl _ _

theorem takeStep_within (s) :
    Within [.free, .out, .bus, .evt, .prk, .cue, .hfe, .scn, .obj, .trl, .flc, .rch, .hop, .smg, .bob, .dmc, .tly, .asu, .scr, .saf,
      .dram, .slm] s (takeStep s) := by
  unfold takeStep
  split
  · rename_i w0 w1 w2
    refine Within.ite (fun _ => ?_) (fun _ => ?_)
    · extract_lets +onlyGivenNames v3
      clear_value v3
      extract_lets +onlyGivenNames v5
      clear_value v5
      extract_lets +onlyGivenNames v7
      refine Within.cut (x := v7) ?_ (fun h8 => ?_)
      · subst v7
        refine Within.step (fireAllDue_within _) rfl ?_
        refine Within.cue rfl ?_
        exact Within.refl _ _
      · clear_value v7
        refine Within.ite (fun _ => ?_) (fun _ => ?_)
        · refine Within.trans ?_ (onlyIf_within (by exact rfl) ?_)
          · exact h8
          · intro u9
            refine Within.step (beatBoundary_within _) rfl ?_
            exact Within.refl _ _
        · exact h8
    · refine Within.cue rfl ?_
      exact Within.refl _ _
  · rename_i w10 w11
    exact Within.refl _ _

theorem atBroadcast_within (drift s) :
    Within [.free, .out, .bus, .evt, .prk, .clk, .cue, .hfe, .scn, .obj, .trl, .flc, .rch, .hop, .smg, .bob, .dmc, .tly, .asu, .scr,
      .saf, .dram, .slm] s (atBroadcast drift s) := by
  unfold atBroadcast
  refine Within.step (applyDue_within _) rfl ?_
  refine Within.step (takeStep_within _) rfl ?_
  refine Within.step (broadcast_within _ _) rfl ?_
  exact Within.refl _ _

theorem doCueBroadcast_within (drift s) :
    Within [.wall, .free, .out, .bus, .evt, .prk, .clk, .cue, .hfe, .scn, .obj, .trl, .flc, .rch, .hop, .smg, .bob, .dmc, .tly,
      .asu, .scr, .saf, .dram, .slm] s (doCueBroadcast drift s) := by
  unfold doCueBroadcast
  refine Within.ite (fun _ => ?_) (fun _ => ?_)
  · exact Within.refl _ _
  · extract_lets +onlyGivenNames v0
    clear_value v0
    extract_lets +onlyGivenNames v2
    refine Within.cut (x := v2) ?_ (fun h3 => ?_)
    · subst v2
      refine Within.repeat (fun u4 => ?_) ?_
      · refine Within.step (asuTick_within _) rfl ?_
        exact Within.refl _ _
      · exact Within.refl _ _
    · clear_value v2
      refine Within.step (atBroadcast_within _ _) rfl ?_
      refine Within.upd ?_ (by constructor <;> first | exact .inl rfl | exact .inr rfl | exact Nat.le_refl _ | exact List.suffix_refl _ | exact id | exact Nat.le_add_right _ _ | exact .inr ⟨rfl, rfl⟩ | exact memWrite_wf | exact memErase_wf | exact Nat.le_of_eq (closeAllPages_next _).symm)
      exact h3

theorem idleTick_within (s) :
    Within [.wall, .free, .out, .bus, .evt, .prk, .clk, .cue, .dev, .pwr, .hfe, .scn, .obj, .trl, .flc, .rch, .hop, .smg, .bob,
      .dmc, .tly, .asu, .scr, .saf, .dram, .slm, .regs, .halves, .phase] s (idleTick s) := by
  unfold idleTick
  refine Within.ite (fun _ => ?_) (fun _ => ?_)
  · exact Within.refl _ _
  · extract_lets +onlyGivenNames v0
    refine Within.cut (x := v0) ?_ (fun h1 => ?_)
    · subst v0
      refine Within.upd ?_ (by constructor <;> first | exact .inl rfl | exact .inr rfl | exact Nat.le_refl _ | exact List.suffix_refl _ | exact id | exact Nat.le_add_right _ _ | exact .inr ⟨rfl, rfl⟩ | exact memWrite_wf | exact memErase_wf | exact Nat.le_of_eq (closeAllPages_next _).symm)
      exact Within.refl _ _
    · extract_lets +onlyGivenNames v2
      refine Within.cut (x := v2) ?_ (fun h3 => ?_)
      · subst v2
        refine Within.ite (fun _ => ?_) (fun _ => ?_)
        · refine Within.step (asuTick_within _) rfl ?_
          exact h1
        · exact h1
      · clear_value v2
        extract_lets +onlyGivenNames v4
        refine Within.cut (x := v4) ?_ (fun h5 => ?_)
        · subst v4
          refine Within.ite (fun _ => ?_) (fun _ => ?_)
          · refine Within.step (atBroadcast_within _ _) rfl ?_
            exact h3
          · refine Within.step (applyDue_within _) rfl ?_
            exact h3
        · clear_value v4
          extract_lets +onlyGivenNames v6
          refine Within.cut (x := v6) ?_ (fun h7 => ?_)
          · subst v6
            refine Within.ite (fun _ => ?_) (fun _ => ?_)
            · exact h5
            · refine Within.step (goOn_within _) rfl ?_
              exact h5
          · clear_value v6
            refine Within.step (takeDeferredPerst_within _) rfl ?_
            exact h7

theorem doBeatBoundary_within (s) :
    Within [.out, .bus, .evt, .cue, .hfe, .scn, .smg, .bob] s (doBeatBoundary s) := by
  unfold doBeatBoundary
  refine Within.trans ?_ (onlyIf_within (by exact rfl) ?_)
  · exact Within.refl _ _
  · intro u0
    refine Within.step (beatBoundary_within _) rfl ?_
    exact Within.refl _ _

end Sys2Proof.Machine
end

