-- ==== Sys2Proof/Laws/Cue.lean ====
section
/-! SUPPORT. The broadcast (R57-R60): what it leaves of the counter and of a requested step. -/
namespace Sys2Proof.Machine

theorem openPeriod_now (c : CueState) : (openPeriod c).now = c.now ∧ (openPeriod c).step = c.step := by
  unfold openPeriod
  extract_lets a
  split <;> exact ⟨rfl, rfl⟩

theorem correctTap_now (p : Nat × Int) (s : State) : (correctTap p s).cue.now = s.cue.now ∧ (correctTap p s).cue.step = s.cue.step := by
  unfold correctTap
  split
  · exact ⟨rfl, rfl⟩
  · simp [raiseObj]

theorem correctTaps_now (d : List (Nat × Int)) (s : State) :
    (d.foldl (fun s p => if p.1 < 80 then correctTap p s else s) s).cue.now = s.cue.now ∧
    (d.foldl (fun s p => if p.1 < 80 then correctTap p s else s) s).cue.step = s.cue.step := by
  induction d generalizing s with
  | nil => exact ⟨rfl, rfl⟩
  | cons p d ih =>
    rw [List.foldl_cons]
    split
    · rw [(ih _).1, (ih _).2]
      exact correctTap_now p s
    · exact ih s

/-- The broadcast itself moves neither the counter nor a requested step. -/
theorem broadcast_now (d : List (Nat × Int)) (s : State) : (broadcast d s).cue.now = s.cue.now ∧ (broadcast d s).cue.step = s.cue.step := by
  unfold broadcast
  extract_lets u
  have h := correctTaps_now d u
  rw [h.1, h.2]
  exact openPeriod_now (settleTaps s.cue)

/-- A broadcast with no step requested and no load waiting for its cue. -/
theorem atBroadcast_plain (d : List (Nat × Int)) (s : State) (h : s.cue.step = none) (hp : s.prk.phase ≠ .waiting) :
    atBroadcast d s = broadcast d s := by
  unfold atBroadcast takeStep
  rw [(broadcast_now d s).2, h]
  simp only []
  unfold applyDue
  rw [(broadcast_within _ _).same_prk rfl, if_neg]
  exact fun e => hp e.1

theorem repeat_asuTick (n : Nat) (s : State) : Within [.bus, .bob, .asu] s (Nat.repeat asuTick n s) :=
  Within.repeat (fun u => asuTick_within u) (Within.refl _ _)

end Sys2Proof.Machine
end

