-- ==== Sys2Proof/Laws/WordCode.lean ====
section
/-! SUPPORT. The word code (R432): the syndrome is linear, a code word's is zero, the syndromes of up to two bit errors differ. -/
namespace Sys2Proof.Machine

theorem two_mul_b2n_xor (r r' : Nat) (b b' : Bool) : 2 * (r ^^^ r') + b2n (b ^^ b') = (2 * r + b2n b) ^^^ (2 * r' + b2n b') := by
  have key : ∀ (r : Nat) (b : Bool) (i : Nat), (2 * r + b2n b).testBit i = if i = 0 then b else r.testBit (i - 1) := by
    intro r b i
    cases i with
    | zero => cases b <;> simp [b2n, Nat.testBit_zero] <;> omega
    | succ k =>
      rw [Nat.testBit_succ]
      have : (2 * r + b2n b) / 2 = r := by cases b <;> simp [b2n] <;> omega
      simp [this]
  apply Nat.eq_of_testBit_eq
  intro i
  rw [Nat.testBit_xor, key, key, key]
  split <;> simp [Nat.testBit_xor]

theorem codeStep_xor (r r' : Nat) (b b' : Bool) : codeStep (r ^^^ r') (b ^^ b') = codeStep r b ^^^ codeStep r' b' := by
  simp only [codeStep]
  rw [two_mul_b2n_xor, Nat.testBit_xor]
  generalize 2 * r + b2n b = x
  generalize 2 * r' + b2n b' = y
  cases x.testBit 15 <;> cases y.testBit 15 <;> simp
  · ac_rfl
  · ac_rfl
  · have e : (x ^^^ codePoly) ^^^ (y ^^^ codePoly) = (x ^^^ y) ^^^ (codePoly ^^^ codePoly) := by ac_rfl
    rw [e, Nat.xor_self, Nat.xor_zero]

theorem codeFold_xor (f g : Nat → Bool) (l : List Nat) (r r' : Nat) :
    (l.map (fun i => f i ^^ g i)).foldl codeStep (r ^^^ r') = (l.map f).foldl codeStep r ^^^ (l.map g).foldl codeStep r' := by
  induction l generalizing r r' with
  | nil => rfl
  | cons i l ih => simp only [List.map_cons, List.foldl_cons]; rw [codeStep_xor, ih]

/-- Reduction modulo g(x) is linear. -/
theorem codeMod_xor (n v w : Nat) : codeMod n (v ^^^ w) = codeMod n v ^^^ codeMod n w := by
  unfold codeMod bitsMsb
  simp only [Nat.testBit_xor]
  have := codeFold_xor (fun i => v.testBit (n - 1 - i)) (fun i => w.testBit (n - 1 - i)) (List.range n) 0 0
  simpa using this

theorem shift_eq_mul (a k : Nat) : a <<< k = a * 2 ^ k := Nat.shiftLeft_eq a k

theorem wordPoly_testBit (w : BitVec 80) (i : Nat) :
    (wordPoly w).testBit i = if i < 15 then w.toNat.testBit (65 + i) else decide (i < 80) && w.toNat.testBit (i - 15) := by
  unfold wordPoly
  have h : w.toNat / 2 ^ 65 < 2 ^ 15 := by have := w.isLt; omega
  rw [Nat.mul_comm, Nat.testBit_two_pow_mul_add _ h]
  split
  · rw [Nat.testBit_div_two_pow, Nat.add_comm]
  · rw [Nat.testBit_mod_two_pow]
    congr 1
    simp; omega

theorem wordPoly_xor (v w : BitVec 80) : wordPoly (v ^^^ w) = wordPoly v ^^^ wordPoly w := by
  apply Nat.eq_of_testBit_eq
  intro i
  rw [Nat.testBit_xor, wordPoly_testBit, wordPoly_testBit, wordPoly_testBit, BitVec.toNat_xor]
  split <;> simp [Nat.testBit_xor, Bool.and_xor_distrib_left]

/-- The syndrome is linear. -/
theorem syndrome_xor (v w : BitVec 80) : syndrome (v ^^^ w) = syndrome v ^^^ syndrome w := by
  unfold syndrome; rw [wordPoly_xor, codeMod_xor]

theorem codeStep_lt {r : Nat} (b : Bool) (h : r < 2 ^ 15) : codeStep r b < 2 ^ 15 := by
  have hv : 2 * r + b2n b < 2 ^ 16 := by cases b <;> simp [b2n] <;> omega
  simp only [codeStep]
  generalize 2 * r + b2n b = v at *
  split
  · rename_i hb
    apply Nat.lt_pow_two_of_testBit
    intro i hi
    rw [Nat.testBit_xor]
    by_cases e : i = 15
    · subst e; rw [hb]; decide
    · have : 2 ^ 16 ≤ 2 ^ i := Nat.pow_le_pow_right (by omega) (by omega)
      rw [Nat.testBit_lt_two_pow (by omega), Nat.testBit_lt_two_pow (by unfold codePoly; omega)]; rfl
  · rename_i hb
    apply Nat.lt_pow_two_of_testBit
    intro i hi
    by_cases e : i = 15
    · subst e; simpa using hb
    · have : 2 ^ 16 ≤ 2 ^ i := Nat.pow_le_pow_right (by omega) (by omega)
      exact Nat.testBit_lt_two_pow (by omega)

theorem codeFold_lt (l : List Bool) {r : Nat} (h : r < 2 ^ 15) : l.foldl codeStep r < 2 ^ 15 := by
  induction l generalizing r with
  | nil => exact h
  | cons b l ih => exact ih (codeStep_lt b h)

theorem codeMod_lt (n v : Nat) : codeMod n v < 2 ^ 15 := codeFold_lt _ (by decide)

/-- The reduced value of each power below x^15 is itself. -/
theorem codeMod_pow {k : Nat} (h : k < 15) : codeMod 80 (2 ^ k) = 2 ^ k := by
  have : ∀ k : Fin 15, codeMod 80 (2 ^ k.val) = 2 ^ k.val := by decide +kernel
  exact this ⟨k, h⟩

/-- A polynomial of degree below 15 is its own remainder. -/
theorem codeMod_small (v : Nat) (h : v < 2 ^ 15) : codeMod 80 v = v := by
  have step : ∀ n, n ≤ 15 → ∀ v, v < 2 ^ n → codeMod 80 v = v := by
    intro n
    induction n with
    | zero => intro _ v hv; have : v = 0 := by simpa using hv
              subst this; decide +kernel
    | succ n ih =>
      intro hn v hv
      by_cases hb : v.testBit n
      · have e : v = 2 ^ n ^^^ (v % 2 ^ n) := by
          apply Nat.eq_of_testBit_eq
          intro i
          rw [Nat.testBit_xor, Nat.testBit_two_pow, Nat.testBit_mod_two_pow]
          by_cases h1 : i < n
          · have h2 : n ≠ i := by omega
            simp [h1, h2]
          · by_cases h2 : i = n
            · subst h2; simp [hb]
            · have : 2 ^ (n + 1) ≤ 2 ^ i := Nat.pow_le_pow_right (by omega) (by omega)
              have h3 : n ≠ i := by omega
              rw [Nat.testBit_lt_two_pow (by omega)]
              simp [h1, h3]
        rw [e, codeMod_xor, codeMod_pow (by omega), ih (by omega) _ (Nat.mod_lt _ (Nat.two_pow_pos n))]
      · refine ih (by omega) v ?_
        apply Nat.lt_pow_two_of_testBit
        intro i hi
        by_cases h2 : i = n
        · subst h2; simpa using hb
        · have : 2 ^ (n + 1) ≤ 2 ^ i := Nat.pow_le_pow_right (by omega) (by omega)
          exact Nat.testBit_lt_two_pow (by omega)
  exact step 15 (Nat.le_refl _) v h

theorem encodeWord_toNat (d : Nat) (p : Bool) :
    (encodeWord d p).toNat = (d % 2 ^ 64 + flag p 64) + checkBits (d % 2 ^ 64 + flag p 64) * 2 ^ 65 := by
  have hu : d % 2 ^ 64 + flag p 64 < 2 ^ 65 := by cases p <;> simp [flag] <;> omega
  have hc : checkBits (d % 2 ^ 64 + flag p 64) < 2 ^ 15 := codeMod_lt ..
  unfold encodeWord
  simp only [BitVec.toNat_ofNat]
  exact Nat.mod_eq_of_lt (by omega)

/-- A code word's syndrome is zero. -/
theorem syndrome_encodeWord (d : Nat) (p : Bool) : syndrome (encodeWord d p) = 0 := by
  have hu : d % 2 ^ 64 + flag p 64 < 2 ^ 65 := by cases p <;> simp [flag] <;> omega
  unfold syndrome wordPoly
  rw [encodeWord_toNat]
  generalize d % 2 ^ 64 + flag p 64 = u at *
  have hc : checkBits u < 2 ^ 15 := codeMod_lt ..
  have e1 : (u + checkBits u * 2 ^ 65) % 2 ^ 65 = u := by omega
  have e2 : (u + checkBits u * 2 ^ 65) / 2 ^ 65 = checkBits u := by omega
  rw [e1, e2]
  have e3 : u * 2 ^ 15 + checkBits u = u * 2 ^ 15 ^^^ checkBits u := by
    apply Nat.eq_of_testBit_eq
    intro i
    rw [Nat.mul_comm, Nat.testBit_two_pow_mul_add _ hc, Nat.testBit_xor, Nat.testBit_two_pow_mul]
    by_cases h : i < 15
    · have h2 : ¬ 15 ≤ i := by omega
      simp [h, h2]
    · have : 2 ^ 15 ≤ 2 ^ i := Nat.pow_le_pow_right (by omega) (by omega)
      have h2 : 15 ≤ i := by omega
      rw [Nat.testBit_lt_two_pow (x := checkBits u) (by omega)]
      simp [h, h2]
  rw [e3, codeMod_xor, codeMod_small _ hc]
  exact Nat.xor_self _

/-- Wrong bits change the syndrome by theirs. -/
theorem syndrome_flipBits (w : BitVec 80) (l : List Nat) : syndrome (flipBits w l) = syndrome w ^^^ errorsSyndrome l := by
  have key : ∀ (l : List Nat) (w : BitVec 80) (r : Nat),
      syndrome (flipBits w l) ^^^ r = syndrome w ^^^ l.foldl (fun r b => r ^^^ errSyndrome b) r := by
    intro l
    induction l with
    | nil => intro w r; rfl
    | cons b l ih =>
      intro w r
      have h := ih (w ^^^ BitVec.ofNat 80 (2 ^ b)) (r ^^^ errSyndrome b)
      rw [syndrome_xor] at h
      have cancel : ∀ x y z : Nat, x ^^^ (y ^^^ z) ^^^ z = x ^^^ y := by
        intro x y z
        have : x ^^^ (y ^^^ z) ^^^ z = (x ^^^ y) ^^^ (z ^^^ z) := by ac_rfl
        rw [this, Nat.xor_self, Nat.xor_zero]
      have h' := congrArg (fun x => x ^^^ errSyndrome b) h
      rw [cancel] at h'
      simp only [flipBits, List.foldl_cons] at h' ⊢
      rw [h']
      show syndrome w ^^^ errSyndrome b ^^^ _ ^^^ errSyndrome b = _
      generalize List.foldl (fun r b => r ^^^ errSyndrome b) (r ^^^ errSyndrome b) l = f
      have := cancel (syndrome w) f (errSyndrome b)
      rw [← this]; ac_rfl
  have := key l w 0
  simpa [errorsSyndrome] using this

/-- The syndromes of single-bit errors, worked out. -/
theorem errTable_eq : errTable =
    [17817, 20139, 22735, 29703, 11671, 23342, 29637, 8723, 17446, 19925, 24115, 31231, 13927, 27854, 7173, 14346, 28692, 9649, 19298, 21341] ++
    [25379, 991, 1982, 3964, 7928, 15856, 31712, 12889, 25778, 3325, 6650, 13300, 26600, 2633, 5266, 10532, 21064, 24841, 1931, 3862] ++
    [7724, 15448, 30896, 13561, 27122, 5757, 11514, 23028, 30321, 10619, 21238, 24693, 1395, 2790, 5580, 11160, 22320, 27641, 4715, 9430] ++
    [18860, 22209, 26651, 5551, 11102, 1, 2, 4, 8, 16, 32, 64, 128, 256, 512, 1024, 2048, 4096, 8192, 16384] := by decide +kernel

theorem errTable_length : errTable.length = 80 := by simp [errTable]

theorem errTable_get {b : Nat} (h : b < 80) : errTable[b]'(by simpa [errTable] using h) = errSyndrome b := by simp [errTable]

/-- The patterns of bit `i`, whose syndrome is `a`, with one further bit of a table whose first is bit `k`. -/
def pairsWith (i a : Nat) : Nat → List Nat → List (List Nat × Nat)
  | _, [] => []
  | k, c :: t => ([i, k], a ^^^ c) :: pairsWith i a (k + 1) t

/-- Every pattern of one or two wrong bits of a table of syndromes whose first is bit `i`, with its syndrome. -/
def patterns : Nat → List Nat → List (List Nat × Nat)
  | _, [] => []
  | i, a :: t => ([i], a) :: (pairsWith i a (i + 1) t ++ patterns (i + 1) t)

theorem mem_pairsWith (i a : Nat) (t : List Nat) : ∀ (k c : Nat) (h : c < t.length), ([i, k + c], a ^^^ t[c]) ∈ pairsWith i a k t := by
  induction t with
  | nil => intro k c h; simp at h
  | cons b t ih =>
    intro k c h
    cases c with
    | zero => exact List.mem_cons_self ..
    | succ c =>
      refine List.mem_cons_of_mem _ ?_
      have := ih (k + 1) c (by simpa using h)
      have e : k + 1 + c = k + (c + 1) := by omega
      rw [e] at this
      simpa using this

theorem mem_patterns_one (t : List Nat) : ∀ (i b : Nat) (h : b < t.length), ([i + b], t[b]) ∈ patterns i t := by
  induction t with
  | nil => intro i b h; simp at h
  | cons a t ih =>
    intro i b h
    cases b with
    | zero => exact List.mem_cons_self ..
    | succ b =>
      refine List.mem_cons_of_mem _ (List.mem_append_right _ ?_)
      have := ih (i + 1) b (by simpa using h)
      have e : i + 1 + b = i + (b + 1) := by omega
      rw [e] at this
      simpa using this

theorem mem_patterns_two (t : List Nat) : ∀ (i b c : Nat) (hb : b < t.length) (hc : c < t.length), b < c →
    ([i + b, i + c], t[b] ^^^ t[c]) ∈ patterns i t := by
  induction t with
  | nil => intro i b c h; simp at h
  | cons a t ih =>
    intro i b c hb hc hl
    refine List.mem_cons_of_mem _ ?_
    cases b with
    | zero =>
      refine List.mem_append_left _ ?_
      obtain ⟨k, rfl⟩ : ∃ k, c = k + 1 := ⟨c - 1, by omega⟩
      have := mem_pairsWith i a t (i + 1) k (by simpa using hc)
      have e : i + 1 + k = i + (k + 1) := by omega
      rw [e] at this
      simpa using this
    | succ b =>
      obtain ⟨k, rfl⟩ : ∃ k, c = k + 1 := ⟨c - 1, by omega⟩
      refine List.mem_append_right _ ?_
      have := ih (i + 1) b k (by simpa using hb) (by simpa using hc) (by omega)
      have e : i + 1 + b = i + (b + 1) := by omega
      have e' : i + 1 + k = i + (k + 1) := by omega
      rw [e, e'] at this
      simpa using this

/-- Every pattern of at most two wrong bits, with its syndrome. -/
def fewErrors : List (List Nat × Nat) := ([], 0) :: patterns 0 errTable

theorem mem_fewErrors {l : List Nat} (h : FewErrors l) : (l, errorsSyndrome l) ∈ fewErrors := by
  obtain ⟨h1, h2, h3⟩ := h
  match l, h1, h2, h3 with
  | [], _, _, _ => exact List.mem_cons_self ..
  | [b], _, _, h3 =>
    have hb := h3 b (by simp)
    have := mem_patterns_one errTable 0 b (by rw [errTable_length]; exact hb)
    rw [errTable_get hb] at this
    refine List.mem_cons_of_mem _ ?_
    simpa [errorsSyndrome] using this
  | [b, c], _, h2, h3 =>
    have hc := h3 c (by simp)
    have hb := h3 b (by simp)
    have hl : b < c := by simpa using h2
    have := mem_patterns_two errTable 0 b c (by rw [errTable_length]; exact hb) (by rw [errTable_length]; exact hc) hl
    rw [errTable_get hb, errTable_get hc] at this
    refine List.mem_cons_of_mem _ ?_
    simpa [errorsSyndrome] using this
  | _ :: _ :: _ :: _, h1, _, _ => simp at h1

/-- One number marked in a set of numbers, unless it is there. -/
def markNew (acc : Option Nat) (v : Nat) : Option Nat := acc.bind (fun m => if m.testBit v then none else some (m ||| 1 <<< v))

theorem markNew_none (l : List Nat) : l.foldl markNew none = none := by
  induction l with
  | nil => rfl
  | cons a l ih => exact ih

theorem markNew_fresh (l : List Nat) : ∀ m, (l.foldl markNew (some m)).isSome = true → l.Pairwise (· ≠ ·) ∧ ∀ v ∈ l, m.testBit v = false := by
  induction l with
  | nil => intro m _; exact ⟨.nil, by simp⟩
  | cons a l ih =>
    intro m h
    rw [List.foldl_cons] at h
    by_cases hm : m.testBit a
    · have : markNew (some m) a = none := by simp [markNew, hm]
      rw [this, markNew_none] at h; simp at h
    · have e : markNew (some m) a = some (m ||| 1 <<< a) := by simp [markNew, hm]
      rw [e] at h
      obtain ⟨h1, h2⟩ := ih _ h
      refine ⟨List.pairwise_cons.mpr ⟨fun v hv e => ?_, h1⟩, ?_⟩
      · have := h2 v hv
        subst e
        simp [Nat.testBit_or, Nat.shiftLeft_eq, Nat.testBit_two_pow_self] at this
      · intro v hv
        rcases List.mem_cons.mp hv with rfl | hv
        · simpa using hm
        · have := h2 v hv
          simp [Nat.testBit_or] at this
          exact this.1

/-- The syndromes of up to two bit errors all differ. -/
theorem fewErrors_marked : ((fewErrors.map (fun p => p.2)).foldl markNew (some 0)).isSome = true := by
  unfold fewErrors
  rw [errTable_eq]
  decide +kernel

theorem map_inj_of_pairwise {α β : Type} (f : α → β) : ∀ (l : List α), (l.map f).Pairwise (· ≠ ·) → ∀ a ∈ l, ∀ b ∈ l, f a = f b → a = b := by
  intro l
  induction l with
  | nil => intro _ a h; cases h
  | cons c l ih =>
    intro h a ha b hb e
    rw [List.map_cons, List.pairwise_cons] at h
    rcases List.mem_cons.mp ha with h1 | h1 <;> rcases List.mem_cons.mp hb with h2 | h2
    · rw [h1, h2]
    · exact absurd (by rw [← h1]; exact e) (h.1 _ (List.mem_map.mpr ⟨b, h2, rfl⟩))
    · exact absurd (by rw [← h2]; exact e.symm) (h.1 _ (List.mem_map.mpr ⟨a, h1, rfl⟩))
    · exact ih h.2 a h1 b h2 e

/-- Two error patterns of at most two bits with one syndrome are one pattern. -/
theorem errorsSyndrome_inj {l m : List Nat} (hl : FewErrors l) (hm : FewErrors m) (h : errorsSyndrome l = errorsSyndrome m) : l = m :=
  congrArg Prod.fst (map_inj_of_pairwise _ _ (markNew_fresh _ _ fewErrors_marked).1 (l, errorsSyndrome l) (mem_fewErrors hl)
    (m, errorsSyndrome m) (mem_fewErrors hm) h)

theorem errTable_getD {b : Nat} (h : b < 80) : errTable.getD b 0 = errSyndrome b := by
  have hl : b < errTable.length := by rw [errTable_length]; exact h
  rw [List.getD_eq_getElem?_getD, List.getElem?_eq_getElem hl, Option.getD_some, errTable_get h]

/-- The bits found for a syndrome have it. -/
theorem errorBits_sound {r : Nat} {l : List Nat} (h : errorBits r = some l) : FewErrors l ∧ l ≠ [] ∧ errorsSyndrome l = r := by
  unfold errorBits at h
  dsimp only at h
  split at h
  · rename_i i hi
    obtain ⟨hl, hp, _⟩ := List.findIdx?_eq_some_iff_getElem.mp hi
    rw [errTable_length] at hl
    cases h
    rw [errTable_get hl] at hp
    exact ⟨⟨by simp, by simp, by simpa using hl⟩, by simp, by simpa [errorsSyndrome] using hp⟩
  · obtain ⟨i, hi, hf⟩ := List.exists_of_findSome?_eq_some h
    have hi' : i < 80 := by simpa using hi
    split at hf
    · rename_i j hj
      obtain ⟨hl, hp, _⟩ := List.findIdx?_eq_some_iff_getElem.mp hj
      rw [List.length_drop, errTable_length] at hl
      have hc : i + 1 + j < 80 := by omega
      cases hf
      rw [List.getElem_drop, errTable_get hc, errTable_getD hi'] at hp
      refine ⟨⟨by simp, by simp; omega, by simp; omega⟩, by simp, ?_⟩
      have : errSyndrome (i + 1 + j) ^^^ errSyndrome i = r := by simpa using hp
      rw [← this, Nat.xor_comm]
      simp [errorsSyndrome]
    · cases hf

/-- A syndrome of one or two wrong bits has bits found for it. -/
theorem errorBits_complete {l : List Nat} (h : FewErrors l) (hn : l ≠ []) : (errorBits (errorsSyndrome l)).isSome = true := by
  cases e : errorBits (errorsSyndrome l) with
  | some m => rfl
  | none =>
    exfalso
    obtain ⟨h1, h2, h3⟩ := h
    unfold errorBits at e
    dsimp only at e
    split at e
    · cases e
    · rename_i hno
      rw [List.findIdx?_eq_none_iff] at hno
      rcases l with _ | ⟨b, _ | ⟨c, _ | ⟨_, _⟩⟩⟩
      · exact hn rfl
      · have hb := h3 b (by simp)
        have := hno (errSyndrome b) (by rw [← errTable_get hb]; exact List.getElem_mem _)
        simp [errorsSyndrome] at this
      · have hc := h3 c (by simp)
        have hb := h3 b (by simp)
        have hl : b < c := by simpa using h2
        rw [List.findSome?_eq_none_iff] at e
        have := e b (by simpa using hb)
        split at this
        · simp at this
        · rename_i hd
          rw [List.findIdx?_eq_none_iff] at hd
          have hm : errSyndrome c ∈ List.drop (b + 1) errTable := by
            rw [List.mem_iff_getElem]
            refine ⟨c - (b + 1), by rw [List.length_drop, errTable_length]; omega, ?_⟩
            rw [List.getElem_drop]
            have e : b + 1 + (c - (b + 1)) = c := by omega
            simp only [e]
            exact errTable_get hc
          have := hd _ hm
          rw [errTable_getD hb] at this
          simp [errorsSyndrome, Nat.xor_comm] at this
      · simp at h1

/-- A pattern of at most two wrong bits is what decoding finds for its syndrome. -/
theorem errorBits_of {l : List Nat} (h : FewErrors l) (hn : l ≠ []) : errorBits (errorsSyndrome l) = some l := by
  have c := errorBits_complete h hn
  cases e : errorBits (errorsSyndrome l) with
  | none => rw [e] at c; cases c
  | some m =>
    obtain ⟨hm, _, hs⟩ := errorBits_sound e
    rw [errorsSyndrome_inj hm h hs]

theorem fewErrors_nil : FewErrors [] := ⟨by simp, by simp, by simp⟩

theorem errorsSyndrome_ne_zero {l : List Nat} (h : FewErrors l) (hn : l ≠ []) : errorsSyndrome l ≠ 0 :=
  fun e => hn (errorsSyndrome_inj h fewErrors_nil (by rw [e]; rfl))

end Sys2Proof.Machine
end

