-- ==== Sys2Proof/Laws/Dram.lean ====
section
/-! SUPPORT. DRAM words and lines: what a request that nothing makes wait reads and writes, byte by byte. -/
namespace Sys2Proof.Machine

theorem leBytes_length (n v : Nat) : (leBytes n v).length = n := by
  induction n generalizing v with
  | zero => rfl
  | succ n ih => simp [leBytes, ih]

/-- The bytes of the number that bytes spell are those bytes. -/
theorem leBytes_leNat (l : Bytes) : leBytes l.length (leNat l) = l := by
  induction l with
  | nil => rfl
  | cons b t ih =>
    have hb := b.isLt
    simp only [List.length_cons, leBytes, leNat]
    have e1 : (b.toNat + 256 * leNat t) / 256 = leNat t := by omega
    have e2 : BitVec.ofNat 8 (b.toNat + 256 * leNat t) = b := by
      apply BitVec.eq_of_toNat_eq
      simp only [BitVec.toNat_ofNat]
      omega
    rw [e1, e2, ih]

theorem leNat_lt (l : Bytes) : leNat l < 256 ^ l.length := by
  induction l with
  | nil => simp [leNat]
  | cons b t ih =>
    have hb := b.isLt
    simp only [leNat, List.length_cons, Nat.pow_succ]
    omega

theorem memRead_length (m : List Host.Cell) (a n : Nat) : (memRead m a n).length = n := by simp [memRead]

theorem memRead_congr {m m' : List Host.Cell} {a n : Nat} (h : ∀ i, i < n → memGet m' (a + i) = memGet m (a + i)) : memRead m' a n = memRead m a n := by
  unfold memRead
  exact List.map_congr_left (fun i hi => h i (by simpa using hi))

/-- Bytes written back where they stand change no byte. -/
theorem memGet_memWrite_self {m : List Host.Cell} (h : memWf m = true) (a n b : Nat) : memGet (memWrite m a (memRead m a n)) b = memGet m b := by
  by_cases hb : b < a ∨ a + n ≤ b
  · rw [memGet_memWrite_outside h (by rw [memRead_length]; exact hb)]
  · obtain ⟨i, rfl⟩ : ∃ i, b = a + i := ⟨b - a, by omega⟩
    have hi : i < (memRead m a n).length := by rw [memRead_length]; omega
    rw [memGet_memWrite_inside h hi]
    simp [memRead]

/-! ### Words -/

/-- A word that is not listed is stored as the clean word of its bytes. -/
theorem storedWord_unlisted {s : State} {w : Nat} (h : Tab.find s.dmc.words w = none) :
    s.storedWord w = encodeWord (leNat (memRead s.dram (8 * w) 8)) false := by unfold State.storedWord; rw [h]

theorem wordData_lt (s : State) (w : Nat) : leNat (memRead s.dram (8 * w) 8) < 2 ^ 64 := by
  have := leNat_lt (memRead s.dram (8 * w) 8)
  rw [memRead_length] at this
  exact this

theorem flipBits_nil (w : BitVec 80) : flipBits w [] = w := rfl

/-- A word of syndrome zero and P = 0 is clean. -/
theorem decode_zero (w : BitVec 80) (h : syndrome w = 0) (hp : w.toNat.testBit 64 = false) :
    decodeWord w = { kind := .clean, data := w.toNat % 2 ^ 64, fixed := [] } := by
  unfold decodeWord
  dsimp only
  rw [h, if_pos rfl]
  dsimp only
  rw [flipBits_nil, hp]
  simp

theorem encodeWord_data (d : Nat) (h : d < 2 ^ 64) : (encodeWord d false).toNat % 2 ^ 64 = d ∧ (encodeWord d false).toNat.testBit 64 = false := by
  have e := encodeWord_toNat d false
  simp only [flag, Bool.false_eq_true, if_false, Nat.add_zero, Nat.mod_eq_of_lt h] at e
  rw [e]
  generalize checkBits d = c
  constructor
  · omega
  · rw [Nat.add_comm, Nat.mul_comm, Nat.testBit_two_pow_mul_add _ (by omega)]
    simp only [show 64 < 65 by omega, if_true]
    exact Nat.testBit_lt_two_pow (by omega)

/-- The clean word of some data decodes as clean. -/
theorem decode_clean (d : Nat) (h : d < 2 ^ 64) : decodeWord (encodeWord d false) = { kind := .clean, data := d, fixed := [] } := by
  rw [decode_zero _ (syndrome_encodeWord d false) (encodeWord_data d h).2, (encodeWord_data d h).1]

/-- A word of syndrome zero and P = 1 is poisoned. -/
theorem decode_zero_p (w : BitVec 80) (h : syndrome w = 0) (hp : w.toNat.testBit 64 = true) :
    decodeWord w = { kind := .poisoned, data := w.toNat % 2 ^ 64, fixed := [] } := by
  unfold decodeWord
  dsimp only
  rw [h, if_pos rfl]
  dsimp only
  rw [flipBits_nil, hp, if_pos rfl]

theorem encodeWord_pdata (d : Nat) (h : d < 2 ^ 64) : (encodeWord d true).toNat % 2 ^ 64 = d ∧ (encodeWord d true).toNat.testBit 64 = true := by
  have e := encodeWord_toNat d true
  have hf : flag true 64 = 2 ^ 64 := by decide
  rw [hf, Nat.mod_eq_of_lt h] at e
  rw [e]
  generalize checkBits (d + 2 ^ 64) = c
  constructor
  · omega
  · rw [Nat.add_comm (d + 2 ^ 64), Nat.mul_comm, Nat.testBit_two_pow_mul_add _ (by omega), if_pos (by omega), Nat.add_comm, Nat.testBit_two_pow_add_eq,
      Nat.testBit_lt_two_pow h]
    rfl

theorem decode_poison (d : Nat) (h : d < 2 ^ 64) : decodeWord (encodeWord d true) = { kind := .poisoned, data := d, fixed := [] } := by
  rw [decode_zero_p _ (syndrome_encodeWord d true) (encodeWord_pdata d h).2, (encodeWord_pdata d h).1]

/-- From `s` to `t` only bytes of DRAM that stay as they read, and the listing of words of which none was listed, change. -/
structure SameBytes (s t : State) : Prop where
  bytes : ∀ b, memGet t.dram b = memGet s.dram b
  wf : memWf t.dram = true
  words : ∀ w, Tab.find t.dmc.words w = Tab.find s.dmc.words w
  out : t.out = s.out

theorem SameBytes.refl {s : State} (h : memWf s.dram = true) : SameBytes s s := ⟨fun _ => rfl, h, fun _ => rfl, rfl⟩

theorem SameBytes.trans {s t u : State} (h : SameBytes s t) (k : SameBytes t u) : SameBytes s u :=
  ⟨fun b => (k.bytes b).trans (h.bytes b), k.wf, fun w => (k.words w).trans (h.words w), k.out.trans h.out⟩

theorem putWord_dram (w d : Nat) (c : BitVec 80) (s : State) : (putWord w d c s).dram = memWrite s.dram (8 * w) (leBytes 8 d) := rfl
theorem putWord_out (w d : Nat) (c : BitVec 80) (s : State) : (putWord w d c s).out = s.out := rfl
theorem putWord_words (w d : Nat) (c : BitVec 80) (s : State) (h : c = encodeWord d false) : (putWord w d c s).dmc.words = Tab.del s.dmc.words w := by
  simp only [putWord]
  rw [if_pos (by simpa using h)]

/-- An unlisted word written back as it decodes changes nothing. -/
theorem putWord_clean {s : State} {w d : Nat} {c : BitVec 80} (h : memWf s.dram = true) (hw : Tab.find s.dmc.words w = none)
    (hd : d = leNat (memRead s.dram (8 * w) 8)) (hc : c = encodeWord d false) : SameBytes s (putWord w d c s) := by
  have e : leBytes 8 d = memRead s.dram (8 * w) 8 := by
    have := leBytes_leNat (memRead s.dram (8 * w) 8)
    rw [memRead_length] at this
    rw [hd, this]
  refine ⟨fun b => ?_, ?_, fun v => ?_, putWord_out ..⟩
  · rw [putWord_dram, e]
    exact memGet_memWrite_self h ..
  · rw [putWord_dram]
    exact memWrite_wf h
  · rw [putWord_words _ _ _ _ hc]
    by_cases hv : v = w
    · subst hv; rw [Tab.find_del, hw]
    · rw [Tab.find_del_ne _ hv]

/-- Reading an unlisted word gives no poison and changes nothing. -/
theorem readWord_clean {s : State} {unit w : Nat} (h : memWf s.dram = true) (hw : Tab.find s.dmc.words w = none) :
    (readWord unit w 0 s).1 = false ∧ SameBytes s (readWord unit w 0 s).2 := by
  have e : decodeWord (s.storedWord w) = { kind := .clean, data := leNat (memRead s.dram (8 * w) 8), fixed := [] } := by
    rw [storedWord_unlisted hw]
    exact decode_clean _ (wordData_lt s w)
  have z : s.storedWord w ^^^ (0 : BitVec 80) = s.storedWord w := BitVec.xor_zero
  unfold readWord
  dsimp only
  rw [z, e]
  dsimp only
  refine ⟨rfl, ?_⟩
  rw [storedWord_unlisted hw]
  exact putWord_clean h hw rfl rfl

/-- A narrow write's write-back of an unlisted word changes nothing. -/
theorem mergeBack_clean {s : State} {unit a n w : Nat} (h : memWf s.dram = true) (hw : Tab.find s.dmc.words w = none) :
    SameBytes s (mergeBack unit a n w 0 s) := by
  have e : decodeWord (s.storedWord w) = { kind := .clean, data := leNat (memRead s.dram (8 * w) 8), fixed := [] } := by
    rw [storedWord_unlisted hw]
    exact decode_clean _ (wordData_lt s w)
  have z : s.storedWord w ^^^ (0 : BitVec 80) = s.storedWord w := BitVec.xor_zero
  unfold mergeBack
  dsimp only
  rw [z, e]
  dsimp only
  rw [storedWord_unlisted hw]
  exact putWord_clean h hw rfl rfl

/-! ### Requests -/

theorem touchRow_words (key row ch : Nat) (s : State) : (touchRow key row ch s).dmc.words = s.dmc.words := by
  unfold touchRow
  extract_lets thr idle b opened hist hit s1 s2 keep
  have : s2.dmc = s.dmc := by simp only [s2]; split <;> rfl
  show s2.dmc.words = _
  rw [this]

theorem touchRow_out (key row ch : Nat) (s : State) : (touchRow key row ch s).out = s.out := by
  unfold touchRow
  extract_lets thr idle b opened hist hit s1 s2 keep
  show s2.out = _
  simp only [s2]; split <;> rfl

/-- A request that nothing makes wait is served at once: its memory is as it was until then. -/
theorem dramRequest_serves (r : DramReq) (s : State) (h : DramServes s r.addr) :
    ∃ u, dramRequest r s = serve r u ∧ u.dram = s.dram ∧ u.dmc.words = s.dmc.words ∧ u.out = s.out := by
  obtain ⟨h1, h2, h3, h4, h5, h6⟩ := h
  unfold dramRequest
  simp only []
  generalize hp : s.dramPlace r.addr = p at h5 h6 ⊢
  obtain ⟨ch, c⟩ := p
  simp only [] at h5 h6 ⊢
  generalize hb : s.dramBank ch c = b at h6 ⊢
  obtain ⟨key, row⟩ := b
  simp only [] at h6 ⊢
  have e1 : ¬ ((onDmc (fun d => { d with lastReq := Tab.put d.lastReq ch s.wall }) s).dmc.freq = .entering ∧
      (onDmc (fun d => { d with lastReq := Tab.put d.lastReq ch s.wall }) s).dmc.attempts < 4) := by
    simp [onDmc, h4]
  rw [if_neg e1]
  rw [if_neg (show ¬ Tab.at (onDmc (fun d => { d with lastReq := Tab.put d.lastReq ch s.wall }) s).dmc.ch ch 0 = 2 from h5)]
  have e2 : ∀ k n, dramWaits (countHigh k n (onDmc (fun d => { d with lastReq := Tab.put d.lastReq ch s.wall }) s)) ch c key row = false :=
    fun k n => h6
  rw [e2]
  simp only [Bool.false_eq_true, if_false]
  refine ⟨_, rfl, ?_, ?_, ?_⟩
  · rw [(touchRow_within ..).same_dram rfl]; rfl
  · rw [touchRow_words]; rfl
  · rw [touchRow_out]; rfl

end Sys2Proof.Machine
end

