-- ==== Sys2Proof/Laws/FrameWindow.lean ====
section
/-! SUPPORT. What each operation of Machine/Window.lean may change, and what it keeps. -/
namespace Sys2Proof.Machine

theorem rwlWrite_within (w o v s) :
    Within [.out, .bus, .evt] s (rwlWrite w o v s) := by
  unfold rwlWrite
  split
  · rename_i w0
    refine Within.step (raise_within _ _ _ _ _ _) rfl ?_
    exact Within.refl _ _
  · rename_i w1 w2
    refine Within.step (raise_within _ _ _ _ _ _) rfl ?_
    exact Within.refl _ _

theorem plainWrite_within (q w r o v s) :
    Within [.bus, .clk, .regs, .halves] s (plainWrite q w r o v s) := by
  unfold plainWrite
  refine Within.ite (fun _ => ?_) (fun _ => ?_)
  · refine Within.ite (fun _ => ?_) (fun _ => ?_)
    · refine Within.step (holdLow_within _ _ _ _) rfl ?_
      exact Within.refl _ _
    · split
      · rename_i w0 w1 w2 w3 w4
        refine Within.step (takeHigh_within _ _ _ _) rfl ?_
        exact Within.refl _ _
      · rename_i w5 w6 w7 w8
        refine Within.step (storeRw_within _ _ _ _) rfl ?_
        exact Within.refl _ _
  · refine Within.ite (fun _ => ?_) (fun _ => ?_)
    · refine Within.clk rfl ?_
      exact Within.refl _ _
    · exact Within.refl _ _

theorem devCtrl_within (v s) :
    Within [.dev] s (devCtrl v s) := by
  unfold devCtrl
  extract_lets +onlyGivenNames v0
  clear_value v0
  refine Within.ite (fun _ => ?_) (fun _ => ?_)
  · refine Within.step (doDevGo_within _) rfl ?_
    exact Within.refl _ _
  · refine Within.ite (fun _ => ?_) (fun _ => ?_)
    · refine Within.step (doDevSetHold_within _) rfl ?_
      exact Within.refl _ _
    · refine Within.ite (fun _ => ?_) (fun _ => ?_)
      · refine Within.step (doDevClearHold_within _) rfl ?_
        exact Within.refl _ _
      · exact Within.refl _ _

theorem prkCtrl_within (v s) :
    Within [.free, .out, .bus, .evt, .prk, .cue, .hfe, .scn, .obj, .trl, .flc, .smg, .bob, .tly, .scr, .slm] s (prkCtrl v s) := by
  unfold prkCtrl
  extract_lets +onlyGivenNames v0
  clear_value v0
  extract_lets +onlyGivenNames v2
  clear_value v2
  refine Within.ite (fun _ => ?_) (fun _ => ?_)
  · refine Within.step (doPrkVerify_within _ _ _) rfl ?_
    exact Within.refl _ _
  · refine Within.ite (fun _ => ?_) (fun _ => ?_)
    · refine Within.step (doPrkApply_within _ _ _) rfl ?_
      exact Within.refl _ _
    · refine Within.ite (fun _ => ?_) (fun _ => ?_)
      · refine Within.step (doPrkStore_within _ _ _) rfl ?_
        exact Within.refl _ _
      · refine Within.ite (fun _ => ?_) (fun _ => ?_)
        · refine Within.step (doPrkAbort_within _) rfl ?_
          exact Within.refl _ _
        · exact Within.refl _ _

theorem smgWrite_within (q r o v s) :
    Within [.out, .bus, .evt, .clk, .smg, .regs, .halves] s (smgWrite q r o v s) := by
  unfold smgWrite
  refine Within.ite (fun _ => ?_) (fun _ => ?_)
  · extract_lets +onlyGivenNames v0
    clear_value v0
    extract_lets +onlyGivenNames v2
    clear_value v2
    refine Within.ite (fun _ => ?_) (fun _ => ?_)
    · refine Within.step (doRingTailWrite_within _ _ _) rfl ?_
      exact Within.refl _ _
    · refine Within.ite (fun _ => ?_) (fun _ => ?_)
      · refine Within.step (doSmgRingCtrlWrite_within _ _ _ _ _) rfl ?_
        exact Within.refl _ _
      · exact Within.refl _ _
  · refine Within.step (plainWrite_within _ _ _ _ _ _) rfl ?_
    exact Within.refl _ _

theorem freeBit_within (s) :
    Within [.free] s (freeBit s).2 := by
  unfold freeBit
  split
  · rename_i w0 w1 w2 w3
    refine Within.cut (Within.ofEq w3 ?_) (fun h4 => ?_)
    · refine Within.step (takeFree_within _) rfl ?_
      exact Within.refl _ _
    refine Within.mkSnd ?_
    exact h4

theorem hrCtrl_within (v s) :
    Within [.free, .out, .bus, .evt, .clk, .cue, .trl, .flc] s (hrCtrl v s) := by
  unfold hrCtrl
  extract_lets +onlyGivenNames v0
  clear_value v0
  extract_lets +onlyGivenNames v2
  clear_value v2
  refine Within.ite (fun _ => ?_) (fun _ => ?_)
  · refine Within.step (doFlcEvacuate_within _ _) rfl ?_
    exact Within.refl _ _
  · refine Within.ite (fun _ => ?_) (fun _ => ?_)
    · refine Within.step (doFlcRemove_within _ _) rfl ?_
      exact Within.refl _ _
    · refine Within.ite (fun _ => ?_) (fun _ => ?_)
      · split
        · rename_i w4 w5 w6 w7 w8 w9 w10
          refine Within.cut (Within.ofEq w10 ?_) (fun h11 => ?_)
          · refine Within.step (takeFree_within _) rfl ?_
            exact Within.refl _ _
          refine Within.step (doFlcInsert_within _ _ _ _) rfl ?_
          exact h11
      · refine Within.ite (fun _ => ?_) (fun _ => ?_)
        · refine Within.step (doFlcCancel_within _ _) rfl ?_
          exact Within.refl _ _
        · refine Within.ite (fun _ => ?_) (fun _ => ?_)
          · split
            · rename_i w12 w13 w14 w15 w16 w17 w18 w19 w20
              refine Within.cut (Within.ofEq w20 ?_) (fun h21 => ?_)
              · refine Within.step (freeBit_within _) rfl ?_
                exact Within.refl _ _
              refine Within.step (doFlcResume_within _ _ _) rfl ?_
              exact h21
          · exact Within.refl _ _

theorem actCtrl_within (a v s) :
    Within [.out, .bus, .evt, .trl, .flc, .rch, .hop] s (actCtrl a v s) := by
  unfold actCtrl
  extract_lets +onlyGivenNames v0
  clear_value v0
  refine Within.ite (fun _ => ?_) (fun _ => ?_)
  · refine Within.step (doRchCalibrateL0_within _ _) rfl ?_
    exact Within.refl _ _
  · refine Within.ite (fun _ => ?_) (fun _ => ?_)
    · refine Within.step (doRchCalibrateL1_within _ _) rfl ?_
      exact Within.refl _ _
    · refine Within.ite (fun _ => ?_) (fun _ => ?_)
      · refine Within.step (doRchPark_within _ _) rfl ?_
        exact Within.refl _ _
      · refine Within.ite (fun _ => ?_) (fun _ => ?_)
        · refine Within.step (doRchResume_within _ _) rfl ?_
          exact Within.refl _ _
        · refine Within.ite (fun _ => ?_) (fun _ => ?_)
          · refine Within.step (doRchOffline_within _ _) rfl ?_
            exact Within.refl _ _
          · exact Within.refl _ _

theorem profCtrl_within (a v s) :
    Within [.hop] s (profCtrl a v s) := by
  unfold profCtrl
  extract_lets +onlyGivenNames v0
  clear_value v0
  refine Within.ite (fun _ => ?_) (fun _ => ?_)
  · refine Within.step (doHopProfileStart_within _ _ _) rfl ?_
    exact Within.refl _ _
  · refine Within.ite (fun _ => ?_) (fun _ => ?_)
    · refine Within.step (doHopProfileStop_within _ _) rfl ?_
      exact Within.refl _ _
    · exact Within.refl _ _

theorem slotCtrl_within (n v s) :
    Within [.out, .bus, .evt, .trl, .flc, .rch, .hop] s (slotCtrl n v s) := by
  unfold slotCtrl
  extract_lets +onlyGivenNames v0
  refine Within.cut (x := v0) ?_ (fun h1 => ?_)
  · subst v0
    refine Within.ite (fun _ => ?_) (fun _ => ?_)
    · exact Within.refl _ _
    · refine Within.ite (fun _ => ?_) (fun _ => ?_)
      · refine Within.step (doHopSlotEnable_within _ _) rfl ?_
        exact Within.refl _ _
      · refine Within.step (doHopSlotDisable_within _ _) rfl ?_
        exact Within.refl _ _
  · clear_value v0
    refine Within.step (doHopBankRequest_within _ _ _ _) rfl ?_
    exact h1

theorem profWrite_within (q o v s) :
    Within [.bus, .regs, .halves] s (profWrite q o v s) := by
  unfold profWrite
  refine Within.step (takeHigh_within _ _ _ _) rfl ?_
  exact Within.refl _ _

theorem hopWrite_within (q r o v s) :
    Within [.out, .bus, .evt, .clk, .trl, .flc, .rch, .hop, .regs, .halves] s (hopWrite q r o v s) := by
  unfold hopWrite
  refine Within.ite (fun _ => ?_) (fun _ => ?_)
  · refine Within.step (profCtrl_within _ _ _) rfl ?_
    exact Within.refl _ _
  · refine Within.ite (fun _ => ?_) (fun _ => ?_)
    · refine Within.step (slotCtrl_within _ _ _) rfl ?_
      exact Within.refl _ _
    · refine Within.ite (fun _ => ?_) (fun _ => ?_)
      · refine Within.step (doHopSetpointWrite_within _ _ _ _) rfl ?_
        exact Within.refl _ _
      · refine Within.ite (fun _ => ?_) (fun _ => ?_)
        · extract_lets +onlyGivenNames v0
          clear_value v0
          refine Within.step (doHopCoeffWrite_within _ _ _ _ _ _) rfl ?_
          exact Within.refl _ _
        · refine Within.ite (fun _ => ?_) (fun _ => ?_)
          · refine Within.step (profWrite_within _ _ _ _) rfl ?_
            exact Within.refl _ _
          · refine Within.step (plainWrite_within _ _ _ _ _ _) rfl ?_
            exact Within.refl _ _

theorem houseWrite_within (q r o v s) :
    Within [.free, .out, .bus, .evt, .prk, .clk, .cue, .dev, .hfe, .scn, .obj, .trl, .flc, .rch, .hop, .smg, .bob, .dmc, .tly, .scr,
      .saf, .dram, .slm, .regs, .halves] s (houseWrite q r o v s) := by
  unfold houseWrite
  extract_lets +onlyGivenNames v0
  refine Within.cutFun (f := v0) ?_ (fun h1 => ?_)
  · subst v0
    intro u2
    refine Within.step (plainWrite_within _ _ _ _ _ _) rfl ?_
    exact Within.refl _ _
  · clear_value v0
    split
    · rename_i w3 w4
      refine Within.ite (fun _ => ?_) (fun _ => ?_)
      · refine Within.step (devCtrl_within _ _) rfl ?_
        exact Within.refl _ _
      · refine Within.trans ?_ (h1 _)
        exact Within.refl _ _
    · rename_i w5 w6
      refine Within.ite (fun _ => ?_) (fun _ => ?_)
      · refine Within.step (prkCtrl_within _ _) rfl ?_
        exact Within.refl _ _
      · refine Within.ite (fun _ => ?_) (fun _ => ?_)
        · extract_lets +onlyGivenNames v7
          clear_value v7
          refine Within.step (setApplyCue_within _ _) rfl ?_
          refine Within.step (takeHigh_within _ _ _ _) rfl ?_
          exact Within.refl _ _
        · refine Within.ite (fun _ => ?_) (fun _ => ?_)
          · refine Within.step (doPrkApertureWrite_within _ _ _) rfl ?_
            exact Within.refl _ _
          · refine Within.trans ?_ (h1 _)
            exact Within.refl _ _
    · rename_i w9 w10
      refine Within.ite (fun _ => ?_) (fun _ => ?_)
      · refine Within.step (doCueCtrlWrite_within _ _) rfl ?_
        exact Within.refl _ _
      · refine Within.ite (fun _ => ?_) (fun _ => ?_)
        · refine Within.step (doCueStepWrite_within _ _ _) rfl ?_
          exact Within.refl _ _
        · refine Within.ite (fun _ => ?_) (fun _ => ?_)
          · refine Within.step (doCueRateAdjWrite_within _ _) rfl ?_
            exact Within.refl _ _
          · refine Within.ite (fun _ => ?_) (fun _ => ?_)
            · refine Within.step (doCueCalCtrl_within _ _) rfl ?_
              exact Within.refl _ _
            · refine Within.ite (fun _ => ?_) (fun _ => ?_)
              · refine Within.step (doCuePostCmd_within _ _) rfl ?_
                exact Within.refl _ _
              · refine Within.ite (fun _ => ?_) (fun _ => ?_)
                · refine Within.step (doCueCancelWrite_within _ _) rfl ?_
                  exact Within.refl _ _
                · refine Within.ite (fun _ => ?_) (fun _ => ?_)
                  · refine Within.step (doClkGateReqWrite_within _ _) rfl ?_
                    exact Within.refl _ _
                  · refine Within.trans ?_ (h1 _)
                    exact Within.refl _ _
    · rename_i w11 w12
      refine Within.ite (fun _ => ?_) (fun _ => ?_)
      · refine Within.step (doHfeNetCtrlWrite_within _ _) rfl ?_
        exact Within.refl _ _
      · refine Within.ite (fun _ => ?_) (fun _ => ?_)
        · refine Within.step (showNet_within _) rfl ?_
          refine Within.trans ?_ (h1 _)
          exact Within.refl _ _
        · refine Within.trans ?_ (h1 _)
          exact Within.refl _ _
    · rename_i w13 w14
      refine Within.step (smgWrite_within _ _ _ _ _) rfl ?_
      exact Within.refl _ _
    · rename_i w15 w16
      refine Within.ite (fun _ => ?_) (fun _ => ?_)
      · refine Within.step (doBobRetire_within _ _) rfl ?_
        exact Within.refl _ _
      · refine Within.trans ?_ (h1 _)
        exact Within.refl _ _
    · rename_i w17 w18
      refine Within.ite (fun _ => ?_) (fun _ => ?_)
      · refine Within.step (doCbdCursorWrite_within _ _ _) rfl ?_
        exact Within.refl _ _
      · refine Within.trans ?_ (h1 _)
        exact Within.refl _ _
    · rename_i w19 w20
      refine Within.ite (fun _ => ?_) (fun _ => ?_)
      · refine Within.ite (fun _ => ?_) (fun _ => ?_)
        · refine Within.step (doScrSlotErase_within _) rfl ?_
          exact Within.refl _ _
        · exact Within.refl _ _
      · refine Within.trans ?_ (h1 _)
        exact Within.refl _ _
    · rename_i w21 w22
      refine Within.ite (fun _ => ?_) (fun _ => ?_)
      · refine Within.step (doTrlCkptCtrl_within _ _) rfl ?_
        exact Within.refl _ _
      · refine Within.trans ?_ (h1 _)
        exact Within.refl _ _
    · rename_i w23 w24
      refine Within.ite (fun _ => ?_) (fun _ => ?_)
      · refine Within.step (hrCtrl_within _ _) rfl ?_
        exact Within.refl _ _
      · refine Within.trans ?_ (h1 _)
        exact Within.refl _ _
    · rename_i w25 w26
      refine Within.ite (fun _ => ?_) (fun _ => ?_)
      · refine Within.step (actCtrl_within _ _ _) rfl ?_
        exact Within.refl _ _
      · refine Within.ite (fun _ => ?_) (fun _ => ?_)
        · refine Within.step (doRchPaCmd_within _ _ _) rfl ?_
          exact Within.refl _ _
        · refine Within.trans ?_ (h1 _)
          exact Within.refl _ _
    · rename_i w27 w28
      refine Within.step (hopWrite_within _ _ _ _ _) rfl ?_
      exact Within.refl _ _
    · rename_i w29 w30
      refine Within.ite (fun _ => ?_) (fun _ => ?_)
      · refine Within.step (doMlkCmd_within _ _) rfl ?_
        exact Within.refl _ _
      · refine Within.ite (fun _ => ?_) (fun _ => ?_)
        · refine Within.step (doMlkResync_within _ _) rfl ?_
          exact Within.refl _ _
        · refine Within.trans ?_ (h1 _)
          exact Within.refl _ _
    · rename_i w31 w32
      refine Within.ite (fun _ => ?_) (fun _ => ?_)
      · refine Within.ite (fun _ => ?_) (fun _ => ?_)
        · refine Within.step (doDmcFreqToA_within _) rfl ?_
          exact Within.refl _ _
        · refine Within.ite (fun _ => ?_) (fun _ => ?_)
          · refine Within.step (doDmcFreqToB_within _) rfl ?_
            exact Within.refl _ _
          · exact Within.refl _ _
      · refine Within.ite (fun _ => ?_) (fun _ => ?_)
        · refine Within.ite (fun _ => ?_) (fun _ => ?_)
          · refine Within.step (doDmcRetire_within _ _) rfl ?_
            exact Within.refl _ _
          · exact Within.refl _ _
        · refine Within.trans ?_ (h1 _)
          exact Within.refl _ _
    · rename_i w33 w34
      refine Within.ite (fun _ => ?_) (fun _ => ?_)
      · refine Within.step (doSmpCursorWrite_within _ _ _) rfl ?_
        exact Within.refl _ _
      · refine Within.trans ?_ (h1 _)
        exact Within.refl _ _
    · rename_i w35 w36 w37 w38 w39 w40 w41 w42 w43 w44 w45 w46 w47 w48 w49 w50
      refine Within.trans ?_ (h1 _)
      exact Within.refl _ _

theorem arcCtrl_within (tag v s) :
    Within [.free, .obj] s (arcCtrl tag v s) := by
  unfold arcCtrl
  extract_lets +onlyGivenNames v0
  clear_value v0
  refine Within.ite (fun _ => ?_) (fun _ => ?_)
  · refine Within.step (doArcExport_within _ _) rfl ?_
    exact Within.refl _ _
  · refine Within.ite (fun _ => ?_) (fun _ => ?_)
    · split
      · rename_i w2 w3 w4 w5 w6 w7
        refine Within.cut (Within.ofEq w7 ?_) (fun h8 => ?_)
        · refine Within.step (freeBit_within _) rfl ?_
          exact Within.refl _ _
        split
        · rename_i w9 w10 w11 w12
          refine Within.cut (Within.ofEq w12 ?_) (fun h13 => ?_)
          · refine Within.step (freeBit_within _) rfl ?_
            exact h8
          refine Within.step (doArcImport_within _ _ _) rfl ?_
          exact h13
    · refine Within.ite (fun _ => ?_) (fun _ => ?_)
      · refine Within.step (doArcAbort_within _ _) rfl ?_
        exact Within.refl _ _
      · refine Within.ite (fun _ => ?_) (fun _ => ?_)
        · refine Within.step (doArcProvenance_within _ _) rfl ?_
          exact Within.refl _ _
        · exact Within.refl _ _

theorem keyCmd_within (tag v s) :
    Within [.free, .out, .bus, .evt, .cue, .hfe, .scn, .obj, .trl, .flc, .smg, .bob, .dmc, .tly, .scr, .saf, .dram, .slm] s (keyCmd
      tag v s) := by
  unfold keyCmd
  extract_lets +onlyGivenNames v0
  clear_value v0
  refine Within.ite (fun _ => ?_) (fun _ => ?_)
  · refine Within.step (doTwKeyDeriveMac_within _ _ _) rfl ?_
    exact Within.refl _ _
  · refine Within.ite (fun _ => ?_) (fun _ => ?_)
    · refine Within.step (doTwKeyDeriveCmac_within _ _ _) rfl ?_
      exact Within.refl _ _
    · refine Within.ite (fun _ => ?_) (fun _ => ?_)
      · refine Within.step (doTwKeyErase_within _ _) rfl ?_
        exact Within.refl _ _
      · exact Within.refl _ _

theorem tenantWrite_within (q tag r o v s) :
    Within [.free, .out, .bus, .evt, .clk, .cue, .hfe, .scn, .obj, .trl, .flc, .smg, .bob, .dmc, .tly, .scr, .saf, .dram, .slm,
      .regs, .halves] s (tenantWrite q tag r o v s) := by
  unfold tenantWrite
  extract_lets +onlyGivenNames v0
  clear_value v0
  extract_lets +onlyGivenNames v2
  clear_value v2
  refine Within.ite (fun _ => ?_) (fun _ => ?_)
  · refine Within.ite (fun _ => ?_) (fun _ => ?_)
    · refine Within.step (doTwTlyStart_within _ _ _ _) rfl ?_
      exact Within.refl _ _
    · refine Within.ite (fun _ => ?_) (fun _ => ?_)
      · refine Within.step (doTwTlyAbort_within _ _ _) rfl ?_
        exact Within.refl _ _
      · exact Within.refl _ _
  · refine Within.ite (fun _ => ?_) (fun _ => ?_)
    · refine Within.step (holdLow_within _ _ _ _) rfl ?_
      exact Within.refl _ _
    · refine Within.ite (fun _ => ?_) (fun _ => ?_)
      · refine Within.step (doTwTlyDataHi_within _ _ _ _ _) rfl ?_
        exact Within.refl _ _
      · refine Within.ite (fun _ => ?_) (fun _ => ?_)
        · refine Within.step (doTwTlyLastVb_within _ _ _ _) rfl ?_
          exact Within.refl _ _
        · refine Within.ite (fun _ => ?_) (fun _ => ?_)
          · refine Within.step (doTwTlyPrCursorWrite_within _ _ _ _) rfl ?_
            exact Within.refl _ _
          · refine Within.ite (fun _ => ?_) (fun _ => ?_)
            · refine Within.step (doTwCbCursorWrite_within _ _ _ _) rfl ?_
              exact Within.refl _ _
            · refine Within.ite (fun _ => ?_) (fun _ => ?_)
              · refine Within.step (doTwSmpCursorWrite_within _ _ _ _) rfl ?_
                exact Within.refl _ _
              · refine Within.ite (fun _ => ?_) (fun _ => ?_)
                · split
                  · rename_i w4 w5 w6 w7 w8 w9 w10 w11 w12 w13 w14
                    refine Within.step (doTwEvtCtrlWrite_within _ _ _ _) rfl ?_
                    exact Within.refl _ _
                  · rename_i w15 w16 w17 w18 w19 w20 w21 w22 w23 w24
                    refine Within.step (storeRw_within _ _ _ _) rfl ?_
                    exact Within.refl _ _
                · refine Within.ite (fun _ => ?_) (fun _ => ?_)
                  · refine Within.step (arcCtrl_within _ _ _) rfl ?_
                    exact Within.refl _ _
                  · refine Within.ite (fun _ => ?_) (fun _ => ?_)
                    · refine Within.step (keyCmd_within _ _ _) rfl ?_
                      exact Within.refl _ _
                    · refine Within.step (plainWrite_within _ _ _ _ _ _) rfl ?_
                      exact Within.refl _ _

theorem writeReg_within (q w o v s) :
    Within [.free, .out, .bus, .evt, .prk, .clk, .cue, .dev, .hfe, .scn, .obj, .trl, .flc, .rch, .hop, .smg, .bob, .dmc, .tly, .scr,
      .saf, .dram, .slm, .regs, .halves] s (writeReg q w o v s) := by
  unfold writeReg
  refine Within.ite (fun _ => ?_) (fun _ => ?_)
  · exact Within.refl _ _
  · split
    · rename_i w0 w1 w2
      exact Within.refl _ _
    · rename_i w3 w4 w5 w6
      refine Within.ite (fun _ => ?_) (fun _ => ?_)
      · exact Within.refl _ _
      · refine Within.ite (fun _ => ?_) (fun _ => ?_)
        · refine Within.step (rwlWrite_within _ _ _ _) rfl ?_
          exact Within.refl _ _
        · split
          · rename_i w7 w8 w9
            refine Within.step (houseWrite_within _ _ _ _ _) rfl ?_
            exact Within.refl _ _
          · rename_i w10 w11 w12 w13
            refine Within.step (tenantWrite_within _ _ _ _ _ _) rfl ?_
            exact Within.refl _ _

theorem doHighWordWrite_within (q w off val s) :
    Within [.free, .out, .bus, .evt, .prk, .clk, .cue, .dev, .hfe, .scn, .obj, .trl, .flc, .rch, .hop, .smg, .bob, .dmc, .tly, .scr,
      .saf, .dram, .slm, .regs, .halves] s (doHighWordWrite q w off val s) := by
  unfold doHighWordWrite
  refine Within.trans ?_ (onlyIf_within (by exact rfl) ?_)
  · exact Within.refl _ _
  · intro u0
    refine Within.step (writeReg_within _ _ _ _ _) rfl ?_
    exact Within.refl _ _

theorem readSplit_within {l} (hF : Sub [] l) {word off size s} (hk0 : ∀ x0 u, Within l u (word x0 u).2) :
    Within l s (readSplit word off size s).2 := by
  unfold readSplit
  refine Within.iteSnd (fun _ => ?_) (fun _ => ?_)
  · split
    · rename_i w0 w1 w2 w3 w4
      refine Within.cut (Within.ofEq w4 ?_) (fun h5 => ?_)
      · refine Within.trans ?_ (hk0 _ _)
        exact Within.refl _ _
      refine Within.mkSnd ?_
      exact h5
  · refine Within.iteSnd (fun _ => ?_) (fun _ => ?_)
    · split
      · rename_i w6 w7 w8 w9 w10 w11
        refine Within.cut (Within.ofEq w11 ?_) (fun h12 => ?_)
        · refine Within.trans ?_ (hk0 _ _)
          exact Within.refl _ _
        split
        · rename_i w13 w14 w15 w16
          refine Within.cut (Within.ofEq w16 ?_) (fun h17 => ?_)
          · refine Within.trans ?_ (hk0 _ _)
            exact h12
          refine Within.mkSnd ?_
          exact h17
    · refine Within.mkSnd ?_
      exact Within.refl _ _

theorem latchHigh_within (q key hi s) :
    Within [.bus, .halves] s (latchHigh q key hi s) := by
  unfold latchHigh
  refine Within.upd ?_ (by constructor <;> first | exact .inl rfl | exact .inr rfl | exact Nat.le_refl _ | exact List.suffix_refl _ | exact id | exact Nat.le_add_right _ _ | exact .inr ⟨rfl, rfl⟩ | exact memWrite_wf | exact memErase_wf | exact Nat.le_of_eq (closeAllPages_next _).symm)
  exact Within.refl _ _

theorem useLatch_within (q key s) :
    Within [.bus, .halves] s (useLatch q key s) := by
  unfold useLatch
  refine Within.upd ?_ (by constructor <;> first | exact .inl rfl | exact .inr rfl | exact Nat.le_refl _ | exact List.suffix_refl _ | exact id | exact Nat.le_add_right _ _ | exact .inr ⟨rfl, rfl⟩ | exact memWrite_wf | exact memErase_wf | exact Nat.le_of_eq (closeAllPages_next _).symm)
  exact Within.refl _ _

theorem clearWrLost_within (w o s) :
    Within [.hop] s (clearWrLost w o s) := by
  unfold clearWrLost
  refine Within.ite (fun _ => ?_) (fun _ => ?_)
  · refine Within.step (onSlot_within _ _ _) rfl ?_
    exact Within.refl _ _
  · exact Within.refl _ _

theorem readReg_within (q w o upd s) :
    Within [.bus, .hop, .halves] s (readReg q w o upd s).2 := by
  unfold readReg
  refine Within.iteSnd (fun _ => ?_) (fun _ => ?_)
  · refine Within.mkSnd ?_
    exact Within.refl _ _
  · split
    · rename_i w0 w1 w2
      refine Within.mkSnd ?_
      exact Within.refl _ _
    · rename_i w3 w4 w5 w6
      extract_lets +onlyGivenNames v7
      clear_value v7
      extract_lets +onlyGivenNames v9
      clear_value v9
      refine Within.iteSnd (fun _ => ?_) (fun _ => ?_)
      · refine Within.mkSnd ?_
        refine Within.step (clearRc_within _ _ _ _) rfl ?_
        exact Within.refl _ _
      · refine Within.iteSnd (fun _ => ?_) (fun _ => ?_)
        · refine Within.mkSnd ?_
          refine Within.step (latchHigh_within _ _ _ _) rfl ?_
          exact Within.refl _ _
        · split
          · rename_i w11 w12 w13 w14 w15
            split
            · rename_i w16 w17 w18
              refine Within.mkSnd ?_
              refine Within.step (useLatch_within _ _ _) rfl ?_
              exact Within.refl _ _
            · rename_i w19 w20
              refine Within.mkSnd ?_
              exact Within.refl _ _
          · rename_i w21 w22 w23 w24
            refine Within.mkSnd ?_
            refine Within.step (clearWrLost_within _ _ _) rfl ?_
            exact Within.refl _ _

theorem readWindow_within (q w off size upd s) :
    Within [.bus, .hop, .halves] s (readWindow q w off size upd s).2 := by
  unfold readWindow
  refine Within.trans ?_ (readSplit_within (by exact rfl) ?_)
  · exact Within.refl _ _
  · intro u0
    intro u1
    refine Within.step (readReg_within _ _ _ _ _) rfl ?_
    exact Within.refl _ _

theorem doReadClear_within (q w off size upd s) :
    Within [.bus, .hop, .halves] s (doReadClear q w off size upd s) := by
  unfold doReadClear
  split
  · rename_i w0 w1 w2 w3
    refine Within.cut (Within.ofEq w3 ?_) (fun h4 => ?_)
    · refine Within.step (readWindow_within _ _ _ _ _ _) rfl ?_
      exact Within.refl _ _
    refine Within.step (returnRead_within _ _ _) rfl ?_
    exact h4

theorem writeSplit_within {l} (hF : Sub [] l) {word off size val s} (hk0 : ∀ x0 x1 u, Within l u (word x0 x1 u)) :
    Within l s (writeSplit word off size val s) := by
  unfold writeSplit
  refine Within.ite (fun _ => ?_) (fun _ => ?_)
  · refine Within.trans ?_ (hk0 _ _ _)
    exact Within.refl _ _
  · refine Within.ite (fun _ => ?_) (fun _ => ?_)
    · refine Within.trans ?_ (hk0 _ _ _)
      refine Within.trans ?_ (hk0 _ _ _)
      exact Within.refl _ _
    · exact Within.refl _ _

theorem writeWindow_within (q w off size val s) :
    Within [.free, .out, .bus, .evt, .prk, .clk, .cue, .dev, .hfe, .scn, .obj, .trl, .flc, .rch, .hop, .smg, .bob, .dmc, .tly, .scr,
      .saf, .dram, .slm, .regs, .halves] s (writeWindow q w off size val s) := by
  unfold writeWindow
  refine Within.trans ?_ (writeSplit_within (by exact rfl) ?_)
  · exact Within.refl _ _
  · intro u0
    intro u1
    intro u2
    refine Within.step (writeReg_within _ _ _ _ _) rfl ?_
    exact Within.refl _ _

theorem doRegisterWrite_within (q w off size val s) :
    Within [.free, .out, .bus, .evt, .prk, .clk, .cue, .dev, .hfe, .scn, .obj, .trl, .flc, .rch, .hop, .smg, .bob, .dmc, .tly, .scr,
      .saf, .dram, .slm, .regs, .halves] s (doRegisterWrite q w off size val s) := by
  unfold doRegisterWrite
  refine Within.step (writeWindow_within _ _ _ _ _ _) rfl ?_
  exact Within.refl _ _

theorem doHighWordRead_within (q w off s) :
    Within [.bus, .hop, .halves] s (doHighWordRead q w off s) := by
  unfold doHighWordRead
  refine Within.ite (fun _ => ?_) (fun _ => ?_)
  · split
    · rename_i w0 w1 w2 w3 w4
      refine Within.cut (Within.ofEq w4 ?_) (fun h5 => ?_)
      · refine Within.step (readReg_within _ _ _ _ _) rfl ?_
        exact Within.refl _ _
      refine Within.step (returnRead_within _ _ _) rfl ?_
      exact h5
  · exact Within.refl _ _

theorem doLowWordWrite_within (q w off val s) :
    Within [.free, .out, .bus, .evt, .prk, .clk, .cue, .dev, .hfe, .scn, .obj, .trl, .flc, .rch, .hop, .smg, .bob, .dmc, .tly, .scr,
      .saf, .dram, .slm, .regs, .halves] s (doLowWordWrite q w off val s) := by
  unfold doLowWordWrite
  refine Within.trans ?_ (onlyIf_within (by exact rfl) ?_)
  · exact Within.refl _ _
  · intro u0
    refine Within.step (writeReg_within _ _ _ _ _) rfl ?_
    exact Within.refl _ _

theorem doLowWordRead_within (q w off s) :
    Within [.bus, .hop, .halves] s (doLowWordRead q w off s) := by
  unfold doLowWordRead
  refine Within.ite (fun _ => ?_) (fun _ => ?_)
  · split
    · rename_i w0 w1 w2 w3 w4
      refine Within.cut (Within.ofEq w4 ?_) (fun h5 => ?_)
      · refine Within.step (readReg_within _ _ _ _ _) rfl ?_
        exact Within.refl _ _
      refine Within.step (returnRead_within _ _ _) rfl ?_
      exact h5
  · exact Within.refl _ _

end Sys2Proof.Machine
end

