-- ==== Sys2Proof/Laws/FrameManage.lean ====
section
/-! SUPPORT. What each operation of Machine/Manage.lean may change, and what it keeps. -/
namespace Sys2Proof.Machine

theorem takePiece_within (offset img s) :
    Within [.scn] s (takePiece offset img s) := by
  unfold takePiece
  extract_lets +onlyGivenNames v0
  clear_value v0
  refine Within.scn rfl ?_
  exact Within.refl _ _

theorem doFirmwareImageDownload_within (h offset img s) :
    Within [.free, .out, .bus, .evt, .cue, .hfe, .scn, .obj, .trl, .flc, .smg, .bob, .tly, .scr, .slm] s (doFirmwareImageDownload h
      offset img s) := by
  unfold doFirmwareImageDownload
  refine Within.trans ?_ (fetched_within (by exact rfl) ?_)
  · exact Within.refl _ _
  · intro u0
    refine Within.step (endAtOnce_within _ _ _ _ _) rfl ?_
    refine Within.step (takePiece_within _ _ _) rfl ?_
    exact Within.refl _ _

theorem answerMi_within (p) :
    Within [.out] p.2 (answerMi p) := by
  unfold answerMi
  split
  · rename_i w0 w1 w2
    refine Within.step (emit_within _ _) rfl ?_
    exact Within.refl _ _
  · rename_i w3 w4
    exact Within.refl _ _

theorem extendKeepAlive_within (ns s) :
    Within [.hfe] s (extendKeepAlive ns s) := by
  unfold extendKeepAlive
  refine Within.hfe rfl ?_
  exact Within.refl _ _

theorem tunnel_within {s t : State} (h : tunnel s = some t) : Within [.scn] s t := by
  unfold tunnel at h
  split at h
  · split at h
    · simp only [Option.some.injEq] at h
      subst h
      exact Within.step (onSq_within _ _ _ _) rfl (Within.refl _ _)
    · cases h
  · cases h

theorem activationNotice_within (s) :
    Within [.evt] s (activationNotice s) := by
  unfold activationNotice
  refine Within.foldl (fun u0 a1 => ?_) ?_
  · refine Within.ite (fun _ => ?_) (fun _ => ?_)
    · refine Within.step (standardAen_within _ _ _ _ _) rfl ?_
      exact Within.refl _ _
    · exact Within.refl _ _
  · exact Within.refl _ _

theorem beginActivation_within (o slot x s) :
    Within [.evt, .scn, .saf] s (beginActivation o slot x s) := by
  unfold beginActivation
  extract_lets +onlyGivenNames v0
  refine Within.cut (x := v0) ?_ (fun h1 => ?_)
  · subst v0
    refine Within.step (activationNotice_within _) rfl ?_
    exact Within.refl _ _
  · clear_value v0
    extract_lets +onlyGivenNames v2
    refine Within.cut (x := v2) ?_ (fun h3 => ?_)
    · subst v2
      refine Within.ite (fun _ => ?_) (fun _ => ?_)
      · refine Within.step (onSaf_within _ _) rfl ?_
        exact h1
      · exact h1
    · clear_value v2
      refine Within.scn rfl ?_
      exact h3

theorem commitSlot_within (action slot s) :
    Within [.dev, .scn] s (commitSlot action slot s).2 := by
  unfold commitSlot
  refine Within.iteSnd (fun _ => ?_) (fun _ => ?_)
  · refine Within.mkSnd ?_
    exact Within.refl _ _
  · refine Within.iteSnd (fun _ => ?_) (fun _ => ?_)
    · refine Within.mkSnd ?_
      exact Within.refl _ _
    · refine Within.iteSnd (fun _ => ?_) (fun _ => ?_)
      · refine Within.iteSnd (fun _ => ?_) (fun _ => ?_)
        · refine Within.mkSnd ?_
          refine Within.step (writeBoot_within _ _) rfl ?_
          exact Within.refl _ _
        · refine Within.mkSnd ?_
          exact Within.refl _ _
      · split
        · rename_i w0 w1 w2 w3 w4
          refine Within.mkSnd ?_
          exact Within.refl _ _
        · rename_i w5 w6 w7 w8 w9 w10
          refine Within.iteSnd (fun _ => ?_) (fun _ => ?_)
          · refine Within.mkSnd ?_
            exact Within.refl _ _
          · extract_lets +onlyGivenNames v11
            refine Within.cut (x := v11) ?_ (fun h12 => ?_)
            · subst v11
              refine Within.onDev rfl ?_ (.inr rfl) (Nat.le_refl _)
              exact Within.refl _ _
            · clear_value v11
              extract_lets +onlyGivenNames v13
              clear_value v13
              extract_lets +onlyGivenNames v15
              refine Within.cut (x := v15) ?_ (fun h16 => ?_)
              · subst v15
                refine Within.scn rfl ?_
                exact h12
              · clear_value v15
                refine Within.mkSnd ?_
                refine Within.ite (fun _ => ?_) (fun _ => ?_)
                · refine Within.step (writeBoot_within _ _) rfl ?_
                  exact h16
                · exact h16

theorem serveMi_within (b s) :
    Within [.free, .out, .bus, .evt, .prk, .clk, .cue, .dev, .hfe, .scn, .obj, .trl, .flc, .rch, .hop, .smg, .bob, .dmc, .tly, .scr,
      .saf, .dram, .slm, .regs, .halves] s (serveMi b s).2 := by
  unfold serveMi
  extract_lets +onlyGivenNames v0
  refine Within.cutSnd (x := v0) ?_ (fun h1 => ?_)
  · subst v0
    refine Within.mkSnd ?_
    refine Within.step (raiseObj_within _ _ _ _) rfl ?_
    exact Within.refl _ _
  · clear_value v0
    extract_lets +onlyGivenNames v2
    clear_value v2
    split
    · rename_i w4
      refine Within.mkSnd ?_
      exact Within.refl _ _
    · rename_i w5 w6
      refine Within.mkSnd ?_
      refine Within.hfe rfl ?_
      exact Within.refl _ _
    · rename_i w7 w8 w9
      split
      · rename_i w10 w11 w12 w13
        refine Within.cut (Within.ofEq w13 ?_) (fun h14 => ?_)
        · refine Within.step (readWindow_within _ _ _ _ _ _) rfl ?_
          exact Within.refl _ _
        refine Within.mkSnd ?_
        exact h14
    · rename_i w15 w16 w17 w18
      refine Within.mkSnd ?_
      refine Within.step (writeWindow_within _ _ _ _ _ _) rfl ?_
      exact Within.refl _ _
    · rename_i w19 w20
      refine Within.mkSnd ?_
      refine Within.step (doSpdmRequest_within _ _) rfl ?_
      exact Within.refl _ _
    · rename_i w21 w22 w23
      refine Within.iteSnd (fun _ => ?_) (fun _ => ?_)
      · exact h1
      · refine Within.iteSnd (fun _ => ?_) (fun _ => ?_)
        · refine Within.mkSnd ?_
          exact Within.refl _ _
        · split
          · rename_i w24 w25 w26 w27 w28
            refine Within.cut (Within.step (tunnel_within w28) rfl ?_) (fun h29 => ?_)
            · exact Within.refl _ _
            refine Within.mkSnd ?_
            exact h29
          · rename_i w30 w31 w32 w33
            refine Within.mkSnd ?_
            exact Within.refl _ _
    · rename_i w35 w36 w37 w38
      refine Within.iteSnd (fun _ => ?_) (fun _ => ?_)
      · exact h1
      · refine Within.iteSnd (fun _ => ?_) (fun _ => ?_)
        · refine Within.mkSnd ?_
          exact Within.refl _ _
        · refine Within.mkSnd ?_
          refine Within.step (takePiece_within _ _ _) rfl ?_
          exact Within.refl _ _
    · rename_i w39 w40 w41 w42
      refine Within.iteSnd (fun _ => ?_) (fun _ => ?_)
      · exact h1
      · refine Within.iteSnd (fun _ => ?_) (fun _ => ?_)
        · refine Within.mkSnd ?_
          exact Within.refl _ _
        · refine Within.iteSnd (fun _ => ?_) (fun _ => ?_)
          · split
            · rename_i w43 w44 w45 w46 w47
              refine Within.mkSnd ?_
              exact Within.refl _ _
            · rename_i w48 w49 w50 w51 w52 w53
              refine Within.mkSnd ?_
              refine Within.step (beginActivation_within _ _ _ _) rfl ?_
              exact Within.refl _ _
          · split
            · rename_i w54 w55 w56 w57 w58 w59 w60
              refine Within.cut (Within.ofEq w60 ?_) (fun h61 => ?_)
              · refine Within.step (commitSlot_within _ _ _) rfl ?_
                exact Within.refl _ _
              refine Within.mkSnd ?_
              exact h61

theorem checkMi_within (m s) :
    Within [.free, .out, .bus, .evt, .prk, .clk, .cue, .dev, .hfe, .scn, .obj, .trl, .flc, .rch, .hop, .smg, .bob, .dmc, .tly, .scr,
      .saf, .dram, .slm, .regs, .halves] s (checkMi m s).2 := by
  unfold checkMi
  refine Within.iteSnd (fun _ => ?_) (fun _ => ?_)
  · refine Within.mkSnd ?_
    refine Within.step (raiseObj_within _ _ _ _) rfl ?_
    exact Within.refl _ _
  · refine Within.iteSnd (fun _ => ?_) (fun _ => ?_)
    · refine Within.mkSnd ?_
      refine Within.step (raiseObj_within _ _ _ _) rfl ?_
      exact Within.refl _ _
    · refine Within.step (serveMi_within _ _) rfl ?_
      exact Within.refl _ _

theorem serveHeld_within (a0 a1) :
    Within [.free, .out, .bus, .evt, .prk, .clk, .cue, .dev, .hfe, .scn, .obj, .trl, .flc, .rch, .hop, .smg, .bob, .dmc, .tly, .scr,
      .saf, .dram, .slm, .regs, .halves] a1 (serveHeld a0 a1) := by
  fun_induction serveHeld a0 a1
  · rename_i r0
    exact Within.refl _ _
  · rename_i r0 r1 r2 r3
    refine Within.scn rfl ?_
    exact Within.refl _ _
  · rename_i r0 r1 r2 r3 r4
    refine Within.trans ?_ (r4 )
    refine Within.step (answerMi_within _) rfl ?_
    refine Within.step (checkMi_within _ _) rfl ?_
    exact Within.refl _ _

theorem finishActivation_within (a st s) :
    Within [.free, .out, .bus, .evt, .prk, .clk, .cue, .dev, .hfe, .scn, .obj, .trl, .flc, .rch, .hop, .smg, .bob, .dmc, .tly, .scr,
      .saf, .dram, .slm, .regs, .halves] s (finishActivation a st s) := by
  unfold finishActivation
  extract_lets +onlyGivenNames v0
  clear_value v0
  extract_lets +onlyGivenNames v2
  clear_value v2
  extract_lets +onlyGivenNames v4
  refine Within.cut (x := v4) ?_ (fun h5 => ?_)
  · subst v4
    refine Within.scn rfl ?_
    exact Within.refl _ _
  · clear_value v4
    extract_lets +onlyGivenNames v6
    refine Within.cut (x := v6) ?_ (fun h7 => ?_)
    · subst v6
      refine Within.step (extendKeepAlive_within _ _) rfl ?_
      exact h5
    · clear_value v6
      extract_lets +onlyGivenNames v8
      refine Within.cut (x := v8) ?_ (fun h9 => ?_)
      · subst v8
        split
        · rename_i w10 w11 w12
          refine Within.ite (fun _ => ?_) (fun _ => ?_)
          · refine Within.step (retire_within _ _ _ _) rfl ?_
            exact h7
          · refine Within.step (rollBack_within _ _ _) rfl ?_
            exact h7
        · rename_i w13 w14
          refine Within.step (emit_within _ _) rfl ?_
          exact h7
      · clear_value v8
        refine Within.step (serveHeld_within _ _) rfl ?_
        refine Within.step (goOn_within _) rfl ?_
        exact h9

theorem doActivationTimeout_within (s) :
    Within [.free, .out, .bus, .evt, .prk, .clk, .cue, .dev, .hfe, .scn, .obj, .trl, .flc, .rch, .hop, .smg, .bob, .dmc, .tly, .scr,
      .saf, .dram, .slm, .regs, .halves] s (doActivationTimeout s) := by
  unfold doActivationTimeout
  split
  · rename_i w0 w1
    exact Within.refl _ _
  · rename_i w2 w3 w4
    refine Within.ite (fun _ => ?_) (fun _ => ?_)
    · exact Within.refl _ _
    · refine Within.step (finishActivation_within _ _ _) rfl ?_
      refine Within.scn rfl ?_
      exact Within.refl _ _

theorem takeImage_within (slot x s) :
    Within [.dev, .saf] s (takeImage slot x s) := by
  unfold takeImage
  extract_lets s1 perf s2 s3
  have h1 : Within [.dev, .saf] s s1 := Within.onDev rfl (Within.refl _ _) (.inr rfl) (Nat.le_refl _)
  have h2 : Within [.dev, .saf] s s2 := Within.step (writeBoot_within _ _) rfl h1
  have h3 : Within [.dev, .saf] s s3 :=
    Within.ite (fun _ => Within.onDev rfl h2 (.inr rfl) (Nat.le_max_left _ _)) (fun _ => h2)
  clear_value s3
  exact Within.ite (fun _ => Within.step (startSwitch_within _ _) rfl h3) (fun _ => h3)

theorem doFirmwareActivationSwitch_within (s) :
    Within [.free, .out, .bus, .evt, .prk, .clk, .cue, .dev, .hfe, .scn, .obj, .trl, .flc, .rch, .hop, .smg, .bob, .dmc, .tly, .scr,
      .saf, .dram, .slm, .regs, .halves] s (doFirmwareActivationSwitch s) := by
  unfold doFirmwareActivationSwitch
  split
  · rename_i w0 w1
    exact Within.refl _ _
  · rename_i w2 w3 w4
    refine Within.ite (fun _ => ?_) (fun _ => ?_)
    · exact Within.refl _ _
    · split
      · rename_i w5 w6 w7
        refine Within.step (finishActivation_within _ _ _) rfl ?_
        exact Within.refl _ _
      · rename_i w8 w9 w10 w11
        refine Within.ite (fun _ => ?_) (fun _ => ?_)
        · refine Within.step (finishActivation_within _ _ _) rfl ?_
          exact Within.refl _ _
        · refine Within.step (finishActivation_within _ _ _) rfl ?_
          refine Within.step (takeImage_within _ _ _) rfl ?_
          exact Within.refl _ _

theorem doFirmwareCommit_within (h action slot s) :
    Within [.free, .out, .bus, .evt, .cue, .dev, .hfe, .scn, .obj, .trl, .flc, .smg, .bob, .tly, .scr, .slm] s (doFirmwareCommit h
      action slot s) := by
  unfold doFirmwareCommit
  refine Within.trans ?_ (fetched_within (by exact rfl) ?_)
  · exact Within.refl _ _
  · intro u0
    split
    · rename_i w1 w2 w3 w4
      refine Within.cut (Within.ofEq w4 ?_) (fun h5 => ?_)
      · refine Within.step (commitSlot_within _ _ _) rfl ?_
        exact Within.refl _ _
      refine Within.step (endAtOnce_within _ _ _ _ _) rfl ?_
      exact h5

theorem barRead_within (port fn bar off size s) :
    Within [.bus, .hop, .halves] s (barRead port fn bar off size s).2 := by
  unfold barRead
  refine Within.iteSnd (fun _ => ?_) (fun _ => ?_)
  · refine Within.trans ?_ (readSplit_within (by exact rfl) ?_)
    · exact Within.refl _ _
    · intro u0
      intro u1
      refine Within.mkSnd ?_
      exact Within.refl _ _
  · refine Within.iteSnd (fun _ => ?_) (fun _ => ?_)
    · split
      · rename_i w2 w3 w4 w5 w6
        refine Within.step (readWindow_within _ _ _ _ _ _) rfl ?_
        exact Within.refl _ _
      · rename_i w7 w8 w9 w10
        refine Within.mkSnd ?_
        exact Within.refl _ _
    · refine Within.step (readWindow_within _ _ _ _ _ _) rfl ?_
      exact Within.refl _ _

theorem unsupported_within (port fn s) :
    Within [.out, .bus, .evt] s (unsupported port fn s) := by
  unfold unsupported
  refine Within.step (emit_within _ _) rfl ?_
  refine Within.step (emit_within _ _) rfl ?_
  refine Within.step (raiseObj_within _ _ _ _) rfl ?_
  exact Within.refl _ _

theorem bar0Write_within (port fn off v s) :
    Within [.free, .out, .bus, .evt, .cue, .hfe, .scn, .obj, .trl, .flc, .smg, .bob, .tly, .scr, .slm] s (bar0Write port fn off v s)
      := by
  unfold bar0Write
  extract_lets +onlyGivenNames v0
  clear_value v0
  extract_lets +onlyGivenNames v2
  refine Within.cut (x := v2) ?_ (fun h3 => ?_)
  · subst v2
    refine Within.hfe rfl ?_
    exact Within.refl _ _
  · clear_value v2
    extract_lets +onlyGivenNames v4
    clear_value v4
    refine Within.ite (fun _ => ?_) (fun _ => ?_)
    · refine Within.ite (fun _ => ?_) (fun _ => ?_)
      · refine Within.step (doControllerEnable_within _ _ _) rfl ?_
        exact h3
      · refine Within.step (doControllerDisable_within _ _) rfl ?_
        exact h3
    · refine Within.ite (fun _ => ?_) (fun _ => ?_)
      · exact h3
      · refine Within.ite (fun _ => ?_) (fun _ => ?_)
        · extract_lets +onlyGivenNames v6
          clear_value v6
          refine Within.step (doDoorbellWrite_within _ _ _ _ _) rfl ?_
          exact Within.refl _ _
        · exact Within.refl _ _

theorem barWrite_within (port fn bar off size val s) :
    Within [.free, .out, .bus, .evt, .prk, .clk, .cue, .dev, .hfe, .scn, .obj, .trl, .flc, .rch, .hop, .smg, .bob, .dmc, .tly, .scr,
      .saf, .dram, .slm, .regs, .halves] s (barWrite port fn bar off size val s) := by
  unfold barWrite
  refine Within.ite (fun _ => ?_) (fun _ => ?_)
  · refine Within.trans ?_ (writeSplit_within (by exact rfl) ?_)
    · exact Within.refl _ _
    · intro u0
      intro u1
      intro u2
      refine Within.step (bar0Write_within _ _ _ _ _) rfl ?_
      exact Within.refl _ _
  · refine Within.ite (fun _ => ?_) (fun _ => ?_)
    · split
      · rename_i w3 w4 w5 w6 w7
        refine Within.step (writeWindow_within _ _ _ _ _ _) rfl ?_
        exact Within.refl _ _
      · rename_i w8 w9 w10 w11
        exact Within.refl _ _
    · refine Within.step (writeWindow_within _ _ _ _ _ _) rfl ?_
      exact Within.refl _ _

theorem doPcieTlp_within (port fn t s) :
    Within [.free, .out, .bus, .evt, .prk, .clk, .cue, .dev, .hfe, .scn, .obj, .trl, .flc, .rch, .hop, .smg, .bob, .dmc, .tly, .scr,
      .saf, .dram, .slm, .regs, .halves] s (doPcieTlp port fn t s) := by
  unfold doPcieTlp
  refine Within.ite (fun _ => ?_) (fun _ => ?_)
  · exact Within.refl _ _
  · split
    · rename_i w0 w1 w2 w3
      refine Within.step (emit_within _ _) rfl ?_
      refine Within.step (raiseObj_within _ _ _ _) rfl ?_
      refine Within.hfe rfl ?_
      exact Within.refl _ _
    · rename_i w4 w5 w6
      refine Within.ite (fun _ => ?_) (fun _ => ?_)
      · refine Within.step (emit_within _ _) rfl ?_
        refine Within.step (raiseObj_within _ _ _ _) rfl ?_
        exact Within.refl _ _
      · split
        · rename_i w7 w8 w9 w10
          refine Within.step (doPcieCompletion_within _ _ _ _) rfl ?_
          exact Within.refl _ _
        · rename_i w11 w12 w13 w14 w15 w16
          refine Within.ite (fun _ => ?_) (fun _ => ?_)
          · refine Within.step (unsupported_within _ _ _) rfl ?_
            exact Within.refl _ _
          · split
            · rename_i w17 w18 w19 w20 w21
              refine Within.cut (Within.ofEq w21 ?_) (fun h22 => ?_)
              · refine Within.step (barRead_within _ _ _ _ _ _) rfl ?_
                exact Within.refl _ _
              refine Within.step (emit_within _ _) rfl ?_
              exact h22
        · rename_i w23 w24 w25 w26 w27 w28 w29
          refine Within.ite (fun _ => ?_) (fun _ => ?_)
          · refine Within.step (unsupported_within _ _ _) rfl ?_
            exact Within.refl _ _
          · refine Within.ite (fun _ => ?_) (fun _ => ?_)
            · refine Within.step (emit_within _ _) rfl ?_
              refine Within.step (raiseObj_within _ _ _ _) rfl ?_
              exact Within.refl _ _
            · refine Within.step (barWrite_within _ _ _ _ _ _ _) rfl ?_
              exact Within.refl _ _

theorem doNvmeMiReceive_within (h s) :
    Within [.free, .out, .bus, .evt, .cue, .hfe, .scn, .obj, .trl, .flc, .smg, .bob, .tly, .scr, .slm] s (doNvmeMiReceive h s) := by
  unfold doNvmeMiReceive
  refine Within.trans ?_ (fetched_within (by exact rfl) ?_)
  · exact Within.refl _ _
  · intro u0
    split
    · rename_i w1 w2 w3
      refine Within.step (endAtOnce_within _ _ _ _ _) rfl ?_
      refine Within.step (emit_within _ _) rfl ?_
      refine Within.scn rfl ?_
      exact Within.refl _ _
    · rename_i w4 w5
      refine Within.step (failCmd_within _ _ _ _) rfl ?_
      exact Within.refl _ _

theorem doFirmwareActivate_within (h slot s) :
    Within [.free, .out, .bus, .evt, .cue, .hfe, .scn, .obj, .trl, .flc, .smg, .bob, .tly, .scr, .saf, .slm] s (doFirmwareActivate h
      slot s) := by
  unfold doFirmwareActivate
  refine Within.trans ?_ (fetched_within (by exact rfl) ?_)
  · exact Within.refl _ _
  · intro u0
    split
    · rename_i w1 w2
      refine Within.step (failCmd_within _ _ _ _) rfl ?_
      exact Within.refl _ _
    · rename_i w3 w4 w5
      split
      · rename_i w6 w7 w8 w9
        refine Within.cut (Within.ofEq w9 ?_) (fun h10 => ?_)
        · refine Within.step (openScene_within _ _ _ _ _) rfl ?_
          exact Within.refl _ _
        refine Within.step (beginActivation_within _ _ _ _) rfl ?_
        exact h10

theorem doNvmeMiSend_within (h m s) :
    Within [.free, .out, .bus, .evt, .prk, .clk, .cue, .dev, .hfe, .scn, .obj, .trl, .flc, .rch, .hop, .smg, .bob, .dmc, .tly, .scr,
      .saf, .dram, .slm, .regs, .halves] s (doNvmeMiSend h m s) := by
  unfold doNvmeMiSend
  refine Within.trans ?_ (fetched_within (by exact rfl) ?_)
  · exact Within.refl _ _
  · intro u0
    split
    · rename_i w1 w2 w3 w4
      refine Within.cut (Within.ofEq w4 ?_) (fun h5 => ?_)
      · refine Within.step (checkMi_within _ _) rfl ?_
        exact Within.refl _ _
      refine Within.step (endAtOnce_within _ _ _ _ _) rfl ?_
      refine Within.scn rfl ?_
      exact h5

theorem doMiMessage_within (m s) :
    Within [.free, .out, .bus, .evt, .prk, .clk, .cue, .dev, .hfe, .scn, .obj, .trl, .flc, .rch, .hop, .smg, .bob, .dmc, .tly, .scr,
      .saf, .dram, .slm, .regs, .halves] s (doMiMessage m s) := by
  unfold doMiMessage
  refine Within.ite (fun _ => ?_) (fun _ => ?_)
  · exact Within.refl _ _
  · refine Within.ite (fun _ => ?_) (fun _ => ?_)
    · refine Within.step (raiseObj_within _ _ _ _) rfl ?_
      exact Within.refl _ _
    · refine Within.ite (fun _ => ?_) (fun _ => ?_)
      · refine Within.scn rfl ?_
        exact Within.refl _ _
      · refine Within.step (serveHeld_within _ _) rfl ?_
        refine Within.scn rfl ?_
        exact Within.refl _ _

end Sys2Proof.Machine
end

