-- ==== Sys2Proof/Laws/FrameCommands.lean ====
section
/-! SUPPORT. What each command may change, and what it keeps: one lemma per meaning. -/
namespace Sys2Proof.Machine

theorem execRegisterWrite_within {req : Requester} {win : Window} {off size : Nat} {val : BitVec 64} {s s₁ : State} (h :
      execRegisterWrite req win off size val s = .next s₁) :
    Within [.free, .out, .bus, .evt, .prk, .clk, .cue, .dev, .hfe, .scn, .obj, .trl, .flc, .rch, .hop, .smg, .bob, .dmc, .tly, .scr,
      .saf, .dram, .slm, .regs, .halves] s s₁ := by
  cases h; exact doRegisterWrite_within _ _ _ _ _ _

theorem execLowWordWrite_within {req : Requester} {win : Window} {off : Nat} {val : BitVec 32} {s s₁ : State} (h : execLowWordWrite
      req win off val s = .next s₁) :
    Within [.free, .out, .bus, .evt, .prk, .clk, .cue, .dev, .hfe, .scn, .obj, .trl, .flc, .rch, .hop, .smg, .bob, .dmc, .tly, .scr,
      .saf, .dram, .slm, .regs, .halves] s s₁ := by
  cases h; exact doLowWordWrite_within _ _ _ _ _

theorem execHighWordWrite_within {req : Requester} {win : Window} {off : Nat} {val : BitVec 32} {s s₁ : State} (h :
      execHighWordWrite req win off val s = .next s₁) :
    Within [.free, .out, .bus, .evt, .prk, .clk, .cue, .dev, .hfe, .scn, .obj, .trl, .flc, .rch, .hop, .smg, .bob, .dmc, .tly, .scr,
      .saf, .dram, .slm, .regs, .halves] s s₁ := by
  cases h; exact doHighWordWrite_within _ _ _ _ _

theorem execLowWordRead_within {req : Requester} {win : Window} {off : Nat} {s s₁ : State} (h : execLowWordRead req win off s =
      .next s₁) :
    Within [.bus, .hop, .halves] s s₁ := by
  cases h; exact doLowWordRead_within _ _ _ _

theorem execHighWordRead_within {req : Requester} {win : Window} {off : Nat} {s s₁ : State} (h : execHighWordRead req win off s =
      .next s₁) :
    Within [.bus, .hop, .halves] s s₁ := by
  cases h; exact doHighWordRead_within _ _ _ _

theorem execReadClear_within {req : Requester} {win : Window} {off size : Nat} {hwUpdate : Nat} {s s₁ : State} (h : execReadClear
      req win off size hwUpdate s = .next s₁) :
    Within [.bus, .hop, .halves] s s₁ := by
  cases h; exact doReadClear_within _ _ _ _ _ _

theorem execGroundTransaction_within {t : GroundTx} {s s₁ : State} (h : execGroundTransaction t s = .next s₁) :
    Within [.free, .out, .bus, .evt, .cue, .hfe, .scn, .obj, .trl, .flc, .smg, .bob, .tly, .scr, .saf, .slm] s s₁ := by
  cases h; exact doGroundTransaction_within _ _

theorem execPrkVerify_within {aperture : Bool} {img : PrkImage} {s s₁ : State} (h : execPrkVerify aperture img s = .next s₁) :
    Within [.out, .bus, .evt, .prk, .cue] s s₁ := by
  cases h; exact doPrkVerify_within _ _ _

theorem execPrkApply_within {aperture : Bool} {img : PrkImage} {s s₁ : State} (h : execPrkApply aperture img s = .next s₁) :
    Within [.out, .bus, .evt, .prk, .cue] s s₁ := by
  cases h; exact doPrkApply_within _ _ _

theorem execPrkStore_within {aperture : Bool} {img : PrkImage} {s s₁ : State} (h : execPrkStore aperture img s = .next s₁) :
    Within [.out, .bus, .evt, .prk, .cue] s s₁ := by
  cases h; exact doPrkStore_within _ _ _

theorem execPrkAbort_within {s s₁ : State} (h : execPrkAbort s = .next s₁) :
    Within [.free, .out, .bus, .evt, .prk, .cue, .hfe, .scn, .obj, .trl, .flc, .smg, .bob, .tly, .scr, .slm] s s₁ := by
  cases h; exact doPrkAbort_within _

theorem execPrkImageFetched_within {img : PrkImage} {s s₁ : State} (h : execPrkImageFetched img s = .next s₁) :
    Within [.out, .bus, .evt, .prk, .cue] s s₁ := by
  cases h; exact doPrkImageFetched_within _ _

theorem execPrkApertureWrite_within {off : Nat} {words : List (BitVec 32)} {s s₁ : State} (h : execPrkApertureWrite off words s =
      .next s₁) :
    Within [.prk] s s₁ := by
  cases h; exact doPrkApertureWrite_within _ _ _

theorem execIntermissionDrained_within {unit : Nat} {s s₁ : State} (h : execIntermissionDrained unit s = .next s₁) :
    Within [.free, .out, .bus, .evt, .prk, .cue, .hfe, .scn, .obj, .trl, .flc, .hop, .smg, .bob, .dmc, .tly, .asu, .scr, .saf,
      .dram, .slm] s s₁ := by
  cases h; exact doIntermissionDrained_within _ _

theorem execDrainLimitExpiry_within {s s₁ : State} (h : execDrainLimitExpiry s = .next s₁) :
    Within [.free, .out, .bus, .evt, .prk, .cue, .hfe, .scn, .obj, .trl, .flc, .smg, .bob, .tly, .scr, .slm] s s₁ := by
  cases h; exact doDrainLimitExpiry_within _

theorem execStoreSlotWritten_within {readBackOk : Bool} {s s₁ : State} (h : execStoreSlotWritten readBackOk s = .next s₁) :
    Within [.out, .bus, .evt, .prk, .dev] s s₁ := by
  cases h; exact doStoreSlotWritten_within _ _

theorem execPrickingBootLoad_within {m : MediaFacts} {s s₁ : State} (h : execPrickingBootLoad m s = .next s₁) :
    Within [.free, .out, .bus, .evt, .prk, .hop, .scr] s s₁ := by
  cases h; exact doPrickingBootLoad_within _ _

theorem execClkGateReqWrite_within {val : BitVec 32} {s s₁ : State} (h : execClkGateReqWrite val s = .next s₁) :
    Within [.bus, .clk, .regs] s s₁ := by
  cases h; exact doClkGateReqWrite_within _ _

theorem execClockDomainStop_within {dom : Nat} {s s₁ : State} (h : execClockDomainStop dom s = .next s₁) :
    Within [.clk] s s₁ := by
  cases h; exact doClockDomainStop_within _ _

theorem execClockDomainStart_within {dom : Nat} {s s₁ : State} (h : execClockDomainStart dom s = .next s₁) :
    Within [.free, .out, .bus, .evt, .prk, .clk, .cue, .hfe, .scn, .obj, .trl, .flc, .rch, .hop, .smg, .bob, .dmc, .tly, .asu, .scr,
      .saf, .dram, .slm] s s₁ := by
  cases h; exact doClockDomainStart_within _ _

theorem execRefclkMeterInterval_within {tenthPpm : Int} {s s₁ : State} (h : execRefclkMeterInterval tenthPpm s = .next s₁) :
    Within [.free, .out, .bus, .evt, .prk, .clk, .cue, .dev, .pwr, .hfe, .scn, .obj, .trl, .flc, .rch, .hop, .smg, .bob, .tly, .scr,
      .saf, .slm, .phase] s s₁ := by
  cases h; exact doRefclkMeterInterval_within _ _

theorem execClockAlarm_within {cause : ClockAlarm} {s s₁ : State} (h : execClockAlarm cause s = .next s₁) :
    Within [.free, .out, .bus, .evt, .prk, .clk, .cue, .dev, .pwr, .hfe, .scn, .obj, .trl, .flc, .rch, .hop, .smg, .bob, .tly, .scr,
      .saf, .slm, .phase] s s₁ := by
  cases h; exact doClockAlarm_within _ _

theorem execCueStepWrite_within {req : Requester} {hi : BitVec 32} {s s₁ : State} (h : execCueStepWrite req hi s = .next s₁) :
    Within [.out, .bus, .evt, .cue, .regs, .halves] s s₁ := by
  cases h; exact doCueStepWrite_within _ _ _

theorem execCueBroadcast_within {drift : List (Nat × Int)} {s s₁ : State} (h : execCueBroadcast drift s = .next s₁) :
    Within [.wall, .free, .out, .bus, .evt, .prk, .clk, .cue, .hfe, .scn, .obj, .trl, .flc, .rch, .hop, .smg, .bob, .dmc, .tly,
      .asu, .scr, .saf, .dram, .slm] s s₁ := by
  cases h; exact doCueBroadcast_within _ _

theorem execTapSkewMeasure_within {tap : Nat} {comp : Int} {dieTemp : Int} {s s₁ : State} (h : execTapSkewMeasure tap comp dieTemp s
      = .next s₁) :
    Within [.cue] s s₁ := by
  cases h; exact doTapSkewMeasure_within _ _ _ _

theorem execCueCalCtrl_within {val : BitVec 32} {s s₁ : State} (h : execCueCalCtrl val s = .next s₁) :
    Within [.cue] s s₁ := by
  cases h; exact doCueCalCtrl_within _ _

theorem execCueCtrlWrite_within {val : BitVec 32} {s s₁ : State} (h : execCueCtrlWrite val s = .next s₁) :
    Within [.cue] s s₁ := by
  cases h; exact doCueCtrlWrite_within _ _

theorem execCueRateAdjWrite_within {val : BitVec 32} {s s₁ : State} (h : execCueRateAdjWrite val s = .next s₁) :
    Within [.cue] s s₁ := by
  cases h; exact doCueRateAdjWrite_within _ _

theorem execPtpEventMessage_within {port : Nat} {ingress : Bool} {servo : ServoReport} {s s₁ : State} (h : execPtpEventMessage port
      ingress servo s = .next s₁) :
    Within [.out, .bus, .evt, .cue] s s₁ := by
  cases h; exact doPtpEventMessage_within _ _ _ _

theorem execPtmResponse_within {servo : ServoReport} {s s₁ : State} (h : execPtmResponse servo s = .next s₁) :
    Within [.out, .bus, .evt, .cue] s s₁ := by
  cases h; exact doPtmResponse_within _ _

theorem execDisciplineSourceLost_within {s s₁ : State} (h : execDisciplineSourceLost s = .next s₁) :
    Within [.out, .bus, .evt, .cue] s s₁ := by
  cases h; exact doDisciplineSourceLost_within _

theorem execCuePost_within {poster : Poster} {c : CueReq} {s s₁ : State} (h : execCuePost poster c s = .next s₁) :
    Within [.bus, .cue] s s₁ := by
  cases h; exact doCuePost_within _ _ _

theorem execCueArm_within {slot : Nat} {s s₁ : State} (h : execCueArm slot s = .next s₁) :
    Within [.cue] s s₁ := by
  cases h; exact doCueArm_within _ _

theorem execCueFire_within {slot : Nat} {s s₁ : State} (h : execCueFire slot s = .next s₁) :
    Within [.free, .out, .bus, .evt, .prk, .cue, .hfe, .scn, .obj, .trl, .flc, .rch, .hop, .smg, .bob, .dmc, .tly, .asu, .scr, .saf,
      .dram, .slm] s s₁ := by
  cases h; exact doCueFire_within _ _

theorem execCueCancel_within {poster : Poster} {slot : Nat} {s s₁ : State} (h : execCueCancel poster slot s = .next s₁) :
    Within [.cue] s s₁ := by
  cases h; exact doCueCancel_within _ _ _

theorem execCancelArrival_within {slot : Nat} {s s₁ : State} (h : execCancelArrival slot s = .next s₁) :
    Within [.cue] s s₁ := by
  cases h; exact doCancelArrival_within _ _

theorem execCuePostCmd_within {val : BitVec 32} {s s₁ : State} (h : execCuePostCmd val s = .next s₁) :
    Within [.bus, .cue] s s₁ := by
  cases h; exact doCuePostCmd_within _ _

theorem execCueCancelWrite_within {val : BitVec 32} {s s₁ : State} (h : execCueCancelWrite val s = .next s₁) :
    Within [.cue] s s₁ := by
  cases h; exact doCueCancelWrite_within _ _

theorem execBeatBoundary_within {s s₁ : State} (h : execBeatBoundary s = .next s₁) :
    Within [.out, .bus, .evt, .cue, .hfe, .scn, .smg, .bob] s s₁ := by
  cases h; exact doBeatBoundary_within _

theorem execPcieTlp_within {port fn : Nat} {tlp : Tlp} {s s₁ : State} (h : execPcieTlp port fn tlp s = .next s₁) :
    Within [.free, .out, .bus, .evt, .prk, .clk, .cue, .dev, .hfe, .scn, .obj, .trl, .flc, .rch, .hop, .smg, .bob, .dmc, .tly, .scr,
      .saf, .dram, .slm, .regs, .halves] s s₁ := by
  cases h; exact doPcieTlp_within _ _ _ _

theorem execDoorbellWrite_within {ctrl : Nat} {cq : Bool} {qid val : Nat} {s s₁ : State} (h : execDoorbellWrite ctrl cq qid val s =
      .next s₁) :
    Within [.free, .out, .bus, .evt, .cue, .hfe, .scn, .obj, .trl, .flc, .smg, .bob, .tly, .scr, .slm] s s₁ := by
  cases h; exact doDoorbellWrite_within _ _ _ _ _

theorem execPcieCompletion_within {rid : Nat} {status : CplStatus} {data : Bytes} {s s₁ : State} (h : execPcieCompletion rid status
      data s = .next s₁) :
    Within [.free, .out, .bus, .evt, .cue, .hfe, .scn, .obj, .trl, .flc, .smg, .bob, .tly, .scr, .slm] s s₁ := by
  cases h; exact doPcieCompletion_within _ _ _ _

theorem execCompletionTimeout_within {rid : Nat} {s s₁ : State} (h : execCompletionTimeout rid s = .next s₁) :
    Within [.free, .out, .bus, .evt, .cue, .hfe, .scn, .obj, .trl, .flc, .smg, .bob, .tly, .scr, .slm] s s₁ := by
  cases h; exact doCompletionTimeout_within _ _

theorem execDoeObject_within {port : Nat} {obj : DoeObject} {s s₁ : State} (h : execDoeObject port obj s = .next s₁) :
    Within [.out, .bus, .evt, .hfe] s s₁ := by
  cases h; exact doDoeObject_within _ _ _

theorem execPcieLinkUp_within {port rate width : Nat} {flit l0p : Bool} {s s₁ : State} (h : execPcieLinkUp port rate width flit l0p
      s = .next s₁) :
    Within [.hfe] s s₁ := by
  cases h; exact doPcieLinkUp_within _ _ _ _ _ _

theorem execPcieLinkDown_within {port : Nat} {s s₁ : State} (h : execPcieLinkDown port s = .next s₁) :
    Within [.free, .out, .bus, .evt, .cue, .hfe, .scn, .obj, .trl, .flc, .smg, .bob, .tly, .scr, .slm, .halves] s s₁ := by
  cases h; exact doPcieLinkDown_within _ _

theorem execFlr_within {port fn : Nat} {s s₁ : State} (h : execFlr port fn s = .next s₁) :
    Within [.free, .out, .bus, .evt, .cue, .hfe, .scn, .obj, .trl, .flc, .smg, .bob, .tly, .scr, .slm, .halves] s s₁ := by
  cases h; exact doFlr_within _ _ _

theorem execVfEnableChange_within {port : Nat} {enable : Bool} {numVfs : Nat} {s s₁ : State} (h : execVfEnableChange port enable
      numVfs s = .next s₁) :
    Within [.free, .out, .bus, .evt, .cue, .hfe, .scn, .obj, .trl, .flc, .smg, .bob, .tly, .scr, .slm, .halves] s s₁ := by
  cases h; exact doVfEnableChange_within _ _ _ _

theorem execControllerEnable_within {ctrl : Nat} {aqa : BitVec 32} {s s₁ : State} (h : execControllerEnable ctrl aqa s = .next s₁) :
    Within [.hfe, .scn] s s₁ := by
  cases h; exact doControllerEnable_within _ _ _

theorem execControllerDisable_within {ctrl : Nat} {s s₁ : State} (h : execControllerDisable ctrl s = .next s₁) :
    Within [.free, .out, .bus, .evt, .cue, .hfe, .scn, .obj, .trl, .flc, .smg, .bob, .tly, .scr, .slm] s s₁ := by
  cases h; exact doControllerDisable_within _ _

theorem execEthFrame_within {port : Nat} {f : EthFrame} {s s₁ : State} (h : execEthFrame port f s = .next s₁) :
    Within [.out, .bus, .evt, .hfe] s s₁ := by
  cases h; exact doEthFrame_within _ _ _

theorem execPauseFrame_within {port : Nat} {prio : Option Nat} {on : Bool} {s s₁ : State} (h : execPauseFrame port prio on s = .next
      s₁) :
    Within [.hfe] s s₁ := by
  cases h; exact doPauseFrame_within _ _ _ _

theorem execCnpReceived_within {qp : Nat} {s s₁ : State} (h : execCnpReceived qp s = .next s₁) :
    Within [.bus, .hfe] s s₁ := by
  cases h; exact doCnpReceived_within _ _

theorem execRateRecoveryStep_within {qp : Nat} {s s₁ : State} (h : execRateRecoveryStep qp s = .next s₁) :
    Within [.hfe] s s₁ := by
  cases h; exact doRateRecoveryStep_within _ _

theorem execEthLinkUp_within {port : Nat} {phy : EthPhy} {s s₁ : State} (h : execEthLinkUp port phy s = .next s₁) :
    Within [.hfe] s s₁ := by
  cases h; exact doEthLinkUp_within _ _ _

theorem execLogicalPortDown_within {port : Nat} {s s₁ : State} (h : execLogicalPortDown port s = .next s₁) :
    Within [.free, .out, .bus, .evt, .cue, .hfe, .scn, .obj, .trl, .flc, .smg, .bob, .tly, .scr, .slm] s s₁ := by
  cases h; exact doLogicalPortDown_within _ _

theorem execTcpIcreq_within {conn : Nat} {ic : IcReq} {s s₁ : State} (h : execTcpIcreq conn ic s = .next s₁) :
    Within [.free, .out, .bus, .evt, .cue, .hfe, .scn, .obj, .trl, .flc, .smg, .bob, .tly, .scr, .slm] s s₁ := by
  cases h; exact doTcpIcreq_within _ _ _

theorem execTcpCapsule_within {conn : Nat} {cap : Capsule} {s s₁ : State} (h : execTcpCapsule conn cap s = .next s₁) :
    Within [.free, .out, .bus, .evt, .cue, .hfe, .scn, .obj, .trl, .flc, .smg, .bob, .tly, .scr, .slm] s s₁ := by
  cases h; exact doTcpCapsule_within _ _ _

theorem execH2cData_within {conn : Nat} {pdu : H2cPdu} {s s₁ : State} (h : execH2cData conn pdu s = .next s₁) :
    Within [.free, .out, .bus, .evt, .cue, .hfe, .scn, .obj, .trl, .flc, .smg, .bob, .tly, .scr, .slm] s s₁ := by
  cases h; exact doH2cData_within _ _ _

theorem execTcpConnectionLoss_within {conn : Nat} {s s₁ : State} (h : execTcpConnectionLoss conn s = .next s₁) :
    Within [.free, .out, .bus, .evt, .cue, .hfe, .scn, .obj, .trl, .flc, .smg, .bob, .tly, .scr, .slm] s s₁ := by
  cases h; exact doTcpConnectionLoss_within _ _

theorem execTlsHandshake_within {conn : Nat} {msg : TlsMsg} {s s₁ : State} (h : execTlsHandshake conn msg s = .next s₁) :
    Within [.free, .out, .bus, .evt, .cue, .hfe, .scn, .obj, .trl, .flc, .smg, .bob, .tly, .scr, .slm] s s₁ := by
  cases h; exact doTlsHandshake_within _ _ _

theorem execTlsRecord_within {conn : Nat} {authentic : Bool} {s s₁ : State} (h : execTlsRecord conn authentic s = .next s₁) :
    Within [.free, .out, .bus, .evt, .cue, .hfe, .scn, .obj, .trl, .flc, .smg, .bob, .tly, .scr, .slm] s s₁ := by
  cases h; exact doTlsRecord_within _ _ _

theorem execTlsKeyUpdateDue_within {conn : Nat} {s s₁ : State} (h : execTlsKeyUpdateDue conn s = .next s₁) :
    Within [.out, .hfe] s s₁ := by
  cases h; exact doTlsKeyUpdateDue_within _ _

theorem execConnect_within {c : ConnectReq} {s s₁ : State} (h : execConnect c s = .next s₁) :
    Within [.out, .bus, .evt, .hfe, .scn] s s₁ := by
  cases h; exact doConnect_within _ _

theorem execConnectAdmitted_within {conn : Nat} {s s₁ : State} (h : execConnectAdmitted conn s = .next s₁) :
    Within [.out, .bus, .evt, .hfe, .scn] s s₁ := by
  cases h; exact doConnectAdmitted_within _ _

theorem execInvalidHostClose_within {conn : Nat} {s s₁ : State} (h : execInvalidHostClose conn s = .next s₁) :
    Within [.free, .out, .bus, .evt, .cue, .hfe, .scn, .obj, .trl, .flc, .smg, .bob, .tly, .scr, .slm] s s₁ := by
  cases h; exact doInvalidHostClose_within _ _

theorem execDisconnect_within {conn : Nat} {s s₁ : State} (h : execDisconnect conn s = .next s₁) :
    Within [.free, .out, .bus, .evt, .cue, .hfe, .scn, .obj, .trl, .flc, .smg, .bob, .tly, .scr, .slm] s s₁ := by
  cases h; exact doDisconnect_within _ _

theorem execKeepAliveExpiry_within {ctrl : Nat} {s s₁ : State} (h : execKeepAliveExpiry ctrl s = .next s₁) :
    Within [.free, .out, .bus, .evt, .cue, .hfe, .scn, .obj, .trl, .flc, .smg, .bob, .tly, .scr, .slm] s s₁ := by
  cases h; exact doKeepAliveExpiry_within _ _

theorem execRdmaSend_within {qp : Nat} {cap : Capsule} {noBuffer : Bool} {s s₁ : State} (h : execRdmaSend qp cap noBuffer s = .next
      s₁) :
    Within [.free, .out, .bus, .evt, .cue, .hfe, .scn, .obj, .trl, .flc, .smg, .bob, .tly, .scr, .slm] s s₁ := by
  cases h; exact doRdmaSend_within _ _ _ _

theorem execRdmaReadResponse_within {rid : Nat} {data : Bytes} {s s₁ : State} (h : execRdmaReadResponse rid data s = .next s₁) :
    Within [.free, .out, .bus, .evt, .cue, .hfe, .scn, .obj, .trl, .flc, .smg, .bob, .tly, .scr, .slm] s s₁ := by
  cases h; exact doRdmaReadResponse_within _ _ _

theorem execRdmaNak_within {rid : Nat} {s s₁ : State} (h : execRdmaNak rid s = .next s₁) :
    Within [.free, .out, .bus, .evt, .cue, .hfe, .scn, .obj, .trl, .flc, .smg, .bob, .tly, .scr, .slm] s s₁ := by
  cases h; exact doRdmaNak_within _ _

theorem execRdmaInboundAccess_within {qp : Nat} {s s₁ : State} (h : execRdmaInboundAccess qp s = .next s₁) :
    Within [.free, .out, .bus, .evt, .cue, .hfe, .scn, .obj, .trl, .flc, .smg, .bob, .tly, .scr, .slm] s s₁ := by
  cases h; exact doRdmaInboundAccess_within _ _

theorem execRdmaQpLoss_within {qp : Nat} {s s₁ : State} (h : execRdmaQpLoss qp s = .next s₁) :
    Within [.free, .out, .bus, .evt, .cue, .hfe, .scn, .obj, .trl, .flc, .smg, .bob, .tly, .scr, .slm] s s₁ := by
  cases h; exact doRdmaQpLoss_within _ _

theorem execDataRequestIssue_within {scene len : Nat} {s s₁ : State} (h : execDataRequestIssue scene len s = .next s₁) :
    Within [.free, .out, .bus, .evt, .cue, .hfe, .scn, .obj, .trl, .flc, .smg, .bob, .tly, .scr, .slm] s s₁ := by
  cases h; exact doDataRequestIssue_within _ _ _

theorem execDataTimeout_within {rid : Nat} {s s₁ : State} (h : execDataTimeout rid s = .next s₁) :
    Within [.free, .out, .bus, .evt, .cue, .hfe, .scn, .obj, .trl, .flc, .smg, .bob, .tly, .scr, .slm] s s₁ := by
  cases h; exact doDataTimeout_within _ _

theorem execMiMessage_within {m : MiMsg} {s s₁ : State} (h : execMiMessage m s = .next s₁) :
    Within [.free, .out, .bus, .evt, .prk, .clk, .cue, .dev, .hfe, .scn, .obj, .trl, .flc, .rch, .hop, .smg, .bob, .dmc, .tly, .scr,
      .saf, .dram, .slm, .regs, .halves] s s₁ := by
  cases h; exact doMiMessage_within _ _

theorem execHfeNetCtrlWrite_within {val : BitVec 32} {s s₁ : State} (h : execHfeNetCtrlWrite val s = .next s₁) :
    Within [.free, .out, .bus, .evt, .cue, .hfe, .scn, .obj, .trl, .flc, .smg, .bob, .tly, .scr, .slm, .regs] s s₁ := by
  cases h; exact doHfeNetCtrlWrite_within _ _

theorem execCreateIoSq_within {h : CmdHdr} {qid size cqid prio : Nat} {s s₁ : State} (h : execCreateIoSq h qid size cqid prio s =
      .next s₁) :
    Within [.free, .out, .bus, .evt, .cue, .hfe, .scn, .obj, .trl, .flc, .smg, .bob, .tly, .scr, .slm] s s₁ := by
  cases h; exact doCreateIoSq_within _ _ _ _ _ _

theorem execCreateIoCq_within {h : CmdHdr} {qid size vector : Nat} {s s₁ : State} (h : execCreateIoCq h qid size vector s = .next s₁) :
    Within [.free, .out, .bus, .evt, .cue, .hfe, .scn, .obj, .trl, .flc, .smg, .bob, .tly, .scr, .slm] s s₁ := by
  cases h; exact doCreateIoCq_within _ _ _ _ _

theorem execDeleteIoSq_within {h : CmdHdr} {qid : Nat} {s s₁ : State} (h : execDeleteIoSq h qid s = .next s₁) :
    Within [.free, .out, .bus, .evt, .cue, .hfe, .scn, .obj, .trl, .flc, .smg, .bob, .tly, .scr, .slm] s s₁ := by
  cases h; exact doDeleteIoSq_within _ _ _

theorem execDeleteIoCq_within {h : CmdHdr} {qid : Nat} {s s₁ : State} (h : execDeleteIoCq h qid s = .next s₁) :
    Within [.free, .out, .bus, .evt, .cue, .hfe, .scn, .obj, .trl, .flc, .smg, .bob, .tly, .scr, .slm] s s₁ := by
  cases h; exact doDeleteIoCq_within _ _ _

theorem execGetLogPage_within {h : CmdHdr} {lid offset len : Nat} {rae : Bool} {s s₁ : State} (h : execGetLogPage h lid offset len
      rae s = .next s₁) :
    Within [.free, .out, .bus, .evt, .cue, .hfe, .scn, .obj, .trl, .flc, .smg, .bob, .tly, .scr, .slm] s s₁ := by
  cases h; exact doGetLogPage_within _ _ _ _ _ _

theorem execGetLogGloexError_within {h : CmdHdr} {lsi offset len : Nat} {s s₁ : State} (h : execGetLogGloexError h lsi offset len s
      = .next s₁) :
    Within [.free, .out, .bus, .evt, .cue, .hfe, .scn, .obj, .trl, .flc, .smg, .bob, .tly, .scr, .slm] s s₁ := by
  cases h; exact doGetLogGloexError_within _ _ _ _ _

theorem execGetLogResetOutcome_within {h : CmdHdr} {offset len : Nat} {s s₁ : State} (h : execGetLogResetOutcome h offset len s =
      .next s₁) :
    Within [.free, .out, .bus, .evt, .cue, .hfe, .scn, .obj, .trl, .flc, .smg, .bob, .tly, .scr, .slm] s s₁ := by
  cases h; exact doGetLogResetOutcome_within _ _ _ _

theorem execGetLogCommitCue_within {h : CmdHdr} {lsi offset len : Nat} {s s₁ : State} (h : execGetLogCommitCue h lsi offset len s =
      .next s₁) :
    Within [.free, .out, .bus, .evt, .cue, .hfe, .scn, .obj, .trl, .flc, .smg, .bob, .tly, .scr, .slm] s s₁ := by
  cases h; exact doGetLogCommitCue_within _ _ _ _ _

theorem execGetLogEventLog_within {h : CmdHdr} {offset len : Nat} {rae : Bool} {s s₁ : State} (h : execGetLogEventLog h offset len
      rae s = .next s₁) :
    Within [.free, .out, .bus, .evt, .cue, .hfe, .scn, .obj, .trl, .flc, .smg, .bob, .tly, .scr, .slm] s s₁ := by
  cases h; exact doGetLogEventLog_within _ _ _ _ _

theorem execIdentify_within {h : CmdHdr} {cns : Nat} {s s₁ : State} (h : execIdentify h cns s = .next s₁) :
    Within [.free, .out, .bus, .evt, .cue, .hfe, .scn, .obj, .trl, .flc, .smg, .bob, .tly, .scr, .slm] s s₁ := by
  cases h; exact doIdentify_within _ _ _

theorem execGetFeatures_within {h : CmdHdr} {fid : Nat} {s s₁ : State} (h : execGetFeatures h fid s = .next s₁) :
    Within [.free, .out, .bus, .evt, .cue, .hfe, .scn, .obj, .trl, .flc, .smg, .bob, .tly, .scr, .slm] s s₁ := by
  cases h; exact doGetFeatures_within _ _ _

theorem execSetFeatures_within {h : CmdHdr} {fid : Nat} {sv : Bool} {cdw11 : BitVec 32} {data : Bytes} {s s₁ : State} (h :
      execSetFeatures h fid sv cdw11 data s = .next s₁) :
    Within [.free, .out, .bus, .evt, .cue, .hfe, .scn, .obj, .trl, .flc, .smg, .bob, .tly, .scr, .slm] s s₁ := by
  cases h; exact doSetFeatures_within _ _ _ _ _ _

theorem execSetQueueOrdering_within {h : CmdHdr} {sv : Bool} {cdw11 : BitVec 32} {s s₁ : State} (h : execSetQueueOrdering h sv cdw11
      s = .next s₁) :
    Within [.free, .out, .bus, .evt, .cue, .hfe, .scn, .obj, .trl, .flc, .smg, .bob, .tly, .scr, .slm] s s₁ := by
  cases h; exact doSetQueueOrdering_within _ _ _ _

theorem execGetQueueOrdering_within {h : CmdHdr} {cdw11 : BitVec 32} {s s₁ : State} (h : execGetQueueOrdering h cdw11 s = .next s₁) :
    Within [.free, .out, .bus, .evt, .cue, .hfe, .scn, .obj, .trl, .flc, .smg, .bob, .tly, .scr, .slm] s s₁ := by
  cases h; exact doGetQueueOrdering_within _ _ _

theorem execSetSelfTestStep_within {h : CmdHdr} {sv : Bool} {cdw11 : BitVec 32} {s s₁ : State} (h : execSetSelfTestStep h sv cdw11 s
      = .next s₁) :
    Within [.free, .out, .bus, .evt, .cue, .hfe, .scn, .obj, .trl, .flc, .smg, .bob, .tly, .scr, .slm] s s₁ := by
  cases h; exact doSetSelfTestStep_within _ _ _ _

theorem execAbort_within {h : CmdHdr} {sqid target : Nat} {s s₁ : State} (h : execAbort h sqid target s = .next s₁) :
    Within [.free, .out, .bus, .evt, .cue, .hfe, .scn, .obj, .trl, .flc, .smg, .bob, .tly, .scr, .slm] s s₁ := by
  cases h; exact doAbort_within _ _ _ _

theorem execAbortHoldExpiry_within {ctrl cid : Nat} {s s₁ : State} (h : execAbortHoldExpiry ctrl cid s = .next s₁) :
    Within [.free, .out, .bus, .evt, .cue, .hfe, .scn, .obj, .trl, .flc, .smg, .bob, .tly, .scr, .slm] s s₁ := by
  cases h; exact doAbortHoldExpiry_within _ _ _

theorem execAsyncEventRequest_within {h : CmdHdr} {s s₁ : State} (h : execAsyncEventRequest h s = .next s₁) :
    Within [.free, .out, .bus, .evt, .cue, .hfe, .scn, .obj, .trl, .flc, .smg, .bob, .tly, .scr, .slm] s s₁ := by
  cases h; exact doAsyncEventRequest_within _ _

theorem execKeepAlive_within {h : CmdHdr} {s s₁ : State} (h : execKeepAlive h s = .next s₁) :
    Within [.free, .out, .bus, .evt, .cue, .hfe, .scn, .obj, .trl, .flc, .smg, .bob, .tly, .scr, .slm] s s₁ := by
  cases h; exact doKeepAlive_within _ _

theorem execDeviceSelfTest_within {h : CmdHdr} {code : Nat} {s s₁ : State} (h : execDeviceSelfTest h code s = .next s₁) :
    Within [.free, .out, .bus, .evt, .cue, .hfe, .scn, .obj, .trl, .flc, .smg, .bob, .tly, .scr, .slm] s s₁ := by
  cases h; exact doDeviceSelfTest_within _ _ _

theorem execSelfTestAbort_within {h : CmdHdr} {s s₁ : State} (h : execSelfTestAbort h s = .next s₁) :
    Within [.free, .out, .bus, .evt, .cue, .hfe, .scn, .obj, .trl, .flc, .smg, .bob, .tly, .scr, .slm] s s₁ := by
  cases h; exact doSelfTestAbort_within _ _

theorem execSelfTestStep_within {ctrl : Nat} {passed last : Bool} {s s₁ : State} (h : execSelfTestStep ctrl passed last s = .next s₁) :
    Within [.scn] s s₁ := by
  cases h; exact doSelfTestStep_within _ _ _ _

theorem execFormatNvm_within {h : CmdHdr} {lbaf ses : Nat} {s s₁ : State} (h : execFormatNvm h lbaf ses s = .next s₁) :
    Within [.free, .out, .bus, .evt, .cue, .hfe, .scn, .obj, .trl, .flc, .smg, .bob, .tly, .scr, .slm] s s₁ := by
  cases h; exact doFormatNvm_within _ _ _ _

theorem execSecuritySend_within {h : CmdHdr} {m : SecSend} {s s₁ : State} (h : execSecuritySend h m s = .next s₁) :
    Within [.free, .out, .bus, .evt, .cue, .hfe, .scn, .obj, .trl, .flc, .smg, .bob, .dmc, .tly, .scr, .saf, .dram, .slm] s s₁ := by
  cases h; exact doSecuritySend_within _ _ _

theorem execSecurityReceive_within {h : CmdHdr} {proto : Nat} {s s₁ : State} (h : execSecurityReceive h proto s = .next s₁) :
    Within [.free, .out, .bus, .evt, .cue, .hfe, .scn, .obj, .trl, .flc, .smg, .bob, .tly, .scr, .slm] s s₁ := by
  cases h; exact doSecurityReceive_within _ _ _

theorem execLoadProgram_within {h : CmdHdr} {pidx ptype offset total : Nat} {piece : Bytes} {s s₁ : State} (h : execLoadProgram h
      pidx ptype offset total piece s = .next s₁) :
    Within [.free, .out, .bus, .evt, .cue, .hfe, .scn, .obj, .trl, .flc, .smg, .bob, .tly, .scr, .slm] s s₁ := by
  cases h; exact doLoadProgram_within _ _ _ _ _ _ _

theorem execProgramTranslated_within {tenant pidx : Nat} {reject : Option (Nat × Nat)} {s s₁ : State} (h : execProgramTranslated
      tenant pidx reject s = .next s₁) :
    Within [.free, .out, .bus, .evt, .cue, .hfe, .scn, .obj, .trl, .flc, .smg, .bob, .tly, .scr, .slm] s s₁ := by
  cases h; exact doProgramTranslated_within _ _ _ _

theorem execProgramActivate_within {h : CmdHdr} {pidx : Nat} {s s₁ : State} (h : execProgramActivate h pidx s = .next s₁) :
    Within [.free, .out, .bus, .evt, .cue, .hfe, .scn, .obj, .trl, .flc, .smg, .bob, .tly, .scr, .slm] s s₁ := by
  cases h; exact doProgramActivate_within _ _ _

theorem execProgramDeactivate_within {h : CmdHdr} {pidx : Nat} {s s₁ : State} (h : execProgramDeactivate h pidx s = .next s₁) :
    Within [.free, .out, .bus, .evt, .cue, .hfe, .scn, .obj, .trl, .flc, .smg, .bob, .tly, .scr, .slm] s s₁ := by
  cases h; exact doProgramDeactivate_within _ _ _

theorem execMemoryRangeSetManagement_within {h : CmdHdr} {create : Bool} {setId : Nat} {ranges : List (Nat × Nat)} {s s₁ : State} (h
      : execMemoryRangeSetManagement h create setId ranges s = .next s₁) :
    Within [.free, .out, .bus, .evt, .cue, .hfe, .scn, .obj, .trl, .flc, .smg, .bob, .tly, .scr, .slm] s s₁ := by
  cases h; exact doMemoryRangeSetManagement_within _ _ _ _ _

theorem execNamespaceManagement_within {h : CmdHdr} {create : Bool} {a : NsAttrs} {s s₁ : State} (h : execNamespaceManagement h
      create a s = .next s₁) :
    Within [.free, .out, .bus, .evt, .cue, .hfe, .scn, .obj, .trl, .flc, .smg, .bob, .tly, .scr, .slm] s s₁ := by
  cases h; exact doNamespaceManagement_within _ _ _ _

theorem execNamespaceAttachment_within {h : CmdHdr} {attach : Bool} {ctrls : List Nat} {s s₁ : State} (h : execNamespaceAttachment h
      attach ctrls s = .next s₁) :
    Within [.free, .out, .bus, .evt, .cue, .hfe, .scn, .obj, .trl, .flc, .smg, .bob, .tly, .scr, .slm] s s₁ := by
  cases h; exact doNamespaceAttachment_within _ _ _ _

theorem execFirmwareImageDownload_within {h : CmdHdr} {offset : Nat} {img : FwImage} {s s₁ : State} (h : execFirmwareImageDownload h
      offset img s = .next s₁) :
    Within [.free, .out, .bus, .evt, .cue, .hfe, .scn, .obj, .trl, .flc, .smg, .bob, .tly, .scr, .slm] s s₁ := by
  cases h; exact doFirmwareImageDownload_within _ _ _ _

theorem execFirmwareCommit_within {h : CmdHdr} {action slot : Nat} {s s₁ : State} (h : execFirmwareCommit h action slot s = .next s₁) :
    Within [.free, .out, .bus, .evt, .cue, .dev, .hfe, .scn, .obj, .trl, .flc, .smg, .bob, .tly, .scr, .slm] s s₁ := by
  cases h; exact doFirmwareCommit_within _ _ _ _

theorem execFirmwareActivate_within {h : CmdHdr} {slot : Nat} {s s₁ : State} (h : execFirmwareActivate h slot s = .next s₁) :
    Within [.free, .out, .bus, .evt, .cue, .hfe, .scn, .obj, .trl, .flc, .smg, .bob, .tly, .scr, .saf, .slm] s s₁ := by
  cases h; exact doFirmwareActivate_within _ _ _

theorem execFirmwareActivationSwitch_within {s s₁ : State} (h : execFirmwareActivationSwitch s = .next s₁) :
    Within [.free, .out, .bus, .evt, .prk, .clk, .cue, .dev, .hfe, .scn, .obj, .trl, .flc, .rch, .hop, .smg, .bob, .dmc, .tly, .scr,
      .saf, .dram, .slm, .regs, .halves] s s₁ := by
  cases h; exact doFirmwareActivationSwitch_within _

theorem execActivationTimeout_within {s s₁ : State} (h : execActivationTimeout s = .next s₁) :
    Within [.free, .out, .bus, .evt, .prk, .clk, .cue, .dev, .hfe, .scn, .obj, .trl, .flc, .rch, .hop, .smg, .bob, .dmc, .tly, .scr,
      .saf, .dram, .slm, .regs, .halves] s s₁ := by
  cases h; exact doActivationTimeout_within _

theorem execSanitize_within {h : CmdHdr} {action : Nat} {s s₁ : State} (h : execSanitize h action s = .next s₁) :
    Within [.free, .out, .bus, .evt, .cue, .hfe, .scn, .obj, .trl, .flc, .smg, .bob, .tly, .scr, .slm] s s₁ := by
  cases h; exact doSanitize_within _ _ _

theorem execNvmeMiSend_within {h : CmdHdr} {m : MiMsg} {s s₁ : State} (h : execNvmeMiSend h m s = .next s₁) :
    Within [.free, .out, .bus, .evt, .prk, .clk, .cue, .dev, .hfe, .scn, .obj, .trl, .flc, .rch, .hop, .smg, .bob, .dmc, .tly, .scr,
      .saf, .dram, .slm, .regs, .halves] s s₁ := by
  cases h; exact doNvmeMiSend_within _ _ _

theorem execNvmeMiReceive_within {h : CmdHdr} {s s₁ : State} (h : execNvmeMiReceive h s = .next s₁) :
    Within [.free, .out, .bus, .evt, .cue, .hfe, .scn, .obj, .trl, .flc, .smg, .bob, .tly, .scr, .slm] s s₁ := by
  cases h; exact doNvmeMiReceive_within _ _

theorem execRestartQueue_within {h : CmdHdr} {sqid : Nat} {discard : Bool} {s s₁ : State} (h : execRestartQueue h sqid discard s =
      .next s₁) :
    Within [.free, .out, .bus, .evt, .cue, .hfe, .scn, .obj, .trl, .flc, .smg, .bob, .tly, .scr, .slm] s s₁ := by
  cases h; exact doRestartQueue_within _ _ _ _

theorem execInvalidOpcode_within {h : CmdHdr} {admin : Bool} {opcode : Nat} {s s₁ : State} (h : execInvalidOpcode h admin opcode s =
      .next s₁) :
    Within [.free, .out, .bus, .evt, .cue, .hfe, .scn, .obj, .trl, .flc, .smg, .bob, .tly, .scr, .slm] s s₁ := by
  cases h; exact doInvalidOpcode_within _ _ _ _

theorem execNvmRead_within {h : CmdHdr} {slba nlb : Nat} {keyTag : Option Nat} {s s₁ : State} (h : execNvmRead h slba nlb keyTag s =
      .next s₁) :
    Within [.free, .out, .bus, .evt, .cue, .hfe, .scn, .obj, .trl, .flc, .smg, .bob, .tly, .scr, .slm] s s₁ := by
  cases h; exact doNvmRead_within _ _ _ _ _

theorem execNvmWrite_within {h : CmdHdr} {slba nlb : Nat} {fua : Bool} {keyTag : Option Nat} {s s₁ : State} (h : execNvmWrite h slba
      nlb fua keyTag s = .next s₁) :
    Within [.free, .out, .bus, .evt, .cue, .dev, .hfe, .scn, .obj, .trl, .flc, .smg, .bob, .tly, .scr, .slm, .phase] s s₁ := by
  cases h; exact doNvmWrite_within _ _ _ _ _ _

theorem execFlush_within {h : CmdHdr} {s s₁ : State} (h : execFlush h s = .next s₁) :
    Within [.free, .out, .bus, .evt, .cue, .hfe, .scn, .obj, .trl, .flc, .smg, .bob, .tly, .scr, .slm] s s₁ := by
  cases h; exact doFlush_within _ _

theorem execCompare_within {h : CmdHdr} {slba nlb : Nat} {s s₁ : State} (h : execCompare h slba nlb s = .next s₁) :
    Within [.free, .out, .bus, .evt, .cue, .hfe, .scn, .obj, .trl, .flc, .smg, .bob, .tly, .scr, .slm] s s₁ := by
  cases h; exact doCompare_within _ _ _ _

theorem execWriteZeroes_within {h : CmdHdr} {slba nlb : Nat} {s s₁ : State} (h : execWriteZeroes h slba nlb s = .next s₁) :
    Within [.free, .out, .bus, .evt, .cue, .dev, .hfe, .scn, .obj, .trl, .flc, .smg, .bob, .tly, .scr, .slm, .phase] s s₁ := by
  cases h; exact doWriteZeroes_within _ _ _ _

theorem execWriteUncorrectable_within {h : CmdHdr} {slba nlb : Nat} {s s₁ : State} (h : execWriteUncorrectable h slba nlb s = .next
      s₁) :
    Within [.free, .out, .bus, .evt, .cue, .dev, .hfe, .scn, .obj, .trl, .flc, .smg, .bob, .tly, .scr, .slm, .phase] s s₁ := by
  cases h; exact doWriteUncorrectable_within _ _ _ _

theorem execDatasetManagement_within {h : CmdHdr} {deallocate : Bool} {ranges : List (Nat × Nat)} {s s₁ : State} (h :
      execDatasetManagement h deallocate ranges s = .next s₁) :
    Within [.free, .out, .bus, .evt, .cue, .dev, .hfe, .scn, .obj, .trl, .flc, .smg, .bob, .tly, .scr, .slm, .phase] s s₁ := by
  cases h; exact doDatasetManagement_within _ _ _ _

theorem execVerify_within {h : CmdHdr} {slba nlb : Nat} {s s₁ : State} (h : execVerify h slba nlb s = .next s₁) :
    Within [.free, .out, .bus, .evt, .cue, .hfe, .scn, .obj, .trl, .flc, .smg, .bob, .tly, .scr, .slm] s s₁ := by
  cases h; exact doVerify_within _ _ _ _

theorem execCopy_within {h : CmdHdr} {dst format : Nat} {ranges : List (Nat × Nat)} {s s₁ : State} (h : execCopy h dst format ranges
      s = .next s₁) :
    Within [.free, .out, .bus, .evt, .cue, .dev, .hfe, .scn, .obj, .trl, .flc, .smg, .bob, .tly, .scr, .slm, .phase] s s₁ := by
  cases h; exact doCopy_within _ _ _ _ _

theorem execKvStore_within {h : CmdHdr} {key : Bytes} {len : Nat} {opts : KvOpts} {s s₁ : State} (h : execKvStore h key len opts s =
      .next s₁) :
    Within [.free, .out, .bus, .evt, .cue, .dev, .hfe, .scn, .obj, .trl, .flc, .smg, .bob, .tly, .scr, .slm, .phase] s s₁ := by
  cases h; exact doKvStore_within _ _ _ _ _

theorem execKvRetrieve_within {h : CmdHdr} {key : Bytes} {bufLen : Nat} {s s₁ : State} (h : execKvRetrieve h key bufLen s = .next s₁) :
    Within [.free, .out, .bus, .evt, .cue, .hfe, .scn, .obj, .trl, .flc, .smg, .bob, .tly, .scr, .slm] s s₁ := by
  cases h; exact doKvRetrieve_within _ _ _ _

theorem execKvDelete_within {h : CmdHdr} {key : Bytes} {s s₁ : State} (h : execKvDelete h key s = .next s₁) :
    Within [.free, .out, .bus, .evt, .cue, .hfe, .scn, .obj, .trl, .flc, .smg, .bob, .tly, .scr, .slm] s s₁ := by
  cases h; exact doKvDelete_within _ _ _

theorem execKvExist_within {h : CmdHdr} {key : Bytes} {s s₁ : State} (h : execKvExist h key s = .next s₁) :
    Within [.free, .out, .bus, .evt, .cue, .hfe, .scn, .obj, .trl, .flc, .smg, .bob, .tly, .scr, .slm] s s₁ := by
  cases h; exact doKvExist_within _ _ _

theorem execKvList_within {h : CmdHdr} {key : Bytes} {bufLen : Nat} {s s₁ : State} (h : execKvList h key bufLen s = .next s₁) :
    Within [.free, .out, .bus, .evt, .cue, .hfe, .scn, .obj, .trl, .flc, .smg, .bob, .tly, .scr, .slm] s s₁ := by
  cases h; exact doKvList_within _ _ _ _

theorem execExecuteProgram_within {h : CmdHdr} {pidx setId blockOff hostLen : Nat} {s s₁ : State} (h : execExecuteProgram h pidx
      setId blockOff hostLen s = .next s₁) :
    Within [.free, .out, .bus, .evt, .cue, .hfe, .scn, .obj, .trl, .flc, .smg, .bob, .tly, .scr, .slm] s s₁ := by
  cases h; exact doExecuteProgram_within _ _ _ _ _ _

theorem execMemoryRead_within {h : CmdHdr} {off len : Nat} {s s₁ : State} (h : execMemoryRead h off len s = .next s₁) :
    Within [.free, .out, .bus, .evt, .cue, .hfe, .scn, .obj, .trl, .flc, .smg, .bob, .tly, .scr, .slm] s s₁ := by
  cases h; exact doMemoryRead_within _ _ _ _

theorem execMemoryWrite_within {h : CmdHdr} {off len : Nat} {s s₁ : State} (h : execMemoryWrite h off len s = .next s₁) :
    Within [.free, .out, .bus, .evt, .cue, .hfe, .scn, .obj, .trl, .flc, .smg, .bob, .tly, .scr, .slm] s s₁ := by
  cases h; exact doMemoryWrite_within _ _ _ _

theorem execMemoryCopy_within {h : CmdHdr} {c : MemCopy} {s s₁ : State} (h : execMemoryCopy h c s = .next s₁) :
    Within [.free, .out, .bus, .evt, .cue, .dev, .hfe, .scn, .obj, .trl, .flc, .smg, .bob, .tly, .scr, .slm, .phase] s s₁ := by
  cases h; exact doMemoryCopy_within _ _ _

theorem execFence_within {h : CmdHdr} {cdw10 : BitVec 32} {s s₁ : State} (h : execFence h cdw10 s = .next s₁) :
    Within [.free, .out, .bus, .evt, .cue, .hfe, .scn, .obj, .trl, .flc, .smg, .bob, .tly, .scr, .slm] s s₁ := by
  cases h; exact doFence_within _ _ _

theorem execCommitRequest_within {scene : Nat} {s s₁ : State} (h : execCommitRequest scene s = .next s₁) :
    Within [.free, .out, .bus, .evt, .cue, .hfe, .scn, .obj, .trl, .flc, .smg, .bob, .tly, .scr, .slm] s s₁ := by
  cases h; exact doCommitRequest_within _ _

theorem execRollBackRequest_within {scene : Nat} {st : Status} {s s₁ : State} (h : execRollBackRequest scene st s = .next s₁) :
    Within [.free, .out, .bus, .evt, .cue, .hfe, .scn, .obj, .trl, .flc, .smg, .bob, .tly, .scr, .slm] s s₁ := by
  cases h; exact doRollBackRequest_within _ _ _

theorem execReadPoint_within {scene : Nat} {s s₁ : State} (h : execReadPoint scene s = .next s₁) :
    Within [.free, .out, .bus, .evt, .cue, .hfe, .scn, .obj, .trl, .flc, .smg, .bob, .tly, .scr, .slm] s s₁ := by
  cases h; exact doReadPoint_within _ _

theorem execArcExport_within {tag : Nat} {s s₁ : State} (h : execArcExport tag s = .next s₁) :
    Within [.obj] s s₁ := by
  cases h; exact doArcExport_within _ _

theorem execArcImport_within {tag : Nat} {bag : BagScan} {s s₁ : State} (h : execArcImport tag bag s = .next s₁) :
    Within [.obj] s s₁ := by
  cases h; exact doArcImport_within _ _ _

theorem execArcAbort_within {tag : Nat} {s s₁ : State} (h : execArcAbort tag s = .next s₁) :
    Within [.obj] s s₁ := by
  cases h; exact doArcAbort_within _ _

theorem execArcProvenance_within {tag : Nat} {s s₁ : State} (h : execArcProvenance tag s = .next s₁) :
    Within [.obj] s s₁ := by
  cases h; exact doArcProvenance_within _ _

theorem execArcFileDone_within {tag : Nat} {f : ArcFile} {s s₁ : State} (h : execArcFileDone tag f s = .next s₁) :
    Within [.bus, .scn, .obj, .trl] s s₁ := by
  cases h; exact doArcFileDone_within _ _ _

theorem execTierMovePass_within {nsid : Nat} {s s₁ : State} (h : execTierMovePass nsid s = .next s₁) :
    Within [.bus, .cue, .obj, .trl, .flc] s s₁ := by
  cases h; exact doTierMovePass_within _ _

theorem execSweepDayBoundary_within {nsid : Nat} {s s₁ : State} (h : execSweepDayBoundary nsid s = .next s₁) :
    Within [.out, .bus, .evt, .obj] s s₁ := by
  cases h; exact doSweepDayBoundary_within _ _

theorem execCallBoardExpiry_within {s s₁ : State} (h : execCallBoardExpiry s = .next s₁) :
    Within [.obj] s s₁ := by
  cases h; exact doCallBoardExpiry_within _

theorem execCbdCursorWrite_within {req : Requester} {hi : BitVec 32} {s s₁ : State} (h : execCbdCursorWrite req hi s = .next s₁) :
    Within [.bus, .obj, .regs, .halves] s s₁ := by
  cases h; exact doCbdCursorWrite_within _ _ _

theorem execTwCbCursorWrite_within {req : Requester} {tag : Nat} {hi : BitVec 32} {s s₁ : State} (h : execTwCbCursorWrite req tag hi
      s = .next s₁) :
    Within [.bus, .obj, .regs, .halves] s s₁ := by
  cases h; exact doTwCbCursorWrite_within _ _ _ _

theorem execTwTlyPrCursorWrite_within {req : Requester} {tag : Nat} {hi : BitVec 32} {s s₁ : State} (h : execTwTlyPrCursorWrite req
      tag hi s = .next s₁) :
    Within [.bus, .obj, .regs, .halves] s s₁ := by
  cases h; exact doTwTlyPrCursorWrite_within _ _ _ _

theorem execJournalWrite_within {s s₁ : State} (h : execJournalWrite s = .next s₁) :
    Within [.trl] s s₁ := by
  cases h; exact doJournalWrite_within _

theorem execJournalProgrammed_within {s s₁ : State} (h : execJournalProgrammed s = .next s₁) :
    Within [.free, .out, .bus, .evt, .cue, .hfe, .scn, .obj, .trl, .flc, .smg, .bob, .tly, .scr, .slm] s s₁ := by
  cases h; exact doJournalProgrammed_within _

theorem execDestage_within {slot : Nat} {s s₁ : State} (h : execDestage slot s = .next s₁) :
    Within [.bus, .cue, .trl, .flc] s s₁ := by
  cases h; exact doDestage_within _ _

theorem execPlaceAdmit_within {s s₁ : State} (h : execPlaceAdmit s = .next s₁) :
    Within [.free, .out, .bus, .evt, .cue, .hfe, .scn, .obj, .trl, .flc, .smg, .bob, .tly, .scr, .slm] s s₁ := by
  cases h; exact doPlaceAdmit_within _

theorem execCheckpointStart_within {s s₁ : State} (h : execCheckpointStart s = .next s₁) :
    Within [.evt, .trl] s s₁ := by
  cases h; exact doCheckpointStart_within _

theorem execTrlCkptCtrl_within {val : BitVec 32} {s s₁ : State} (h : execTrlCkptCtrl val s = .next s₁) :
    Within [.evt, .trl] s s₁ := by
  cases h; exact doTrlCkptCtrl_within _ _

theorem execCheckpointClosed_within {s s₁ : State} (h : execCheckpointClosed s = .next s₁) :
    Within [.obj, .trl] s s₁ := by
  cases h; exact doCheckpointClosed_within _

theorem execReclaimBackground_within {s s₁ : State} (h : execReclaimBackground s = .next s₁) :
    Within [.bus, .cue, .trl, .flc] s s₁ := by
  cases h; exact doReclaimBackground_within _

theorem execReclaimForeground_within {s s₁ : State} (h : execReclaimForeground s = .next s₁) :
    Within [.bus, .cue, .trl, .flc] s s₁ := by
  cases h; exact doReclaimForeground_within _

theorem execPlatterReclaim_within {act : Nat} {s s₁ : State} (h : execPlatterReclaim act s = .next s₁) :
    Within [.trl] s s₁ := by
  cases h; exact doPlatterReclaim_within _ _

theorem execRetentionExpiry_within {sb : Nat} {s s₁ : State} (h : execRetentionExpiry sb s = .next s₁) :
    Within [.trl] s s₁ := by
  cases h; exact doRetentionExpiry_within _ _

theorem execFlashReadDone_within {rid lun : Nat} {s s₁ : State} (h : execFlashReadDone rid lun s = .next s₁) :
    Within [.bus, .cue, .trl, .flc] s s₁ := by
  cases h; exact doFlashReadDone_within _ _ _

theorem execFlashProgramDone_within {lun : Nat} {ok : Bool} {s s₁ : State} (h : execFlashProgramDone lun ok s = .next s₁) :
    Within [.free, .out, .bus, .evt, .cue, .hfe, .scn, .obj, .trl, .flc, .smg, .bob, .tly, .scr, .slm] s s₁ := by
  cases h; exact doFlashProgramDone_within _ _ _

theorem execFlashEraseDone_within {lun : Nat} {ok : Bool} {s s₁ : State} (h : execFlashEraseDone lun ok s = .next s₁) :
    Within [.free, .out, .bus, .evt, .cue, .hfe, .scn, .obj, .trl, .flc, .smg, .bob, .tly, .scr, .slm] s s₁ := by
  cases h; exact doFlashEraseDone_within _ _ _

theorem execLunTimeout_within {lun : Nat} {s s₁ : State} (h : execLunTimeout lun s = .next s₁) :
    Within [.free, .out, .bus, .evt, .cue, .hfe, .scn, .obj, .trl, .flc, .smg, .bob, .tly, .scr, .slm] s s₁ := by
  cases h; exact doLunTimeout_within _ _

theorem execChannelRetrain_within {ch : Nat} {ok : Bool} {dieTemp : Int} {s s₁ : State} (h : execChannelRetrain ch ok dieTemp s =
      .next s₁) :
    Within [.free, .out, .bus, .evt, .cue, .hfe, .scn, .obj, .trl, .flc, .smg, .bob, .tly, .scr, .slm] s s₁ := by
  cases h; exact doChannelRetrain_within _ _ _ _

theorem execDecodeDone_within {rid : Nat} {ok : Bool} {iters : Nat} {check : Option FixCheck} {s s₁ : State} (h : execDecodeDone rid
      ok iters check s = .next s₁) :
    Within [.free, .out, .bus, .evt, .cue, .hfe, .scn, .obj, .trl, .flc, .smg, .bob, .tly, .scr, .slm] s s₁ := by
  cases h; exact doDecodeDone_within _ _ _ _ _

theorem execFlcEvacuate_within {g : Nat} {s s₁ : State} (h : execFlcEvacuate g s = .next s₁) :
    Within [.evt, .trl, .flc] s s₁ := by
  cases h; exact doFlcEvacuate_within _ _

theorem execEvacuationDone_within {s s₁ : State} (h : execEvacuationDone s = .next s₁) :
    Within [.evt, .trl, .flc] s s₁ := by
  cases h; exact doEvacuationDone_within _

theorem execFlcRemove_within {g : Nat} {s s₁ : State} (h : execFlcRemove g s = .next s₁) :
    Within [.clk, .trl, .flc] s s₁ := by
  cases h; exact doFlcRemove_within _ _

theorem execFlcInsert_within {g : Nat} {force : Bool} {dies : DieFacts} {s s₁ : State} (h : execFlcInsert g force dies s = .next s₁) :
    Within [.out, .bus, .evt, .clk, .trl, .flc] s s₁ := by
  cases h; exact doFlcInsert_within _ _ _ _

theorem execInsertionDone_within {s s₁ : State} (h : execInsertionDone s = .next s₁) :
    Within [.trl, .flc] s s₁ := by
  cases h; exact doInsertionDone_within _

theorem execFlcCancel_within {g : Nat} {s s₁ : State} (h : execFlcCancel g s = .next s₁) :
    Within [.evt, .trl, .flc] s s₁ := by
  cases h; exact doFlcCancel_within _ _

theorem execFlcResume_within {g : Nat} {answers : Bool} {s s₁ : State} (h : execFlcResume g answers s = .next s₁) :
    Within [.bus, .cue, .flc] s s₁ := by
  cases h; exact doFlcResume_within _ _ _

theorem execAngleField_within {act : Nat} {f : AngleField} {s s₁ : State} (h : execAngleField act f s = .next s₁) :
    Within [.out, .bus, .evt, .rch, .hop] s s₁ := by
  cases h; exact doAngleField_within _ _ _

theorem execRelockTimeout_within {act : Nat} {s s₁ : State} (h : execRelockTimeout act s = .next s₁) :
    Within [.out, .bus, .evt, .trl, .flc, .rch, .hop] s s₁ := by
  cases h; exact doRelockTimeout_within _ _

theorem execServoField_within {act : Nat} {f : ServoField} {s s₁ : State} (h : execServoField act f s = .next s₁) :
    Within [.out, .bus, .evt, .cue, .trl, .flc, .rch, .hop] s s₁ := by
  cases h; exact doServoField_within _ _ _

theorem execSectorSync_within {act lane : Nat} {w : SyncWindow} {s s₁ : State} (h : execSectorSync act lane w s = .next s₁) :
    Within [.out, .bus, .evt, .trl, .flc, .rch, .hop] s s₁ := by
  cases h; exact doSectorSync_within _ _ _ _

theorem execCodewordComplete_within {act lane : Nat} {s s₁ : State} (h : execCodewordComplete act lane s = .next s₁) :
    Within [.flc, .rch] s s₁ := by
  cases h; exact doCodewordComplete_within _ _ _

theorem execReservationRelease_within {dec : Nat} {s s₁ : State} (h : execReservationRelease dec s = .next s₁) :
    Within [.flc] s s₁ := by
  cases h; exact doReservationRelease_within _ _

theorem execShockCrossing_within {input : Nat} {mv : Nat} {s s₁ : State} (h : execShockCrossing input mv s = .next s₁) :
    Within [.out, .bus, .evt, .trl, .flc, .rch] s s₁ := by
  cases h; exact doShockCrossing_within _ _ _

theorem execPreampFault_within {act ns : Nat} {s s₁ : State} (h : execPreampFault act ns s = .next s₁) :
    Within [.out, .bus, .evt, .trl, .flc, .rch, .hop] s s₁ := by
  cases h; exact doPreampFault_within _ _ _

theorem execPreampFrameDone_within {act : Nat} {data : BitVec 16} {mismatch : Bool} {s s₁ : State} (h : execPreampFrameDone act data
      mismatch s = .next s₁) :
    Within [.out, .bus, .evt, .trl, .flc, .rch, .hop] s s₁ := by
  cases h; exact doPreampFrameDone_within _ _ _ _

theorem execRchCalibrateL0_within {act : Nat} {s s₁ : State} (h : execRchCalibrateL0 act s = .next s₁) :
    Within [.rch] s s₁ := by
  cases h; exact doRchCalibrateL0_within _ _

theorem execRchCalibrateL1_within {act : Nat} {s s₁ : State} (h : execRchCalibrateL1 act s = .next s₁) :
    Within [.rch] s s₁ := by
  cases h; exact doRchCalibrateL1_within _ _

theorem execRchPark_within {act : Nat} {s s₁ : State} (h : execRchPark act s = .next s₁) :
    Within [.out, .bus, .evt, .trl, .flc, .rch, .hop] s s₁ := by
  cases h; exact doRchPark_within _ _

theorem execRchResume_within {act : Nat} {s s₁ : State} (h : execRchResume act s = .next s₁) :
    Within [.rch, .hop] s s₁ := by
  cases h; exact doRchResume_within _ _

theorem execRchOffline_within {act : Nat} {s s₁ : State} (h : execRchOffline act s = .next s₁) :
    Within [.out, .bus, .evt, .rch] s s₁ := by
  cases h; exact doRchOffline_within _ _

theorem execLaneCalibrationDue_within {act lane : Nat} {dieTemp : Int} {s s₁ : State} (h : execLaneCalibrationDue act lane dieTemp s
      = .next s₁) :
    Within [.rch] s s₁ := by
  cases h; exact doLaneCalibrationDue_within _ _ _ _

theorem execLaneCalibrationDone_within {act lane : Nat} {ok : Bool} {s s₁ : State} (h : execLaneCalibrationDone act lane ok s =
      .next s₁) :
    Within [.out, .bus, .evt, .rch] s s₁ := by
  cases h; exact doLaneCalibrationDone_within _ _ _ _

theorem execOfflineWaitExpiry_within {rid : Nat} {s s₁ : State} (h : execOfflineWaitExpiry rid s = .next s₁) :
    Within [.free, .out, .bus, .evt, .cue, .hfe, .scn, .obj, .trl, .flc, .smg, .bob, .tly, .scr, .slm] s s₁ := by
  cases h; exact doOfflineWaitExpiry_within _ _

theorem execRchPaCmd_within {act : Nat} {val : BitVec 32} {s s₁ : State} (h : execRchPaCmd act val s = .next s₁) :
    Within [.rch] s s₁ := by
  cases h; exact doRchPaCmd_within _ _ _

theorem execSampleBoundary_within {slot : Nat} {m : Option Int} {s s₁ : State} (h : execSampleBoundary slot m s = .next s₁) :
    Within [.out, .bus, .evt, .trl, .flc, .rch, .hop] s s₁ := by
  cases h; exact doSampleBoundary_within _ _ _

theorem execHopSlotEnable_within {slot : Nat} {s s₁ : State} (h : execHopSlotEnable slot s = .next s₁) :
    Within [.hop] s s₁ := by
  cases h; exact doHopSlotEnable_within _ _

theorem execHopSlotDisable_within {slot : Nat} {s s₁ : State} (h : execHopSlotDisable slot s = .next s₁) :
    Within [.out, .bus, .evt, .trl, .flc, .rch, .hop] s s₁ := by
  cases h; exact doHopSlotDisable_within _ _

theorem execHopBankRequest_within {slot : Nat} {bank atCue : Bool} {s s₁ : State} (h : execHopBankRequest slot bank atCue s = .next
      s₁) :
    Within [.hop] s s₁ := by
  cases h; exact doHopBankRequest_within _ _ _ _

theorem execHopCoeffWrite_within {slot : Nat} {bank : Bool} {idx : Nat} {val : BitVec 32} {becoming : Bool} {s s₁ : State} (h :
      execHopCoeffWrite slot bank idx val becoming s = .next s₁) :
    Within [.hop] s s₁ := by
  cases h; exact doHopCoeffWrite_within _ _ _ _ _ _

theorem execHopSetpointWrite_within {req : Requester} {slot : Nat} {hi : BitVec 32} {s s₁ : State} (h : execHopSetpointWrite req
      slot hi s = .next s₁) :
    Within [.bus, .hop, .regs, .halves] s s₁ := by
  cases h; exact doHopSetpointWrite_within _ _ _ _

theorem execHopProfileStart_within {act first : Nat} {s s₁ : State} (h : execHopProfileStart act first s = .next s₁) :
    Within [.hop] s s₁ := by
  cases h; exact doHopProfileStart_within _ _ _

theorem execHopProfileStop_within {act : Nat} {s s₁ : State} (h : execHopProfileStop act s = .next s₁) :
    Within [.hop] s s₁ := by
  cases h; exact doHopProfileStop_within _ _

theorem execMotorLinkFrame_within {reply : BitVec 32} {s s₁ : State} (h : execMotorLinkFrame reply s = .next s₁) :
    Within [.out, .bus, .evt, .trl, .flc, .rch, .hop] s s₁ := by
  cases h; exact doMotorLinkFrame_within _ _

theorem execNopIdleTimer_within {s s₁ : State} (h : execNopIdleTimer s = .next s₁) :
    Within [.hop] s s₁ := by
  cases h; exact doNopIdleTimer_within _

theorem execParkTimeout_within {act : Nat} {s s₁ : State} (h : execParkTimeout act s = .next s₁) :
    Within [.out, .bus, .evt, .rch, .hop] s s₁ := by
  cases h; exact doParkTimeout_within _ _

theorem execActuatorLoaded_within {act : Nat} {m : Int} {s s₁ : State} (h : execActuatorLoaded act m s = .next s₁) :
    Within [.rch, .hop] s s₁ := by
  cases h; exact doActuatorLoaded_within _ _ _

theorem execDriverFault_within {ns : Nat} {s s₁ : State} (h : execDriverFault ns s = .next s₁) :
    Within [.out, .bus, .evt, .trl, .flc, .rch, .hop] s s₁ := by
  cases h; exact doDriverFault_within _ _

theorem execHeaterFrameSend_within {act head : Nat} {s s₁ : State} (h : execHeaterFrameSend act head s = .next s₁) :
    Within [.rch, .hop] s s₁ := by
  cases h; exact doHeaterFrameSend_within _ _ _

theorem execMlkCmd_within {val : BitVec 32} {s s₁ : State} (h : execMlkCmd val s = .next s₁) :
    Within [.hop] s s₁ := by
  cases h; exact doMlkCmd_within _ _

theorem execMlkResync_within {val : BitVec 32} {s s₁ : State} (h : execMlkResync val s = .next s₁) :
    Within [.hop] s s₁ := by
  cases h; exact doMlkResync_within _ _

theorem execRingTailWrite_within {ring val : Nat} {s s₁ : State} (h : execRingTailWrite ring val s = .next s₁) :
    Within [.out, .bus, .evt, .smg] s s₁ := by
  cases h; exact doRingTailWrite_within _ _ _

theorem execSmgRingCtrlWrite_within {req : Requester} {ring reg : Nat} {val : BitVec 32} {s s₁ : State} (h : execSmgRingCtrlWrite
      req ring reg val s = .next s₁) :
    Within [.bus, .regs, .halves] s s₁ := by
  cases h; exact doSmgRingCtrlWrite_within _ _ _ _ _

theorem execBatchCreate_within {ring : Nat} {s s₁ : State} (h : execBatchCreate ring s = .next s₁) :
    Within [.free, .out, .bus, .evt, .cue, .hfe, .scn, .obj, .trl, .flc, .smg, .bob, .dmc, .tly, .scr, .dram, .slm] s s₁ := by
  cases h; exact doBatchCreate_within _ _

theorem execTaskComplete_within {handle : Nat} {status : Nat} {s s₁ : State} (h : execTaskComplete handle status s = .next s₁) :
    Within [.free, .out, .bus, .evt, .cue, .hfe, .scn, .obj, .trl, .flc, .smg, .bob, .tly, .scr, .slm] s s₁ := by
  cases h; exact doTaskComplete_within _ _ _

theorem execTaskDispatch_within {unit place : Nat} {s s₁ : State} (h : execTaskDispatch unit place s = .next s₁) :
    Within [.out, .bus, .evt, .cue, .hfe, .scn, .smg, .bob, .dmc, .tly, .scr, .dram] s s₁ := by
  cases h; exact doTaskDispatch_within _ _ _

theorem execSealedWindowSave_within {handle : Nat} {s s₁ : State} (h : execSealedWindowSave handle s = .next s₁) :
    Within [.out, .bus, .evt, .smg] s s₁ := by
  cases h; exact doSealedWindowSave_within _ _

theorem execBobRetire_within {val : BitVec 32} {s s₁ : State} (h : execBobRetire val s = .next s₁) :
    Within [.out, .bus, .evt, .smg, .bob] s s₁ := by
  cases h; exact doBobRetire_within _ _

theorem execBobbinWatchdog_within {bob : Nat} {s s₁ : State} (h : execBobbinWatchdog bob s = .next s₁) :
    Within [.out, .bus, .evt, .smg, .bob] s s₁ := by
  cases h; exact doBobbinWatchdog_within _ _

theorem execBobbinSelftest_within {core : Nat} {ok : Bool} {s s₁ : State} (h : execBobbinSelftest core ok s = .next s₁) :
    Within [.out, .bus, .evt, .smg, .bob] s s₁ := by
  cases h; exact doBobbinSelftest_within _ _ _

theorem execRetireGraceExpiry_within {s s₁ : State} (h : execRetireGraceExpiry s = .next s₁) :
    Within [.out, .bus, .evt, .smg, .bob] s s₁ := by
  cases h; exact doRetireGraceExpiry_within _

theorem execUnderstudyLoaded_within {s s₁ : State} (h : execUnderstudyLoaded s = .next s₁) :
    Within [.out, .bus, .evt, .smg, .bob] s s₁ := by
  cases h; exact doUnderstudyLoaded_within _

theorem execInvocationComplete_within {inv : Nat} {r : InvResult} {s s₁ : State} (h : execInvocationComplete inv r s = .next s₁) :
    Within [.free, .out, .bus, .evt, .cue, .hfe, .scn, .obj, .trl, .flc, .smg, .bob, .tly, .scr, .slm] s s₁ := by
  cases h; exact doInvocationComplete_within _ _ _

theorem execBudgetExhausted_within {inv : Nat} {stores : List (Nat × Bytes)} {s s₁ : State} (h : execBudgetExhausted inv stores s =
      .next s₁) :
    Within [.free, .out, .bus, .evt, .cue, .hfe, .scn, .obj, .trl, .flc, .smg, .bob, .tly, .scr, .slm] s s₁ := by
  cases h; exact doBudgetExhausted_within _ _ _

theorem execPqAsuSearch_within {inv table : Nat} {key mask : BitVec 128} {upsets : List AsuUpset} {s s₁ : State} (h :
      execPqAsuSearch inv table key mask upsets s = .next s₁) :
    Within [.free, .out, .bus, .evt, .cue, .hfe, .scn, .obj, .trl, .flc, .smg, .bob, .tly, .asu, .scr, .saf, .slm] s s₁ := by
  cases h; exact doPqAsuSearch_within _ _ _ _ _ _

theorem execPqAsuInsert_within {inv table : Nat} {entry : Bytes} {pos : Nat} {s s₁ : State} (h : execPqAsuInsert inv table entry pos
      s = .next s₁) :
    Within [.free, .out, .bus, .evt, .cue, .hfe, .scn, .obj, .trl, .flc, .smg, .bob, .tly, .asu, .scr, .saf, .slm] s s₁ := by
  cases h; exact doPqAsuInsert_within _ _ _ _ _

theorem execPqAsuDelete_within {inv table index : Nat} {s s₁ : State} (h : execPqAsuDelete inv table index s = .next s₁) :
    Within [.free, .out, .bus, .evt, .cue, .hfe, .scn, .obj, .trl, .flc, .smg, .bob, .tly, .asu, .scr, .saf, .slm] s s₁ := by
  cases h; exact doPqAsuDelete_within _ _ _ _

theorem execPqAsuScan_within {inv table : Nat} {src : Bytes} {cap : Nat} {upsets : List AsuUpset} {s s₁ : State} (h : execPqAsuScan
      inv table src cap upsets s = .next s₁) :
    Within [.free, .out, .bus, .evt, .cue, .hfe, .scn, .obj, .trl, .flc, .smg, .bob, .tly, .asu, .scr, .saf, .slm] s s₁ := by
  cases h; exact doPqAsuScan_within _ _ _ _ _ _

theorem execPqDigest_within {inv alg : Nat} {src : Bytes} {s s₁ : State} (h : execPqDigest inv alg src s = .next s₁) :
    Within [.free, .out, .bus, .evt, .cue, .hfe, .scn, .obj, .trl, .flc, .smg, .bob, .tly, .scr, .slm] s s₁ := by
  cases h; exact doPqDigest_within _ _ _ _

theorem execPqDigestPart_within {inv alg ctx : Nat} {src : Bytes} {first last : Bool} {s s₁ : State} (h : execPqDigestPart inv alg
      ctx src first last s = .next s₁) :
    Within [.free, .out, .bus, .evt, .cue, .hfe, .scn, .obj, .trl, .flc, .smg, .bob, .tly, .scr, .slm] s s₁ := by
  cases h; exact doPqDigestPart_within _ _ _ _ _ _ _

theorem execPqCompress_within {inv fmt level : Nat} {src : Bytes} {cap : Nat} {s s₁ : State} (h : execPqCompress inv fmt level src
      cap s = .next s₁) :
    Within [.free, .out, .bus, .evt, .cue, .hfe, .scn, .obj, .trl, .flc, .smg, .bob, .tly, .scr, .slm] s s₁ := by
  cases h; exact doPqCompress_within _ _ _ _ _ _

theorem execPqDecompress_within {inv fmt : Nat} {src : Bytes} {cap : Nat} {s s₁ : State} (h : execPqDecompress inv fmt src cap s =
      .next s₁) :
    Within [.free, .out, .bus, .evt, .cue, .hfe, .scn, .obj, .trl, .flc, .smg, .bob, .tly, .scr, .slm] s s₁ := by
  cases h; exact doPqDecompress_within _ _ _ _ _

theorem execPqCrc64_within {inv : Nat} {src : Bytes} {prev : BitVec 64} {s s₁ : State} (h : execPqCrc64 inv src prev s = .next s₁) :
    Within [.free, .out, .bus, .evt, .cue, .hfe, .scn, .obj, .trl, .flc, .smg, .bob, .tly, .scr, .slm] s s₁ := by
  cases h; exact doPqCrc64_within _ _ _ _

theorem execPqMemCopy_within {inv : Nat} {dst : Option Nat} {src : Bytes} {s s₁ : State} (h : execPqMemCopy inv dst src s = .next s₁) :
    Within [.free, .out, .bus, .evt, .cue, .hfe, .scn, .obj, .trl, .flc, .smg, .bob, .tly, .scr, .slm] s s₁ := by
  cases h; exact doPqMemCopy_within _ _ _ _

theorem execPqMemCmp_within {inv : Nat} {a b : Bytes} {s s₁ : State} (h : execPqMemCmp inv a b s = .next s₁) :
    Within [.free, .out, .bus, .evt, .cue, .hfe, .scn, .obj, .trl, .flc, .smg, .bob, .tly, .scr, .slm] s s₁ := by
  cases h; exact doPqMemCmp_within _ _ _ _

theorem execPqFence_within {inv kind : Nat} {s s₁ : State} (h : execPqFence inv kind s = .next s₁) :
    Within [.free, .out, .bus, .evt, .cue, .hfe, .scn, .obj, .trl, .flc, .smg, .bob, .tly, .scr, .slm] s s₁ := by
  cases h; exact doPqFence_within _ _ _

theorem execPqRaiseEvent_within {inv index : Nat} {arg0 arg1 : BitVec 64} {s s₁ : State} (h : execPqRaiseEvent inv index arg0 arg1 s
      = .next s₁) :
    Within [.free, .out, .bus, .evt, .cue, .hfe, .scn, .obj, .trl, .flc, .smg, .bob, .tly, .scr, .slm] s s₁ := by
  cases h; exact doPqRaiseEvent_within _ _ _ _ _

theorem execPqCueNow_within {inv : Nat} {s s₁ : State} (h : execPqCueNow inv s = .next s₁) :
    Within [.free, .out, .bus, .evt, .cue, .hfe, .scn, .obj, .trl, .flc, .smg, .bob, .tly, .scr, .slm] s s₁ := by
  cases h; exact doPqCueNow_within _ _

theorem execHelperTimeout_within {inv : Nat} {s s₁ : State} (h : execHelperTimeout inv s = .next s₁) :
    Within [.free, .out, .bus, .evt, .cue, .hfe, .scn, .obj, .trl, .flc, .smg, .bob, .tly, .scr, .slm] s s₁ := by
  cases h; exact doHelperTimeout_within _ _

theorem execAsuUpdateStart_within {table : Nat} {s s₁ : State} (h : execAsuUpdateStart table s = .next s₁) :
    Within [.out, .bus, .evt, .bob, .asu] s s₁ := by
  cases h; exact doAsuUpdateStart_within _ _

theorem execAsuWalk_within {upset : Option AsuUpset} {s s₁ : State} (h : execAsuWalk upset s = .next s₁) :
    Within [.out, .bus, .evt, .asu] s s₁ := by
  cases h; exact doAsuWalk_within _ _

theorem execSmockCompress_within {task : Nat} {s s₁ : State} (h : execSmockCompress task s = .next s₁) :
    Within [.free, .out, .bus, .evt, .cue, .hfe, .scn, .obj, .trl, .flc, .smg, .bob, .dmc, .tly, .scr, .dram, .slm] s s₁ := by
  cases h; exact doSmockCompress_within _ _

theorem execSmockDecompress_within {task : Nat} {check : Option FixCheck} {s s₁ : State} (h : execSmockDecompress task check s =
      .next s₁) :
    Within [.free, .out, .bus, .evt, .cue, .hfe, .scn, .obj, .trl, .flc, .smg, .bob, .dmc, .tly, .scr, .dram, .slm] s s₁ := by
  cases h; exact doSmockDecompress_within _ _ _

theorem execTallyJob_within {task : Nat} {flip0 flip1 : Bool} {check : Option FixCheck} {s s₁ : State} (h : execTallyJob task flip0
      flip1 check s = .next s₁) :
    Within [.free, .out, .bus, .evt, .cue, .hfe, .scn, .obj, .trl, .flc, .smg, .bob, .dmc, .tly, .scr, .saf, .dram, .slm] s s₁ := by
  cases h; exact doTallyJob_within _ _ _ _ _

theorem execTwTlyStart_within {tag slot : Nat} {val : BitVec 32} {s s₁ : State} (h : execTwTlyStart tag slot val s = .next s₁) :
    Within [.out, .bus, .evt, .cue, .hfe, .scn, .smg, .bob, .tly, .scr] s s₁ := by
  cases h; exact doTwTlyStart_within _ _ _ _

theorem execTwTlyAbort_within {tag slot : Nat} {s s₁ : State} (h : execTwTlyAbort tag slot s = .next s₁) :
    Within [.bus, .cue, .smg, .bob, .tly, .scr] s s₁ := by
  cases h; exact doTwTlyAbort_within _ _ _

theorem execTwTlyDataHi_within {req : Requester} {tag slot : Nat} {hi : BitVec 32} {s s₁ : State} (h : execTwTlyDataHi req tag slot
      hi s = .next s₁) :
    Within [.out, .bus, .evt, .cue, .hfe, .scn, .smg, .bob, .tly, .scr, .halves] s s₁ := by
  cases h; exact doTwTlyDataHi_within _ _ _ _ _

theorem execTwTlyLastVb_within {tag slot vb : Nat} {s s₁ : State} (h : execTwTlyLastVb tag slot vb s = .next s₁) :
    Within [.out, .bus, .evt, .cue, .hfe, .scn, .smg, .bob, .tly, .scr] s s₁ := by
  cases h; exact doTwTlyLastVb_within _ _ _ _

theorem execTallyStreamIdle_within {tag slot : Nat} {s s₁ : State} (h : execTallyStreamIdle tag slot s = .next s₁) :
    Within [.out, .bus, .evt, .cue, .smg, .bob, .tly, .scr] s s₁ := by
  cases h; exact doTallyStreamIdle_within _ _ _

theorem execXtsEncrypt_within {task : Nat} {s s₁ : State} (h : execXtsEncrypt task s = .next s₁) :
    Within [.free, .out, .bus, .evt, .cue, .hfe, .scn, .obj, .trl, .flc, .smg, .bob, .dmc, .tly, .scr, .saf, .dram, .slm] s s₁ := by
  cases h; exact doXtsEncrypt_within _ _

theorem execXtsDecrypt_within {task : Nat} {s s₁ : State} (h : execXtsDecrypt task s = .next s₁) :
    Within [.free, .out, .bus, .evt, .cue, .hfe, .scn, .obj, .trl, .flc, .smg, .bob, .dmc, .tly, .scr, .saf, .dram, .slm] s s₁ := by
  cases h; exact doXtsDecrypt_within _ _

theorem execGcmEncrypt_within {task : Nat} {s s₁ : State} (h : execGcmEncrypt task s = .next s₁) :
    Within [.free, .out, .bus, .evt, .cue, .hfe, .scn, .obj, .trl, .flc, .smg, .bob, .dmc, .tly, .scr, .saf, .dram, .slm] s s₁ := by
  cases h; exact doGcmEncrypt_within _ _

theorem execGcmDecrypt_within {task : Nat} {s s₁ : State} (h : execGcmDecrypt task s = .next s₁) :
    Within [.free, .out, .bus, .evt, .cue, .hfe, .scn, .obj, .trl, .flc, .smg, .bob, .dmc, .tly, .scr, .saf, .dram, .slm] s s₁ := by
  cases h; exact doGcmDecrypt_within _ _

theorem execCmacGenerate_within {task : Nat} {s s₁ : State} (h : execCmacGenerate task s = .next s₁) :
    Within [.free, .out, .bus, .evt, .cue, .hfe, .scn, .obj, .trl, .flc, .smg, .bob, .dmc, .tly, .scr, .saf, .dram, .slm] s s₁ := by
  cases h; exact doCmacGenerate_within _ _

theorem execCmacVerify_within {task : Nat} {s s₁ : State} (h : execCmacVerify task s = .next s₁) :
    Within [.free, .out, .bus, .evt, .cue, .hfe, .scn, .obj, .trl, .flc, .smg, .bob, .dmc, .tly, .scr, .saf, .dram, .slm] s s₁ := by
  cases h; exact doCmacVerify_within _ _

theorem execKeyDerivation_within {r : DeriveReq} {s s₁ : State} (h : execKeyDerivation r s = .next s₁) :
    Within [.out, .bus, .evt, .scr] s s₁ := by
  cases h; exact doKeyDerivation_within _ _

theorem execCounterBlockOnFlash_within {slot : Nat} {s s₁ : State} (h : execCounterBlockOnFlash slot s = .next s₁) :
    Within [.free, .out, .bus, .evt, .cue, .hfe, .scn, .obj, .trl, .flc, .smg, .bob, .dmc, .tly, .scr, .saf, .dram, .slm] s s₁ := by
  cases h; exact doCounterBlockOnFlash_within _ _

theorem execScrSlotErase_within {s s₁ : State} (h : execScrSlotErase s = .next s₁) :
    Within [.free, .out, .bus, .evt, .cue, .hfe, .scn, .obj, .trl, .flc, .smg, .bob, .dmc, .tly, .scr, .saf, .dram, .slm] s s₁ := by
  cases h; exact doScrSlotErase_within _

theorem execTwKeyDeriveMac_within {tag index : Nat} {s s₁ : State} (h : execTwKeyDeriveMac tag index s = .next s₁) :
    Within [.out, .bus, .evt, .scr] s s₁ := by
  cases h; exact doTwKeyDeriveMac_within _ _ _

theorem execTwKeyDeriveCmac_within {tag index : Nat} {s s₁ : State} (h : execTwKeyDeriveCmac tag index s = .next s₁) :
    Within [.out, .bus, .evt, .scr] s s₁ := by
  cases h; exact doTwKeyDeriveCmac_within _ _ _

theorem execTwKeyErase_within {tag : Nat} {s s₁ : State} (h : execTwKeyErase tag s = .next s₁) :
    Within [.free, .out, .bus, .evt, .cue, .hfe, .scn, .obj, .trl, .flc, .smg, .bob, .dmc, .tly, .scr, .saf, .dram, .slm] s s₁ := by
  cases h; exact doTwKeyErase_within _ _

theorem execEntropyHealthFail_within {s s₁ : State} (h : execEntropyHealthFail s = .next s₁) :
    Within [.out, .bus, .evt, .scr] s s₁ := by
  cases h; exact doEntropyHealthFail_within _

theorem execEntropyRestartTimeout_within {s s₁ : State} (h : execEntropyRestartTimeout s = .next s₁) :
    Within [.free, .out, .bus, .evt, .cue, .hfe, .scn, .obj, .trl, .flc, .smg, .bob, .tly, .scr, .slm] s s₁ := by
  cases h; exact doEntropyRestartTimeout_within _

theorem execTamperAlarm_within {kind sensor : Nat} {s s₁ : State} (h : execTamperAlarm kind sensor s = .next s₁) :
    Within [.free, .out, .bus, .evt, .prk, .cue, .dev, .pwr, .hfe, .scn, .obj, .trl, .flc, .rch, .hop, .smg, .bob, .tly, .scr, .saf,
      .slm, .phase] s s₁ := by
  cases h; exact doTamperAlarm_within _ _ _

theorem execMeshCheck_within {loop : Nat} {sent received : BitVec 32} {s s₁ : State} (h : execMeshCheck loop sent received s = .next
      s₁) :
    Within [.free, .out, .bus, .evt, .prk, .cue, .dev, .pwr, .hfe, .scn, .obj, .trl, .flc, .rch, .hop, .smg, .bob, .tly, .scr, .saf,
      .slm, .phase] s s₁ := by
  cases h; exact doMeshCheck_within _ _ _ _

theorem execSpdmRequest_within {r : SpdmReq} {s s₁ : State} (h : execSpdmRequest r s = .next s₁) :
    Within [.out, .bus, .evt, .saf] s s₁ := by
  cases h; exact doSpdmRequest_within _ _

theorem execTdIdcode_within {s s₁ : State} (h : execTdIdcode s = .next s₁) :
    Within [.out, .saf] s s₁ := by
  cases h; exact doTdIdcode_within _

theorem execTdBypass_within {code : Nat} {s s₁ : State} (h : execTdBypass code s = .next s₁) :
    Within [.out, .saf] s s₁ := by
  cases h; exact doTdBypass_within _ _

theorem execTdNonce_within {s s₁ : State} (h : execTdNonce s = .next s₁) :
    Within [.free, .out, .bus, .evt, .saf] s s₁ := by
  cases h; exact doTdNonce_within _

theorem execTdResponse_within {r : TdResponse} {s s₁ : State} (h : execTdResponse r s = .next s₁) :
    Within [.out, .bus, .evt, .hfe, .tly, .scr, .saf] s s₁ := by
  cases h; exact doTdResponse_within _ _

theorem execTdStatus_within {s s₁ : State} (h : execTdStatus s = .next s₁) :
    Within [.out, .saf] s s₁ := by
  cases h; exact doTdStatus_within _

theorem execTdExtest_within {s s₁ : State} (h : execTdExtest s = .next s₁) :
    Within [.out, .saf] s s₁ := by
  cases h; exact doTdExtest_within _

theorem execTdSamplePreload_within {s s₁ : State} (h : execTdSamplePreload s = .next s₁) :
    Within [.free, .out, .saf] s s₁ := by
  cases h; exact doTdSamplePreload_within _

theorem execTdDebug_within {s s₁ : State} (h : execTdDebug s = .next s₁) :
    Within [.out, .saf] s s₁ := by
  cases h; exact doTdDebug_within _

theorem execNonceExpiry_within {s s₁ : State} (h : execNonceExpiry s = .next s₁) :
    Within [.saf] s s₁ := by
  cases h; exact doNonceExpiry_within _

theorem execTrapdoorRecordWritten_within {s s₁ : State} (h : execTrapdoorRecordWritten s = .next s₁) :
    Within [.free, .out, .bus, .evt, .prk, .cue, .dev, .pwr, .hfe, .scn, .obj, .trl, .flc, .rch, .hop, .smg, .bob, .tly, .scr, .saf,
      .slm, .phase] s s₁ := by
  cases h; exact doTrapdoorRecordWritten_within _

theorem execTrapdoorRecordTimeout_within {s s₁ : State} (h : execTrapdoorRecordTimeout s = .next s₁) :
    Within [.free, .out, .bus, .evt, .prk, .cue, .dev, .pwr, .hfe, .scn, .obj, .trl, .flc, .rch, .hop, .smg, .bob, .tly, .scr, .saf,
      .slm, .phase] s s₁ := by
  cases h; exact doTrapdoorRecordTimeout_within _

theorem execSafetyCurtainFailover_within {s s₁ : State} (h : execSafetyCurtainFailover s = .next s₁) :
    Within [.free, .out, .bus, .evt, .prk, .cue, .dev, .pwr, .hfe, .scn, .obj, .trl, .flc, .rch, .hop, .smg, .bob, .tly, .scr, .saf,
      .slm, .phase] s s₁ := by
  cases h; exact doSafetyCurtainFailover_within _

theorem execSwitchoverDone_within {selfTestOk : Bool} {s s₁ : State} (h : execSwitchoverDone selfTestOk s = .next s₁) :
    Within [.out, .bus, .evt, .hfe, .obj, .tly, .scr, .saf] s s₁ := by
  cases h; exact doSwitchoverDone_within _ _

theorem execDramRead_within {unit addr : Nat} {flips : List (Nat × BitVec 80)} {use : DramUse} {s s₁ : State} (h : execDramRead unit
      addr flips use s = .next s₁) :
    Within [.free, .out, .bus, .evt, .cue, .dev, .hfe, .scn, .obj, .trl, .flc, .smg, .bob, .dmc, .tly, .asu, .scr, .dram, .slm] s s₁
      := by
  unfold execDramRead at h
  split at h
  · cases h
  · cases h; exact doDramRead_within _ _ _ _ _

theorem execDramWrite_within {unit addr : Nat} {line : Bytes} {s s₁ : State} (h : execDramWrite unit addr line s = .next s₁) :
    Within [.free, .out, .bus, .evt, .cue, .dev, .hfe, .scn, .obj, .trl, .flc, .smg, .bob, .dmc, .tly, .asu, .scr, .dram, .slm] s s₁
      := by
  unfold execDramWrite at h
  split at h
  · cases h
  · cases h; exact doDramWrite_within _ _ _ _

theorem execMergeWrite_within {unit addr : Nat} {bytes : Bytes} {flips : List (Nat × BitVec 80)} {use : DramUse} {s s₁ : State} (h :
      execMergeWrite unit addr bytes flips use s = .next s₁) :
    Within [.free, .out, .bus, .evt, .cue, .dev, .hfe, .scn, .obj, .trl, .flc, .smg, .bob, .dmc, .tly, .asu, .scr, .dram, .slm] s s₁
      := by
  unfold execMergeWrite at h
  split at h
  · cases h
  · cases h; exact doMergeWrite_within _ _ _ _ _ _

theorem execRefreshDue_within {ch rank bank : Nat} {rfm : Bool} {s s₁ : State} (h : execRefreshDue ch rank bank rfm s = .next s₁) :
    Within [.free, .out, .bus, .evt, .cue, .dev, .hfe, .scn, .obj, .trl, .flc, .smg, .bob, .dmc, .tly, .asu, .scr, .dram, .slm] s s₁
      := by
  cases h; exact doRefreshDue_within _ _ _ _ _

theorem execRankRateRead_within {ch rank : Nat} {celsius : Nat} {rate : Nat} {s s₁ : State} (h : execRankRateRead ch rank celsius
      rate s = .next s₁) :
    Within [.out, .bus, .evt, .dmc] s s₁ := by
  cases h; exact doRankRateRead_within _ _ _ _ _

theorem execThermalReturnTimer_within {s s₁ : State} (h : execThermalReturnTimer s = .next s₁) :
    Within [.out, .bus, .evt, .dmc] s s₁ := by
  cases h; exact doThermalReturnTimer_within _

theorem execDmcFreqToA_within {s s₁ : State} (h : execDmcFreqToA s = .next s₁) :
    Within [.dmc] s s₁ := by
  cases h; exact doDmcFreqToA_within _

theorem execDmcFreqToB_within {s s₁ : State} (h : execDmcFreqToB s = .next s₁) :
    Within [.dmc] s s₁ := by
  cases h; exact doDmcFreqToB_within _

theorem execSelfRefreshCommitted_within {s s₁ : State} (h : execSelfRefreshCommitted s = .next s₁) :
    Within [.clk, .dmc] s s₁ := by
  cases h; exact doSelfRefreshCommitted_within _

theorem execPllRelocked_within {s s₁ : State} (h : execPllRelocked s = .next s₁) :
    Within [.clk, .dmc] s s₁ := by
  cases h; exact doPllRelocked_within _

theorem execTxsElapsed_within {s s₁ : State} (h : execTxsElapsed s = .next s₁) :
    Within [.free, .out, .bus, .evt, .cue, .dev, .hfe, .scn, .obj, .trl, .flc, .smg, .bob, .dmc, .tly, .asu, .scr, .dram, .slm] s s₁
      := by
  cases h; exact doTxsElapsed_within _

theorem execFreqChangeRetry_within {s s₁ : State} (h : execFreqChangeRetry s = .next s₁) :
    Within [.dmc] s s₁ := by
  cases h; exact doFreqChangeRetry_within _

theorem execIdleSelfRefresh_within {ch : Nat} {s s₁ : State} (h : execIdleSelfRefresh ch s = .next s₁) :
    Within [.dmc] s s₁ := by
  cases h; exact doIdleSelfRefresh_within _ _

theorem execDramPllUnlock_within {recovered : Bool} {s s₁ : State} (h : execDramPllUnlock recovered s = .next s₁) :
    Within [.free, .out, .bus, .evt, .clk, .cue, .dev, .pwr, .hfe, .scn, .obj, .trl, .flc, .smg, .bob, .dmc, .tly, .asu, .scr,
      .dram, .slm] s s₁ := by
  cases h; exact doDramPllUnlock_within _ _

theorem execScrubLine_within {flips : List (Nat × BitVec 80)} {sramEnd : Option Bool} {s s₁ : State} (h : execScrubLine flips
      sramEnd s = .next s₁) :
    Within [.out, .bus, .evt, .dev, .dmc, .dram] s s₁ := by
  cases h; exact doScrubLine_within _ _ _

theorem execSramRead_within {mem unit addr : Nat} {flip : BitVec 80} {use : DramUse} {s s₁ : State} (h : execSramRead mem unit addr
      flip use s = .next s₁) :
    Within [.free, .out, .bus, .evt, .cue, .hfe, .scn, .obj, .trl, .flc, .smg, .bob, .dmc, .tly, .asu, .scr, .slm] s s₁ := by
  cases h; exact doSramRead_within _ _ _ _ _ _

theorem execDmcRetire_within {ch : Nat} {s s₁ : State} (h : execDmcRetire ch s = .next s₁) :
    Within [.out, .bus, .evt, .dev, .dmc] s s₁ := by
  cases h; exact doDmcRetire_within _ _

theorem execBlockCopyDone_within {s s₁ : State} (h : execBlockCopyDone s = .next s₁) :
    Within [.free, .out, .bus, .evt, .cue, .dev, .hfe, .scn, .obj, .trl, .flc, .smg, .bob, .dmc, .tly, .asu, .scr, .dram, .slm] s s₁
      := by
  cases h; exact doBlockCopyDone_within _

theorem execEventRaise_within {e : Event} {s s₁ : State} (h : execEventRaise e s = .next s₁) :
    Within [.out, .bus, .evt] s s₁ := by
  cases h; exact doEventRaise_within _ _

theorem execSamplerPageTimer_within {s s₁ : State} (h : execSamplerPageTimer s = .next s₁) :
    Within [.evt] s s₁ := by
  cases h; exact doSamplerPageTimer_within _

theorem execSamplerPageProgrammed_within {copy page : Nat} {s s₁ : State} (h : execSamplerPageProgrammed copy page s = .next s₁) :
    Within [.evt] s s₁ := by
  cases h; exact doSamplerPageProgrammed_within _ _ _

theorem execSmpCursorWrite_within {req : Requester} {hi : BitVec 32} {s s₁ : State} (h : execSmpCursorWrite req hi s = .next s₁) :
    Within [.bus, .evt, .regs, .halves] s s₁ := by
  cases h; exact doSmpCursorWrite_within _ _ _

theorem execTwSmpCursorWrite_within {req : Requester} {tag : Nat} {hi : BitVec 32} {s s₁ : State} (h : execTwSmpCursorWrite req tag
      hi s = .next s₁) :
    Within [.bus, .evt, .regs, .halves] s s₁ := by
  cases h; exact doTwSmpCursorWrite_within _ _ _ _

theorem execTwEvtCtrlWrite_within {fn tag : Nat} {val : BitVec 32} {s s₁ : State} (h : execTwEvtCtrlWrite fn tag val s = .next s₁) :
    Within [.bus, .evt, .regs] s s₁ := by
  cases h; exact doTwEvtCtrlWrite_within _ _ _ _

theorem execResetRelease_within {c : PowerConditions} {s s₁ : State} (h : execResetRelease c s = .next s₁) :
    Within [.wall, .evt, .clk, .cue, .dev, .pwr, .scr] s s₁ := by
  cases h; exact doResetRelease_within _ _

theorem execSupplyConditionsMet_within {s s₁ : State} (h : execSupplyConditionsMet s = .next s₁) :
    Within [.wall, .evt, .clk, .cue, .dev, .pwr, .scr] s s₁ := by
  cases h; exact doSupplyConditionsMet_within _

theorem execFirmwareSlotRead_within {readOk verified : Bool} {s s₁ : State} (h : execFirmwareSlotRead readOk verified s = .next s₁) :
    Within [.out, .bus, .evt, .dev, .pwr, .saf, .phase] s s₁ := by
  cases h; exact doFirmwareSlotRead_within _ _ _

theorem execDevGo_within {s s₁ : State} (h : execDevGo s = .next s₁) :
    Within [.dev] s s₁ := by
  cases h; exact doDevGo_within _

theorem execDevSetHold_within {s s₁ : State} (h : execDevSetHold s = .next s₁) :
    Within [.dev] s s₁ := by
  cases h; exact doDevSetHold_within _

theorem execDevClearHold_within {s s₁ : State} (h : execDevClearHold s = .next s₁) :
    Within [.dev] s s₁ := by
  cases h; exact doDevClearHold_within _

theorem execRehearsalStart_within {s s₁ : State} (h : execRehearsalStart s = .next s₁) :
    Within [.out, .bus, .evt, .cue, .dev, .smg, .phase] s s₁ := by
  cases h; exact doRehearsalStart_within _

theorem execRehearsalStepStart_within {bit : Nat} {s s₁ : State} (h : execRehearsalStepStart bit s = .next s₁) :
    Within [.dev, .rch, .hop] s s₁ := by
  cases h; exact doRehearsalStepStart_within _ _

theorem execRehearsalStepDone_within {bit : Nat} {f : StepFacts} {s s₁ : State} (h : execRehearsalStepDone bit f s = .next s₁) :
    Within [.free, .out, .bus, .evt, .clk, .cue, .dev, .hfe, .scn, .obj, .trl, .flc, .hop, .smg, .bob, .dmc, .tly, .scr, .slm,
      .phase] s s₁ := by
  cases h; exact doRehearsalStepDone_within _ _ _

theorem execActuatorLoadDeadline_within {act : Nat} {s s₁ : State} (h : execActuatorLoadDeadline act s = .next s₁) :
    Within [.out, .bus, .evt, .rch] s s₁ := by
  cases h; exact doActuatorLoadDeadline_within _ _

theorem execPowerLoss_within {ns : Nat} {s s₁ : State} (h : execPowerLoss ns s = .next s₁) :
    Within [.free, .out, .bus, .evt, .prk, .cue, .dev, .pwr, .hfe, .scn, .obj, .trl, .flc, .rch, .hop, .smg, .bob, .tly, .scr, .slm]
      s s₁ := by
  cases h; exact doPowerLoss_within _ _

theorem execPerstAssert_within {ns : Nat} {s s₁ : State} (h : execPerstAssert ns s = .next s₁) :
    Within [.wall, .free, .out, .bus, .evt, .prk, .clk, .cue, .dev, .pwr, .hfe, .scn, .obj, .trl, .flc, .rch, .hop, .smg, .bob,
      .dmc, .tly, .asu, .scr, .saf, .dram, .slm, .regs, .halves, .phase] s s₁ := by
  cases h; exact doPerstAssert_within _ _

theorem execHarbourSeal_within {s s₁ : State} (h : execHarbourSeal s = .next s₁) :
    Within [.wall, .free, .out, .bus, .evt, .prk, .clk, .cue, .dev, .pwr, .hfe, .scn, .obj, .trl, .flc, .rch, .hop, .smg, .bob,
      .dmc, .tly, .asu, .scr, .saf, .dram, .slm, .regs, .halves, .phase] s s₁ := by
  cases h; exact doHarbourSeal_within _

theorem execTemperatureSample_within {temps : List Int} {s s₁ : State} (h : execTemperatureSample temps s = .next s₁) :
    Within [.free, .out, .bus, .evt, .prk, .cue, .dev, .pwr, .hfe, .scn, .obj, .trl, .flc, .rch, .hop, .smg, .bob, .tly, .scr, .saf,
      .slm, .phase] s s₁ := by
  cases h; exact doTemperatureSample_within _ _

theorem execThrottleStep_within {s s₁ : State} (h : execThrottleStep s = .next s₁) :
    Within [.out, .bus, .evt, .pwr] s s₁ := by
  cases h; exact doThrottleStep_within _

theorem execAgingMeasure_within {margin : Nat} {s s₁ : State} (h : execAgingMeasure margin s = .next s₁) :
    Within [.out, .bus, .evt, .pwr] s s₁ := by
  cases h; exact doAgingMeasure_within _ _

theorem execPowerEstimateUpdate_within {mw : Nat} {s s₁ : State} (h : execPowerEstimateUpdate mw s = .next s₁) :
    Within [.pwr] s s₁ := by
  cases h; exact doPowerEstimateUpdate_within _ _

theorem execRailOutOfTolerance_within {rail mv : Nat} {s s₁ : State} (h : execRailOutOfTolerance rail mv s = .next s₁) :
    Within [.out, .bus, .evt, .pwr] s s₁ := by
  cases h; exact doRailOutOfTolerance_within _ _ _

theorem execSuppliesRemoved_within {held : Nat} {s s₁ : State} (h : execSuppliesRemoved held s = .next s₁) :
    Within [.wall, .free, .out, .bus, .evt, .prk, .clk, .cue, .dev, .pwr, .hfe, .scn, .obj, .trl, .flc, .rch, .hop, .smg, .bob,
      .dmc, .tly, .asu, .scr, .saf, .dram, .slm, .regs, .halves, .phase] s s₁ := by
  cases h; exact doSuppliesRemoved_within _ _

theorem execWriteRunEnd_within {act : Nat} {s s₁ : State} (h : execWriteRunEnd act s = .next s₁) :
    Within [.free, .out, .bus, .evt, .cue, .hfe, .scn, .obj, .trl, .flc, .rch, .smg, .bob, .tly, .scr, .slm] s s₁ := by
  cases h; exact doWriteRunEnd_within _ _

theorem execPduTypeNotAllowed_within {conn : Nat} {s s₁ : State} (h : execPduTypeNotAllowed conn s = .next s₁) :
    Within [.free, .out, .bus, .evt, .cue, .hfe, .scn, .obj, .trl, .flc, .smg, .bob, .tly, .scr, .slm] s s₁ := by
  cases h; exact doPduTypeNotAllowed_within _ _

end Sys2Proof.Machine
end

