-- ==== Sys2Proof/Laws/Loader.lean ====
section
/-! SUPPORT. The loader: what an APPLY that starts, and a load that is abandoned, leave in the loader's state. -/
namespace Sys2Proof.Machine

/-- An APPLY that starts puts the units of its touch set into Intermission (R41). -/
theorem startApply_prk (img : PrkImage) (c : PrkConfig) (s : State) :
    (startApply img c s).prk = { s.prk with
      phase := .draining
      pendingCfg := some c
      pendingRegions := (parseRegions img.bytes).map (fun r => r.id)
      pendingTouch := imgTouch img.bytes ||| imgDeclared img.bytes
      intermission := (List.range 20).filter (fun i => (imgTouch img.bytes ||| imgDeclared img.bytes).testBit i)
      undrained := (List.range 20).filter (fun i => (imgTouch img.bytes ||| imgDeclared img.bytes).testBit i)
      drainStart := s.wall } := by
  unfold startApply
  extract_lets touch units t
  split
  · rfl
  · rw [(post_within ..).same_prk rfl]
    rfl

/-- An abandoned load leaves the configuration in effect and the floor (R42, R43). -/
theorem abandonLoad_prk (err code : Nat) (s : State) :
    (abandonLoad err code s).prk = { s.prk with
      err := err, phase := .idle, cmd := none, intermission := [], undrained := [], pendingCfg := none, storeImage := none
      slot0 := if s.prk.phase = .storing ∧ s.prk.activeSlot ≠ 0 then none else s.prk.slot0
      slot1 := if s.prk.phase = .storing ∧ s.prk.activeSlot = 0 then none else s.prk.slot1 } := by
  unfold abandonLoad
  rw [(goOn_within _).same_prk rfl]
  show (raise ..).prk = _
  rw [(raise_within ..).same_prk rfl]
  rfl

/-- A failed check applies nothing (R37). -/
theorem failLoad_prk (e : LoadErr) (s : State) :
    (failLoad e s).prk = { s.prk with
      err := e.code, errLoc := e.loc, errInst := e.ix % 65536, phase := .idle, cmd := none } := by
  unfold failLoad
  rw [(raise_within ..).same_prk rfl]
  rfl

theorem writeOwners_prk (img : PrkImage) (s : State) :
    (writeOwners img s).prk = s.prk ∨ ∃ k, (writeOwners img s).prk = { s.prk with ownerStore := k } := by
  unfold writeOwners
  extract_lets keys
  split
  · exact .inl rfl
  · refine .inr ⟨keys, ?_⟩
    show (raise ..).prk = _
    rw [(raise_within ..).same_prk rfl]
    rfl

/-- An image taken at start-up is in effect whole, all regions sealed, the floor as it was (R39). -/
theorem bootWith_prk (k : Nat) (img : PrkImage) (s : State) (h : (if k = 0 then s.prk.slot0 else s.prk.slot1) = some img) :
    (bootWith k s).prk.active = some (resultCfg img.bytes none) ∧ (bootWith k s).prk.sealedRegions = List.range 16 ∧
    (bootWith k s).prk.floor = s.prk.floor := by
  unfold bootWith
  rw [h]
  simp only []
  rw [(drawTenantSecrets_within _).same_prk rfl, (reloadHoop_within _).same_prk rfl]
  refine ⟨rfl, rfl, ?_⟩
  show (writeOwners img s).prk.floor = _
  rcases writeOwners_prk img s with e | ⟨k, e⟩ <;> rw [e]

end Sys2Proof.Machine
end

