-- ==== Sys2Proof/Laws/Window.lean ====
section
/-! SUPPORT. The register windows: a requester's halves after each change of them, what CUE_NOW shows, what an open window means. -/
namespace Sys2Proof.Machine

@[simp] theorem find_dropHalf (l : List Half) (q k : Nat) :
    (dropHalf l q k).find? (fun h => h.requester == q && h.key == k) = none := by
  unfold dropHalf
  rw [List.find?_eq_none]
  intro x hx
  have := (List.mem_filter.1 hx).2
  cases e : (x.requester == q && x.key == k) <;> simp_all

@[simp] theorem find_dropHalf_append (l : List Half) (q k : Nat) (v : W32) :
    (dropHalf l q k ++ [(⟨q, k, v⟩ : Half)]).find? (fun h => h.requester == q && h.key == k) = some ⟨q, k, v⟩ := by
  rw [List.find?_append, find_dropHalf]
  simp [List.find?]

/-- After a write of its low word a requester holds it (R8). -/
@[simp] theorem pendingLow_holdLow (q : Requester) (k : Nat) (v : W32) (s : State) : pendingLow (holdLow q k v s) q k = some v := by
  unfold pendingLow holdLow
  simp only [find_dropHalf_append, Option.map_some]

@[simp] theorem pendingLow_useLow (q : Requester) (k : Nat) (s : State) : pendingLow (useLow q k s) q k = none := by
  simp [pendingLow, useLow]

/-- After a read of the low word a requester holds the high half (R8). -/
@[simp] theorem latched_latchHigh (q : Requester) (k hi : Nat) (s : State) : latched (latchHigh q k hi s) q k = some (BitVec.ofNat 32 hi) := by
  unfold latched latchHigh
  simp only [find_dropHalf_append, Option.map_some]

@[simp] theorem latched_useLatch (q : Requester) (k : Nat) (s : State) : latched (useLatch q k s) q k = none := by
  simp [latched, useLatch]

/-- A window that takes writes is not in recovery. -/
theorem writable_recovery {s : State} {b : Bool} (h : writable s b = true) (h' : s.dev.phase ≠ .curtainDown) : s.dev.recovery = false := by
  unfold writable at h
  split at h <;> simp_all

theorem writable_false {s : State} (h : writable s false = true) : s.dev.recovery = false ∧ s.dev.phase ≠ .curtainDown ∧ s.dev.phase ≠ .dark := by
  unfold writable at h
  split at h <;> simp_all

theorem reg_lt (s : State) (k r : Nat) (h : r < 2 ^ 32) : s.reg k r < 2 ^ 32 := by
  unfold State.reg
  split
  · exact BitVec.isLt _
  · exact h

/-- CUE_NOW shows the cue counter (R74). -/
theorem regValue_cueNowLo (s : State) : regValue s .house 0x200010 = s.cue.now % 2 ^ 32 := by
  have hr : regRow .house 0x200010 = some ⟨0x200010, 1, 0, 1, .ro, 0, true, false⟩ := by decide
  simp [regValue, hr, viewOf, houseView, cueView]

theorem regValue_cueNowHi (s : State) : regValue s .house 0x200014 = s.cue.now / 2 ^ 32 % 2 ^ 32 := by
  have hr : regRow .house 0x200014 = some ⟨0x200014, 1, 0, 1, .ro, 0, false, false⟩ := by decide
  simp [regValue, hr, viewOf, houseView, cueView]

end Sys2Proof.Machine
end

