-- ==== Sys2Proof/WellFormed.lean ====
section
/-! DEFINITION. Which commands the block's surroundings can send: operands inside the ranges the chapters give. A command outside
them still has its meaning in exec; nothing but statements uses these checks. -/
namespace Sys2Proof

/-- A user tenant (R3): 0x001 to 0x1000. -/
def userTag (t : Nat) : Bool := decide (1 ≤ t) && decide (t ≤ 4096)

/-- The key of a key-value pair: 1 to 16 bytes (R163). -/
def keyLen (k : Bytes) : Bool := decide (1 ≤ k.length) && decide (k.length ≤ 16)

/-- A requester the device has: two PCIe ports of a physical function and 1,024 virtual functions, two lock-stepped Prompter pairs
(R8, R78). -/
def Requester.wf : Requester → Bool
  | .function port fn => decide (port < 2) && decide (fn ≤ 1024)
  | .mi => true
  | .prompter pair => decide (pair < 2)

/-- A window of the house or of a user tenant. -/
def Window.wf : Window → Bool
  | .house => true
  | .tenant tag => userTag tag

/-- The size of a window in bytes: 64 MiB and 64 KiB. -/
def Window.bytes : Window → Nat
  | .house => 67108864
  | .tenant _ => 65536

/-- The visible fields of a Ground transaction fit their widths (R15): tag 13 bits, route 12, class 2, sequence 32. -/
def GroundTx.wf (t : GroundTx) : Bool :=
  decide (t.tag < 8192) && decide (t.owner ≤ 4096) && decide (t.route < 4096) && decide (t.cls < 4) && decide (t.seq < 4294967296)

/-- A status code's fields (R132). -/
def Status.wf (st : Status) : Bool := decide (st.sct < 8) && decide (st.sc < 256)

/-- An event's fields (R457): one of 512 sources, a 16-bit code, two 64-bit arguments, an assigned tag. -/
def Event.wf (e : Event) : Bool :=
  decide (e.source < 512) && decide (e.code < 65536) && decide (e.arg0 < 18446744073709551616) && decide (e.arg1 < 18446744073709551616) &&
    decide (e.tag ≤ 4096)

/-- A poster's part of its share (R66): 32 flash channels, four actuators. -/
def Poster.wf : Poster → Bool
  | .flash ch => decide (ch < 32)
  | .read act => decide (act < 4)
  | .stage | .prompters | .hoop | .hfe => true

/-- A cue for one of the 80 taps, at a 64-bit fire time (R57, R67). -/
def CueReq.wf (c : CueReq) : Bool := decide (c.fire < 18446744073709551616) && decide (c.target < 80) && decide (c.tag ≤ 4096)

/-- A TLP's BAR and size. -/
def Tlp.wf (t : Tlp) : Bool :=
  match t.kind with
  | .read bar _ size => bar.all (fun b => decide (b < 6)) && decide (size ≤ 4096)
  | .write bar _ size _ => bar.all (fun b => decide (b < 6)) && decide (size ≤ 4096)
  | .completion _ => true

/-- A Connect's port, queue and sizes (R87). -/
def ConnectReq.wf (c : ConnectReq) : Bool :=
  decide (c.lport < 4) && decide (c.cntlid < 65536) && decide (c.qid < 65536) && decide (c.size < 65536) && decide (c.kato < 4294967296)

/-- The fields every command carries. -/
def CmdHdr.wf (h : CmdHdr) : Bool :=
  decide (h.ctrl < 262144) && decide (h.sq < 65536) && decide (h.cid < 65536) && decide (h.nsid < 4294967296)

/-- The operands of a command lie inside the ranges the spec gives them. -/
def Instr.wellFormed : Instr → Bool
  | .registerWrite req win off _ _ => req.wf && win.wf && decide (off < win.bytes)
  | .lowWordWrite req win off _ => req.wf && win.wf && off % 8 == 0 && decide (off < win.bytes)
  | .highWordWrite req win off _ => req.wf && win.wf && off % 8 == 4 && decide (off < win.bytes)
  | .lowWordRead req win off => req.wf && win.wf && off % 8 == 0 && decide (off < win.bytes)
  | .highWordRead req win off => req.wf && win.wf && off % 8 == 4 && decide (off < win.bytes)
  | .readClear req win off size hwUpdate => req.wf && win.wf && decide (off < win.bytes) && (size == 1 || size == 2 || size == 4 || size == 8) && decide (hwUpdate < 4294967296)
  | .groundTransaction t => t.wf
  | .prkVerify _ _ => true
  | .prkApply _ _ => true
  | .prkStore _ _ => true
  | .prkAbort => true
  | .prkImageFetched _ => true
  | .prkApertureWrite off words => off % 4 == 0 && decide (off < 65536) && decide (words.length ≤ 16384)
  | .intermissionDrained _ => true
  | .drainLimitExpiry => true
  | .storeSlotWritten _ => true
  | .prickingBootLoad _ => true
  | .clkGateReqWrite _ => true
  | .clockDomainStop dom => decide (dom < 25)
  | .clockDomainStart dom => decide (dom < 25)
  | .refclkMeterInterval _ => true
  | .clockAlarm _ => true
  | .cueStepWrite req _ => req.wf
  | .cueBroadcast _ => true
  | .tapSkewMeasure tap _ _ => decide (tap < 80)
  | .cueCalCtrl _ => true
  | .cueCtrlWrite _ => true
  | .cueRateAdjWrite _ => true
  | .ptpEventMessage port _ _ => decide (port < 4)
  | .ptmResponse _ => true
  | .disciplineSourceLost => true
  | .cuePost poster c => poster.wf && c.wf
  | .cueArm slot => decide (slot < 4096)
  | .cueFire slot => decide (slot < 4096)
  | .cueCancel poster slot => poster.wf && decide (slot < 4096)
  | .cancelArrival slot => decide (slot < 4096)
  | .cuePostCmd _ => true
  | .cueCancelWrite _ => true
  | .beatBoundary => true
  | .pcieTlp port fn tlp => decide (port < 2) && decide (fn ≤ 1024) && tlp.wf
  | .doorbellWrite ctrl _ qid val => decide (ctrl < 262144) && decide (qid < 65536) && decide (val < 65536)
  | .pcieCompletion _ _ _ => true
  | .completionTimeout _ => true
  | .doeObject port _ => decide (port < 2)
  | .pcieLinkUp port rate width _ _ => decide (port < 2) && decide (1 ≤ rate) && decide (rate ≤ 6) && (width == 1 || width == 2 || width == 4 || width == 8)
  | .pcieLinkDown port => decide (port < 2)
  | .flr port fn => decide (port < 2) && decide (fn ≤ 1024)
  | .vfEnableChange port _ numVfs => decide (port < 2) && decide (numVfs < 65536)
  | .controllerEnable ctrl _ => decide (ctrl < 262144)
  | .controllerDisable ctrl => decide (ctrl < 262144)
  | .ethFrame port _ => decide (port < 4)
  | .pauseFrame port prio _ => decide (port < 4) && prio.all (fun p => p < 8)
  | .cnpReceived _ => true
  | .rateRecoveryStep _ => true
  | .ethLinkUp port _ => decide (port < 4)
  | .logicalPortDown port => decide (port < 4)
  | .tcpIcreq _ ic => decide (ic.lport < 4)
  | .tcpCapsule _ _ => true
  | .h2cData _ _ => true
  | .tcpConnectionLoss _ => true
  | .tlsHandshake _ msg => decide (msg.lport < 4)
  | .tlsRecord _ _ => true
  | .tlsKeyUpdateDue _ => true
  | .connect c => c.wf
  | .connectAdmitted _ => true
  | .invalidHostClose _ => true
  | .disconnect _ => true
  | .keepAliveExpiry ctrl => decide (ctrl < 262144)
  | .rdmaSend _ _ _ => true
  | .rdmaReadResponse _ _ => true
  | .rdmaNak _ => true
  | .rdmaInboundAccess _ => true
  | .rdmaQpLoss _ => true
  | .dataRequestIssue _ _ => true
  | .dataTimeout _ => true
  | .miMessage _ => true
  | .hfeNetCtrlWrite _ => true
  | .createIoSq h qid size cqid prio => h.wf && decide (qid < 65536) && decide (size < 65537) && decide (cqid < 65536) && decide (prio < 4)
  | .createIoCq h qid size vector => h.wf && decide (qid < 65536) && decide (size < 65537) && decide (vector < 65536)
  | .deleteIoSq h qid => h.wf && decide (qid < 65536)
  | .deleteIoCq h qid => h.wf && decide (qid < 65536)
  | .getLogPage h lid _ _ _ => h.wf && decide (lid < 256)
  | .getLogGloexError h lsi _ _ => h.wf && decide (lsi < 65536)
  | .getLogResetOutcome h _ _ => h.wf
  | .getLogCommitCue h lsi _ _ => h.wf && decide (lsi < 65536)
  | .getLogEventLog h _ _ _ => h.wf
  | .identify h cns => h.wf && decide (cns < 256)
  | .getFeatures h fid => h.wf && decide (fid < 256)
  | .setFeatures h fid _ _ _ => h.wf && decide (fid < 256)
  | .setQueueOrdering h _ _ => h.wf
  | .getQueueOrdering h _ => h.wf
  | .setSelfTestStep h _ _ => h.wf
  | .abort h sqid target => h.wf && decide (sqid < 65536) && decide (target < 65536)
  | .abortHoldExpiry ctrl cid => decide (ctrl < 262144) && decide (cid < 65536)
  | .asyncEventRequest h => h.wf
  | .keepAlive h => h.wf
  | .deviceSelfTest h code => h.wf && decide (code < 16)
  | .selfTestAbort h => h.wf
  | .selfTestStep ctrl _ _ => decide (ctrl < 262144)
  | .formatNvm h lbaf ses => h.wf && decide (lbaf < 64) && decide (ses < 8)
  | .securitySend h _ => h.wf
  | .securityReceive h proto => h.wf && decide (proto < 256)
  | .loadProgram h pidx ptype _ _ _ => h.wf && decide (pidx < 65536) && decide (ptype < 256)
  | .programTranslated tenant pidx _ => decide (tenant ≤ 4096) && decide (pidx < 65536)
  | .programActivate h pidx => h.wf && decide (pidx < 65536)
  | .programDeactivate h pidx => h.wf && decide (pidx < 65536)
  | .memoryRangeSetManagement h _ setId ranges => h.wf && decide (setId < 65536) && decide (ranges.length ≤ 256)
  | .namespaceManagement h _ _ => h.wf
  | .namespaceAttachment h _ ctrls => h.wf && ctrls.all (fun c => c < 262144)
  | .firmwareImageDownload h offset _ => h.wf && offset % 4 == 0
  | .firmwareCommit h action slot => h.wf && decide (action < 8) && decide (slot < 8)
  | .firmwareActivate h slot => h.wf && decide (slot < 8)
  | .firmwareActivationSwitch => true
  | .activationTimeout => true
  | .sanitize h action => h.wf && decide (action < 8)
  | .nvmeMiSend h _ => h.wf
  | .nvmeMiReceive h => h.wf
  | .restartQueue h sqid _ => h.wf && decide (sqid < 65536)
  | .invalidOpcode h _ opcode => h.wf && decide (opcode < 256)
  | .nvmRead h slba nlb _ => h.wf && decide (slba < 18446744073709551616) && decide (nlb < 65537)
  | .nvmWrite h slba nlb _ _ => h.wf && decide (slba < 18446744073709551616) && decide (nlb < 65537)
  | .flush h => h.wf
  | .compare h slba nlb => h.wf && decide (slba < 18446744073709551616) && decide (nlb < 65537)
  | .writeZeroes h slba nlb => h.wf && decide (slba < 18446744073709551616) && decide (nlb < 65537)
  | .writeUncorrectable h slba nlb => h.wf && decide (slba < 18446744073709551616) && decide (nlb < 65537)
  | .datasetManagement h _ ranges => h.wf && decide (ranges.length ≤ 256)
  | .verify h slba nlb => h.wf && decide (slba < 18446744073709551616) && decide (nlb < 65537)
  | .copy h _ _ ranges => h.wf && decide (ranges.length ≤ 256)
  | .kvStore h key _ _ => h.wf && keyLen key
  | .kvRetrieve h key _ => h.wf && keyLen key
  | .kvDelete h key => h.wf && keyLen key
  | .kvExist h key => h.wf && keyLen key
  | .kvList h key _ => h.wf && decide (key.length ≤ 16)
  | .executeProgram h pidx _ _ _ => h.wf && decide (pidx < 65536)
  | .memoryRead h _ _ => h.wf
  | .memoryWrite h _ _ => h.wf
  | .memoryCopy h _ => h.wf
  | .fence h _ => h.wf
  | .commitRequest _ => true
  | .rollBackRequest _ st => st.wf
  | .readPoint _ => true
  | .arcExport tag => userTag tag
  | .arcImport tag _ => userTag tag
  | .arcAbort tag => userTag tag
  | .arcProvenance tag => userTag tag
  | .arcFileDone tag _ => userTag tag
  | .tierMovePass nsid => decide (nsid < 4294967296)
  | .sweepDayBoundary nsid => decide (nsid < 4294967296)
  | .callBoardExpiry => true
  | .cbdCursorWrite req _ => req.wf
  | .twCbCursorWrite req tag _ => req.wf && userTag tag
  | .twTlyPrCursorWrite req tag _ => req.wf && userTag tag
  | .journalWrite => true
  | .journalProgrammed => true
  | .destage _ => true
  | .placeAdmit => true
  | .checkpointStart => true
  | .trlCkptCtrl _ => true
  | .checkpointClosed => true
  | .reclaimBackground => true
  | .reclaimForeground => true
  | .platterReclaim act => decide (act < 4)
  | .retentionExpiry _ => true
  | .flashReadDone _ lun => decide (lun < 1024)
  | .flashProgramDone lun _ => decide (lun < 1024)
  | .flashEraseDone lun _ => decide (lun < 1024)
  | .lunTimeout lun => decide (lun < 1024)
  | .channelRetrain ch _ _ => decide (ch < 32)
  | .decodeDone _ _ _ _ => true
  | .flcEvacuate g => decide (g < 4)
  | .evacuationDone => true
  | .flcRemove g => decide (g < 4)
  | .flcInsert g _ _ => decide (g < 4)
  | .insertionDone => true
  | .flcCancel g => decide (g < 4)
  | .flcResume g _ => decide (g < 4)
  | .angleField act _ => decide (act < 4)
  | .relockTimeout act => decide (act < 4)
  | .servoField act _ => decide (act < 4)
  | .sectorSync act lane _ => decide (act < 4) && decide (lane < 2)
  | .codewordComplete act lane => decide (act < 4) && decide (lane < 2)
  | .reservationRelease dec => decide (56 ≤ dec) && decide (dec < 64)
  | .shockCrossing input _ => decide (input < 2)
  | .preampFault act _ => decide (act < 4)
  | .preampFrameDone act _ _ => decide (act < 4)
  | .rchCalibrateL0 act => decide (act < 4)
  | .rchCalibrateL1 act => decide (act < 4)
  | .rchPark act => decide (act < 4)
  | .rchResume act => decide (act < 4)
  | .rchOffline act => decide (act < 4)
  | .laneCalibrationDue act lane _ => decide (act < 4) && decide (lane < 2)
  | .laneCalibrationDone act lane _ => decide (act < 4) && decide (lane < 2)
  | .offlineWaitExpiry _ => true
  | .rchPaCmd act _ => decide (act < 4)
  | .sampleBoundary slot _ => decide (slot < 64)
  | .hopSlotEnable slot => decide (slot < 64)
  | .hopSlotDisable slot => decide (slot < 64)
  | .hopBankRequest slot _ _ => decide (slot < 64)
  | .hopCoeffWrite slot _ idx _ _ => decide (slot < 64) && decide (idx < 7)
  | .hopSetpointWrite req slot _ => req.wf && decide (slot < 64)
  | .hopProfileStart act first => decide (act < 4) && decide (first < 2048)
  | .hopProfileStop act => decide (act < 4)
  | .motorLinkFrame _ => true
  | .nopIdleTimer => true
  | .parkTimeout act => decide (act < 4)
  | .actuatorLoaded act _ => decide (act < 4)
  | .driverFault _ => true
  | .heaterFrameSend act head => decide (act < 4) && decide (head < 6)
  | .mlkCmd _ => true
  | .mlkResync _ => true
  | .ringTailWrite ring val => decide (ring < 16) && decide (val < 4294967296)
  | .smgRingCtrlWrite req ring reg _ => req.wf && decide (ring < 16) && decide (reg < 3)
  | .batchCreate ring => decide (ring < 16)
  | .taskComplete _ status => decide (status < 256)
  | .taskDispatch _ _ => true
  | .sealedWindowSave _ => true
  | .bobRetire _ => true
  | .bobbinWatchdog bob => decide (bob < 96)
  | .bobbinSelftest core _ => decide (core < 104)
  | .retireGraceExpiry => true
  | .understudyLoaded => true
  | .invocationComplete _ _ => true
  | .budgetExhausted _ _ => true
  | .pqAsuSearch _ _ _ _ _ => true
  | .pqAsuInsert _ _ _ _ => true
  | .pqAsuDelete _ _ _ => true
  | .pqAsuScan _ _ _ _ _ => true
  | .pqDigest _ _ _ => true
  | .pqDigestPart _ _ _ _ _ _ => true
  | .pqCompress _ _ _ _ _ => true
  | .pqDecompress _ _ _ _ => true
  | .pqCrc64 _ _ _ => true
  | .pqMemCopy _ _ _ => true
  | .pqMemCmp _ _ _ => true
  | .pqFence _ _ => true
  | .pqRaiseEvent _ _ _ _ => true
  | .pqCueNow _ => true
  | .helperTimeout _ => true
  | .asuUpdateStart table => decide (table < 32)
  | .asuWalk _ => true
  | .smockCompress _ => true
  | .smockDecompress _ _ => true
  | .tallyJob _ _ _ _ => true
  | .twTlyStart tag slot _ => userTag tag && decide (slot < 4)
  | .twTlyAbort tag slot => userTag tag && decide (slot < 4)
  | .twTlyDataHi req tag slot _ => req.wf && userTag tag && decide (slot < 4)
  | .twTlyLastVb tag slot _ => userTag tag && decide (slot < 4)
  | .tallyStreamIdle tag slot => userTag tag && decide (slot < 4)
  | .xtsEncrypt _ => true
  | .xtsDecrypt _ => true
  | .gcmEncrypt _ => true
  | .gcmDecrypt _ => true
  | .cmacGenerate _ => true
  | .cmacVerify _ => true
  | .keyDerivation _ => true
  | .counterBlockOnFlash slot => decide (slot < 8192)
  | .scrSlotErase => true
  | .twKeyDeriveMac tag _ => userTag tag
  | .twKeyDeriveCmac tag _ => userTag tag
  | .twKeyErase tag => userTag tag
  | .entropyHealthFail => true
  | .entropyRestartTimeout => true
  | .tamperAlarm kind _ => decide (kind < 5)
  | .meshCheck loop _ _ => decide (loop < 4)
  | .spdmRequest _ => true
  | .tdIdcode => true
  | .tdBypass code => decide (code < 256)
  | .tdNonce => true
  | .tdResponse _ => true
  | .tdStatus => true
  | .tdExtest => true
  | .tdSamplePreload => true
  | .tdDebug => true
  | .nonceExpiry => true
  | .trapdoorRecordWritten => true
  | .trapdoorRecordTimeout => true
  | .safetyCurtainFailover => true
  | .switchoverDone _ => true
  | .dramRead _ _ _ _ => true
  | .dramWrite _ addr line => addr % 64 == 0 && line.length == 64
  | .mergeWrite _ _ bytes _ _ => decide (bytes.length ≤ 64)
  | .refreshDue ch rank bank _ => decide (ch < 4) && decide (rank < 2) && decide (bank < 32)
  | .rankRateRead ch rank _ _ => decide (ch < 4) && decide (rank < 2)
  | .thermalReturnTimer => true
  | .dmcFreqToA => true
  | .dmcFreqToB => true
  | .selfRefreshCommitted => true
  | .pllRelocked => true
  | .txsElapsed => true
  | .freqChangeRetry => true
  | .idleSelfRefresh ch => decide (ch < 4)
  | .dramPllUnlock _ => true
  | .scrubLine _ _ => true
  | .sramRead _ _ _ _ _ => true
  | .dmcRetire ch => decide (ch < 4)
  | .blockCopyDone => true
  | .eventRaise e => e.wf
  | .samplerPageTimer => true
  | .samplerPageProgrammed copyNo _ => decide (copyNo < 2)
  | .smpCursorWrite req _ => req.wf
  | .twSmpCursorWrite req tag _ => req.wf && userTag tag
  | .twEvtCtrlWrite fn tag _ => decide (fn < 65536) && decide (fn % 32768 ≤ 1024) && userTag tag
  | .resetRelease _ => true
  | .supplyConditionsMet => true
  | .firmwareSlotRead _ _ => true
  | .devGo => true
  | .devSetHold => true
  | .devClearHold => true
  | .rehearsalStart => true
  | .rehearsalStepStart bit => decide (bit < 9)
  | .rehearsalStepDone bit _ => decide (bit < 9)
  | .actuatorLoadDeadline act => decide (act < 4)
  | .powerLoss _ => true
  | .perstAssert _ => true
  | .harbourSeal => true
  | .temperatureSample temps => temps.length == 8
  | .throttleStep => true
  | .agingMeasure _ => true
  | .powerEstimateUpdate _ => true
  | .railOutOfTolerance rail _ => decide (rail < 11)
  | .suppliesRemoved _ => true
  | .writeRunEnd act => decide (act < 4)
  | .pduTypeNotAllowed _ => true

end Sys2Proof
end

