-- ==== Sys2Proof/Tests/Slice0.lean ====
section
/-! SUPPORT. Tests: ill-formed commands that WellFormed refuses, one step of a few commands against the spec's own words, and, for every
obligation with hypotheses, a state and operands that meet each clause's hypotheses together. -/
namespace Sys2Proof.Tests
open Sys2Proof.Machine
set_option Elab.async false

/-! ### Small states -/

/-- Performance, with a configuration of these records. -/
def perf (recs : Tab Bytes) : State :=
  { State.reset with
    dev := { State.reset.dev with phase := .performance, perstHigh := true }
    prk := { State.reset.prk with active := some { recs := recs } } }

/-- House Lights, before any Pricking has loaded. -/
def lights : State := { State.reset with dev := { State.reset.dev with phase := .houseLights, perstHigh := true } }

/-- A record of a configuration, its body zero-filled to its length. -/
def rec' (ty ix len : Nat) (body : Bytes) : Nat × Bytes := (recKey ty ix, padTo body len)

/-- A TENANT record with these flags: quotas of 2^40 bytes, 1 MiB of Wings and staging, 1 MiB of SLM. -/
def tenantIs (tag flags : Nat) : Nat × Bytes :=
  rec' 0x0201 tag 32 (leBytes 4 flags ++ leBytes 8 (2 ^ 40) ++ leBytes 8 (2 ^ 40) ++ leBytes 4 1024 ++ leBytes 4 1024 ++ leBytes 4 1)

/-- A SURFACE record: actuator, head 0, role 1. -/
def surfaceIs (act : Nat) : Nat × Bytes := rec' 0x0B01 act 8 [BitVec.ofNat 8 act, 0, 1]

/-- Performance with actuator 0 present. -/
def discs : State := perf [surfaceIs 0]

/-- Actuator 0 as `x`. -/
def onDisc (x : RchAct) : State := { discs with rch := { acts := [(0, x)] } }

def sender : Requester := .prompter 0

/-- A PCIe controller of the house (tag 0) that runs. -/
def ctl : Ctrl :=
  { tag := 0, transport := 0, gloex := false, ioQueues := 4, queueEntries := 64, vectors := 4, port := 0, fn := 0, enabled := true,
    ready := true, cfs := false, resetting := false, aqa := 0, assoc := none, endedKato := 0, endedAt := 0 }

/-- A submission queue that holds one command. -/
def sq1 : SubQueue := { size := 16, cqid := 0, tail := 1 }

def cq1 : CompQueue := { size := 16, vector := 0 }

/-- Controller 7 as `k`, its admin queue and I/O queue 1 each holding a command, over a configuration. -/
def serving (k : Ctrl) (recs : Tab Bytes) : State :=
  { perf recs with
    hfe := { (perf recs).hfe with ctrls := [(7, k)] }
    scn := { (perf recs).scn with sqs := [(qKey 7 0, sq1), (qKey 7 1, sq1)], cqs := [(qKey 7 0, cq1)] } }

/-- An admin command of controller 7, and an I/O command. -/
def adm : CmdHdr := { ctrl := 7, sq := 0, cid := 1, nsid := 1, badField := false }
def io : CmdHdr := { ctrl := 7, sq := 1, cid := 1, nsid := 1, badField := false }

/-- A Scene of controller 7 that does `kind`. -/
def sceneOf (kind : SceneKind) : Scene :=
  { ctrl := 7, sq := 1, cid := 1, nsid := 1, tag := 0, opcode := 0, kind := kind, fetched := 0, retired := false, rolledBack := false, need := 0,
    data := [], asked := 0, staged := 0, points := 0, wantPoint := false, wantCommit := false, waits := [], media := [],
    st := { sct := 0, sc := 0, dnr := false }, dw0 := 0, dw1 := 0, commitCue := 0, boundary := none, reserve := none, version := none,
    noPost := false }

/-- A namespace of the house attached to controller 7. -/
def nsIs (kv : Bool) : Namespace :=
  { owner := 0, kv := kv, nsze := 64, lbaf := 0, services := 0, compFormat := 0, compLevel := 0, cipher := 0, fixityAlg := 0, tierPolicy := 0,
    demoteDays := 0, promoteReads := 0, sweepDays := 0, first := 0, units := 8, attached := [7], nextObj := 0, epoch := 0, lbas := [],
    vers := [], extents := [], sweep := none }

/-- The serving controller with namespace 1. -/
def withNs (n : Namespace) : State := { serving ctl [] with obj := { (serving ctl []).obj with ns := [(1, n)] } }

def conn0 : TcpConn :=
  { lport := 0, netEntry := 0, icDone := true, hdgst := false, ddgst := false, hpda := 0, maxr2t := 0, tls := none, tag := none,
    ctrl := some 7, qid := 1, waiting := [], closeAt := none }

def qp0 : RdmaQp :=
  { lport := 0, netEntry := 0, inError := false, tag := none, ctrl := some 7, qid := 1, rate := 50000, lastCnpTx := none, lastStep := 0,
    waiting := [], closeAt := none }

def cap0 : Capsule := { len := 64, hdgstOk := true, ddgstOk := true, cid := 1, cmdLen := 0, inCapsule := 0, bytes := [] }

def req0 (k : ReqKind) : DataReq :=
  { scene := 0, kind := k, conn := 5, tag := 0, off := 0, len := 4096, got := 0, issued := 0, failed := false }

def task0 (unit : Nat) (p : TaskPhase) : Task :=
  { unit := unit, list := 0, dep := 0, tag := 0, cls := 0, scene := none, job := 0x1000, phase := p }

def rd0 (src : MapEntry) : MediaRd := { scene := 0, src := src, gran := 0 }

def cueSlot (p : Poster) (a : CueAction) (ph : CuePhase) : CueSlot :=
  { poster := p, fire := 0, target := 2, action := a, tag := 0, phase := ph, late := false, lateFlag := false, postedAt := 0, cancelling := false }
/-- States and operands that meet the hypotheses of StepRunsTheFrontCommand. -/
theorem witness_StepRunsTheFrontCommand : ∃ (c : Instr) (rest : List Instr) (s : State), s.pending = c :: rest :=
  ⟨.prkAbort, [], { lights with pending := [.prkAbort] }, by decide +kernel⟩

/-- States and operands that meet the hypotheses of AnIdleStepIsOneCycle, clause by clause. -/
theorem witness_AnIdleStepIsOneCycle :
    (∃ s : State, s.pending = [] ∧ s.dev.perstHigh = false ∧ s.pwr.harbour = none) ∧
    (∃ s : State, s.pending = [] ∧ s.dev.perstHigh = true ∧ s.dev.waitSupplies = false ∧ s.pwr.harbour = none ∧ s.prk.phase ≠ .waiting ∧ s.evt.aenDue = [] ∧ (s.wall + 1) % 4 ≠ 0 ∧ (cueCycle s.cue).now % 64 ≠ 0) :=
  ⟨⟨State.reset, by decide +kernel⟩,
   ⟨perf [], by decide +kernel⟩⟩

/-- States and operands that meet the hypotheses of EachCommandKeepsToItsParts. -/
theorem witness_EachCommandKeepsToItsParts : ∃ (c : Instr) (s t : State), exec c s = .next t :=
  ⟨.prkAbort, State.reset, _, rfl⟩

/-- States and operands that meet the hypotheses of NothingFallsBack. -/
theorem witness_NothingFallsBack : ∃ s t : State, step s = .next t :=
  ⟨State.reset, _, rfl⟩

/-- States and operands that meet the hypotheses of StatesFollowTheTable. -/
theorem witness_StatesFollowTheTable : ∃ s t : State, step s = .next t :=
  ⟨State.reset, _, rfl⟩

/-- States and operands that meet the hypotheses of NoRegisterNoEffect. -/
theorem witness_NoRegisterNoEffect : ∃ (w : Window) (off : Nat), off % 4 = 0 ∧ regRow w off = none ∧ off % 8 = 0 ∧ regRow w (off + 4) = none :=
  ⟨.house, 0x0FFFF8, by decide +kernel⟩

/-- States and operands that meet the hypotheses of RegisterWriteStores, clause by clause. -/
theorem witness_RegisterWriteStores :
    (∃ (q : Requester) (v : Nat) (s : State), HouseOpen q s ∧ 1 ≤ v ∧ v ≤ 60000) ∧
    (∃ (off size : Nat), (¬(size = 4 ∧ off % 4 = 0)) ∧ (¬(size = 8 ∧ off % 8 = 0))) :=
  ⟨⟨sender, 60000, perf [], by simp only [HouseOpen]; decide +kernel⟩,
   ⟨2, 4, by decide +kernel⟩⟩

/-- States and operands that meet the hypotheses of HalvesOfQuantities, clause by clause. -/
theorem witness_HalvesOfQuantities :
    (∃ (q : Requester) (s : State), HouseOpen q s) ∧
    (∃ (q : Requester) (s : State), HouseOpen q s) ∧
    (∃ (q : Requester) (s : State), HouseOpen q s) ∧
    (∃ (q : Requester) (x : W32) (s : State), HouseOpen q s ∧ latched s q 0x200010 = some x) ∧
    (∃ (q : Requester) (off : Nat) (r : RegRow) (s : State), HouseOpen q s ∧ off % 4 = 0 ∧ regRow .house off = some r ∧ r.access = .rc) :=
  ⟨⟨sender, perf [], by simp only [HouseOpen]; decide +kernel⟩,
   ⟨sender, perf [], by simp only [HouseOpen]; decide +kernel⟩,
   ⟨sender, perf [], by simp only [HouseOpen]; decide +kernel⟩,
   ⟨sender, 5, { perf [] with bus := { (perf []).bus with latchedHigh := [⟨reqId sender, 0x200010, 5⟩] } }, by simp only [HouseOpen]; decide +kernel⟩,
   ⟨sender, 0x300034, (regRow .house 0x300034).get (by decide +kernel), perf [], by simp only [HouseOpen]; decide +kernel⟩⟩

def grounded : State := perf [rec' 0x0101 5 20 [3, 1, 1, 0, 4, 0]]
/-- States and operands that meet the hypotheses of GroundTransactionsAreJudged, clause by clause. -/
theorem witness_GroundTransactionsAreJudged :
    (∃ (g : GroundTx) (s : State), s.unitsRun = true ∧ g.owner = g.tag ∧ (¬(0x1001 ≤ g.tag ∧ g.tag ≤ 0x1FFF)) ∧ (∃ r, s.route g.route = some r ∧ r.source = g.src ∧ (r.sealedOnly = false ∨ s.isSealed g.tag = true))) ∧
    (∃ (g : GroundTx) (s : State), s.unitsRun = true ∧ g.owner ≠ g.tag ∧ (¬(0x1001 ≤ g.tag ∧ g.tag ≤ 0x1FFF)) ∧ (∃ r, s.route g.route = some r ∧ r.source = g.src ∧ (r.sealedOnly = false ∨ s.isSealed g.tag = true))) :=
  ⟨⟨{ src := 3, dst := 4, tag := 0x1000, owner := 0x1000, route := 5, cls := 1, seq := 0, task := none }, grounded, ⟨by decide +kernel, by decide, by decide, _, rfl, by decide +kernel, Or.inl (by decide +kernel)⟩⟩,
   ⟨{ src := 3, dst := 4, tag := 0x1000, owner := 1, route := 5, cls := 1, seq := 0, task := none }, grounded, ⟨by decide +kernel, by decide, by decide, _, rfl, by decide +kernel, Or.inl (by decide +kernel)⟩⟩⟩

/-- States and operands that meet the hypotheses of UnassignedTagsAreRefused. -/
theorem witness_UnassignedTagsAreRefused : ∃ (g : GroundTx) (r : RouteRec) (s : State), s.unitsRun = true ∧ 0x1001 ≤ g.tag ∧ g.tag ≤ 0x1FFF ∧ g.task = none ∧ s.route g.route = some r ∧ r.source = g.src ∧ r.sealedOnly = false :=
  ⟨{ src := 3, dst := 4, tag := 0x1001, owner := 1, route := 5, cls := 1, seq := 0, task := none }, { source := 3, cls := 1, sealedOnly := false, hops := [(4, 0)] }, grounded, by decide +kernel⟩

def image0 : PrkImage := { bytes := [], ownerVerifies := true, vendorVerifies := true, ownerMl := 1, ownerEc := 1, vendorInRom := true }
/-- The loader as `x`, a Pricking in effect. -/
def loading (x : PrkState) : State := { perf [] with prk := { x with active := some {} } }
/-- States and operands that meet the hypotheses of LoaderTakesOneCommand, clause by clause. -/
theorem witness_LoaderTakesOneCommand :
    (∃ (s : State), writable s false = true ∧ s.prk.phase ≠ .idle) ∧
    (∃ (s : State), writable s false = true ∧ s.prk.phase = .idle) :=
  ⟨⟨loading { phase := .fetching }, by decide +kernel⟩,
   ⟨loading {}, by decide +kernel⟩⟩

/-- A record as a region body holds it. -/
def recBytes (ty ix : Nat) (body : Bytes) : Bytes :=
  leBytes 2 ty ++ leBytes 2 body.length ++ leBytes 2 ix ++ [0, 0] ++ padTo body (ceilDiv body.length 8 * 8)
/-- A region table: each region's ID, touch set, records and body, the bodies from an offset on. -/
def tableBytes : Nat → List (Nat × Nat × Nat × Bytes) → Bytes
  | _, [] => []
  | off, (id, touch, n, b) :: t =>
    [BitVec.ofNat 8 id, 0] ++ leBytes 2 1 ++ leBytes 4 off ++ leBytes 4 b.length ++ leBytes 4 1 ++ leBytes 4 touch ++ leBytes 4 n ++
      leBytes 4 (crc32 b) ++ leBytes 4 0 ++ tableBytes (off + b.length) t
/-- An image before its signature sets, its header of `flags` and serial 1. -/
def imageFront (flags total : Nat) (rs : List (Nat × Nat × Nat × Bytes)) : Bytes :=
  let h := leBytes 4 0x314B5250 ++ leBytes 2 2 ++ leBytes 2 0x40 ++ leBytes 4 total ++ leBytes 2 rs.length ++ leBytes 2 flags ++ leBytes 4 0x7400 ++
    List.replicate 4 0 ++ leBytes 8 1 ++ leBytes 8 0 ++ leBytes 4 0x40 ++ leBytes 4 (total - 14864) ++ leBytes 4 14864 ++ List.replicate 8 0
  h ++ leBytes 4 (crc32 h) ++ tableBytes (0x40 + 32 * rs.length) rs ++ (rs.map (fun r => r.2.2.2)).flatten
/-- The signature sets: the owner's of KEY_ID 0, Yelerari's waived. -/
def signedBy (n : Nat) (b : Bytes) : Bytes := b ++ ([0, 0] ++ leBytes 2 2592 ++ leBytes 2 96) ++ List.replicate n 0
def signed (b : Bytes) : Bytes := signedBy 14858 b
/-- A partial image that routes event source 5. -/
def smallFront : Bytes := imageFront 1 14976 [(0xE, 0x40000, 1, recBytes 0x0E01 5 [3, 0, 0, 1])]
def image1 (b : Bytes) : PrkImage :=
  { bytes := signed b, ownerVerifies := true, vendorVerifies := false, ownerMl := 1, ownerEc := 1, vendorInRom := false }
theorem signedBy_length (n : Nat) (b : Bytes) : (signedBy n b).length = b.length + 6 + n := by
  have h : ([0, 0] ++ leBytes 2 2592 ++ leBytes 2 96 : Bytes).length = 6 := rfl
  unfold signedBy
  rw [List.length_append, List.length_append, List.length_replicate, h]
theorem signed_length (b : Bytes) : (signed b).length = b.length + 6 + 14858 := signedBy_length 14858 b
theorem smallFront_length : smallFront.length = 112 := by decide +kernel
theorem smallImage_header : headerOk (image1 smallFront).bytes = true := by
  have e : (image1 smallFront).bytes.length = 14976 := by
    show (signed smallFront).length = _
    rw [signed_length, smallFront_length]
  unfold headerOk
  rw [e]
  decide +kernel
/-- A configuration that loads, the owner key 0 with the waiver, and the loader fetching for `k`. -/
def fetchingFor (k : PrkCmd) : State :=
  { perf [rec' 0x0401 0 8 [0, 0xF], rec' 0x0401 1 8 [0, 2], rec' 0x0D01 0 8 [1, 8, 12]] with
    bus := { regs := [(0x100014, 14976)] }
    prk := { (perf [rec' 0x0401 0 8 [0, 0xF], rec' 0x0401 1 8 [0, 2], rec' 0x0D01 0 8 [1, 8, 12]]).prk with
      phase := .fetching, cmd := some k, ownerStore := [(0, { ml := 1, ec := 1, enabled := true, waiver := true })] } }
theorem smallImage_take (k : PrkCmd) : (image1 smallFront).bytes.take ((fetchingFor k).reg 0x100014 0) = (image1 smallFront).bytes := by
  have r : (fetchingFor k).reg 0x100014 0 = 14976 := rfl
  rw [r]
  have e : (signed smallFront).length = 14976 := by rw [signed_length, smallFront_length]
  exact List.take_of_length_le (Nat.le_of_eq e)
theorem smallImage_passes (k : PrkCmd) : (fetchingFor k).judge (image1 smallFront) .live = none := by
  unfold State.judge imageErr
  simp only [smallImage_header]
  cases k <;> decide +kernel
theorem smallImage_applies : applyRefused (image1 smallFront).bytes ((fetchingFor .apply).loaderEnv (fetchingFor .apply).prk.media
    (resultCfg (image1 smallFront).bytes (fetchingFor .apply).prk.active)) (resultCfg (image1 smallFront).bytes (fetchingFor .apply).prk.active) = none := by
  decide +kernel
/-- States and operands that meet the hypotheses of LoaderCommandsBegin, clause by clause. -/
theorem witness_LoaderCommandsBegin :
    (∃ (s : State), writable s false = true ∧ s.prk.phase = .idle) ∧
    (∃ s : State, writable s false = true ∧ s.prk.phase ≠ .idle) ∧
    (∃ (img : PrkImage) (s : State), s.prk.phase = .fetching ∧ s.prk.cmd = some .verify ∧ s.judge { img with bytes := img.bytes.take (s.reg 0x100014 0) } .live = none) ∧
    (∃ (img : PrkImage) (s : State), s.prk.phase = .fetching ∧ s.prk.cmd = some .apply ∧ s.judge { img with bytes := img.bytes.take (s.reg 0x100014 0) } .live = none ∧ applyRefused (img.bytes.take (s.reg 0x100014 0)) (s.loaderEnv s.prk.media (resultCfg (img.bytes.take (s.reg 0x100014 0)) s.prk.active)) (resultCfg (img.bytes.take (s.reg 0x100014 0)) s.prk.active) = none) ∧
    (∃ (off : Nat) (s : State), writable s false = true ∧ off % 4 = 0 ∧ off + 4 ≤ 65536) :=
  ⟨⟨loading {}, by decide +kernel⟩,
   ⟨loading { phase := .checking }, by decide +kernel⟩,
   ⟨image1 smallFront, fetchingFor .verify, ⟨rfl, rfl, by rw [smallImage_take]; exact smallImage_passes _⟩⟩,
   ⟨image1 smallFront, fetchingFor .apply, ⟨rfl, rfl, by rw [smallImage_take]; exact smallImage_passes _, by rw [smallImage_take]; exact smallImage_applies⟩⟩,
   ⟨65532, loading {}, by decide +kernel⟩⟩

/-- States and operands that meet the hypotheses of DrainLimitAbandonsTheLoad, clause by clause. -/
theorem witness_DrainLimitAbandonsTheLoad :
    (∃ s : State, s.prk.phase = .draining ∧ s.wall < s.prk.drainStart + s.reg 0x100030 2000 * 1000000) ∧
    (∃ s : State, s.prk.phase = .draining ∧ s.prk.drainStart + s.reg 0x100030 2000 * 1000000 ≤ s.wall) :=
  ⟨⟨{ loading { phase := .draining } with wall := 1999999999 }, by decide +kernel⟩,
   ⟨{ loading { phase := .draining } with wall := 2000000000 }, by decide +kernel⟩⟩

/-- A full image: the ready lists, one DRAM channel, its other regions empty. -/
def fullFront : Bytes :=
  imageFront 0 15488 ([(0, 0, 0, []), (1, 0, 0, []), (2, 0, 0, []), (3, 0, 0, []),
    (4, 2, 2, recBytes 0x0401 0 (padTo [0, 0xF] 8) ++ recBytes 0x0401 1 (padTo [0, 2] 8)), (5, 0, 0, []), (6, 0, 0, []), (7, 0, 0, [])] ++
    [(8, 0, 0, []), (9, 0, 0, []), (10, 0, 0, []), (11, 0, 0, []), (12, 0, 0, []), (13, 0x30000, 1, recBytes 0x0D01 0 (padTo [1, 8, 12] 8)),
     (14, 0, 0, []), (15, 0, 0, [])])
theorem fullFront_length : fullFront.length = 624 := by decide +kernel
theorem fullImage_header : headerOk (image1 fullFront).bytes = true := by
  have e : (image1 fullFront).bytes.length = 15488 := by
    show (signed fullFront).length = _
    rw [signed_length, fullFront_length]
  unfold headerOk
  rw [e]
  decide +kernel
def noMedia : MediaFacts := { flashUnits := 0, platUnits := 0, stripeBlocks := 0, bands := 0 }
/-- House Lights after the boot ROM, a Pricking in slot 0. -/
def booted : State :=
  { lights with
    dev := { lights.dev with booted := 1 }
    prk := { slot0 := some (image1 fullFront), ownerStore := [(0, { ml := 1, ec := 1, enabled := true, waiver := true })] } }
theorem fullImage_boots : imageErr (image1 fullFront) (booted.loaderEnv noMedia (resultCfg (image1 fullFront).bytes none)) .boot = none := by
  unfold imageErr
  simp only [fullImage_header]
  decide +kernel
/-- States and operands that meet the hypotheses of LoadsDrainStoreAndBoot, clause by clause. -/
theorem witness_LoadsDrainStoreAndBoot :
    (∃ (unit : Nat) (s : State), s.prk.phase = .draining ∧ unit ∈ s.prk.undrained ∧ setDel s.prk.undrained unit ≠ [] ∧ s.smg.tasks = [] ∧ s.cue.slots = []) ∧
    (∃ (unit : Nat) (s : State), s.prk.phase = .draining ∧ s.prk.undrained = [unit] ∧ s.cue.now < s.prk.applyCue ∧ s.smg.tasks = [] ∧ s.cue.slots = []) ∧
    (∃ s : State, s.prk.phase = .draining ∧ s.prk.drainStart + s.reg 0x100030 2000 * 1000000 ≤ s.wall) ∧
    (∃ (img : PrkImage) (s : State), s.prk.phase = .storing ∧ s.prk.storeImage = some img) ∧
    (∃ (img : PrkImage) (m : MediaFacts) (s : State), s.dev.phase = .houseLights ∧ s.dev.recovery = false ∧ s.dev.booted ≠ 0 ∧ s.prk.active = none ∧ s.prk.bootNone = false ∧ (if s.prk.activeSlot = 0 then s.prk.slot0 else s.prk.slot1) = some img ∧ imgPartial img.bytes = false ∧ imageErr img (s.loaderEnv m (resultCfg img.bytes none)) .boot = none) :=
  ⟨⟨1, loading { phase := .draining, undrained := [1, 2] }, by decide +kernel⟩,
   ⟨1, loading { phase := .draining, undrained := [1], applyCue := 1 }, by decide +kernel⟩,
   ⟨{ loading { phase := .draining } with wall := 2000000000 }, by decide +kernel⟩,
   ⟨image0, loading { phase := .storing, storeImage := some image0 }, by decide +kernel⟩,
   ⟨image1 fullFront, noMedia, booted, ⟨rfl, rfl, by decide, rfl, rfl, rfl, by decide +kernel, fullImage_boots⟩⟩⟩

/-- States and operands that meet the hypotheses of ClocksAreGatedAndWatched, clause by clause. -/
theorem witness_ClocksAreGatedAndWatched :
    (∃ (s : State), writable s false = true) ∧
    (∃ (d : Nat) (s : State), s.powered = true ∧ s.clkPlan.2.1.testBit d = true ∧ (s.reg 0x20800C 0).testBit d = true ∧ stopMet s d = true ∧ d ∉ s.clk.stopped) ∧
    (∃ (d : Nat) (s : State), d ∈ s.clk.starting ∧ d ∈ s.clk.stopped) ∧
    (∃ (ppm : Int) (s : State), s.powered = true ∧ ppm.natAbs ≤ 3000) ∧
    (∃ (ppm : Int) (s : State), s.powered = true ∧ 3000 < ppm.natAbs ∧ ppm.natAbs ≤ 100000) ∧
    (∃ (s : State), s.powered = true ∧ s.dev.phase ≠ .curtainDown) :=
  ⟨⟨perf [], by decide +kernel⟩,
   ⟨4, { perf [rec' 0x0001 0 12 [0, 0, 16]] with bus := { State.reset.bus with regs := [(0x20800C, 16)] } }, by decide +kernel⟩,
   ⟨4, { perf [] with clk := { State.reset.clk with starting := [4], stopped := [4] } }, by decide +kernel⟩,
   ⟨-3000, perf [], by decide +kernel⟩,
   ⟨100000, perf [], by decide +kernel⟩,
   ⟨perf [], by decide +kernel⟩⟩

/-- The cue unit as `x`. -/
def cueIs (x : CueState) : State := { perf [] with cue := x }
def report : ServoReport := { offset := 0, locked := true, rate := 0 }
/-- States and operands that meet the hypotheses of CueIsDisciplined, clause by clause. -/
theorem witness_CueIsDisciplined :
    (∃ (q : Requester) (hi : W32) (s : State), mayReach s q .house = true ∧ writable s false = true ∧ s.dev.phase = .houseLights ∧ s.cue.now < formed s q 0x200018 (s.reg 0x200018 0) hi) ∧
    (∃ (q : Requester) (s : State), mayReach s q .house = true ∧ writable s false = true ∧ s.dev.phase ≠ .houseLights) ∧
    (∃ (s : State), s.dev.perstHigh = true ∧ s.dev.waitSupplies = false ∧ s.cue.step = none ∧ s.prk.phase ≠ .waiting) ∧
    (∃ (tap : Nat) (s : State), s.powered = true ∧ tap < 80) ∧
    (∃ (v : W32) (s : State), writable s false = true ∧ v.toNat.testBit 8 = false ∧ bits v.toNat 6 0 < 80) ∧
    (∃ (v : W32) (s : State), writable s false = true ∧ (bits v.toNat 1 0 = 0 ∨ bits v.toNat 1 0 = 3)) ∧
    (∃ (port : Nat) (v : ServoReport) (s : State), s.powered = true ∧ bits s.cue.ctrl 1 0 = 1 ∧ bits s.cue.ctrl 8 8 = port ∧ v.locked = true) ∧
    (∃ (v : ServoReport) (s : State), s.powered = true ∧ bits s.cue.ctrl 1 0 = 2 ∧ v.locked = true) ∧
    (∃ s : State, s.powered = true ∧ bits s.cue.ctrl 1 0 ≠ 0) :=
  ⟨⟨sender, 1, lights, by decide +kernel⟩,
   ⟨sender, perf [], by decide +kernel⟩,
   ⟨perf [], by decide +kernel⟩,
   ⟨79, perf [], by decide +kernel⟩,
   ⟨79, perf [], by decide +kernel⟩,
   ⟨3, perf [], by decide +kernel⟩,
   ⟨1, report, cueIs { ctrl := 0x101 }, by decide +kernel⟩,
   ⟨report, cueIs { ctrl := 2 }, by decide +kernel⟩,
   ⟨cueIs { ctrl := 1 }, by decide +kernel⟩⟩

def aCue : CueReq := { fire := 0, target := 79, action := .posting, tag := 0 }
/-- One slot in use. -/
def oneCue (k : CueSlot) : State := cueIs { slots := [(3, k)] }
/-- States and operands that meet the hypotheses of CuesArePostedAndFire, clause by clause. -/
theorem witness_CuesArePostedAndFire :
    (∃ (p : Poster) (k : Nat) (s : State), s.powered = true ∧ shareRoom s.cue p = true ∧ Tab.freeKey s.cue.slots 4096 0 = some k) ∧
    (∃ (p : Poster) (s : State), shareRoom s.cue p = false) ∧
    (∃ (slot : Nat) (k : CueSlot) (s : State), Tab.find s.cue.slots slot = some k ∧ k.phase = .posted) ∧
    (∃ (slot n : Nat) (b : Bool) (k : CueSlot) (s : State), s.runs = true ∧ s.cue.slots = [(slot, k)] ∧ k.action = .bankSwap n b ∧ k.phase = .armed ∧ k.fire ≤ s.cue.now ∧ inTime k = false ∧ (cueDomain k).any s.domainStopped = false) ∧
    (∃ (slot : Nat) (k : CueSlot) (s : State), s.runs = true ∧ s.cue.slots = [(slot, k)] ∧ k.phase = .armed ∧ k.fire ≤ s.cue.now ∧ inTime k = false ∧ (cueDomain k).any s.domainStopped = true) ∧
    (∃ (slot : Nat) (k : CueSlot) (s : State), s.runs = true ∧ s.cue.slots = [(slot, k)] ∧ k.phase = .armed ∧ k.fire ≤ s.cue.now ∧ k.cancelling = true ∧ k.cancelAt + 2048 ≤ k.fire) ∧
    (∃ (p : Poster) (slot : Nat) (k : CueSlot) (s : State), Tab.find s.cue.slots slot = some k ∧ k.poster = p ∧ k.cancelling = false) ∧
    (∃ (p : Poster) (slot : Nat) (k : CueSlot) (s : State), Tab.find s.cue.slots slot = some k ∧ k.poster ≠ p) ∧
    (∃ (slot : Nat) (k : CueSlot) (s : State), Tab.find s.cue.slots slot = some k ∧ k.cancelling = true) ∧
    (∃ (v : W32) (k : Nat) (s : State), writable s false = true ∧ s.cue.postResult.status ≠ 0xF ∧ bits v.toNat 28 24 ≤ 19 ∧ shareRoom s.cue .prompters = true ∧ Tab.freeKey s.cue.slots 4096 0 = some k) ∧
    (∃ (v : W32) (k : CueSlot) (s : State), writable s false = true ∧ s.cue.cancelResult.status ≠ 0xF ∧ Tab.find s.cue.slots (bits v.toNat 11 0) = some k ∧ housePosted k = true ∧ k.cancelling = false) :=
  ⟨⟨.stage, 0, perf [], by decide +kernel⟩,
   ⟨.flash 0, cueIs { slots := (List.range 32).map (fun i => (i, cueSlot (.flash 0) .posting .posted)) }, by decide +kernel⟩,
   ⟨3, cueSlot .stage .posting .posted, oneCue (cueSlot .stage .posting .posted), by decide +kernel⟩,
   ⟨3, 8, true, cueSlot .hoop (.bankSwap 8 true) .armed, oneCue (cueSlot .hoop (.bankSwap 8 true) .armed), by decide +kernel⟩,
   ⟨3, { cueSlot .stage .posting .armed with target := 14 }, { oneCue { cueSlot .stage .posting .armed with target := 14 } with clk := { State.reset.clk with stopped := [7] } }, by decide +kernel⟩,
   ⟨3, { cueSlot .stage .posting .armed with cancelling := true, fire := 2048 }, cueIs { now := 2048, slots := [(3, { cueSlot .stage .posting .armed with cancelling := true, fire := 2048 })] }, by decide +kernel⟩,
   ⟨.stage, 3, cueSlot .stage .posting .posted, oneCue (cueSlot .stage .posting .posted), by decide +kernel⟩,
   ⟨.hoop, 3, cueSlot .stage .posting .posted, oneCue (cueSlot .stage .posting .posted), by decide +kernel⟩,
   ⟨3, { cueSlot .stage .posting .posted with cancelling := true }, oneCue { cueSlot .stage .posting .posted with cancelling := true }, by decide +kernel⟩,
   ⟨0x13000000, 0, perf [], by decide +kernel⟩,
   ⟨3, cueSlot .prompters (.raw 0 0) .posted, oneCue (cueSlot .prompters (.raw 0 0) .posted), by decide +kernel⟩⟩

/-- States and operands that meet the hypotheses of BeatsReleaseDelayedTasks. -/
theorem witness_BeatsReleaseDelayedTasks : ∃ (l b i : Nat) (x : Task) (s : State), s.unitsRun = true ∧ s.smg.delays = [(l, [(b, i)])] ∧ b ≤ s.cue.now / 1024 ∧ s.smg.retries = [] ∧ s.smg.delayWaits = [] ∧ Tab.find s.smg.tasks i = some x ∧ x.timed = false :=
  ⟨0, 0, 5, task0 1 .delayed, { perf [] with smg := { tasks := [(5, task0 1 .delayed)], delays := [(0, [(0, 5)])] } }, by decide +kernel⟩

/-- Link 0 up. -/
def linked : State := { perf [] with hfe := { State.reset.hfe with link0 := { up := true } } }
/-- States and operands that meet the hypotheses of PcieSideAnswers, clause by clause. -/
theorem witness_PcieSideAnswers :
    (∃ (port rate width : Nat) (flit l0p : Bool) (s : State), s.powered = true ∧ s.dev.recovery = false ∧ 1 ≤ rate ∧ rate ≤ min (s.portRec 0).2.1 6 ∧ width ∈ [1, 2, 4, 8] ∧ ((s.portRec 0).1 = 0 ∨ width ≤ 4) ∧ (port = 0 ∨ (port = 1 ∧ (s.portRec 0).1 = 1)) ∧ (rate ≠ 6 ∨ flit = true) ∧ (l0p = false ∨ flit = true)) ∧
    (∃ (port : Nat) (s : State), (s.link port).up = true) ∧
    (∃ (port : Nat) (s : State), s.powered = true ∧ port < 2) ∧
    (∃ (port n : Nat) (s : State), s.powered = true ∧ n ≤ (s.portRec 0).2.2 ∧ n ≠ s.numVfs port) ∧
    (∃ (c : Nat) (aqa : W32) (r : ControllerRec) (s : State), s.powered = true ∧ s.dev.recovery = false ∧ s.ctrlOf c = none ∧ pcieRecord s c = some r ∧ (c = 8193 → (s.portRec 0).1 ≠ 0) ∧ (r.tag = 0 ∨ ∃ x, s.tenantRec r.tag = some x ∧ x.flags.testBit 3 = true) ∧ 1 ≤ bits aqa.toNat 11 0 ∧ 1 ≤ bits aqa.toNat 27 16) ∧
    (∃ (c : Nat) (k : Ctrl) (s : State), s.ctrlOf c = some k ∧ k.cfs = false ∧ k.enabled = true ∧ k.transport = 0) ∧
    (∃ (c : Nat) (k : Ctrl) (s : State), s.ctrlOf c = some k ∧ k.cfs = true) ∧
    (∃ (c qid val : Nat) (k : Ctrl) (q : SubQueue) (s : State), s.powered = true ∧ s.ctrlOf c = some k ∧ k.enabled = true ∧ k.resetting = false ∧ s.sqOf c qid = some q ∧ val < q.size) ∧
    (∃ (port : Nat) (s : State), (s.link port).up = true ∧ port ∉ s.hfe.doeBusy ∧ s.hfe.ide.length < 64) :=
  ⟨⟨0, 6, 8, true, false, perf [rec' 0x0301 0 4 [0, 6, 4]], by decide +kernel⟩,
   ⟨0, linked, by decide +kernel⟩,
   ⟨0, perf [], by decide +kernel⟩,
   ⟨0, 4, perf [rec' 0x0301 0 4 [0, 6, 4]], by decide +kernel⟩,
   ⟨0, 0x00010001, { tag := 0, transport := 0, gloex := false, ioQueues := 4095, queueEntries := 16384, vectors := 2048, fn := 0 }, perf [], ⟨by decide, by decide, by decide +kernel, rfl, fun h => absurd h (by decide), Or.inl rfl, by decide +kernel, by decide +kernel⟩⟩,
   ⟨7, ctl, serving ctl [], by decide +kernel⟩,
   ⟨7, { ctl with cfs := true }, serving { ctl with cfs := true } [], by decide +kernel⟩,
   ⟨7, 1, 15, ctl, sq1, serving ctl [], by decide +kernel⟩,
   ⟨0, linked, by decide +kernel⟩⟩

/-- Logical port 0 up. -/
def cabled : State := { perf [] with hfe := { State.reset.hfe with eth := [(0, { up := true })] } }
/-- States and operands that meet the hypotheses of EthernetPortsRun, clause by clause. -/
theorem witness_EthernetPortsRun :
    (∃ (lp : Nat) (phy : EthPhy) (s : State), s.powered = true ∧ s.dev.rehDone.contains 8 = true ∧ lportOk s lp = true ∧ phy.fecLocked = true ∧ ((s.portRec (1 + lp / 2)).1 ≠ 1 ∧ (phy.phy = .cr2 ∨ phy.phy = .kr2) ∧ phy.lanes = 2 ∨ (s.portRec (1 + lp / 2)).1 = 1 ∧ (phy.phy = .cr1 ∨ phy.phy = .kr1) ∧ phy.lanes = 1)) ∧
    (∃ (lp : Nat) (s : State), (Tab.at s.hfe.eth lp {}).up = true ∧ (∀ p ∈ s.hfe.conns, p.2.lport ≠ lp) ∧ (∀ p ∈ s.hfe.qps, p.2.lport ≠ lp)) ∧
    (∃ (lp : Nat) (f : EthFrame) (s : State), (Tab.at s.hfe.eth lp {}).up = true ∧ f.fcsOk = true ∧ 64 ≤ f.len ∧ f.len ≤ 9216 ∧ f.qp = none) ∧
    (∃ (lp : Nat) (s : State), (Tab.at s.hfe.eth lp {}).up = true) ∧
    (∃ (lp : Nat) (s : State), (Tab.at s.hfe.eth lp {}).up = true) ∧
    (∃ (qp : Nat) (q : RdmaQp) (s : State), Tab.find s.hfe.qps qp = some q ∧ q.lastStep + 55000 ≤ s.wall ∧ q.rate < 100000) :=
  ⟨⟨0, { phy := .cr2, fecLocked := true, lanes := 2 }, { perf [rec' 0x0301 1 4 [0, 1]] with dev := { (perf []).dev with rehDone := [8] } }, by decide +kernel⟩,
   ⟨0, cabled, by decide +kernel⟩,
   ⟨0, { fcsOk := true, len := 64, fill := 0, qp := none, ecn := false, icrcOk := true }, cabled, by decide +kernel⟩,
   ⟨0, cabled, by decide +kernel⟩,
   ⟨0, cabled, by decide +kernel⟩,
   ⟨5, qp0, { cabled with wall := 55000, hfe := { cabled.hfe with qps := [(5, qp0)] } }, by decide +kernel⟩⟩

/-- Port 0 up with address entry 3, room for connections, and connection 5 as `k`. -/
def wired (k : List TcpConn) : State :=
  { serving ctl [rec' 0x0303 0 8 [16, 0, 16]] with
    hfe := { (serving ctl []).hfe with
      eth := [(0, { up := true })], net := [(3, { ctrl := 0x80000000, addr := [] })], conns := k.map (fun c => (5, c)) } }
def ic0 : IcReq := { lport := 0, net := 3, pfv := 0, hpda := 31, lenOk := true, hdgst := false, ddgst := false, maxr2t := 3 }
def tls0 : TlsMsg := { lport := 0, net := 3, suite := true, group := true, pskTag := some 2, violation := false }
/-- States and operands that meet the hypotheses of TcpConnectionsRun, clause by clause. -/
theorem witness_TcpConnectionsRun :
    (∃ (conn : Nat) (ic : IcReq) (s : State), Tab.find s.hfe.conns conn = none ∧ connRoom s = true ∧ netUp s ic.lport ic.net = true ∧ s.fabricRec.2.2 = false ∧ ic.lenOk = true ∧ ic.pfv = 0 ∧ ic.hpda ≤ 31) ∧
    (∃ (conn c : Nat) (cap : Capsule) (k : TcpConn) (s : State), Tab.find s.hfe.conns conn = some k ∧ k.icDone = true ∧ k.hdgst = false ∧ k.ddgst = false ∧ k.ctrl = some c ∧ sqFull s c k.qid = false ∧ cap.inCapsule = cap.cmdLen ∧ cap.inCapsule ≤ 8192 ∧ k.waiting = [] ∧ capsuleRoom s c cap = true) ∧
    (∃ (conn c : Nat) (cap : Capsule) (k : TcpConn) (s : State), Tab.find s.hfe.conns conn = some k ∧ k.icDone = true ∧ k.hdgst = false ∧ k.ddgst = false ∧ k.ctrl = some c ∧ sqFull s c k.qid = false ∧ cap.inCapsule = cap.cmdLen ∧ cap.inCapsule ≤ 8192 ∧ capsuleRoom s c cap = false) ∧
    (∃ (conn : Nat) (p : H2cPdu) (k : TcpConn) (r : DataReq) (s : State), Tab.find s.hfe.conns conn = some k ∧ k.icDone = true ∧ k.hdgst = false ∧ k.ddgst = false ∧ p.len ≤ 131072 ∧ Tab.find s.hfe.reqs p.rid = some r ∧ r.kind = .r2t ∧ r.conn = conn ∧ r.failed = false ∧ p.off = r.off + r.got ∧ r.got + p.len < r.len) ∧
    (∃ (conn : Nat) (k : TcpConn) (s : State), Tab.find s.hfe.conns conn = some k ∧ k.ctrl = none) ∧
    (∃ (conn c : Nat) (k : TcpConn) (s : State), Tab.find s.hfe.conns conn = some k ∧ k.ctrl = some c ∧ k.qid ≠ 0) ∧
    (∃ (conn tag : Nat) (m : TlsMsg) (s : State), Tab.find s.hfe.conns conn = none ∧ connRoom s = true ∧ netUp s m.lport m.net = true ∧ m.suite = true ∧ m.group = true ∧ m.pskTag = some tag ∧ m.violation = false) ∧
    (∃ (conn : Nat) (k : TcpConn) (x : TlsSession) (s : State), Tab.find s.hfe.conns conn = some k ∧ k.tls = some x) :=
  ⟨⟨5, ic0, wired [], by decide +kernel⟩,
   ⟨5, 7, cap0, conn0, wired [conn0], by decide +kernel⟩,
   ⟨5, 7, cap0, conn0, { wired [conn0] with scn := { (wired []).scn with pressed := [0] } }, by decide +kernel⟩,
   ⟨5, { rid := 9, off := 0, len := 4, bytes := [0, 0, 0, 0], hdgstOk := true, ddgstOk := true }, conn0, req0 .r2t, { wired [conn0] with hfe := { (wired [conn0]).hfe with reqs := [(9, req0 .r2t)] } }, by decide +kernel⟩,
   ⟨5, { conn0 with ctrl := none }, wired [{ conn0 with ctrl := none }], by decide +kernel⟩,
   ⟨5, 7, conn0, wired [conn0], by decide +kernel⟩,
   ⟨5, 2, tls0, wired [], by decide +kernel⟩,
   ⟨5, { conn0 with tls := some { tag := 2, rxRecords := 0, txRecords := 0 } }, { tag := 2, rxRecords := 0, txRecords := 0 }, wired [{ conn0 with tls := some { tag := 2, rxRecords := 0, txRecords := 0 } }], by decide +kernel⟩⟩

def tlp0 (k : TlpKind) : Tlp := { malformed := false, poisoned := false, ideFailed := none, kind := k }
/-- One data request outstanding. -/
def asked (r : DataReq) (wall : Nat) : State := { perf [] with wall := wall, hfe := { State.reset.hfe with reqs := [(2, r)] } }
def mi0 (b : MiBody) : MiMsg := { packetOk := true, micOk := true, len := 4224, body := b }
/-- States and operands that meet the hypotheses of TransfersAndMessagesAreServed, clause by clause. -/
theorem witness_TransfersAndMessagesAreServed :
    (∃ (port fn bar off size : Nat) (t : Tlp) (s : State), (s.link port).up = true ∧ t.ideFailed = none ∧ t.malformed = false ∧ t.kind = .read (some bar) off size ∧ fnEnabled s port fn = true ∧ insideBar port fn (some bar) off size = true) ∧
    (∃ (port fn bar off size val : Nat) (t : Tlp) (s : State), (s.link port).up = true ∧ t.ideFailed = none ∧ t.malformed = false ∧ t.poisoned = false ∧ t.kind = .write (some bar) off size val ∧ fnEnabled s port fn = true ∧ insideBar port fn (some bar) off size = true) ∧
    (∃ (port fn off size : Nat) (bar : Option Nat) (t : Tlp) (s : State), (s.link port).up = true ∧ t.ideFailed = none ∧ t.malformed = false ∧ t.kind = .read bar off size ∧ insideBar port fn bar off size = false) ∧
    (∃ (o len : Nat) (c : Scene) (k : Ctrl) (s : State), Tab.find s.scn.scenes o = some c ∧ s.ctrlOf c.ctrl = some k ∧ mayAsk s o c k len = true ∧ s.scn.act = none ∧ k.transport = 1) ∧
    (∃ (o len : Nat) (c : Scene) (k : Ctrl) (s : State), Tab.find s.scn.scenes o = some c ∧ s.ctrlOf c.ctrl = some k ∧ mayAsk s o c k len = true ∧ s.scn.act = none ∧ s.dmaStopped c.ctrl = true) ∧
    (∃ (rid : Nat) (b : Bytes) (r : DataReq) (s : State), Tab.find s.hfe.reqs rid = some r ∧ r.kind = .pcieRead ∧ r.failed = false ∧ r.expired = false ∧ b.length < r.len - r.got) ∧
    (∃ (rid : Nat) (b : Bytes) (r : DataReq) (s : State), Tab.find s.hfe.reqs rid = some r ∧ r.kind = .rdmaRead ∧ r.failed = false ∧ r.len - r.got ≤ b.length ∧ r.got < r.len) ∧
    (∃ (rid : Nat) (r : DataReq) (s : State), Tab.find s.hfe.reqs rid = some r ∧ r.kind = .rdmaRead) ∧
    (∃ (rid : Nat) (r : DataReq) (s : State), Tab.find s.hfe.reqs rid = some r ∧ r.kind = .pcieRead ∧ r.expired = false ∧ r.issued + 16000000 ≤ s.wall) ∧
    (∃ (rid : Nat) (r : DataReq) (s : State), Tab.find s.hfe.reqs rid = some r ∧ r.kind = .pcieRead ∧ r.expired = true) ∧
    (∃ (rid : Nat) (r : DataReq) (s : State), Tab.find s.hfe.reqs rid = some r ∧ r.kind ≠ .pcieRead ∧ r.failed = false ∧ r.issued + s.reg 0x300038 0xFA0 * 1000000 ≤ s.wall) ∧
    (∃ (m : MiMsg) (a : Nat) (s : State), s.powered = true ∧ m.packetOk = true ∧ m.micOk = true ∧ m.len ≤ 4224 ∧ m.body = .setAddress a ∧ s.scn.act = none ∧ s.scn.miHeld = []) ∧
    (∃ (m : MiMsg) (s : State), s.powered = true ∧ m.packetOk = true ∧ s.scn.act.isSome = true) ∧
    (∃ (val : W32) (s : State), writable s false = true ∧ val.toNat.testBit 31 = true ∧ (∀ p ∈ s.hfe.net, p.1 / 16 = s.reg 0x300100 0 / 16 → p.1 = s.reg 0x300100 0 ∨ p.2.ctrl.toNat.testBit 31 = false)) :=
  ⟨⟨0, 0, 0, 0x1FFFC, 4, tlp0 (.read (some 0) 0x1FFFC 4), linked, by decide +kernel⟩,
   ⟨0, 0, 4, 0, 4, 5, tlp0 (.write (some 4) 0 4 5), linked, by decide +kernel⟩,
   ⟨0, 0, 0x1FFFE, 4, some 0, tlp0 (.read (some 0) 0x1FFFE 4), linked, by decide +kernel⟩,
   ⟨0, 512, { sceneOf (.memWrite 0 512) with need := 512, tag := 2 }, { ctl with transport := 1 }, { serving { ctl with transport := 1 } [tenantIs 2 0] with scn := { (serving ctl []).scn with scenes := [(0, { sceneOf (.memWrite 0 512) with need := 512, tag := 2 })] } }, by decide +kernel⟩,
   ⟨0, 512, { sceneOf (.memWrite 0 512) with need := 512, tag := 2 }, ctl, { serving ctl [tenantIs 2 0] with scn := { (serving ctl []).scn with scenes := [(0, { sceneOf (.memWrite 0 512) with need := 512, tag := 2 })] }, hfe := { (serving ctl []).hfe with ide := [(0, { fns := [0], insecure := true })] } }, by decide +kernel⟩,
   ⟨2, [0], req0 .pcieRead, asked (req0 .pcieRead) 0, by decide +kernel⟩,
   ⟨2, [0], { req0 .rdmaRead with len := 1 }, asked { req0 .rdmaRead with len := 1 } 0, by decide +kernel⟩,
   ⟨2, req0 .rdmaRead, asked (req0 .rdmaRead) 0, by decide +kernel⟩,
   ⟨2, req0 .pcieRead, asked (req0 .pcieRead) 16000000, by decide +kernel⟩,
   ⟨2, { req0 .pcieRead with expired := true }, asked { req0 .pcieRead with expired := true } 0, by decide +kernel⟩,
   ⟨2, req0 .r2t, asked (req0 .r2t) 4000000000, by decide +kernel⟩,
   ⟨mi0 (.setAddress 9), 9, perf [], by decide +kernel⟩,
   ⟨mi0 .basic, { perf [] with scn := { State.reset.scn with act := some { scene := none, slot := 1, start := 0 } } }, by decide +kernel⟩,
   ⟨0x80000000, perf [], by decide +kernel⟩⟩

def con0 : ConnectReq :=
  { rdma := false, lport := 0, net := 3, conn := 5, cntlid := 7, qid := 0, size := 4096, hostNqn := 1, hostId := 1, kato := 0,
    authTag := some 2 }
def rec7 : Nat × Bytes := rec' 0x0302 7 16 [2, 0, 1, 0, 4, 0, 64, 0, 4, 0]
def ctlRec : ControllerRec := { tag := 2, transport := 1, gloex := false, ioQueues := 4, queueEntries := 64, vectors := 4, fn := 0 }
def tenantRec0 (f : Nat) : TenantRec := { flags := f, flashQuota := 2 ^ 40, platQuota := 2 ^ 40, wingsKib := 1024, stagingKib := 1024, slmMib := 1 }
def fabric (k : TcpConn) : State := { perf [tenantIs 2 0x10, rec7] with hfe := { State.reset.hfe with conns := [(5, k)] } }
def assoc0 : Assoc := { hostNqn := 1, hostId := 1, kato := 1, lastAlive := 0, adminConn := 5, adminRdma := false }
/-- States and operands that meet the hypotheses of AssociationsComeAndGo, clause by clause. -/
theorem witness_AssociationsComeAndGo :
    (∃ (c : ConnectReq) (r : ControllerRec) (k : TcpConn) (t : TenantRec) (s : State), s.runs = true ∧ c.rdma = false ∧ Tab.find s.hfe.conns c.conn = some k ∧ k.icDone = true ∧ s.saf.rootErased = false ∧ s.controllerRec c.cntlid = some r ∧ r.transport = 1 ∧ c.qid = 0 ∧ s.tenantRec r.tag = some t ∧ t.flags.testBit 4 = true ∧ provedTag s c = some r.tag ∧ s.ctrlOf c.cntlid = none ∧ 2 ≤ c.size ∧ c.size ≤ 4096) ∧
    (∃ (c : ConnectReq) (r : ControllerRec) (k : TcpConn) (t : TenantRec) (s : State), s.runs = true ∧ c.rdma = false ∧ Tab.find s.hfe.conns c.conn = some k ∧ k.icDone = true ∧ s.saf.rootErased = false ∧ s.controllerRec c.cntlid = some r ∧ r.transport = 1 ∧ c.qid = 0 ∧ s.tenantRec r.tag = some t ∧ provedTag s c ≠ some r.tag) ∧
    (∃ (c : ConnectReq), c.rdma = false) ∧
    (∃ (conn : Nat) (h : HeldConnect) (r : ControllerRec) (s : State), Tab.find s.hfe.held conn = some h ∧ s.ctrlOf h.req.cntlid = none ∧ s.controllerRec h.req.cntlid = some r) ∧
    (∃ (conn due : Nat) (k : TcpConn) (s : State), Tab.find s.hfe.conns conn = some k ∧ k.closeAt = some due ∧ due ≤ s.wall) ∧
    (∃ (conn c : Nat) (k : TcpConn) (s : State), Tab.find s.hfe.conns conn = some k ∧ k.ctrl = some c ∧ k.qid ≠ 0) ∧
    (∃ (c : Nat) (k : Ctrl) (a : Assoc) (s : State), s.ctrlOf c = some k ∧ k.assoc = some a ∧ a.lastAlive + a.kato * 1000000 ≤ s.wall) ∧
    (∃ (qp c : Nat) (cap : Capsule) (k : RdmaQp) (s : State), Tab.find s.hfe.qps qp = some k ∧ k.inError = false ∧ 64 ≤ cap.len ∧ cap.len ≤ 64 + 8192 ∧ k.ctrl = some c ∧ sqFull s c k.qid = false ∧ cap.inCapsule = cap.cmdLen ∧ capsuleRoom s c cap = true ∧ k.waiting = []) ∧
    (∃ (qp c : Nat) (cap : Capsule) (k : RdmaQp) (s : State), Tab.find s.hfe.qps qp = some k ∧ k.inError = false ∧ 64 ≤ cap.len ∧ cap.len ≤ 64 + 8192 ∧ k.ctrl = some c ∧ sqFull s c k.qid = true) ∧
    (∃ (qp : Nat) (k : RdmaQp) (s : State), Tab.find s.hfe.qps qp = some k) ∧
    (∃ (qp c : Nat) (k : RdmaQp) (s : State), Tab.find s.hfe.qps qp = some k ∧ k.ctrl = some c ∧ k.qid ≠ 0) :=
  ⟨⟨con0, ctlRec, conn0, tenantRec0 0x10, fabric conn0, by decide +kernel⟩,
   ⟨{ con0 with authTag := none }, ctlRec, conn0, tenantRec0 0x10, fabric conn0, by decide +kernel⟩,
   ⟨con0, by decide +kernel⟩,
   ⟨5, { req := con0, since := 0 }, ctlRec, { fabric conn0 with hfe := { (fabric conn0).hfe with held := [(5, { req := con0, since := 0 })] } }, by decide +kernel⟩,
   ⟨5, 9, { conn0 with closeAt := some 9 }, { fabric { conn0 with closeAt := some 9 } with wall := 9 }, by decide +kernel⟩,
   ⟨5, 7, conn0, fabric conn0, by decide +kernel⟩,
   ⟨7, { ctl with assoc := some assoc0 }, assoc0, { serving { ctl with assoc := some assoc0 } [] with wall := 1000000 }, by decide +kernel⟩,
   ⟨5, 7, cap0, qp0, { wired [] with hfe := { (wired []).hfe with qps := [(5, qp0)] } }, by decide +kernel⟩,
   ⟨5, 7, cap0, qp0, { wired [] with hfe := { (wired []).hfe with qps := [(5, qp0)] }, scn := { (wired []).scn with sqs := [(qKey 7 1, { sq1 with tail := 15 })] } }, by decide +kernel⟩,
   ⟨5, qp0, { wired [] with hfe := { (wired []).hfe with qps := [(5, qp0)] } }, by decide +kernel⟩,
   ⟨5, 7, qp0, { wired [] with hfe := { (wired []).hfe with qps := [(5, qp0)] } }, by decide +kernel⟩⟩

/-- The serving controller with these queues 1. -/
def queued (k : Ctrl) (q : SubQueue) : State :=
  { serving k [] with scn := { (serving k []).scn with sqs := [(qKey 7 0, sq1), (qKey 7 1, q)], cqs := [(qKey 7 0, cq1), (qKey 7 1, cq1)] } }
/-- States and operands that meet the hypotheses of QueuesAreMadeAndDeleted, clause by clause. -/
theorem witness_QueuesAreMadeAndDeleted :
    (∃ (h : CmdHdr) (qid size vector : Nat) (k : Ctrl) (s : State), Fetched h .pcieAdmin s ∧ s.ctrlOf h.ctrl = some k ∧ 0 < qid ∧ qid ≤ k.ioQueues ∧ Tab.find s.scn.cqs (qKey h.ctrl qid) = none ∧ 2 ≤ size ∧ size ≤ s.maxEntries h.ctrl ∧ vector < k.vectors) ∧
    (∃ (h : CmdHdr) (qid size cqid : Nat) (k : Ctrl) (q : CompQueue) (s : State), Fetched h .pcieAdmin s ∧ s.ctrlOf h.ctrl = some k ∧ 0 < qid ∧ qid ≤ k.ioQueues ∧ Tab.find s.scn.sqs (qKey h.ctrl qid) = none ∧ 2 ≤ size ∧ size ≤ s.maxEntries h.ctrl ∧ Tab.find s.scn.cqs (qKey h.ctrl cqid) = some q ∧ cqid ≠ 0) ∧
    (∃ (h : CmdHdr) (qid size cqid : Nat) (k : Ctrl) (s : State), Fetched h .pcieAdmin s ∧ s.ctrlOf h.ctrl = some k ∧ 0 < qid ∧ qid ≤ k.ioQueues ∧ Tab.find s.scn.sqs (qKey h.ctrl qid) = none ∧ 2 ≤ size ∧ size ≤ s.maxEntries h.ctrl ∧ Tab.find s.scn.cqs (qKey h.ctrl cqid) = none) ∧
    (∃ (h : CmdHdr) (qid : Nat) (q : CompQueue) (s : State), Fetched h .pcieAdmin s ∧ qid ≠ 0 ∧ Tab.find s.scn.cqs (qKey h.ctrl qid) = some q ∧ (∀ p ∈ s.scn.sqs, p.1 / 65536 = h.ctrl → p.2.cqid ≠ qid)) ∧
    (∃ (h : CmdHdr) (qid : Nat) (q : SubQueue) (s : State), Fetched h .pcieAdmin s ∧ qid ≠ 0 ∧ Tab.find s.scn.sqs (qKey h.ctrl qid) = some q ∧ h.sq ≠ qid) ∧
    (∃ (h : CmdHdr) (v : W32) (q : SubQueue) (s : State), Fetched h .admin s ∧ s.sqOf h.ctrl (bits v.toNat 15 0) = some q ∧ bits v.toNat 31 17 = 0) ∧
    (∃ (h : CmdHdr) (sqid : Nat) (q : SubQueue) (s : State), Fetched h .gloexAdmin s ∧ sqid ≠ 0 ∧ s.sqOf h.ctrl sqid = some q ∧ q.frozen = true ∧ q.logRead = true) ∧
    (∃ (h : CmdHdr) (sqid : Nat) (q : SubQueue) (s : State), Fetched h .gloexAdmin s ∧ sqid ≠ 0 ∧ s.sqOf h.ctrl sqid = some q ∧ q.frozen = false) :=
  ⟨⟨adm, 4, 2, 3, ctl, serving ctl [], by simp only [Fetched]; decide +kernel⟩,
   ⟨adm, 4, 16384, 1, ctl, cq1, queued ctl sq1, by simp only [Fetched]; decide +kernel⟩,
   ⟨adm, 4, 16384, 3, ctl, queued ctl sq1, by simp only [Fetched]; decide +kernel⟩,
   ⟨adm, 1, cq1, queued ctl sq1, by simp only [Fetched]; decide +kernel⟩,
   ⟨adm, 1, sq1, queued ctl sq1, by simp only [Fetched]; decide +kernel⟩,
   ⟨adm, 1, sq1, queued ctl sq1, by simp only [Fetched]; decide +kernel⟩,
   ⟨adm, 1, { sq1 with frozen := true, logRead := true }, queued { ctl with gloex := true } { sq1 with frozen := true, logRead := true }, by simp only [Fetched]; decide +kernel⟩,
   ⟨adm, 1, sq1, queued { ctl with gloex := true } sq1, by simp only [Fetched]; decide +kernel⟩⟩

def aborting : Scene := { sceneOf (.abort 1 5 0) with sq := 0 }
/-- An Asynchronous Event Request of controller 7. -/
def requested : Scene := { sceneOf .aer with sq := 0, cid := 5 }
/-- The serving controller with `n` scenes as `c`, and these answers to Asynchronous Event Requests. -/
def holding (n : Nat) (c : Scene) (due : Tab Nat) : State :=
  { serving ctl [] with
    scn := { (serving ctl []).scn with scenes := (List.range n).map (fun o => (o, c)), nextOrder := n }
    evt := { (serving ctl []).evt with aenDue := due } }
/-- States and operands that meet the hypotheses of FeaturesAndAbortsAreServed, clause by clause. -/
theorem witness_FeaturesAndAbortsAreServed :
    (∃ (h : CmdHdr) (s : State), Fetched h .admin s ∧ featureOk s h.ctrl 0x06 = true) ∧
    (∃ (h : CmdHdr) (fid : Nat) (s : State), Fetched h .admin s ∧ featureOk s h.ctrl fid = true) ∧
    (∃ (h : CmdHdr) (fid : Nat) (s : State), Fetched h .admin s ∧ featureOk s h.ctrl fid = true ∧ fid ≠ 0x0E ∧ fid ≠ 0x16 ∧ fid ≠ 0x81) ∧
    (∃ (h : CmdHdr) (v : W32) (s : State), Fetched h .admin s ∧ 100 ≤ bits v.toNat 15 0 ∧ bits v.toNat 15 0 ≤ 2000) ∧
    (∃ (h : CmdHdr) (sqid target : Nat) (s : State), Fetched h .admin s ∧ s.openAborts h.ctrl < 8 ∧ s.targetOf h.ctrl sqid target = none) ∧
    (∃ (h : CmdHdr) (sqid target o : Nat) (c : Scene) (s : State), Fetched h .admin s ∧ s.openAborts h.ctrl < 8 ∧ s.targetOf h.ctrl sqid target = some (o, c) ∧
      c.decided = false ∧ Tab.has (openScene h 0x08 (.abort sqid target s.wall) 0 s).2.evt.aenDue o = false) ∧
    (∃ (h : CmdHdr) (sqid target o : Nat) (c : Scene) (s : State), Fetched h .admin s ∧ s.openAborts h.ctrl < 8 ∧ s.targetOf h.ctrl sqid target = some (o, c) ∧
      Tab.has (openScene h 0x08 (.abort sqid target s.wall) 0 s).2.evt.aenDue o = true) ∧
    (∃ (h : CmdHdr) (s : State), Fetched h .admin s ∧ 8 ≤ s.openAborts h.ctrl) ∧
    (∃ (ctrl cid o t q since : Nat) (c : Scene) (s : State), s.scn.scenes = [(o, c)] ∧ c.ctrl = ctrl ∧ c.sq = 0 ∧ c.cid = cid ∧ c.decided = false ∧ c.kind = .abort q t since ∧ since + 10000000 ≤ s.wall) ∧
    (∃ (h : CmdHdr) (s : State), Fetched h .admin s ∧ (s.scn.scenes.filter (s.isOpenAer h.ctrl)).length = 15) ∧
    (∃ (h : CmdHdr) (s : State), Fetched h .admin s ∧ (s.scn.scenes.filter (s.isOpenAer h.ctrl)).length = 16) ∧
    (∃ (o v : Nat) (c : Scene) (s : State), c.kind = .aer ∧ c.decided = false ∧ held s o c = false ∧ Tab.find s.evt.aenDue o = some v) ∧
    (∃ (h : CmdHdr) (k : Ctrl) (a : Assoc) (s : State), Fetched h .fabricAdmin s ∧ s.ctrlOf h.ctrl = some k ∧ k.assoc = some a) :=
  ⟨⟨adm, serving ctl [], by simp only [Fetched]; decide +kernel⟩,
   ⟨adm, 0x81, serving ctl [], by simp only [Fetched]; decide +kernel⟩,
   ⟨adm, 0x07, serving ctl [], by simp only [Fetched]; decide +kernel⟩,
   ⟨adm, 2000, serving ctl [], by simp only [Fetched]; decide +kernel⟩,
   ⟨adm, 1, 5, serving ctl [], by simp only [Fetched]; decide +kernel⟩,
   ⟨adm, 0, 5, 0, requested, holding 1 requested [], by simp only [Fetched]; decide +kernel⟩,
   ⟨adm, 0, 5, 0, requested, holding 1 requested [(0, 0xC30007)], by simp only [Fetched]; decide +kernel⟩,
   ⟨adm, holding 8 aborting [], by simp only [Fetched]; decide +kernel⟩,
   ⟨7, 1, 0, 5, 1, 0, aborting, { serving ctl [] with wall := 10000000, scn := { (serving ctl []).scn with scenes := [(0, aborting)] } }, by decide +kernel⟩,
   ⟨adm, holding 15 requested [], by simp only [Fetched]; decide +kernel⟩,
   ⟨adm, holding 16 requested [], by simp only [Fetched]; decide +kernel⟩,
   ⟨0, 0xC30007, requested, holding 1 requested [(0, 0xC30007)], by decide +kernel⟩,
   ⟨adm, { ctl with transport := 1, assoc := some assoc0 }, assoc0, serving { ctl with transport := 1, assoc := some assoc0 } [], by simp only [Fetched]; decide +kernel⟩⟩

def testing (x : SelfTest) : State :=
  { serving ctl [] with scn := { (serving ctl []).scn with ctl := [(7, { selfTest := some x })] } }
def test1 : SelfTest := { code := 1, nsids := [] }
/-- States and operands that meet the hypotheses of LogsAndSelfTestsAreServed, clause by clause. -/
theorem witness_LogsAndSelfTestsAreServed :
    (∃ (h : CmdHdr) (lid : Nat) (s : State), Fetched h .identify s ∧ (lid = 0x01 ∨ lid = 0x02 ∨ lid = 0x03 ∨ lid = 0x06)) ∧
    (∃ (h : CmdHdr) (lid : Nat) (s : State), Fetched h .identify s ∧ lid ∉ [0x01, 0x02, 0x03, 0x04, 0x05, 0x06, 0x0D]) ∧
    (∃ (h : CmdHdr) (lsi len : Nat) (q : SubQueue) (s : State), Fetched h .identify s ∧ s.sqOf h.ctrl lsi = some q ∧ s.isGloex h.ctrl = true ∧ lsi ≠ 0 ∧ 0 < len) ∧
    (∃ (h : CmdHdr) (lsi : Nat) (q : SubQueue) (s : State), Fetched h .identify s ∧ s.sqOf h.ctrl lsi = some q) ∧
    (∃ (h : CmdHdr) (offset : Nat) (s : State), Fetched h .identify s ∧ offset % 4 = 0) ∧
    (∃ (h : CmdHdr) (n : Namespace) (s : State), Fetched h .identify s ∧ s.nsFor h = some n) ∧
    (∃ (h : CmdHdr) (s : State), Fetched h .identify s ∧ s.nsFor h = none) ∧
    (∃ (h : CmdHdr) (code : Nat) (s : State), Fetched h .admin s ∧ (code = 1 ∨ code = 2) ∧ (s.side h.ctrl).selfTest = none ∧ s.isHouse h.ctrl = true) ∧
    (∃ (h : CmdHdr) (code : Nat) (x : SelfTest) (s : State), Fetched h .admin s ∧ (code = 1 ∨ code = 2) ∧ (s.side h.ctrl).selfTest = some x) ∧
    (∃ (h : CmdHdr) (x : SelfTest) (s : State), Fetched h .admin s ∧ (s.side h.ctrl).selfTest = some x) ∧
    (∃ (c : Nat) (x : SelfTest) (s : State), (s.side c).selfTest = some x) ∧
    (∃ (c : Nat) (x : SelfTest) (s : State), (s.side c).selfTest = some x) ∧
    (∃ (h : CmdHdr) (s : State), fetchable s h = true) :=
  ⟨⟨adm, 0x06, serving ctl [], by simp only [Fetched]; decide +kernel⟩,
   ⟨adm, 0x07, serving ctl [], by simp only [Fetched]; decide +kernel⟩,
   ⟨adm, 1, 1, sq1, queued { ctl with gloex := true } sq1, by simp only [Fetched]; decide +kernel⟩,
   ⟨adm, 1, sq1, queued ctl sq1, by simp only [Fetched]; decide +kernel⟩,
   ⟨adm, 4, serving ctl [], by simp only [Fetched]; decide +kernel⟩,
   ⟨adm, nsIs false, withNs (nsIs false), by simp only [Fetched]; decide +kernel⟩,
   ⟨adm, serving ctl [], by simp only [Fetched]; decide +kernel⟩,
   ⟨adm, 2, serving ctl [], by simp only [Fetched]; decide +kernel⟩,
   ⟨adm, 1, test1, testing test1, by simp only [Fetched]; decide +kernel⟩,
   ⟨adm, test1, testing test1, by simp only [Fetched]; decide +kernel⟩,
   ⟨7, test1, testing test1, by decide +kernel⟩,
   ⟨7, test1, testing test1, by decide +kernel⟩,
   ⟨adm, serving ctl [], by decide +kernel⟩⟩

def attrs0 : NsAttrs :=
  { kv := true, nsze := 0, lbaf := 0, owner := 2, services := 0, compFormat := 0, compLevel := 0, cipher := 0, fixityAlg := 0, tierPolicy := 0,
    demoteDays := 0, promoteReads := 0, sweepDays := 0, reservedZero := true }
/-- Controller 7 of tenant 2, which may run programs: four of them, sixteen slots each. -/
def progState : State :=
  serving { ctl with tag := 2 } [tenantIs 2 4, rec' 0x0502 2 12 (leBytes 4 16 ++ leBytes 4 1000 ++ leBytes 2 4)]
def exitSlot : Bytes := [0x95, 0, 0, 0, 0, 0, 0, 0]
/-- A filter program of one slot. -/
def progBytes : Bytes :=
  leBytes 4 0x31585150 ++ leBytes 2 1 ++ [0, 0] ++ leBytes 4 1 ++ [1, 0] ++ leBytes 2 1 ++ List.replicate 16 0 ++ leBytes 4 (crc32 exitSlot) ++
    List.replicate 28 0 ++ exitSlot
def progImg : ProgImage := { id := 1, ty := 0, slots := 1, recMode := 1, delim := 0, recLen := 1, stateLen := 0, outMax := 0 }
/-- States and operands that meet the hypotheses of NamespacesKeysAndProgramsAreServed, clause by clause. -/
theorem witness_NamespacesKeysAndProgramsAreServed :
    (∃ (h : CmdHdr) (lbaf ses : Nat) (n : Namespace) (s : State), Fetched h .admin s ∧ h.nsid ≠ 0xFFFFFFFF ∧ s.nsFor h = some n ∧ Tab.find s.obj.ns h.nsid = some n ∧ n.kv = false ∧ lbaf ≤ 1 ∧ ses ≤ 2) ∧
    (∃ (h : CmdHdr) (n : Namespace) (s : State), Fetched h .houseAdmin s ∧ h.nsid ≠ 0xFFFFFFFF ∧ Tab.find s.obj.ns h.nsid = some n) ∧
    (∃ (h : CmdHdr) (a : NsAttrs) (nsid : Nat) (t : TenantRec) (s : State), Fetched h .houseAdmin s ∧ a.owner ≠ 0 ∧ s.tenantRec a.owner = some t ∧ attrsOk a = true ∧ a.kv = true ∧ a.services.testBit 1 = false ∧ Tab.freeKey s.obj.ns 8192 1 = some nsid) ∧
    (∃ (h : CmdHdr) (a : NsAttrs) (s : State), Fetched h .houseAdmin s ∧ (attrsOk a = false ∨ a.owner = 0)) ∧
    (∃ (h : CmdHdr) (c : Nat) (n : Namespace) (r : ControllerRec) (s : State), Fetched h .houseAdmin s ∧ Tab.find s.obj.ns h.nsid = some n ∧ s.controllerRec c = some r ∧ r.tag = n.owner ∧ c ∉ n.attached) ∧
    (∃ (h : CmdHdr) (action : Nat) (s : State), Fetched h .houseAdmin s ∧ action ≠ 4) ∧
    (∃ (h : CmdHdr) (s : State), Fetched h .houseAdmin s ∧ (∀ p ∈ s.obj.ns, epochSpent s p.1 = false)) ∧
    (∃ (h : CmdHdr) (kt k : Nat) (s : State), Fetched h .admin s ∧ s.deviceSlot ((s.ctrlTag h.ctrl).getD 0) kt = some k ∧ (s.keySlot k).kind = 6) ∧
    (∃ (h : CmdHdr) (s : State), Fetched h .admin s) ∧
    (∃ (h : CmdHdr) (pidx total : Nat) (piece : Bytes) (s : State), Fetched h .programs s ∧ pidx < s.progCount ((s.ctrlTag h.ctrl).getD 0) ∧ total ≤ 64 + 8 * 1048576 ∧ piece.length < total) ∧
    (∃ (tag pidx o : Nat) (s : State), loadScene s tag pidx = some o ∧ progHeaderOk (s.prog tag pidx).loaded = true ∧ leAt (s.prog tag pidx).loaded 8 4 ≤ ((s.programLimits tag).map (fun l => l.slots)).getD 0) ∧
    (∃ (h : CmdHdr) (pidx : Nat) (m : ProgImage) (s : State), Fetched h .programs s ∧ pidx < s.progCount ((s.ctrlTag h.ctrl).getD 0) ∧ (s.prog ((s.ctrlTag h.ctrl).getD 0) pidx).staged = some m) ∧
    (∃ (h : CmdHdr) (pidx : Nat) (s : State), Fetched h .programs s ∧ pidx < s.progCount ((s.ctrlTag h.ctrl).getD 0)) ∧
    (∃ (h : CmdHdr) (l : List (Nat × Nat)) (s : State), Fetched h .programs s ∧ rangesOk (s.slmSize ((s.ctrlTag h.ctrl).getD 0)) l = true ∧ s.bob.sets = []) ∧
    (∃ (h : CmdHdr) (k : Nat) (l : List (Nat × Nat)) (s : State), Fetched h .programs s ∧ k < 256 ∧ Tab.find s.bob.sets (((s.ctrlTag h.ctrl).getD 0) * 65536 + k) = some l) :=
  ⟨⟨adm, 1, 2, nsIs false, withNs (nsIs false), by simp only [Fetched]; decide +kernel⟩,
   ⟨adm, nsIs false, withNs (nsIs false), by simp only [Fetched]; decide +kernel⟩,
   ⟨adm, attrs0, 1, tenantRec0 0, serving ctl [tenantIs 2 0], by simp only [Fetched]; decide +kernel⟩,
   ⟨adm, { attrs0 with owner := 0 }, serving ctl [], by simp only [Fetched]; decide +kernel⟩,
   ⟨adm, 9, nsIs false, { tag := 0, transport := 0, gloex := false, ioQueues := 0, queueEntries := 0, vectors := 0, fn := 0 }, { withNs (nsIs false) with prk := (serving ctl [rec' 0x0302 9 16 []]).prk }, by simp only [Fetched]; decide +kernel⟩,
   ⟨adm, 5, serving ctl [], by simp only [Fetched]; decide +kernel⟩,
   ⟨adm, withNs (nsIs false), by simp only [Fetched]; decide +kernel⟩,
   ⟨adm, 0, 0, { serving { ctl with tag := 2 } [tenantIs 2 0, rec' 0x0701 2 8 [0, 0, 4, 0]] with scr := { slots := [(0, { kind := 6 })] } }, by simp only [Fetched]; decide +kernel⟩,
   ⟨adm, serving ctl [], by simp only [Fetched]; decide +kernel⟩,
   ⟨adm, 3, 64 + 8 * 1048576, [0], progState, by simp only [Fetched]; decide +kernel⟩,
   ⟨2, 0, 0, { progState with scn := { progState.scn with scenes := [(0, { sceneOf (.loadProgram 0) with tag := 2 })] }, bob := { progs := [(progKey 2 0, { loaded := progBytes })] } }, by decide +kernel⟩,
   ⟨adm, 0, progImg, { progState with bob := { progs := [(progKey 2 0, { staged := some progImg })] } }, by simp only [Fetched]; decide +kernel⟩,
   ⟨adm, 3, progState, by simp only [Fetched]; decide +kernel⟩,
   ⟨adm, [(0, 4096)], progState, by simp only [Fetched]; decide +kernel⟩,
   ⟨adm, 255, [(0, 4096)], { progState with bob := { sets := [(2 * 65536 + 255, [(0, 4096)])] } }, by simp only [Fetched]; decide +kernel⟩⟩

def fwImg : FwImage := { len := 4096, last := true, verifies := true, svn := 0, version := 1, safetyImage := 0 }
/-- States and operands that meet the hypotheses of FirmwareAndManagementAreServed, clause by clause. -/
theorem witness_FirmwareAndManagementAreServed :
    (∃ (h : CmdHdr) (s : State), Fetched h .houseAdmin s) ∧
    (∃ (h : CmdHdr) (slot : Nat) (d : FwImage) (s : State), Fetched h .houseAdmin s ∧ 1 ≤ slot ∧ slot ≤ 3 ∧ s.scn.download = some d ∧ s.scn.downloadLen ≤ 12 * 2 ^ 20) ∧
    (∃ (h : CmdHdr) (slot : Nat) (x : FwSlot) (s : State), Fetched h .houseAdmin s ∧ 1 ≤ slot ∧ slot ≤ 3 ∧ Tab.find s.dev.fwSlots slot = some x) ∧
    (∃ (h : CmdHdr) (slot : Nat) (s : State), Fetched h .houseAdmin s ∧ (slot = 0 ∨ 3 < slot)) ∧
    (∃ (h : CmdHdr) (slot : Nat) (x : FwSlot) (s : State), Fetched h .houseAdmin s ∧ Tab.find s.dev.fwSlots slot = some x ∧ x.readable = true ∧ x.verifies = true ∧ s.dev.fwFloor ≤ x.svn) ∧
    (∃ (h : CmdHdr) (slot : Nat) (s : State), Fetched h .houseAdmin s ∧ Tab.find s.dev.fwSlots slot = none) ∧
    (∃ (a : Activation) (x : FwSlot) (s : State), s.scn.act = some a ∧ s.runs = true ∧ (∀ p ∈ s.scn.scenes, a.scene = some p.1 ∨ p.2.kind = .aer) ∧ activable s a.slot = some x ∧ needsSwitch s x = false) ∧
    (∃ (a : Activation) (s : State), s.scn.act = some a ∧ a.start + 2000000000 ≤ s.wall) ∧
    (∃ (a : Activation) (o : Nat) (st : Status) (s : State), a.scene = some o ∧ s.scn.miHeld = [] ∧ isOk st = true) ∧
    (∃ (h : CmdHdr) (m : MiMsg) (s : State), Fetched h .houseAdmin s ∧ m.body = .basic ∧ m.len ≤ 4224) ∧
    (∃ (h : CmdHdr) (o : Output) (s : State), Fetched h .houseAdmin s ∧ s.scn.miReply = some o) ∧
    (∃ (h : CmdHdr) (s : State), Fetched h .houseAdmin s ∧ s.scn.miReply = none) :=
  ⟨⟨adm, serving ctl [], by simp only [Fetched]; decide +kernel⟩,
   ⟨adm, 3, fwImg, { serving ctl [] with scn := { (serving ctl []).scn with download := some fwImg, downloadLen := 12 * 2 ^ 20 } }, by simp only [Fetched]; decide +kernel⟩,
   ⟨adm, 1, {}, serving ctl [], by simp only [Fetched]; decide +kernel⟩,
   ⟨adm, 4, serving ctl [], by simp only [Fetched]; decide +kernel⟩,
   ⟨adm, 1, {}, serving ctl [], by simp only [Fetched]; decide +kernel⟩,
   ⟨adm, 2, serving ctl [], by simp only [Fetched]; decide +kernel⟩,
   ⟨{ scene := none, slot := 1, start := 0 }, {}, { perf [] with scn := { act := some { scene := none, slot := 1, start := 0 }, scenes := [(0, requested)] } }, by decide +kernel⟩,
   ⟨{ scene := none, slot := 1, start := 0 }, { perf [] with wall := 2000000000, scn := { act := some { scene := none, slot := 1, start := 0 } } }, by decide +kernel⟩,
   ⟨{ scene := some 0, slot := 1, start := 0 }, 0, { sct := 0, sc := 0, dnr := false }, perf [], by decide +kernel⟩,
   ⟨adm, mi0 .basic, serving ctl [], by simp only [Fetched]; decide +kernel⟩,
   ⟨adm, .miBasic, { serving ctl [] with scn := { (serving ctl []).scn with miReply := some .miBasic } }, by simp only [Fetched]; decide +kernel⟩,
   ⟨adm, serving ctl [], by simp only [Fetched]; decide +kernel⟩⟩

/-- Controller 7 of tenant 2 with the KV namespace 1 and a flash tier of 1,000 units. -/
def kvState : State :=
  { serving { ctl with tag := 2 } [tenantIs 2 0] with
    obj := { ns := [(1, { nsIs true with owner := 2 })] }, trl := { flash := { slots := 2000, units := 1000 } } }
/-- The unit 7 of namespace 1 mapped. -/
def mappedState (n : Namespace) : State := { withNs n with trl := { map := [(7, .flash 0 0)] } }
/-- An invocation block in SLM at 0: its source is an empty range of SLM. -/
def execState : State :=
  { progState with
    bob := { progs := [(progKey 2 0, { active := some progImg })], sets := [(2 * 65536 + 255, [(0, 4096)])] }
    slm := [(2 * 2 ^ 40, 0x50), (2 * 2 ^ 40 + 1, 0x51), (2 * 2 ^ 40 + 2, 0x49), (2 * 2 ^ 40 + 3, 0x31), (2 * 2 ^ 40 + 4, 2)] }
def execReq : ExecReq :=
  { pidx := 0, setId := 255, hostLen := 0, budget := 1000, image := progImg, srcKind := 2, dstKind := 0, nsid := 0, key := [], slba := 0,
    nlb := 0, srcOff := 0, srcLen := 0, dstOff := 0, dstCap := 0, param := List.replicate 256 0 }
/-- States and operands that meet the hypotheses of IoCommandsOpenTheirScenes, clause by clause. -/
theorem witness_IoCommandsOpenTheirScenes :
    (∃ (h : CmdHdr) (a k : Nat) (n : Namespace) (s : State), Fetched h .nvm s ∧ s.nsFor h = some n ∧ n.kv = false ∧ a + k ≤ n.nsze ∧ s.dev.phase ≠ .finalCurtain ∧ newUnits s n a k = 0) ∧
    (∃ (h : CmdHdr) (a k : Nat) (n : Namespace) (s : State), Fetched h .nvm s ∧ s.nsFor h = some n ∧ n.kv = false ∧ a + k ≤ n.nsze ∧ s.dev.phase ≠ .finalCurtain) ∧
    (∃ (h : CmdHdr) (a k : Nat) (n : Namespace) (s : State), Fetched h .nvm s ∧ s.nsFor h = some n ∧ n.kv = false ∧ n.nsze < a + k) ∧
    (∃ (h : CmdHdr) (d a k : Nat) (n : Namespace) (s : State), Fetched h .nvm s ∧ s.nsFor h = some n ∧ n.kv = false ∧ d + k ≤ n.nsze ∧ a + k ≤ n.nsze ∧ k ≤ 65536 ∧ s.dev.phase ≠ .finalCurtain ∧ newUnits s n d k = 0) ∧
    (∃ (h : CmdHdr) (n : Namespace) (s : State), Fetched h .anyIo s ∧ h.nsid ≠ 0xFFFFFFFF ∧ s.nsFor h = some n) ∧
    (∃ (h : CmdHdr) (key : Bytes) (n : Namespace) (s : State), Fetched h .kv s ∧ s.nsFor h = some n ∧ n.kv = true ∧ 1 ≤ key.length ∧ key.length ≤ 16 ∧ s.dev.phase ≠ .finalCurtain) ∧
    (∃ (h : CmdHdr) (key : Bytes) (len t : Nat) (b : Bool) (opts : KvOpts) (n : Namespace) (s : State), Fetched h .kv s ∧ s.nsFor h = some n ∧ n.kv = true ∧ 1 ≤ key.length ∧ key.length ≤ 16 ∧ len ≤ 4294967295 ∧ (¬ (opts.mustExist = true ∧ opts.mustNotExist = true)) ∧ s.dev.phase ≠ .finalCurtain ∧ chooseTier s n (storeBytes len) (ceilDiv (storeBytes len) unitBytes) = (stOk, t, b)) ∧
    (∃ (h : CmdHdr) (pidx setId off len : Nat) (m : ProgImage) (x : ExecReq) (s : State), Fetched h .programs s ∧ (s.prog ((s.ctrlTag h.ctrl).getD 0) pidx).active = some m ∧ pidx < s.progCount ((s.ctrlTag h.ctrl).getD 0) ∧ off % 512 = 0 ∧ setId < 256 ∧ inSet (Tab.at s.bob.sets (((s.ctrlTag h.ctrl).getD 0) * 65536 + setId) []) off 512 = true ∧ execReqOf pidx setId len (((s.programLimits ((s.ctrlTag h.ctrl).getD 0)).map (fun l => l.budget)).getD 0) m (Tab.at s.bob.sets (((s.ctrlTag h.ctrl).getD 0) * 65536 + setId) []) (s.slmRead ((s.ctrlTag h.ctrl).getD 0) off 512) = some x ∧ isOk (sourceStatus s h x) = true) ∧
    (∃ (h : CmdHdr) (off len : Nat) (s : State), Fetched h .slm s ∧ off + len ≤ s.slmSize ((s.ctrlTag h.ctrl).getD 0)) ∧
    (∃ (h : CmdHdr) (m : MemCopy) (s : State), Fetched h .slm s ∧ m.srcNs = none ∧ m.dstNs = none ∧ m.srcOff + m.len ≤ s.slmSize ((s.ctrlTag h.ctrl).getD 0) ∧ m.dstOff + m.len ≤ s.slmSize ((s.ctrlTag h.ctrl).getD 0)) ∧
    (∃ (h : CmdHdr) (v : W32) (s : State), Fetched h .anyIo s ∧ v.toNat < 3) ∧
    (∃ (h : CmdHdr) (v : W32) (s : State), Fetched h .anyIo s ∧ 4 ≤ v.toNat) :=
  ⟨⟨io, 56, 8, nsIs false, mappedState (nsIs false), by simp only [Fetched]; decide +kernel⟩,
   ⟨io, 0, 64, nsIs false, withNs (nsIs false), by simp only [Fetched]; decide +kernel⟩,
   ⟨io, 64, 1, nsIs false, withNs (nsIs false), by simp only [Fetched]; decide +kernel⟩,
   ⟨io, 56, 0, 8, nsIs false, mappedState (nsIs false), by simp only [Fetched]; decide +kernel⟩,
   ⟨io, nsIs false, withNs (nsIs false), by simp only [Fetched]; decide +kernel⟩,
   ⟨io, List.replicate 16 1, nsIs true, withNs (nsIs true), by simp only [Fetched]; decide +kernel⟩,
   ⟨io, [1], 262144, 0, false, { mustExist := false, mustNotExist := true, noCompress := false }, { nsIs true with owner := 2 }, kvState, by simp only [Fetched]; decide +kernel⟩,
   ⟨io, 0, 255, 0, 0, progImg, execReq, execState, by simp only [Fetched]; decide +kernel⟩,
   ⟨io, 0, 1048576, progState, by simp only [Fetched]; decide +kernel⟩,
   ⟨io, { srcNs := none, dstNs := none, key := [], srcOff := 0, dstOff := 1044480, len := 4096 }, progState, by simp only [Fetched]; decide +kernel⟩,
   ⟨io, 2, serving ctl [], by simp only [Fetched]; decide +kernel⟩,
   ⟨io, 4, serving ctl [], by simp only [Fetched]; decide +kernel⟩⟩

/-- One scene. -/
def staged (c : Scene) : State := { withNs (nsIs false) with scn := { (withNs (nsIs false)).scn with scenes := [(0, c)] } }
/-- States and operands that meet the hypotheses of CommitsTakeEffectAtOnce, clause by clause. -/
theorem witness_CommitsTakeEffectAtOnce :
    (∃ (o : Nat) (c : Scene) (s : State), Tab.find s.scn.scenes o = some c ∧ c.decided = false ∧ held s o c = false ∧ needsCredit s c = false ∧ (c.kind.toHost = true → s.dmaStopped c.ctrl = false) ∧ Tab.find s.smg.fails (o % 2 ^ 17) = none) ∧
    (∃ (o : Nat) (f : Nat × Nat) (c : Scene) (s : State), Tab.find s.scn.scenes o = some c ∧ c.decided = false ∧ held s o c = false ∧ needsCredit s c = false ∧ (c.kind.toHost = true → s.dmaStopped c.ctrl = false) ∧ Tab.find s.smg.fails (o % 2 ^ 17) = some f) ∧
    (∃ (o : Nat) (c : Scene) (s : State), Tab.find s.scn.scenes o = some c ∧ c.decided = false ∧ c.kind.toHost = true ∧ s.dmaStopped c.ctrl = true) ∧
    (∃ (o : Nat) (c : Scene) (s : State), Tab.find s.scn.scenes o = some c ∧ c.decided = false ∧ held s o c = false ∧ c.points < c.kind.readPoints) ∧
    (∃ (o : Nat) (c : Scene) (s : State), Tab.find s.scn.scenes o = some c ∧ c.decided = true) ∧
    (∃ (o : Nat) (c : Scene) (s : State), Tab.find s.scn.scenes o = some c ∧ c.decided = false ∧ c.version = none ∧ c.reserve = none) ∧
    (∃ (n : Namespace) (k : Nat) (d : Bytes), n.lbaf = 0 ∧ d.length = 4096 * k) ∧
    (∃ (a k b : Nat), b < a ∨ a + k ≤ b) ∧
    (∃ (k i : Nat), i < k) ∧
    (∃ (k : Nat), 0 < k) ∧
    (∃ (h : CmdHdr) (k : Ctrl) (q : SubQueue) (s : State), s.ctrlOf h.ctrl = some k ∧ s.sqOf h.ctrl h.sq = some q ∧ s.isSealed k.tag = false) :=
  ⟨⟨0, sceneOf (.writeZeroes 0 8), staged (sceneOf (.writeZeroes 0 8)), by decide +kernel⟩,
   ⟨0, (1, 2), sceneOf (.writeZeroes 0 8), { staged (sceneOf (.writeZeroes 0 8)) with smg := { fails := [(0, (1, 2))] } }, by decide +kernel⟩,
   ⟨0, sceneOf (.nvmRead 0 8 none), { staged (sceneOf (.nvmRead 0 8 none)) with hfe := { (serving ctl []).hfe with ide := [(0, { fns := [0], insecure := true })] } }, by decide +kernel⟩,
   ⟨0, sceneOf (.nvmRead 0 8 none), staged (sceneOf (.nvmRead 0 8 none)), by decide +kernel⟩,
   ⟨0, { sceneOf .admin with retired := true }, staged { sceneOf .admin with retired := true }, by decide +kernel⟩,
   ⟨0, sceneOf .admin, staged (sceneOf .admin), by decide +kernel⟩,
   ⟨nsIs false, 1, List.replicate 4096 7, ⟨rfl, List.length_replicate⟩⟩,
   ⟨8, 8, 16, by decide +kernel⟩,
   ⟨8, 7, by decide +kernel⟩,
   ⟨1, by decide +kernel⟩,
   ⟨io, ctl, sq1, serving ctl [], by decide +kernel⟩⟩

def arcKv : Namespace := { nsIs true with owner := 2 }
def arcNvm : Namespace := { nsIs false with owner := 2 }
/-- Tenant 2 with its two namespaces named for an archive job, the job as `j`. -/
def archive (j : ArcJob) : State :=
  { perf [tenantIs 2 0] with
    bus := { regs := [(tenantKey 2 0x7008, 1), (tenantKey 2 0x700C, 2), (tenantKey 2 0x7018, 2), (tenantKey 2 0x7040, 16)] }
    obj := { ns := [(1, arcKv), (2, arcNvm)], jobs := [(2, j)] } }
def arcFile : ArcFile :=
  { name := [], value := [], len := 0, listed := true, digestsMatch := true, origTai := 0, checksPass := false, tarBytes := [],
    endReached := false, last := false, oxumBad := false, tagDigest := 0 }
def ver0 : Version :=
  { key := [1], value := [], chunks := [], compFormat := 0, compLevel := 0, cipher := 0, fixityAlg := 0, epoch := 0, storedUnits := 1,
    commitCue := 0, commitTai := 0, fixityCue := 0, fixityResult := 0, origin := 0, origTai := 0, crc := 0, digest := 0, damaged := false,
    imported := false, repaired := false, platters := false, rawChunk := false, first := 0, units := 1, superseded := false, readers := 0,
    lastRead := 0, reads := [] }
def band0 (st : Stream) : Band :=
  { act := 0, surface := 0, stream := st, slots := 100, written := 0, closed := false, spare := false, retired := false, adj := 0,
    refresh := false, zone := 0, firstTrack := 0, append := 0, codeRate := 0, trips := (0, 0) }
def demoting : Namespace := { arcKv with tierPolicy := 2, demoteDays := 1, vers := [(4, ver0)] }
/-- Version 4 of namespace 1 is due for demotion and the platters take it. -/
def demoteState : State :=
  { perf [tenantIs 2 0] with
    cue := { now := dayTicks }, obj := { ns := [(1, demoting)] }
    trl := { restored := true, plat := { slots := 2000, units := 1000 }, bands := [(0, band0 .bandMove)] } }
def sweeping : Namespace := { arcKv with services := 4, sweepDays := 30 }
/-- States and operands that meet the hypotheses of ArchiveAndCallBoard, clause by clause. -/
theorem witness_ArchiveAndCallBoard :
    (∃ (tag : Nat) (p : Namespace × Namespace) (s : State), arcIdle s tag = true ∧ arcNamespaces s tag = some p) ∧
    (∃ (tag : Nat) (s : State), arcIdle s tag = true ∧ arcNamespaces s tag = none) ∧
    (∃ (tag : Nat) (p : Namespace × Namespace) (s : State), arcIdle s tag = true ∧ s.dev.phase ≠ .finalCurtain ∧ arcNamespaces s tag = some p) ∧
    (∃ (tag : Nat) (s : State), (s.job tag).phase ≠ .idle ∧ writable s false = true) ∧
    (∃ (tag : Nat) (ns : Namespace) (s : State), arcIdle s tag = true ∧ 1 ≤ bits (s.tw tag 0x7040 0x1000) 4 0 ∧ bits (s.tw tag 0x7040 0x1000) 4 0 ≤ 16 ∧ Tab.find s.obj.ns (s.tw tag 0x7008 0) = some ns ∧ ns.owner = tag ∧ ns.kv = true) ∧
    (∃ (tag : Nat) (f : ArcFile) (s : State), (s.job tag).phase = .exporting ∧ (f.endReached = true ∨ beyondBag tag (s.job tag) f s = true)) ∧
    (∃ (tag : Nat) (f : ArcFile) (s : State), (s.job tag).phase = .exporting ∧ f.endReached = false ∧ beyondBag tag (s.job tag) f s = false ∧ f.checksPass = false ∧ (s.tw tag 0x7018 2).testBit 8 = false ∧ (s.job tag).abort = false ∧ f.last = false) ∧
    (∃ (tag : Nat) (f : ArcFile) (s : State), (s.job tag).phase = .importSecond ∧ spillDeferred (s.job tag) f s = false ∧ (s.job tag).abort = false ∧ f.last = true ∧ keyOfName f.name = none) ∧
    (∃ (tag : Nat) (f : ArcFile) (s : State), (s.job tag).phase = .importSecond ∧ spillDeferred (s.job tag) f s = true) ∧
    (∃ (nsid id k : Nat) (n : Namespace) (v : Version) (u s : State), s.dev.phase = .performance ∧ s.trl.restored = true ∧ Tab.find s.obj.ns nsid = some n ∧ n.kv = true ∧ n.vers = [(id, v)] ∧ moveTarget s n v = some k ∧ placeMedia ((List.range v.units).map (fun i => (takeRun n.owner k v.units (v.storedUnits * 4096) s.trl).1 + i)) { s with trl := (takeRun n.owner k v.units (v.storedUnits * 4096) s.trl).2 } = some u) ∧
    (∃ (nsid : Nat) (n : Namespace) (s : State), Tab.find s.obj.ns nsid = some n ∧ n.services.testBit 2 = true ∧ 1 ≤ n.sweepDays ∧ n.sweep = none) ∧
    (∃ (q : Requester) (s : State), mayReach s q .house = true ∧ writable s true = true) ∧
    (∃ (q : Requester) (tag : Nat) (s : State), mayReach s q (.tenant tag) = true ∧ writable s true = true) :=
  ⟨⟨2, (arcKv, arcNvm), archive {}, by decide +kernel⟩,
   ⟨2, perf [tenantIs 2 0], by decide +kernel⟩,
   ⟨2, (arcKv, arcNvm), archive {}, by decide +kernel⟩,
   ⟨2, archive { phase := .exporting }, by decide +kernel⟩,
   ⟨2, arcKv, archive {}, by decide +kernel⟩,
   ⟨2, { arcFile with endReached := true }, archive { phase := .exporting }, by decide +kernel⟩,
   ⟨2, arcFile, archive { phase := .exporting, bagNs := 2 }, by decide +kernel⟩,
   ⟨2, { arcFile with last := true, name := [0x2F] }, archive { phase := .importSecond }, by decide +kernel⟩,
   ⟨2, { arcFile with len := 1 }, { demoteState with prk := (perf [tenantIs 2 0, rec' 0x0A02 0 16 [0, 0, 30]]).prk, obj := { demoteState.obj with jobs := [(2, { phase := .importSecond, kvNs := 1 })] } }, by decide +kernel⟩,
   ⟨1, 4, 1, demoting, ver0, _, demoteState, ⟨rfl, rfl, rfl, rfl, rfl, by decide +kernel, rfl⟩⟩,
   ⟨1, sweeping, { perf [] with obj := { ns := [(1, sweeping)] } }, by decide +kernel⟩,
   ⟨sender, perf [], by decide +kernel⟩,
   ⟨sender, 2, perf [], by decide +kernel⟩⟩

def sb0 (st : Stream) (closed : Option Nat) : StripeBlk :=
  { stream := st, members := [], slots := 8, written := 0, openCue := 0, closed := closed, reads := 0, width := 0, levels := [], pageReads := [],
    margins := [], bad := [], refresh := false, erasing := [] }
/-- The translation layer as `x`, the foreground threshold 20. -/
def layer (x : TrlState) : State := { perf [rec' 0x0A02 0 12 [0, 0, 20]] with trl := x }
def wing0 : WingSlot := { unit := 0, granules := [], tag := 0, nsid := 1, seq := 0, cue := 0, posted := false, pred := none, hot := true }
def blk0 : EraseBlk := { ch := 0, ce := 0, lun := 0, blk := 0 }
/-- States and operands that meet the hypotheses of TranslationLayerWorks, clause by clause. -/
theorem witness_TranslationLayerWorks :
    (∃ (slot : Nat) (w : WingSlot) (e : MapEntry) (u s : State), Tab.find s.trl.wings slot = some w ∧ s.trl.copies = [] ∧ mediaSlot w.unit (if w.hot then .hot else .cold) .bandHost s = some (e, u)) ∧
    (∃ (s : State), s.trl.jwritten < s.trl.jnext ∧ (s.trl.joldest + 1000000 ≤ s.wall ∨ 65536 ≤ s.trl.jbytes)) ∧
    (∃ (s : State), s.wall < s.trl.joldest + 1000000 ∧ s.trl.jbytes < 65536) ∧
    (∃ (s : State), s.trl.ckptBusy = false ∧ s.trl.restored = true ∧ (s.trl.ckptAt + 600000000000 ≤ s.wall ∨ 4294967296 ≤ s.trl.jsince)) ∧
    (∃ (v : W32) (s : State), s.trl.ckptBusy = false ∧ s.trl.restored = true ∧ writable s false = true ∧ v.toNat.testBit 0 = true) ∧
    (∃ (s : State), s.trl.ckptBusy = true) ∧
    (∃ (sb : Nat) (s : State), s.trl.restored = true ∧ s.trl.victim = none ∧ s.trl.refreshVictim = some sb) ∧
    (∃ (sb : Nat) (s : State), s.trl.restored = true ∧ s.trl.freeFrac < s.fgThreshold ∧ s.trl.victim = none ∧ s.trl.greedy < 3 ∧ s.dev.phase ≠ .finalCurtain ∧ s.trl.greedyVictim = some sb) ∧
    (∃ (s : State), s.fgThreshold ≤ s.trl.freeFrac) ∧
    (∃ (o n r : Nat) (rest : List (Nat × Nat)) (s : State), s.trl.waiting = (o, n) :: rest ∧ s.copyRatio = some r ∧ n * r ≤ s.trl.credit) ∧
    (∃ (o n r : Nat) (rest : List (Nat × Nat)) (s : State), s.trl.waiting = (o, n) :: rest ∧ s.copyRatio = some r ∧ s.trl.credit < n * r ∧ Tab.has s.scn.scenes o = true) ∧
    (∃ (act k : Nat) (b : Band) (s : State), s.trl.restored = true ∧ s.trl.freeBands act < 4 ∧ s.trl.bands = [(k, b)] ∧ b.act = act ∧ b.closed = true ∧ b.spare = false ∧ b.retired = false ∧ s.trl.validBand k = 0) ∧
    (∃ (sb c : Nat) (b : StripeBlk) (s : State), Tab.find s.trl.sbs sb = some b ∧ b.closed = some c ∧ c + s.reg 0xA00064 365 * 86400000000000 ≤ s.cue.now) :=
  ⟨⟨0, wing0, _, _, layer { wings := [(0, wing0)], sbs := [(1, sb0 .hot none)] }, ⟨rfl, rfl, rfl⟩⟩,
   ⟨{ layer { jnext := 1 } with wall := 1000000 }, by decide +kernel⟩,
   ⟨{ layer { jbytes := 65535 } with wall := 999999 }, by decide +kernel⟩,
   ⟨layer { restored := true, jsince := 4294967296 }, by decide +kernel⟩,
   ⟨1, layer { restored := true }, by decide +kernel⟩,
   ⟨layer { ckptBusy := true }, by decide +kernel⟩,
   ⟨1, layer { restored := true, refreshQ := [1], sbs := [(1, sb0 .hot (some 0))] }, by decide +kernel⟩,
   ⟨1, layer { restored := true, sbs := [(1, sb0 .hot (some 0))] }, by decide +kernel⟩,
   ⟨perf [], by decide +kernel⟩,
   ⟨0, 1, 0, [], { perf [] with trl := { waiting := [(0, 1)] } }, by decide +kernel⟩,
   ⟨0, 1, 110, [], { layer { waiting := [(0, 1)], flash := { slots := 1000 }, freeBlks := [{ blk := blk0, pe := 0, slots := 10 }], sbs := [(1, sb0 .hot (some 0))], map := [(3, .flash 1 0)] } with scn := { scenes := [(0, sceneOf .admin)] } }, by decide +kernel⟩,
   ⟨0, 0, { band0 .bandHost with closed := true }, layer { restored := true, bands := [(0, { band0 .bandHost with closed := true })] }, by decide +kernel⟩,
   ⟨1, 0, sb0 .hot (some 0), { layer { sbs := [(1, sb0 .hot (some 0))] } with cue := { now := 365 * 86400000000000 } }, by decide +kernel⟩⟩

def flash (x : FlcState) : State := { perf [] with flc := x }
def op0 (k : DieOp) (sb : Option Nat) : FlashOp :=
  { op := k, lun := 0, blk := blk0, sb := sb, pos := 0, row := 0, point := none, cue := none, running := true }
def softRd (src : MapEntry) : MediaRd := { rd0 src with soft := true }
/-- States and operands that meet the hypotheses of FlashOperationsEnd, clause by clause. -/
theorem witness_FlashOperationsEnd :
    (∃ (rid l : Nat) (r : MediaRd) (x : LunState) (s : State), Tab.find s.flc.rds rid = some r ∧ Tab.find s.flc.luns l = some x ∧ x.reading = some rid ∧ (∀ a b, r.src ≠ .flash a b) ∧ r.todo.erase l ≠ []) ∧
    (∃ (l sb : Nat) (o : FlashOp) (b : StripeBlk) (s : State), runningOp s l .program = some o ∧ o.sb = some sb ∧ Tab.find s.trl.sbs sb = some b) ∧
    (∃ (l sb : Nat) (o : FlashOp) (s : State), runningOp s l .program = some o ∧ o.sb = some sb) ∧
    (∃ (l : Nat) (o : FlashOp) (m : FreeBlk) (s : State), runningOp s l .erase = some o ∧ o.sb = none ∧ s.trl.freeBlks = [m] ∧ m.blk = o.blk ∧ (s.fgroup (chGroup m.blk.ch)).endurance = 0 ∧ m.pe < 2 ^ 48 - 1) ∧
    (∃ (l k rid : Nat) (x y : LunState) (s : State), s.flc.luns = [(l, x), (k, y)] ∧ l < k ∧ inGroup (chGroup (lunCh l)) k = true ∧ x.retired = false ∧ x.resets = 0 ∧ x.reading = some rid ∧ x.lastStuck = none ∧ y.retired = false ∧ y.lastStuck = none) ∧
    (∃ (ch : Nat) (s : State), ch < 32 ∧ ch ∉ s.flc.deadCh ∧ s.groupRuns (chGroup ch) = true ∧ Tab.at s.flc.trainedAt ch 0 + s.reg 0xB00044 0x18 * 3600000000000 ≤ s.wall) ∧
    (∃ (ch : Nat) (s : State), ch < 32 ∧ ch ∉ s.flc.deadCh ∧ s.groupRuns (chGroup ch) = true ∧ Tab.find s.flc.trainFails ch = some 2) ∧
    (∃ (rid d iters : Nat) (r : MediaRd) (s : State), Tab.find s.flc.rds rid = some r ∧ decoderOf s.flc rid = some d ∧ r.soft = true ∧ iters ≤ s.reg 0xC0000C 0x28) ∧
    (∃ (rid d a b : Nat) (r : MediaRd) (s : State), Tab.find s.flc.rds rid = some r ∧ decoderOf s.flc rid = some d ∧ r.soft = true ∧ r.src = .flash a b ∧ r.step = 1) :=
  ⟨⟨1, 0, { rd0 (.wings 0) with todo := [0, 1] }, { reading := some 1 }, flash { rds := [(1, { rd0 (.wings 0) with todo := [0, 1] })], luns := [(0, { reading := some 1 })] }, ⟨rfl, rfl, rfl, fun _ _ h => by simp [rd0] at h, by decide⟩⟩,
   ⟨0, 1, op0 .program (some 1), sb0 .hot none, { flash { ops := [op0 .program (some 1)] } with trl := { sbs := [(1, sb0 .hot none)] } }, by decide +kernel⟩,
   ⟨0, 1, op0 .program (some 1), flash { ops := [op0 .program (some 1)] }, by decide +kernel⟩,
   ⟨0, op0 .erase none, { blk := blk0, pe := 5, slots := 10 }, { flash { ops := [op0 .erase none] } with trl := { freeBlks := [{ blk := blk0, pe := 5, slots := 10 }] } }, by decide +kernel⟩,
   ⟨0, 255, 1, { reading := some 1 }, {}, flash { luns := [(0, { reading := some 1 }), (255, {})] }, by decide +kernel⟩,
   ⟨31, { perf [] with wall := 86400000000000 }, by decide +kernel⟩,
   ⟨31, flash { trainFails := [(31, 2)] }, by decide +kernel⟩,
   ⟨1, 2, 40, softRd (.flash 0 0), flash { rds := [(1, softRd (.flash 0 0))], decs := [(2, 1)] }, by decide +kernel⟩,
   ⟨1, 2, 0, 0, softRd (.flash 0 0), flash { rds := [(1, softRd (.flash 0 0))], decs := [(2, 1)] }, by decide +kernel⟩⟩

def dies0 (ok : Bool) : DieFacts :=
  { geometryOk := ok, n := 1, rows := 1, setSlots := 1, members := 1, levels := 1, endurance := 1, brick := none, luns := [], dead := [] }
/-- States and operands that meet the hypotheses of GroupsAreReplaced, clause by clause. -/
theorem witness_GroupsAreReplaced :
    (∃ (g : Nat) (s : State), writable s false = true ∧ g < 4 ∧ s.flc.hr = .idle ∧ (s.fgroup g).faulted = false ∧ s.trl.flash.charged ≤ 95 * dataSlots s (some g) / 100) ∧
    (∃ (g : Nat) (s : State), writable s false = true ∧ g < 4 ∧ s.flc.hr = .idle ∧ (s.fgroup g).faulted = false ∧ 95 * dataSlots s (some g) / 100 < s.trl.flash.charged) ∧
    (∃ (s : State), s.flc.hr = .evacuating ∧ hrLeft s s.flc.hrGroup = 0) ∧
    (∃ (g : Nat) (s : State), writable s false = true ∧ g < 4 ∧ s.flc.hr = .evacuated ∧ s.flc.hrGroup = g ∧ s.clkPlan.2.1.testBit (12 + g) = true) ∧
    (∃ (g : Nat) (s : State), writable s false = true ∧ g < 4 ∧ s.flc.hr = .evacuating ∧ s.flc.hrGroup = g) ∧
    (∃ (g : Nat) (f : DieFacts) (s : State), writable s false = true ∧ g < 4 ∧ s.flc.hr = .removed ∧ s.flc.hrGroup = g ∧ f.geometryOk = false) ∧
    (∃ (g : Nat) (f : DieFacts) (s : State), writable s false = true ∧ g < 4 ∧ s.flc.hr = .removed ∧ s.flc.hrGroup = g ∧ f.geometryOk = true ∧ f.brick = none ∧ f.dead = []) ∧
    (∃ (s : State), s.flc.hr = .inserting ∧ s.flc.ops = []) ∧
    (∃ (g : Nat) (x : FlashGroup) (s : State), writable s false = true ∧ g < 4 ∧ s.flc.hr = .idle ∧ Tab.find s.flc.groups g = some x ∧ x.faulted = true) :=
  ⟨⟨3, perf [], by decide +kernel⟩,
   ⟨3, { perf [] with trl := { flash := { charged := 1 } } }, by decide +kernel⟩,
   ⟨flash { hr := .evacuating, hrGroup := 3 }, by decide +kernel⟩,
   ⟨3, { perf [rec' 0x0001 0 12 [0, 0, 0, 0x80]] with flc := { hr := .evacuated, hrGroup := 3 } }, by decide +kernel⟩,
   ⟨3, flash { hr := .evacuating, hrGroup := 3 }, by decide +kernel⟩,
   ⟨3, dies0 false, flash { hr := .removed, hrGroup := 3 }, by decide +kernel⟩,
   ⟨3, dies0 true, flash { hr := .removed, hrGroup := 3 }, by decide +kernel⟩,
   ⟨flash { hr := .inserting }, by decide +kernel⟩,
   ⟨0, { faulted := true }, flash { groups := [(0, { faulted := true })] }, by decide +kernel⟩⟩

/-- An angle field that carries a count, with its check. -/
def angleWord (n : Nat) : BitVec 32 :=
  BitVec.ofNat 32 ((0xC35 * 4096 + n * 8) * 256 + crcMsb 7 8 0 (bitsMsb 24 (0xC35 * 4096 + n * 8)))
def field0 (pes : Int) : ServoField := { missing := false, track := 0, pes := pes, companion := none }
/-- A read on lane 0 of actuator 0, its read in flight as `x`. -/
def onLane (l : Lane) (x : MediaRd) : State := { onDisc { lane0 := l } with flc := { rds := [(4, x)] } }
def run0 : WriteRun := { band := 0, first := 0, count := 1, start := 0 }
/-- States and operands that meet the hypotheses of ServoAndCodewordsWork, clause by clause. -/
theorem witness_ServoAndCodewordsWork :
    (∃ (a : Nat) (f : AngleField) (s : State), s.present a = true ∧ s.powered = true ∧ f.phaseLong = false ∧ (s.act a).locked = true ∧ angleFieldOk f.word = true ∧ bits f.word.toNat 19 11 = ((s.act a).wedge + 1) % 512) ∧
    (∃ (a : Nat) (f : AngleField) (s : State), s.present a = true ∧ s.powered = true ∧ f.phaseLong = false ∧ (s.act a).locked = true ∧ angleFieldOk f.word = false) ∧
    (∃ (a t0 : Nat) (s : State), (s.act a).unlockedAt = some t0 ∧ t0 + 100000000 ≤ s.wall ∧ (s.act a).locked = false ∧ s.present a = true ∧ (s.act a).parked = false ∧ (s.act a).parking = false ∧ (s.act a).faultParks = []) ∧
    (∃ (a : Nat) (f : ServoField) (s : State), s.present a = true ∧ s.powered = true ∧ f.missing = false ∧ f.companion = none ∧ beyond f.pes (s.reg 0xD00008 0x78) = false) ∧
    (∃ (a : Nat) (f : ServoField) (s : State), s.present a = true ∧ s.powered = true ∧ f.missing = false ∧ f.companion = none ∧ beyond f.pes (s.reg 0xD00008 0x78) = true ∧ (s.act a).writing = true) ∧
    (∃ (a r : Nat) (w : SyncWindow) (s : State), (s.act a).lane0.rid = some r ∧ w.signal = true ∧ markAccepted (let t := s.reg 0xD00014 0x704; if ((Tab.find s.flc.rds r).map (fun x => x.step)).getD 1 = 3 then bits t 11 8 else bits t 3 0) w.mark = true ∧ w.resync = none) ∧
    (∃ (a r : Nat) (x : MediaRd) (w : SyncWindow) (s : State), (s.act a).lane0.rid = some r ∧ Tab.find s.flc.rds r = some x ∧ w.signal = true ∧ markAccepted (let t := s.reg 0xD00014 0x704; if x.step = 3 then bits t 11 8 else bits t 3 0) w.mark = false) ∧
    (∃ (a r : Nat) (x : MediaRd) (s : State), (s.act a).lane0.rid = some r ∧ (s.act a).lane0.synced = true ∧ (s.act a).lane0.buf = [] ∧ s.flc.resv = [] ∧ Tab.find s.flc.rds r = some x ∧ x.left ≤ 1) ∧
    (∃ (a r d c : Nat) (x : MediaRd) (s : State), (s.act a).lane0.rid = some r ∧ (s.act a).lane0.synced = true ∧ s.flc.resv = [(d, a, 0, c)] ∧ Tab.find s.flc.rds r = some x ∧ x.left ≤ 1) ∧
    (∃ (d a l c : Nat) (s : State), Tab.find s.flc.resv d = some (a, l, c) ∧ c + 2048 ≤ s.cue.now) ∧
    (∃ (a : Nat) (r : WriteRun) (b : Band) (s : State), (s.act a).run = some r ∧ Tab.find s.trl.bands r.band = some b) :=
  ⟨⟨0, { word := angleWord 0, phaseLong := false }, onDisc { locked := true, wedge := 511 }, by decide +kernel⟩,
   ⟨0, { word := 0, phaseLong := false }, onDisc { locked := true }, by decide +kernel⟩,
   ⟨0, 0, { onDisc { unlockedAt := some 0 } with wall := 100000000 }, by decide +kernel⟩,
   ⟨0, field0 7864, onDisc {}, by decide +kernel⟩,
   ⟨0, field0 7865, onDisc { writing := true }, by decide +kernel⟩,
   ⟨0, 4, { mark := [9, 4], resync := none, signal := true }, onLane { rid := some 4 } (rd0 (.platter 0 0)), by decide +kernel⟩,
   ⟨0, 4, rd0 (.platter 0 0), { mark := [9, 5], resync := none, signal := true }, onLane { rid := some 4 } (rd0 (.platter 0 0)), by decide +kernel⟩,
   ⟨0, 4, { rd0 (.platter 0 0) with left := 1 }, onLane { rid := some 4, synced := true } { rd0 (.platter 0 0) with left := 1 }, by decide +kernel⟩,
   ⟨0, 4, 2, 9, { rd0 (.platter 0 0) with left := 1 }, { onLane { rid := some 4, synced := true } (rd0 (.platter 0 0)) with flc := { rds := [(4, { rd0 (.platter 0 0) with left := 1 })], resv := [(2, 0, 0, 9)] } }, by decide +kernel⟩,
   ⟨2, 0, 0, 9, { flash { resv := [(2, 0, 0, 9)] } with cue := { now := 2057 } }, by decide +kernel⟩,
   ⟨0, run0, band0 .bandHost, { onDisc { run := some run0 } with trl := { bands := [(0, band0 .bandHost)] } }, by decide +kernel⟩⟩

/-- Actuator 0 tracking, the spindle at its speed. -/
def tracking (x : RchAct) : State :=
  { onDisc { x with locked := true, everLocked := true, intervals := [40000] } with hop := { slots := [(8, { sp := 11719 })] } }
/-- States and operands that meet the hypotheses of ActuatorsAreCommanded, clause by clause. -/
theorem witness_ActuatorsAreCommanded :
    (∃ (mv : Nat) (s : State), s.powered = true ∧ mv ≤ bits (s.reg 0xD00010 0x1900190) 11 0) ∧
    (∃ (mv : Nat) (s : State), s.powered = true ∧ bits (s.reg 0xD00010 0x1900190) 11 0 < mv ∧ s.actuators = [0] ∧ (s.act 0).writing = true) ∧
    (∃ (a ns : Nat) (s : State), s.powered = true ∧ s.present a = true ∧ 200 ≤ ns ∧ (s.act a).parked = false ∧ (s.act a).parking = false ∧ (s.act a).faultParks = []) ∧
    (∃ (a n w : Nat) (rest : List PaFrame) (s : State), (s.act a).frames = { kind := .diag w, tries := n } :: rest ∧ (s.act a).gated = false) ∧
    (∃ (a : Nat) (f : PaFrame) (rest : List PaFrame) (s : State), (s.act a).frames = f :: rest ∧ f.tries < 2 ∧ (s.act a).gated = false) ∧
    (∃ (a : Nat) (s : State), (s.act a).gated = true) ∧
    (∃ (a : Nat) (s : State), writable s false = true ∧ s.actState a = 0 ∧ (s.act a).lane0.calibrating = false ∧ (s.act a).lane1.calibrating = false) ∧
    (∃ (a : Nat) (s : State), writable s false = true ∧ s.present a = true ∧ (s.act a).parked = false ∧ (s.act a).parking = false) ∧
    (∃ (a : Nat) (s : State), writable s false = true ∧ s.present a = true ∧ (s.act a).parking = false ∧ (s.act a).parked = true ∧ (s.act a).resuming = false) ∧
    (∃ (a : Nat) (s : State), writable s false = true ∧ s.present a = true ∧ (s.act a).offline = false) ∧
    (∃ (a : Nat) (s : State), (s.act a).lane0.calAt = 0 ∧ s.actState a = 0 ∧ (s.act a).lane0.calibrating = false ∧ (s.act a).lane1.calibrating = false) ∧
    (∃ (a : Nat) (s : State), (s.act a).lane0.calibrating = true) ∧
    (∃ (rid b sl a : Nat) (r : MediaRd) (s : State), Tab.find s.flc.rds rid = some r ∧ r.src = .platter b sl ∧ s.bandAct b = some a ∧ (s.act a).offline = true ∧ r.since + s.reg 0xD00020 0x7530 * 1000000 ≤ s.wall) ∧
    (∃ (a : Nat) (s : State), writable s false = true ∧ a < 4 ∧ (s.act a).paBusy = false) :=
  ⟨⟨400, perf [], by decide +kernel⟩,
   ⟨401, onDisc { writing := true }, by decide +kernel⟩,
   ⟨0, 200, onDisc {}, by decide +kernel⟩,
   ⟨0, 0, 5, [], onDisc { frames := [{ kind := .diag 5, tries := 0 }] }, by decide +kernel⟩,
   ⟨0, { kind := .diag 5, tries := 1 }, [], onDisc { frames := [{ kind := .diag 5, tries := 1 }] }, by decide +kernel⟩,
   ⟨0, onDisc { writing := true }, by decide +kernel⟩,
   ⟨0, tracking {}, by decide +kernel⟩,
   ⟨0, discs, by decide +kernel⟩,
   ⟨0, onDisc { parked := true }, by decide +kernel⟩,
   ⟨0, discs, by decide +kernel⟩,
   ⟨0, tracking {}, by decide +kernel⟩,
   ⟨0, onDisc { lane0 := { calibrating := true } }, by decide +kernel⟩,
   ⟨1, 0, 0, 0, rd0 (.platter 0 0), { onDisc { offline := true } with wall := 30000000000, trl := { bands := [(0, band0 .bandHost)] }, flc := { rds := [(1, rd0 (.platter 0 0))] } }, by decide +kernel⟩,
   ⟨3, perf [], by decide +kernel⟩⟩

/-- Loop slot `n` as `x`. -/
def looping (n : Nat) (x : LoopSlot) : State := { discs with hop := { slots := [(n, x)] } }
/-- States and operands that meet the hypotheses of HoopComputesItsSamples, clause by clause. -/
theorem witness_HoopComputesItsSamples :
    (∃ (n : Nat) (m : Option Int) (v : Int) (s : State), 8 ≤ n ∧ n < 64 ∧ (s.slot n).en = true ∧ s.powered = true ∧ (s.slot n).newSp = none ∧ (s.slot n).want = none ∧ (s.slot n).soft = false ∧ s.measured n m = some v) ∧
    (∃ (n : Nat) (s : State), 9 ≤ n ∧ n < 64 ∧ (s.slot n).en = true ∧ s.powered = true ∧ (s.slot n).newSp = none ∧ (s.slot n).want = none ∧ s.measured n none = none) ∧
    (∃ (n : Nat) (s : State), writable s false = true ∧ n < 9 ∧ (s.slot n).en = false) ∧
    (∃ (n : Nat) (s : State), writable s false = true ∧ n < 64 ∧ 8 ≤ n) ∧
    (∃ (n : Nat) (s : State), writable s false = true ∧ n < 8 ∧ (s.slot n).en = true ∧ s.present (n % 4) = true ∧ (s.act (n % 4)).parked = false ∧ (s.act (n % 4)).parking = false) ∧
    (∃ (n : Nat) (s : State), writable s false = true ∧ n < 64) ∧
    (∃ (n i : Nat) (bank : Bool) (s : State), writable s false = true ∧ n < 64 ∧ i < 7 ∧ (s.slot n).want = some bank) ∧
    (∃ (q : Requester) (n : Nat) (s : State), mayReach s q .house = true ∧ writable s false = true ∧ n < 64 ∧ 9 ≤ n) ∧
    (∃ (q : Requester) (hi : W32) (s : State), mayReach s q .house = true ∧ writable s false = true ∧ toSigned 32 (formed s q 0xE00A08 (s.reg 0xE00A08 0) hi % 2 ^ 32) < 21600) ∧
    (∃ (a first : Nat) (s : State), writable s false = true ∧ a < 4 ∧ first < 2048) ∧
    (∃ (a : Nat) (p : Stream270) (s : State), writable s false = true ∧ a < 4 ∧ Tab.find s.hop.prof a = some p) :=
  ⟨⟨63, none, 0, looping 63 { en := true }, by decide +kernel⟩,
   ⟨63, { looping 63 { en := true } with prk := (perf [rec' 0x0C01 63 40 [4, 3, 0x68]]).prk }, by decide +kernel⟩,
   ⟨8, discs, by decide +kernel⟩,
   ⟨8, discs, by decide +kernel⟩,
   ⟨4, looping 4 { en := true }, by decide +kernel⟩,
   ⟨63, discs, by decide +kernel⟩,
   ⟨63, 6, true, looping 63 { want := some true }, by decide +kernel⟩,
   ⟨sender, 63, discs, by decide +kernel⟩,
   ⟨sender, 0, discs, by decide +kernel⟩,
   ⟨3, 2047, discs, by decide +kernel⟩,
   ⟨3, {}, { discs with hop := { prof := [(3, {})] } }, by decide +kernel⟩⟩

def frame0 : LinkFrame := { ty := 0, ch := 0, data := 0, tries := 0, diag := false }
/-- The motor link as `x`. -/
def linkIs (x : LinkState) : State := { discs with hop := { link := x } }
/-- States and operands that meet the hypotheses of MotorLinkRuns, clause by clause. -/
theorem witness_MotorLinkRuns :
    (∃ (f : LinkFrame) (s : State), s.hop.link.silent = false ∧ s.powered = true ∧ nextFrame s.hop.link.queue = some f ∧ s.hop.link.prev = none) ∧
    (∃ (f p : LinkFrame) (k : Nat) (s : State), s.hop.link.silent = false ∧ s.powered = true ∧ nextFrame s.hop.link.queue = some f ∧ s.hop.link.prev = some (p, k)) ∧
    (∃ (s : State), s.powered = true ∧ s.hop.link.silent = false ∧ s.hop.link.queue = []) ∧
    (∃ (a : Nat) (s : State), (s.act a).parking = true ∧ (s.act a).parkAt + s.reg 0xE00010 0x32 * 1000000 ≤ s.wall ∧ (s.act a).offline = false) ∧
    (∃ (a : Nat) (s : State), (s.act a).resuming = true ∧ s.hop.link.parked.testBit a = false ∧ (s.act a).locked = true ∧ 4 ≤ (s.act a).valid) ∧
    (∃ (ns : Nat) (s : State), s.powered = true ∧ 200 ≤ ns) ∧
    (∃ (a h : Nat) (v : Int) (s : State), a < 4 ∧ h < 6 ∧ Tab.find s.hop.heat (9 + 6 * a + h) = some v ∧ (s.act a).gated = false) ∧
    (∃ (val : W32) (s : State), writable s false = true ∧ s.hop.link.diagBusy = false ∧ bits val.toNat 31 29 = 3) ∧
    (∃ (val : W32) (s : State), writable s false = true ∧ s.hop.link.diagBusy = false ∧ bits val.toNat 31 29 = 2 ∧ (s.slot 8).en = true) ∧
    (∃ (val : W32) (s : State), writable s false = true ∧ val.toNat.testBit 0 = true ∧ s.hop.link.silent = true) :=
  ⟨⟨frame0, linkIs { queue := [frame0] }, by decide +kernel⟩,
   ⟨frame0, frame0, 5, linkIs { queue := [frame0], prev := some (frame0, 5) }, by decide +kernel⟩,
   ⟨linkIs {}, by decide +kernel⟩,
   ⟨0, { onDisc { parking := true } with wall := 50000000 }, by decide +kernel⟩,
   ⟨0, onDisc { resuming := true, locked := true, valid := 4 }, by decide +kernel⟩,
   ⟨200, discs, by decide +kernel⟩,
   ⟨3, 5, 7, { discs with hop := { heat := [(32, 7)] } }, by decide +kernel⟩,
   ⟨0x60000000, linkIs {}, by decide +kernel⟩,
   ⟨0x40000000, looping 8 { en := true }, by decide +kernel⟩,
   ⟨1, linkIs { silent := true }, by decide +kernel⟩⟩

/-- Ring 0 enabled with 64 entries at 0x2000, one batch of these bytes waiting. -/
def ringWith (b : Bytes) (tail : Nat) : State :=
  { perf [rec' 0x0401 0 8 [0, 0xF]] with
    bus := { regs := [(0x400100, 0x2000), (0x400108, 0x80000006)] }, smg := { rings := [(0, { tail := tail })] }, dram := memWrite [] 0x2000 b }
/-- A batch of one task: its header names no flow, its descriptor no scene. -/
def batch1 : Bytes :=
  padTo ([1] ++ List.replicate 7 0 ++ leBytes 8 0x4000 ++ leBytes 4 0xFFFFFFFE) 64 ++ padTo ([1] ++ List.replicate 11 0 ++ leBytes 4 0xFFFFFFFF) 64
/-- Task 5 as `t`. -/
def tasked (t : Task) : State := { perf [tenantIs 2 1] with smg := { tasks := [(5, t)] } }
def bobs (x : BobState) : State := { tasked (task0 2 (.running 0)) with bob := x }
/-- States and operands that meet the hypotheses of StageAndBobbinsServe, clause by clause. -/
theorem witness_StageAndBobbinsServe :
    (∃ (r v : Nat) (s : State), r < 16 ∧ writable s false = true ∧ v < 65536 ∧ ahead (s.ring r).head v ≤ s.ringSize r ∧ ((s.ring r).head = (s.ring r).tail ∨ ahead (s.ring r).head (s.ring r).tail ≤ ahead (s.ring r).head v)) ∧
    (∃ (r v : Nat) (s : State), r < 16 ∧ writable s false = true ∧ v < 65536 ∧ s.ringSize r < ahead (s.ring r).head v) ∧
    (∃ (q : Requester) (r : Nat) (s : State), r < 16 ∧ mayReach s q .house = true ∧ writable s false = true ∧ (s.ringOn r && (s.ring r).head != (s.ring r).tail) = false) ∧
    (∃ (q : Requester) (r : Nat) (val : W32) (s : State), r < 16 ∧ mayReach s q .house = true ∧ writable s false = true ∧ (s.ringOn r && (s.ring r).head != (s.ring r).tail) = true ∧ bits val.toNat 4 0 ≠ bits (s.reg (ringCtrl r) 0) 4 0) ∧
    (∃ (r : Nat) (s : State), s.ringOn r = true ∧ r < 16 ∧ (s.ring r).head ≠ (s.ring r).tail ∧ leAt (batchAt s r).1 0 2 = 0 ∧ 1 ≤ ahead (s.ring r).head (s.ring r).tail ∧ s.unitsRun = true ∧ s.prk.intermission = []) ∧
    (∃ (r n : Nat) (s : State), BatchWaits s r n ∧ leAt (batchAt s r).1 2 2 = 0 ∧ leAt (batchAt s r).1 4 2 = 0 ∧ leAt (batchAt s r).1 6 2 = 0 ∧ allZero (slice (batchAt s r).1 0x18 40) = true ∧ leAt (batchAt s r).1 0x10 4 = 0xFFFFFFFE ∧ (∀ p ∈ (List.range n).zip (batchAt s r).2, badDesc s n p.1 0 false p.2 = false) ∧ taskRoom s 0 n = true) ∧
    (∃ (h i : Nat) (t : Task) (s : State), s.smg.now = [] ∧ s.smg.resolve h = some (i, t) ∧ s.runsNow i t = true ∧ Tab.has s.bob.invs h = false) ∧
    (∃ (unit place l i : Nat) (t : Task) (s : State), s.smg.now = [] ∧ unit ≠ 2 ∧ unit ≠ 6 ∧ unit ≠ 7 ∧ unit < 20 ∧ place < unitPlaces unit ∧ placeTaken s unit place = false ∧ s.unitsRun = true ∧ pickSaved s unit place = none ∧ pickTask s unit place = some (l, i, t)) ∧
    (∃ (h i p e : Nat) (t : Task) (s : State), s.smg.resolve h = some (i, t) ∧ t.phase = .running p ∧ engineOf t.unit = some e ∧ s.sealedTags ≠ [] ∧ sealPlace s e p = true ∧ t.unit ≠ 8) ∧
    (∃ (val : W32) (s : State), writable s false = true ∧ bits val.toNat 31 28 = 1 ∧ Tab.has s.bob.map (bits val.toNat 6 0) = false) ∧
    (∃ (val : W32) (s : State), writable s false = true ∧ bits val.toNat 31 28 = 1 ∧ Tab.has s.bob.map (bits val.toNat 6 0) = true ∧ s.bob.retiring.isSome = true) ∧
    (∃ (val : W32) (s : State) (i : Nat) (rest : List Nat), writable s false = true ∧ bits val.toNat 31 28 = 1 ∧ Tab.has s.bob.map (bits val.toNat 6 0) = true ∧ s.bob.retiring = none ∧ s.bobHeld (bits val.toNat 6 0) = i :: rest) ∧
    (∃ (b : Nat) (s : State), s.bobHeld b ≠ [] ∧ s.bobServes b = true ∧ s.bob.retiring = none) ∧
    (∃ (core : Nat) (c : Core) (s : State), core < 104 ∧ s.powered = true ∧ (∀ p ∈ s.bob.map, p.2 ≠ core) ∧ Tab.find s.bob.cores core = some c ∧ c.role = 1) ∧
    (∃ (r : Retiring) (h : Nat) (s : State), s.bob.retiring = some r ∧ r.run = some h) ∧
    (∃ (r : Retiring) (k old : Nat) (s : State), s.bob.retiring = some r ∧ r.loading = some k ∧ Tab.find s.bob.map r.logical = some old ∧ old ≠ k ∧ s.bob.retireNext = []) :=
  ⟨⟨15, 1, perf [], by decide +kernel⟩,
   ⟨15, 2, perf [], by decide +kernel⟩,
   ⟨sender, 15, perf [], by decide +kernel⟩,
   ⟨sender, 0, 0x80000005, ringWith [] 1, by decide +kernel⟩,
   ⟨0, ringWith [] 1, by decide +kernel⟩,
   ⟨0, 1, ringWith batch1 2, by simp only [BatchWaits]; decide +kernel⟩,
   ⟨5, 5, task0 1 (.running 0), tasked (task0 1 (.running 0)), by decide +kernel⟩,
   ⟨9, 0, 0, 5, task0 9 .ready, { tasked (task0 9 .ready) with smg := { tasks := [(5, task0 9 .ready)], queues := [(0, [5])] } }, by decide +kernel⟩,
   ⟨5, 5, 0, 3, task0 9 (.running 0), tasked (task0 9 (.running 0)), by decide +kernel⟩,
   ⟨0x10000000, perf [], by decide +kernel⟩,
   ⟨0x10000000, bobs { map := [(0, 0)], retiring := some { logical := 0, cause := 5, run := none, loading := none } }, by decide +kernel⟩,
   ⟨0x10000000, bobs { map := [(0, 0)], queues := [(0, [5])] }, 5, [], by decide +kernel⟩,
   ⟨0, bobs { map := [(0, 0)], queues := [(0, [5])] }, by decide +kernel⟩,
   ⟨103, {}, bobs { cores := [(103, {})] }, by decide +kernel⟩,
   ⟨{ logical := 0, cause := 5, run := some 5, loading := none }, 5, bobs { retiring := some { logical := 0, cause := 5, run := some 5, loading := none } }, by decide +kernel⟩,
   ⟨{ logical := 0, cause := 5, run := none, loading := some 3 }, 3, 0, bobs { map := [(0, 0)], retiring := some { logical := 0, cause := 5, run := none, loading := some 3 } }, by decide +kernel⟩⟩

def inv0 : Inv := { scene := 0, ix := 0, plan := { chunk := 0, off := 0, len := 0, record := 0, final := true } }
def bobTask : Task := { task0 2 (.running 0) with tag := 2 }
def execScene : Scene := { sceneOf (.execute execReq) with tag := 2 }
/-- Invocation 5 of tenant 2 runs on Bobbin 0; table 31 is the tenant's, as `a`. -/
def running (v : Inv) (a : AsuTable) : State :=
  { perf [tenantIs 2 4, rec' 0x0601 31 8 [0, 1, 2, 0, 16]] with
    scn := { scenes := [(0, execScene)] }, smg := { tasks := [(5, bobTask)] }
    bob := { invs := [(5, v)], queues := [(0, [5])] }, asu := { tables := [(31, a)] } }
def result0 (n : Nat) : InvResult := { ret := 1, output := [], state := [], stores := [], cycles := n }
def entry0 : AsuEntry := { key := 5, data := 9 }
/-- States and operands that meet the hypotheses of ProgramsSearchByHelper, clause by clause. -/
theorem witness_ProgramsSearchByHelper :
    (∃ (h i : Nat) (t : Task) (v : Inv) (x : ExecReq) (r : InvResult) (s : State), s.inv h = some (i, t, v, x) ∧ x.budget < v.charge + r.cycles) ∧
    (∃ (h i : Nat) (t : Task) (v : Inv) (x : ExecReq) (r : InvResult) (out : Bytes) (stop : Bool) (c : Scene) (s : State), s.inv h = some (i, t, v, x) ∧ v.charge + r.cycles ≤ x.budget ∧ Tab.find s.scn.scenes v.scene = some c ∧ r.stores = [] ∧ resultOf x.image v.plan c.data r.ret.toNat r.output r.state = some (out, stop)) ∧
    (∃ (h i : Nat) (t : Task) (v : Inv) (x : ExecReq) (s : State), s.inv h = some (i, t, v, x)) ∧
    (∃ (h tb : Nat) (key mask : BitVec 128) (t : Task) (v : Inv) (s : State), Calls h 50 t v s ∧ s.isSealed t.tag = false ∧ s.asuHeld = false ∧ tb < 32 ∧ (s.asuTable tb).any (fun r => r.owner == t.tag) = true ∧ asuHits key mask (s.asuTab tb) = []) ∧
    (∃ (h tb : Nat) (key mask : BitVec 128) (t : Task) (v : Inv) (s : State) (i : Nat) (e : AsuEntry) (l : List (Nat × AsuEntry)), Calls h 50 t v s ∧ s.isSealed t.tag = false ∧ s.asuHeld = false ∧ tb < 32 ∧ (s.asuTable tb).any (fun r => r.owner == t.tag) = true ∧ asuHits key mask (s.asuTab tb) = (i, e) :: l ∧ Tab.find (s.asuTab tb).shadow i = some e) ∧
    (∃ (h tb : Nat) (t : Task) (v : Inv) (s : State), Calls h 50 t v s ∧ s.isSealed t.tag = false ∧ s.asuHeld = false ∧ tb < 32 ∧ (s.asuTable tb).any (fun r => r.owner == t.tag) = false) ∧
    (∃ (h tb : Nat) (entry : Bytes) (t : Task) (v : Inv) (s : State), Calls h 50 t v s ∧ s.isSealed t.tag = false ∧ s.asuHeld = false ∧ tb < 32 ∧ (s.asuTable tb).any (fun r => r.owner == t.tag) = true ∧ entry.length = 32 ∧ allZero (entry.drop 24) = true) ∧
    (∃ (h tb : Nat) (t : Task) (v : Inv) (s : State), Calls h 50 t v s ∧ s.isSealed t.tag = false ∧ s.asuHeld = false ∧ tb < 32 ∧ (s.asuTable tb).any (fun r => r.owner == t.tag) = true) ∧
    (∃ (h tb : Nat) (src : Bytes) (t : Task) (v : Inv) (s : State), Calls h (50 + src.length / 64) t v s ∧ s.isSealed t.tag = false ∧ s.asuHeld = false ∧ tb < 32 ∧ (s.asuTable tb).any (fun r => r.owner == t.tag) = true ∧ src.length ≤ 262144 ∧ lengthSet (s.asuTab tb) = []) :=
  ⟨⟨5, 5, bobTask, inv0, execReq, result0 1001, running inv0 {}, by decide +kernel⟩,
   ⟨5, 5, bobTask, inv0, execReq, result0 1000, [], false, execScene, running inv0 {}, by decide +kernel⟩,
   ⟨5, 5, bobTask, inv0, execReq, running inv0 {}, by decide +kernel⟩,
   ⟨5, 31, 5, 0xFFFF, bobTask, inv0, running inv0 {}, ⟨⟨5, execReq, by decide +kernel⟩, by decide +kernel⟩⟩,
   ⟨5, 31, 5, 0xFFFF, bobTask, inv0, running inv0 { bank := [(0, entry0)], shadow := [(0, entry0)], count := 1 }, 0, entry0, [], ⟨⟨5, execReq, by decide +kernel⟩, by decide +kernel⟩⟩,
   ⟨5, 30, bobTask, inv0, running inv0 {}, ⟨⟨5, execReq, by decide +kernel⟩, by decide +kernel⟩⟩,
   ⟨5, 31, List.replicate 32 0, bobTask, inv0, running inv0 {}, ⟨⟨5, execReq, by decide +kernel⟩, by decide +kernel⟩⟩,
   ⟨5, 31, bobTask, inv0, running inv0 {}, ⟨⟨5, execReq, by decide +kernel⟩, by decide +kernel⟩⟩,
   ⟨5, 31, [1, 2], bobTask, inv0, running inv0 {}, ⟨⟨5, execReq, by decide +kernel⟩, by decide +kernel⟩⟩⟩

/-- A state of a streamed digest, on algorithm 3. -/
def streaming : State := { running inv0 {} with bob := { (running inv0 {}).bob with parts := [(2 * 2 ^ 64 + 7, (3, [1]))] } }
/-- States and operands that meet the hypotheses of ProgramsWorkByHelper, clause by clause. -/
theorem witness_ProgramsWorkByHelper :
    (∃ (h alg : Nat) (src : Bytes) (t : Task) (v : Inv) (s : State), Calls h (50 + src.length / 64) t v s ∧ s.isSealed t.tag = false ∧ alg ≤ 3 ∧ src.length ≤ 262144) ∧
    (∃ (h alg ctx : Nat) (src b : Bytes) (t : Task) (v : Inv) (s : State), Calls h (50 + src.length / 64) t v s ∧ s.isSealed t.tag = false ∧ alg ≤ 3 ∧ Tab.find s.bob.parts (t.tag * 2 ^ 64 + ctx) = some (alg, b)) ∧
    (∃ (h fmt lvl : Nat) (src : Bytes) (t : Task) (v : Inv) (s : State), Calls h (50 + src.length / 64) t v s ∧ s.isSealed t.tag = false ∧ 1 ≤ fmt ∧ fmt ≤ 3 ∧ 1 ≤ lvl ∧ lvl ≤ 9 ∧ src.length ≤ 262144) ∧
    (∃ (h fmt : Nat) (src : Bytes) (t : Task) (v : Inv) (s : State), Calls h (50 + src.length / 64) t v s ∧ s.isSealed t.tag = false ∧ 1 ≤ fmt ∧ fmt ≤ 3) ∧
    (∃ (h : Nat) (t : Task) (v : Inv) (s : State), Calls h 50 t v s) ∧
    (∃ (h : Nat) (src : Bytes) (t : Task) (v : Inv) (s : State), Calls h (20 + src.length / 64) t v s) ∧
    (∃ (h kind : Nat) (t : Task) (v : Inv) (s : State), Calls h 50 t v s ∧ 2 < kind) ∧
    (∃ (h kind : Nat) (t : Task) (v : Inv) (s : State), Calls h 50 t v s ∧ kind ≤ 2) ∧
    (∃ (h ix : Nat) (t : Task) (v : Inv) (s : State), Calls h 50 t v s ∧ ix ≤ 63 ∧ v.events < 64) ∧
    (∃ (h ix : Nat) (t : Task) (v : Inv) (s : State), Calls h 50 t v s ∧ ix ≤ 63 ∧ 64 ≤ v.events) ∧
    (∃ (h : Nat) (t : Task) (v : Inv) (s : State), Calls h 50 t v s) ∧
    (∃ (h : Nat) (t : Task) (v : Inv) (s : State), Calls h 0 t v s) :=
  ⟨⟨5, 3, List.replicate 64 1, bobTask, { inv0 with charge := 949 }, running { inv0 with charge := 949 } {}, ⟨⟨5, execReq, by decide +kernel⟩, by decide +kernel⟩⟩,
   ⟨5, 3, 7, [2], [1], bobTask, inv0, streaming, ⟨⟨5, execReq, by decide +kernel⟩, by decide +kernel⟩⟩,
   ⟨5, 3, 9, [1, 2], bobTask, inv0, running inv0 {}, ⟨⟨5, execReq, by decide +kernel⟩, by decide +kernel⟩⟩,
   ⟨5, 3, [1, 2], bobTask, inv0, running inv0 {}, ⟨⟨5, execReq, by decide +kernel⟩, by decide +kernel⟩⟩,
   ⟨5, bobTask, { inv0 with charge := 950 }, running { inv0 with charge := 950 } {}, ⟨5, execReq, by decide +kernel⟩⟩,
   ⟨5, List.replicate 64 1, bobTask, { inv0 with charge := 979 }, running { inv0 with charge := 979 } {}, ⟨5, execReq, by decide +kernel⟩⟩,
   ⟨5, 3, bobTask, inv0, running inv0 {}, ⟨⟨5, execReq, by decide +kernel⟩, by decide⟩⟩,
   ⟨5, 2, bobTask, inv0, running inv0 {}, ⟨⟨5, execReq, by decide +kernel⟩, by decide⟩⟩,
   ⟨5, 63, bobTask, { inv0 with events := 63 }, running { inv0 with events := 63 } {}, ⟨⟨5, execReq, by decide +kernel⟩, by decide⟩⟩,
   ⟨5, 63, bobTask, { inv0 with events := 64 }, running { inv0 with events := 64 } {}, ⟨⟨5, execReq, by decide +kernel⟩, by decide⟩⟩,
   ⟨5, bobTask, inv0, running inv0 {}, ⟨5, execReq, by decide +kernel⟩⟩,
   ⟨5, bobTask, { inv0 with charge := 1000 }, running { inv0 with charge := 1000 } {}, ⟨5, execReq, by decide +kernel⟩⟩⟩

def rec31 : AsuTableRec := { first := 0, banks := 1, owner := 2, limit := 16 }
def upd0 (e : Option AsuEntry) (p : Nat) : AsuUpdate := { inv := 5, insert := e, pos := p }
/-- A job on a place of a unit: its descriptor at 0x1000. -/
def job (unit : Nat) (b : Bytes) : State := { perf [rec' 0x0901 0 8 [1, 1, 1, 23]] with smg := { tasks := [(5, task0 unit (.running 0))] }, dram := memWrite [] 0x1000 b }
/-- A Zstandard compression of nothing, level 1, window log 10, into 13 bytes. -/
def smockBytes : Bytes := [0, 1, 1, 0, 10] ++ List.replicate 15 0 ++ leBytes 4 13
def smockJob0 : SmockJob := { op := 0, fmt := 1, level := 1, flags := 0, wlog := 10, src := 0, srcLen := 0, cap := 13, dst := 0, crc := 0 }
theorem smockJob0_ends : (smockEnd (job 8 smockBytes).smockLanes.2.2.2.1 smockJob0 ((job 8 smockBytes).dramRead 0x1000 64)
    ((job 8 smockBytes).dramRead smockJob0.src smockJob0.srcLen)).status = 0 := by
  have h : smockOk (job 8 smockBytes).smockLanes.2.2.2.1 smockJob0 ((job 8 smockBytes).dramRead 0x1000 64) = true := by decide +kernel
  have e : (job 8 smockBytes).dramRead smockJob0.src smockJob0.srcLen = [] := rfl
  have z : (smockOut 1 1 10 []).length ≤ 13 := by
    simp only [smockOut, if_pos, List.length_append, cutTo, smockBound, Option.map_some, List.length_take]
    have a : (leBytes 4 zstdMagic).length = 4 := rfl
    have b : (zstdSize ([] : Bytes).length).length = 2 := by decide +kernel
    have c : (leBytes 4 (contentCheck [])).length = 4 := rfl
    rw [a, b, c]
    have d : ([] : Bytes).length + 7 * ceilDiv ([] : Bytes).length 131072 + 13 = 13 := by decide
    rw [d]; omega
  have k : smockEnd (job 8 smockBytes).smockLanes.2.2.2.1 smockJob0 ((job 8 smockBytes).dramRead 0x1000 64)
      ((job 8 smockBytes).dramRead smockJob0.src smockJob0.srcLen) = compressEnd 1 1 10 13 [] := by
    rw [e]; unfold smockEnd; rw [h]; rfl
  rw [k]
  exact congrArg SmockEnd.status (if_neg (Nat.not_lt.mpr z))
/-- A slot of tenant 2 with a job in progress, as `x`. -/
def slotted (x : TlySlot) : State := { perf [tenantIs 2 0] with tly := { slots := [(slotNo 2 3, x)] } }
/-- States and operands that meet the hypotheses of SearchAndJobEnginesWork, clause by clause. -/
theorem witness_SearchAndJobEnginesWork :
    (∃ (tb h : Nat) (e : AsuEntry) (r : AsuTableRec) (rest : List AsuUpdate) (s : State), s.asuTable tb = some r ∧ (s.asuTab tb).queue = { inv := h, insert := some e, pos := 2 ^ 64 - 1 } :: rest ∧ (s.asuTab tb).move = none ∧ asuRuns s r.owner = true ∧ (s.asuTab tb).count ≠ r.limit) ∧
    (∃ (tb h p : Nat) (e : AsuEntry) (r : AsuTableRec) (rest : List AsuUpdate) (s : State), s.asuTable tb = some r ∧ (s.asuTab tb).queue = { inv := h, insert := some e, pos := p } :: rest ∧ (s.asuTab tb).move = none ∧ asuRuns s r.owner = true ∧ (s.asuTab tb).count ≠ r.limit ∧ p < (s.asuTab tb).count ∧ (s.asuTab tb).count < 2 ^ 64) ∧
    (∃ (tb h p : Nat) (e : AsuEntry) (r : AsuTableRec) (v : Inv) (rest : List AsuUpdate) (s : State), s.asuTable tb = some r ∧ (s.asuTab tb).queue = { inv := h, insert := some e, pos := p } :: rest ∧ (s.asuTab tb).move = none ∧ asuRuns s r.owner = true ∧ (s.asuTab tb).count = r.limit ∧ Tab.find s.bob.invs h = some v) ∧
    (∃ (tb h : Nat) (r : AsuTableRec) (rest : List AsuUpdate) (s : State), s.asuTable tb = some r ∧ (s.asuTab tb).queue = { inv := h, insert := none, pos := (s.asuTab tb).count - 1 } :: rest ∧ (s.asuTab tb).move = none ∧ asuRuns s r.owner = true ∧ 0 < (s.asuTab tb).count) ∧
    (∃ (tb : Nat) (r : AsuTableRec) (s : State), s.asuHeld = false ∧ s.powered = true ∧ s.bankTable s.asu.walkBank = some (tb, r) ∧ (s.asuTab tb).hole = none ∧ s.asu.walkRow + 1 < 16384) ∧
    (∃ (h i op : Nat) (t : Task) (j : SmockJob) (e : SmockEnd) (s : State), op ≤ 1 ∧ s.smg.now = [] ∧ engineTask s 8 h = some (i, t) ∧ t.stopping = false ∧ smockJobOf (s.dramRead t.job 64) = j ∧ j.op = op ∧ smockEnd s.smockLanes.2.2.2.1 j (s.dramRead t.job 64) (s.dramRead j.src j.srcLen) = e ∧ e.status = 0) ∧
    (∃ (h i : Nat) (t : Task) (j : TallyJob) (s : State), s.smg.now = [] ∧ engineTask s 7 h = some (i, t) ∧ t.stopping = false ∧ t.job < slotJob ∧ tallyJobOf (s.dramRead t.job 64) = j ∧ tallyOk j (s.dramRead t.job 64) = true ∧ partInvalid j = false ∧ j.first = true ∧ j.final = true ∧ j.compares = false ∧ j.alg < 16 ∧ bit j.flags 3 = false) ∧
    (∃ (h i st : Nat) (t : Task) (j : TallyJob) (s : State), s.smg.now = [] ∧ engineTask s 7 h = some (i, t) ∧ t.stopping = false ∧ t.job < slotJob ∧ tallyJobOf (s.dramRead t.job 64) = j ∧ st = (if tallyOk j (s.dramRead t.job 64) then 0x89 else 0x01) ∧ (tallyOk j (s.dramRead t.job 64) = false ∨ partInvalid j = true)) ∧
    (∃ (tag j : Nat) (val : W32) (s : State), j < 4 ∧ bits val.toNat 31 28 = 1 ∧ writable s false = true ∧ (s.tslot (slotNo tag j)).state = 0 ∧ bit val.toNat 8 = false ∧ bit val.toNat 2 = false ∧ bits val.toNat 20 16 < 16 ∧ digestLen (bits val.toNat 20 16) ≠ 0) ∧
    (∃ (tag j : Nat) (s : State), j < 4 ∧ writable s false = true ∧ (s.tslot (slotNo tag j)).state = 1) ∧
    (∃ (q : Requester) (tag j : Nat) (s : State), j < 4 ∧ mayReach s q (.tenant tag) = true ∧ writable s false = true ∧ (s.tslot (slotNo tag j)).state = 1 ∧ (s.tslot (slotNo tag j)).fifo.length < 4096) ∧
    (∃ (q : Requester) (tag j : Nat) (s : State), j < 4 ∧ mayReach s q (.tenant tag) = true ∧ writable s false = true ∧ (s.tslot (slotNo tag j)).state = 1 ∧ 4096 ≤ (s.tslot (slotNo tag j)).fifo.length) ∧
    (∃ (tag j vb : Nat) (s : State), j < 4 ∧ writable s false = true ∧ (s.tslot (slotNo tag j)).state = 1 ∧ vb ≤ 8 ∧ (s.tslot (slotNo tag j)).fifo.length < 4096) ∧
    (∃ (tag j vb : Nat) (s : State), j < 4 ∧ writable s false = true ∧ (s.tslot (slotNo tag j)).state = 1 ∧ 8 < vb ∧ vb < 16) ∧
    (∃ (tag j : Nat) (s : State), j < 4 ∧ (s.tslot (slotNo tag j)).state = 1 ∧ (s.tslot (slotNo tag j)).lastWrite + s.reg 0x700018 0x2710 * 1000000 ≤ s.wall) :=
  ⟨⟨31, 5, entry0, rec31, [], running inv0 { queue := [upd0 (some entry0) (2 ^ 64 - 1)], count := 15 }, by decide +kernel⟩,
   ⟨31, 5, 14, entry0, rec31, [], running inv0 { queue := [upd0 (some entry0) 14], count := 15 }, by decide +kernel⟩,
   ⟨31, 5, 0, entry0, rec31, inv0, [], running inv0 { queue := [upd0 (some entry0) 0], count := 16 }, by decide +kernel⟩,
   ⟨31, 5, rec31, [], running inv0 { queue := [upd0 none 15], count := 16 }, by decide +kernel⟩,
   ⟨31, rec31, { running inv0 {} with asu := { walkRow := 16382 } }, by decide +kernel⟩,
   ⟨5, 5, 0, task0 8 (.running 0), smockJob0, _, job 8 smockBytes, ⟨by decide, by decide, by decide +kernel, rfl, by decide +kernel, rfl, rfl, smockJob0_ends⟩⟩,
   ⟨5, 5, task0 7 (.running 0), { alg := 0, flags := 3, ctx := 0xFFFF, keySlot := 0, lastVb := 0, src := 0, len := 0, expect := 0 }, job 7 [0, 3, 0xFF, 0xFF], by decide +kernel⟩,
   ⟨5, 5, 0x89, task0 7 (.running 0), { alg := 0, flags := 0, ctx := 0, keySlot := 0, lastVb := 0, src := 0, len := 1, expect := 0 }, job 7 (List.replicate 16 0 ++ [1]), by decide +kernel⟩,
   ⟨2, 3, 0x10000000, perf [tenantIs 2 0], by decide +kernel⟩,
   ⟨2, 3, slotted { state := 1 }, by decide +kernel⟩,
   ⟨sender, 2, 3, slotted { state := 1, fifo := List.replicate 64 0 }, by decide +kernel⟩,
   ⟨sender, 2, 3, slotted { state := 1, fifo := List.replicate 4096 0 }, by decide +kernel⟩,
   ⟨2, 3, 8, slotted { state := 1 }, by decide +kernel⟩,
   ⟨2, 3, 9, slotted { state := 1 }, by decide +kernel⟩,
   ⟨2, 3, { slotted { state := 1 } with wall := 10000000000 }, by decide +kernel⟩⟩

/-- A part of a message on a Scrim pipeline, its context 0. -/
def scrimmed (op flags : Nat) (c : ScrCtx) : State := { job 6 [BitVec.ofNat 8 op, BitVec.ofNat 8 flags] with scr := { ctxs := [(0, c)] } }
def scrJob0 (op flags : Nat) : ScrJob := { op := op, flags := flags, ctx := 0, keySlot := 0, du := 0, src := 0, len := 0, aadLen := 0, dst := 0, tweak := 0, aad := 0 }
def scrCtx0 (op : Nat) (a : Option Nat) : ScrCtx := { tag := 0, op := op, slot := 0, key := 0, gen := 0, unit := 4096, sealAt := a }
/-- Tenant 2 may have keys of every purpose; slot 0 of its four as `x`. -/
def keyed (x : KeySlot) : State :=
  { perf [tenantIs 2 0, rec' 0x0701 2 8 [0, 0, 4, 0], rec' 0x0702 0 8 (leBytes 4 0xFFFFFFFF)] with scr := { rootReady := true, slots := [(0, x)] } }
def derive0 (tag : Nat) : DeriveReq := { tag := tag, purpose := 2, tenant := 2, nsid := 1, epoch := 0, index := 0 }
/-- States and operands that meet the hypotheses of ScrimServesKeysAndJobs, clause by clause. -/
theorem witness_ScrimServesKeysAndJobs :
    (∃ (h i : Nat) (t : Task) (j : ScrJob) (c : ScrCtx) (s : State) (q : Nat × Instr), q ∈ [(0, Instr.xtsEncrypt h), (1, Instr.xtsDecrypt h), (2, Instr.gcmEncrypt h), (3, Instr.gcmDecrypt h), (4, Instr.cmacGenerate h), (5, Instr.cmacVerify h)] ∧ s.smg.now = [] ∧ engineTask s 6 h = some (i, t) ∧ t.stopping = false ∧ scrJobOf (s.dramRead t.job 64) = j ∧ scrOk j (s.dramRead t.job 64) = true ∧ scrStart s t j = .go c ∧ j.op = q.1 ∧ (scrPart s j c).bad = true) ∧
    (∃ (h i : Nat) (t : Task) (j : ScrJob) (c : ScrCtx) (s : State) (q : Nat × Instr), q ∈ [(0, Instr.xtsEncrypt h), (1, Instr.xtsDecrypt h), (2, Instr.gcmEncrypt h), (3, Instr.gcmDecrypt h), (4, Instr.cmacGenerate h), (5, Instr.cmacVerify h)] ∧ s.smg.now = [] ∧ engineTask s 6 h = some (i, t) ∧ t.stopping = false ∧ scrJobOf (s.dramRead t.job 64) = j ∧ scrOk j (s.dramRead t.job 64) = true ∧ scrStart s t j = .go c ∧ j.op = q.1 ∧ (scrPart s j c).bad = false ∧ j.withSeal = false) ∧
    (∃ (r : DeriveReq) (k : Nat) (s : State), deriveRefused s r = false ∧ s.saf.switching = none ∧ r.purpose ≤ 2 ∧ holdsKey s r = false ∧ cacheSlot s r.tenant = some k) ∧
    (∃ (r : DeriveReq) (s : State), deriveRefused s r = false ∧ s.saf.switching.isSome = true) ∧
    (∃ (r : DeriveReq) (s : State), deriveRefused s r = true ∧ s.powered = true) ∧
    (∃ (k : Nat) (s : State), (s.keySlot k).kind = 2 ∧ (s.keySlot k).requested = true ∧ (s.keySlot k).waiting = [] ∧ (s.keySlot k).blockEnd < rollAt ∧ (s.keySlot k).counter < rollAt) ∧
    (∃ (s : State), writable s false = true ∧ (s.keySlot (s.reg 0x900038 0)).kind = 0) ∧
    (∃ (tag ix k : Nat) (s : State), writable s false = true ∧ s.keyBusy tag = false ∧ s.keySel tag = some k ∧ fixedKind (s.keySlot k) = false ∧ keepsCache s tag k = true ∧ s.saf.switching = none ∧ deriveRefused s { tag := tag, purpose := 3, tenant := tag, nsid := 0, epoch := 0, index := ix % 65536 } = false) ∧
    (∃ (tag ix k : Nat) (s : State), writable s false = true ∧ s.keyBusy tag = false ∧ s.keySel tag = some k ∧ fixedKind (s.keySlot k) = false ∧ keepsCache s tag k = true ∧ s.saf.switching = none ∧ deriveRefused s { tag := tag, purpose := 4, tenant := tag, nsid := 0, epoch := 0, index := ix % 65536 } = false) ∧
    (∃ (tag : Nat) (s : State), writable s false = true ∧ s.keyBusy tag = false ∧ s.keySel tag = none) ∧
    (∃ (tag k : Nat) (s : State), writable s false = true ∧ s.keyBusy tag = false ∧ s.keySel tag = some k ∧ fixedKind (s.keySlot k) = true) ∧
    (∃ (tag k : Nat) (s : State), writable s false = true ∧ s.keyBusy tag = false ∧ s.keySel tag = some k ∧ fixedKind (s.keySlot k) = false) ∧
    (∃ (s : State), s.powered = true) ∧
    (∃ (o : Nat) (c : Scene) (s : State), s.scr.halted = true ∧ s.scn.scenes = [(o, c)] ∧ c.kind = .nsCreate ∧ c.decided = false) :=
  ⟨⟨5, 5, task0 6 (.running 0), scrJob0 3 2, scrCtx0 3 (some 0), scrimmed 3 2 (scrCtx0 3 (some 0)), (3, .gcmDecrypt 5), by decide +kernel⟩,
   ⟨5, 5, task0 6 (.running 0), scrJob0 0 2, scrCtx0 0 none, scrimmed 0 2 (scrCtx0 0 none), (0, .xtsEncrypt 5), by decide +kernel⟩,
   ⟨derive0 2, 0, keyed {}, by decide +kernel⟩,
   ⟨derive0 2, { keyed {} with saf := { switching := some true } }, by decide +kernel⟩,
   ⟨derive0 3, keyed {}, by decide +kernel⟩,
   ⟨0, keyed { kind := 2, requested := true }, by decide +kernel⟩,
   ⟨keyed {}, by decide +kernel⟩,
   ⟨2, 65535, 0, keyed {}, by decide +kernel⟩,
   ⟨2, 65535, 0, keyed {}, by decide +kernel⟩,
   ⟨3, keyed {}, by decide +kernel⟩,
   ⟨2, 0, keyed { kind := 7 }, by decide +kernel⟩,
   ⟨2, 0, keyed {}, by decide +kernel⟩,
   ⟨keyed {}, by decide +kernel⟩,
   ⟨0, sceneOf .nsCreate, { keyed {} with scr := { halted := true }, scn := { scenes := [(0, sceneOf .nsCreate)] } }, by decide +kernel⟩⟩

/-- Curtain Down. -/
def down : State := { perf [] with dev := { (perf []).dev with phase := .curtainDown } }
/-- The Safety Curtain as `x`. -/
def guarded (x : SafState) : State := { perf [] with saf := x }
/-- States and operands that meet the hypotheses of CurtainFalls, clause by clause. -/
theorem witness_CurtainFalls :
    (∃ (kind n : Nat) (s : State), s.powered = true ∧ n < sensorsOf kind ∧ s.dev.phase ≠ .curtainDown ∧ s.saf.alarm = none) ∧
    (∃ (kind n : Nat) (s : State), s.powered = true ∧ n < sensorsOf kind ∧ s.dev.phase = .curtainDown) ∧
    (∃ (k : Nat) (a b : W32) (s : State), k < 4 ∧ s.powered = true ∧ a ≠ b ∧ s.saf.meshBad.contains k = false) ∧
    (∃ (k : Nat) (a b : W32) (s : State), k < 4 ∧ s.powered = true ∧ a ≠ b ∧ s.saf.meshBad.contains k = true ∧ s.dev.phase ≠ .curtainDown) ∧
    (∃ (r : SpdmReq) (s : State), s.runs = true ∧ spdmFrom s r.req = true ∧ spdmSigns r.kind = false) ∧
    (∃ (r : SpdmReq) (s : State), s.runs = true ∧ spdmFrom s r.req = true ∧ spdmSigns r.kind = true ∧ s.saf.rootErased = true) ∧
    (∃ (r : SpdmReq) (s : State), s.runs = true ∧ spdmFrom s r.req = true ∧ r.kind = .finish ∧ s.saf.rootErased = false ∧ s.saf.switching = none) ∧
    (∃ (s : State), s.powered = true ∧ s.saf.switching = none ∧ s.saf.standbyReady = true) ∧
    (∃ (s : State), s.powered = true ∧ s.saf.switching = none ∧ s.saf.standbyReady = false ∧ s.dev.phase ≠ .curtainDown) ∧
    (∃ (failover : Bool) (s : State), s.saf.switching = some failover ∧ s.saf.held = none) :=
  ⟨⟨4, 3, perf [], by decide +kernel⟩,
   ⟨3, 15, down, by decide +kernel⟩,
   ⟨3, 0, 1, perf [], by decide +kernel⟩,
   ⟨3, 0, 1, guarded { meshBad := [3] }, by decide +kernel⟩,
   ⟨{ req := .mi, kind := .version }, perf [], by decide +kernel⟩,
   ⟨{ req := .mi, kind := .challenge }, guarded { rootErased := true }, by decide +kernel⟩,
   ⟨{ req := .mi, kind := .finish }, perf [], by decide +kernel⟩,
   ⟨guarded { standbyReady := true }, by decide +kernel⟩,
   ⟨perf [], by decide +kernel⟩,
   ⟨true, guarded { switching := some true }, by decide +kernel⟩⟩

/-- The Trapdoor policy is 1 and the digest of its key 0; the Safety Curtain as `x`. -/
def trapped (x : SafState) : State := { perf [rec' 0x0F02 0 52 [1]] with saf := x }
def response (digest : Nat) : TdResponse := { keyDigest := digest, nonce := 5, serial := 0, powerCycles := 0, verifies := true }
/-- States and operands that meet the hypotheses of TrapdoorGuards, clause by clause. -/
theorem witness_TrapdoorGuards :
    (∃ (s : State), s.powered = true ∧ s.trapdoorPolicy.1 = 1 ∧ s.saf.td = .closed ∧ s.saf.fails < 3 ∧ s.scr.halted = false) ∧
    (∃ (s : State), s.powered = true ∧ s.trapdoorPolicy.1 = 1 ∧ s.saf.td = .closed ∧ s.saf.fails < 3 ∧ s.saf.switching = none ∧ s.validNonce = none) ∧
    (∃ (r : TdResponse) (s : State) (n : BitVec 256), s.powered = true ∧ s.trapdoorPolicy.1 = 1 ∧ s.saf.td = .closed ∧ s.saf.fails < 3 ∧ s.saf.switching = none ∧ s.validNonce = some n ∧ r.keyDigest ≠ s.trapdoorPolicy.2) ∧
    (∃ (r : TdResponse) (s : State) (n : BitVec 256), s.powered = true ∧ s.trapdoorPolicy.1 = 1 ∧ s.saf.td = .closed ∧ s.saf.fails < 3 ∧ s.saf.switching = none ∧ s.validNonce = some n ∧ r.keyDigest = s.trapdoorPolicy.2 ∧ r.verifies = true ∧ r.nonce = n ∧ r.serial = s.dev.serial ∧ r.powerCycles = s.evt.powerCycles) ∧
    (∃ (s : State), s.powered = true ∧ s.trapdoorPolicy.1 = 1 ∧ s.saf.td = .open') ∧
    (∃ (s : State), s.powered = true ∧ s.trapdoorPolicy.1 = 0) ∧
    (∃ (n : BitVec 256) (w : Nat) (s : State), s.saf.nonce = some (n, w) ∧ w + nonceLife ≤ s.wall) ∧
    (∃ (s : State), s.saf.td = .recording ∧ s.powered = true ∧ s.saf.tdStart + 1000000000 ≤ s.wall ∧ s.dev.phase ≠ .curtainDown) :=
  ⟨⟨trapped { fails := 2 }, by decide +kernel⟩,
   ⟨trapped { fails := 2 }, by decide +kernel⟩,
   ⟨response 1, { trapped { nonce := some (5, 0) } with wall := 59999999999 }, 5, by decide +kernel⟩,
   ⟨response 0, { trapped { nonce := some (5, 0) } with wall := 59999999999 }, 5, by decide +kernel⟩,
   ⟨trapped { td := .open' }, by decide +kernel⟩,
   ⟨perf [], by decide +kernel⟩,
   ⟨5, 0, { trapped { nonce := some (5, 0) } with wall := 60000000000 }, by decide +kernel⟩,
   ⟨{ trapped { td := .recording } with wall := 1000000000 }, by decide +kernel⟩⟩

/-- Channel 0 of 8 GiB, the memory controllers as `x`. -/
def channel (x : DmcState) : State := { perf [rec' 0x0D01 0 8 [1, 8, 12]] with dmc := { x with mask := 1, ch := [(0, 1)] } }
/-- Two channels of 32 GiB. -/
def channels (x : DmcState) : State := { perf [rec' 0x0D01 0 8 [3, 32, 12]] with dmc := { x with mask := 3, ch := [(0, 1), (1, 1)] } }
/-- States and operands that meet the hypotheses of DramServesItsRequests, clause by clause. -/
theorem witness_DramServesItsRequests :
    (∃ (a : Nat) (s : State), DramServes s a) ∧
    (∃ (a : Nat) (s : State), s.runs = true ∧ s.dmc.mask ≠ 0 ∧ s.dramHas a = false) ∧
    (∃ (ch rank bank : Nat) (s : State), s.runs = true ∧ Tab.at s.dmc.ch ch 0 ≠ 0 ∧ bank < 32 ∧ rank < 2) ∧
    (∃ (ch rank c : Nat) (s : State), s.runs = true ∧ Tab.at s.dmc.ch ch 0 ≠ 0 ∧ rank < 2 ∧ c < 256 ∧ s.dmc.freq = .idle ∧ s.dmc.retState ≠ 1) ∧
    (∃ (t0 : Nat) (s : State), s.dmc.coolSince = some t0 ∧ t0 + 1000000000 ≤ s.wall ∧ s.dmc.setB = true ∧ s.dmc.freq = .idle ∧ s.dmc.retState ≠ 1) ∧
    (∃ (s : State), writable s false = true ∧ s.dmc.freq = .idle ∧ s.dmc.retState ≠ 1 ∧ s.dmc.setB = true) ∧
    (∃ (s : State), writable s false = true ∧ s.dmc.freq = .idle ∧ s.dmc.retState ≠ 1 ∧ s.dmc.setB = false) ∧
    (∃ (s : State), s.dmc.freq = .entering) ∧
    (∃ (s : State), s.dmc.freq = .relock) ∧
    (∃ (s : State), s.dmc.freq = .exiting ∧ s.dmc.waiting = [] ∧ s.dmc.freqWaits = none) ∧
    (∃ (s : State), s.dmc.freq = .retry ∧ s.dmc.waiting = []) ∧
    (∃ (ch : Nat) (s : State), s.reg 0x100001C 200 ≠ 0 ∧ s.runs = true ∧ Tab.at s.dmc.ch ch 0 = 1 ∧ s.dmc.freq = .idle ∧ Tab.at s.dmc.lastReq ch 0 + s.reg 0x100001C 200 * 1000 ≤ s.wall ∧ s.dmc.exits.contains ch = false) :=
  ⟨⟨8 * 2 ^ 30 - 64, channel {}, by simp only [DramServes]; decide +kernel⟩,
   ⟨8 * 2 ^ 30, channel {}, by decide +kernel⟩,
   ⟨0, 1, 31, channel {}, by decide +kernel⟩,
   ⟨0, 1, 255, channel {}, by decide +kernel⟩,
   ⟨0, { channel { coolSince := some 0, setB := true } with wall := 1000000000 }, by decide +kernel⟩,
   ⟨channel { setB := true }, by decide +kernel⟩,
   ⟨channel {}, by decide +kernel⟩,
   ⟨channel { freq := .entering }, by decide +kernel⟩,
   ⟨channel { freq := .relock }, by decide +kernel⟩,
   ⟨channel { freq := .exiting }, by decide +kernel⟩,
   ⟨channel { freq := .retry }, by decide +kernel⟩,
   ⟨0, { channel {} with wall := 200000 }, by decide +kernel⟩⟩

/-- States and operands that meet the hypotheses of MemoriesAreScrubbedAndRetired, clause by clause. -/
theorem witness_MemoriesAreScrubbedAndRetired :
    (∃ (s : State), s.runs = true ∧ s.dmc.mask ≠ 0 ∧ s.dmc.freq = .idle ∧ s.dmc.waiting = [] ∧ 0 < s.dmc.unlockTries ∧ s.dmc.unlockTries = 1) ∧
    (∃ (s : State), s.runs = true ∧ s.dmc.mask ≠ 0 ∧ s.dmc.freq = .idle ∧ s.dmc.waiting = [] ∧ 0 < s.dmc.unlockTries ∧ s.dmc.unlockTries = 2) ∧
    (∃ (s : State), s.runs = true ∧ s.dmc.sram = []) ∧
    (∃ (s : State), s.runs = true ∧ dramWaits s 4 0 0 0 = false) ∧
    (∃ (m a : Nat) (s : State), s.powered = true ∧ Tab.find s.dmc.sram (m * 2 ^ 32 + a) = none) ∧
    (∃ (m a : Nat) (s : State), s.powered = true ∧ Tab.find s.dmc.sram (m * 2 ^ 32 + a) = none) ∧
    (∃ (ch : Nat) (s : State), writable s false = true ∧ ch < 4 ∧ s.dmc.retState = 0 ∧ Tab.at s.dmc.ch ch 0 = 0) ∧
    (∃ (ch : Nat) (s : State), writable s false = true ∧ ch < 4 ∧ s.dmc.retState = 0 ∧ Tab.at s.dmc.ch ch 0 = 1 ∧ s.dramChannels.length = 2 ∧ s.dmc.retiredThisCycle = false ∧ s.allocSlabs * 2 ≤ s.totalSlabs ∧ s.allocSlabs ≠ 0) ∧
    (∃ (s : State), s.dmc.retState = 1 ∧ s.runs = true ∧ s.dmc.waiting = [] ∧ s.dmc.freqWaits = none ∧ s.dmc.copied + 1 < s.dmc.toCopy) ∧
    (∃ (s : State), s.dmc.retState = 1 ∧ s.runs = true ∧ s.dmc.waiting = [] ∧ s.dmc.freqWaits = none ∧ s.dmc.copied + 1 = s.dmc.toCopy) :=
  ⟨⟨channel { unlockTries := 1 }, by decide +kernel⟩,
   ⟨channel { unlockTries := 2 }, by decide +kernel⟩,
   ⟨channel {}, by decide +kernel⟩,
   ⟨channel {}, by decide +kernel⟩,
   ⟨0, 0, channel {}, by decide +kernel⟩,
   ⟨0, 0, channel {}, by decide +kernel⟩,
   ⟨3, channel {}, by decide +kernel⟩,
   ⟨0, channels {}, by decide +kernel⟩,
   ⟨channel { retState := 1, toCopy := 2 }, by decide +kernel⟩,
   ⟨channel { retState := 1, toCopy := 1 }, by decide +kernel⟩⟩

/-- A syndrome that three wrong bits leave and no two do. -/
theorem three_bits_apart : syndrome (flipBits 0 [0, 1, 79]) ≠ 0 ∧ errorBits (syndrome (flipBits 0 [0, 1, 79])) = none := by decide +kernel
theorem three_bits_far (l : List Nat) (hl : FewErrors l) : syndrome (flipBits 0 [0, 1, 79]) ≠ errorsSyndrome l := by
  intro h
  by_cases hn : l = []
  · subst hn; exact three_bits_apart.1 h
  · have e := errorBits_of hl hn
    rw [← h, three_bits_apart.2] at e; cases e
/-- States and operands that meet the hypotheses of WordCodeCorrectsTwoBits, clause by clause. -/
theorem witness_WordCodeCorrectsTwoBits :
    (∃ (d : Nat), d < 2 ^ 64) ∧
    (∃ (w : BitVec 80) (l : List Nat), FewErrors l ∧ syndrome w = errorsSyndrome l) ∧
    (∃ w : BitVec 80, (∀ l, FewErrors l → syndrome w ≠ errorsSyndrome l)) ∧
    (∃ (d : Nat) (l : List Nat), d < 2 ^ 64 ∧ FewErrors l) ∧
    (∃ (a b c : Nat), a < b ∧ b < c ∧ c < 80) :=
  ⟨⟨2 ^ 64 - 1, by decide +kernel⟩,
   ⟨flipBits 0 [3, 79], [3, 79], by simp only [FewErrors]; decide +kernel⟩,
   ⟨flipBits 0 [0, 1, 79], three_bits_far⟩,
   ⟨2 ^ 64 - 1, [3, 79], by simp only [FewErrors]; decide +kernel⟩,
   ⟨0, 1, 79, by decide +kernel⟩⟩

/-- States and operands that meet the hypotheses of PoisonStays. -/
theorem witness_PoisonStays : ∃ (unit source w : Nat) (x : Decoded) (l : List Nat) (s : State), x.data < 2 ^ 64 ∧ (poisonWord unit source w x s).storedWord w = encodeWord x.data true ∧ FewErrors l :=
  ⟨0, 0, 5, { kind := .uncorrectable, data := 2 ^ 64 - 1, fixed := [] }, [3, 79], channel {}, by simp only [FewErrors]; decide +kernel⟩

/-- States and operands that meet the hypotheses of DramReadGivesTheLine. -/
theorem witness_DramReadGivesTheLine : ∃ (a : Nat) (s : State), DramServes s a ∧ memWf s.dram = true ∧ (∀ k, k < 8 → Tab.find s.dmc.words (a / 64 * 8 + k) = none) :=
  ⟨8 * 2 ^ 30 - 64, channel {}, by simp only [DramServes]; decide +kernel⟩

/-- States and operands that meet the hypotheses of DramWriteStoresTheLine. -/
theorem witness_DramWriteStoresTheLine : ∃ (a : Nat) (l : Bytes) (s : State), DramServes s a ∧ memWf s.dram = true ∧ l.length = 64 :=
  ⟨8 * 2 ^ 30 - 64, List.replicate 64 7, channel {}, by simp only [DramServes]; decide +kernel⟩

/-- States and operands that meet the hypotheses of NarrowWriteMerges. -/
theorem witness_NarrowWriteMerges : ∃ (a : Nat) (l : Bytes) (s : State), DramServes s a ∧ memWf s.dram = true ∧ l ≠ [] ∧ a % 64 + l.length ≤ 64 ∧ (∀ k, k < 8 → Tab.find s.dmc.words (a / 64 * 8 + k) = none) :=
  ⟨63, [7], channel {}, by simp only [DramServes]; decide +kernel⟩

/-- States and operands that meet the hypotheses of PoisonRefusesTheMerge. -/
theorem witness_PoisonRefusesTheMerge : ∃ (a w : Nat) (l : Bytes) (s : State), DramServes s a ∧ memWf s.dram = true ∧ l ≠ [] ∧ a % 64 + l.length ≤ 64 ∧ a / 64 * 8 ≤ w ∧ w < a / 64 * 8 + 8 ∧ coverOf a l.length w = .part ∧ Tab.find s.dmc.words w = some (encodeWord (leNat (memRead s.dram (8 * w) 8)) true) ∧ (∀ v, a / 64 * 8 ≤ v → v < a / 64 * 8 + 8 → v ≠ w → Tab.find s.dmc.words v = none) :=
  ⟨63, 7, [7], { channel { words := [(7, encodeWord 0 true)] } with dram := [] }, ⟨by simp only [DramServes]; decide +kernel, by decide, by decide, by decide, by decide, by decide, by decide +kernel, by decide +kernel, fun v _ _ h => by simp [channel, Tab.find, Ne.symm h]⟩⟩

def event0 : Event := { source := 511, code := 1, arg0 := 2, arg1 := 3, tag := 0 }
/-- A page's timer runs. -/
def paging (wall : Nat) : State := { perf [] with wall := wall, evt := { pageTimer := [(0, 0)] } }
/-- States and operands that meet the hypotheses of EventsAreRaisedAndKept, clause by clause. -/
theorem witness_EventsAreRaisedAndKept :
    (∃ (s : State), s.powered = true) ∧
    (∃ (s : State), s.powered = false) ∧
    (∃ (p t0 : Nat) (s : State), s.evt.pageTimer = [(p, t0)] ∧ t0 + 1000000000 ≤ s.wall) ∧
    (∃ (p t0 : Nat) (s : State), s.evt.pageTimer = [(p, t0)] ∧ s.wall < t0 + 1000000000) ∧
    (∃ (s : State), s.evt.secWait = []) ∧
    (∃ (q : Requester) (s : State), mayReach s q .house = true ∧ writable s true = true) ∧
    (∃ (q : Requester) (tag : Nat) (s : State), mayReach s q (.tenant tag) = true ∧ writable s true = true) ∧
    (∃ (fn tag v : Nat) (val : W32) (s : State), mayReach s (.function (fn / 2 ^ 15) (fn % 2 ^ 15)) (.tenant tag) = true ∧ writable s false = true ∧ tag ≠ 0 ∧ rwValue s (.tenant tag) 0x6040 val.toNat = some v ∧ v < 2 ^ 32) :=
  ⟨⟨perf [], by decide +kernel⟩,
   ⟨State.reset, by decide +kernel⟩,
   ⟨0, 0, paging 1000000000, by decide +kernel⟩,
   ⟨0, 0, paging 999999999, by decide +kernel⟩,
   ⟨perf [], by decide +kernel⟩,
   ⟨sender, down, by decide +kernel⟩,
   ⟨sender, 2, down, by decide +kernel⟩,
   ⟨5, 2, 0, 0, { serving { ctl with tag := 2, fn := 5 } [tenantIs 2 0] with wall := 0 }, by decide +kernel⟩⟩

/-- The device as `d`. -/
def device (d : DevState) : State := { State.reset with dev := d }
/-- A Pricking in effect, the cue a second past its floor: House Lights may be left. -/
def mayGo (t : Int) : State :=
  { lights with prk := (perf []).prk, cue := { now := 1000000000 }, pwr := { temps := [t, 0, 0, 0, 0, 0, 0, 0] } }
/-- A rehearsal under way. -/
def rehearsing (started : List Nat) : State := { discs with dev := { phase := .rehearsal, perstHigh := true, rehStarted := started } }
/-- States and operands that meet the hypotheses of DeviceStartsAndRehearses, clause by clause. -/
theorem witness_DeviceStartsAndRehearses :
    (∃ (c : PowerConditions) (s : State), s.powered = false ∧ s.dev.perstHigh = false ∧ c.refclkStable = true ∧ c.railsStable = true ∧ c.lossHigh = true) ∧
    (∃ (c : PowerConditions) (s : State), s.powered = false ∧ s.dev.perstHigh = false ∧ c.refclkStable = false) ∧
    (∃ (s : State), s.dev.perstHigh = true ∧ s.dev.waitSupplies = true) ∧
    (∃ (k : Nat) (x : FwSlot) (s : State), s.powered = false ∧ s.dev.booting = true ∧ s.dev.boot.order.find? (fun k => !s.dev.tried.contains k) = some k ∧ Tab.find s.dev.fwSlots k = some x ∧ x.readable = true ∧ x.verifies = true ∧ s.dev.fwFloor ≤ x.svn) ∧
    (∃ (k : Nat) (s : State), s.powered = false ∧ s.dev.booting = true ∧ s.dev.boot.order.find? (fun k => !s.dev.tried.contains k) = some k ∧ (∀ j ∈ s.dev.boot.order, j = k ∨ s.dev.tried.contains j = true)) ∧
    (∃ (s : State), writable s false = true ∧ s.dev.phase = .houseLights) ∧
    (∃ (s : State), s.mayRehearse = true ∧ s.dev.waitTemp = false ∧ s.composite ≤ (s.tempThrottleAt : Int) * 256) ∧
    (∃ (s : State), s.mayRehearse = true ∧ s.dev.waitTemp = false ∧ (s.tempThrottleAt : Int) * 256 < s.composite) ∧
    (∃ (b : Nat) (s : State), s.dev.phase = .rehearsal ∧ s.runs = true ∧ b < 9 ∧ s.dev.rehStarted.contains b = false ∧ (stepNeeds b).all (fun n => s.dev.rehDone.contains n) = true ∧ b ≠ 6) ∧
    (∃ (s : State), s.dev.phase = .rehearsal ∧ s.runs = true ∧ s.dev.rehStarted = [2] ∧ s.dev.rehDone = []) ∧
    (∃ (s : State), s.dev.phase = .rehearsal ∧ s.runs = true ∧ s.dev.rehStarted.contains 5 = true ∧ s.dev.rehDone.contains 5 = false ∧ s.dev.formatted = false) ∧
    (∃ (a : Nat) (s : State), s.dev.phase = .rehearsal ∧ s.dev.rehStart + 40000000000 ≤ s.wall ∧ s.present a = true ∧ s.actState a ≠ 0) :=
  ⟨⟨{ refclkStable := true, railsStable := true, lossHigh := true }, State.reset, by decide +kernel⟩,
   ⟨{ refclkStable := false, railsStable := true, lossHigh := true }, State.reset, by decide +kernel⟩,
   ⟨device { perstHigh := true, waitSupplies := true }, by decide +kernel⟩,
   ⟨1, {}, device { perstHigh := true, booting := true }, by decide +kernel⟩,
   ⟨3, device { perstHigh := true, booting := true, tried := [1, 2] }, by decide +kernel⟩,
   ⟨lights, by decide +kernel⟩,
   ⟨mayGo (105 * 256), by decide +kernel⟩,
   ⟨mayGo (105 * 256 + 1), by decide +kernel⟩,
   ⟨3, rehearsing [], by decide +kernel⟩,
   ⟨rehearsing [2], by decide +kernel⟩,
   ⟨rehearsing [5], by decide +kernel⟩,
   ⟨0, { rehearsing [] with wall := 40000000000 }, by decide +kernel⟩⟩

def harboured (halted : Bool) (h : Option Harbour) : State :=
  { perf [] with dev := { (perf []).dev with halted := halted }, pwr := { harbour := h } }
def harbour0 : Harbour := { cause := 0, start := 0 }
/-- States and operands that meet the hypotheses of PowerAndLifeGoOn, clause by clause. -/
theorem witness_PowerAndLifeGoOn :
    (∃ (ns : Nat), ns < 2000) ∧
    (∃ (ns : Nat) (s : State), 2000 ≤ ns ∧ s.powered = true ∧ s.pwr.harbour = none ∧ s.dev.halted = false) ∧
    (∃ (ns : Nat) (s : State), 2000 ≤ ns ∧ s.dev.perstHigh = true ∧ s.pwr.harbour.isSome = true) ∧
    (∃ (ns : Nat) (s : State), 2000 ≤ ns ∧ s.dev.perstHigh = true ∧ s.pwr.harbour = none ∧ s.dev.halted = true) ∧
    (∃ (h : Harbour) (s : State), s.pwr.harbour = some h ∧ s.dev.perstHigh = true) ∧
    (∃ (h : Harbour) (s : State), s.pwr.harbour = some h ∧ s.dev.perstHigh = false) ∧
    (∃ (l : List Int) (s : State), s.powered = true ∧ l.length = 8 ∧ sensorAlarm l = none ∧ State.hotAt { s with pwr := { s.pwr with temps := l } } s.tempWarnAt = false ∧ State.hotAt { s with pwr := { s.pwr with temps := l } } s.tempThrottleAt = false ∧ State.hotAt { s with pwr := { s.pwr with temps := l } } s.tempShutdownAt = false) ∧
    (∃ (s : State), s.pwr.throttling = true ∧ s.pwr.throttleAt + 100000000 ≤ s.wall ∧ s.hotAt s.tempThrottleAt = true) ∧
    (∃ (m : Nat) (s : State), s.powered = true ∧ s.pwr.ageAt ≤ s.opSeconds ∧ m < 65536) ∧
    (∃ (s : State), s.powered = true) ∧
    (∃ (r mv : Nat) (s : State), r < 11 ∧ s.powered = true ∧ mv < 65536) :=
  ⟨⟨1999, by decide +kernel⟩,
   ⟨2000, perf [], by decide +kernel⟩,
   ⟨2000, harboured false (some harbour0), by decide +kernel⟩,
   ⟨2000, harboured true none, by decide +kernel⟩,
   ⟨harbour0, harboured false (some harbour0), by decide +kernel⟩,
   ⟨harbour0, { State.reset with pwr := { harbour := some harbour0 } }, by decide +kernel⟩,
   ⟨List.replicate 8 (99 * 256), perf [], by decide +kernel⟩,
   ⟨{ perf [] with wall := 100000000, pwr := { throttling := true, temps := List.replicate 8 (105 * 256) } }, by decide +kernel⟩,
   ⟨65535, perf [], by decide +kernel⟩,
   ⟨perf [], by decide +kernel⟩,
   ⟨10, 65535, perf [], by decide +kernel⟩⟩
/-! ### Single values and single steps -/

theorem ill_formed_connections : (∀ c, (Instr.tcpIcreq c { ic0 with lport := 4 }).wellFormed = false) ∧
    (∀ c, (Instr.tlsHandshake c { tls0 with lport := 4 }).wellFormed = false) := by
  simp [Instr.wellFormed]

/-- The check values of the standards the chapters name, over the digits 1 to 9 (CRC-32 of IEEE 802.3, CRC-32C, CRC-64 of NVMe), and XXH64 of
nothing with seed 0. -/
theorem test_check_values :
    let d : Bytes := [0x31, 0x32, 0x33, 0x34, 0x35, 0x36, 0x37, 0x38, 0x39]
    crc32 d = 0xCBF43926 ∧ crc32c d = 0xE3069283 ∧ crc64 d = 0xAE8B14860A799888 ∧ xxh64 [] = 0xEF46DB3751D8E999 := by decide +kernel

/-- R432: two wrong bits are put right. -/
theorem test_word_code : (decodeWord (flipBits (encodeWord 0x0123456789ABCDEF false) [0, 79])).data = 0x0123456789ABCDEF := by decide +kernel

/-- The commands carry no bits: no word spells one. -/
theorem test_no_words : decodeTableWord 32 0 = none ∧ (State.reset.withFetchWord 32 0 = State.reset) := by decide

/-- In Dark nothing but the reset's release, power and supplies acts: a register write is discarded (R476). -/
theorem test_dark_write : (match exec (.registerWrite sender .house 0x100030 4 7) State.reset with | .next t => t == State.reset | _ => false) = true := by decide +kernel

/-- R9: PRK_DRAIN_LIMIT takes an aligned 32-bit write. -/
theorem test_register_write :
    (match exec (.registerWrite sender .house 0x100030 4 7) (perf []) with | .next t => t.reg 0x100030 2000 | _ => 0) = 7 := by decide +kernel

/-- R9: a misaligned write changes nothing. -/
theorem test_misaligned_write : (match exec (.registerWrite sender .house 0x100031 4 7) (perf []) with | .next t => t == perf [] | _ => false) = true := by decide +kernel

/-- R480: PERST_N rises with every condition met: the boot ROM starts and the power cycle counts. -/
theorem test_reset_release :
    (match exec (.resetRelease { refclkStable := true, railsStable := true, lossHigh := true }) State.reset with
      | .next t => (t.dev.booting, t.evt.powerCycles, t.dev.phase)
      | _ => (false, 0, .dark)) = (true, 1, .dark) := by decide +kernel

/-- R485: FW_NEXT does not verify, FW_GOOD does: it boots, with FW_FALLBACK. -/
theorem test_firmware_fallback :
    (match exec (.firmwareSlotRead true true)
        (device { perstHigh := true, booting := true, tried := [2], boot := { fwNext := 2, fwGood := 1 } }) with
      | .next t => (t.dev.booted, t.dev.fwFallback, t.dev.phase)
      | _ => (0, false, .dark)) = (1, true, .houseLights) := by decide +kernel

/-- R416: a tamper alarm in Performance erases the root key and lowers the curtain. -/
theorem test_tamper :
    (match exec (.tamperAlarm 0 3) (perf []) with | .next t => (t.dev.phase, t.saf.rootErased) | _ => (.dark, false)) = (.curtainDown, true) := by
  decide +kernel

/-- R46: a loader at work takes no VERIFY. -/
theorem test_loader_busy : 
    (match exec (.prkVerify true image0) (loading { phase := .checking }) with | .next t => t == loading { phase := .checking } | _ => false) = true := by
  decide +kernel

/-- R67: a cue posted goes to the lowest free slot. -/
theorem test_cue_post :
    (match exec (.cuePost .stage aCue) (oneCue (cueSlot .stage .posting .posted)) with | .next t => t.cue.slots.map (fun p => p.1) | _ => []) = [0, 3] := by
  decide +kernel

/-- R430: an address outside the interleave is the one thing a command stops on. -/
theorem test_outside_dram : 
    (match exec (.dramRead 0 (8 * 2 ^ 30) [] .none) (channel {}) with | .fault f => some f | _ => none) = some (.outsideDram (8 * 2 ^ 30)) := by decide +kernel


/-! ### Ill-formed commands (each range of WellFormed) -/

/-- Operands outside their ranges. -/
def badHdr : CmdHdr := { ctrl := 262144, sq := 0, cid := 0, nsid := 0, badField := false }
def badTx : GroundTx := { src := 0, dst := 0, tag := 8192, owner := 0, route := 0, cls := 0, seq := 0, task := none }
def badEvent : Event := { source := 512, code := 0, arg0 := 0, arg1 := 0, tag := 0 }
def badCue : CueReq := { fire := 0, target := 80, action := .posting, tag := 0 }
def badTlp : Tlp := { malformed := false, poisoned := false, ideFailed := none, kind := .read (some 6) 0 4 }
def badConnect : ConnectReq :=
  { rdma := false, lport := 4, net := 0, conn := 0, cntlid := 0, qid := 0, size := 0, hostNqn := 0, hostId := 0, kato := 0, authTag := none }

/-- The fields of the operands, one beyond its range at a time. -/
theorem ill_formed_operands :
    (Requester.function 2 0).wf = false ∧ (Requester.function 0 1025).wf = false ∧ (Requester.prompter 2).wf = false ∧
    (Window.tenant 0).wf = false ∧ (Window.tenant 4097).wf = false ∧ keyLen [] = false ∧ keyLen (List.replicate 17 0) = false ∧
    ([badTx, { badTx with tag := 0, owner := 4097 }, { badTx with tag := 0, route := 4096 }, { badTx with tag := 0, cls := 4 },
      { badTx with tag := 0, seq := 4294967296 }].all (fun t => !t.wf)) = true ∧
    ([{ sct := 8, sc := 0, dnr := false }, { sct := 0, sc := 256, dnr := false : Status }].all (fun t => !t.wf)) = true ∧
    ([badEvent, { badEvent with source := 0, code := 65536 }, { badEvent with source := 0, arg0 := 2 ^ 64 }, { badEvent with source := 0, arg1 := 2 ^ 64 },
      { badEvent with source := 0, tag := 4097 }].all (fun t => !t.wf)) = true ∧
    (Poster.flash 32).wf = false ∧ (Poster.read 4).wf = false ∧
    ([badCue, { badCue with target := 0, fire := 2 ^ 64 }, { badCue with target := 0, tag := 4097 }].all (fun t => !t.wf)) = true ∧
    ([badTlp, { badTlp with kind := .read none 0 4097 }, { badTlp with kind := .write (some 6) 0 4 0 },
      { badTlp with kind := .write none 0 4097 0 }].all (fun t => !t.wf)) = true ∧
    ([badConnect, { badConnect with lport := 0, cntlid := 65536 }, { badConnect with lport := 0, qid := 65536 }, { badConnect with lport := 0, size := 65536 },
      { badConnect with lport := 0, kato := 4294967296 }].all (fun t => !t.wf)) = true ∧
    ([badHdr, { badHdr with ctrl := 0, sq := 65536 }, { badHdr with ctrl := 0, cid := 65536 }, { badHdr with ctrl := 0, nsid := 4294967296 }].all
      (fun t => !t.wf)) = true := by decide

theorem badOperands : badHdr.wf = false ∧ badTx.wf = false ∧ badEvent.wf = false ∧ badCue.wf = false ∧ badTlp.wf = false ∧ badConnect.wf = false := by decide

/-- Commands from registerWrite to pcieTlp, one operand beyond its range. -/
theorem ill_formed_1 :
    (∀ (a0 : Window) (a1 : Nat) (a2 : Nat) (a3 : BitVec 64), (Instr.registerWrite (.prompter 2) a0 a1 a2 a3).wellFormed = false) ∧
    (∀ (a0 : Requester) (a1 : Nat) (a2 : Nat) (a3 : BitVec 64), (Instr.registerWrite a0 (.tenant 0) a1 a2 a3).wellFormed = false) ∧
    (∀ (a0 : Requester) (a1 : Nat) (a2 : BitVec 64), (Instr.registerWrite a0 (.tenant 1) 65536 a1 a2).wellFormed = false) ∧
    (∀ (a0 : Window) (a1 : Nat) (a2 : BitVec 32), (Instr.lowWordWrite (.prompter 2) a0 a1 a2).wellFormed = false) ∧
    (∀ (a0 : Requester) (a1 : Nat) (a2 : BitVec 32), (Instr.lowWordWrite a0 (.tenant 0) a1 a2).wellFormed = false) ∧
    (∀ (a0 : Requester) (a1 : Window) (a2 : BitVec 32), (Instr.lowWordWrite a0 a1 1 a2).wellFormed = false) ∧
    (∀ (a0 : Requester) (a1 : BitVec 32), (Instr.lowWordWrite a0 (.tenant 1) 65536 a1).wellFormed = false) ∧
    (∀ (a0 : Window) (a1 : Nat) (a2 : BitVec 32), (Instr.highWordWrite (.prompter 2) a0 a1 a2).wellFormed = false) ∧
    (∀ (a0 : Requester) (a1 : Nat) (a2 : BitVec 32), (Instr.highWordWrite a0 (.tenant 0) a1 a2).wellFormed = false) ∧
    (∀ (a0 : Requester) (a1 : Window) (a2 : BitVec 32), (Instr.highWordWrite a0 a1 5 a2).wellFormed = false) ∧
    (∀ (a0 : Requester) (a1 : BitVec 32), (Instr.highWordWrite a0 (.tenant 1) 65536 a1).wellFormed = false) ∧
    (∀ (a0 : Window) (a1 : Nat), (Instr.lowWordRead (.prompter 2) a0 a1).wellFormed = false) ∧
    (∀ (a0 : Requester) (a1 : Nat), (Instr.lowWordRead a0 (.tenant 0) a1).wellFormed = false) ∧
    (∀ (a0 : Requester) (a1 : Window), (Instr.lowWordRead a0 a1 1).wellFormed = false) ∧
    (∀ (a0 : Requester), (Instr.lowWordRead a0 (.tenant 1) 65536).wellFormed = false) ∧
    (∀ (a0 : Window) (a1 : Nat), (Instr.highWordRead (.prompter 2) a0 a1).wellFormed = false) ∧
    (∀ (a0 : Requester) (a1 : Nat), (Instr.highWordRead a0 (.tenant 0) a1).wellFormed = false) ∧
    (∀ (a0 : Requester) (a1 : Window), (Instr.highWordRead a0 a1 5).wellFormed = false) ∧
    (∀ (a0 : Requester), (Instr.highWordRead a0 (.tenant 1) 65536).wellFormed = false) ∧
    (∀ (a0 : Window) (a1 : Nat) (a2 : Nat) (a3 : Nat), (Instr.readClear (.prompter 2) a0 a1 a2 a3).wellFormed = false) ∧
    (∀ (a0 : Requester) (a1 : Nat) (a2 : Nat) (a3 : Nat), (Instr.readClear a0 (.tenant 0) a1 a2 a3).wellFormed = false) ∧
    (∀ (a0 : Requester) (a1 : Nat) (a2 : Nat), (Instr.readClear a0 (.tenant 1) 65536 a1 a2).wellFormed = false) ∧
    (∀ (a0 : Requester) (a1 : Window) (a2 : Nat) (a3 : Nat), (Instr.readClear a0 a1 a2 3 a3).wellFormed = false) ∧
    (∀ (a0 : Requester) (a1 : Window) (a2 : Nat) (a3 : Nat), (Instr.readClear a0 a1 a2 a3 4294967296).wellFormed = false) ∧
    ((Instr.groundTransaction badTx).wellFormed = false) ∧
    (∀ (a0 : List (BitVec 32)), (Instr.prkApertureWrite 1 a0).wellFormed = false) ∧
    (∀ (a0 : List (BitVec 32)), (Instr.prkApertureWrite 65536 a0).wellFormed = false) ∧
    ((Instr.clockDomainStop 25).wellFormed = false) ∧
    ((Instr.clockDomainStart 25).wellFormed = false) ∧
    (∀ (a0 : BitVec 32), (Instr.cueStepWrite (.prompter 2) a0).wellFormed = false) ∧
    (∀ (a0 : Int) (a1 : Int), (Instr.tapSkewMeasure 80 a0 a1).wellFormed = false) ∧
    (∀ (a0 : Bool) (a1 : ServoReport), (Instr.ptpEventMessage 4 a0 a1).wellFormed = false) ∧
    (∀ (a0 : CueReq), (Instr.cuePost (.flash 32) a0).wellFormed = false) ∧
    (∀ (a0 : Poster), (Instr.cuePost a0 badCue).wellFormed = false) ∧
    ((Instr.cueArm 4096).wellFormed = false) ∧
    ((Instr.cueFire 4096).wellFormed = false) ∧
    (∀ (a0 : Nat), (Instr.cueCancel (.flash 32) a0).wellFormed = false) ∧
    (∀ (a0 : Poster), (Instr.cueCancel a0 4096).wellFormed = false) ∧
    ((Instr.cancelArrival 4096).wellFormed = false) ∧
    (∀ (a0 : Nat) (a1 : Tlp), (Instr.pcieTlp 2 a0 a1).wellFormed = false) := by
  simp [Instr.wellFormed, badOperands, Requester.wf, Window.wf, Window.bytes, Poster.wf, userTag]

/-- Commands from pcieTlp to getLogGloexError, one operand beyond its range. -/
theorem ill_formed_2 :
    (∀ (a0 : Nat) (a1 : Tlp), (Instr.pcieTlp a0 1025 a1).wellFormed = false) ∧
    (∀ (a0 : Nat) (a1 : Nat), (Instr.pcieTlp a0 a1 badTlp).wellFormed = false) ∧
    (∀ (a0 : Bool) (a1 : Nat) (a2 : Nat), (Instr.doorbellWrite 262144 a0 a1 a2).wellFormed = false) ∧
    (∀ (a0 : Nat) (a1 : Bool) (a2 : Nat), (Instr.doorbellWrite a0 a1 65536 a2).wellFormed = false) ∧
    (∀ (a0 : Nat) (a1 : Bool) (a2 : Nat), (Instr.doorbellWrite a0 a1 a2 65536).wellFormed = false) ∧
    (∀ (a0 : DoeObject), (Instr.doeObject 2 a0).wellFormed = false) ∧
    (∀ (a0 : Nat) (a1 : Nat) (a2 : Bool) (a3 : Bool), (Instr.pcieLinkUp 2 a0 a1 a2 a3).wellFormed = false) ∧
    (∀ (a0 : Nat) (a1 : Nat) (a2 : Bool) (a3 : Bool), (Instr.pcieLinkUp a0 0 a1 a2 a3).wellFormed = false) ∧
    (∀ (a0 : Nat) (a1 : Nat) (a2 : Bool) (a3 : Bool), (Instr.pcieLinkUp a0 7 a1 a2 a3).wellFormed = false) ∧
    (∀ (a0 : Nat) (a1 : Nat) (a2 : Bool) (a3 : Bool), (Instr.pcieLinkUp a0 a1 3 a2 a3).wellFormed = false) ∧
    ((Instr.pcieLinkDown 2).wellFormed = false) ∧
    (∀ (a0 : Nat), (Instr.flr 2 a0).wellFormed = false) ∧
    (∀ (a0 : Nat), (Instr.flr a0 1025).wellFormed = false) ∧
    (∀ (a0 : Bool) (a1 : Nat), (Instr.vfEnableChange 2 a0 a1).wellFormed = false) ∧
    (∀ (a0 : Nat) (a1 : Bool), (Instr.vfEnableChange a0 a1 65536).wellFormed = false) ∧
    (∀ (a0 : BitVec 32), (Instr.controllerEnable 262144 a0).wellFormed = false) ∧
    ((Instr.controllerDisable 262144).wellFormed = false) ∧
    (∀ (a0 : EthFrame), (Instr.ethFrame 4 a0).wellFormed = false) ∧
    (∀ (a0 : Option Nat) (a1 : Bool), (Instr.pauseFrame 4 a0 a1).wellFormed = false) ∧
    (∀ (a0 : Nat) (a1 : Bool), (Instr.pauseFrame a0 (some 8) a1).wellFormed = false) ∧
    (∀ (a0 : EthPhy), (Instr.ethLinkUp 4 a0).wellFormed = false) ∧
    ((Instr.logicalPortDown 4).wellFormed = false) ∧
    ((Instr.connect badConnect).wellFormed = false) ∧
    ((Instr.keepAliveExpiry 262144).wellFormed = false) ∧
    (∀ (a0 : Nat) (a1 : Nat) (a2 : Nat) (a3 : Nat), (Instr.createIoSq badHdr a0 a1 a2 a3).wellFormed = false) ∧
    (∀ (a0 : CmdHdr) (a1 : Nat) (a2 : Nat) (a3 : Nat), (Instr.createIoSq a0 65536 a1 a2 a3).wellFormed = false) ∧
    (∀ (a0 : CmdHdr) (a1 : Nat) (a2 : Nat) (a3 : Nat), (Instr.createIoSq a0 a1 65537 a2 a3).wellFormed = false) ∧
    (∀ (a0 : CmdHdr) (a1 : Nat) (a2 : Nat) (a3 : Nat), (Instr.createIoSq a0 a1 a2 65536 a3).wellFormed = false) ∧
    (∀ (a0 : CmdHdr) (a1 : Nat) (a2 : Nat) (a3 : Nat), (Instr.createIoSq a0 a1 a2 a3 4).wellFormed = false) ∧
    (∀ (a0 : Nat) (a1 : Nat) (a2 : Nat), (Instr.createIoCq badHdr a0 a1 a2).wellFormed = false) ∧
    (∀ (a0 : CmdHdr) (a1 : Nat) (a2 : Nat), (Instr.createIoCq a0 65536 a1 a2).wellFormed = false) ∧
    (∀ (a0 : CmdHdr) (a1 : Nat) (a2 : Nat), (Instr.createIoCq a0 a1 65537 a2).wellFormed = false) ∧
    (∀ (a0 : CmdHdr) (a1 : Nat) (a2 : Nat), (Instr.createIoCq a0 a1 a2 65536).wellFormed = false) ∧
    (∀ (a0 : Nat), (Instr.deleteIoSq badHdr a0).wellFormed = false) ∧
    (∀ (a0 : CmdHdr), (Instr.deleteIoSq a0 65536).wellFormed = false) ∧
    (∀ (a0 : Nat), (Instr.deleteIoCq badHdr a0).wellFormed = false) ∧
    (∀ (a0 : CmdHdr), (Instr.deleteIoCq a0 65536).wellFormed = false) ∧
    (∀ (a0 : Nat) (a1 : Nat) (a2 : Nat) (a3 : Bool), (Instr.getLogPage badHdr a0 a1 a2 a3).wellFormed = false) ∧
    (∀ (a0 : CmdHdr) (a1 : Nat) (a2 : Nat) (a3 : Bool), (Instr.getLogPage a0 256 a1 a2 a3).wellFormed = false) ∧
    (∀ (a0 : Nat) (a1 : Nat) (a2 : Nat), (Instr.getLogGloexError badHdr a0 a1 a2).wellFormed = false) := by
  simp [Instr.wellFormed, badOperands]

/-- Commands from getLogGloexError to programDeactivate, one operand beyond its range. -/
theorem ill_formed_3 :
    (∀ (a0 : CmdHdr) (a1 : Nat) (a2 : Nat), (Instr.getLogGloexError a0 65536 a1 a2).wellFormed = false) ∧
    (∀ (a0 : Nat) (a1 : Nat), (Instr.getLogResetOutcome badHdr a0 a1).wellFormed = false) ∧
    (∀ (a0 : Nat) (a1 : Nat) (a2 : Nat), (Instr.getLogCommitCue badHdr a0 a1 a2).wellFormed = false) ∧
    (∀ (a0 : CmdHdr) (a1 : Nat) (a2 : Nat), (Instr.getLogCommitCue a0 65536 a1 a2).wellFormed = false) ∧
    (∀ (a0 : Nat) (a1 : Nat) (a2 : Bool), (Instr.getLogEventLog badHdr a0 a1 a2).wellFormed = false) ∧
    (∀ (a0 : Nat), (Instr.identify badHdr a0).wellFormed = false) ∧
    (∀ (a0 : CmdHdr), (Instr.identify a0 256).wellFormed = false) ∧
    (∀ (a0 : Nat), (Instr.getFeatures badHdr a0).wellFormed = false) ∧
    (∀ (a0 : CmdHdr), (Instr.getFeatures a0 256).wellFormed = false) ∧
    (∀ (a0 : Nat) (a1 : Bool) (a2 : BitVec 32) (a3 : Bytes), (Instr.setFeatures badHdr a0 a1 a2 a3).wellFormed = false) ∧
    (∀ (a0 : CmdHdr) (a1 : Bool) (a2 : BitVec 32) (a3 : Bytes), (Instr.setFeatures a0 256 a1 a2 a3).wellFormed = false) ∧
    (∀ (a0 : Bool) (a1 : BitVec 32), (Instr.setQueueOrdering badHdr a0 a1).wellFormed = false) ∧
    (∀ (a0 : BitVec 32), (Instr.getQueueOrdering badHdr a0).wellFormed = false) ∧
    (∀ (a0 : Bool) (a1 : BitVec 32), (Instr.setSelfTestStep badHdr a0 a1).wellFormed = false) ∧
    (∀ (a0 : Nat) (a1 : Nat), (Instr.abort badHdr a0 a1).wellFormed = false) ∧
    (∀ (a0 : CmdHdr) (a1 : Nat), (Instr.abort a0 65536 a1).wellFormed = false) ∧
    (∀ (a0 : CmdHdr) (a1 : Nat), (Instr.abort a0 a1 65536).wellFormed = false) ∧
    (∀ (a0 : Nat), (Instr.abortHoldExpiry 262144 a0).wellFormed = false) ∧
    (∀ (a0 : Nat), (Instr.abortHoldExpiry a0 65536).wellFormed = false) ∧
    ((Instr.asyncEventRequest badHdr).wellFormed = false) ∧
    ((Instr.keepAlive badHdr).wellFormed = false) ∧
    (∀ (a0 : Nat), (Instr.deviceSelfTest badHdr a0).wellFormed = false) ∧
    (∀ (a0 : CmdHdr), (Instr.deviceSelfTest a0 16).wellFormed = false) ∧
    ((Instr.selfTestAbort badHdr).wellFormed = false) ∧
    (∀ (a0 : Bool) (a1 : Bool), (Instr.selfTestStep 262144 a0 a1).wellFormed = false) ∧
    (∀ (a0 : Nat) (a1 : Nat), (Instr.formatNvm badHdr a0 a1).wellFormed = false) ∧
    (∀ (a0 : CmdHdr) (a1 : Nat), (Instr.formatNvm a0 64 a1).wellFormed = false) ∧
    (∀ (a0 : CmdHdr) (a1 : Nat), (Instr.formatNvm a0 a1 8).wellFormed = false) ∧
    (∀ (a0 : SecSend), (Instr.securitySend badHdr a0).wellFormed = false) ∧
    (∀ (a0 : Nat), (Instr.securityReceive badHdr a0).wellFormed = false) ∧
    (∀ (a0 : CmdHdr), (Instr.securityReceive a0 256).wellFormed = false) ∧
    (∀ (a0 : Nat) (a1 : Nat) (a2 : Nat) (a3 : Nat) (a4 : Bytes), (Instr.loadProgram badHdr a0 a1 a2 a3 a4).wellFormed = false) ∧
    (∀ (a0 : CmdHdr) (a1 : Nat) (a2 : Nat) (a3 : Nat) (a4 : Bytes), (Instr.loadProgram a0 65536 a1 a2 a3 a4).wellFormed = false) ∧
    (∀ (a0 : CmdHdr) (a1 : Nat) (a2 : Nat) (a3 : Nat) (a4 : Bytes), (Instr.loadProgram a0 a1 256 a2 a3 a4).wellFormed = false) ∧
    (∀ (a0 : Nat) (a1 : Option (Nat × Nat)), (Instr.programTranslated 4097 a0 a1).wellFormed = false) ∧
    (∀ (a0 : Nat) (a1 : Option (Nat × Nat)), (Instr.programTranslated a0 65536 a1).wellFormed = false) ∧
    (∀ (a0 : Nat), (Instr.programActivate badHdr a0).wellFormed = false) ∧
    (∀ (a0 : CmdHdr), (Instr.programActivate a0 65536).wellFormed = false) ∧
    (∀ (a0 : Nat), (Instr.programDeactivate badHdr a0).wellFormed = false) ∧
    (∀ (a0 : CmdHdr), (Instr.programDeactivate a0 65536).wellFormed = false) := by
  simp [Instr.wellFormed, badOperands]

/-- Commands from memoryRangeSetManagement to verify, one operand beyond its range. -/
theorem ill_formed_4 :
    (∀ (a0 : Bool) (a1 : Nat) (a2 : List (Nat × Nat)), (Instr.memoryRangeSetManagement badHdr a0 a1 a2).wellFormed = false) ∧
    (∀ (a0 : CmdHdr) (a1 : Bool) (a2 : List (Nat × Nat)), (Instr.memoryRangeSetManagement a0 a1 65536 a2).wellFormed = false) ∧
    (∀ (a0 : Bool) (a1 : NsAttrs), (Instr.namespaceManagement badHdr a0 a1).wellFormed = false) ∧
    (∀ (a0 : Bool) (a1 : List Nat), (Instr.namespaceAttachment badHdr a0 a1).wellFormed = false) ∧
    (∀ (a0 : CmdHdr) (a1 : Bool), (Instr.namespaceAttachment a0 a1 ([262144])).wellFormed = false) ∧
    (∀ (a0 : Nat) (a1 : FwImage), (Instr.firmwareImageDownload badHdr a0 a1).wellFormed = false) ∧
    (∀ (a0 : CmdHdr) (a1 : FwImage), (Instr.firmwareImageDownload a0 1 a1).wellFormed = false) ∧
    (∀ (a0 : Nat) (a1 : Nat), (Instr.firmwareCommit badHdr a0 a1).wellFormed = false) ∧
    (∀ (a0 : CmdHdr) (a1 : Nat), (Instr.firmwareCommit a0 8 a1).wellFormed = false) ∧
    (∀ (a0 : CmdHdr) (a1 : Nat), (Instr.firmwareCommit a0 a1 8).wellFormed = false) ∧
    (∀ (a0 : Nat), (Instr.firmwareActivate badHdr a0).wellFormed = false) ∧
    (∀ (a0 : CmdHdr), (Instr.firmwareActivate a0 8).wellFormed = false) ∧
    (∀ (a0 : Nat), (Instr.sanitize badHdr a0).wellFormed = false) ∧
    (∀ (a0 : CmdHdr), (Instr.sanitize a0 8).wellFormed = false) ∧
    (∀ (a0 : MiMsg), (Instr.nvmeMiSend badHdr a0).wellFormed = false) ∧
    ((Instr.nvmeMiReceive badHdr).wellFormed = false) ∧
    (∀ (a0 : Nat) (a1 : Bool), (Instr.restartQueue badHdr a0 a1).wellFormed = false) ∧
    (∀ (a0 : CmdHdr) (a1 : Bool), (Instr.restartQueue a0 65536 a1).wellFormed = false) ∧
    (∀ (a0 : Bool) (a1 : Nat), (Instr.invalidOpcode badHdr a0 a1).wellFormed = false) ∧
    (∀ (a0 : CmdHdr) (a1 : Bool), (Instr.invalidOpcode a0 a1 256).wellFormed = false) ∧
    (∀ (a0 : Nat) (a1 : Nat) (a2 : Option Nat), (Instr.nvmRead badHdr a0 a1 a2).wellFormed = false) ∧
    (∀ (a0 : CmdHdr) (a1 : Nat) (a2 : Option Nat), (Instr.nvmRead a0 18446744073709551616 a1 a2).wellFormed = false) ∧
    (∀ (a0 : CmdHdr) (a1 : Nat) (a2 : Option Nat), (Instr.nvmRead a0 a1 65537 a2).wellFormed = false) ∧
    (∀ (a0 : Nat) (a1 : Nat) (a2 : Bool) (a3 : Option Nat), (Instr.nvmWrite badHdr a0 a1 a2 a3).wellFormed = false) ∧
    (∀ (a0 : CmdHdr) (a1 : Nat) (a2 : Bool) (a3 : Option Nat), (Instr.nvmWrite a0 18446744073709551616 a1 a2 a3).wellFormed = false) ∧
    (∀ (a0 : CmdHdr) (a1 : Nat) (a2 : Bool) (a3 : Option Nat), (Instr.nvmWrite a0 a1 65537 a2 a3).wellFormed = false) ∧
    ((Instr.flush badHdr).wellFormed = false) ∧
    (∀ (a0 : Nat) (a1 : Nat), (Instr.compare badHdr a0 a1).wellFormed = false) ∧
    (∀ (a0 : CmdHdr) (a1 : Nat), (Instr.compare a0 18446744073709551616 a1).wellFormed = false) ∧
    (∀ (a0 : CmdHdr) (a1 : Nat), (Instr.compare a0 a1 65537).wellFormed = false) ∧
    (∀ (a0 : Nat) (a1 : Nat), (Instr.writeZeroes badHdr a0 a1).wellFormed = false) ∧
    (∀ (a0 : CmdHdr) (a1 : Nat), (Instr.writeZeroes a0 18446744073709551616 a1).wellFormed = false) ∧
    (∀ (a0 : CmdHdr) (a1 : Nat), (Instr.writeZeroes a0 a1 65537).wellFormed = false) ∧
    (∀ (a0 : Nat) (a1 : Nat), (Instr.writeUncorrectable badHdr a0 a1).wellFormed = false) ∧
    (∀ (a0 : CmdHdr) (a1 : Nat), (Instr.writeUncorrectable a0 18446744073709551616 a1).wellFormed = false) ∧
    (∀ (a0 : CmdHdr) (a1 : Nat), (Instr.writeUncorrectable a0 a1 65537).wellFormed = false) ∧
    (∀ (a0 : Bool) (a1 : List (Nat × Nat)), (Instr.datasetManagement badHdr a0 a1).wellFormed = false) ∧
    (∀ (a0 : Nat) (a1 : Nat), (Instr.verify badHdr a0 a1).wellFormed = false) ∧
    (∀ (a0 : CmdHdr) (a1 : Nat), (Instr.verify a0 18446744073709551616 a1).wellFormed = false) ∧
    (∀ (a0 : CmdHdr) (a1 : Nat), (Instr.verify a0 a1 65537).wellFormed = false) := by
  simp [Instr.wellFormed, badOperands]

/-- Commands from copy to flcResume, one operand beyond its range. -/
theorem ill_formed_5 :
    (∀ (a0 : Nat) (a1 : Nat) (a2 : List (Nat × Nat)), (Instr.copy badHdr a0 a1 a2).wellFormed = false) ∧
    (∀ (a0 : Bytes) (a1 : Nat) (a2 : KvOpts), (Instr.kvStore badHdr a0 a1 a2).wellFormed = false) ∧
    (∀ (a0 : CmdHdr) (a1 : Nat) (a2 : KvOpts), (Instr.kvStore a0 [] a1 a2).wellFormed = false) ∧
    (∀ (a0 : Bytes) (a1 : Nat), (Instr.kvRetrieve badHdr a0 a1).wellFormed = false) ∧
    (∀ (a0 : CmdHdr) (a1 : Nat), (Instr.kvRetrieve a0 [] a1).wellFormed = false) ∧
    (∀ (a0 : Bytes), (Instr.kvDelete badHdr a0).wellFormed = false) ∧
    (∀ (a0 : CmdHdr), (Instr.kvDelete a0 []).wellFormed = false) ∧
    (∀ (a0 : Bytes), (Instr.kvExist badHdr a0).wellFormed = false) ∧
    (∀ (a0 : CmdHdr), (Instr.kvExist a0 []).wellFormed = false) ∧
    (∀ (a0 : Bytes) (a1 : Nat), (Instr.kvList badHdr a0 a1).wellFormed = false) ∧
    (∀ (a0 : Nat) (a1 : Nat) (a2 : Nat) (a3 : Nat), (Instr.executeProgram badHdr a0 a1 a2 a3).wellFormed = false) ∧
    (∀ (a0 : CmdHdr) (a1 : Nat) (a2 : Nat) (a3 : Nat), (Instr.executeProgram a0 65536 a1 a2 a3).wellFormed = false) ∧
    (∀ (a0 : Nat) (a1 : Nat), (Instr.memoryRead badHdr a0 a1).wellFormed = false) ∧
    (∀ (a0 : Nat) (a1 : Nat), (Instr.memoryWrite badHdr a0 a1).wellFormed = false) ∧
    (∀ (a0 : MemCopy), (Instr.memoryCopy badHdr a0).wellFormed = false) ∧
    (∀ (a0 : BitVec 32), (Instr.fence badHdr a0).wellFormed = false) ∧
    (∀ (a0 : Nat), (Instr.rollBackRequest a0 ({ sct := 8, sc := 0, dnr := false })).wellFormed = false) ∧
    ((Instr.arcExport 4097).wellFormed = false) ∧
    (∀ (a0 : BagScan), (Instr.arcImport 4097 a0).wellFormed = false) ∧
    ((Instr.arcAbort 4097).wellFormed = false) ∧
    ((Instr.arcProvenance 4097).wellFormed = false) ∧
    (∀ (a0 : ArcFile), (Instr.arcFileDone 4097 a0).wellFormed = false) ∧
    ((Instr.tierMovePass 4294967296).wellFormed = false) ∧
    ((Instr.sweepDayBoundary 4294967296).wellFormed = false) ∧
    (∀ (a0 : BitVec 32), (Instr.cbdCursorWrite (.prompter 2) a0).wellFormed = false) ∧
    (∀ (a0 : Nat) (a1 : BitVec 32), (Instr.twCbCursorWrite (.prompter 2) a0 a1).wellFormed = false) ∧
    (∀ (a0 : Requester) (a1 : BitVec 32), (Instr.twCbCursorWrite a0 4097 a1).wellFormed = false) ∧
    (∀ (a0 : Nat) (a1 : BitVec 32), (Instr.twTlyPrCursorWrite (.prompter 2) a0 a1).wellFormed = false) ∧
    (∀ (a0 : Requester) (a1 : BitVec 32), (Instr.twTlyPrCursorWrite a0 4097 a1).wellFormed = false) ∧
    ((Instr.platterReclaim 4).wellFormed = false) ∧
    (∀ (a0 : Nat), (Instr.flashReadDone a0 1024).wellFormed = false) ∧
    (∀ (a0 : Bool), (Instr.flashProgramDone 1024 a0).wellFormed = false) ∧
    (∀ (a0 : Bool), (Instr.flashEraseDone 1024 a0).wellFormed = false) ∧
    ((Instr.lunTimeout 1024).wellFormed = false) ∧
    (∀ (a0 : Bool) (a1 : Int), (Instr.channelRetrain 32 a0 a1).wellFormed = false) ∧
    ((Instr.flcEvacuate 4).wellFormed = false) ∧
    ((Instr.flcRemove 4).wellFormed = false) ∧
    (∀ (a0 : Bool) (a1 : DieFacts), (Instr.flcInsert 4 a0 a1).wellFormed = false) ∧
    ((Instr.flcCancel 4).wellFormed = false) ∧
    (∀ (a0 : Bool), (Instr.flcResume 4 a0).wellFormed = false) := by
  simp [Instr.wellFormed, badOperands, Requester.wf, Status.wf, keyLen, userTag]

/-- Commands from angleField to smgRingCtrlWrite, one operand beyond its range. -/
theorem ill_formed_6 :
    (∀ (a0 : AngleField), (Instr.angleField 4 a0).wellFormed = false) ∧
    ((Instr.relockTimeout 4).wellFormed = false) ∧
    (∀ (a0 : ServoField), (Instr.servoField 4 a0).wellFormed = false) ∧
    (∀ (a0 : Nat) (a1 : SyncWindow), (Instr.sectorSync 4 a0 a1).wellFormed = false) ∧
    (∀ (a0 : Nat) (a1 : SyncWindow), (Instr.sectorSync a0 2 a1).wellFormed = false) ∧
    (∀ (a0 : Nat), (Instr.codewordComplete 4 a0).wellFormed = false) ∧
    (∀ (a0 : Nat), (Instr.codewordComplete a0 2).wellFormed = false) ∧
    ((Instr.reservationRelease 55).wellFormed = false) ∧
    ((Instr.reservationRelease 64).wellFormed = false) ∧
    (∀ (a0 : Nat), (Instr.shockCrossing 2 a0).wellFormed = false) ∧
    (∀ (a0 : Nat), (Instr.preampFault 4 a0).wellFormed = false) ∧
    (∀ (a0 : BitVec 16) (a1 : Bool), (Instr.preampFrameDone 4 a0 a1).wellFormed = false) ∧
    ((Instr.rchCalibrateL0 4).wellFormed = false) ∧
    ((Instr.rchCalibrateL1 4).wellFormed = false) ∧
    ((Instr.rchPark 4).wellFormed = false) ∧
    ((Instr.rchResume 4).wellFormed = false) ∧
    ((Instr.rchOffline 4).wellFormed = false) ∧
    (∀ (a0 : Nat) (a1 : Int), (Instr.laneCalibrationDue 4 a0 a1).wellFormed = false) ∧
    (∀ (a0 : Nat) (a1 : Int), (Instr.laneCalibrationDue a0 2 a1).wellFormed = false) ∧
    (∀ (a0 : Nat) (a1 : Bool), (Instr.laneCalibrationDone 4 a0 a1).wellFormed = false) ∧
    (∀ (a0 : Nat) (a1 : Bool), (Instr.laneCalibrationDone a0 2 a1).wellFormed = false) ∧
    (∀ (a0 : BitVec 32), (Instr.rchPaCmd 4 a0).wellFormed = false) ∧
    (∀ (a0 : Option Int), (Instr.sampleBoundary 64 a0).wellFormed = false) ∧
    ((Instr.hopSlotEnable 64).wellFormed = false) ∧
    ((Instr.hopSlotDisable 64).wellFormed = false) ∧
    (∀ (a0 : Bool) (a1 : Bool), (Instr.hopBankRequest 64 a0 a1).wellFormed = false) ∧
    (∀ (a0 : Bool) (a1 : Nat) (a2 : BitVec 32) (a3 : Bool), (Instr.hopCoeffWrite 64 a0 a1 a2 a3).wellFormed = false) ∧
    (∀ (a0 : Nat) (a1 : Bool) (a2 : BitVec 32) (a3 : Bool), (Instr.hopCoeffWrite a0 a1 7 a2 a3).wellFormed = false) ∧
    (∀ (a0 : Nat) (a1 : BitVec 32), (Instr.hopSetpointWrite (.prompter 2) a0 a1).wellFormed = false) ∧
    (∀ (a0 : Requester) (a1 : BitVec 32), (Instr.hopSetpointWrite a0 64 a1).wellFormed = false) ∧
    (∀ (a0 : Nat), (Instr.hopProfileStart 4 a0).wellFormed = false) ∧
    (∀ (a0 : Nat), (Instr.hopProfileStart a0 2048).wellFormed = false) ∧
    ((Instr.hopProfileStop 4).wellFormed = false) ∧
    ((Instr.parkTimeout 4).wellFormed = false) ∧
    (∀ (a0 : Int), (Instr.actuatorLoaded 4 a0).wellFormed = false) ∧
    (∀ (a0 : Nat), (Instr.heaterFrameSend 4 a0).wellFormed = false) ∧
    (∀ (a0 : Nat), (Instr.heaterFrameSend a0 6).wellFormed = false) ∧
    (∀ (a0 : Nat), (Instr.ringTailWrite 16 a0).wellFormed = false) ∧
    (∀ (a0 : Nat), (Instr.ringTailWrite a0 4294967296).wellFormed = false) ∧
    (∀ (a0 : Nat) (a1 : Nat) (a2 : BitVec 32), (Instr.smgRingCtrlWrite (.prompter 2) a0 a1 a2).wellFormed = false) := by
  simp [Instr.wellFormed, Requester.wf]

/-- Commands from smgRingCtrlWrite to twEvtCtrlWrite, one operand beyond its range. -/
theorem ill_formed_7 :
    (∀ (a0 : Requester) (a1 : Nat) (a2 : BitVec 32), (Instr.smgRingCtrlWrite a0 16 a1 a2).wellFormed = false) ∧
    (∀ (a0 : Requester) (a1 : Nat) (a2 : BitVec 32), (Instr.smgRingCtrlWrite a0 a1 3 a2).wellFormed = false) ∧
    ((Instr.batchCreate 16).wellFormed = false) ∧
    (∀ (a0 : Nat), (Instr.taskComplete a0 256).wellFormed = false) ∧
    ((Instr.bobbinWatchdog 96).wellFormed = false) ∧
    (∀ (a0 : Bool), (Instr.bobbinSelftest 104 a0).wellFormed = false) ∧
    ((Instr.asuUpdateStart 32).wellFormed = false) ∧
    (∀ (a0 : Nat) (a1 : BitVec 32), (Instr.twTlyStart 4097 a0 a1).wellFormed = false) ∧
    (∀ (a0 : Nat) (a1 : BitVec 32), (Instr.twTlyStart a0 4 a1).wellFormed = false) ∧
    (∀ (a0 : Nat), (Instr.twTlyAbort 4097 a0).wellFormed = false) ∧
    (∀ (a0 : Nat), (Instr.twTlyAbort a0 4).wellFormed = false) ∧
    (∀ (a0 : Nat) (a1 : Nat) (a2 : BitVec 32), (Instr.twTlyDataHi (.prompter 2) a0 a1 a2).wellFormed = false) ∧
    (∀ (a0 : Requester) (a1 : Nat) (a2 : BitVec 32), (Instr.twTlyDataHi a0 4097 a1 a2).wellFormed = false) ∧
    (∀ (a0 : Requester) (a1 : Nat) (a2 : BitVec 32), (Instr.twTlyDataHi a0 a1 4 a2).wellFormed = false) ∧
    (∀ (a0 : Nat) (a1 : Nat), (Instr.twTlyLastVb 4097 a0 a1).wellFormed = false) ∧
    (∀ (a0 : Nat) (a1 : Nat), (Instr.twTlyLastVb a0 4 a1).wellFormed = false) ∧
    (∀ (a0 : Nat), (Instr.tallyStreamIdle 4097 a0).wellFormed = false) ∧
    (∀ (a0 : Nat), (Instr.tallyStreamIdle a0 4).wellFormed = false) ∧
    ((Instr.counterBlockOnFlash 8192).wellFormed = false) ∧
    (∀ (a0 : Nat), (Instr.twKeyDeriveMac 4097 a0).wellFormed = false) ∧
    (∀ (a0 : Nat), (Instr.twKeyDeriveCmac 4097 a0).wellFormed = false) ∧
    ((Instr.twKeyErase 4097).wellFormed = false) ∧
    (∀ (a0 : Nat), (Instr.tamperAlarm 5 a0).wellFormed = false) ∧
    (∀ (a0 : BitVec 32) (a1 : BitVec 32), (Instr.meshCheck 4 a0 a1).wellFormed = false) ∧
    ((Instr.tdBypass 256).wellFormed = false) ∧
    (∀ (a0 : Nat) (a1 : Bytes), (Instr.dramWrite a0 1 a1).wellFormed = false) ∧
    (∀ (a0 : Nat) (a1 : Nat) (a2 : Bool), (Instr.refreshDue 4 a0 a1 a2).wellFormed = false) ∧
    (∀ (a0 : Nat) (a1 : Nat) (a2 : Bool), (Instr.refreshDue a0 2 a1 a2).wellFormed = false) ∧
    (∀ (a0 : Nat) (a1 : Nat) (a2 : Bool), (Instr.refreshDue a0 a1 32 a2).wellFormed = false) ∧
    (∀ (a0 : Nat) (a1 : Nat) (a2 : Nat), (Instr.rankRateRead 4 a0 a1 a2).wellFormed = false) ∧
    (∀ (a0 : Nat) (a1 : Nat) (a2 : Nat), (Instr.rankRateRead a0 2 a1 a2).wellFormed = false) ∧
    ((Instr.idleSelfRefresh 4).wellFormed = false) ∧
    ((Instr.dmcRetire 4).wellFormed = false) ∧
    ((Instr.eventRaise badEvent).wellFormed = false) ∧
    (∀ (a0 : Nat), (Instr.samplerPageProgrammed 2 a0).wellFormed = false) ∧
    (∀ (a0 : BitVec 32), (Instr.smpCursorWrite (.prompter 2) a0).wellFormed = false) ∧
    (∀ (a0 : Nat) (a1 : BitVec 32), (Instr.twSmpCursorWrite (.prompter 2) a0 a1).wellFormed = false) ∧
    (∀ (a0 : Requester) (a1 : BitVec 32), (Instr.twSmpCursorWrite a0 4097 a1).wellFormed = false) ∧
    (∀ (a0 : Nat) (a1 : BitVec 32), (Instr.twEvtCtrlWrite 65536 a0 a1).wellFormed = false) ∧
    (∀ (a0 : Nat) (a1 : BitVec 32), (Instr.twEvtCtrlWrite 1025 a0 a1).wellFormed = false) := by
  simp [Instr.wellFormed, badOperands, Requester.wf, userTag]

/-- Commands from twEvtCtrlWrite to writeRunEnd, one operand beyond its range. -/
theorem ill_formed_8 :
    (∀ (a0 : Nat) (a1 : BitVec 32), (Instr.twEvtCtrlWrite a0 4097 a1).wellFormed = false) ∧
    ((Instr.rehearsalStepStart 9).wellFormed = false) ∧
    (∀ (a0 : StepFacts), (Instr.rehearsalStepDone 9 a0).wellFormed = false) ∧
    ((Instr.actuatorLoadDeadline 4).wellFormed = false) ∧
    (∀ (a0 : Nat), (Instr.railOutOfTolerance 11 a0).wellFormed = false) ∧
    ((Instr.writeRunEnd 4).wellFormed = false) := by
  simp [Instr.wellFormed, userTag]

/-- Lists beyond their length. -/
theorem ill_formed_lengths :
    (∀ (a0 : Nat) (l : List (BitVec 32)), 16384 < l.length → (Instr.prkApertureWrite a0 l).wellFormed = false) ∧
    (∀ (a0 : CmdHdr) (a1 : Bool) (a2 : Nat) (l : List (Nat × Nat)), 256 < l.length → (Instr.memoryRangeSetManagement a0 a1 a2 l).wellFormed = false) ∧
    (∀ (a0 : CmdHdr) (a1 : Bool) (l : List (Nat × Nat)), 256 < l.length → (Instr.datasetManagement a0 a1 l).wellFormed = false) ∧
    (∀ (a0 : CmdHdr) (a1 : Nat) (a2 : Nat) (l : List (Nat × Nat)), 256 < l.length → (Instr.copy a0 a1 a2 l).wellFormed = false) ∧
    (∀ (a0 : CmdHdr) (a1 : Nat) (l : Bytes), 16 < l.length → (Instr.kvList a0 l a1).wellFormed = false) ∧
    (∀ (a0 : Nat) (a1 : Nat) (l : Bytes), l.length ≠ 64 → (Instr.dramWrite a0 a1 l).wellFormed = false) ∧
    (∀ (a0 : Nat) (a1 : Nat) (a2 : List (Nat × BitVec 80)) (a3 : DramUse) (l : Bytes), 64 < l.length → (Instr.mergeWrite a0 a1 l a2 a3).wellFormed = false) ∧
    (∀ (l : List Int), l.length ≠ 8 → (Instr.temperatureSample l).wellFormed = false) := by
  refine ⟨?_, ?_, ?_, ?_, ?_, ?_, ?_, ?_⟩ <;> intros <;> simp [Instr.wellFormed] <;> omega

end Sys2Proof.Tests
end

/-! Window accesses by their width (R9) and at an offset that holds no register (R11). -/
namespace Sys2Proof.Machine

theorem exec_readClear (q : Requester) (w : Window) (off size upd : Nat) (s : State) :
    exec (.readClear q w off size upd) s = .next (doReadClear q w off size upd s) := rfl

theorem exec_registerWrite (q : Requester) (w : Window) (off size : Nat) (v : BitVec 64) (s : State) :
    exec (.registerWrite q w off size v) s = .next (writeWindow q w off size v.toNat s) := rfl

/-! ### One register -/

section NoRegister
variable {w : Window} {o : Nat} (h : regRow w o = none)
include h

theorem readReg_of_noRegister (q : Requester) (upd : Nat) (s : State) : readReg q w o upd s = (0, s) := by
  unfold readReg
  split
  · rfl
  · rw [h]

theorem writeReg_of_noRegister (q : Requester) (v : W32) (s : State) : writeReg q w o v s = s := by
  unfold writeReg
  split
  · rfl
  · rw [h]

end NoRegister

/-! ### Accesses by their words (R9) -/

theorem readSplit_word (word : Nat → State → Nat × State) {off : Nat} (h : off % 4 = 0) (s : State) :
    readSplit word off 4 s = ((word off s).1 % 2 ^ 32, (word off s).2) := by
  have hoff : off / 4 * 4 = off := by omega
  simp [readSplit, h, hoff]

theorem readSplit_pair (word : Nat → State → Nat × State) {off : Nat} (h : off % 8 = 0) (s : State) :
    readSplit word off 8 s =
      ((word off s).1 + (word (off + 4) (word off s).2).1 * 2 ^ 32, (word (off + 4) (word off s).2).2) := by
  simp [readSplit, h]

theorem writeSplit_word (word : Nat → W32 → State → State) {off : Nat} (h : off % 4 = 0) (val : Nat) (s : State) :
    writeSplit word off 4 val s = word off (BitVec.ofNat 32 val) s := by
  simp [writeSplit, h]

theorem writeSplit_pair (word : Nat → W32 → State → State) {off : Nat} (h : off % 8 = 0) (val : Nat) (s : State) :
    writeSplit word off 8 val s =
      word (off + 4) (BitVec.ofNat 32 (val / 2 ^ 32)) (word off (BitVec.ofNat 32 val) s) := by
  simp [writeSplit, h]

/-! ### Accesses to no register (R11) -/

/-- An access that reads zero and leaves the state alone changes what the bus returned and nothing else. -/
theorem doReadClear_of_readWindow_zero {q : Requester} {w : Window} {off size upd : Nat} {s : State}
    (h : readWindow q w off size upd s = (0, s)) :
    doReadClear q w off size upd s = { s with bus := { s.bus with readData := 0, readSize := size } } := by
  simp [doReadClear, h, returnRead]

theorem readWindow_word_of_noRegister {w : Window} {off : Nat} (ha : off % 4 = 0) (h : regRow w off = none)
    (q : Requester) (upd : Nat) (s : State) : readWindow q w off 4 upd s = (0, s) := by
  rw [readWindow, readSplit_word _ ha, readReg_of_noRegister h, Nat.zero_mod]

theorem readWindow_pair_of_noRegister {w : Window} {off : Nat} (ha : off % 8 = 0) (hlo : regRow w off = none)
    (hhi : regRow w (off + 4) = none) (q : Requester) (upd : Nat) (s : State) : readWindow q w off 8 upd s = (0, s) := by
  rw [readWindow, readSplit_pair _ ha, readReg_of_noRegister hlo, readReg_of_noRegister hhi, Nat.zero_mul]

theorem writeWindow_word_of_noRegister {w : Window} {off : Nat} (ha : off % 4 = 0) (h : regRow w off = none)
    (q : Requester) (val : Nat) (s : State) : writeWindow q w off 4 val s = s := by
  rw [writeWindow, writeSplit_word _ ha, writeReg_of_noRegister h]

theorem writeWindow_pair_of_noRegister {w : Window} {off : Nat} (ha : off % 8 = 0) (hlo : regRow w off = none)
    (hhi : regRow w (off + 4) = none) (q : Requester) (val : Nat) (s : State) : writeWindow q w off 8 val s = s := by
  rw [writeWindow, writeSplit_pair _ ha, writeReg_of_noRegister hlo, writeReg_of_noRegister hhi]

/-- Settles O9: each word of the access finds no row in the register table, so the read returns zero and the write is discarded. -/
theorem noRegisterNoEffect : Obligations.NoRegisterNoEffect := by
  unfold Obligations.NoRegisterNoEffect
  intro q w off upd v s haligned hnone
  simp only [exec_readClear, exec_registerWrite]
  refine ⟨?readWord, ?writeWord, fun haligned8 hhigh => ⟨?readPair, ?writePair⟩⟩
  case readWord =>
    rw [doReadClear_of_readWindow_zero (readWindow_word_of_noRegister haligned hnone q upd s)]
  case writeWord =>
    rw [writeWindow_word_of_noRegister haligned hnone]
  case readPair =>
    rw [doReadClear_of_readWindow_zero (readWindow_pair_of_noRegister haligned8 hnone hhigh q upd s)]
  case writePair =>
    rw [writeWindow_pair_of_noRegister haligned8 hnone hhigh]

end Sys2Proof.Machine

/-! The loader takes one command at a time (R46), and a load or a STORE can be abandoned (R42-R44). -/
namespace Sys2Proof.Machine

theorem exec_prkVerify (ap : Bool) (img : PrkImage) (s : State) :
    exec (.prkVerify ap img) s = .next (loaderCmd .verify 1 ap img s) := rfl

theorem exec_prkApply (ap : Bool) (img : PrkImage) (s : State) :
    exec (.prkApply ap img) s = .next (loaderCmd .apply 2 ap img s) := rfl

theorem exec_prkStore (ap : Bool) (img : PrkImage) (s : State) :
    exec (.prkStore ap img) s = .next (loaderCmd .store 3 ap img s) := rfl

theorem exec_prkAbort (s : State) : exec .prkAbort s = .next (doPrkAbort s) := rfl

theorem exec_drainLimitExpiry (s : State) : exec .drainLimitExpiry s = .next (doDrainLimitExpiry s) := rfl

/-! ### Commands while the loader is busy, and while it is idle (R46) -/

section Writable
variable {s : State} (hw : writable s false = true)
include hw

theorem loaderCmd_verify_of_busy (hb : s.prk.phase ≠ .idle) (code : Nat) (ap : Bool) (img : PrkImage) :
    loaderCmd .verify code ap img s = s := by
  simp [loaderCmd, hw, hb]

theorem loaderCmd_of_busy {k : PrkCmd} (hk : k ≠ .verify) (hb : s.prk.phase ≠ .idle) (code : Nat) (ap : Bool) (img : PrkImage) :
    loaderCmd k code ap img s = raise 420 0x21 code s.prk.phase.code 0 { s with prk := { s.prk with err := 0x21 } } := by
  simp [loaderCmd, hw, hb, hk, onPrk]

theorem doPrkAbort_of_busy (hb : s.prk.phase ≠ .idle) : doPrkAbort s = abandonLoad 0x23 0x23 s := by
  simp [doPrkAbort, hw, hb]

end Writable

/-- The loader's state once it has accepted command `k`: the last command's outcome is cleared. -/
def PrkState.accepting (k : PrkCmd) (p : PrkState) : PrkState :=
  { p with err := 0, late := false, passed := false, doneBeforeAbort := false, took := false, cmd := some k, storeSerial := 0 }

section Accepted
variable {s : State} (hw : writable s false = true) (hi : s.prk.phase = .idle)
include hw hi

theorem loaderCmd_fetch_of_idle (k : PrkCmd) (code : Nat) (img : PrkImage) :
    loaderCmd k code false img s = { s with prk := { s.prk.accepting k with phase := .fetching } } := by
  simp [loaderCmd, hw, hi, onPrk, PrkState.accepting]

/-- The image is read from the aperture's buffer, which accepting a command leaves alone. -/
theorem loaderCmd_aperture_of_idle (k : PrkCmd) (code : Nat) (img : PrkImage) :
    loaderCmd k code true img s =
      checkImage (s.apertureImage img) { s with prk := { s.prk.accepting k with phase := .checking } } := by
  simp only [loaderCmd, hw, hi]
  rfl

end Accepted

/-- Settles O14: what the loader does with each command, by whether it is busy. -/
theorem loaderTakesOneCommand : Obligations.LoaderTakesOneCommand := by
  unfold Obligations.LoaderTakesOneCommand
  refine ⟨fun ap img s hw hb => ⟨?verify, ?apply, ?store, ?abort⟩, fun k img s hw hi => ?accepted⟩
  case verify => rw [exec_prkVerify, loaderCmd_verify_of_busy hw hb]
  case apply => rw [exec_prkApply, loaderCmd_of_busy hw (by decide) hb]
  case store => rw [exec_prkStore, loaderCmd_of_busy hw (by decide) hb]
  case abort => rw [exec_prkAbort, doPrkAbort_of_busy hw hb]
  case accepted =>
    have hfetch := loaderCmd_fetch_of_idle hw hi k
    have haperture := loaderCmd_aperture_of_idle hw hi k
    cases k with
    | verify => exact ⟨congrArg _ (hfetch 1 img), congrArg _ (haperture 1 img)⟩
    | apply => exact ⟨congrArg _ (hfetch 2 img), congrArg _ (haperture 2 img)⟩
    | store => exact ⟨congrArg _ (hfetch 3 img), congrArg _ (haperture 3 img)⟩

/-! ### Abandoning (R42-R44) -/

/-- The loader's state once it has abandoned what it was doing: a boot slot that was being written holds nothing. -/
def PrkState.abandoned (err : Nat) (p : PrkState) : PrkState :=
  { p with
    err := err, phase := .idle, cmd := none, intermission := [], undrained := [], pendingCfg := none, storeImage := none
    slot0 := if p.phase = .storing ∧ p.activeSlot ≠ 0 then none else p.slot0
    slot1 := if p.phase = .storing ∧ p.activeSlot = 0 then none else p.slot1 }

/-- Unless a STORE was writing its slot, both boot slots stay. -/
theorem PrkState.abandoned_of_not_storing (err : Nat) {p : PrkState} (h : p.phase ≠ .storing) :
    p.abandoned err = { p with
      err := err, phase := .idle, cmd := none, intermission := [], undrained := [], pendingCfg := none, storeImage := none } := by
  simp [PrkState.abandoned, h]

/-- The state after EV418: the load is abandoned and recorded, and no cue for its effect is left; nothing else has gone on yet. -/
def abandonRecorded (err code : Nat) (s : State) : State :=
  let t := raise 418 code s.prk.loadTouch s.prk.storeSerial 0 { s with prk := s.prk.abandoned err }
  { t with cue := { t.cue with slots := t.cue.slots.filter (fun k => k.2.action != .prkApply) } }

theorem abandonLoad_eq_goOn (err code : Nat) (s : State) : abandonLoad err code s = goOn (abandonRecorded err code s) := rfl

theorem abandonRecorded_evt (err code : Nat) (s : State) :
    (abandonRecorded err code s).evt =
      (raise 418 code s.prk.loadTouch s.prk.storeSerial 0 { s with prk := s.prk.abandoned err }).evt := rfl

/-! ### The drain's limit (R42) -/

theorem doDrainLimitExpiry_of_early {s : State} (h : s.wall < s.prk.drainStart + s.reg 0x100030 2000 * 1000000) :
    doDrainLimitExpiry s = s :=
  if_neg fun hexpired => Nat.not_le.mpr h hexpired.2

theorem doDrainLimitExpiry_of_expired {s : State} (hp : s.prk.phase = .draining)
    (h : s.prk.drainStart + s.reg 0x100030 2000 * 1000000 ≤ s.wall) : doDrainLimitExpiry s = abandonLoad 0x20 0x20 s :=
  if_pos ⟨hp, h⟩

/-- Settles O16: past its limit a drain is abandoned, and as no STORE is under way both boot slots stay. -/
theorem drainLimitAbandonsTheLoad : Obligations.DrainLimitAbandonsTheLoad := by
  unfold Obligations.DrainLimitAbandonsTheLoad
  intro s hdraining
  have habandoned := PrkState.abandoned_of_not_storing 0x20 (p := s.prk) (by rw [hdraining]; decide)
  refine ⟨fun hearly => ?early, fun hexpired => ⟨abandonLoad 0x20 0x20 s, abandonRecorded 0x20 0x20 s, ?next, ?prk, ?goesOn, ?record⟩⟩
  case early => rw [exec_drainLimitExpiry, doDrainLimitExpiry_of_early hearly]
  case next => rw [exec_drainLimitExpiry, doDrainLimitExpiry_of_expired hdraining hexpired]
  case prk => exact (abandonLoad_prk 0x20 0x20 s).trans habandoned
  case goesOn => exact abandonLoad_eq_goOn 0x20 0x20 s
  case record => rw [abandonRecorded_evt, habandoned]

end Sys2Proof.Machine

/-! What the word code corrects and detects (R432). -/
namespace Sys2Proof.Machine

/-! ### The stored word -/

/-- A stored word's data bits and its poison bit. -/
theorem encodeWord_fields (d : Nat) (p : Bool) (h : d < 2 ^ 64) :
    (encodeWord d p).toNat % 2 ^ 64 = d ∧ (encodeWord d p).toNat.testBit 64 = p := by
  cases p with
  | false => exact encodeWord_data d h
  | true => exact encodeWord_pdata d h

/-- The check bits stand above the information bits. -/
theorem encodeWord_div (d : Nat) (p : Bool) (h : d < 2 ^ 64) :
    (encodeWord d p).toNat / 2 ^ 65 = checkBits (d + if p then 2 ^ 64 else 0) := by
  have hflag : flag p 64 = if p then 2 ^ 64 else 0 := rfl
  have hu : (d + if p then 2 ^ 64 else 0) < 2 ^ 65 := by split <;> omega
  rw [encodeWord_toNat, hflag, Nat.mod_eq_of_lt h, Nat.add_mul_div_right _ _ (by decide), Nat.div_eq_of_lt hu, Nat.zero_add]

/-! ### Wrong bits -/

theorem flipBits_xor (v w : BitVec 80) (l : List Nat) : flipBits (v ^^^ w) l = v ^^^ flipBits w l := by
  induction l generalizing w with
  | nil => rfl
  | cons b l ih => exact (congrArg (flipBits · l) (BitVec.xor_assoc ..)).trans (ih _)

/-- Flipping the same bits again gives the word back. -/
theorem flipBits_flipBits (w : BitVec 80) (l : List Nat) : flipBits (flipBits w l) l = w := by
  have hmask : ∀ v, flipBits v l = v ^^^ flipBits 0#80 l := fun v => by rw [← flipBits_xor, BitVec.xor_zero]
  rw [hmask (flipBits w l), hmask w, BitVec.xor_assoc, BitVec.xor_self, BitVec.xor_zero]

/-- A code word's syndrome is zero, so wrong bits leave their own. -/
theorem syndrome_flipBits_encodeWord (d : Nat) (p : Bool) (l : List Nat) :
    syndrome (flipBits (encodeWord d p) l) = errorsSyndrome l := by
  rw [syndrome_flipBits, syndrome_encodeWord, Nat.zero_xor]

/-! ### Decoding -/

/-- The pattern that decoding takes for a syndrome is the one of at most two wrong bits that leaves it. -/
theorem foundBits_eq_some_iff {r : Nat} {l : List Nat} :
    (if r = 0 then some [] else errorBits r) = some l ↔ FewErrors l ∧ errorsSyndrome l = r := by
  constructor
  · intro h
    split at h
    case isTrue hr =>
      cases h
      exact ⟨fewErrors_nil, hr.symm⟩
    case isFalse =>
      obtain ⟨hfew, -, hsyn⟩ := errorBits_sound h
      exact ⟨hfew, hsyn⟩
  · rintro ⟨hfew, rfl⟩
    by_cases hl : l = []
    · subst hl; rfl
    · rw [if_neg (errorsSyndrome_ne_zero hfew hl), errorBits_of hfew hl]

theorem decodeWord_of_fewErrors {w : BitVec 80} {l : List Nat} (hfew : FewErrors l) (hsyn : syndrome w = errorsSyndrome l) :
    decodeWord w = { kind := if (flipBits w l).toNat.testBit 64 then .poisoned else if l = [] then .clean else .corrected
                     data := (flipBits w l).toNat % 2 ^ 64, fixed := l } := by
  have hfound := foundBits_eq_some_iff.mpr ⟨hfew, hsyn.symm⟩
  simp only [decodeWord, hfound]
  cases (flipBits w l).toNat.testBit 64 with
  | true => rfl
  | false => cases l <;> rfl

theorem decodeWord_of_noFewErrors {w : BitVec 80} (h : ∀ l, FewErrors l → syndrome w ≠ errorsSyndrome l) :
    decodeWord w = { kind := .uncorrectable, data := w.toNat % 2 ^ 64, fixed := [] } := by
  have hfound : (if syndrome w = 0 then some [] else errorBits (syndrome w)) = none :=
    Option.eq_none_iff_forall_ne_some.mpr fun l hl =>
      have ⟨hfew, hsyn⟩ := foundBits_eq_some_iff.mp hl
      h l hfew hsyn.symm
  simp only [decodeWord, hfound]

/-! ### Three wrong bits -/

/-- A remainder's value at x = 1: whether it has an odd number of terms. -/
def oddWeight (v : Nat) : Bool := (List.range 15).foldl (fun r i => r ^^ v.testBit i) false

theorem oddWeight_xor (v w : Nat) : oddWeight (v ^^^ w) = (oddWeight v ^^ oddWeight w) := by
  have hfold : ∀ (l : List Nat) (r r' : Bool), l.foldl (fun r i => r ^^ (v ^^^ w).testBit i) (r ^^ r') =
      (l.foldl (fun r i => r ^^ v.testBit i) r ^^ l.foldl (fun r i => r ^^ w.testBit i) r') := by
    intro l
    induction l with
    | nil => exact fun _ _ => rfl
    | cons i l ih =>
      intro r r'
      have hstep : (r ^^ r' ^^ (v ^^^ w).testBit i) = ((r ^^ v.testBit i) ^^ (r' ^^ w.testBit i)) := by
        rw [Nat.testBit_xor, Bool.xor_assoc, Bool.xor_assoc, Bool.xor_left_comm r']
      rw [List.foldl_cons, hstep]
      exact ih _ _
  exact hfold (List.range 15) false false

/-- x + 1 divides the generator, so one wrong bit leaves a syndrome of odd weight. -/
theorem oddWeight_errSyndrome {b : Nat} (hb : b < 80) : oddWeight (errSyndrome b) = true := by
  have hodd : ∀ v ∈ errTable, oddWeight v = true := by
    rw [errTable_eq]
    decide +kernel
  exact hodd _ (List.mem_map.mpr ⟨b, List.mem_range.mpr hb, rfl⟩)

/-- The parity of the wrong bits' number shows in their syndrome. -/
theorem oddWeight_errorsSyndrome {l : List Nat} (hl : ∀ b ∈ l, b < 80) :
    oddWeight (errorsSyndrome l) = decide (l.length % 2 = 1) := by
  have hfold : ∀ r, oddWeight (l.foldl (fun r b => r ^^^ errSyndrome b) r) = (oddWeight r ^^ decide (l.length % 2 = 1)) := by
    induction l with
    | nil => exact fun r => (Bool.xor_false _).symm
    | cons b l ih =>
      obtain ⟨hb, hrest⟩ := List.forall_mem_cons.mp hl
      intro r
      have hsucc : decide ((b :: l).length % 2 = 1) = !decide (l.length % 2 = 1) := by
        rw [← decide_not, List.length_cons, decide_eq_decide]
        omega
      rw [List.foldl_cons, ih hrest, oddWeight_xor, oddWeight_errSyndrome hb, hsucc, Bool.xor_assoc, Bool.true_xor]
  rw [errorsSyndrome, hfold]
  exact Bool.false_xor _

/-- At most two wrong bits that leave the syndrome of three are a single one, by parity. -/
theorem eq_singleton_of_errorsSyndrome_eq {a b c : Nat} {l : List Nat} (hbits : ∀ x ∈ [a, b, c], x < 80) (hfew : FewErrors l)
    (h : errorsSyndrome [a, b, c] = errorsSyndrome l) : ∃ e, l = [e] := by
  obtain ⟨hlen, -, hl⟩ := hfew
  have hodd : decide (l.length % 2 = 1) = true := by
    rw [← oddWeight_errorsSyndrome hl, ← h, oddWeight_errorsSyndrome hbits]
    have hthree : [a, b, c].length = 3 := rfl
    exact decide_eq_true (by omega)
  have hmod := of_decide_eq_true hodd
  exact List.length_eq_one_iff.mp (by omega)

theorem fewErrors_pair {a b : Nat} (hab : a < b) (hb : b < 80) : FewErrors [a, b] :=
  ⟨Nat.le_refl 2, List.pairwise_pair.mpr hab, List.forall_mem_cons.mpr ⟨Nat.lt_trans hab hb, List.forall_mem_singleton.mpr hb⟩⟩

theorem errorsSyndrome_singleton (a : Nat) : errorsSyndrome [a] = errSyndrome a := Nat.zero_xor _

theorem errorsSyndrome_pair (a b : Nat) : errorsSyndrome [a, b] = errSyndrome a ^^^ errSyndrome b :=
  congrArg (· ^^^ errSyndrome b) (errorsSyndrome_singleton a)

theorem errorsSyndrome_triple (a b c : Nat) : errorsSyndrome [a, b, c] = errorsSyndrome [a, b] ^^^ errSyndrome c := rfl

/-- The syndrome of three wrong bits is not that of at most two: a single bit `e` with that of `a`, `b` and `c` would give `a` and `b`
the syndrome of `c` and `e`. -/
theorem errorsSyndrome_triple_ne {a b c : Nat} (hab : a < b) (hbc : b < c) (hc : c < 80) {l : List Nat} (hfew : FewErrors l) :
    errorsSyndrome [a, b, c] ≠ errorsSyndrome l := by
  intro h
  have hb := Nat.lt_trans hbc hc
  have hfewab := fewErrors_pair hab hb
  have habc : ∀ x ∈ [a, b, c], x < 80 :=
    List.forall_mem_cons.mpr ⟨Nat.lt_trans hab hb, List.forall_mem_cons.mpr ⟨hb, List.forall_mem_singleton.mpr hc⟩⟩
  obtain ⟨e, rfl⟩ := eq_singleton_of_errorsSyndrome_eq habc hfew h
  obtain ⟨-, -, hbits⟩ := hfew
  have he : e < 80 := hbits e (List.mem_singleton_self e)
  have hpair : errorsSyndrome [a, b] = errSyndrome c ^^^ errSyndrome e := by
    rw [← errorsSyndrome_singleton e, ← h, errorsSyndrome_triple, Nat.xor_comm (errorsSyndrome [a, b]), ← Nat.xor_assoc,
      Nat.xor_self, Nat.zero_xor]
  rcases Nat.lt_trichotomy c e with hce | rfl | hec
  · rw [← errorsSyndrome_pair] at hpair
    have hsame := errorsSyndrome_inj hfewab (fewErrors_pair hce he) hpair
    simp only [List.cons.injEq] at hsame
    omega
  · rw [Nat.xor_self] at hpair
    exact errorsSyndrome_ne_zero hfewab (List.cons_ne_nil _ _) hpair
  · rw [Nat.xor_comm, ← errorsSyndrome_pair] at hpair
    have hsame := errorsSyndrome_inj hfewab (fewErrors_pair hec hc) hpair
    simp only [List.cons.injEq] at hsame
    omega

/-- Settles O51: up to two wrong bits are the only ones of their syndrome, and by parity no such pattern has the syndrome of three. -/
theorem wordCodeCorrectsTwoBits : Obligations.WordCodeCorrectsTwoBits := by
  unfold Obligations.WordCodeCorrectsTwoBits
  refine ⟨?generator, ?stored, ?found, ?notFound, ?corrects, ?detects⟩
  case generator => exact ⟨_, 17601, rfl, by decide, by decide⟩
  case stored =>
    intro d p hd
    obtain ⟨hdata, hpoison⟩ := encodeWord_fields d p hd
    exact ⟨hdata, hpoison, encodeWord_div d p hd, syndrome_encodeWord d p⟩
  case found => exact fun _ _ => decodeWord_of_fewErrors
  case notFound => exact fun _ => decodeWord_of_noFewErrors
  case corrects =>
    intro d p l hd hfew
    obtain ⟨hdata, hpoison⟩ := encodeWord_fields d p hd
    rw [decodeWord_of_fewErrors hfew (syndrome_flipBits_encodeWord d p l), flipBits_flipBits, hdata, hpoison]
  case detects =>
    intro d p a b c hab hbc hc
    rw [decodeWord_of_noFewErrors]
    intro l hfew
    rw [syndrome_flipBits_encodeWord]
    exact errorsSyndrome_triple_ne hab hbc hc hfew

end Sys2Proof.Machine

/-! What one command leaves alone, what every step keeps, and the table of states (R4, R36, R466, R476, R485). -/
namespace Sys2Proof.Machine

/-! ### Every command's frame -/

/-- The parts that a command may change: those that `mayChange` names, but for a doorbell write all that it lets go on as well. -/
def mayReachPart : Instr → List Part
  | .doorbellWrite .. => [.free, .out, .bus, .evt, .cue, .hfe, .scn, .obj, .trl, .flc, .smg, .bob, .tly, .scr, .slm]
  | c => mayChange c

/-- A command keeps to the parts of its frame, and nothing falls back. -/
theorem exec_within : ∀ (c : Instr) {s t : State}, exec c s = .next t → Within (mayReachPart c) s t
  | .registerWrite .., _, _, h => execRegisterWrite_within h
  | .lowWordWrite .., _, _, h => execLowWordWrite_within h
  | .highWordWrite .., _, _, h => execHighWordWrite_within h
  | .lowWordRead .., _, _, h => execLowWordRead_within h
  | .highWordRead .., _, _, h => execHighWordRead_within h
  | .readClear .., _, _, h => execReadClear_within h
  | .groundTransaction .., _, _, h => execGroundTransaction_within h
  | .prkVerify .., _, _, h => execPrkVerify_within h
  | .prkApply .., _, _, h => execPrkApply_within h
  | .prkStore .., _, _, h => execPrkStore_within h
  | .prkAbort, _, _, h => execPrkAbort_within h
  | .prkImageFetched .., _, _, h => execPrkImageFetched_within h
  | .prkApertureWrite .., _, _, h => execPrkApertureWrite_within h
  | .intermissionDrained .., _, _, h => execIntermissionDrained_within h
  | .drainLimitExpiry, _, _, h => execDrainLimitExpiry_within h
  | .storeSlotWritten .., _, _, h => execStoreSlotWritten_within h
  | .prickingBootLoad .., _, _, h => execPrickingBootLoad_within h
  | .clkGateReqWrite .., _, _, h => execClkGateReqWrite_within h
  | .clockDomainStop .., _, _, h => execClockDomainStop_within h
  | .clockDomainStart .., _, _, h => execClockDomainStart_within h
  | .refclkMeterInterval .., _, _, h => execRefclkMeterInterval_within h
  | .clockAlarm .., _, _, h => execClockAlarm_within h
  | .cueStepWrite .., _, _, h => execCueStepWrite_within h
  | .cueBroadcast .., _, _, h => execCueBroadcast_within h
  | .tapSkewMeasure .., _, _, h => execTapSkewMeasure_within h
  | .cueCalCtrl .., _, _, h => execCueCalCtrl_within h
  | .cueCtrlWrite .., _, _, h => execCueCtrlWrite_within h
  | .cueRateAdjWrite .., _, _, h => execCueRateAdjWrite_within h
  | .ptpEventMessage .., _, _, h => execPtpEventMessage_within h
  | .ptmResponse .., _, _, h => execPtmResponse_within h
  | .disciplineSourceLost, _, _, h => execDisciplineSourceLost_within h
  | .cuePost .., _, _, h => execCuePost_within h
  | .cueArm .., _, _, h => execCueArm_within h
  | .cueFire .., _, _, h => execCueFire_within h
  | .cueCancel .., _, _, h => execCueCancel_within h
  | .cancelArrival .., _, _, h => execCancelArrival_within h
  | .cuePostCmd .., _, _, h => execCuePostCmd_within h
  | .cueCancelWrite .., _, _, h => execCueCancelWrite_within h
  | .beatBoundary, _, _, h => execBeatBoundary_within h
  | .pcieTlp .., _, _, h => execPcieTlp_within h
  | .doorbellWrite .., _, _, h => execDoorbellWrite_within h
  | .pcieCompletion .., _, _, h => execPcieCompletion_within h
  | .completionTimeout .., _, _, h => execCompletionTimeout_within h
  | .doeObject .., _, _, h => execDoeObject_within h
  | .pcieLinkUp .., _, _, h => execPcieLinkUp_within h
  | .pcieLinkDown .., _, _, h => execPcieLinkDown_within h
  | .flr .., _, _, h => execFlr_within h
  | .vfEnableChange .., _, _, h => execVfEnableChange_within h
  | .controllerEnable .., _, _, h => execControllerEnable_within h
  | .controllerDisable .., _, _, h => execControllerDisable_within h
  | .ethFrame .., _, _, h => execEthFrame_within h
  | .pauseFrame .., _, _, h => execPauseFrame_within h
  | .cnpReceived .., _, _, h => execCnpReceived_within h
  | .rateRecoveryStep .., _, _, h => execRateRecoveryStep_within h
  | .ethLinkUp .., _, _, h => execEthLinkUp_within h
  | .logicalPortDown .., _, _, h => execLogicalPortDown_within h
  | .tcpIcreq .., _, _, h => execTcpIcreq_within h
  | .tcpCapsule .., _, _, h => execTcpCapsule_within h
  | .h2cData .., _, _, h => execH2cData_within h
  | .tcpConnectionLoss .., _, _, h => execTcpConnectionLoss_within h
  | .tlsHandshake .., _, _, h => execTlsHandshake_within h
  | .tlsRecord .., _, _, h => execTlsRecord_within h
  | .tlsKeyUpdateDue .., _, _, h => execTlsKeyUpdateDue_within h
  | .connect .., _, _, h => execConnect_within h
  | .connectAdmitted .., _, _, h => execConnectAdmitted_within h
  | .invalidHostClose .., _, _, h => execInvalidHostClose_within h
  | .disconnect .., _, _, h => execDisconnect_within h
  | .keepAliveExpiry .., _, _, h => execKeepAliveExpiry_within h
  | .rdmaSend .., _, _, h => execRdmaSend_within h
  | .rdmaReadResponse .., _, _, h => execRdmaReadResponse_within h
  | .rdmaNak .., _, _, h => execRdmaNak_within h
  | .rdmaInboundAccess .., _, _, h => execRdmaInboundAccess_within h
  | .rdmaQpLoss .., _, _, h => execRdmaQpLoss_within h
  | .dataRequestIssue .., _, _, h => execDataRequestIssue_within h
  | .dataTimeout .., _, _, h => execDataTimeout_within h
  | .miMessage .., _, _, h => execMiMessage_within h
  | .hfeNetCtrlWrite .., _, _, h => execHfeNetCtrlWrite_within h
  | .createIoSq .., _, _, h => execCreateIoSq_within h
  | .createIoCq .., _, _, h => execCreateIoCq_within h
  | .deleteIoSq .., _, _, h => execDeleteIoSq_within h
  | .deleteIoCq .., _, _, h => execDeleteIoCq_within h
  | .getLogPage .., _, _, h => execGetLogPage_within h
  | .getLogGloexError .., _, _, h => execGetLogGloexError_within h
  | .getLogResetOutcome .., _, _, h => execGetLogResetOutcome_within h
  | .getLogCommitCue .., _, _, h => execGetLogCommitCue_within h
  | .getLogEventLog .., _, _, h => execGetLogEventLog_within h
  | .identify .., _, _, h => execIdentify_within h
  | .getFeatures .., _, _, h => execGetFeatures_within h
  | .setFeatures .., _, _, h => execSetFeatures_within h
  | .setQueueOrdering .., _, _, h => execSetQueueOrdering_within h
  | .getQueueOrdering .., _, _, h => execGetQueueOrdering_within h
  | .setSelfTestStep .., _, _, h => execSetSelfTestStep_within h
  | .abort .., _, _, h => execAbort_within h
  | .abortHoldExpiry .., _, _, h => execAbortHoldExpiry_within h
  | .asyncEventRequest .., _, _, h => execAsyncEventRequest_within h
  | .keepAlive .., _, _, h => execKeepAlive_within h
  | .deviceSelfTest .., _, _, h => execDeviceSelfTest_within h
  | .selfTestAbort .., _, _, h => execSelfTestAbort_within h
  | .selfTestStep .., _, _, h => execSelfTestStep_within h
  | .formatNvm .., _, _, h => execFormatNvm_within h
  | .securitySend .., _, _, h => execSecuritySend_within h
  | .securityReceive .., _, _, h => execSecurityReceive_within h
  | .loadProgram .., _, _, h => execLoadProgram_within h
  | .programTranslated .., _, _, h => execProgramTranslated_within h
  | .programActivate .., _, _, h => execProgramActivate_within h
  | .programDeactivate .., _, _, h => execProgramDeactivate_within h
  | .memoryRangeSetManagement .., _, _, h => execMemoryRangeSetManagement_within h
  | .namespaceManagement .., _, _, h => execNamespaceManagement_within h
  | .namespaceAttachment .., _, _, h => execNamespaceAttachment_within h
  | .firmwareImageDownload .., _, _, h => execFirmwareImageDownload_within h
  | .firmwareCommit .., _, _, h => execFirmwareCommit_within h
  | .firmwareActivate .., _, _, h => execFirmwareActivate_within h
  | .firmwareActivationSwitch, _, _, h => execFirmwareActivationSwitch_within h
  | .activationTimeout, _, _, h => execActivationTimeout_within h
  | .sanitize .., _, _, h => execSanitize_within h
  | .nvmeMiSend .., _, _, h => execNvmeMiSend_within h
  | .nvmeMiReceive .., _, _, h => execNvmeMiReceive_within h
  | .restartQueue .., _, _, h => execRestartQueue_within h
  | .invalidOpcode .., _, _, h => execInvalidOpcode_within h
  | .nvmRead .., _, _, h => execNvmRead_within h
  | .nvmWrite .., _, _, h => execNvmWrite_within h
  | .flush .., _, _, h => execFlush_within h
  | .compare .., _, _, h => execCompare_within h
  | .writeZeroes .., _, _, h => execWriteZeroes_within h
  | .writeUncorrectable .., _, _, h => execWriteUncorrectable_within h
  | .datasetManagement .., _, _, h => execDatasetManagement_within h
  | .verify .., _, _, h => execVerify_within h
  | .copy .., _, _, h => execCopy_within h
  | .kvStore .., _, _, h => execKvStore_within h
  | .kvRetrieve .., _, _, h => execKvRetrieve_within h
  | .kvDelete .., _, _, h => execKvDelete_within h
  | .kvExist .., _, _, h => execKvExist_within h
  | .kvList .., _, _, h => execKvList_within h
  | .executeProgram .., _, _, h => execExecuteProgram_within h
  | .memoryRead .., _, _, h => execMemoryRead_within h
  | .memoryWrite .., _, _, h => execMemoryWrite_within h
  | .memoryCopy .., _, _, h => execMemoryCopy_within h
  | .fence .., _, _, h => execFence_within h
  | .commitRequest .., _, _, h => execCommitRequest_within h
  | .rollBackRequest .., _, _, h => execRollBackRequest_within h
  | .readPoint .., _, _, h => execReadPoint_within h
  | .arcExport .., _, _, h => execArcExport_within h
  | .arcImport .., _, _, h => execArcImport_within h
  | .arcAbort .., _, _, h => execArcAbort_within h
  | .arcProvenance .., _, _, h => execArcProvenance_within h
  | .arcFileDone .., _, _, h => execArcFileDone_within h
  | .tierMovePass .., _, _, h => execTierMovePass_within h
  | .sweepDayBoundary .., _, _, h => execSweepDayBoundary_within h
  | .callBoardExpiry, _, _, h => execCallBoardExpiry_within h
  | .cbdCursorWrite .., _, _, h => execCbdCursorWrite_within h
  | .twCbCursorWrite .., _, _, h => execTwCbCursorWrite_within h
  | .twTlyPrCursorWrite .., _, _, h => execTwTlyPrCursorWrite_within h
  | .journalWrite, _, _, h => execJournalWrite_within h
  | .journalProgrammed, _, _, h => execJournalProgrammed_within h
  | .destage .., _, _, h => execDestage_within h
  | .placeAdmit, _, _, h => execPlaceAdmit_within h
  | .checkpointStart, _, _, h => execCheckpointStart_within h
  | .trlCkptCtrl .., _, _, h => execTrlCkptCtrl_within h
  | .checkpointClosed, _, _, h => execCheckpointClosed_within h
  | .reclaimBackground, _, _, h => execReclaimBackground_within h
  | .reclaimForeground, _, _, h => execReclaimForeground_within h
  | .platterReclaim .., _, _, h => execPlatterReclaim_within h
  | .retentionExpiry .., _, _, h => execRetentionExpiry_within h
  | .flashReadDone .., _, _, h => execFlashReadDone_within h
  | .flashProgramDone .., _, _, h => execFlashProgramDone_within h
  | .flashEraseDone .., _, _, h => execFlashEraseDone_within h
  | .lunTimeout .., _, _, h => execLunTimeout_within h
  | .channelRetrain .., _, _, h => execChannelRetrain_within h
  | .decodeDone .., _, _, h => execDecodeDone_within h
  | .flcEvacuate .., _, _, h => execFlcEvacuate_within h
  | .evacuationDone, _, _, h => execEvacuationDone_within h
  | .flcRemove .., _, _, h => execFlcRemove_within h
  | .flcInsert .., _, _, h => execFlcInsert_within h
  | .insertionDone, _, _, h => execInsertionDone_within h
  | .flcCancel .., _, _, h => execFlcCancel_within h
  | .flcResume .., _, _, h => execFlcResume_within h
  | .angleField .., _, _, h => execAngleField_within h
  | .relockTimeout .., _, _, h => execRelockTimeout_within h
  | .servoField .., _, _, h => execServoField_within h
  | .sectorSync .., _, _, h => execSectorSync_within h
  | .codewordComplete .., _, _, h => execCodewordComplete_within h
  | .reservationRelease .., _, _, h => execReservationRelease_within h
  | .shockCrossing .., _, _, h => execShockCrossing_within h
  | .preampFault .., _, _, h => execPreampFault_within h
  | .preampFrameDone .., _, _, h => execPreampFrameDone_within h
  | .rchCalibrateL0 .., _, _, h => execRchCalibrateL0_within h
  | .rchCalibrateL1 .., _, _, h => execRchCalibrateL1_within h
  | .rchPark .., _, _, h => execRchPark_within h
  | .rchResume .., _, _, h => execRchResume_within h
  | .rchOffline .., _, _, h => execRchOffline_within h
  | .laneCalibrationDue .., _, _, h => execLaneCalibrationDue_within h
  | .laneCalibrationDone .., _, _, h => execLaneCalibrationDone_within h
  | .offlineWaitExpiry .., _, _, h => execOfflineWaitExpiry_within h
  | .rchPaCmd .., _, _, h => execRchPaCmd_within h
  | .sampleBoundary .., _, _, h => execSampleBoundary_within h
  | .hopSlotEnable .., _, _, h => execHopSlotEnable_within h
  | .hopSlotDisable .., _, _, h => execHopSlotDisable_within h
  | .hopBankRequest .., _, _, h => execHopBankRequest_within h
  | .hopCoeffWrite .., _, _, h => execHopCoeffWrite_within h
  | .hopSetpointWrite .., _, _, h => execHopSetpointWrite_within h
  | .hopProfileStart .., _, _, h => execHopProfileStart_within h
  | .hopProfileStop .., _, _, h => execHopProfileStop_within h
  | .motorLinkFrame .., _, _, h => execMotorLinkFrame_within h
  | .nopIdleTimer, _, _, h => execNopIdleTimer_within h
  | .parkTimeout .., _, _, h => execParkTimeout_within h
  | .actuatorLoaded .., _, _, h => execActuatorLoaded_within h
  | .driverFault .., _, _, h => execDriverFault_within h
  | .heaterFrameSend .., _, _, h => execHeaterFrameSend_within h
  | .mlkCmd .., _, _, h => execMlkCmd_within h
  | .mlkResync .., _, _, h => execMlkResync_within h
  | .ringTailWrite .., _, _, h => execRingTailWrite_within h
  | .smgRingCtrlWrite .., _, _, h => execSmgRingCtrlWrite_within h
  | .batchCreate .., _, _, h => execBatchCreate_within h
  | .taskComplete .., _, _, h => execTaskComplete_within h
  | .taskDispatch .., _, _, h => execTaskDispatch_within h
  | .sealedWindowSave .., _, _, h => execSealedWindowSave_within h
  | .bobRetire .., _, _, h => execBobRetire_within h
  | .bobbinWatchdog .., _, _, h => execBobbinWatchdog_within h
  | .bobbinSelftest .., _, _, h => execBobbinSelftest_within h
  | .retireGraceExpiry, _, _, h => execRetireGraceExpiry_within h
  | .understudyLoaded, _, _, h => execUnderstudyLoaded_within h
  | .invocationComplete .., _, _, h => execInvocationComplete_within h
  | .budgetExhausted .., _, _, h => execBudgetExhausted_within h
  | .pqAsuSearch .., _, _, h => execPqAsuSearch_within h
  | .pqAsuInsert .., _, _, h => execPqAsuInsert_within h
  | .pqAsuDelete .., _, _, h => execPqAsuDelete_within h
  | .pqAsuScan .., _, _, h => execPqAsuScan_within h
  | .pqDigest .., _, _, h => execPqDigest_within h
  | .pqDigestPart .., _, _, h => execPqDigestPart_within h
  | .pqCompress .., _, _, h => execPqCompress_within h
  | .pqDecompress .., _, _, h => execPqDecompress_within h
  | .pqCrc64 .., _, _, h => execPqCrc64_within h
  | .pqMemCopy .., _, _, h => execPqMemCopy_within h
  | .pqMemCmp .., _, _, h => execPqMemCmp_within h
  | .pqFence .., _, _, h => execPqFence_within h
  | .pqRaiseEvent .., _, _, h => execPqRaiseEvent_within h
  | .pqCueNow .., _, _, h => execPqCueNow_within h
  | .helperTimeout .., _, _, h => execHelperTimeout_within h
  | .asuUpdateStart .., _, _, h => execAsuUpdateStart_within h
  | .asuWalk .., _, _, h => execAsuWalk_within h
  | .smockCompress .., _, _, h => execSmockCompress_within h
  | .smockDecompress .., _, _, h => execSmockDecompress_within h
  | .tallyJob .., _, _, h => execTallyJob_within h
  | .twTlyStart .., _, _, h => execTwTlyStart_within h
  | .twTlyAbort .., _, _, h => execTwTlyAbort_within h
  | .twTlyDataHi .., _, _, h => execTwTlyDataHi_within h
  | .twTlyLastVb .., _, _, h => execTwTlyLastVb_within h
  | .tallyStreamIdle .., _, _, h => execTallyStreamIdle_within h
  | .xtsEncrypt .., _, _, h => execXtsEncrypt_within h
  | .xtsDecrypt .., _, _, h => execXtsDecrypt_within h
  | .gcmEncrypt .., _, _, h => execGcmEncrypt_within h
  | .gcmDecrypt .., _, _, h => execGcmDecrypt_within h
  | .cmacGenerate .., _, _, h => execCmacGenerate_within h
  | .cmacVerify .., _, _, h => execCmacVerify_within h
  | .keyDerivation .., _, _, h => execKeyDerivation_within h
  | .counterBlockOnFlash .., _, _, h => execCounterBlockOnFlash_within h
  | .scrSlotErase, _, _, h => execScrSlotErase_within h
  | .twKeyDeriveMac .., _, _, h => execTwKeyDeriveMac_within h
  | .twKeyDeriveCmac .., _, _, h => execTwKeyDeriveCmac_within h
  | .twKeyErase .., _, _, h => execTwKeyErase_within h
  | .entropyHealthFail, _, _, h => execEntropyHealthFail_within h
  | .entropyRestartTimeout, _, _, h => execEntropyRestartTimeout_within h
  | .tamperAlarm .., _, _, h => execTamperAlarm_within h
  | .meshCheck .., _, _, h => execMeshCheck_within h
  | .spdmRequest .., _, _, h => execSpdmRequest_within h
  | .tdIdcode, _, _, h => execTdIdcode_within h
  | .tdBypass .., _, _, h => execTdBypass_within h
  | .tdNonce, _, _, h => execTdNonce_within h
  | .tdResponse .., _, _, h => execTdResponse_within h
  | .tdStatus, _, _, h => execTdStatus_within h
  | .tdExtest, _, _, h => execTdExtest_within h
  | .tdSamplePreload, _, _, h => execTdSamplePreload_within h
  | .tdDebug, _, _, h => execTdDebug_within h
  | .nonceExpiry, _, _, h => execNonceExpiry_within h
  | .trapdoorRecordWritten, _, _, h => execTrapdoorRecordWritten_within h
  | .trapdoorRecordTimeout, _, _, h => execTrapdoorRecordTimeout_within h
  | .safetyCurtainFailover, _, _, h => execSafetyCurtainFailover_within h
  | .switchoverDone .., _, _, h => execSwitchoverDone_within h
  | .dramRead .., _, _, h => execDramRead_within h
  | .dramWrite .., _, _, h => execDramWrite_within h
  | .mergeWrite .., _, _, h => execMergeWrite_within h
  | .refreshDue .., _, _, h => execRefreshDue_within h
  | .rankRateRead .., _, _, h => execRankRateRead_within h
  | .thermalReturnTimer, _, _, h => execThermalReturnTimer_within h
  | .dmcFreqToA, _, _, h => execDmcFreqToA_within h
  | .dmcFreqToB, _, _, h => execDmcFreqToB_within h
  | .selfRefreshCommitted, _, _, h => execSelfRefreshCommitted_within h
  | .pllRelocked, _, _, h => execPllRelocked_within h
  | .txsElapsed, _, _, h => execTxsElapsed_within h
  | .freqChangeRetry, _, _, h => execFreqChangeRetry_within h
  | .idleSelfRefresh .., _, _, h => execIdleSelfRefresh_within h
  | .dramPllUnlock .., _, _, h => execDramPllUnlock_within h
  | .scrubLine .., _, _, h => execScrubLine_within h
  | .sramRead .., _, _, h => execSramRead_within h
  | .dmcRetire .., _, _, h => execDmcRetire_within h
  | .blockCopyDone, _, _, h => execBlockCopyDone_within h
  | .eventRaise .., _, _, h => execEventRaise_within h
  | .samplerPageTimer, _, _, h => execSamplerPageTimer_within h
  | .samplerPageProgrammed .., _, _, h => execSamplerPageProgrammed_within h
  | .smpCursorWrite .., _, _, h => execSmpCursorWrite_within h
  | .twSmpCursorWrite .., _, _, h => execTwSmpCursorWrite_within h
  | .twEvtCtrlWrite .., _, _, h => execTwEvtCtrlWrite_within h
  | .resetRelease .., _, _, h => execResetRelease_within h
  | .supplyConditionsMet, _, _, h => execSupplyConditionsMet_within h
  | .firmwareSlotRead .., _, _, h => execFirmwareSlotRead_within h
  | .devGo, _, _, h => execDevGo_within h
  | .devSetHold, _, _, h => execDevSetHold_within h
  | .devClearHold, _, _, h => execDevClearHold_within h
  | .rehearsalStart, _, _, h => execRehearsalStart_within h
  | .rehearsalStepStart .., _, _, h => execRehearsalStepStart_within h
  | .rehearsalStepDone .., _, _, h => execRehearsalStepDone_within h
  | .actuatorLoadDeadline .., _, _, h => execActuatorLoadDeadline_within h
  | .powerLoss .., _, _, h => execPowerLoss_within h
  | .perstAssert .., _, _, h => execPerstAssert_within h
  | .harbourSeal, _, _, h => execHarbourSeal_within h
  | .temperatureSample .., _, _, h => execTemperatureSample_within h
  | .throttleStep, _, _, h => execThrottleStep_within h
  | .agingMeasure .., _, _, h => execAgingMeasure_within h
  | .powerEstimateUpdate .., _, _, h => execPowerEstimateUpdate_within h
  | .railOutOfTolerance .., _, _, h => execRailOutOfTolerance_within h
  | .suppliesRemoved .., _, _, h => execSuppliesRemoved_within h
  | .writeRunEnd .., _, _, h => execWriteRunEnd_within h
  | .pduTypeNotAllowed .., _, _, h => execPduTypeNotAllowed_within h

/-! ### A doorbell write lets a held completion post (R95, R122, R125) -/

/-- A PCIe controller of the house that runs. -/
def runningCtrl : Ctrl :=
  { tag := 0, transport := 0, gloex := false, ioQueues := 4, queueEntries := 64, vectors := 4, port := 0, fn := 0, enabled := true
    ready := true, cfs := false, resetting := false, aqa := 0, assoc := none, endedKato := 0, endedAt := 0 }

/-- A Write that has retired and whose completion has not been posted. -/
def retiredWrite : Scene :=
  { ctrl := 7, sq := 1, cid := 1, nsid := 1, tag := 0, opcode := 1, kind := .nvmWrite 0 1 false none, fetched := 0, retired := true
    rolledBack := false, need := 0, data := [], asked := 0, staged := 0, points := 0, wantPoint := false, wantCommit := false, waits := []
    media := [], st := stOk, dw0 := 0, dw1 := 0, commitCue := 0, boundary := none, reserve := none, version := none, noPost := false }

/-- Its unit in Wings, not yet marked as posted. -/
def heldWings : WingSlot :=
  { unit := 0, granules := [0], tag := 0, nsid := 1, seq := 0, cue := 0, posted := false, pred := none, hot := false }

/-- Completion queue 1 of controller 7 is full, and the completion of a Write whose unit is in Wings waits for room in it. -/
def completionWaits : State :=
  { State.reset with
    dev := { State.reset.dev with phase := .performance, perstHigh := true }
    hfe := { State.reset.hfe with ctrls := [(7, runningCtrl)] }
    scn := { State.reset.scn with
      sqs := [(qKey 7 1, { size := 16, cqid := 1 })], cqs := [(qKey 7 1, { size := 2, vector := 0, head := 1, tail := 0 })]
      scenes := [(0, retiredWrite)] }
    trl := { State.reset.trl with wings := [(0, heldWings)] } }

/-- The host takes the entry in the completion queue: the Write's completion is posted, and from then on a Flush covers its unit. -/
theorem doorbell_posts_write :
    (doDoorbellWrite 7 true 1 0 completionWaits).trl.wings ≠ completionWaits.trl.wings := by
  decide +kernel

/-- Refutes O6: a write of a completion queue's doorbell lets a held completion post, which marks the Write's Wings data in the
translation layer's state, a part that `mayChange` does not name for it. -/
theorem not_eachCommandKeepsToItsParts : ¬ Obligations.EachCommandKeepsToItsParts := by
  unfold Obligations.EachCommandKeepsToItsParts
  intro hframes
  obtain ⟨-, hparts⟩ := hframes (.doorbellWrite 7 true 1 0) completionWaits _ rfl
  have htrl : (doDoorbellWrite 7 true 1 0 completionWaits).trl = completionWaits.trl := hparts .trl (by decide)
  exact doorbell_posts_write (congrArg (fun t => t.wings) htrl)

/-! ### Every step -/

theorem step_of_idle {s : State} (h : s.pending = []) : step s = .next (idleTick s) := by
  rw [step, h]

theorem step_of_command {c : Instr} {rest : List Instr} {s : State} (h : s.pending = c :: rest) :
    step s = exec c { s with pending := rest } := by
  rw [step, h]

/-- What never goes back does not depend on the queue. -/
theorem Kept.of_dequeue {l : List Instr} {s t : State} (h : Kept { s with pending := l } t) : Kept s t :=
  ⟨h.free, h.out, h.fwFloor, h.prkFloor, h.recno, h.dram, h.slm⟩

/-- Settles O1: the queue's front command runs on the state with the queue's rest. -/
theorem stepRunsTheFrontCommand : Obligations.StepRunsTheFrontCommand := by
  unfold Obligations.StepRunsTheFrontCommand
  exact fun _ _ _ h => step_of_command h

/-- Settles O5: at reset both memories are empty. -/
theorem resetMeetsTheInvariant : Obligations.ResetMeetsTheInvariant := by
  unfold Obligations.ResetMeetsTheInvariant
  exact reset_memories

/-- Settles O7: a step is a cycle or a command, and both keep what never goes back. -/
theorem nothingFallsBack : Obligations.NothingFallsBack := by
  unfold Obligations.NothingFallsBack
  intro s t hstep
  cases hqueue : s.pending with
  | nil =>
    rw [step_of_idle hqueue] at hstep
    cases hstep
    have hcycle := idleTick_within s
    exact ⟨hcycle.same_pending.trans hqueue, hcycle.kept⟩
  | cons c rest =>
    rw [step_of_command hqueue] at hstep
    have hcommand := exec_within c hstep
    exact ⟨hcommand.same_pending, hcommand.kept.of_dequeue⟩

end Sys2Proof.Machine

/-! The device's states (R476): which transition each command can bring. -/
namespace Sys2Proof.Machine

/-- From `s` to `t` the device stays in its state, or goes to `p` along the table of R476. -/
def Enters (p : DevPhase) (s t : State) : Prop :=
  t.dev.phase = s.dev.phase ∨ t.dev.phase = p ∧ (s.dev.phase, p) ∈ stateTable

namespace Enters
variable {p : DevPhase} {s t u : State} {l : List Part}

theorem refl (p : DevPhase) (s : State) : Enters p s s := .inl rfl

theorem of_within (h : Within l s t) (hl : l.contains .phase = false) : Enters p s t := .inl (h.same_phase hl)

/-- Work that leaves the state alone may come before. -/
theorem of_same_left (h : t.dev.phase = s.dev.phase) (k : Enters p t u) : Enters p s u := by
  unfold Enters at *
  rwa [h] at k

/-- Work that leaves the state alone may come after. -/
theorem of_same_right (k : Enters p s t) (h : u.dev.phase = t.dev.phase) : Enters p s u := by
  unfold Enters at *
  rwa [h]

theorem after (h : Within l s t) (hl : l.contains .phase = false) (k : Enters p t u) : Enters p s u :=
  k.of_same_left (h.same_phase hl)

theorem before (k : Enters p s t) (h : Within l t u) (hl : l.contains .phase = false) : Enters p s u :=
  k.of_same_right (h.same_phase hl)

theorem ite {c : Prop} [Decidable c] (h : c → Enters p s t) (k : ¬c → Enters p s u) : Enters p s (if c then t else u) := by
  split
  · exact h ‹_›
  · exact k ‹_›

end Enters

theorem transition_phase (p : DevPhase) (s : State) : (transition p s).dev.phase = p := by simp [transition]

/-! ### Into Curtain Down (R414, R415, R423-R425) -/

theorem enterCurtain_enters {s : State} (hp : s.powered = true) (hc : s.dev.phase ≠ .curtainDown) : Enters .curtainDown s (enterCurtain s) := by
  refine .inr ⟨(enterCurtain_spec s).1, ?_⟩
  have hd : s.dev.phase ≠ .dark := by simpa [State.powered] using hp
  generalize s.dev.phase = q at hc hd
  cases q <;> first | decide | contradiction

/-- Curtain Down is entered unless the device is in it. -/
theorem intoCurtain_enters {s : State} (hp : s.powered = true) :
    Enters .curtainDown s (if s.dev.phase = .curtainDown then s else enterCurtain s) :=
  .ite (fun _ => .refl _ s) (fun hc => enterCurtain_enters hp hc)

theorem alarm_enters (kind sensor : Nat) (s : State) : Enters .curtainDown s (alarm kind sensor s) := by
  unfold alarm
  split
  · exact .refl _ s
  · rename_i hp
    have hdev : (raise (355 + kind) 0 sensor 0 0 (noteAlarm kind sensor s)).dev = s.dev := raise_dev ..
    refine .of_same_left (congrArg _ hdev) (intoCurtain_enters ?_)
    show (raise ..).powered = true
    rw [State.powered, hdev]
    have hpowered : s.powered = true := by simpa using hp
    exact hpowered

theorem doTamperAlarm_enters (kind sensor : Nat) (s : State) : Enters .curtainDown s (doTamperAlarm kind sensor s) := by
  unfold doTamperAlarm
  exact .ite (fun _ => alarm_enters kind sensor s) (fun _ => .refl _ s)

theorem doMeshCheck_enters (loop : Nat) (sent received : W32) (s : State) : Enters .curtainDown s (doMeshCheck loop sent received s) := by
  unfold doMeshCheck
  exact .ite (fun _ => .refl _ s) fun _ => .ite (fun _ => .of_within (onSaf_within ..) rfl) fun _ =>
    .ite (fun _ => alarm_enters 4 loop s) fun _ => .of_within (onSaf_within ..) rfl

theorem doRefclkMeterInterval_enters (ppm : Int) (s : State) : Enters .curtainDown s (doRefclkMeterInterval ppm s) := by
  unfold doRefclkMeterInterval
  refine .ite (fun _ => .refl _ s) fun _ => .ite (fun _ => ?far) fun _ => .ite (fun _ => ?warn) fun _ => .inl rfl
  case far => exact .of_same_left (by rfl) (alarm_enters 1 1 _)
  case warn => exact .of_same_left (by rfl) (.of_within (raise_within ..) rfl)

theorem doClockAlarm_enters (c : ClockAlarm) (s : State) : Enters .curtainDown s (doClockAlarm c s) := by
  unfold doClockAlarm
  refine .of_same_left ?_ (alarm_enters 1 (clockSensor c) _)
  split <;> rfl

theorem doSafetyCurtainFailover_enters (s : State) : Enters .curtainDown s (doSafetyCurtainFailover s) := by
  unfold doSafetyCurtainFailover
  refine .ite (fun _ => .refl _ s) fun hoff => ?_
  have hdev : (raiseObj 365 0 0 (onSaf (fun f => { f with failovers := min (f.failovers + 1) 65535 }) s)).dev = s.dev := raise_dev ..
  refine .of_same_left (congrArg _ hdev) (.ite (fun _ => .inl rfl) fun _ => ?_)
  refine .of_same_left (t := noteAlarm 5 0 _) rfl (intoCurtain_enters ?_)
  have hp : s.powered = true := by
    rw [not_or] at hoff
    simpa using hoff.1
  show (raiseObj ..).powered = true
  rw [State.powered, hdev]
  exact hp

theorem doTrapdoorRecordWritten_enters (s : State) : Enters .curtainDown s (doTrapdoorRecordWritten s) := by
  unfold doTrapdoorRecordWritten
  exact .ite (fun h => (intoCurtain_enters h.2).before (onSaf_within _ _) rfl) (fun _ => .refl _ s)

theorem doTrapdoorRecordTimeout_enters (s : State) : Enters .curtainDown s (doTrapdoorRecordTimeout s) := by
  unfold doTrapdoorRecordTimeout
  exact .ite (fun h => (intoCurtain_enters h.2.1).before (onSaf_within _ _) rfl) (fun _ => .refl _ s)

theorem doTemperatureSample_enters (temps : List Int) (s : State) : Enters .curtainDown s (doTemperatureSample temps s) := by
  unfold doTemperatureSample
  refine .ite (fun _ => .refl _ s) fun _ => ?_
  refine .before ?_ (tempShutdown_within _) rfl
  refine .after (onPwr_within (fun p => { p with temps := temps }) s) rfl
    (.after (tempWarning_within _) rfl (.after (tempThrottle_within _) rfl ?_))
  split
  · exact alarm_enters 2 _ _
  · exact .refl _ _

/-! ### Into Dark (R476, R489-R492) -/

theorem dark_enters {s t : State} (h : t.dev.phase = .dark) : Enters .dark s t := by
  unfold Enters
  rw [h]
  cases s.dev.phase <;> decide

theorem goDark_phase (s : State) : (goDark s).dev.phase = .dark := rfl

theorem doPerstAssert_enters (ns : Nat) (s : State) : Enters .dark s (doPerstAssert ns s) := by
  unfold doPerstAssert
  refine .ite (fun _ => .refl _ s) fun _ => ?_
  refine .of_same_left (t := onDev (fun d => { d with perstHigh := false, waitSupplies := false, booting := false }) s) rfl
    (.ite (fun _ => ?deferred) fun _ => .ite (fun _ => dark_enters rfl) fun _ => ?stopped)
  case deferred => exact .before (.of_within (raise_within ..) rfl) (onPwr_within ..) rfl
  case stopped => exact .ite (fun _ => .of_within (stopDevice_within ..) rfl) fun _ => dark_enters rfl

theorem doHarbourSeal_enters (s : State) : Enters .dark s (doHarbourSeal s) := by
  unfold doHarbourSeal
  split
  · exact .refl _ s
  · refine .ite (fun _ => ?_) fun _ => dark_enters rfl
    refine .before ?_ (onPwr_within ..) rfl
    refine .before ?_ (halt_within _) rfl
    exact .of_same_right (.before (.of_within (raise_within ..) rfl) (sealHarbour_within _) rfl) rfl

theorem doSuppliesRemoved_enters (held : Nat) (s : State) : Enters .dark s (doSuppliesRemoved held s) := dark_enters rfl

theorem takeDeferredPerst_enters (s : State) : Enters .dark s (takeDeferredPerst s) := by
  unfold takeDeferredPerst
  split
  · exact .ite (fun _ => dark_enters rfl) fun _ => .refl _ s
  · exact .refl _ s

theorem idleTick_enters (s : State) : Enters .dark s (idleTick s) := by
  unfold idleTick
  refine .ite (fun _ => .refl _ s) fun _ => ?_
  extract_lets counted ticked sent settled
  have hticked : ticked.dev.phase = s.dev.phase := by
    simp only [ticked]
    split
    · exact (asuTick_within counted).same_phase rfl
    · rfl
  have hsent : sent.dev.phase = ticked.dev.phase := by
    simp only [sent]
    split
    · exact (atBroadcast_within ..).same_phase rfl
    · exact (applyDue_within _).same_phase rfl
  have hsettled : settled.dev.phase = sent.dev.phase := by
    simp only [settled]
    split
    · rfl
    · exact (goOn_within _).same_phase rfl
  exact .of_same_left (hsettled.trans (hsent.trans hticked)) (takeDeferredPerst_enters settled)

/-! ### House Lights and Rehearsal (R476-R478, R485) -/

theorem enterHouseLights_enters {s : State} (h : s.dev.phase = .dark) : Enters .houseLights s (enterHouseLights s) :=
  .inr ⟨transition_phase .houseLights _, by rw [h]; decide⟩

theorem doFirmwareSlotRead_enters (readOk verified : Bool) (s : State) : Enters .houseLights s (doFirmwareSlotRead readOk verified s) := by
  unfold doFirmwareSlotRead
  refine .ite (fun _ => .refl _ s) fun hoff => ?_
  have hdark : s.dev.phase = .dark := by
    rw [not_or] at hoff
    simpa [State.powered] using hoff.2
  have hlit : ∀ u : State, u.dev.phase = s.dev.phase → Enters .houseLights s (enterHouseLights u) := fun u hu =>
    .of_same_left hu (enterHouseLights_enters (hu.trans hdark))
  split
  · exact .refl _ s
  · dsimp only
    split
    · refine .ite (fun _ => .before ?_ (raise_within ..) rfl) fun _ => hlit _ rfl
      exact hlit _ rfl
    · exact .ite (fun _ => hlit _ rfl) fun _ => .inl rfl

theorem beginRehearsal_enters {s : State} (h : s.dev.phase = .houseLights) : Enters .rehearsal s (beginRehearsal s) := by
  unfold beginRehearsal
  refine .before (.before ?_ (startWindows_within _) rfl) (armPosting_within _) rfl
  exact .inr ⟨transition_phase .rehearsal _, by rw [h]; decide⟩

theorem doRehearsalStart_enters (s : State) : Enters .rehearsal s (doRehearsalStart s) := by
  unfold doRehearsalStart
  refine .ite (fun _ => .refl _ s) fun hmay => ?_
  have hlights : s.dev.phase = .houseLights := by
    simp only [Bool.not_eq_true', Bool.not_eq_false, State.mayRehearse, Bool.and_eq_true, beq_iff_eq] at hmay
    obtain ⟨⟨⟨⟨⟨⟨hphase, -⟩, -⟩, -⟩, -⟩, -⟩, -⟩ := hmay
    exact hphase
  exact .ite (fun _ => beginRehearsal_enters hlights) fun _ => .inl rfl

theorem writeBoot_phase (f : BootRecord → BootRecord) (s : State) : (writeBoot f s).dev.phase = s.dev.phase := rfl

/-- Rehearsal ends in Final Curtain where the device had entered it before, and else in Performance. -/
theorem endRehearsal_phase (s : State) : (endRehearsal s).dev.phase = if s.trl.final then .finalCurtain else .performance := by
  unfold endRehearsal
  extract_lets final entered timed d floored booted
  have hentered : entered.dev.phase = if s.trl.final then .finalCurtain else .performance := transition_phase _ _
  have hfloored : floored.dev.phase = entered.dev.phase := by
    simp only [floored]
    split <;> rfl
  have hbooted : booted.dev.phase = floored.dev.phase := by
    simp only [booted]
    split <;> rfl
  exact hbooted.trans (hfloored.trans hentered)

/-- A step that ends stays in Rehearsal, or brings the device to House Lights, Performance or Final Curtain. -/
theorem doRehearsalStepDone_enters (b : Nat) (f : StepFacts) (s : State) :
    Enters .houseLights s (doRehearsalStepDone b f s) ∨ Enters .performance s (doRehearsalStepDone b f s) ∨
      Enters .finalCurtain s (doRehearsalStepDone b f s) := by
  unfold doRehearsalStepDone
  extract_lets d
  split
  · exact .inl (.refl _ s)
  · rename_i hnot
    have hrehearsal : s.dev.phase = .rehearsal := by
      rw [not_or] at hnot
      simpa using hnot.1
    split
    · exact .inl (.inr ⟨transition_phase .houseLights _, by rw [hrehearsal]; decide⟩)
    · rename_i t heffect
      have ht : t.dev.phase = s.dev.phase := (stepEffect_within heffect).same_phase rfl
      extract_lets marked
      have hmarked : marked.dev.phase = s.dev.phase := ht
      split
      · have hend := endRehearsal_phase marked
        split at hend
        · exact .inr (.inr (.inr ⟨hend, by rw [hrehearsal]; decide⟩))
        · exact .inr (.inl (.inr ⟨hend, by rw [hrehearsal]; decide⟩))
      · exact .inl (.inl hmarked)

/-! ### Into Final Curtain from Performance (R193) -/

theorem enterFinal_enters (s : State) : Enters .finalCurtain s (enterFinal s) := by
  unfold enterFinal
  refine .ite (fun _ => .refl _ s) fun h => .inr ⟨transition_phase .finalCurtain s, ?_⟩
  rw [Decidable.not_not.mp h]
  decide

theorem failRoom_enters (h : CmdHdr) (op : Nat) (st : Status) (s : State) : Enters .finalCurtain s (failRoom h op st s) := by
  unfold failRoom
  exact .before (.ite (fun _ => enterFinal_enters s) fun _ => .refl _ s) (failCmd_within ..) rfl

section Fetching
variable {p : DevPhase} {h : CmdHdr} {op : Nat} {s : State}

theorem fetched_enters {set : CmdSet} {work : State → State} (hwork : ∀ u, Enters p u (work u)) : Enters p s (fetched h op set work s) := by
  have hgo : ∀ {t}, Enters p s t → Enters p s (goOn t) := fun k => k.before (goOn_within _) rfl
  unfold fetched
  refine .ite (fun _ => ?_) fun _ => .refl _ s
  split
  · exact hgo (.after (openScene_within h op .admin 0 s) rfl (.after (rollBack_within ..) rfl (.of_within (retire_within ..) rfl)))
  · split
    · exact hgo (.of_within (failCmd_within ..) rfl)
    · exact hgo (hwork s)

theorem failCmd_enters (st : Status) : Enters p s (failCmd h op st s) := .of_within (failCmd_within ..) rfl

theorem openScene_enters (kind : SceneKind) (need : Nat) : Enters p s (openScene h op kind need s).2 := .of_within (openScene_within ..) rfl

theorem onLbas_enters {ranges : List (Nat × Nat)} {work : Namespace → State → State} (hwork : ∀ n u, Enters p u (work n u)) :
    Enters p s (onLbas h op ranges work s) := by
  unfold onLbas
  refine fetched_enters fun u => ?_
  split
  · exact failCmd_enters _
  · exact .ite (fun _ => failCmd_enters _) fun _ => .ite (fun _ => failCmd_enters _) fun _ => hwork _ u

theorem onKey_enters {key : Bytes} {work : Namespace → State → State} (hwork : ∀ n u, Enters p u (work n u)) :
    Enters p s (onKey h op key work s) := by
  unfold onKey
  refine fetched_enters fun u => ?_
  split
  · exact failCmd_enters _
  · exact .ite (fun _ => failCmd_enters _) fun _ => .ite (fun _ => failCmd_enters _) fun _ => hwork _ u

end Fetching

theorem doNvmWrite_enters (h : CmdHdr) (slba nlb : Nat) (fua : Bool) (kt : Option Nat) (s : State) :
    Enters .finalCurtain s (doNvmWrite h slba nlb fua kt s) := by
  unfold doNvmWrite
  refine onLbas_enters fun n u => .ite (fun _ => failCmd_enters _) fun _ => ?_
  split
  · exact failRoom_enters ..
  · exact .of_same_left (t := onSide ..) rfl (.of_within (openWithData_within ..) rfl)

theorem doWriteZeroes_enters (h : CmdHdr) (slba nlb : Nat) (s : State) : Enters .finalCurtain s (doWriteZeroes h slba nlb s) := by
  unfold doWriteZeroes
  refine onLbas_enters fun n u => ?_
  split
  · exact failRoom_enters ..
  · exact openScene_enters ..

theorem doWriteUncorrectable_enters (h : CmdHdr) (slba nlb : Nat) (s : State) :
    Enters .finalCurtain s (doWriteUncorrectable h slba nlb s) := by
  unfold doWriteUncorrectable
  refine onLbas_enters fun n u => ?_
  split
  · exact failRoom_enters ..
  · exact openScene_enters ..

theorem doDatasetManagement_enters (h : CmdHdr) (deallocate : Bool) (ranges : List (Nat × Nat)) (s : State) :
    Enters .finalCurtain s (doDatasetManagement h deallocate ranges s) := by
  unfold doDatasetManagement
  refine onLbas_enters fun n u => .ite (fun _ => .of_within (endAtOnce_within ..) rfl) fun _ => ?_
  split
  · exact failRoom_enters ..
  · exact openScene_enters ..

theorem doCopy_enters (h : CmdHdr) (dst format : Nat) (ranges : List (Nat × Nat)) (s : State) :
    Enters .finalCurtain s (doCopy h dst format ranges s) := by
  unfold doCopy
  refine onLbas_enters fun n u => .ite (fun _ => failCmd_enters _) fun _ => ?_
  split
  · exact failRoom_enters ..
  · exact openScene_enters ..

theorem doKvStore_enters (h : CmdHdr) (key : Bytes) (len : Nat) (opts : KvOpts) (s : State) :
    Enters .finalCurtain s (doKvStore h key len opts s) := by
  unfold doKvStore
  refine onKey_enters fun n u => .ite (fun _ => failCmd_enters _) fun _ => .ite (fun _ => failCmd_enters _) fun _ =>
    .ite (fun _ => failCmd_enters _) fun _ => .after (reserveStore_within n len u) rfl ?_
  dsimp only
  split
  · exact failRoom_enters ..
  · exact .before (.of_within (openWithData_within ..) rfl) (onScene_within ..) rfl

theorem doMemoryCopy_enters (h : CmdHdr) (m : MemCopy) (s : State) : Enters .finalCurtain s (doMemoryCopy h m s) := by
  unfold doMemoryCopy
  refine fetched_enters fun u => .ite (fun _ => failCmd_enters _) fun _ => .ite (fun _ => failCmd_enters _) fun _ =>
    .ite (fun _ => failCmd_enters _) fun _ => .ite (fun _ => failCmd_enters _) fun _ => ?_
  split
  · rename_i n _
    refine .after (reserveStore_within n m.len u) rfl ?_
    dsimp only
    split
    · exact failRoom_enters ..
    · exact .before (openScene_enters ..) (onScene_within ..) rfl
  · exact .before (openScene_enters ..) (onScene_within ..) rfl

/-! ### The table of states -/

/-- The device keeps its state, or goes along the table to one that the event `e` may bring. -/
def FollowsTable (e : Option Instr) (s t : State) : Prop :=
  t.dev.phase = s.dev.phase ∨ (s.dev.phase, t.dev.phase) ∈ stateTable ∧ enteredBy t.dev.phase e = true

theorem Enters.followsTable {p : DevPhase} {e : Option Instr} {s t : State} (h : Enters p s t) (he : enteredBy p e = true) :
    FollowsTable e s t := by
  rcases h with hsame | ⟨rfl, htable⟩
  · exact .inl hsame
  · exact .inr ⟨htable, he⟩

theorem exec_followsTable (c : Instr) {s t : State} (h : exec c s = .next t) : FollowsTable (some c) s t := by
  cases c
  case refclkMeterInterval => cases h; exact (doRefclkMeterInterval_enters ..).followsTable rfl
  case clockAlarm => cases h; exact (doClockAlarm_enters ..).followsTable rfl
  case tamperAlarm => cases h; exact (doTamperAlarm_enters ..).followsTable rfl
  case meshCheck => cases h; exact (doMeshCheck_enters ..).followsTable rfl
  case trapdoorRecordWritten => cases h; exact (doTrapdoorRecordWritten_enters _).followsTable rfl
  case trapdoorRecordTimeout => cases h; exact (doTrapdoorRecordTimeout_enters _).followsTable rfl
  case safetyCurtainFailover => cases h; exact (doSafetyCurtainFailover_enters _).followsTable rfl
  case temperatureSample => cases h; exact (doTemperatureSample_enters ..).followsTable rfl
  case nvmWrite => cases h; exact (doNvmWrite_enters ..).followsTable rfl
  case writeZeroes => cases h; exact (doWriteZeroes_enters ..).followsTable rfl
  case writeUncorrectable => cases h; exact (doWriteUncorrectable_enters ..).followsTable rfl
  case datasetManagement => cases h; exact (doDatasetManagement_enters ..).followsTable rfl
  case copy => cases h; exact (doCopy_enters ..).followsTable rfl
  case kvStore => cases h; exact (doKvStore_enters ..).followsTable rfl
  case memoryCopy => cases h; exact (doMemoryCopy_enters ..).followsTable rfl
  case firmwareSlotRead => cases h; exact (doFirmwareSlotRead_enters ..).followsTable rfl
  case rehearsalStart => cases h; exact (doRehearsalStart_enters _).followsTable rfl
  case rehearsalStepDone b f =>
    cases h
    rcases doRehearsalStepDone_enters b f s with hlights | hperformance | hfinal
    · exact hlights.followsTable rfl
    · exact hperformance.followsTable rfl
    · exact hfinal.followsTable rfl
  case perstAssert => cases h; exact (doPerstAssert_enters ..).followsTable rfl
  case harbourSeal => cases h; exact (doHarbourSeal_enters _).followsTable rfl
  case suppliesRemoved => cases h; exact (doSuppliesRemoved_enters ..).followsTable rfl
  all_goals exact .inl ((exec_within _ h).same_phase rfl)

/-- Settles O8: no other command's frame holds the device's state, and each of these commands brings only what R476 names. -/
theorem statesFollowTheTable : Obligations.StatesFollowTheTable := by
  unfold Obligations.StatesFollowTheTable
  intro s t hstep
  cases hqueue : s.pending with
  | nil =>
    rw [step_of_idle hqueue] at hstep
    cases hstep
    exact (idleTick_enters s).followsTable rfl
  | cons c rest =>
    rw [step_of_command hqueue] at hstep
    have hfollows := exec_followsTable c hstep
    exact hfollows

end Sys2Proof.Machine

/-! An unassigned tag (R17). -/
namespace Sys2Proof.Machine

/-- A transaction over a route of its source that carries a tag which is never assigned. -/
theorem doGroundTransaction_of_unassigned {g : GroundTx} {r : RouteRec} {s : State} (hrun : s.unitsRun = true) (hlo : 0x1001 ≤ g.tag)
    (hhi : g.tag ≤ 0x1FFF) (hroute : s.route g.route = some r) (hsource : r.source = g.src) (hopen : r.sealedOnly = false) :
    doGroundTransaction g s = refuseGround 352 g s := by
  simp [doGroundTransaction, hrun, hroute, hsource, hopen, hlo, hhi]

/-- A refused transaction that works for no task is recorded, counted and answered. -/
theorem refuseGround_of_no_task {g : GroundTx} (htask : g.task = none) (src : Nat) (s : State) :
    refuseGround src g s = emit (.groundError g.src g.dst g.seq) (refuseAt src g.dst g.tag s) := by
  simp [refuseGround, htask]

theorem refuseAt_refusals (src obj tag : Nat) (s : State) :
    (refuseAt src obj tag s).saf.refusals = min (s.saf.refusals + 1) (2 ^ 32 - 1) := by
  simp [refuseAt, raiseObj]

/-- Settles O13: the tag is refused at the route's source, and a refusal changes what records, counts and answers it. -/
theorem unassignedTagsAreRefused : Obligations.UnassignedTagsAreRefused := by
  unfold Obligations.UnassignedTagsAreRefused
  intro g r s hrun hlo hhi htask hroute hsource hopen
  refine ⟨?answered, refuseAt_refusals .., (refuseAt_within ..).frame⟩
  case answered =>
    have hrefused := doGroundTransaction_of_unassigned hrun hlo hhi hroute hsource hopen
    rw [refuseGround_of_no_task htask] at hrefused
    exact congrArg _ hrefused

end Sys2Proof.Machine

/-! Clock gates and clock supervision (R48, R51, R52). -/
namespace Sys2Proof.Machine

/-! ### Registers after a write -/

@[simp] theorem reg_setReg_same (k v r : Nat) (s : State) : (setReg k v s).reg k r = v % 2 ^ 32 := by
  simp [State.reg, setReg]

/-! ### Gates (R51) -/

theorem not_mem_setDel (l : List Nat) (k : Nat) : k ∉ setDel l k := by simp [setDel]

theorem mem_setAdd (l : List Nat) (k : Nat) : k ∈ setAdd l k := by
  unfold setAdd
  split
  · exact List.contains_iff_mem.mp ‹_›
  · simp

theorem doClkGateReqWrite_gateReq {s : State} (hw : writable s false = true) (v : W32) :
    (doClkGateReqWrite v s).reg 0x20800C 0 = v.toNat % 2 ^ 25 := by
  have hkeeps : (doClkGateReqWrite v s).reg 0x20800C 0 = (setReg 0x20800C (v.toNat % 2 ^ 25) s).reg 0x20800C 0 := by
    simp only [doClkGateReqWrite, hw]
    rfl
  rw [hkeeps, reg_setReg_same]
  omega

theorem doClkGateReqWrite_stopped (v : W32) (s : State) : (doClkGateReqWrite v s).clk.stopped = s.clk.stopped := by
  unfold doClkGateReqWrite
  split <;> rfl

theorem doClockDomainStop_of_met {d : Nat} {s : State} (hp : s.powered = true) (hallowed : s.clkPlan.2.1.testBit d = true)
    (hasked : (s.reg 0x20800C 0).testBit d = true) (hmet : stopMet s d = true) (hruns : d ∉ s.clk.stopped) :
    (doClockDomainStop d s).clk.stopped = setAdd s.clk.stopped d := by
  simp [doClockDomainStop, hp, hallowed, hasked, hmet, hruns]

/-- A domain that starts has left both lists, and the cues that it held do not gate it again. -/
theorem doClockDomainStart_clk {d : Nat} {s : State} (hstarting : d ∈ s.clk.starting) (hstopped : d ∈ s.clk.stopped) :
    (doClockDomainStart d s).clk = { s.clk with stopped := setDel s.clk.stopped d, starting := setDel s.clk.starting d } := by
  simp only [doClockDomainStart, List.contains_iff_mem, hstarting, hstopped, and_self, if_true]
  rw [(goOn_within _).same_clk rfl]
  exact (Within.foldl (fun u (q : Nat × CueSlot) => fireSlot_within q.1 u) (Within.refl _ _)).same_clk rfl

/-! ### Supervision (R52) -/

theorem doRefclkMeterInterval_of_near {ppm : Int} {s : State} (hp : s.powered = true) (h : ppm.natAbs ≤ 3000) :
    doRefclkMeterInterval ppm s = { s with clk := { s.clk with refPpm := ppm } } := by
  have hfar : ¬ 100000 < ppm.natAbs := by omega
  have hwarn : ¬ 3000 < ppm.natAbs := by omega
  simp [doRefclkMeterInterval, hp, hfar, hwarn]

theorem doRefclkMeterInterval_of_off {ppm : Int} {s : State} (hp : s.powered = true) (hlo : 3000 < ppm.natAbs)
    (hhi : ppm.natAbs ≤ 100000) :
    (doRefclkMeterInterval ppm s).clk = { s.clk with refPpm := ppm, warn := s.clk.warn ||| 1 } := by
  have hfar : ¬ 100000 < ppm.natAbs := by omega
  simp [doRefclkMeterInterval, hp, hfar, hlo]

/-- A clock alarm is a tamper alarm, whatever it notes of the root clock first. -/
theorem doClockAlarm_spec (c : ClockAlarm) {s : State} (hp : s.powered = true) (hc : s.dev.phase ≠ .curtainDown) :
    (doClockAlarm c s).dev.phase = .curtainDown ∧ (doClockAlarm c s).saf.rootErased = true ∧
      (doClockAlarm c s).saf.alarms = min (s.saf.alarms + 1) (2 ^ 32 - 1) := by
  unfold doClockAlarm
  split
  · exact alarm_spec 1 _ { s with clk := { s.clk with rootLock := false } } hp hc
  · exact alarm_spec 1 _ s hp hc

/-- Settles O18. -/
theorem clocksAreGatedAndWatched : Obligations.ClocksAreGatedAndWatched := by
  unfold Obligations.ClocksAreGatedAndWatched
  refine ⟨fun v s hw => ⟨doClkGateReqWrite v s, rfl, ?gateReq, ?stopped, ?gateCue⟩,
    fun d s hp hallowed hasked hmet hruns => ⟨doClockDomainStop d s, rfl, ?stops, ?stopCue⟩,
    fun d s hstarting hstopped => ⟨doClockDomainStart d s, rfl, ?runs, ?started⟩, fun ppm s hp hnear => ?near,
    fun ppm s hp hlo hhi => ⟨doRefclkMeterInterval ppm s, rfl, ?kept, ?warned⟩,
    fun c s hp hc => ⟨doClockAlarm c s, rfl, doClockAlarm_spec c hp hc⟩⟩
  case gateReq => exact doClkGateReqWrite_gateReq hw v
  case stopped => exact doClkGateReqWrite_stopped v s
  case gateCue => exact (doClkGateReqWrite_within v s).same_cue rfl
  case stops =>
    rw [doClockDomainStop_of_met hp hallowed hasked hmet hruns]
    exact mem_setAdd _ d
  case stopCue => exact (doClockDomainStop_within d s).same_cue rfl
  case runs =>
    rw [doClockDomainStart_clk hstarting hstopped]
    exact not_mem_setDel _ d
  case started =>
    rw [doClockDomainStart_clk hstarting hstopped]
    exact not_mem_setDel _ d
  case near => exact congrArg _ (doRefclkMeterInterval_of_near hp hnear)
  case kept => rw [doRefclkMeterInterval_of_off hp hlo hhi]
  case warned => rw [doRefclkMeterInterval_of_off hp hlo hhi]

end Sys2Proof.Machine

/-! The cue counter's steps, broadcasts and discipline (R55-R65). -/
namespace Sys2Proof.Machine

/-! ### A forward step (R55) -/

section Step
variable {q : Requester} {s : State} (hreach : mayReach s q .house = true) (hw : writable s false = true)
include hreach hw

theorem doCueStepWrite_of_houseLights {hi : W32} (hphase : s.dev.phase = .houseLights)
    (habove : s.cue.now < formed s q 0x200018 (s.reg 0x200018 0) hi) :
    (doCueStepWrite q hi s).cue =
      { s.cue with step := some (ceilDiv (formed s q 0x200018 (s.reg 0x200018 0) hi) 64 * 64) } := by
  have hcue : (takeHigh q 0x200018 hi s).cue = s.cue := (takeHigh_within ..).same_cue rfl
  simp [doCueStepWrite, hreach, hw, hphase, habove, hcue]

theorem doCueStepWrite_of_elsewhere {hi : W32} (hphase : s.dev.phase ≠ .houseLights) : (doCueStepWrite q hi s).cue = s.cue := by
  have hcue : (useLow q 0x200018 s).cue = s.cue := rfl
  simp [doCueStepWrite, hreach, hw, hphase, hcue]

end Step

/-! ### The broadcast (R57) -/

theorem atBroadcast_plain_spec {drift : List (Nat × Int)} {s : State} (hstep : s.cue.step = none) (hphase : s.prk.phase ≠ .waiting) :
    (atBroadcast drift s).cue.now = s.cue.now ∧ (atBroadcast drift s).wall = s.wall := by
  rw [atBroadcast_plain _ _ hstep hphase]
  exact ⟨(broadcast_now ..).1, (broadcast_within ..).same_wall rfl⟩

/-- A broadcast with no step requested and no load waiting brings the counter to the next multiple of 64. -/
theorem doCueBroadcast_spec {drift : List (Nat × Int)} {s : State} (hp : s.dev.perstHigh = true) (hsup : s.dev.waitSupplies = false)
    (hstep : s.cue.step = none) (hphase : s.prk.phase ≠ .waiting) :
    (doCueBroadcast drift s).cue.now = nextMultiple s.cue.now 64 ∧ (doCueBroadcast drift s).wall = s.wall + cyclesToBroadcast s.cue := by
  unfold doCueBroadcast
  rw [if_neg (by simp [hp, hsup])]
  extract_lets n ticked
  have hticks := repeat_asuTick ((s.wall + n) / 4 - s.wall / 4) s
  have hcue : ticked.cue = s.cue := hticks.same_cue rfl
  have hprk : ticked.prk = s.prk := hticks.same_prk rfl
  have hwall : ticked.wall = s.wall := hticks.same_wall rfl
  clear_value ticked
  obtain ⟨hnow, hsent⟩ := atBroadcast_plain_spec (drift := drift)
    (s := { ticked with
      wall := ticked.wall + n, cue := { ticked.cue with now := nextMultiple ticked.cue.now 64, periodDone := true } })
    (by rw [hcue]; exact hstep) (by rw [hprk]; exact hphase)
  rw [hnow, hsent, hcue, hwall]
  exact ⟨rfl, rfl⟩

/-! ### Taps (R59) and the rate (R61, R64) -/

theorem doTapSkewMeasure_tap {tap : Nat} {comp temp : Int} {s : State} (hp : s.powered = true) (ht : tap < 80) :
    Tab.at (doTapSkewMeasure tap comp temp s).cue.taps tap {} =
      { Tab.at s.cue.taps tap {} with comp := comp, measuring := false, measuredAt := s.wall, measuredTemp := temp } := by
  simp [doTapSkewMeasure, hp, ht]

theorem doTapSkewMeasure_now (tap : Nat) (comp temp : Int) (s : State) : (doTapSkewMeasure tap comp temp s).cue.now = s.cue.now := by
  unfold doTapSkewMeasure
  split <;> rfl

theorem doCueCalCtrl_one {v : W32} {s : State} (hw : writable s false = true) (hone : v.toNat.testBit 8 = false)
    (ht : bits v.toNat 6 0 < 80) :
    doCueCalCtrl v s = { s with cue := { s.cue with
      taps := Tab.update s.cue.taps (bits v.toNat 6 0) {} (fun x => { x with measuring := true }) } } := by
  simp [doCueCalCtrl, hw, hone, ht]

/-- A source that is off, or a code that names none, needs no permission of the configuration. -/
theorem doCueCtrlWrite_ctrl {v : W32} {s : State} (hw : writable s false = true) (hsrc : bits v.toNat 1 0 = 0 ∨ bits v.toNat 1 0 = 3) :
    (doCueCtrlWrite v s).cue.ctrl =
      (if bits v.toNat 1 0 = 0 then 0 else bits s.cue.ctrl 1 0) + field (bits v.toNat 8 8) 1 8 := by
  rcases hsrc with h | h <;> simp [doCueCtrlWrite, hw, h]

theorem doCueCtrlWrite_now (v : W32) (s : State) : (doCueCtrlWrite v s).cue.now = s.cue.now := by
  unfold doCueCtrlWrite
  split <;> rfl

theorem doCueRateAdjWrite_of_writable {s : State} (hw : writable s false = true) (v : W32) :
    doCueRateAdjWrite v s = { s with cue := { s.cue with rateAdj := clampRate s v.toInt } } := by
  simp [doCueRateAdjWrite, hw]

/-! ### The servo (R63, R65) -/

/-- One exchange of a locked servo. -/
theorem servoStep_cue_of_locked {v : ServoReport} (hv : v.locked = true) (s : State) :
    (servoStep v s).cue = { s.cue with
      ptpOffset := if s.cue.offsetFixed then s.cue.ptpOffset else v.offset
      offsetFixed := true
      locked := true
      holdover := false
      rateAdj := if s.cue.offsetFixed then clampRate s v.rate else s.cue.rateAdj
      stamp := s.cue.now } := by
  unfold servoStep
  extract_lets first newly old u
  have hu : u.cue = { s.cue with
      ptpOffset := if s.cue.offsetFixed then s.cue.ptpOffset else v.offset
      offsetFixed := true
      locked := true
      holdover := false
      rateAdj := if s.cue.offsetFixed then clampRate s v.rate else s.cue.rateAdj
      stamp := s.cue.now } := by
    cases hfixed : s.cue.offsetFixed <;> simp [u, old, first, hv, hfixed]
  split
  · exact ((raise_within ..).same_cue rfl).trans hu
  · exact hu

theorem doPtpEventMessage_of_source {port : Nat} {s : State} (hp : s.powered = true) (hsrc : bits s.cue.ctrl 1 0 = 1)
    (hport : bits s.cue.ctrl 8 8 = port) (ingress : Bool) (v : ServoReport) :
    doPtpEventMessage port ingress v s = servoStep v s := by
  simp [doPtpEventMessage, hp, hsrc, hport]

theorem doPtmResponse_of_source {s : State} (hp : s.powered = true) (hsrc : bits s.cue.ctrl 1 0 = 2) (v : ServoReport) :
    doPtmResponse v s = servoStep v s := by
  simp [doPtmResponse, hp, hsrc]

theorem doDisciplineSourceLost_cue {s : State} (hp : s.powered = true) (hsrc : bits s.cue.ctrl 1 0 ≠ 0) :
    (doDisciplineSourceLost s).cue = { s.cue with holdover := true, locked := false } := by
  simp [doDisciplineSourceLost, hp, hsrc]

/-- Settles O19. -/
theorem cueIsDisciplined : Obligations.CueIsDisciplined := by
  unfold Obligations.CueIsDisciplined
  refine ⟨?stepTaken, ?stepRefused, ?broadcast, ?tapMeasured, ?calibration, ?ctrl, ?rate, ?ptp, ?ptm, ?lost⟩
  case stepTaken =>
    intro q hi s hreach hw hphase habove
    refine ⟨doCueStepWrite q hi s, rfl, ?_⟩
    rw [doCueStepWrite_of_houseLights hreach hw hphase habove]
    exact ⟨rfl, rfl⟩
  case stepRefused =>
    exact fun q hi s hreach hw hphase => ⟨doCueStepWrite q hi s, rfl, doCueStepWrite_of_elsewhere hreach hw hphase⟩
  case broadcast =>
    exact fun drift s hp hsup hstep hphase => ⟨doCueBroadcast drift s, rfl, doCueBroadcast_spec hp hsup hstep hphase⟩
  case tapMeasured =>
    intro tap comp temp s hp ht
    refine ⟨doTapSkewMeasure tap comp temp s, rfl, ?_, ?_, doTapSkewMeasure_now ..⟩
    · rw [doTapSkewMeasure_tap hp ht]
    · rw [doTapSkewMeasure_tap hp ht]
  case calibration =>
    intro v s hw hone ht
    refine ⟨doCueCalCtrl v s, rfl, ?_, ?_⟩
    · rw [doCueCalCtrl_one hw hone ht, Tab.at_update]
    · rw [doCueCalCtrl_one hw hone ht]
  case ctrl => exact fun v s hw hsrc => ⟨doCueCtrlWrite v s, rfl, doCueCtrlWrite_ctrl hw hsrc, doCueCtrlWrite_now v s⟩
  case rate => exact fun v s hw => congrArg _ (doCueRateAdjWrite_of_writable hw v)
  case ptp =>
    intro port ingress v s hp hsrc hport hv
    refine ⟨doPtpEventMessage port ingress v s, rfl, ?_⟩
    rw [doPtpEventMessage_of_source hp hsrc hport, servoStep_cue_of_locked hv]
    exact ⟨rfl, rfl, rfl, rfl, fun h => by simp [h], fun h => by simp [h]⟩
  case ptm =>
    intro v s hp hsrc hv
    refine ⟨doPtmResponse v s, rfl, ?_⟩
    rw [doPtmResponse_of_source hp hsrc, servoStep_cue_of_locked hv]
    exact ⟨rfl, rfl, rfl, fun h => by simp [h], fun h => by simp [h]⟩
  case lost =>
    intro s hp hsrc
    refine ⟨doDisciplineSourceLost s, rfl, ?_⟩
    rw [doDisciplineSourceLost_cue hp hsrc]
    exact ⟨rfl, rfl, rfl, rfl⟩

end Sys2Proof.Machine

/-! Cues posted, armed, fired and cancelled (R66-R75). -/
namespace Sys2Proof.Machine

/-! ### Posting (R66, R67) -/

/-- The slot that a post fills. -/
def postedSlot (p : Poster) (c : CueReq) (now : Nat) : CueSlot :=
  { poster := p, fire := c.fire, target := c.target, action := c.action, tag := c.tag, phase := .posted
    late := decide (c.fire < now + 2048), lateFlag := false, postedAt := now, cancelling := false }

/-- A post into a share with room takes the lowest free slot. -/
theorem postCue_of_room {p : Poster} {c : CueReq} {k : Nat} {s : State} (hroom : shareRoom s.cue p = true)
    (hfree : Tab.freeKey s.cue.slots 4096 0 = some k) :
    (postCue p c s).1.1 ≠ .noSlot ∧ (postCue p c s).1.2 = k ∧
      (postCue p c s).2.cue = { s.cue with slots := Tab.put s.cue.slots k (postedSlot p c s.cue.now) } := by
  simp only [postCue, hroom, hfree, if_true]
  refine ⟨?_, trivial, ?_⟩
  · split <;> decide
  · split <;> rfl

theorem postCue_of_no_room {p : Poster} {s : State} (hroom : shareRoom s.cue p = false) (c : CueReq) :
    postCue p c s = ((.noSlot, 0), s) := by
  simp [postCue, hroom]

theorem doCuePost_of_no_room {p : Poster} {s : State} (hroom : shareRoom s.cue p = false) (c : CueReq) : doCuePost p c s = s := by
  unfold doCuePost onlyIf post
  rw [postCue_of_no_room hroom]
  split <;> rfl

theorem doCuePost_slots {p : Poster} {c : CueReq} {k : Nat} {s : State} (hp : s.powered = true) (hroom : shareRoom s.cue p = true)
    (hfree : Tab.freeKey s.cue.slots 4096 0 = some k) :
    (doCuePost p c s).cue.slots = Tab.put s.cue.slots k (postedSlot p c s.cue.now) := by
  obtain ⟨-, -, hcue⟩ := postCue_of_room (c := c) hroom hfree
  rw [doCuePost, onlyIf, if_pos hp, post, hcue]

/-- A house post into a share with room is pending in the slot it took. -/
theorem doCuePostCmd_cue {v : W32} {k : Nat} {s : State} (hw : writable s false = true) (hidle : s.cue.postResult.status ≠ 0xF)
    (htarget : bits v.toNat 28 24 ≤ 19) (hroom : shareRoom s.cue .prompters = true)
    (hfree : Tab.freeKey s.cue.slots 4096 0 = some k) :
    (doCuePostCmd v s).cue = { s.cue with
      slots := Tab.put s.cue.slots k (postedSlot .prompters
        { fire := s.reg64 0x200200, target := bits v.toNat 28 24, action := .raw (bits v.toNat 23 16) (bits v.toNat 15 0), tag := 0 } s.cue.now)
      postResult := ⟨0xF, k⟩ } := by
  have htarget' : ¬ 19 < bits v.toNat 28 24 := by omega
  obtain ⟨hstatus, hslot, hcue⟩ := postCue_of_room (c :=
    { fire := s.reg64 0x200200, target := bits v.toNat 28 24, action := .raw (bits v.toNat 23 16) (bits v.toNat 15 0), tag := 0 }) hroom hfree
  simp only [doCuePostCmd, hw, hidle, htarget', or_self, if_false, Bool.true_eq_false]
  simp only [hcue, hslot]

/-! ### Arming and cancelling (R67, R70, R75) -/

theorem doCueArm_slots {slot : Nat} {k : CueSlot} {s : State} (hslot : Tab.find s.cue.slots slot = some k) (hposted : k.phase = .posted) :
    (doCueArm slot s).cue.slots = Tab.put s.cue.slots slot { k with phase := .armed, lateFlag := decide (k.fire ≤ s.cue.now) } := by
  simp [doCueArm, hslot, hposted]

theorem cancelCue_of_poster {p : Poster} {slot : Nat} {k : CueSlot} {s : State} (hslot : Tab.find s.cue.slots slot = some k)
    (hposter : k.poster = p) (hfirst : k.cancelling = false) :
    cancelCue p slot s = { s with cue := { s.cue with
      slots := Tab.put s.cue.slots slot { k with cancelling := true, cancelAt := s.cue.now } } } := by
  simp [cancelCue, hslot, hposter, hfirst]

theorem cancelCue_of_other {p : Poster} {slot : Nat} {k : CueSlot} {s : State} (hslot : Tab.find s.cue.slots slot = some k)
    (hposter : k.poster ≠ p) : cancelCue p slot s = s := by
  simp [cancelCue, hslot, hposter]

theorem dropCue_slots (slot : Nat) (s : State) : (dropCue slot s).cue.slots = Tab.del s.cue.slots slot := rfl

theorem doCancelArrival_of_cancelling {slot : Nat} {k : CueSlot} {s : State} (hslot : Tab.find s.cue.slots slot = some k)
    (hcancel : k.cancelling = true) : doCancelArrival slot s = dropCue slot s := by
  simp [doCancelArrival, hslot, hcancel]

/-- A house cancel of a house-posted cue is pending, and sets out. -/
theorem doCueCancelWrite_of_housePosted {v : W32} {k : CueSlot} {s : State} (hw : writable s false = true)
    (hidle : s.cue.cancelResult.status ≠ 0xF) (hslot : Tab.find s.cue.slots (bits v.toNat 11 0) = some k) (hhouse : housePosted k = true)
    (hfirst : k.cancelling = false) :
    doCueCancelWrite v s = { s with cue := { s.cue with
      cancelResult := ⟨0xF, bits v.toNat 11 0⟩
      slots := Tab.put s.cue.slots (bits v.toNat 11 0) { k with cancelling := true, cancelAt := s.cue.now } } } := by
  have hposter : k.poster = .prompters := by
    simp only [housePosted, Bool.and_eq_true, beq_iff_eq] at hhouse
    exact hhouse.1
  simp only [doCueCancelWrite, hw, hidle, hslot, hhouse, or_self, if_false, if_true, Bool.true_eq_false]
  exact cancelCue_of_poster hslot hposter hfirst

/-! ### Firing (R67-R71) -/

/-- The only cue, once due, fires alone. -/
theorem doCueFire_of_only {slot : Nat} {k : CueSlot} {s : State} (hruns : s.runs = true) (hslots : s.cue.slots = [(slot, k)])
    (harmed : k.phase = .armed) (hdue : k.fire ≤ s.cue.now) : doCueFire slot s = fireSlot slot s := by
  have hk : s.cue.due k = true := by simp [CueState.due, harmed, hdue]
  simp [doCueFire, hslots, Tab.find, hruns, hk]

theorem find_of_only {α : Type} {t : Tab α} {k : Nat} {a : α} (h : t = [(k, a)]) : Tab.find t k = some a := by
  simp [h, Tab.find]

theorem fireSlot_of_inTime {slot : Nat} {k : CueSlot} {s : State} (hslot : Tab.find s.cue.slots slot = some k) (h : inTime k = true) :
    fireSlot slot s = dropCue slot s := by
  simp [fireSlot, hslot, h]

theorem fireSlot_of_stopped {slot : Nat} {k : CueSlot} {s : State} (hslot : Tab.find s.cue.slots slot = some k) (h : inTime k = false)
    (hstopped : (cueDomain k).any s.domainStopped = true) :
    fireSlot slot s = { s with cue := { s.cue with slots := Tab.put s.cue.slots slot { k with phase := .held, lateFlag := true } } } := by
  simp [fireSlot, hslot, h, hstopped]

theorem fireSlot_of_running {slot : Nat} {k : CueSlot} {s : State} (hslot : Tab.find s.cue.slots slot = some k) (h : inTime k = false)
    (hruns : (cueDomain k).any s.domainStopped = false) :
    fireSlot slot s = pumpAll (fireAction slot k { s with cue := { s.cue with slots := Tab.del s.cue.slots slot } }) := by
  simp [fireSlot, hslot, h, hruns]

/-- A bank swap that acts leaves its slot on the new bank. -/
theorem fireSlot_bankSwap {slot n : Nat} {b : Bool} {k : CueSlot} {s : State} (hslot : Tab.find s.cue.slots slot = some k)
    (haction : k.action = .bankSwap n b) (h : inTime k = false) (hruns : (cueDomain k).any s.domainStopped = false) :
    (fireSlot slot s).slot n = { s.slot n with bankB := b, want := none } := by
  have hhop : (fireSlot slot s).hop = (onSlot n (fun x => { x with bankB := b, want := none }) s).hop := by
    rw [fireSlot_of_running hslot h hruns, (pumpAll_within _).same_hop rfl, fireAction, haction]
    rfl
  simp [State.slot, hhop, onSlot]

/-- Settles O20. -/
theorem cuesArePostedAndFire : Obligations.CuesArePostedAndFire := by
  unfold Obligations.CuesArePostedAndFire
  refine ⟨?posted, ?noRoom, ?armed, ?bankSwap, ?held, ?cancelledInTime, ?cancel, ?notMine, ?arrival, ?housePost, ?houseCancel⟩
  case posted =>
    intro p c k s hp hroom hfree
    refine ⟨doCuePost p c s, rfl, ?_⟩
    rw [doCuePost_slots hp hroom hfree, Tab.find_put]
    rfl
  case noRoom => exact fun p c s hroom => congrArg _ (doCuePost_of_no_room hroom c)
  case armed =>
    intro slot k s hslot hposted
    refine ⟨doCueArm slot s, rfl, ?_⟩
    rw [doCueArm_slots hslot hposted, Tab.find_put]
  case bankSwap =>
    intro slot n b k s hruns hslots haction harmed hdue hnot hdomain
    refine ⟨doCueFire slot s, rfl, ?_⟩
    rw [doCueFire_of_only hruns hslots harmed hdue, fireSlot_bankSwap (find_of_only hslots) haction hnot hdomain]
    exact ⟨rfl, rfl⟩
  case held =>
    intro slot k s hruns hslots harmed hdue hnot hdomain
    refine ⟨doCueFire slot s, rfl, ?_⟩
    rw [doCueFire_of_only hruns hslots harmed hdue, fireSlot_of_stopped (find_of_only hslots) hnot hdomain, Tab.find_put]
  case cancelledInTime =>
    intro slot k s hruns hslots harmed hdue hcancel hearly
    have hin : inTime k = true := by simp [inTime, horizon, hcancel, hearly]
    refine ⟨doCueFire slot s, rfl, ?_⟩
    rw [doCueFire_of_only hruns hslots harmed hdue, fireSlot_of_inTime (find_of_only hslots) hin, dropCue_slots]
    exact ⟨Tab.find_del .., rfl, rfl⟩
  case cancel =>
    intro p slot k s hslot hposter hfirst
    refine ⟨doCueCancel p slot s, rfl, ?_⟩
    rw [doCueCancel, cancelCue_of_poster hslot hposter hfirst, Tab.find_put]
  case notMine => exact fun p slot k s hslot hposter => congrArg _ (cancelCue_of_other hslot hposter)
  case arrival =>
    intro slot k s hslot hcancel
    refine ⟨doCancelArrival slot s, rfl, ?_⟩
    rw [doCancelArrival_of_cancelling hslot hcancel, dropCue_slots, Tab.find_del]
  case housePost =>
    intro v k s hw hidle htarget hroom hfree
    refine ⟨doCuePostCmd v s, rfl, ?_⟩
    rw [doCuePostCmd_cue hw hidle htarget hroom hfree, Tab.find_put]
    exact ⟨rfl, rfl⟩
  case houseCancel =>
    intro v k s hw hidle hslot hhouse hfirst
    refine ⟨doCueCancelWrite v s, rfl, ?_⟩
    rw [doCueCancelWrite_of_housePosted hw hidle hslot hhouse hfirst, Tab.find_put]
    exact ⟨rfl, rfl⟩

end Sys2Proof.Machine

/-! A beat's delayed tasks (R72, R297). -/
namespace Sys2Proof.Machine

theorem dueEntries_of_one {g : SmgState} {l b i n : Nat} (hdelays : g.delays = [(l, [(b, i)])]) (hb : b ≤ n) :
    dueEntries g n = [(b, i)] := by
  simp [dueEntries, hdelays, hb, insertDue]

theorem beatOut_of_delay {i : Nat} {x : Task} {s : State} (w : Work) (htask : Tab.find s.smg.tasks i = some x) (hdelay : x.timed = false) :
    beatOut w i s = (w, enqueue i s) := by
  simp [beatOut, htask, hdelay]

theorem enqueue_delayWaits (i : Nat) (s : State) : (enqueue i s).smg.delayWaits = s.smg.delayWaits := by
  unfold enqueue
  split <;> rfl

/-- With no task waiting for an entry, no delay list is filled. -/
theorem fillDelays_of_none {w : Work} {s : State} (h : s.smg.delayWaits = []) (ls : List Nat) :
    ls.foldl (fun acc l => fillDelay (Tab.at acc.2.smg.delayWaits l []).length l acc.1 acc.2) (w, s) = (w, s) := by
  induction ls with
  | nil => rfl
  | cons l ls ih =>
    have hfill : fillDelay (Tab.at s.smg.delayWaits l []).length l w s = (w, s) := by
      rw [h]
      rfl
    rw [List.foldl_cons, hfill]
    exact ih

/-- The only delay list has given up its entries, and no refused post is left. -/
def delaysReleased (l : Nat) (s : State) : State := onSmg (fun g => { g with delays := [(l, [])], retries := [] }) s

/-- Settles O21: the entry leaves its list, its task is put on its ready list, and nothing else waited. -/
theorem beatsReleaseDelayedTasks : Obligations.BeatsReleaseDelayedTasks := by
  unfold Obligations.BeatsReleaseDelayedTasks
  intro l b i x s hruns hdelays hb hretries hwaits htask hdelay
  have hleft : onSmg (fun g => { g with
      delays := Tab.mapVals g.delays (fun _ l => l.filter (fun e => !decide (e.1 ≤ s.cue.now / 1024))), retries := [] }) s =
      delaysReleased l s := by
    simp [delaysReleased, onSmg, hdelays, Tab.mapVals, hb]
  have hout := beatOut_of_delay (s := delaysReleased l s) ⟨[], []⟩ htask hdelay
  have hfill := fillDelays_of_none (w := ⟨[], []⟩) ((enqueue_delayWaits i (delaysReleased l s)).trans hwaits) (List.range 8)
  have hbeat : beatBoundary s = settleTasks ⟨[], []⟩ (enqueue i (delaysReleased l s)) := by
    unfold beatBoundary
    simp only [hleft, dueEntries_of_one hdelays hb, hretries, List.foldl_cons, List.foldl_nil, hout, hfill]
  have hdo : doBeatBoundary s = beatBoundary s := by simp [doBeatBoundary, onlyIf, hruns]
  exact congrArg _ (hdo.trans hbeat)

end Sys2Proof.Machine

/-! Ethernet ports, pauses and congestion (R84-R86, R96). -/
namespace Sys2Proof.Machine

@[simp] theorem raiseObj_hfe (src obj tag : Nat) (s : State) : (raiseObj src obj tag s).hfe = s.hfe := (raiseObj_within ..).same_hfe rfl
@[simp] theorem raiseObj_scn (src obj tag : Nat) (s : State) : (raiseObj src obj tag s).scn = s.scn := (raiseObj_within ..).same_scn rfl
@[simp] theorem raiseObj_wall (src obj tag : Nat) (s : State) : (raiseObj src obj tag s).wall = s.wall := (raiseObj_within ..).same_wall rfl

/-- A PHY type fits the mode: two lanes in the unsplit one, one lane in the split one (R84). -/
def phyFits (mode : Nat) (phy : EthPhy) : Prop :=
  mode ≠ 1 ∧ (phy.phy = .cr2 ∨ phy.phy = .kr2) ∧ phy.lanes = 2 ∨ mode = 1 ∧ (phy.phy = .cr1 ∨ phy.phy = .kr1) ∧ phy.lanes = 1

theorem doEthLinkUp_of_fits {lp : Nat} {phy : EthPhy} {s : State} (hpow : s.powered = true) (hreh : s.dev.rehDone.contains 8 = true)
    (hlp : lportOk s lp = true) (hfec : phy.fecLocked = true) (hfit : phyFits (s.portRec (1 + lp / 2)).1 phy) :
    doEthLinkUp lp phy s = onPort lp (fun p => { p with up := true, fec := true, lanes := phy.lanes }) s := by
  unfold doEthLinkUp
  obtain ⟨hmode, hphy | hphy, hlanes⟩ | ⟨hmode, hphy | hphy, hlanes⟩ := hfit <;>
    simp_all

theorem doLogicalPortDown_of_unused {lp : Nat} {s : State} (hup : (Tab.at s.hfe.eth lp {}).up = true) (hconns : ∀ p ∈ s.hfe.conns, p.2.lport ≠ lp)
    (hqps : ∀ p ∈ s.hfe.qps, p.2.lport ≠ lp) : doLogicalPortDown lp s = raiseObj 60 (2 + lp) 0 (onPort lp (fun _ => {}) s) := by
  have hcs : s.hfe.conns.filter (fun p => p.2.lport == lp) = [] := List.filter_eq_nil_iff.2 fun p hp => by simpa using hconns p hp
  have hqs : s.hfe.qps.filter (fun p => p.2.lport == lp) = [] := List.filter_eq_nil_iff.2 fun p hp => by simpa using hqps p hp
  simp [doLogicalPortDown, hup, hcs, hqs]

theorem doEthFrame_of_good {lp : Nat} {f : EthFrame} {s : State} (hup : (Tab.at s.hfe.eth lp {}).up = true) (hfcs : f.fcsOk = true)
    (hmin : 64 ≤ f.len) (hmax : f.len ≤ 9216) (hqp : f.qp = none) : doEthFrame lp f s = pfcAfter lp f.fill s := by
  simp [doEthFrame, hup, hfcs, Nat.not_lt.2 hmin, Nat.not_lt.2 hmax, hqp]

theorem pfcAfter_fill (lp fill : Nat) (s : State) : (Tab.at (pfcAfter lp fill s).hfe.eth lp {}).fill = fill := by
  unfold pfcAfter
  extract_lets p
  split
  split
  · simp
  · split <;> simp

theorem pfcAfter_xoff {lp fill : Nat} {s : State} (hon : s.rocePfc.2 = true) (hfill : 6291456 < fill)
    (hsent : (Tab.at s.hfe.eth lp {}).xoffSent = false) : .xoff lp s.rocePfc.1 ∈ (pfcAfter lp fill s).out := by
  simp [pfcAfter, hon, hfill, hsent]

theorem doPauseFrame_of_up {lp : Nat} {s : State} (prio : Option Nat) (on : Bool) (hup : (Tab.at s.hfe.eth lp {}).up = true) :
    doPauseFrame lp prio on s = onPort lp (fun p =>
      match prio with
      | none => { p with paused := on }
      | some k => { p with pausedPrios := if on then setAdd p.pausedPrios k else setDel p.pausedPrios k }) s := by
  simp [doPauseFrame, hup] <;> rfl

theorem doCnpReceived_qp {qp : Nat} {q : RdmaQp} {s : State} (hq : Tab.find s.hfe.qps qp = some q) :
    Tab.find (doCnpReceived qp s).hfe.qps qp = some { q with rate := q.rate / 2, lastStep := s.wall } := by
  simp [doCnpReceived, hq]

theorem doRateRecoveryStep_qp {qp : Nat} {q : RdmaQp} {s : State} (hq : Tab.find s.hfe.qps qp = some q) (hdue : q.lastStep + 55000 ≤ s.wall)
    (hrate : q.rate < 100000) : Tab.find (doRateRecoveryStep qp s).hfe.qps qp =
      some { q with rate := min 100000 (q.rate + 5000), lastStep := s.wall } := by
  simp [doRateRecoveryStep, hq, hdue, hrate]

/-- Settles O23: each clause reads the port or the queue pair after its command. -/
theorem ethernetPortsRun : Obligations.EthernetPortsRun := by
  unfold Obligations.EthernetPortsRun
  refine ⟨?up, ?down, ?frame, ?pause, ?pfc, ?cnp, ?recovery⟩
  case up =>
    intro lp phy s hpow hreh hlp hfec hfit
    refine ⟨doEthLinkUp lp phy s, rfl, ?_⟩
    rw [doEthLinkUp_of_fits hpow hreh hlp hfec hfit]
    simp
  case down =>
    intro lp s hup hconns hqps
    refine ⟨doLogicalPortDown lp s, rfl, ?_⟩
    rw [doLogicalPortDown_of_unused hup hconns hqps]
    simp
  case frame =>
    intro lp f s hup hfcs hmin hmax hqp
    refine ⟨doEthFrame lp f s, rfl, ?_⟩
    rw [doEthFrame_of_good hup hfcs hmin hmax hqp]
    exact ⟨pfcAfter_fill lp f.fill s, pfcAfter_xoff⟩
  case pause =>
    intro lp on s hup
    refine ⟨doPauseFrame lp none on s, rfl, ?_⟩
    rw [doPauseFrame_of_up none on hup]
    simp
  case pfc =>
    intro lp k s hup
    refine ⟨doPauseFrame lp (some k) true s, rfl, ?_⟩
    rw [doPauseFrame_of_up (some k) true hup]
    simp [mem_setAdd]
  case cnp => exact fun qp q s hq => ⟨doCnpReceived qp s, rfl, doCnpReceived_qp hq⟩
  case recovery => exact fun qp q s hq hdue hrate => ⟨doRateRecoveryStep qp s, rfl, doRateRecoveryStep_qp hq hdue hrate⟩

end Sys2Proof.Machine

/-! NVMe/TCP connections, TLS and PDUs (R88, R91, R92, R100-R103). -/
namespace Sys2Proof.Machine

theorem length_padTo (b : Bytes) (n : Nat) : (padTo b n).length = n := by
  simp [padTo]
  omega

/-- The FABRIC record does not stand in the host front end. -/
theorem fabricRec_hfe (h : HfeState) (s : State) : ({ s with hfe := h } : State).fabricRec = s.fabricRec := rfl

theorem terminate_tells (src fes conn : Nat) (s : State) :
    .termReq conn fes ∈ (terminate src fes conn s).out ∧ .closed conn ∈ (terminate src fes conn s).out :=
  ⟨(loseConn_within ..).out_mem (by simp), (loseConn_within ..).out_mem (by simp)⟩

theorem doTcpIcreq_of_new {conn : Nat} {ic : IcReq} {s : State} (hnew : Tab.find s.hfe.conns conn = none) (hroom : connRoom s = true)
    (hup : netUp s ic.lport ic.net = true) (htls : s.fabricRec.2.2 = false) (hlen : ic.lenOk = true) (hpfv : ic.pfv = 0) (hpda : ic.hpda ≤ 31) :
    .icResp conn ∈ (doTcpIcreq conn ic s).out ∧
      (Tab.find (doTcpIcreq conn ic s).hfe.conns conn).map (fun k => (k.icDone, k.hdgst, k.ddgst, k.maxr2t)) =
        some (true, ic.hdgst, ic.ddgst, ic.maxr2t) := by
  simp [doTcpIcreq, hnew, hroom, hup, hlen, hpfv, Nat.not_lt.2 hpda, newConn, fabricRec_hfe, htls]

section Capsules
variable {conn c : Nat} {cap : Capsule} {k : TcpConn} {s : State}

theorem doTcpCapsule_of_accepted (hk : Tab.find s.hfe.conns conn = some k) (hic : k.icDone = true) (hh : k.hdgst = false) (hd : k.ddgst = false)
    (hc : k.ctrl = some c) (hfree : sqFull s c k.qid = false) (hall : cap.inCapsule = cap.cmdLen) (hmax : cap.inCapsule ≤ 8192) :
    doTcpCapsule conn cap s =
      if capsuleRoom s c cap ∧ k.waiting = [] then queueCapsule c k.qid cap s
      else { s with hfe := { s.hfe with conns := Tab.put s.hfe.conns conn { k with waiting := k.waiting ++ [cap] } } } := by
  have hmax' : ¬ 8192 < cap.cmdLen := by omega
  simp [doTcpCapsule, hk, hic, hh, hd, hc, hfree, hall, hmax']

end Capsules

/-- A delivered piece that leaves the request open moves its `got`, and no connection. -/
theorem deliver_of_more {rid : Nat} {r : DataReq} {b : Bytes} {s : State} (hmore : r.got + b.length < r.len) :
    ∃ u, deliver rid r b s = goOn u ∧ Tab.find u.hfe.reqs rid = some { r with got := r.got + b.length } ∧ u.hfe.conns = s.hfe.conns := by
  refine ⟨_, rfl, ?_, rfl⟩
  simp [Nat.not_le.2 hmore]

theorem doH2cData_of_expected {conn : Nat} {p : H2cPdu} {k : TcpConn} {r : DataReq} {s : State} (hk : Tab.find s.hfe.conns conn = some k)
    (hic : k.icDone = true) (hh : k.hdgst = false) (hd : k.ddgst = false) (hmax : p.len ≤ 131072) (hr : Tab.find s.hfe.reqs p.rid = some r)
    (hkind : r.kind = .r2t) (hconn : r.conn = conn) (hopen : r.failed = false) (hoff : p.off = r.off + r.got) (hlen : r.got + p.len ≤ r.len) :
    doH2cData conn p s = deliver p.rid r (padTo p.bytes p.len) s := by
  simp [doH2cData, hk, hic, hh, hd, Nat.not_lt.2 hmax, hr, hkind, hconn, hopen, hoff, Nat.not_lt.2 hlen]

theorem loseConn_of_unbound {conn : Nat} {k : TcpConn} {s : State} (hk : Tab.find s.hfe.conns conn = some k) (hc : k.ctrl = none) :
    loseConn conn s = { s with hfe := { s.hfe with conns := Tab.del s.hfe.conns conn } } := by
  simp [loseConn, hk, hc]

/-- A lost queue is gone with its completion queue before fetching goes on. -/
theorem loseQueue_gone (c q : Nat) (s : State) :
    ∃ u, loseQueue c q s = goOn u ∧ Tab.find u.scn.sqs (qKey c q) = none ∧ Tab.find u.scn.cqs (qKey c q) = none :=
  ⟨_, rfl, Tab.find_del .., Tab.find_del ..⟩

theorem loseConn_of_ioQueue {conn c : Nat} {k : TcpConn} {s : State} (hk : Tab.find s.hfe.conns conn = some k) (hc : k.ctrl = some c)
    (hq : k.qid ≠ 0) : loseConn conn s = loseQueue c k.qid { s with hfe := { s.hfe with conns := Tab.del s.hfe.conns conn } } := by
  simp [loseConn, hk, hc, hq]

theorem doTlsHandshake_of_agreed {conn tag : Nat} {m : TlsMsg} {s : State} (hnew : Tab.find s.hfe.conns conn = none) (hroom : connRoom s = true)
    (hup : netUp s m.lport m.net = true) (hsuite : m.suite = true) (hgroup : m.group = true) (hpsk : m.pskTag = some tag)
    (hok : m.violation = false) : .tlsEstablished conn ∈ (doTlsHandshake conn m s).out ∧
      (Tab.find (doTlsHandshake conn m s).hfe.conns conn).map (fun k => (k.tls, k.tag)) =
        some (some { tag := tag, rxRecords := 0, txRecords := 0 }, some tag) := by
  simp [doTlsHandshake, hnew, hroom, hup, hsuite, hgroup, hpsk, hok]

section Tls
variable {conn : Nat} {k : TcpConn} {x : TlsSession} {s : State} (hk : Tab.find s.hfe.conns conn = some k) (htls : k.tls = some x)
include hk htls

theorem doTlsRecord_authentic :
    Tab.find (doTlsRecord conn true s).hfe.conns conn = some { k with tls := some { x with rxRecords := x.rxRecords + 1 } } := by
  simp [doTlsRecord, hk, htls]

theorem doTlsRecord_forged :
    .tlsAlert conn 20 ∈ (doTlsRecord conn false s).out ∧ .closed conn ∈ (doTlsRecord conn false s).out := by
  have hdo : doTlsRecord conn false s =
      closeConn conn (emit (.tlsAlert conn 20) (count1 0x30004C (raiseObj 26 conn (s.connTag conn) s))) := by
    simp [doTlsRecord, hk, htls]
  rw [hdo]
  exact ⟨(loseConn_within ..).out_mem (by simp), (loseConn_within ..).out_mem (by simp)⟩

theorem doTlsKeyUpdateDue_sent : .tlsKeyUpdate conn ∈ (doTlsKeyUpdateDue conn s).out ∧
    Tab.find (doTlsKeyUpdateDue conn s).hfe.conns conn = some { k with tls := some { x with txRecords := 0 } } := by
  simp [doTlsKeyUpdateDue, hk, htls]

end Tls

/-- Settles O24: each clause follows one PDU, record or loss to the connection it leaves. -/
theorem tcpConnectionsRun : Obligations.TcpConnectionsRun := by
  unfold Obligations.TcpConnectionsRun
  refine ⟨?icreq, ?notAllowed, ?queued, ?waits, ?h2c, ?lostUnbound, ?lostQueue, ?handshake, ?authentic, ?forged, ?keyUpdate⟩
  case icreq =>
    exact fun conn ic s hnew hroom hup htls hlen hpfv hpda => ⟨doTcpIcreq conn ic s, rfl, doTcpIcreq_of_new hnew hroom hup htls hlen hpfv hpda⟩
  case notAllowed =>
    intro conn k s hk
    have hdo : doPduTypeNotAllowed conn s = terminate 18 2 conn s := by simp [doPduTypeNotAllowed, Tab.has, hk]
    exact ⟨_, congrArg Host.Outcome.next hdo, terminate_tells 18 2 conn s⟩
  case queued =>
    intro conn c cap k s hk hic hh hd hc hfree hall hmax hnone hroom
    exact congrArg _ ((doTcpCapsule_of_accepted hk hic hh hd hc hfree hall hmax).trans (if_pos ⟨hroom, hnone⟩))
  case waits =>
    intro conn c cap k s hk hic hh hd hc hfree hall hmax hroom
    have hdo := (doTcpCapsule_of_accepted hk hic hh hd hc hfree hall hmax).trans (if_neg (by simp [hroom]))
    exact ⟨_, congrArg Host.Outcome.next hdo, Tab.find_put ..⟩
  case h2c =>
    intro conn p k r s hk hic hh hd hmax hr hkind hconn hopen hoff hlen
    have hdo := doH2cData_of_expected hk hic hh hd hmax hr hkind hconn hopen hoff (Nat.le_of_lt hlen)
    obtain ⟨u, hu, hgot, hconns⟩ := deliver_of_more (rid := p.rid) (r := r) (b := padTo p.bytes p.len) (s := s) (by rwa [length_padTo])
    exact ⟨u, congrArg _ (hdo.trans hu), by rw [hgot, length_padTo]; rfl, hconns⟩
  case lostUnbound =>
    intro conn k s hk hc
    exact ⟨_, congrArg Host.Outcome.next (loseConn_of_unbound hk hc), Tab.find_del .., rfl⟩
  case lostQueue =>
    intro conn c k s hk hc hq
    obtain ⟨u, hu, hsq, hcq⟩ := loseQueue_gone c k.qid { s with hfe := { s.hfe with conns := Tab.del s.hfe.conns conn } }
    exact ⟨u, congrArg _ ((loseConn_of_ioQueue hk hc hq).trans hu), hsq, hcq⟩
  case handshake =>
    intro conn tag m s hnew hroom hup hsuite hgroup hpsk hok
    exact ⟨doTlsHandshake conn m s, rfl, doTlsHandshake_of_agreed hnew hroom hup hsuite hgroup hpsk hok⟩
  case authentic => exact fun conn k x s hk htls => ⟨doTlsRecord conn true s, rfl, doTlsRecord_authentic hk htls⟩
  case forged => exact fun conn k x s hk htls => ⟨doTlsRecord conn false s, rfl, doTlsRecord_forged hk htls⟩
  case keyUpdate => exact fun conn k x s hk htls => ⟨doTlsKeyUpdateDue conn s, rfl, doTlsKeyUpdateDue_sent hk htls⟩

end Sys2Proof.Machine

/-! TLPs, data requests, management messages and addresses (R80, R94, R99-R105). -/
namespace Sys2Proof.Machine

section Tlps
variable {port fn off size : Nat} {t : Tlp} {s : State} (hup : (s.link port).up = true) (hide : t.ideFailed = none) (hform : t.malformed = false)
include hup hide hform

theorem doPcieTlp_read {bar : Nat} (hkind : t.kind = .read (some bar) off size) (hon : fnEnabled s port fn = true)
    (hin : insideBar port fn (some bar) off size = true) :
    doPcieTlp port fn t s = emit (.readCompletion port fn (barRead port fn bar off size s).1) (barRead port fn bar off size s).2 := by
  simp [doPcieTlp, hup, hide, hform, hkind, hon, hin]

theorem doPcieTlp_write {bar val : Nat} (hpoison : t.poisoned = false) (hkind : t.kind = .write (some bar) off size val)
    (hon : fnEnabled s port fn = true) (hin : insideBar port fn (some bar) off size = true) :
    doPcieTlp port fn t s = barWrite port fn bar off size val s := by
  simp [doPcieTlp, hup, hide, hform, hpoison, hkind, hon, hin]

theorem doPcieTlp_outside {bar : Option Nat} (hkind : t.kind = .read bar off size) (hout : insideBar port fn bar off size = false) :
    doPcieTlp port fn t s = unsupported port fn s := by
  simp [doPcieTlp, hup, hide, hform, hkind, hout]

end Tlps

theorem dmaStopped_of_fabric {c : Nat} {k : Ctrl} {s : State} (hk : s.ctrlOf c = some k) (hfabric : k.transport = 1) :
    s.dmaStopped c = false := by
  simp [State.dmaStopped, hk, hfabric]

section Requests
variable {o len : Nat} {c : Scene} {k : Ctrl} {s : State} (hc : Tab.find s.scn.scenes o = some c) (hk : s.ctrlOf c.ctrl = some k)
    (hask : mayAsk s o c k len = true) (hact : s.scn.act = none)
include hc hk hask hact

theorem doDataRequestIssue_of_stopped (hstop : s.dmaStopped c.ctrl = true) : doDataRequestIssue o len s = failScene o stTransfer s := by
  simp [doDataRequestIssue, hc, hk, hask, hact, hstop]

theorem doDataRequestIssue_r2t (htcp : k.transport = 1) :
    .r2t (carrier s c.ctrl c.sq) s.hfe.nextReq c.asked len ∈ (doDataRequestIssue o len s).out ∧
      (Tab.find (doDataRequestIssue o len s).hfe.reqs s.hfe.nextReq).map (fun r => (r.scene, r.off, r.len, r.got)) = some (o, c.asked, len, 0) ∧
      (doDataRequestIssue o len s).hfe.nextReq = s.hfe.nextReq + 1 := by
  simp [doDataRequestIssue, hc, hk, hask, hact, dmaStopped_of_fabric hk htcp, reqKind, htcp, takeStaging]

end Requests

section Answers
variable {rid : Nat} {r : DataReq} {s : State} (hr : Tab.find s.hfe.reqs rid = some r)
include hr

theorem doPcieCompletion_ok (b : Bytes) (hkind : r.kind = .pcieRead) (hopen : r.failed = false) (hlive : r.expired = false) :
    doPcieCompletion rid .ok b s = deliver rid r (b.take (r.len - r.got)) s := by
  simp [doPcieCompletion, hr, hkind, hopen, hlive]

theorem doPcieCompletion_expired (st : CplStatus) (b : Bytes) (hkind : r.kind = .pcieRead) (hexp : r.expired = true) :
    doPcieCompletion rid st b s = aerOf r.conn .unexpectedCompletion (raiseObj 4 rid r.tag (dropReq rid s)) := by
  simp [doPcieCompletion, hr, hkind, hexp]

theorem doRdmaReadResponse_open (b : Bytes) (hkind : r.kind = .rdmaRead) (hopen : r.failed = false) :
    doRdmaReadResponse rid b s = deliver rid r (b.take (r.len - r.got)) s := by
  simp [doRdmaReadResponse, hr, hkind, hopen]

theorem doRdmaNak_read (hkind : r.kind = .rdmaRead) :
    doRdmaNak rid s = loseQp r.conn (failScene r.scene stTransfer (raiseObj 32 r.conn r.tag (dropReq rid s))) := by
  simp [doRdmaNak, hr, hkind]

theorem doCompletionTimeout_due (hkind : r.kind = .pcieRead) (hlive : r.expired = false) (hdue : r.issued + 16000000 ≤ s.wall) :
    doCompletionTimeout rid s = failScene r.scene stTransfer (aerOf r.conn .completionTimeout (raiseObj 3 r.conn r.tag
      { s with hfe := { s.hfe with reqs := Tab.put s.hfe.reqs rid { r with failed := true, expired := true } } })) := by
  simp [doCompletionTimeout, hr, hkind, hlive, hdue]

theorem doDataTimeout_due (hkind : r.kind ≠ .pcieRead) (hopen : r.failed = false)
    (hdue : r.issued + s.reg 0x300038 0xFA0 * 1000000 ≤ s.wall) :
    doDataTimeout rid s = failScene r.scene stTransfer
      { s with hfe := { s.hfe with reqs := Tab.put s.hfe.reqs rid { r with failed := true } } } := by
  simp [doDataTimeout, hr, hkind, hopen, hdue]

end Answers

/-- A delivered piece that completes the request ends it. -/
theorem deliver_of_last {rid : Nat} {r : DataReq} {b : Bytes} {s : State} (hlast : r.len ≤ r.got + b.length) :
    ∃ u, deliver rid r b s = goOn u ∧ Tab.find u.hfe.reqs rid = none := by
  refine ⟨_, rfl, ?_⟩
  simp [hlast]

@[simp] theorem aerOf_hfe (c : Nat) (e : AerError) (s : State) : (aerOf c e s).hfe = s.hfe := by
  unfold aerOf
  split <;> rfl

theorem aerOf_tells {c : Nat} {k : Ctrl} {s : State} (e : AerError) (hk : s.ctrlOf c = some k) : .aer k.port k.fn e ∈ (aerOf c e s).out := by
  simp [aerOf, hk]

theorem ctrlOf_raiseObj (c src obj tag : Nat) (s : State) : (raiseObj src obj tag s).ctrlOf c = s.ctrlOf c := by
  simp [State.ctrlOf]

theorem serveHeld_one {m : MiMsg} {s : State} (hact : s.scn.act = none) : serveHeld [m] s = answerMi (checkMi m s) := by
  simp [serveHeld, hact]

theorem checkMi_setAddress {m : MiMsg} {a : Nat} (s : State) (hmic : m.micOk = true) (hlen : m.len ≤ 4224) (hbody : m.body = .setAddress a) :
    checkMi m s = (some (.miResponse 0), { s with hfe := { s.hfe with mctpAddr := a % 128 } }) := by
  simp [checkMi, hmic, Nat.not_lt.2 hlen, hbody, serveMi]

theorem doMiMessage_of_idle {m : MiMsg} {s : State} (hpow : s.powered = true) (hpkt : m.packetOk = true) (hact : s.scn.act = none)
    (hnone : s.scn.miHeld = []) : doMiMessage m s = answerMi (checkMi m { s with scn := { s.scn with miHeld := [] } }) := by
  simp only [doMiMessage, hpow, hpkt, hact, hnone, Bool.not_true, Bool.false_eq_true, if_false, Option.isSome_none, List.nil_append]
  exact serveHeld_one rfl

theorem doMiMessage_of_activation {m : MiMsg} {s : State} (hpow : s.powered = true) (hpkt : m.packetOk = true) (hact : s.scn.act.isSome = true) :
    doMiMessage m s = { s with scn := { s.scn with miHeld := s.scn.miHeld ++ [m] } } := by
  simp [doMiMessage, hpow, hpkt, hact]

/-- The bits of HFE_NET_CTRL that a write keeps hold its EN. -/
theorem netCtrl_keeps_en {val : W32} (hen : val.toNat.testBit 31 = true) : (val &&& 0xC0FF0FFF#32).toNat.testBit 31 = true := by
  have hmask : (0xC0FF0FFF#32).toNat.testBit 31 = true := by decide
  rw [BitVec.toNat_and, Nat.testBit_and, hen, hmask]
  rfl

theorem doHfeNetCtrlWrite_of_enabled {val : W32} {s : State} (hw : writable s false = true) (hen : val.toNat.testBit 31 = true)
    (halone : ∀ p ∈ s.hfe.net, p.1 / 16 = s.reg 0x300100 0 / 16 → p.1 = s.reg 0x300100 0 ∨ p.2.ctrl.toNat.testBit 31 = false) :
    (Tab.find (doHfeNetCtrlWrite val s).hfe.net (s.reg 0x300100 0)).map (fun x => x.ctrl) = some (val &&& 0xC0FF0FFF#32) := by
  have hkeep := netCtrl_keeps_en hen
  unfold doHfeNetCtrlWrite
  rw [if_neg (by simp [hw])]
  extract_lets e v addr same
  have hnone : s.hfe.net.any (fun p => p.1 != e && p.1 / 16 == e / 16 && same p.2) = false := by
    rw [List.any_eq_false]
    intro p hp hbad
    simp only [Bool.and_eq_true, bne_iff_ne, beq_iff_eq] at hbad
    obtain ⟨⟨hne, hport⟩, hsame⟩ := hbad
    obtain heq | hoff := halone p hp hport
    · exact hne heq
    · simp [same, hoff] at hsame
  rw [if_neg (by simp [hnone]), if_pos hkeep]
  exact congrArg (Option.map (fun x => x.ctrl)) (Tab.find_put s.hfe.net e { ctrl := v, addr := addr })

/-- Settles O25: each clause follows its TLP, request or message to the branch that serves it. -/
theorem transfersAndMessagesAreServed : Obligations.TransfersAndMessagesAreServed := by
  unfold Obligations.TransfersAndMessagesAreServed
  refine ⟨?read, ?write, ?outside, ?r2t, ?stopped, ?delivered, ?ended, ?nak, ?timeout, ?late, ?dataTimeout, ?address, ?held, ?net⟩
  case read =>
    intro port fn bar off size t s hup hide hform hkind hon hin
    exact ⟨_, congrArg Host.Outcome.next (doPcieTlp_read hup hide hform hkind hon hin), by simp⟩
  case write =>
    intro port fn bar off size val t s hup hide hform hpoison hkind hon hin
    exact congrArg Host.Outcome.next (doPcieTlp_write hup hide hform hpoison hkind hon hin)
  case outside =>
    intro port fn off size bar t s hup hide hform hkind hout
    exact ⟨_, congrArg Host.Outcome.next (doPcieTlp_outside hup hide hform hkind hout), by simp [unsupported], by simp [unsupported]⟩
  case r2t =>
    intro o len c k s hc hk hask hact htcp
    exact ⟨doDataRequestIssue o len s, rfl, doDataRequestIssue_r2t hc hk hask hact htcp⟩
  case stopped =>
    intro o len c k s hc hk hask hact hstop
    exact congrArg Host.Outcome.next (doDataRequestIssue_of_stopped hc hk hask hact hstop)
  case delivered =>
    intro rid b r s hr hkind hopen hlive hlen
    have htake : b.take (r.len - r.got) = b := List.take_of_length_le (Nat.le_of_lt hlen)
    obtain ⟨u, hu, hgot, -⟩ := deliver_of_more (rid := rid) (r := r) (b := b) (s := s) (by omega)
    exact ⟨u, congrArg Host.Outcome.next ((doPcieCompletion_ok hr b hkind hopen hlive).trans (by rw [htake, hu])), hgot⟩
  case ended =>
    intro rid b r s hr hkind hopen hlen hneed
    obtain ⟨u, hu, hgone⟩ := deliver_of_last (rid := rid) (r := r) (b := b.take (r.len - r.got)) (s := s)
      (by rw [List.length_take]; omega)
    exact ⟨u, congrArg Host.Outcome.next ((doRdmaReadResponse_open hr b hkind hopen).trans hu), hgone⟩
  case nak =>
    intro rid r s hr hkind
    exact ⟨_, congrArg Host.Outcome.next (doRdmaNak_read hr hkind), by simp [dropReq], by simp [dropReq]⟩
  case timeout =>
    intro rid r s hr hkind hlive hdue
    exact ⟨_, congrArg Host.Outcome.next (doCompletionTimeout_due hr hkind hlive hdue), by simp,
      fun k hk => aerOf_tells _ ((ctrlOf_raiseObj ..).trans hk)⟩
  case late =>
    intro rid st b r s hr hkind hexp
    exact ⟨_, congrArg Host.Outcome.next (doPcieCompletion_expired hr st b hkind hexp), by simp [dropReq],
      fun k hk => aerOf_tells _ ((ctrlOf_raiseObj ..).trans hk)⟩
  case dataTimeout =>
    intro rid r s hr hkind hopen hdue
    exact ⟨_, congrArg Host.Outcome.next (doDataTimeout_due hr hkind hopen hdue), Tab.find_put ..⟩
  case address =>
    intro m a s hpow hpkt hmic hlen hbody hact hnone
    have hdo := (doMiMessage_of_idle hpow hpkt hact hnone).trans (congrArg answerMi (checkMi_setAddress _ hmic hlen hbody))
    exact ⟨_, congrArg Host.Outcome.next hdo, by simp [answerMi], by simp [answerMi]⟩
  case held =>
    intro m s hpow hpkt hact
    exact ⟨_, congrArg Host.Outcome.next (doMiMessage_of_activation hpow hpkt hact), rfl, rfl⟩
  case net =>
    intro val s hw hen halone
    exact ⟨doHfeNetCtrlWrite val s, rfl, doHfeNetCtrlWrite_of_enabled hw hen halone⟩

end Sys2Proof.Machine

/-! Associations, their queues and their ends (R87, R88, R90, R93, R96-R98, R102). -/
namespace Sys2Proof.Machine

section Connects
variable {c : ConnectReq} {r : ControllerRec} {k : TcpConn} {t : TenantRec} {s : State} (hruns : s.runs = true) (htcp : c.rdma = false)
  (hk : Tab.find s.hfe.conns c.conn = some k) (hic : k.icDone = true) (hroot : s.saf.rootErased = false)
  (hr : s.controllerRec c.cntlid = some r) (hfabric : r.transport = 1) (hadmin : c.qid = 0) (ht : s.tenantRec r.tag = some t)
include hruns htcp hk hic hroot hr hfabric hadmin ht

theorem doConnect_associates (heth : t.flags.testBit 4 = true) (hproved : provedTag s c = some r.tag) (hfree : s.ctrlOf c.cntlid = none)
    (hmin : 2 ≤ c.size) (hmax : c.size ≤ 4096) : doConnect c s = associate c r s := by
  simp [doConnect, withQp, hruns, htcp, hk, hic, hroot, hr, hfabric, hadmin, ht, heth, hproved, hfree, Nat.not_lt.2 hmin, Nat.not_lt.2 hmax]

theorem doConnect_unproved (hproved : provedTag s c ≠ some r.tag) : doConnect c s = invalidHost c s := by
  simp [doConnect, withQp, hruns, htcp, hk, hic, hroot, hr, hfabric, hadmin, ht, hproved]

end Connects

@[simp] theorem answerConnect_hfe (c : ConnectReq) (st : Status) (s : State) : (answerConnect c st s).hfe = s.hfe := by
  unfold answerConnect
  split <;> simp

@[simp] theorem answerConnect_wall (c : ConnectReq) (st : Status) (s : State) : (answerConnect c st s).wall = s.wall := by
  unfold answerConnect
  split <;> simp

theorem answerConnect_tells (c : ConnectReq) (st : Status) (s : State) : .connectResp c.rdma c.conn st ∈ (answerConnect c st s).out := by
  simp [answerConnect]

theorem invalidHost_tcp {c : ConnectReq} {k : TcpConn} {s : State} (htcp : c.rdma = false) (hk : Tab.find s.hfe.conns c.conn = some k) :
    .connectResp false c.conn ⟨1, 0x84, true⟩ ∈ (invalidHost c s).out ∧
      (Tab.find (invalidHost c s).hfe.conns c.conn).map (fun x => x.closeAt) = some (some (s.wall + 1000000000)) := by
  have htells := answerConnect_tells c ⟨1, 0x84, true⟩ s
  rw [htcp] at htells
  simp [invalidHost, htcp, hk, htells]

@[simp] theorem freshQueues_hfe (c n m : Nat) (s : State) : (freshQueues c n m s).hfe = s.hfe := rfl

theorem bindQueue_ctrls (c : ConnectReq) (s : State) : (bindQueue c s).hfe.ctrls = s.hfe.ctrls := by
  unfold bindQueue
  split <;> rfl

theorem associate_spec {c : ConnectReq} (r : ControllerRec) (s : State) (htcp : c.rdma = false) :
    ∃ u, associate c r s = raiseObj 56 c.cntlid r.tag u ∧ .connectResp false c.conn stOk ∈ u.out ∧
      ((Tab.find u.hfe.ctrls c.cntlid).bind (fun k => k.assoc)).map (fun a => (a.hostNqn, a.hostId, a.kato, a.adminConn)) =
        some (c.hostNqn, c.hostId, katoOf c.kato, c.conn) := by
  refine ⟨_, rfl, ?_, ?_⟩
  · rw [← htcp]
    exact answerConnect_tells ..
  · simp [bindQueue_ctrls]

theorem doConnectAdmitted_free {conn : Nat} {h : HeldConnect} {r : ControllerRec} {s : State} (hheld : Tab.find s.hfe.held conn = some h)
    (hfree : s.ctrlOf h.req.cntlid = none) (hr : s.controllerRec h.req.cntlid = some r) :
    doConnectAdmitted conn s = associate h.req r { s with hfe := { s.hfe with held := Tab.del s.hfe.held conn } } := by
  have hrec : ∀ f : HfeState, ({ s with hfe := f } : State).controllerRec h.req.cntlid = some r := fun _ => hr
  simp [doConnectAdmitted, hheld, hfree, hrec]

theorem doInvalidHostClose_due {conn due : Nat} {k : TcpConn} {s : State} (hk : Tab.find s.hfe.conns conn = some k) (hat : k.closeAt = some due)
    (hdue : due ≤ s.wall) : doInvalidHostClose conn s = closeConn conn s := by
  simp [doInvalidHostClose, hk, hat, hdue]

theorem closeConn_tells (conn : Nat) (s : State) : .closed conn ∈ (closeConn conn s).out := (loseConn_within ..).out_mem (by simp)

theorem doDisconnect_ioQueue {conn c : Nat} {k : TcpConn} {s : State} (hk : Tab.find s.hfe.conns conn = some k) (hc : k.ctrl = some c)
    (hq : k.qid ≠ 0) : doDisconnect conn s =
      goOn (rollQueue c k.qid stSqDeleted (onSq c k.qid (fun x => { x with deleting := some (.disconnect false conn) }) s)) := by
  simp [doDisconnect, hk, hc, hq]

/-- An association that ends resets its controller after its connections are closed. -/
theorem endAssociation_of_assoc {c : Nat} {normal : Bool} {k : Ctrl} {a : Assoc} {s : State} (hk : s.ctrlOf c = some k) (ha : k.assoc = some a) :
    endAssociation c normal s = resetController c (closeAllOf c (onCtrl c
      (fun k => { k with assoc := none, endedKato := a.kato, endedAt := (raiseObj (if normal then 57 else 58) c k.tag s).wall })
      (raiseObj (if normal then 57 else 58) c k.tag s))) := by
  simp [endAssociation, hk, ha]

theorem closeAllOf_conns (c : Nat) (s : State) : ∀ p ∈ (closeAllOf c s).hfe.conns, p.2.ctrl ≠ some c := by
  simp [closeAllOf]

theorem closeAllOf_qps (c : Nat) (s : State) : ∀ p ∈ (closeAllOf c s).hfe.qps, p.2.ctrl ≠ some c := by
  simp [closeAllOf]

theorem closeAllOf_ctrls (c : Nat) (s : State) : (closeAllOf c s).hfe.ctrls = s.hfe.ctrls := rfl

theorem doKeepAliveExpiry_due {c : Nat} {k : Ctrl} {a : Assoc} {s : State} (hk : s.ctrlOf c = some k) (ha : k.assoc = some a)
    (hdue : a.lastAlive + a.kato * 1000000 ≤ s.wall) :
    doKeepAliveExpiry c s = endAssociation c false (raiseObj 29 c ((s.ctrlTag c).getD 0) s) := by
  simp [doKeepAliveExpiry, hk, ha, hdue]

section Sends
variable {qp c : Nat} {cap : Capsule} {k : RdmaQp} {s : State} (hk : Tab.find s.hfe.qps qp = some k) (herr : k.inError = false)
  (hmin : 64 ≤ cap.len) (hmax : cap.len ≤ 64 + 8192) (hc : k.ctrl = some c)
include hk herr hmin hmax hc

theorem doRdmaSend_queued (hfree : sqFull s c k.qid = false) (hall : cap.inCapsule = cap.cmdLen) (hroom : capsuleRoom s c cap = true)
    (hnone : k.waiting = []) : doRdmaSend qp cap false s = queueCapsule c k.qid cap s := by
  simp [doRdmaSend, hk, herr, Nat.not_lt.2 hmin, Nat.not_lt.2 hmax, hc, hfree, hall, hroom, hnone]

theorem doRdmaSend_full (hfull : sqFull s c k.qid = true) : doRdmaSend qp cap false s = emit (.rdmaNakRnr qp) s := by
  simp [doRdmaSend, hk, herr, Nat.not_lt.2 hmin, Nat.not_lt.2 hmax, hc, hfull]

end Sends

theorem doRdmaInboundAccess_tells {qp : Nat} {k : RdmaQp} {s : State} (hk : Tab.find s.hfe.qps qp = some k) :
    .rdmaNakAccess qp ∈ (doRdmaInboundAccess qp s).out ∧ .qpClosed qp ∈ (doRdmaInboundAccess qp s).out := by
  have hdo : doRdmaInboundAccess qp s = loseQp qp (emit (.qpClosed qp) (emit (.rdmaNakAccess qp) (raiseObj 33 qp (s.qpTag qp) s))) := by
    simp [doRdmaInboundAccess, Tab.has, hk]
  rw [hdo]
  exact ⟨(loseQp_within ..).out_mem (by simp), (loseQp_within ..).out_mem (by simp)⟩

theorem loseQp_of_ioQueue {qp c : Nat} {k : RdmaQp} {s : State} (hk : Tab.find s.hfe.qps qp = some k) (hc : k.ctrl = some c)
    (hq : k.qid ≠ 0) : loseQp qp s = loseQueue c k.qid { s with hfe := { s.hfe with qps := Tab.del s.hfe.qps qp } } := by
  simp [loseQp, hk, hc, hq]

/-- Settles O26: each clause follows one capsule of the connection's life to the state it leaves. -/
theorem associationsComeAndGo : Obligations.AssociationsComeAndGo := by
  unfold Obligations.AssociationsComeAndGo
  refine ⟨?connect, ?invalid, ?associate, ?admitted, ?closed, ?disconnect, ?keepAlive, ?send, ?full, ?access, ?qpLoss⟩
  case connect =>
    intro c r k t s hruns htcp hk hic hroot hr hfabric hadmin ht heth hproved hfree hmin hmax
    exact congrArg Host.Outcome.next (doConnect_associates hruns htcp hk hic hroot hr hfabric hadmin ht heth hproved hfree hmin hmax)
  case invalid =>
    intro c r k t s hruns htcp hk hic hroot hr hfabric hadmin ht hproved
    exact ⟨_, congrArg Host.Outcome.next (doConnect_unproved hruns htcp hk hic hroot hr hfabric hadmin ht hproved), invalidHost_tcp htcp hk⟩
  case associate => exact fun c r s htcp => associate_spec r s htcp
  case admitted =>
    intro conn h r s hheld hfree hr
    exact ⟨_, congrArg Host.Outcome.next (doConnectAdmitted_free hheld hfree hr), Tab.find_del ..⟩
  case closed =>
    intro conn due k s hk hat hdue
    exact ⟨_, congrArg Host.Outcome.next (doInvalidHostClose_due hk hat hdue), closeConn_tells conn s⟩
  case disconnect =>
    intro conn c k s hk hc hq
    refine ⟨_, congrArg Host.Outcome.next (doDisconnect_ioQueue hk hc hq), rfl, fun x hx => ?_⟩
    simp [hx]
  case keepAlive =>
    intro c k a s hk ha hdue
    have hend := endAssociation_of_assoc (normal := false) ((ctrlOf_raiseObj c 29 c ((s.ctrlTag c).getD 0) s).trans hk) ha
    refine ⟨_, congrArg Host.Outcome.next ((doKeepAliveExpiry_due hk ha hdue).trans hend), closeAllOf_conns c _, closeAllOf_qps c _, ?_⟩
    rw [closeAllOf_ctrls]
    simp only [onCtrl_hfe, Tab.find_modify, Option.bind_map]
    cases Tab.find _ c <;> rfl
  case send =>
    intro qp c cap k s hk herr hmin hmax hc hfree hall hroom hnone
    exact congrArg Host.Outcome.next (doRdmaSend_queued hk herr hmin hmax hc hfree hall hroom hnone)
  case full =>
    intro qp c cap k s hk herr hmin hmax hc hfull
    exact congrArg Host.Outcome.next (doRdmaSend_full hk herr hmin hmax hc hfull)
  case access => exact fun qp k s hk => ⟨doRdmaInboundAccess qp s, rfl, doRdmaInboundAccess_tells hk⟩
  case qpLoss =>
    intro qp c k s hk hc hq
    obtain ⟨u, hu, hsq, hcq⟩ := loseQueue_gone c k.qid { s with hfe := { s.hfe with qps := Tab.del s.hfe.qps qp } }
    exact ⟨u, congrArg Host.Outcome.next ((loseQp_of_ioQueue hk hc hq).trans hu), hsq, hcq⟩

end Sys2Proof.Machine

/-! Queues made, deleted, ordered and restarted; features, aborts, asynchronous events and keep-alive (R95-R97, R106, R109, R118, R128,
R135, R137, R460). -/
namespace Sys2Proof.Machine

/-! ### Fetched commands -/

/-- The outcome of a fetched command's own work, when the work comes to a known state. -/
theorem fetched_next {h : CmdHdr} {set : CmdSet} {s t : State} (f : Fetched h set s) {op : Nat} {work : State → State} (hwork : work s = t) :
    (Host.Outcome.next (fetched h op set work s) : Host.Outcome State Fault Refusal) = .next (goOn t) := by
  rw [fetched_own f, hwork]

/-- A fetched command whose work opens its scene. -/
theorem fetched_opens {h : CmdHdr} {set : CmdSet} {s t : State} {k : SceneKind} (f : Fetched h set s) {op : Nat} {work : State → State}
    (hwork : work s = t) (ht : (Tab.find t.scn.scenes s.scn.nextOrder).map (fun c => c.kind) = some k) :
    Opens k s (.next (fetched h op set work s)) :=
  ⟨t, fetched_next f hwork, ht⟩

theorem maxEntries_le (s : State) (c : Nat) : s.maxEntries c ≤ 16384 := by
  unfold State.maxEntries
  split <;> decide

theorem qKey_ne {c q p : Nat} (h : q ≠ p) : qKey c q ≠ qKey c p := by
  unfold qKey
  omega

/-! ### Queues -/

section NewQueues
variable {h : CmdHdr} {qid size : Nat} {k : Ctrl} {s : State} (hk : s.ctrlOf h.ctrl = some k) (hpos : 0 < qid) (hq : qid ≤ k.ioQueues)
  (hmin : 2 ≤ size) (hmax : size ≤ s.maxEntries h.ctrl)
include hk hpos hq

theorem queueIdOk_of_le : queueIdOk s h.ctrl qid = true := by
  simp [queueIdOk, hk, hpos, hq]

include hmin hmax

theorem doCreateIoCq_of_new {vector : Nat} (f : Fetched h .pcieAdmin s) (hnew : Tab.find s.scn.cqs (qKey h.ctrl qid) = none)
    (hvec : vector < k.vectors) : doCreateIoCq h qid size vector s = goOn (endAtOnce h 0x05 stOk 0
      { s with scn := { s.scn with cqs := Tab.put s.scn.cqs (qKey h.ctrl qid) { size := size, vector := vector } } }) := by
  have hsize : ¬(size < 2 ∨ 16384 < size ∨ s.maxEntries h.ctrl < size) := by
    have := maxEntries_le s h.ctrl
    omega
  rw [doCreateIoCq, fetched_own f, if_neg (by simp [queueIdOk_of_le hk hpos hq, Tab.has, hnew]), if_neg hsize, if_neg (by simp [hk, hvec])]

theorem doCreateIoSq_of_new (cqid prio : Nat) (f : Fetched h .pcieAdmin s) (hnew : Tab.find s.scn.sqs (qKey h.ctrl qid) = none) :
    doCreateIoSq h qid size cqid prio s = goOn (
      if !Tab.has s.scn.cqs (qKey h.ctrl cqid) ∨ cqid = 0 then failCmd h 0x01 ⟨1, 0x00, true⟩ s
      else endAtOnce h 0x01 stOk 0
        { s with scn := { s.scn with sqs := Tab.put s.scn.sqs (qKey h.ctrl qid) { size := size, cqid := cqid, prio := prio % 4, strict := false } } }) := by
  have hsize : ¬(size < 2 ∨ 16384 < size ∨ s.maxEntries h.ctrl < size) := by
    have := maxEntries_le s h.ctrl
    omega
  rw [doCreateIoSq, fetched_own f, if_neg (by simp [queueIdOk_of_le hk hpos hq, Tab.has, hnew]), if_neg hsize]

end NewQueues

theorem doDeleteIoCq_of_unused {h : CmdHdr} {qid : Nat} {q : CompQueue} {s : State} (f : Fetched h .pcieAdmin s) (hio : qid ≠ 0)
    (hq : Tab.find s.scn.cqs (qKey h.ctrl qid) = some q) (hunused : ∀ p ∈ s.scn.sqs, p.1 / 65536 = h.ctrl → p.2.cqid ≠ qid) :
    doDeleteIoCq h qid s =
      goOn (endAtOnce h 0x04 stOk 0 { s with scn := { s.scn with cqs := Tab.del s.scn.cqs (qKey h.ctrl qid) } }) := by
  have hnone : s.scn.sqs.any (fun p => p.1 / 65536 == h.ctrl && p.2.cqid == qid) = false := by
    rw [List.any_eq_false]
    intro p hp hbad
    simp only [Bool.and_eq_true, beq_iff_eq] at hbad
    exact hunused p hp hbad.1 hbad.2
  rw [doDeleteIoCq, fetched_own f, if_neg (by simp [hio, Tab.has, hq]), if_neg (by simp [hnone])]

/-- The state in which the deletion of a submission queue rolls its commands back. -/
def sqDeleting (h : CmdHdr) (qid : Nat) (s : State) : State :=
  onSq h.ctrl qid (fun q => { q with deleting := some (.scene s.scn.nextOrder) }) (openScene h 0x00 (.deleteSq qid) 0 s).2

theorem doDeleteIoSq_of_there {h : CmdHdr} {qid : Nat} {q : SubQueue} {s : State} (f : Fetched h .pcieAdmin s) (hio : qid ≠ 0)
    (hq : Tab.find s.scn.sqs (qKey h.ctrl qid) = some q) :
    doDeleteIoSq h qid s = goOn (rollQueue h.ctrl qid stSqDeleted (sqDeleting h qid s)) := by
  rw [doDeleteIoSq, fetched_own f, if_neg (by simp [hio, Tab.has, hq])]
  rfl

theorem sqDeleting_spec {h : CmdHdr} {qid : Nat} {q : SubQueue} {s : State} (hq : Tab.find s.scn.sqs (qKey h.ctrl qid) = some q) (hne : h.sq ≠ qid) :
    Tab.find (sqDeleting h qid s).scn.sqs (qKey h.ctrl qid) = some { q with deleting := some (.scene s.scn.nextOrder) } ∧
      (Tab.find (sqDeleting h qid s).scn.scenes s.scn.nextOrder).map (fun c => c.kind) = some (.deleteSq qid) := by
  obtain ⟨t, ht, -, -, hsqs, -⟩ := openScene_spec h 0x00 (.deleteSq qid) 0 s
  have hkind := (openScene_kind h 0x00 (.deleteSq qid) 0 s).2
  simp only [sqDeleting, onSq_scn]
  rw [ht] at hkind ⊢
  exact ⟨by rw [Tab.find_modify, hsqs, Tab.find_modify_ne _ _ (qKey_ne hne.symm), hq]; rfl, hkind⟩

theorem doSetQueueOrdering_of_there {h : CmdHdr} {v : W32} {q : SubQueue} {s : State} (f : Fetched h .admin s)
    (hq : s.sqOf h.ctrl (bits v.toNat 15 0) = some q) (hres : bits v.toNat 31 17 = 0) :
    doSetQueueOrdering h false v s = goOn (endAtOnce h 0x09 stOk 0
      (onSq h.ctrl (bits v.toNat 15 0) (fun x => { x with strict := v.toNat.testBit 16 }) s)) := by
  rw [doSetQueueOrdering, fetched_own f, if_neg (by decide), if_neg (by simp [hq, hres])]

theorem doGetQueueOrdering_of_there {h : CmdHdr} {v : W32} {q : SubQueue} {s : State} (f : Fetched h .admin s)
    (hq : s.sqOf h.ctrl (bits v.toNat 15 0) = some q) : doGetQueueOrdering h v s = goOn (endAtOnce h 0x0A stOk (b2n q.strict) s) := by
  rw [doGetQueueOrdering, fetched_own f, hq]

section Restart
variable {h : CmdHdr} {sqid : Nat} {q : SubQueue} {s : State} (f : Fetched h .gloexAdmin s) (hio : sqid ≠ 0) (hq : s.sqOf h.ctrl sqid = some q)
include f hio hq

theorem doRestartQueue_of_read (hfrozen : q.frozen = true) (hread : q.logRead = true) : doRestartQueue h sqid false s =
    goOn (endAtOnce h 0xC0 stOk 0 (onSq h.ctrl sqid (fun q => { q with frozen := false }) s)) := by
  rw [doRestartQueue, fetched_own f, hq]
  simp [hio, hfrozen, hread]

theorem doRestartQueue_of_running (d : Bool) (hfrozen : q.frozen = false) :
    doRestartQueue h sqid d s = goOn (failCmd h 0xC0 stSequence s) := by
  rw [doRestartQueue, fetched_own f, hq]
  simp [hio, hfrozen]

end Restart

/-- Settles O27: each clause takes its command through the checks to the branch that serves it. -/
theorem queuesAreMadeAndDeleted : Obligations.QueuesAreMadeAndDeleted := by
  unfold Obligations.QueuesAreMadeAndDeleted
  refine ⟨?newCq, ?newSq, ?noCq, ?delCq, ?delSq, ?setOrder, ?getOrder, ?restart, ?running⟩
  case newCq =>
    intro h qid size vector k s f hk hpos hq hnew hmin hmax hvec
    exact congrArg Host.Outcome.next (doCreateIoCq_of_new hk hpos hq hmin hmax f hnew hvec)
  case newSq =>
    intro h qid size cqid prio k q s f hk hpos hq hnew hmin hmax hcq hio
    exact congrArg Host.Outcome.next ((doCreateIoSq_of_new hk hpos hq hmin hmax cqid prio f hnew).trans
      (congrArg goOn (if_neg (by simp [Tab.has, hcq, hio]))))
  case noCq =>
    intro h qid size cqid prio k s f hk hpos hq hnew hmin hmax hcq
    exact congrArg Host.Outcome.next ((doCreateIoSq_of_new hk hpos hq hmin hmax cqid prio f hnew).trans
      (congrArg goOn (if_pos (by simp [Tab.has, hcq]))))
  case delCq =>
    intro h qid q s f hio hq hunused
    exact congrArg Host.Outcome.next (doDeleteIoCq_of_unused f hio hq hunused)
  case delSq =>
    intro h qid q s f hio hq hne
    exact ⟨sqDeleting h qid s, congrArg Host.Outcome.next (doDeleteIoSq_of_there f hio hq), sqDeleting_spec hq hne⟩
  case setOrder => exact fun h v q s f hq hres => congrArg Host.Outcome.next (doSetQueueOrdering_of_there f hq hres)
  case getOrder => exact fun h v q s f hq => congrArg Host.Outcome.next (doGetQueueOrdering_of_there f hq)
  case restart =>
    exact fun h sqid q s f hio hq hfrozen hread => congrArg Host.Outcome.next (doRestartQueue_of_read f hio hq hfrozen hread)
  case running => exact fun h sqid q d s f hio hq hfrozen => congrArg Host.Outcome.next (doRestartQueue_of_running f hio hq d hfrozen)

/-! ### Features, aborts, asynchronous events, keep-alive -/

theorem side_onSide (c : Nat) (g : CtrlSide → CtrlSide) (s : State) : (onSide c g s).side c = g (s.side c) := by
  simp [onSide, State.side]

section Features
variable {h : CmdHdr} {s : State} (f : Fetched h .admin s)
include f

theorem doSetFeatures_wce (v : W32) (d : Bytes) (hok : featureOk s h.ctrl 0x06 = true) : doSetFeatures h 0x06 false v d s =
    goOn (endAtOnce h 0x09 stOk 0 (onSide h.ctrl (fun x => { x with wce := v.toNat.testBit 0 }) s)) := by
  rw [doSetFeatures, fetched_own f]
  simp [hok]

theorem doSetFeatures_saved {fid : Nat} (v : W32) (d : Bytes) (hok : featureOk s h.ctrl fid = true) :
    doSetFeatures h fid true v d s = goOn (failCmd h 0x09 ⟨1, 0x0D, true⟩ s) := by
  rw [doSetFeatures, fetched_own f]
  simp [hok]

theorem doGetFeatures_value {fid : Nat} (hok : featureOk s h.ctrl fid = true) (hstamp : fid ≠ 0x0E) (hbehavior : fid ≠ 0x16) (hhost : fid ≠ 0x81) :
    doGetFeatures h fid s = goOn (endAtOnce h 0x0A stOk (featureValue s h.ctrl fid) s) := by
  rw [doGetFeatures, fetched_own f]
  simp [hok, hstamp, hbehavior, hhost]

theorem doSetSelfTestStep_of_range {v : W32} (hmin : 100 ≤ bits v.toNat 15 0) (hmax : bits v.toNat 15 0 ≤ 2000) : doSetSelfTestStep h false v s =
    goOn (endAtOnce h 0x09 stOk 0 (onSide h.ctrl (fun d => { d with stepUs := bits v.toNat 15 0 }) s)) := by
  rw [doSetSelfTestStep, fetched_own f]
  simp [Nat.not_lt.2 hmin, Nat.not_lt.2 hmax]

theorem doAbort_of_room {sqid target : Nat} (hroom : s.openAborts h.ctrl < 8) : doAbort h sqid target s =
    goOn (match s.targetOf h.ctrl sqid target with
      | some (t, c) =>
        if c.decided ∨ Tab.has (openScene h 0x08 (.abort sqid target s.wall) 0 s).2.evt.aenDue t then
          notAborted s.scn.nextOrder (openScene h 0x08 (.abort sqid target s.wall) 0 s).2
        else retire s.scn.nextOrder stOk 0 (rollBack t stAborted (openScene h 0x08 (.abort sqid target s.wall) 0 s).2)
      | none => (openScene h 0x08 (.abort sqid target s.wall) 0 s).2) := by
  rw [doAbort, fetched_own f, if_neg (by omega)] <;> rfl

theorem doAbort_of_full {sqid target : Nat} (hfull : 8 ≤ s.openAborts h.ctrl) :
    doAbort h sqid target s = goOn (failCmd h 0x08 ⟨1, 0x03, true⟩ s) := by
  rw [doAbort, fetched_own f, if_pos hfull]

end Features

theorem doAbortHoldExpiry_of_only {ctrl cid o t q since : Nat} {c : Scene} {s : State} (honly : s.scn.scenes = [(o, c)]) (hctrl : c.ctrl = ctrl)
    (hsq : c.sq = 0) (hcid : c.cid = cid) (hopen : c.decided = false) (hkind : c.kind = .abort q t since) (hdue : since + 10000000 ≤ s.wall) :
    doAbortHoldExpiry ctrl cid s = goOn (notAborted o s) := by
  simp [doAbortHoldExpiry, honly, hctrl, hsq, hcid, hopen, hkind, hdue]

/-- An answered Asynchronous Event Request whose gate is open is ready to retire. -/
theorem readyFor_aer {o v : Nat} {c : Scene} {s : State} (hkind : c.kind = .aer) (hopen : c.decided = false) (hgate : held s o c = false)
    (hdue : Tab.find s.evt.aenDue o = some v) : readyFor s o c = .aer := by
  simp [readyFor, hopen, fenceReady, flushReady, execReady, aerReady, hkind, Tab.has, hdue, gateOpen, hgate]

theorem sendAen_due (ctrl o : Nat) (s : State) :
    Tab.find (sendAen (ctrl, o) s).evt.aenDue o = some 0xC30007 ∧ ctrl ∈ (sendAen (ctrl, o) s).evt.aenHeld :=
  ⟨(Tab.find_put ..).trans (by decide), mem_setAdd ..⟩

theorem doKeepAlive_of_fetched {h : CmdHdr} {s : State} (f : Fetched h .fabricAdmin s) :
    doKeepAlive h s = goOn (endAtOnce h 0x18 stOk 0
      (onCtrl h.ctrl (fun k => { k with assoc := k.assoc.map (fun a => { a with lastAlive := s.wall }) }) s)) := by
  rw [doKeepAlive, fetched_own f]
  rfl

/-- Settles O28: each clause takes its command to the branch that serves it, an Abort by what its target has come to. -/
theorem featuresAndAbortsAreServed : Obligations.FeaturesAndAbortsAreServed := by
  unfold Obligations.FeaturesAndAbortsAreServed
  refine ⟨?wce, ?saved, ?get, ?step, ?abortWaits, ?abort, ?abortFull, ?hold, ?aer, ?answered, ?send, ?keepAlive⟩
  case wce =>
    intro h v s d f hok
    exact ⟨_, congrArg Host.Outcome.next (doSetFeatures_wce f v d hok), by rw [side_onSide]⟩
  case saved => exact fun h fid v s d f hok => congrArg Host.Outcome.next (doSetFeatures_saved f v d hok)
  case get =>
    exact fun h fid s f hok hstamp hbehavior hhost => congrArg Host.Outcome.next (doGetFeatures_value f hok hstamp hbehavior hhost)
  case step =>
    intro h v s f hmin hmax
    exact ⟨_, congrArg Host.Outcome.next (doSetSelfTestStep_of_range f hmin hmax), by rw [side_onSide]⟩
  case abortWaits =>
    intro h sqid target s f hroom hnone
    have hdo := doAbort_of_room f (sqid := sqid) (target := target) hroom
    rw [hnone] at hdo
    exact ⟨_, congrArg Host.Outcome.next hdo, (openScene_kind ..).2⟩
  case abort =>
    intro h sqid target o c s f hroom hsome
    have hdo := doAbort_of_room f (sqid := sqid) (target := target) hroom
    rw [hsome] at hdo
    refine ⟨fun hopen hdue => ?_, fun hstands => ?_⟩
    · exact congrArg Host.Outcome.next (hdo.trans (congrArg goOn (if_neg (by simp [hopen, hdue]))))
    · exact congrArg Host.Outcome.next (hdo.trans (congrArg goOn (if_pos hstands)))
  case abortFull => exact fun h sqid target s f hfull => congrArg Host.Outcome.next (doAbort_of_full f hfull)
  case hold =>
    intro ctrl cid o t q since c s honly hctrl hsq hcid hopen hkind hdue
    exact congrArg Host.Outcome.next (doAbortHoldExpiry_of_only honly hctrl hsq hcid hopen hkind hdue)
  case aer =>
    intro h s f
    exact ⟨fun hroom => fetched_opens f (if_neg (by omega)) (openScene_kind ..).2, fun hfull => fetched_next f (if_pos hfull)⟩
  case answered =>
    intro o v c s hkind hopen hgate hdue
    rw [readyFor_aer hkind hopen hgate hdue]
    simp [takeTurn, retireAer, Tab.at, hdue]
  case send => exact sendAen_due
  case keepAlive =>
    intro h k a s f hk ha
    refine ⟨_, congrArg Host.Outcome.next (doKeepAlive_of_fetched f), ?_⟩
    rw [State.ctrlOf, onCtrl_hfe, Tab.find_modify, show Tab.find s.hfe.ctrls h.ctrl = some k from hk]
    simp [ha]

end Sys2Proof.Machine

/-! Namespaces, formats, keys, programs and memory range sets (R106, R115, R140, R141, R313-R317, R331, R387, R389, R396). -/
namespace Sys2Proof.Machine

/-! ### Namespaces -/

/-- A wide command's scene: it waits at its gate for the scenes of `waits`. -/
def openWide (h : CmdHdr) (op : Nat) (kind : SceneKind) (waits : List Nat) (s : State) : State :=
  onScene s.scn.nextOrder (fun c => { c with waits := waits, wantCommit := true }) (openScene h op kind 0 s).2

theorem openWide_scene (h : CmdHdr) (op : Nat) (kind : SceneKind) (waits : List Nat) (s : State) :
    (Tab.find (openWide h op kind waits s).scn.scenes s.scn.nextOrder).map (fun c => (c.kind, c.waits, c.wantCommit)) = some (kind, waits, true) := by
  obtain ⟨c, hc, hkind⟩ := Option.map_eq_some_iff.mp (openScene_kind h op kind 0 s).2
  simp [openWide, hc, hkind]

theorem doFormatNvm_of_namespace {h : CmdHdr} {lbaf ses : Nat} {n : Namespace} {s : State} (f : Fetched h .admin s) (hone : h.nsid ≠ 0xFFFFFFFF)
    (hfor : s.nsFor h = some n) (hn : Tab.find s.obj.ns h.nsid = some n) (hnvm : n.kv = false) (hlbaf : lbaf ≤ 1) (hses : ses ≤ 2) :
    doFormatNvm h lbaf ses s = goOn (openWide h 0x80 (.format [h.nsid] lbaf ses) (s.scenesOn [h.nsid]) s) := by
  rw [doFormatNvm, fetched_own f]
  simp [State.formatTargets, hone, hfor, hn, hnvm, Nat.not_lt.2 hlbaf, Nat.not_lt.2 hses, openWide]
  rfl

theorem doNamespaceManagement_deletes {h : CmdHdr} (a : NsAttrs) {n : Namespace} {s : State} (f : Fetched h .houseAdmin s) (hone : h.nsid ≠ 0xFFFFFFFF)
    (hn : Tab.find s.obj.ns h.nsid = some n) :
    doNamespaceManagement h false a s = goOn (openWide h 0x0D (.nsDelete [h.nsid]) (s.scenesOn [h.nsid]) s) := by
  rw [doNamespaceManagement, fetched_own f]
  simp [hone, Tab.has, hn, openWide]
  rfl

/-- A Key Value namespace as its attributes make it. -/
def kvNamespace (a : NsAttrs) (nsid : Nat) (s : State) : Namespace :=
  { owner := a.owner, kv := a.kv, nsze := a.nsze, lbaf := a.lbaf, services := a.services, compFormat := a.compFormat, compLevel := a.compLevel,
    cipher := a.cipher, fixityAlg := a.fixityAlg, tierPolicy := a.tierPolicy, demoteDays := a.demoteDays, promoteReads := a.promoteReads,
    sweepDays := if a.sweepDays = 0 then 365 else a.sweepDays, first := 0, units := nsUnits a, attached := [],
    nextObj := Tab.at s.obj.counters nsid 0, epoch := 0, lbas := [], vers := [], extents := [], sweep := none }

theorem doNamespaceManagement_createsKv {h : CmdHdr} {a : NsAttrs} {nsid : Nat} {t : TenantRec} {s : State} (f : Fetched h .houseAdmin s)
    (howner : a.owner ≠ 0) (ht : s.tenantRec a.owner = some t) (hattrs : attrsOk a = true) (hkv : a.kv = true)
    (hsecret : a.services.testBit 1 = false) (hfree : Tab.freeKey s.obj.ns 8192 1 = some nsid) :
    doNamespaceManagement h true a s = goOn (endAtOnce h 0x0D stOk nsid
      { s with obj := { s.obj with ns := Tab.put s.obj.ns nsid (kvNamespace a nsid s) } }) := by
  rw [doNamespaceManagement, fetched_own f, if_pos rfl, if_neg (by simp [howner, ht, hattrs, hkv]), hfree]
  simp [hkv, hsecret, kvNamespace]

theorem doNamespaceManagement_refuses {h : CmdHdr} {a : NsAttrs} {s : State} (f : Fetched h .houseAdmin s) (hbad : attrsOk a = false ∨ a.owner = 0) :
    doNamespaceManagement h true a s = goOn (failCmd h 0x0D stInvalidField s) := by
  rw [doNamespaceManagement, fetched_own f, if_pos rfl, if_pos]
  obtain hattrs | howner := hbad
  · simp [hattrs]
  · exact .inl howner

theorem doNamespaceAttachment_attaches {h : CmdHdr} {c : Nat} {n : Namespace} {r : ControllerRec} {s : State} (f : Fetched h .houseAdmin s)
    (hn : Tab.find s.obj.ns h.nsid = some n) (hr : s.controllerRec c = some r) (htag : r.tag = n.owner) (hnew : c ∉ n.attached) :
    doNamespaceAttachment h true [c] s = goOn (endAtOnce h 0x15 stOk 0 (onNs h.nsid (fun n' => { n' with attached := setAdd n.attached c })
      (onSide c (fun d => { d with changedNs := setAdd d.changedNs h.nsid }) s))) := by
  rw [doNamespaceAttachment, fetched_own f, hn]
  simp [hr, htag, hnew]

theorem doSanitize_of_erase {h : CmdHdr} {s : State} (f : Fetched h .houseAdmin s) (hepoch : ∀ p ∈ s.obj.ns, epochSpent s p.1 = false) :
    doSanitize h 4 s = goOn (endAtOnce h 0x84 stOk 0 (rewrap (s.obj.ns.foldl (fun s p => cryptErase p.1 s) s))) := by
  have hnone : s.obj.ns.any (fun p => epochSpent s p.1) = false := by
    rw [List.any_eq_false]
    exact fun p hp => by simp [hepoch p hp]
  rw [doSanitize, fetched_own f, if_neg (by decide), if_neg (by simp [hnone])]

/-! ### Keys and programs -/

theorem doSecuritySend_clears {h : CmdHdr} {kt k : Nat} {s : State} (f : Fetched h .admin s)
    (hslot : s.deviceSlot ((s.ctrlTag h.ctrl).getD 0) kt = some k) (hkind : (s.keySlot k).kind = 6) :
    doSecuritySend h (.clear kt) s = goOn (endAtOnce h 0x81 stOk 0 (eraseSlot k s)) := by
  rw [doSecuritySend, fetched_own f]
  simp [hslot, hkind]

theorem prog_onProg (tag ix : Nat) (g : Program → Program) (s : State) : (onProg tag ix g s).prog tag ix = g (s.prog tag ix) := by
  simp [onProg, State.prog, onBob]

section Programs
variable {h : CmdHdr} {pidx : Nat} {s : State} (f : Fetched h .programs s) (hix : pidx < s.progCount ((s.ctrlTag h.ctrl).getD 0))
include f hix

theorem doLoadProgram_begins {total : Nat} {piece : Bytes} (hmax : total ≤ 64 + 8 * 1048576) (hmore : piece.length < total) :
    doLoadProgram h pidx 0xC0 0 total piece s =
      goOn (endAtOnce h 0x22 stOk 0 (onProg ((s.ctrlTag h.ctrl).getD 0) pidx (fun p => { p with loaded := piece }) s)) := by
  have hmin : ¬ total < piece.length := by omega
  have htotal : ¬ 8388672 < total := by omega
  rw [doLoadProgram, fetched_own f]
  simp [Nat.not_le.2 hix, htotal, hmin, hmore]

theorem doProgramActivate_staged {m : ProgImage} (hstaged : (s.prog ((s.ctrlTag h.ctrl).getD 0) pidx).staged = some m) :
    doProgramActivate h pidx s = goOn (endAtOnce h 0x23 stOk 0
      (onProg ((s.ctrlTag h.ctrl).getD 0) pidx (fun p => { p with active := some m, staged := none }) s)) := by
  rw [doProgramActivate, fetched_own f]
  simp [Nat.not_le.2 hix, hstaged]

theorem doProgramDeactivate_of_index : doProgramDeactivate h pidx s = goOn (endAtOnce h 0x23 stOk 0
    (onProg ((s.ctrlTag h.ctrl).getD 0) pidx (fun p => { p with active := none }) s)) := by
  rw [doProgramDeactivate, fetched_own f]
  simp [Nat.not_le.2 hix]

end Programs

theorem doProgramTranslated_passes {tag pidx o : Nat} {s : State} (ho : loadScene s tag pidx = some o)
    (hok : progHeaderOk (s.prog tag pidx).loaded = true)
    (hslots : leAt (s.prog tag pidx).loaded 8 4 ≤ ((s.programLimits tag).map (fun l => l.slots)).getD 0) :
    doProgramTranslated tag pidx none s = goOn (retire o stOk 0 (onBob (fun z => { z with nextImage := z.nextImage + 1 })
      (onProg tag pidx (fun p => { p with staged := some (imageOf s.bob.nextImage (s.prog tag pidx).loaded), loaded := [] }) s))) := by
  simp [doProgramTranslated, ho, hok, Nat.not_lt.2 hslots]

theorem doMemoryRangeSetManagement_first {h : CmdHdr} {l : List (Nat × Nat)} {s : State} (f : Fetched h .programs s)
    (hok : rangesOk (s.slmSize ((s.ctrlTag h.ctrl).getD 0)) l = true) (hnone : s.bob.sets = []) :
    doMemoryRangeSetManagement h true 0 l s = goOn (endAtOnce h 0x21 stOk 0
      (onBob (fun b => { b with sets := Tab.put b.sets (((s.ctrlTag h.ctrl).getD 0) * 65536) l }) s)) := by
  have hfirst : (List.range 256).find? (fun _ => true) = some 0 := by decide
  rw [doMemoryRangeSetManagement, fetched_own f]
  simp [hok, State.setsOf, hnone, Tab.has, hfirst]

theorem doMemoryRangeSetManagement_deletes {h : CmdHdr} {k : Nat} {l : List (Nat × Nat)} {s : State} (f : Fetched h .programs s) (hk : k < 256)
    (hset : Tab.find s.bob.sets (((s.ctrlTag h.ctrl).getD 0) * 65536 + k) = some l) :
    doMemoryRangeSetManagement h false k [] s = goOn (endAtOnce h 0x21 stOk 0
      (onBob (fun b => { b with sets := Tab.del b.sets (((s.ctrlTag h.ctrl).getD 0) * 65536 + k) }) s)) := by
  rw [doMemoryRangeSetManagement, fetched_own f]
  simp [hk, Tab.has, hset]

/-- Settles O30: each clause takes its command through the checks to the state that its scene leaves. -/
theorem namespacesKeysAndProgramsAreServed : Obligations.NamespacesKeysAndProgramsAreServed := by
  unfold Obligations.NamespacesKeysAndProgramsAreServed
  refine ⟨?format, ?delete, ?create, ?refused, ?attach, ?noErase, ?sanitize, ?clear, ?receive, ?load, ?translated, ?activate, ?deactivate, ?newSet, ?delSet⟩
  case format =>
    intro h lbaf ses n s f hone hfor hn hnvm hlbaf hses
    exact ⟨_, congrArg Host.Outcome.next (doFormatNvm_of_namespace f hone hfor hn hnvm hlbaf hses), openWide_scene ..⟩
  case delete =>
    intro h a n s f hone hn
    exact ⟨_, congrArg Host.Outcome.next (doNamespaceManagement_deletes a f hone hn), openWide_scene ..⟩
  case create =>
    intro h a nsid t s f howner ht hattrs hkv hsecret hfree
    refine ⟨_, congrArg Host.Outcome.next (doNamespaceManagement_createsKv f howner ht hattrs hkv hsecret hfree), ?_⟩
    simp [kvNamespace, hkv]
  case refused => exact fun h a s f hbad => congrArg Host.Outcome.next (doNamespaceManagement_refuses f hbad)
  case attach =>
    intro h c n r s f hn hr htag hnew
    refine ⟨_, congrArg Host.Outcome.next (doNamespaceAttachment_attaches f hn hr htag hnew), ?_⟩
    simp [onNs, onSide, hn]
  case noErase => exact fun h action s f haction => fetched_next f (if_pos haction)
  case sanitize => exact fun h s f hepoch => congrArg Host.Outcome.next (doSanitize_of_erase f hepoch)
  case clear => exact fun h kt k s f hslot hkind => congrArg Host.Outcome.next (doSecuritySend_clears f hslot hkind)
  case receive => exact fun h proto s f => fetched_next f rfl
  case load =>
    intro h pidx total piece s f hix hmax hmore
    exact ⟨_, congrArg Host.Outcome.next (doLoadProgram_begins f hix hmax hmore), by rw [prog_onProg]⟩
  case translated =>
    intro tag pidx o s ho hok hslots
    exact ⟨_, congrArg Host.Outcome.next (doProgramTranslated_passes ho hok hslots), by simp [onProg, onBob, State.prog]⟩
  case activate =>
    intro h pidx m s f hix hstaged
    refine ⟨_, congrArg Host.Outcome.next (doProgramActivate_staged f hix hstaged), ?_⟩
    rw [prog_onProg]
    exact ⟨rfl, rfl⟩
  case deactivate =>
    intro h pidx s f hix
    exact ⟨_, congrArg Host.Outcome.next (doProgramDeactivate_of_index f hix), by rw [prog_onProg]⟩
  case newSet =>
    intro h l s f hok hnone
    exact ⟨_, congrArg Host.Outcome.next (doMemoryRangeSetManagement_first f hok hnone), Tab.find_put ..⟩
  case delSet =>
    intro h k l s f hk hset
    exact ⟨_, congrArg Host.Outcome.next (doMemoryRangeSetManagement_deletes f hk hset), Tab.find_del ..⟩

end Sys2Proof.Machine

/-! Firmware images, their live activation, in-band management messages (R94, R106, R131, R424, R425, R484, R485). -/
namespace Sys2Proof.Machine

/-! ### Firmware images -/

theorem takePiece_first (img : FwImage) (s : State) :
    (takePiece 0 img s).scn.download = some img ∧ (takePiece 0 img s).scn.downloadLen = img.len := by
  simp [takePiece]

/-- The slot holds the downloaded image, which is no longer waiting. -/
def imageInSlot (slot : Nat) (d : FwImage) (s : State) : State :=
  { onDev (fun x => { x with fwSlots := Tab.put x.fwSlots slot (slotOf d) }) s with scn := { s.scn with download := none, downloadLen := 0 } }

theorem commitSlot_writes {slot : Nat} {d : FwImage} {s : State} (hmin : 1 ≤ slot) (hmax : slot ≤ 3) (hd : s.scn.download = some d)
    (hlen : s.scn.downloadLen ≤ 12 * 2 ^ 20) : commitSlot 0 slot s = (stOk, imageInSlot slot d s) := by
  have hslot : ¬(slot < 1 ∨ 3 < slot) := by omega
  rw [commitSlot, if_neg hslot, if_neg (by decide), if_neg (by decide), hd]
  simp only [if_neg (Nat.not_lt.2 hlen)]
  rfl

theorem commitSlot_next {slot : Nat} {x : FwSlot} {s : State} (hmin : 1 ≤ slot) (hmax : slot ≤ 3) (hx : Tab.find s.dev.fwSlots slot = some x) :
    commitSlot 2 slot s = (stOk, writeBoot (fun b => { b with fwNext := slot }) s) := by
  have hslot : ¬(slot < 1 ∨ 3 < slot) := by omega
  rw [commitSlot, if_neg hslot, if_neg (by decide), if_pos rfl, if_pos (by simp [Tab.has, hx])]

theorem commitSlot_noSlot {action slot : Nat} {s : State} (hslot : slot = 0 ∨ 3 < slot) : commitSlot action slot s = (stFwSlot, s) := by
  rw [commitSlot, if_pos (by omega)]

/-- A Firmware Commit that does not activate ends with what its slot came to. -/
theorem doFirmwareCommit_of {h : CmdHdr} {action slot : Nat} {st : Status} {s t : State} (f : Fetched h .houseAdmin s)
    (hcommit : commitSlot action slot s = (st, t)) : doFirmwareCommit h action slot s = goOn (endAtOnce h 0x10 st 0 t) := by
  rw [doFirmwareCommit, fetched_own f, hcommit]

/-! ### Live activation -/

theorem activable_of_boots {slot : Nat} {x : FwSlot} {s : State} (hx : Tab.find s.dev.fwSlots slot = some x) (hread : x.readable = true)
    (hver : x.verifies = true) (hfloor : s.dev.fwFloor ≤ x.svn) : activable s slot = some x := by
  simp [activable, hx, hread, hver, hfloor]

theorem beginActivation_act (o : Option Nat) (slot : Nat) (x : FwSlot) (s : State) :
    (beginActivation o slot x s).scn.act = some { scene := o, slot := slot, start := s.wall } := by
  unfold beginActivation
  extract_lets u v
  have hu : u.wall = s.wall := (activationNotice_within s).same_wall rfl
  have hv : v.wall = u.wall := by
    simp only [v]
    split <;> rfl
  simp only [hv, hu]

theorem doFirmwareActivate_begins {h : CmdHdr} {slot : Nat} {x : FwSlot} {s : State} (f : Fetched h .houseAdmin s) (hx : activable s slot = some x) :
    doFirmwareActivate h slot s =
      goOn (beginActivation (some s.scn.nextOrder) slot x (openScene h 0x10 (.fwCommit slot) 0 s).2) := by
  rw [doFirmwareActivate, fetched_own f, hx]
  rfl

theorem doFirmwareActivate_noSlot {h : CmdHdr} {slot : Nat} {s : State} (f : Fetched h .houseAdmin s) (hx : Tab.find s.dev.fwSlots slot = none) :
    doFirmwareActivate h slot s = goOn (failCmd h 0x10 ⟨1, 0x06, true⟩ s) := by
  have hnone : activable s slot = none := by simp [activable, hx]
  rw [doFirmwareActivate, fetched_own f, hnone]
  simp [Tab.has, hx, stFwSlot]

/-- Without another Safety Curtain image no switchover starts. -/
theorem takeImage_dev {slot : Nat} {x : FwSlot} {s : State} (hsame : needsSwitch s x = false) :
    (takeImage slot x s).dev.booted = slot ∧ (takeImage slot x s).dev.bootedSvn = x.svn ∧ (takeImage slot x s).dev.boot.fwNext = slot := by
  unfold takeImage
  extract_lets u perf v w
  have hsaf : w.saf = s.saf := by
    simp only [w]
    split <;> rfl
  have hnot : needsSwitch w x = false := by
    rw [needsSwitch, hsaf]
    exact hsame
  rw [if_neg (by simp [hnot])]
  simp only [w]
  split <;> exact ⟨rfl, rfl, rfl⟩

theorem doFirmwareActivationSwitch_of_drained {a : Activation} {x : FwSlot} {s : State} (ha : s.scn.act = some a) (hruns : s.runs = true)
    (hdrained : ∀ p ∈ s.scn.scenes, a.scene = some p.1 ∨ p.2.kind = .aer) (hx : activable s a.slot = some x) (hsame : needsSwitch s x = false) :
    doFirmwareActivationSwitch s = finishActivation a stOk (takeImage a.slot x s) := by
  have hflight : s.inFlight a = false := by
    rw [State.inFlight, List.any_eq_false]
    intro p hp hbad
    simp only [Bool.and_eq_true, bne_iff_ne] at hbad
    exact (hdrained p hp).elim hbad.1 hbad.2
  simp [doFirmwareActivationSwitch, ha, hflight, hruns, hx, hsame]

theorem doActivationTimeout_due {a : Activation} {s : State} (ha : s.scn.act = some a) (hdue : a.start + 2000000000 ≤ s.wall) :
    doActivationTimeout s = finishActivation a stFwTime { s with scn := { s.scn with abandoned := true } } := by
  simp only [doActivationTimeout, ha, if_neg (Nat.not_lt.2 hdue)]

/-- The state in which an activation's command completes. -/
def activationOver (a : Activation) (s : State) : State :=
  extendKeepAlive (s.wall - a.start)
    { s with scn := { s.scn with act := none, miHeld := [], actMicros := min ((s.wall - a.start) / 1000) (2 ^ 32 - 1) } }

theorem finishActivation_of_command {a : Activation} {o : Nat} {st : Status} {s : State} (ho : a.scene = some o) (hnone : s.scn.miHeld = [])
    (hst : isOk st = true) : finishActivation a st s = goOn (retire o st 0 (activationOver a s)) := by
  simp only [finishActivation, ho, hnone, hst, if_true, serveHeld]
  rfl

/-! ### In-band management messages -/

theorem checkMi_basic {m : MiMsg} (s : State) (hbody : m.body = .basic) (hlen : m.len ≤ 4224) : checkMi m s = (some .miBasic, s) := by
  simp [checkMi, hbody, Nat.not_lt.2 hlen, serveMi]

/-- Settles O31: each clause takes its command or message to the state that its completion or its activation leaves. -/
theorem firmwareAndManagementAreServed : Obligations.FirmwareAndManagementAreServed := by
  unfold Obligations.FirmwareAndManagementAreServed
  refine ⟨?download, ?commit, ?next, ?badSlot, ?activate, ?noSlot, ?switch, ?timeout, ?finish, ?send, ?receive, ?noReply⟩
  case download => exact fun h img s f => ⟨takePiece 0 img s, fetched_next f rfl, takePiece_first img s⟩
  case commit =>
    intro h slot d s f hmin hmax hd hlen
    exact ⟨imageInSlot slot d s, congrArg Host.Outcome.next (doFirmwareCommit_of f (commitSlot_writes hmin hmax hd hlen)), Tab.find_put .., rfl, rfl⟩
  case next =>
    intro h slot x s f hmin hmax hx
    exact ⟨_, congrArg Host.Outcome.next (doFirmwareCommit_of f (commitSlot_next hmin hmax hx)), rfl⟩
  case badSlot => exact fun h action slot s f hslot => congrArg Host.Outcome.next (doFirmwareCommit_of f (commitSlot_noSlot hslot))
  case activate =>
    intro h slot x s f hx hread hver hfloor
    refine ⟨_, congrArg Host.Outcome.next (doFirmwareActivate_begins f (activable_of_boots hx hread hver hfloor)), ?_⟩
    rw [beginActivation_act, (openScene_within h 0x10 (.fwCommit slot) 0 s).same_wall rfl]
  case noSlot => exact fun h slot s f hx => congrArg Host.Outcome.next (doFirmwareActivate_noSlot f hx)
  case switch =>
    intro a x s ha hruns hdrained hx hsame
    exact ⟨_, congrArg Host.Outcome.next (doFirmwareActivationSwitch_of_drained ha hruns hdrained hx hsame), takeImage_dev hsame⟩
  case timeout =>
    intro a s ha hdue
    exact ⟨_, congrArg Host.Outcome.next (doActivationTimeout_due ha hdue), rfl, rfl⟩
  case finish =>
    intro a o st s ho hnone hst
    exact ⟨activationOver a s, finishActivation_of_command ho hnone hst, rfl, rfl⟩
  case send =>
    intro h m s f hbody hlen
    exact ⟨_, fetched_next f (by rw [checkMi_basic s hbody hlen]), rfl⟩
  case receive =>
    intro h o s f ho
    exact ⟨_, fetched_next f (by rw [ho]), rfl, rfl⟩
  case noReply => exact fun h s f hnone => fetched_next f (by rw [hnone])

end Sys2Proof.Machine

/-! I/O commands open their scenes or fail by their checks (R107, R111, R116, R119, R127, R131, R142-R148, R324, R331, R396). -/
namespace Sys2Proof.Machine

/-! ### A fetched command whose work opens a scene -/

theorem openScene_opens (h : CmdHdr) (op : Nat) (kind : SceneKind) (need : Nat) (s : State) :
    (Tab.find (openScene h op kind need s).2.scn.scenes s.scn.nextOrder).map (fun c => c.kind) = some kind := (openScene_kind ..).2

/-- The new scene changed in what is not its work. -/
theorem openScene_changed (g : Scene → Scene) (hg : ∀ c, (g c).kind = c.kind) (h : CmdHdr) (op : Nat) (kind : SceneKind) (need : Nat) (s : State) :
    (Tab.find (onScene s.scn.nextOrder g (openScene h op kind need s).2).scn.scenes s.scn.nextOrder).map (fun c => c.kind) = some kind :=
  onScene_kind hg (openScene_opens ..)

theorem openWithData_opens (h : CmdHdr) (op : Nat) (kind : SceneKind) (len : Nat) (s : State) :
    (Tab.find (openWithData h op kind len s).2.scn.scenes s.scn.nextOrder).map (fun c => c.kind) = some kind := (openWithData_kind ..).2

theorem openWithData_order (h : CmdHdr) (op : Nat) (kind : SceneKind) (len : Nat) (s : State) :
    (openWithData h op kind len s).1 = s.scn.nextOrder := (openWithData_kind ..).1

theorem openWithData_changed (g : Scene → Scene) (hg : ∀ c, (g c).kind = c.kind) (h : CmdHdr) (op : Nat) (kind : SceneKind) (len : Nat) (s : State) :
    (Tab.find (onScene s.scn.nextOrder g (openWithData h op kind len s).2).scn.scenes s.scn.nextOrder).map (fun c => c.kind) = some kind :=
  onScene_kind hg (openWithData_opens ..)

section OnLbas
variable {h : CmdHdr} {n : Namespace} {s : State} (f : Fetched h .nvm s) (hn : s.nsFor h = some n) (hnvm : n.kv = false)
include f hn hnvm

/-- An NVM command within its namespace does its own work. -/
theorem onLbas_inside {ranges : List (Nat × Nat)} (op : Nat) (work : Namespace → State → State) (hin : ∀ r ∈ ranges, r.1 + r.2 ≤ n.nsze) :
    onLbas h op ranges work s = goOn (work n s) := by
  have hany : ranges.any (fun r => decide (n.nsze < r.1 + r.2)) = false := by
    rw [List.any_eq_false]
    exact fun r hr => by simpa using hin r hr
  rw [onLbas, fetched_own f, hn]
  simp [hnvm, hany]

theorem onLbas_beyond {a k : Nat} (op : Nat) (work : Namespace → State → State) (hout : n.nsze < a + k) :
    onLbas h op [(a, k)] work s = goOn (failCmd h op stLbaRange s) := by
  rw [onLbas, fetched_own f, hn]
  simp [hnvm, hout]

/-- An NVM command within its namespace whose work opens a scene. -/
theorem onLbas_opens {ranges : List (Nat × Nat)} {op : Nat} {work : Namespace → State → State} {t : State} {kind : SceneKind}
    (hin : ∀ r ∈ ranges, r.1 + r.2 ≤ n.nsze) (hwork : work n s = t)
    (ht : (Tab.find t.scn.scenes s.scn.nextOrder).map (fun c => c.kind) = some kind) :
    Opens kind s (.next (onLbas h op ranges work s)) :=
  ⟨t, congrArg Host.Outcome.next ((onLbas_inside f hn hnvm op work hin).trans (congrArg goOn hwork)), ht⟩

end OnLbas

theorem roomStatus_of_mapped {s : State} (tier : Nat) (hphase : s.dev.phase ≠ .finalCurtain) : roomStatus s tier 0 = none := by
  simp [roomStatus, hphase]

/-! ### Key Value and SLM commands -/

section OnKey
variable {h : CmdHdr} {n : Namespace} {s : State} (f : Fetched h .kv s) (hn : s.nsFor h = some n) (hkv : n.kv = true)
include f hn hkv

/-- A Key Value command with a good key whose work opens a scene. -/
theorem onKey_opens {key : Bytes} {op : Nat} {work : Namespace → State → State} {t : State} {kind : SceneKind} (hmin : 1 ≤ key.length)
    (hmax : key.length ≤ 16) (hwork : work n s = t) (ht : (Tab.find t.scn.scenes s.scn.nextOrder).map (fun c => c.kind) = some kind) :
    Opens kind s (.next (onKey h op key work s)) := by
  refine ⟨t, congrArg Host.Outcome.next ?_, ht⟩
  have hkey : ¬(key = [] ∨ 16 < key.length) := by
    rintro (rfl | hlong)
    · exact absurd hmin (by decide)
    · exact Nat.not_lt.2 hmax hlong
  rw [onKey, fetched_own f, hn]
  simp [hkv, hkey, hwork]

theorem doKvList_opens {key : Bytes} (len : Nat) (hmax : key.length ≤ 16) : Opens (.kvList key len) s (.next (doKvList h key len s)) :=
  fetched_opens f (by simp [hn, hkv, Nat.not_lt.2 hmax]) (openScene_opens h 0x06 (.kvList key len) 0 s)

end OnKey

theorem reserveStore_of_tier {n : Namespace} {len t : Nat} {b : Bool} {s : State}
    (htier : chooseTier s n (storeBytes len) (ceilDiv (storeBytes len) unitBytes) = (stOk, t, b)) :
    ∃ r u, reserveStore n len s = (stOk, some r, u) ∧ u.scn.nextOrder = s.scn.nextOrder := by
  rw [reserveStore, htier]
  exact ⟨_, _, rfl, rfl⟩

/-- An SLM command within the tenant's SLM whose work opens a scene. -/
theorem onSlm_opens {h : CmdHdr} {op off len : Nat} {work : State → State} {kind : SceneKind} {s : State} (f : Fetched h .slm s)
    (hin : off + len ≤ s.slmSize ((s.ctrlTag h.ctrl).getD 0))
    (ht : (Tab.find (work s).scn.scenes s.scn.nextOrder).map (fun c => c.kind) = some kind) :
    Opens kind s (.next (onSlm h op off len work s)) :=
  fetched_opens f (if_neg (Nat.not_lt.2 hin)) ht

theorem sideOk_slm {h : CmdHdr} {off len : Nat} {s : State} (hin : off + len ≤ s.slmSize ((s.ctrlTag h.ctrl).getD 0)) :
    sideOk s h none off len = stOk := by
  simp [sideOk, Nat.not_lt.2 hin]

/-! ### Fences -/

/-- A Fence's count does not stand in what its fetch looks at. -/
theorem Fetched.countFence {h : CmdHdr} {set : CmdSet} {s : State} (f : Fetched h set s) (tag : Nat) (failed : Bool) :
    Fetched h set (countFence tag failed s) := f

theorem bits_scope {v : W32} (hv : v.toNat < 3) : bits v.toNat 1 0 = v.toNat ∧ bits v.toNat 31 2 = 0 := by
  simp only [bits, Nat.shiftRight_eq_div_pow]
  omega

theorem bits_reserved {v : W32} (hv : 4 ≤ v.toNat) : bits v.toNat 31 2 ≠ 0 := by
  have hmax := v.isLt
  simp only [bits, Nat.shiftRight_eq_div_pow]
  omega

/-- The state in which a Fence does its work. -/
theorem fenceState_spec {h : CmdHdr} {s : State} (f : Fetched h .anyIo s) (tag : Nat) (failed : Bool) :
    ∃ u, (if fetchable s h ∧ h.sq ≠ 0 then countFence tag failed s else s) = u ∧ Fetched h .anyIo u ∧
      u.scn.scenes = s.scn.scenes ∧ u.scn.nextOrder = s.scn.nextOrder := by
  refine ⟨_, rfl, ?_⟩
  split
  · exact ⟨f.countFence tag failed, rfl, rfl⟩
  · exact ⟨f, rfl, rfl⟩

/-- The scene of a Fence waits for the scenes of `set`. -/
def openFence (h : CmdHdr) (scope : Nat) (set : List Nat) (s : State) : State :=
  onScene s.scn.nextOrder (fun c => { c with waits := set, dw0 := min set.length (2 ^ 32 - 1) }) (openScene h 0x80 (.fence scope) 0 s).2

theorem openFence_opens (h : CmdHdr) (scope : Nat) (set : List Nat) (s : State) :
    (Tab.find (openFence h scope set s).scn.scenes s.scn.nextOrder).map (fun c => c.kind) = some (.fence scope) := by
  unfold openFence
  exact openScene_changed _ (fun _ => by rfl) ..

theorem doFence_opens {h : CmdHdr} {v : W32} {s : State} (f : Fetched h .anyIo s) (hv : v.toNat < 3) :
    ∃ u set, doFence h v s = goOn (openFence h v.toNat set u) ∧ u.scn.nextOrder = s.scn.nextOrder := by
  obtain ⟨hscope, hreserved⟩ := bits_scope hv
  have hthree : (v.toNat == 3) = false := by simp; omega
  unfold doFence
  simp only [hscope, hreserved, hthree, bne_self_eq_false, Bool.false_and, Bool.false_or]
  obtain ⟨u, hu, fu, -, horder⟩ := fenceState_spec f ((s.ctrlTag h.ctrl).getD 0) ((heldAbort s h).isNone && (earlyStatus s h .anyIo).isSome)
  rw [hu, fetched_own fu]
  exact ⟨u, _, rfl, horder⟩

theorem doFence_refused {h : CmdHdr} {v : W32} {s : State} (f : Fetched h .anyIo s) (hv : 4 ≤ v.toNat) :
    ∃ u, doFence h v s = goOn (failCmd h 0x80 stInvalidField u) ∧ u.scn.scenes = s.scn.scenes := by
  unfold doFence
  extract_lets scope tag bad refused
  have hbad : bad = true := by simpa [bad] using bits_reserved hv
  obtain ⟨u, hu, fu, hscenes, -⟩ := fenceState_spec f tag ((heldAbort s h).isNone && (bad || refused || (earlyStatus s h .anyIo).isSome))
  rw [hu, hbad]
  exact ⟨u, (fetched_own fu _ _).trans (congrArg goOn (if_pos rfl)), hscenes⟩

/-- Settles O32: each clause takes its command through its checks to the opening of its scene. -/
theorem ioCommandsOpenTheirScenes : Obligations.IoCommandsOpenTheirScenes := by
  unfold Obligations.IoCommandsOpenTheirScenes
  refine ⟨?read, ?write, ?writeKind, ?beyond, ?copy, ?flush, ?kv, ?store, ?execute, ?slm, ?memCopy, ?fence, ?badFence⟩
  case read =>
    intro h a k n s f hn hnvm hin
    have hone : ∀ r ∈ [(a, k)], r.1 + r.2 ≤ n.nsze := by simpa using hin
    exact ⟨onLbas_opens f hn hnvm hone (if_neg (by simp [keyTagOk])) (openScene_opens ..),
      onLbas_opens f hn hnvm hone rfl (openWithData_opens ..), onLbas_opens f hn hnvm hone rfl (openScene_opens ..)⟩
  case write =>
    intro h a k fua n s f hn hnvm hin hphase hnew
    have hone : ∀ r ∈ [(a, k)], r.1 + r.2 ≤ n.nsze := by simpa using hin
    exact onLbas_opens f hn hnvm hone ((if_neg (by simp [keyTagOk])).trans (by rw [hnew, roomStatus_of_mapped n.tier hphase]))
      (openWithData_opens h 0x01 _ _ (onSide h.ctrl (fun d => { d with writes := d.writes + 1 }) s))
  case writeKind =>
    intro h a k n s f hn hnvm hin hphase
    have hone : ∀ r ∈ [(a, k)], r.1 + r.2 ≤ n.nsze := by simpa using hin
    exact ⟨onLbas_opens f hn hnvm hone (by rw [roomStatus_of_mapped 0 hphase]) (openScene_opens ..),
      onLbas_opens f hn hnvm hone (by rw [roomStatus_of_mapped 0 hphase]) (openScene_opens ..),
      onLbas_opens f hn hnvm hone ((if_neg (by decide)).trans (by rw [roomStatus_of_mapped 0 hphase])) (openScene_opens ..)⟩
  case beyond =>
    intro h a k n s f hn hnvm hout
    exact ⟨congrArg Host.Outcome.next (onLbas_beyond f hn hnvm _ _ hout), congrArg Host.Outcome.next (onLbas_beyond f hn hnvm _ _ hout)⟩
  case copy =>
    intro h d a k n s f hn hnvm hdst hsrc hmax hphase hnew
    have htwo : ∀ r ∈ [(d, k), (a, k)], r.1 + r.2 ≤ n.nsze := by simpa using ⟨hdst, hsrc⟩
    have hlimit : ¬ 1048576 < k := by omega
    refine onLbas_opens f hn hnvm htwo ((if_neg ?_).trans ?_) (openScene_opens h 0x19 (.copy d [(a, k)]) 0 s)
    · simp [hlimit, hmax]
    · simp [hnew, roomStatus_of_mapped n.tier hphase]
  case flush =>
    intro h n s f hone hn
    refine fetched_opens f (t := onScene s.scn.nextOrder (fun c => { c with waits := s.flushCover [h.nsid] }) (openScene h 0x00 (.flush [h.nsid]) 0 s).2)
      ?_ (openScene_changed _ (fun _ => by rfl) ..)
    simp only [State.flushTargets, if_neg hone, hn, Option.map_some]
    rfl
  case kv =>
    intro h key len n s f hn hkv hmin hmax
    exact ⟨onKey_opens f hn hkv hmin hmax rfl (openScene_opens ..), onKey_opens f hn hkv hmin hmax rfl (openScene_opens ..),
      doKvList_opens f hn hkv len hmax, fun hphase => onKey_opens f hn hkv hmin hmax (if_neg hphase) (openScene_opens ..)⟩
  case store =>
    intro h key len t b opts n s f hn hkv hmin hmax hlen hopts hphase htier
    obtain ⟨r, u, hreserve, horder⟩ := reserveStore_of_tier htier
    refine onKey_opens f hn hkv hmin hmax
      (t := onScene u.scn.nextOrder (fun c => { c with reserve := some r }) (openWithData h 0x01 (.kvStore key len opts) len u).2) ?_ ?_
    · rw [if_neg (Nat.not_lt.2 hlen), if_neg hopts, if_neg hphase, hreserve]
      simp only [openWithData_order]
    · rw [← horder]
      exact openWithData_changed _ (fun _ => by rfl) ..
  case execute =>
    intro h pidx setId off len m x s f hactive hix halign hset hin hreq hok
    refine fetched_opens f (t := onScene s.scn.nextOrder (fun c => { c with nsid := if x.srcKind = 2 then c.nsid else x.nsid })
      (openScene h 0x01 (.execute x) 0 s).2) ?_ (openScene_changed _ (fun _ => by rfl) ..)
    simp [hactive, Nat.not_le.2 hix, halign, Nat.not_le.2 hset, hin, hreq, hok]
    rfl
  case slm =>
    intro h off len s f hin
    exact ⟨onSlm_opens f hin (openScene_opens ..), onSlm_opens f hin (openWithData_opens ..)⟩
  case memCopy =>
    intro h m s f hsrc hdst hsrcIn hdstIn
    refine fetched_opens f (t := onScene s.scn.nextOrder (fun c => { c with wantCommit := true }) (openScene h 0x05 (.memCopy m) 0 s).2)
      ?_ (openScene_changed _ (fun _ => by rfl) ..)
    simp [hsrc, hdst, sideOk_slm hsrcIn, sideOk_slm hdstIn, isOk, stOk]
    rfl
  case fence =>
    intro h v s f hv
    obtain ⟨u, set, hu, horder⟩ := doFence_opens f hv
    exact ⟨_, congrArg Host.Outcome.next hu, horder ▸ openFence_opens ..⟩
  case badFence =>
    intro h v s f hv
    obtain ⟨u, hu, hscenes⟩ := doFence_refused f hv
    exact ⟨u, congrArg Host.Outcome.next hu, hscenes⟩

end Sys2Proof.Machine

/-! Archive jobs, tier moves, sweeps and the Call Board (R149, R151, R155-R163, R356). -/
namespace Sys2Proof.Machine

theorem job_onJob (tag : Nat) (g : ArcJob → ArcJob) (s : State) : (onJob tag g s).job tag = g (s.job tag) := by
  simp [onJob, State.job]

/-! ### The jobs begin and stop -/

section Jobs
variable {tag : Nat} {s : State} (hidle : arcIdle s tag = true)
include hidle

theorem arcIdle_phase : (s.job tag).phase = .idle := by
  simp only [arcIdle, Bool.and_eq_true, beq_iff_eq] at hidle
  exact hidle.1.1

theorem doArcExport_job {p : Namespace × Namespace} (hp : arcNamespaces s tag = some p) : ((doArcExport tag s).job tag).phase = .exporting ∧
    ((doArcExport tag s).job tag).err = 0 ∧ ((doArcExport tag s).job tag).objects = 0 ∧ ((doArcExport tag s).job tag).start = s.cue.now := by
  rw [doArcExport, if_neg (by simp [hidle]), hp]
  simp [job_onJob]

theorem doArcExport_refused (hp : arcNamespaces s tag = none) :
    doArcExport tag s = onJob tag (fun j => { j with err := 2, objects := 0, failed := 0, bytes := 0 }) s := by
  rw [doArcExport, if_neg (by simp [hidle]), hp]

theorem doArcImport_job {bag : BagScan} {p : Namespace × Namespace} (hphase : s.dev.phase ≠ .finalCurtain) (hp : arcNamespaces s tag = some p) :
    (((doArcImport tag bag s).job tag).phase, ((doArcImport tag bag s).job tag).err) =
      if bag.bagitOk = false then (.idle, 4) else if bag.hasManifest = false then (.idle, 5) else (.importSecond, 0) := by
  rw [doArcImport, if_neg (by simp [hidle]), if_neg hphase, hp]
  simp only [job_onJob]
  cases bag.bagitOk <;> cases bag.hasManifest <;> rfl

theorem doArcProvenance_job {ns : Namespace} (hmin : 1 ≤ bits (s.tw tag 0x7040 0x1000) 4 0) (hmax : bits (s.tw tag 0x7040 0x1000) 4 0 ≤ 16)
    (hns : Tab.find s.obj.ns (s.tw tag 0x7008 0) = some ns) (howner : ns.owner = tag) (hkv : ns.kv = true)
    {e : Option (Nat × Version)} (he : ns.newest (keyBytes s tag 0x7020 0 (bits (s.tw tag 0x7040 0x1000) 4 0)) = e) :
    ((doArcProvenance tag s).job tag).err = (if e.isSome then 0 else 7) ∧
      ((doArcProvenance tag s).job tag).prov = (e.map (fun p => provBytes (s.tw tag 0x7008 0) ns p.1 p.2)).getD [] := by
  have hlen : ¬(bits (s.tw tag 0x7040 0x1000) 4 0 = 0 ∨ 16 < bits (s.tw tag 0x7040 0x1000) 4 0) := by omega
  rw [doArcProvenance, if_neg (by simp [hidle])]
  dsimp only
  rw [if_neg hlen, hns]
  dsimp only
  rw [if_neg (by simp [howner, hkv]), he]
  cases e with
  | none => simp [job_onJob]
  | some p => simp [job_onJob]

end Jobs

theorem doArcAbort_running {tag : Nat} {s : State} (hrun : (s.job tag).phase ≠ .idle) (hw : writable s false = true) :
    doArcAbort tag s = onJob tag (fun j => { j with abort := true }) s := by
  simp [doArcAbort, hrun, hw]

/-! ### File boundaries -/

section Files
variable {tag : Nat} {f : ArcFile} {s : State}

theorem doArcFileDone_endOfBag (hphase : (s.job tag).phase = .exporting) (hend : f.endReached = true ∨ beyondBag tag (s.job tag) f s = true) :
    doArcFileDone tag f s = onJob tag (fun j => { j with phase := .idle, err := 3, todo := [] }) s := by
  unfold doArcFileDone
  simp only [hphase]
  rw [if_pos hend]

theorem exportFile_skips (hcheck : f.checksPass = false) (hdamaged : (s.tw tag 0x7018 2).testBit 8 = false) (j : ArcJob) :
    exportFile tag j f s = onJob tag (fun j => { j with failed := j.failed + 1, todo := j.todo.tail }) s := by
  simp [exportFile, hcheck, hdamaged]

theorem doArcFileDone_skips (hphase : (s.job tag).phase = .exporting) (hend : f.endReached = false) (hbag : beyondBag tag (s.job tag) f s = false)
    (hcheck : f.checksPass = false) (hdamaged : (s.tw tag 0x7018 2).testBit 8 = false) (habort : (s.job tag).abort = false) (hlast : f.last = false) :
    doArcFileDone tag f s = onJob tag (fun j => { j with failed := j.failed + 1, todo := j.todo.tail }) s := by
  unfold doArcFileDone
  simp only [hphase]
  rw [if_neg (by simp [hend, hbag]), exportFile_skips hcheck hdamaged, if_neg (by simp [habort]), if_neg (by simp [hlast])]

theorem importFile_skips (hname : keyOfName f.name = none) (j : ArcJob) :
    importFile tag j f s = onJob tag (fun j => { j with failed := j.failed + 1, bytes := j.bytes + f.len }) s := by
  unfold importFile
  rw [hname]
  cases Tab.find s.obj.ns j.kvNs <;> rfl

theorem doArcFileDone_lastSkipped (hphase : (s.job tag).phase = .importSecond) (hspill : spillDeferred (s.job tag) f s = false)
    (habort : (s.job tag).abort = false) (hlast : f.last = true) (hname : keyOfName f.name = none) :
    doArcFileDone tag f s = onJob tag (fun j => { j with phase := .idle, oxum := f.oxumBad })
      (onJob tag (fun j => { j with failed := j.failed + 1, bytes := j.bytes + f.len }) s) := by
  unfold doArcFileDone
  simp only [hphase]
  rw [if_neg (by simp [hspill]), importFile_skips hname, if_neg (by simp [habort]), if_pos hlast]

theorem doArcFileDone_deferred (hphase : (s.job tag).phase = .importSecond) (hspill : spillDeferred (s.job tag) f s = true) :
    doArcFileDone tag f s = s := by
  unfold doArcFileDone
  simp only [hphase]
  rw [if_pos hspill]

end Files

/-! ### Tier moves and sweeps -/

/-- A version that has its new run on the other tier names it. -/
theorem moveVersion_moved {nsid id k : Nat} {n : Namespace} {v : Version} {u s : State} (hn : Tab.find s.obj.ns nsid = some n)
    (hv : Tab.find n.vers id = some v) (hk : moveTarget s n v = some k)
    (hu : placeMedia ((List.range v.units).map (fun i => (takeRun n.owner k v.units (v.storedUnits * 4096) s.trl).1 + i))
      { s with trl := (takeRun n.owner k v.units (v.storedUnits * 4096) s.trl).2 } = some u) :
    (Tab.find (moveVersion nsid id s).obj.ns nsid).bind (fun n => Tab.find n.vers id) =
      some { v with first := (takeRun n.owner k v.units (v.storedUnits * 4096) s.trl).1, platters := k == 1, reads := [] } := by
  unfold moveVersion
  simp [hn, hv, hk, hu]

theorem doTierMovePass_only {nsid id : Nat} {n : Namespace} {v : Version} {s : State} (hphase : s.dev.phase = .performance) (hres : s.trl.restored = true)
    (hn : Tab.find s.obj.ns nsid = some n) (hkv : n.kv = true) (honly : n.vers = [(id, v)]) : doTierMovePass nsid s = moveVersion nsid id s := by
  simp [doTierMovePass, hphase, hres, hn, hkv, honly]

theorem doSweepDayBoundary_first {nsid : Nat} {n : Namespace} {s : State} (hn : Tab.find s.obj.ns nsid = some n) (hon : n.services.testBit 2 = true)
    (hdays : 1 ≤ n.sweepDays) (hnone : n.sweep = none) :
    ((Tab.find (doSweepDayBoundary nsid s).obj.ns nsid).bind (fun n => n.sweep)).map (fun w => (w.start, w.unchecked, w.quota)) =
      some (s.cue.now, sweepMembers n [],
        ceilDiv (sweepBytes n { start := s.cue.now, topId := n.nextObj - 1, unchecked := sweepMembers n [], quota := 0, day := 0 }) n.sweepDays) := by
  have hzero : n.sweepDays ≠ 0 := by omega
  simp [doSweepDayBoundary, hn, hon, hzero, hnone, onNs, Nat.max_eq_right hdays]

/-! ### The Call Board -/

theorem mem_doCallBoardExpiry (e : ResultEntry) (s : State) :
    e ∈ (doCallBoardExpiry s).obj.board ↔ e ∈ s.obj.board ∧ s.opSeconds < e.posted + s.callBoardRec.2 * 86400 := by
  simp [doCallBoardExpiry]

theorem takeHigh_obj (q : Requester) (key : Nat) (hi : W32) (s : State) : (takeHigh q key hi s).obj = s.obj := (takeHigh_within ..).same_obj rfl

section Cursors
variable {q : Requester} {tag : Nat} {hi : W32} {s : State} (hw : writable s true = true)
include hw

theorem doCbdCursorWrite_obj (hreach : mayReach s q .house = true) :
    (doCbdCursorWrite q hi s).obj = { s.obj with cursor := formed s q 0x780010 (s.reg 0x780010 0) hi } := by
  rw [doCbdCursorWrite, if_pos ⟨hreach, hw⟩]
  exact takeHigh_obj ..

theorem doTwCbCursorWrite_obj (hreach : mayReach s q (.tenant tag) = true) : (doTwCbCursorWrite q tag hi s).obj = { s.obj with
    tenantCursor := Tab.put s.obj.tenantCursor tag (formed s q (tenantKey tag 0x2010) (s.reg (tenantKey tag 0x2010) 0) hi) } := by
  rw [doTwCbCursorWrite, if_pos ⟨hreach, hw⟩]
  exact takeHigh_obj ..

theorem doTwTlyPrCursorWrite_obj (hreach : mayReach s q (.tenant tag) = true) : (doTwTlyPrCursorWrite q tag hi s).obj = { s.obj with
    privates := Tab.update s.obj.privates tag {} (fun a => { a with cursor := formed s q (tenantKey tag 0x1810) (s.reg (tenantKey tag 0x1810) 0) hi }) } := by
  rw [doTwTlyPrCursorWrite, if_pos ⟨hreach, hw⟩]
  exact takeHigh_obj ..

end Cursors

/-- Settles O34: each clause reads the job, the namespace or the board after its command. -/
theorem archiveAndCallBoard : Obligations.ArchiveAndCallBoard := by
  unfold Obligations.ArchiveAndCallBoard
  refine ⟨?exports, ?noExport, ?imports, ?abort, ?provenance, ?endOfBag, ?skips, ?lastFile, ?deferred, ?move, ?sweep, ?expiry, ?cursor, ?tenantCursors⟩
  case exports => exact fun tag p s hidle hp => ⟨doArcExport tag s, rfl, doArcExport_job hidle hp⟩
  case noExport =>
    intro tag s hidle hp
    refine ⟨_, congrArg Host.Outcome.next (doArcExport_refused hidle hp), ?_⟩
    rw [job_onJob]
    exact ⟨arcIdle_phase hidle, rfl⟩
  case imports => exact fun tag bag p s hidle hphase hp => ⟨doArcImport tag bag s, rfl, doArcImport_job hidle hphase hp⟩
  case abort =>
    intro tag s hrun hw
    exact ⟨_, congrArg Host.Outcome.next (doArcAbort_running hrun hw), by rw [job_onJob]⟩
  case provenance =>
    intro tag ns s hidle hmin hmax hns howner hkv
    obtain ⟨herr, hprov⟩ := doArcProvenance_job hidle hmin hmax hns howner hkv rfl
    refine ⟨doArcProvenance tag s, rfl, ?_⟩
    rw [herr, hprov]
    cases ns.newest (keyBytes s tag 0x7020 0 (bits (s.tw tag 0x7040 0x1000) 4 0)) <;> rfl
  case endOfBag =>
    intro tag f s hphase hend
    refine ⟨_, congrArg Host.Outcome.next (doArcFileDone_endOfBag hphase hend), ?_⟩
    rw [job_onJob]
    exact ⟨rfl, rfl⟩
  case skips =>
    intro tag f s hphase hend hbag hcheck hdamaged habort hlast
    refine ⟨_, congrArg Host.Outcome.next (doArcFileDone_skips hphase hend hbag hcheck hdamaged habort hlast), ?_⟩
    rw [job_onJob]
    exact ⟨rfl, rfl, hphase⟩
  case lastFile =>
    intro tag f s hphase hspill habort hlast hname
    refine ⟨_, congrArg Host.Outcome.next (doArcFileDone_lastSkipped hphase hspill habort hlast hname), ?_⟩
    rw [job_onJob, job_onJob]
    exact ⟨rfl, rfl, rfl⟩
  case deferred => exact fun tag f s hphase hspill => congrArg Host.Outcome.next (doArcFileDone_deferred hphase hspill)
  case move =>
    intro nsid id k n v u s hphase hres hn hkv honly hk hu
    have hv : Tab.find n.vers id = some v := by simp [honly, Tab.find]
    exact ⟨_, congrArg Host.Outcome.next (doTierMovePass_only hphase hres hn hkv honly), moveVersion_moved hn hv hk hu⟩
  case sweep => exact fun nsid n s hn hon hdays hnone => ⟨doSweepDayBoundary nsid s, rfl, doSweepDayBoundary_first hn hon hdays hnone⟩
  case expiry => exact fun s => ⟨doCallBoardExpiry s, rfl, fun e => mem_doCallBoardExpiry e s⟩
  case cursor =>
    intro q hi s hreach hw
    refine ⟨doCbdCursorWrite q hi s, rfl, ?_⟩
    rw [doCbdCursorWrite_obj hw hreach]
    exact ⟨rfl, rfl⟩
  case tenantCursors =>
    intro q tag hi s hreach hw
    refine ⟨⟨doTwCbCursorWrite q tag hi s, rfl, ?_⟩, ⟨doTwTlyPrCursorWrite q tag hi s, rfl, ?_⟩⟩
    · rw [doTwCbCursorWrite_obj hw hreach]
      exact ⟨Tab.find_put .., rfl⟩
    · rw [doTwTlyPrCursorWrite_obj hw hreach, Tab.at_update]

end Sys2Proof.Machine

/-! Destaging, journal, checkpoints, reclamation and refresh of the translation layer (R172, R175-R184). -/
namespace Sys2Proof.Machine

/-! ### Destage and journal -/

theorem doDestage_of_slot {slot : Nat} {w : WingSlot} {e : MapEntry} {u s : State} (hw : Tab.find s.trl.wings slot = some w)
    (hcopies : s.trl.copies = []) (hslot : mediaSlot w.unit (if w.hot then .hot else .cold) .bandHost s = some (e, u)) :
    doDestage slot s = { u with trl := { u.trl with
      copies := u.trl.copies ++ [{ unit := w.unit, src := .wings slot, dst := e, refresh := false, suspect := false }] } } := by
  simp only [doDestage, hw, hcopies, List.any_nil, hslot, Bool.false_eq_true, if_false]

theorem doJournalWrite_due {s : State} (hmore : s.trl.jwritten < s.trl.jnext) (hdue : s.trl.joldest + 1000000 ≤ s.wall ∨ 65536 ≤ s.trl.jbytes) :
    doJournalWrite s = { s with trl := { s.trl with jwritten := s.trl.jnext, jbytes := 0 } } := by
  rw [doJournalWrite, if_pos ⟨hmore, hdue⟩]

theorem doJournalWrite_early {s : State} (hyoung : s.wall < s.trl.joldest + 1000000) (hfew : s.trl.jbytes < 65536) : doJournalWrite s = s := by
  rw [doJournalWrite, if_neg (fun h => h.2.elim (Nat.not_le.2 hyoung) (Nat.not_le.2 hfew))]

/-- The journal written so far is on flash, and what waited for it is free. -/
def journalOnFlash (s : State) : State :=
  { s with trl := { s.trl with
      jflash := s.trl.jwritten, unflushed := s.trl.unflushed.filter (fun x => decide (s.trl.jwritten ≤ x.jseq)) } }

theorem doJournalProgrammed_eq (s : State) : doJournalProgrammed s = goOn (trimUndo (journalOnFlash s)) := rfl

/-! ### Checkpoints -/

theorem startCheckpoint_trl {s : State} (hfree : s.trl.ckptBusy = false) (hres : s.trl.restored = true) :
    (startCheckpoint s).trl = { s.trl with ckptBusy := true, ckptStart := s.cue.now } := by
  rw [startCheckpoint, if_neg (by simp [hfree, hres])]

theorem doCheckpointClosed_busy {s : State} (hbusy : s.trl.ckptBusy = true) :
    (doCheckpointClosed s).trl.ckptBusy = false ∧ (doCheckpointClosed s).trl.ckptCue = s.trl.ckptStart ∧ (doCheckpointClosed s).trl.jsince = 0 ∧
      (doCheckpointClosed s).obj.saved.board = s.obj.board ∧ (doCheckpointClosed s).obj.saved.privates = s.obj.privates := by
  rw [doCheckpointClosed, if_pos hbusy]
  exact ⟨rfl, rfl, rfl, rfl, rfl⟩

/-! ### Reclamation and refresh -/

theorem startCopies_victim (sb : Nat) (refresh : Bool) (s : State) : (startCopies sb refresh s).trl.victim = some sb := rfl

theorem reclaim_refresh {sb : Nat} {s : State} (hnone : s.trl.victim = none) (href : s.trl.refreshVictim = some sb) :
    reclaim false s = eraseVictim sb (startCopies sb true { s with trl := { s.trl with greedy := 0 } }) := by
  rw [reclaim, if_neg (by simp [hnone])]
  simp only [Bool.not_false, Bool.true_or, if_true, href]

theorem reclaim_greedy {sb : Nat} {s : State} (hnone : s.trl.victim = none) (hfew : s.trl.greedy < 3) (hphase : s.dev.phase ≠ .finalCurtain)
    (hgreedy : s.trl.greedyVictim = some sb) :
    reclaim true s = eraseVictim sb (startCopies sb false { s with trl := { s.trl with greedy := s.trl.greedy + 1 } }) := by
  have huse : (!true || decide (3 ≤ s.trl.greedy)) = false := by simp [hfew]
  rw [reclaim, if_neg (by simp [hnone])]
  simp only [huse, Bool.false_eq_true, if_false, hphase, hgreedy]

theorem doReclaimBackground_refresh {sb : Nat} {s : State} (hres : s.trl.restored = true) (href : s.trl.refreshVictim = some sb) :
    doReclaimBackground s = reclaim false s := by
  simp [doReclaimBackground, onlyIf, hres, href]

theorem doReclaimForeground_short {s : State} (hres : s.trl.restored = true) (hshort : s.trl.freeFrac < s.fgThreshold) :
    doReclaimForeground s = reclaim true s := by
  simp [doReclaimForeground, onlyIf, hres, hshort]

theorem doReclaimForeground_room {s : State} (hroom : s.fgThreshold ≤ s.trl.freeFrac) : doReclaimForeground s = s := by
  simp [doReclaimForeground, onlyIf, Nat.not_lt.2 hroom]

section Admission
variable {o n r : Nat} {rest : List (Nat × Nat)} {s : State} (hwait : s.trl.waiting = (o, n) :: rest) (hratio : s.copyRatio = some r)
include hwait hratio

theorem doPlaceAdmit_credit (hcredit : n * r ≤ s.trl.credit) : doPlaceAdmit s = goOn { s with trl := { s.trl with waiting := rest } } := by
  unfold doPlaceAdmit
  rw [hwait, hratio]
  exact if_pos (.inl hcredit)

theorem doPlaceAdmit_waits (hcredit : s.trl.credit < n * r) (hopen : Tab.has s.scn.scenes o = true) : doPlaceAdmit s = s := by
  unfold doPlaceAdmit
  rw [hwait, hratio]
  exact if_neg (by simp [hcredit, hopen])

end Admission

theorem doPlatterReclaim_empty {act k : Nat} {b : Band} {s : State} (hres : s.trl.restored = true) (hshort : s.trl.freeBands act < 4)
    (honly : s.trl.bands = [(k, b)]) (hact : b.act = act) (hclosed : b.closed = true) (hspare : b.spare = false) (hretired : b.retired = false)
    (hvalid : s.trl.validBand k = 0) :
    Tab.find (doPlatterReclaim act s).trl.bands k = some { b with spare := true, closed := false, written := 0 } := by
  rw [doPlatterReclaim, if_neg (by simp [hres, hshort])]
  simp [honly, hact, hclosed, hspare, hretired, hvalid, Tab.find]

theorem doRetentionExpiry_due {sb c : Nat} {b : StripeBlk} {s : State} (hb : Tab.find s.trl.sbs sb = some b) (hclosed : b.closed = some c)
    (hdue : c + s.reg 0xA00064 365 * dayTicks ≤ s.cue.now) : doRetentionExpiry sb s = { s with trl := { s.trl with
      sbs := Tab.put s.trl.sbs sb { b with refresh := true }, refreshQ := setAdd s.trl.refreshQ sb } } := by
  simp [doRetentionExpiry, hb, hclosed, hdue, queueRefresh]

/-- Settles O35: each clause takes its command to the branch of the rule it names. -/
theorem translationLayerWorks : Obligations.TranslationLayerWorks := by
  unfold Obligations.TranslationLayerWorks
  refine ⟨?destage, ?journal, ?early, ?programmed, ?due, ?asked, ?closed, ?background, ?foreground, ?room, ?admission, ?waits, ?platter, ?retention⟩
  case destage => exact fun slot w e u s hw hcopies hslot => congrArg Host.Outcome.next (doDestage_of_slot hw hcopies hslot)
  case journal => exact fun s hmore hdue => congrArg Host.Outcome.next (doJournalWrite_due hmore hdue)
  case early => exact fun s hyoung hfew => congrArg Host.Outcome.next (doJournalWrite_early hyoung hfew)
  case programmed => exact fun s => ⟨journalOnFlash s, congrArg Host.Outcome.next (doJournalProgrammed_eq s), rfl, rfl⟩
  case due =>
    intro s hfree hres hdue
    have hdo : doCheckpointStart s = startCheckpoint s := by simp [doCheckpointStart, onlyIf, hdue]
    exact ⟨_, congrArg Host.Outcome.next hdo, startCheckpoint_trl hfree hres⟩
  case asked =>
    intro v s hfree hres hw hbit
    have hdo : doTrlCkptCtrl v s = startCheckpoint s := by simp [doTrlCkptCtrl, onlyIf, hw, hbit]
    exact ⟨_, congrArg Host.Outcome.next hdo, startCheckpoint_trl hfree hres⟩
  case closed => exact fun s hbusy => ⟨doCheckpointClosed s, rfl, doCheckpointClosed_busy hbusy⟩
  case background =>
    intro sb s hres hnone href
    exact ⟨_, congrArg Host.Outcome.next ((doReclaimBackground_refresh hres href).trans (reclaim_refresh hnone href)), startCopies_victim ..⟩
  case foreground =>
    intro sb s hres hshort hnone hfew hphase hgreedy
    exact ⟨_, congrArg Host.Outcome.next ((doReclaimForeground_short hres hshort).trans (reclaim_greedy hnone hfew hphase hgreedy)),
      startCopies_victim ..⟩
  case room => exact fun s hroom => congrArg Host.Outcome.next (doReclaimForeground_room hroom)
  case admission => exact fun o n r rest s hwait hratio hcredit => congrArg Host.Outcome.next (doPlaceAdmit_credit hwait hratio hcredit)
  case waits => exact fun o n r rest s hwait hratio hcredit hopen => congrArg Host.Outcome.next (doPlaceAdmit_waits hwait hratio hcredit hopen)
  case platter =>
    intro act k b s hres hshort honly hact hclosed hspare hretired hvalid
    exact ⟨doPlatterReclaim act s, rfl, doPlatterReclaim_empty hres hshort honly hact hclosed hspare hretired hvalid⟩
  case retention =>
    intro sb c b s hb hclosed hdue
    exact ⟨_, congrArg Host.Outcome.next (doRetentionExpiry_due hb hclosed hdue), Tab.find_put .., mem_setAdd ..⟩

end Sys2Proof.Machine

/-! Flash groups evacuated, removed and inserted (R191, R220-R222). -/
namespace Sys2Proof.Machine

/-- Dies none of whose channels is dead are brought up without a change of the replacement's state or of the clocks that stand. -/
theorem bringUp_alive {f : DieFacts} (hdead : f.dead = []) (g : Nat) (s : State) : (bringUp g f s).flc.hr = s.flc.hr ∧
    (bringUp g f s).flc.hrErr = s.flc.hrErr ∧ (bringUp g f s).clk.stopped = s.clk.stopped := by
  simp [bringUp, hdead]

section Replacement
variable {g : Nat} {s : State} (hw : writable s false = true) (hg : g < 4)
include hw hg

theorem hrCommand_idle (f : State → State) (hidle : s.flc.hr = .idle) : hrCommand g f s = f s := by
  rw [hrCommand, if_neg (by simp [hw, hg]), if_neg (by simp [hidle])]

theorem hrCommand_own (f : State → State) (hown : s.flc.hrGroup = g) : hrCommand g f s = f s := by
  rw [hrCommand, if_neg (by simp [hw, hg]), if_neg (by simp [hown])]

theorem doFlcEvacuate_starts (hidle : s.flc.hr = .idle) (hok : (s.fgroup g).faulted = false)
    (hroom : s.trl.flash.charged ≤ 95 * dataSlots s (some g) / 100) : (doFlcEvacuate g s).flc = (hrAccept g .evacuating s).flc := by
  rw [doFlcEvacuate, hrCommand_idle hw hg _ hidle, if_neg (by simp [hidle, hok]), if_neg (Nat.not_lt.2 hroom)]

theorem doFlcEvacuate_noRoom (hidle : s.flc.hr = .idle) (hok : (s.fgroup g).faulted = false)
    (hfull : 95 * dataSlots s (some g) / 100 < s.trl.flash.charged) : doFlcEvacuate g s = hrRefuse g 2 s := by
  rw [doFlcEvacuate, hrCommand_idle hw hg _ hidle, if_neg (by simp [hidle, hok]), if_pos hfull]

/-- The group's clock stands, its dies and their free blocks are gone. -/
def groupGone (g : Nat) (s : State) : State :=
  let s := hrAccept g .removed (keepCounts g s)
  { s with
    clk := { s.clk with stopped := setAdd s.clk.stopped (12 + g) }
    flc := { s.flc with luns := s.flc.luns.filter (fun p => !inGroup g p.1) }
    trl := { s.trl with freeBlks := s.trl.freeBlks.filter (fun m => chGroup m.blk.ch != g) } }

theorem doFlcRemove_evacuated (hphase : s.flc.hr = .evacuated) (hown : s.flc.hrGroup = g) (hclk : s.clkPlan.2.1.testBit (12 + g) = true) :
    doFlcRemove g s = groupGone g s := by
  rw [doFlcRemove, hrCommand_own hw hg _ hown]
  simp only [hphase]
  rw [if_neg (by simp [hclk])]
  rfl

theorem doFlcRemove_evacuating (hphase : s.flc.hr = .evacuating) (hown : s.flc.hrGroup = g) : doFlcRemove g s = hrRefuse g 4 s := by
  rw [doFlcRemove, hrCommand_own hw hg _ hown]
  simp only [hphase]

theorem doFlcInsert_geometry {f : DieFacts} (hphase : s.flc.hr = .removed) (hown : s.flc.hrGroup = g) (hbad : f.geometryOk = false) :
    doFlcInsert g false f s = hrRefuse g 5 s := by
  rw [doFlcInsert, hrCommand_own hw hg _ hown, if_neg (by simp [hphase]), if_pos (by simp [hbad])]

theorem doFlcInsert_starts {f : DieFacts} (hphase : s.flc.hr = .removed) (hown : s.flc.hrGroup = g) (hgeo : f.geometryOk = true)
    (hbrick : f.brick = none) (hdead : f.dead = []) : (doFlcInsert g false f s).flc.hr = .inserting ∧ (doFlcInsert g false f s).flc.hrErr = 0 ∧
      (12 + g) ∉ (doFlcInsert g false f s).clk.stopped := by
  have hzero : ∃ i, i < 8 := ⟨0, by decide⟩
  rw [doFlcInsert, hrCommand_own hw hg _ hown, if_neg (by simp [hphase]), if_neg (by simp [hgeo]), if_neg (by simp [hbrick]),
    if_neg (by simp [hdead, hzero])]
  obtain ⟨hhr, herr, hstopped⟩ := bringUp_alive hdead g
    { hrAccept g .inserting s with clk := { s.clk with stopped := setDel s.clk.stopped (12 + g) } }
  refine ⟨hhr, herr, fun hmem => not_mem_setDel s.clk.stopped (12 + g) ?_⟩
  rw [← show _ = setDel s.clk.stopped (12 + g) from hstopped]
  exact hmem

theorem doFlcCancel_evacuated (hphase : s.flc.hr = .evacuated) (hown : s.flc.hrGroup = g) :
    (doFlcCancel g s).flc = (hrAccept g .idle s).flc := by
  rw [doFlcCancel, hrCommand_own hw hg _ hown]
  simp only [hphase]
  rfl

theorem doFlcResume_answers {x : FlashGroup} (hidle : s.flc.hr = .idle) (hx : Tab.find s.flc.groups g = some x) (hfault : x.faulted = true) :
    doFlcResume g true s = pumpAll { s with flc := { s.flc with
      hrErr := 0, hrGroup := g, groups := Tab.modify s.flc.groups g (fun x => { x with faulted := false }) } } := by
  have hgroup : (s.fgroup g).faulted = true := by simp [State.fgroup, Tab.at, hx, hfault]
  rw [doFlcResume, hrCommand_idle hw hg _ hidle, if_neg (by simp [hgroup])]
  rfl

end Replacement

theorem groupGone_spec (g : Nat) (s : State) : (groupGone g s).flc.hr = .removed ∧ (12 + g) ∈ (groupGone g s).clk.stopped ∧
    (∀ p ∈ (groupGone g s).flc.luns, inGroup g p.1 = false) ∧ ∀ m ∈ (groupGone g s).trl.freeBlks, chGroup m.blk.ch ≠ g := by
  refine ⟨rfl, mem_setAdd .., fun p hp => ?_, fun m hm => ?_⟩
  · simpa using (List.mem_filter.1 hp).2
  · simpa using (List.mem_filter.1 hm).2

theorem doEvacuationDone_empty {s : State} (hphase : s.flc.hr = .evacuating) (hleft : hrLeft s s.flc.hrGroup = 0) :
    (doEvacuationDone s).flc.hr = .evacuated := by
  rw [doEvacuationDone, if_pos ⟨hphase, hleft⟩]
  rfl

theorem doInsertionDone_erased {s : State} (hphase : s.flc.hr = .inserting) (hops : s.flc.ops = []) :
    (doInsertionDone s).flc.hr = .idle ∧ 92 * (doInsertionDone s).trl.flash.slots / 100 ≤ (doInsertionDone s).trl.flash.units := by
  rw [doInsertionDone, if_pos ⟨hphase, by simp [hops]⟩]
  exact ⟨rfl, Nat.le_max_right ..⟩

/-- Settles O37: each clause takes its command from the phase it meets to the phase or the ERR it leaves. -/
theorem groupsAreReplaced : Obligations.GroupsAreReplaced := by
  unfold Obligations.GroupsAreReplaced
  refine ⟨?evacuate, ?noRoom, ?evacuated, ?remove, ?tooEarly, ?geometry, ?insert, ?inserted, ?cancel, ?resume⟩
  case evacuate =>
    intro g s hw hg hidle hok hroom
    refine ⟨doFlcEvacuate g s, rfl, ?_⟩
    rw [doFlcEvacuate_starts hw hg hidle hok hroom]
    exact ⟨rfl, rfl, rfl⟩
  case noRoom =>
    intro g s hw hg hidle hok hfull
    exact ⟨_, congrArg Host.Outcome.next (doFlcEvacuate_noRoom hw hg hidle hok hfull), hidle, rfl⟩
  case evacuated => exact fun s hphase hleft => ⟨doEvacuationDone s, rfl, doEvacuationDone_empty hphase hleft⟩
  case remove =>
    intro g s hw hg hphase hown hclk
    exact ⟨_, congrArg Host.Outcome.next (doFlcRemove_evacuated hw hg hphase hown hclk), groupGone_spec g s⟩
  case tooEarly =>
    intro g s hw hg hphase hown
    exact ⟨_, congrArg Host.Outcome.next (doFlcRemove_evacuating hw hg hphase hown), hphase, rfl⟩
  case geometry =>
    intro g f s hw hg hphase hown hbad
    exact ⟨_, congrArg Host.Outcome.next (doFlcInsert_geometry hw hg hphase hown hbad), hphase, rfl⟩
  case insert =>
    intro g f s hw hg hphase hown hgeo hbrick hdead
    exact ⟨doFlcInsert g false f s, rfl, doFlcInsert_starts hw hg hphase hown hgeo hbrick hdead⟩
  case inserted => exact fun s hphase hops => ⟨doInsertionDone s, rfl, doInsertionDone_erased hphase hops⟩
  case cancel =>
    intro g s hw hg hphase hown
    refine ⟨doFlcCancel g s, rfl, ?_⟩
    rw [doFlcCancel_evacuated hw hg hphase hown]
    exact ⟨rfl, rfl⟩
  case resume =>
    intro g x s hw hg hidle hx hfault
    refine ⟨_, congrArg Host.Outcome.next (doFlcResume_answers hw hg hidle hx hfault), ?_⟩
    simp [hx]

end Sys2Proof.Machine

/-! Servo fields, sync marks and codewords of the read channel (R227-R250). -/
namespace Sys2Proof.Machine

/-! ### What a raised event, a count or a posted cue leaves of the actuators -/

theorem reg_of_regs {s t : State} (h : t.bus.regs = s.bus.regs) (k d : Nat) : t.reg k d = s.reg k d := by simp [State.reg, h]

@[simp] theorem raiseObj_rch (src obj tag : Nat) (s : State) : (raiseObj src obj tag s).rch = s.rch := (raiseObj_within ..).same_rch rfl
@[simp] theorem raiseObj_flc (src obj tag : Nat) (s : State) : (raiseObj src obj tag s).flc = s.flc := (raiseObj_within ..).same_flc rfl
@[simp] theorem raiseObj_cue (src obj tag : Nat) (s : State) : (raiseObj src obj tag s).cue = s.cue := (raiseObj_within ..).same_cue rfl

@[simp] theorem raiseObj_act (src obj tag a : Nat) (s : State) : (raiseObj src obj tag s).act a = s.act a := act_of_rch (raiseObj_rch ..) a
@[simp] theorem count1_act (key a : Nat) (s : State) : (count1 key s).act a = s.act a := act_of_rch (count1_rch ..) a

theorem postCue_now (p : Poster) (c : CueReq) (s : State) : (postCue p c s).2.cue.now = s.cue.now := by
  unfold postCue
  split
  · split
    · extract_lets late slot u v
      have hv : v.cue.now = s.cue.now := rfl
      dsimp only
      split
      · exact hv
      · exact hv
    · rfl
  · rfl

/-- A posted sample cue leaves the actuators, the cue counter and the registers as they were. -/
theorem postSample_keeps (a : Nat) (s : State) : (postSample a s).rch = s.rch ∧ (postSample a s).cue.now = s.cue.now ∧
    ∀ k d, (postSample a s).reg k d = s.reg k d :=
  ⟨(postSample_within ..).same_rch rfl, postCue_now .., reg_of_regs ((postSample_within ..).same_regs rfl)⟩

/-! ### The clock lane -/

section Angles
variable {a : Nat} {f : AngleField} {s : State} (hp : s.present a = true) (hpow : s.powered = true) (hphase : f.phaseLong = false)
  (hlock : (s.act a).locked = true)
include hp hpow hphase hlock

theorem doAngleField_good (hok : angleFieldOk f.word = true) (hseq : bits f.word.toNat 19 11 = ((s.act a).wedge + 1) % 512) :
    doAngleField a f s = goodField a (bits f.word.toNat 19 11) s := by
  simp [doAngleField, hp, hpow, hphase, hlock, hok, hseq]

omit hp hpow hphase in
theorem goodField_act (j : Nat) : ((goodField a j s).act a).wedge = j ∧ ((goodField a j s).act a).stampCue = s.cue.now ∧
    ((goodField a j s).act a).bad = 0 ∧ ((goodField a j s).act a).locked = true := by
  unfold goodField
  extract_lets x seq iv n u
  rw [if_neg (by simp [x, hlock])]
  simp [u, hlock]

theorem doAngleField_firstBad (hbad : angleFieldOk f.word = false) (hfirst : (s.act a).bad = 0) :
    ((doAngleField a f s).act a).bad = 1 ∧ ((doAngleField a f s).act a).locked = true := by
  simp [doAngleField, hp, hpow, hphase, hlock, hbad, hfirst]

theorem doAngleField_secondBad (hbad : angleFieldOk f.word = false) (hsecond : (s.act a).bad ≠ 0) :
    doAngleField a f s = unlockLane a (raiseObj 129 a 0 s) := by
  simp [doAngleField, hp, hpow, hphase, hlock, hbad, hsecond]

end Angles

theorem unlockLane_act (a : Nat) (s : State) : ((unlockLane a s).act a).locked = false := by
  simp [unlockLane, clearLanes]

theorem doRelockTimeout_due {a t0 : Nat} {s : State} (hun : (s.act a).unlockedAt = some t0) (hdue : t0 + 100000000 ≤ s.wall)
    (hlock : (s.act a).locked = false) : doRelockTimeout a s = preampFault a (onAct a (fun x => { x with unlockedAt := none }) s) := by
  simp [doRelockTimeout, hun, hdue, hlock]

/-! ### Servo fields -/

/-- The state in which the write guard checks a servo field: its sample is posted and kept. -/
def servoSampled (a : Nat) (f : ServoField) (s : State) : State :=
  onAct a (fun x => { x with sample := some ((65536 * f.track : Nat) + f.pes), track := f.track, missing := 0, valid := x.valid + 1 }) (postSample a s)

theorem servoSampled_act (a : Nat) (f : ServoField) (s : State) : (servoSampled a f s).act a =
    { s.act a with sample := some ((65536 * f.track : Nat) + f.pes), track := f.track, missing := 0, valid := (s.act a).valid + 1 } := by
  rw [servoSampled, onAct_act, act_of_rch (postSample_keeps a s).1]

theorem doServoField_found {a : Nat} {f : ServoField} {s : State} (hp : s.present a = true) (hpow : s.powered = true)
    (hfound : f.missing = false) (halone : f.companion = none) : doServoField a f s = guardWedge a f.pes (servoSampled a f s) := by
  simp [doServoField, hp, hpow, hfound, halone, servoSampled]

theorem servoSampled_reg (a : Nat) (f : ServoField) (s : State) (k d : Nat) : (servoSampled a f s).reg k d = s.reg k d :=
  (postSample_keeps a s).2.2 k d

theorem servoSampled_now (a : Nat) (f : ServoField) (s : State) : (servoSampled a f s).cue.now = s.cue.now := (postSample_keeps a s).2.1

theorem guardWedge_passes {a : Nat} {pes : Int} {s : State} (hin : beyond pes (s.reg 0xD00008 0x78) = false) :
    (guardWedge a pes s).act a = { s.act a with
      passes := (s.act a).passes + 1, passCue := s.cue.now
      tripped := (s.act a).tripped && !(decide (2 ≤ (s.act a).passes + 1) && s.rch.shock.isEmpty) } := by
  simp [guardWedge, hin]

theorem guardWedge_trips {a : Nat} {pes : Int} {s : State} (hout : beyond pes (s.reg 0xD00008 0x78) = true) (hw : (s.act a).writing = true) :
    (guardWedge a pes s).act a = { s.act a with writing := false, run := none, tripped := true, passes := 0 } := by
  simp [guardWedge, hout, hw, dropGate_act]

/-! ### Sync marks and codewords -/

theorem onLane0_act (a : Nat) (g : Lane → Lane) (s : State) : (onLane a 0 g s).act a = { s.act a with lane0 := g (s.act a).lane0 } := by
  simp [onLane]

theorem lane_zero (x : RchAct) : x.lane 0 = x.lane0 := rfl

/-- The tolerance of a sync-mark window: wider at the third step of a read (R240). -/
def syncTolerance (s : State) (r : Nat) : Nat :=
  if ((Tab.find s.flc.rds r).map (fun x => x.step)).getD 1 = 3 then bits (s.reg 0xD00014 0x704) 11 8 else bits (s.reg 0xD00014 0x704) 3 0

section Sync
variable {a r : Nat} {w : SyncWindow} {s : State} (hr : (s.act a).lane0.rid = some r) (hsig : w.signal = true)
include hr hsig

theorem doSectorSync_found (hmark : markAccepted (syncTolerance s r) w.mark = true) (hone : w.resync = none) :
    doSectorSync a 0 w s = onLane a 0 (fun y => { y with synced := true, noSignal := 0 }) s := by
  rw [syncTolerance] at hmark
  unfold doSectorSync
  rw [lane_zero, hr]
  dsimp only
  rw [if_neg (by simp [hsig]), if_pos ⟨hmark, by rw [hone]⟩]

theorem doSectorSync_missed (hmark : markAccepted (syncTolerance s r) w.mark = false) :
    doSectorSync a 0 w s = onRd r (fun x => { x with step := max x.step 3 })
      (count1 0xD0003C (raiseObj 130 a 0 (onLane a 0 (fun y => { y with rid := none, synced := false, noSignal := 0 }) s))) := by
  rw [syncTolerance] at hmark
  unfold doSectorSync
  rw [lane_zero, hr]
  dsimp only
  rw [if_neg (by simp [hsig]), if_neg (by simp [hmark])]

end Sync

@[simp] theorem onRd_act (r a : Nat) (g : MediaRd → MediaRd) (s : State) : (onRd r g s).act a = s.act a := rfl

theorem onLane_flc (a l : Nat) (g : Lane → Lane) (s : State) : (onLane a l g s).flc = s.flc := rfl

theorem takeDecoder_act (d r a : Nat) (s : State) : (takeDecoder d r s).act a = s.act a := rfl

section Codewords
variable {a r : Nat} {x : MediaRd} {s : State} (hr : (s.act a).lane0.rid = some r) (hsync : (s.act a).lane0.synced = true)
  (hx : Tab.find s.flc.rds r = some x) (hlast : x.left ≤ 1)
include hr hsync hx hlast

theorem doCodewordComplete_buffered (hbuf : (s.act a).lane0.buf = []) (hnone : s.flc.resv = []) :
    doCodewordComplete a 0 s = onLane a 0 (fun y => { y with buf := y.buf ++ [r] }) (onRd r (fun x => { x with left := 0 })
      (onLane a 0 (fun y => { y with rid := none, synced := false }) s)) := by
  unfold doCodewordComplete
  simp [lane_zero, hr, hsync, hx, Nat.not_lt.2 hlast, onLane_flc, hnone, onLane0_act, hbuf]

theorem doCodewordComplete_reserved {d c : Nat} (hresv : s.flc.resv = [(d, a, 0, c)]) :
    doCodewordComplete a 0 s = takeDecoder d r (onRd r (fun x => { x with left := 0 })
      (onLane a 0 (fun y => { y with rid := none, synced := false }) s)) := by
  unfold doCodewordComplete
  simp [lane_zero, hr, hsync, hx, Nat.not_lt.2 hlast, onLane_flc, hresv]

end Codewords

theorem doReservationRelease_due {d a l c : Nat} {s : State} (hd : Tab.find s.flc.resv d = some (a, l, c)) (hdue : c + 2048 ≤ s.cue.now) :
    doReservationRelease d s = { s with flc := { s.flc with resv := Tab.del s.flc.resv d } } := by
  simp [doReservationRelease, hd, hdue]

/-! ### Write runs -/

/-- The run's slots are placed, its band goes on after it. -/
def runPlaced (a : Nat) (r : WriteRun) (s : State) : State :=
  let s := onAct a (fun x => { x with writing := false, run := none }) s
  { s with trl := { s.trl with bands := Tab.modify s.trl.bands r.band (fun b => { b with append := r.first + r.count, trips := (0, 0) }) } }

theorem doWriteRunEnd_of_run {a : Nat} {r : WriteRun} {s : State} (hr : (s.act a).run = some r) :
    doWriteRunEnd a s = goOn (commitPlatterCopies a (countAdjacent r.band r (runPlaced a r s))) := by
  unfold doWriteRunEnd
  rw [hr]
  rfl

theorem runPlaced_act (a : Nat) (r : WriteRun) (s : State) : (runPlaced a r s).act a = { s.act a with writing := false, run := none } :=
  onAct_act ..

/-- Settles O38: each clause takes its field, mark or codeword to the actuator and the read it leaves. -/
theorem servoAndCodewordsWork : Obligations.ServoAndCodewordsWork := by
  unfold Obligations.ServoAndCodewordsWork
  refine ⟨?good, ?bad, ?relock, ?sample, ?trip, ?mark, ?missed, ?buffered, ?reserved, ?release, ?run⟩
  case good =>
    intro a f s hp hpow hphase hlock hok hseq
    exact ⟨_, congrArg Host.Outcome.next (doAngleField_good hp hpow hphase hlock hok hseq), goodField_act hlock _⟩
  case bad =>
    intro a f s hp hpow hphase hlock hbad
    refine ⟨doAngleField a f s, rfl, doAngleField_firstBad hp hpow hphase hlock hbad, fun hsecond => ?_⟩
    rw [doAngleField_secondBad hp hpow hphase hlock hbad hsecond]
    exact unlockLane_act ..
  case relock =>
    intro a t0 s hun hdue hlock hp hparked hparking hfew
    obtain ⟨hpark, hresume, -, hcause⟩ := preampFault_act a (onAct a (fun x => { x with unlockedAt := none }) s) hp (by rwa [onAct_act])
      (by rwa [onAct_act]) (by rwa [onAct_act])
    exact ⟨_, congrArg Host.Outcome.next (doRelockTimeout_due hun hdue hlock), hpark, hresume, hcause⟩
  case sample =>
    intro a f s hp hpow hfound halone hin
    refine ⟨_, congrArg Host.Outcome.next (doServoField_found hp hpow hfound halone), ?_⟩
    rw [guardWedge_passes (by rwa [servoSampled_reg]), servoSampled_act]
    exact ⟨rfl, rfl, rfl, rfl, servoSampled_now ..⟩
  case trip =>
    intro a f s hp hpow hfound halone hout hw
    refine ⟨_, congrArg Host.Outcome.next (doServoField_found hp hpow hfound halone), ?_⟩
    rw [guardWedge_trips (by rwa [servoSampled_reg]) (by rwa [servoSampled_act])]
    exact ⟨rfl, rfl, rfl⟩
  case mark =>
    intro a r w s hr hsig hmark hone
    refine ⟨_, congrArg Host.Outcome.next (doSectorSync_found hr hsig hmark hone), ?_⟩
    rw [onLane0_act]
  case missed =>
    intro a r x w s hr hx hsig hmark
    have hmiss : markAccepted (syncTolerance s r) w.mark = false := by
      rw [syncTolerance, hx]
      exact hmark
    refine ⟨_, congrArg Host.Outcome.next (doSectorSync_missed hr hsig hmiss), ?_, ?_⟩
    · rw [onRd_act, count1_act, raiseObj_act, onLane0_act]
    · simp [onLane_flc, hx]
  case buffered =>
    intro a r x s hr hsync hbuf hnone hx hlast
    refine ⟨_, congrArg Host.Outcome.next (doCodewordComplete_buffered hr hsync hx hlast hbuf hnone), ?_, ?_, ?_⟩
    · simp [onLane0_act, hbuf]
    · simp [onLane0_act]
    · simp [onLane_flc, hx]
  case reserved =>
    intro a r d c x s hr hsync hresv hx hlast
    refine ⟨_, congrArg Host.Outcome.next (doCodewordComplete_reserved hr hsync hx hlast hresv), Tab.find_put .., ?_, ?_⟩
    · simp [takeDecoder, onLane_flc, hresv, Tab.del]
    · rw [takeDecoder_act, onRd_act, onLane0_act]
  case release =>
    intro d a l c s hd hdue
    exact ⟨_, congrArg Host.Outcome.next (doReservationRelease_due hd hdue), Tab.find_del .., fun e he => Tab.find_del_ne _ he⟩
  case run =>
    intro a r b s hr hb
    refine ⟨runPlaced a r s, congrArg Host.Outcome.next (doWriteRunEnd_of_run hr), ?_, ?_, ?_⟩
    · rw [runPlaced_act]
    · rw [runPlaced_act]
    · exact (Tab.find_modify ..).trans (congrArg (Option.map _) hb)

end Sys2Proof.Machine

/-! Actuators calibrated, parked, resumed and taken offline (R239-R256, R279). -/
namespace Sys2Proof.Machine

/-! ### Shock inputs and the preamplifier -/

theorem doShockCrossing_quiet {mv : Nat} {s : State} (hpow : s.powered = true) (hlow : mv ≤ bits (s.reg 0xD00010 0x1900190) 11 0) :
    doShockCrossing 0 mv s = { s with rch := { s.rch with shock := setDel s.rch.shock 0 } } := by
  simp [doShockCrossing, hpow, Nat.not_lt.2 hlow]

/-- The shock input is remembered and recorded. -/
def shocked (s : State) : State := count1 0xD00038 (raiseObj 135 0 0 { s with rch := { s.rch with shock := setAdd s.rch.shock 0 } })

theorem shocked_act (a : Nat) (s : State) : (shocked s).act a = s.act a := by
  rw [shocked, count1_act, raiseObj_act]
  rfl

theorem doShockCrossing_writing {mv : Nat} {s : State} (hpow : s.powered = true) (hhigh : bits (s.reg 0xD00010 0x1900190) 11 0 < mv)
    (honly : s.actuators = [0]) (hw : (s.act 0).writing = true) : doShockCrossing 0 mv s = dropGate 0 (shocked s) := by
  have hacts : ({ s with rch := { s.rch with shock := setAdd s.rch.shock 0 } } : State).actuators = [0] := honly
  have hwriting : ((shocked s).act 0).writing = true := by rw [shocked_act, hw]
  unfold doShockCrossing
  dsimp only
  rw [if_neg (by simp [hpow]), if_pos rfl, if_pos hhigh, hacts]
  exact if_pos hwriting

theorem doPreampFault_long {a ns : Nat} {s : State} (hpow : s.powered = true) (hp : s.present a = true) (hlong : 200 ≤ ns) :
    doPreampFault a ns s = preampFault a (raiseObj 139 a 0 s) := by
  simp [doPreampFault, onlyIf, hpow, hp, hlong]

theorem present_raiseObj (src obj tag a : Nat) (s : State) : (raiseObj src obj tag s).present a = s.present a := by
  have hprk : (raiseObj src obj tag s).prk = s.prk := (raiseObj_within ..).same_prk rfl
  simp [State.present, State.surfaces, State.cfg, hprk]

section Frames
variable {a : Nat} {rest : List PaFrame} {s : State} (hfree : (s.act a).gated = false)
include hfree

theorem doPreampFrameDone_diag {n w : Nat} (data : BitVec 16) (hframes : (s.act a).frames = { kind := .diag w, tries := n } :: rest) :
    doPreampFrameDone a data false s = onAct a (fun x => { x with
      frames := rest, paBusy := false, paDone := true, paData := if w.testBit 23 then data.toNat else 0 }) s := by
  simp [doPreampFrameDone, hframes, hfree]

theorem doPreampFrameDone_again {f : PaFrame} (data : BitVec 16) (hframes : (s.act a).frames = f :: rest) (htries : f.tries < 2) :
    doPreampFrameDone a data true s =
      onAct a (fun x => { x with frames := { f with tries := f.tries + 1 } :: rest }) (raiseObj 140 a 0 s) := by
  simp [doPreampFrameDone, hframes, hfree, htries]

end Frames

theorem doPreampFrameDone_gated {a : Nat} {s : State} (data : BitVec 16) (b : Bool) (hgated : (s.act a).gated = true) :
    doPreampFrameDone a data b s = s := by
  unfold doPreampFrameDone
  split
  · rfl
  · rw [if_pos hgated]

section Commands
variable {a : Nat} {val : W32} {s : State} (hw : writable s false = true) (ha : a < 4) (hbusy : (s.act a).paBusy = false)
include hw ha hbusy

theorem doRchPaCmd_parked (hparked : (s.act a).parked = true) : doRchPaCmd a val s = onAct a (fun x => { x with
    frames := x.frames ++ [{ kind := .diag (val.toNat % 2 ^ 24), tries := 0 }]
    paBusy := true, paDone := false, paRefused := false, paData := 0 }) s := by
  rw [doRchPaCmd, if_neg (by simp [hw, ha, hbusy]), if_pos (.inl hparked)]

theorem doRchPaCmd_running (hparked : (s.act a).parked = false) (hoff : (s.act a).offline = false) :
    doRchPaCmd a val s = onAct a (fun x => { x with paDone := false, paRefused := true, paData := 0 }) s := by
  rw [doRchPaCmd, if_neg (by simp [hw, ha, hbusy]), if_neg (by simp [hparked, hoff])]

end Commands

/-! ### Calibrations -/

theorem startCalibration_of_idle {a l : Nat} {temp : Int} {s : State} (hnormal : s.actState a = 0) (h0 : (s.act a).lane0.calibrating = false)
    (h1 : (s.act a).lane1.calibrating = false) (hl : l ≤ 1) : startCalibration a l temp s = onAct a (fun x => { x with calLane := l })
      (onLane a l (fun y => { y with calibrating := true, rid := none, synced := false, calTemp := temp }) s) := by
  rw [startCalibration, if_neg (by simp [hnormal, h0, h1, Nat.not_lt.2 hl])]

theorem onLane1_act (a : Nat) (g : Lane → Lane) (s : State) : (onLane a 1 g s).act a = { s.act a with lane1 := g (s.act a).lane1 } := by
  simp [onLane]

theorem doLaneCalibrationDone_ok {a : Nat} {s : State} (hcal : (s.act a).lane0.calibrating = true) :
    doLaneCalibrationDone a 0 true s = onAct a (fun x => { x with calCount := (x.calCount + 1) % 65536 })
      (onLane a 0 (fun y => { y with calibrating := false, calAt := s.wall }) s) := by
  rw [doLaneCalibrationDone, lane_zero, if_pos hcal]
  rfl

theorem doLaneCalibrationDue_first {a : Nat} {temp : Int} {s : State} (hfirst : (s.act a).lane0.calAt = 0) :
    doLaneCalibrationDue a 0 temp s = startCalibration a 0 temp s := by
  simp [doLaneCalibrationDue, onlyIf, lane_zero, hfirst]

/-! ### Parks, resumes, offline -/

theorem doRchResume_parked {a : Nat} {s : State} (hw : writable s false = true) (hp : s.present a = true) (hparking : (s.act a).parking = false)
    (hparked : (s.act a).parked = true) (hres : (s.act a).resuming = false) : doRchResume a s = startResume a s := by
  simp [doRchResume, hw, hp, hparking, hparked, hres]

theorem startResume_spec (a : Nat) (s : State) : ((startResume a s).act a).resuming = true ∧ ((startResume a s).act a).valid = 0 ∧
    frame 5 a 0 ∈ (startResume a s).hop.link.queue := by
  have hact : (startResume a s).act a = { s.act a with resuming := true, resumeAsked := false, valid := 0 } := onAct_act ..
  rw [hact]
  refine ⟨rfl, rfl, ?_⟩
  simp [startResume, queueFrame]

theorem goOffline_act {a : Nat} {s : State} (hon : (s.act a).offline = false) :
    (goOffline a s).act a = clearLanes { s.act a with offline := true, resuming := false, resumeAsked := false } := by
  rw [goOffline, if_neg (by simp [hon]), raiseObj_act, onAct_act]

theorem doOfflineWaitExpiry_due {rid b sl a : Nat} {r : MediaRd} {s : State} (hr : Tab.find s.flc.rds rid = some r) (hsrc : r.src = .platter b sl)
    (hact : s.bandAct b = some a) (hoff : (s.act a).offline = true) (hdue : r.since + s.reg 0xD00020 0x7530 * 1000000 ≤ s.wall) :
    doOfflineWaitExpiry rid s = endMediaRd rid true (failRead r.scene s) := by
  simp [doOfflineWaitExpiry, hr, hsrc, hact, hoff, hdue]

/-- Settles O39: each clause reads the actuator after its input or command. -/
theorem actuatorsAreCommanded : Obligations.ActuatorsAreCommanded := by
  unfold Obligations.ActuatorsAreCommanded
  refine ⟨?quiet, ?shock, ?fault, ?diag, ?again, ?gated, ?calibrate, ?park, ?resume, ?offline, ?due, ?done, ?wait, ?paCmd⟩
  case quiet =>
    intro mv s hpow hlow
    exact ⟨_, congrArg Host.Outcome.next (doShockCrossing_quiet hpow hlow), rfl, rfl⟩
  case shock =>
    intro mv s hpow hhigh honly hw
    refine ⟨_, congrArg Host.Outcome.next (doShockCrossing_writing hpow hhigh honly hw), ?_⟩
    rw [dropGate_act]
    exact ⟨rfl, rfl⟩
  case fault =>
    intro a ns s hpow hp hlong hparked hparking hfew
    have hfault := preampFault_act a (raiseObj 139 a 0 s) (by rwa [present_raiseObj]) (by rwa [raiseObj_act]) (by rwa [raiseObj_act])
      (by rwa [raiseObj_act])
    rw [raiseObj_wall] at hfault
    exact ⟨_, congrArg Host.Outcome.next (doPreampFault_long hpow hp hlong), hfault⟩
  case diag =>
    intro a n w data rest s hframes hfree
    refine ⟨_, congrArg Host.Outcome.next (doPreampFrameDone_diag hfree data hframes), ?_⟩
    rw [onAct_act]
    exact ⟨rfl, rfl, rfl⟩
  case again =>
    intro a f data rest s hframes htries hfree
    exact ⟨_, congrArg Host.Outcome.next (doPreampFrameDone_again hfree data hframes htries), by rw [onAct_act]⟩
  case gated => exact fun a data b s hgated => congrArg Host.Outcome.next (doPreampFrameDone_gated data b hgated)
  case calibrate =>
    intro a s hw hnormal h0 h1
    have hdo0 : doRchCalibrateL0 a s = startCalibration a 0 s.dieTemp s := by simp [doRchCalibrateL0, onlyIf, hw]
    have hdo1 : doRchCalibrateL1 a s = startCalibration a 1 s.dieTemp s := by simp [doRchCalibrateL1, onlyIf, hw]
    refine ⟨⟨_, congrArg Host.Outcome.next (hdo0.trans (startCalibration_of_idle hnormal h0 h1 (by decide))), ?_⟩,
      ⟨_, congrArg Host.Outcome.next (hdo1.trans (startCalibration_of_idle hnormal h0 h1 (by decide))), ?_⟩⟩
    · rw [onAct_act, onLane0_act]
      exact ⟨rfl, rfl, rfl, rfl⟩
    · rw [onAct_act, onLane1_act]
      exact ⟨rfl, rfl, rfl, rfl⟩
  case park =>
    intro a s hw hp hparked hparking
    have hdo : doRchPark a s = parkFrame false a 5 s := by simp [doRchPark, onlyIf, hw, park]
    refine ⟨_, congrArg Host.Outcome.next hdo, ?_⟩
    rw [parkFrame_act false a 5 s hp hparked hparking]
    exact ⟨rfl, rfl, rfl⟩
  case resume =>
    intro a s hw hp hparking hparked hres
    exact ⟨_, congrArg Host.Outcome.next (doRchResume_parked hw hp hparking hparked hres), startResume_spec a s⟩
  case offline =>
    intro a s hw hp hon
    have hdo : doRchOffline a s = goOffline a s := by simp [doRchOffline, onlyIf, hw, hp]
    refine ⟨_, congrArg Host.Outcome.next hdo, ?_⟩
    rw [goOffline_act hon]
    exact ⟨rfl, rfl, rfl⟩
  case due =>
    intro a temp s hfirst hnormal h0 h1
    refine ⟨_, congrArg Host.Outcome.next ((doLaneCalibrationDue_first hfirst).trans (startCalibration_of_idle hnormal h0 h1 (by decide))), ?_⟩
    rw [onAct_act, onLane0_act]
    exact ⟨rfl, rfl⟩
  case done =>
    intro a s hcal
    refine ⟨_, congrArg Host.Outcome.next (doLaneCalibrationDone_ok hcal), ?_⟩
    rw [onAct_act, onLane0_act]
    exact ⟨rfl, rfl, rfl⟩
  case wait =>
    exact fun rid b sl a r s hr hsrc hact hoff hdue => congrArg Host.Outcome.next (doOfflineWaitExpiry_due hr hsrc hact hoff hdue)
  case paCmd =>
    intro a val s hw ha hbusy
    refine ⟨doRchPaCmd a val s, rfl, fun hparked => ?_, fun hparked hoff => ?_⟩
    · rw [doRchPaCmd_parked hw ha hbusy hparked, onAct_act]
      exact ⟨rfl, rfl⟩
    · rw [doRchPaCmd_running hw ha hbusy hparked hoff, onAct_act]
      exact ⟨rfl, rfl⟩

end Sys2Proof.Machine

/-! Hoop's samples, slots, banks, coefficients, set-points and profiles (R258-R272). -/
namespace Sys2Proof.Machine

theorem onSlot_slot (n : Nat) (g : LoopSlot → LoopSlot) (s : State) : (onSlot n g s).slot n = g (s.slot n) := by
  simp [onSlot, State.slot]

theorem slot_of_slots {s t : State} (h : t.hop.slots = s.hop.slots) (n : Nat) : t.slot n = s.slot n := by simp [State.slot, h]

/-! ### Samples -/

theorem readTach_slots (n : Nat) (s : State) : (readTach n s).hop.slots = s.hop.slots := by
  unfold readTach
  extract_lets src f
  split <;> rfl

theorem sendOutput_slots (n : Nat) (u : Int) (s : State) : (sendOutput n u s).hop.slots = s.hop.slots := by
  unfold sendOutput
  split
  · rfl
  · split
    · extract_lets v
      split <;> rfl
    · rfl

theorem sampleParks_of_not_actuator {n : Nat} (hn : 8 ≤ n) (m : Int) (s : State) : sampleParks n m s = s := if_neg (by omega)

/-- The loop slot's record does not stand in Hoop's state. -/
theorem loop_of_prk {s t : State} (h : t.prk = s.prk) (n : Nat) : t.loop n = s.loop n := by
  simp [State.loop, State.loopSlot, State.cfg, h]

theorem measured_congr {s t : State} {n : Nat} (hrch : t.rch = s.rch) (hpwr : t.pwr = s.pwr) (hprk : t.prk = s.prk) (m : Option Int) :
    t.measured n m = s.measured n m := by
  simp only [State.measured, State.spindle, act_of_rch hrch, loop_of_prk hprk, hpwr]

theorem readTach_prk (n : Nat) (s : State) : (readTach n s).prk = s.prk := (readTach_within ..).same_prk rfl
theorem readTach_rch (n : Nat) (s : State) : (readTach n s).rch = s.rch := (readTach_within ..).same_rch rfl
theorem readTach_pwr (n : Nat) (s : State) : (readTach n s).pwr = s.pwr := (readTach_within ..).same_pwr rfl

/-- A slot with no new set-point and no bank asked for keeps both at a boundary. -/
theorem takeBank_takeSetpoint_none {n : Nat} {s : State} (hsp : (s.slot n).newSp = none) (hwant : (s.slot n).want = none) :
    takeBank n (takeSetpoint n s) = s := by
  have hset : takeSetpoint n s = s := by
    unfold takeSetpoint
    simp only [hsp]
  rw [hset]
  unfold takeBank
  simp only [hwant]

/-- The state in which a slot of no actuator forms its error: its ramp has moved on. -/
def ramped (n : Nat) (s : State) : State :=
  let u := readTach n s
  if (u.slot n).soft then u else onSlot n (fun x => { x with ramp := rampStep x.sp (u.loop n).rate x.ramp }) u

theorem ramped_within (n : Nat) (s : State) : (ramped n s).rch = s.rch ∧ (ramped n s).pwr = s.pwr ∧ (ramped n s).prk = s.prk := by
  unfold ramped
  extract_lets u
  split <;> exact ⟨readTach_rch n s, readTach_pwr n s, readTach_prk n s⟩

theorem ramped_measured (n : Nat) (m : Option Int) (s : State) : (ramped n s).measured n m = s.measured n m := by
  obtain ⟨hrch, hpwr, hprk⟩ := ramped_within n s
  exact measured_congr hrch hpwr hprk m

theorem ramped_slot {n : Nat} {s : State} (hsoft : (s.slot n).soft = false) :
    (ramped n s).slot n = { s.slot n with ramp := rampStep (s.slot n).sp (s.loop n).rate (s.slot n).ramp } := by
  have hslot := slot_of_slots (readTach_slots n s) n
  unfold ramped
  extract_lets u
  rw [if_neg (by simp [u, hslot, hsoft]), onSlot_slot, hslot, loop_of_prk (readTach_prk n s)]

theorem ramped_u (n : Nat) (s : State) : ((ramped n s).slot n).u = (s.slot n).u := by
  have hslot := slot_of_slots (readTach_slots n s) n
  unfold ramped
  extract_lets u
  split
  · rw [hslot]
  · rw [onSlot_slot, hslot]

/-- The slot's new output by its compensator, from its ramp and a measured value. -/
def compensated (n : Nat) (v : Int) (s : State) : State := onSlot n (compensate (s.loop n) 0 (sat16 (s.rampOf n - v))) s

/-- A sample at a limit is counted. -/
def limitCounted (n : Nat) (s : State) : State := if (s.slot n).atLimit then count1 (0xE00828 + 0x40 * n) s else s

theorem limitCounted_slot (n : Nat) (s : State) : (limitCounted n s).slot n = s.slot n := by
  unfold limitCounted
  split <;> rfl

section Samples
variable {n : Nat} {m : Option Int} {s : State} (hn : 8 ≤ n) (hmax : n < 64) (hen : (s.slot n).en = true) (hpow : s.powered = true)
  (hsp : (s.slot n).newSp = none) (hwant : (s.slot n).want = none)
include hn hmax hen hpow hsp hwant

theorem doSampleBoundary_of_measured {v : Int} (hsoft : (s.slot n).soft = false) (hv : s.measured n m = some v) : doSampleBoundary n m s =
    sampleParks n v (sendOutput n ((limitCounted n (compensated n v (ramped n s))).slot n).u (limitCounted n (compensated n v (ramped n s)))) := by
  have hslot := slot_of_slots (readTach_slots n s) n
  have hfour : ¬ n < 4 := by omega
  have hmicro : ¬(4 ≤ n ∧ n < 8) := by omega
  have hbank : takeBank n (takeSetpoint n (readTach n s)) = readTach n s :=
    takeBank_takeSetpoint_none (by rw [hslot, hsp]) (by rw [hslot, hwant])
  have hmeas := ramped_measured n m s
  unfold ramped at hmeas
  simp only [hslot, hsoft, Bool.false_eq_true, if_false, hv] at hmeas
  unfold doSampleBoundary
  rw [if_neg (by simp [hmax, hen, hpow]), hbank]
  simp only [hfour, if_false, hslot, hsoft, hmicro, decide_false, Option.isSome_none, Bool.false_eq_true, or_self, hmeas, Option.getD_none]
  simp only [limitCounted, compensated, ramped, hslot, hsoft, Bool.false_eq_true, if_false]

theorem doSampleBoundary_of_unmeasured (hnone : s.measured n m = none) : doSampleBoundary n m s =
    sendOutput n (s.slot n).u (count1 0xE00024 (onSlot n (fun x => { x with skipped := true }) (ramped n s))) := by
  have hslot := slot_of_slots (readTach_slots n s) n
  have hfour : ¬ n < 4 := by omega
  have hmicro : ¬(4 ≤ n ∧ n < 8) := by omega
  have hbank : takeBank n (takeSetpoint n (readTach n s)) = readTach n s :=
    takeBank_takeSetpoint_none (by rw [hslot, hsp]) (by rw [hslot, hwant])
  have hmeas := ramped_measured n m s
  unfold ramped at hmeas
  simp only [hslot, hnone] at hmeas
  unfold doSampleBoundary
  rw [if_neg (by simp [hmax, hen, hpow]), hbank]
  simp only [hfour, if_false, hslot, hmicro, decide_false, Option.isSome_none, Bool.false_eq_true, or_false, false_or, hmeas]
  simp only [ramped, hslot]

theorem doSampleBoundary_computes {v : Int} (hsoft : (s.slot n).soft = false) (hv : s.measured n m = some v) : (doSampleBoundary n m s).slot n =
    compensate (s.loop n) 0 (sat16 (rampStep (s.slot n).sp (s.loop n).rate (s.slot n).ramp - v))
      { s.slot n with ramp := rampStep (s.slot n).sp (s.loop n).rate (s.slot n).ramp } := by
  have hramp : (ramped n s).rampOf n = rampStep (s.slot n).sp (s.loop n).rate (s.slot n).ramp := by
    rw [State.rampOf, if_neg (by omega), ramped_slot hsoft]
  rw [doSampleBoundary_of_measured hn hmax hen hpow hsp hwant hsoft hv, sampleParks_of_not_actuator hn, slot_of_slots (sendOutput_slots ..),
    limitCounted_slot, compensated, onSlot_slot, hramp, ramped_slot hsoft, loop_of_prk (ramped_within n s).2.2]

theorem doSampleBoundary_repeats (hnone : s.measured n m = none) :
    ((doSampleBoundary n m s).slot n).skipped = true ∧ ((doSampleBoundary n m s).slot n).u = (s.slot n).u := by
  have hslot : (doSampleBoundary n m s).slot n = { (ramped n s).slot n with skipped := true } := by
    rw [doSampleBoundary_of_unmeasured hn hmax hen hpow hsp hwant hnone, slot_of_slots (sendOutput_slots ..)]
    exact onSlot_slot n (fun x => { x with skipped := true }) (ramped n s)
  rw [hslot]
  exact ⟨rfl, ramped_u n s⟩

end Samples

/-! ### Slots, banks, coefficients -/

section Slots
variable {n : Nat} {s : State} (hw : writable s false = true) (hmax : n < 64)
include hw hmax

theorem doHopBankRequest_of_slot (bank atCue : Bool) : doHopBankRequest n bank atCue s =
    onSlot n (fun x => { x with want := if bank = x.bankB then none else some bank, atCue := atCue }) s := by
  rw [doHopBankRequest, if_neg (by simp [hw, hmax])]

theorem doHopSlotDisable_other (hn : 8 ≤ n) : doHopSlotDisable n s = stopSlot n s := by
  rw [doHopSlotDisable, if_neg (by simp [hw, hmax])]
  exact if_neg (by omega)

theorem doHopCoeffWrite_of_slot {i : Nat} (bank : Bool) (val : W32) (hi : i < 7) : doHopCoeffWrite n bank i val false s =
    if bank = (s.slot n).bankB then s
    else onSlot n (fun x => { x with coef := Tab.put x.coef ((if bank then 8 else 0) + i) (toSigned 16 (val.toNat % 65536)) }) s := by
  rw [doHopCoeffWrite, if_neg (by simp [hw, hmax, hi]), if_neg (by simp)]

theorem doHopCoeffWrite_becoming {i : Nat} {bank : Bool} (val : W32) (hi : i < 7) (hwant : (s.slot n).want = some bank) :
    doHopCoeffWrite n bank i val true s = onSlot n (fun x => { x with wrLost := true }) s := by
  rw [doHopCoeffWrite, if_neg (by simp [hw, hmax, hi]), if_pos ⟨rfl, hwant⟩]

end Slots

theorem doHopSlotEnable_off {n : Nat} {s : State} (hw : writable s false = true) (hn : n < 9) (hoff : (s.slot n).en = false) :
    (doHopSlotEnable n s).slot n = { s.slot n with en := true, soft := true, limits := 0, offTrack := 0 } := by
  rw [doHopSlotEnable]
  dsimp only
  rw [if_neg, enableSlot, onSlot_slot, if_neg (by simp [hoff])]
  rintro (hbad | hbig | hheat)
  · simp [hw] at hbad
  · omega
  · omega

theorem doHopSlotDisable_actuator {n : Nat} {s : State} (hw : writable s false = true) (hn : n < 8) (hen : (s.slot n).en = true)
    (hparked : (s.act (n % 4)).parked = false) : doHopSlotDisable n s = park (n % 4) 5 (stopSlot n s) := by
  rw [doHopSlotDisable, if_neg (by simp [hw]; omega)]
  exact if_pos (by simp [hn, hen, hparked])

/-! ### Set-points and profiles -/

theorem useLow_slots (q : Requester) (key : Nat) (s : State) : (useLow q key s).hop = s.hop := (useLow_within ..).same_hop rfl

section Setpoints
variable {q : Requester} {n : Nat} {hi : W32} {s : State} (hreach : mayReach s q .house = true) (hw : writable s false = true)
include hreach hw

theorem doHopSetpointWrite_later (hmax : n < 64) (hn : 9 ≤ n) : (doHopSetpointWrite q n hi s).slot n = { s.slot n with
    newSp := some (toSigned 32 (formed s q (0xE00808 + 0x40 * n) (s.reg (0xE00808 + 0x40 * n) 0) hi % 2 ^ 32)) } := by
  have hfour : ¬ n < 4 := by omega
  have height : n ≠ 8 := by omega
  rw [doHopSetpointWrite, if_neg (by simp [hreach, hw, hmax])]
  simp only [hfour, height, if_false, false_and, onSlot_slot]
  rw [slot_of_slots (congrArg HopState.slots (useLow_slots ..))]
  rfl

theorem doHopSetpointWrite_slow (hslow : toSigned 32 (formed s q 0xE00A08 (s.reg 0xE00A08 0) hi % 2 ^ 32) < 21600) :
    doHopSetpointWrite q 8 hi s = useLow q 0xE00A08 s := by
  rw [show 2 ^ 32 = 4294967296 from rfl] at hslow
  simp [doHopSetpointWrite, hreach, hw, hslow]

end Setpoints

/-- Settles O40: each clause reads the slot or the profile after its boundary or write. -/
theorem hoopComputesItsSamples : Obligations.HoopComputesItsSamples := by
  unfold Obligations.HoopComputesItsSamples
  refine ⟨?computes, ?repeats, ?enable, ?disable, ?parks, ?bank, ?coeff, ?lost, ?setpoint, ?slow, ?start, ?stop⟩
  case computes =>
    exact fun n m v s hn hmax hen hpow hsp hwant hsoft hv =>
      ⟨doSampleBoundary n m s, rfl, doSampleBoundary_computes hn hmax hen hpow hsp hwant hsoft hv⟩
  case repeats =>
    exact fun n s hn hmax hen hpow hsp hwant hnone =>
      ⟨doSampleBoundary n none s, rfl, doSampleBoundary_repeats (by omega) hmax hen hpow hsp hwant hnone⟩
  case enable => exact fun n s hw hn hoff => ⟨doHopSlotEnable n s, rfl, doHopSlotEnable_off hw hn hoff⟩
  case disable =>
    intro n s hw hmax hn
    exact ⟨_, congrArg Host.Outcome.next (doHopSlotDisable_other hw hmax hn), onSlot_slot ..⟩
  case parks =>
    intro n s hw hn hen hp hparked hparking
    refine ⟨_, congrArg Host.Outcome.next (doHopSlotDisable_actuator hw hn hen hparked), ?_⟩
    rw [park, parkFrame_act false (n % 4) 5 (stopSlot n s) hp hparked hparking]
    exact ⟨rfl, rfl⟩
  case bank =>
    intro n bank atCue s hw hmax
    refine ⟨_, congrArg Host.Outcome.next (doHopBankRequest_of_slot hw hmax bank atCue), ?_⟩
    rw [onSlot_slot]
    exact ⟨rfl, rfl, rfl⟩
  case coeff =>
    intro n i bank val s hw hmax hi
    refine ⟨_, congrArg Host.Outcome.next (doHopCoeffWrite_of_slot hw hmax bank val hi), fun heq => if_pos heq, fun hne => ?_⟩
    rw [if_neg hne, onSlot_slot, Tab.find_put]
  case lost =>
    intro n i bank val s hw hmax hi hwant
    exact ⟨_, congrArg Host.Outcome.next (doHopCoeffWrite_becoming hw hmax val hi hwant), onSlot_slot ..⟩
  case setpoint =>
    intro q n hi s hreach hw hmax hn
    refine ⟨doHopSetpointWrite q n hi s, rfl, ?_⟩
    rw [doHopSetpointWrite_later hreach hw hmax hn]
    exact ⟨rfl, rfl⟩
  case slow => exact fun q hi s hreach hw hslow => congrArg Host.Outcome.next (doHopSetpointWrite_slow hreach hw hslow)
  case start =>
    intro a first s hw ha hfirst
    refine ⟨doHopProfileStart a first s, rfl, ?_⟩
    simp [doHopProfileStart, hw, Nat.not_le.2 ha, Nat.not_le.2 hfirst]
  case stop =>
    intro a p s hw ha hp
    refine ⟨doHopProfileStop a s, rfl, ?_⟩
    rw [doHopProfileStop, if_neg (by simp [hw, ha])]
    exact (Tab.find_modify ..).trans (congrArg (Option.map _) hp)

end Sys2Proof.Machine

/-! The helpers that a running program calls (R326-R333, R345, R356-R360). -/
namespace Sys2Proof.Machine

variable {s : State} {h charge i : Nat} {t : Task} {v : Inv} {x : ExecReq} {work : Task → Inv → ExecReq → State → (Int × Bytes) × State}

/-- An invocation after its helper: the answer is kept and its charge grows by `charge`. -/
def answered (h : Nat) (r : Int) (b : Bytes) (charge : Nat) (s : State) : State :=
  onBob (fun z => { z with invs := Tab.modify z.invs h (fun v => { v with result := r, bytes := b, charge := v.charge + charge }) }) s

theorem answered_parts (r : Int) (b : Bytes) (c : Nat) : (answered h r b c s).bob.parts = s.bob.parts := rfl

/-- A running invocation within its budget works, and is answered with what the work gave. -/
theorem helper_of_inv (hi : s.inv h = some (i, t, v, x)) (hb : v.charge + charge ≤ x.budget) :
    helper h charge work s = answered h (work t v x s).1.1 (work t v x s).1.2 charge (work t v x s).2 := by
  unfold helper
  simp only [hi, if_neg (Nat.not_lt.mpr hb)]
  rfl

theorem helperOn_of_open {e : Nat} (hi : s.inv h = some (i, t, v, x)) (hs : s.isSealed t.tag = false) :
    helperOn e h charge work s = helper h charge work s := by
  unfold helperOn
  simp [hi, hs]

theorem find_of_inv (hi : s.inv h = some (i, t, v, x)) : Tab.find s.bob.invs h = some v := by
  unfold State.inv at hi
  split at hi
  · split at hi
    · split at hi
      · simp_all
      · cases hi
    · cases hi
  · cases hi

theorem answered_reads {r : Int} {b : Bytes} {c : Nat} {w : Inv} (hw : Tab.find s.bob.invs h = some w) :
    (Tab.find (answered h r b c s).bob.invs h).map (fun v => (v.result, v.bytes)) = some (r, b) := by
  simp [answered, hw]

/-- What a helper answers is what its work gave, when the work leaves the invocations alone. -/
theorem helper_answers {r : Int} {b : Bytes} (hc : Calls h charge t v s)
    (hw : ∀ x, ((work t v x s).1 = (r, b)) ∧ (work t v x s).2.bob.invs = s.bob.invs) :
    Answers h r b (.next (helper h charge work s)) := by
  obtain ⟨i, x, hi, hb⟩ := hc
  refine ⟨_, rfl, ?_⟩
  rw [helper_of_inv hi hb, (hw x).1]
  exact answered_reads (by rw [(hw x).2]; exact find_of_inv hi)

theorem helperOn_answers {e : Nat} {r : Int} {b : Bytes} (hc : Calls h charge t v s) (hs : s.isSealed t.tag = false)
    (hw : ∀ x, ((work t v x s).1 = (r, b)) ∧ (work t v x s).2.bob.invs = s.bob.invs) :
    Answers h r b (.next (helperOn e h charge work s)) := by
  obtain ⟨i, x, hi, hb⟩ := hc
  rw [helperOn_of_open hi hs]
  exact helper_answers ⟨i, x, hi, hb⟩ hw

/-! ### The values the chapter leaves open -/

/-- The value a helper returns where the chapter gives none. -/
def openValue (s : State) : Int := (((Config.freeValue s.free).toNat % 2 ^ 63 : Nat) : Int)

theorem openValue_nonneg (s : State) : 0 ≤ openValue s := Int.natCast_nonneg _

theorem returnFree_fst (b : Bytes) (s : State) : (returnFree b s).1 = (openValue s, b) := rfl

theorem returnFree_bob (b : Bytes) (s : State) : (returnFree b s).2.bob = s.bob := rfl

theorem helper_returnFree {b : Bytes} (hc : Calls h charge t v s) (hw : ∀ x, work t v x s = returnFree b s) :
    ∃ r, 0 ≤ r ∧ Answers h r b (.next (helper h charge work s)) :=
  ⟨openValue s, openValue_nonneg s, helper_answers hc fun x => by
    rw [hw x]
    exact ⟨returnFree_fst .., congrArg _ (returnFree_bob b s)⟩⟩

/-! ### Smock's counts and events -/

theorem smockEvents_bob (st obj tag : Nat) (s : State) : (smockEvents st obj tag s).bob = s.bob := by
  unfold smockEvents
  split
  · simp
  · split
    · simp
    · split
      · simp
      · split
        · simp
        · split <;> simp

theorem smockTotals_bob (a b : Nat) (s : State) : (smockTotals a b s).bob = s.bob := by
  unfold smockTotals
  simp

theorem smockWork_bob (c : Prop) [Decidable c] (st obj tag a b : Nat) (s : State) :
    (smockEvents st obj tag (if c then smockTotals a b s else s)).bob = s.bob := by
  rw [smockEvents_bob]
  split
  · exact smockTotals_bob ..
  · rfl

/-! ### One helper at a time -/

theorem pqDigest_answers {alg : Nat} {src : Bytes} (hc : Calls h (50 + src.length / 64) t v s) (hs : s.isSealed t.tag = false)
    (ha : alg ≤ 3) (hl : src.length ≤ 262144) : Answers h (digestLen alg) (digestOf alg src) (.next (doPqDigest h alg src s)) :=
  helperOn_answers hc hs fun x => by
    rw [if_neg (by omega)]
    exact ⟨rfl, rfl⟩

theorem pqDigestPart_first {alg ctx : Nat} {src : Bytes} (hc : Calls h (50 + src.length / 64) t v s) (hs : s.isSealed t.tag = false)
    (ha : alg ≤ 3) : Tab.find (doPqDigestPart h alg ctx src true false s).bob.parts (t.tag * 2 ^ 64 + ctx) = some (alg, src) := by
  obtain ⟨i, x, hi, hb⟩ := hc
  rw [doPqDigestPart, helperOn_of_open hi hs, helper_of_inv hi hb, answered_parts]
  simp [Nat.not_lt.mpr ha, returnFree_bob]

theorem pqDigestPart_last {alg ctx : Nat} {src b : Bytes} (hc : Calls h (50 + src.length / 64) t v s) (hs : s.isSealed t.tag = false)
    (ha : alg ≤ 3) (hp : Tab.find s.bob.parts (t.tag * 2 ^ 64 + ctx) = some (alg, b)) :
    Answers h (openValue s) (digestOf alg (b ++ src)) (.next (doPqDigestPart h alg ctx src false true s)) :=
  helperOn_answers hc hs fun x => by
    simp only [Bool.false_eq_true, if_false, hp, if_neg (show ¬ (3 < alg ∨ alg ≠ alg) by omega), if_true]
    exact ⟨rfl, rfl⟩

theorem pqCompress_answers {fmt lvl cap : Nat} {src : Bytes} (hc : Calls h (50 + src.length / 64) t v s) (hs : s.isSealed t.tag = false)
    (hf : 1 ≤ fmt) (hf3 : fmt ≤ 3) (hl : 1 ≤ lvl) (hl9 : lvl ≤ 9) (hlen : src.length ≤ 262144) :
    Answers h (smockReturn (compressEnd fmt lvl s.smockLanes.2.2.2.1 cap src)).1 (smockReturn (compressEnd fmt lvl s.smockLanes.2.2.2.1 cap src)).2
      (.next (doPqCompress h fmt lvl src cap s)) :=
  helperOn_answers hc hs fun x => by
    have hlvl : ∀ d : Nat, (if lvl = 0 then d else lvl) = lvl := fun d => if_neg (by omega)
    rw [if_neg (by omega)]
    simp [hlvl, smockWork_bob]

theorem pqDecompress_answers {fmt cap : Nat} {src : Bytes} (hc : Calls h (50 + src.length / 64) t v s) (hs : s.isSealed t.tag = false)
    (hf : 1 ≤ fmt) (hf3 : fmt ≤ 3) :
    Answers h (smockReturn (decompressEnd fmt cap none src)).1 (smockReturn (decompressEnd fmt cap none src)).2 (.next (doPqDecompress h fmt src cap s)) :=
  helperOn_answers hc hs fun x => by
    rw [if_neg (by omega)]
    exact ⟨rfl, congrArg _ (smockEvents_bob ..)⟩

theorem pqFence_bad {kind : Nat} (hc : Calls h 50 t v s) (hk : 2 < kind) : Answers h (-1) [] (.next (doPqFence h kind s)) :=
  helper_answers hc fun x => by
    rw [if_pos hk]
    exact ⟨rfl, rfl⟩

theorem pqFence_good {kind : Nat} (hc : Calls h 50 t v s) (hk : kind ≤ 2) : ∃ r, 0 ≤ r ∧ Answers h r [] (.next (doPqFence h kind s)) :=
  helper_returnFree hc fun x => if_neg (by omega)

theorem pqRaiseEvent_counts {ix : Nat} {a b : BitVec 64} (hc : Calls h 50 t v s) (hix : ix ≤ 63) (he : v.events < 64) :
    (Tab.find (doPqRaiseEvent h ix a b s).bob.invs h).map (fun v => v.events) = some (v.events + 1) := by
  obtain ⟨i, x, hi, hb⟩ := hc
  rw [doPqRaiseEvent, helper_of_inv hi hb, if_neg (by omega), if_neg (by omega)]
  simp [answered, returnFree_bob, find_of_inv hi]

theorem pqRaiseEvent_full {ix : Nat} {a b : BitVec 64} (hc : Calls h 50 t v s) (hix : ix ≤ 63) (he : 64 ≤ v.events) :
    Answers h 0 [] (.next (doPqRaiseEvent h ix a b s)) :=
  helper_answers hc fun x => by
    rw [if_neg (by omega), if_pos he]
    exact ⟨rfl, rfl⟩

/-- Settles O44: every helper charges its invocation and works on it by one rule, so each clause is what that helper's work gives. -/
theorem programsWorkByHelper : Obligations.ProgramsWorkByHelper := by
  unfold Obligations.ProgramsWorkByHelper
  refine ⟨?digest, ?part, ?compress, ?decompress, ?compare, ?copy, ?fence, ?event, ?cue, ?timeout⟩
  case digest => exact fun h alg src t v s hc hs ha hl => pqDigest_answers hc hs ha hl
  case part =>
    exact fun h alg ctx src b t v s hc hs ha =>
      ⟨⟨_, rfl, pqDigestPart_first hc hs ha⟩, fun hp => ⟨openValue s, openValue_nonneg s, pqDigestPart_last hc hs ha hp⟩⟩
  case compress => exact fun h fmt lvl cap src t v s hc hs hf hf3 hl hl9 hlen => pqCompress_answers hc hs hf hf3 hl hl9 hlen
  case decompress => exact fun h fmt cap src t v s hc hs hf hf3 => pqDecompress_answers hc hs hf hf3
  case compare =>
    exact fun h src a b prev t v s hc => ⟨helper_answers hc fun _ => ⟨rfl, rfl⟩, helper_answers hc fun _ => ⟨rfl, rfl⟩⟩
  case copy => exact fun h src t v s hc => helper_returnFree hc fun _ => rfl
  case fence => exact fun h kind t v s hc => ⟨pqFence_bad hc, pqFence_good hc⟩
  case event =>
    exact fun h ix a b t v s hc hix => ⟨fun he => ⟨_, rfl, pqRaiseEvent_counts hc hix he⟩, pqRaiseEvent_full hc hix⟩
  case cue => exact fun h t v s hc => helper_answers hc fun _ => ⟨rfl, rfl⟩
  case timeout => exact fun h t v s hc => helper_answers hc fun _ => ⟨rfl, rfl⟩

end Sys2Proof.Machine

/-! ASU updates and the walk, Smock's and Tally's jobs, the tenant-window slots (R338-R360, R370-R374). -/
namespace Sys2Proof.Machine

section
variable {s : State} {tb h p : Nat} {e : AsuEntry} {r : AsuTableRec} {rest : List AsuUpdate}

/-! ### Updates of a table -/

@[simp] theorem onAsuTab_tab (t : Nat) (f : AsuTable → AsuTable) (s : State) : (onAsuTab t f s).asuTab t = f (s.asuTab t) := by
  simp [onAsuTab, onAsu, State.asuTab]

theorem asuTab_of_asu {s t : State} (h : t.asu = s.asu) (n : Nat) : t.asuTab n = s.asuTab n := by simp [State.asuTab, h]

@[simp] theorem answerInv_tab (h : Nat) (r : Int) (s : State) (t : Nat) : (answerInv h r s).asuTab t = s.asuTab t := rfl

theorem answerInv_result {v : Inv} (hv : Tab.find s.bob.invs h = some v) (r : Int) :
    (Tab.find (answerInv h r s).bob.invs h).map (fun v => v.result) = some r := by simp [answerInv, hv]

theorem asuUpdateStart_of_front {u : AsuUpdate} (hr : s.asuTable tb = some r) (hq : (s.asuTab tb).queue = u :: rest)
    (hm : (s.asuTab tb).move = none) (hrun : asuRuns s r.owner = true) :
    doAsuUpdateStart tb s = beginUpdate tb r.limit r.owner u (onAsuTab tb (fun a => { a with queue := rest }) s) := by
  unfold doAsuUpdateStart
  simp only [hr, hq, hm, hrun, if_true]

/-- An insert with nothing to move goes straight to its place. -/
theorem startMove_insert_now {u : AsuUpdate} (hi : u.insert = some e) :
    startMove tb { upd := u, left := 0, hole := none } s =
      answerInv u.inv 0 (onAsuTab tb (fun a => { a.both (fun b => Tab.put b u.pos e) with count := a.count + 1, move := none })
        (onAsuTab tb (fun a => { a with move := some { upd := u, left := 0, hole := none } }) s)) := by
  simp [startMove, stepMove, endMove, hi]

theorem startMove_insert_later {u : AsuUpdate} {n : Nat} (hi : u.insert = some e) (hn : n ≠ 0) :
    startMove tb { upd := u, left := n, hole := none } s = onAsuTab tb (fun a => { a with move := some { upd := u, left := n, hole := none } }) s := by
  simp [startMove, hi, hn]

theorem beginUpdate_insert {limit owner : Nat} (hl : (s.asuTab tb).count ≠ limit) (hp : p ≤ (s.asuTab tb).count)
    (hw : p ≠ 2 ^ 64 - 1) :
    beginUpdate tb limit owner { inv := h, insert := some e, pos := p } s =
      startMove tb { upd := { inv := h, insert := some e, pos := p }, left := (s.asuTab tb).count - p, hole := none } s := by
  simp only [beginUpdate, if_neg hl, if_neg hw, if_neg (Nat.not_lt.mpr hp)]

theorem beginUpdate_append {limit owner : Nat} (hl : (s.asuTab tb).count ≠ limit) :
    beginUpdate tb limit owner { inv := h, insert := some e, pos := 2 ^ 64 - 1 } s =
      startMove tb { upd := { inv := h, insert := some e, pos := (s.asuTab tb).count }, left := 0, hole := none } s := by
  simp [beginUpdate, hl]

theorem beginUpdate_full {limit owner : Nat} (hl : (s.asuTab tb).count = limit) :
    beginUpdate tb limit owner { inv := h, insert := some e, pos := p } s = answerInv h (-6) (raise 309 0 tb 0 owner s) := by
  simp only [beginUpdate, if_pos hl]

theorem beginUpdate_delete_last {limit owner : Nat} (hc : 0 < (s.asuTab tb).count) (hp : p = (s.asuTab tb).count - 1) :
    beginUpdate tb limit owner { inv := h, insert := none, pos := p } s =
      startMove tb { upd := { inv := h, insert := none, pos := p }, left := 0, hole := none } s := by
  simp only [beginUpdate, if_neg (show ¬ (s.asuTab tb).count ≤ p by omega), show (s.asuTab tb).count - 1 - p = 0 by omega]

/-- A delete of the last entry moves nothing: the entry is gone from both memories. -/
theorem startMove_delete_now {u : AsuUpdate} (hi : u.insert = none) :
    (startMove tb { upd := u, left := 0, hole := none } s).asuTab tb =
      { ((s.asuTab tb).both (fun b => Tab.del b u.pos)).both (fun b => Tab.del b ((s.asuTab tb).count - 1)) with
        count := (s.asuTab tb).count - 1, move := none } := by
  simp [startMove, stepMove, endMove, hi, AsuTable.both]

/-! ### The walk -/

@[simp] theorem raiseObj_asu (code t tag : Nat) (s : State) : (raiseObj code t tag s).asu = s.asu := (raiseObj_within ..).same_asu rfl

theorem repairEntry_asu (t i : Nat) (s : State) :
    (repairEntry t i s).asu.walkRow = s.asu.walkRow ∧ (repairEntry t i s).asu.walkBank = s.asu.walkBank ∧
      ((repairEntry t i s).asuTab t).bank = setEntryAt (s.asuTab t).bank i (Tab.find (s.asuTab t).shadow i) := by
  unfold repairEntry
  extract_lets bank u w
  have hu : u.asuTab t = { s.asuTab t with bank := setEntryAt (s.asuTab t).bank i (Tab.find (s.asuTab t).shadow i) } := onAsuTab_tab ..
  have hw : w.asuTab t = u.asuTab t := rfl
  split
  · refine ⟨?_, ?_, ?_⟩
    · rw [raise_asu]
      rfl
    · rw [raise_asu]
      rfl
    · rw [asuTab_of_asu (raise_asu ..), hw, hu]
  · exact ⟨rfl, rfl, by rw [hw, hu]⟩

theorem find_setEntryAt (b : Tab AsuEntry) (i : Nat) (e : Option AsuEntry) : Tab.find (setEntryAt b i e) i = e := by
  cases e <;> simp [setEntryAt]

theorem stepWalk_inside (hrow : s.asu.walkRow + 1 < 16384) : stepWalk s = onAsu (fun a => { a with walkRow := a.walkRow + 1 }) s := if_pos hrow

/-- What the walk makes of the entry it has come to. -/
def walkedEntry (t owner i : Nat) (s : State) : State :=
  if Tab.find (s.asuTab t).bank i = Tab.find (s.asuTab t).shadow i then s else raiseObj 305 t owner (count1 0x600030 (repairEntry t i s))

theorem walkedEntry_spec (t owner i : Nat) (s : State) :
    (walkedEntry t owner i s).asu.walkRow = s.asu.walkRow ∧ (walkedEntry t owner i s).asu.walkBank = s.asu.walkBank ∧
      Tab.find ((walkedEntry t owner i s).asuTab t).bank i = Tab.find (s.asuTab t).shadow i := by
  unfold walkedEntry
  split
  · exact ⟨rfl, rfl, ‹_›⟩
  · obtain ⟨hrow, hbank, hent⟩ := repairEntry_asu t i s
    have hasu : (raiseObj 305 t owner (count1 0x600030 (repairEntry t i s))).asu = (repairEntry t i s).asu := by simp
    rw [asuTab_of_asu hasu, hent, find_setEntryAt, hasu]
    exact ⟨hrow, hbank, rfl⟩

theorem asuWalk_of_entry (hh : s.asuHeld = false) (hp : s.powered = true) (hb : s.bankTable s.asu.walkBank = some (tb, r))
    (hm : (s.asuTab tb).hole = none) :
    doAsuWalk none s = stepWalk (walkedEntry tb r.owner ((s.asu.walkBank - r.first) * 16384 + s.asu.walkRow) s) := by
  simp [doAsuWalk, hh, hp, hb, hm, walkedEntry]

end

/-! ### Smock's jobs -/

theorem closeWindows_of_none {s : State} (h : s.smg.now = []) : closeWindows s = s := by simp [closeWindows, h]

/-- What a job that ends well leaves, before its task completes. -/
def smockDone (t : Task) (j : SmockJob) (e : SmockEnd) (s : State) : State :=
  let s := writeRecord t (smockRecord 0 e.out.length (if bit j.flags 0 then crc64 e.out else 0)) (dramStore j.dst e.out s)
  if j.op = 0 then smockTotals j.srcLen e.out.length s else s

theorem smockDone_dram (t : Task) (j : SmockJob) (e : SmockEnd) (s : State) :
    (smockDone t j e s).dram =
      (writeRecord t (smockRecord 0 e.out.length (if bit j.flags 0 then crc64 e.out else 0)) (dramStore j.dst e.out s)).dram := by
  unfold smockDone
  extract_lets u
  split <;> rfl

theorem goesRaw_of_good (s : State) (t : Task) (op : Nat) : goesRaw s t op 0 = false := by simp [goesRaw]

theorem smockRun_of_good {s : State} {h i op : Nat} {t : Task} {j : SmockJob} {e : SmockEnd} (hw : s.smg.now = [])
    (ht : engineTask s 8 h = some (i, t)) (hstop : t.stopping = false) (hj : smockJobOf (s.dramRead t.job 64) = j) (hop : j.op = op)
    (he : smockEnd s.smockLanes.2.2.2.1 j (s.dramRead t.job 64) (s.dramRead j.src j.srcLen) = e) (hst : e.status = 0) :
    smockRun h op none s = endEngine i 0 (smockDone t j e s) := by
  unfold smockRun
  rw [closeWindows_of_none hw]
  simp [ht, hstop, hj, hop, he, hst, goesRaw_of_good, smockStore, smockEvents, smockDone]

/-! ### Tally's jobs -/

section
variable {s : State} {h i : Nat} {t : Task} {j : TallyJob} (hw : s.smg.now = []) (ht : engineTask s 7 h = some (i, t))
  (hstop : t.stopping = false) (hslot : t.job < slotJob) (hj : tallyJobOf (s.dramRead t.job 64) = j)
include hw ht hstop hslot hj

theorem tallyJob_of_unfit (hbad : tallyOk j (s.dramRead t.job 64) = false) :
    doTallyJob h false false none s = failTally i h t 0x01 s := by
  unfold doTallyJob
  rw [closeWindows_of_none hw]
  simp [ht, hstop, Nat.not_le.mpr hslot, hj, hbad]

theorem tallyJob_of_badPart (hok : tallyOk j (s.dramRead t.job 64) = true) (hbad : partInvalid j = true) :
    doTallyJob h false false none s = failTally i h t 0x89 s := by
  unfold doTallyJob
  rw [closeWindows_of_none hw]
  simp [ht, hstop, Nat.not_le.mpr hslot, hj, hok, hbad]

theorem tallyJob_of_onePart (hok : tallyOk j (s.dramRead t.job 64) = true) (hpart : partInvalid j = false) (hfirst : j.first = true)
    (hfinal : j.final = true) (hcmp : j.compares = false) (halg : j.alg < 16) (hpost : bit j.flags 3 = false) :
    doTallyJob h false false none s = endEngine i 0 (freeJobCtx t (writeRecord t (tallyRecord 0 j.ctx (0, 0)
      (tallyDigest j.alg none (s.dramRead j.src j.len ++ (s.dramRead (j.src + j.len) 8).take j.lastVb))) s)) := by
  unfold doTallyJob
  rw [closeWindows_of_none hw]
  simp [ht, hstop, Nat.not_le.mpr hslot, hj, hok, hpart, partStart, hfirst, halg, hfinal, finishTally, hcmp, hpost]

end

/-! ### Slots of the tenant windows -/

@[simp] theorem onTlySlot_slot (k : Nat) (f : TlySlot → TlySlot) (s : State) : (onTlySlot k f s).tslot k = f (s.tslot k) := by
  simp [onTlySlot, onTly, State.tslot]

theorem tslot_of_tly {s t : State} (h : t.tly = s.tly) (k : Nat) : t.tslot k = s.tslot k := by simp [State.tslot, h]

theorem failSlot_slot (k st : Nat) (s : State) : ((failSlot k st s).tslot k).state = 4 ∧ ((failSlot k st s).tslot k).err = st := by
  simp [failSlot]

theorem takeSlotCtx_slot (k : Nat) (s : State) : ∃ c, (takeSlotCtx k s).tslot k = { s.tslot k with ctx := c } := by
  unfold takeSlotCtx
  extract_lets x
  split
  · exact ⟨_, rfl⟩
  · split
    · rename_i c _
      exact ⟨some c, onTlySlot_slot ..⟩
    · exact ⟨_, rfl⟩

section
variable {s : State} {tag j : Nat} (hj : j < 4)
include hj

theorem twTlyStart_streams {val : W32} (hw : writable s false = true) (hcmd : bits val.toNat 31 28 = 1) (hst : (s.tslot (slotNo tag j)).state = 0)
    (hslm : bit val.toNat 8 = false) (hpub : bit val.toNat 2 = false) (halg : bits val.toNat 20 16 < 16)
    (hlen : digestLen (bits val.toNat 20 16) ≠ 0) :
    ((doTwTlyStart tag j val s).tslot (slotNo tag j)).state = 1 ∧ ((doTwTlyStart tag j val s).tslot (slotNo tag j)).alg = bits val.toNat 20 16 ∧
      ((doTwTlyStart tag j val s).tslot (slotNo tag j)).fifo = [] := by
  unfold doTwTlyStart
  extract_lets v k r alg keyed key exp slm x s1 s2
  have hs1 : s1.tslot k = x := onTlySlot_slot ..
  have hslm : slm = false := hslm
  have hkey : keyed = false := decide_eq_false (by simpa using halg)
  rw [if_pos ⟨hj, hcmd, hw, by simp [k, hst]⟩, if_neg (by simpa [v, hkey, hpub] using hlen), hslm, if_neg (by simp)]
  obtain ⟨c, hc⟩ := takeSlotCtx_slot k s1
  rw [show s2 = takeSlotCtx k s1 from rfl, hc, hs1]
  exact ⟨if_neg (by simp [hslm]), rfl, rfl⟩

theorem twTlyAbort_fails (hw : writable s false = true) (hst : (s.tslot (slotNo tag j)).state = 1) :
    doTwTlyAbort tag j s = failSlot (slotNo tag j) 0x05 s := if_pos ⟨hj, hw, .inl hst⟩

/-- What an open stream is after a word of data. -/
def wordTaken (q : Requester) (tag j : Nat) (hi : W32) (s : State) : State :=
  onTlySlot (slotNo tag j)
    (fun x => { x with fifo := x.fifo ++ leBytes 8 (formed s q (tenantKey tag (0x1020 + 0x40 * j)) 0 hi), lastWrite := s.wall })
    (useLow q (tenantKey tag (0x1020 + 0x40 * j)) s)

theorem twTlyDataHi_takes {q : Requester} {hi : W32} (hr : mayReach s q (.tenant tag) = true) (hw : writable s false = true)
    (hst : (s.tslot (slotNo tag j)).state = 1) (hroom : (s.tslot (slotNo tag j)).fifo.length < 4096) :
    doTwTlyDataHi q tag j hi s = slotTask (slotNo tag j) (wordTaken q tag j hi s) := by
  have hslot : (useLow q (tenantKey tag (0x1020 + 0x40 * j)) s).tslot (slotNo tag j) = s.tslot (slotNo tag j) := rfl
  rw [doTwTlyDataHi, if_pos ⟨hj, hr, hw⟩]
  simp only [hslot, hst, ne_eq, not_true_eq_false, if_false, if_neg (Nat.not_le.mpr hroom)]
  rfl

theorem twTlyDataHi_full {q : Requester} {hi : W32} (hr : mayReach s q (.tenant tag) = true) (hw : writable s false = true)
    (hst : (s.tslot (slotNo tag j)).state = 1) (hfull : 4096 ≤ (s.tslot (slotNo tag j)).fifo.length) :
    doTwTlyDataHi q tag j hi s = failSlot (slotNo tag j) 0x04 (useLow q (tenantKey tag (0x1020 + 0x40 * j)) s) := by
  have hslot : (useLow q (tenantKey tag (0x1020 + 0x40 * j)) s).tslot (slotNo tag j) = s.tslot (slotNo tag j) := rfl
  rw [doTwTlyDataHi, if_pos ⟨hj, hr, hw⟩]
  simp only [hslot, hst, ne_eq, not_true_eq_false, if_false, if_pos hfull]

/-- What an open stream is after its last word of `vb` bytes. -/
def lastTaken (tag j vb : Nat) (s : State) : State :=
  onTlySlot (slotNo tag j)
    (fun x => { x with
      fifo := x.fifo ++ (leBytes 8 (s.reg64 (tenantKey tag (0x1028 + 0x40 * j)))).take vb
      last := true
      state := 2
      lastWrite := s.wall }) s

theorem twTlyLastVb_takes {vb : Nat} (hw : writable s false = true) (hst : (s.tslot (slotNo tag j)).state = 1) (hvb : vb ≤ 8)
    (hroom : (s.tslot (slotNo tag j)).fifo.length < 4096) :
    doTwTlyLastVb tag j vb s = slotTask (slotNo tag j) (lastTaken tag j vb s) := by
  rw [doTwTlyLastVb, if_pos ⟨hj, hw⟩]
  simp only [hst, Nat.mod_eq_of_lt (show vb < 16 by omega), ne_eq, not_true_eq_false, if_false, if_neg (Nat.not_lt.mpr hvb),
    if_neg (Nat.not_le.mpr hroom)]
  rfl

theorem twTlyLastVb_invalid {vb : Nat} (hw : writable s false = true) (hst : (s.tslot (slotNo tag j)).state = 1) (hvb : 8 < vb) (h16 : vb < 16) :
    doTwTlyLastVb tag j vb s = raise 272 0 (slotNo tag j) 0 tag (count1 0x70001C (failSlot (slotNo tag j) 0x89 s)) := by
  rw [doTwTlyLastVb, if_pos ⟨hj, hw⟩]
  simp only [hst, Nat.mod_eq_of_lt h16, ne_eq, not_true_eq_false, if_false, if_pos hvb]

theorem tallyStreamIdle_fails (hst : (s.tslot (slotNo tag j)).state = 1)
    (hidle : (s.tslot (slotNo tag j)).lastWrite + s.reg 0x700018 0x2710 * 1000000 ≤ s.wall) :
    doTallyStreamIdle tag j s = raise 276 0 (slotNo tag j) 0 tag (failSlot (slotNo tag j) 0x03 s) := if_pos ⟨hj, hst, hidle⟩

end

/-- Settles O45: an update runs by what its table's count makes of it, the walk and each job by the branch that its premises choose. -/
theorem searchAndJobEnginesWork : Obligations.SearchAndJobEnginesWork := by
  unfold Obligations.SearchAndJobEnginesWork
  refine ⟨?append, ?insert, ?full, ?delete, ?walk, ?smock, ?part, ?unfit, ?start, ?abort, ?data, ?last, ?idle⟩
  case append =>
    intro tb h e r rest s hr hq hm hrun hl
    refine ⟨_, congrArg Host.Outcome.next ((asuUpdateStart_of_front hr hq hm hrun).trans
      ((beginUpdate_append (by simpa using hl)).trans (startMove_insert_now rfl))), ?_⟩
    simp [AsuTable.both]
  case insert =>
    intro tb h p e r rest s hr hq hm hrun hl hp hc
    refine ⟨_, congrArg Host.Outcome.next ((asuUpdateStart_of_front hr hq hm hrun).trans
      ((beginUpdate_insert (by simpa using hl) (by simpa using Nat.le_of_lt hp) (by omega)).trans
        (startMove_insert_later (e := e) rfl (by simp only [onAsuTab_tab]; omega)))), ?_⟩
    simp
  case full =>
    intro tb h p e r v rest s hr hq hm hrun hl hv
    refine ⟨_, congrArg Host.Outcome.next ((asuUpdateStart_of_front hr hq hm hrun).trans (beginUpdate_full (by simpa using hl))),
      answerInv_result (v := v) (by simpa using hv) _, ?_⟩
    rw [answerInv_tab, asuTab_of_asu (raise_asu ..)]
    simpa using hl
  case delete =>
    intro tb h r rest s hr hq hm hrun hc
    refine ⟨_, congrArg Host.Outcome.next ((asuUpdateStart_of_front hr hq hm hrun).trans
      (beginUpdate_delete_last (by simpa using hc) (by simp))), ?_⟩
    rw [startMove_delete_now rfl]
    simp [AsuTable.both]
  case walk =>
    intro tb r s hh hp hb hm hrow
    obtain ⟨hwr, hwb, hent⟩ := walkedEntry_spec tb r.owner ((s.asu.walkBank - r.first) * 16384 + s.asu.walkRow) s
    refine ⟨_, congrArg Host.Outcome.next ((asuWalk_of_entry hh hp hb hm).trans (stepWalk_inside (by rw [hwr]; exact hrow))), congrArg (· + 1) hwr, hwb, hent⟩
  case smock =>
    intro h i op t j e s hop hw ht hstop hj hjop he hst
    refine ⟨smockDone t j e s, ?_, smockDone_dram t j e s⟩
    obtain rfl | rfl : op = 0 ∨ op = 1 := by omega
    · exact congrArg Host.Outcome.next (smockRun_of_good hw ht hstop hj hjop he hst)
    · exact congrArg Host.Outcome.next (smockRun_of_good hw ht hstop hj hjop he hst)
  case part =>
    intro h i t j s hw ht hstop hslot hj hok hpart hfirst hfinal hcmp halg hpost
    exact congrArg Host.Outcome.next (tallyJob_of_onePart hw ht hstop hslot hj hok hpart hfirst hfinal hcmp halg hpost)
  case unfit =>
    intro h i st t j s hw ht hstop hslot hj hst hbad
    subst hst
    cases hok : tallyOk j (s.dramRead t.job 64) with
    | false => exact congrArg Host.Outcome.next (tallyJob_of_unfit hw ht hstop hslot hj hok)
    | true => exact congrArg Host.Outcome.next (tallyJob_of_badPart hw ht hstop hslot hj hok (by simpa [hok] using hbad))
  case start =>
    exact fun tag j val s hj hcmd hw hst hslm hpub halg hlen => ⟨_, rfl, twTlyStart_streams hj hw hcmd hst hslm hpub halg hlen⟩
  case abort =>
    exact fun tag j s hj hw hst => ⟨_, congrArg Host.Outcome.next (twTlyAbort_fails hj hw hst), failSlot_slot ..⟩
  case data =>
    intro q tag j hi s hj hr hw hst
    refine ⟨fun hroom => ⟨wordTaken q tag j hi s, congrArg Host.Outcome.next (twTlyDataHi_takes hj hr hw hst hroom), ?_⟩,
      fun hfull => ⟨_, congrArg Host.Outcome.next (twTlyDataHi_full hj hr hw hst hfull), failSlot_slot ..⟩⟩
    rw [wordTaken, onTlySlot_slot]
    rfl
  case last =>
    intro tag j vb s hj hw hst
    refine ⟨fun hvb hroom => ⟨lastTaken tag j vb s, congrArg Host.Outcome.next (twTlyLastVb_takes hj hw hst hvb hroom), ?_⟩,
      fun hvb h16 => ⟨_, congrArg Host.Outcome.next (twTlyLastVb_invalid hj hw hst hvb h16), ?_⟩⟩
    · rw [lastTaken, onTlySlot_slot]
      exact ⟨rfl, rfl, rfl⟩
    · rw [tslot_of_tly (raise_tly ..)]
      exact failSlot_slot ..
  case idle =>
    intro tag j s hj hst hidle
    refine ⟨_, congrArg Host.Outcome.next (tallyStreamIdle_fails hj hst hidle), ?_⟩
    rw [tslot_of_tly (raise_tly ..)]
    exact failSlot_slot ..

end Sys2Proof.Machine

/-! Scrim's jobs, key slots, derivations and random bits (R383-R404). -/
namespace Sys2Proof.Machine

/-! ### Jobs -/

section
variable {s : State} {h i op : Nat} {t : Task} {j : ScrJob} {c : ScrCtx} (hw : s.smg.now = []) (ht : engineTask s 6 h = some (i, t))
  (hstop : t.stopping = false) (hj : scrJobOf (s.dramRead t.job 64) = j) (hok : scrOk j (s.dramRead t.job 64) = true)
  (hgo : scrStart s t j = .go c) (hop : j.op = op)
include hw ht hstop hj hok hgo hop

theorem scrRun_of_badTag (hbad : (scrPart s j c).bad = true) : scrRun op h s = failScr i h op t 0x03 s := by
  unfold scrRun
  rw [closeWindows_of_none hw]
  simp [ht, hstop, hj, hop, hok, hgo, hbad]

/-- A message that takes no counter value notes on its first part when its slot was latched; nothing else comes before the part's end. -/
theorem scrRun_of_good (hgood : (scrPart s j c).bad = false) (hseal : j.withSeal = false) :
    scrRun op h s = endPart i t j c (scrPart s j c) (if j.first then onKeySlot c.slot (fun x => { x with latchedAt := s.cue.now }) s else s) := by
  unfold scrRun
  rw [closeWindows_of_none hw]
  simp [ht, hstop, hj, hop, hok, hgo, hgood, hseal]

/-- What a job comes to once its start is decided. -/
theorem scrRun_of_started :
    ((scrPart s j c).bad = true → (.next (scrRun op h s) : Host.Outcome State Fault Refusal) = .next (failScr i h j.op t 0x03 s)) ∧
      ((scrPart s j c).bad = false → j.withSeal = false →
        ∃ u, (.next (scrRun op h s) : Host.Outcome State Fault Refusal) = .next (endPart i t j c (scrPart s j c) u) ∧ u.dram = s.dram ∧ u.smg = s.smg) := by
  refine ⟨fun hbad => ?_, fun hgood hseal =>
    ⟨_, congrArg Host.Outcome.next (scrRun_of_good hw ht hstop hj hok hgo hop hgood hseal), ?_, ?_⟩⟩
  · rw [hop]
    exact congrArg Host.Outcome.next (scrRun_of_badTag hw ht hstop hj hok hgo hop hbad)
  · split <;> rfl
  · split <;> rfl

end

/-! ### Key slots and derivations -/

@[simp] theorem onKeySlot_slot (k : Nat) (f : KeySlot → KeySlot) (s : State) : (onKeySlot k f s).keySlot k = f (s.keySlot k) := by
  simp [onKeySlot, onScr, State.keySlot]

@[simp] theorem raiseObj_scr (code t tag : Nat) (s : State) : (raiseObj code t tag s).scr = s.scr := (raiseObj_within ..).same_scr rfl

theorem keySlot_of_slots {s t : State} (h : t.scr.slots = s.scr.slots) (k : Nat) : t.keySlot k = s.keySlot k := by simp [State.keySlot, h]

theorem keyResult_slots (tag v : Nat) (s : State) : (keyResult tag v s).scr.slots = s.scr.slots := rfl

theorem keyResult_result (tag v : Nat) (s : State) : Tab.find (keyResult tag v s).scr.results tag = some v := by simp [keyResult, onScr]

/-- What a derivation leaves in its slot. -/
def Derived (r : DeriveReq) (k : Nat) (s t : State) : Prop :=
  (t.keySlot k).key = deriveKey s r ∧ (t.keySlot k).kind = kindOf r.purpose ∧ (t.keySlot k).owner = r.tenant ∧
    (t.keySlot k).epoch = r.epoch ∧ (t.keySlot k).gen = ((s.keySlot k).gen + 1) % 65536

theorem writeSlot_slot (k kind owner epoch nsid index : Nat) (key : BitVec 512) (s : State) :
    let x := (writeSlot k kind owner epoch nsid index key s).keySlot k
    x.key = key ∧ x.kind = kind ∧ x.owner = owner ∧ x.epoch = epoch ∧ x.gen = ((s.keySlot k).gen + 1) % 65536 := by
  simp [writeSlot]

theorem derive_at (r : DeriveReq) (k : Nat) (s : State) : Derived r k s (derive r (some k) s) := writeSlot_slot ..

theorem derive_cached {r : DeriveReq} {k : Nat} {s : State} (hp : r.purpose ≤ 2) (hh : holdsKey s r = false)
    (hc : cacheSlot s r.tenant = some k) : derive r none s = derive r (some k) s := by
  simp [derive, hh, Nat.not_lt.mpr hp, hc]

theorem keyDerivation_made {r : DeriveReq} {s : State} (hr : deriveRefused s r = false) (hs : s.saf.switching = none) :
    doKeyDerivation r s = derive r none s := by simp [doKeyDerivation, hr, hs]

theorem keyDerivation_held {r : DeriveReq} {s : State} (hr : deriveRefused s r = false) (hs : s.saf.switching.isSome = true) :
    doKeyDerivation r s =
      raiseObj 293 r.nsid r.tag (count1 0x90001C (onScr (fun c => { c with queue := c.queue ++ [(r, none)] }) s)) := by
  simp [doKeyDerivation, hr, hs]

theorem keyDerivation_refused {r : DeriveReq} {s : State} (hr : deriveRefused s r = true) (hp : s.powered = true) :
    doKeyDerivation r s = refuseDerive r s := by simp [doKeyDerivation, hr, onlyIf, hp]

/-! ### Counter blocks and erases -/

theorem counterBlockOnFlash_moves {k : Nat} {s : State} (hk : (s.keySlot k).kind = 2) (hreq : (s.keySlot k).requested = true)
    (hwait : (s.keySlot k).waiting = []) (hend : (s.keySlot k).blockEnd < rollAt) (hcnt : (s.keySlot k).counter < rollAt) :
    doCounterBlockOnFlash k s = onKeySlot k (fun x => { x with waiting := [] }) (blockOnFlash k s) := by
  have hcounter : ((blockOnFlash k s).keySlot k).counter < rollAt := by
    unfold blockOnFlash
    rw [if_pos hend, onKeySlot_slot]
    exact hcnt
  have hroll : rollOver k (blockOnFlash k s) = blockOnFlash k s := if_pos (.inl hcounter)
  simp [doCounterBlockOnFlash, hk, hreq, hwait, hroll]

theorem blockOnFlash_reserves {k : Nat} {s : State} (hend : (s.keySlot k).blockEnd < rollAt) :
    ((blockOnFlash k s).keySlot k).blockEnd = (s.keySlot k).blockEnd + 65536 ∧
      Tab.find (blockOnFlash k s).scr.reserved (reserveKey (s.keySlot k).nsid (s.keySlot k).epoch) = some ((s.keySlot k).blockEnd + 65536) := by
  unfold blockOnFlash
  rw [if_pos hend, onKeySlot_slot]
  exact ⟨rfl, Tab.find_put ..⟩

theorem eraseSlot_of_empty {k : Nat} {s : State} (hk : (s.keySlot k).kind = 0) :
    (eraseSlot k s).keySlot k = { gen := ((s.keySlot k).gen + 1) % 65536, owner := (s.keySlot k).owner } := by
  unfold eraseSlot
  extract_lets x u
  rw [if_pos hk]
  exact Tab.at_put ..

theorem scrSlotErase_of_writable {s : State} (hw : writable s false = true) : doScrSlotErase s = eraseSlot (s.reg 0x900038 0) s := by
  simp [doScrSlotErase, onlyIf, hw]

/-! ### The tenant's commands -/

section
variable {s : State} {tag k : Nat} (hw : writable s false = true) (hb : s.keyBusy tag = false)
include hw hb

theorem twKeyDerive_noSlot (purpose ix : Nat) (hsel : s.keySel tag = none) : twKeyDerive tag purpose ix s = keyResult tag (keyRefused 1) s := by
  simp [twKeyDerive, hw, hb, hsel]

theorem twKeyDerive_made {purpose ix : Nat} {r : DeriveReq} (hsel : s.keySel tag = some k) (hf : fixedKind (s.keySlot k) = false)
    (hc : keepsCache s tag k = true) (hs : s.saf.switching = none)
    (hr : r = { tag := tag, purpose := purpose, tenant := tag, nsid := 0, epoch := 0, index := ix % 65536 }) (hok : deriveRefused s r = false) :
    twKeyDerive tag purpose ix s = keyResult tag keyDone (derive r (some k) s) := by
  subst hr
  simp [twKeyDerive, hw, hb, hsel, hf, hc, hok, hs]

theorem twKeyErase_fixed (hsel : s.keySel tag = some k) (hf : fixedKind (s.keySlot k) = true) :
    doTwKeyErase tag s = keyResult tag (keyRefused 3) s := by simp [doTwKeyErase, hw, hb, hsel, hf]

theorem twKeyErase_done (hsel : s.keySel tag = some k) (hf : fixedKind (s.keySlot k) = false) :
    doTwKeyErase tag s = keyResult tag keyDone (eraseSlot k s) := by simp [doTwKeyErase, hw, hb, hsel, hf]

end

/-- A tenant's derivation as its command answers it. -/
theorem keyDone_derived (tag : Nat) (r : DeriveReq) (k : Nat) (s : State) :
    Tab.find (keyResult tag keyDone (derive r (some k) s)).scr.results tag = some keyDone ∧
      ((keyResult tag keyDone (derive r (some k) s)).keySlot k).kind = kindOf r.purpose ∧
      ((keyResult tag keyDone (derive r (some k) s)).keySlot k).owner = r.tenant ∧
      ((keyResult tag keyDone (derive r (some k) s)).keySlot k).key = deriveKey s r := by
  obtain ⟨hkey, hkind, howner, -, -⟩ := derive_at r k s
  rw [keySlot_of_slots (keyResult_slots ..)]
  exact ⟨keyResult_result .., hkind, howner, hkey⟩

/-! ### Random bits -/

theorem entropyHealthFail_of_powered {s : State} (hp : s.powered = true) :
    doEntropyHealthFail s = raise 295 0 0 0 0 (onScr (fun c => { c with
      halted := true
      rngOk := false
      rngFails := min (c.rngFails + 1) 65535 }) s) := by simp [doEntropyHealthFail, onlyIf, hp]

theorem entropyRestartTimeout_of_creation {o : Nat} {c : Scene} {s : State} (hh : s.scr.halted = true) (hs : s.scn.scenes = [(o, c)])
    (hk : c.kind = .nsCreate) (hd : c.decided = false) : doEntropyRestartTimeout s = goOn (rollBack o stInternal s) := by
  simp [doEntropyRestartTimeout, hh, hs, hk, hd]

/-- Settles O46: a job's start, a derivation and an erase are each what their premises leave of the operation's branches. -/
theorem scrimServesKeysAndJobs : Obligations.ScrimServesKeysAndJobs := by
  unfold Obligations.ScrimServesKeysAndJobs
  refine ⟨?job, ?made, ?held, ?refused, ?block, ?empty, ?erase, ?tenant, ?noSlot, ?twErase, ?health, ?restart⟩
  case job =>
    intro h i t j c s hw ht hstop hj hok hgo q hq hop
    simp only [List.mem_cons, List.not_mem_nil, or_false] at hq
    rcases hq with rfl | rfl | rfl | rfl | rfl | rfl <;> exact scrRun_of_started hw ht hstop hj hok hgo hop
  case made =>
    exact fun r k s hr hs hp hh hc =>
      ⟨_, congrArg Host.Outcome.next ((keyDerivation_made hr hs).trans (derive_cached hp hh hc)), derive_at r k s⟩
  case held =>
    intro r s hr hs
    refine ⟨_, congrArg Host.Outcome.next (keyDerivation_held hr hs), ?_⟩
    rw [raiseObj_scr]
    exact ⟨rfl, rfl⟩
  case refused => exact fun r s hr hp => congrArg Host.Outcome.next (keyDerivation_refused hr hp)
  case block =>
    intro k s hk hreq hwait hend hcnt
    obtain ⟨htop, hres⟩ := blockOnFlash_reserves hend
    refine ⟨_, congrArg Host.Outcome.next (counterBlockOnFlash_moves hk hreq hwait hend hcnt), ?_, hres⟩
    rw [onKeySlot_slot]
    exact htop
  case empty => exact fun s hw hk => ⟨_, congrArg Host.Outcome.next (scrSlotErase_of_writable hw), eraseSlot_of_empty hk⟩
  case erase => exact fun s hw => congrArg Host.Outcome.next (scrSlotErase_of_writable hw)
  case tenant =>
    exact fun tag ix k s hw hb hsel hf hc hs =>
      ⟨fun hok => ⟨_, congrArg Host.Outcome.next (twKeyDerive_made hw hb hsel hf hc hs rfl hok), keyDone_derived ..⟩,
        fun hok => ⟨_, congrArg Host.Outcome.next (twKeyDerive_made hw hb hsel hf hc hs rfl hok), keyDone_derived ..⟩⟩
  case noSlot =>
    exact fun tag ix s hw hb hsel =>
      ⟨_, congrArg Host.Outcome.next (twKeyDerive_noSlot hw hb 3 ix hsel), keyResult_result .., rfl⟩
  case twErase =>
    exact fun tag k s hw hb hsel =>
      ⟨fun hf => ⟨_, congrArg Host.Outcome.next (twKeyErase_fixed hw hb hsel hf), keyResult_result .., rfl⟩,
        fun hf => ⟨_, congrArg Host.Outcome.next (twKeyErase_done hw hb hsel hf), keyResult_result .., rfl⟩⟩
  case health =>
    intro s hp
    refine ⟨_, congrArg Host.Outcome.next (entropyHealthFail_of_powered hp), ?_⟩
    rw [raise_scr]
    exact ⟨rfl, rfl, rfl⟩
  case restart => exact fun o c s hh hs hk hd => congrArg Host.Outcome.next (entropyRestartTimeout_of_creation hh hs hk hd)

end Sys2Proof.Machine

/-! Alarms, the mesh, attestation and the switchover of the Safety Curtain (R400, R414-R418, R424, R425). -/
namespace Sys2Proof.Machine

variable {s : State}

@[simp] theorem raiseObj_saf (code t tag : Nat) (s : State) : (raiseObj code t tag s).saf = s.saf := (raiseObj_within ..).same_saf rfl
@[simp] theorem raiseObj_dev (code t tag : Nat) (s : State) : (raiseObj code t tag s).dev = s.dev := (raiseObj_within ..).same_dev rfl

/-! ### Alarms and the mesh -/

/-- An alarm as it is recorded, before the state changes. -/
def alarmNoted (kind sensor : Nat) (s : State) : State := raise (355 + kind) 0 sensor 0 0 (noteAlarm kind sensor s)

theorem alarmNoted_saf (kind sensor : Nat) (s : State) : (alarmNoted kind sensor s).saf = (noteAlarm kind sensor s).saf := raise_saf ..

theorem alarmNoted_same (kind sensor : Nat) (s : State) :
    (alarmNoted kind sensor s).dev = s.dev ∧ (alarmNoted kind sensor s).scr = s.scr ∧ (alarmNoted kind sensor s).scn = s.scn :=
  ⟨raise_dev .., raise_scr .., raise_scn ..⟩

theorem alarm_of_first {kind sensor : Nat} (hp : s.powered = true) (hc : s.dev.phase ≠ .curtainDown) :
    alarm kind sensor s = enterCurtain (alarmNoted kind sensor s) := by
  have hdev : (alarmNoted kind sensor s).dev.phase ≠ .curtainDown := by rwa [(alarmNoted_same kind sensor s).1]
  unfold alarm
  rw [if_neg (by simp [hp])]
  exact if_neg hdev

theorem alarm_of_second {kind sensor : Nat} (hp : s.powered = true) (hc : s.dev.phase = .curtainDown) :
    alarm kind sensor s = alarmNoted kind sensor s := by
  have hdev : (alarmNoted kind sensor s).dev.phase = .curtainDown := by rwa [(alarmNoted_same kind sensor s).1]
  unfold alarm
  rw [if_neg (by simp [hp])]
  exact if_pos hdev

theorem noteAlarm_alarms (kind sensor : Nat) (s : State) : (noteAlarm kind sensor s).saf.alarms = min (s.saf.alarms + 1) (2 ^ 32 - 1) := rfl

theorem noteAlarm_first {kind sensor : Nat} (ha : s.saf.alarm = none) : (noteAlarm kind sensor s).saf.alarm = some (kind, sensor % 256) := by
  simp [noteAlarm, onSaf, ha]

theorem enterCurtain_saf (s : State) : (enterCurtain s).saf = { s.saf with rootErased := true } := (enterCurtain_spec s).2

theorem tamperAlarm_of_sensor {kind n : Nat} (hn : n < sensorsOf kind) : doTamperAlarm kind n s = alarm kind n s := if_pos hn

section
variable {k : Nat} {a b : W32} (hk : k < 4) (hp : s.powered = true)
include hk hp

theorem meshCheck_same : doMeshCheck k a a s = onSaf (fun f => { f with meshBad := setDel f.meshBad k }) s := by
  rw [doMeshCheck, if_neg (by simp [hp, hk]), if_pos rfl]

theorem meshCheck_differs (hab : a ≠ b) (hbad : s.saf.meshBad.contains k = false) :
    doMeshCheck k a b s = onSaf (fun f => { f with meshBad := setAdd f.meshBad k }) s := by
  rw [doMeshCheck, if_neg (by simp [hp, hk]), if_neg hab, if_neg (by rw [hbad]; decide)]

theorem meshCheck_differsAgain (hab : a ≠ b) (hbad : s.saf.meshBad.contains k = true) : doMeshCheck k a b s = alarm 4 k s := by
  rw [doMeshCheck, if_neg (by simp [hp, hk]), if_neg hab, if_pos hbad]

end

/-! ### Attestation -/

section
variable {r : SpdmReq} (hr : s.runs = true) (hf : spdmFrom s r.req = true)
include hr hf

theorem spdmRequest_unsigned (hk : spdmSigns r.kind = false) :
    doSpdmRequest r s = emit (.spdm r.req (spdmReply s r)) (spdmEffect r s) := by simp [doSpdmRequest, hr, hf, hk]

theorem spdmRequest_erased (hk : spdmSigns r.kind = true) (he : s.saf.rootErased = true) :
    doSpdmRequest r s = emit (.spdm r.req (.error 0x05)) (raiseObj 367 0 0 s) := by simp [doSpdmRequest, hr, hf, hk, he]

theorem spdmRequest_finish (hk : r.kind = .finish) (he : s.saf.rootErased = false) (hs : s.saf.switching = none) :
    doSpdmRequest r s = emit (.spdm r.req .finish) (raiseObj 366 0 0 (onSaf (fun f => { f with sessions := min (f.sessions + 1) 255 }) s)) := by
  simp [doSpdmRequest, hr, hf, he, hs, spdmReply, spdmEffect, hk]

end

/-! ### Switchover -/

/-- A failover as it is counted and reported. -/
def failoverNoted (s : State) : State := raiseObj 365 0 0 (onSaf (fun f => { f with failovers := min (f.failovers + 1) 65535 }) s)

theorem failoverNoted_saf (s : State) : (failoverNoted s).saf = { s.saf with failovers := min (s.saf.failovers + 1) 65535 } := raiseObj_saf ..

theorem failoverNoted_dev (s : State) : (failoverNoted s).dev = s.dev := raiseObj_dev ..

theorem failover_of_standby (hp : s.powered = true) (hs : s.saf.switching = none) (hr : s.saf.standbyReady = true) :
    doSafetyCurtainFailover s = startSwitch true (failoverNoted s) := by
  have hready : (failoverNoted s).saf.standbyReady = true := by rw [failoverNoted_saf]; exact hr
  rw [doSafetyCurtainFailover, if_neg (by simp [hp, hs])]
  exact if_pos hready

theorem failover_without_standby (hp : s.powered = true) (hs : s.saf.switching = none) (hr : s.saf.standbyReady = false)
    (hc : s.dev.phase ≠ .curtainDown) : doSafetyCurtainFailover s = enterCurtain (noteAlarm 5 0 (failoverNoted s)) := by
  have hready : ¬ (failoverNoted s).saf.standbyReady = true := by rw [failoverNoted_saf]; simp [hr]
  have hphase : (noteAlarm 5 0 (failoverNoted s)).dev.phase ≠ .curtainDown := by
    rw [show (noteAlarm 5 0 (failoverNoted s)).dev = (failoverNoted s).dev from rfl, failoverNoted_dev]
    exact hc
  rw [doSafetyCurtainFailover, if_neg (by simp [hp, hs])]
  exact (if_neg hready).trans (if_neg hphase)

/-- The generations that roll over as a switchover ends. -/
def rollAll (s : State) : State := s.scr.slots.foldl (fun s p => if p.2.kind = 2 then rollOver p.1 s else s) s

theorem rollAll_saf (s : State) : (rollAll s).saf = s.saf := by
  unfold rollAll
  generalize s.scr.slots = l
  induction l generalizing s with
  | nil => rfl
  | cons p l ih =>
    rw [List.foldl_cons, ih]
    split
    · exact (rollOver_within ..).same_saf rfl
    · rfl

/-- The cores as they stand after a switchover. -/
def coresSwitched (ok : Bool) (f : SafState) : SafState :=
  { f with
    switching := none
    held := none
    switches := min (f.switches + 1) 65535
    imageActive := f.imageStandby
    imageStandby := if ok then f.imageActive else 0
    standbyReady := ok }

theorem switchoverDone_of_running {ok failover : Bool} (hs : s.saf.switching = some failover) (hh : s.saf.held = none) :
    doSwitchoverDone ok s = rollAll (drainDerive (raiseObj 364 0 0 (onSaf (coresSwitched ok) s))) := by
  unfold doSwitchoverDone
  rw [if_neg (by simp [hs])]
  simp only [hh]
  rfl

theorem switchoverDone_saf {ok failover : Bool} (hs : s.saf.switching = some failover) (hh : s.saf.held = none) :
    (doSwitchoverDone ok s).saf = coresSwitched ok s.saf := by
  rw [switchoverDone_of_running hs hh, rollAll_saf, (drainDerive_within _).same_saf rfl, raiseObj_saf]
  rfl

/-- Settles O47: an alarm's record and the entry into Curtain Down each have a rule, and every clause chooses which of the two is last. -/
theorem curtainFalls : Obligations.CurtainFalls := by
  unfold Obligations.CurtainFalls
  refine ⟨?first, ?second, ?mesh, ?spdm, ?failover, ?switch⟩
  case first =>
    intro kind n s hp hn hc ha
    refine ⟨_, congrArg Host.Outcome.next ((tamperAlarm_of_sensor hn).trans (alarm_of_first hp hc)), (enterCurtain_spec _).1, ?_⟩
    rw [enterCurtain_saf, alarmNoted_saf]
    exact ⟨rfl, noteAlarm_first ha, noteAlarm_alarms kind n s⟩
  case second =>
    intro kind n s hp hn hc
    obtain ⟨hdev, hscr, hscn⟩ := alarmNoted_same kind n s
    refine ⟨_, congrArg Host.Outcome.next ((tamperAlarm_of_sensor hn).trans (alarm_of_second hp hc)), by rw [hdev, hc], ?_, hscr, hscn⟩
    rw [alarmNoted_saf]
    exact noteAlarm_alarms ..
  case mesh =>
    intro k a b s hk hp
    refine ⟨⟨_, congrArg Host.Outcome.next (meshCheck_same hk hp), rfl, rfl⟩,
      fun hab hbad => ⟨_, congrArg Host.Outcome.next (meshCheck_differs hk hp hab hbad), mem_setAdd .., rfl⟩, fun hab hbad hc => ?_⟩
    refine ⟨_, congrArg Host.Outcome.next ((meshCheck_differsAgain hk hp hab hbad).trans (alarm_of_first hp hc)), (enterCurtain_spec _).1, ?_⟩
    rw [enterCurtain_saf]
  case spdm =>
    intro r s hr hf
    refine ⟨fun hk => ⟨_, congrArg Host.Outcome.next (spdmRequest_unsigned hr hf hk), List.mem_cons_self⟩,
      fun hk he => ⟨_, congrArg Host.Outcome.next (spdmRequest_erased hr hf hk he), List.mem_cons_self, raiseObj_saf ..⟩,
      fun hk he hs => ⟨_, congrArg Host.Outcome.next (spdmRequest_finish hr hf hk he hs), List.mem_cons_self, ?_⟩⟩
    rw [emit_saf, raiseObj_saf]
    rfl
  case failover =>
    intro s hp hs
    refine ⟨fun hr => ⟨_, congrArg Host.Outcome.next (failover_of_standby hp hs hr), rfl, ?_, failoverNoted_dev s⟩,
      fun hr hc => ⟨_, congrArg Host.Outcome.next (failover_without_standby hp hs hr hc), (enterCurtain_spec _).1, ?_⟩⟩
    · exact congrArg SafState.failovers (failoverNoted_saf s)
    · rw [enterCurtain_saf]
  case switch =>
    intro ok failover s hs hh
    refine ⟨doSwitchoverDone ok s, rfl, ?_⟩
    rw [switchoverDone_saf hs hh]
    exact ⟨rfl, rfl, rfl, rfl⟩

end Sys2Proof.Machine

/-! DRAM requests, refresh, temperatures, timing sets (R430, R438-R445). -/
namespace Sys2Proof.Machine

variable {s : State}

@[simp] theorem raiseObj_dmc (code t tag : Nat) (s : State) : (raiseObj code t tag s).dmc = s.dmc := (raiseObj_within ..).same_dmc rfl
@[simp] theorem raiseObj_clk (code t tag : Nat) (s : State) : (raiseObj code t tag s).clk = s.clk := (raiseObj_within ..).same_clk rfl

/-! ### Requests -/

theorem exec_dramRead_of_serves {a : Nat} (hd : DramServes s a) (n : Nat) (f : List (Nat × BitVec 80)) (use : DramUse) :
    exec (.dramRead n a f use) s = .next (dramRequest (.read n a f use) s) := by
  obtain ⟨hr, hm, ha, -⟩ := hd
  exact (if_neg (by simp [ha])).trans (congrArg Host.Outcome.next (if_pos hr))

theorem exec_dramWrite_of_serves {a : Nat} (hd : DramServes s a) (n : Nat) (l : Bytes) :
    exec (.dramWrite n a l) s = .next (dramRequest (.write n a l) s) := by
  obtain ⟨hr, hm, ha, -⟩ := hd
  exact (if_neg (by simp [ha])).trans (congrArg Host.Outcome.next (if_pos hr))

theorem exec_mergeWrite_of_serves {a : Nat} (hd : DramServes s a) (n : Nat) (l : Bytes) (f : List (Nat × BitVec 80)) (use : DramUse) :
    exec (.mergeWrite n a l f use) s = .next (dramRequest (.merge n a l f use) s) := by
  obtain ⟨hr, hm, ha, -⟩ := hd
  exact (if_neg (by simp [ha])).trans (congrArg Host.Outcome.next (if_pos hr))

/-- With nothing waiting, taking the waiting requests again is nothing. -/
theorem drainDram_of_none (h : s.dmc.waiting = []) : drainDram s = s := by
  unfold drainDram onDmc
  rw [h, List.foldl_nil, ← h]

theorem nextFreq_of_none (h : s.dmc.freqWaits = none) : nextFreq s = s := by simp [nextFreq, h]

/-! ### Refresh and temperature -/

theorem refreshDue_of_refresh {ch rank bank : Nat} (hr : s.runs = true) (hc : Tab.at s.dmc.ch ch 0 ≠ 0) (hb : bank < 32) (hk : rank < 2) :
    doRefreshDue ch rank bank false s =
      onDmc (fun d => { d with banks := Tab.update d.banks (ch * 64 + rank * 32 + bank) {} (fun b => { b with row := none }) }) s := by
  simp [doRefreshDue, hr, hc, Nat.not_le.mpr hb, Nat.not_le.mpr hk]

/-- A change of the timing set as it begins. -/
def freqEntered (toB : Bool) (s : State) : State :=
  onDmc (fun d => { d with
    freq := .entering
    toB := toB
    attempts := 1
    abandons := 0
    freqStart := s.cue.now }) s

theorem requestFreq_begins {toB : Bool} (hf : s.dmc.freq = .idle) (hb : s.dmc.setB ≠ toB) (hret : s.dmc.retState ≠ 1) :
    requestFreq toB s = freqEntered toB s := by
  simp [requestFreq, hf, hb, hret, freqEntered]

theorem requestFreq_inEffect {toB : Bool} (hf : s.dmc.freq = .idle) (hb : s.dmc.setB = toB) : requestFreq toB s = s := by
  simp [requestFreq, hf, hb]

/-- A rank's reading as it is kept. -/
def rankRead (ch rank c r : Nat) (s : State) : State :=
  let u := onDmc (fun d => { d with temp := Tab.put d.temp (ch * 2 + rank) (c % 256), rates := Tab.put d.rates (ch * 2 + rank) r }) s
  onDmc (fun d => { d with
    coolSince := if decide (u.hottest < bits (s.reg 0x1000018 0x5A0050) 7 0) then some (d.coolSince.getD u.wall) else none }) u

theorem rankRead_dmc (ch rank c r : Nat) (s : State) :
    ∃ w, (rankRead ch rank c r s).dmc = { s.dmc with
      temp := Tab.put s.dmc.temp (ch * 2 + rank) (c % 256)
      rates := Tab.put s.dmc.rates (ch * 2 + rank) r
      coolSince := w } := ⟨_, rfl⟩

theorem rankRateRead_of_running {ch rank c r : Nat} (hr : s.runs = true) (hc : Tab.at s.dmc.ch ch 0 ≠ 0) (hk : rank < 2) :
    doRankRateRead ch rank c r s =
      if bits (s.reg 0x1000018 0x5A0050) 23 16 < c ∧ !(rankRead ch rank c r s).dmc.setB ∧ (rankRead ch rank c r s).dmc.freq = .idle then
        requestFreq true (raiseObj 333 (ch * 2 + rank) 0 (rankRead ch rank c r s))
      else rankRead ch rank c r s := by
  unfold doRankRateRead
  rw [if_neg (by simp [hr, hc, Nat.not_le.mpr hk])]
  rfl

/-- The readings stay and a rank above its limit asks for set B. -/
theorem rankRateRead_keeps {ch rank c r : Nat} (hr : s.runs = true) (hc : Tab.at s.dmc.ch ch 0 ≠ 0) (hk : rank < 2) (hc8 : c < 256)
    (hf : s.dmc.freq = .idle) (hret : s.dmc.retState ≠ 1) :
    Tab.find (doRankRateRead ch rank c r s).dmc.temp (ch * 2 + rank) = some c ∧
      Tab.find (doRankRateRead ch rank c r s).dmc.rates (ch * 2 + rank) = some r ∧
      (bits (s.reg 0x1000018 0x5A0050) 23 16 < c → s.dmc.setB = false →
        (doRankRateRead ch rank c r s).dmc.freq = .entering ∧ (doRankRateRead ch rank c r s).dmc.toB = true) := by
  obtain ⟨w, hdmc⟩ := rankRead_dmc ch rank c r s
  have htemp : Tab.find (rankRead ch rank c r s).dmc.temp (ch * 2 + rank) = some c := by simp [hdmc, Nat.mod_eq_of_lt hc8]
  have hrate : Tab.find (rankRead ch rank c r s).dmc.rates (ch * 2 + rank) = some r := by simp [hdmc]
  have hset : (rankRead ch rank c r s).dmc.setB = s.dmc.setB := by rw [hdmc]
  have hfreq : (rankRead ch rank c r s).dmc.freq = .idle := by rw [hdmc]; exact hf
  have hstate : (rankRead ch rank c r s).dmc.retState ≠ 1 := by rw [hdmc]; exact hret
  rw [rankRateRead_of_running hr hc hk]
  split
  · next hhot =>
    obtain ⟨-, hB, -⟩ := hhot
    rw [requestFreq_begins (by rw [raiseObj_dmc]; exact hfreq) (by rw [raiseObj_dmc]; simpa using hB) (by rw [raiseObj_dmc]; exact hstate)]
    simp [freqEntered, onDmc, htemp, hrate]
  · next hcool => exact ⟨htemp, hrate, fun hhot hB => absurd ⟨hhot, by simp [hset, hB], hfreq⟩ hcool⟩

theorem thermalReturnTimer_of_cool {t0 : Nat} (hc : s.dmc.coolSince = some t0) (ht : t0 + 1000000000 ≤ s.wall) (hb : s.dmc.setB = true)
    (hf : s.dmc.freq = .idle) (hret : s.dmc.retState ≠ 1) : doThermalReturnTimer s = freqEntered false (raiseObj 333 0 0 s) := by
  have hbegin : requestFreq false (raiseObj 333 0 0 s) = freqEntered false (raiseObj 333 0 0 s) :=
    requestFreq_begins (by simpa using hf) (by simp [hb]) (by simpa using hret)
  unfold doThermalReturnTimer
  simp only [hc]
  rw [if_pos ⟨ht, hb, hf⟩, hbegin]

/-! ### The steps of a change -/

theorem txsElapsed_ends (hf : s.dmc.freq = .exiting) (hw : s.dmc.waiting = []) (hn : s.dmc.freqWaits = none) :
    (doTxsElapsed s).dmc =
      { s.dmc with freq := .idle, lastTook := min ((s.cue.now - s.dmc.freqStart) / 100) 65535, exits := [] } := by
  unfold doTxsElapsed
  rw [if_pos hf]
  extract_lets u
  have hu : (raiseObj 331 (b2n u.dmc.setB) 0 u).dmc = u.dmc := raiseObj_dmc ..
  rw [drainDram_of_none (by rw [hu]; exact hw), nextFreq_of_none (by rw [hu]; exact hn), hu]
  rfl

/-- Settles O49: a request that nothing makes wait is served by `dramRequest_serves`; a change of the timing set goes through its states one step at a time. -/
theorem dramServesItsRequests : Obligations.DramServesItsRequests := by
  unfold Obligations.DramServesItsRequests
  refine ⟨?serves, ?outside, ?refresh, ?rank, ?cool, ?asked, ?committed, ?relocked, ?ended, ?retry, ?idle⟩
  case serves =>
    intro n a f use l s hd
    obtain ⟨u, hu, hdram, hwords, -⟩ := dramRequest_serves (.read n a f use) s hd
    obtain ⟨v, hv, hvdram, hvwords, -⟩ := dramRequest_serves (.write n a l) s hd
    obtain ⟨w, hw, hwdram, hwwords, -⟩ := dramRequest_serves (.merge n a l f use) s hd
    exact ⟨⟨u, (exec_dramRead_of_serves hd n f use).trans (congrArg Host.Outcome.next hu), hdram, hwords⟩,
      ⟨v, (exec_dramWrite_of_serves hd n l).trans (congrArg Host.Outcome.next hv), hvdram, hvwords⟩,
      ⟨w, (exec_mergeWrite_of_serves hd n l f use).trans (congrArg Host.Outcome.next hw), hwdram, hwwords⟩⟩
  case outside =>
    intro n a f use l s hr hm ha
    have hout : (s.runs && s.dmc.mask != 0 && !s.dramHas a) = true := by simp [hr, hm, ha]
    exact ⟨if_pos hout, if_pos hout, if_pos hout⟩
  case refresh =>
    intro ch rank bank s hr hc hb hk
    refine ⟨_, congrArg Host.Outcome.next (refreshDue_of_refresh hr hc hb hk), ?_⟩
    simp [onDmc]
  case rank =>
    exact fun ch rank c r s hr hc hk hc8 hf hret => ⟨_, rfl, rankRateRead_keeps hr hc hk hc8 hf hret⟩
  case cool =>
    exact fun t0 s hc ht hb hf hret => ⟨_, congrArg Host.Outcome.next (thermalReturnTimer_of_cool hc ht hb hf hret), rfl, rfl, rfl⟩
  case asked =>
    intro s hw hf hret
    have hask : ∀ b, onlyIf (writable s false) (requestFreq b) s = requestFreq b s := fun b => by simp [onlyIf, hw]
    exact ⟨fun hb => ⟨_, congrArg Host.Outcome.next ((hask false).trans (requestFreq_begins hf (by simp [hb]) hret)), rfl, rfl, rfl, rfl⟩,
      fun hb => ⟨congrArg Host.Outcome.next ((hask false).trans (requestFreq_inEffect hf hb)),
        _, congrArg Host.Outcome.next ((hask true).trans (requestFreq_begins hf (by simp [hb]) hret)), rfl, rfl, rfl, rfl⟩⟩
  case committed => exact fun s hf => ⟨_, congrArg Host.Outcome.next (if_pos hf), rfl, rfl⟩
  case relocked => exact fun s hf => ⟨_, congrArg Host.Outcome.next (if_pos hf), rfl, rfl, rfl, rfl, rfl⟩
  case ended =>
    intro s hf hw hn
    refine ⟨doTxsElapsed s, rfl, ?_⟩
    rw [txsElapsed_ends hf hw hn]
    exact ⟨rfl, rfl, rfl⟩
  case retry => exact fun s hf hw => ⟨_, congrArg Host.Outcome.next (if_pos ⟨hf, hw⟩), rfl, rfl⟩
  case idle =>
    exact fun ch s hu hr hc hf ht he =>
      ⟨_, congrArg Host.Outcome.next (if_pos ⟨hu, hr, hc, hf, ht, by simpa using he⟩), Tab.at_put ..⟩

end Sys2Proof.Machine

/-! PLL recovery, the scrubber, SRAM words and the retirement of channels (R446-R451). -/
namespace Sys2Proof.Machine

variable {s : State}

/-! ### The second PLL -/

/-- The retry of a PLL that has lost lock before. -/
def Unlocked (s : State) : Prop := s.runs = true ∧ s.dmc.mask ≠ 0 ∧ s.dmc.freq = .idle ∧ 0 < s.dmc.unlockTries

theorem dramPllUnlock_retry (h : Unlocked s) (recovered : Bool) :
    doDramPllUnlock recovered s =
      if recovered then drainDram { onDmc (fun d => { d with unlockTries := 0 }) s with clk := { s.clk with dramLock := true } }
      else if s.dmc.unlockTries + 1 < 3 then onDmc (fun d => { d with unlockTries := d.unlockTries + 1 }) s
      else
        let s := raiseObj 339 0 0 (onDmc (fun d => { d with unlockTries := 3 }) s)
        halt (rollBackAll { s with trl := { s.trl with short := if s.trl.restored then some 0 else s.trl.short } }) := by
  obtain ⟨hr, hm, hf, hu⟩ := h
  simp [doDramPllUnlock, hr, hm, hf, Nat.ne_of_gt hu]

/-! ### SRAM words -/

theorem decodeWord_zero : (decodeWord 0).kind = .clean := by
  have hsyn : syndrome 0 = 0 := codeMod_small 0 (by decide)
  rw [decode_zero 0 hsyn (by decide)]

theorem decodeWord_firstBit : decodeWord 1 = { kind := .corrected, data := 0, fixed := [0] } := by
  have hfew : FewErrors [0] := ⟨by decide, by simp, by simp⟩
  have hflip : flipBits 1 [0] = 0 := by decide
  have hsyn : syndrome 1 = errorsSyndrome [0] := (errorsSyndrome_singleton 0).symm
  rw [decodeWord_of_fewErrors hfew hsyn, hflip]
  simp

/-- What an SRAM read decodes. -/
def sramDecoded (m a : Nat) (fl : BitVec 80) (s : State) : Decoded := decodeWord (Tab.at s.dmc.sram (m * 2 ^ 32 + a) 0 ^^^ fl)

theorem sramDecoded_unlisted {m a : Nat} (h : Tab.find s.dmc.sram (m * 2 ^ 32 + a) = none) (fl : BitVec 80) : sramDecoded m a fl s = decodeWord fl := by
  rw [sramDecoded, Tab.at, h, Option.getD_none]
  exact congrArg decodeWord BitVec.zero_xor

theorem sramWord_of_clean {m n src a : Nat} {fl : BitVec 80} {x : Decoded} (hd : sramDecoded m a fl s = x) (hk : x.kind = .clean) :
    sramWord m n src a fl s = (.clean, s) := by
  unfold sramDecoded at hd
  unfold sramWord
  simp only [hd, hk]

theorem sramWord_of_corrected {m n src a : Nat} {fl : BitVec 80} {x : Decoded} (hd : sramDecoded m a fl s = x) (hk : x.kind = .corrected) :
    sramWord m n src a fl s = (.corrected, raiseObj 326 a 0 (count1 0x110001C (logEcc (sramEntry s n src a x)
      (onDmc (fun d => { d with sram := Tab.del d.sram (m * 2 ^ 32 + a) }) s)))) := by
  unfold sramDecoded at hd
  unfold sramWord
  simp only [hd, hk, if_true]

/-- A clean word is read and nothing is kept of it. -/
theorem sramWord_clean {m n src a : Nat} (h : Tab.find s.dmc.sram (m * 2 ^ 32 + a) = none) : sramWord m n src a 0 s = (.clean, s) :=
  sramWord_of_clean (sramDecoded_unlisted h 0) decodeWord_zero

/-- One wrong bit of a clean word is put right and logged. -/
theorem sramWord_corrected {m n src a : Nat} (h : Tab.find s.dmc.sram (m * 2 ^ 32 + a) = none) :
    (sramWord m n src a 1 s).1 = .corrected ∧ Tab.find (sramWord m n src a 1 s).2.dmc.sram (m * 2 ^ 32 + a) = none ∧
      (sramWord m n src a 1 s).2.dmc.log.length = min (s.dmc.log.length + 1) 32 := by
  rw [sramWord_of_corrected ((sramDecoded_unlisted h 1).trans decodeWord_firstBit) rfl]
  simp only [raiseObj_dmc, count1_dmc, logEcc, onDmc, Tab.find_del, List.length_take, List.length_cons]
  exact ⟨trivial, trivial, Nat.min_comm ..⟩

/-- A read of an SRAM word, by what the word was. -/
theorem sramRead_of_word {m n a : Nat} {fl : BitVec 80} {k : WordKind} {t : State} (hp : s.powered = true)
    (hw : sramWord m n 0 a fl s = (k, t)) (hk : k = .clean ∨ k = .corrected) : doSramRead m n a fl .none s = t := by
  unfold doSramRead
  simp only [hp, hw]
  rcases hk with rfl | rfl <;> rfl

theorem sramRead_clean {m n a : Nat} {fl : BitVec 80} (hp : s.powered = true) (hw : sramWord m n 0 a fl s = (.clean, s)) (use : DramUse) :
    doSramRead m n a fl use s = s := by
  unfold doSramRead
  simp only [hp, hw]
  rfl

/-- The SRAM scrubber's place after a word. -/
theorem scrubLine_sram {last : Bool} (hr : s.runs = true) (hs : s.dmc.sram = []) :
    (doScrubLine [] (some last) s).dmc.sramPos = (if last then 0 else s.dmc.sramPos + 1) ∧
      (doScrubLine [] (some last) s).dmc.sramPasses = (if last then (s.dmc.sramPasses + 1) % 65536 else s.dmc.sramPasses) := by
  have hclean : sramWord 0 0xFF 1 s.dmc.sramPos (flipOf [] 0) s = (.clean, s) := sramWord_clean (by rw [hs]; rfl)
  unfold doScrubLine
  simp only [hr, hclean, Bool.not_true, Bool.false_eq_true, if_false]
  cases last with
  | true =>
    simp only [if_true]
    rw [raiseObj_dmc]
    exact ⟨rfl, rfl⟩
  | false => exact ⟨rfl, rfl⟩

/-! ### Retirement -/

/-- A refused retirement. -/
theorem retireChannel_stopped {ch : Nat} (hret : s.dmc.retState = 0) (hch : Tab.at s.dmc.ch ch 0 = 0) :
    retireChannel ch s = raiseObj 337 ch 0 (onDmc (fun d => { d with retErr := 1 }) s) := by
  simp [retireChannel, hret, hch]

theorem retireChannel_begins {ch : Nat} (hret : s.dmc.retState = 0) (hch : Tab.at s.dmc.ch ch 0 = 1) (hn : s.dramChannels.length = 2)
    (hone : s.dmc.retiredThisCycle = false) (hroom : s.allocSlabs * 2 ≤ s.totalSlabs) (halloc : s.allocSlabs ≠ 0) :
    retireChannel ch s = raiseObj 335 ch 0 (onDmc (fun d => { d with
      ch := Tab.put d.ch ch 3
      retCh := ch
      retState := 1
      retErr := 0
      toCopy := s.allocSlabs
      copied := 0
      remap := [] }) s) := by
  simp [retireChannel, hret, hch, hn, hone, Nat.not_lt.mpr hroom, halloc]

theorem dmcRetire_of_writable {ch : Nat} (hw : writable s false = true) (hch : ch < 4) : doDmcRetire ch s = retireChannel ch s := by
  simp [doDmcRetire, onlyIf, hw, hch]

/-- A block of the retiring channel as it is remapped. -/
def blockRemapped (s : State) : State :=
  let others := s.dramChannels.filter (fun c => c != s.dmc.retCh)
  let m := max 1 others.length
  onDmc (fun d => { d with
    copied := s.dmc.copied + 1
    remap := Tab.put d.remap s.dmc.copied (others.getD (s.dmc.copied % m) 0, s.allocSlabs + s.dmc.copied / m)
    slabsLost := if s.dmc.copied % m = 0 then d.slabsLost + 1 else d.slabsLost }) s

theorem blockRemapped_dmc (s : State) :
    ∃ p l, (blockRemapped s).dmc =
      { s.dmc with copied := s.dmc.copied + 1, remap := Tab.put s.dmc.remap s.dmc.copied p, slabsLost := l } := ⟨_, _, rfl⟩

section
variable (hret : s.dmc.retState = 1) (hr : s.runs = true) (hw : s.dmc.waiting = []) (hn : s.dmc.freqWaits = none)
include hret hr hw hn

theorem blockCopyDone_goesOn (hmore : s.dmc.copied + 1 < s.dmc.toCopy) : doBlockCopyDone s = blockRemapped s := by
  have hdrain : drainDram (blockRemapped s) = blockRemapped s := drainDram_of_none hw
  have hwaits : (blockRemapped s).dmc.freqWaits = none := hn
  unfold doBlockCopyDone
  extract_lets d others m i s1 s2
  have hs2 : s2 = blockRemapped s := hdrain
  rw [if_neg (by simp [d, hret, hr]), if_pos hmore, hs2]
  simp only [hwaits]

theorem blockCopyDone_finishes (hlast : s.dmc.copied + 1 = s.dmc.toCopy) : doBlockCopyDone s = finishRetire (blockRemapped s) := by
  have hdrain : drainDram (blockRemapped s) = blockRemapped s := drainDram_of_none hw
  have hwaits : (finishRetire (blockRemapped s)).dmc.freqWaits = none := by
    unfold finishRetire
    rw [raiseObj_dmc]
    exact hn
  unfold doBlockCopyDone
  extract_lets d others m i s1 s2
  have hs2 : s2 = blockRemapped s := hdrain
  have hlast : ¬ i + 1 < d.toCopy := Nat.not_lt.mpr (Nat.le_of_eq hlast.symm)
  rw [if_neg (by simp [d, hret, hr]), if_neg hlast, hs2]
  exact nextFreq_of_none hwaits

end

theorem finishRetire_parts (s : State) :
    (finishRetire s).dmc.retState = 2 ∧ Tab.at (finishRetire s).dmc.ch s.dmc.retCh 0 = 4 ∧
      (finishRetire s).dev.boot.dramRetired = s.dev.boot.dramRetired ||| 2 ^ s.dmc.retCh := by
  unfold finishRetire
  extract_lets ch b
  rw [raiseObj_dmc, raiseObj_dev]
  exact ⟨rfl, Tab.at_put .., rfl⟩

/-- Settles O50: an SRAM word is judged by the code word that zero or one flipped bit makes, a retirement by its first failing condition. -/
theorem memoriesAreScrubbedAndRetired : Obligations.MemoriesAreScrubbedAndRetired := by
  unfold Obligations.MemoriesAreScrubbedAndRetired
  refine ⟨?pll, ?sram, ?dram, ?clean, ?corrected, ?retire, ?block⟩
  case pll =>
    intro s hr hm hf hw hu
    have hretry := dramPllUnlock_retry ⟨hr, hm, hf, hu⟩
    refine ⟨⟨_, congrArg Host.Outcome.next ((hretry true).trans ((if_pos rfl).trans (drainDram_of_none hw))), rfl, rfl⟩,
      fun h1 => ⟨_, congrArg Host.Outcome.next ((hretry false).trans ((if_neg (by decide)).trans (if_pos (by omega)))), congrArg (· + 1) h1⟩,
      fun h2 => ⟨_, congrArg Host.Outcome.next ((hretry false).trans ((if_neg (by decide)).trans (if_neg (by omega)))), ?_⟩⟩
    show (raiseObj 339 0 0 _).dmc.unlockTries = 3
    rw [raiseObj_dmc]
    rfl
  case sram => exact fun last s hr hs => ⟨_, rfl, scrubLine_sram hr hs⟩
  case dram => exact fun f s hr hw => congrArg Host.Outcome.next (by simp [doScrubLine, hr, hw])
  case clean => exact fun m n a use s hp h => congrArg Host.Outcome.next (sramRead_clean hp (sramWord_clean h) use)
  case corrected =>
    exact fun m n a s hp h =>
      ⟨_, congrArg Host.Outcome.next (sramRead_of_word hp (Prod.ext (sramWord_corrected h).1 rfl) (.inr rfl)), (sramWord_corrected h).2⟩
  case retire =>
    intro ch s hw hch hret
    refine ⟨fun h0 => ⟨_, congrArg Host.Outcome.next ((dmcRetire_of_writable hw hch).trans (retireChannel_stopped hret h0)), ?_⟩,
      fun h1 hn hone hroom halloc =>
        ⟨_, congrArg Host.Outcome.next ((dmcRetire_of_writable hw hch).trans (retireChannel_begins hret h1 hn hone hroom halloc)), ?_⟩⟩
    · rw [raiseObj_dmc]
      exact ⟨rfl, hret⟩
    · rw [raiseObj_dmc]
      exact ⟨rfl, rfl, rfl, Tab.at_put ..⟩
  case block =>
    intro s hret hr hw hn
    obtain ⟨p, l, hdmc⟩ := blockRemapped_dmc s
    refine ⟨fun hmore => ⟨_, congrArg Host.Outcome.next (blockCopyDone_goesOn hret hr hw hn hmore), rfl, hret, ?_⟩,
      fun hlast => ⟨_, congrArg Host.Outcome.next (blockCopyDone_finishes hret hr hw hn hlast), finishRetire_parts (blockRemapped s)⟩⟩
    simp [hdmc]

end Sys2Proof.Machine

/-! Poisoned words, and the bytes that DRAM requests read and store (R432-R438). -/
namespace Sys2Proof.Machine

/-! ### A poisoned word (R433) -/

theorem decodeWord_poisoned_of_fewErrors {d : Nat} (hd : d < 2 ^ 64) {l : List Nat} (hfew : FewErrors l) :
    decodeWord (flipBits (encodeWord d true) l) = { kind := .poisoned, data := d, fixed := l } := by
  obtain ⟨hdata, hpoison⟩ := encodeWord_fields d true hd
  rw [decodeWord_of_fewErrors hfew (syndrome_flipBits_encodeWord d true l), flipBits_flipBits, hdata, hpoison, if_pos rfl]

theorem encodeWord_true_ne_false {d : Nat} (hd : d < 2 ^ 64) : encodeWord d true ≠ encodeWord d false := by
  intro h
  have hbit := (encodeWord_pdata d hd).2
  rw [h, (encodeWord_data d hd).2] at hbit
  cases hbit

theorem putWord_words_poisoned {w d : Nat} {s : State} (hd : d < 2 ^ 64) :
    (putWord w d (encodeWord d true) s).dmc.words = Tab.put s.dmc.words w (encodeWord d true) := by
  simp only [putWord, encodeWord_true_ne_false hd, decide_false, Bool.false_eq_true, if_false]

theorem storedWord_listed {s : State} {w : Nat} {c : BitVec 80} (h : Tab.find s.dmc.words w = some c) : s.storedWord w = c := by
  unfold State.storedWord
  rw [h]

theorem raiseObj_words (code t tag : Nat) (s : State) : (raiseObj code t tag s).dmc.words = s.dmc.words :=
  congrArg DmcState.words (raiseObj_dmc ..)

theorem finishRetire_words (s : State) : (finishRetire s).dmc.words = s.dmc.words := by
  unfold finishRetire
  extract_lets ch b
  exact (raiseObj_words ..).trans rfl

theorem retireChannel_words (ch : Nat) (s : State) : (retireChannel ch s).dmc.words = s.dmc.words := by
  unfold retireChannel
  extract_lets n st refuse k u
  have hrefuse : ∀ e, (refuse e s).dmc.words = s.dmc.words := fun e => (raiseObj_words 337 ch 0 _).trans rfl
  have hu : u.dmc.words = s.dmc.words := (raiseObj_words 335 ch 0 _).trans rfl
  split
  · rfl
  split
  · exact hrefuse 1
  split
  · exact hrefuse 3
  split
  · exact hrefuse 4
  split
  · exact hrefuse 2
  split
  · exact (finishRetire_words u).trans hu
  · exact hu

theorem autoRetire_words (ch : Nat) (s : State) : (autoRetire ch s).dmc.words = s.dmc.words := by
  unfold autoRetire
  extract_lets d ue conc
  split
  · exact retireChannel_words ch s
  · rfl

theorem poisonWord_words {unit source w : Nat} {x : Decoded} {s : State} (hx : x.data < 2 ^ 64) :
    (poisonWord unit source w x s).dmc.words = Tab.put s.dmc.words w (encodeWord x.data true) := by
  have hnoted : ∀ (r : EccRec) (u : State), (count1 0x1100018 (logEcc r u)).dmc.words = u.dmc.words := fun _ _ => rfl
  have hue : ∀ (ch : Nat) (u : State), (onDmc (fun d => { d with ue := lastDay u.wall d.ue ++ [(ch, u.wall)] }) u).dmc.words = u.dmc.words :=
    fun _ _ => rfl
  unfold poisonWord
  extract_lets ch u
  rw [autoRetire_words, hue, ← putWord_words_poisoned hx]
  exact hnoted ..

/-- Settles O52: the rewritten word is the code word with P = 1, whatever retirement follows from it, and the code corrects two wrong bits of it. -/
theorem poisonStays : Obligations.PoisonStays := by
  unfold Obligations.PoisonStays
  intro unit source w x s hx
  have hstored : (poisonWord unit source w x s).storedWord w = encodeWord x.data true :=
    storedWord_listed (by rw [poisonWord_words hx, Tab.find_put])
  refine ⟨hstored, fun l hfew => ?_⟩
  rw [hstored, decodeWord_poisoned_of_fewErrors hx hfew]

/-! ### Walks over the words of a line -/

theorem SameBytes.read {s t : State} (h : SameBytes s t) (a n : Nat) : memRead t.dram a n = memRead s.dram a n :=
  memRead_congr fun i _ => h.bytes (a + i)

theorem SameBytes.storedWord {s t : State} (h : SameBytes s t) (w : Nat) : t.storedWord w = s.storedWord w := by
  unfold State.storedWord
  rw [h.words w, h.read]

/-- A walk whose every step keeps the bytes and the listing keeps them. -/
theorem foldl_sameBytes {f : State → Nat → State} {ws : List Nat} {s t : State} (h : ∀ w ∈ ws, ∀ u, SameBytes s u → SameBytes u (f u w))
    (ht : SameBytes s t) : SameBytes s (ws.foldl f t) := by
  induction ws generalizing t with
  | nil => exact ht
  | cons w ws ih =>
    exact ih (fun v hv => h v (List.mem_cons_of_mem _ hv)) (ht.trans (h w List.mem_cons_self t ht))

theorem mem_lineWords {a w : Nat} (h : w ∈ (List.range 8).map (fun k => a / 64 * 8 + k)) : a / 64 * 8 ≤ w ∧ w < a / 64 * 8 + 8 := by
  obtain ⟨k, hk, rfl⟩ := List.mem_map.mp h
  have := List.mem_range.mp hk
  omega

theorem lineStart (a : Nat) : 8 * (a / 64 * 8) = 64 * (a / 64) := by omega

/-! ### Reads -/

/-- One word's step of a line read. -/
def readStep (unit w0 : Nat) (acc : List Nat × State) (k : Nat) : List Nat × State :=
  let p := readWord unit (w0 + k) 0 acc.2
  (if p.1 then acc.1 ++ [k] else acc.1, p.2)

theorem readSteps_clean {unit w0 : Nat} {ks : List Nat} {s t : State}
    (hks : ∀ k ∈ ks, Tab.find s.dmc.words (w0 + k) = none) (ht : SameBytes s t) :
    (ks.foldl (readStep unit w0) ([], t)).1 = [] ∧ SameBytes s (ks.foldl (readStep unit w0) ([], t)).2 := by
  induction ks generalizing t with
  | nil => exact ⟨rfl, ht⟩
  | cons k ks ih =>
    obtain ⟨hclean, hsame⟩ := readWord_clean (unit := unit) ht.wf ((ht.words (w0 + k)).trans (hks k List.mem_cons_self))
    have hstep : readStep unit w0 ([], t) k = ([], (readWord unit (w0 + k) 0 t).2) := by
      rw [readStep, hclean]
      rfl
    rw [List.foldl_cons, hstep]
    exact ih (fun j hj => hks j (List.mem_cons_of_mem _ hj)) (ht.trans hsame)

theorem readLine_eq (unit a : Nat) (use : DramUse) (s : State) :
    readLine unit a [] use s =
      let r := (List.range 8).foldl (readStep unit (a / 64 * 8)) ([], s)
      let u := emit (.dramData unit (64 * (a / 64)) (memRead r.2.dram (8 * (a / 64 * 8)) 64) r.1) r.2
      if r.1 = [] then u else consume use u := rfl

/-- A line of unlisted words is read as it stands. -/
theorem readLine_clean {unit a : Nat} {use : DramUse} {s : State} (hwf : memWf s.dram = true)
    (hclean : ∀ k, k < 8 → Tab.find s.dmc.words (a / 64 * 8 + k) = none) :
    ∃ t, SameBytes s t ∧ readLine unit a [] use s = emit (.dramData unit (64 * (a / 64)) (memRead s.dram (64 * (a / 64)) 64) []) t := by
  obtain ⟨hnone, hsame⟩ := readSteps_clean (unit := unit) (fun k hk => hclean k (List.mem_range.mp hk)) (SameBytes.refl hwf)
  refine ⟨_, hsame, ?_⟩
  rw [readLine_eq, ← hsame.read]
  simp only [hnone, if_true, lineStart]

/-- Settles O53: every word of the line is read clean, which puts its bytes back where they stand. -/
theorem dramReadGivesTheLine : Obligations.DramReadGivesTheLine := by
  unfold Obligations.DramReadGivesTheLine
  intro n a use s hd hwf hclean
  obtain ⟨u, hu, hdram, hwords, hout⟩ := dramRequest_serves (.read n a [] use) s hd
  obtain ⟨t, hsame, ht⟩ := readLine_clean (unit := n) (a := a) (use := use) (s := u) (by rw [hdram]; exact hwf) (by rw [hwords]; exact hclean)
  refine ⟨_, (exec_dramRead_of_serves hd n [] use).trans (congrArg Host.Outcome.next (hu.trans ht)), ?_, fun b => ?_, hsame.wf⟩
  · rw [emit_out, hsame.out, hout, hdram]
  · rw [emit_dram, hsame.bytes, hdram]

/-! ### Writes of a line -/

theorem find_filterKey {α : Type} (t : Tab α) (q : Nat → Bool) (k : Nat) :
    Tab.find (t.filter (fun p => q p.1)) k = if q k then Tab.find t k else none := by
  induction t with
  | nil => simp
  | cons p t ih =>
    obtain ⟨j, b⟩ := p
    rw [List.filter_cons]
    by_cases hj : j = k
    · subst hj
      cases hq : q j <;> simp_all [Tab.find]
    · cases hq : q j <;> simp_all [Tab.find]

theorem clearPoison_same (w : Nat) (s : State) : (clearPoison w s).dram = s.dram ∧ (clearPoison w s).dmc = s.dmc := by
  unfold clearPoison
  split
  · exact ⟨(raiseObj_within ..).same_dram rfl, raiseObj_dmc ..⟩
  · exact ⟨rfl, rfl⟩

theorem clearPoisons_same (w : Nat) (ks : List Nat) (s : State) :
    (ks.foldl (fun s k => clearPoison (w + k) s) s).dram = s.dram ∧ (ks.foldl (fun s k => clearPoison (w + k) s) s).dmc = s.dmc := by
  induction ks generalizing s with
  | nil => exact ⟨rfl, rfl⟩
  | cons k ks ih =>
    obtain ⟨hdram, hdmc⟩ := ih (clearPoison (w + k) s)
    exact ⟨hdram.trans (clearPoison_same (w + k) s).1, hdmc.trans (clearPoison_same (w + k) s).2⟩

theorem padTo_of_length {l : Bytes} {n : Nat} (h : l.length = n) : padTo l n = l := by
  subst h
  simp [padTo]

theorem writeLine_parts {a : Nat} {l : Bytes} (s : State) (h : l.length = 64) :
    (writeLine a l s).dram = memWrite s.dram (64 * (a / 64)) l ∧
      (writeLine a l s).dmc.words = s.dmc.words.filter (fun p => !decide (a / 64 * 8 ≤ p.1 ∧ p.1 < a / 64 * 8 + 8)) := by
  have htake : l.take 64 = l := List.take_of_length_le (Nat.le_of_eq h)
  unfold writeLine writeWords
  rw [htake, padTo_of_length h]
  extract_lets n u
  have hn : n = 8 := by simp [n, h]
  obtain ⟨hdram, hdmc⟩ := clearPoisons_same (a / 64 * 8) (List.range n) s
  show memWrite u.dram (8 * (a / 64 * 8)) (l.take (8 * n)) = _ ∧ u.dmc.words.filter _ = _
  rw [show u.dram = s.dram from hdram, show u.dmc = s.dmc from hdmc, hn, htake, lineStart]
  exact ⟨rfl, rfl⟩

/-- Settles O54: the line's bytes are written at its address and its words leave the listing. -/
theorem dramWriteStoresTheLine : Obligations.DramWriteStoresTheLine := by
  unfold Obligations.DramWriteStoresTheLine
  intro n a l s hd hwf hlen
  obtain ⟨u, hu, hdram, hwords, -⟩ := dramRequest_serves (.write n a l) s hd
  obtain ⟨hline, hlisted⟩ := writeLine_parts (a := a) u hlen
  refine ⟨_, (exec_dramWrite_of_serves hd n l).trans (congrArg Host.Outcome.next hu), ?_⟩
  show (∀ i, (h : i < l.length) → memGet (writeLine a l u).dram (64 * (a / 64) + i) = l[i]) ∧
    (∀ b, b < 64 * (a / 64) ∨ 64 * (a / 64) + 64 ≤ b → memGet (writeLine a l u).dram b = memGet s.dram b) ∧
    (∀ w, Tab.find (writeLine a l u).dmc.words w = if a / 64 * 8 ≤ w ∧ w < a / 64 * 8 + 8 then none else Tab.find s.dmc.words w) ∧
    memWf (writeLine a l u).dram = true
  rw [hline, hlisted, hdram, hwords]
  refine ⟨fun i hi => memGet_memWrite_inside hwf hi, fun b hb => memGet_memWrite_outside hwf (by rw [hlen]; exact hb), fun w => ?_, memWrite_wf hwf⟩
  rw [find_filterKey _ (fun w => !decide (a / 64 * 8 ≤ w ∧ w < a / 64 * 8 + 8))]
  by_cases hw : a / 64 * 8 ≤ w ∧ w < a / 64 * 8 + 8
  · rw [if_pos hw, if_neg (by simp [hw])]
  · rw [if_neg hw, if_pos (by rw [decide_eq_false hw]; rfl)]

/-! ### Narrow writes -/

/-- A narrow write that stays within its line is one line's part. -/
theorem mergeLines_oneLine {unit a : Nat} {l : Bytes} {f : List (Nat × BitVec 80)} {use : DramUse} (hl : l ≠ []) (hfit : a % 64 + l.length ≤ 64)
    (n : Nat) (s : State) : mergeLines unit f use (n + 2) a l s = mergeLine unit a l f use s := by
  rw [mergeLines, if_neg hl]
  show mergeLines unit f use (n + 1) (a + (64 - a % 64)) (l.drop (64 - a % 64)) (mergeLine unit a (l.take (64 - a % 64)) f use s) = _
  rw [List.take_of_length_le (by omega), List.drop_eq_nil_of_le (by omega), mergeLines, if_pos rfl]

/-- Does a merge find a word that it covers in part poisoned or uncorrectable? -/
def mergeBad (a n : Nat) (f : List (Nat × BitVec 80)) (s : State) : Bool :=
  ((List.range 8).map (fun k => a / 64 * 8 + k)).any (fun w => coverOf a n w == .part &&
    (match (decodeWord (s.storedWord w ^^^ flipOf f (w - a / 64 * 8))).kind with | .poisoned | .uncorrectable => true | _ => false))

/-- What a merge makes of the words of its line before its own bytes land. -/
def mergedBack (unit a n : Nat) (bad : Bool) (s : State) : State :=
  ((List.range 8).map (fun k => a / 64 * 8 + k)).foldl (fun s w =>
    if coverOf a n w = .whole ∧ !bad then clearPoison w s else mergeBack unit a n w 0 s) s

theorem mergeLine_stores {unit a : Nat} {l : Bytes} {use : DramUse} {s : State} (hbad : mergeBad a l.length [] s = false) :
    (mergeLine unit a l [] use s).dram = memWrite (mergedBack unit a l.length false s).dram a l ∧
      (mergeLine unit a l [] use s).dmc.words =
        (mergedBack unit a l.length false s).dmc.words.filter (fun p => coverOf a l.length p.1 == .no) := by
  unfold mergeLine
  extract_lets w0 n ws bad back u v
  have hb : bad = false := hbad
  have hback : u = mergedBack unit a l.length false s := by
    simp only [u, back, hb]
    rfl
  rw [if_neg (by simp [hb])]
  show memWrite u.dram a l = _ ∧ u.dmc.words.filter _ = _
  rw [hback]
  exact ⟨rfl, rfl⟩

theorem mergeLine_refuses {unit a : Nat} {l : Bytes} {use : DramUse} {s : State} (hbad : mergeBad a l.length [] s = true) :
    mergeLine unit a l [] use s =
      refusedMerge use (emit (.dramError unit a) (raiseObj 324 a 0 (count1 0x1100028 (mergedBack unit a l.length true s)))) := by
  unfold mergeLine
  extract_lets w0 n ws bad back u v
  have hb : bad = true := hbad
  rw [if_pos hb]
  simp only [back, hb]
  rfl

theorem decode_unlisted {s : State} {w : Nat} (h : Tab.find s.dmc.words w = none) : (decodeWord (s.storedWord w)).kind = .clean := by
  rw [storedWord_unlisted h, decode_clean _ (wordData_lt s w)]

theorem clearPoison_of_unlisted {s : State} {w : Nat} (h : Tab.find s.dmc.words w = none) : clearPoison w s = s :=
  if_neg (by rw [decode_unlisted h]; decide)

/-- A word that stands poisoned is written back as it is. -/
theorem mergeBack_poisoned {s : State} {unit a n w : Nat} (hwf : memWf s.dram = true)
    (hw : Tab.find s.dmc.words w = some (encodeWord (leNat (memRead s.dram (8 * w) 8)) true)) : SameBytes s (mergeBack unit a n w 0 s) := by
  have hd := wordData_lt s w
  have hdec : decodeWord (s.storedWord w) = { kind := .poisoned, data := leNat (memRead s.dram (8 * w) 8), fixed := [] } := by
    rw [storedWord_listed hw, decode_poison _ hd]
  have hraw : s.storedWord w ^^^ (0 : BitVec 80) = s.storedWord w := BitVec.xor_zero
  have hbytes : leBytes 8 (leNat (memRead s.dram (8 * w) 8)) = memRead s.dram (8 * w) 8 := by
    have := leBytes_leNat (memRead s.dram (8 * w) 8)
    rwa [memRead_length] at this
  have hback : mergeBack unit a n w 0 s = putWord w (leNat (memRead s.dram (8 * w) 8)) (encodeWord (leNat (memRead s.dram (8 * w) 8)) true) s := by
    unfold mergeBack
    dsimp only
    rw [hraw, hdec]
    dsimp only
    rw [storedWord_listed hw]
  rw [hback]
  refine ⟨fun b => ?_, ?_, fun v => ?_, putWord_out ..⟩
  · rw [putWord_dram, hbytes]
    exact memGet_memWrite_self hwf ..
  · rw [putWord_dram]
    exact memWrite_wf hwf
  · rw [putWord_words_poisoned hd]
    by_cases hv : v = w
    · rw [hv, Tab.find_put, hw]
    · exact Tab.find_put_ne _ _ hv

/-- Whatever a merge is, its line's unlisted words and those that stand poisoned keep their bytes. -/
theorem mergedBack_same {unit a n : Nat} {bad : Bool} {s : State} (hwf : memWf s.dram = true)
    (hline : ∀ w, a / 64 * 8 ≤ w → w < a / 64 * 8 + 8 → Tab.find s.dmc.words w = none ∨
      bad = true ∧ Tab.find s.dmc.words w = some (encodeWord (leNat (memRead s.dram (8 * w) 8)) true)) :
    SameBytes s (mergedBack unit a n bad s) := by
  refine foldl_sameBytes (fun w hw u hu => ?_) (SameBytes.refl hwf)
  obtain ⟨hlo, hhi⟩ := mem_lineWords hw
  rcases hline w hlo hhi with hnone | ⟨hbad, hpoison⟩
  · have hnone : Tab.find u.dmc.words w = none := (hu.words w).trans hnone
    split
    · rw [clearPoison_of_unlisted hnone]
      exact SameBytes.refl hu.wf
    · exact mergeBack_clean hu.wf hnone
  · rw [if_neg (by simp [hbad])]
    exact mergeBack_poisoned hu.wf (by rw [hu.words, hu.read]; exact hpoison)

theorem mergeBad_of_unlisted {a n : Nat} {s : State} (h : ∀ k, k < 8 → Tab.find s.dmc.words (a / 64 * 8 + k) = none) :
    mergeBad a n [] s = false := by
  refine List.any_eq_false.mpr fun w hw => ?_
  obtain ⟨k, hk, rfl⟩ := List.mem_map.mp hw
  have hclean : (decodeWord (s.storedWord (a / 64 * 8 + k) ^^^ (0 : BitVec 80))).kind = .clean :=
    (congrArg (fun v => (decodeWord v).kind) BitVec.xor_zero).trans (decode_unlisted (h k (List.mem_range.mp hk)))
  rw [show flipOf [] (a / 64 * 8 + k - a / 64 * 8) = 0 from rfl, hclean]
  simp

theorem mergeBad_of_poisoned {a n w : Nat} {s : State} (hlo : a / 64 * 8 ≤ w) (hhi : w < a / 64 * 8 + 8) (hcov : coverOf a n w = .part)
    (hp : (decodeWord (s.storedWord w)).kind = .poisoned) : mergeBad a n [] s = true := by
  refine List.any_eq_true.mpr ⟨w, List.mem_map.mpr ⟨w - a / 64 * 8, List.mem_range.mpr (by omega), by omega⟩, ?_⟩
  have hdec : (decodeWord (s.storedWord w ^^^ (0 : BitVec 80))).kind = .poisoned :=
    (congrArg (fun v => (decodeWord v).kind) BitVec.xor_zero).trans hp
  rw [show flipOf [] (w - a / 64 * 8) = 0 from rfl, hdec, hcov]
  rfl

/-- Settles O55: writing the line's clean words back changes nothing, so only the write's own bytes differ. -/
theorem narrowWriteMerges : Obligations.NarrowWriteMerges := by
  unfold Obligations.NarrowWriteMerges
  intro n a l use s hd hwf hl hfit hclean
  obtain ⟨u, hu, hdram, hwords, -⟩ := dramRequest_serves (.merge n a l [] use) s hd
  have hserve : serve (.merge n a l [] use) u = mergeLine n a l [] use u := mergeLines_oneLine hl hfit ..
  have huwf : memWf u.dram = true := by rw [hdram]; exact hwf
  have huclean : ∀ k, k < 8 → Tab.find u.dmc.words (a / 64 * 8 + k) = none := by rw [hwords]; exact hclean
  have hline : ∀ w, a / 64 * 8 ≤ w → w < a / 64 * 8 + 8 → Tab.find u.dmc.words w = none := fun w hlo hhi => by
    have := huclean (w - a / 64 * 8) (by omega)
    rwa [Nat.add_sub_cancel' hlo] at this
  have hsame := mergedBack_same (unit := n) (n := l.length) (bad := false) huwf fun w hlo hhi => .inl (hline w hlo hhi)
  obtain ⟨hbytes, hlisted⟩ := mergeLine_stores (unit := n) (use := use) (mergeBad_of_unlisted (n := l.length) huclean)
  refine ⟨_, (exec_mergeWrite_of_serves hd n l [] use).trans (congrArg Host.Outcome.next (hu.trans hserve)), ?_⟩
  rw [hbytes, hlisted]
  refine ⟨fun i hi => memGet_memWrite_inside hsame.wf hi, fun b hb => ?_, fun k hk => ?_, memWrite_wf hsame.wf⟩
  · rw [memGet_memWrite_outside hsame.wf hb, hsame.bytes, hdram]
  · rw [find_filterKey _ (fun w => coverOf a l.length w == .no), hsame.words, huclean k hk, ite_self]

/-- Settles O56: the word is found poisoned, so the merge stores nothing and writes every word of the line back as it was. -/
theorem poisonRefusesTheMerge : Obligations.PoisonRefusesTheMerge := by
  unfold Obligations.PoisonRefusesTheMerge
  intro n a w l use s hd hwf hl hfit hlo hhi hcov hpoison hothers
  obtain ⟨u, hu, hdram, hwords, -⟩ := dramRequest_serves (.merge n a l [] use) s hd
  have hserve : serve (.merge n a l [] use) u = mergeLine n a l [] use u := mergeLines_oneLine hl hfit ..
  have hstored : u.storedWord w = s.storedWord w := by simp only [State.storedWord, hdram, hwords]
  have hkind : (decodeWord (s.storedWord w)).kind = .poisoned := by
    rw [storedWord_listed hpoison, decode_poison _ (wordData_lt s w)]
  have hsame := mergedBack_same (unit := n) (a := a) (n := l.length) (bad := true) (s := u) (by rw [hdram]; exact hwf) fun v hvlo hvhi => by
    rw [hdram, hwords]
    by_cases hv : v = w
    · exact .inr ⟨rfl, by rw [hv]; exact hpoison⟩
    · exact .inl (hothers v hvlo hvhi hv)
  have hrefused := mergeLine_refuses (unit := n) (use := use) (mergeBad_of_poisoned hlo hhi hcov (hstored ▸ hkind))
  have hend : ∀ t : State, (emit (.dramError n a) (raiseObj 324 a 0 (count1 0x1100028 t))).dram = t.dram ∧
      (emit (.dramError n a) (raiseObj 324 a 0 (count1 0x1100028 t))).storedWord w = t.storedWord w := fun t => by
    have hd : (raiseObj 324 a 0 (count1 0x1100028 t)).dram = t.dram := (raiseObj_within ..).same_dram rfl
    exact ⟨hd, by simp only [State.storedWord, emit_dmc, raiseObj_dmc, count1_dmc, emit_dram, hd]⟩
  obtain ⟨hedram, hestored⟩ := hend (mergedBack n a l.length true u)
  refine ⟨_, (exec_mergeWrite_of_serves hd n l [] use).trans (congrArg Host.Outcome.next ((hu.trans hserve).trans hrefused)),
    List.mem_cons_self, fun b => ?_, ?_, ?_⟩
  · rw [hedram, hsame.bytes, hdram]
  · rw [hestored, hsame.storedWord, hstored]
  · rw [hestored, hsame.storedWord, hstored, hkind]

end Sys2Proof.Machine

/-! The event fabric and the Sampler's pages, cursors and controls (R457-R475). -/
namespace Sys2Proof.Machine

variable {s : State}

theorem eventRaise_of_powered {e : Event} (hp : s.powered = true) : doEventRaise e s = raise e.source e.code e.arg0 e.arg1 e.tag s := if_pos hp

theorem eventRaise_of_dark {e : Event} (hp : s.powered = false) : doEventRaise e s = s := if_neg (by simp [hp])

section
variable {p t0 : Nat} (h : s.evt.pageTimer = [(p, t0)])
include h

theorem pageTimer_of_due (hdue : t0 + 1000000000 ≤ s.wall) : (doSamplerPageTimer s).evt = closePage p s.evt := by
  simp only [doSamplerPageTimer, h, List.foldl_cons, List.foldl_nil, if_pos hdue]

theorem pageTimer_of_early (hearly : s.wall < t0 + 1000000000) : doSamplerPageTimer s = s := by
  simp only [doSamplerPageTimer, h, List.foldl_cons, List.foldl_nil, if_neg (Nat.not_le.mpr hearly)]

end

/-- The copies being moved, once no page waits for either copy. -/
theorem oldCopies_eq (a b : Tab Nat) {α : Type} (o : Option α) :
    (if a.isEmpty && b.isEmpty then none else o) = if a = [] ∧ b = [] then none else o := by
  cases a <;> cases b <;> rfl

theorem pageProgrammed_copy1 (hw : s.evt.secWait = []) (p : Nat) :
    (doSamplerPageProgrammed 1 p s).evt = { s.evt with
      wait1 := Tab.del s.evt.wait1 p
      oldCopies := if Tab.del s.evt.wait1 p = [] ∧ s.evt.wait2 = [] then none else s.evt.oldCopies } := by
  simp only [doSamplerPageProgrammed, if_true, hw, List.length_nil, admitSecurity, oldCopies_eq]

theorem pageProgrammed_copy2 (hw : s.evt.secWait = []) (p : Nat) :
    (doSamplerPageProgrammed 2 p s).evt = { s.evt with
      wait2 := Tab.del s.evt.wait2 p
      oldCopies := if s.evt.wait1 = [] ∧ Tab.del s.evt.wait2 p = [] then none else s.evt.oldCopies } := by
  simp only [doSamplerPageProgrammed, if_neg (show ¬ 2 = 1 by decide), hw, List.length_nil, admitSecurity, oldCopies_eq]

theorem smpCursorWrite_cursor {q : Requester} {hi : W32} (hr : mayReach s q .house = true) (hw : writable s true = true) :
    (doSmpCursorWrite q hi s).evt.cursor =
      { foot := (formed s q 0x1280038 (s.reg 0x1280038 0) hi).testBit 63, number := formed s q 0x1280038 (s.reg 0x1280038 0) hi % 2 ^ 48 } := by
  rw [doSmpCursorWrite, if_pos ⟨hr, hw⟩]
  rfl

theorem twSmpCursorWrite_cursor {q : Requester} {tag : Nat} {hi : W32} (hr : mayReach s q (.tenant tag) = true) (hw : writable s true = true) :
    Tab.find (doTwSmpCursorWrite q tag hi s).evt.tenantCursor tag = some (formed s q (tenantKey tag 0x3010) (s.reg (tenantKey tag 0x3010) 0) hi) := by
  rw [doTwSmpCursorWrite, if_pos ⟨hr, hw⟩, (takeHigh_within ..).same_evt rfl, Tab.find_put]

theorem twEvtCtrlWrite_of_value {fn tag v : Nat} {val : W32} (hr : mayReach s (.function (fn / 2 ^ 15) (fn % 2 ^ 15)) (.tenant tag) = true)
    (hw : writable s false = true) (ht : tag ≠ 0) (hv : rwValue s (.tenant tag) 0x6040 val.toNat = some v) :
    doTwEvtCtrlWrite fn tag val s = setReg (tenantKey tag 0x6040) v
      (if v.testBit 31 then { s with evt := { s.evt with boundFn := Tab.put s.evt.boundFn tag fn } } else s) := by
  rw [doTwEvtCtrlWrite, if_pos ⟨hr, hw, ht⟩]
  simp only [hv]

/-- Settles O57: each command has one effect where its premises hold. -/
theorem eventsAreRaisedAndKept : Obligations.EventsAreRaisedAndKept := by
  unfold Obligations.EventsAreRaisedAndKept
  refine ⟨?raised, ?timer, ?programmed, ?cursor, ?tenantCursor, ?control⟩
  case raised =>
    exact fun e s => ⟨fun hp => congrArg Host.Outcome.next (eventRaise_of_powered hp), fun hp => congrArg Host.Outcome.next (eventRaise_of_dark hp)⟩
  case timer =>
    exact fun p t0 s h => ⟨fun hdue => ⟨_, rfl, pageTimer_of_due h hdue⟩, fun hearly => congrArg Host.Outcome.next (pageTimer_of_early h hearly)⟩
  case programmed => exact fun p s hw => ⟨⟨_, rfl, pageProgrammed_copy1 hw p⟩, ⟨_, rfl, pageProgrammed_copy2 hw p⟩⟩
  case cursor => exact fun q hi s hr hw => ⟨_, rfl, smpCursorWrite_cursor hr hw⟩
  case tenantCursor => exact fun q tag hi s hr hw => ⟨_, rfl, twSmpCursorWrite_cursor hr hw⟩
  case control =>
    intro fn tag v val s hr hw ht hv hlt
    refine ⟨_, congrArg Host.Outcome.next (twEvtCtrlWrite_of_value hr hw ht hv), ?_, fun hbit => ?_⟩
    · rw [reg_setReg_same, Nat.mod_eq_of_lt hlt]
    · rw [if_pos hbit]
      exact Tab.find_put ..

end Sys2Proof.Machine

/-! The Pricking loader: commands, judged images, drains, stores and start-up (R37-R46). -/
namespace Sys2Proof.Machine

variable {s : State}

/-! ### Images that pass their checks -/

/-- The image that PRK_IMG_LEN bytes of a fetch give. -/
def fetchedImage (s : State) (img : PrkImage) : PrkImage := { img with bytes := img.bytes.take (s.reg 0x100014 0) }

/-- The loader as a check begins: what it compares an image with is as it was. -/
def beingChecked (img : PrkImage) (s : State) : State :=
  let u := onPrk (fun p => { p with phase := .checking }) s
  onPrk (fun p => { p with
    touch := if headerOk img.bytes then imgTouch img.bytes else u.prk.touch
    storeSerial := imgSerial img.bytes }) u

theorem beingChecked_judge (img : PrkImage) (mode : LoadMode) (s : State) : (beingChecked img s).judge img mode = s.judge img mode := rfl

theorem imageFetched_of_fetching (img : PrkImage) (hf : s.prk.phase = .fetching) :
    doPrkImageFetched img s = checkImage (fetchedImage s img) (onPrk (fun p => { p with phase := .checking }) s) := if_pos hf

theorem checkImage_verified {img : PrkImage} (hc : s.prk.cmd = some .verify) (hj : s.judge img .live = none) :
    checkImage img (onPrk (fun p => { p with phase := .checking }) s) =
      onPrk (fun p => { p with phase := .idle, cmd := none, passed := true }) (beingChecked img s) := by
  have hcmd : (beingChecked img s).prk.cmd = some .verify := hc
  have hjudge : (beingChecked img s).judge img .live = none := hj
  unfold checkImage
  extract_lets touch u
  have hu : u = beingChecked img s := rfl
  simp only [hu, hcmd, hjudge, if_true]

theorem checkImage_applied {img : PrkImage} (hc : s.prk.cmd = some .apply) (hj : s.judge img .live = none)
    (hr : applyRefused img.bytes (s.loaderEnv s.prk.media (resultCfg img.bytes s.prk.active)) (resultCfg img.bytes s.prk.active) = none) :
    checkImage img (onPrk (fun p => { p with phase := .checking }) s) =
      startApply img (resultCfg img.bytes s.prk.active) (onPrk (fun p => { p with passed := true }) (beingChecked img s)) := by
  have hcmd : (beingChecked img s).prk.cmd = some .apply := hc
  have hjudge : (beingChecked img s).judge img .live = none := hj
  have hmedia : (beingChecked img s).prk.media = s.prk.media := rfl
  have henv : ∀ c, (beingChecked img s).loaderEnv s.prk.media c = s.loaderEnv s.prk.media c := fun _ => rfl
  unfold checkImage
  extract_lets touch u c
  have hu : u = beingChecked img s := rfl
  have hcfg : c = resultCfg img.bytes s.prk.active := rfl
  simp only [hu, hcmd, hjudge, reduceCtorEq, if_false, hcfg, hmedia, henv, hr]

theorem apertureWrite_word {off : Nat} (v : W32) (hw : writable s false = true) (ha : off % 4 = 0) (hl : off + 4 ≤ 65536) :
    doPrkApertureWrite off [v] s =
      onPrk (fun p => { p with aperture := Tab.put p.aperture ((s.reg 0x100050 0 + off) / 4) v }) s := by
  rw [doPrkApertureWrite, if_neg (by simp [hw, ha]; omega)]
  rfl

/-- Settles O15: a command of an idle loader begins its fetch; an image that passes its checks leaves each command in its next phase. -/
theorem loaderCommandsBegin : Obligations.LoaderCommandsBegin := by
  unfold Obligations.LoaderCommandsBegin
  refine ⟨?verify, ?apply, ?store, ?abort, ?verified, ?applied, ?aperture⟩
  case verify => exact fun img s hw hi => ⟨_, congrArg Host.Outcome.next (loaderCmd_fetch_of_idle hw hi .verify 1 img), rfl, rfl, rfl, rfl, rfl⟩
  case apply => exact fun img s hw hi => ⟨_, congrArg Host.Outcome.next (loaderCmd_fetch_of_idle hw hi .apply 2 img), rfl, rfl, rfl, rfl⟩
  case store => exact fun img s hw hi => ⟨_, congrArg Host.Outcome.next (loaderCmd_fetch_of_idle hw hi .store 3 img), rfl, rfl, rfl, rfl, rfl⟩
  case abort =>
    intro s hw hb
    refine ⟨_, congrArg Host.Outcome.next (doPrkAbort_of_busy hw hb), ?_⟩
    rw [abandonLoad_prk]
    exact ⟨rfl, rfl, rfl, rfl, rfl⟩
  case verified =>
    exact fun img s hf hc hj =>
      ⟨_, congrArg Host.Outcome.next ((imageFetched_of_fetching img hf).trans (checkImage_verified hc hj)), rfl, rfl, rfl, rfl⟩
  case applied =>
    intro img s hf hc hj hr
    refine ⟨_, congrArg Host.Outcome.next ((imageFetched_of_fetching img hf).trans (checkImage_applied hc hj hr)), ?_⟩
    rw [startApply_prk]
    exact ⟨rfl, rfl, rfl, rfl, rfl⟩
  case aperture =>
    exact fun off v s hw ha hl => ⟨_, congrArg Host.Outcome.next (apertureWrite_word v hw ha hl), Tab.find_put .., rfl⟩

/-! ### Drains and stores -/

/-- Nothing that could still run keeps the unit from draining. -/
theorem intermissionDrained_reports {unit : Nat} (hp : s.prk.phase = .draining) (hu : unit ∈ s.prk.undrained) (ht : s.smg.tasks = [])
    (hc : s.cue.slots = []) :
    doIntermissionDrained unit s =
      if setDel s.prk.undrained unit = [] then
        applyDue (onPrk (fun p => { p with phase := .waiting, late := decide (p.applyCue < s.cue.now) })
          (onPrk (fun p => { p with undrained := setDel s.prk.undrained unit }) s))
      else onPrk (fun p => { p with undrained := setDel s.prk.undrained unit }) s := by
  simp [doIntermissionDrained, hp, hu, ht, hc, onPrk]

theorem applyDue_early (h : s.cue.now < s.prk.applyCue) : applyDue s = s := if_neg fun hdue => Nat.not_le.mpr h hdue.2

theorem storeSlotWritten_of_storing {img : PrkImage} (hp : s.prk.phase = .storing) (hi : s.prk.storeImage = some img) :
    (doStoreSlotWritten true s).prk = { s.prk.putSlot s.prk.inactive (some img) with
      activeSlot := s.prk.inactive
      floor := max s.prk.floor (imgSerial img.bytes)
      phase := .idle
      cmd := none
      storeImage := none
      took := true } := by
  unfold doStoreSlotWritten
  simp only [hi]
  rw [if_neg (by simp [hp]), raise_prk]
  rfl

theorem putSlot_slot (p : PrkState) (k : Nat) (i : Option PrkImage) : (if k = 0 then (p.putSlot k i).slot0 else (p.putSlot k i).slot1) = i := by
  unfold PrkState.putSlot
  split <;> rfl

/-! ### Start-up -/

/-- An active slot whose image passes its checks is the one that start-up takes. -/
theorem bootLoad_of_good {img : PrkImage} {m : MediaFacts} (hp : s.dev.phase = .houseLights) (hr : s.dev.recovery = false) (hb : s.dev.booted ≠ 0)
    (ha : s.prk.active = none) (hn : s.prk.bootNone = false) (hslot : (if s.prk.activeSlot = 0 then s.prk.slot0 else s.prk.slot1) = some img)
    (hpart : imgPartial img.bytes = false) (hok : imageErr img (s.loaderEnv m (resultCfg img.bytes none)) .boot = none) :
    doPrickingBootLoad m s = bootWith s.prk.activeSlot (onPrk (fun p => { p with media := m }) s) := by
  have hjudge : (onPrk (fun p => { p with media := m }) s).judge img .boot = none := hok
  have hslot' : (if s.prk.activeSlot = 0 then (onPrk (fun p => { p with media := m }) s).prk.slot0
      else (onPrk (fun p => { p with media := m }) s).prk.slot1) = some img := hslot
  have herr : (onPrk (fun p => { p with media := m }) s).bootErr s.prk.activeSlot = none := by
    unfold State.bootErr
    rw [hslot']
    simp only [hpart, Bool.false_eq_true, if_false, hjudge]
  unfold doPrickingBootLoad
  rw [if_neg (by simp [hp, hr, hb, ha, hn])]
  extract_lets u a b
  have herr : u.bootErr a = none := herr
  simp only [herr]
  rfl

/-- Settles O17: a unit that drains, an expired drain, a written slot and a good boot slot each take the loader to its next phase. -/
theorem loadsDrainStoreAndBoot : Obligations.LoadsDrainStoreAndBoot := by
  unfold Obligations.LoadsDrainStoreAndBoot
  refine ⟨?drains, ?last, ?expired, ?stored, ?boot⟩
  case drains =>
    exact fun unit s hp hu hleft ht hc => congrArg Host.Outcome.next ((intermissionDrained_reports hp hu ht hc).trans (if_neg hleft))
  case last =>
    intro unit s hp hu hcue ht hc
    have hnone : setDel s.prk.undrained unit = [] := by simp [hu, setDel]
    have hlate : decide (s.prk.applyCue < s.cue.now) = false := by simp [Nat.le_of_lt hcue]
    refine congrArg Host.Outcome.next ((intermissionDrained_reports hp (by simp [hu]) ht hc).trans ?_)
    rw [if_pos hnone]
    refine (applyDue_early (by exact hcue)).trans ?_
    simp only [onPrk, hnone, hlate]
  case expired =>
    intro s hp hexp
    refine ⟨_, congrArg Host.Outcome.next (doDrainLimitExpiry_of_expired hp hexp), ?_⟩
    rw [abandonLoad_prk]
    exact ⟨rfl, rfl, rfl, rfl⟩
  case stored =>
    intro img s hp hi
    refine ⟨doStoreSlotWritten true s, rfl, ?_⟩
    rw [storeSlotWritten_of_storing hp hi]
    exact ⟨rfl, rfl, rfl, putSlot_slot ..⟩
  case boot =>
    intro img m s hp hr hb ha hn hslot hpart hok
    obtain ⟨hactive, hsealed, hfloor⟩ := bootWith_prk s.prk.activeSlot img (onPrk (fun p => { p with media := m }) s) hslot
    exact ⟨_, congrArg Host.Outcome.next (bootLoad_of_good hp hr hb ha hn hslot hpart hok), hactive, hsealed, hfloor,
      (bootWith_within ..).same_dev rfl⟩

end Sys2Proof.Machine

/-! What a step is: the idle cycle, the answer of every command, the state at reset (R4, R11, R12, R56-R58, R430). -/
namespace Sys2Proof.Machine

/-! ### The idle cycle -/

theorem idleTick_of_dark {s : State} (hp : s.dev.perstHigh = false) (hh : s.pwr.harbour = none) : idleTick s = s :=
  if_pos (.inl (by simp [hp, hh]))

theorem takeDeferredPerst_of_none {s : State} (h : s.pwr.harbour = none) : takeDeferredPerst s = s := by
  unfold takeDeferredPerst
  simp only [h]

/-- Between ASU cycles, broadcasts and apply cues only the clocks move. -/
theorem idleTick_of_quiet {s : State} (hp : s.dev.perstHigh = true) (hs : s.dev.waitSupplies = false) (hh : s.pwr.harbour = none)
    (hl : s.prk.phase ≠ .waiting) (he : s.evt.aenDue = []) (h4 : (s.wall + 1) % 4 ≠ 0) (h64 : (cueCycle s.cue).now % 64 ≠ 0) :
    idleTick s = { s with wall := s.wall + 1, cue := cueCycle s.cue } := by
  unfold idleTick
  rw [if_neg (by simp [hp, hs])]
  have hdue : ¬ (s.prk.phase = .waiting ∧ s.prk.applyCue ≤ (cueCycle s.cue).now) := fun h => hl h.1
  simp only [if_neg h4, if_neg h64, if_pos he, applyDue, if_neg hdue]
  exact takeDeferredPerst_of_none hh

/-- Settles O2: on an empty queue a step is the idle cycle. -/
theorem anIdleStepIsOneCycle : Obligations.AnIdleStepIsOneCycle := by
  unfold Obligations.AnIdleStepIsOneCycle
  intro s hq
  rw [step_of_idle hq]
  exact ⟨fun hp hh => congrArg Host.Outcome.next (idleTick_of_dark hp hh),
    fun hp hs hh hl he h4 h64 => congrArg Host.Outcome.next (idleTick_of_quiet hp hs hh hl he h4 h64)⟩

/-! ### Every command is answered -/

/-- The one way a DRAM request stops. -/
theorem dramAnswer {s : State} (a : Nat) (t : State) :
    let o : Host.Outcome State Fault Refusal := if s.runs && s.dmc.mask != 0 && !s.dramHas a then .fault (.outsideDram a) else .next t
    (∃ u, o = .next u) ∨ o = .fault (.outsideDram a) ∧ s.runs = true ∧ s.dmc.mask ≠ 0 ∧ s.dramHas a = false := by
  intro o
  by_cases h : (s.runs && s.dmc.mask != 0 && !s.dramHas a) = true
  · exact .inr ⟨if_pos h, by simpa [and_assoc] using h⟩
  · exact .inl ⟨t, if_neg h⟩

/-- Settles O3: every command but a DRAM request has one answer, and a DRAM request's fault is its address check. -/
theorem everyCommandIsAnswered : Obligations.EveryCommandIsAnswered := by
  unfold Obligations.EveryCommandIsAnswered
  intro c s
  cases c with
  | dramRead n a f use =>
    exact (dramAnswer a (doDramRead n a f use s)).imp_right fun ⟨h, hr, hm, ha⟩ => ⟨a, h, hr, hm, ha, .inl ⟨n, f, use, rfl⟩⟩
  | dramWrite n a l =>
    exact (dramAnswer a (doDramWrite n a l s)).imp_right fun ⟨h, hr, hm, ha⟩ => ⟨a, h, hr, hm, ha, .inr (.inl ⟨n, l, rfl⟩)⟩
  | mergeWrite n a l f use =>
    exact (dramAnswer a (doMergeWrite n a l f use s)).imp_right fun ⟨h, hr, hm, ha⟩ => ⟨a, h, hr, hm, ha, .inr (.inr ⟨n, l, f, use, rfl⟩)⟩
  | _ => exact .inl ⟨_, rfl⟩

/-- Settles O4: every part of the reset state stands at its first value. -/
theorem resetIsDark : Obligations.ResetIsDark := by
  unfold Obligations.ResetIsDark
  exact ⟨rfl, rfl, rfl, rfl, fun _ _ => rfl, fun _ _ => rfl, fun _ => rfl, fun _ => rfl, rfl, rfl, rfl⟩

end Sys2Proof.Machine
